-- ==== Sys2Proof/Word.lean ====
section
/-! DEFINITION. The word types of the block and their plainest arithmetic: bytes, 32-bit register words, two's-complement
reading of a field and its writing back, floor division by a power of two. -/

namespace Sys2Proof

/-- One byte of the data space. -/
abbrev Byte := BitVec 8

/-- One 32-bit register word. -/
abbrev Word32 := BitVec 32

/-- The two's-complement value of the low `w` bits of `v`. -/
def toSigned (w v : Nat) : Int :=
  let u := v % 2 ^ w
  if u < 2 ^ (w - 1) then (u : Int) else (u : Int) - (2 ^ w : Nat)

/-- The low `w` bits of an integer, as the field of a register holds it. -/
def ofSigned (w : Nat) (x : Int) : Nat := (x % ((2 ^ w : Nat) : Int)).toNat

/-- Bits `lo + w - 1 : lo` of a number. -/
def bitsOf (v lo w : Nat) : Nat := v / 2 ^ lo % 2 ^ w

/-- Bit `k` of a number. -/
def bitOf (v k : Nat) : Bool := v / 2 ^ k % 2 == 1

/-- `v` with bit `k` set. -/
def setBit (v k : Nat) : Nat := if bitOf v k then v else v + 2 ^ k

/-- `v` with bit `k` cleared. -/
def clrBit (v k : Nat) : Nat := if bitOf v k then v - 2 ^ k else v

/-- `v` with bit `k` at `b`. -/
def putBit (v k : Nat) (b : Bool) : Nat := if b then setBit v k else clrBit v k

/-- Floor of a signed number divided by 2^k (an arithmetic shift right). -/
def sar (x : Int) (k : Nat) : Int := x / ((2 ^ k : Nat) : Int)

/-- Clamp of a natural number into lo … hi. -/
def clampN (lo hi x : Nat) : Nat := max lo (min hi x)

/-- Clamp of an integer into lo … hi. -/
def clampI (lo hi x : Int) : Int := max lo (min hi x)

/-- Quotient rounded to the nearest integer, ties away from zero; 0 when the divisor is 0. -/
def divNear (a : Int) (b : Int) : Int :=
  if b = 0 then 0
  else
    let q := (2 * a.natAbs + b.natAbs) / (2 * b.natAbs)
    if (a < 0) = (b < 0) then (q : Int) else -(q : Int)

/-- Quotient rounded to the nearest integer, ties upward: floor((2a + b) / 2b), for b > 0. -/
def divHalfUp (a : Int) (b : Int) : Int := if b = 0 then 0 else (2 * a + b) / (2 * b)

/-- One bit of the integer square root: `r` is the root found so far, `k` the weight tried. -/
def isqrtStep (n r k : Nat) : Nat := if (r + 2 ^ k) * (r + 2 ^ k) ≤ n then r + 2 ^ k else r

/-- Integer square root, rounded down, bit by bit from the top. -/
def isqrt (n : Nat) : Nat := ((List.range (Nat.log2 n / 2 + 1)).reverse).foldl (isqrtStep n) 0

/-- The number of one bits of a number below 2^w. -/
def popCount (w v : Nat) : Nat := (List.range w).foldl (fun a k => if bitOf v k then a + 1 else a) 0

/-- The lowest index below `w` whose bit is set. -/
def lowestBit (w v : Nat) : Option Nat := (List.range w).find? fun k => bitOf v k

/-- 0 or 1 of a truth value. -/
def b2n (b : Bool) : Nat := if b then 1 else 0

/-- Little-endian bytes of a number. -/
def leBytes : Nat → Nat → List Byte
  | 0, _ => []
  | n + 1, v => BitVec.ofNat 8 v :: leBytes n (v / 256)

/-- The number that little-endian bytes spell. -/
def ofLeBytes : List Byte → Nat
  | [] => 0
  | b :: bs => b.toNat + 256 * ofLeBytes bs

end Sys2Proof
end

