-- ==== Sys2Proof/Syntax.lean ====
section
/-! DEFINITION. The commands the block takes: one constructor per row of spec/opcode_table.json, with the operands the
command brings from outside. Times are in units of 1/16 ns; `delay` is how long before the present instant the event it
stamps took place. -/

namespace Sys2Proof


/-- The camera's HELLO payload (Table 3.3); CAMERA_ID as four little-endian words. -/
structure CamCaps where
  maxVer : Nat
  rateMask : Nat
  laneMask : Nat
  flags : Nat
  maxLine : Nat
  setDelay : Nat
  trigLat : Nat
  ids : List Nat
  deriving DecidableEq, Repr

/-- The generator state that the Puppeteer hands over with COMMIT (R21, R463): N, H and the internal position in units of
2^-24 µm, and the WLN its generator issues next. -/
structure GenStart where
  n : Int
  h : Int
  pos : Int
  wln : Nat
  deriving DecidableEq, Repr

/-- An index correction as LINE carries it (R41): channel, d, S and its first line. -/
structure LineCorr where
  ch : Fin 4
  d : Int
  s : Nat
  first : Nat
  deriving DecidableEq, Repr


/-- A side-stream packet as it was received (R66): its payload, whether the payload CRC holds, and whether a single error of its
header was corrected. -/
structure Packet where
  bytes : List Byte
  crcOk : Bool
  corrected : Bool
  deriving DecidableEq, Repr

/-- A packet whose data type is none the port takes (R66, R69): the type, the length of its payload in bytes, and its checks. -/
structure OddPacket where
  dt : Nat
  bytes : Nat
  crcOk : Bool
  corrected : Bool
  deriving DecidableEq, Repr

/-- A packet whose header cannot be corrected (R69): the port, and the blocks it took. -/
structure LostPacket where
  port : Fin 16
  blocks : Nat
  deriving DecidableEq, Repr

/-- What CAPTURE says of the active's capture (R159): its cause, the frames left of the present step, whether the shutter has been
retried and whether the capture is repeated. -/
structure CaptureRun where
  cause : Nat
  left : Nat
  retried : Bool
  again : Bool
  deriving DecidableEq, Repr

/-- The accumulators of a blob (R195): counts, extremes, sums and perimeter. x counts from COL_FIRST, y from FIRST_WLN; d, S
and B are in 1/256 LSB. -/
structure BlobAcc where
  n : Nat
  ns : Nat
  runs : Nat
  nsus : Nat
  xl : Int
  xr : Int
  maxRun : Nat
  vmin : Nat
  vmax : Nat
  dmax : Nat
  sv : Nat
  svv : Nat
  sd : Nat
  sx : Nat
  sy : Nat
  sxx : Nat
  syy : Nat
  sxy : Nat
  sdx : Nat
  sdy : Nat
  ss : Nat
  sb : Nat
  tn : Nat
  sh : Nat
  hmax : Nat
  sth : Nat
  per : Nat
  deriving DecidableEq, Repr

/-- A piece that has closed (R201, R202): its blob, family, lines, stamps, flags and accumulators. -/
structure Piece where
  blob : Nat
  fam : Nat
  first : Nat
  last : Nat
  close : Nat
  p0 : Int
  p1 : Int
  flags : Nat
  acc : BlobAcc
  deriving DecidableEq, Repr

/-- A boundary record (R202): the runs that cover COL_FIRST as (family, BLOB_ID), the ALIAS notes (absorbed, survivor) and the
pieces that closed on the line. -/
structure BoundRec where
  wln : Nat
  touches : List (Nat × Nat)
  aliases : List (Nat × Nat)
  closes : List Piece
  deriving DecidableEq, Repr
/-- What an operation on the fabric reads or writes: a word of the data space with its requester (Table 12.4: REQ, SLICE, PORT
and whether PORT is a head), a beat of a write in transit, or an object of the SRAM or the stack that has no address of its own
(Table 12.3). -/
inductive FabTarget where
  | word (addr req : Nat) (slice port : Option Nat) (thermal : Bool)
  | transit (addr req : Nat)
  | transitRead (addr req : Nat) (slice port : Option Nat) (thermal : Bool)
  | stagger (port : Fin 16) (wln : Nat)
  | mapCell (head : Fin 2) (row col : Int)
  | blob (id : Nat)
  | slot (idx : Nat) (bothCopies : Bool)
  | tagRecord (uid : Nat)
  | archive (cseq : Nat)
  deriving DecidableEq, Repr

/-- A request that waits for a token: its class, whether it goes to HBM, and whether it waited at an earlier edge. -/
structure TokReq where
  cls : Fin 8
  hbm : Bool
  waited : Bool
  deriving DecidableEq, Repr
/-- A THP request as it arrives (Table 13.2): the port, the sender's address and UDP port, SESSION, SEQ, and whether its length
is that of its KIND. -/
structure ThpReq where
  port : Fin 2
  ip : Nat
  udp : Nat
  session : Nat
  seq : Nat
  lenOk : Bool
  deriving DecidableEq, Repr

end Sys2Proof

namespace Sys2Proof.Machine

/-- The background of one slice (R185): B, S and how many lines with n ≥ 1 it has seen since the restart. -/
structure SliceBg where
  j : Nat
  b : Nat
  s : Nat
  k : Nat
  deriving DecidableEq, Repr

/-- An open blob (R189). `adj` are its own runs on its last line, `next` those of the line in progress, `ord` its place in
creation order, `pred` the predecessor of a continuing blob (R191). -/
structure Blob where
  id : Nat
  ord : Nat
  fam : Nat
  first : Nat
  last : Nat
  p0 : Int
  p1 : Int
  frontier : List (Int × Int)
  adj : List (Int × Int)
  next : List (Int × Int)
  held : Nat
  flags : Nat
  pred : Option Nat
  headRun : Bool
  taken : Bool
  acc : BlobAcc
  deriving DecidableEq, Repr

/-- A continuation frontier (R191). -/
structure Cont where
  fam : Nat
  runs : List (Int × Int)
  blob : Nat
  deriving DecidableEq, Repr

/-- A piece that has closed, as its seam group keeps it: the lower module's or the upper one's, and the lower module's COL_FIRST and
COL_COUNT under the set of the closing line, from which the piece's x counts (R204). -/
structure ClosedPiece where
  lower : Bool
  first : Int
  count : Nat
  piece : Piece
  deriving DecidableEq, Repr

/-- A seam group (R203): its pieces, those that have closed, the instant of the last close, whether a link was found, what ends it
early, its class word, and the EPOCH_ID in force when it was complete (R215). -/
structure Group where
  members : List Nat
  closed : List ClosedPiece
  linked : Bool
  lastClose : Nat
  noGroup : Bool
  cls : Option Nat
  set : Option Nat
  deriving DecidableEq, Repr

/-- The states of Table 10.2; a FREE slot is one that is not listed. -/
inductive MState
  | armed | run | done
  deriving DecidableEq, Repr

/-- One marker slot. `result` holds RESULT, DIP_T, VALVE, FIRE_POS and FIRE_T from DONE on. -/
structure MSlot where
  idx : Nat
  seq : Nat
  blob : Nat
  close : Nat
  ch : Nat
  entry : Nat
  f : Int
  state : MState
  due : Option Nat
  taken : Bool
  valve : Nat
  firePos : Nat
  fireT : Nat
  result : Nat
  dipT : Nat
  deriving DecidableEq, Repr

/-- What the active module's image holds (R331), taken at the end of a line: blob table, backgrounds, seam groups and touches,
marker slots and SEQ, the ledger, and the keys of the tag stream: next SSEQ, acknowledged SSEQ, and (SSEQ, type, BLOB_ID,
CLOSE_WLN) of the placed records not yet acknowledged. -/
structure TwinImage where
  blobs : List Blob
  conts : List Cont
  bg : List SliceBg
  since : Nat
  ord : Nat
  groups : List Group
  noGroup : List Nat
  own : List (Nat × Nat × Nat)
  upper : List (Nat × Nat × Nat)
  slots : List MSlot
  markSeq : Nat
  avail : Int
  nextSseq : Nat
  acked : Option Nat
  placed : List (Nat × Nat × Nat × Nat)
  deriving DecidableEq, Repr

end Sys2Proof.Machine

namespace Sys2Proof

/-- A String message (Table 15.2): TYPE of Table 15.7, the flags UP, PAIR and ALL, DST, SRC, MSEQ and the payload. -/
structure StrMsg where
  type : Nat
  up : Bool
  pair : Bool
  all : Bool
  dst : Nat
  src : Nat
  mseq : Nat
  body : List Int
  deriving DecidableEq, Repr

/-- A GEOM message (R177): the lower neighbour's COL_LAST, the fields of its RSEAM_HI, and its GRID_PITCH and XW_DIR (R15). -/
structure GeomMsg where
  colLast : Int
  seam : Nat
  grid : Nat
  xwDir : Nat
  deriving DecidableEq, Repr

/-- What TOPO says of a module (Table 15.7): cable position, slot, side (1 B), pair state, and whether it came back to its
sender or over how many hops and on which side it arrived; `chain`: the sender's reach map is that of a broken ring. -/
structure TopoRec where
  pos : Nat
  slot : Nat
  side : Nat
  state : Nat
  mine : Bool
  hops : Nat
  fromOut : Bool
  chain : Bool
  deriving DecidableEq, Repr

/-- What a start brings with it: the pins sampled at the end of reset (TWIN_ROLE, PROF[2:0]), the revision of a patch image
whose CRC and ROM revision check (none: not applied), and the copy pages (copy, page) that read differently at a margin. -/
structure StartInfo where
  sideB : Bool
  prof : Fin 8
  patch : Option Nat
  unstable : List (Nat × Nat)
  deriving DecidableEq, Repr

/-- What the module measures every 1 ms (R412): P_IN, P_LOGIC, P_ACT in mW, BULK in 0.1 V, and V12, VAUX, VCORE, VSRD, VHBM and
VANA in mV. -/
structure PowerMeas where
  pIn : Nat
  pLogic : Nat
  pAct : Nat
  bulk : Nat
  rails : List Nat
  deriving DecidableEq, Repr

/-- What the poll of a cage reads (R447): the alarm flags (bit 0 temperature, 1 supply, 2 Tx bias, 3 Tx power, 4 Rx power) and the
four flag bytes concerned. -/
structure CageFlags where
  cage : Fin 21
  alarms : Nat
  value : Nat
  deriving DecidableEq, Repr


/-- The commands (the rows of spec/opcode_table.json, in its order). -/
inductive Instr
  | timebaseTick
  | tbStep
  | tbHoldover
  | sync (port : Fin 2) (src domain seq : Nat) (twoStep : Bool) (t1 : Int)
  | followUp (port : Fin 2) (src seq : Nat) (t1 : Int)
  | announce (port : Fin 2) (src domain : Nat)
  | announceTimeout
  | delayReqSend
  | delayResp (port : Fin 2) (src seq : Nat) (t4 : Int)
  | delayReq (port : Fin 2) (src domain seq : Nat)
  | announceSend
  | syncSend
  | encoderEdge (ch : Fin 4) (a b : Bool) (delay : Nat)
  | indexEvent (ch : Fin 4) (delay : Nat)
  | ssiReadStart (ch : Fin 4)
  | ssiReading (ch : Fin 4) (busy : Bool) (raw : Nat) (parityBit : Bool) (delay : Nat)
  | hallEdge (ch : Fin 4) (aux : Bool) (delay : Nat)
  | latchEvent (ch : Fin 4) (src : Nat) (rising : Bool) (delay : Nat)
  | latchSw (ch : Fin 4)
  | lSpeedRead (ch : Fin 4)
  | standstill (ch : Fin 4)
  | encoderLos (ch : Fin 4) (line : Fin 3) (lost : Bool)
  | foDisagreeCheck
  | freeRunTrigger
  | holdbackRelease
  | line (wln : Nat) (pos : Nat) (corr : Option LineCorr) (switchAt : Option (Nat × Nat))
  | arm
  | cancel
  | prepare (e id lastId : Nat)
  | stageAck (id : Nat)
  | epochReady (slot : Nat)
  | refuse (slot cause : Nat)
  | commit (e id : Nat) (applyAt : Option Nat) (start : Option GenStart)
  | abort (e id slot cause : Nat)
  | commitForward (committed : Bool) (e id : Nat) (applyAt : Option Nat) (start : Option GenStart)
  | epochDeadline
  | epochApply
  | epochInDoubt
  | stageDiscard (page : Nat)
  | snapReq
  | snapNext
  | snapRelease
  | snap (target : Nat)
  | portEnable (p : Fin 16)
  | portDisable (p : Fin 16)
  | retrain (p : Fin 16)
  | laneLos (p : Fin 16) (k : Fin 4)
  | blockLockGained (p : Fin 16) (k : Fin 4)
  | blockLockLost (p : Fin 16) (k : Fin 4) (cdr : Bool)
  | align (p : Fin 16) (used : Nat) (skews : List Nat)
  | camHello (p : Fin 16) (caps : CamCaps)
  | capsTimeout (p : Fin 16)
  | accept (p : Fin 16) (ver rate lanes credits : Nat)
  | rateSwitch (p : Fin 16)
  | switchTimeout (p : Fin 16)
  | camReady (p : Fin 16)
  | linkActive (p : Fin 16)
  | equalizeTimeout (p : Fin 16)
  | failedRetry (p : Fin 16)
  | eyeReport (p : Fin 16) (h v : Nat)
  | eyeMeasure (p : Fin 16) (k : Fin 4) (h v : Nat)
  | linkMsgDiscard (p : Fin 16) (bytes : Nat)
  | frameStart (p : Fin 16) (vc : Fin 16) (data : Nat) (corrected : Bool)
  | embeddedData (p : Fin 16) (vc : Fin 16) (bytes : List Byte) (crcOk corrected : Bool)
  | rawPacket (p : Fin 16) (vc : Fin 16) (dt : Nat) (bytes : List Byte) (crcOk corrected : Bool)
  | frameEnd (p : Fin 16) (vc : Fin 16) (data : Nat) (corrected : Bool)
  | sideStreamPacket (p : Fin 16) (vc : Fin 16) (dt : Nat) (packet : Packet)
  | dtError (p : Fin 16) (packet : OddPacket)
  | lineTimeout (p : Fin 16) (wln : Nat)
  | creditGUpdate (p : Fin 16)
  | creditSend (p : Fin 16)
  | triggerBlockSend (p : Fin 16) (boundary : Nat)
  | triggerLate (p : Fin 16) (boundary : Nat)
  | setAck (p : Fin 16) (id status : Nat)
  | settingsRetry (p : Fin 16) (tag : Nat)
  | regAck (p : Fin 16) (tag : Nat)
  | regNak (p : Fin 16) (tag cause : Nat)
  | regData (p : Fin 16) (tag value : Nat)
  | crGo (p : Fin 16)
  | crTimeout (p : Fin 16)
  | roleAck (p : Fin 16) (role fromWln : Nat)
  | triggerAtPipeline
  | slotReserve (l : Fin 8)
  | mrLineLanded (l : Fin 8) (p : Fin 16) (wln : Nat)
  | mrSliceFetch (l : Fin 8) (poisoned : Bool)
  | itemGrant (l : Fin 8)
  | lineTailOut (l : Fin 8) (p : Fin 16) (wln : Nat)
  | voidNotice (l : Fin 8) (p : Fin 16) (wln : Nat)
  | ilWaitMaxClear (l : Fin 8)
  | mrResMaxClear (l : Fin 8)
  | statRecord (p : Fin 16)
  | flickerUpdate (p : Fin 16)
  | mainsZeroCrossing (delay : Nat)
  | setReqGo (p : Fin 16)
  | corrTableWrite (addr : Nat) (word : Word32)
  | headEnable (n : Fin 2)
  | headDisable (n : Fin 2)
  | headRestart (n : Fin 2)
  | headPresentLost (n : Fin 2)
  | biasTransfer (n : Fin 2)
  | biasSettled (n : Fin 2)
  | fsync (n : Fin 2)
  | frameDone (n : Fin 2) (samples : List Nat) (delay : Nat)
  | shNow (n : Fin 2)
  | shInhibitWrite (n : Fin 2) (on : Bool)
  | shutterDip (n : Fin 2)
  | shutterDipTimeout (n : Fin 2)
  | captureRetry (n : Fin 2)
  | clrDyn (n : Fin 2)
  | mapFinalize (n : Fin 2)
  | mapRowFetch (n : Fin 2) (k : Int)
  | nucVerify (n bank : Fin 2)
  | nucVerifyDone (n : Fin 2)
  | nucTableWrite (addr : Nat) (word : Word32)
  | segmentAccept (l : Fin 8) (p : Fin 16) (wln : Nat)
  | strip (upper : Bool) (wln : Nat) (cols : List (Int × Nat × Nat))
  | deadlineUs (wln : Nat)
  | webLineRelease
  | stitchEmit
  | calGo
  | segLineHead
  | runExtracted
  | closeDecision
  | bound (r : BoundRec)
  | mergeRecord
  | mergeTimeout (piece : Nat)
  | segRestart
  | freeMinClear
  | classify
  | groupClassify
  | tagForm
  | tagHandoff
  | tagFrameStart
  | hqMaxClear
  | latMaxClear
  | markIntake
  | slotDue
  | markLaunch (ch : Fin 16)
  | shedWaitExpiry (target : Nat)
  | end_ (ch : Fin 16) (samples : List Nat)
  | boost (ch : Fin 16) (samples : List Nat)
  | regp (ch : Fin 16) (samples : List Nat)
  | regh (ch : Fin 16) (samples : List Nat)
  | free (ch : Fin 16) (samples : List Nat)
  | quench (ch : Fin 16) (samples : List Nat)
  | waitr (ch : Fin 16) (samples : List Nat)
  | dip (ch : Fin 16) (idx : Nat)
  | jdip (ch : Fin 16) (idx : Nat)
  | jmp (ch : Fin 16) (idx : Nat)
  | loop (ch : Fin 16) (idx : Nat)
  | wait (ch : Fin 16) (samples : List Nat)
  | conf (ch : Fin 16) (idx : Nat)
  | reservedOpcode (ch : Fin 16)
  | admissionGrant
  | slotAck (slot : Nat)
  | coilShort (ch : Fin 16)
  | lsShort (ch : Fin 16)
  | peakLong (ch : Fin 16)
  | progRunaway (ch : Fin 16)
  | valveOvertemp (ch : Fin 16)
  | hsShort (g : Fin 4)
  | hsOt (g : Fin 4)
  | valveFaultClr (ch : Fin 16) (persists : Bool)
  | groupFaultClr (g : Fin 4) (persists : Bool)
  | railLow (mv : Nat)
  | railRecover (mv : Nat)
  | ledgerStep
  | shedEnd
  | valveCmdRun (ch : Fin 16) (entry : Fin 4)
  | valveCmdStop (ch : Fin 16)
  | valveTableWrite (addr : Nat) (word : Word32)
  | waitMaxClear (g : Fin 4)
  | archiveLine
  | chunkDispatch
  | bufferLink (n : Fin 32) (frb : Bool)
  | chunkDecide (n : Fin 32) (dFail fFail : Bool)
  | budgetTick
  | recordSent (port : Fin 2)
  | clrFault (n : Fin 32)
  | jqTailWrite (idx : Nat)
  | jobStart
  | jobComplete (n : Fin 32) (verifyFail : Bool)
  | cqHeadWrite (idx : Nat)
  | jobAbort
  | fabricOpComplete (cls : Option (Fin 8)) (target : FabTarget) (flip : Nat)
  | ceWriteback
  | tokenIssue (reqs : List TokReq)
  | tokenReturn
  | fabricTimeout (cls : Fin 8) (target : FabTarget)
  | scrubRead (hbm : Bool) (flip : Nat)
  | stackOt
  | degradedEntry
  | degrade
  | recover
  | autoRecover
  | hbmReady (ok : Bool)
  | errorLogRead (idx : Fin 64)
  | arpRequest (port : Fin 2) (target ip mac : Nat)
  | arpReply (port : Fin 2) (ip mac : Nat)
  | arpAge (port : Fin 2) (ip : Nat)
  | arpRefresh
  | icmpEchoRequest (port : Fin 2) (ip len : Nat)
  | frameDiscard (port : Fin 2) (badFcs : Bool)
  | badThp (port : Fin 2)
  | unknownKind (r : ThpReq) (kind : Nat)
  | openSession (r : ThpReq) (major minorMax streams dataPort : Nat)
  | closeSession (r : ThpReq)
  | keepalive (r : ThpReq)
  | regRead (r : ThpReq) (addr count : Nat)
  | regWrite (r : ThpReq) (addr : Nat) (words : List Word32)
  | memRead (r : ThpReq) (addr len : Nat)
  | memWrite (r : ThpReq) (addr : Nat) (data : List Byte)
  | snapshot (r : ThpReq) (target : Nat) (ring release : Bool) (ranges : List (Nat × Nat))
  | jobSubmit (r : ThpReq) (desc : List Byte)
  | jobDoneAck (r : ThpReq) (queueIdx : Nat)
  | jobDoneResend
  | streamAck (r : ThpReq) (sseq : Nat)
  | streamNack (r : ThpReq) (first last : Nat)
  | sessionTimeout (j : Fin 4)
  | hostPortDown (port : Fin 2)
  | hostPortUp (port : Fin 2)
  | homeReturn (j : Fin 4)
  | spiRead (sckHigh : Bool) (word : Word32) (ready : Bool)
  | spiWrite (sckHigh : Bool) (word : Word32)
  | spiWriteApply
  | spiFrameEnd (bits : Fin 32)
  | mstGo (sel : Fin 8)
  | mstTransferDone (received : Word32)
  | twinHello (sideB : Bool) (state : Nat) (takeOut : Bool) (serial fw : Nat)
  | helloSend
  | soloWaitExpiry
  | heart (tb wln : Nat) (hbm : Bool) (step : Nat)
  | twinEcho (answer : Bool) (rtt residence : Nat)
  | stage (e id : Nat) (set : List (Nat × Nat))
  | digest (wln runs bg n closes : Nat)
  | creditG (gs : List (Nat × Nat))
  | capture (n : Fin 2) (sh cap chk : Bool) (state : Nat) (run : CaptureRun)
  | twinLaunch (slot firePos fireT energy : Nat)
  | slotEnd (slot result dipT spent : Nat)
  | faultEv (target : Fin 20) (cause : Nat) (latched : Bool)
  | placed (first : Nat) (keys : List (Nat × Nat × Nat))
  | hostAck (sseq : Nat)
  | counts (cs : List (Nat × Nat))
  | imageReq
  | image (w0 : Nat) (img : Machine.TwinImage)
  | resyncFail
  | yieldMsg
  | twinRefuse
  | heartbeatTimeout
  | takeInChange (level : Bool)
  | twinLinkDown
  | switchOver
  | takeOver
  | resync
  | topo (r : TopoRec)
  | stringEcho (out answer : Bool) (rtt residence : Nat)
  | pairHb
  | timeMsg (origin corr hops : Nat) (fromOut : Bool) (residence : Nat)
  | geom (g : GeomMsg)
  | newActive (slot : Nat) (sideB : Bool)
  | stringForward (up : Bool) (arrived : List StrMsg)
  | formWaitExpiry
  | hopDown (out : Bool)
  | hopHeal
  | store
  | storePageWritten
  | workingArrayWrite (addr : Nat) (word : Word32)
  | waUeReload (page : Fin 1024)
  | scanPage (weak : Nat)
  | scanPassStart
  | scanNow
  | profileLoad
  | profileRefCopied
  | bankBusyTimeout
  | profileImageApply
  | flashErase
  | flashProg
  | flashRead
  | flashOpDone (badReadBack : Bool)
  | conversionEnd (n : Fin 2) (x : Int) (overload : Bool)
  | seqRun (n : Fin 2) (on : Bool)
  | injGo (n : Fin 2)
  | injEdge (n : Fin 2) (io : Fin 8) (falling : Bool)
  | calZero (n : Fin 2)
  | calFullScale (n : Fin 2)
  | calAbort (n : Fin 2)
  | tempSample (temps : List Int) (rail : Nat) (meas : PowerMeas)
  | throttleStep
  | shutdownProceed
  | hwTrip (coresRun : Bool)
  | refTrimUpdate
  | refCorrUpdate
  | planNow
  | replan
  | mainsInTolerance (rms : Nat)
  | mainsLoss (bulk : Nat)
  | actuatorRestore
  | bulkLowOff
  | railFault
  | headOc (n : Fin 2)
  | refclkLoss
  | refclkReturn (info : StartInfo)
  | rootPllUnlock (info : StartInfo)
  | lanePllUnlock
  | hbmPllUnlock
  | sysReset (info : StartInfo)
  | inspReset
  | watchdogExpiry (info : StartInfo)
  | lockstepMismatch (info : StartInfo)
  | mgmtMemoryUe (info : StartInfo)
  | unitReset (kind : Fin 4) (mask : Word32)
  | lpRequest (lp : Fin 4)
  | wake (io : Fin 8) (falling : Bool)
  | powerOnStart (info : StartInfo)
  | supervisorRestart (sec : Nat) (board : Int) (mainsAbsent : Bool) (info : StartInfo)
  | freqMeasure (khz : List Nat)
  | irqClear (page : Nat) (mask again : BitVec 8)
  | errClr (page : Nat)
  | lockingRead (who : Option (Fin 4)) (addr : Nat)
  | lockExpiry (who : Option (Fin 4)) (locker : Nat)
  | registerWrite (who : Option (Fin 4)) (addr : Nat) (word : Word32)
  | cageInsert (cage : Fin 21) (ident media cls : Nat)
  | cageRemove (cage : Fin 21)
  | cagePoll (flags : List CageFlags)
  | twinLinkUp
  | hopUp (out : Bool)
  | invalidSyncHeader (p : Fin 16) (k : Fin 4)
  | headerEccError (lost : LostPacket)
  | spiStrayEdge
  | messageCrcFail (string : Bool)
  | headPresentGained (n : Fin 2)
  | ringOscillatorReading (ppm : List Int)
  | persistentCounterRefresh
  | railWarn (rail : Fin 6) (mv : Nat)
  | ssiClockEdgeReceived (ch : Fin 4)
  deriving DecidableEq, Repr

end Sys2Proof
end

