-- ==== Sys2Proof/Config.lean ====
section
/-! DEFINITION. What one manufactured module fixes (identity, sensor model) and the values the spec leaves open: opaque
constants without a body, so that no proof can see a value of them. -/

namespace Sys2Proof

/-- A fresh value at each use, indexed by the state's counter of free values. DESIGN CHOICE (log entry 3): the spec states
no value where this is read. -/
opaque Config.freeValue : Nat → Nat

/-- The match (length, distance) an engine takes at a place, as a function of the level, the bytes before it and the bytes
ahead: R256 leaves it to the engine within limits, which Machine/Deflate.lean holds it to. Log entry 4. -/
opaque Config.deflateMatch : Nat → List Byte → List Byte → Nat × Nat

/-- The codes of a dynamic block: lengths of the literal/length and distance codes, lengths of the code-length code by
symbol, the run-length symbols (symbol, repeat field) that spell the lengths, and how many code lengths are sent. -/
structure DynCodes where
  ll : List Nat
  dd : List Nat
  cl : List Nat
  ops : List (Nat × Nat)
  sent : Nat
  deriving DecidableEq, Repr, Inhabited

/-- The codes an engine builds for the symbols of a block, left to it by R256 in the same way. Log entry 4. -/
opaque Config.deflateCodes : List (Nat × Nat) → DynCodes

/-- The quotient the spec does not state where a divisor is zero, as a function of the dividend. Log entry 3. -/
opaque Config.divByZero : Int → Nat

/-- CODE of an event-log entry: R350 gives it two bytes and the spec no values. Log entry 16. -/
opaque Config.eventCode : Nat → BitVec 16

/-- ARG and VALUE of an event-log entry, as functions of the event and of what it is about: R350 gives their widths and the
spec no contents. Log entry 16. -/
opaque Config.eventArg : Nat → Nat → Nat → BitVec 16
opaque Config.eventValue : Nat → Nat → Nat → BitVec 32

/-- HOST.MAC_LO and MAC_HI: factory values (spec/13_host_protocol.md). -/
opaque Config.macLo : BitVec 32
opaque Config.macHi : BitVec 16

/-- SYS.MODEL, SERIAL and FW_ROM: factory values (R445 of spec/20_register_pages.md). -/
opaque Config.variant : BitVec 8
opaque Config.hwRev : BitVec 8
opaque Config.serialLo : BitVec 32
opaque Config.serialHi : BitVec 32
opaque Config.fwRom : BitVec 32

/-- THM.MODEL_i: neighbour q of site i (0xFF none) and its gradient, factory values (spec/18_temperature_and_ageing.md). -/
opaque Config.siteNbr : Nat → Nat → BitVec 8
opaque Config.siteGrad : Nat → Nat → BitVec 32

/-- Thermocouple reference functions: nV of a type at a temperature in 2^-16 °C, and the ends of its range. R382 names IEC
60584-1 and states no coefficients. Log entry 19. -/
opaque Config.tcEmf : Nat → Int → Int
opaque Config.tcLo : Nat → Int
opaque Config.tcHi : Nat → Int

/-- The converter's own temperature in 2^-16 °C from its code c', by factory coefficients (R378). -/
opaque Config.intTemp : Nat → Int → Int

/-- RA and RB of a converter (R403), factory coefficients. -/
opaque Config.refRA : Nat → Int
opaque Config.refRB : Nat → Int

/-- C1 to C3 of the reference oscillator's drift (R402), factory coefficients, in 2^-48 ppm per °C, °C² and °C³ (DESIGN CHOICE, log entry
111: R402 states no format). -/
opaque Config.refC1 : Int
opaque Config.refC2 : Int
opaque Config.refC3 : Int

/-- The 32 bits that a CRC of a list kept inside a DIGEST has (R331 gives the lists and not their bytes). Log entry 20. -/
opaque Config.digest : List Int → BitVec 32

end Sys2Proof
end

