-- ==== Sys2Proof/Machine/Regs.lean ====
section
/-! DEFINITION. Register fields as data and the register file: one sparse list of (bit address, value) pairs in one canonical
form (keys strictly rising, no entry equal to the field's reset value), so that equal register files are equal lists. -/

namespace Sys2Proof.Machine

/-- The access codes of the register tables (spec/00_scope.md, Table 0.9 conventions). -/
inductive Acc
  | ro | rw | rws | wo | w1c | w1s
  deriving DecidableEq, Repr

/-- One register field: the byte address of its word, its lowest bit, its width, its access code, its reset value and the
bounds a write is clamped into. -/
structure Fld where
  addr : Nat
  lo : Nat
  width : Nat
  acc : Acc
  reset : Nat
  cmin : Nat
  cmax : Nat
  deriving DecidableEq, Repr

/-- A field whose table row names no clamp. -/
def fld (addr lo width : Nat) (acc : Acc) (reset : Nat) : Fld := ⟨addr, lo, width, acc, reset, 0, 2 ^ width - 1⟩

/-- A field whose table row says that written values are clamped. -/
def fldC (addr lo width : Nat) (acc : Acc) (reset cmin cmax : Nat) : Fld := ⟨addr, lo, width, acc, reset, cmin, cmax⟩

/-- The key of a field in the register file: the bit address of its lowest bit. -/
def Fld.key (f : Fld) : Nat := 32 * f.addr + f.lo

/-- The index of the page a field stands in (R7: address bits 23:12). -/
def Fld.page (f : Fld) : Nat := f.addr / 4096

/-- The register file. -/
abbrev RegFile := List (Nat × Nat)

/-- The value listed under a key, or `dflt`. -/
def RegFile.get : RegFile → Nat → Nat → Nat
  | [], _, dflt => dflt
  | (k, v) :: rest, key, dflt => if k = key then v else RegFile.get rest key dflt

/-- The file with `key` absent. -/
def RegFile.erase : RegFile → Nat → RegFile
  | [], _ => []
  | (k, v) :: rest, key => if k = key then RegFile.erase rest key else (k, v) :: RegFile.erase rest key

/-- The file with `key` listed at `val`, in its place. -/
def RegFile.put : RegFile → Nat → Nat → RegFile
  | [], key, val => [(key, val)]
  | (k, v) :: rest, key, val =>
    if key < k then (key, val) :: (k, v) :: rest
    else if k = key then RegFile.put rest key val
    else (k, v) :: RegFile.put rest key val

/-- The file in which `key` reads `val`, where an absent key reads `dflt`. -/
def RegFile.set (r : RegFile) (key val dflt : Nat) : RegFile := if val = dflt then r.erase key else r.put key val

/-- Keys strictly rising: the half of the canonical form that the file alone can say. -/
def RegFile.sorted : RegFile → Bool
  | [] => true
  | [_] => true
  | (k, _) :: (k', v') :: rest => decide (k < k') && RegFile.sorted ((k', v') :: rest)

/-- One run of register pages of the same kind (Table 20.3): first page index, number of instances, type code, whether it
holds RW-S fields, persistent counters, a window, how many IRQ_RAW bits it has and which of them ERR_CNT counts. -/
structure PageKind where
  first : Nat
  count : Nat
  type : Nat
  staged : Bool
  persist : Bool
  window : Bool
  irqN : Nat
  errMask : Nat
  deriving DecidableEq, Repr

/-- Table 20.3 with the capabilities of Table 20.2, the IRQ_RAW assignments of each page's chapter and Table 20.4. -/
def pageKinds : List PageKind := [
  ⟨0x000, 1, 0x01, false, false, false, 2, 0x03⟩ /- SYS -/,
  ⟨0x001, 1, 0x02, false, true, false, 3, 0x07⟩ /- CLK -/,
  ⟨0x002, 1, 0x03, false, false, false, 6, 0x19⟩ /- PWR -/,
  ⟨0x003, 1, 0x04, false, true, false, 2, 0x02⟩ /- RST -/,
  ⟨0x004, 1, 0x05, false, true, false, 6, 0x3f⟩ /- THM -/,
  ⟨0x005, 1, 0x06, false, true, false, 4, 0x0c⟩ /- AGE -/,
  ⟨0x006, 1, 0x07, false, false, true, 7, 0x7e⟩ /- NVS -/,
  ⟨0x007, 1, 0x08, false, false, false, 4, 0x0a⟩ /- PROF -/,
  ⟨0x008, 1, 0x09, false, false, false, 5, 0x0f⟩ /- MGMT -/,
  ⟨0x009, 1, 0x0a, false, false, false, 8, 0x6f⟩ /- MEM -/,
  ⟨0x00a, 1, 0x0b, true, false, false, 3, 0x07⟩ /- FAB -/,
  ⟨0x010, 1, 0x10, true, false, false, 0, 0x00⟩ /- WEB -/,
  ⟨0x011, 4, 0x11, true, false, false, 0, 0x00⟩ /- ENC -/,
  ⟨0x018, 1, 0x18, true, false, false, 0, 0x00⟩ /- TRIG -/,
  ⟨0x020, 16, 0x20, true, false, false, 8, 0xf6⟩ /- PORT -/,
  ⟨0x030, 16, 0x21, false, false, false, 0, 0x00⟩ /- LANE -/,
  ⟨0x040, 8, 0x28, true, false, false, 7, 0x7f⟩ /- PIPE -/,
  ⟨0x048, 8, 0x29, true, false, true, 8, 0xcc⟩ /- STAT -/,
  ⟨0x050, 2, 0x30, true, false, true, 8, 0x7c⟩ /- THERM -/,
  ⟨0x052, 1, 0x31, true, false, false, 8, 0xff⟩ /- TAPC -/,
  ⟨0x058, 1, 0x38, true, false, true, 6, 0x37⟩ /- STITCH -/,
  ⟨0x060, 1, 0x40, true, false, true, 6, 0x3f⟩ /- SEG -/,
  ⟨0x061, 1, 0x41, true, false, true, 2, 0x03⟩ /- CLASS -/,
  ⟨0x062, 1, 0x42, true, false, false, 3, 0x07⟩ /- TAG -/,
  ⟨0x068, 1, 0x48, true, false, false, 6, 0x3f⟩ /- MARK -/,
  ⟨0x069, 4, 0x49, true, false, false, 2, 0x03⟩ /- HSG -/,
  ⟨0x070, 16, 0x4a, true, false, true, 4, 0x0e⟩ /- VALVE -/,
  ⟨0x080, 1, 0x50, true, false, true, 6, 0x37⟩ /- ZCTL -/,
  ⟨0x081, 32, 0x51, false, false, false, 3, 0x07⟩ /- Z -/,
  ⟨0x0b0, 1, 0x58, false, false, false, 6, 0x33⟩ /- HOST -/,
  ⟨0x0b8, 1, 0x60, false, false, true, 7, 0x6f⟩ /- TWIN -/,
  ⟨0x0b9, 1, 0x61, false, false, false, 5, 0x1a⟩ /- STRING -/,
  ⟨0x0c0, 2, 0x68, true, false, false, 6, 0x38⟩ /- PADC -/]

/-- The kind of the page with an index, if Table 20.3 has it. -/
def pageKind (idx : Nat) : Option PageKind := pageKinds.find? fun p => decide (p.first ≤ idx ∧ idx < p.first + p.count)

/-- A page index that exists. -/
def pageExists (idx : Nat) : Bool := (pageKind idx).isSome

/-- All page indices of Table 20.3, rising. -/
def pageList : List Nat := pageKinds.flatMap fun p => (List.range p.count).map fun k => p.first + k

/-- SYS.PAGE_MAP word k (R445): bit b is set when page index 32k + b exists. -/
def pageMapWord (k : Nat) : Nat :=
  (List.range 32).foldl (fun a b => if pageExists (32 * k + b) then a + 2 ^ b else a) 0

/-- The common registers of page `p` (R437, Table 20.2). -/
def Com.STATUS (p : Nat) : Fld := fld (4096 * p + 0x00C) 0 32 .ro 0
def Com.IRQ_RAW (p : Nat) : Fld := fld (4096 * p + 0x010) 0 8 .w1c 0
def Com.IRQ_EN (p : Nat) : Fld := fld (4096 * p + 0x014) 0 8 .rw 0
def Com.VIEW (p : Nat) : Fld := fld (4096 * p + 0x01C) 2 1 .rw 0
def Com.ERR_CNT (p : Nat) : Fld := fld (4096 * p + 0x020) 0 32 .ro 0

/-- The common fields that hold a value of their own (PAGE_ID, PAGE_CAP, IRQ_STAT and STAGE are computed). -/
def Com.fields (p : Nat) : List Fld := [Com.IRQ_RAW p, Com.IRQ_EN p, Com.VIEW p, Com.ERR_CNT p]

/-! Page indices by name (Table 20.3). -/
def Page.SYS : Nat := 0x000
def Page.CLK : Nat := 0x001
def Page.PWR : Nat := 0x002
def Page.RST : Nat := 0x003
def Page.THM : Nat := 0x004
def Page.AGE : Nat := 0x005
def Page.NVS : Nat := 0x006
def Page.PROF : Nat := 0x007
def Page.MGMT : Nat := 0x008
def Page.MEM : Nat := 0x009
def Page.FAB : Nat := 0x00a
def Page.WEB : Nat := 0x010
def Page.ENC (n : Nat) : Nat := 0x011 + n
def Page.TRIG : Nat := 0x018
def Page.PORT (n : Nat) : Nat := 0x020 + n
def Page.LANE (n : Nat) : Nat := 0x030 + n
def Page.PIPE (n : Nat) : Nat := 0x040 + n
def Page.STAT (n : Nat) : Nat := 0x048 + n
def Page.THERM (n : Nat) : Nat := 0x050 + n
def Page.TAPC : Nat := 0x052
def Page.STITCH : Nat := 0x058
def Page.SEG : Nat := 0x060
def Page.CLASS : Nat := 0x061
def Page.TAG : Nat := 0x062
def Page.MARK : Nat := 0x068
def Page.HSG (n : Nat) : Nat := 0x069 + n
def Page.VALVE (n : Nat) : Nat := 0x070 + n
def Page.ZCTL : Nat := 0x080
def Page.Z (n : Nat) : Nat := 0x081 + n
def Page.HOST : Nat := 0x0b0
def Page.TWIN : Nat := 0x0b8
def Page.STRING : Nat := 0x0b9
def Page.PADC (n : Nat) : Nat := 0x0c0 + n

end Sys2Proof.Machine
end

