-- ==== Sys2Proof/Machine/RegMapA.lean ====
section
/-! DEFINITION. The register fields of the acquisition pages, one definition per field of the tables of spec/01 to spec/06 (address, bit range, access code, reset value, clamp). -/

namespace Sys2Proof.Machine

/-! Page WEB: the register table of R31 of spec/01_web_coordinates_and_time.md; one page. -/

def WEB.TB_0.VAL : Fld := fld (0x10040) 0 32 .ro 0
def WEB.TB_1.VAL : Fld := fld (0x10044) 0 32 .ro 0
def WEB.TB_2.VAL : Fld := fld (0x10048) 0 4 .ro 0
def WEB.TB_RATE.RATE : Fld := fld (0x1004c) 0 32 .rw 0
def WEB.TB_CTL.SRC : Fld := fld (0x10050) 0 2 .ro 0
def WEB.TB_CTL.LOCKED : Fld := fld (0x10050) 2 1 .ro 0
def WEB.TB_CTL.PTP_EN : Fld := fld (0x10050) 3 1 .rw 0
def WEB.TB_CTL.STEP : Fld := fld (0x10050) 4 1 .w1s 0
def WEB.TB_CTL.STEP_REFUSED : Fld := fld (0x10050) 5 1 .w1c 0
def WEB.TB_STEP.STEP_NS : Fld := fld (0x10054) 0 32 .rw 0
def WEB.POS_LO.POS : Fld := fld (0x10060) 0 32 .ro 0
def WEB.POS_HI.POS : Fld := fld (0x10064) 0 16 .ro 0
def WEB.POS_PRESET_LO.POS_PRESET : Fld := fld (0x10068) 0 32 .rws 0
def WEB.POS_PRESET_HI.POS_PRESET : Fld := fld (0x1006c) 0 16 .rws 0
def WEB.WLN_LO.WLN : Fld := fld (0x10070) 0 32 .ro 0
def WEB.WLN_HI.WLN : Fld := fld (0x10074) 0 16 .ro 0
def WEB.WLN_PRESET_LO.WLN_PRESET : Fld := fld (0x10078) 0 32 .rws 0
def WEB.WLN_PRESET_HI.WLN_PRESET : Fld := fld (0x1007c) 0 16 .rws 0
def WEB.GRID_PITCH.VAL : Fld := fld (0x10080) 0 20 .rws 50000
def WEB.GEOM.XW_DIR : Fld := fld (0x10084) 0 1 .rws 0
def WEB.BLOCK_LEN.VAL : Fld := fldC (0x10088) 0 14 .rws 1024 256 8192
def WEB.BLOCK_ORIGIN_LO.BLOCK_ORIGIN : Fld := fld (0x1008c) 0 32 .ro 0
def WEB.BLOCK_ORIGIN_HI.BLOCK_ORIGIN : Fld := fld (0x10090) 0 16 .ro 0
def WEB.EPOCH_TGT_LO.EPOCH_TGT : Fld := fld (0x100a0) 0 32 .rw 0
def WEB.EPOCH_TGT_HI.EPOCH_TGT : Fld := fld (0x100a4) 0 16 .rw 0
def WEB.EPOCH_CTL.ARM : Fld := fld (0x100a8) 0 1 .w1s 0
def WEB.EPOCH_CTL.CANCEL : Fld := fld (0x100a8) 1 1 .w1s 0
def WEB.EPOCH_CTL.LEAD_LINES : Fld := fld (0x100a8) 8 8 .rw 16
def WEB.EPOCH_STATUS.STATE : Fld := fld (0x100ac) 0 3 .ro 0
def WEB.EPOCH_STATUS.RESULT : Fld := fld (0x100ac) 4 4 .ro 0
def WEB.EPOCH_STATUS.FAIL_SLOT : Fld := fld (0x100ac) 8 3 .ro 0
def WEB.EPOCH_STATUS.IN_DOUBT : Fld := fld (0x100ac) 11 1 .w1c 0
def WEB.EPOCH_ID.LIVE_ID : Fld := fld (0x100b0) 0 16 .ro 0
def WEB.EPOCH_ID.ARMED_ID : Fld := fld (0x100b0) 16 16 .ro 0
def WEB.SNAP_TGT_LO.SNAP_TGT : Fld := fld (0x100c0) 0 32 .rw 0
def WEB.SNAP_TGT_HI.SNAP_TGT : Fld := fld (0x100c4) 0 16 .rw 0
def WEB.SNAP_CTL.REQ : Fld := fld (0x100c8) 0 1 .w1s 0
def WEB.SNAP_CTL.NEXT : Fld := fld (0x100c8) 1 1 .w1s 0
def WEB.SNAP_CTL.RING : Fld := fld (0x100c8) 2 1 .rw 0
def WEB.SNAP_CTL.VIEW : Fld := fld (0x100c8) 3 1 .rw 0
def WEB.SNAP_CTL.RELEASE : Fld := fld (0x100c8) 4 1 .w1s 0
def WEB.SNAP_STATUS.PENDING : Fld := fld (0x100cc) 0 1 .ro 0
def WEB.SNAP_STATUS.VALID : Fld := fld (0x100cc) 1 1 .ro 0
def WEB.SNAP_STATUS.EPOCH_ID : Fld := fld (0x100cc) 16 16 .ro 0
def WEB.fields1 : List Fld := [
  WEB.TB_0.VAL, WEB.TB_1.VAL, WEB.TB_2.VAL, WEB.TB_RATE.RATE,
  WEB.TB_CTL.SRC, WEB.TB_CTL.LOCKED, WEB.TB_CTL.PTP_EN, WEB.TB_CTL.STEP,
  WEB.TB_CTL.STEP_REFUSED, WEB.TB_STEP.STEP_NS, WEB.POS_LO.POS, WEB.POS_HI.POS,
  WEB.POS_PRESET_LO.POS_PRESET, WEB.POS_PRESET_HI.POS_PRESET, WEB.WLN_LO.WLN, WEB.WLN_HI.WLN,
  WEB.WLN_PRESET_LO.WLN_PRESET, WEB.WLN_PRESET_HI.WLN_PRESET, WEB.GRID_PITCH.VAL, WEB.GEOM.XW_DIR,
  WEB.BLOCK_LEN.VAL, WEB.BLOCK_ORIGIN_LO.BLOCK_ORIGIN, WEB.BLOCK_ORIGIN_HI.BLOCK_ORIGIN, WEB.EPOCH_TGT_LO.EPOCH_TGT,
  WEB.EPOCH_TGT_HI.EPOCH_TGT, WEB.EPOCH_CTL.ARM, WEB.EPOCH_CTL.CANCEL, WEB.EPOCH_CTL.LEAD_LINES,
  WEB.EPOCH_STATUS.STATE, WEB.EPOCH_STATUS.RESULT, WEB.EPOCH_STATUS.FAIL_SLOT, WEB.EPOCH_STATUS.IN_DOUBT,
  WEB.EPOCH_ID.LIVE_ID, WEB.EPOCH_ID.ARMED_ID, WEB.SNAP_TGT_LO.SNAP_TGT, WEB.SNAP_TGT_HI.SNAP_TGT,
  WEB.SNAP_CTL.REQ, WEB.SNAP_CTL.NEXT, WEB.SNAP_CTL.RING, WEB.SNAP_CTL.VIEW,
  WEB.SNAP_CTL.RELEASE, WEB.SNAP_STATUS.PENDING, WEB.SNAP_STATUS.VALID, WEB.SNAP_STATUS.EPOCH_ID]
/-- The fields of page WEB that its own table gives. -/
def WEB.fields : List Fld := (WEB.fields1)

/-! Page ENC: the register table of R52 of spec/02_encoder_inputs.md; unit n. -/

def ENC.CFG.MODE (n : Nat) : Fld := fld (0x11040 + 0x1000 * n) 0 2 .rws 0
def ENC.CFG.DECODE (n : Nat) : Fld := fld (0x11040 + 0x1000 * n) 2 2 .rws 2
def ENC.CFG.TERM (n : Nat) : Fld := fld (0x11040 + 0x1000 * n) 4 1 .rw 1
def ENC.CFG.FILT (n : Nat) : Fld := fld (0x11040 + 0x1000 * n) 8 4 .rws 2
def ENC.CFG.INDEX_GATE (n : Nat) : Fld := fld (0x11040 + 0x1000 * n) 13 2 .rws 0
def ENC.CFG.HALL_DIR (n : Nat) : Fld := fld (0x11040 + 0x1000 * n) 16 2 .rws 0
def ENC.CFG.HALL_IO (n : Nat) : Fld := fld (0x11040 + 0x1000 * n) 18 3 .rws 0
def ENC.CFG.HALL_DEB (n : Nat) : Fld := fld (0x11040 + 0x1000 * n) 24 8 .rws 20
def ENC.SCALE_LO.SCALE (n : Nat) : Fld := fld (0x11044 + 0x1000 * n) 0 32 .rws 0
def ENC.SCALE_HI.SCALE (n : Nat) : Fld := fld (0x11048 + 0x1000 * n) 0 16 .rws 0
def ENC.CNT_LO.CNT (n : Nat) : Fld := fld (0x1104c + 0x1000 * n) 0 32 .ro 0
def ENC.CNT_HI.CNT (n : Nat) : Fld := fld (0x11050 + 0x1000 * n) 0 16 .ro 0
def ENC.FCNT_LO.FCNT (n : Nat) : Fld := fld (0x11054 + 0x1000 * n) 0 32 .ro 0
def ENC.FCNT_HI.FCNT (n : Nat) : Fld := fld (0x11058 + 0x1000 * n) 0 16 .ro 0
def ENC.CH_STAT.DIR (n : Nat) : Fld := fld (0x1105c + 0x1000 * n) 0 1 .ro 0
def ENC.CH_STAT.STANDSTILL (n : Nat) : Fld := fld (0x1105c + 0x1000 * n) 1 1 .ro 1
def ENC.CH_STAT.SPEED_VALID (n : Nat) : Fld := fld (0x1105c + 0x1000 * n) 2 1 .ro 0
def ENC.CH_STAT.LOS (n : Nat) : Fld := fld (0x1105c + 0x1000 * n) 3 3 .ro 0
def ENC.CH_STAT.QUAD_ERR (n : Nat) : Fld := fld (0x1105c + 0x1000 * n) 6 1 .w1c 0
def ENC.CH_STAT.SSI_RESYNC (n : Nat) : Fld := fld (0x1105c + 0x1000 * n) 7 1 .w1c 0
def ENC.CH_POS_LO.CH_POS (n : Nat) : Fld := fld (0x11060 + 0x1000 * n) 0 32 .ro 0
def ENC.CH_POS_HI.CH_POS (n : Nat) : Fld := fld (0x11064 + 0x1000 * n) 0 16 .ro 0
def ENC.SPEED.VAL (n : Nat) : Fld := fld (0x11068 + 0x1000 * n) 0 32 .ro 0
def ENC.SPEED_CFG.WIN (n : Nat) : Fld := fldC (0x1106c + 0x1000 * n) 0 8 .rw 16 2 255
def ENC.SPEED_CFG.TMAX (n : Nat) : Fld := fld (0x1106c + 0x1000 * n) 16 16 .rw 1000
def ENC.STANDSTILL_TIME.TIME (n : Nat) : Fld := fldC (0x11070 + 0x1000 * n) 0 20 .rw 10000 100 1000000
def ENC.INDEX_CFG.MODE (n : Nat) : Fld := fld (0x11074 + 0x1000 * n) 0 2 .rws 0
def ENC.INDEX_CFG.SLEW_LINES (n : Nat) : Fld := fld (0x11074 + 0x1000 * n) 4 12 .rws 64
def ENC.INDEX_CFG.TOL (n : Nat) : Fld := fld (0x11074 + 0x1000 * n) 16 16 .rws 4
def ENC.INDEX_PERIOD.PERIOD (n : Nat) : Fld := fld (0x11078 + 0x1000 * n) 0 24 .rws 0
def ENC.INDEX_PHASE.PHASE (n : Nat) : Fld := fld (0x1107c + 0x1000 * n) 0 24 .rws 0
def ENC.INDEX_ERR.D (n : Nat) : Fld := fld (0x11080 + 0x1000 * n) 0 32 .ro 0
def ENC.INDEX_STAT.MISMATCH (n : Nat) : Fld := fld (0x11084 + 0x1000 * n) 0 1 .w1c 0
def ENC.INDEX_STAT.FAULT (n : Nat) : Fld := fld (0x11084 + 0x1000 * n) 1 1 .w1c 0
def ENC.INDEX_STAT.MISSING (n : Nat) : Fld := fld (0x11084 + 0x1000 * n) 2 1 .w1c 0
def ENC.INDEX_STAT.PENDING (n : Nat) : Fld := fld (0x11084 + 0x1000 * n) 3 1 .ro 0
def ENC.INDEX_STAT.SLEWING (n : Nat) : Fld := fld (0x11084 + 0x1000 * n) 4 1 .ro 0
def ENC.INDEX_STAT.COUNT (n : Nat) : Fld := fld (0x11084 + 0x1000 * n) 16 16 .ro 0
def ENC.OFS_LO.OFS (n : Nat) : Fld := fld (0x11088 + 0x1000 * n) 0 32 .ro 0
def ENC.OFS_HI.OFS (n : Nat) : Fld := fld (0x1108c + 0x1000 * n) 0 16 .ro 0
def ENC.SSI_CFG.BITS (n : Nat) : Fld := fldC (0x11090 + 0x1000 * n) 0 6 .rws 25 13 32
def ENC.SSI_CFG.GRAY (n : Nat) : Fld := fld (0x11090 + 0x1000 * n) 6 1 .rws 1
def ENC.SSI_CFG.PAR (n : Nat) : Fld := fld (0x11090 + 0x1000 * n) 7 2 .rws 0
def ENC.SSI_CFG.CLKDIV (n : Nat) : Fld := fld (0x11090 + 0x1000 * n) 10 10 .rws 99
def ENC.SSI_CFG.MONO (n : Nat) : Fld := fld (0x11090 + 0x1000 * n) 20 8 .rws 20
def ENC.SSI_PERIOD.PERIOD (n : Nat) : Fld := fld (0x11094 + 0x1000 * n) 0 24 .rws 50000
def ENC.SSI_MAXSTEP.MAXSTEP (n : Nat) : Fld := fld (0x11098 + 0x1000 * n) 0 32 .rws 4096
def ENC.SSI_RAW.RAW (n : Nat) : Fld := fld (0x1109c + 0x1000 * n) 0 32 .ro 0
def ENC.LATCH_CTL.SRC (n : Nat) : Fld := fld (0x110a0 + 0x1000 * n) 0 4 .rw 0
def ENC.LATCH_CTL.EDGE (n : Nat) : Fld := fld (0x110a0 + 0x1000 * n) 4 2 .rw 0
def ENC.LATCH_CTL.SW (n : Nat) : Fld := fld (0x110a0 + 0x1000 * n) 8 1 .w1s 0
def ENC.LATCH_STAT.VALID (n : Nat) : Fld := fld (0x110a4 + 0x1000 * n) 0 1 .ro 0
def ENC.LATCH_STAT.OVERRUN (n : Nat) : Fld := fld (0x110a4 + 0x1000 * n) 1 1 .w1c 0
def ENC.L_CNT_LO.L_CNT (n : Nat) : Fld := fld (0x110a8 + 0x1000 * n) 0 32 .ro 0
def ENC.L_CNT_HI.L_CNT (n : Nat) : Fld := fld (0x110ac + 0x1000 * n) 0 16 .ro 0
def ENC.L_POS_LO.L_POS (n : Nat) : Fld := fld (0x110b0 + 0x1000 * n) 0 32 .ro 0
def ENC.L_POS_HI.L_POS (n : Nat) : Fld := fld (0x110b4 + 0x1000 * n) 0 16 .ro 0
def ENC.L_EDGE_T0.L_EDGE_T (n : Nat) : Fld := fld (0x110b8 + 0x1000 * n) 0 32 .ro 0
def ENC.L_EDGE_T1.L_EDGE_T (n : Nat) : Fld := fld (0x110bc + 0x1000 * n) 0 32 .ro 0
def ENC.L_EDGE_T2.L_EDGE_T (n : Nat) : Fld := fld (0x110c0 + 0x1000 * n) 0 4 .ro 0
def ENC.L_EV_T0.L_EV_T (n : Nat) : Fld := fld (0x110c4 + 0x1000 * n) 0 32 .ro 0
def ENC.L_EV_T1.L_EV_T (n : Nat) : Fld := fld (0x110c8 + 0x1000 * n) 0 32 .ro 0
def ENC.L_EV_T2.L_EV_T (n : Nat) : Fld := fld (0x110cc + 0x1000 * n) 0 4 .ro 0
def ENC.L_SPEED.VAL (n : Nat) : Fld := fld (0x110d0 + 0x1000 * n) 0 32 .ro 0
def ENC.FO_CFG.EN (n : Nat) : Fld := fld (0x110e0 + 0x1000 * n) 0 1 .rw 0
def ENC.FO_CFG.BACKUP (n : Nat) : Fld := fld (0x110e0 + 0x1000 * n) 1 2 .rw 0
def ENC.FO_CFG.QERR_MAX (n : Nat) : Fld := fld (0x110e0 + 0x1000 * n) 8 8 .rw 16
def ENC.FO_CFG.STALL (n : Nat) : Fld := fld (0x110e0 + 0x1000 * n) 16 16 .rw 1000
def ENC.FO_TOL.TOL (n : Nat) : Fld := fld (0x110e4 + 0x1000 * n) 0 16 .rw 500
def ENC.FO_TOL.WIN (n : Nat) : Fld := fld (0x110e4 + 0x1000 * n) 16 16 .rw 1024
def ENC.FO_STAT.ACTIVE (n : Nat) : Fld := fld (0x110e8 + 0x1000 * n) 0 1 .ro 0
def ENC.FO_STAT.CAUSE (n : Nat) : Fld := fld (0x110e8 + 0x1000 * n) 1 3 .ro 0
def ENC.FO_STAT.LOCAL (n : Nat) : Fld := fld (0x110e8 + 0x1000 * n) 4 1 .ro 0
def ENC.FO_STAT.DISAGREE (n : Nat) : Fld := fld (0x110e8 + 0x1000 * n) 5 1 .w1c 0
def ENC.FO_WLN_LO.FO_WLN (n : Nat) : Fld := fld (0x110ec + 0x1000 * n) 0 32 .ro 0
def ENC.FO_WLN_HI.FO_WLN (n : Nat) : Fld := fld (0x110f8 + 0x1000 * n) 0 16 .ro 0
def ENC.QERR_CNT.VAL (n : Nat) : Fld := fld (0x110f0 + 0x1000 * n) 0 32 .ro 0
def ENC.SSI_ERR_CNT.VAL (n : Nat) : Fld := fld (0x110f4 + 0x1000 * n) 0 32 .ro 0
def ENC.SLEW.S (n : Nat) : Fld := fld (0x110fc + 0x1000 * n) 0 16 .ro 0
def ENC.SLEW.LEFT (n : Nat) : Fld := fld (0x110fc + 0x1000 * n) 16 16 .ro 0
def ENC.fields1 (n : Nat) : List Fld := [
  ENC.CFG.MODE n, ENC.CFG.DECODE n, ENC.CFG.TERM n, ENC.CFG.FILT n,
  ENC.CFG.INDEX_GATE n, ENC.CFG.HALL_DIR n, ENC.CFG.HALL_IO n, ENC.CFG.HALL_DEB n,
  ENC.SCALE_LO.SCALE n, ENC.SCALE_HI.SCALE n, ENC.CNT_LO.CNT n, ENC.CNT_HI.CNT n,
  ENC.FCNT_LO.FCNT n, ENC.FCNT_HI.FCNT n, ENC.CH_STAT.DIR n, ENC.CH_STAT.STANDSTILL n,
  ENC.CH_STAT.SPEED_VALID n, ENC.CH_STAT.LOS n, ENC.CH_STAT.QUAD_ERR n, ENC.CH_STAT.SSI_RESYNC n,
  ENC.CH_POS_LO.CH_POS n, ENC.CH_POS_HI.CH_POS n, ENC.SPEED.VAL n, ENC.SPEED_CFG.WIN n,
  ENC.SPEED_CFG.TMAX n, ENC.STANDSTILL_TIME.TIME n, ENC.INDEX_CFG.MODE n, ENC.INDEX_CFG.SLEW_LINES n,
  ENC.INDEX_CFG.TOL n, ENC.INDEX_PERIOD.PERIOD n, ENC.INDEX_PHASE.PHASE n, ENC.INDEX_ERR.D n,
  ENC.INDEX_STAT.MISMATCH n, ENC.INDEX_STAT.FAULT n, ENC.INDEX_STAT.MISSING n, ENC.INDEX_STAT.PENDING n,
  ENC.INDEX_STAT.SLEWING n, ENC.INDEX_STAT.COUNT n, ENC.OFS_LO.OFS n, ENC.OFS_HI.OFS n,
  ENC.SSI_CFG.BITS n, ENC.SSI_CFG.GRAY n, ENC.SSI_CFG.PAR n, ENC.SSI_CFG.CLKDIV n,
  ENC.SSI_CFG.MONO n, ENC.SSI_PERIOD.PERIOD n, ENC.SSI_MAXSTEP.MAXSTEP n, ENC.SSI_RAW.RAW n,
  ENC.LATCH_CTL.SRC n, ENC.LATCH_CTL.EDGE n, ENC.LATCH_CTL.SW n, ENC.LATCH_STAT.VALID n,
  ENC.LATCH_STAT.OVERRUN n, ENC.L_CNT_LO.L_CNT n, ENC.L_CNT_HI.L_CNT n, ENC.L_POS_LO.L_POS n,
  ENC.L_POS_HI.L_POS n, ENC.L_EDGE_T0.L_EDGE_T n, ENC.L_EDGE_T1.L_EDGE_T n, ENC.L_EDGE_T2.L_EDGE_T n,
  ENC.L_EV_T0.L_EV_T n, ENC.L_EV_T1.L_EV_T n, ENC.L_EV_T2.L_EV_T n, ENC.L_SPEED.VAL n,
  ENC.FO_CFG.EN n, ENC.FO_CFG.BACKUP n, ENC.FO_CFG.QERR_MAX n, ENC.FO_CFG.STALL n,
  ENC.FO_TOL.TOL n, ENC.FO_TOL.WIN n, ENC.FO_STAT.ACTIVE n, ENC.FO_STAT.CAUSE n,
  ENC.FO_STAT.LOCAL n, ENC.FO_STAT.DISAGREE n, ENC.FO_WLN_LO.FO_WLN n, ENC.FO_WLN_HI.FO_WLN n,
  ENC.QERR_CNT.VAL n, ENC.SSI_ERR_CNT.VAL n, ENC.SLEW.S n, ENC.SLEW.LEFT n]
/-- The fields of page ENC n that its own table gives. -/
def ENC.fields (n : Nat) : List Fld := (ENC.fields1 n)

/-! Page TRIG: the register table of R32 of spec/01_web_coordinates_and_time.md; one page. -/

def TRIG.CTL.MODE : Fld := fld (0x18040) 0 2 .rws 0
def TRIG.CTL.SRC : Fld := fld (0x18040) 2 2 .rws 0
def TRIG.PITCH.VAL : Fld := fld (0x18044) 0 32 .rws 3276800
def TRIG.FREE_PERIOD.VAL : Fld := fld (0x18048) 0 32 .rws 0
def TRIG.MIN_PERIOD.VAL : Fld := fld (0x1804c) 0 24 .rws 500
def TRIG.RING_DLY.VAL : Fld := fld (0x18050) 0 12 .rw 0
def TRIG.STAT.RUNNING : Fld := fld (0x18054) 0 1 .ro 0
def TRIG.STAT.OVERSPEED : Fld := fld (0x18054) 1 1 .w1c 0
def TRIG.STAT.DIVERGE : Fld := fld (0x18054) 2 1 .w1c 0
def TRIG.STAT.PRESET_RAISED : Fld := fld (0x18054) 3 1 .w1c 0
def TRIG.SKIP_CNT.VAL : Fld := fld (0x18058) 0 32 .ro 0
def TRIG.NEXT_FRAC.FRAC : Fld := fld (0x1805c) 0 24 .ro 0
def TRIG.PORT_DLY.DLY (k : Nat) : Fld := fldC (0x18080 + 4 * k) 0 12 .rw 0 0 192
def TRIG.fields1 : List Fld := [
  TRIG.CTL.MODE, TRIG.CTL.SRC, TRIG.PITCH.VAL, TRIG.FREE_PERIOD.VAL,
  TRIG.MIN_PERIOD.VAL, TRIG.RING_DLY.VAL, TRIG.STAT.RUNNING, TRIG.STAT.OVERSPEED,
  TRIG.STAT.DIVERGE, TRIG.STAT.PRESET_RAISED, TRIG.SKIP_CNT.VAL, TRIG.NEXT_FRAC.FRAC]
def TRIG.fields2 (k : Nat) : List Fld := [
  TRIG.PORT_DLY.DLY k]
/-- The fields of page TRIG that its own table gives. -/
def TRIG.fields : List Fld := (TRIG.fields1)
  ++ ((List.range 16).flatMap fun k => TRIG.fields2 k)

/-! Page PORT: the register table of R80 of spec/03_camera_links.md; unit n. -/

def PORT.LINK_CFG.EN (n : Nat) : Fld := fld (0x20040 + 0x1000 * n) 0 1 .rw 0
def PORT.LINK_CFG.VER_MAX (n : Nat) : Fld := fld (0x20040 + 0x1000 * n) 2 2 .rw 3
def PORT.LINK_CFG.RATE_MAX (n : Nat) : Fld := fld (0x20040 + 0x1000 * n) 4 3 .rw 3
def PORT.LINK_CFG.LANE_MAX (n : Nat) : Fld := fld (0x20040 + 0x1000 * n) 8 2 .rw 2
def PORT.LINK_CFG.HOMING (n : Nat) : Fld := fld (0x20040 + 0x1000 * n) 12 2 .rw 0
def PORT.LINK_CFG.RETRAIN (n : Nat) : Fld := fld (0x20040 + 0x1000 * n) 16 1 .w1s 0
def PORT.LINK_STAT.STATE (n : Nat) : Fld := fld (0x20044 + 0x1000 * n) 0 3 .ro 0
def PORT.LINK_STAT.VER (n : Nat) : Fld := fld (0x20044 + 0x1000 * n) 4 2 .ro 0
def PORT.LINK_STAT.RATE (n : Nat) : Fld := fld (0x20044 + 0x1000 * n) 6 3 .ro 0
def PORT.LINK_STAT.LANES (n : Nat) : Fld := fld (0x20044 + 0x1000 * n) 9 2 .ro 0
def PORT.LINK_STAT.PRIMARY (n : Nat) : Fld := fld (0x20044 + 0x1000 * n) 11 1 .ro 0
def PORT.LINK_STAT.FAIL_CAUSE (n : Nat) : Fld := fld (0x20044 + 0x1000 * n) 12 2 .ro 0
def PORT.LINK_STAT.ATTEMPTS (n : Nat) : Fld := fld (0x20044 + 0x1000 * n) 16 16 .ro 0
def PORT.STREAM_CFG.IMG_VC (n : Nat) : Fld := fld (0x20048 + 0x1000 * n) 0 4 .rws 0
def PORT.STREAM_CFG.DT_EXP (n : Nat) : Fld := fld (0x20048 + 0x1000 * n) 4 6 .rws 44
def PORT.STREAM_CFG.SIDE_VC_EN (n : Nat) : Fld := fld (0x20048 + 0x1000 * n) 16 16 .rws 0
def PORT.LINE_LEN.LEN (n : Nat) : Fld := fldC (0x2004c + 0x1000 * n) 0 16 .rws 4096 16 32768
def PORT.LINE_TIMEOUT.TIME (n : Nat) : Fld := fld (0x20050 + 0x1000 * n) 0 20 .rw 1000
def PORT.SET_LEAD.LEAD (n : Nat) : Fld := fld (0x20054 + 0x1000 * n) 0 8 .rws 2
def PORT.CAM_CAP0.MAX_VER (n : Nat) : Fld := fld (0x20060 + 0x1000 * n) 0 2 .ro 0
def PORT.CAM_CAP0.RATE_MASK (n : Nat) : Fld := fld (0x20060 + 0x1000 * n) 4 4 .ro 0
def PORT.CAM_CAP0.LANE_MASK (n : Nat) : Fld := fld (0x20060 + 0x1000 * n) 8 3 .ro 0
def PORT.CAM_CAP0.FLAGS (n : Nat) : Fld := fld (0x20060 + 0x1000 * n) 11 3 .ro 0
def PORT.CAM_CAP0.MAX_LINE (n : Nat) : Fld := fld (0x20060 + 0x1000 * n) 16 16 .ro 0
def PORT.CAM_CAP1.SET_DELAY (n : Nat) : Fld := fld (0x20064 + 0x1000 * n) 0 16 .ro 0
def PORT.CAM_CAP1.TRIG_LAT (n : Nat) : Fld := fld (0x20064 + 0x1000 * n) 16 16 .ro 0
def PORT.CAM_ID.ID (n : Nat) (k : Nat) : Fld := fld (0x20068 + 0x1000 * n + 4 * k) 0 32 .ro 0
def PORT.CR_ADDR.ADDR (n : Nat) : Fld := fld (0x20080 + 0x1000 * n) 0 16 .rw 0
def PORT.CR_DATA.DATA (n : Nat) : Fld := fld (0x20084 + 0x1000 * n) 0 32 .rw 0
def PORT.CR_CTL.GO (n : Nat) : Fld := fld (0x20088 + 0x1000 * n) 0 1 .w1s 0
def PORT.CR_CTL.WRITE (n : Nat) : Fld := fld (0x20088 + 0x1000 * n) 1 1 .rw 0
def PORT.CR_STAT.BUSY (n : Nat) : Fld := fld (0x2008c + 0x1000 * n) 0 1 .ro 0
def PORT.CR_STAT.DONE (n : Nat) : Fld := fld (0x2008c + 0x1000 * n) 1 1 .w1c 0
def PORT.CR_STAT.NAK (n : Nat) : Fld := fld (0x2008c + 0x1000 * n) 2 1 .w1c 0
def PORT.CR_STAT.TIMEOUT (n : Nat) : Fld := fld (0x2008c + 0x1000 * n) 3 1 .w1c 0
def PORT.CR_STAT.NAK_CAUSE (n : Nat) : Fld := fld (0x2008c + 0x1000 * n) 8 8 .ro 0
def PORT.CREDIT_CFG.INTERVAL (n : Nat) : Fld := fldC (0x20090 + 0x1000 * n) 0 8 .rw 64 8 255
def PORT.CREDIT_G.G (n : Nat) : Fld := fld (0x20094 + 0x1000 * n) 0 32 .ro 0
def PORT.CREDIT_R.R (n : Nat) : Fld := fld (0x20098 + 0x1000 * n) 0 32 .ro 0
def PORT.BUF_USED.B (n : Nat) : Fld := fld (0x2009c + 0x1000 * n) 0 17 .ro 0
def PORT.LINES_OK.CNT (n : Nat) : Fld := fld (0x200a0 + 0x1000 * n) 0 32 .ro 0
def PORT.LINES_FLAGGED.CNT (n : Nat) : Fld := fld (0x200a4 + 0x1000 * n) 0 32 .ro 0
def PORT.MISSING_CNT.CNT (n : Nat) : Fld := fld (0x200a8 + 0x1000 * n) 0 32 .ro 0
def PORT.HDR_CORR_CNT.CNT (n : Nat) : Fld := fld (0x200ac + 0x1000 * n) 0 32 .ro 0
def PORT.HDR_ERR_CNT.CNT (n : Nat) : Fld := fld (0x200b0 + 0x1000 * n) 0 32 .ro 0
def PORT.CRC_ERR_CNT.CNT (n : Nat) : Fld := fld (0x200b4 + 0x1000 * n) 0 32 .ro 0
def PORT.FORMAT_CNT.CNT (n : Nat) : Fld := fld (0x200b8 + 0x1000 * n) 0 32 .ro 0
def PORT.DT_ERR_CNT.CNT (n : Nat) : Fld := fld (0x200bc + 0x1000 * n) 0 32 .ro 0
def PORT.CREDIT_VIOL_CNT.CNT (n : Nat) : Fld := fld (0x200c0 + 0x1000 * n) 0 32 .ro 0
def PORT.RESYNC_CNT.CNT (n : Nat) : Fld := fld (0x200c4 + 0x1000 * n) 0 32 .ro 0
def PORT.LINK_DOWN_CNT.CNT (n : Nat) : Fld := fld (0x200c8 + 0x1000 * n) 0 32 .ro 0
def PORT.TRIG_LATE_CNT.CNT (n : Nat) : Fld := fld (0x200cc + 0x1000 * n) 0 32 .ro 0
def PORT.SNOOP_DROP_CNT.CNT (n : Nat) : Fld := fld (0x200d0 + 0x1000 * n) 0 32 .ro 0
def PORT.MSG_ERR_CNT.CNT (n : Nat) : Fld := fld (0x200d4 + 0x1000 * n) 0 32 .ro 0
def PORT.SET_FAIL_CNT.CNT (n : Nat) : Fld := fld (0x200d8 + 0x1000 * n) 0 32 .ro 0
def PORT.fields1 (n : Nat) : List Fld := [
  PORT.LINK_CFG.EN n, PORT.LINK_CFG.VER_MAX n, PORT.LINK_CFG.RATE_MAX n, PORT.LINK_CFG.LANE_MAX n,
  PORT.LINK_CFG.HOMING n, PORT.LINK_CFG.RETRAIN n, PORT.LINK_STAT.STATE n, PORT.LINK_STAT.VER n,
  PORT.LINK_STAT.RATE n, PORT.LINK_STAT.LANES n, PORT.LINK_STAT.PRIMARY n, PORT.LINK_STAT.FAIL_CAUSE n,
  PORT.LINK_STAT.ATTEMPTS n, PORT.STREAM_CFG.IMG_VC n, PORT.STREAM_CFG.DT_EXP n, PORT.STREAM_CFG.SIDE_VC_EN n,
  PORT.LINE_LEN.LEN n, PORT.LINE_TIMEOUT.TIME n, PORT.SET_LEAD.LEAD n, PORT.CAM_CAP0.MAX_VER n,
  PORT.CAM_CAP0.RATE_MASK n, PORT.CAM_CAP0.LANE_MASK n, PORT.CAM_CAP0.FLAGS n, PORT.CAM_CAP0.MAX_LINE n,
  PORT.CAM_CAP1.SET_DELAY n, PORT.CAM_CAP1.TRIG_LAT n, PORT.CR_ADDR.ADDR n, PORT.CR_DATA.DATA n,
  PORT.CR_CTL.GO n, PORT.CR_CTL.WRITE n, PORT.CR_STAT.BUSY n, PORT.CR_STAT.DONE n,
  PORT.CR_STAT.NAK n, PORT.CR_STAT.TIMEOUT n, PORT.CR_STAT.NAK_CAUSE n, PORT.CREDIT_CFG.INTERVAL n,
  PORT.CREDIT_G.G n, PORT.CREDIT_R.R n, PORT.BUF_USED.B n, PORT.LINES_OK.CNT n,
  PORT.LINES_FLAGGED.CNT n, PORT.MISSING_CNT.CNT n, PORT.HDR_CORR_CNT.CNT n, PORT.HDR_ERR_CNT.CNT n,
  PORT.CRC_ERR_CNT.CNT n, PORT.FORMAT_CNT.CNT n, PORT.DT_ERR_CNT.CNT n, PORT.CREDIT_VIOL_CNT.CNT n,
  PORT.RESYNC_CNT.CNT n, PORT.LINK_DOWN_CNT.CNT n, PORT.TRIG_LATE_CNT.CNT n, PORT.SNOOP_DROP_CNT.CNT n,
  PORT.MSG_ERR_CNT.CNT n, PORT.SET_FAIL_CNT.CNT n]
def PORT.fields2 (n : Nat) (k : Nat) : List Fld := [
  PORT.CAM_ID.ID n k]
/-- The fields of page PORT n that its own table gives. -/
def PORT.fields (n : Nat) : List Fld := (PORT.fields1 n)
  ++ ((List.range 4).flatMap fun k => PORT.fields2 n k)

def PORT.irq.LINK_UP : Nat := 0
def PORT.irq.LINK_DOWN : Nat := 1
def PORT.irq.LINE_FLAGGED : Nat := 2
def PORT.irq.CR_DONE : Nat := 3
def PORT.irq.SET_FAIL : Nat := 4
def PORT.irq.CREDIT_VIOL : Nat := 5
def PORT.irq.RESYNC : Nat := 6
def PORT.irq.FAILED : Nat := 7

/-! Page LANE: the register table of R81 of spec/03_camera_links.md; unit n. -/

def LANE.RX_EQ.ADAPT (n : Nat) (j : Nat) : Fld := fld (0x30040 + 0x1000 * n + 0x20 * j) 0 1 .rw 1
def LANE.RX_EQ.CTLE (n : Nat) (j : Nat) : Fld := fld (0x30040 + 0x1000 * n + 0x20 * j) 8 4 .rw 8
def LANE.TX_EQ.PRE (n : Nat) (j : Nat) : Fld := fld (0x30044 + 0x1000 * n + 0x20 * j) 0 4 .rw 0
def LANE.TX_EQ.POST (n : Nat) (j : Nat) : Fld := fld (0x30044 + 0x1000 * n + 0x20 * j) 8 5 .rw 4
def LANE.TX_EQ.SWING (n : Nat) (j : Nat) : Fld := fld (0x30044 + 0x1000 * n + 0x20 * j) 16 4 .rw 10
def LANE.TX_EQ.ADAPT (n : Nat) (j : Nat) : Fld := fld (0x30044 + 0x1000 * n + 0x20 * j) 31 1 .rw 1
def LANE.STAT.LOS (n : Nat) (j : Nat) : Fld := fld (0x30048 + 0x1000 * n + 0x20 * j) 0 1 .ro 1
def LANE.STAT.CDR_LOCK (n : Nat) (j : Nat) : Fld := fld (0x30048 + 0x1000 * n + 0x20 * j) 1 1 .ro 0
def LANE.STAT.BLOCK_LOCK (n : Nat) (j : Nat) : Fld := fld (0x30048 + 0x1000 * n + 0x20 * j) 2 1 .ro 0
def LANE.STAT.ALIGNED (n : Nat) (j : Nat) : Fld := fld (0x30048 + 0x1000 * n + 0x20 * j) 3 1 .ro 0
def LANE.STAT.EYE_LOW (n : Nat) (j : Nat) : Fld := fld (0x30048 + 0x1000 * n + 0x20 * j) 4 1 .ro 0
def LANE.STAT.SKEW (n : Nat) (j : Nat) : Fld := fld (0x30048 + 0x1000 * n + 0x20 * j) 8 6 .ro 0
def LANE.EYE.H (n : Nat) (j : Nat) : Fld := fld (0x3004c + 0x1000 * n + 0x20 * j) 0 8 .ro 0
def LANE.EYE.V (n : Nat) (j : Nat) : Fld := fld (0x3004c + 0x1000 * n + 0x20 * j) 8 12 .ro 0
def LANE.EYE.VALID (n : Nat) (j : Nat) : Fld := fld (0x3004c + 0x1000 * n + 0x20 * j) 31 1 .ro 0
def LANE.EYE_MIN.H_MIN (n : Nat) (j : Nat) : Fld := fld (0x30050 + 0x1000 * n + 0x20 * j) 0 8 .rw 16
def LANE.EYE_MIN.V_MIN (n : Nat) (j : Nat) : Fld := fld (0x30050 + 0x1000 * n + 0x20 * j) 8 12 .rw 40
def LANE.BLK_ERR_CNT.CNT (n : Nat) (j : Nat) : Fld := fld (0x30054 + 0x1000 * n + 0x20 * j) 0 32 .ro 0
def LANE.LOS_CNT.CNT (n : Nat) (j : Nat) : Fld := fld (0x30058 + 0x1000 * n + 0x20 * j) 0 32 .ro 0
def LANE.EYE_PERIOD.PERIOD (n : Nat) : Fld := fldC (0x300c0 + 0x1000 * n) 0 16 .rw 1000 10 60000
def LANE.fields1 (n : Nat) (j : Nat) : List Fld := [
  LANE.RX_EQ.ADAPT n j, LANE.RX_EQ.CTLE n j, LANE.TX_EQ.PRE n j, LANE.TX_EQ.POST n j,
  LANE.TX_EQ.SWING n j, LANE.TX_EQ.ADAPT n j, LANE.STAT.LOS n j, LANE.STAT.CDR_LOCK n j,
  LANE.STAT.BLOCK_LOCK n j, LANE.STAT.ALIGNED n j, LANE.STAT.EYE_LOW n j, LANE.STAT.SKEW n j,
  LANE.EYE.H n j, LANE.EYE.V n j, LANE.EYE.VALID n j, LANE.EYE_MIN.H_MIN n j,
  LANE.EYE_MIN.V_MIN n j, LANE.BLK_ERR_CNT.CNT n j, LANE.LOS_CNT.CNT n j]
def LANE.fields2 (n : Nat) : List Fld := [
  LANE.EYE_PERIOD.PERIOD n]
/-- The fields of page LANE n that its own table gives. -/
def LANE.fields (n : Nat) : List Fld := ((List.range 4).flatMap fun j => LANE.fields1 n j)
  ++ (LANE.fields2 n)

/-! Page PIPE: the register table of R106 of spec/04_line_pipelines.md; unit n. -/

def PIPE.STATUS.OVERLOAD (n : Nat) : Fld := fld (0x4000c + 0x1000 * n) 0 1 .ro 0
def PIPE.STATUS.LOAD_WARN (n : Nat) : Fld := fld (0x4000c + 0x1000 * n) 1 1 .ro 0
def PIPE.STATUS.ROUTE_ERR (n : Nat) : Fld := fld (0x4000c + 0x1000 * n) 2 1 .ro 0
def PIPE.STATUS.DEGRADED (n : Nat) : Fld := fld (0x4000c + 0x1000 * n) 3 1 .ro 0
def PIPE.STATUS.DECIMATING (n : Nat) : Fld := fld (0x4000c + 0x1000 * n) 4 1 .ro 0
def PIPE.ROUTE_IL.A_EN (n : Nat) : Fld := fld (0x40040 + 0x1000 * n) 0 1 .rws 0
def PIPE.ROUTE_IL.A_PORT (n : Nat) : Fld := fld (0x40040 + 0x1000 * n) 1 2 .rws 0
def PIPE.ROUTE_IL.B_EN (n : Nat) : Fld := fld (0x40040 + 0x1000 * n) 8 1 .rws 0
def PIPE.ROUTE_IL.B_PORT (n : Nat) : Fld := fld (0x40040 + 0x1000 * n) 9 2 .rws 0
def PIPE.ROUTE_MR.MR_MASK (n : Nat) : Fld := fld (0x40044 + 0x1000 * n) 0 16 .rws 0
def PIPE.ARB.MRQ_MAX (n : Nat) : Fld := fldC (0x40048 + 0x1000 * n) 8 6 .rws 8 1 32
def PIPE.FLAG_POLICY.POLICY (n : Nat) : Fld := fld (0x4004c + 0x1000 * n) 0 16 .rws 17749
def PIPE.DECIM.N (n : Nat) : Fld := fld (0x40050 + 0x1000 * n) 0 4 .ro 1
def PIPE.LOAD.W (n : Nat) : Fld := fld (0x40054 + 0x1000 * n) 0 20 .ro 0
def PIPE.SLOT_STAT0.FREE (n : Nat) : Fld := fld (0x40058 + 0x1000 * n) 0 7 .ro 64
def PIPE.SLOT_STAT0.WAIT (n : Nat) : Fld := fld (0x40058 + 0x1000 * n) 8 7 .ro 0
def PIPE.SLOT_STAT0.READY (n : Nat) : Fld := fld (0x40058 + 0x1000 * n) 16 7 .ro 0
def PIPE.SLOT_STAT1.RUN (n : Nat) : Fld := fld (0x4005c + 0x1000 * n) 0 7 .ro 0
def PIPE.SLOT_STAT1.DONE (n : Nat) : Fld := fld (0x4005c + 0x1000 * n) 8 7 .ro 0
def PIPE.ROUTE_CHK.CAUSE (n : Nat) : Fld := fld (0x40064 + 0x1000 * n) 0 3 .ro 0
def PIPE.ROUTE_CHK.PORT (n : Nat) : Fld := fld (0x40064 + 0x1000 * n) 4 4 .ro 0
def PIPE.CLEAR.IL_WAIT_MAX (n : Nat) : Fld := fld (0x40068 + 0x1000 * n) 0 1 .w1s 0
def PIPE.CLEAR.MR_RES_MAX (n : Nat) : Fld := fld (0x40068 + 0x1000 * n) 1 1 .w1s 0
def PIPE.IL_WAIT_MAX.CYCLES (n : Nat) : Fld := fld (0x4006c + 0x1000 * n) 0 16 .ro 0
def PIPE.MR_RES_MAX.NS (n : Nat) : Fld := fld (0x40070 + 0x1000 * n) 0 32 .ro 0
def PIPE.LINES_IN.CNT (n : Nat) : Fld := fld (0x40080 + 0x1000 * n) 0 32 .ro 0
def PIPE.LINES_OUT.CNT (n : Nat) : Fld := fld (0x40084 + 0x1000 * n) 0 32 .ro 0
def PIPE.LINES_VOID.CNT (n : Nat) : Fld := fld (0x40088 + 0x1000 * n) 0 32 .ro 0
def PIPE.LINES_SUSPECT.CNT (n : Nat) : Fld := fld (0x4008c + 0x1000 * n) 0 32 .ro 0
def PIPE.MR_LATE_CNT.CNT (n : Nat) : Fld := fld (0x40090 + 0x1000 * n) 0 32 .ro 0
def PIPE.MR_DROP_CNT.CNT (n : Nat) : Fld := fld (0x40094 + 0x1000 * n) 0 32 .ro 0
def PIPE.SLOT_FULL_CNT.CNT (n : Nat) : Fld := fld (0x40098 + 0x1000 * n) 0 32 .ro 0
def PIPE.OVERLOAD_CNT.CNT (n : Nat) : Fld := fld (0x4009c + 0x1000 * n) 0 32 .ro 0
def PIPE.DECIM_CNT.CNT (n : Nat) : Fld := fld (0x400a0 + 0x1000 * n) 0 32 .ro 0
def PIPE.POISON_CNT.CNT (n : Nat) : Fld := fld (0x400a4 + 0x1000 * n) 0 32 .ro 0
def PIPE.UNROUTED_CNT.CNT (n : Nat) : Fld := fld (0x400a8 + 0x1000 * n) 0 32 .ro 0
def PIPE.fields1 (n : Nat) : List Fld := [
  PIPE.STATUS.OVERLOAD n, PIPE.STATUS.LOAD_WARN n, PIPE.STATUS.ROUTE_ERR n, PIPE.STATUS.DEGRADED n,
  PIPE.STATUS.DECIMATING n, PIPE.ROUTE_IL.A_EN n, PIPE.ROUTE_IL.A_PORT n, PIPE.ROUTE_IL.B_EN n,
  PIPE.ROUTE_IL.B_PORT n, PIPE.ROUTE_MR.MR_MASK n, PIPE.ARB.MRQ_MAX n, PIPE.FLAG_POLICY.POLICY n,
  PIPE.DECIM.N n, PIPE.LOAD.W n, PIPE.SLOT_STAT0.FREE n, PIPE.SLOT_STAT0.WAIT n,
  PIPE.SLOT_STAT0.READY n, PIPE.SLOT_STAT1.RUN n, PIPE.SLOT_STAT1.DONE n, PIPE.ROUTE_CHK.CAUSE n,
  PIPE.ROUTE_CHK.PORT n, PIPE.CLEAR.IL_WAIT_MAX n, PIPE.CLEAR.MR_RES_MAX n, PIPE.IL_WAIT_MAX.CYCLES n,
  PIPE.MR_RES_MAX.NS n, PIPE.LINES_IN.CNT n, PIPE.LINES_OUT.CNT n, PIPE.LINES_VOID.CNT n,
  PIPE.LINES_SUSPECT.CNT n, PIPE.MR_LATE_CNT.CNT n, PIPE.MR_DROP_CNT.CNT n, PIPE.SLOT_FULL_CNT.CNT n,
  PIPE.OVERLOAD_CNT.CNT n, PIPE.DECIM_CNT.CNT n, PIPE.POISON_CNT.CNT n, PIPE.UNROUTED_CNT.CNT n]
/-- The fields of page PIPE n that its own table gives. -/
def PIPE.fields (n : Nat) : List Fld := (PIPE.fields1 n)

def PIPE.irq.OVERLOAD : Nat := 0
def PIPE.irq.MR_LATE : Nat := 1
def PIPE.irq.MR_DROP : Nat := 2
def PIPE.irq.SLOT_FULL : Nat := 3
def PIPE.irq.ROUTE_ERR : Nat := 4
def PIPE.irq.IL_STALL : Nat := 5
def PIPE.irq.POISON : Nat := 6

/-! Page STAT: the register table of R131 of spec/05_pixel_correction.md; unit n. -/

def STAT.CORR_CTL.BL_EN (n : Nat) (j : Nat) : Fld := fld (0x48100 + 0x1000 * n + 0x100 * j) 0 1 .rws 1
def STAT.CORR_CTL.NRS_EN (n : Nat) (j : Nat) : Fld := fld (0x48100 + 0x1000 * n + 0x100 * j) 1 1 .rws 0
def STAT.CORR_CTL.NRR_EN (n : Nat) (j : Nat) : Fld := fld (0x48100 + 0x1000 * n + 0x100 * j) 2 1 .rws 0
def STAT.CORR_CTL.DPC_EN (n : Nat) (j : Nat) : Fld := fld (0x48100 + 0x1000 * n + 0x100 * j) 3 1 .rws 1
def STAT.CORR_CTL.FF_EN (n : Nat) (j : Nat) : Fld := fld (0x48100 + 0x1000 * n + 0x100 * j) 4 1 .rws 1
def STAT.CORR_CTL.DEM_EN (n : Nat) (j : Nat) : Fld := fld (0x48100 + 0x1000 * n + 0x100 * j) 5 1 .rws 0
def STAT.CORR_CTL.TONE_EN (n : Nat) (j : Nat) : Fld := fld (0x48100 + 0x1000 * n + 0x100 * j) 6 1 .rws 0
def STAT.CORR_CTL.BANK (n : Nat) (j : Nat) : Fld := fld (0x48100 + 0x1000 * n + 0x100 * j) 8 1 .rws 0
def STAT.CORR_CTL.STAT_EN (n : Nat) (j : Nat) : Fld := fld (0x48100 + 0x1000 * n + 0x100 * j) 9 1 .rws 1
def STAT.BLACK.LEVEL (n : Nat) (j : Nat) : Fld := fld (0x48104 + 0x1000 * n + 0x100 * j) 0 20 .rws 0
def STAT.NRS.K0 (n : Nat) (j : Nat) : Fld := fld (0x48108 + 0x1000 * n + 0x100 * j) 0 9 .rws 256
def STAT.NRS.K1 (n : Nat) (j : Nat) : Fld := fld (0x48108 + 0x1000 * n + 0x100 * j) 9 8 .rws 0
def STAT.NRS.K2 (n : Nat) (j : Nat) : Fld := fld (0x48108 + 0x1000 * n + 0x100 * j) 17 8 .rws 0
def STAT.NRS_GATE.GATE (n : Nat) (j : Nat) : Fld := fld (0x4810c + 0x1000 * n + 0x100 * j) 0 20 .rws 1048575
def STAT.NRR.ALPHA (n : Nat) (j : Nat) : Fld := fld (0x48110 + 0x1000 * n + 0x100 * j) 0 5 .rws 16
def STAT.NRR.MAXGAP (n : Nat) (j : Nat) : Fld := fld (0x48110 + 0x1000 * n + 0x100 * j) 8 24 .rws 0
def STAT.NRR_GATE.GATE (n : Nat) (j : Nat) : Fld := fld (0x48114 + 0x1000 * n + 0x100 * j) 0 20 .rws 1048575
def STAT.DPC.DYN_T (n : Nat) (j : Nat) : Fld := fld (0x48118 + 0x1000 * n + 0x100 * j) 0 20 .rws 0
def STAT.DEM.PER (n : Nat) (j : Nat) : Fld := fld (0x4811c + 0x1000 * n + 0x100 * j) 0 2 .rws 0
def STAT.DEM.ORG (n : Nat) (j : Nat) : Fld := fld (0x4811c + 0x1000 * n + 0x100 * j) 2 2 .rws 0
def STAT.DEM.PH0 (n : Nat) (j : Nat) : Fld := fld (0x4811c + 0x1000 * n + 0x100 * j) 4 3 .rws 0
def STAT.DEM.PH1 (n : Nat) (j : Nat) : Fld := fld (0x4811c + 0x1000 * n + 0x100 * j) 8 3 .rws 0
def STAT.DEM.PH2 (n : Nat) (j : Nat) : Fld := fld (0x4811c + 0x1000 * n + 0x100 * j) 12 3 .rws 0
def STAT.DEM.PH3 (n : Nat) (j : Nat) : Fld := fld (0x4811c + 0x1000 * n + 0x100 * j) 16 3 .rws 0
def STAT.DEM_W0.W_CLEAR (n : Nat) (j : Nat) : Fld := fld (0x48120 + 0x1000 * n + 0x100 * j) 0 12 .rws 256
def STAT.DEM_W0.W_R (n : Nat) (j : Nat) : Fld := fld (0x48120 + 0x1000 * n + 0x100 * j) 16 12 .rws 0
def STAT.DEM_W1.W_G (n : Nat) (j : Nat) : Fld := fld (0x48124 + 0x1000 * n + 0x100 * j) 0 12 .rws 0
def STAT.DEM_W1.W_B (n : Nat) (j : Nat) : Fld := fld (0x48124 + 0x1000 * n + 0x100 * j) 16 12 .rws 0
def STAT.DEM_W2.W_NIR (n : Nat) (j : Nat) : Fld := fld (0x48128 + 0x1000 * n + 0x100 * j) 0 12 .rws 0
def STAT.FLK_CTL.MODE (n : Nat) (j : Nat) : Fld := fld (0x4812c + 0x1000 * n + 0x100 * j) 0 2 .rws 0
def STAT.FLK_CTL.K (n : Nat) (j : Nat) : Fld := fld (0x4812c + 0x1000 * n + 0x100 * j) 4 3 .rws 3
def STAT.FLK_CTL.MIN_LINES (n : Nat) (j : Nat) : Fld := fld (0x4812c + 0x1000 * n + 0x100 * j) 8 8 .rws 4
def STAT.FLK_WIN.S0 (n : Nat) (j : Nat) : Fld := fld (0x48130 + 0x1000 * n + 0x100 * j) 0 9 .rws 0
def STAT.FLK_WIN.S1 (n : Nat) (j : Nat) : Fld := fld (0x48130 + 0x1000 * n + 0x100 * j) 16 9 .rws 511
def STAT.FLK_STAT.VALID (n : Nat) (j : Nat) : Fld := fld (0x48134 + 0x1000 * n + 0x100 * j) 0 1 .ro 0
def STAT.FLK_STAT.BIN (n : Nat) (j : Nat) : Fld := fld (0x48134 + 0x1000 * n + 0x100 * j) 1 5 .ro 0
def STAT.SET_ID.ID (n : Nat) (j : Nat) : Fld := fld (0x48140 + 0x1000 * n + 0x100 * j) 0 16 .rw 0
def STAT.SET_BLOCK.BLOCK (n : Nat) (j : Nat) : Fld := fld (0x48144 + 0x1000 * n + 0x100 * j) 0 32 .rw 0
def STAT.SET_REQ.EXPC (n : Nat) (j : Nat) : Fld := fld (0x48148 + 0x1000 * n + 0x100 * j) 0 16 .rw 4096
def STAT.SET_REQ.N (n : Nat) (j : Nat) : Fld := fld (0x48148 + 0x1000 * n + 0x100 * j) 16 6 .rw 0
def STAT.SET_REQ.GO (n : Nat) (j : Nat) : Fld := fld (0x48148 + 0x1000 * n + 0x100 * j) 31 1 .w1s 0
def STAT.SET_STAT.BUSY (n : Nat) (j : Nat) : Fld := fld (0x4814c + 0x1000 * n + 0x100 * j) 0 1 .ro 0
def STAT.SET_STAT.SENT (n : Nat) (j : Nat) : Fld := fld (0x4814c + 0x1000 * n + 0x100 * j) 1 1 .w1c 0
def STAT.SET_STAT.TOO_LATE (n : Nat) (j : Nat) : Fld := fld (0x4814c + 0x1000 * n + 0x100 * j) 2 1 .w1c 0
def STAT.SET_STAT.BAD (n : Nat) (j : Nat) : Fld := fld (0x4814c + 0x1000 * n + 0x100 * j) 3 1 .w1c 0
def STAT.SET_STAT.FAIL (n : Nat) (j : Nat) : Fld := fld (0x4814c + 0x1000 * n + 0x100 * j) 4 1 .w1c 0
def STAT.SET_STAT.LIVE_ID (n : Nat) (j : Nat) : Fld := fld (0x4814c + 0x1000 * n + 0x100 * j) 16 16 .ro 0
def STAT.SET_W_LO.W (n : Nat) (j : Nat) : Fld := fld (0x48150 + 0x1000 * n + 0x100 * j) 0 32 .ro 0
def STAT.SET_W_HI.W (n : Nat) (j : Nat) : Fld := fld (0x48154 + 0x1000 * n + 0x100 * j) 0 16 .ro 0
def STAT.BLOCK_NUM.NUM (n : Nat) (j : Nat) : Fld := fld (0x48158 + 0x1000 * n + 0x100 * j) 0 32 .ro 0
def STAT.TBL_STAT.BANK_BUSY (n : Nat) (j : Nat) : Fld := fld (0x4815c + 0x1000 * n + 0x100 * j) 0 1 .ro 0
def STAT.TBL_STAT.WR_LIVE (n : Nat) (j : Nat) : Fld := fld (0x4815c + 0x1000 * n + 0x100 * j) 1 1 .w1c 0
def STAT.TBL_STAT.CRC_ERR (n : Nat) (j : Nat) : Fld := fld (0x4815c + 0x1000 * n + 0x100 * j) 2 1 .w1c 0
def STAT.TBL_STAT.CRC_SLICE (n : Nat) (j : Nat) : Fld := fld (0x4815c + 0x1000 * n + 0x100 * j) 16 9 .ro 0
def STAT.TBL_STAT.CRC_AREA (n : Nat) (j : Nat) : Fld := fld (0x4815c + 0x1000 * n + 0x100 * j) 25 2 .ro 0
def STAT.TBL_STAT.CHK_CAUSE (n : Nat) (j : Nat) : Fld := fld (0x4815c + 0x1000 * n + 0x100 * j) 28 4 .ro 0
def STAT.REC_CNT.CNT (n : Nat) (j : Nat) : Fld := fld (0x48160 + 0x1000 * n + 0x100 * j) 0 32 .ro 0
def STAT.SAT_CNT.CNT (n : Nat) (j : Nat) : Fld := fld (0x48164 + 0x1000 * n + 0x100 * j) 0 32 .ro 0
def STAT.DP_DYN_CNT.CNT (n : Nat) (j : Nat) : Fld := fld (0x48168 + 0x1000 * n + 0x100 * j) 0 32 .ro 0
def STAT.SET_UNKNOWN_CNT.CNT (n : Nat) (j : Nat) : Fld := fld (0x4816c + 0x1000 * n + 0x100 * j) 0 32 .ro 0
def STAT.FLK_INVALID_CNT.CNT (n : Nat) (j : Nat) : Fld := fld (0x48170 + 0x1000 * n + 0x100 * j) 0 32 .ro 0
def STAT.fields1 (n : Nat) (j : Nat) : List Fld := [
  STAT.CORR_CTL.BL_EN n j, STAT.CORR_CTL.NRS_EN n j, STAT.CORR_CTL.NRR_EN n j, STAT.CORR_CTL.DPC_EN n j,
  STAT.CORR_CTL.FF_EN n j, STAT.CORR_CTL.DEM_EN n j, STAT.CORR_CTL.TONE_EN n j, STAT.CORR_CTL.BANK n j,
  STAT.CORR_CTL.STAT_EN n j, STAT.BLACK.LEVEL n j, STAT.NRS.K0 n j, STAT.NRS.K1 n j,
  STAT.NRS.K2 n j, STAT.NRS_GATE.GATE n j, STAT.NRR.ALPHA n j, STAT.NRR.MAXGAP n j,
  STAT.NRR_GATE.GATE n j, STAT.DPC.DYN_T n j, STAT.DEM.PER n j, STAT.DEM.ORG n j,
  STAT.DEM.PH0 n j, STAT.DEM.PH1 n j, STAT.DEM.PH2 n j, STAT.DEM.PH3 n j,
  STAT.DEM_W0.W_CLEAR n j, STAT.DEM_W0.W_R n j, STAT.DEM_W1.W_G n j, STAT.DEM_W1.W_B n j,
  STAT.DEM_W2.W_NIR n j, STAT.FLK_CTL.MODE n j, STAT.FLK_CTL.K n j, STAT.FLK_CTL.MIN_LINES n j,
  STAT.FLK_WIN.S0 n j, STAT.FLK_WIN.S1 n j, STAT.FLK_STAT.VALID n j, STAT.FLK_STAT.BIN n j,
  STAT.SET_ID.ID n j, STAT.SET_BLOCK.BLOCK n j, STAT.SET_REQ.EXPC n j, STAT.SET_REQ.N n j,
  STAT.SET_REQ.GO n j, STAT.SET_STAT.BUSY n j, STAT.SET_STAT.SENT n j, STAT.SET_STAT.TOO_LATE n j,
  STAT.SET_STAT.BAD n j, STAT.SET_STAT.FAIL n j, STAT.SET_STAT.LIVE_ID n j, STAT.SET_W_LO.W n j,
  STAT.SET_W_HI.W n j, STAT.BLOCK_NUM.NUM n j, STAT.TBL_STAT.BANK_BUSY n j, STAT.TBL_STAT.WR_LIVE n j,
  STAT.TBL_STAT.CRC_ERR n j, STAT.TBL_STAT.CRC_SLICE n j, STAT.TBL_STAT.CRC_AREA n j, STAT.TBL_STAT.CHK_CAUSE n j,
  STAT.REC_CNT.CNT n j, STAT.SAT_CNT.CNT n j, STAT.DP_DYN_CNT.CNT n j, STAT.SET_UNKNOWN_CNT.CNT n j,
  STAT.FLK_INVALID_CNT.CNT n j]
/-- The fields of page STAT n that its own table gives. -/
def STAT.fields (n : Nat) : List Fld := ((List.range 2).flatMap fun j => STAT.fields1 n j)

/-! Page THERM: the register table of R161 of spec/06_thermal_readout.md; unit n. -/

def THERM.STATUS.STATE (n : Nat) : Fld := fld (0x5000c + 0x1000 * n) 0 3 .ro 0
def THERM.STATUS.FAULT_CAUSE (n : Nat) : Fld := fld (0x5000c + 0x1000 * n) 4 3 .ro 0
def THERM.STATUS.FPA_STALE (n : Nat) : Fld := fld (0x5000c + 0x1000 * n) 8 1 .ro 0
def THERM.STATUS.DRIFT_HIGH (n : Nat) : Fld := fld (0x5000c + 0x1000 * n) 9 1 .ro 0
def THERM.STATUS.DEGRADED (n : Nat) : Fld := fld (0x5000c + 0x1000 * n) 10 1 .ro 0
def THERM.STATUS.HEAD_PRESENT (n : Nat) : Fld := fld (0x5000c + 0x1000 * n) 11 1 .ro 0
def THERM.CTL.EN (n : Nat) : Fld := fld (0x50040 + 0x1000 * n) 0 1 .rw 0
def THERM.CTL.RESTART (n : Nat) : Fld := fld (0x50040 + 0x1000 * n) 1 1 .w1s 0
def THERM.CTL.SH_NOW (n : Nat) : Fld := fld (0x50040 + 0x1000 * n) 2 1 .w1s 0
def THERM.CTL.SH_INHIBIT (n : Nat) : Fld := fld (0x50040 + 0x1000 * n) 3 1 .rw 0
def THERM.CTL.BANK (n : Nat) : Fld := fld (0x50040 + 0x1000 * n) 4 1 .rws 0
def THERM.CTL.POLARITY (n : Nat) : Fld := fld (0x50040 + 0x1000 * n) 5 1 .rws 0
def THERM.CTL.ARCH_EN (n : Nat) : Fld := fld (0x50040 + 0x1000 * n) 6 1 .rws 0
def THERM.CTL.CLR_DYN (n : Nat) : Fld := fld (0x50040 + 0x1000 * n) 7 1 .w1s 0
def THERM.CTL.ARCH_DECIM (n : Nat) : Fld := fld (0x50040 + 0x1000 * n) 8 8 .rws 1
def THERM.GEOM.COLS (n : Nat) : Fld := fld (0x50044 + 0x1000 * n) 0 11 .rws 640
def THERM.GEOM.ROWS (n : Nat) : Fld := fld (0x50044 + 0x1000 * n) 16 11 .rws 512
def THERM.FRAME_PERIOD.NS (n : Nat) : Fld := fld (0x50048 + 0x1000 * n) 0 32 .rws 16666667
def THERM.ROW_TIMING.ROW_PERIOD (n : Nat) : Fld := fld (0x5004c + 0x1000 * n) 0 12 .rws 400
def THERM.ROW_TIMING.RD_LAG (n : Nat) : Fld := fld (0x5004c + 0x1000 * n) 12 1 .rws 1
def THERM.ROW_TIMING.DATA_START (n : Nat) : Fld := fld (0x5004c + 0x1000 * n) 16 12 .rws 32
def THERM.INT_TIMING.INT_START (n : Nat) : Fld := fld (0x50050 + 0x1000 * n) 0 12 .rws 0
def THERM.INT_TIMING.INT_LEN (n : Nat) : Fld := fld (0x50050 + 0x1000 * n) 16 12 .rws 150
def THERM.BIAS.CODE (n : Nat) : Fld := fld (0x50054 + 0x1000 * n) 0 16 .rws 0
def THERM.BIAS.CS (n : Nat) : Fld := fld (0x50054 + 0x1000 * n) 16 3 .rws 0
def THERM.BIAS.SETTLE (n : Nat) : Fld := fld (0x50054 + 0x1000 * n) 24 8 .rws 50
def THERM.TEMP_SRC.FPA_CONV (n : Nat) : Fld := fld (0x50058 + 0x1000 * n) 0 1 .rws 0
def THERM.TEMP_SRC.FPA_ENTRY (n : Nat) : Fld := fld (0x50058 + 0x1000 * n) 4 4 .rws 0
def THERM.TEMP_SRC.SHT_CONV (n : Nat) : Fld := fld (0x50058 + 0x1000 * n) 8 1 .rws 0
def THERM.TEMP_SRC.SHT_ENTRY (n : Nat) : Fld := fld (0x50058 + 0x1000 * n) 12 4 .rws 0
def THERM.TEMP_SRC.BIAS_CONV (n : Nat) : Fld := fld (0x50058 + 0x1000 * n) 16 1 .rws 0
def THERM.TEMP_SRC.BIAS_ENTRY (n : Nat) : Fld := fld (0x50058 + 0x1000 * n) 20 4 .rws 0
def THERM.TEMP_SRC.MAXAGE (n : Nat) : Fld := fld (0x50058 + 0x1000 * n) 24 8 .rws 100
def THERM.BIAS_EXP.EXP (n : Nat) : Fld := fld (0x5005c + 0x1000 * n) 0 32 .rws 0
def THERM.BIAS_TOL.TOL (n : Nat) : Fld := fld (0x50060 + 0x1000 * n) 0 32 .rws 0
def THERM.SH_CFG.VALVE (n : Nat) : Fld := fld (0x50064 + 0x1000 * n) 0 4 .rws (15 - n)
def THERM.SH_CFG.SETTLE (n : Nat) : Fld := fld (0x50064 + 0x1000 * n) 4 4 .rws 2
def THERM.SH_CFG.FRAMES (n : Nat) : Fld := fld (0x50064 + 0x1000 * n) 8 3 .rws 2
def THERM.SH_CFG.OPEN_FRAMES (n : Nat) : Fld := fld (0x50064 + 0x1000 * n) 12 4 .rws 2
def THERM.SH_CFG.DIP_WIN (n : Nat) : Fld := fld (0x50064 + 0x1000 * n) 16 8 .rws 20
def THERM.SH_CFG.LEAD (n : Nat) : Fld := fld (0x50064 + 0x1000 * n) 24 8 .rws 24
def THERM.SH_BOUND.BOUND (n : Nat) : Fld := fld (0x50068 + 0x1000 * n) 0 24 .rws 320
def THERM.SH_INTERVAL.MIN (n : Nat) : Fld := fld (0x5006c + 0x1000 * n) 0 16 .rws 10
def THERM.SH_INTERVAL.MAX (n : Nat) : Fld := fld (0x5006c + 0x1000 * n) 16 16 .rws 1800
def THERM.SH_OPEN_MIN.MIN (n : Nat) : Fld := fld (0x50070 + 0x1000 * n) 0 24 .rws 0
def THERM.BP_JUMP.JUMP (n : Nat) : Fld := fld (0x50074 + 0x1000 * n) 0 24 .rws 0
def THERM.CELL.AW (n : Nat) : Fld := fld (0x50078 + 0x1000 * n) 0 16 .rws 2000
def THERM.CELL.XW (n : Nat) : Fld := fld (0x50078 + 0x1000 * n) 16 8 .rws 20
def THERM.CELL.MINN (n : Nat) : Fld := fld (0x50078 + 0x1000 * n) 24 8 .rws 4
def THERM.XW_ORIGIN.ORIGIN (n : Nat) : Fld := fld (0x5007c + 0x1000 * n) 0 32 .rws 0
def THERM.MAP_CFG.XW_CELLS (n : Nat) : Fld := fld (0x50080 + 0x1000 * n) 0 11 .rws 512
def THERM.MAP_CFG.BG_SHIFT (n : Nat) : Fld := fld (0x50080 + 0x1000 * n) 12 4 .rws 6
def THERM.DRIFT.DT (n : Nat) : Fld := fld (0x50084 + 0x1000 * n) 0 16 .ro 0
def THERM.DRIFT.DT_PRED (n : Nat) : Fld := fld (0x50084 + 0x1000 * n) 16 16 .ro 0
def THERM.E_NOW.E (n : Nat) : Fld := fld (0x50088 + 0x1000 * n) 0 24 .ro 0
def THERM.E_PRED.E (n : Nat) : Fld := fld (0x5008c + 0x1000 * n) 0 24 .ro 0
def THERM.TAU.VAL (n : Nat) : Fld := fld (0x50090 + 0x1000 * n) 0 32 .ro 0
def THERM.T_FPA.T (n : Nat) : Fld := fld (0x50094 + 0x1000 * n) 0 32 .ro 0
def THERM.T_S.T (n : Nat) : Fld := fld (0x50098 + 0x1000 * n) 0 32 .ro 0
def THERM.T_SH.T (n : Nat) : Fld := fld (0x5009c + 0x1000 * n) 0 32 .ro 0
def THERM.NOISE.VAL (n : Nat) : Fld := fld (0x500a0 + 0x1000 * n) 0 24 .ro 0
def THERM.RESP.VAL (n : Nat) : Fld := fld (0x500a4 + 0x1000 * n) 0 32 .ro 0
def THERM.SH_STAT.STATE (n : Nat) : Fld := fld (0x500a8 + 0x1000 * n) 0 3 .ro 0
def THERM.SH_STAT.CAUSE (n : Nat) : Fld := fld (0x500a8 + 0x1000 * n) 4 3 .ro 0
def THERM.SH_STAT.PENDING (n : Nat) : Fld := fld (0x500a8 + 0x1000 * n) 8 1 .ro 0
def THERM.FRAME_CNT.CNT (n : Nat) : Fld := fld (0x500ac + 0x1000 * n) 0 32 .ro 0
def THERM.SH_CNT.CNT (n : Nat) : Fld := fld (0x500b0 + 0x1000 * n) 0 32 .ro 0
def THERM.SH_FAIL_CNT.CNT (n : Nat) : Fld := fld (0x500b4 + 0x1000 * n) 0 32 .ro 0
def THERM.DYN_BP.CNT (n : Nat) : Fld := fld (0x500b8 + 0x1000 * n) 0 32 .ro 0
def THERM.CLIP_CNT.CNT (n : Nat) : Fld := fld (0x500bc + 0x1000 * n) 0 32 .ro 0
def THERM.LATE_CNT.CNT (n : Nat) : Fld := fld (0x500c0 + 0x1000 * n) 0 32 .ro 0
def THERM.EXPIRED_CNT.CNT (n : Nat) : Fld := fld (0x500c4 + 0x1000 * n) 0 32 .ro 0
def THERM.DISCARD_CNT.CNT (n : Nat) : Fld := fld (0x500c8 + 0x1000 * n) 0 32 .ro 0
def THERM.FPA_STALE_CNT.CNT (n : Nat) : Fld := fld (0x500cc + 0x1000 * n) 0 32 .ro 0
def THERM.TAP_STUCK_CNT.CNT (n : Nat) : Fld := fld (0x500d0 + 0x1000 * n) 0 32 .ro 0
def THERM.TBL_CTL.VERIFY0 (n : Nat) : Fld := fld (0x500d4 + 0x1000 * n) 0 1 .w1s 0
def THERM.TBL_CTL.VERIFY1 (n : Nat) : Fld := fld (0x500d4 + 0x1000 * n) 1 1 .w1s 0
def THERM.TBL_STAT.VERIFIED0 (n : Nat) : Fld := fld (0x500d8 + 0x1000 * n) 0 1 .ro 0
def THERM.TBL_STAT.VERIFIED1 (n : Nat) : Fld := fld (0x500d8 + 0x1000 * n) 1 1 .ro 0
def THERM.TBL_STAT.VBUSY (n : Nat) : Fld := fld (0x500d8 + 0x1000 * n) 2 1 .ro 0
def THERM.TBL_STAT.BANK_BUSY (n : Nat) : Fld := fld (0x500d8 + 0x1000 * n) 3 1 .ro 0
def THERM.TBL_STAT.WR_LIVE (n : Nat) : Fld := fld (0x500d8 + 0x1000 * n) 4 1 .w1c 0
def THERM.TBL_STAT.CHK_CAUSE (n : Nat) : Fld := fld (0x500d8 + 0x1000 * n) 28 4 .ro 0
def THERM.U_MIN.U (n : Nat) : Fld := fld (0x500dc + 0x1000 * n) 0 32 .ro 0
def THERM.U_MAX.U (n : Nat) : Fld := fld (0x500e0 + 0x1000 * n) 0 32 .ro 0
def THERM.MAP_K_LO.K (n : Nat) : Fld := fld (0x500e4 + 0x1000 * n) 0 32 .ro 0
def THERM.MAP_K_HI.K (n : Nat) : Fld := fld (0x500e8 + 0x1000 * n) 0 16 .ro 0
def THERM.fields1 (n : Nat) : List Fld := [
  THERM.STATUS.STATE n, THERM.STATUS.FAULT_CAUSE n, THERM.STATUS.FPA_STALE n, THERM.STATUS.DRIFT_HIGH n,
  THERM.STATUS.DEGRADED n, THERM.STATUS.HEAD_PRESENT n, THERM.CTL.EN n, THERM.CTL.RESTART n,
  THERM.CTL.SH_NOW n, THERM.CTL.SH_INHIBIT n, THERM.CTL.BANK n, THERM.CTL.POLARITY n,
  THERM.CTL.ARCH_EN n, THERM.CTL.CLR_DYN n, THERM.CTL.ARCH_DECIM n, THERM.GEOM.COLS n,
  THERM.GEOM.ROWS n, THERM.FRAME_PERIOD.NS n, THERM.ROW_TIMING.ROW_PERIOD n, THERM.ROW_TIMING.RD_LAG n,
  THERM.ROW_TIMING.DATA_START n, THERM.INT_TIMING.INT_START n, THERM.INT_TIMING.INT_LEN n, THERM.BIAS.CODE n,
  THERM.BIAS.CS n, THERM.BIAS.SETTLE n, THERM.TEMP_SRC.FPA_CONV n, THERM.TEMP_SRC.FPA_ENTRY n,
  THERM.TEMP_SRC.SHT_CONV n, THERM.TEMP_SRC.SHT_ENTRY n, THERM.TEMP_SRC.BIAS_CONV n, THERM.TEMP_SRC.BIAS_ENTRY n,
  THERM.TEMP_SRC.MAXAGE n, THERM.BIAS_EXP.EXP n, THERM.BIAS_TOL.TOL n, THERM.SH_CFG.VALVE n,
  THERM.SH_CFG.SETTLE n, THERM.SH_CFG.FRAMES n, THERM.SH_CFG.OPEN_FRAMES n, THERM.SH_CFG.DIP_WIN n,
  THERM.SH_CFG.LEAD n, THERM.SH_BOUND.BOUND n, THERM.SH_INTERVAL.MIN n, THERM.SH_INTERVAL.MAX n,
  THERM.SH_OPEN_MIN.MIN n, THERM.BP_JUMP.JUMP n, THERM.CELL.AW n, THERM.CELL.XW n,
  THERM.CELL.MINN n, THERM.XW_ORIGIN.ORIGIN n, THERM.MAP_CFG.XW_CELLS n, THERM.MAP_CFG.BG_SHIFT n,
  THERM.DRIFT.DT n, THERM.DRIFT.DT_PRED n, THERM.E_NOW.E n, THERM.E_PRED.E n,
  THERM.TAU.VAL n, THERM.T_FPA.T n, THERM.T_S.T n, THERM.T_SH.T n,
  THERM.NOISE.VAL n, THERM.RESP.VAL n, THERM.SH_STAT.STATE n, THERM.SH_STAT.CAUSE n,
  THERM.SH_STAT.PENDING n, THERM.FRAME_CNT.CNT n, THERM.SH_CNT.CNT n, THERM.SH_FAIL_CNT.CNT n,
  THERM.DYN_BP.CNT n, THERM.CLIP_CNT.CNT n, THERM.LATE_CNT.CNT n, THERM.EXPIRED_CNT.CNT n,
  THERM.DISCARD_CNT.CNT n, THERM.FPA_STALE_CNT.CNT n, THERM.TAP_STUCK_CNT.CNT n, THERM.TBL_CTL.VERIFY0 n,
  THERM.TBL_CTL.VERIFY1 n, THERM.TBL_STAT.VERIFIED0 n, THERM.TBL_STAT.VERIFIED1 n, THERM.TBL_STAT.VBUSY n,
  THERM.TBL_STAT.BANK_BUSY n, THERM.TBL_STAT.WR_LIVE n, THERM.TBL_STAT.CHK_CAUSE n, THERM.U_MIN.U n,
  THERM.U_MAX.U n, THERM.MAP_K_LO.K n, THERM.MAP_K_HI.K n]
/-- The fields of page THERM n that its own table gives. -/
def THERM.fields (n : Nat) : List Fld := (THERM.fields1 n)

def THERM.irq.FRAME : Nat := 0
def THERM.irq.SH_DONE : Nat := 1
def THERM.irq.SH_FAIL : Nat := 2
def THERM.irq.SH_STUCK : Nat := 3
def THERM.irq.FAULT : Nat := 4
def THERM.irq.FPA_STALE : Nat := 5
def THERM.irq.TAP_STUCK : Nat := 6
def THERM.irq.VERIFY_DONE : Nat := 7

/-! Page TAPC: the register table of R162 of spec/06_thermal_readout.md; one page. -/

def TAPC.CTL.RATE : Fld := fld (0x52040) 0 2 .rws 0
def TAPC.CTL.SAMPLE_PH : Fld := fld (0x52040) 8 8 .rws 0
def TAPC.AFE.GAIN (j : Nat) : Fld := fld (0x52080 + 0x20 * j) 0 2 .rws 0
def TAPC.AFE.OFS_DAC (j : Nat) : Fld := fld (0x52080 + 0x20 * j) 16 12 .rws 2048
def TAPC.TAP_OFS.OFS (j : Nat) : Fld := fld (0x52084 + 0x20 * j) 0 16 .rws 0
def TAPC.TAP_GAIN.GAIN (j : Nat) : Fld := fld (0x52088 + 0x20 * j) 0 16 .rws 16384
def TAPC.LAST.SAMPLE (j : Nat) : Fld := fld (0x5208c + 0x20 * j) 0 16 .ro 0
def TAPC.CLIP_CNT.CNT (j : Nat) : Fld := fld (0x52090 + 0x20 * j) 0 32 .ro 0
def TAPC.STAT.STUCK (j : Nat) : Fld := fld (0x52094 + 0x20 * j) 0 1 .w1c 0
def TAPC.fields1 : List Fld := [
  TAPC.CTL.RATE, TAPC.CTL.SAMPLE_PH]
def TAPC.fields2 (j : Nat) : List Fld := [
  TAPC.AFE.GAIN j, TAPC.AFE.OFS_DAC j, TAPC.TAP_OFS.OFS j, TAPC.TAP_GAIN.GAIN j,
  TAPC.LAST.SAMPLE j, TAPC.CLIP_CNT.CNT j, TAPC.STAT.STUCK j]
/-- The fields of page TAPC that its own table gives. -/
def TAPC.fields : List Fld := (TAPC.fields1)
  ++ ((List.range 8).flatMap fun j => TAPC.fields2 j)

end Sys2Proof.Machine
end

