-- ==== Sys2Proof/Machine/RegMapB.lean ====
section
/-! DEFINITION. The register fields of the inspection, marking, archive and memory pages, from the tables of spec/07 to spec/12. -/

namespace Sys2Proof.Machine

/-! Page STITCH: the register table of R182 of spec/07_stitching.md; one page. -/

def STITCH.STATUS.LOAD_WARN : Fld := fld (0x5800c) 0 1 .ro 0
def STITCH.STATUS.GAP : Fld := fld (0x5800c) 1 1 .ro 0
def STITCH.STATUS.DEGRADED : Fld := fld (0x5800c) 2 1 .ro 0
def STITCH.STATUS.RING_LO : Fld := fld (0x5800c) 3 1 .ro 0
def STITCH.STATUS.RING_HI : Fld := fld (0x5800c) 4 1 .ro 0
def STITCH.CTL.FILL : Fld := fld (0x58040) 0 2 .rws 0
def STITCH.CTL.DEADLINE_LINES : Fld := fldC (0x58040) 4 4 .rws 3 1 8
def STITCH.COL_FIRST.COL : Fld := fld (0x58044) 0 32 .rws 0
def STITCH.COL_COUNT.N : Fld := fldC (0x58048) 0 18 .rws 0 0 131072
def STITCH.FILL_VAL.VAL : Fld := fld (0x5804c) 0 16 .rws 0
def STITCH.DEADLINE_US.US : Fld := fld (0x58050) 0 16 .rws 2000
def STITCH.RSEAM_LO.RULE : Fld := fld (0x58054) 0 2 .rws 0
def STITCH.RSEAM_HI.RULE : Fld := fld (0x58058) 0 2 .rws 0
def STITCH.RSEAM_LO.F : Fld := fld (0x58054) 8 8 .rws 0
def STITCH.RSEAM_HI.F : Fld := fld (0x58058) 8 8 .rws 0
def STITCH.RSEAM_LO.EN : Fld := fld (0x58054) 31 1 .rws 0
def STITCH.RSEAM_HI.EN : Fld := fld (0x58058) 31 1 .rws 0
def STITCH.EDGE.VAL : Fld := fldC (0x5805c) 0 9 .rws 64 0 256
def STITCH.LOAD.CYCLES : Fld := fld (0x58060) 0 13 .ro 0
def STITCH.CHK.CAUSE : Fld := fld (0x58064) 0 4 .ro 0
def STITCH.CHK.PORT : Fld := fld (0x58064) 4 4 .ro 0
def STITCH.CAL_CTL.MODE : Fld := fld (0x58068) 0 2 .rw 0
def STITCH.CAL_CTL.GO : Fld := fld (0x58068) 2 1 .w1s 0
def STITCH.CAL_CTL.LINES : Fld := fldC (0x58068) 16 11 .rw 64 1 1024
def STITCH.CAL_PORTS.MASK : Fld := fld (0x5806c) 0 16 .rw 0
def STITCH.CAL_THR.THR : Fld := fld (0x58070) 0 16 .rw 32768
def STITCH.CAL_STAT.BUSY : Fld := fld (0x58074) 0 1 .ro 0
def STITCH.CAL_STAT.DONE : Fld := fld (0x58074) 1 1 .w1c 0
def STITCH.LINES_OUT.CNT : Fld := fld (0x58080) 0 32 .ro 0
def STITCH.HOLE_LINES.CNT : Fld := fld (0x58084) 0 32 .ro 0
def STITCH.LATE_SEG_CNT.CNT : Fld := fld (0x58088) 0 32 .ro 0
def STITCH.REMOTE_LATE_CNT.CNT : Fld := fld (0x5808c) 0 32 .ro 0
def STITCH.RECONF_CNT.CNT : Fld := fld (0x58090) 0 32 .ro 0
def STITCH.OVERLOAD_CNT.CNT : Fld := fld (0x58094) 0 32 .ro 0
def STITCH.SKIPPED_CNT.CNT : Fld := fld (0x58098) 0 32 .ro 0
def STITCH.C0_LO.C0 (j : Nat) : Fld := fld (0x58100 + 0x40 * j) 0 32 .rws 0
def STITCH.C0_HI.C0 (j : Nat) : Fld := fld (0x58104 + 0x40 * j) 0 8 .rws 0
def STITCH.C1.C (j : Nat) : Fld := fld (0x58108 + 0x40 * j) 0 32 .rws 0
def STITCH.C2.C (j : Nat) : Fld := fld (0x5810c + 0x40 * j) 0 32 .rws 0
def STITCH.C3.C (j : Nat) : Fld := fld (0x58110 + 0x40 * j) 0 32 .rws 0
def STITCH.PIX_RANGE.FIRST (j : Nat) : Fld := fld (0x58114 + 0x40 * j) 0 16 .rws 0
def STITCH.PIX_RANGE.LAST (j : Nat) : Fld := fld (0x58114 + 0x40 * j) 16 16 .rws 32767
def STITCH.STAGGER.D (j : Nat) : Fld := fld (0x58118 + 0x40 * j) 0 12 .rws 0
def STITCH.CFG.EN (j : Nat) : Fld := fld (0x5811c + 0x40 * j) 0 1 .rws 0
def STITCH.CFG.RULE (j : Nat) : Fld := fld (0x5811c + 0x40 * j) 2 2 .rws 0
def STITCH.CFG.F (j : Nat) : Fld := fld (0x5811c + 0x40 * j) 8 8 .rws 0
def STITCH.SEAM_X.COL (j : Nat) : Fld := fld (0x58120 + 0x40 * j) 0 32 .rws 0
def STITCH.X_FIRST.COL (j : Nat) : Fld := fld (0x58124 + 0x40 * j) 0 32 .ro 0
def STITCH.X_LAST.COL (j : Nat) : Fld := fld (0x58128 + 0x40 * j) 0 32 .ro 0
def STITCH.SEAM_DIFF.MEAN (j : Nat) : Fld := fld (0x5812c + 0x40 * j) 0 16 .ro 0
def STITCH.SEAM_DIFF.N (j : Nat) : Fld := fld (0x5812c + 0x40 * j) 16 16 .ro 0
def STITCH.LATE_CNT.CNT (j : Nat) : Fld := fld (0x58130 + 0x40 * j) 0 32 .ro 0
def STITCH.fields1 : List Fld := [
  STITCH.STATUS.LOAD_WARN, STITCH.STATUS.GAP, STITCH.STATUS.DEGRADED, STITCH.STATUS.RING_LO,
  STITCH.STATUS.RING_HI, STITCH.CTL.FILL, STITCH.CTL.DEADLINE_LINES, STITCH.COL_FIRST.COL,
  STITCH.COL_COUNT.N, STITCH.FILL_VAL.VAL, STITCH.DEADLINE_US.US, STITCH.RSEAM_LO.RULE,
  STITCH.RSEAM_HI.RULE, STITCH.RSEAM_LO.F, STITCH.RSEAM_HI.F, STITCH.RSEAM_LO.EN,
  STITCH.RSEAM_HI.EN, STITCH.EDGE.VAL, STITCH.LOAD.CYCLES, STITCH.CHK.CAUSE,
  STITCH.CHK.PORT, STITCH.CAL_CTL.MODE, STITCH.CAL_CTL.GO, STITCH.CAL_CTL.LINES,
  STITCH.CAL_PORTS.MASK, STITCH.CAL_THR.THR, STITCH.CAL_STAT.BUSY, STITCH.CAL_STAT.DONE,
  STITCH.LINES_OUT.CNT, STITCH.HOLE_LINES.CNT, STITCH.LATE_SEG_CNT.CNT, STITCH.REMOTE_LATE_CNT.CNT,
  STITCH.RECONF_CNT.CNT, STITCH.OVERLOAD_CNT.CNT, STITCH.SKIPPED_CNT.CNT]
def STITCH.fields2 (j : Nat) : List Fld := [
  STITCH.C0_LO.C0 j, STITCH.C0_HI.C0 j, STITCH.C1.C j, STITCH.C2.C j,
  STITCH.C3.C j, STITCH.PIX_RANGE.FIRST j, STITCH.PIX_RANGE.LAST j, STITCH.STAGGER.D j,
  STITCH.CFG.EN j, STITCH.CFG.RULE j, STITCH.CFG.F j, STITCH.SEAM_X.COL j,
  STITCH.X_FIRST.COL j, STITCH.X_LAST.COL j, STITCH.SEAM_DIFF.MEAN j, STITCH.SEAM_DIFF.N j,
  STITCH.LATE_CNT.CNT j]
/-- The fields of page STITCH that its own table gives. -/
def STITCH.fields : List Fld := (STITCH.fields1)
  ++ ((List.range 16).flatMap fun j => STITCH.fields2 j)

def STITCH.irq.LATE_SEG : Nat := 0
def STITCH.irq.REMOTE_LATE : Nat := 1
def STITCH.irq.OVERLOAD : Nat := 2
def STITCH.irq.CAL_DONE : Nat := 3
def STITCH.irq.CHK_FAIL : Nat := 4
def STITCH.irq.SKIPPED : Nat := 5

/-! Page SEG: the register table of R205 of spec/08_segmentation.md; one page. -/

def SEG.STATUS.WARMUP : Fld := fld (0x6000c) 0 1 .ro 1
def SEG.STATUS.LOW_FREE : Fld := fld (0x6000c) 1 1 .ro 0
def SEG.STATUS.HI_RX : Fld := fld (0x6000c) 2 1 .ro 0
def SEG.CTL.EN : Fld := fld (0x60040) 0 1 .rws 0
def SEG.CTL.CONN : Fld := fld (0x60040) 1 1 .rws 1
def SEG.CTL.SUSP : Fld := fld (0x60040) 2 1 .rws 0
def SEG.CTL.HOLE_LINES : Fld := fld (0x60040) 4 4 .rws 2
def SEG.CTL.RESTART : Fld := fld (0x60040) 8 1 .w1s 0
def SEG.BG.SHIFT_M : Fld := fld (0x60044) 0 4 .rws 6
def SEG.BG.SHIFT_S : Fld := fld (0x60044) 4 4 .rws 8
def SEG.BG.WARM : Fld := fld (0x60044) 16 16 .rws 64
def SEG.SPREAD_FLOOR.FLOOR : Fld := fld (0x60048) 0 24 .rws 256
def SEG.MAX_LINES.LINES : Fld := fld (0x6004c) 0 16 .rws 4096
def SEG.MIN_AREA.AREA : Fld := fld (0x60050) 0 24 .rws 4
def SEG.MERGE_TIMEOUT.US : Fld := fld (0x60054) 0 16 .rw 50
def SEG.MIN_FREE.N : Fld := fld (0x60058) 0 14 .rw 512
def SEG.CHK.CAUSE : Fld := fld (0x6005c) 0 4 .ro 0
def SEG.CHK.FAMILY : Fld := fld (0x6005c) 4 2 .ro 0
def SEG.FAM_CTL.EN (j : Nat) : Fld := fld (0x60060 + 0x10 * j) 0 1 .rws 0
def SEG.FAM_CTL.POL (j : Nat) : Fld := fld (0x60060 + 0x10 * j) 1 2 .rws 0
def SEG.FAM_CTL.MIN_RUN (j : Nat) : Fld := fld (0x60060 + 0x10 * j) 8 8 .rws 1
def SEG.FAM_LO.K (j : Nat) : Fld := fld (0x60064 + 0x10 * j) 0 12 .rws 48
def SEG.FAM_HI.K (j : Nat) : Fld := fld (0x60068 + 0x10 * j) 0 12 .rws 96
def SEG.FAM_LO.FLOOR (j : Nat) : Fld := fld (0x60064 + 0x10 * j) 16 16 .rws 0
def SEG.FAM_HI.FLOOR (j : Nat) : Fld := fld (0x60068 + 0x10 * j) 16 16 .rws 0
def SEG.BLOB_STAT0.FREE : Fld := fld (0x600a0) 0 14 .ro 8192
def SEG.BLOB_STAT0.OPEN : Fld := fld (0x600a0) 16 14 .ro 0
def SEG.BLOB_STAT1.CLOSED : Fld := fld (0x600a4) 0 14 .ro 0
def SEG.BLOB_STAT1.HELD : Fld := fld (0x600a4) 16 14 .ro 0
def SEG.FREE_MIN.N : Fld := fld (0x600a8) 0 14 .ro 8192
def SEG.CLEAR.FREE_MIN : Fld := fld (0x600ac) 0 1 .w1s 0
def SEG.BLOBS_STARTED.CNT : Fld := fld (0x600b0) 0 32 .ro 0
def SEG.BLOBS_TAGGED.CNT : Fld := fld (0x600b4) 0 32 .ro 0
def SEG.BLOBS_DISCARDED.CNT : Fld := fld (0x600b8) 0 32 .ro 0
def SEG.BLOBS_ABSORBED.CNT : Fld := fld (0x600bc) 0 32 .ro 0
def SEG.CHUNK_CNT.CNT : Fld := fld (0x600c0) 0 32 .ro 0
def SEG.RUN_DROP_CNT.CNT : Fld := fld (0x600c4) 0 32 .ro 0
def SEG.RUN_OVF_CNT.CNT : Fld := fld (0x600c8) 0 32 .ro 0
def SEG.SEAM_PEND_CNT.CNT : Fld := fld (0x600cc) 0 32 .ro 0
def SEG.MERGE_REC_CNT.CNT : Fld := fld (0x600d0) 0 32 .ro 0
def SEG.MERGE_PARTIAL_CNT.CNT : Fld := fld (0x600d4) 0 32 .ro 0
def SEG.RECONF_CNT.CNT : Fld := fld (0x600d8) 0 32 .ro 0
def SEG.fields1 : List Fld := [
  SEG.STATUS.WARMUP, SEG.STATUS.LOW_FREE, SEG.STATUS.HI_RX, SEG.CTL.EN,
  SEG.CTL.CONN, SEG.CTL.SUSP, SEG.CTL.HOLE_LINES, SEG.CTL.RESTART,
  SEG.BG.SHIFT_M, SEG.BG.SHIFT_S, SEG.BG.WARM, SEG.SPREAD_FLOOR.FLOOR,
  SEG.MAX_LINES.LINES, SEG.MIN_AREA.AREA, SEG.MERGE_TIMEOUT.US, SEG.MIN_FREE.N,
  SEG.CHK.CAUSE, SEG.CHK.FAMILY, SEG.BLOB_STAT0.FREE, SEG.BLOB_STAT0.OPEN,
  SEG.BLOB_STAT1.CLOSED, SEG.BLOB_STAT1.HELD, SEG.FREE_MIN.N, SEG.CLEAR.FREE_MIN,
  SEG.BLOBS_STARTED.CNT, SEG.BLOBS_TAGGED.CNT, SEG.BLOBS_DISCARDED.CNT, SEG.BLOBS_ABSORBED.CNT,
  SEG.CHUNK_CNT.CNT, SEG.RUN_DROP_CNT.CNT, SEG.RUN_OVF_CNT.CNT, SEG.SEAM_PEND_CNT.CNT,
  SEG.MERGE_REC_CNT.CNT, SEG.MERGE_PARTIAL_CNT.CNT, SEG.RECONF_CNT.CNT]
def SEG.fields2 (j : Nat) : List Fld := [
  SEG.FAM_CTL.EN j, SEG.FAM_CTL.POL j, SEG.FAM_CTL.MIN_RUN j, SEG.FAM_LO.K j,
  SEG.FAM_HI.K j, SEG.FAM_LO.FLOOR j, SEG.FAM_HI.FLOOR j]
/-- The fields of page SEG that its own table gives. -/
def SEG.fields : List Fld := (SEG.fields1)
  ++ ((List.range 4).flatMap fun j => SEG.fields2 j)

def SEG.irq.RUN_DROP : Nat := 0
def SEG.irq.RUN_OVF : Nat := 1
def SEG.irq.LOW_FREE : Nat := 2
def SEG.irq.MERGE_PARTIAL : Nat := 3
def SEG.irq.GROUP_FULL : Nat := 4
def SEG.irq.CHK_FAIL : Nat := 5

/-! Page CLASS: the register table of R223 of spec/09_classification_and_tags.md; one page. -/

def CLASS.CTL.EN : Fld := fld (0x61040) 0 1 .rws 0
def CLASS.CTL.BANK : Fld := fld (0x61040) 1 1 .rws 0
def CLASS.CHK.CAUSE : Fld := fld (0x61044) 0 4 .ro 0
def CLASS.CHK.RULE : Fld := fld (0x61044) 8 8 .ro 0
def CLASS.TBL_STAT.BANK_BUSY : Fld := fld (0x61048) 0 1 .ro 0
def CLASS.TBL_STAT.WR_LIVE : Fld := fld (0x61048) 1 1 .w1c 0
def CLASS.LAST.CLASS_WORD : Fld := fld (0x6104c) 0 32 .ro 0
def CLASS.DECIDED_CNT.CNT : Fld := fld (0x61050) 0 32 .ro 0
def CLASS.DEFAULT_CNT.CNT : Fld := fld (0x61054) 0 32 .ro 0
def CLASS.GROUP_CNT.CNT : Fld := fld (0x61058) 0 32 .ro 0
def CLASS.CLASS_CNT.CNT (k : Nat) : Fld := fld (0x61100 + 4 * k) 0 32 .ro 0
def CLASS.fields1 : List Fld := [
  CLASS.CTL.EN, CLASS.CTL.BANK, CLASS.CHK.CAUSE, CLASS.CHK.RULE,
  CLASS.TBL_STAT.BANK_BUSY, CLASS.TBL_STAT.WR_LIVE, CLASS.LAST.CLASS_WORD, CLASS.DECIDED_CNT.CNT,
  CLASS.DEFAULT_CNT.CNT, CLASS.GROUP_CNT.CNT]
def CLASS.fields2 (k : Nat) : List Fld := [
  CLASS.CLASS_CNT.CNT k]
/-- The fields of page CLASS that its own table gives. -/
def CLASS.fields : List Fld := (CLASS.fields1)
  ++ ((List.range 64).flatMap fun k => CLASS.fields2 k)

def CLASS.irq.CHK_FAIL : Nat := 0
def CLASS.irq.WR_LIVE : Nat := 1

/-! Page TAG: the register table of R224 of spec/09_classification_and_tags.md; one page. -/

def TAG.CTL.HOST_EN : Fld := fld (0x62040) 0 1 .rw 0
def TAG.CTL.FEAT_EN : Fld := fld (0x62040) 1 1 .rws 0
def TAG.HQ_DEPTH.N : Fld := fld (0x62044) 0 16 .ro 0
def TAG.HQ_MAX.N : Fld := fld (0x62048) 0 16 .ro 0
def TAG.SSEQ.NEXT : Fld := fld (0x6204c) 0 32 .ro 0
def TAG.LAT_MAX.NS : Fld := fld (0x62050) 0 16 .ro 0
def TAG.MQ_DEPTH.N : Fld := fld (0x62054) 0 7 .ro 0
def TAG.CLEAR.HQ_MAX : Fld := fld (0x62058) 0 1 .w1s 0
def TAG.CLEAR.LAT_MAX : Fld := fld (0x62058) 1 1 .w1s 0
def TAG.TAGS_CNT.CNT : Fld := fld (0x62060) 0 32 .ro 0
def TAG.MARK_REQ_CNT.CNT : Fld := fld (0x62064) 0 32 .ro 0
def TAG.MARK_FULL_CNT.CNT : Fld := fld (0x62068) 0 32 .ro 0
def TAG.MERGE_CNT.CNT : Fld := fld (0x6206c) 0 32 .ro 0
def TAG.MARKRES_CNT.CNT : Fld := fld (0x62070) 0 32 .ro 0
def TAG.FEAT_CNT.CNT : Fld := fld (0x62074) 0 32 .ro 0
def TAG.HOST_LOST_CNT.CNT : Fld := fld (0x62078) 0 32 .ro 0
def TAG.OVER_K_CNT.CNT : Fld := fld (0x6207c) 0 32 .ro 0
def TAG.fields1 : List Fld := [
  TAG.CTL.HOST_EN, TAG.CTL.FEAT_EN, TAG.HQ_DEPTH.N, TAG.HQ_MAX.N,
  TAG.SSEQ.NEXT, TAG.LAT_MAX.NS, TAG.MQ_DEPTH.N, TAG.CLEAR.HQ_MAX,
  TAG.CLEAR.LAT_MAX, TAG.TAGS_CNT.CNT, TAG.MARK_REQ_CNT.CNT, TAG.MARK_FULL_CNT.CNT,
  TAG.MERGE_CNT.CNT, TAG.MARKRES_CNT.CNT, TAG.FEAT_CNT.CNT, TAG.HOST_LOST_CNT.CNT,
  TAG.OVER_K_CNT.CNT]
/-- The fields of page TAG that its own table gives. -/
def TAG.fields : List Fld := (TAG.fields1)

def TAG.irq.MARK_FULL : Nat := 0
def TAG.irq.HOST_LOST : Nat := 1
def TAG.irq.OVER_K : Nat := 2

/-! Page MARK: the register table of R248 of spec/10_markers_and_valves.md; one page. -/

def MARK.STATUS.SHED : Fld := fld (0x6800c) 0 1 .ro 0
def MARK.STATUS.RAIL_LOW : Fld := fld (0x6800c) 1 1 .ro 0
def MARK.STATUS.STANDBY : Fld := fld (0x6800c) 2 1 .ro 0
def MARK.CTL.EN : Fld := fld (0x68040) 0 1 .rws 0
def MARK.I_MAX.MA : Fld := fldC (0x68044) 0 15 .rws 24000 0 24000
def MARK.LEDGER_CAP.UJ : Fld := fldC (0x68048) 0 23 .rws 3500000 0 3500000
def MARK.LEDGER_RATE.UJ : Fld := fldC (0x6804c) 0 8 .rws 100 1 100
def MARK.SHED_WAIT.US : Fld := fld (0x68050) 0 20 .rws 1000
def MARK.RAIL.MV : Fld := fld (0x68054) 0 16 .ro 0
def MARK.AVAIL.UJ : Fld := fld (0x68058) 0 32 .ro 0
def MARK.RESV.UJ : Fld := fld (0x6805c) 0 32 .ro 0
def MARK.SPENT_LO.SPENT : Fld := fld (0x68060) 0 32 .ro 0
def MARK.SPENT_HI.SPENT : Fld := fld (0x68064) 0 32 .ro 0
def MARK.REFILL_LO.REFILL : Fld := fld (0x68068) 0 32 .ro 0
def MARK.REFILL_HI.REFILL : Fld := fld (0x6806c) 0 32 .ro 0
def MARK.SPILL_LO.SPILL : Fld := fld (0x68070) 0 32 .ro 0
def MARK.SPILL_HI.SPILL : Fld := fld (0x68074) 0 32 .ro 0
def MARK.SLOT_STAT0.FREE : Fld := fld (0x68078) 0 13 .ro 4096
def MARK.SLOT_STAT0.ARMED : Fld := fld (0x68078) 16 13 .ro 0
def MARK.SLOT_STAT1.RUN : Fld := fld (0x6807c) 0 5 .ro 0
def MARK.SLOT_STAT1.DONE : Fld := fld (0x6807c) 16 5 .ro 0
def MARK.CHK.CAUSE : Fld := fld (0x68080) 0 3 .ro 0
def MARK.CHK.CHAN : Fld := fld (0x68080) 4 4 .ro 0
def MARK.MARK_IN.CNT : Fld := fld (0x68084) 0 32 .ro 0
def MARK.RES_CNT.CNT : Fld := fld (0x68088) 0 32 .ro 0
def MARK.CONFIRMED_CNT.CNT : Fld := fld (0x6808c) 0 32 .ro 0
def MARK.FAILED_CNT.CNT : Fld := fld (0x68090) 0 32 .ro 0
def MARK.FAULT_CNT.CNT : Fld := fld (0x68094) 0 32 .ro 0
def MARK.SKIPPED_CNT.CNT : Fld := fld (0x68098) 0 32 .ro 0
def MARK.SHED_CNT.CNT : Fld := fld (0x6809c) 0 32 .ro 0
def MARK.NO_SLOT_CNT.CNT : Fld := fld (0x680a0) 0 32 .ro 0
def MARK.MPS.MASK (j : Nat) : Fld := fld (0x68100 + 0x8 * j) 0 16 .rws 0
def MARK.MPS.ANCHOR (j : Nat) : Fld := fld (0x68100 + 0x8 * j) 16 2 .rws 1
def MARK.MPS.ENTRY (j : Nat) : Fld := fld (0x68100 + 0x8 * j) 20 2 .rws 0
def MARK.MPS_OFS.UM (j : Nat) : Fld := fld (0x68104 + 0x8 * j) 0 32 .rws 0
def MARK.fields1 : List Fld := [
  MARK.STATUS.SHED, MARK.STATUS.RAIL_LOW, MARK.STATUS.STANDBY, MARK.CTL.EN,
  MARK.I_MAX.MA, MARK.LEDGER_CAP.UJ, MARK.LEDGER_RATE.UJ, MARK.SHED_WAIT.US,
  MARK.RAIL.MV, MARK.AVAIL.UJ, MARK.RESV.UJ, MARK.SPENT_LO.SPENT,
  MARK.SPENT_HI.SPENT, MARK.REFILL_LO.REFILL, MARK.REFILL_HI.REFILL, MARK.SPILL_LO.SPILL,
  MARK.SPILL_HI.SPILL, MARK.SLOT_STAT0.FREE, MARK.SLOT_STAT0.ARMED, MARK.SLOT_STAT1.RUN,
  MARK.SLOT_STAT1.DONE, MARK.CHK.CAUSE, MARK.CHK.CHAN, MARK.MARK_IN.CNT,
  MARK.RES_CNT.CNT, MARK.CONFIRMED_CNT.CNT, MARK.FAILED_CNT.CNT, MARK.FAULT_CNT.CNT,
  MARK.SKIPPED_CNT.CNT, MARK.SHED_CNT.CNT, MARK.NO_SLOT_CNT.CNT]
def MARK.fields2 (j : Nat) : List Fld := [
  MARK.MPS.MASK j, MARK.MPS.ANCHOR j, MARK.MPS.ENTRY j, MARK.MPS_OFS.UM j]
/-- The fields of page MARK that its own table gives. -/
def MARK.fields : List Fld := (MARK.fields1)
  ++ ((List.range 16).flatMap fun j => MARK.fields2 j)

def MARK.irq.NO_SLOT : Nat := 0
def MARK.irq.SHED : Nat := 1
def MARK.irq.VALVE_FAULT : Nat := 2
def MARK.irq.RAIL_LOW : Nat := 3
def MARK.irq.CHK_FAIL : Nat := 4
def MARK.irq.LEDGER_NEG : Nat := 5

/-! Page HSG: the register table of R249 of spec/10_markers_and_valves.md; unit n. -/

def HSG.I_MAX.MA (n : Nat) : Fld := fldC (0x69040 + 0x1000 * n) 0 14 .rws 10000 0 12000
def HSG.PEAK_LIMIT.US (n : Nat) : Fld := fld (0x69044 + 0x1000 * n) 0 16 .rws 2000
def HSG.STAT.BUSY (n : Nat) : Fld := fld (0x69048 + 0x1000 * n) 0 1 .ro 0
def HSG.STAT.OWNER (n : Nat) : Fld := fld (0x69048 + 0x1000 * n) 1 2 .ro 0
def HSG.STAT.WAITING (n : Nat) : Fld := fld (0x69048 + 0x1000 * n) 4 4 .ro 0
def HSG.STAT.I_SUM (n : Nat) : Fld := fld (0x69048 + 0x1000 * n) 16 14 .ro 0
def HSG.FAULT.CAUSE (n : Nat) : Fld := fld (0x6904c + 0x1000 * n) 0 2 .ro 0
def HSG.FAULT.CLR (n : Nat) : Fld := fld (0x6904c + 0x1000 * n) 8 1 .w1s 0
def HSG.WAIT_MAX.US (n : Nat) : Fld := fld (0x69050 + 0x1000 * n) 0 16 .ro 0
def HSG.CLEAR.WAIT_MAX (n : Nat) : Fld := fld (0x69054 + 0x1000 * n) 0 1 .w1s 0
def HSG.PEAK_GRANT_CNT.CNT (n : Nat) : Fld := fld (0x69058 + 0x1000 * n) 0 32 .ro 0
def HSG.PEAK_WAIT_CNT.CNT (n : Nat) : Fld := fld (0x6905c + 0x1000 * n) 0 32 .ro 0
def HSG.fields1 (n : Nat) : List Fld := [
  HSG.I_MAX.MA n, HSG.PEAK_LIMIT.US n, HSG.STAT.BUSY n, HSG.STAT.OWNER n,
  HSG.STAT.WAITING n, HSG.STAT.I_SUM n, HSG.FAULT.CAUSE n, HSG.FAULT.CLR n,
  HSG.WAIT_MAX.US n, HSG.CLEAR.WAIT_MAX n, HSG.PEAK_GRANT_CNT.CNT n, HSG.PEAK_WAIT_CNT.CNT n]
/-- The fields of page HSG n that its own table gives. -/
def HSG.fields (n : Nat) : List Fld := (HSG.fields1 n)

def HSG.irq.FAULT : Nat := 0
def HSG.irq.PEAK_LONG : Nat := 1

/-! Page VALVE: the register table of R250 of spec/10_markers_and_valves.md; unit n. -/

def VALVE.STATUS.STATE (n : Nat) : Fld := fld (0x7000c + 0x1000 * n) 0 3 .ro 0
def VALVE.STATUS.DRIVE (n : Nat) : Fld := fld (0x7000c + 0x1000 * n) 4 2 .ro 0
def VALVE.STATUS.DIP (n : Nat) : Fld := fld (0x7000c + 0x1000 * n) 6 1 .ro 0
def VALVE.CFG.ROLE (n : Nat) : Fld := fld (0x70040 + 0x1000 * n) 0 2 .rws 0
def VALVE.CFG.BANK (n : Nat) : Fld := fld (0x70040 + 0x1000 * n) 4 1 .rws 0
def VALVE.XW_LO.X (n : Nat) : Fld := fld (0x70044 + 0x1000 * n) 0 32 .rws 0
def VALVE.XW_HI.X (n : Nat) : Fld := fld (0x70048 + 0x1000 * n) 0 32 .rws 0
def VALVE.DIST.UM (n : Nat) : Fld := fld (0x7004c + 0x1000 * n) 0 32 .rws 0
def VALVE.LEAD_NS.NS (n : Nat) : Fld := fld (0x70050 + 0x1000 * n) 0 32 .rws 0
def VALVE.ENTRY.E0 (n : Nat) : Fld := fld (0x70054 + 0x1000 * n) 0 8 .rws 0
def VALVE.ENTRY.E1 (n : Nat) : Fld := fld (0x70054 + 0x1000 * n) 8 8 .rws 0
def VALVE.ENTRY.E2 (n : Nat) : Fld := fld (0x70054 + 0x1000 * n) 16 8 .rws 0
def VALVE.ENTRY.E3 (n : Nat) : Fld := fld (0x70054 + 0x1000 * n) 24 8 .rws 0
def VALVE.ENERGY.UJ (n : Nat) (k : Nat) : Fld := fld (0x70058 + 0x1000 * n + 4 * k) 0 23 .rws 100000
def VALVE.REG.HYST (n : Nat) : Fld := fld (0x70068 + 0x1000 * n) 0 8 .rws 25
def VALVE.REG.REST (n : Nat) : Fld := fld (0x70068 + 0x1000 * n) 16 16 .rws 500
def VALVE.DIP_CFG.DEPTH (n : Nat) : Fld := fld (0x7006c + 0x1000 * n) 0 12 .rws 50
def VALVE.DIP_CFG.N (n : Nat) : Fld := fld (0x7006c + 0x1000 * n) 12 4 .rws 4
def VALVE.DIP_WIN.TMIN (n : Nat) : Fld := fld (0x70070 + 0x1000 * n) 0 16 .rws 0
def VALVE.DIP_WIN.TMAX (n : Nat) : Fld := fld (0x70070 + 0x1000 * n) 16 16 .rws 65535
def VALVE.FAULT_CFG.OPEN_I (n : Nat) : Fld := fld (0x70074 + 0x1000 * n) 0 12 .rws 125
def VALVE.FAULT.CAUSE (n : Nat) : Fld := fld (0x70078 + 0x1000 * n) 0 4 .ro 0
def VALVE.FAULT.CLR (n : Nat) : Fld := fld (0x70078 + 0x1000 * n) 8 1 .w1s 0
def VALVE.CMD.RUN (n : Nat) : Fld := fld (0x7007c + 0x1000 * n) 0 1 .w1s 0
def VALVE.CMD.ENTRY (n : Nat) : Fld := fld (0x7007c + 0x1000 * n) 1 2 .rw 0
def VALVE.CMD.STOP (n : Nat) : Fld := fld (0x7007c + 0x1000 * n) 3 1 .w1s 0
def VALVE.NOW.I (n : Nat) : Fld := fld (0x70080 + 0x1000 * n) 0 12 .ro 0
def VALVE.NOW.PC (n : Nat) : Fld := fld (0x70080 + 0x1000 * n) 16 8 .ro 0
def VALVE.LAST.DIP_T (n : Nat) : Fld := fld (0x70084 + 0x1000 * n) 0 16 .ro 65535
def VALVE.LAST.RESULT (n : Nat) : Fld := fld (0x70084 + 0x1000 * n) 16 4 .ro 0
def VALVE.LAST_E.UJ (n : Nat) : Fld := fld (0x70088 + 0x1000 * n) 0 23 .ro 0
def VALVE.TBL_STAT.BANK_BUSY (n : Nat) : Fld := fld (0x7008c + 0x1000 * n) 0 1 .ro 0
def VALVE.TBL_STAT.WR_LIVE (n : Nat) : Fld := fld (0x7008c + 0x1000 * n) 1 1 .w1c 0
def VALVE.RUN_CNT.CNT (n : Nat) : Fld := fld (0x70090 + 0x1000 * n) 0 32 .ro 0
def VALVE.DIP_CNT.CNT (n : Nat) : Fld := fld (0x70094 + 0x1000 * n) 0 32 .ro 0
def VALVE.DIP_MISS_CNT.CNT (n : Nat) : Fld := fld (0x70098 + 0x1000 * n) 0 32 .ro 0
def VALVE.FAULT_CNT.CNT (n : Nat) : Fld := fld (0x7009c + 0x1000 * n) 0 32 .ro 0
def VALVE.fields1 (n : Nat) : List Fld := [
  VALVE.STATUS.STATE n, VALVE.STATUS.DRIVE n, VALVE.STATUS.DIP n, VALVE.CFG.ROLE n,
  VALVE.CFG.BANK n, VALVE.XW_LO.X n, VALVE.XW_HI.X n, VALVE.DIST.UM n,
  VALVE.LEAD_NS.NS n, VALVE.ENTRY.E0 n, VALVE.ENTRY.E1 n, VALVE.ENTRY.E2 n,
  VALVE.ENTRY.E3 n, VALVE.REG.HYST n, VALVE.REG.REST n, VALVE.DIP_CFG.DEPTH n,
  VALVE.DIP_CFG.N n, VALVE.DIP_WIN.TMIN n, VALVE.DIP_WIN.TMAX n, VALVE.FAULT_CFG.OPEN_I n,
  VALVE.FAULT.CAUSE n, VALVE.FAULT.CLR n, VALVE.CMD.RUN n, VALVE.CMD.ENTRY n,
  VALVE.CMD.STOP n, VALVE.NOW.I n, VALVE.NOW.PC n, VALVE.LAST.DIP_T n,
  VALVE.LAST.RESULT n, VALVE.LAST_E.UJ n, VALVE.TBL_STAT.BANK_BUSY n, VALVE.TBL_STAT.WR_LIVE n,
  VALVE.RUN_CNT.CNT n, VALVE.DIP_CNT.CNT n, VALVE.DIP_MISS_CNT.CNT n, VALVE.FAULT_CNT.CNT n]
def VALVE.fields2 (n : Nat) (k : Nat) : List Fld := [
  VALVE.ENERGY.UJ n k]
/-- The fields of page VALVE n that its own table gives. -/
def VALVE.fields (n : Nat) : List Fld := (VALVE.fields1 n)
  ++ ((List.range 4).flatMap fun k => VALVE.fields2 n k)

def VALVE.irq.DONE : Nat := 0
def VALVE.irq.FAULT : Nat := 1
def VALVE.irq.DIP_MISS : Nat := 2
def VALVE.irq.WR_LIVE : Nat := 3

/-! Page ZCTL: the register table of R272 of spec/11_compression.md; one page. -/

def ZCTL.STATUS.ARCH_ON : Fld := fld (0x8000c) 0 1 .ro 0
def ZCTL.STATUS.BUDGET_WARN : Fld := fld (0x8000c) 1 1 .ro 0
def ZCTL.STATUS.CAP_WARN : Fld := fld (0x8000c) 2 1 .ro 0
def ZCTL.STATUS.FORCE_FRB : Fld := fld (0x8000c) 3 1 .ro 0
def ZCTL.STATUS.JOB_PAUSE : Fld := fld (0x8000c) 4 1 .ro 0
def ZCTL.STATUS.DEGRADED : Fld := fld (0x8000c) 5 1 .ro 0
def ZCTL.ARCH_CFG.EN : Fld := fld (0x80040) 0 1 .rws 0
def ZCTL.ARCH_CFG.MODE : Fld := fld (0x80040) 1 1 .rws 0
def ZCTL.ARCH_CFG.WRAP : Fld := fld (0x80040) 2 2 .rws 0
def ZCTL.ARCH_CFG.LEVEL : Fld := fld (0x80040) 4 2 .rws 1
def ZCTL.ARCH_CFG.STATES : Fld := fld (0x80040) 6 1 .rws 0
def ZCTL.ARCH_CFG.THERM : Fld := fld (0x80040) 7 1 .rws 0
def ZCTL.ARCH_CFG.BITS : Fld := fldC (0x80040) 8 5 .rws 12 8 16
def ZCTL.ARCH_GEOM.STRIPE_W : Fld := fldC (0x80044) 0 14 .rws 2048 256 8192
def ZCTL.ARCH_GEOM.CHUNK_LINES : Fld := fldC (0x80044) 16 7 .rws 16 1 64
def ZCTL.FRB_CFG.RATIO : Fld := fld (0x80048) 0 2 .rws 0
def ZCTL.STREAM_MASK.MASK : Fld := fld (0x8004c) 0 32 .rws 65535
def ZCTL.BUDGET.BPUS : Fld := fldC (0x80050) 0 15 .rws 22000 1 25000
def ZCTL.BUCKET_CAP.BYTES : Fld := fld (0x80054) 0 32 .rws 16777216
def ZCTL.BUCKET.C : Fld := fld (0x80058) 0 32 .ro 0
def ZCTL.F_LINE.BYTES : Fld := fld (0x8005c) 0 32 .ro 0
def ZCTL.RAW_LINE.BYTES : Fld := fld (0x80060) 0 32 .ro 0
def ZCTL.CHK.CAUSE : Fld := fld (0x80064) 0 4 .ro 0
def ZCTL.POOL_FREE.N : Fld := fld (0x80068) 0 15 .ro 16384
def ZCTL.POOL_MIN.N : Fld := fld (0x8006c) 0 15 .ro 16384
def ZCTL.JOB_CTL.ABORT : Fld := fld (0x80070) 0 1 .w1s 0
def ZCTL.JQ_TAIL.IDX : Fld := fld (0x80074) 0 8 .rw 0
def ZCTL.JQ_HEAD.IDX : Fld := fld (0x80078) 0 8 .ro 0
def ZCTL.CQ_HEAD.IDX : Fld := fld (0x8007c) 0 8 .rw 0
def ZCTL.CQ_TAIL.IDX : Fld := fld (0x80080) 0 8 .ro 0
def ZCTL.FORCE.JOB_PAUSE : Fld := fld (0x80084) 0 1 .ro 0
def ZCTL.FORCE.FRB : Fld := fld (0x80084) 1 1 .ro 0
def ZCTL.WRITTEN_LO.BYTES : Fld := fld (0x800a0) 0 32 .ro 0
def ZCTL.WRITTEN_HI.BYTES : Fld := fld (0x800a4) 0 32 .ro 0
def ZCTL.PENDING_LO.PENDING : Fld := fld (0x800a8) 0 32 .ro 0
def ZCTL.PENDING_HI.PENDING : Fld := fld (0x800ac) 0 32 .ro 0
def ZCTL.HELD_LO.HELD : Fld := fld (0x800b0) 0 32 .ro 0
def ZCTL.HELD_HI.HELD : Fld := fld (0x800b4) 0 32 .ro 0
def ZCTL.SENT_LO.SENT : Fld := fld (0x800b8) 0 32 .ro 0
def ZCTL.SENT_HI.SENT : Fld := fld (0x800bc) 0 32 .ro 0
def ZCTL.DROPPED_LO.DROPPED : Fld := fld (0x800c0) 0 32 .ro 0
def ZCTL.DROPPED_HI.DROPPED : Fld := fld (0x800c4) 0 32 .ro 0
def ZCTL.CHUNKS_DEFLATE.CNT : Fld := fld (0x800c8) 0 32 .ro 0
def ZCTL.CHUNKS_FRB.CNT : Fld := fld (0x800cc) 0 32 .ro 0
def ZCTL.CHUNKS_RAW.CNT : Fld := fld (0x800d0) 0 32 .ro 0
def ZCTL.THERM_RECS.CNT : Fld := fld (0x800d4) 0 32 .ro 0
def ZCTL.LINES_LOST.CNT : Fld := fld (0x800d8) 0 32 .ro 0
def ZCTL.JOBS_DONE.CNT : Fld := fld (0x800dc) 0 32 .ro 0
def ZCTL.fields1 : List Fld := [
  ZCTL.STATUS.ARCH_ON, ZCTL.STATUS.BUDGET_WARN, ZCTL.STATUS.CAP_WARN, ZCTL.STATUS.FORCE_FRB,
  ZCTL.STATUS.JOB_PAUSE, ZCTL.STATUS.DEGRADED, ZCTL.ARCH_CFG.EN, ZCTL.ARCH_CFG.MODE,
  ZCTL.ARCH_CFG.WRAP, ZCTL.ARCH_CFG.LEVEL, ZCTL.ARCH_CFG.STATES, ZCTL.ARCH_CFG.THERM,
  ZCTL.ARCH_CFG.BITS, ZCTL.ARCH_GEOM.STRIPE_W, ZCTL.ARCH_GEOM.CHUNK_LINES, ZCTL.FRB_CFG.RATIO,
  ZCTL.STREAM_MASK.MASK, ZCTL.BUDGET.BPUS, ZCTL.BUCKET_CAP.BYTES, ZCTL.BUCKET.C,
  ZCTL.F_LINE.BYTES, ZCTL.RAW_LINE.BYTES, ZCTL.CHK.CAUSE, ZCTL.POOL_FREE.N,
  ZCTL.POOL_MIN.N, ZCTL.JOB_CTL.ABORT, ZCTL.JQ_TAIL.IDX, ZCTL.JQ_HEAD.IDX,
  ZCTL.CQ_HEAD.IDX, ZCTL.CQ_TAIL.IDX, ZCTL.FORCE.JOB_PAUSE, ZCTL.FORCE.FRB,
  ZCTL.WRITTEN_LO.BYTES, ZCTL.WRITTEN_HI.BYTES, ZCTL.PENDING_LO.PENDING, ZCTL.PENDING_HI.PENDING,
  ZCTL.HELD_LO.HELD, ZCTL.HELD_HI.HELD, ZCTL.SENT_LO.SENT, ZCTL.SENT_HI.SENT,
  ZCTL.DROPPED_LO.DROPPED, ZCTL.DROPPED_HI.DROPPED, ZCTL.CHUNKS_DEFLATE.CNT, ZCTL.CHUNKS_FRB.CNT,
  ZCTL.CHUNKS_RAW.CNT, ZCTL.THERM_RECS.CNT, ZCTL.LINES_LOST.CNT, ZCTL.JOBS_DONE.CNT]
/-- The fields of page ZCTL that its own table gives. -/
def ZCTL.fields : List Fld := (ZCTL.fields1)

def ZCTL.irq.VFAIL : Nat := 0
def ZCTL.irq.ENG_FAULT : Nat := 1
def ZCTL.irq.LINES_LOST : Nat := 2
def ZCTL.irq.JOB_DONE : Nat := 3
def ZCTL.irq.CHK_FAIL : Nat := 4
def ZCTL.irq.POOL_LOW : Nat := 5

/-! Page Z: the register table of R273 of spec/11_compression.md; unit n. -/

def Z.STATUS.STATE (n : Nat) : Fld := fld (0x8100c + 0x1000 * n) 0 3 .ro 0
def Z.STATUS.CHUNKS (n : Nat) : Fld := fld (0x8100c + 0x1000 * n) 4 3 .ro 0
def Z.CTL.CLR_FAULT (n : Nat) : Fld := fld (0x81040 + 0x1000 * n) 0 1 .w1s 0
def Z.QUEUED.BYTES (n : Nat) : Fld := fld (0x81044 + 0x1000 * n) 0 32 .ro 0
def Z.IN_LO.BYTES (n : Nat) : Fld := fld (0x81048 + 0x1000 * n) 0 32 .ro 0
def Z.IN_HI.BYTES (n : Nat) : Fld := fld (0x8104c + 0x1000 * n) 0 32 .ro 0
def Z.OUT_LO.BYTES (n : Nat) : Fld := fld (0x81050 + 0x1000 * n) 0 32 .ro 0
def Z.OUT_HI.BYTES (n : Nat) : Fld := fld (0x81054 + 0x1000 * n) 0 32 .ro 0
def Z.VFAIL_CNT.CNT (n : Nat) : Fld := fld (0x81058 + 0x1000 * n) 0 32 .ro 0
def Z.VFAIL_RUN.N (n : Nat) : Fld := fld (0x8105c + 0x1000 * n) 0 3 .ro 0
def Z.CHUNK_CNT.CNT (n : Nat) : Fld := fld (0x81060 + 0x1000 * n) 0 32 .ro 0
def Z.JOB_CNT.CNT (n : Nat) : Fld := fld (0x81064 + 0x1000 * n) 0 32 .ro 0
def Z.LAST_ERR.CODE (n : Nat) : Fld := fld (0x81068 + 0x1000 * n) 0 8 .ro 0
def Z.LAST_ERR_OFS.OFS (n : Nat) : Fld := fld (0x8106c + 0x1000 * n) 0 32 .ro 0
def Z.CTX.OPEN (n : Nat) : Fld := fld (0x81070 + 0x1000 * n) 0 16 .ro 0
def Z.fields1 (n : Nat) : List Fld := [
  Z.STATUS.STATE n, Z.STATUS.CHUNKS n, Z.CTL.CLR_FAULT n, Z.QUEUED.BYTES n,
  Z.IN_LO.BYTES n, Z.IN_HI.BYTES n, Z.OUT_LO.BYTES n, Z.OUT_HI.BYTES n,
  Z.VFAIL_CNT.CNT n, Z.VFAIL_RUN.N n, Z.CHUNK_CNT.CNT n, Z.JOB_CNT.CNT n,
  Z.LAST_ERR.CODE n, Z.LAST_ERR_OFS.OFS n, Z.CTX.OPEN n]
/-- The fields of page Z n that its own table gives. -/
def Z.fields (n : Nat) : List Fld := (Z.fields1 n)

def Z.irq.VFAIL : Nat := 0
def Z.irq.FAULT : Nat := 1
def Z.irq.DECODE_ERR : Nat := 2

/-! Page MEM: the register table of R289 of spec/12_memory_and_integrity.md; one page. -/

def MEM.STATUS.HBM_READY : Fld := fld (0x900c) 0 1 .ro 0
def MEM.STATUS.DEGRADED : Fld := fld (0x900c) 1 1 .ro 0
def MEM.STATUS.SCRUB_PAUSED : Fld := fld (0x900c) 2 1 .ro 0
def MEM.CTL.DEGRADE : Fld := fld (0x9040) 0 1 .w1s 0
def MEM.CTL.RECOVER : Fld := fld (0x9040) 1 1 .w1s 0
def MEM.CTL.AUTO_RECOVER : Fld := fld (0x9040) 2 1 .rw 1
def MEM.CTL.CE_WB : Fld := fld (0x9040) 3 1 .rw 1
def MEM.DEG_CAUSE.CAUSE : Fld := fld (0x9044) 0 3 .ro 0
def MEM.DEG_CAUSE.TRIES : Fld := fld (0x9044) 4 3 .ro 0
def MEM.UE_LIMIT.N : Fld := fld (0x9048) 0 16 .rw 16
def MEM.SCRUB_HBM.HOURS : Fld := fldC (0x904c) 0 10 .rw 24 1 720
def MEM.SCRUB_SRAM.SECONDS : Fld := fldC (0x9050) 0 12 .rw 10 1 3600
def MEM.CE_ROW_LIMIT.N : Fld := fld (0x9054) 0 8 .rw 4
def MEM.SCRUB_POS_LO.ADDR : Fld := fld (0x9058) 0 32 .ro 0
def MEM.SCRUB_POS_HI.ADDR : Fld := fld (0x905c) 0 8 .ro 0
def MEM.LOG_NEXT.IDX : Fld := fld (0x9060) 0 6 .ro 0
def MEM.CE_HBM.CNT : Fld := fld (0x9080) 0 32 .ro 0
def MEM.CE_SRAM.CNT : Fld := fld (0x9084) 0 32 .ro 0
def MEM.CE_FAB.CNT : Fld := fld (0x9088) 0 32 .ro 0
def MEM.UE_HBM.CNT : Fld := fld (0x908c) 0 32 .ro 0
def MEM.UE_SRAM.CNT : Fld := fld (0x9090) 0 32 .ro 0
def MEM.UE_FAB.CNT : Fld := fld (0x9094) 0 32 .ro 0
def MEM.POISON_RD_CNT.CNT : Fld := fld (0x9098) 0 32 .ro 0
def MEM.SCRUB_CE.CNT : Fld := fld (0x909c) 0 32 .ro 0
def MEM.SCRUB_UE.CNT : Fld := fld (0x90a0) 0 32 .ro 0
def MEM.ROW_WEAK_CNT.CNT : Fld := fld (0x90a4) 0 32 .ro 0
def MEM.WB_DROP_CNT.CNT : Fld := fld (0x90a8) 0 32 .ro 0
def MEM.LOG_LOST.CNT : Fld := fld (0x90ac) 0 32 .ro 0
def MEM.fields1 : List Fld := [
  MEM.STATUS.HBM_READY, MEM.STATUS.DEGRADED, MEM.STATUS.SCRUB_PAUSED, MEM.CTL.DEGRADE,
  MEM.CTL.RECOVER, MEM.CTL.AUTO_RECOVER, MEM.CTL.CE_WB, MEM.DEG_CAUSE.CAUSE,
  MEM.DEG_CAUSE.TRIES, MEM.UE_LIMIT.N, MEM.SCRUB_HBM.HOURS, MEM.SCRUB_SRAM.SECONDS,
  MEM.CE_ROW_LIMIT.N, MEM.SCRUB_POS_LO.ADDR, MEM.SCRUB_POS_HI.ADDR, MEM.LOG_NEXT.IDX,
  MEM.CE_HBM.CNT, MEM.CE_SRAM.CNT, MEM.CE_FAB.CNT, MEM.UE_HBM.CNT,
  MEM.UE_SRAM.CNT, MEM.UE_FAB.CNT, MEM.POISON_RD_CNT.CNT, MEM.SCRUB_CE.CNT,
  MEM.SCRUB_UE.CNT, MEM.ROW_WEAK_CNT.CNT, MEM.WB_DROP_CNT.CNT, MEM.LOG_LOST.CNT]
/-- The fields of page MEM that its own table gives. -/
def MEM.fields : List Fld := (MEM.fields1)

def MEM.irq.CE : Nat := 0
def MEM.irq.UE : Nat := 1
def MEM.irq.POISON_RD : Nat := 2
def MEM.irq.DEGRADED : Nat := 3
def MEM.irq.HBM_READY : Nat := 4
def MEM.irq.LOG_LOST : Nat := 5
def MEM.irq.ROW_WEAK : Nat := 6
def MEM.irq.SCRUB_PASS : Nat := 7

/-! Page FAB: the register table of R290 of spec/12_memory_and_integrity.md; one page. -/

def FAB.STATUS.TOK_LOW : Fld := fld (0xa00c) 0 1 .ro 0
def FAB.TOK_STAT0.FREE : Fld := fld (0xa040) 0 15 .ro 16384
def FAB.TOK_STAT0.INFLIGHT : Fld := fld (0xa040) 16 15 .ro 0
def FAB.TOK_STAT1.RETURNING : Fld := fld (0xa044) 0 15 .ro 0
def FAB.ISSUED_LO.CNT : Fld := fld (0xa048) 0 32 .ro 0
def FAB.ISSUED_HI.CNT : Fld := fld (0xa04c) 0 32 .ro 0
def FAB.RETIRED_LO.CNT : Fld := fld (0xa050) 0 32 .ro 0
def FAB.RETIRED_HI.CNT : Fld := fld (0xa054) 0 32 .ro 0
def FAB.TIMEOUT_US.US : Fld := fld (0xa058) 0 8 .rw 10
def FAB.TOK_LOW_THR.N : Fld := fld (0xa05c) 0 15 .rw 1024
def FAB.CHK.CAUSE : Fld := fld (0xa060) 0 2 .ro 0
def FAB.CHK.CLASS : Fld := fld (0xa060) 4 3 .ro 0
def FAB.TIMEOUT_CNT.CNT : Fld := fld (0xa064) 0 32 .ro 0
def FAB.FREE_MIN.N : Fld := fld (0xa068) 0 15 .ro 16384
def FAB.CLEAR.FREE_MIN : Fld := fld (0xa06c) 0 1 .w1s 0
def FAB.RESERVE.N (j : Nat) : Fld := fld (0xa100 + 0x10 * j) 0 15 .rws ([4096, 2048, 1024, 512, 2048, 512, 64, 256].getD j 0)
def FAB.LIMIT.N (j : Nat) : Fld := fld (0xa104 + 0x10 * j) 0 15 .rws ([8192, 4096, 2048, 2048, 8192, 8192, 256, 1024].getD j 0)
def FAB.HELD.N (j : Nat) : Fld := fld (0xa108 + 0x10 * j) 0 15 .ro 0
def FAB.WAIT_CNT.CNT (j : Nat) : Fld := fld (0xa10c + 0x10 * j) 0 32 .ro 0
def FAB.fields1 : List Fld := [
  FAB.STATUS.TOK_LOW, FAB.TOK_STAT0.FREE, FAB.TOK_STAT0.INFLIGHT, FAB.TOK_STAT1.RETURNING,
  FAB.ISSUED_LO.CNT, FAB.ISSUED_HI.CNT, FAB.RETIRED_LO.CNT, FAB.RETIRED_HI.CNT,
  FAB.TIMEOUT_US.US, FAB.TOK_LOW_THR.N, FAB.CHK.CAUSE, FAB.CHK.CLASS,
  FAB.TIMEOUT_CNT.CNT, FAB.FREE_MIN.N, FAB.CLEAR.FREE_MIN]
def FAB.fields2 (j : Nat) : List Fld := [
  FAB.RESERVE.N j, FAB.LIMIT.N j, FAB.HELD.N j, FAB.WAIT_CNT.CNT j]
/-- The fields of page FAB that its own table gives. -/
def FAB.fields : List Fld := (FAB.fields1)
  ++ ((List.range 8).flatMap fun j => FAB.fields2 j)

def FAB.irq.TOK_LOW : Nat := 0
def FAB.irq.TIMEOUT : Nat := 1
def FAB.irq.CHK_FAIL : Nat := 2

end Sys2Proof.Machine
end

