-- ==== Sys2Proof/Machine/RegMapC.lean ====
section
/-! DEFINITION. The register fields of the host, twin, store, converter, temperature, power and system pages, from the tables of spec/13 to spec/20. -/

namespace Sys2Proof.Machine

/-! Page HOST: the register table of R309 of spec/13_host_protocol.md; one page. -/

def HOST.STATUS.HA_UP : Fld := fld (0xb000c) 0 1 .ro 0
def HOST.STATUS.HB_UP : Fld := fld (0xb000c) 1 1 .ro 0
def HOST.STATUS.FAILOVER : Fld := fld (0xb000c) 2 1 .ro 0
def HOST.STATUS.JQ_OWNED : Fld := fld (0xb000c) 3 1 .ro 0
def HOST.STATUS.PTP_ACTIVE : Fld := fld (0xb000c) 4 1 .ro 0
def HOST.CTL.HA_EN : Fld := fld (0xb0040) 0 1 .rw 1
def HOST.CTL.HB_EN : Fld := fld (0xb0040) 1 1 .rw 1
def HOST.CTL.THP_EN : Fld := fld (0xb0040) 2 1 .rw 1
def HOST.CTL.ICMP_EN : Fld := fld (0xb0040) 3 1 .rw 1
def HOST.MAC_LO.MAC : Fld := fld (0xb0044) 0 32 .ro Config.macLo.toNat
def HOST.MAC_HI.MAC : Fld := fld (0xb0048) 0 16 .ro Config.macHi.toNat
def HOST.IP_HA.IP : Fld := fld (0xb004c) 0 32 .rw 0
def HOST.IP_HB.IP : Fld := fld (0xb0050) 0 32 .rw 0
def HOST.NETMASK.IP : Fld := fld (0xb0054) 0 32 .rw 0
def HOST.GATEWAY.IP : Fld := fld (0xb0058) 0 32 .rw 0
def HOST.UDP.THP_PORT : Fld := fld (0xb005c) 0 16 .rw 4770
def HOST.SESS_TIMEOUT.MS : Fld := fldC (0xb0060) 0 16 .rw 1000 100 60000
def HOST.PTP_CFG.ROLE : Fld := fld (0xb0064) 0 2 .rw 0
def HOST.PTP_CFG.PORT : Fld := fld (0xb0064) 2 1 .rw 0
def HOST.PTP_CFG.DOMAIN : Fld := fld (0xb0064) 8 8 .rw 0
def HOST.PTP_CFG.LOG_SYNC : Fld := fld (0xb0064) 16 4 .rw 13
def HOST.PTP_CFG.LOG_DELAY : Fld := fld (0xb0064) 20 4 .rw 13
def HOST.PTP_ASYM.ASYM : Fld := fld (0xb0068) 0 32 .rw 0
def HOST.PTP_OFS.OFS : Fld := fld (0xb006c) 0 32 .ro 0
def HOST.ALLOW_ADDR.IP (k : Nat) : Fld := fld (0xb0070 + 8 * k) 0 32 .rw 0
def HOST.ALLOW_CFG.PREFIX (k : Nat) : Fld := fld (0xb0074 + 8 * k) 0 6 .rw 0
def HOST.ALLOW_CFG.EN (k : Nat) : Fld := fld (0xb0074 + 8 * k) 8 1 .rw 0
def HOST.ALLOW_CFG.WR (k : Nat) : Fld := fld (0xb0074 + 8 * k) 9 1 .rw 0
def HOST.ALLOW_CFG.JOB (k : Nat) : Fld := fld (0xb0074 + 8 * k) 10 1 .rw 0
def HOST.ARCH_CAP.BPUS : Fld := fld (0xb0090) 0 16 .ro 0
def HOST.ARCH_Q_HA.BYTES : Fld := fld (0xb0094) 0 32 .ro 0
def HOST.ARCH_Q_HB.BYTES : Fld := fld (0xb0098) 0 32 .ro 0
def HOST.RX_FRAMES_HA.CNT : Fld := fld (0xb00c0) 0 32 .ro 0
def HOST.RX_FRAMES_HB.CNT : Fld := fld (0xb00c4) 0 32 .ro 0
def HOST.TX_FRAMES_HA.CNT : Fld := fld (0xb00c8) 0 32 .ro 0
def HOST.TX_FRAMES_HB.CNT : Fld := fld (0xb00cc) 0 32 .ro 0
def HOST.RX_DROP_CNT.CNT : Fld := fld (0xb00d0) 0 32 .ro 0
def HOST.FCS_ERR_CNT.CNT : Fld := fld (0xb00d4) 0 32 .ro 0
def HOST.BAD_THP_CNT.CNT : Fld := fld (0xb00d8) 0 32 .ro 0
def HOST.DENIED_CNT.CNT : Fld := fld (0xb00dc) 0 32 .ro 0
def HOST.DUP_REQ_CNT.CNT : Fld := fld (0xb00e0) 0 32 .ro 0
def HOST.RETX_CNT.CNT : Fld := fld (0xb00e4) 0 32 .ro 0
def HOST.FAILOVER_CNT.CNT : Fld := fld (0xb00e8) 0 32 .ro 0
def HOST.LOST_NOTICE_CNT.CNT : Fld := fld (0xb00ec) 0 32 .ro 0
def HOST.SESS_STAT.STATE (j : Nat) : Fld := fld (0xb0100 + 0x20 * j) 0 2 .ro 0
def HOST.SESS_STAT.STREAMS (j : Nat) : Fld := fld (0xb0100 + 0x20 * j) 4 4 .ro 0
def HOST.SESS_STAT.VER (j : Nat) : Fld := fld (0xb0100 + 0x20 * j) 8 8 .ro 0
def HOST.SESS_STAT.HOME (j : Nat) : Fld := fld (0xb0100 + 0x20 * j) 16 1 .ro 0
def HOST.SESS_STAT.CUR (j : Nat) : Fld := fld (0xb0100 + 0x20 * j) 17 1 .ro 0
def HOST.SESS_STAT.WR (j : Nat) : Fld := fld (0xb0100 + 0x20 * j) 18 1 .ro 0
def HOST.SESS_STAT.JOB (j : Nat) : Fld := fld (0xb0100 + 0x20 * j) 19 1 .ro 0
def HOST.SESS_IP.IP (j : Nat) : Fld := fld (0xb0104 + 0x20 * j) 0 32 .ro 0
def HOST.SESS_PORTS.CTL_PORT (j : Nat) : Fld := fld (0xb0108 + 0x20 * j) 0 16 .ro 0
def HOST.SESS_PORTS.DATA_PORT (j : Nat) : Fld := fld (0xb0108 + 0x20 * j) 16 16 .ro 0
def HOST.SESS_ACK.SSEQ (j : Nat) : Fld := fld (0xb010c + 0x20 * j) 0 32 .ro 0
def HOST.SESS_REQ_CNT.CNT (j : Nat) : Fld := fld (0xb0110 + 0x20 * j) 0 32 .ro 0
def HOST.SESS_ID.ID (j : Nat) : Fld := fld (0xb0114 + 0x20 * j) 0 16 .ro 0
def HOST.fields1 : List Fld := [
  HOST.STATUS.HA_UP, HOST.STATUS.HB_UP, HOST.STATUS.FAILOVER, HOST.STATUS.JQ_OWNED,
  HOST.STATUS.PTP_ACTIVE, HOST.CTL.HA_EN, HOST.CTL.HB_EN, HOST.CTL.THP_EN,
  HOST.CTL.ICMP_EN, HOST.MAC_LO.MAC, HOST.MAC_HI.MAC, HOST.IP_HA.IP,
  HOST.IP_HB.IP, HOST.NETMASK.IP, HOST.GATEWAY.IP, HOST.UDP.THP_PORT,
  HOST.SESS_TIMEOUT.MS, HOST.PTP_CFG.ROLE, HOST.PTP_CFG.PORT, HOST.PTP_CFG.DOMAIN,
  HOST.PTP_CFG.LOG_SYNC, HOST.PTP_CFG.LOG_DELAY, HOST.PTP_ASYM.ASYM, HOST.PTP_OFS.OFS,
  HOST.ARCH_CAP.BPUS, HOST.ARCH_Q_HA.BYTES, HOST.ARCH_Q_HB.BYTES, HOST.RX_FRAMES_HA.CNT,
  HOST.RX_FRAMES_HB.CNT, HOST.TX_FRAMES_HA.CNT, HOST.TX_FRAMES_HB.CNT, HOST.RX_DROP_CNT.CNT,
  HOST.FCS_ERR_CNT.CNT, HOST.BAD_THP_CNT.CNT, HOST.DENIED_CNT.CNT, HOST.DUP_REQ_CNT.CNT,
  HOST.RETX_CNT.CNT, HOST.FAILOVER_CNT.CNT, HOST.LOST_NOTICE_CNT.CNT]
def HOST.fields2 (k : Nat) : List Fld := [
  HOST.ALLOW_ADDR.IP k, HOST.ALLOW_CFG.PREFIX k, HOST.ALLOW_CFG.EN k, HOST.ALLOW_CFG.WR k,
  HOST.ALLOW_CFG.JOB k]
def HOST.fields3 (j : Nat) : List Fld := [
  HOST.SESS_STAT.STATE j, HOST.SESS_STAT.STREAMS j, HOST.SESS_STAT.VER j, HOST.SESS_STAT.HOME j,
  HOST.SESS_STAT.CUR j, HOST.SESS_STAT.WR j, HOST.SESS_STAT.JOB j, HOST.SESS_IP.IP j,
  HOST.SESS_PORTS.CTL_PORT j, HOST.SESS_PORTS.DATA_PORT j, HOST.SESS_ACK.SSEQ j, HOST.SESS_REQ_CNT.CNT j,
  HOST.SESS_ID.ID j]
/-- The fields of page HOST that its own table gives. -/
def HOST.fields : List Fld := (HOST.fields1)
  ++ ((List.range 4).flatMap fun k => HOST.fields2 k)
  ++ ((List.range 4).flatMap fun j => HOST.fields3 j)

def HOST.irq.LINK_HA : Nat := 0
def HOST.irq.LINK_HB : Nat := 1
def HOST.irq.SESS_OPEN : Nat := 2
def HOST.irq.SESS_CLOSE : Nat := 3
def HOST.irq.FAILOVER : Nat := 4
def HOST.irq.DENIED : Nat := 5

/-! Page MGMT: the register table of R324 of spec/14_management_spi.md; one page. -/

def MGMT.STATUS.PAGE_END : Fld := fld (0x800c) 0 1 .w1c 0
def MGMT.STATUS.UNDERRUN : Fld := fld (0x800c) 1 1 .w1c 0
def MGMT.STATUS.CMD_ERR : Fld := fld (0x800c) 2 1 .w1c 0
def MGMT.STATUS.MEM_ERR : Fld := fld (0x800c) 3 1 .w1c 0
def MGMT.STATUS.WR_DROP : Fld := fld (0x800c) 4 1 .w1c 0
def MGMT.STATUS.SERVICE : Fld := fld (0x800c) 8 2 .ro 0
def MGMT.STATUS.DEGRADED : Fld := fld (0x800c) 10 1 .ro 0
def MGMT.STATUS.STANDBY : Fld := fld (0x800c) 11 1 .ro 0
def MGMT.SLV_CFG.MODE : Fld := fld (0x8040) 0 2 .rw 0
def MGMT.UNDERRUN_IDX.SLOT : Fld := fld (0x8044) 0 16 .ro 0
def MGMT.LAST_CMD.CMD : Fld := fld (0x8048) 0 32 .ro 0
def MGMT.LAST_WORDS.WORDS : Fld := fld (0x804c) 0 16 .ro 0
def MGMT.LAST_WORDS.BITS : Fld := fld (0x804c) 16 5 .ro 0
def MGMT.WR_QUEUE.N : Fld := fld (0x8050) 0 5 .ro 0
def MGMT.FRAME_CNT.CNT : Fld := fld (0x8060) 0 32 .ro 0
def MGMT.SEL_ABORT_CNT.CNT : Fld := fld (0x8064) 0 32 .ro 0
def MGMT.UNDERRUN_CNT.CNT : Fld := fld (0x8068) 0 32 .ro 0
def MGMT.CMD_ERR_CNT.CNT : Fld := fld (0x806c) 0 32 .ro 0
def MGMT.STRAY_EDGE_CNT.CNT : Fld := fld (0x8070) 0 32 .ro 0
def MGMT.WR_DROP_CNT.CNT : Fld := fld (0x8074) 0 32 .ro 0
def MGMT.MST_SEL.MODE (k : Nat) : Fld := fld (0x8080 + 4 * k) 0 2 .rw 0
def MGMT.MST_SEL.BITS (k : Nat) : Fld := fldC (0x8080 + 4 * k) 2 6 .rw 32 8 32
def MGMT.MST_SEL.DIV (k : Nat) : Fld := fld (0x8080 + 4 * k) 8 8 .rw 7
def MGMT.MST_SEL.CSS (k : Nat) : Fld := fld (0x8080 + 4 * k) 16 8 .rw 4
def MGMT.MST_SEL.CSH (k : Nat) : Fld := fld (0x8080 + 4 * k) 24 8 .rw 4
def MGMT.MST_TX.DATA : Fld := fld (0x80a0) 0 32 .rw 0
def MGMT.MST_CTL.SEL : Fld := fld (0x80a4) 0 3 .rw 0
def MGMT.MST_CTL.GO : Fld := fld (0x80a4) 8 1 .w1s 0
def MGMT.MST_RX.DATA : Fld := fld (0x80a8) 0 32 .ro 0
def MGMT.MST_STAT.BUSY : Fld := fld (0x80ac) 0 1 .ro 0
def MGMT.MST_STAT.DONE : Fld := fld (0x80ac) 1 1 .w1c 0
def MGMT.MST_STAT.OWNED : Fld := fld (0x80ac) 2 1 .w1c 0
def MGMT.MST_XFER_CNT.CNT : Fld := fld (0x80b0) 0 32 .ro 0
def MGMT.fields1 : List Fld := [
  MGMT.STATUS.PAGE_END, MGMT.STATUS.UNDERRUN, MGMT.STATUS.CMD_ERR, MGMT.STATUS.MEM_ERR,
  MGMT.STATUS.WR_DROP, MGMT.STATUS.SERVICE, MGMT.STATUS.DEGRADED, MGMT.STATUS.STANDBY,
  MGMT.SLV_CFG.MODE, MGMT.UNDERRUN_IDX.SLOT, MGMT.LAST_CMD.CMD, MGMT.LAST_WORDS.WORDS,
  MGMT.LAST_WORDS.BITS, MGMT.WR_QUEUE.N, MGMT.FRAME_CNT.CNT, MGMT.SEL_ABORT_CNT.CNT,
  MGMT.UNDERRUN_CNT.CNT, MGMT.CMD_ERR_CNT.CNT, MGMT.STRAY_EDGE_CNT.CNT, MGMT.WR_DROP_CNT.CNT,
  MGMT.MST_TX.DATA, MGMT.MST_CTL.SEL, MGMT.MST_CTL.GO, MGMT.MST_RX.DATA,
  MGMT.MST_STAT.BUSY, MGMT.MST_STAT.DONE, MGMT.MST_STAT.OWNED, MGMT.MST_XFER_CNT.CNT]
def MGMT.fields2 (k : Nat) : List Fld := [
  MGMT.MST_SEL.MODE k, MGMT.MST_SEL.BITS k, MGMT.MST_SEL.DIV k, MGMT.MST_SEL.CSS k,
  MGMT.MST_SEL.CSH k]
/-- The fields of page MGMT that its own table gives. -/
def MGMT.fields : List Fld := (MGMT.fields1)
  ++ ((List.range 8).flatMap fun k => MGMT.fields2 k)

def MGMT.irq.SEL_ABORT : Nat := 0
def MGMT.irq.UNDERRUN : Nat := 1
def MGMT.irq.CMD_ERR : Nat := 2
def MGMT.irq.WR_DROP : Nat := 3
def MGMT.irq.MST_DONE : Nat := 4

/-! Page TWIN: the register table of R348 of spec/15_twin_and_ring.md; one page. -/

def TWIN.STATUS.STATE : Fld := fld (0xb800c) 0 3 .ro 0
def TWIN.STATUS.MIRRORED : Fld := fld (0xb800c) 3 1 .ro 0
def TWIN.STATUS.SIDE : Fld := fld (0xb800c) 4 1 .ro 0
def TWIN.STATUS.TAKE_IN : Fld := fld (0xb800c) 5 1 .ro 0
def TWIN.STATUS.TAKE_OUT : Fld := fld (0xb800c) 6 1 .ro 0
def TWIN.STATUS.LINK_UP : Fld := fld (0xb800c) 7 1 .ro 0
def TWIN.STATUS.PAIR_HB : Fld := fld (0xb800c) 8 1 .ro 0
def TWIN.STATUS.ERR_CAUSE : Fld := fld (0xb800c) 9 3 .ro 0
def TWIN.CTL.EN : Fld := fld (0xb8040) 0 1 .rw 0
def TWIN.CTL.SWITCH : Fld := fld (0xb8040) 1 1 .w1s 0
def TWIN.CTL.TAKE : Fld := fld (0xb8040) 2 1 .w1s 0
def TWIN.CTL.RESYNC : Fld := fld (0xb8040) 3 1 .w1s 0
def TWIN.CFG.HB_TIMEOUT : Fld := fldC (0xb8044) 0 8 .rw 3 2 255
def TWIN.CFG.STRING_HB : Fld := fld (0xb8044) 8 1 .rw 1
def TWIN.CFG.YIELD_DEG : Fld := fld (0xb8044) 9 1 .rw 1
def TWIN.CFG.YIELD_THM : Fld := fld (0xb8044) 10 1 .rw 1
def TWIN.CFG.SOLO_WAIT : Fld := fld (0xb8044) 16 16 .rw 1500
def TWIN.TAKE_INFO.CAUSE : Fld := fld (0xb8048) 0 2 .ro 0
def TWIN.TAKE_INFO.UNMIRRORED : Fld := fld (0xb8048) 2 1 .ro 0
def TWIN.TAKE_WLN_LO.WLN : Fld := fld (0xb804c) 0 32 .ro 0
def TWIN.TAKE_WLN_HI.WLN : Fld := fld (0xb8050) 0 16 .ro 0
def TWIN.LINK_DLY.DLY : Fld := fld (0xb8054) 0 16 .ro 0
def TWIN.VER_WLN_LO.WLN : Fld := fld (0xb8058) 0 32 .ro 0
def TWIN.VER_WLN_HI.WLN : Fld := fld (0xb805c) 0 16 .ro 0
def TWIN.TAKEOVER_CNT.CNT : Fld := fld (0xb8060) 0 32 .ro 0
def TWIN.FENCED_CNT.CNT : Fld := fld (0xb8064) 0 32 .ro 0
def TWIN.DIFF_CNT.CNT : Fld := fld (0xb8068) 0 32 .ro 0
def TWIN.RESYNC_CNT.CNT : Fld := fld (0xb806c) 0 32 .ro 0
def TWIN.RESYNC_FAIL_CNT.CNT : Fld := fld (0xb8070) 0 32 .ro 0
def TWIN.LINK_DOWN_CNT.CNT : Fld := fld (0xb8074) 0 32 .ro 0
def TWIN.MSG_ERR_CNT.CNT : Fld := fld (0xb8078) 0 32 .ro 0
def TWIN.MARK_UNKNOWN_CNT.CNT : Fld := fld (0xb807c) 0 32 .ro 0
def TWIN.fields1 : List Fld := [
  TWIN.STATUS.STATE, TWIN.STATUS.MIRRORED, TWIN.STATUS.SIDE, TWIN.STATUS.TAKE_IN,
  TWIN.STATUS.TAKE_OUT, TWIN.STATUS.LINK_UP, TWIN.STATUS.PAIR_HB, TWIN.STATUS.ERR_CAUSE,
  TWIN.CTL.EN, TWIN.CTL.SWITCH, TWIN.CTL.TAKE, TWIN.CTL.RESYNC,
  TWIN.CFG.HB_TIMEOUT, TWIN.CFG.STRING_HB, TWIN.CFG.YIELD_DEG, TWIN.CFG.YIELD_THM,
  TWIN.CFG.SOLO_WAIT, TWIN.TAKE_INFO.CAUSE, TWIN.TAKE_INFO.UNMIRRORED, TWIN.TAKE_WLN_LO.WLN,
  TWIN.TAKE_WLN_HI.WLN, TWIN.LINK_DLY.DLY, TWIN.VER_WLN_LO.WLN, TWIN.VER_WLN_HI.WLN,
  TWIN.TAKEOVER_CNT.CNT, TWIN.FENCED_CNT.CNT, TWIN.DIFF_CNT.CNT, TWIN.RESYNC_CNT.CNT,
  TWIN.RESYNC_FAIL_CNT.CNT, TWIN.LINK_DOWN_CNT.CNT, TWIN.MSG_ERR_CNT.CNT, TWIN.MARK_UNKNOWN_CNT.CNT]
/-- The fields of page TWIN that its own table gives. -/
def TWIN.fields : List Fld := (TWIN.fields1)

def TWIN.irq.TAKEOVER : Nat := 0
def TWIN.irq.FENCED : Nat := 1
def TWIN.irq.LINK_DOWN : Nat := 2
def TWIN.irq.DIFF : Nat := 3
def TWIN.irq.MIRRORED : Nat := 4
def TWIN.irq.PAIR_ERR : Nat := 5
def TWIN.irq.YIELD_REFUSED : Nat := 6

/-! Page STRING: the register table of R349 of spec/15_twin_and_ring.md; one page. -/

def STRING.STATUS.POS : Fld := fld (0xb900c) 0 4 .ro 0
def STRING.STATUS.RING_STATE : Fld := fld (0xb900c) 4 3 .ro 0
def STRING.STATUS.IN_UP : Fld := fld (0xb900c) 7 1 .ro 0
def STRING.STATUS.OUT_UP : Fld := fld (0xb900c) 8 1 .ro 0
def STRING.STATUS.PUPPETEER : Fld := fld (0xb900c) 9 1 .ro 0
def STRING.STATUS.PUP_HOPS : Fld := fld (0xb900c) 10 4 .ro 0
def STRING.CFG.EN : Fld := fld (0xb9040) 0 1 .rw 0
def STRING.CFG.SLOT : Fld := fld (0xb9040) 1 3 .rw 0
def STRING.CFG.SLOTS : Fld := fldC (0xb9040) 4 4 .rw 1 1 8
def STRING.CFG.FORM_WAIT : Fld := fld (0xb9040) 16 16 .rw 1000
def STRING.HOP_IN_DLY.DLY : Fld := fld (0xb9044) 0 16 .ro 0
def STRING.HOP_OUT_DLY.DLY : Fld := fld (0xb9048) 0 16 .ro 0
def STRING.REACH.POS_MAP : Fld := fld (0xb904c) 0 16 .ro 0
def STRING.REACH.ACTIVE_B : Fld := fld (0xb904c) 16 8 .ro 0
def STRING.REACH.SLOT_MAP : Fld := fld (0xb904c) 24 8 .ro 0
def STRING.TOPO_ERR.CAUSE : Fld := fld (0xb9050) 0 3 .ro 0
def STRING.TOPO_ERR.POS : Fld := fld (0xb9050) 4 4 .ro 0
def STRING.TIME_OFS.OFS : Fld := fld (0xb9054) 0 32 .ro 0
def STRING.BREAK_CNT.CNT : Fld := fld (0xb9060) 0 32 .ro 0
def STRING.HEAL_CNT.CNT : Fld := fld (0xb9064) 0 32 .ro 0
def STRING.MSG_ERR_CNT.CNT : Fld := fld (0xb9068) 0 32 .ro 0
def STRING.FWD_DROP_CNT.CNT : Fld := fld (0xb906c) 0 32 .ro 0
def STRING.fields1 : List Fld := [
  STRING.STATUS.POS, STRING.STATUS.RING_STATE, STRING.STATUS.IN_UP, STRING.STATUS.OUT_UP,
  STRING.STATUS.PUPPETEER, STRING.STATUS.PUP_HOPS, STRING.CFG.EN, STRING.CFG.SLOT,
  STRING.CFG.SLOTS, STRING.CFG.FORM_WAIT, STRING.HOP_IN_DLY.DLY, STRING.HOP_OUT_DLY.DLY,
  STRING.REACH.POS_MAP, STRING.REACH.ACTIVE_B, STRING.REACH.SLOT_MAP, STRING.TOPO_ERR.CAUSE,
  STRING.TOPO_ERR.POS, STRING.TIME_OFS.OFS, STRING.BREAK_CNT.CNT, STRING.HEAL_CNT.CNT,
  STRING.MSG_ERR_CNT.CNT, STRING.FWD_DROP_CNT.CNT]
/-- The fields of page STRING that its own table gives. -/
def STRING.fields : List Fld := (STRING.fields1)

def STRING.irq.RING_UP : Nat := 0
def STRING.irq.BREAK : Nat := 1
def STRING.irq.HEAL : Nat := 2
def STRING.irq.SPLIT : Nat := 3
def STRING.irq.TOPO_ERR : Nat := 4

/-! Page NVS: the register table of R375 of spec/16_store_and_profiles.md; one page. -/

def NVS.STATUS.BUSY : Fld := fld (0x600c) 0 1 .ro 0
def NVS.STATUS.PENDING : Fld := fld (0x600c) 1 1 .ro 0
def NVS.STATUS.KIND : Fld := fld (0x600c) 2 2 .ro 0
def NVS.STATUS.FROZEN : Fld := fld (0x600c) 4 1 .ro 0
def NVS.STATUS.LOST : Fld := fld (0x600c) 5 1 .ro 0
def NVS.STATUS.WEAR_WARN : Fld := fld (0x600c) 6 1 .ro 0
def NVS.STATUS.SCAN : Fld := fld (0x600c) 7 1 .ro 0
def NVS.STATUS.START_RESULT : Fld := fld (0x600c) 8 2 .ro 0
def NVS.CTL.STORE : Fld := fld (0x6040) 0 1 .w1s 0
def NVS.CTL.FULL : Fld := fld (0x6040) 1 1 .rw 0
def NVS.CTL.BOTH : Fld := fld (0x6040) 2 1 .rw 0
def NVS.CTL.SCAN_NOW : Fld := fld (0x6040) 3 1 .w1s 0
def NVS.SEQ_NEXT_LO.SEQ : Fld := fld (0x6044) 0 32 .ro 0
def NVS.SEQ_NEXT_HI.SEQ : Fld := fld (0x6048) 0 16 .ro 0
def NVS.LAST_STORE.NPAGES : Fld := fld (0x604c) 0 12 .ro 0
def NVS.LAST_STORE.KIND : Fld := fld (0x604c) 12 2 .ro 0
def NVS.LAST_STORE.US : Fld := fld (0x604c) 16 16 .ro 0
def NVS.DIRTY.N : Fld := fld (0x6050) 0 11 .ro 0
def NVS.SCAN_CFG.MAX_HOURS : Fld := fldC (0x6054) 0 16 .rw 168 1 8760
def NVS.SCAN_CFG.HOURS : Fld := fld (0x6054) 16 16 .ro 168
def NVS.SCAN_POS.PAGE : Fld := fld (0x6058) 0 11 .ro 0
def NVS.SCAN_POS.COPY : Fld := fld (0x6058) 16 1 .ro 0
def NVS.WEAR_MAX.WCNT : Fld := fld (0x605c) 0 32 .ro 0
def NVS.WEAR_PAGE.PAGE : Fld := fld (0x6060) 0 11 .ro 0
def NVS.WEAR_PAGE.COPY : Fld := fld (0x6060) 16 1 .ro 0
def NVS.WEAR_WARN_AT.WCNT : Fld := fld (0x6064) 0 32 .rw 90000000
def NVS.TIE_PAGE.PAGE : Fld := fld (0x6068) 0 11 .ro 0
def NVS.LOST_PAGE.PAGE : Fld := fld (0x606c) 0 11 .ro 0
def NVS.STORE_CNT.CNT : Fld := fld (0x6080) 0 32 .ro 0
def NVS.WINDUP_CNT.CNT : Fld := fld (0x6084) 0 32 .ro 0
def NVS.REFRESH_CNT.CNT : Fld := fld (0x6088) 0 32 .ro 0
def NVS.COMPLETE_CNT.CNT : Fld := fld (0x608c) 0 32 .ro 0
def NVS.ROLLBACK_CNT.CNT : Fld := fld (0x6090) 0 32 .ro 0
def NVS.SEQ_TIE_CNT.CNT : Fld := fld (0x6094) 0 32 .ro 0
def NVS.PAGE_LOST_CNT.CNT : Fld := fld (0x6098) 0 32 .ro 0
def NVS.WEAK_CNT.CNT : Fld := fld (0x609c) 0 32 .ro 0
def NVS.WR_WAIT_CNT.CNT : Fld := fld (0x60a0) 0 32 .ro 0
def NVS.fields1 : List Fld := [
  NVS.STATUS.BUSY, NVS.STATUS.PENDING, NVS.STATUS.KIND, NVS.STATUS.FROZEN,
  NVS.STATUS.LOST, NVS.STATUS.WEAR_WARN, NVS.STATUS.SCAN, NVS.STATUS.START_RESULT,
  NVS.CTL.STORE, NVS.CTL.FULL, NVS.CTL.BOTH, NVS.CTL.SCAN_NOW,
  NVS.SEQ_NEXT_LO.SEQ, NVS.SEQ_NEXT_HI.SEQ, NVS.LAST_STORE.NPAGES, NVS.LAST_STORE.KIND,
  NVS.LAST_STORE.US, NVS.DIRTY.N, NVS.SCAN_CFG.MAX_HOURS, NVS.SCAN_CFG.HOURS,
  NVS.SCAN_POS.PAGE, NVS.SCAN_POS.COPY, NVS.WEAR_MAX.WCNT, NVS.WEAR_PAGE.PAGE,
  NVS.WEAR_PAGE.COPY, NVS.WEAR_WARN_AT.WCNT, NVS.TIE_PAGE.PAGE, NVS.LOST_PAGE.PAGE,
  NVS.STORE_CNT.CNT, NVS.WINDUP_CNT.CNT, NVS.REFRESH_CNT.CNT, NVS.COMPLETE_CNT.CNT,
  NVS.ROLLBACK_CNT.CNT, NVS.SEQ_TIE_CNT.CNT, NVS.PAGE_LOST_CNT.CNT, NVS.WEAK_CNT.CNT,
  NVS.WR_WAIT_CNT.CNT]
/-- The fields of page NVS that its own table gives. -/
def NVS.fields : List Fld := (NVS.fields1)

def NVS.irq.STORE_DONE : Nat := 0
def NVS.irq.SEQ_TIE : Nat := 1
def NVS.irq.PAGE_LOST : Nat := 2
def NVS.irq.WEAK : Nat := 3
def NVS.irq.WEAR_WARN : Nat := 4
def NVS.irq.WR_PROT : Nat := 5
def NVS.irq.WA_UE : Nat := 6

/-! Page PROF: the register table of R376 of spec/16_store_and_profiles.md; one page. -/

def PROF.STATUS.STATE : Fld := fld (0x700c) 0 2 .ro 0
def PROF.STATUS.LOADED : Fld := fld (0x700c) 4 3 .ro 0
def PROF.STATUS.LOADED_VALID : Fld := fld (0x700c) 7 1 .ro 0
def PROF.STATUS.PINS : Fld := fld (0x700c) 8 3 .ro 0
def PROF.STATUS.SKIPPED : Fld := fld (0x700c) 11 1 .ro 0
def PROF.STATUS.ERR : Fld := fld (0x700c) 12 4 .ro 0
def PROF.CTL.SEL : Fld := fld (0x7040) 0 3 .rw 0
def PROF.CTL.USE_PINS : Fld := fld (0x7040) 4 1 .rw 0
def PROF.CTL.ARM : Fld := fld (0x7040) 5 1 .rw 0
def PROF.CTL.LOAD : Fld := fld (0x7040) 8 1 .w1s 0
def PROF.LEAD.LINES : Fld := fld (0x7044) 0 16 .rw 64
def PROF.ERR_DETAIL.INDEX : Fld := fld (0x7048) 0 16 .ro 0
def PROF.LOADED_CRC.CRC : Fld := fld (0x704c) 0 32 .ro 0
def PROF.BOOT.SRC : Fld := fld (0x7050) 0 2 .ro 0
def PROF.BOOT.VAL : Fld := fld (0x7050) 4 3 .ro 0
def PROF.FL_SRC_LO.ADDR : Fld := fld (0x7060) 0 32 .rw 0
def PROF.FL_SRC_HI.ADDR : Fld := fld (0x7064) 0 8 .rw 0
def PROF.FL_DST.OFS : Fld := fld (0x7068) 0 32 .rw 0
def PROF.FL_LEN.BYTES : Fld := fld (0x706c) 0 32 .rw 0
def PROF.FL_CTL.PROG : Fld := fld (0x7070) 0 1 .w1s 0
def PROF.FL_CTL.ERASE : Fld := fld (0x7070) 1 1 .w1s 0
def PROF.FL_CTL.READ : Fld := fld (0x7070) 2 1 .w1s 0
def PROF.FL_STAT.BUSY : Fld := fld (0x7074) 0 1 .ro 0
def PROF.FL_STAT.DONE : Fld := fld (0x7074) 1 1 .w1c 0
def PROF.FL_STAT.ERR : Fld := fld (0x7074) 2 1 .w1c 0
def PROF.FL_STAT.CAUSE : Fld := fld (0x7074) 4 4 .ro 0
def PROF.fields1 : List Fld := [
  PROF.STATUS.STATE, PROF.STATUS.LOADED, PROF.STATUS.LOADED_VALID, PROF.STATUS.PINS,
  PROF.STATUS.SKIPPED, PROF.STATUS.ERR, PROF.CTL.SEL, PROF.CTL.USE_PINS,
  PROF.CTL.ARM, PROF.CTL.LOAD, PROF.LEAD.LINES, PROF.ERR_DETAIL.INDEX,
  PROF.LOADED_CRC.CRC, PROF.BOOT.SRC, PROF.BOOT.VAL, PROF.FL_SRC_LO.ADDR,
  PROF.FL_SRC_HI.ADDR, PROF.FL_DST.OFS, PROF.FL_LEN.BYTES, PROF.FL_CTL.PROG,
  PROF.FL_CTL.ERASE, PROF.FL_CTL.READ, PROF.FL_STAT.BUSY, PROF.FL_STAT.DONE,
  PROF.FL_STAT.ERR, PROF.FL_STAT.CAUSE]
/-- The fields of page PROF that its own table gives. -/
def PROF.fields : List Fld := (PROF.fields1)

def PROF.irq.LOAD_DONE : Nat := 0
def PROF.irq.LOAD_FAIL : Nat := 1
def PROF.irq.FL_DONE : Nat := 2
def PROF.irq.FL_ERR : Nat := 3

/-! Page PADC: the register table of R391 of spec/17_precision_converters.md; unit n. -/

def PADC.STATUS.RUNNING (n : Nat) : Fld := fld (0xc000c + 0x1000 * n) 0 1 .ro 0
def PADC.STATUS.SUSPENDED (n : Nat) : Fld := fld (0xc000c + 0x1000 * n) 1 1 .ro 0
def PADC.STATUS.SUSPECT (n : Nat) : Fld := fld (0xc000c + 0x1000 * n) 2 1 .ro 0
def PADC.SEQ_CTL.RUN (n : Nat) : Fld := fld (0xc0040 + 0x1000 * n) 0 1 .rw 1
def PADC.SEQ_CTL.LEN (n : Nat) : Fld := fldC (0xc0040 + 0x1000 * n) 4 5 .rws 0 0 16
def PADC.PASS.VAL (n : Nat) : Fld := fld (0xc0044 + 0x1000 * n) 0 32 .ro 0
def PADC.CUR.ENTRY (n : Nat) : Fld := fld (0xc0048 + 0x1000 * n) 0 4 .ro 0
def PADC.CUR.INJ (n : Nat) : Fld := fld (0xc0048 + 0x1000 * n) 4 1 .ro 0
def PADC.CUR.CAL (n : Nat) : Fld := fld (0xc0048 + 0x1000 * n) 5 1 .ro 0
def PADC.REF_CORR.RC (n : Nat) : Fld := fld (0xc004c + 0x1000 * n) 0 32 .ro 16777216
def PADC.INJ_CFG0.CFG (n : Nat) : Fld := fld (0xc0050 + 0x1000 * n) 0 32 .rw 210526848
def PADC.INJ_CFG1.CFG (n : Nat) : Fld := fld (0xc0054 + 0x1000 * n) 0 32 .rw 770
def PADC.INJ_CTL.GO (n : Nat) : Fld := fld (0xc0058 + 0x1000 * n) 0 1 .w1s 0
def PADC.INJ_CTL.SRC (n : Nat) : Fld := fld (0xc0058 + 0x1000 * n) 1 2 .rw 0
def PADC.INJ_CTL.IO (n : Nat) : Fld := fld (0xc0058 + 0x1000 * n) 4 3 .rw 0
def PADC.INJ_CTL.EDGE (n : Nat) : Fld := fld (0xc0058 + 0x1000 * n) 8 1 .rw 0
def PADC.INJ_CTL.COEF (n : Nat) : Fld := fld (0xc0058 + 0x1000 * n) 12 4 .rw 0
def PADC.INJ_STAT.PENDING (n : Nat) : Fld := fld (0xc005c + 0x1000 * n) 0 1 .ro 0
def PADC.INJ_STAT.DONE (n : Nat) : Fld := fld (0xc005c + 0x1000 * n) 1 1 .w1c 0
def PADC.INJ_STAT.LOST (n : Nat) : Fld := fld (0xc005c + 0x1000 * n) 2 1 .w1c 0
def PADC.INJ_STAT.WAIT_US (n : Nat) : Fld := fld (0xc005c + 0x1000 * n) 16 16 .ro 0
def PADC.INJ_RES.RES (n : Nat) : Fld := fld (0xc0060 + 0x1000 * n) 0 32 .ro 0
def PADC.INJ_RES_STAT.STAT (n : Nat) : Fld := fld (0xc0064 + 0x1000 * n) 0 32 .ro 0
def PADC.INJ_T_REQ.T (n : Nat) : Fld := fld (0xc0068 + 0x1000 * n) 0 32 .ro 0
def PADC.INJ_T_END.T (n : Nat) : Fld := fld (0xc006c + 0x1000 * n) 0 32 .ro 0
def PADC.CAL_CTL.ENTRY (n : Nat) : Fld := fld (0xc0070 + 0x1000 * n) 0 4 .rw 0
def PADC.CAL_CTL.STEP (n : Nat) : Fld := fld (0xc0070 + 0x1000 * n) 4 1 .rw 0
def PADC.CAL_CTL.AVG (n : Nat) : Fld := fldC (0xc0070 + 0x1000 * n) 8 3 .rw 4 0 6
def PADC.CAL_CTL.GO (n : Nat) : Fld := fld (0xc0070 + 0x1000 * n) 12 1 .w1s 0
def PADC.CAL_CTL.ABORT (n : Nat) : Fld := fld (0xc0070 + 0x1000 * n) 13 1 .w1s 0
def PADC.CAL_TARGET.NV (n : Nat) : Fld := fld (0xc0074 + 0x1000 * n) 0 32 .rw 0
def PADC.CAL_STAT.PENDING (n : Nat) : Fld := fld (0xc0078 + 0x1000 * n) 0 1 .ro 0
def PADC.CAL_STAT.BUSY (n : Nat) : Fld := fld (0xc0078 + 0x1000 * n) 1 1 .ro 0
def PADC.CAL_STAT.ZERO_HELD (n : Nat) : Fld := fld (0xc0078 + 0x1000 * n) 2 1 .ro 0
def PADC.CAL_STAT.DONE (n : Nat) : Fld := fld (0xc0078 + 0x1000 * n) 3 1 .w1c 0
def PADC.CAL_STAT.ERR (n : Nat) : Fld := fld (0xc0078 + 0x1000 * n) 4 4 .ro 0
def PADC.CAL_Z.Z (n : Nat) : Fld := fld (0xc007c + 0x1000 * n) 0 24 .ro 0
def PADC.CHK_CFG.SRC (n : Nat) : Fld := fld (0xc0080 + 0x1000 * n) 0 1 .rw 0
def PADC.CHK_CFG.N (n : Nat) : Fld := fld (0xc0080 + 0x1000 * n) 4 4 .rw 3
def PADC.CHK_CFG.AGE (n : Nat) : Fld := fld (0xc0080 + 0x1000 * n) 16 16 .rw 1000
def PADC.CHK_TOL.NV (n : Nat) : Fld := fld (0xc0084 + 0x1000 * n) 0 32 .rw 200000
def PADC.REF_EXP.NV (n : Nat) : Fld := fld (0xc0088 + 0x1000 * n) 0 32 .rw 1200000000
def PADC.REF_TOL.NV (n : Nat) : Fld := fld (0xc008c + 0x1000 * n) 0 32 .rw 2000000
def PADC.CHK_STAT.FAIL (n : Nat) : Fld := fld (0xc0090 + 0x1000 * n) 0 1 .w1c 0
def PADC.CHK_STAT.A_SUSPECT (n : Nat) : Fld := fld (0xc0090 + 0x1000 * n) 1 1 .ro 0
def PADC.CHK_STAT.B_SUSPECT (n : Nat) : Fld := fld (0xc0090 + 0x1000 * n) 2 1 .ro 0
def PADC.CHK_DIFF.NV (n : Nat) : Fld := fld (0xc0094 + 0x1000 * n) 0 32 .ro 0
def PADC.CHK.CAUSE (n : Nat) : Fld := fld (0xc0098 + 0x1000 * n) 0 3 .ro 0
def PADC.CHK.ENTRY (n : Nat) : Fld := fld (0xc0098 + 0x1000 * n) 4 4 .ro 0
def PADC.CONV_CNT.CNT (n : Nat) : Fld := fld (0xc00a0 + 0x1000 * n) 0 32 .ro 0
def PADC.OVR_CNT.CNT (n : Nat) : Fld := fld (0xc00a4 + 0x1000 * n) 0 32 .ro 0
def PADC.INJ_LOST_CNT.CNT (n : Nat) : Fld := fld (0xc00a8 + 0x1000 * n) 0 32 .ro 0
def PADC.CHK_MISS_CNT.CNT (n : Nat) : Fld := fld (0xc00ac + 0x1000 * n) 0 32 .ro 0
def PADC.CFG0.MUXP (n : Nat) (j : Nat) : Fld := fld (0xc0100 + 0x1000 * n + 0x40 * j) 0 5 .rws 0
def PADC.CFG0.MUXN (n : Nat) (j : Nat) : Fld := fld (0xc0100 + 0x1000 * n + 0x40 * j) 5 5 .rws 20
def PADC.CFG0.GAIN (n : Nat) (j : Nat) : Fld := fld (0xc0100 + 0x1000 * n + 0x40 * j) 10 3 .rws 0
def PADC.CFG0.ORDER (n : Nat) (j : Nat) : Fld := fld (0xc0100 + 0x1000 * n + 0x40 * j) 13 3 .rws 3
def PADC.CFG0.DEC (n : Nat) (j : Nat) : Fld := fld (0xc0100 + 0x1000 * n + 0x40 * j) 16 3 .rws 4
def PADC.CFG0.NOTCH (n : Nat) (j : Nat) : Fld := fld (0xc0100 + 0x1000 * n + 0x40 * j) 19 2 .rws 1
def PADC.CFG0.TSAMP (n : Nat) (j : Nat) : Fld := fld (0xc0100 + 0x1000 * n + 0x40 * j) 21 11 .rws 100
def PADC.CFG1.EN (n : Nat) (j : Nat) : Fld := fld (0xc0104 + 0x1000 * n + 0x40 * j) 0 1 .rws 0
def PADC.CFG1.KIND (n : Nat) (j : Nat) : Fld := fld (0xc0104 + 0x1000 * n + 0x40 * j) 1 3 .rws 1
def PADC.CFG1.SKIP (n : Nat) (j : Nat) : Fld := fld (0xc0104 + 0x1000 * n + 0x40 * j) 4 3 .rws 0
def PADC.CFG1.INT_TEMP (n : Nat) (j : Nat) : Fld := fld (0xc0104 + 0x1000 * n + 0x40 * j) 7 1 .rws 0
def PADC.CFG1.TC_TYPE (n : Nat) (j : Nat) : Fld := fld (0xc0104 + 0x1000 * n + 0x40 * j) 8 3 .rws 3
def PADC.CFG1.CJ_ENTRY (n : Nat) (j : Nat) : Fld := fld (0xc0104 + 0x1000 * n + 0x40 * j) 12 4 .rws 0
def PADC.CFG1.CJ_CONV (n : Nat) (j : Nat) : Fld := fld (0xc0104 + 0x1000 * n + 0x40 * j) 16 1 .rws 0
def PADC.CFG1.EXC (n : Nat) (j : Nat) : Fld := fld (0xc0104 + 0x1000 * n + 0x40 * j) 17 3 .rws 0
def PADC.CFG1.EXC_PIN (n : Nat) (j : Nat) : Fld := fld (0xc0104 + 0x1000 * n + 0x40 * j) 20 5 .rws 0
def PADC.SLOPE.VAL (n : Nat) (j : Nat) : Fld := fld (0xc0108 + 0x1000 * n + 0x40 * j) 0 32 .rws 0
def PADC.LOFS.VAL (n : Nat) (j : Nat) : Fld := fld (0xc010c + 0x1000 * n + 0x40 * j) 0 32 .rws 0
def PADC.OFS.VAL (n : Nat) (j : Nat) : Fld := fld (0xc0110 + 0x1000 * n + 0x40 * j) 0 24 .rw 0
def PADC.GAINC.VAL (n : Nat) (j : Nat) : Fld := fld (0xc0114 + 0x1000 * n + 0x40 * j) 0 32 .rw 16777216
def PADC.RES.VAL (n : Nat) (j : Nat) : Fld := fld (0xc0118 + 0x1000 * n + 0x40 * j) 0 32 .ro 0
def PADC.RES_STAT.VALID (n : Nat) (j : Nat) : Fld := fld (0xc011c + 0x1000 * n + 0x40 * j) 0 1 .ro 0
def PADC.RES_STAT.OVR (n : Nat) (j : Nat) : Fld := fld (0xc011c + 0x1000 * n + 0x40 * j) 1 1 .ro 0
def PADC.RES_STAT.SUSPECT (n : Nat) (j : Nat) : Fld := fld (0xc011c + 0x1000 * n + 0x40 * j) 2 1 .ro 0
def PADC.RES_STAT.CJ_STALE (n : Nat) (j : Nat) : Fld := fld (0xc011c + 0x1000 * n + 0x40 * j) 3 1 .ro 0
def PADC.RES_STAT.EXC_CHG (n : Nat) (j : Nat) : Fld := fld (0xc011c + 0x1000 * n + 0x40 * j) 4 1 .ro 0
def PADC.RES_STAT.RANGE (n : Nat) (j : Nat) : Fld := fld (0xc011c + 0x1000 * n + 0x40 * j) 5 1 .ro 0
def PADC.RES_STAT.PASS (n : Nat) (j : Nat) : Fld := fld (0xc011c + 0x1000 * n + 0x40 * j) 16 16 .ro 0
def PADC.RES_T.T (n : Nat) (j : Nat) : Fld := fld (0xc0120 + 0x1000 * n + 0x40 * j) 0 32 .ro 0
def PADC.fields1 (n : Nat) : List Fld := [
  PADC.STATUS.RUNNING n, PADC.STATUS.SUSPENDED n, PADC.STATUS.SUSPECT n, PADC.SEQ_CTL.RUN n,
  PADC.SEQ_CTL.LEN n, PADC.PASS.VAL n, PADC.CUR.ENTRY n, PADC.CUR.INJ n,
  PADC.CUR.CAL n, PADC.REF_CORR.RC n, PADC.INJ_CFG0.CFG n, PADC.INJ_CFG1.CFG n,
  PADC.INJ_CTL.GO n, PADC.INJ_CTL.SRC n, PADC.INJ_CTL.IO n, PADC.INJ_CTL.EDGE n,
  PADC.INJ_CTL.COEF n, PADC.INJ_STAT.PENDING n, PADC.INJ_STAT.DONE n, PADC.INJ_STAT.LOST n,
  PADC.INJ_STAT.WAIT_US n, PADC.INJ_RES.RES n, PADC.INJ_RES_STAT.STAT n, PADC.INJ_T_REQ.T n,
  PADC.INJ_T_END.T n, PADC.CAL_CTL.ENTRY n, PADC.CAL_CTL.STEP n, PADC.CAL_CTL.AVG n,
  PADC.CAL_CTL.GO n, PADC.CAL_CTL.ABORT n, PADC.CAL_TARGET.NV n, PADC.CAL_STAT.PENDING n,
  PADC.CAL_STAT.BUSY n, PADC.CAL_STAT.ZERO_HELD n, PADC.CAL_STAT.DONE n, PADC.CAL_STAT.ERR n,
  PADC.CAL_Z.Z n, PADC.CHK_CFG.SRC n, PADC.CHK_CFG.N n, PADC.CHK_CFG.AGE n,
  PADC.CHK_TOL.NV n, PADC.REF_EXP.NV n, PADC.REF_TOL.NV n, PADC.CHK_STAT.FAIL n,
  PADC.CHK_STAT.A_SUSPECT n, PADC.CHK_STAT.B_SUSPECT n, PADC.CHK_DIFF.NV n, PADC.CHK.CAUSE n,
  PADC.CHK.ENTRY n, PADC.CONV_CNT.CNT n, PADC.OVR_CNT.CNT n, PADC.INJ_LOST_CNT.CNT n,
  PADC.CHK_MISS_CNT.CNT n]
def PADC.fields2 (n : Nat) (j : Nat) : List Fld := [
  PADC.CFG0.MUXP n j, PADC.CFG0.MUXN n j, PADC.CFG0.GAIN n j, PADC.CFG0.ORDER n j,
  PADC.CFG0.DEC n j, PADC.CFG0.NOTCH n j, PADC.CFG0.TSAMP n j, PADC.CFG1.EN n j,
  PADC.CFG1.KIND n j, PADC.CFG1.SKIP n j, PADC.CFG1.INT_TEMP n j, PADC.CFG1.TC_TYPE n j,
  PADC.CFG1.CJ_ENTRY n j, PADC.CFG1.CJ_CONV n j, PADC.CFG1.EXC n j, PADC.CFG1.EXC_PIN n j,
  PADC.SLOPE.VAL n j, PADC.LOFS.VAL n j, PADC.OFS.VAL n j, PADC.GAINC.VAL n j,
  PADC.RES.VAL n j, PADC.RES_STAT.VALID n j, PADC.RES_STAT.OVR n j, PADC.RES_STAT.SUSPECT n j,
  PADC.RES_STAT.CJ_STALE n j, PADC.RES_STAT.EXC_CHG n j, PADC.RES_STAT.RANGE n j, PADC.RES_STAT.PASS n j,
  PADC.RES_T.T n j]
/-- The fields of page PADC n that its own table gives. -/
def PADC.fields (n : Nat) : List Fld := (PADC.fields1 n)
  ++ ((List.range 16).flatMap fun j => PADC.fields2 n j)

def PADC.irq.PASS : Nat := 0
def PADC.irq.INJ_DONE : Nat := 1
def PADC.irq.CAL_DONE : Nat := 2
def PADC.irq.CAL_ERR : Nat := 3
def PADC.irq.CHK_FAIL : Nat := 4
def PADC.irq.OVR : Nat := 5

/-! Page THM: the register table of R408 of spec/18_temperature_and_ageing.md; one page. -/

def THM.STATUS.DIE : Fld := fld (0x400c) 0 3 .ro 0
def THM.STATUS.BRD : Fld := fld (0x400c) 4 3 .ro 0
def THM.STATUS.STEP : Fld := fld (0x400c) 8 2 .ro 0
def THM.STATUS.SENSE_FAIL : Fld := fld (0x400c) 10 1 .ro 0
def THM.THR_CFG.STEP_MS : Fld := fldC (0x4040) 0 16 .rw 2000 100 60000
def THM.THR_CFG.DECIM : Fld := fld (0x4040) 16 4 .rw 4
def THM.XCHK.XTOL : Fld := fld (0x4044) 0 16 .rw 80
def THM.XCHK.XDWELL : Fld := fld (0x4044) 16 8 .rw 16
def THM.GOV_DIE.T : Fld := fld (0x4048) 0 32 .ro 0
def THM.GOV_BRD.T : Fld := fld (0x404c) 0 32 .ro 0
def THM.RATE_DIE.R : Fld := fld (0x4050) 0 32 .ro 0
def THM.RATE_BRD.R : Fld := fld (0x4054) 0 32 .ro 0
def THM.SITE_BAD.MASK : Fld := fld (0x4058) 0 20 .ro 0
def THM.VALID.DIE : Fld := fld (0x405c) 0 5 .ro 16
def THM.VALID.BRD : Fld := fld (0x405c) 8 3 .ro 4
def THM.REF_TRIM.TRIM : Fld := fld (0x4060) 0 32 .ro 0
def THM.WARN_CNT.CNT : Fld := fld (0x4064) 0 32 .ro 0
def THM.THR_CNT.CNT : Fld := fld (0x4068) 0 32 .ro 0
def THM.SD_CNT.CNT : Fld := fld (0x406c) 0 32 .ro 0
def THM.SITE_BAD_CNT.CNT : Fld := fld (0x4070) 0 32 .ro 0
def THM.HW_TRIP_CNT.CNT : Fld := fld (0x4074) 0 32 .ro 0
def THM.LEVEL_CFG.LEVEL (j : Nat) (k : Nat) : Fld := fld (0x4080 + 0x20 * j + 8 * k) 0 16 .rw ((if j = 0 then [1600, 1760, 2000] else [1280, 1440, 1600]).getD k 0)
def THM.LEVEL_CFG.HYST (j : Nat) (k : Nat) : Fld := fld (0x4080 + 0x20 * j + 8 * k) 16 8 .rw 32
def THM.LEVEL_CFG.DWELL (j : Nat) (k : Nat) : Fld := fld (0x4080 + 0x20 * j + 8 * k) 24 8 .rw 8
def THM.RATE_CFG.MODE (j : Nat) (k : Nat) : Fld := fld (0x4084 + 0x20 * j + 8 * k) 0 2 .rw 0
def THM.RATE_CFG.RISE_LIM (j : Nat) (k : Nat) : Fld := fld (0x4084 + 0x20 * j + 8 * k) 8 8 .rw 50
def THM.RISE_WIN.S (j : Nat) : Fld := fldC (0x4098 + 0x20 * j) 0 16 .rw 10 1 600
def THM.TEMP.T (k : Nat) : Fld := fld (0x4100 + 4 * k) 0 32 .ro 0
def THM.EFF.T (k : Nat) : Fld := fld (0x4180 + 4 * k) 0 32 .ro 0
def THM.MODEL.NBR0 (k : Nat) : Fld := fld (0x4200 + 16 * k) 0 8 .ro (Config.siteNbr k 0).toNat
def THM.MODEL.NBR1 (k : Nat) : Fld := fld (0x4200 + 16 * k) 8 8 .ro (Config.siteNbr k 1).toNat
def THM.MODEL.NBR2 (k : Nat) : Fld := fld (0x4200 + 16 * k) 16 8 .ro (Config.siteNbr k 2).toNat
def THM.MODEL.GRAD0 (k : Nat) : Fld := fld (0x4204 + 16 * k) 0 32 .ro (Config.siteGrad k 0).toNat
def THM.MODEL.GRAD1 (k : Nat) : Fld := fld (0x4208 + 16 * k) 0 32 .ro (Config.siteGrad k 1).toNat
def THM.MODEL.GRAD2 (k : Nat) : Fld := fld (0x420c + 16 * k) 0 32 .ro (Config.siteGrad k 2).toNat
def THM.fields1 : List Fld := [
  THM.STATUS.DIE, THM.STATUS.BRD, THM.STATUS.STEP, THM.STATUS.SENSE_FAIL,
  THM.THR_CFG.STEP_MS, THM.THR_CFG.DECIM, THM.XCHK.XTOL, THM.XCHK.XDWELL,
  THM.GOV_DIE.T, THM.GOV_BRD.T, THM.RATE_DIE.R, THM.RATE_BRD.R,
  THM.SITE_BAD.MASK, THM.VALID.DIE, THM.VALID.BRD, THM.REF_TRIM.TRIM,
  THM.WARN_CNT.CNT, THM.THR_CNT.CNT, THM.SD_CNT.CNT, THM.SITE_BAD_CNT.CNT,
  THM.HW_TRIP_CNT.CNT]
def THM.fields2 (j : Nat) (k : Nat) : List Fld := [
  THM.LEVEL_CFG.LEVEL j k, THM.LEVEL_CFG.HYST j k, THM.LEVEL_CFG.DWELL j k, THM.RATE_CFG.MODE j k,
  THM.RATE_CFG.RISE_LIM j k]
def THM.fields3 (j : Nat) : List Fld := [
  THM.RISE_WIN.S j]
def THM.fields4 (k : Nat) : List Fld := [
  THM.TEMP.T k, THM.EFF.T k]
def THM.fields5 (k : Nat) : List Fld := [
  THM.MODEL.NBR0 k, THM.MODEL.NBR1 k, THM.MODEL.NBR2 k, THM.MODEL.GRAD0 k,
  THM.MODEL.GRAD1 k, THM.MODEL.GRAD2 k]
/-- The fields of page THM that its own table gives. -/
def THM.fields : List Fld := (THM.fields1)
  ++ ((List.range 2).flatMap fun j => (List.range 3).flatMap fun k => THM.fields2 j k)
  ++ ((List.range 2).flatMap fun j => THM.fields3 j)
  ++ ((List.range 20).flatMap fun k => THM.fields4 k)
  ++ ((List.range 20).flatMap fun k => THM.fields5 k)

def THM.irq.WARN : Nat := 0
def THM.irq.THROTTLE : Nat := 1
def THM.irq.SHUTDOWN : Nat := 2
def THM.irq.SITE_BAD : Nat := 3
def THM.irq.SENSE_FAIL : Nat := 4
def THM.irq.RISE : Nat := 5

/-! Page AGE: the register table of R409 of spec/18_temperature_and_ageing.md; one page. -/

def AGE.STATUS.PLANNING : Fld := fld (0x500c) 0 1 .ro 0
def AGE.STATUS.REPAIR_FULL : Fld := fld (0x500c) 1 1 .ro 0
def AGE.STATUS.LANE_WARN_ANY : Fld := fld (0x500c) 2 1 .ro 0
def AGE.CTL.PLAN_SH : Fld := fld (0x5040) 0 1 .rw 0
def AGE.CTL.PLAN_VALVE : Fld := fld (0x5040) 1 1 .rw 0
def AGE.CTL.PLAN_NOW : Fld := fld (0x5040) 2 1 .w1s 0
def AGE.POH.HOURS : Fld := fld (0x5044) 0 32 .ro 0
def AGE.NEXT_PLAN.HOURS : Fld := fld (0x5048) 0 32 .ro 0
def AGE.VGB.MV : Fld := fld (0x504c) 0 6 .ro 0
def AGE.VGB.VGB_K : Fld := fld (0x504c) 8 8 .rw 5
def AGE.SH_CEIL.T0 : Fld := fld (0x5050) 0 16 .rw 1800
def AGE.SH_CEIL.T1 : Fld := fld (0x5050) 16 16 .rw 1800
def AGE.DIP_MARGIN.T : Fld := fld (0x5054) 0 16 .rw 1000
def AGE.REPAIR.LISTED : Fld := fld (0x5058) 0 11 .ro 0
def AGE.REPAIR.REPAIRED : Fld := fld (0x5058) 16 11 .ro 0
def AGE.LAST_PLAN.CHANGED : Fld := fld (0x505c) 0 16 .ro 0
def AGE.LANE_WARN_LO.MASK : Fld := fld (0x5060) 0 32 .ro 0
def AGE.LANE_WARN_HI.MASK : Fld := fld (0x5064) 0 32 .ro 0
def AGE.fields1 : List Fld := [
  AGE.STATUS.PLANNING, AGE.STATUS.REPAIR_FULL, AGE.STATUS.LANE_WARN_ANY, AGE.CTL.PLAN_SH,
  AGE.CTL.PLAN_VALVE, AGE.CTL.PLAN_NOW, AGE.POH.HOURS, AGE.NEXT_PLAN.HOURS,
  AGE.VGB.MV, AGE.VGB.VGB_K, AGE.SH_CEIL.T0, AGE.SH_CEIL.T1,
  AGE.DIP_MARGIN.T, AGE.REPAIR.LISTED, AGE.REPAIR.REPAIRED, AGE.LAST_PLAN.CHANGED,
  AGE.LANE_WARN_LO.MASK, AGE.LANE_WARN_HI.MASK]
/-- The fields of page AGE that its own table gives. -/
def AGE.fields : List Fld := (AGE.fields1)

def AGE.irq.PLAN_DONE : Nat := 0
def AGE.irq.ROW_REPAIRED : Nat := 1
def AGE.irq.REPAIR_FULL : Nat := 2
def AGE.irq.LANE_WARN : Nat := 3

/-! Page PWR: the register table of R432 of spec/19_power_clocks_reset.md; one page. -/

def PWR.STATUS.MAINS_OK : Fld := fld (0x200c) 0 1 .ro 0
def PWR.STATUS.RIDE : Fld := fld (0x200c) 1 1 .ro 0
def PWR.STATUS.SHED : Fld := fld (0x200c) 2 1 .ro 0
def PWR.STATUS.BULK_LOW : Fld := fld (0x200c) 3 1 .ro 0
def PWR.STATUS.LP : Fld := fld (0x200c) 4 2 .ro 0
def PWR.STATUS.LP_REFUSED : Fld := fld (0x200c) 6 1 .w1c 0
def PWR.CTL.LP : Fld := fld (0x2040) 0 2 .rw 0
def PWR.MAINS.RMS : Fld := fld (0x2044) 0 12 .ro 0
def PWR.MAINS_PERIOD.NS : Fld := fld (0x2048) 0 32 .ro 0
def PWR.ZC_T_LO.T : Fld := fld (0x204c) 0 32 .ro 0
def PWR.ZC_T_HI.T : Fld := fld (0x2050) 0 32 .ro 0
def PWR.BULK.V : Fld := fld (0x2054) 0 12 .ro 0
def PWR.P_IN.MW : Fld := fld (0x2058) 0 19 .ro 0
def PWR.P_LOGIC.MW : Fld := fld (0x205c) 0 19 .ro 0
def PWR.P_ACT.MW : Fld := fld (0x2060) 0 19 .ro 0
def PWR.V12.MV : Fld := fld (0x2064) 0 16 .ro 0
def PWR.VAUX.MV : Fld := fld (0x2068) 0 16 .ro 0
def PWR.VCORE.MV : Fld := fld (0x206c) 0 16 .ro 0
def PWR.VSRD.MV : Fld := fld (0x2070) 0 16 .ro 0
def PWR.VHBM.MV : Fld := fld (0x2074) 0 16 .ro 0
def PWR.VANA.MV : Fld := fld (0x2078) 0 16 .ro 0
def PWR.CORE.GB : Fld := fld (0x207c) 0 6 .ro 0
def PWR.CORE.SET : Fld := fld (0x207c) 16 10 .ro 750
def PWR.WAKE.IO : Fld := fld (0x2080) 0 3 .rw 0
def PWR.WAKE.EDGE : Fld := fld (0x2080) 4 1 .rw 0
def PWR.WAKE.EN : Fld := fld (0x2080) 7 1 .rw 0
def PWR.FAULT_CFG.MIN_SERVICE : Fld := fld (0x2084) 0 2 .rw 2
def PWR.FAULT_CFG.MASK : Fld := fld (0x2084) 8 8 .rw 0
def PWR.FAULT_STAT.CLOSED : Fld := fld (0x2088) 0 1 .ro 0
def PWR.FAULT_STAT.PRESENT : Fld := fld (0x2088) 8 8 .ro 0
def PWR.HEAD.ON_A : Fld := fld (0x208c) 0 1 .ro 0
def PWR.HEAD.ON_B : Fld := fld (0x208c) 1 1 .ro 0
def PWR.HEAD.OC_A : Fld := fld (0x208c) 2 1 .w1c 0
def PWR.HEAD.OC_B : Fld := fld (0x208c) 3 1 .w1c 0
def PWR.LAST_LOSS.MS : Fld := fld (0x2090) 0 16 .ro 0
def PWR.MAINS_LOSS_CNT.CNT : Fld := fld (0x20a0) 0 32 .ro 0
def PWR.RIDE_CNT.CNT : Fld := fld (0x20a4) 0 32 .ro 0
def PWR.SHED_CNT.CNT : Fld := fld (0x20a8) 0 32 .ro 0
def PWR.LP_CNT.CNT : Fld := fld (0x20ac) 0 32 .ro 0
def PWR.fields1 : List Fld := [
  PWR.STATUS.MAINS_OK, PWR.STATUS.RIDE, PWR.STATUS.SHED, PWR.STATUS.BULK_LOW,
  PWR.STATUS.LP, PWR.STATUS.LP_REFUSED, PWR.CTL.LP, PWR.MAINS.RMS,
  PWR.MAINS_PERIOD.NS, PWR.ZC_T_LO.T, PWR.ZC_T_HI.T, PWR.BULK.V,
  PWR.P_IN.MW, PWR.P_LOGIC.MW, PWR.P_ACT.MW, PWR.V12.MV,
  PWR.VAUX.MV, PWR.VCORE.MV, PWR.VSRD.MV, PWR.VHBM.MV,
  PWR.VANA.MV, PWR.CORE.GB, PWR.CORE.SET, PWR.WAKE.IO,
  PWR.WAKE.EDGE, PWR.WAKE.EN, PWR.FAULT_CFG.MIN_SERVICE, PWR.FAULT_CFG.MASK,
  PWR.FAULT_STAT.CLOSED, PWR.FAULT_STAT.PRESENT, PWR.HEAD.ON_A, PWR.HEAD.ON_B,
  PWR.HEAD.OC_A, PWR.HEAD.OC_B, PWR.LAST_LOSS.MS, PWR.MAINS_LOSS_CNT.CNT,
  PWR.RIDE_CNT.CNT, PWR.SHED_CNT.CNT, PWR.LP_CNT.CNT]
/-- The fields of page PWR that its own table gives. -/
def PWR.fields : List Fld := (PWR.fields1)

def PWR.irq.MAINS_LOSS : Nat := 0
def PWR.irq.MAINS_OK : Nat := 1
def PWR.irq.RESTORE : Nat := 2
def PWR.irq.HEAD_OC : Nat := 3
def PWR.irq.RAIL_WARN : Nat := 4
def PWR.irq.LP_DONE : Nat := 5

/-! Page CLK: the register table of R433 of spec/19_power_clocks_reset.md; one page. -/

def CLK.STATUS.REF_OK : Fld := fld (0x100c) 0 1 .ro 0
def CLK.STATUS.ROOT_LOCK : Fld := fld (0x100c) 1 1 .ro 0
def CLK.STATUS.LANE_LOCK : Fld := fld (0x100c) 2 1 .ro 0
def CLK.STATUS.HBM_LOCK : Fld := fld (0x100c) 3 1 .ro 0
def CLK.FREQ_PIX.KHZ : Fld := fld (0x1040) 0 24 .ro 0
def CLK.FREQ_FAB.KHZ : Fld := fld (0x1044) 0 24 .ro 0
def CLK.FREQ_CTL.KHZ : Fld := fld (0x1048) 0 24 .ro 0
def CLK.FREQ_ADC.KHZ : Fld := fld (0x104c) 0 24 .ro 0
def CLK.FREQ_VLV.KHZ : Fld := fld (0x1050) 0 24 .ro 0
def CLK.FREQ_LANE.KHZ : Fld := fld (0x1054) 0 24 .ro 0
def CLK.FREQ_TOL.PPM : Fld := fld (0x1058) 0 16 .rw 100
def CLK.ROOT_UNLOCK_CNT.CNT : Fld := fld (0x1060) 0 32 .ro 0
def CLK.LANE_UNLOCK_CNT.CNT : Fld := fld (0x1064) 0 32 .ro 0
def CLK.HBM_UNLOCK_CNT.CNT : Fld := fld (0x1068) 0 32 .ro 0
def CLK.REF_LOSS_CNT.CNT : Fld := fld (0x106c) 0 32 .ro 0
def CLK.fields1 : List Fld := [
  CLK.STATUS.REF_OK, CLK.STATUS.ROOT_LOCK, CLK.STATUS.LANE_LOCK, CLK.STATUS.HBM_LOCK,
  CLK.FREQ_PIX.KHZ, CLK.FREQ_FAB.KHZ, CLK.FREQ_CTL.KHZ, CLK.FREQ_ADC.KHZ,
  CLK.FREQ_VLV.KHZ, CLK.FREQ_LANE.KHZ, CLK.FREQ_TOL.PPM, CLK.ROOT_UNLOCK_CNT.CNT,
  CLK.LANE_UNLOCK_CNT.CNT, CLK.HBM_UNLOCK_CNT.CNT, CLK.REF_LOSS_CNT.CNT]
/-- The fields of page CLK that its own table gives. -/
def CLK.fields : List Fld := (CLK.fields1)

def CLK.irq.LANE_UNLOCK : Nat := 0
def CLK.irq.HBM_UNLOCK : Nat := 1
def CLK.irq.FREQ_ERR : Nat := 2

/-! Page RST: the register table of R434 of spec/19_power_clocks_reset.md; one page. -/

def RST.STATUS.INSP_BUSY : Fld := fld (0x300c) 0 1 .ro 0
def RST.STATUS.IN_USE : Fld := fld (0x300c) 1 1 .w1c 0
def RST.CTL.SYS : Fld := fld (0x3040) 0 1 .w1s 0
def RST.CTL.INSP : Fld := fld (0x3040) 1 1 .w1s 0
def RST.CTL.KEY : Fld := fld (0x3040) 8 8 .wo 0
def RST.CAUSE.VAL : Fld := fld (0x3044) 0 4 .ro 0
def RST.WDT.MS : Fld := fldC (0x3048) 0 16 .rw 1000 100 10000
def RST.UNIT_PORT.MASK : Fld := fld (0x304c) 0 16 .rw 0
def RST.UNIT_PIPE.MASK : Fld := fld (0x3050) 0 8 .rw 0
def RST.UNIT_HEAD.MASK : Fld := fld (0x3054) 0 2 .rw 0
def RST.UNIT_Z.MASK : Fld := fld (0x3058) 0 32 .rw 0
def RST.POWER_ON_CNT.CNT : Fld := fld (0x3060) 0 32 .ro 0
def RST.SYS_CNT.CNT : Fld := fld (0x3064) 0 32 .ro 0
def RST.WDT_CNT.CNT : Fld := fld (0x3068) 0 32 .ro 0
def RST.LOCKSTEP_CNT.CNT : Fld := fld (0x306c) 0 32 .ro 0
def RST.INSP_CNT.CNT : Fld := fld (0x3070) 0 32 .ro 0
def RST.fields1 : List Fld := [
  RST.STATUS.INSP_BUSY, RST.STATUS.IN_USE, RST.CTL.SYS, RST.CTL.INSP,
  RST.CTL.KEY, RST.CAUSE.VAL, RST.WDT.MS, RST.UNIT_PORT.MASK,
  RST.UNIT_PIPE.MASK, RST.UNIT_HEAD.MASK, RST.UNIT_Z.MASK, RST.POWER_ON_CNT.CNT,
  RST.SYS_CNT.CNT, RST.WDT_CNT.CNT, RST.LOCKSTEP_CNT.CNT, RST.INSP_CNT.CNT]
/-- The fields of page RST that its own table gives. -/
def RST.fields : List Fld := (RST.fields1)

def RST.irq.INSP_DONE : Nat := 0
def RST.irq.IN_USE : Nat := 1

/-! Page SYS: the register table of R445 of spec/20_register_pages.md; one page. -/

def SYS.STATUS.UNMAPPED : Fld := fld (0xc) 0 1 .w1c 0
def SYS.STATUS.STBY_STAGE_LOST : Fld := fld (0xc) 1 1 .w1c 0
def SYS.STATUS.IRQ_ANY : Fld := fld (0xc) 2 1 .ro 0
def SYS.MODEL.VARIANT : Fld := fld (0x40) 0 8 .ro Config.variant.toNat
def SYS.MODEL.HW_REV : Fld := fld (0x40) 8 8 .ro Config.hwRev.toNat
def SYS.SERIAL_LO.SERIAL : Fld := fld (0x44) 0 32 .ro Config.serialLo.toNat
def SYS.SERIAL_HI.SERIAL : Fld := fld (0x48) 0 32 .ro Config.serialHi.toNat
def SYS.FW_ROM.REV : Fld := fld (0x4c) 0 32 .ro Config.fwRom.toNat
def SYS.FW_PATCH.REV : Fld := fld (0x50) 0 32 .ro 0
def SYS.MAP_REV.REV : Fld := fld (0x54) 0 16 .ro 1
def SYS.SCRATCH.DATA : Fld := fld (0x58) 0 32 .rw 0
def SYS.IRQ_PIN.IO : Fld := fld (0x60) 0 3 .rw 0
def SYS.IRQ_PIN.POL : Fld := fld (0x60) 4 1 .rw 0
def SYS.IRQ_PIN.EN : Fld := fld (0x60) 7 1 .rw 0
def SYS.IRQ_SUM.PAGES (k : Nat) : Fld := fld (0x80 + 4 * k) 0 32 .ro 0
def SYS.PAGE_MAP.PAGES (k : Nat) : Fld := fld (0xa0 + 4 * k) 0 32 .ro (pageMapWord k)
def SYS.fields1 : List Fld := [
  SYS.STATUS.UNMAPPED, SYS.STATUS.STBY_STAGE_LOST, SYS.STATUS.IRQ_ANY, SYS.MODEL.VARIANT,
  SYS.MODEL.HW_REV, SYS.SERIAL_LO.SERIAL, SYS.SERIAL_HI.SERIAL, SYS.FW_ROM.REV,
  SYS.FW_PATCH.REV, SYS.MAP_REV.REV, SYS.SCRATCH.DATA, SYS.IRQ_PIN.IO,
  SYS.IRQ_PIN.POL, SYS.IRQ_PIN.EN]
def SYS.fields2 (k : Nat) : List Fld := [
  SYS.IRQ_SUM.PAGES k, SYS.PAGE_MAP.PAGES k]
/-- The fields of page SYS that its own table gives. -/
def SYS.fields : List Fld := (SYS.fields1)
  ++ ((List.range 8).flatMap fun k => SYS.fields2 k)

def SYS.irq.UNMAPPED : Nat := 0
def SYS.irq.STBY_STAGE_LOST : Nat := 1

end Sys2Proof.Machine
end

