-- ==== Sys2Proof/Machine/State.lean ====
section
/-! DEFINITION. The state of the module: everything the spec names, as plain data. The registers stand in one sparse file
(Machine/Regs.lean); the records below hold what the chapters describe beside the registers: lines on their way, tables of
blobs, slots and programs, engines, sessions, message books and the data space. -/

namespace Sys2Proof.Machine


/-! ## Records shared by several chapters -/

/-- One line trigger as the blocks downstream see it (R16, R18): its WLN, the internal position at the count that triggered
it (units of 2^-24 µm), the instant of issue (1/16 ns), the EPOCH_ID under which the line is processed, whether it was
skipped (R19), and the marks DIVERGED (R21) and EPOCH_DOUBT (R26). -/
structure TrigRec where
  wln : Nat
  pos : Int
  time : Nat
  epoch : Nat
  skipped : Bool
  diverged : Bool
  doubt : Bool
  deriving DecidableEq, Repr

/-! ## Web coordinates, timebase and epochs (spec/01_web_coordinates_and_time.md) -/

/-- R11, R13: the timebase and its comparison with the source of Table 1.1. -/
structure Timebase where
  tb : Nat
  acc : Nat
  inBand : Nat
  deriving DecidableEq, Repr

/-- The trigger generator of R18, R19, R464: position, N, H and T, the WLN it issues next, the last WLN issued and when, the held
and the skipped triggers, the lines of late, LINE stamps that wait for their trigger, the position at the last issue, the state
the Puppeteer sent with COMMIT and the module's own at that instant (R21), and what failover keeps (R49 to R51). -/
structure TrigGen where
  pos : Int
  n : Int
  h : Int
  t : Nat
  nextWln : Nat
  maxWln : Option Nat
  last : Option Nat
  held : Option TrigRec
  skipped : List TrigRec
  recent : List TrigRec
  expected : List (Nat × Nat)
  diverged : Bool
  posIssue : Int
  handed : Option GenStart
  handedOwn : Option GenStart
  srcPosAtLast : Int
  chPosAtLast : List Int
  fo : Option (Fin 4)
  foSwitch : Option (Nat × Nat)
  foMark : Bool
  foSrcBase : Int
  foBkBase : Int
  foWlnBase : Nat
  takeMark : Bool
  deriving DecidableEq, Repr

/-- The epoch state machine's own state (Table 1.4); STATE, RESULT and the ids are registers. `checkCause` is the RESULT code of a
failed check, `refused` the slot and cause of a REFUSE that reached slot 0, `geomWait` that the lower neighbour's GEOM is still to
come, `kept` a frozen set whose epoch was missed, `doubt` that the module is out of coherence, `sets` the earlier configuration
sets (EPOCH_ID, registers), newest first. -/
structure Epoch where
  target : Nat
  id : Nat
  applyAt : Option Nat
  ready : List Nat
  checkCause : Option Nat
  refused : Option (Nat × Nat)
  geomWait : Bool
  stbyWait : Bool
  kept : Bool
  doubt : Bool
  next : List (Fld × Nat)
  frozen : Option (List (Fld × Nat))
  sets : List (Nat × RegFile)
  since : Nat
  deriving DecidableEq, Repr

/-- A snapshot request in the queue (R302): a THP read-out (session, SEQ, ranges (ADDR, COUNT), RELEASE), or a request of the
registers that waits for a read-out to end. -/
structure SnapJob where
  sess : Option (Nat × Nat)
  next : Bool
  target : Nat
  ring : Bool
  release : Bool
  ranges : List (Nat × Nat)
  deriving DecidableEq, Repr

/-- R30: the snapshot in progress or held: whether it waits for the line after the next trigger, its target line, the pages
not yet copied, the copied words, and the read-outs (the first runs). -/
structure Snap where
  nextLine : Bool
  target : Nat
  wait : List Nat
  copy : RegFile
  jobs : List SnapJob
  deriving DecidableEq, Repr

/-- R440: who reads. -/
inductive Requester
  | spi
  | session (k : Nat)
  | core
  deriving DecidableEq, Repr

/-- One locked word of one requester (R29, R440), and when it was locked. -/
structure Lock where
  who : Requester
  locker : Nat
  addr : Nat
  value : Nat
  since : Nat
  deriving DecidableEq, Repr

/-- What an interval is measured from: the last datagram of a session's host (R298), the last HELLO or the entry into HELLO
(Table 15.1), the last message of the active (Table 15.4), the entry into FORMING (Table 15.8), a change of the throttle step
(R400), the sending of a completion (R306), the wait of a profile load for a bank (Table 16.8), a hop that came up (Table
15.8) and its first delay measured since, the start of a scan pass (R365), and the last of each thing that is sent or measured at an
interval (R57, R288, R307, Table 15.1). -/
inductive Timer
  | session (j : Nat)
  | solo
  | twin
  | form
  | throttle
  | jobDone (i : Nat)
  | bank
  | hop (out : Bool)
  | hello
  | announce
  | sync
  | delayReq
  | eye (lane : Nat)
  | recover
  | measured (out : Bool)
  | scan
  deriving DecidableEq, Repr

/-! ## Encoder inputs (spec/02_encoder_inputs.md) -/

/-- A scheduled index correction of R39: d, the WLN of line E once known, S, increments left, q and the remainder. -/
structure Slew where
  d : Int
  first : Option Nat
  s : Nat
  left : Nat
  q : Int
  rem : Int
  deriving DecidableEq, Repr

/-- One encoder channel. -/
structure EncCh where
  a : Bool
  b : Bool
  c : Int
  f : Int
  rev : Bool
  pos : Int
  refDue : Bool
  ofs : Int
  lastIndex : Int
  hist : List (Nat × Nat)
  estMag : Nat
  tLast : Nat
  tPrev : Nat
  slew : Option Slew
  nextCorr : Option Int
  ssiPrev : Option Nat
  ssiBad : Nat
  ssiBusy : Bool
  ssiNext : Nat
  qerrTimes : List Nat
  deriving DecidableEq, Repr

/-! ## Camera links (spec/03_camera_links.md) -/

/-- One line of a port from its trigger to its release (R67, R70). `marks` lists (pixels held so far, instant). -/
structure PLine where
  trig : TrigRec
  target : Nat
  sent : Bool
  sendLate : Bool
  fs : Bool
  closed : Option Nat
  flags : Nat
  setId : Nat
  expo : Option Nat
  gain : Option Nat
  headAt : Option Nat
  pix : List Nat
  marks : List (Nat × Nat)
  blocks : Nat
  phase : Option (Nat × Nat)
  deriving DecidableEq, Repr

/-- A settings request in transport (R76, R128). Version 1 keeps the tags of its REG_WR messages and whether each is
answered or has been sent again. -/
structure SetReq where
  id : Nat
  w : Nat
  v : Nat
  entries : List (Nat × Nat)
  sent : Bool
  groups : List (Nat × List (Nat × Nat))
  waiting : List (Nat × Bool)
  deriving DecidableEq, Repr

/-- The context of a pipeline that carries a line (R86). -/
inductive Ctx
  | a | b | m
  deriving DecidableEq, Repr

/-- One camera port. `lastOut`, `lastAt` and `lastVia` are the WLN of the last line that left a pipeline or was passed on, the
instant, and the pipeline and context it left (none for a line that held no slot); `peak` is the peaking each lane last adapted. -/
structure Port where
  lines : List PLine
  cur : Option Nat
  dropToFs : Bool
  excl : List Nat
  fails : List Nat
  hellos : Nat
  chosen : Option (Nat × Nat × Nat)
  accepted : Bool
  readySent : Bool
  readyGot : Bool
  eyeGot : Bool
  ctleDone : Bool
  lastG : Nat
  boundary : Option Nat
  relock : Nat
  set : Option SetReq
  crTag : Option (Nat × Bool)
  tag : Nat
  snoopG : Nat
  lastOut : Option Nat
  lastAt : Nat
  lastVia : Option (Fin 8 × Ctx)
  peak : List Nat
  deriving DecidableEq, Repr

/-! ## Line pipelines (spec/04_line_pipelines.md) -/

/-- The states of Table 4.4. A FREE slot is one that is not listed; a slot of state `wait` is in READY once its head is
ready (R87), which is computed where it is read. -/
inductive SlotState
  | wait | run | done
  deriving DecidableEq, Repr

/-- The class of a line (R99). -/
inductive LineClass
  | process | suspect | void
  deriving DecidableEq, Repr

/-- A line as it leaves a pipeline: the header of Table 4.3 with the position stamp and the trigger marks, and the stage 7
words (none on a VOID line). -/
structure OutLine where
  trig : TrigRec
  port : Nat
  pipe : Nat
  epoch : Nat
  setId : Nat
  portFlags : Nat
  pipeFlags : Nat
  residence : Nat
  y : List Nat
  deriving DecidableEq, Repr

/-- What the correction stages formed from a line: input words, stage 5 values, output words, dynamic replacements, the
settings selected (R129), whether it carries NO_ACK, and bin and period of a valid mains phase (R122). -/
structure Proc where
  x : List Nat
  m : List Int
  y : List Nat
  dyn : Nat
  setId : Nat
  noAck : Bool
  bin : Option (Nat × Nat)
  expo : Option Nat
  gain : Option Nat
  deriving DecidableEq, Repr

/-- One pipeline slot. `item` is 0 before the head, k + 1 once slices below k are granted, and one more once the tail is
granted; `yOk` is how many slices passed stage 2 while the line was PROCESS; `phase` is the mains phase at the trigger (R122). -/
structure Slot where
  port : Nat
  trig : TrigRec
  ctx : Ctx
  state : SlotState
  item : Nat
  landed : Option Nat
  trigsSince : Nat
  fetched : Nat
  poison : List Nat
  cls : LineClass
  pipeFlags : Nat
  yOk : Nat
  portFlags : Nat
  setId : Nat
  tailIn : Bool
  lateSeen : Bool
  residence : Nat
  phase : Option (Nat × Nat)
  proc : Option Proc
  deriving DecidableEq, Repr

/-- One line pipeline. -/
structure Pipe where
  slots : List Slot
  lastIl : Ctx
  grantA : Nat
  grantB : Nat
  resQ : List (Nat × TrigRec)
  trigQ : List TrigRec
  prevTrig : Option Nat
  prevLoad : Nat
  notices : List OutLine
  passed : List OutLine
  deriving DecidableEq, Repr

/-! ## Pixel correction and statistics (spec/05_pixel_correction.md) -/

/-- Sums of one slice of a block (R125). -/
structure SliceSum where
  n : Nat
  s : Nat
  q : Nat
  min : Nat
  max : Nat
  deriving DecidableEq, Repr

/-- The accumulators of a block in progress (R125 to R127). -/
structure BlockAcc where
  num : Nat
  first : Nat
  epoch : Nat
  epochChg : Bool
  pipe : Nat
  short : Bool
  sCount : Nat
  lines : Nat
  used : Nat
  void : Nat
  suspect : Nat
  flagsOr : Nat
  flagged : Nat
  expo : Option Nat
  gain : Option Nat
  gotHead : Bool
  setId : Option Nat
  mixed : Nat
  noAck : Bool
  flkAll : Bool
  clipHi : Nat
  clipLo : Nat
  dpDyn : Nat
  rawSum : Nat
  rawN : Nat
  slices : List SliceSum
  bins : List (Int × Nat)
  muSum : Int
  muN : Nat
  mainsP : Nat
  deriving DecidableEq, Repr

/-- One entry of the known settings table (R128). -/
structure Known where
  id : Nat
  expc : Nat
  w : Nat
  sentAt : Option Nat
  deriving DecidableEq, Repr

/-- Learned flicker gains (R123): the first line after the block they come from, the first line that uses them, and H. -/
structure GainSet where
  next : Nat
  first : Nat
  h : List Nat
  deriving DecidableEq, Repr

/-- The per-port state of the correction stages and of the statistics. -/
structure Corr where
  y : List Int
  yPos : Option Int
  prevWln : Option Nat
  prevVoid : Bool
  prevNrr : Bool
  prevLen : Nat
  block : Option BlockAcc
  closed : List BlockAcc
  flkWait : List BlockAcc
  hSets : List GainSet
  known : List Known
  bankEpoch : Option Nat
  deriving DecidableEq, Repr


/-! ## The reset of each record (log entry 1 names every value that the spec does not state) -/

def TrigGen.reset : TrigGen where
  pos := 0
  n := 0
  h := 0
  t := 0
  nextWln := 0
  maxWln := none
  last := none
  held := none
  skipped := []
  recent := []
  expected := []
  diverged := false
  posIssue := 0
  handed := none
  handedOwn := none
  srcPosAtLast := 0
  chPosAtLast := [0, 0, 0, 0]
  fo := none
  foSwitch := none
  foMark := false
  foSrcBase := 0
  foBkBase := 0
  foWlnBase := 0
  takeMark := false

def Epoch.reset : Epoch := ⟨0, 0, none, [], none, none, false, false, false, false, [], none, [], 0⟩

def EncCh.reset : EncCh where
  a := false
  b := false
  c := 0
  f := 0
  rev := false
  pos := 0
  refDue := true
  ofs := 0
  lastIndex := 0
  hist := []
  estMag := 0
  tLast := 0
  tPrev := 0
  slew := none
  nextCorr := none
  ssiPrev := none
  ssiBad := 0
  ssiBusy := false
  ssiNext := 0
  qerrTimes := []

def Port.reset : Port where
  lines := []
  cur := none
  dropToFs := false
  excl := []
  fails := [0, 0, 0, 0]
  hellos := 0
  chosen := none
  accepted := false
  readySent := false
  readyGot := false
  eyeGot := false
  ctleDone := false
  lastG := 0
  boundary := none
  relock := 0
  set := none
  crTag := none
  tag := 0
  snoopG := 0
  lastOut := none
  lastAt := 0
  lastVia := none
  peak := [8, 8, 8, 8]

def Pipe.reset : Pipe := ⟨[], .b, 0, 0, [], [], none, 0, [], []⟩

def Corr.reset : Corr where
  y := []
  yPos := none
  prevWln := none
  prevVoid := false
  prevNrr := false
  prevLen := 0
  block := none
  closed := []
  flkWait := []
  hSets := []
  known := [⟨0, 0x1000, 0, some 0⟩]
  bankEpoch := none


/-! ## Logs, the working array and its store (spec/12_memory_and_integrity.md, spec/16_store_and_profiles.md) -/

/-- One entry of the error log (Table 12.4). -/
structure ErrEntry where
  idx : Nat
  type : Nat
  mem : Nat
  bit : Option Nat
  syndrome : Nat
  req : Nat
  slice : Option Nat
  port : Option Nat
  thermal : Bool
  slot : Nat
  addr : Nat
  count : Nat
  time : Nat
  wln : Nat
  read : Bool
  deriving DecidableEq, Repr

/-- A store that runs (R354): `queue` holds the pages still to write, `second` a page whose other copy BOTH still asks for,
`held` the writes that wait for their page (R356). `t0` and `wln` are those of OPEN. -/
structure StoreRun where
  kind : Nat
  seq : Nat
  both : Bool
  npages : Nat
  queue : List Nat
  second : Option (Nat × Nat)
  t0 : Nat
  wln : Nat
  held : List (Nat × List Byte)
  deriving DecidableEq, Repr

/-- The store's own state: dirty pages, the pages whose WIN is copy B, the journal slot of the newest entry, the event-log
slot to be written next, the command store that waits (FULL, BOTH), whether Wind-up waits for a running store, and the scan of
R365: the weak words of each copy in this pass, and the passes without any since the last with some. -/
structure Nvs where
  dirty : List Nat
  winB : List Nat
  jNewest : Option Nat
  evNext : Nat
  run : Option StoreRun
  pend : Option (Bool × Bool)
  windup : Bool
  weakA : Nat
  weakB : Nat
  passGood : Nat
  lastWeak : Bool
  deriving DecidableEq, Repr

def Nvs.reset : Nvs := ⟨[], [], none, 0, none, none, false, 0, 0, 0, false⟩

/-- An operation on the fabric: its class, whether it goes to HBM, and when it was issued. -/
structure FabTok where
  cls : Nat
  hbm : Bool
  t : Nat
  deriving DecidableEq, Repr

/-- The fabric and the scrubber: single errors that wait for their write-back, the instants of uncorrectable HBM reads and of
HBM timeouts, the rows with corrected words in this pass (row, whether it has been logged weak, the words), the next SRAM address, the operations in flight in order of issue,
the tokens returning (class, instant), the 32-bit halves held per requester (R277), the cause detected whose entry follows,
whether a recovery runs, the tries AUTO_RECOVER has made, and the words whose read in flight comes back as poison. -/
structure Integ where
  wb : List (Nat × Nat)
  ueTimes : List Nat
  toTimes : List Nat
  rows : List (Nat × Bool × List Nat)
  sramPos : Nat
  ops : List FabTok
  returning : List (Nat × Nat)
  half : List (Requester × Nat × Nat)
  degWait : Option Nat
  recovering : Bool
  autoTries : Nat
  gone : List Nat
  deriving DecidableEq, Repr

def Integ.reset : Integ := ⟨[], [], [], [], 0x01000000, [], [], [], none, false, 0, []⟩


/-! ## Stitching (spec/07_stitching.md) -/

/-- A port segment (R166, R167) or a remote strip (R178): port 0 to 15, 16 the strip from the lower neighbour, 17 from the
upper one; cells (column, value, state of R170) in ascending column order. -/
structure Seg where
  port : Nat
  wln : Nat
  void : Bool
  suspect : Bool
  cols : List (Int × Nat × Nat)
  deriving DecidableEq, Repr

/-- A web line that is triggered and not yet released. -/
structure OpenWeb where
  trig : TrigRec
  forced : Bool
  stripsSent : Bool
  deriving DecidableEq, Repr

/-- A web line from release on: the header of Table 7.2 and its cells (value, state). -/
structure WebLine where
  wln : Nat
  pos : Nat
  epoch : Nat
  flags : Nat
  present : Nat
  suspect : Nat
  remote : Nat
  colFirst : Int
  cells : List (Nat × Nat)
  deriving DecidableEq, Repr

/-- A seam's running comparison (R179): port, the first line of the block, sum and count. -/
structure SeamSum where
  port : Nat
  block : Nat
  sum : Nat
  n : Nat
  deriving DecidableEq, Repr

/-- A port under calibration (R180, R181). -/
structure CalPort where
  port : Nat
  left : Nat
  sums : List Nat
  n : Nat
  prev : Option Nat
  deriving DecidableEq, Repr

/-- The stitch stage. `reconf` lists (port, first WLN, end) of R176; `last` the values last emitted per column. -/
structure Stitch where
  waiting : List OpenWeb
  segs : List Seg
  out : List WebLine
  last : List (Int × Nat)
  reconf : List (Nat × Nat × Nat)
  seams : List SeamSum
  cal : List CalPort
  calMode : Nat
  busyUntil : Nat
  lastRel : Option Nat
  firstWln : Nat
  toSeg : List WebLine
  toArc : List WebLine
  deriving DecidableEq, Repr

def Stitch.reset : Stitch where
  waiting := []
  segs := []
  out := []
  last := []
  reconf := []
  seams := []
  cal := []
  calMode := 0
  busyUntil := 0
  lastRel := none
  firstWln := 0
  toSeg := []
  toArc := []


/-! ## Thermal head readout (spec/06_thermal_readout.md) -/

/-- The frame of a head that is being read: what FSYNC fixed for it (R134, R139, R154). -/
structure FrameInfo where
  time : Nat
  epoch : Nat
  num : Nat
  tFpa : Int
  tSh : Int
  dT : Int
  stale : Bool
  shutter : Bool
  capture : Bool
  check : Bool
  oldOfs : Bool
  deriving DecidableEq, Repr

/-- One final map row: cells (h, background, V). -/
structure MapRow where
  k : Int
  cells : List (Nat × Nat × Bool)
  deriving DecidableEq, Repr

/-- One thermal head. `set` is the configuration set of the frame in progress; `sums` the capture sums (Σ t, Σ t²) per pixel;
`old` the offsets, T_S and T_SH in use until the shutter has opened; `cells` the map cells not yet final ((row, column), sum,
count). `t0` is when the head entered BIAS, `nextF` when its next frame starts (R133); `posLog` lists the positions of the frame in
progress, newest first, each with the instant it was reached (R134). `mapKey` is what the map was built under (R154): bank, warp CRC
and map fields. `closeAt` is the first instant of the capture, `lostO` says that HBM loss took the offsets, `verify` the banks under
check. -/
structure Head where
  t0 : Nat
  nextF : Nat
  posLog : List (Nat × Nat)
  mapKey : Option (Nat × Nat × List Nat)
  closeAt : Nat
  lostO : Bool
  cur : Option FrameInfo
  set : RegFile
  dTs : List Int
  capTime : Nat
  capCount : Nat
  meanO : Int
  req : Option Nat
  retried : Bool
  again : Bool
  left : Nat
  done : Bool
  sums : List (Int × Nat)
  capN : Nat
  sumT : Int
  sumSh : Int
  old : Option (List Int × Int × Int)
  dyn : List Nat
  uncal : Bool
  quietUntil : Nat
  stuck : Bool
  kLo : Option Int
  cells : List ((Int × Nat) × Nat × Nat)
  finals : List MapRow
  finalK : Option Int
  bg : List (Nat × Nat)
  pendL : Option Int
  buf : List Int
  lastRow : Option Int
  settled : Bool
  biasBad : Nat
  biasQ : List (Nat × Nat)
  verify : List Nat
  deriving DecidableEq, Repr

def Head.reset : Head where
  t0 := 0
  nextF := 0
  posLog := []
  mapKey := none
  closeAt := 0
  lostO := false
  cur := none
  set := []
  dTs := []
  capTime := 0
  capCount := 0
  meanO := 0
  req := none
  retried := false
  again := false
  left := 0
  done := false
  sums := []
  capN := 0
  sumT := 0
  sumSh := 0
  old := none
  dyn := []
  uncal := false
  quietUntil := 0
  stuck := false
  kLo := none
  cells := []
  finals := []
  finalK := none
  bg := []
  pendL := none
  buf := []
  lastRow := none
  settled := false
  biasBad := 0
  biasQ := []
  verify := []


/-! ## Segmentation (spec/08_segmentation.md) -/

/-- A run of a family (R188): its columns, and whether an end meets a blocked column. -/
structure SegRun where
  fam : Nat
  a : Int
  b : Int
  blocked : Bool
  deriving DecidableEq, Repr

/-- The web line in segmentation: the thermal rows handed over (R152), the runs not yet taken, those that joined a blob, and
whether a run was dropped (R188, R200). -/
structure SegLine where
  line : WebLine
  rows : List (Nat × List (Nat × Nat × Bool))
  headRun : Bool
  runs : List SegRun
  taken : List SegRun
  drop : Bool
  deriving DecidableEq, Repr

/-- What the digest of a line is taken over (R331): runs, background, and each close with its class word and intake outcome. -/
structure LineDigest where
  wln : Nat
  runs : List Int
  bg : List Nat
  closes : List (Nat × Option Nat × Option Nat)
  deriving DecidableEq, Repr

/-- The segmentation unit. `since` counts the lines since the restart; `prev` is the line last decided: WLN, EPOCH_ID, closes
so far and its reference event. `restart` is a restart asked for while a line is in progress. `geo` lists the geometry changes (first
line E, whether its closes are done), oldest first (R193). `own` and `upper` list the seam touches (WLN, family, BLOB_ID). -/
structure Segm where
  cur : Option SegLine
  blobs : List Blob
  conts : List Cont
  bg : List SliceBg
  since : Nat
  ord : Nat
  prev : Option (Nat × Nat × Nat × Nat)
  own : List (Nat × Nat × Nat)
  upper : List (Nat × Nat × Nat)
  groups : List Group
  noGroup : List Nat
  ownUpTo : Option Nat
  upperUpTo : Option Nat
  aliases : List (Nat × Nat)
  digests : List LineDigest
  restart : Bool
  geo : List (Nat × Bool)
  deriving DecidableEq, Repr

def Segm.reset : Segm := ⟨none, [], [], [], 0, 0, none, [], [], [], [], none, none, [], [], false, []⟩


/-! ## Classification and tags (spec/09_classification_and_tags.md) -/

/-- A closed blob's vector on its way (R194, R211): what the tag and the seam group need beside the 32 features. `k` counts
the closes of its line, `ref` is the reference event of Table 9.7, `cols` the first column of the geometry it closed under. -/
structure Vec where
  blob : Nat
  k : Nat
  ref : Nat
  feats : List Nat
  first : Nat
  close : Nat
  epoch : Nat
  p0 : Int
  p1 : Int
  xl : Int
  xr : Int
  taken : Bool
  deriving DecidableEq, Repr

/-- A decision of the classifier (R211); `attr` is the attribute word of the class (R209). -/
structure Verdict where
  cls : Nat
  conf : Nat
  rule : Nat
  dflt : Bool
  mark : Bool
  attr : Nat
  deriving DecidableEq, Repr

/-- A record of the tag stream before it is placed: its TYPE, its key (BLOB_ID and CLOSE_WLN), its words with SSEQ zero, a
number of its own and, for a feature record, the number of its tag. -/
structure StreamRec where
  type : Nat
  blob : Nat
  close : Nat
  words : List Nat
  uid : Nat
  tagOf : Option Nat
  deriving DecidableEq, Repr

/-- A request in the hand-off queue (R217). -/
structure HandOff where
  blob : Nat
  close : Nat
  cx : Int
  p0 : Int
  p1 : Int
  prog : Nat
  taken : Bool
  deriving DecidableEq, Repr

/-- A formed tag before its hand-over (R213, R217); `taken`: the module took over after it was formed. -/
structure Formed where
  vec : Vec
  verdict : Verdict
  words : List Nat
  host : Bool
  taken : Bool
  deriving DecidableEq, Repr

/-- The classifier, the hand-off queue and the tag stream: `waiting` in order of entry, `kept` the placed records not yet
acknowledged by SSEQ, `retx` the SSEQs to be sent again, `moved` whether they go first (R308), `acked` the highest SSEQ
acknowledged. -/
structure TagPath where
  vecs : List Vec
  decided : List (Vec × Verdict)
  formed : List Formed
  groups : List (Nat × List Nat)
  handOff : List HandOff
  waiting : List StreamRec
  kept : List (Nat × StreamRec)
  retx : List Nat
  moved : Bool
  acked : Option Nat
  uid : Nat
  bankEpoch : Option Nat
  deriving DecidableEq, Repr

def TagPath.reset : TagPath := ⟨[], [], [], [], [], [], [], [], false, none, 0, none⟩

/-! ## Markers and valves (spec/10_markers_and_valves.md) -/

/-- A running program (R235 to R241). `wait` is (since, class, budget) of an admission wait; `left` the ticks left of the
instruction in progress; `cls` 0 none, 1 hold, 2 peak; `window` the ticks left of the dip window, `armed` a window that waits
for program start. -/
structure Run where
  slot : Option Nat
  bank : Nat
  pc : Nat
  left : Option Nat
  start : Option (Nat × Nat)
  ticks : Nat
  loop : Option Nat
  count : Nat
  cls : Nat
  budget : Nat
  peakSince : Option Nat
  wait : Option (Nat × Nat × Nat)
  admitted : Bool
  armed : Option Nat
  window : Nat
  imax : Nat
  runLen : Nat
  seen : Option Nat
  decided : Option Nat
  spent : Nat
  deriving DecidableEq, Repr

/-- One valve channel. `rest` is when its previous program ended; `req` a launch that waits (entry, since, role) of a Shutter or
Host channel; `acc` the draw in 1/1024 µJ not yet in the ledger, `rem` the reservation left, `ended` the remainder of ended
programs. -/
structure ValveCh where
  run : Option Run
  rest : Option Nat
  req : Option (Nat × Nat × Nat)
  released : Bool
  acc : Nat
  rem : Nat
  ended : Nat
  deriving DecidableEq, Repr

def ValveCh.reset : ValveCh := ⟨none, none, none, false, 0, 0, 0⟩

/-- The marker scheduler: its slots and the number of the next intake. -/
structure MarkSt where
  slots : List MSlot
  seq : Nat
  deriving DecidableEq, Repr

def MarkSt.reset : MarkSt := ⟨[], 0⟩


/-! ## Compression engines (spec/11_compression.md) -/

/-- One web line of a chunk: its prefix fields, archive values and column states (R252). -/
structure ChunkLine where
  wln : Nat
  flags : Nat
  pos : Nat
  epoch : Nat
  vals : List Nat
  states : List Nat
  deriving DecidableEq, Repr

/-- An archive chunk. `key` lists the register values a change of which closes it (R253). `therm` is (head, FRAME_NUM, record) of a thermal chunk. The fields of its configuration set are taken
from its first line. `left` counts raw bytes the engine has not consumed; `dBufs` and `fBufs` the buffers linked by the
DEFLATE and the FRB coding, `dSeen` and `fSeen` the bytes of each already in the book. -/
structure Chunk where
  id : Nat
  key : List Nat
  therm : Option (Nat × Nat × List Byte)
  stripe : Nat
  epoch : Nat
  mode : Nat
  wrap : Nat
  level : Nat
  withStates : Bool
  bits : Nat
  ratio : Nat
  maxLines : Nat
  col0 : Int
  width : Nat
  lines : List ChunkLine
  closed : Bool
  engine : Option Nat
  begun : Bool
  noDefl : Bool
  left : Nat
  dBufs : Nat
  fBufs : Nat
  dSeen : Nat
  fSeen : Nat
  deriving DecidableEq, Repr

/-- A record handed to the archive stream: its bytes, lines, buffers and port. A side-stream record has no CSEQ. -/
structure ArchRec where
  cseq : Option Nat
  bytes : List Byte
  lines : Nat
  bufs : Nat
  port : Option Nat
  deriving DecidableEq, Repr

/-- A job context that is open (R269). -/
structure JobCtx where
  c : Nat
  engine : Nat
  wrap : Nat
  level : Nat
  hist : List Byte
  adlerA : Nat
  adlerB : Nat
  crc : Nat
  len : Nat
  deriving DecidableEq, Repr

/-- A running job: the completion status already settled (0 none), the engine, the fields of its descriptor (Table 11.2) and
its output buffers (address, length). -/
structure Job where
  idx : Nat
  force : Nat
  engine : Nat
  op : Nat
  wrap : Nat
  level : Nat
  flush : Nat
  ctx : Nat
  tag : Nat
  src : Nat
  len : Nat
  chain : List (Nat × Nat)
  limit : Nat
  deriving DecidableEq, Repr

/-- The archive and the jobs. `engT` is when each engine last consumed; `cq` lists (completion index, job index,
acknowledged) of the records not retired. -/
structure Arch where
  chunks : List Chunk
  nextId : Nat
  recs : List ArchRec
  cseq : Nat
  credit : Int
  jobs : List Job
  ctxs : List JobCtx
  engT : List (Nat × Nat)
  cq : List (Nat × Nat × Bool)
  deriving DecidableEq, Repr

def Arch.reset : Arch := ⟨[], 0, [], 0, 0, [], [], [], []⟩


/-! ## Host ports (spec/13_host_protocol.md) -/

/-- A THP session beside its registers (R299): the answers kept of its last requests (SEQ, frames (KIND, body)) newest first,
and the next frame sequence of each stream on each port (Table 13.2). -/
structure Sess where
  kept : List (Nat × List (Nat × List Nat))
  frameSeq : List ((Nat × Nat) × Nat)
  deriving DecidableEq, Repr

/-- One entry of a port's ARP cache: address, MAC, when it was last used. -/
structure ArpEntry where
  port : Nat
  ip : Nat
  mac : Nat
  used : Nat
  deriving DecidableEq, Repr

/-- The IEEE 1588 clock (R307): the transmitter followed and when it was last announced, the Sync that waits for its Follow_Up
(sequence, t2), the pair t1, t2 of the last Sync, the Delay_Req in flight (sequence, t3), the mean path delay in 1/16 ns, and
the sequence numbers of what it sends. -/
structure Ptp where
  master : Option Nat
  announced : Nat
  syncWait : Option (Nat × Nat × Int)
  last : Option (Int × Int)
  req : Option (Nat × Int)
  delay : Option Int
  seqDelay : Nat
  seqAnn : Nat
  seqSync : Nat
  deriving DecidableEq, Repr

/-- The host side: the sessions, the ARP caches, when each port came up, and the clock. -/
structure HostSt where
  sess : Vector Sess 4
  arp : List ArpEntry
  upAt : List (Nat × Nat)
  ptp : Ptp
  deriving DecidableEq, Repr

def HostSt.reset : HostSt := ⟨Vector.replicate 4 ⟨[], []⟩, [], [], ⟨none, 0, none, none, none, none, 0, 0, 0⟩⟩


/-! ## Precision converters (spec/17_precision_converters.md) -/

/-- What a conversion is for. -/
inductive ConvKind
  | seq | inj | cal
  deriving DecidableEq, Repr

/-- The conversion that runs, with the configuration in force at its start (R390) and when it started. `excChg` is set when the
excitation sources changed hands in between. -/
structure Conv where
  kind : ConvKind
  entry : Nat
  cfg0 : Nat
  cfg1 : Nat
  slope : Int
  lofs : Int
  ofs : Int
  gainc : Nat
  pass : Nat
  excChg : Bool
  since : Nat
  deriving DecidableEq, Repr

/-- A calibration step that runs (R385): entry, step, AVG, target, conversions left, the sum of raw codes, and the entry's
configuration at its start. -/
structure CalStep where
  full : Bool
  avg : Nat
  target : Int
  left : Nat
  sum : Int
  conv : Conv
  abort : Bool
  deriving DecidableEq, Repr

/-- One converter: the entry that follows in the sequence, when an injection was requested, a calibration step that waits (full
scale or not) or runs, the latest code-21 and INT_REF results, and the run of comparisons that missed and agreed. -/
structure Padc where
  run : Option Conv
  next : Nat
  injAt : Nat
  calWait : Option Bool
  cal : Option CalStep
  chk : Option (Int × Nat)
  ref : Option Int
  miss : Nat
  agree : Nat
  deriving DecidableEq, Repr

def Padc.reset : Padc := ⟨none, 0, 0, none, none, none, none, 0, 0⟩



/-! ## Temperature, ageing, power and reset (spec/18_temperature_and_ageing.md, spec/19_power_clocks_reset.md) -/

/-- One condition of a threshold (R396): asserted, and the counts of samples on the far side. -/
structure ThrCond where
  on : Bool
  rise : Nat
  fall : Nat
  deriving DecidableEq, Repr

/-- One threshold: its level and its rate condition, and whether it is asserted. -/
structure Thr where
  level : ThrCond
  rate : ThrCond
  on : Bool
  deriving DecidableEq, Repr

def Thr.reset : Thr := ⟨⟨false, 0, 0⟩, ⟨false, 0, 0⟩, false⟩

/-- Temperatures: the thresholds (die 0 to 2, board 3 to 5), each site's consecutive samples beyond XTOL and within XTOL / 2, the
samples taken, one pair of governing values per second (newest first), whether throttle is asserted, and the ring-oscillator
readings of this hour (sum per site, count). -/
structure Temp where
  thr : Vector Thr 6
  beyond : List Nat
  within : List Nat
  samples : Nat
  gov : List (Int × Int)
  throttle : Bool
  ro : List Int
  roN : Nat
  deriving DecidableEq, Repr

def Temp.reset : Temp := ⟨Vector.replicate 6 Thr.reset, [], [], 0, [], false, [], 0⟩

/-- What the module waits for before it goes down: nothing; for the gate, REFUSE or 1 ms (R400, R422); for its Wind-up to
close, and then its rails go (cause for RST.CAUSE); for the stores of SYS to close (R424). -/
inductive GoingDown
  | no
  | yielding (info : Option StartInfo)
  | windup (cause : Nat)
  | sysStores (first : Bool) (info : StartInfo)
  deriving DecidableEq, Repr

/-- A module in a cage (R447): its alarm flags at the last poll, and whether its power class keeps it in low-power mode. -/
structure Cage where
  cage : Fin 21
  alarms : Nat
  lowPower : Bool
  deriving DecidableEq, Repr

/-- Power: `down` is the cause for RST.CAUSE while the rails are off or reset is held, `held` a reset held by REFCLK; `started`
that the start has reached the status service; `booting` that HBM training and the start load are still to come; `lossAt` and `tolAt` the mains-loss event and the return into tolerance;
`restarts` the supervisor's restarts by its own clock in s; `seconds` the seconds of this power-on hour; `wake` a low-power
state being entered or left; `tripped` the head supplies that tripped; `vgb` the guardband planned; `cages` those with a module. -/
structure Power where
  down : Option Nat
  held : Bool
  started : Bool
  booting : Bool
  going : GoingDown
  lossAt : Option Nat
  tolAt : Option Nat
  restarts : List Nat
  seconds : Nat
  tripped : List Nat
  cages : List Cage
  deriving DecidableEq, Repr

def Power.reset : Power := ⟨none, false, false, false, .no, none, none, [], 0, [], []⟩

/-- A profile load that runs (R371): profile, the next reference, whether it is the start load, whether a NUC bank's check is
awaited, the banks filled (kind, unit, bank); and the table-flash operation that runs (1 PROG, 2 ERASE, 3 READ; 0 none) with the
data-space address, flash offset and length it was given. -/
structure Prof where
  k : Nat
  next : Nat
  start : Bool
  verifying : Bool
  filled : List (Nat × Nat × Nat)
  flash : Nat
  flSrc : Nat
  flDst : Nat
  flLen : Nat
  deriving DecidableEq, Repr

def Prof.reset : Prof := ⟨0, 0, false, false, [], 0, 0, 0, 0⟩



/-! ## Twins and the ring (spec/15_twin_and_ring.md) -/

/-- The pair: whether TAKE_IN was asserted when TAKE_OUT rose, the instants at which the two rose, an image requested and not yet
applied, whether one has been applied since SYNCING was entered, an image owed at the end of the line in progress, the stored run
lists, the digests received and not yet compared, the reservations of LAUNCH, the mirror of the active's counters, and what HEART
told: HBM_READY and the throttle step. -/
structure TwinSt where
  first : Bool
  outAt : Nat
  inAt : Nat
  wanted : Bool
  applied : Bool
  owed : Bool
  store : List SegLine
  digests : List (Nat × List Nat)
  launches : List (Nat × Nat)
  mirror : RegFile
  hbm : Bool
  step : Nat
  deriving DecidableEq, Repr

def TwinSt.reset : TwinSt := ⟨false, 0, 0, false, false, false, [], [], [], [], false, 0⟩

/-- A module of the ring as TOPO showed it: hops on each side over which it is heard. -/
structure RingMod where
  pos : Nat
  slot : Nat
  side : Nat
  state : Nat
  inHops : Option Nat
  outHops : Option Nat
  deriving DecidableEq, Repr

/-- String: the modules heard, whether the own TOPO came round, the last MSEQ delivered per SRC, the last PAIR_HB, the messages
that wait for a hop (true: towards higher positions), and the geometry the lower neighbour sent. -/
structure RingSt where
  mods : List RingMod
  closed : Bool
  seen : List (Nat × Nat)
  pairHb : Option Nat
  wait : List StrMsg
  geom : Option GeomMsg
  deriving DecidableEq, Repr

def RingSt.reset : RingSt := ⟨[], false, [], none, [], none⟩


/-! ## The management serial port (spec/14_management_spi.md) -/

/-- The frame in progress: whether it is ignored (mode), its command, its whole slots, whether the command passed its checks, the
last word sent, the data words read and ready (index, value) and whether UNDERRUN was set when it began. -/
structure SpiFrame where
  ignored : Bool
  cmd : Nat
  ok : Bool
  slots : Nat
  last : Nat
  words : List (Nat × Nat)
  under : Bool
  deriving DecidableEq, Repr

/-- A host transfer of the SPI master: select, BITS, data, and whether it still waits for bias transfers (R323). -/
structure MstRun where
  sel : Nat
  bits : Nat
  data : Nat
  waits : Bool
  deriving DecidableEq, Repr

/-- The serial port: its frame, the write queue (address, word), whether an edge strayed in this gap, and the master's host
transfer. -/
structure SpiSt where
  frame : Option SpiFrame
  queue : List (Nat × Nat)
  stray : Bool
  mst : Option MstRun
  deriving DecidableEq, Repr

def SpiSt.reset : SpiSt := ⟨none, [], false, none⟩



/-! ## What the module sends and drives -/

/-- The message kinds of the twin link (Table 15.3) and of String (Table 15.7). -/
inductive MsgKind
  | hello | heart | echo | echoR | stage | stageAck | outcome | digest | creditG | capture | launch | slotEnd | slotAck
  | faultEv | placed | hostAck | counts | imageReq | image | yield | yieldRefuse
  | topo | pairHb | time | line | prepare | ready | refuse | commit | abort | snap | geom | strip | bound | newActive
  | forwarded
  deriving DecidableEq, Repr

/-- Link messages to a camera (Table 3.2). -/
inductive CamMsg
  | hello | choose | ready | regRd | regWr | settings | role
  deriving DecidableEq, Repr

/-- The pins, rails and lines the module drives, and the records it sends (the meaning's docstring gives the numbers). -/
inductive Out
  | string (k : MsgKind) (args : List Int)
  | twin (k : MsgKind) (args : List Int)
  | image (wln : Nat) (img : TwinImage)
  | cam (port : Nat) (k : CamMsg) (args : List Nat)
  | camTx (port : Nat) (on : Bool)
  | camIdle (port : Nat) (blocks : Nat)
  | trigger (port : Nat) (wln : Nat) (offset : Nat) (late : Bool) (primary : Bool)
  | credit (port : Nat) (g : Nat)
  | ssiClock (ch : Nat) (edges : Nat)
  | frame (port : Nat) (kind : Nat) (body : List Nat)
  | record (kind : Nat) (bytes : List Byte)
  | headPin (head : Nat) (pin : Nat) (level : Nat)
  | spiOut (sel : Nat) (bits : Nat) (value : Nat) (mode : Nat) (div : Nat) (setup : Nat) (hold : Nat)
  | spiSdo (slot : Nat) (word : Nat)
  | drive (valve : Nat) (mode : Nat) (current : Nat)
  | pin (id : Nat) (level : Nat)
  | rail (id : Nat) (on : Bool)
  | excite (conv : Nat) (pin : Nat) (current : Nat)
  | log (kind : Nat) (args : List Int)
  deriving DecidableEq, Repr


/-! ## The whole -/

/-- Everything of the module but the data space and the waiting commands. -/
structure Dev where
  regs : RegFile
  time : Timebase
  gen : TrigGen
  ep : Epoch
  snap : Snap
  locks : List Lock
  marks : List (Timer × Nat)
  enc : Vector EncCh 4
  ports : Vector Port 16
  pipes : Vector Pipe 8
  corr : Vector Corr 16
  zeroX : List Nat
  freeCtr : Nat
  out : List Out
  ringSlot : Nat
  errLog : List ErrEntry
  nvs : Nvs
  integ : Integ
  stitch : Stitch
  heads : Vector Head 2
  padcTimes : List (Nat × Nat)
  tags : TagPath
  mark : MarkSt
  valves : Vector ValveCh 16
  seg : Segm
  arch : Arch
  host : HostSt
  padc : Vector Padc 2
  temp : Temp
  pw : Power
  prof : Prof
  twin : TwinSt
  ring : RingSt
  spi : SpiSt
  deriving DecidableEq, Repr


/-- One data word whose stored check byte is not the code of its data (R276, R279): poison, or bits that have flipped. -/
abbrev CheckCell := Nat × Byte

/-- The data space above the register pages and the table flash: sparse bytes (an unlisted byte reads 0 in the data space
and 0xFF, erased, in the flash) and the words whose check bytes differ from the code of their data. -/
structure Memory where
  bytes : List Host.Cell
  checks : List CheckCell
  flash : List Host.Cell
  deriving DecidableEq, Repr

/-- The state of the block: the device, the data space, and the commands that wait, first in, first out. -/
structure State where
  dev : Dev
  mem : Memory
  pending : List Instr
  deriving DecidableEq, Repr

/-- Why a step can stop with a fault: no command of this block does. -/
inductive Fault
  /-- Raised by no meaning; safe. -/
  | none
  deriving DecidableEq, Repr

/-- Why a command can have no meaning. -/
inductive Refusal
  /-- An arm of Machine/Dispatch.lean that has no meaning yet raises it; safe. -/
  | notModelled (mnemonic : String)
  deriving DecidableEq, Repr

/-- The device right after reset. The register file lists nothing: every register reads its reset value. -/
def Dev.reset : Dev where
  regs := []
  time := ⟨0, 0, 0⟩
  gen := TrigGen.reset
  ep := Epoch.reset
  snap := ⟨false, 0, [], [], []⟩
  locks := []
  marks := []
  enc := Vector.replicate 4 EncCh.reset
  ports := Vector.replicate 16 Port.reset
  pipes := Vector.replicate 8 Pipe.reset
  corr := Vector.replicate 16 Corr.reset
  zeroX := []
  freeCtr := 0
  out := []
  ringSlot := 0
  errLog := []
  nvs := Nvs.reset
  integ := Integ.reset
  stitch := Stitch.reset
  heads := Vector.replicate 2 Head.reset
  padcTimes := []
  tags := TagPath.reset
  mark := MarkSt.reset
  valves := Vector.replicate 16 ValveCh.reset
  seg := Segm.reset
  arch := Arch.reset
  host := HostSt.reset
  padc := Vector.replicate 2 Padc.reset
  temp := Temp.reset
  pw := Power.reset
  prof := Prof.reset
  twin := TwinSt.reset
  ring := RingSt.reset
  spi := SpiSt.reset

/-- Right after reset: registers at their reset values, memory with nothing listed, no command waiting. -/
def State.reset : State := ⟨Dev.reset, ⟨[], [], []⟩, []⟩

end Sys2Proof.Machine
end

