-- ==== Sys2Proof/Machine/Ops.lean ====
section
/-! DEFINITION. The named operations over the device: reading and writing register fields, counters, interrupts, the output
log, free values, staged sets, snapshots and read locks. -/

namespace Sys2Proof.Machine

/-! ## Register fields -/

/-- The value a field holds. -/
def Dev.rd (d : Dev) (f : Fld) : Nat := d.regs.get f.key f.reset

/-- The field set to the low bits of `v` that it has. -/
def Dev.wr (d : Dev) (f : Fld) (v : Nat) : Dev := { d with regs := d.regs.set f.key (v % 2 ^ f.width) f.reset }

/-- Whether a one-bit field (or any field) is nonzero. -/
def Dev.on (d : Dev) (f : Fld) : Bool := d.rd f != 0

/-- A field set to 0 or 1. -/
def Dev.wrB (d : Dev) (f : Fld) (b : Bool) : Dev := d.wr f (b2n b)

/-- The two's-complement value of a field. -/
def Dev.rdS (d : Dev) (f : Fld) : Int := toSigned f.width (d.rd f)

/-- A field set to the two's complement of `x` at its width. -/
def Dev.wrS (d : Dev) (f : Fld) (x : Int) : Dev := d.wr f (ofSigned f.width x)

/-- A field set to `v`, saturating at the field's largest value. -/
def Dev.wrSat (d : Dev) (f : Fld) (v : Nat) : Dev := d.wr f (min v (2 ^ f.width - 1))

/-- A saturating counter raised by `n`. -/
def Dev.addCnt (d : Dev) (f : Fld) (n : Nat) : Dev := d.wrSat f (d.rd f + n)

/-- A saturating counter raised by one. -/
def Dev.inc (d : Dev) (f : Fld) : Dev := d.addCnt f 1

/-- A quantity split over a LO and a HI field. -/
def Dev.rd2 (d : Dev) (lo hi : Fld) : Nat := d.rd lo + 2 ^ 32 * d.rd hi

/-- A split quantity written. -/
def Dev.wr2 (d : Dev) (lo hi : Fld) (v : Nat) : Dev := (d.wr lo v).wr hi (v / 2 ^ 32)

/-- A split quantity written as a signed number. -/
def Dev.wr2S (d : Dev) (lo hi : Fld) (x : Int) : Dev := d.wr2 lo hi (ofSigned (32 + hi.width) x)

/-- A value clamped into a field's bounds (the table rows that say "clamped"). -/
def Fld.clamp (f : Fld) (v : Nat) : Nat := clampN f.cmin f.cmax v

/-! ## Outputs, time and free values -/

/-- Something sent or driven. -/
def Dev.emit (d : Dev) (o : Out) : Dev := { d with out := o :: d.out }

/-- A transfer of the SPI master with its select's mode, divider (below 3 acts as 3), setup and hold (R322). -/
def Dev.spiSend (d : Dev) (sel bits value : Nat) : Dev :=
  d.emit (.spiOut sel bits value (d.rd (MGMT.MST_SEL.MODE sel)) (max 3 (d.rd (MGMT.MST_SEL.DIV sel))) (d.rd (MGMT.MST_SEL.CSS sel))
    (d.rd (MGMT.MST_SEL.CSH sel)))

/-- The present timebase in 1/16 ns. -/
def Dev.now (d : Dev) : Nat := d.time.tb

/-- The present timebase in whole ns. -/
def Dev.nowNs (d : Dev) : Nat := d.time.tb / 16

/-- A free value below 2^w and the device with the counter of free values advanced (log entry 3). -/
def Dev.free (d : Dev) (w : Nat) : Nat × Dev :=
  (Config.freeValue d.freeCtr % 2 ^ w, { d with freeCtr := d.freeCtr + 1 })

/-- An interval starts now. -/
def Dev.start (d : Dev) (t : Timer) : Dev := { d with marks := (t, d.now) :: d.marks.filter fun q => q.1 != t }

/-- Whether `n` units of 1/16 ns have passed since an interval started; one that never started has passed. -/
def Dev.past (d : Dev) (t : Timer) (n : Nat) : Bool :=
  (d.marks.find? fun q => q.1 == t).elim true fun q => decide (q.2 + n ≤ d.now)

/-- An interval that is no longer measured, and whether one is. -/
def Dev.stop (d : Dev) (t : Timer) : Dev := { d with marks := d.marks.filter fun q => q.1 != t }
def Dev.began (d : Dev) (t : Timer) : Bool := d.marks.any fun q => q.1 == t

/-- One millisecond and one second in units of 1/16 ns. -/
def oneMs : Nat := 16000000
def oneS : Nat := 16000000000

/-! ## Interrupts (R438, R439) -/

/-- Event `b` of page `p`: sets IRQ_RAW bit b, and counts it in ERR_CNT when ERR_MASK has it. -/
def Dev.irq (d : Dev) (p b : Nat) : Dev :=
  let d1 := d.wr (Com.IRQ_RAW p) (setBit (d.rd (Com.IRQ_RAW p)) b)
  match pageKind p with
  | some k => if bitOf k.errMask b then d1.inc (Com.ERR_CNT p) else d1
  | none => d1

/-- Event `b` of page `p` when `c` holds. -/
def Dev.irqIf (d : Dev) (c : Bool) (p b : Nat) : Dev := if c then d.irq p b else d

/-- IRQ_STAT of a page: IRQ_RAW AND IRQ_EN. -/
def Dev.irqStat (d : Dev) (p : Nat) : Nat := Nat.land (d.rd (Com.IRQ_RAW p)) (d.rd (Com.IRQ_EN p))

/-! ## Configuration sets (R24, R96, R462) -/

/-- The value a field would have with the staged list `l` applied. -/
def stagedVal (d : Dev) (l : List (Fld × Nat)) (f : Fld) : Nat :=
  match l.find? fun p => p.1.key == f.key with
  | some (_, v) => v
  | none => d.rd f

/-- A field under the configuration set of an EPOCH_ID: the set kept for it, the frozen set of a committed epoch whose line
E has been issued, or the live registers. -/
def Dev.cfg (d : Dev) (epoch : Nat) (f : Fld) : Nat :=
  match d.ep.sets.find? fun p => p.1 == epoch with
  | some (_, r) => r.get f.key f.reset
  | none =>
    match d.ep.frozen with
    | some l =>
      if epoch = d.ep.id ∧ d.rd WEB.EPOCH_STATUS.STATE = 3 then stagedVal d l f else d.rd f
    | none => d.rd f

/-- One field put into a staged set; a later write of the same field replaces the earlier. -/
def stagePut (l : List (Fld × Nat)) (f : Fld) (v : Nat) : List (Fld × Nat) :=
  (f, v) :: l.filter fun p => p.1.key != f.key

/-- Two staged sets merged field by field: the later set's value wins (R28, R442). -/
def stageMerge (earlier later : List (Fld × Nat)) : List (Fld × Nat) :=
  later ++ earlier.filter fun p => !(later.any fun q => q.1.key == p.1.key)

/-- A write to an RW-S field: it lands in the next staged set (R22). -/
def Dev.stageWrite (d : Dev) (f : Fld) (v : Nat) : Dev :=
  { d with ep := { d.ep with next := stagePut d.ep.next f (f.clamp (v % 2 ^ f.width)) } }

/-- All fields of a staged set made live. -/
def Dev.applySet (d : Dev) (l : List (Fld × Nat)) : Dev := l.foldl (fun d p => d.wr p.1 p.2) d

/-- Whether the values of a list of fields differ from what a staged set would make them. -/
def stagedChanges (d : Dev) (l : List (Fld × Nat)) (fs : List Fld) : Bool :=
  fs.any fun f => stagedVal d l f != d.rd f

/-! ## Place in the pair and the ring -/

/-- TWIN.STATUS.STATE (Table 15.1): 3 is ACTIVE, and 0 SOLO, a module that runs alone. -/
def Dev.isActive (d : Dev) : Bool := d.rd TWIN.STATUS.STATE == 3 || d.rd TWIN.STATUS.STATE == 0

/-- In every other state the module behaves as a standby (R327). -/
def Dev.isStandby (d : Dev) : Bool := !d.isActive

/-- The active module drives a paired standby. -/
def Dev.hasStandby (d : Dev) : Bool :=
  d.on TWIN.CTL.EN && d.rd TWIN.STATUS.STATE == 3 && d.on TWIN.STATUS.LINK_UP

/-- The module is part of a ring of more than one. -/
def Dev.inRing (d : Dev) : Bool := d.on STRING.CFG.EN

/-- The ring slot of the module; 0 outside a ring. -/
def Dev.slot (d : Dev) : Nat := if d.inRing then d.ringSlot else 0

/-- The Puppeteer: the active module of ring slot 0. -/
def Dev.isPuppeteer (d : Dev) : Bool := d.isActive && d.slot == 0

/-- A message to every module of the ring, when there is one. -/
def Dev.toRing (d : Dev) (k : MsgKind) (args : List Int) : Dev := if d.inRing then d.emit (.string k args) else d

/-- A message to the standby, when there is one. -/
def Dev.toStandby (d : Dev) (k : MsgKind) (args : List Int) : Dev := if d.hasStandby then d.emit (.twin k args) else d

/-! ## Units by index -/

def Dev.updEnc (d : Dev) (n : Fin 4) (g : EncCh → EncCh) : Dev := { d with enc := d.enc.set n (g d.enc[n]) }
def Dev.updPort (d : Dev) (n : Fin 16) (g : Port → Port) : Dev := { d with ports := d.ports.set n (g d.ports[n]) }
def Dev.updPipe (d : Dev) (n : Fin 8) (g : Pipe → Pipe) : Dev := { d with pipes := d.pipes.set n (g d.pipes[n]) }
def Dev.updCorr (d : Dev) (n : Fin 16) (g : Corr → Corr) : Dev := { d with corr := d.corr.set n (g d.corr[n]) }

/-- The indices of all ports, pipelines and channels. -/
def allPorts : List (Fin 16) := List.finRange 16
def allPipes : List (Fin 8) := List.finRange 8
def allEnc : List (Fin 4) := List.finRange 4

/-- A cage whose module's power class keeps it in low-power mode: its lanes never gain signal (R447). CAM0 to CAM15 are cages 0 to
15, HA 16, HB 17, TWIN 18, STRING IN 19, STRING OUT 20. -/
def cageDark (d : Dev) (n : Nat) : Bool := d.pw.cages.any fun c => c.cage.val == n && c.lowPower

/-- The units that DORMANT stops beyond those of QUIET: host ports, twin link, String, encoders, converters (R427). -/
def dormant (d : Dev) : Bool := d.rd PWR.STATUS.LP == 2

/-- An event of such a unit, which DORMANT leaves without effect. -/
def unlessDormant (g : Dev → Dev) (d : Dev) : Dev := if dormant d then d else g d

/-! ## Sorting -/

/-- An element entered before the first that it may stand before. -/
def insertBy {α : Type} (le : α → α → Bool) (a : α) : List α → List α
  | [] => [a]
  | b :: rest => if le a b then a :: b :: rest else b :: insertBy le a rest

/-- A list in ascending order, equals in the order they had. -/
def sortBy {α : Type} (le : α → α → Bool) (l : List α) : List α := l.foldr (insertBy le) []

/-! ## Meanings -/

/-- The logic rails are up and no reset is held: while they are not, only a start has an effect (R411, R421). -/
def Dev.up (d : Dev) : Bool := d.pw.down.isNone

/-- A command whose effect stays in the device. -/
def State.onDev (s : State) (g : Dev → Dev) : Host.Outcome State Fault Refusal :=
  .next { s with dev := if s.dev.up then g s.dev else s.dev }

/-- A command whose effect reads the data space and stays in the device. -/
def State.onDevM (s : State) (g : Memory → Dev → Dev) : Host.Outcome State Fault Refusal :=
  .next { s with dev := if s.dev.up then g s.mem s.dev else s.dev }

/-- A command that acts whether or not the logic is up: a start. -/
def State.onAny (s : State) (g : Dev × Memory → Dev × Memory) : Host.Outcome State Fault Refusal :=
  let r := g (s.dev, s.mem)
  .next { s with dev := r.1, mem := r.2 }

/-- A command whose effect reaches the device and the data space. -/
def State.onBoth (s : State) (g : Dev × Memory → Dev × Memory) : Host.Outcome State Fault Refusal :=
  s.onAny fun x => if x.1.up then g x else x

end Sys2Proof.Machine
end

