-- ==== Sys2Proof/Machine/ArchQueue.lean ====
section
/-! DEFINITION. The front of the archive (spec/11_compression.md): what the engines show, the book of R266, the records handed
to the host ports, and a thermal record entering as a chunk of its own (R254). -/

namespace Sys2Proof.Machine

def Dev.updArch (d : Dev) (g : Arch → Arch) : Dev := { d with arch := g d.arch }

/-- The chunks an engine holds, in order. -/
def heldBy (d : Dev) (n : Nat) : List Chunk := d.arch.chunks.filter fun c => c.engine == some n

/-- The job running on an engine. -/
def jobOn (d : Dev) (n : Nat) : Option Job := d.arch.jobs.find? fun j => j.engine == n

/-- An engine of the stream mode (R251). -/
def streamEngine (d : Dev) (n : Nat) : Bool := bitOf (d.rd ZCTL.STREAM_MASK.MASK) n

/-- Zn.STATUS.STATE is FAULTED. -/
def engFaulted (d : Dev) (n : Nat) : Bool := d.rd (Z.STATUS.STATE n) == 3

/-- STATE, CHUNKS and QUEUED of an engine as its chunks and job say. -/
def zShow (d : Dev) (n : Nat) : Dev :=
  let cs := heldBy d n
  let st := if engFaulted d n then 3 else if (jobOn d n).isSome then 2 else if !cs.isEmpty then 1
    else if !streamEngine d n && d.on ZCTL.FORCE.JOB_PAUSE then 4 else 0
  ((d.wr (Z.STATUS.STATE n) st).wr (Z.STATUS.CHUNKS n) cs.length).wrSat (Z.QUEUED.BYTES n) ((cs.map Chunk.left).sum)

/-- All engines shown. -/
def zShowAll (d : Dev) : Dev := (List.range 32).foldl zShow d

/-- A quantity of the book raised or lowered. -/
def bookAdd (d : Dev) (lo hi : Fld) (x : Int) : Dev := if x = 0 then d else d.wr2 lo hi (((d.rd2 lo hi : Nat) : Int) + x).toNat

def bookWritten (d : Dev) (n : Nat) : Dev := bookAdd d ZCTL.WRITTEN_LO.BYTES ZCTL.WRITTEN_HI.BYTES n
def bookPending (d : Dev) (x : Int) : Dev := bookAdd d ZCTL.PENDING_LO.PENDING ZCTL.PENDING_HI.PENDING x
def bookHeld (d : Dev) (x : Int) : Dev := bookAdd d ZCTL.HELD_LO.HELD ZCTL.HELD_HI.HELD x
def bookSent (d : Dev) (n : Nat) : Dev := bookAdd d ZCTL.SENT_LO.SENT ZCTL.SENT_HI.SENT n
def bookDropped (d : Dev) (n : Nat) : Dev := bookAdd d ZCTL.DROPPED_LO.DROPPED ZCTL.DROPPED_HI.DROPPED n

/-- Buffers returned to the pool. -/
def poolFree (d : Dev) (k : Nat) : Dev := d.wrSat ZCTL.POOL_FREE.N (min 16384 (d.rd ZCTL.POOL_FREE.N + k))

/-- Buffers taken: POOL_MIN follows, and POOL_LOW is raised where POOL_FREE falls below 256. -/
def poolTake (d : Dev) (k : Nat) : Dev :=
  let old := d.rd ZCTL.POOL_FREE.N
  let new := old - k
  let d1 := (d.wr ZCTL.POOL_FREE.N new).wr ZCTL.POOL_MIN.N (min new (d.rd ZCTL.POOL_MIN.N))
  d1.irqIf (decide (new < 256 ∧ 256 ≤ old)) Page.ZCTL ZCTL.irq.POOL_LOW

/-- ARCH_Q_HA and ARCH_Q_HB: bytes of the records that wait on each port. -/
def archQShow (d : Dev) : Dev :=
  let q (p : Nat) : Nat := ((d.arch.recs.filter fun r => r.port == some p).map fun r => r.bytes.length).sum
  (d.wrSat HOST.ARCH_Q_HA.BYTES (q 0)).wrSat HOST.ARCH_Q_HB.BYTES (q 1)

/-- The port of a new archive record: with both up the one with fewer archive bytes queued, HA between equals (R303). -/
def archPort (d : Dev) : Option Nat :=
  match d.on HOST.STATUS.HA_UP, d.on HOST.STATUS.HB_UP with
  | true, true => if d.rd HOST.ARCH_Q_HB.BYTES < d.rd HOST.ARCH_Q_HA.BYTES then some 1 else some 0
  | true, false => some 0
  | false, true => some 1
  | false, false => none

/-- A record handed to the archive stream. -/
def archPut (d : Dev) (r : ArchRec) : Dev :=
  archQShow (d.updArch fun a => { a with recs := a.recs ++ [{ r with port := archPort d }] })

/-- Records without a port take one, in their order (a port is up again, R308). -/
def archAssign (d : Dev) : Dev :=
  let d1 := d.updArch fun a => { a with recs := a.recs.filter fun r => r.port.isSome }
  (d.arch.recs.filter fun r => r.port.isNone).foldl archPut d1

/-- The archive bucket, and BUCKET as it shows it. -/
def setCredit (d : Dev) (c : Int) : Dev := (d.updArch fun a => { a with credit := c }).wrS ZCTL.BUCKET.C c

/-- A set's archive values as they act (Table 11.8). -/
structure ArchSet where
  mode : Nat
  wrap : Nat
  level : Nat
  states : Bool
  bits : Nat
  stripeW : Nat
  maxLines : Nat
  ratio : Nat
  deriving DecidableEq, Repr

/-- WRAP 3 and RATIO 3 act as 0, LEVEL 0 as 1 and 3 as 2; BITS, STRIPE_W and CHUNK_LINES are clamped. -/
def archSet (v : Fld → Nat) : ArchSet where
  mode := v ZCTL.ARCH_CFG.MODE
  wrap := v ZCTL.ARCH_CFG.WRAP % 3
  level := clampN 1 2 (v ZCTL.ARCH_CFG.LEVEL)
  states := v ZCTL.ARCH_CFG.STATES != 0
  bits := clampN 8 16 (v ZCTL.ARCH_CFG.BITS)
  stripeW := clampN 256 8192 (v ZCTL.ARCH_GEOM.STRIPE_W / 64 * 64)
  maxLines := clampN 1 64 (v ZCTL.ARCH_GEOM.CHUNK_LINES)
  ratio := v ZCTL.FRB_CFG.RATIO % 3

/-- A chunk put into the archive input queue. -/
def chunkPut (d : Dev) (c : Chunk) : Dev :=
  d.updArch fun a => { a with chunks := a.chunks ++ [{ c with id := a.nextId }], nextId := a.nextId + 1 }

/-- A thermal frame record as a chunk of its own, with ARCH_CFG.THERM = 1 (R254); none in degraded mode (R267) or on a standby. -/
def thermChunk (d : Dev) (head num : Nat) (bytes : List Byte) : Dev :=
  if !d.on ZCTL.ARCH_CFG.THERM || d.on ZCTL.STATUS.DEGRADED || d.isStandby then d
  else
    let a := archSet d.rd
    chunkPut d
      { id := 0, key := [], therm := some (head, num, bytes), stripe := 0, epoch := d.rd WEB.EPOCH_ID.LIVE_ID, mode := 0
        wrap := a.wrap, level := a.level, withStates := false, bits := a.bits, ratio := a.ratio, maxLines := 0, col0 := 0
        width := 0, lines := [], closed := true, engine := none, begun := false, noDefl := false, left := bytes.length
        dBufs := 0, fBufs := 0, dSeen := 0, fSeen := 0 }

end Sys2Proof.Machine
end

