-- ==== Sys2Proof/Machine/MemOps.lean ====
section
/-! DEFINITION. The data space above the register pages as sparse bytes in one canonical form (addresses strictly rising, no
entry equal to what an unlisted address reads as), little-endian words over it, the SECDED check bytes that differ from the
code of their data (R276, R279), and the table flash. -/

namespace Sys2Proof.Machine

/-- The byte listed at an address, or `dflt`. -/
def cellGet : List Host.Cell → Nat → Byte → Byte
  | [], _, dflt => dflt
  | (k, v) :: rest, a, dflt => if k = a then v else cellGet rest a dflt

/-- The list with an address absent. -/
def cellErase : List Host.Cell → Nat → List Host.Cell
  | [], _ => []
  | (k, v) :: rest, a => if k = a then cellErase rest a else (k, v) :: cellErase rest a

/-- The list with an address listed at a byte, in its place. -/
def cellPut : List Host.Cell → Nat → Byte → List Host.Cell
  | [], a, b => [(a, b)]
  | (k, v) :: rest, a, b =>
    if a < k then (a, b) :: (k, v) :: rest else if k = a then cellPut rest a b else (k, v) :: cellPut rest a b

/-- The list in which `a` reads `b`, where an unlisted address reads `dflt`. -/
def cellSet (m : List Host.Cell) (a : Nat) (b dflt : Byte) : List Host.Cell := if b = dflt then cellErase m a else cellPut m a b

/-- Addresses strictly rising and no entry equal to the default. -/
def cellsWf (dflt : Byte) : List Host.Cell → Bool
  | [] => true
  | [(_, v)] => v != dflt
  | (k, v) :: (k', v') :: rest => v != dflt && decide (k < k') && cellsWf dflt ((k', v') :: rest)

/-- What an unlisted byte of the data space reads as: 0 (DESIGN CHOICE, log entry 2). -/
def Memory.blank : Byte := 0

/-- What an unlisted byte of the table flash reads as: erased (DESIGN CHOICE, log entry 2). -/
def Memory.erased : Byte := 0xFF

/-- The canonical form of the data space and of the flash. -/
def Memory.wf (m : Memory) : Bool :=
  cellsWf Memory.blank m.bytes && cellsWf Memory.erased m.flash

/-- One byte of the data space. -/
def Memory.byte (m : Memory) (a : Nat) : Byte := cellGet m.bytes a Memory.blank

/-- `n` bytes from an address. -/
def Memory.take (m : Memory) (a n : Nat) : List Byte := (List.range n).map fun k => m.byte (a + k)

/-- A little-endian number of `n` bytes. -/
def Memory.num (m : Memory) (a n : Nat) : Nat := ofLeBytes (m.take a n)

/-- 16-, 32- and 64-bit words. -/
def Memory.u16 (m : Memory) (a : Nat) : Nat := m.num a 2
def Memory.u32 (m : Memory) (a : Nat) : Nat := m.num a 4
def Memory.u64 (m : Memory) (a : Nat) : Nat := m.num a 8
def Memory.s16 (m : Memory) (a : Nat) : Int := toSigned 16 (m.u16 a)
def Memory.s32 (m : Memory) (a : Nat) : Int := toSigned 32 (m.u32 a)

/-- One byte written; writing the byte an unlisted address reads as removes the entry. -/
def Memory.setByte (m : Memory) (a : Nat) (b : Byte) : Memory := { m with bytes := cellSet m.bytes a b Memory.blank }

/-- Bytes written from an address. The check bytes of the words written follow their data: a stored mismatch ends. -/
def Memory.write (m : Memory) (a : Nat) : List Byte → Memory
  | [] => m
  | b :: bs => Memory.write ((m.setByte a b)) (a + 1) bs

/-- The check mismatch of the 64-bit words of a range removed. -/
def Memory.clearChecks (m : Memory) (a n : Nat) : Memory :=
  { m with checks := m.checks.filter fun c => !(decide (a / 8 * 8 ≤ c.1) && decide (c.1 < a + n)) }

/-- Bytes written with fresh check bytes. -/
def Memory.store (m : Memory) (a : Nat) (bs : List Byte) : Memory := (m.write a bs).clearChecks a bs.length

/-- A little-endian number of `n` bytes stored. -/
def Memory.putNum (m : Memory) (a n v : Nat) : Memory := m.store a (leBytes n v)

/-- One 32-bit word stored. -/
def Memory.put32 (m : Memory) (a v : Nat) : Memory := m.putNum a 4 v

/-- `n` bytes zeroed. -/
def Memory.zero (m : Memory) (a n : Nat) : Memory :=
  { m with bytes := m.bytes.filter fun c => !(decide (a ≤ c.1) && decide (c.1 < a + n)) }.clearChecks a n

/-- Bytes copied within the data space. -/
def Memory.copy (m : Memory) (dst src n : Nat) : Memory := m.store dst (m.take src n)

/-- One byte of the flash. -/
def Memory.fbyte (m : Memory) (a : Nat) : Byte := cellGet m.flash a Memory.erased

/-- `n` bytes of the flash. -/
def Memory.ftake (m : Memory) (a n : Nat) : List Byte := (List.range n).map fun k => m.fbyte (a + k)

/-- Flash bytes written. -/
def Memory.fwrite (m : Memory) (a : Nat) : List Byte → Memory
  | [] => m
  | b :: bs => Memory.fwrite { m with flash := cellSet m.flash a b Memory.erased } (a + 1) bs

/-- A range of the flash erased. -/
def Memory.ferase (m : Memory) (a n : Nat) : Memory :=
  { m with flash := m.flash.filter fun c => !(decide (a ≤ c.1) && decide (c.1 < a + n)) }

/-! ## CRCs -/

/-- One bit step of the reflected CRC-32 (IEEE 802.3). -/
def crc32Bit (c : Nat) : Nat := if c % 2 = 1 then Nat.xor (c / 2) 0xEDB88320 else c / 2

/-- One byte of the reflected CRC-32. -/
def crc32Byte (c b : Nat) : Nat :=
  crc32Bit (crc32Bit (crc32Bit (crc32Bit (crc32Bit (crc32Bit (crc32Bit (crc32Bit (Nat.xor c b))))))))

/-- CRC-32 of a byte string, as the IEEE 802.3 frame check sequence. -/
def crc32 (bs : List Byte) : Nat := Nat.xor (bs.foldl (fun c b => crc32Byte c b.toNat) 0xFFFFFFFF) 0xFFFFFFFF

/-! ## The SECDED (72,64) code (R276) -/

/-- The columns of data bits 0 to 63: the 56 bytes of weight 3 rising, then the eight smallest of weight 5. -/
def secdedCols : List Nat :=
  ((List.range 256).filter fun v => popCount 8 v == 3) ++ [0x1F, 0x2F, 0x37, 0x3B, 0x3D, 0x3E, 0x4F, 0x57]

/-- The check byte of a 64-bit word: the XOR of the columns of its set bits. -/
def checkByte (w : Nat) : Nat :=
  (List.range 64).foldl (fun c k => if bitOf w k then Nat.xor c (secdedCols.getD k 0) else c) 0

/-- What the code says of a stored word. -/
inductive WordState
  | good
  | single (bit : Nat)
  | poison
  | bad
  deriving DecidableEq, Repr

/-- A syndrome classified. Bits 64 to 71 are the check bits. -/
def classify (syn : Nat) : WordState :=
  if syn = 0 then .good
  else if syn = 0xFF then .poison
  else
    match (secdedCols ++ (List.range 8).map fun k => 2 ^ k).findIdx? fun c => c == syn with
    | some k => .single k
    | none => .bad

/-- The stored check byte of the word at an address, when it differs from the code of the data. -/
def Memory.storedCheck (m : Memory) (a : Nat) : Option Nat :=
  (m.checks.find? fun c => c.1 == a / 8 * 8).map fun c => c.2.toNat

/-- The state of the 64-bit word that holds an address. -/
def Memory.wordState (m : Memory) (a : Nat) : WordState :=
  match m.storedCheck a with
  | none => .good
  | some c => classify (Nat.xor c (checkByte (m.u64 (a / 8 * 8))))

/-- Whether a read of the word at an address is uncorrectable or poison. -/
def Memory.lost (m : Memory) (a : Nat) : Bool :=
  match m.wordState a with
  | .poison => true
  | .bad => true
  | _ => false

/-- Whether some word of a range reads uncorrectable or as poison. -/
def Memory.lostIn (m : Memory) (a n : Nat) : Bool := m.checks.any fun c => decide (a / 8 * 8 ≤ c.1 ∧ c.1 < a + n) && m.lost c.1

/-- The word at an address made poison: its stored check byte is that of its data XOR 0xFF (R279). -/
def Memory.setPoison (m : Memory) (a : Nat) : Memory :=
  let w := a / 8 * 8
  let m1 := m.clearChecks w 8
  { m1 with checks := (w, BitVec.ofNat 8 (Nat.xor (checkByte (m.u64 w)) 0xFF)) :: m1.checks }

/-- The 64-bit data word with a single error inverted. -/
def correctWord (w : Nat) : WordState → Nat
  | .single k => if k < 64 then Nat.xor w (2 ^ k) else w
  | _ => w

/-- Words of a range that a write to it covers in part. -/
def partEnds (a n : Nat) : List Nat :=
  if n = 0 then [] else ([a / 8 * 8, (a + n - 1) / 8 * 8].eraseDups).filter fun w => decide (w < a ∨ a + n < w + 8)

/-- A single error corrected in the data. -/
def Memory.fixWord (m : Memory) (a : Nat) : Memory :=
  match m.wordState a with
  | .single k =>
    let w := a / 8 * 8
    (m.write w (leBytes 8 (correctWord (m.u64 w) (.single k)))).clearChecks w 8
  | _ => m

/-- A word put back as it was in `old`, its check byte too. -/
def Memory.restore (m old : Memory) (w : Nat) : Memory :=
  let m1 := (m.write w (old.take w 8)).clearChecks w 8
  { m1 with checks := (old.checks.filter fun c => c.1 == w) ++ m1.checks }

/-- A write of any length as the controller does it (R277): whole words replace what they held; a word covered in part is read,
corrected and merged, and stays as it was where it cannot be read. -/
def Memory.merge (m : Memory) (a : Nat) (bs : List Byte) : Memory :=
  if m.checks.isEmpty then m.store a bs
  else
    let m1 := (partEnds a bs.length).foldl Memory.fixWord m
    ((partEnds a bs.length).filter m1.lost).foldl (fun q w => q.restore m1 w) (m1.store a bs)

end Sys2Proof.Machine
end

