-- ==== Sys2Proof/Machine/Logs.lean ====
section
/-! DEFINITION. What many units write: the error log (R281), reads checked by the code (R276 to R280), the working array and
its event log (R350, R356), and the ageing ledger (R404, R405). -/

namespace Sys2Proof.Machine

/-- A device with its data space. -/
abbrev DM := Dev × Memory

/-! ## The error log (R281) -/

/-- Error log types (Table 12.4). -/
def ET.ce : Nat := 1
def ET.ue : Nat := 2
def ET.poisonRd : Nat := 3
def ET.scrubCe : Nat := 4
def ET.scrubUe : Nat := 5
def ET.timeout : Nat := 6
def ET.rowWeak : Nat := 7
def ET.degraded : Nat := 8

/-- Who read (Table 12.4, REQ). -/
structure Reader where
  req : Nat
  slice : Option Nat
  port : Option Nat
  thermal : Bool
  deriving DecidableEq, Repr

/-- MEM of an address: 0 HBM, 1 SRAM. The windows at 0x0200_0000 to 0x04FF_FFFF are views of the thermal region (R274). -/
def memOf (a : Nat) : Nat := if 0x400000000 ≤ a ∨ (0x02000000 ≤ a ∧ a < 0x05000000) then 0 else 1

/-- The counter and the interrupt of an event type. -/
def errCount (d : Dev) (type mem : Nat) : Dev :=
  let pick (h s f : Fld) : Fld := if mem = 0 then h else if mem = 1 then s else f
  match type with
  | 1 => (d.inc (pick MEM.CE_HBM.CNT MEM.CE_SRAM.CNT MEM.CE_FAB.CNT)).irq Page.MEM MEM.irq.CE
  | 2 => (d.inc (pick MEM.UE_HBM.CNT MEM.UE_SRAM.CNT MEM.UE_FAB.CNT)).irq Page.MEM MEM.irq.UE
  | 3 => (d.inc MEM.POISON_RD_CNT.CNT).irq Page.MEM MEM.irq.POISON_RD
  | 4 => (d.inc MEM.SCRUB_CE.CNT).irq Page.MEM MEM.irq.CE
  | 5 => (d.inc MEM.SCRUB_UE.CNT).irq Page.MEM MEM.irq.UE
  | 7 => (d.inc MEM.ROW_WEAK_CNT.CNT).irq Page.MEM MEM.irq.ROW_WEAK
  | _ => d

/-- One event into the log: merged into the newest entry when TYPE, MEM and ADDR match, else a new entry over the oldest. -/
def Dev.errPut (d : Dev) (type mem : Nat) (bit : Option Nat) (syndrome : Nat) (r : Reader) (addr : Nat) : Dev :=
  let d := errCount d type mem
  let next := d.rd MEM.LOG_NEXT.IDX
  let a := addr / 8 * 8
  let isNew (e : ErrEntry) : Bool := e.idx == (next + 63) % 64
  if d.errLog.any fun e => isNew e && e.type == type && e.mem == mem && e.addr == a then
    { d with errLog := d.errLog.map fun e => if isNew e then { e with count := min 65535 (e.count + 1) } else e }
  else
    let lost := d.errLog.any fun e => e.idx == next && !e.read
    let e : ErrEntry := ⟨next, type, mem, bit, syndrome, r.req, r.slice, r.port, r.thermal, d.slot, a, 1, d.nowNs,
      d.rd2 WEB.WLN_LO.WLN WEB.WLN_HI.WLN, false⟩
    let d1 := { d with errLog := e :: d.errLog.filter fun x => x.idx != next }
    let d2 := d1.wr MEM.LOG_NEXT.IDX (next + 1)
    if lost then (d2.inc MEM.LOG_LOST.CNT).irq Page.MEM MEM.irq.LOG_LOST else d2

/-- The eight words of a log entry as the MEM page shows them (Table 12.4). -/
def ErrEntry.word (e : ErrEntry) (k : Nat) : Nat :=
  match k with
  | 0 => e.type + 16 * e.mem + 64 * b2n e.bit.isSome + 256 * e.bit.getD 0 + 65536 * e.syndrome + 2 ^ 24 * e.req
  | 1 => e.slice.getD 0 + 2048 * b2n e.slice.isSome + 4096 * e.port.getD 0 + 65536 * b2n e.port.isSome +
      2 ^ 17 * b2n e.thermal + 2 ^ 18 * (if e.thermal then 0 else e.port.getD 0 / 4) +
      2 ^ 20 * b2n (e.port.isSome && !e.thermal) + 2 ^ 21 * e.slot
  | 2 => e.addr % 2 ^ 32
  | 3 => e.addr / 2 ^ 32 % 256 + 65536 * e.count
  | 4 => e.time % 2 ^ 32
  | 5 => e.time / 2 ^ 32 % 2 ^ 32
  | 6 => e.wln % 2 ^ 32
  | _ => e.wln / 2 ^ 32 % 65536

/-! ## The working array (R350, R356) -/

/-- Its address in the data space, and the pages of Table 16.1 that only the management core writes. -/
def waBase : Nat := 0x09000000
def waReserved (page : Nat) : Bool := decide (832 ≤ page ∧ page < 1008)

/-- A page marked dirty. -/
def markDirty (d : Dev) (page : Nat) : Dev :=
  let ps := if d.nvs.dirty.contains page then d.nvs.dirty else page :: d.nvs.dirty
  ({ d with nvs := { d.nvs with dirty := ps } }).wr NVS.DIRTY.N ps.length

/-- A write to a working-array page: a page queued in a running store moves to the head and the write waits; else it is made
at once and the page becomes dirty. -/
def waWrite (x : DM) (a : Nat) (bs : List Byte) : DM :=
  let (d, m) := x
  let page := (a - waBase) / 256
  match d.nvs.run with
  | some st =>
    if st.queue.contains page then
      let st' := { st with queue := page :: st.queue.filter (fun q => q != page), held := st.held ++ [(a, bs)] }
      (({ d with nvs := { d.nvs with run := some st' } }).inc NVS.WR_WAIT_CNT.CNT, m)
    else if st.second.elim false (fun q => q.1 == page) then
      (({ d with nvs := { d.nvs with run := some { st with held := st.held ++ [(a, bs)] } } }).inc NVS.WR_WAIT_CNT.CNT, m)
    else (markDirty d page, m.store a bs)
  | none => (markDirty d page, m.store a bs)

/-- One faulty word met by a reader: logged, a single error queued for its write-back, an uncorrectable one made poison. -/
def readFaulty (r : Reader) (x : DM) (a : Nat) : DM :=
  let (d, m) := x
  let mem := memOf a
  let syn := Nat.xor ((m.storedCheck a).getD 0) (checkByte (m.u64 (a / 8 * 8)))
  match m.wordState a with
  | .good => x
  | .single k =>
    let d1 := d.errPut ET.ce mem (some k) syn r a
    (if d.on MEM.CTL.CE_WB then { d1 with integ := { d1.integ with wb := d1.integ.wb ++ [(a / 8 * 8, m.u64 (a / 8 * 8))] } } else d1, m)
  | .poison => (d.errPut ET.poisonRd mem none syn r a, m)
  | .bad => (d.errPut ET.ue mem none syn r a, m.setPoison a)

/-- The management core and the host's accesses. -/
def mgmtReader : Reader := ⟨9, none, none, false⟩

/-- A management-core write: none while the array is frozen (R358). A word it covers in part is read, corrected and merged, and
the write is dropped where that word cannot be read (R277). -/
def coreWrite (x : DM) (a : Nat) (bs : List Byte) : DM :=
  if x.1.on NVS.STATUS.FROZEN then x
  else if x.2.checks.isEmpty then waWrite x a bs
  else
    let ends := partEnds a bs.length
    let y := ends.foldl (readFaulty mgmtReader) x
    if ends.any y.2.lost then y else waWrite (y.1, ends.foldl Memory.fixWord y.2) a bs

/-- The event codes. R350 gives a code 2 bytes and no values: they are constants of the configuration (log entry 16). -/
inductive Ev
  | mainsFail | patchRej | journalLost | seqTie | pageLost | waUe | wearWarn | plan | repairFull | rowRepaired
  | warning | throttle | shutdown | cageIn | cageOut | cageAlarm
  deriving DecidableEq, Repr

/-- ARG where the spec states it: the page (Table 16.5), the cage (R447); else a constant of the configuration. -/
def evArg (e : Ev) (arg value : Nat) : Nat :=
  match e with
  | .seqTie => arg
  | .pageLost => arg
  | .cageIn => arg
  | .cageOut => arg
  | .cageAlarm => arg
  | _ => (Config.eventArg e.ctorIdx arg value).toNat

/-- VALUE where the spec states it: the flag bytes of a cage alarm (R447). -/
def evValue (e : Ev) (arg value : Nat) : Nat :=
  match e with
  | .cageAlarm => value
  | _ => (Config.eventValue e.ctorIdx arg value).toNat

/-- One entry of the event log: TIME ns, CODE, ARG, VALUE; the oldest is overwritten first. -/
def evLog (x : DM) (e : Ev) (arg value : Nat) : DM :=
  if x.1.on NVS.STATUS.FROZEN then x
  else
    let k := x.1.nvs.evNext
    let bs := leBytes 8 x.1.nowNs ++ leBytes 2 (Config.eventCode (e.ctorIdx)).toNat ++
      leBytes 2 (evArg e arg value) ++ leBytes 4 (evValue e arg value)
    let y := coreWrite x (waBase + 0x38000 + 16 * k) bs
    ({ y.1 with nvs := { y.1.nvs with evNext := (k + 1) % 1024 } }, y.2)

/-! ## The ageing ledger (R404, R405) -/

/-- Table 18.5: BASE_IDX of a kind. -/
def ledgerBase (kind : Nat) : Nat := [0, 0, 16, 80, 144, 146, 148, 150, 152, 168, 184].getD kind 184

/-- The address of a track. -/
def trackAddr (kind unit : Nat) : Nat := waBase + 0x3C000 + 32 * (ledgerBase kind + unit)

/-- The worse of two values in the direction of Table 18.5. -/
def worse (kind : Nat) (a b : Int) : Int :=
  if kind = 2 ∨ kind = 3 then min a b
  else if kind = 5 then (if b.natAbs < a.natAbs then b else a)
  else max a b

/-- A measurement enters its track (R405). -/
def ledgerEnter (x : DM) (kind unit : Nat) (v : Int) : DM :=
  let m := x.2
  let a := trackAddr kind unit
  let poh := x.1.rd AGE.POH.HOURS
  let n := m.u16 (a + 2)
  let i32 (y : Int) : List Byte := leBytes 4 (ofSigned 32 y)
  let head (k : Nat) : List Byte := leBytes 1 kind ++ leBytes 1 unit ++ leBytes 2 k
  if n = 0 then
    coreWrite x a (head 1 ++ i32 v ++ i32 v ++ i32 0 ++ i32 v ++ leBytes 4 (m.u32 (a + 20)) ++ leBytes 4 poh ++ leBytes 4 poh)
  else
    let base := m.s32 (a + 4)
    let cur := m.s32 (a + 8)
    let spread := m.s32 (a + 12)
    let wst := m.s32 (a + 16)
    coreWrite x a (head (min 65535 (n + 1)) ++ i32 base ++ i32 (cur + sar (v - cur) 4) ++
      i32 (spread + sar (((v - cur).natAbs : Int) - spread) 4) ++ i32 (worse kind wst v) ++
      leBytes 4 (m.u32 (a + 20)) ++ leBytes 4 (m.u32 (a + 24)) ++ leBytes 4 poh)

/-! ## Checked reads (R276 to R280) -/

/-- The address in the stack of a window on the thermal region (R274): the windows show its first 48 MiB in order (DESIGN CHOICE,
log entry 71). -/
def stackAddr (a : Nat) : Nat := if 0x02000000 ≤ a ∧ a < 0x05000000 then a - 0x02000000 + 0x410000000 else a

/-- The address at which the model keeps a byte of the stack: its window's, where it has one. -/
def homeAddr (a : Nat) : Nat := if 0x410000000 ≤ a ∧ a < 0x413000000 then a - 0x410000000 + 0x02000000 else a

/-- The row of a word of the stack: 1 KiB of its addresses (DESIGN CHOICE, log entry 15). -/
def rowOf (a : Nat) : Nat := stackAddr a / 1024

/-- A weak row enters the row-repair list (R406): bits 27:0 the row, in pages 992 to 1,007. -/
def rowWeak (x : DM) (row : Nat) : DM :=
  let base := waBase + 0x3E000
  let k := x.1.rd AGE.REPAIR.LISTED
  if (List.range k).any fun i => x.2.u32 (base + 4 * i) % 2 ^ 28 == row then x
  else if 1024 ≤ k then
    evLog (((x.1.wr AGE.STATUS.REPAIR_FULL 1).irq Page.AGE AGE.irq.REPAIR_FULL), x.2) .repairFull 0 row
  else
    let y := coreWrite x (base + 4 * k) (leBytes 4 row)
    ledgerEnter (y.1.wr AGE.REPAIR.LISTED (k + 1), y.2) 10 0 ((k + 1 : Nat) : Int)

/-- One corrected word of the stack counted in its row; with CE_ROW_LIMIT or more distinct words in one pass the row is logged
and listed, once (R278). -/
def noteRow (x : DM) (a : Nat) (r : Reader) : DM :=
  let d := x.1
  if memOf a ≠ 0 then x
  else
    let row := rowOf a
    let (done, old) := (d.integ.rows.find? fun x => x.1 == row).elim (false, []) Prod.snd
    let new := if old.contains (a / 8) then old else a / 8 :: old
    let weak := !done && decide (d.rd MEM.CE_ROW_LIMIT.N ≤ new.length)
    let d1 := { d with integ := { d.integ with rows := (row, done || weak, new) :: d.integ.rows.filter fun x => x.1 != row } }
    if weak then rowWeak (d1.errPut ET.rowWeak 0 none 0 r (row * 1024), x.2) row else (d1, x.2)

/-- A cause of degraded mode is detected (Table 12.6): entry follows, unless the module is degraded already. -/
def degradeCause (d : Dev) (cause : Nat) : Dev :=
  if d.on MEM.STATUS.DEGRADED || d.integ.degWait.isSome then d else { d with integ := { d.integ with degWait := some cause } }

/-- An uncorrectable HBM read: UE_LIMIT or more within 1 ms are cause 3. -/
def noteUe (d : Dev) : Dev :=
  let ts := d.now :: d.integ.ueTimes.filter fun t => decide (d.now < t + 16000000)
  let d1 := { d with integ := { d.integ with ueTimes := ts } }
  let n := d.rd MEM.UE_LIMIT.N
  if n ≠ 0 ∧ n ≤ ts.length then degradeCause d1 3 else d1

/-- One faulty word met by a reader, with what it means for the stack: its row, its rate of uncorrectable reads. -/
def readWord (r : Reader) (x : DM) (a : Nat) : DM :=
  let y := readFaulty r x a
  match x.2.wordState a with
  | .single _ => noteRow y a r
  | .bad => (if memOf a = 0 then noteUe y.1 else y.1, y.2)
  | _ => y

/-- A range as its readers see it: every single error corrected. -/
def Memory.fixRange (m : Memory) (a n : Nat) : Memory :=
  ((m.checks.filter fun c => decide (a / 8 * 8 ≤ c.1 ∧ c.1 < a + n)).map Prod.fst).foldl Memory.fixWord m

/-- Words of a range whose read in flight comes back as poison (R279, R285). -/
def goneIn (d : Dev) (a n : Nat) : List Nat := d.integ.gone.filter fun w => decide (a / 8 * 8 ≤ w ∧ w < a + n)

/-- Whether the next read of the word at an address gives poison. -/
def wordGone (x : DM) (a : Nat) : Bool := x.2.lost a || !(goneIn x.1 (a / 8 * 8) 8).isEmpty

/-- A range read by a reader: the memory as the reader sees it (single errors corrected, a read that came back as poison lost),
and what the read leaves. -/
def readRange (x : DM) (a n : Nat) (r : Reader) : Memory × DM :=
  let bad := (x.2.checks.filter fun c => decide (a / 8 * 8 ≤ c.1 ∧ c.1 < a + n)).map Prod.fst
  let late := goneIn x.1 a n
  if bad.isEmpty && late.isEmpty then (x.2, x)
  else
    let y := bad.foldl (readWord r) x
    let left := y.1.integ.gone.filter fun w => !late.contains w
    (late.foldl Memory.setPoison (bad.foldl Memory.fixWord y.2), ({ y.1 with integ := { y.1.integ with gone := left } }, y.2))

/-- A write of any length by a unit (R277): the words it covers in part are read first. -/
def mergeWrite (r : Reader) (x : DM) (a : Nat) (bs : List Byte) : DM :=
  if x.2.checks.isEmpty then (x.1, x.2.store a bs)
  else
    let y := (partEnds a bs.length).foldl (readWord r) x
    (y.1, y.2.merge a bs)

end Sys2Proof.Machine
end

