-- ==== Sys2Proof/Machine/Tags.lean ====
section
/-! DEFINITION. The tag stream (R216 to R220): records entering it, the retention buffer, and the mark-result record. -/

namespace Sys2Proof.Machine

def Dev.updTags (d : Dev) (g : TagPath → TagPath) : Dev := { d with tags := g d.tags }

/-- The order of preference of R219. -/
def StreamRec.rank (r : StreamRec) : Nat := if r.type = 0x44 then 0 else if r.type = 0x56 then 2 else 1

/-- Bytes held in the retention buffer (R220). -/
def retained (t : TagPath) : Nat :=
  4 * ((t.kept.map fun r => r.2.words.length) ++ (t.waiting.map fun r => r.words.length)).sum

/-- HQ_DEPTH and HQ_MAX follow the queue. -/
def hqShow (d : Dev) : Dev :=
  let n := d.tags.waiting.length
  let d1 := d.wrSat TAG.HQ_DEPTH.N n
  if d.rd TAG.HQ_MAX.N < n then d1.wrSat TAG.HQ_MAX.N n else d1

/-- A record of the tag stream takes an SSEQ: the feature record that waits behind a tag learns the tag's (R214). -/
def passSseq (d : Dev) (r : StreamRec) : Dev :=
  let n := d.rd TAG.SSEQ.NEXT
  let learn (x : StreamRec) : StreamRec := if x.tagOf == some r.uid then { x with words := x.words.set 3 n } else x
  (d.updTags fun t => { t with waiting := (t.waiting.filter fun x => x.uid != r.uid).map learn }).wr TAG.SSEQ.NEXT (n + 1)

/-- The oldest unacknowledged record is overwritten; a placed record comes before every waiting one. DEDUCED: a record that waits takes
its SSEQ with it, so that the host sees its loss as a gap too (log entry 134). -/
def dropOldest (d : Dev) : Dev :=
  let d1 := (d.inc TAG.HOST_LOST_CNT.CNT).irq Page.TAG TAG.irq.HOST_LOST
  match d1.tags.kept, d1.tags.waiting with
  | _ :: rest, _ => d1.updTags fun t => { t with kept := rest }
  | [], r :: _ => passSseq d1 r
  | [], [] => d1

/-- Room for `n` more bytes: at most `fuel` records are overwritten. -/
def makeRoom (n : Nat) : Nat → Dev → Dev
  | 0, d => d
  | fuel + 1, d =>
    if 2097152 < retained d.tags + n ∧ d.tags.kept.length + d.tags.waiting.length ≠ 0 then makeRoom n fuel (dropOldest d) else d

/-- A record enters the tag stream, when the host path is on. Answers its number. -/
def tagPut (d : Dev) (type blob close : Nat) (words : List Nat) (tagOf : Option Nat) : Dev :=
  if !d.on TAG.CTL.HOST_EN then d
  else
    let d1 := makeRoom (4 * words.length) 8 d
    hqShow (d1.updTags fun t =>
      { t with waiting := t.waiting ++ [⟨type, blob, close, words, t.uid, tagOf⟩], uid := t.uid + 1 })

/-- What a mark-result record says (Table 9.6). -/
structure MarkResult where
  blob : Nat
  close : Nat
  result : Nat
  valve : Nat
  dipT : Nat
  firePos : Nat
  fireT : Nat
  taken : Bool
  deriving DecidableEq, Repr

/-- Table 9.6, with SSEQ zero. -/
def MarkResult.words (r : MarkResult) (slot : Nat) : List Nat :=
  [0x0A0152, 0, r.valve + 16 * r.result + 256 * slot + 2048 * b2n r.taken + 65536 * (r.dipT % 65536), r.blob, r.close % 2 ^ 32,
    r.firePos % 2 ^ 32, r.firePos / 2 ^ 32 % 65536, r.fireT % 2 ^ 32, r.fireT / 2 ^ 32 % 2 ^ 32, 0]

/-- A mark-result record enters the tag stream. -/
def markResultPut (d : Dev) (r : MarkResult) : Dev :=
  let d1 := if d.on TAG.CTL.HOST_EN then d.inc TAG.MARKRES_CNT.CNT else d
  tagPut d1 0x52 r.blob r.close (r.words d.slot) none

/-- The digest of a line takes what became of a close. -/
def digestNote (d : Dev) (close blob : Nat) (g : Option Nat × Option Nat → Option Nat × Option Nat) : Dev :=
  let put (q : LineDigest) : LineDigest :=
    if q.wln == close then { q with closes := q.closes.map fun c => if c.1 == blob then (c.1, g c.2) else c } else q
  { d with seg := { d.seg with digests := d.seg.digests.map put } }

/-! ## The twin's digests and image (R331) -/

def Dev.updTwin (d : Dev) (g : TwinSt → TwinSt) : Dev := { d with twin := g d.twin }

/-- What a DIGEST says of a line beside its WLN: CRC of the run list, CRC of the background, closes, CRC over the closes. -/
def LineDigest.sums (q : LineDigest) : List Nat :=
  [(Config.digest q.runs).toNat, (Config.digest (q.bg.map fun (b : Nat) => (b : Int))).toNat, q.closes.length,
   (Config.digest (q.closes.flatMap fun c =>
     [(c.1 : Int), c.2.1.elim (-1) fun w => (w : Int), c.2.2.elim (-1) fun r => (r : Int)])).toNat]

/-- Every close of the line has its class word, and its marker intake when it asks for a mark. -/
def digestSettled (d : Dev) (q : LineDigest) : Bool :=
  q.closes.all fun c =>
    match c.2.1 with
    | some w => !bitOf w 25 || c.2.2.isSome
    | none => !d.tags.vecs.any fun v => v.blob == c.1 && v.close == q.wln

/-- An image is asked for (R331), and the runs of the lines to come are stored. -/
def imageAsk (d : Dev) : Dev :=
  (d.emit (.twin .imageReq [])).updTwin fun t => { t with wanted := true, applied := false, store := [], digests := [] }

/-- The standby tells the active its state. -/
def sayHello (d : Dev) : Dev :=
  d.emit (.twin .hello [(d.rd TWIN.STATUS.SIDE : Int), (d.rd TWIN.STATUS.STATE : Int), (d.rd TWIN.STATUS.TAKE_OUT : Int),
    (Config.serialLo.toNat : Int), (Config.fwRom.toNat : Int)])

/-- The state of Table 15.1. -/
def pairState (d : Dev) : Nat := d.rd TWIN.STATUS.STATE

/-- A module in SYNCING or STANDBY. -/
def follows (d : Dev) : Bool := pairState d == 2 || pairState d == 4

/-- A message from the twin: on a module that follows it is a sign of life of the active (Table 15.4). -/
def State.fromTwin (s : State) (g : Dev → Dev) : Host.Outcome State Fault Refusal :=
  s.onDev fun d => g (if follows d then d.start .twin else d)

/-- A pair state entered: the intervals of Tables 15.1 and 15.4 start. -/
def setPair (d : Dev) (st : Nat) : Dev := (if st = 1 then d.start .solo else d.start .twin).wr TWIN.STATUS.STATE st

/-- SYNCING is entered: nothing is mirrored, an image is asked for. -/
def enterSyncing (d : Dev) : Dev := imageAsk (sayHello ((setPair d 2).wr TWIN.STATUS.MIRRORED 0))

/-- The active's digest against the standby's own: a match sets VER_WLN, and MIRRORED once an image has been applied; a
mismatch starts resynchronization. -/
def digestCompare (d : Dev) (w : Nat) (same : Bool) : Dev :=
  let st := d.rd TWIN.STATUS.STATE
  if !(st == 4 || (st == 2 && d.twin.applied)) then d
  else if same then
    let d1 := d.wr2 TWIN.VER_WLN_LO.WLN TWIN.VER_WLN_HI.WLN w
    if st = 2 then sayHello ((((setPair d1 4).wr TWIN.STATUS.MIRRORED 1).inc TWIN.RESYNC_CNT.CNT).irq Page.TWIN TWIN.irq.MIRRORED) else d1
  else enterSyncing ((d.inc TWIN.DIFF_CNT.CNT).irq Page.TWIN TWIN.irq.DIFF)

/-- One settled line: the active sends its DIGEST, the standby compares it with the one received. -/
def digestOne (d : Dev) (q : LineDigest) : Dev :=
  let drop (d : Dev) : Dev := { d with seg := { d.seg with digests := d.seg.digests.filter fun r => r.wln != q.wln } }
  if !digestSettled d q then d
  else if d.isActive then drop (d.toStandby .digest ((q.wln : Int) :: q.sums.map fun (x : Nat) => (x : Int)))
  else
    match d.twin.digests.find? fun r => r.1 == q.wln with
    | none => d
    | some r =>
      digestCompare ((drop d).updTwin fun t => { t with digests := t.digests.filter fun e => e.1 != q.wln }) q.wln (r.2 == q.sums)

/-- The lines whose digest is settled, oldest first. -/
def digestSettle (d : Dev) : Dev := d.seg.digests.reverse.foldl digestOne d

/-- The active's image of this instant (R331). -/
def takeImage (d : Dev) : TwinImage :=
  { blobs := d.seg.blobs, conts := d.seg.conts, bg := d.seg.bg, since := d.seg.since, ord := d.seg.ord, groups := d.seg.groups,
    noGroup := d.seg.noGroup, own := d.seg.own, upper := d.seg.upper, slots := d.mark.slots, markSeq := d.mark.seq,
    avail := d.rdS MARK.AVAIL.UJ, nextSseq := d.rd TAG.SSEQ.NEXT, acked := d.tags.acked,
    placed := d.tags.kept.map fun r => (r.1, r.2.type, r.2.blob, r.2.close) }

/-- The image owed is sent at the end of a line, w0. -/
def imageSend (d : Dev) : Dev :=
  if d.twin.owed && d.seg.cur.isNone then
    (d.emit (.image (d.seg.prev.elim 0 fun p => p.1) (takeImage d))).updTwin fun t => { t with owed := false }
  else d

/-- A request answered before program start: VALVE, FIRE_POS and FIRE_T zero, DIP_T 0xFFFF (R231). -/
def earlyResult (blob close result : Nat) (taken : Bool) : MarkResult := ⟨blob, close, result, 0, 0xFFFF, 0, 0, taken⟩

/-- The module's twin mirrors it (R232). -/
def Dev.mirrored (d : Dev) : Bool := d.hasStandby && d.on TWIN.STATUS.MIRRORED

end Sys2Proof.Machine
end

