-- ==== Sys2Proof/Machine/Views.lean ====
section
/-! DEFINITION. What a register word reads as: the fields of every page, the common words that are computed, snapshots and their
read-outs (R30, R302, R436, R437, R445). -/

namespace Sys2Proof.Machine

/-- The fields of a page's own table. -/
def pageFields (p : Nat) : List Fld :=
  match pageKind p with
  | none => []
  | some k =>
    let n := p - k.first
    match k.type with
    | 0x01 => SYS.fields
    | 0x02 => CLK.fields
    | 0x03 => PWR.fields
    | 0x04 => RST.fields
    | 0x05 => THM.fields
    | 0x06 => AGE.fields
    | 0x07 => NVS.fields
    | 0x08 => PROF.fields
    | 0x09 => MGMT.fields
    | 0x0a => MEM.fields
    | 0x0b => FAB.fields
    | 0x10 => WEB.fields
    | 0x11 => ENC.fields n
    | 0x18 => TRIG.fields
    | 0x20 => PORT.fields n
    | 0x21 => LANE.fields n
    | 0x28 => PIPE.fields n
    | 0x29 => STAT.fields n
    | 0x30 => THERM.fields n
    | 0x31 => TAPC.fields
    | 0x38 => STITCH.fields
    | 0x40 => SEG.fields
    | 0x41 => CLASS.fields
    | 0x42 => TAG.fields
    | 0x48 => MARK.fields
    | 0x49 => HSG.fields n
    | 0x4a => VALVE.fields n
    | 0x50 => ZCTL.fields
    | 0x51 => Z.fields n
    | 0x58 => HOST.fields
    | 0x60 => TWIN.fields
    | 0x61 => STRING.fields
    | 0x68 => PADC.fields n
    | _ => []

/-- IRQ_STAT of a page, for a copy; live it is computed (R437). -/
def Com.IRQ_STAT (p : Nat) : Fld := fld (4096 * p + 0x018) 0 8 .ro 0

/-- STAGE (Table 1.3) but for VIEW; computed when read. -/
def Com.STAGE_PENDING (p : Nat) : Fld := fld (4096 * p + 0x01C) 0 1 .ro 0
def Com.STAGE_FROZEN (p : Nat) : Fld := fld (4096 * p + 0x01C) 1 1 .ro 0
def Com.EPOCH_TAG (p : Nat) : Fld := fld (4096 * p + 0x01C) 16 16 .ro 0

/-- The fields that stand in one word, W1S fields apart: those read 0. -/
def wordFields (a : Nat) : List Fld :=
  let p := a / 4096
  (Com.IRQ_STAT p :: Com.STAGE_PENDING p :: Com.STAGE_FROZEN p :: Com.EPOCH_TAG p :: Com.fields p ++ pageFields p).filter fun f => f.addr == a && f.acc != .w1s && f.acc != .wo

/-- PAGE_ID and PAGE_CAP (Table 20.2). -/
def pageIdWord (p : Nat) : Nat := match pageKind p with
  | some k => k.type + 256 + 65536 * (p - k.first)
  | none => 0
def pageCapWord (p : Nat) : Nat := match pageKind p with
  | some k => b2n k.staged + 2 + 4 * b2n k.persist + 8 + 16 * b2n k.window + 256 * k.irqN + 2 ^ 24 * k.errMask
  | none => 0

/-- A word put together from its fields' values. -/
def wordOf (get : Fld → Nat) (a : Nat) : Nat :=
  if a % 4096 = 0 then pageIdWord (a / 4096)
  else if a % 4096 = 4 then pageCapWord (a / 4096)
  else (wordFields a).foldl (fun v f => v + get f * 2 ^ f.lo) 0

/-- VALVEn.STATUS.STATE as it reads. -/
def valveState (d : Dev) (ch : Fin 16) : Nat :=
  if d.isStandby then 5
  else if d.on (VALVE.FAULT.CAUSE ch) then 4
  else
    match d.valves[ch].run with
    | some r => if r.wait.isSome then 2 else 3
    | none => if d.rd (VALVE.CFG.ROLE ch) = 0 then 0 else 1

/-- A page of a unit that is held in reset (R426): ports with their lanes, pipelines, heads and engines. -/
def pageHeld (d : Dev) (p : Nat) : Bool :=
  if 0x20 ≤ p ∧ p < 0x30 then bitOf (d.rd RST.UNIT_PORT.MASK) (p - 0x20)
  else if 0x30 ≤ p ∧ p < 0x40 then bitOf (d.rd RST.UNIT_PORT.MASK) (p - 0x30)
  else if 0x40 ≤ p ∧ p < 0x48 then bitOf (d.rd RST.UNIT_PIPE.MASK) (p - 0x40)
  else if 0x50 ≤ p ∧ p < 0x52 then bitOf (d.rd RST.UNIT_HEAD.MASK) (p - 0x50)
  else if 0x81 ≤ p ∧ p < 0xA1 then bitOf (d.rd RST.UNIT_Z.MASK) (p - 0x81)
  else false

/-- IRQ_SUM words and IRQ_ANY (R445). -/
def irqSumWord (d : Dev) (k : Nat) : Nat :=
  (List.range 32).foldl (fun v b =>
    if pageExists (32 * k + b) && !pageHeld d (32 * k + b) && d.irqStat (32 * k + b) != 0 then v + 2 ^ b else v) 0
def irqAny (d : Dev) : Bool := pageList.any fun p => !pageHeld d p && d.irqStat p != 0

/-- The level of the AUX pin that signals IRQ_ANY, none while no pin is driven (R445; pins 6 and 7 belong to the gate, R325). -/
def irqPin (d : Dev) : Option (Nat × Bool) :=
  let io := d.rd SYS.IRQ_PIN.IO
  if !d.on SYS.IRQ_PIN.EN || (decide (6 ≤ io) && d.on TWIN.CTL.EN) then none
  else some (io, if d.on SYS.IRQ_PIN.POL then !irqAny d else irqAny d)

/-! ## Computed status (R412, R429, R430) -/

/-- PWR.HEAD.ON_x: the head is enabled, the module is in RUN, and the supply has not tripped. -/
def headOn (d : Dev) (n : Fin 2) : Bool := d.on (THERM.CTL.EN n) && d.rd PWR.STATUS.LP == 0 && !d.pw.tripped.contains n.val

/-- A port is ACTIVE with an in-line route to a pipeline that is out of reset. -/
def inlineUp (d : Dev) : Bool :=
  (List.finRange 8).any fun (l : Fin 8) =>
    !bitOf (d.rd RST.UNIT_PIPE.MASK) l &&
      ((d.on (PIPE.ROUTE_IL.A_EN l) && d.rd (PORT.LINK_STAT.STATE (4 * (l.val / 2) + d.rd (PIPE.ROUTE_IL.A_PORT l))) == 5) ||
        (d.on (PIPE.ROUTE_IL.B_EN l) && d.rd (PORT.LINK_STAT.STATE (4 * (l.val / 2) + d.rd (PIPE.ROUTE_IL.B_PORT l))) == 5))

/-- SERVICE by Table 19.7. -/
def service (d : Dev) : Nat :=
  if !d.up || !d.pw.started || !d.on CLK.STATUS.REF_OK || !d.on CLK.STATUS.ROOT_LOCK || d.on THM.STATUS.SENSE_FAIL then 0
  else
    let src := (d.gen.fo.map fun (k : Fin 4) => k.val).getD (d.rd TRIG.CTL.SRC)
    if d.rd PWR.STATUS.LP == 0 && inlineUp d && d.on SEG.CTL.EN && d.on TRIG.STAT.RUNNING &&
        (d.rd TRIG.CTL.MODE == 2 || d.on (ENC.CFG.MODE src)) then 2 else 1

/-- The conditions of FAULT_CFG.MASK that are present. -/
def faultPresent (d : Dev) : Nat :=
  let bit (k : Nat) (b : Bool) : Nat := if b then 2 ^ k else 0
  bit 0 (d.on MEM.STATUS.DEGRADED) + bit 1 (bitOf (d.rd THM.STATUS.DIE) 1 || bitOf (d.rd THM.STATUS.BRD) 1) +
    bit 2 (bitOf (d.rd THM.STATUS.DIE) 0 || bitOf (d.rd THM.STATUS.BRD) 0) +
    bit 3 ((List.range 16).any fun c => d.on (VALVE.FAULT.CAUSE c)) + bit 4 (d.on TWIN.CTL.EN && !d.on TWIN.STATUS.MIRRORED) +
    bit 5 (d.inRing && d.rd STRING.STATUS.RING_STATE != 2) + bit 6 (d.on PWR.STATUS.SHED) + bit 7 (d.on THM.SITE_BAD.MASK)

/-- The FAULT relay is closed. -/
def faultClosed (d : Dev) : Bool :=
  decide (clampN 1 2 (d.rd PWR.FAULT_CFG.MIN_SERVICE) ≤ service d) && Nat.land (faultPresent d) (d.rd PWR.FAULT_CFG.MASK) == 0

/-- HB_TIMEOUT in µs; with a splitter port it is at most 3 (Table 15.10). -/
def hbTimeout (d : Dev) : Nat :=
  let v := d.rd TWIN.CFG.HB_TIMEOUT
  if (List.range 16).any fun p => d.rd (PORT.LINK_CFG.HOMING p) == 2 then min 3 v else v

/-- PAIR_HB: one has arrived within HB_TIMEOUT. -/
def pairHbFresh (d : Dev) : Bool := d.ring.pairHb.elim false fun t => decide (d.now ≤ t + 16000 * hbTimeout d)

/-- STAGE of a page put into the register file: the writes of the next set, the frozen set and the epoch it is armed for. -/
def stageShow (d : Dev) (p : Nat) : Dev :=
  let frozen := d.ep.frozen.isSome && (pageKind p).elim false PageKind.staged
  ((d.wrB (Com.STAGE_PENDING p) (d.ep.next.any fun q => q.1.page == p)).wrB (Com.STAGE_FROZEN p) frozen).wr (Com.EPOCH_TAG p)
    (if frozen then d.ep.id else 0)

/-- What a page's computed fields show, put into the register file. -/
def commonView (d : Dev) (p : Nat) : Dev :=
  let d := stageShow (d.wr (Com.IRQ_STAT p) (d.irqStat p)) p
  match (pageKind p).elim 0 PageKind.type with
  | 0x01 => ((List.range 8).foldl (fun d k => d.wr (SYS.IRQ_SUM.PAGES k) (irqSumWord d k)) d).wrB SYS.STATUS.IRQ_ANY (irqAny d)
  | 0x03 => (((d.wrB PWR.HEAD.ON_A (headOn d 0)).wrB PWR.HEAD.ON_B (headOn d 1)).wr PWR.FAULT_STAT.PRESENT (faultPresent d)).wrB
      PWR.FAULT_STAT.CLOSED (faultClosed d)
  | 0x09 => ((d.wr MGMT.STATUS.SERVICE (service d)).wr MGMT.STATUS.DEGRADED (d.rd MEM.STATUS.DEGRADED)).wrB MGMT.STATUS.STANDBY d.isStandby
  | 0x48 => d.wrB MARK.STATUS.STANDBY d.isStandby
  | 0x4a => d.wr (VALVE.STATUS.STATE (p - 0x70)) (valveState d (Fin.ofNat 16 (p - 0x70)))
  | 0x60 => d.wrB TWIN.STATUS.PAIR_HB (pairHbFresh d)
  | 0x61 => d.wrB STRING.STATUS.PUPPETEER d.isPuppeteer
  | _ => d

/-! ## Snapshots (R30) -/

/-- The fields of a page that a snapshot copies: RO status fields and counters. -/
def roFields (fs : List Fld) : List Fld := fs.filter fun f => f.acc == .ro

/-- The read-only fields among `fs` copied into the snapshot. -/
def Dev.snapCopy (d : Dev) (fs : List Fld) : Dev :=
  { d with snap := { d.snap with copy := (roFields fs).foldl (fun c f => RegFile.set c f.key (d.rd f) (2 ^ 32)) d.snap.copy } }

/-- A field as a snapshot shows it: the copy of an RO field, any other live. -/
def snapGet (d : Dev) (f : Fld) : Nat := if f.acc = .ro then d.snap.copy.get f.key f.reset else d.rd f

/-- A request for line `s`, or for the line after the next trigger. -/
def snapAsk (d : Dev) (next : Bool) (s : Nat) : Dev :=
  let d1 := (d.wr WEB.SNAP_STATUS.PENDING 1).wr WEB.SNAP_STATUS.VALID 0
  { d1 with snap := ⟨next, s, [], [], d.snap.jobs⟩ }

/-- A request; with RING it is made on the Puppeteer, which carries it round once its line is known. -/
def snapStart (d : Dev) (next : Bool) (s : Nat) (ring : Bool) : Dev :=
  if !ring then snapAsk d next s
  else if !d.isPuppeteer then d
  else if next then snapAsk d true 0
  else ((snapAsk d false s).toRing .snap [(s : Int)]).toStandby .snap [(s : Int)]

/-- The snapshot is given up. -/
def snapDrop (d : Dev) : Dev :=
  let d1 := (d.wr WEB.SNAP_STATUS.VALID 0).wr WEB.SNAP_STATUS.PENDING 0
  { d1 with snap := ⟨false, 0, [], [], d.snap.jobs⟩ }

/-- A frame sent on a host port: counted. -/
def sendFrame (d : Dev) (port kind : Nat) (body : List Nat) : Dev :=
  (d.emit (.frame port kind body)).inc (if port = 0 then HOST.TX_FRAMES_HA.CNT else HOST.TX_FRAMES_HB.CNT)

/-- The IPv4 address of a port; 0 turns IP off. -/
def portIp (d : Dev) (p : Nat) : Nat := if p = 0 then d.rd HOST.IP_HA.IP else d.rd HOST.IP_HB.IP

/-- Where a port sends what is for an address: to the address itself within its own net, else to the gateway (PRESUMED, log entry
136). -/
def nextHop (d : Dev) (p ip : Nat) : Nat :=
  let m := d.rd HOST.NETMASK.IP
  if Nat.land ip m = Nat.land (portIp d p) m then ip else d.rd HOST.GATEWAY.IP

/-- A frame goes to a session's host: the cache entry it is sent by is in use (R293). -/
def arpUse (d : Dev) (p j : Nat) : Dev :=
  let hop := nextHop d p (d.rd (HOST.SESS_IP.IP j))
  { d with host := { d.host with arp := d.host.arp.map fun e => if e.port == p && e.ip == hop then { e with used := d.now } else e } }

/-- An answer to request `seq` of session `j` on a port, kept for a repeat (R299). -/
def answer (d : Dev) (port j seq : Nat) (fs : List (Nat × List Nat)) : Dev :=
  let k : Fin 4 := Fin.ofNat 4 j
  let d1 := fs.foldl (fun d f => sendFrame (arpUse d port j) port f.1 (d.rd (HOST.SESS_ID.ID j) :: seq :: f.2)) d
  let keep (s : Sess) : Sess := { s with kept := (seq, fs) :: (s.kept.filter fun e => e.1 != seq).take 15 }
  { d1 with host := { d1.host with sess := d1.host.sess.set k (keep d1.host.sess[k]) } }

/-- The SNAP_DATA frames of a read-out: at most 360 words each, the last with LAST (Table 13.5). -/
def snapFrames (d : Dev) (rs : List (Nat × Nat)) : List (Nat × List Nat) :=
  let w := d.snap.target
  let e := d.rd WEB.SNAP_STATUS.EPOCH_ID
  let parts := rs.zipIdx.flatMap fun r =>
    (List.range ((r.1.2 + 359) / 360)).map fun i =>
      (r.2, 360 * i, (List.range (min 360 (r.1.2 - 360 * i))).map fun t => wordOf (snapGet d) (r.1.1 + 4 * (360 * i + t)))
  parts.zipIdx.map fun p => (0x21, [0, b2n (p.2 + 1 == parts.length), w, e, p.1.1, p.1.2.1] ++ p.1.2.2)

/-- Requests that waited for the read-out to end: those of the registers start at once, the next read-out after them. -/
def snapNextJob : List SnapJob → Dev → Dev
  | [], d => { d with snap := { d.snap with jobs := [] } }
  | j :: rest, d =>
    if j.sess.isSome then snapStart { d with snap := { d.snap with jobs := j :: rest } } j.next j.target j.ring
    else snapNextJob rest (snapStart { d with snap := { d.snap with jobs := rest } } j.next j.target j.ring)

/-- The read-out that runs is answered once the pages of its ranges are copied (R302). -/
def snapAnswer (d : Dev) : Dev :=
  match d.snap.jobs with
  | [] => d
  | j :: rest =>
    match j.sess with
    | none => d
    | some (k, seq) =>
      if !d.on WEB.SNAP_STATUS.VALID || j.ranges.any fun r => d.snap.wait.any fun q => q % 4096 == r.1 / 4096 then d
      else
        let d1 := answer d (d.rd (HOST.SESS_STAT.CUR k)) k seq (snapFrames d j.ranges)
        snapNextJob rest (if j.release then snapDrop d1 else d1)

/-- A request of the registers: it waits while a read-out runs. -/
def snapRequest (d : Dev) (next : Bool) (s : Nat) (ring : Bool) : Dev :=
  if d.snap.jobs.isEmpty then snapStart d next s ring
  else { d with snap := { d.snap with jobs := d.snap.jobs ++ [⟨none, next, s, ring, false, []⟩] } }

/-- A per-line counter (R30) as Tables 3.12, 4.6, 5.8, 7.5, 8.7, 9.10, 9.11, 10.6 and 11.10 list them, by its offset in its page. -/
def lineCounter (f : Fld) : Bool :=
  let o := f.addr % 4096
  let within (lo hi : Nat) : Bool := decide (lo ≤ o) && decide (o ≤ hi)
  match (pageKind f.page).elim 0 PageKind.type with
  | 0x20 => within 0xA0 0xDC
  | 0x28 => within 0x80 0xA8
  | 0x29 => within 0x160 0x170 || within 0x260 0x270
  | 0x38 => within 0x80 0x98 || (decide (0x100 ≤ o) && o % 64 == 0x30)
  | 0x40 => within 0xB0 0xD8
  | 0x41 => within 0x50 0x58 || within 0x100 0x1FC
  | 0x42 => within 0x60 0x7C
  | 0x48 => within 0x84 0xA0
  | 0x50 => within 0xA0 0xDC
  | _ => false

/-- The first data of line `w` reaches the block of page `p`, whose fields are `fs`: its per-line counters are copied when the line
is the target line or later and the page still waits. What else the page shows was copied at the trigger. A key of 4096 or
more names a bank of a page: bank j of page q has the key q + 4096 j. -/
def Dev.snapReach (d : Dev) (p : Nat) (w : Nat) (fs : List Fld) : Dev :=
  if d.snap.wait.contains p && decide (d.snap.target ≤ w) then
    let d1 := d.snapCopy (fs.filter lineCounter)
    snapAnswer { d1 with snap := { d1.snap with wait := d1.snap.wait.filter fun q => q != p } }
  else d

end Sys2Proof.Machine
end

