-- ==== Sys2Proof/Machine/Camera.lean ====
section
/-! DEFINITION. Camera links (spec/03_camera_links.md): training, packets and lines, credits, the backchannel, settings and
camera registers. -/

namespace Sys2Proof.Machine

/-! ## PORT_FLAGS (R70) and link states (Table 3.4) -/

def PF.missing : Nat := 0
def PF.linkDown : Nat := 1
def PF.hdrErr : Nat := 2
def PF.crcErr : Nat := 3
def PF.short : Nat := 4
def PF.overlen : Nat := 5
def PF.format : Nat := 6
def PF.feMissing : Nat := 7
def PF.trigLate : Nat := 8
def PF.overrun : Nat := 9
def PF.snoopDrop : Nat := 10

def LS.disabled : Nat := 0
def LS.acquire : Nat := 1
def LS.caps : Nat := 2
def LS.switch : Nat := 3
def LS.equalize : Nat := 4
def LS.active : Nat := 5
def LS.failed : Nat := 6
def LS.snoop : Nat := 7

/-- The training state of a port. -/
def linkState (d : Dev) (p : Nat) : Nat := d.rd (PORT.LINK_STAT.STATE p)

/-- HOMING with 3 acting as 0. -/
def homing (d : Dev) (p : Nat) : Nat := d.rd (PORT.LINK_CFG.HOMING p) % 3

/-- The number of active lanes (coded 0 one, 1 two, 2 four). -/
def activeLanes (d : Dev) (p : Nat) : Nat := 2 ^ d.rd (PORT.LINK_STAT.LANES p)

/-- One block's time in 1/16 ns at a rate code (R53): 21.12, 10.56, 6.40 and 5.28 ns, in hundredths of 1/16 ns. -/
def blockTime100 (rate : Nat) : Nat := [33792, 16896, 10240, 8448].getD rate 33792

/-! ## Lines -/

/-- The lines of a port. -/
def Dev.lines (d : Dev) (p : Fin 16) : List PLine := d.ports[p].lines

/-- The line of a port with a WLN. -/
def findLine (d : Dev) (p : Fin 16) (w : Nat) : Option PLine := (d.lines p).find? fun l => l.trig.wln == w

/-- The line with a WLN rewritten. -/
def updLine (d : Dev) (p : Fin 16) (w : Nat) (g : PLine → PLine) : Dev :=
  d.updPort p fun q => { q with lines := q.lines.map fun l => if l.trig.wln == w then g l else l }

/-- A flag of a line set. -/
def flagLine (d : Dev) (p : Fin 16) (w b : Nat) : Dev := updLine d p w fun l => { l with flags := setBit l.flags b }

/-- The routes of a configuration set (R82): the pipeline and context that carry a port, in ascending pipeline order. -/
def routeOf (d : Dev) (epoch : Nat) (p : Fin 16) : Option (Fin 8 × Ctx) :=
  allPipes.findSome? fun (l : Fin 8) =>
    let own (v : Nat) : Bool := p.val == 4 * (l.val / 2) + v
    if d.cfg epoch (PIPE.ROUTE_IL.A_EN l) != 0 && own (d.cfg epoch (PIPE.ROUTE_IL.A_PORT l)) then some (l, .a)
    else if d.cfg epoch (PIPE.ROUTE_IL.B_EN l) != 0 && own (d.cfg epoch (PIPE.ROUTE_IL.B_PORT l)) then some (l, .b)
    else if bitOf (d.cfg epoch (PIPE.ROUTE_MR.MR_MASK l)) p.val then some (l, .m)
    else none

/-- The slots of a line leave the port buffer and the line is forgotten by the port (R71, R84). -/
def releaseLine (d : Dev) (p : Fin 16) (w : Nat) : Dev :=
  let b := (findLine d p w).elim 0 PLine.blocks
  let d1 := d.wr (PORT.BUF_USED.B p) (d.rd (PORT.BUF_USED.B p) - b)
  d1.updPort p fun q => { q with lines := q.lines.filter fun l => l.trig.wln != w
                                 cur := if q.cur == some w then none else q.cur }

/-- Only the buffer slots of a line released; its pixels stay with the pipeline. -/
def releaseBlocks (d : Dev) (p : Fin 16) (w : Nat) : Dev :=
  let b := (findLine d p w).elim 0 PLine.blocks
  let d1 := d.wr (PORT.BUF_USED.B p) (d.rd (PORT.BUF_USED.B p) - b)
  updLine d1 p w fun l => { l with blocks := 0 }

/-- A pipeline has all it needs of a line: it refused it a slot, or the line has landed (R87, R94). -/
def lineTaken (d : Dev) (p : Fin 16) (w : Nat) : Bool :=
  allPipes.any fun l =>
    d.pipes[l].notices.any (fun o => o.port == p.val && o.trig.wln == w) ||
    d.pipes[l].slots.any fun s => s.port == p.val && s.trig.wln == w && s.landed.isSome

/-- Whether a pipeline still holds or expects a line: a slot, a notice, a reservation to come, or a trigger on its way. -/
def lineExpected (d : Dev) (p : Fin 16) (w : Nat) : Bool :=
  allPipes.any fun l =>
    let q := d.pipes[l]
    q.slots.any (fun s => s.port == p.val && s.trig.wln == w && !s.tailIn) ||
    q.resQ.any (fun r => r.1 == p.val && r.2.wln == w) || q.notices.any (fun o => o.port == p.val && o.trig.wln == w) ||
    (q.trigQ.any (fun t => t.wln == w) && ((routeOf d ((findLine d p w).elim 0 fun x => x.trig.epoch) p).map Prod.fst == some l))

/-- LINE_CLOSE (R67, R68, R70): the flags of the closing are set, the line is filled to LINE_LEN, counted, and discarded at
once when no pipeline takes it (R84). A MISSING line holds no slot of the port buffer: its pixels are a fill (R68, R73). -/
def closeLine (d : Dev) (p : Fin 16) (w : Nat) (flags : List Nat) : Dev :=
  match findLine d p w with
  | none => d
  | some l =>
    if l.closed.isSome then d
    else
      let len := d.cfg l.trig.epoch (PORT.LINE_LEN.LEN p)
      let missing := flags.contains PF.missing
      let short := !missing && decide (l.pix.length < len)
      let fl := flags.foldl setBit l.flags
      let fl := if short then setBit fl PF.short else fl
      let d := d.snapReach (Page.PORT p) w (PORT.fields p)
      let d1 := updLine d p w fun x =>
        { x with flags := fl
                 closed := some d.now
                 pix := if missing then List.replicate len 0 else (x.pix ++ List.replicate (len - x.pix.length) 0).take len }
      let d1 := d1.updPort p fun q => { q with cur := if q.cur == some w then none else q.cur }
      let d1 := if missing then (releaseBlocks d1 p w).inc (PORT.MISSING_CNT.CNT p) else d1
      let d1 := if short then d1.inc (PORT.FORMAT_CNT.CNT p) else d1
      let d1 := if flags.contains PF.feMissing then d1.inc (PORT.FORMAT_CNT.CNT p) else d1
      let d1 := if fl != 0 then (d1.inc (PORT.LINES_FLAGGED.CNT p)).irq (Page.PORT p) PORT.irq.LINE_FLAGGED
                else d1.inc (PORT.LINES_OK.CNT p)
      if lineExpected d1 p w then (if lineTaken d1 p w then releaseBlocks d1 p w else d1)
      else
        let d2 := if (routeOf d1 l.trig.epoch p).isNone && d1.on (PORT.LINK_CFG.EN p)
                  then d1.inc (PIPE.UNROUTED_CNT.CNT 0) else d1
        releaseLine d2 p w

/-- Every line not yet closed closes with the given flags, oldest first. -/
def closeAll (d : Dev) (p : Fin 16) (flags : List Nat) : Dev :=
  ((d.lines p).filter fun l => l.closed.isNone).foldl (fun d l => closeLine d p l.trig.wln flags) d

/-! ## Credits (R71 to R73) -/

/-- The blocks a packet or message of `n` bytes occupies (R59). -/
def packetBlocks (n : Nat) : Nat := if n < 7 then 2 else 2 + (n - 7) / 8

/-- The grant still unused: 32 × G − R, read as a signed 32-bit difference. -/
def grantLeft (d : Dev) (p : Nat) : Int :=
  toSigned 32 (ofSigned 32 (32 * (d.rd (PORT.CREDIT_G.G p) : Int) - d.rd (PORT.CREDIT_R.R p)))

/-- The book restarts at G = 2,048 and R = 0 (R73), less what complete lines still occupy. -/
def restartCredits (d : Dev) (p : Fin 16) : Dev :=
  let d1 := (d.wr (PORT.CREDIT_G.G p) 0).wr (PORT.CREDIT_R.R p) 0
  let held := (d.rd (PORT.BUF_USED.B p) + 31) / 32
  d1.wr (PORT.CREDIT_G.G p) (2048 - held)

/-- A CREDIT block leaves the port. -/
def sendCredit (d : Dev) (p : Fin 16) : Dev :=
  let g := d.rd (PORT.CREDIT_G.G p)
  (d.emit (.credit p.val (g % 65536))).updPort p fun q => { q with lastG := g }

/-- CREDIT_G_UPDATE (R71): G rises to 2,048 + floor((R − B) / 32); it never falls. A CREDIT block leaves when G has risen by 16 since
the last one. A splitter standby grants no credit (R79). -/
def creditGUpdate (p : Fin 16) (d : Dev) : Dev :=
  if linkState d p == LS.snoop then d
  else
    let spare := 65536 - (d.rd (PORT.BUF_USED.B p) : Int) - grantLeft d p
    let d1 := d.wr (PORT.CREDIT_G.G p) (d.rd (PORT.CREDIT_G.G p) + (spare / 32).toNat)
    if linkState d p == LS.active && decide (d.ports[p].lastG + 16 ≤ d1.rd (PORT.CREDIT_G.G p)) then sendCredit d1 p else d1

/-- Payload blocks enter the book; a discarded packet's are released at once. -/
def countBlocks (d : Dev) (p : Fin 16) (k : Nat) : Dev := d.wr (PORT.CREDIT_R.R p) (d.rd (PORT.CREDIT_R.R p) + k)

/-- The blocks of one packet or message of `n` bytes enter the book. Answers whether the packet is kept: in ACTIVE a packet
beyond the grant is discarded whole (R73); a splitter standby has no grant of its own and keeps what its buffer holds (R79). -/
def receive (d : Dev) (p : Fin 16) (n : Nat) : Bool × Dev :=
  let k := packetBlocks n
  let d1 := countBlocks d p k
  if linkState d p == LS.active then (decide ((k : Int) ≤ grantLeft d p), d1)
  else if linkState d p == LS.snoop then (decide (d.rd (PORT.BUF_USED.B p) + k ≤ 65536), d1)
  else (true, d)

/-- A packet beyond the grant (R73): the line it belongs to is flagged OVERRUN and the violation counted. On a splitter standby the line
of an image packet is discarded instead, flagged MISSING and SNOOP_DROP (R79). -/
def creditViolation (d : Dev) (p : Fin 16) (own : Option Nat) (image : Bool) : Dev :=
  if linkState d p == LS.snoop then
    match own with
    | some w => if image then (closeLine d p w [PF.missing, PF.snoopDrop]).inc (PORT.SNOOP_DROP_CNT.CNT p) else d
    | none => d
  else
    let d1 := match own with
      | some w => flagLine d p w PF.overrun
      | none => d
    (d1.inc (PORT.CREDIT_VIOL_CNT.CNT p)).irq (Page.PORT p) PORT.irq.CREDIT_VIOL

/-- The blocks of a kept packet of the open line occupy the buffer until the line is released. -/
def holdBlocks (d : Dev) (p : Fin 16) (w n : Nat) : Dev :=
  let k := packetBlocks n
  (updLine d p w fun l => { l with blocks := l.blocks + k }).wr (PORT.BUF_USED.B p) (d.rd (PORT.BUF_USED.B p) + k)

/-- A link message of the camera with `n` payload bytes enters the credit book; its blocks are released at once. -/
def receiveMsg (d : Dev) (p : Fin 16) (n : Nat) : Dev := (receive d p (8 + n)).2

/-! ## Training (R63 to R65) -/

/-- The port returns to 3.125 Gb/s on lane 0 and to ACQUIRE. -/
def toAcquire (d : Dev) (p : Fin 16) : Dev :=
  let d1 := (((d.wr (PORT.LINK_STAT.STATE p) LS.acquire).wr (PORT.LINK_STAT.RATE p) 0).wr (PORT.LINK_STAT.LANES p) 0).wr
    (PORT.LINK_STAT.VER p) 0
  d1.updPort p fun q => { q with hellos := 0, chosen := none, accepted := false, readyGot := false, readySent := false
                                 eyeGot := false, ctleDone := false }

/-- Leaving ACTIVE: open lines close with LINK_DOWN, the credit book restarts, the exit is counted. -/
def leaveActive (d : Dev) (p : Fin 16) : Dev :=
  let d1 := closeAll d p [PF.missing, PF.linkDown]
  ((restartCredits d1 p).inc (PORT.LINK_DOWN_CNT.CNT p)).irq (Page.PORT p) PORT.irq.LINK_DOWN

/-- Loss of signal or of block lock on an active lane drops an ACTIVE link to ACQUIRE. -/
def dropIfActive (d : Dev) (p : Fin 16) (k : Nat) : Dev :=
  if linkState d p == LS.active && decide (k < activeLanes d p) then toAcquire (leaveActive d p) p else d

/-- The module's HELLO leaves the port (R62). -/
def sendHello (d : Dev) (p : Fin 16) : Dev := d.emit (.cam p.val .hello [3, 15, 7, 0, 32768, 0, 0, 0, 0, 0, 0])

/-- Setting LINK_CFG.EN (Table 3.4, row 0). -/
def portEnable (p : Fin 16) (d : Dev) : Dev :=
  let d1 := d.wr (PORT.LINK_CFG.EN p) 1
  if linkState d p != LS.disabled then d1
  else if homing d p == 2 && d.isStandby then d1.wr (PORT.LINK_STAT.STATE p) LS.snoop
  else toAcquire (d1.emit (.camTx p.val true)) p

/-- Clearing LINK_CFG.EN: transmitter off, open lines closed with LINK_DOWN. -/
def portDisable (p : Fin 16) (d : Dev) : Dev :=
  let d1 := d.wr (PORT.LINK_CFG.EN p) 0
  if linkState d p == LS.disabled then d1
  else
    let d2 := d1.emit (.camTx p.val false)
    let d3 := if linkState d p == LS.active then leaveActive d2 p else closeAll d2 p [PF.missing, PF.linkDown]
    (toAcquire d3 p).wr (PORT.LINK_STAT.STATE p) LS.disabled

/-- A write of LINK_CFG.RETRAIN (R63): acts on an enabled port outside DISABLED. A port in SNOOP keeps its transmitter off
(R79) and stays in SNOOP (log entry 12). -/
def retrain (p : Fin 16) (d : Dev) : Dev :=
  let st := linkState d p
  if !d.on (PORT.LINK_CFG.EN p) || st == LS.disabled || st == LS.snoop then d
  else if st == LS.active then toAcquire (leaveActive d p) p
  else if st == LS.failed then toAcquire (d.updPort p fun q => { q with excl := [], fails := [0, 0, 0, 0] }) p
  else toAcquire d p

/-- LANE_LOS (R56). -/
def laneLos (p : Fin 16) (k : Fin 4) (d : Dev) : Dev :=
  let d1 := if d.on (LANE.STAT.LOS p k) then d else d.inc (LANE.LOS_CNT.CNT p k)
  dropIfActive (d1.wr (LANE.STAT.LOS p k) 1) p k

/-- BLOCK_LOCK_GAINED (R56): on lane 0 in ACQUIRE the port sends HELLO and enters CAPS. Block lock shows that the lane has
signal and CDR lock (log entry 13). -/
def blockLockGained (p : Fin 16) (k : Fin 4) (d : Dev) : Dev :=
  let d1 := ((d.wr (LANE.STAT.BLOCK_LOCK p k) 1).wr (LANE.STAT.CDR_LOCK p k) 1).wr (LANE.STAT.LOS p k) 0
  if k = 0 && linkState d p == LS.acquire then
    (sendHello (d1.wr (PORT.LINK_STAT.STATE p) LS.caps) p).updPort p fun q => { q with hellos := 0 }
  else d1

/-- BLOCK_LOCK_LOST (R56, R60). -/
def blockLockLost (p : Fin 16) (k : Fin 4) (cdr : Bool) (d : Dev) : Dev :=
  let d1 := (d.wr (LANE.STAT.BLOCK_LOCK p k) 0).wr (LANE.STAT.ALIGNED p k) 0
  let d1 := if cdr then d1.wr (LANE.STAT.CDR_LOCK p k) 0 else d1
  dropIfActive d1 p k

/-- A lane deskewed by ALIGN: up to 32 blocks of skew are tolerated; a lane beyond is not aligned, and SKEW keeps its value (log
entry 126). -/
def deskew (p : Fin 16) (skews : List Nat) (d : Dev) (k : Nat) : Dev :=
  let s := skews.getD k 0
  if s ≤ 32 then (d.wr (LANE.STAT.ALIGNED p k) 1).wr (LANE.STAT.SKEW p k) s else d.wr (LANE.STAT.ALIGNED p k) 0

/-- ALIGN (R60, R73): the lanes are deskewed and R is reconciled with USED. -/
def align (p : Fin 16) (used : Nat) (skews : List Nat) (d : Dev) : Dev :=
  let d1 := (List.range (activeLanes d p)).foldl (deskew p skews) d
  if linkState d p == LS.active || linkState d p == LS.snoop then
    if used % 2 ^ 32 == d.rd (PORT.CREDIT_R.R p) then d1
    else ((d1.wr (PORT.CREDIT_R.R p) used).inc (PORT.RESYNC_CNT.CNT p)).irq (Page.PORT p) PORT.irq.RESYNC
  else d1

/-- A port enters FAILED with a cause; the exclusions clear (R64). -/
def enterFailed (d : Dev) (p : Fin 16) (cause : Nat) : Dev :=
  let d1 := (d.wr (PORT.LINK_STAT.STATE p) LS.failed).wr (PORT.LINK_STAT.FAIL_CAUSE p) cause
  (d1.irq (Page.PORT p) PORT.irq.FAILED).updPort p fun q => { q with excl := [], fails := [0, 0, 0, 0], chosen := none }

/-- The highest code below `n` for which `ok` holds. -/
def highest (n : Nat) (ok : Nat → Bool) : Option Nat := (List.range n).reverse.find? ok

/-- CHOOSE (R64): version, rate and lanes from the camera's capabilities, or FAILED with its cause. A homing that the version does not
carry is not supported (Table 3.5). -/
def choose (d : Dev) (p : Fin 16) : Dev :=
  let vmax := max 1 (d.rd (PORT.LINK_CFG.VER_MAX p))
  let ver := min 3 (min (d.rd (PORT.CAM_CAP0.MAX_VER p)) vmax)
  let rmax := min 3 (d.rd (PORT.LINK_CFG.RATE_MAX p))
  let lmax := min 2 (d.rd (PORT.LINK_CFG.LANE_MAX p))
  let flags := d.rd (PORT.CAM_CAP0.FLAGS p)
  let offered (r : Nat) : Bool :=
    bitOf (d.rd (PORT.CAM_CAP0.RATE_MASK p)) r && decide (r ≤ rmax) && decide (ver ≠ 0) && (decide (2 ≤ ver) || decide (r ≤ 1))
  let lanes := highest 3 fun l => bitOf (d.rd (PORT.CAM_CAP0.LANE_MASK p)) l && decide (l ≤ lmax)
  match highest 4 offered, lanes with
  | none, _ => enterFailed d p 1
  | _, none => enterFailed d p 1
  | some _, some l =>
    match highest 4 fun r => offered r && !(d.ports[p].excl.contains r) with
    | none => enterFailed d p 2
    | some r =>
      if (homing d p == 1 && !(ver == 3 && bitOf flags 1)) || (homing d p == 2 && !(decide (2 ≤ ver) && bitOf flags 0)) then enterFailed d p 3
      else
        let d1 := (d.emit (.cam p.val .choose [ver, r, l, 2048])).updPort p fun q =>
          { q with chosen := some (ver, r, l), accepted := false }
        ((d1.wr (PORT.LINK_STAT.STATE p) LS.switch).wr (PORT.LINK_STAT.VER p) ver).wr (PORT.LINK_STAT.FAIL_CAUSE p) 0

/-- A failed attempt (R64): the fourth at one rate excludes that rate; the port returns to ACQUIRE. -/
def failedAttempt (d : Dev) (p : Fin 16) : Dev :=
  let d1 := d.wrSat (PORT.LINK_STAT.ATTEMPTS p) (d.rd (PORT.LINK_STAT.ATTEMPTS p) + 1)
  let d2 := match d.ports[p].chosen with
    | none => d1
    | some (_, r, _) =>
      let n := d.ports[p].fails.getD r 0 + 1
      d1.updPort p fun q =>
        if 4 ≤ n then { q with excl := r :: q.excl, fails := q.fails.set r 0 } else { q with fails := q.fails.set r n }
  toAcquire d2 p

/-- The camera's capabilities into CAM_CAP0, CAM_CAP1 and CAM_ID (R62). -/
def storeCaps (d : Dev) (p : Fin 16) (c : CamCaps) : Dev :=
  let d1 := ((((d.wr (PORT.CAM_CAP0.MAX_VER p) c.maxVer).wr (PORT.CAM_CAP0.RATE_MASK p) c.rateMask).wr
    (PORT.CAM_CAP0.LANE_MASK p) c.laneMask).wr (PORT.CAM_CAP0.FLAGS p) c.flags).wr (PORT.CAM_CAP0.MAX_LINE p) c.maxLine
  let d2 := (d1.wr (PORT.CAM_CAP1.SET_DELAY p) c.setDelay).wr (PORT.CAM_CAP1.TRIG_LAT p) c.trigLat
  (List.range 4).foldl (fun d k => d.wr (PORT.CAM_ID.ID p k) (c.ids.getD k 0)) d2

/-- CAM_HELLO (R63). In CAPS the port chooses; in SWITCH, EQUALIZE and ACTIVE it first sends its own HELLO; a splitter
standby only reads it (R79). -/
def camHello (p : Fin 16) (c : CamCaps) (d : Dev) : Dev :=
  let st := linkState d p
  let d := receiveMsg d p 26
  if st == LS.caps then choose (storeCaps d p c) p
  else if st == LS.switch || st == LS.equalize then choose (sendHello (toAcquire (storeCaps d p c) p) p) p
  else if st == LS.active then choose (sendHello (toAcquire (leaveActive (storeCaps d p c) p) p) p) p
  else if st == LS.snoop then storeCaps d p c
  else d

/-- CAPS_TIMEOUT (Table 3.4): up to four resends of HELLO, then ACQUIRE. -/
def capsTimeout (p : Fin 16) (d : Dev) : Dev :=
  if linkState d p != LS.caps then d
  else if d.ports[p].hellos < 4 then (sendHello d p).updPort p fun q => { q with hellos := q.hellos + 1 }
  else toAcquire d p

/-- ACCEPT (Table 3.4): equal to CHOOSE it leads to the rate switch after 256 IDLE blocks. -/
def accept (p : Fin 16) (ver rate lanes credits : Nat) (d : Dev) : Dev :=
  let st := linkState d p
  let d := receiveMsg d p 5
  if st == LS.switch then
    if d.ports[p].chosen == some (ver, rate, lanes) && credits == 2048 then
      (d.emit (.camIdle p.val 256)).updPort p fun q => { q with accepted := true }
    else failedAttempt d p
  else if st == LS.snoop then
    ((d.wr (PORT.LINK_STAT.VER p) ver).wr (PORT.LINK_STAT.RATE p) rate).wr (PORT.LINK_STAT.LANES p) lanes
  else d

/-- Where CTLE adaptation of a lane starts: from the reset value, or from the peaking last adapted when LANE_WARN marks the lane (Table
18.6). -/
def ctleStart (p : Fin 16) (k : Nat) (d : Dev) : Dev :=
  let u := 4 * p.val + k
  let warned := if u < 32 then bitOf (d.rd AGE.LANE_WARN_LO.MASK) u else bitOf (d.rd AGE.LANE_WARN_HI.MASK) (u - 32)
  let f := LANE.RX_EQ.CTLE p k
  if d.on (LANE.RX_EQ.ADAPT p k) then d.wr f (if warned then d.ports[p].peak.getD k f.reset else f.reset) else d

/-- RATE_SWITCH: the chosen rate and lane count take over, every active lane locks again, and the module sends READY
at once (log entry 127). -/
def rateSwitch (p : Fin 16) (d : Dev) : Dev :=
  match d.ports[p].chosen with
  | none => d
  | some (_, r, l) =>
    if linkState d p != LS.switch || !d.ports[p].accepted then d
    else
      let d1 := ((d.wr (PORT.LINK_STAT.STATE p) LS.equalize).wr (PORT.LINK_STAT.RATE p) r).wr (PORT.LINK_STAT.LANES p) l
      let d2 := (List.range (2 ^ l)).foldl
        (fun d k => ctleStart p k (((d.wr (LANE.STAT.BLOCK_LOCK p k) 0).wr (LANE.STAT.ALIGNED p k) 0).wr (LANE.EYE.VALID p k) 0)) d1
      (d2.emit (.cam p.val .ready [])).updPort p fun q =>
        { q with readySent := true, readyGot := false, eyeGot := false, ctleDone := false }

/-- SWITCH_TIMEOUT. -/
def switchTimeout (p : Fin 16) (d : Dev) : Dev :=
  if linkState d p == LS.switch && !d.ports[p].accepted then failedAttempt d p else d

/-- CAM_READY. -/
def camReady (p : Fin 16) (d : Dev) : Dev :=
  let d := receiveMsg d p 0
  if linkState d p == LS.equalize then d.updPort p fun q => { q with readyGot := true } else d

/-- An eye measurement at or above EYE_MIN (R57). -/
def eyePasses (d : Dev) (p k : Nat) : Bool :=
  d.on (LANE.EYE.VALID p k) && decide (d.rd (LANE.EYE_MIN.H_MIN p k) ≤ d.rd (LANE.EYE.H p k)) &&
  decide (d.rd (LANE.EYE_MIN.V_MIN p k) ≤ d.rd (LANE.EYE.V p k))

/-- Whether pre-emphasis adapts by EYE_REPORT on this link (Table 3.5). -/
def adaptsTx (d : Dev) (p : Nat) : Bool :=
  decide (2 ≤ d.rd (PORT.LINK_STAT.VER p)) && bitOf (d.rd (PORT.CAM_CAP0.FLAGS p)) 2 && d.on (LANE.TX_EQ.ADAPT p 0)

/-- Every EQUALIZE condition of Table 3.4. -/
def equalized (d : Dev) (p : Fin 16) : Bool :=
  d.ports[p].readyGot && d.ports[p].readySent && d.ports[p].ctleDone && (!adaptsTx d p || d.ports[p].eyeGot) &&
  (List.range (activeLanes d p)).all fun k =>
    d.on (LANE.STAT.BLOCK_LOCK p k) && d.on (LANE.STAT.ALIGNED p k) && eyePasses d p k

/-- ROLE (R78): the active module is primary from the next WLN. -/
def sendRole (d : Dev) (p : Fin 16) : Dev :=
  d.emit (.cam p.val .role [b2n d.isActive, d.gen.nextWln])

/-- LINK_ACTIVE (Table 3.4). -/
def linkActive (p : Fin 16) (d : Dev) : Dev :=
  if linkState d p == LS.equalize && equalized d p then
    let d1 := ((d.wr (PORT.LINK_STAT.STATE p) LS.active).wr (PORT.LINK_STAT.ATTEMPTS p) 0).wr (PORT.LINK_STAT.FAIL_CAUSE p) 0
    let d2 := sendCredit (restartCredits d1 p) p
    let d3 := if homing d p == 1 then sendRole d2 p else d2
    (d3.irq (Page.PORT p) PORT.irq.LINK_UP).updPort p fun q => { q with excl := [], fails := [0, 0, 0, 0] }
  else d

/-- EQUALIZE_TIMEOUT. -/
def equalizeTimeout (p : Fin 16) (d : Dev) : Dev := if linkState d p == LS.equalize then failedAttempt d p else d

/-- FAILED_RETRY: the exclusions clear. -/
def failedRetry (p : Fin 16) (d : Dev) : Dev :=
  if linkState d p == LS.failed then toAcquire (d.updPort p fun q => { q with excl := [], fails := [0, 0, 0, 0] }) p else d

/-- R54: PRE + POST never exceed 32; POST is reduced. -/
def txPost (pre post : Nat) : Nat := min post (32 - pre)

/-- EYE_REPORT (R65): the camera's backchannel eye adapts the pre-emphasis. The adaptation's result is not stated: the taps
take free values within the limit of R54 (log entry 14). -/
def eyeReport (p : Fin 16) (_h _v : Nat) (d : Dev) : Dev :=
  let d := receiveMsg d p 3
  if linkState d p == LS.equalize && adaptsTx d p then
    let (pre, d1) := d.free 4
    let (post, d2) := d1.free 5
    ((d2.wr (LANE.TX_EQ.PRE p 0) pre).wr (LANE.TX_EQ.POST p 0) (txPost pre post)).updPort p fun q => { q with eyeGot := true }
  else d

/-- One eye measurement: in EQUALIZE the first measurement follows CTLE adaptation, whose peaking is a free value on every lane
with ADAPT set; in ACTIVE an opening below EYE_MIN sets EYE_LOW, and the next measurement that passes clears it. The vertical opening
is held in steps of 4 mV (log entry 127). -/
def eyeTake (p : Fin 16) (k : Fin 4) (h v : Nat) (d : Dev) : Dev :=
  let d0 := if linkState d p == LS.equalize && !d.ports[p].ctleDone then
      ((List.range (activeLanes d p)).foldl (fun d j =>
        if d.on (LANE.RX_EQ.ADAPT p j) then
          let (c, d1) := d.free 4
          (d1.wr (LANE.RX_EQ.CTLE p j) c).updPort p fun q => { q with peak := q.peak.set j c }
        else d) d).updPort p fun q => { q with ctleDone := true }
    else d
  let d1 := ((d0.wrSat (LANE.EYE.H p k) h).wrSat (LANE.EYE.V p k) (v / 4 * 4)).wr (LANE.EYE.VALID p k) 1
  if linkState d p == LS.active then d1.wrB (LANE.STAT.EYE_LOW p k) (!eyePasses d1 p k) else d1

/-- Whether a measurement is due (R57): at training as often as the command comes, in ACTIVE once every EYE_PERIOD. -/
def eyeDue (p : Fin 16) (k : Fin 4) (d : Dev) : Bool :=
  linkState d p != LS.active || d.past (.eye (4 * p.val + k.val)) (d.rd (LANE.EYE_PERIOD.PERIOD p) * oneMs)

/-- A measurement that is due (R57). -/
def eyeMeasured (p : Fin 16) (k : Fin 4) (h v : Nat) (d : Dev) : Dev := eyeTake p k h v (d.start (.eye (4 * p.val + k.val)))

/-! ## Packets (R66 to R70) -/

/-- The EPOCH_ID under which an arriving packet is judged: the open line's, else the oldest outstanding trigger's, else the
live set's (R67). -/
def packetEpoch (d : Dev) (p : Fin 16) : Nat :=
  match d.ports[p].cur.bind (findLine d p) with
  | some l => l.trig.epoch
  | none =>
    match (d.lines p).find? fun l => l.closed.isNone with
    | some l => l.trig.epoch
    | none => d.rd WEB.EPOCH_ID.LIVE_ID

/-- Whether a packet's virtual channel is the image channel. -/
def onImage (d : Dev) (p : Fin 16) (vc : Nat) : Bool := vc == d.cfg (packetEpoch d p) (PORT.STREAM_CFG.IMG_VC p)

/-- A corrected header counts in HDR_CORR_CNT. -/
def countCorrected (d : Dev) (p : Fin 16) (c : Bool) : Dev := if c then d.inc (PORT.HDR_CORR_CNT.CNT p) else d

/-- FORMAT: counted, and the open line is flagged. -/
def formatError (d : Dev) (p : Fin 16) : Dev :=
  let d1 := d.inc (PORT.FORMAT_CNT.CNT p)
  match d.ports[p].cur with
  | some w => flagLine d1 p w PF.format
  | none => d1

/-- Whether the port receives camera packets. -/
def receiving (d : Dev) (p : Fin 16) : Bool := linkState d p == LS.active || linkState d p == LS.snoop

/-- A packet of `n` bytes arrives: its blocks enter the book, a corrected header and a payload CRC mismatch are counted. Answers whether
it is kept; `own` is the line it belongs to, `image` whether it is one of the image channel. -/
def packetIn (d : Dev) (p : Fin 16) (n : Nat) (corrected crcOk : Bool) (own : Option Nat) (image : Bool) : Bool × Dev :=
  let (kept, d1) := receive d p n
  let d2 := countCorrected d1 p corrected
  if kept then (true, if crcOk then d2 else d2.inc (PORT.CRC_ERR_CNT.CNT p)) else (false, creditViolation d2 p own image)

/-- The outstanding trigger that a Frame Start matches: the oldest whose WLN[15:0] equals its data field. -/
def startsLine (d : Dev) (p : Fin 16) (data : Nat) : Option PLine :=
  (d.lines p).find? fun l => l.closed.isNone && l.sent && l.trig.wln % 65536 == data

/-- FRAME_START (R67). -/
def frameStart (p : Fin 16) (vc data : Nat) (corrected : Bool) (d : Dev) : Dev :=
  if !receiving d p then d
  else
    let image := onImage d p vc
    let own := if image then (startsLine d p data).map fun l => l.trig.wln else d.ports[p].cur
    let (kept, d1) := packetIn d p 4 corrected true own image
    if !image || !kept then d1
    else
      match startsLine d1 p data with
      | none => (formatError d1 p).updPort p fun q => { q with dropToFs := true }
      | some l =>
        let earlier := (d1.lines p).filter fun x => x.closed.isNone && decide (x.trig.wln < l.trig.wln)
        let d2 := earlier.foldl (fun d x => closeLine d p x.trig.wln [if x.fs then PF.feMissing else PF.missing]) d1
        let d3 := updLine d2 p l.trig.wln fun x => { x with fs := true }
        let d3 := d3.snapReach (Page.PORT p) l.trig.wln (PORT.fields p)
        (holdBlocks d3 p l.trig.wln 4).updPort p fun q => { q with cur := some l.trig.wln, dropToFs := false }

/-- The line flagged CRC_ERR. -/
def flagCrc (d : Dev) (p : Fin 16) (w : Nat) (crcOk : Bool) : Dev := if crcOk then d else flagLine d p w PF.crcErr

/-- EMBEDDED_DATA (R67): the first eight bytes are the camera line header. -/
def embeddedData (p : Fin 16) (vc : Nat) (bytes : List Byte) (crcOk corrected : Bool) (d : Dev) : Dev :=
  if !receiving d p then d
  else
    let n := 6 + bytes.length
    let image := onImage d p vc
    let (kept, d1) := packetIn d p n corrected crcOk d.ports[p].cur image
    if !image || d.ports[p].dropToFs || !kept then d1
    else
      match d1.ports[p].cur with
      | none => d1
      | some w =>
        updLine (flagCrc (holdBlocks d1 p w n) p w crcOk) p w fun l =>
          if l.headAt.isSome || decide (bytes.length < 8) then { l with headAt := l.headAt.orElse fun _ => some d.now }
          else { l with setId := ofLeBytes (bytes.take 2), expo := some (ofLeBytes ((bytes.drop 2).take 4))
                        gain := some (ofLeBytes ((bytes.drop 6).take 2)), headAt := some d.now }

/-- Bytes and pixels of one packing group (R68) for a data type. -/
def rawGroup (dt : Nat) : Nat × Nat × Nat :=
  if dt = 0x2A then (1, 1, 8) else if dt = 0x2B then (5, 4, 10) else if dt = 0x2C then (3, 2, 12)
  else if dt = 0x2D then (7, 4, 14) else (2, 1, 16)

/-- The bit depth D of a data type. -/
def rawDepth (dt : Nat) : Nat := (rawGroup dt).2.2

/-- The pixels of one group as CSI-2 packs them: RAW8 one byte; RAW16 two bytes, least significant first; RAW10, RAW12 and
RAW14 the high bytes of the pixels followed by the bytes of their low bits. -/
def unpackGroup (dt : Nat) (g : List Nat) : List Nat :=
  let b (k : Nat) : Nat := g.getD k 0
  if dt = 0x2A then [b 0]
  else if dt = 0x2B then (List.range 4).map fun k => 4 * b k + b 4 / 4 ^ k % 4
  else if dt = 0x2C then [16 * b 0 + b 2 % 16, 16 * b 1 + b 2 / 16]
  else if dt = 0x2D then
    let low := b 4 + 256 * b 5 + 65536 * b 6
    (List.range 4).map fun k => 64 * b k + low / 64 ^ k % 64
  else [b 0 + 256 * b 1]

/-- All whole groups of a payload; `fuel` bounds the number of groups. -/
def unpackRaw (dt : Nat) : Nat → List Nat → List Nat
  | 0, _ => []
  | fuel + 1, bs =>
    let n := (rawGroup dt).1
    if bs.length < n then [] else unpackGroup dt (bs.take n) ++ unpackRaw dt fuel (bs.drop n)

/-- RAW_PACKET (R66, R68). A packet dropped for its data type still shows its payload check. -/
def rawPacket (p : Fin 16) (vc dt : Nat) (bytes : List Byte) (crcOk corrected : Bool) (d : Dev) : Dev :=
  if !receiving d p then d
  else
    let n := 6 + bytes.length
    let image := onImage d p vc
    let (kept, d1) := packetIn d p n corrected crcOk d.ports[p].cur image
    if !image || d.ports[p].dropToFs || !kept then d1
    else if dt != d.cfg (packetEpoch d p) (PORT.STREAM_CFG.DT_EXP p) then
      formatError (match d1.ports[p].cur with | some w => flagCrc d1 p w crcOk | none => d1) p
    else
      match d1.ports[p].cur.bind (findLine d1 p) with
      | none => d1
      | some l =>
        let w := l.trig.wln
        let d2 := flagCrc (holdBlocks d1 p w n) p w crcOk
        let d3 := if bytes.length % (rawGroup dt).1 == 0 then d2 else formatError d2 p
        let len := d.cfg l.trig.epoch (PORT.LINE_LEN.LEN p)
        let px := l.pix ++ unpackRaw dt bytes.length (bytes.map BitVec.toNat)
        let tooLong := decide (len < px.length)
        let first := tooLong && !bitOf l.flags PF.overlen
        let d4 := if first then (flagLine d3 p w PF.overlen).inc (PORT.FORMAT_CNT.CNT p) else d3
        updLine d4 p w fun x =>
          { x with pix := px.take len, headAt := x.headAt.orElse (fun _ => some d.now)
                   marks := (min len px.length, d.now) :: x.marks }

/-- FRAME_END (R67). -/
def frameEnd (p : Fin 16) (vc data : Nat) (corrected : Bool) (d : Dev) : Dev :=
  if !receiving d p then d
  else
    let image := onImage d p vc
    let (kept, d1) := packetIn d p 4 corrected true d.ports[p].cur image
    if !image || d.ports[p].dropToFs || !kept then d1
    else
      match (d1.lines p).find? fun l => l.closed.isNone && l.fs && l.trig.wln % 65536 == data with
      | none => formatError d1 p
      | some l => closeLine (holdBlocks d1 p l.trig.wln 4) p l.trig.wln []

/-- DT_ERROR (Table 3.6): a packet of a data type that is none of the other rows', `n` payload bytes (a short packet, DT below 0x10, has
none). Line Start, Line End and the generic short packets are accepted and ignored; any other type is discarded and counted. -/
def dtError (p : Fin 16) (dt n : Nat) (crcOk corrected : Bool) (d : Dev) : Dev :=
  if !receiving d p then d
  else
    let short := decide (dt < 0x10)
    let d1 := (packetIn d p (if short then 4 else 6 + n) corrected (short || crcOk) d.ports[p].cur false).2
    if dt = 2 ∨ dt = 3 ∨ (8 ≤ dt ∧ dt < 0x10) then d1 else d1.inc (PORT.DT_ERR_CNT.CNT p)

/-- LINE_TIMEOUT (R67). -/
def lineTimeout (p : Fin 16) (w : Nat) (d : Dev) : Dev :=
  match findLine d p w with
  | none => d
  | some l =>
    if d.now < l.trig.time + d.rd (PORT.LINE_TIMEOUT.TIME p) * 16000 then d
    else closeLine d p w [if l.fs then PF.feMissing else PF.missing]

/-- INVALID_SYNC_HEADER (R56, R58, R69): the block is dropped and counted; a packet in progress is truncated and its line
flagged HDR_ERR. -/
def invalidSyncHeader (p : Fin 16) (k : Fin 4) (d : Dev) : Dev :=
  let d1 := d.inc (LANE.BLK_ERR_CNT.CNT p k)
  match d.ports[p].cur with
  | some w => flagLine d1 p w PF.hdrErr
  | none => d1

/-- HEADER_ECC_ERROR (R69): the packet is discarded; its payload blocks, up to the next START, count in R. -/
def headerEccError (p : Fin 16) (blocks : Nat) (d : Dev) : Dev :=
  let d1 := (if receiving d p then countBlocks d p blocks else d).inc (PORT.HDR_ERR_CNT.CNT p)
  match d.ports[p].cur with
  | some w => flagLine d1 p w PF.hdrErr
  | none => d1

/-- LINK_MSG_DISCARD (R61). -/
def linkMsgDiscard (p : Fin 16) (n : Nat) (d : Dev) : Dev := (receive d p n).2.inc (PORT.MSG_ERR_CNT.CNT p)

/-- CREDIT_SEND (R71). -/
def creditSend (p : Fin 16) (d : Dev) : Dev := if linkState d p == LS.active then sendCredit d p else d

/-! ## Triggers on the backchannel (R74, R75) -/

/-- R122: the stamp of the last rising mains crossing and the mean of the last eight intervals (ns), when every one of the
eight lies between 15,873,016 and 21,276,596 ns and the last crossing is less than two periods old at an instant. -/
def mainsPhase (d : Dev) (t : Nat) : Option (Nat × Nat) :=
  let iv := (List.range 8).map fun k => d.zeroX.getD k 0 - d.zeroX.getD (k + 1) 0
  match d.zeroX.head? with
  | none => none
  | some z =>
    let mean := iv.foldl (· + ·) 0 / 8
    if 9 ≤ d.zeroX.length ∧ (iv.all fun v => decide (15873016 ≤ v) && decide (v ≤ 21276596)) ∧ t < 16 * (z + 2 * mean) then
      some (z, mean)
    else none

/-- The line of a trigger opens at a port. A skipped line sends no trigger and closes at once as MISSING (R19); a port that
is not ACTIVE closes it MISSING with LINK_DOWN (R69, R84); a 65th outstanding trigger closes the oldest as MISSING (R67). -/
def portTrigger (d : Dev) (p : Fin 16) (t : TrigRec) : Dev :=
  let st := linkState d p
  let l : PLine :=
    { trig := t, target := t.time + 768 + d.rd (TRIG.PORT_DLY.DLY p), sent := st == LS.snoop, sendLate := false, fs := false
      closed := none, flags := 0, setId := 0xFFFF, expo := none, gain := none, headAt := none, pix := [], marks := []
      blocks := 0, phase := mainsPhase d t.time }
  let d1 := d.updPort p fun q => { q with lines := q.lines ++ [l] }
  if t.skipped then closeLine d1 p t.wln ([PF.missing] ++ if st == LS.active then [] else [PF.linkDown])
  else if st != LS.active && st != LS.snoop then closeLine d1 p t.wln [PF.missing, PF.linkDown]
  else
    let openL := (d1.lines p).filter fun x => x.closed.isNone
    match openL.head? with
    | some o => if 64 < openL.length then closeLine d1 p o.trig.wln [PF.missing] else d1
    | none => d1

/-- Unsent triggers of a port, oldest first. -/
def unsent (d : Dev) (p : Fin 16) : List PLine := (d.lines p).filter fun l => l.closed.isNone && !l.sent

/-- TRIGGER_ABANDONED (R75): the triggers older than one whose target instant has come are not sent; their lines close as
MISSING. -/
def abandonBefore (d : Dev) (p : Fin 16) (w : Nat) : Dev :=
  ((unsent d p).filter fun l => decide (l.trig.wln < w)).foldl (fun d l => closeLine d p l.trig.wln [PF.missing]) d

/-- A TRIGGER block leaves the port for line `w`. -/
def sendTrigger (d : Dev) (p : Fin 16) (w b offset : Nat) (late : Bool) : Dev :=
  let d1 := updLine d p w fun l => { l with sent := true, sendLate := late, target := if late then b else l.target }
  let d1 := d1.updPort p fun q => { q with boundary := some b }
  let d1 := if late then (flagLine d1 p w PF.trigLate).inc (PORT.TRIG_LATE_CNT.CNT p) else d1
  d1.emit (.trigger p.val (w % 2 ^ 32) offset late (d.on (PORT.LINK_STAT.PRIMARY p)))

/-- TRIGGER_BLOCK_SEND (R74): `b` is the last boundary at or before the target instant of some unsent trigger, which leaves
with OFFSET = T − b; a boundary already taken sends nothing. -/
def triggerBlockSend (p : Fin 16) (b : Nat) (d : Dev) : Dev :=
  if linkState d p != LS.active || d.ports[p].boundary == some b || decide (b < d.ports[p].relock) then d
  else
    let bt := blockTime100 (d.rd (PORT.LINK_STAT.RATE p))
    match (unsent d p).find? fun l => decide (b ≤ l.target) && decide ((l.target - b) * 100 < bt) with
    | none => d
    | some l => sendTrigger (abandonBefore d p l.trig.wln) p l.trig.wln b (l.target - b) false

/-- TRIGGER_LATE (R75): the first free boundary after a missed one sends the trigger with LATE and OFFSET 0; a trigger whose
successor has reached its own target instant is abandoned. -/
def triggerLate (p : Fin 16) (b : Nat) (d : Dev) : Dev :=
  if linkState d p != LS.active || d.ports[p].boundary == some b || decide (b < d.ports[p].relock) then d
  else
    match ((unsent d p).filter fun l => decide (l.target < b)).getLast? with
    | none => d
    | some l => sendTrigger (abandonBefore d p l.trig.wln) p l.trig.wln b 0 true

/-! ## Settings and camera registers (R76, R77) -/

/-- The next message tag of a port. -/
def nextTag (d : Dev) (p : Fin 16) : Nat × Dev := (d.ports[p].tag, d.updPort p fun q => { q with tag := (q.tag + 1) % 256 })

/-- Groups of at most 16 values in entry order: a run that is longer than 16 starts a new message after each sixteenth. -/
def regGroups : List (Nat × Nat) → List (Nat × Nat) → List (List (Nat × Nat))
  | cur, [] => if cur.isEmpty then [] else [cur]
  | cur, e :: rest =>
    match cur.getLast? with
    | none => regGroups [e] rest
    | some l => if e.1 = l.1 + 1 ∧ cur.length < 16 then regGroups (cur ++ [e]) rest else cur :: regGroups [e] rest

/-- A REG_WR message: ADDR, COUNT, values. -/
def sendRegWr (d : Dev) (p : Fin 16) (tag : Nat) (g : List (Nat × Nat)) : Dev :=
  d.emit (.cam p.val .regWr ([tag, (g.head?.elim 0 Prod.fst), g.length] ++ g.map Prod.snd))

/-- SETTINGS for a request: SET_ID, TARGET_WLN, N and the entries. -/
def sendSettings (d : Dev) (p : Fin 16) (tag : Nat) (r : SetReq) : Dev :=
  d.emit (.cam p.val .settings ([tag, r.id, r.w, r.entries.length] ++ r.entries.flatMap fun e => [e.1, e.2]))

/-- SETTINGS_SEND (R76): at the trigger of the send line the request leaves, as SETTINGS or, on a version 1 link, as REG_WR
messages. Only the primary of a dual-homed camera sends (R78). A request whose send line passes while the port cannot send stays BUSY
and leaves at the next trigger at which it can (log entry 128). -/
def settingsSend (d : Dev) (p : Fin 16) (w : Nat) : Dev :=
  match d.ports[p].set with
  | none => d
  | some r =>
    if r.sent || decide (w < r.v) || linkState d p != LS.active || (homing d p == 1 && !d.on (PORT.LINK_STAT.PRIMARY p)) then d
    else if d.rd (PORT.LINK_STAT.VER p) == 1 then
      (regGroups [] r.entries).foldl (fun d g =>
        let (tag, d1) := nextTag d p
        (sendRegWr d1 p tag g).updPort p fun q =>
          { q with set := q.set.map fun x => { x with sent := true, groups := x.groups ++ [(tag, g)], waiting := x.waiting ++ [(tag, false)] } }) d
    else
      let (tag, d1) := nextTag d p
      (sendSettings d1 p tag r).updPort p fun q => { q with set := q.set.map fun x => { x with sent := true, waiting := [(tag, false)] } }

/-- The STAT page and bank of a port. -/
def statPage (p : Fin 16) : Nat := p.val / 2
def statBank (p : Fin 16) : Nat := p.val % 2

/-- A settings request ends as sent (R128). -/
def settingsDone (d : Dev) (p : Fin 16) : Dev :=
  let (n, j) := (statPage p, statBank p)
  let id := d.ports[p].set.elim 0 SetReq.id
  let d1 := ((d.wr (STAT.SET_STAT.SENT n j) 1).wr (STAT.SET_STAT.BUSY n j) 0).irq (Page.STAT n) (4 * j + 1)
  let d2 := d1.updCorr p fun c => { c with known := c.known.map fun k => if k.id == id then { k with sentAt := some d.now } else k }
  d2.updPort p fun q => { q with set := none }

/-- A settings request fails (R76, R128). -/
def settingsFail (d : Dev) (p : Fin 16) : Dev :=
  let (n, j) := (statPage p, statBank p)
  let d1 := ((d.wr (STAT.SET_STAT.FAIL n j) 1).wr (STAT.SET_STAT.BUSY n j) 0).irq (Page.STAT n) (4 * j + 2)
  ((d1.inc (PORT.SET_FAIL_CNT.CNT p)).irq (Page.PORT p) PORT.irq.SET_FAIL).updPort p fun q => { q with set := none }

/-- SET_ACK (R76). -/
def setAck (p : Fin 16) (id status : Nat) (d : Dev) : Dev :=
  let d := receiveMsg d p 3
  match d.ports[p].set with
  | none => d
  | some r =>
    if !r.sent || r.id != id || d.rd (PORT.LINK_STAT.VER p) == 1 then d
    else if status == 0 then settingsDone d p else settingsFail d p

/-- SETTINGS_RETRY (R76): the first silence sends the message once more, with the same tag; the second fails the request. -/
def settingsRetry (p : Fin 16) (tag : Nat) (d : Dev) : Dev :=
  match d.ports[p].set with
  | none => d
  | some r =>
    match r.waiting.find? fun x => x.1 == tag with
    | none => d
    | some (_, true) => settingsFail d p
    | some (_, false) =>
      let d1 := if d.rd (PORT.LINK_STAT.VER p) == 1 then
          sendRegWr d p tag ((r.groups.find? fun g => g.1 == tag).elim [] Prod.snd)
        else sendSettings d p tag r
      d1.updPort p fun q => { q with set := q.set.map fun x =>
        { x with waiting := x.waiting.map fun y => if y.1 == tag then (tag, true) else y } }

/-- A camera register access ends (R77). -/
def crEnd (d : Dev) (p : Fin 16) : Dev :=
  (((d.wr (PORT.CR_STAT.BUSY p) 0).wr (PORT.CR_STAT.DONE p) 1).irq (Page.PORT p) PORT.irq.CR_DONE).updPort p fun q =>
    { q with crTag := none }

/-- REG_ACK: of a settings request's message, or of a camera register write. -/
def regAck (p : Fin 16) (tag : Nat) (d : Dev) : Dev :=
  let d := receiveMsg d p 0
  if d.ports[p].crTag == some (tag, true) then crEnd d p
  else
    match d.ports[p].set with
    | none => d
    | some r =>
      if d.rd (PORT.LINK_STAT.VER p) == 1 && r.waiting.any fun x => x.1 == tag then
        let left := r.waiting.filter fun x => x.1 != tag
        let d1 := d.updPort p fun q => { q with set := some { r with waiting := left } }
        if left.isEmpty then settingsDone d1 p else d1
      else d

/-- REG_NAK. -/
def regNak (p : Fin 16) (tag cause : Nat) (d : Dev) : Dev :=
  let d := receiveMsg d p 1
  if d.ports[p].crTag.map Prod.fst == some tag then
    crEnd ((d.wr (PORT.CR_STAT.NAK p) 1).wr (PORT.CR_STAT.NAK_CAUSE p) cause) p
  else
    match d.ports[p].set with
    | none => d
    | some r => if r.waiting.any fun x => x.1 == tag then settingsFail d p else d

/-- REG_DATA. -/
def regData (p : Fin 16) (tag value : Nat) (d : Dev) : Dev :=
  let d := receiveMsg d p 7
  if d.ports[p].crTag == some (tag, false) then crEnd (d.wr (PORT.CR_DATA.DATA p) value) p else d

/-- CR_GO (R77): ignored while BUSY. The standby of a dual-homed camera sends no REG_WR (R78): such a write is left without an answer. -/
def crGo (p : Fin 16) (d : Dev) : Dev :=
  if d.on (PORT.CR_STAT.BUSY p) then d
  else
    let (tag, d1) := nextTag d p
    let a := d.rd (PORT.CR_ADDR.ADDR p)
    let wr := d.on (PORT.CR_CTL.WRITE p)
    let mute := homing d p == 1 && !d.on (PORT.LINK_STAT.PRIMARY p)
    let d2 := if !wr then d1.emit (.cam p.val .regRd [tag, a, 1])
      else if mute then d1 else sendRegWr d1 p tag [(a, d.rd (PORT.CR_DATA.DATA p))]
    (d2.wr (PORT.CR_STAT.BUSY p) 1).updPort p fun q => { q with crTag := some (tag, wr) }

/-- CR_TIMEOUT. -/
def crTimeout (p : Fin 16) (d : Dev) : Dev :=
  if d.on (PORT.CR_STAT.BUSY p) then crEnd (d.wr (PORT.CR_STAT.TIMEOUT p) 1) p else d

/-- ROLE_ACK (R78). -/
def roleAck (p : Fin 16) (role : Nat) (d : Dev) : Dev :=
  (receiveMsg d p 7).wrB (PORT.LINK_STAT.PRIMARY p) (role == 1)

/-! ## Takeover of a splitter port (R79) -/

/-- SNOOP to ACTIVE without training: transmitter lit, 32 IDLE blocks, a CREDIT block with the mirrored G, triggers resume. -/
def snoopTakeover (d : Dev) (p : Fin 16) : Dev :=
  if linkState d p != LS.snoop then d
  else
    let d1 := ((d.wr (PORT.LINK_STAT.STATE p) LS.active).emit (.camTx p.val true)).emit (.camIdle p.val 32)
    let d2 := d1.wr (PORT.CREDIT_G.G p) (d.ports[p].snoopG)
    let d3 := d2.updPort p fun q =>
      { q with relock := d.now + 32 * blockTime100 (d.rd (PORT.LINK_STAT.RATE p)) / 100, excl := [], fails := [0, 0, 0, 0] }
    sendCredit d3 p

/-! ## Meanings -/

def execPortEnable (p : Fin 16) (s : State) : Host.Outcome State Fault Refusal := s.onDev (portEnable p)
def execPortDisable (p : Fin 16) (s : State) : Host.Outcome State Fault Refusal := s.onDev (portDisable p)
def execRetrain (p : Fin 16) (s : State) : Host.Outcome State Fault Refusal := s.onDev (retrain p)
def execLaneLos (p : Fin 16) (k : Fin 4) (s : State) : Host.Outcome State Fault Refusal := s.onDev (laneLos p k)
def execBlockLockGained (p : Fin 16) (k : Fin 4) (s : State) : Host.Outcome State Fault Refusal :=
  s.onDev fun d => if cageDark d p then d else blockLockGained p k d
def execBlockLockLost (p : Fin 16) (k : Fin 4) (cdr : Bool) (s : State) : Host.Outcome State Fault Refusal :=
  s.onDev (blockLockLost p k cdr)
def execAlign (p : Fin 16) (used : Nat) (skews : List Nat) (s : State) : Host.Outcome State Fault Refusal :=
  s.onDev (align p used skews)
def execCamHello (p : Fin 16) (caps : CamCaps) (s : State) : Host.Outcome State Fault Refusal := s.onDev (camHello p caps)
def execCapsTimeout (p : Fin 16) (s : State) : Host.Outcome State Fault Refusal := s.onDev (capsTimeout p)
def execAccept (p : Fin 16) (ver rate lanes credits : Nat) (s : State) : Host.Outcome State Fault Refusal :=
  s.onDev (accept p ver rate lanes credits)
def execRateSwitch (p : Fin 16) (s : State) : Host.Outcome State Fault Refusal := s.onDev (rateSwitch p)
def execSwitchTimeout (p : Fin 16) (s : State) : Host.Outcome State Fault Refusal := s.onDev (switchTimeout p)
def execCamReady (p : Fin 16) (s : State) : Host.Outcome State Fault Refusal := s.onDev (camReady p)
def execLinkActive (p : Fin 16) (s : State) : Host.Outcome State Fault Refusal := s.onDev (linkActive p)
def execEqualizeTimeout (p : Fin 16) (s : State) : Host.Outcome State Fault Refusal := s.onDev (equalizeTimeout p)
def execFailedRetry (p : Fin 16) (s : State) : Host.Outcome State Fault Refusal := s.onDev (failedRetry p)
def execEyeReport (p : Fin 16) (h v : Nat) (s : State) : Host.Outcome State Fault Refusal := s.onDev (eyeReport p h v)
def execLinkMsgDiscard (p : Fin 16) (bytes : Nat) (s : State) : Host.Outcome State Fault Refusal := s.onDev (linkMsgDiscard p bytes)
def execFrameStart (p vc : Fin 16) (data : Nat) (corrected : Bool) (s : State) : Host.Outcome State Fault Refusal :=
  s.onDev (frameStart p vc data corrected)
def execEmbeddedData (p vc : Fin 16) (bytes : List Byte) (crcOk corrected : Bool) (s : State) :
    Host.Outcome State Fault Refusal := s.onDev (embeddedData p vc bytes crcOk corrected)
def execRawPacket (p vc : Fin 16) (dt : Nat) (bytes : List Byte) (crcOk corrected : Bool) (s : State) :
    Host.Outcome State Fault Refusal := s.onDev (rawPacket p vc dt bytes crcOk corrected)
def execFrameEnd (p vc : Fin 16) (data : Nat) (corrected : Bool) (s : State) : Host.Outcome State Fault Refusal :=
  s.onDev (frameEnd p vc data corrected)
def execDtError (p : Fin 16) (packet : OddPacket) (s : State) : Host.Outcome State Fault Refusal :=
  s.onDev (dtError p packet.dt packet.bytes packet.crcOk packet.corrected)
def execLineTimeout (p : Fin 16) (wln : Nat) (s : State) : Host.Outcome State Fault Refusal := s.onDev (lineTimeout p wln)
def execInvalidSyncHeader (p : Fin 16) (k : Fin 4) (s : State) : Host.Outcome State Fault Refusal :=
  s.onDev (invalidSyncHeader p k)
def execHeaderEccError (lost : LostPacket) (s : State) : Host.Outcome State Fault Refusal := s.onDev (headerEccError lost.port lost.blocks)
def execCreditGUpdate (p : Fin 16) (s : State) : Host.Outcome State Fault Refusal := s.onDev (creditGUpdate p)
def execCreditSend (p : Fin 16) (s : State) : Host.Outcome State Fault Refusal := s.onDev (creditSend p)
def execTriggerBlockSend (p : Fin 16) (boundary : Nat) (s : State) : Host.Outcome State Fault Refusal :=
  s.onDev (triggerBlockSend p boundary)
def execTriggerLate (p : Fin 16) (boundary : Nat) (s : State) : Host.Outcome State Fault Refusal := s.onDev (triggerLate p boundary)
def execSetAck (p : Fin 16) (id status : Nat) (s : State) : Host.Outcome State Fault Refusal := s.onDev (setAck p id status)
def execSettingsRetry (p : Fin 16) (tag : Nat) (s : State) : Host.Outcome State Fault Refusal := s.onDev (settingsRetry p tag)
def execRegAck (p : Fin 16) (tag : Nat) (s : State) : Host.Outcome State Fault Refusal := s.onDev (regAck p tag)
def execRegNak (p : Fin 16) (tag cause : Nat) (s : State) : Host.Outcome State Fault Refusal := s.onDev (regNak p tag cause)
def execRegData (p : Fin 16) (tag value : Nat) (s : State) : Host.Outcome State Fault Refusal := s.onDev (regData p tag value)
def execCrGo (p : Fin 16) (s : State) : Host.Outcome State Fault Refusal := s.onDev (crGo p)
def execCrTimeout (p : Fin 16) (s : State) : Host.Outcome State Fault Refusal := s.onDev (crTimeout p)
def execRoleAck (p : Fin 16) (role _fromWln : Nat) (s : State) : Host.Outcome State Fault Refusal := s.onDev (roleAck p role)

end Sys2Proof.Machine
end

