-- ==== Sys2Proof/Machine/Correct.lean ====
section
/-! DEFINITION. Pixel correction and statistics (spec/05_pixel_correction.md): stages 1 to 7, flicker, block records,
exposure settings and the correction tables. The arithmetic is exact. -/

namespace Sys2Proof.Machine

/-! ## Working format (R107) -/

/-- A pixel between stages: its value in q units and whether some stage clamped it. -/
structure Px where
  v : Int
  sat : Bool
  deriving DecidableEq, Repr

/-- sat21, remembering a clamp. -/
def Px.mk21 (sat : Bool) (v : Int) : Px :=
  ⟨clampI (-1048576) 1048575 v, sat || decide (v < -1048576) || decide (1048575 < v)⟩

/-- The value of the nearest pixel of the line at an index. -/
def nearest (l : List Px) (i : Int) : Int := (l.getD (clampI 0 (l.length - 1) i).toNat ⟨0, false⟩).v

/-- The bank base of a port's tables (R119). -/
def bankBase (p bank : Nat) : Nat := 0x01000000 + 0x80000 * p + 0x40000 * bank

/-- Offset, gain and defect code of pixel `i` of a line (R120). -/
def tblOfs (m : Memory) (base i : Nat) : Int := m.s16 (base + 288 * (i / 64) + 2 * (i % 64))
def tblGain (m : Memory) (base i : Nat) : Nat := m.u16 (base + 288 * (i / 64) + 128 + 2 * (i % 64))
def tblCode (m : Memory) (base i : Nat) : Nat :=
  bitsOf (m.byte (base + 288 * (i / 64) + 256 + i % 64 / 4)).toNat (2 * (i % 4)) 2

/-! ## Stages (R109 to R116) -/

/-- Map with index. -/
def mapIdx (l : List Px) (g : Nat → Px → Px) : List Px := (l.zip (List.range l.length)).map fun q => g q.2 q.1

/-- Stage 1, black level. -/
def stageBlack (m : Memory) (base level : Nat) (l : List Px) : List Px :=
  mapIdx l fun i a => Px.mk21 a.sat (a.v - level - tblOfs m base i)

/-- Stage 2, spatial: the gated five-tap kernel. -/
def stageSpatial (k0 k1 k2 gate : Nat) (l : List Px) : List Px :=
  mapIdx l fun i b =>
    let u (o : Int) : Int :=
      let x := nearest l (i + o)
      if (x - b.v).natAbs ≤ gate then x else b.v
    Px.mk21 b.sat (sar (k0 * u 0 + k1 * (u (-1) + u 1) + k2 * (u (-2) + u 2) + 128) 8)

/-- Stage 2, along-web recursion of one pixel. -/
def recurse (restart : Bool) (alpha gate : Nat) (y : Int) (s : Px) : Px :=
  if restart || decide (gate < (s.v - y).natAbs) then s else Px.mk21 s.sat (y + sar (alpha * (s.v - y) + 8) 4)

/-- Stage 3, defective-pixel replacement: the result and whether it was a dynamic replacement. -/
def stageDefect (m : Memory) (base dynT : Nat) (l : List Px) : List (Px × Bool) :=
  (l.zip (List.range l.length)).map fun q =>
    let r (o : Int) : Int := nearest l (q.2 + o)
    let v := q.1.v
    match tblCode m base q.2 with
    | 0 =>
      let up := decide ((dynT : Int) < v - r (-1)) && decide ((dynT : Int) < v - r 1)
      let dn := decide (v - r (-1) < -(dynT : Int)) && decide (v - r 1 < -(dynT : Int))
      if dynT != 0 && (up || dn) then (Px.mk21 q.1.sat (sar (r (-1) + r 1 + 1) 1), true) else (q.1, false)
    | 1 => (Px.mk21 q.1.sat (sar (r (-1) + r 1 + 1) 1), false)
    | 2 => (Px.mk21 q.1.sat (sar (r (-2) + r 2 + 1) 1), false)
    | _ => (Px.mk21 q.1.sat (if q.2 = 0 then r 1 else r (-1)), false)

/-- Stage 4, flat-field gain and exposure compensation. -/
def stageFlat (m : Memory) (base e : Nat) (l : List Px) : List Px :=
  mapIdx l fun i x => Px.mk21 x.sat (sar (x.v * tblGain m base i * e + 2 ^ 25) 26)

/-- The channel code of phase `k` and the weights of a demosaic setting (R114). -/
structure Demosaic where
  per : Nat
  org : Nat
  ph : List Nat
  w : List Int
  deriving DecidableEq, Repr

/-- The pattern period P. -/
def Demosaic.period (q : Demosaic) : Nat := if q.per = 0 then 1 else if q.per = 1 then 2 else 4

/-- The channel of pixel `i`. -/
def Demosaic.chan (q : Demosaic) (i : Nat) : Nat := q.ph.getD ((i + q.org) % q.period) 0

/-- The estimate of a channel at a pixel from stage 4 outputs. -/
def Demosaic.est (q : Demosaic) (l : List Px) (c i : Nat) : Int :=
  let f (k : Nat) : Int := (l.getD k ⟨0, false⟩).v
  let pp := q.period
  if q.chan i = c then f i
  else
    match (List.range pp).find? fun o => decide (o ≠ 0) && (q.ph.getD ((i + q.org + pp - o) % pp) 0 == c) with
    | none => 0
    | some o =>
      if i < o then f (i + pp - o)
      else if l.length ≤ i + pp - o then f (i - o)
      else sar (f (i - o) * ((pp : Int) - o) + f (i + pp - o) * o + (pp : Int) / 2) (Nat.log2 pp)

/-- Stage 5, demosaic to one intensity plane. -/
def stageDemosaic (q : Demosaic) (l : List Px) : List Px :=
  let chans := (List.range 5).filter fun c => (q.ph.take q.period).contains c
  mapIdx l fun i x => Px.mk21 x.sat (sar (chans.foldl (fun a c => a + q.w.getD c 0 * q.est l c i) 0 + 128) 8)

/-- Stage 6, flicker gain. -/
def stageFlicker (h : Nat) (l : List Px) : List Px := l.map fun x => Px.mk21 x.sat (sar (x.v * h + 2 ^ 13) 14)

/-- Stage 7, tone curve or identity: the output word and whether the pixel was clamped anywhere. -/
def stageTone (m : Memory) (base : Nat) (on : Bool) (x : Px) : Nat × Bool :=
  let k (i : Nat) : Nat := m.u16 (base + 0x24000 + 2 * i)
  if x.v ≤ 0 then (if on then k 0 else 0, x.sat)
  else
    let c := x.v.toNat
    if on then
      let i := c / 4096
      let t := c % 4096
      ((clampI 0 65535 ((k i : Int) + sar (((k (i + 1) : Int) - k i) * t + 2048) 12)).toNat, x.sat)
    else
      let y := (c + 8) / 16
      (min y 65535, x.sat || decide (65535 < y))

/-- The knots of the tone curve that a stage 6 value uses (R116). -/
def knotsUsed (c : Int) : List Nat := if c ≤ 0 then [0] else [c.toNat / 4096, c.toNat / 4096 + 1]

/-! ## Settings and flicker of a line (R122, R124, R129) -/

/-- The settings selected for a line: SET_ID and EXPC, whether rule 2 was taken with a request unacknowledged, and whether
the header's ID is unknown. -/
def selectSettings (d : Dev) (p : Fin 16) (l : PLine) : Nat × Nat × Bool × Bool :=
  let known := d.corr[p].known
  match known.find? fun k => k.id == l.setId with
  | some k => (k.id, k.expc, false, false)
  | none =>
    let w := l.trig.wln
    let cands := known.filter fun k => decide (k.w ≤ w) && (k.sentAt.elim false fun t => decide (t ≤ l.trig.time))
    let best := cands.foldl (fun (b : Option Known) k => match b with
      | none => some k
      | some x => if x.w ≤ k.w then some k else some x) none
    let wait := d.ports[p].set.elim false fun r => decide (r.w ≤ w)
    match best with
    | some k => (k.id, k.expc, wait, l.setId != 0xFFFF)
    | none => (0, 0x1000, wait, l.setId != 0xFFFF)

/-- The flicker bin and period of a line with a valid phase: the mid-exposure instant against the last crossing (R122). -/
def flickerBin (d : Dev) (p : Fin 16) (l : PLine) : Option (Nat × Nat) :=
  l.phase.map fun (z, per) =>
    let mid := l.target + 16 * d.rd (PORT.CAM_CAP1.TRIG_LAT p) + 8 * l.expo.getD 0
    let delta := ((mid : Int) - 16 * z) / 16
    ((64 * (delta % (per : Int)).toNat / per) % 32, per)

/-- The block number and index of a line under its own set (R17). -/
def blockOf (d : Dev) (epoch w : Nat) : Nat × Nat :=
  let o := d.cfg epoch WEB.BLOCK_ORIGIN_LO.BLOCK_ORIGIN + 2 ^ 32 * d.cfg epoch WEB.BLOCK_ORIGIN_HI.BLOCK_ORIGIN
  let len := d.cfg epoch WEB.BLOCK_LEN.VAL
  ((w - o) / len, (w - o) % len)

/-- The learned gains before any have been loaded: unity (log entry 1). -/
def unityGains : List Nat := List.replicate 32 0x4000

/-- The gains the last update left, as the table region shows them (Table 5.3). -/
def learnedGains (d : Dev) (p : Fin 16) : List Nat := (d.corr[p].hSets.head?).elim unityGains GainSet.h

/-- The learned gains in use for line `w` (R123): the newest set whose first line is `w` or an earlier one. -/
def gainsFor (d : Dev) (p : Fin 16) (w : Nat) : List Nat :=
  (d.corr[p].hSets.find? fun h => decide (h.first ≤ w)).elim unityGains GainSet.h

/-- The gain of stage 6 for a line (R124). -/
def flickerGain (m : Memory) (d : Dev) (p : Fin 16) (l : PLine) (base : Nat) : Nat :=
  let (n, j) := (statPage p, statBank p)
  match flickerBin d p l with
  | none => 0x4000
  | some (b, _) =>
    match d.cfg l.trig.epoch (STAT.FLK_CTL.MODE n j) with
    | 2 => (gainsFor d p l.trig.wln).getD b 0x4000
    | 3 => m.u16 (base + 0x24400 + 2 * b)
    | _ => 0x4000

/-! ## One line through stages 1 to 7 -/

/-- Whether the recursion restarts for a line (R111). -/
def restarts (d : Dev) (p : Fin 16) (l : PLine) (len : Nat) : Bool :=
  let c := d.corr[p]
  let (n, j) := (statPage p, statBank p)
  let maxgap := d.cfg l.trig.epoch (STAT.NRR.MAXGAP n j)
  c.prevVoid || !c.prevNrr || c.prevLen != len || c.prevWln.elim true (fun w => w + 1 != l.trig.wln) ||
  match c.yPos with
  | none => true
  | some y => maxgap != 0 && decide (maxgap < (toSigned 48 (ofSigned 48 (sar l.trig.pos 24 - sar y 24))).natAbs)

/-- The corrected line: stages in the order of Table 5.1 under the set of the line's EPOCH_ID, with the slices in `poison`
entering as zeros. The recursion state is written for the first `yOk` slices; SAT_CNT and DP_DYN_CNT count. -/
def correctLine (m : Memory) (d : Dev) (p : Fin 16) (l : PLine) (poison : List Nat) (yOk : Nat) : Proc × Dev :=
  let (n, j) := (statPage p, statBank p)
  let ep := l.trig.epoch
  let cf (f : Nat → Nat → Fld) : Nat := d.cfg ep (f n j)
  let depth := rawDepth (d.cfg ep (PORT.STREAM_CFG.DT_EXP p))
  let base := bankBase p (cf STAT.CORR_CTL.BANK)
  let a := (l.pix.zip (List.range l.pix.length)).map fun q =>
    if poison.contains (q.2 / 64) then (⟨0, false⟩ : Px) else ⟨(q.1 * 2 ^ (20 - depth) : Nat), false⟩
  let s1 := if cf STAT.CORR_CTL.BL_EN != 0 then stageBlack m base (cf STAT.BLACK.LEVEL) a else a
  let s2 := if cf STAT.CORR_CTL.NRS_EN != 0 then
      stageSpatial (cf STAT.NRS.K0) (cf STAT.NRS.K1) (cf STAT.NRS.K2) (cf STAT.NRS_GATE.GATE) s1 else s1
  let nrr := cf STAT.CORR_CTL.NRR_EN != 0
  let rst := restarts d p l l.pix.length
  let alpha := if cf STAT.NRR.ALPHA = 0 then 16 else min 16 (cf STAT.NRR.ALPHA)
  let old := d.corr[p].y
  let s3 := if nrr then mapIdx s2 fun i x => recurse rst alpha (cf STAT.NRR_GATE.GATE) (old.getD i 0) x else s2
  let dp := if cf STAT.CORR_CTL.DPC_EN != 0 then stageDefect m base (cf STAT.DPC.DYN_T) s3 else s3.map fun x => (x, false)
  let s4 := dp.map Prod.fst
  let dyn := (dp.filter fun x => x.2).length
  let (sid, expc, noAck, unknown) := selectSettings d p l
  let s5 := if cf STAT.CORR_CTL.FF_EN != 0 then stageFlat m base expc s4 else s4
  let dem : Demosaic :=
    { per := cf STAT.DEM.PER, org := cf STAT.DEM.ORG
      ph := [cf STAT.DEM.PH0, cf STAT.DEM.PH1, cf STAT.DEM.PH2, cf STAT.DEM.PH3]
      w := [toSigned 12 (cf STAT.DEM_W0.W_CLEAR), toSigned 12 (cf STAT.DEM_W0.W_R), toSigned 12 (cf STAT.DEM_W1.W_G),
            toSigned 12 (cf STAT.DEM_W1.W_B), toSigned 12 (cf STAT.DEM_W2.W_NIR)] }
  let s6 := if cf STAT.CORR_CTL.DEM_EN != 0 then stageDemosaic dem s5 else s5
  let s7 := stageFlicker (flickerGain m d p l base) s6
  let out := s7.map (stageTone m base (cf STAT.CORR_CTL.TONE_EN != 0))
  let sats := (out.filter fun x => x.2).length
  let d1 := ((d.addCnt (STAT.SAT_CNT.CNT n j) sats).addCnt (STAT.DP_DYN_CNT.CNT n j) dyn)
  let d1 := if unknown then d1.inc (STAT.SET_UNKNOWN_CNT.CNT n j) else d1
  let d1 := d1.wr (STAT.SET_STAT.LIVE_ID n j) sid
  let bin := flickerBin d p l
  let d1 := match bin with
    | none => d1.inc (STAT.FLK_INVALID_CNT.CNT n j)
    | some b => d1.wr (STAT.FLK_STAT.BIN n j) b.1
  let k := min (64 * yOk) l.pix.length
  let d2 := if nrr && decide (0 < k) then
      d1.updCorr p fun c => { c with y := (s3.take k).map Px.v ++ c.y.drop k, yPos := some l.trig.pos }
    else d1
  ({ x := l.pix, m := s6.map Px.v, y := out.map Prod.fst, dyn := dyn, setId := sid, noAck := noAck, bin := bin
     expo := l.expo, gain := l.gain }, d2)

/-- The recursion's view of the line that has just ended: its class and whether stage 2 ran (R111). -/
def endRecursion (d : Dev) (p : Fin 16) (t : TrigRec) (void : Bool) : Dev :=
  let (n, j) := (statPage p, statBank p)
  d.updCorr p fun c =>
    { c with prevWln := some t.wln, prevVoid := void
             prevNrr := d.cfg t.epoch (STAT.CORR_CTL.NRR_EN n j) != 0
             prevLen := d.cfg t.epoch (PORT.LINE_LEN.LEN p) }

/-! ## Block statistics (R125 to R127, R130) -/

/-- Sums of one slice with a list of output words added. -/
def SliceSum.add (s : SliceSum) (ys : List Nat) : SliceSum :=
  ys.foldl (fun s y => { n := s.n + 1, s := s.s + y, q := s.q + y * y, min := Nat.min s.min y, max := Nat.max s.max y }) s

/-- An empty block for the line that opens it. -/
def newBlock (d : Dev) (p : Fin 16) (t : TrigRec) (pipe : Nat) : BlockAcc :=
  let len := d.cfg t.epoch (PORT.LINE_LEN.LEN p)
  let s := (len + 63) / 64
  { num := (blockOf d t.epoch t.wln).1, first := t.wln, epoch := t.epoch, epochChg := false, pipe := pipe, short := false
    sCount := s, lines := 0, used := 0, void := 0, suspect := 0, flagsOr := 0, flagged := 0, expo := none, gain := none
    gotHead := false, setId := none, mixed := 0, noAck := false, flkAll := true, clipHi := 0, clipLo := 0, dpDyn := 0
    rawSum := 0, rawN := 0, slices := List.replicate s ⟨0, 0, 0, 0xFFFF, 0⟩, bins := List.replicate 32 (0, 0)
    muSum := 0, muN := 0, mainsP := 0 }

/-- The mean of stage 5 values over slices S0 to S1 (R123). -/
def lineMean (ms : List Int) (s0 s1 : Nat) : Int :=
  let l := (ms.drop (64 * s0)).take (64 * (s1 + 1 - s0))
  let n : Int := l.length
  if n = 0 then 0 else (l.foldl (· + ·) 0 + n / 2) / n

/-- A PROCESS line's contribution to its block. -/
def addProcess (d : Dev) (p : Fin 16) (t : TrigRec) (pr : Proc) (b : BlockAcc) : BlockAcc :=
  let (n, j) := (statPage p, statBank p)
  let depth := rawDepth (d.cfg t.epoch (PORT.STREAM_CFG.DT_EXP p))
  let hi := 2 ^ depth - 1
  let sl := (b.slices.zip (List.range b.slices.length)).map fun q => q.1.add ((pr.y.drop (64 * q.2)).take 64)
  let s1 := min (d.cfg t.epoch (STAT.FLK_WIN.S1 n j)) ((pr.m.length + 63) / 64 - 1)
  let mu := lineMean pr.m (d.cfg t.epoch (STAT.FLK_WIN.S0 n j)) s1
  let bins := match pr.bin with
    | none => b.bins
    | some (k, _) => b.bins.modify k fun x => (x.1 + mu, x.2 + 1)
  { b with used := b.used + 1
           expo := if b.gotHead then b.expo else pr.expo
           gain := if b.gotHead then b.gain else pr.gain
           gotHead := true
           setId := if b.gotHead then b.setId else some pr.setId
           mixed := if b.gotHead && b.setId != some pr.setId then b.mixed + 1 else b.mixed
           clipHi := b.clipHi + (pr.x.filter fun x => x == hi).length
           clipLo := b.clipLo + (pr.x.filter fun x => x == 0).length
           dpDyn := b.dpDyn + pr.dyn
           rawSum := b.rawSum + pr.x.foldl (· + ·) 0
           rawN := b.rawN + pr.x.length
           slices := sl
           bins := bins
           muSum := if pr.bin.isSome then b.muSum + mu else b.muSum
           muN := if pr.bin.isSome then b.muN + 1 else b.muN }

/-- A block closes: its record and its flicker update become due. -/
def closeBlock (d : Dev) (p : Fin 16) (short : Bool) : Dev :=
  d.updCorr p fun c => match c.block with
    | none => c
    | some b => { c with block := none, closed := c.closed ++ [{ b with short := short }], flkWait := c.flkWait ++ [b] }

/-- The statistics step at a line's end: the line enters its block, and the block closes at its last line or before an epoch
that moves BLOCK_ORIGIN (R17, R127). `ph` is the mains phase at the line's trigger, when it is valid (R122). -/
def statLine (d : Dev) (p : Fin 16) (t : TrigRec) (pipe : Nat) (cls : LineClass) (portFlags : Nat)
    (ph : Option (Nat × Nat)) (pr : Option Proc) : Dev :=
  let (n, j) := (statPage p, statBank p)
  let (num, idx) := blockOf d t.epoch t.wln
  let d0 := match d.corr[p].block with
    | some b => if b.num != num || (idx == 0 && b.lines != 0) then closeBlock d p true else d
    | none => d
  let b := (d0.corr[p].block).getD (newBlock d0 p t pipe)
  let b := { b with lines := b.lines + 1, pipe := pipe, epochChg := b.epochChg || b.epoch != t.epoch
                    flagsOr := Nat.lor b.flagsOr portFlags
                    flagged := if portFlags != 0 then b.flagged + 1 else b.flagged
                    void := if cls == .void then b.void + 1 else b.void
                    suspect := if cls == .suspect then b.suspect + 1 else b.suspect
                    noAck := b.noAck || (pr.elim false Proc.noAck)
                    flkAll := b.flkAll && ph.isSome
                    mainsP := ph.elim 0 Prod.snd }
  let b := match cls, pr with
    | .process, some x => addProcess d p t x b
    | _, _ => b
  let d1 := ((d0.updCorr p fun c => { c with block := some b }).wr (STAT.BLOCK_NUM.NUM n j) num).wrB (STAT.FLK_STAT.VALID n j) ph.isSome
  let len := d.cfg t.epoch WEB.BLOCK_LEN.VAL
  let live := d.rd2 WEB.BLOCK_ORIGIN_LO.BLOCK_ORIGIN WEB.BLOCK_ORIGIN_HI.BLOCK_ORIGIN
  if idx + 1 == len then closeBlock d1 p false
  else if live == t.wln + 1 then closeBlock d1 p true
  else d1

/-- Bin means and the block mean of R123. -/
def binMean (x : Int × Nat) : Int := if x.2 = 0 then 0 else (x.1 + (x.2 : Int) / 2) / x.2
def blockMean (b : BlockAcc) : Int := if b.muN = 0 then 0 else (b.muSum + (b.muN : Int) / 2) / b.muN

/-- Mean, standard deviation, minimum and maximum of a slice (R125). -/
def SliceSum.mean (s : SliceSum) : Nat := if s.n = 0 then 0 else (s.s + s.n / 2) / s.n
def SliceSum.sd (s : SliceSum) : Nat := if s.n = 0 then 0 else isqrt ((s.n * s.q - s.s * s.s) / (s.n * s.n))

/-- The words of a block record (Table 5.5). -/
def recordWords (d : Dev) (p : Fin 16) (b : BlockAcc) : List Nat :=
  let mixed := b.mixed != 0
  let w1 := p.val + 16 * (p.val / 4) + 64 * d.slot + 512 * b.pipe + 4096 * b2n b.short + 8192 * b2n mixed +
    16384 * b2n b.flkAll + 32768 * b2n b.noAck + 65536 * b.epoch
  let raw := if b.rawN = 0 then 0 else (b.rawSum * 65536 + b.rawN / 2) / b.rawN
  let ref := ofSigned 24 (clampI (-8388608) 8388607 (blockMean b))
  [0x53 + 256 + 65536 * (48 + 2 * b.sCount), w1, b.first % 2 ^ 32,
   b.first / 2 ^ 32 % 65536 + 65536 * b.setId.getD 0xFFFF, b.num % 2 ^ 32,
   b.lines + 65536 * b.used, b.void + 65536 * b.suspect, b.flagsOr + 65536 * b.flagged,
   b.expo.getD 0xFFFFFFFF, b.gain.getD 0xFFFF + 65536 * b.mixed, b.clipHi % 2 ^ 32, b.clipLo % 2 ^ 32, b.dpDyn % 2 ^ 32,
   raw % 2 ^ 32, b.mainsP, ref + 2 ^ 24 * b2n b.epochChg] ++
  (b.slices.flatMap fun s => [s.mean + 65536 * s.sd, s.min + 65536 * s.max]) ++
  b.bins.map fun x => (clampI 0 65535 (sar (binMean x + 8) 4)).toNat + 65536 * x.2

/-- STAT_RECORD (R127): the record replaces the window copy and leaves on the statistics stream. -/
def statRecord (p : Fin 16) (x : Dev × Memory) : Dev × Memory :=
  let (d, m) := x
  let (n, j) := (statPage p, statBank p)
  match d.corr[p].closed with
  | [] => (d, m)
  | b :: rest =>
    let d0 := d.updCorr p fun c => { c with closed := rest }
    if d.cfg b.epoch (STAT.CORR_CTL.STAT_EN n j) == 0 then (d0, m)
    else
      let bytes := (recordWords d p b).flatMap (leBytes 4)
      let d1 := (d0.emit (.record 0x53 bytes)).inc (STAT.REC_CNT.CNT n j)
      (d1.irq (Page.STAT n) (4 * j), m.store (0x01000000 + 0x80000 * p.val + 0x30000) bytes)

/-- The first line of the block after the one that starts at line `n1`, as the origins stand now: `len` is the block length before a new
origin that lies ahead of `n1` (R17, R123). -/
def blockAfter (d : Dev) (n1 len : Nat) : Nat :=
  let o := d.rd2 WEB.BLOCK_ORIGIN_LO.BLOCK_ORIGIN WEB.BLOCK_ORIGIN_HI.BLOCK_ORIGIN
  let live := d.rd WEB.BLOCK_LEN.VAL
  if o ≤ n1 then o + ((n1 - o) / live + 1) * live else min (n1 + len) o

/-- FLICKER_UPDATE (R123): the learned gains after closed block k, used from the first line of block k + 2. -/
def flickerUpdate (p : Fin 16) (d : Dev) : Dev :=
  let (n, j) := (statPage p, statBank p)
  match d.corr[p].flkWait with
  | [] => d
  | b :: rest =>
    let d0 := d.updCorr p fun c => { c with flkWait := rest }
    let mode := d.cfg b.epoch (STAT.FLK_CTL.MODE n j)
    if mode == 0 || mode == 3 then d0
    else
      let minL := d.cfg b.epoch (STAT.FLK_CTL.MIN_LINES n j)
      let k := d.cfg b.epoch (STAT.FLK_CTL.K n j)
      let big := blockMean b
      let h := ((learnedGains d p).zip b.bins).map fun q =>
        let mb := binMean q.2
        if minL ≤ q.2.2 ∧ q.2.2 ≠ 0 ∧ 0 < mb ∧ 0 < big then
          let target : Int := min 0xFFFF (2 ^ 14 * big / mb)
          ((q.1 : Int) + sar (target - q.1) k).toNat
        else q.1
      let n1 := b.first + b.lines
      let g : GainSet := ⟨n1, blockAfter d n1 (d.cfg b.epoch WEB.BLOCK_LEN.VAL), h⟩
      d0.updCorr p fun c => { c with hSets := g :: c.hSets.take 3 }

/-- R124: at the epoch of line `e` that enters MODE 1 or 2 from 0 or 3 the gains are loaded from the flicker table of the bank in
force. -/
def loadGains (m : Memory) (d : Dev) (p : Fin 16) (e : Nat) : Dev :=
  let base := bankBase p (d.rd (STAT.CORR_CTL.BANK (statPage p) (statBank p)))
  let m := m.fixRange (base + 0x24400) 64
  let h := (List.range 32).map fun b => m.u16 (base + 0x24400 + 2 * b)
  d.updCorr p fun c => { c with hSets := [⟨e, e, h⟩] }

/-- A set of gains when line `e` becomes the origin of the blocks, of `len` lines each: one that waits for a block that is no more
takes effect at the block that stands in its place (R17, R123). -/
def GainSet.rebase (e len : Nat) (h : GainSet) : GainSet :=
  if h.first ≤ e then h else { h with first := if h.next < e then e else e + len }

/-- A port's blocks when line `e` becomes their origin: a block whose lines have all passed the statistics step ends short. -/
def originCorr (e : Nat) (d : Dev) (p : Fin 16) : Dev :=
  let len := d.rd WEB.BLOCK_LEN.VAL
  let d1 := d.updCorr p fun c => { c with hSets := c.hSets.map (GainSet.rebase e len) }
  let next := d.gen.maxWln.elim 0 (· + 1)
  if d1.corr[p].block.elim false fun b => b.first + b.lines == min e next then closeBlock d1 p true else d1

/-- MAINS_ZERO_CROSSING (R122, R413): the stamp of a rising crossing; the mean period over the last eight intervals. -/
def mainsZeroCrossing (delay : Nat) (d : Dev) : Dev :=
  let z := (d.now - delay) / 16
  let d1 := { d with zeroX := (z :: d.zeroX).take 9 }
  let d2 := d1.wr2 PWR.ZC_T_LO.T PWR.ZC_T_HI.T z
  match mainsPhase d2 d.now with
  | some (_, per) => d2.wr PWR.MAINS_PERIOD.NS per
  | none => d2.wr PWR.MAINS_PERIOD.NS 0

/-! ## Settings requests and tables (R121, R128) -/

/-- SET_REQ_GO (R128). -/
def setReqGo (p : Fin 16) (x : Dev × Memory) : Dev × Memory :=
  let (d, m) := x
  let (n, j) := (statPage p, statBank p)
  if d.on (STAT.SET_STAT.BUSY n j) then (d, m)
  else
    let id := d.rd (STAT.SET_ID.ID n j)
    let cnt := d.rd (STAT.SET_REQ.N n j)
    if id == 0xFFFF || (d.corr[p].known.any fun k => k.id == id) || cnt == 0 || decide (32 < cnt) then
      (d.wr (STAT.SET_STAT.BAD n j) 1, m)
    else
      let origin := d.rd2 WEB.BLOCK_ORIGIN_LO.BLOCK_ORIGIN WEB.BLOCK_ORIGIN_HI.BLOCK_ORIGIN
      let w := origin + d.rd (STAT.SET_BLOCK.BLOCK n j) * d.rd WEB.BLOCK_LEN.VAL
      let lead := d.rd (PORT.CAM_CAP1.SET_DELAY p) +
        (if d.rd (PORT.LINK_STAT.VER p) == 1 then 0 else d.rd (PORT.SET_LEAD.LEAD p))
      if w < lead || d.gen.maxWln.elim false (fun v => decide (w - lead ≤ v)) then (d.wr (STAT.SET_STAT.TOO_LATE n j) 1, m)
      else
        let base := 0x01000000 + 0x80000 * p.val + 0x34000
        let (ms, y) := readRange (d, m) base (8 * cnt) mgmtReader
        let es := (List.range cnt).map fun k => (ms.u16 (base + 8 * k), ms.u32 (base + 8 * k + 4))
        let (d, m) := y
        let d1 := (d.wr (STAT.SET_STAT.BUSY n j) 1).wr2 (STAT.SET_W_LO.W n j) (STAT.SET_W_HI.W n j) w
        let k : Known := ⟨id, d.rd (STAT.SET_REQ.EXPC n j), w, none⟩
        let d2 := d1.updCorr p fun c =>
          { c with known := (if 4 ≤ c.known.length then c.known.drop 1 else c.known) ++ [k] }
        (d2.updPort p fun q => { q with set := some ⟨id, w, w - lead, es, false, [], []⟩ }, m)

/-- CORR_TABLE_WRITE (R119, R121): a 32-bit window write to a port's region. The live bank, and the other bank while
BANK_BUSY, ignore it with WR_LIVE; read-only areas ignore it. -/
def corrTableWrite (a : Nat) (w : Word32) (x : Dev × Memory) : Dev × Memory :=
  let (d, m) := x
  let p := (a - 0x01000000) / 0x80000
  let o := (a - 0x01000000) % 0x80000
  let (n, j) := (p / 2, p % 2)
  if a < 0x01000000 ∨ 16 ≤ p then (d, m)
  else
    let o' := o % 0x40000
    let inBank := decide (o' < 0x24000) || (decide (0x24000 ≤ o') && decide (o' < 0x24208)) ||
      (decide (0x24400 ≤ o') && decide (o' < 0x24444))
    if inBank then
      if o / 0x40000 == d.rd (STAT.CORR_CTL.BANK n j) || d.on (STAT.TBL_STAT.BANK_BUSY n j) then
        (d.wr (STAT.TBL_STAT.WR_LIVE n j) 1, m)
      else (d, m.put32 (a / 4 * 4) w.toNat)
    else if 0x34000 ≤ o ∧ o < 0x34100 then (d, m.put32 (a / 4 * 4) w.toNat)
    else (d, m)

/-- The staged settings of a port against the rules of R121: 0 passes; else the cause, with area and slice of a CRC failure. -/
def corrCheck (m : Memory) (d : Dev) (l : List (Fld × Nat)) (p : Fin 16) : Option (Nat × Nat × Nat) :=
  let (n, j) := (statPage p, statBank p)
  let v (f : Nat → Nat → Fld) : Nat := stagedVal d l (f n j)
  let s := (stagedVal d l (PORT.LINE_LEN.LEN p) + 63) / 64
  let per := if v STAT.DEM.PER = 0 then 1 else if v STAT.DEM.PER = 1 then 2 else 4
  let codes := [v STAT.DEM.PH0, v STAT.DEM.PH1, v STAT.DEM.PH2, v STAT.DEM.PH3].take per
  let bank := v STAT.CORR_CTL.BANK
  let base := bankBase p bank
  let crcBad (a k : Nat) : Bool := crc32 (m.take a k) != m.u32 (a + k)
  if v STAT.CORR_CTL.NRS_EN != 0 && (v STAT.NRS.K0 + 2 * v STAT.NRS.K1 + 2 * v STAT.NRS.K2 != 256) then some (1, 0, 0)
  else if v STAT.CORR_CTL.DEM_EN != 0 &&
      (v STAT.DEM.PER == 3 || codes.any (fun c => decide (4 < c)) || codes.eraseDups.length != codes.length) then some (2, 0, 0)
  else if bank != d.rd (STAT.CORR_CTL.BANK n j) &&
      ((List.range s).any fun k => crcBad (base + 288 * k) 284) then
    some (3, 0, ((List.range s).find? fun k => crcBad (base + 288 * k) 284).getD 0)
  else if bank != d.rd (STAT.CORR_CTL.BANK n j) && (crc32 (m.take (base + 0x24000) 516) != m.u32 (base + 0x24204)) then
    some (3, 1, 0)
  else if bank != d.rd (STAT.CORR_CTL.BANK n j) && crcBad (base + 0x24400) 64 then some (3, 2, 0)
  else if min (v STAT.FLK_WIN.S1) (s - 1) < v STAT.FLK_WIN.S0 then some (4, 0, 0)
  else none

/-- A failed check recorded in TBL_STAT (R121). -/
def corrRecord (d : Dev) (p : Fin 16) (r : Nat × Nat × Nat) : Dev :=
  let (n, j) := (statPage p, statBank p)
  let d1 := d.wr (STAT.TBL_STAT.CHK_CAUSE n j) r.1
  if r.1 == 3 then
    ((((d1.wr (STAT.TBL_STAT.CRC_ERR n j) 1).wr (STAT.TBL_STAT.CRC_AREA n j) r.2.1).wr (STAT.TBL_STAT.CRC_SLICE n j) r.2.2)).irq
      (Page.STAT n) (4 * j + 3)
  else d1

/-- The key under which a snapshot waits for a port's statistics bank (R30, R131). -/
def statKey (p : Fin 16) : Nat := Page.STAT (statPage p) + 4096 * statBank p

/-- Line `w` of a port reaches its statistics bank (R30). -/
def statReach (d : Dev) (p : Fin 16) (w : Nat) : Dev :=
  d.snapReach (statKey p) w ((STAT.fields (statPage p)).filter fun f => f.addr % 4096 / 256 == 1 + statBank p)

/-- Whether a line of a set is in a port's pipeline or on its way there. -/
def portHasEpoch (d : Dev) (p : Fin 16) (e : Nat) : Bool :=
  allPipes.any fun (k : Fin 8) =>
    (d.pipes[k].slots.any fun s => s.port == p.val && s.trig.epoch == e && s.state != .done) ||
    (d.pipes[k].resQ.any fun r => r.1 == p.val && r.2.epoch == e) ||
    (d.pipes[k].trigQ.any fun t => t.epoch == e && (routeOf d e p).isSome)

/-- BANK_BUSY clears once no line of the previous set remains in the port's pipeline (R121). -/
def bankBusyClear (d : Dev) (p : Fin 16) : Dev :=
  match d.corr[p].bankEpoch with
  | none => d
  | some e =>
    if portHasEpoch d p e then d
    else (d.wr (STAT.TBL_STAT.BANK_BUSY (statPage p) (statBank p)) 0).updCorr p fun c => { c with bankEpoch := none }

/-! ## Meanings -/

def execStatRecord (p : Fin 16) (s : State) : Host.Outcome State Fault Refusal := s.onBoth (statRecord p)
def execFlickerUpdate (p : Fin 16) (s : State) : Host.Outcome State Fault Refusal := s.onDev (flickerUpdate p)
def execMainsZeroCrossing (delay : Nat) (s : State) : Host.Outcome State Fault Refusal := s.onDev (mainsZeroCrossing delay)
def execSetReqGo (p : Fin 16) (s : State) : Host.Outcome State Fault Refusal := s.onBoth (setReqGo p)
def execCorrTableWrite (addr : Nat) (word : Word32) (s : State) : Host.Outcome State Fault Refusal :=
  s.onBoth (corrTableWrite addr word)

end Sys2Proof.Machine
end

