-- ==== Sys2Proof/Machine/Pipe.lean ====
section
/-! DEFINITION. Line pipelines and port routing (spec/04_line_pipelines.md): reservation, arbitration, classes, residence and
the slot books. -/

namespace Sys2Proof.Machine

/-! ## Routes and load (R82, R85, R91) -/

/-- PIPE_FLAGS bits (Table 4.3). -/
def QF.void : Nat := 0
def QF.suspect : Nat := 1
def QF.mr : Nat := 2
def QF.mrLate : Nat := 3
def QF.dropped : Nat := 4
def QF.poison : Nat := 5
def QF.decimated : Nat := 6
def QF.noRoute : Nat := 7

/-- The ports routed to a pipeline under a set, in ascending order, with their contexts. -/
def routed (d : Dev) (epoch : Nat) (l : Fin 8) : List (Fin 16 × Ctx) :=
  allPorts.filterMap fun p => match routeOf d epoch p with
    | some (q, c) => if q = l then some (p, c) else none
    | none => none

/-- The slices of a line and its cost in cycles (R85). -/
def sliceCount (len : Nat) : Nat := (len + 63) / 64
def lineCost (len : Nat) : Nat := 16 * sliceCount len + 24

/-- W_L of a pipeline under a set (R91). -/
def pipeLoad (d : Dev) (epoch : Nat) (l : Fin 8) : Nat :=
  ((routed d epoch l).map fun r => lineCost (d.cfg epoch (PORT.LINE_LEN.LEN r.1))).foldl (· + ·) 0

/-- LOAD and LOAD_WARN of the live routes (R91, R92). -/
def refreshLoads (d : Dev) : Dev :=
  allPipes.foldl (fun d l =>
    let w := pipeLoad d (d.rd WEB.EPOCH_ID.LIVE_ID) l
    (d.wr (PIPE.LOAD.W l) w).wrB (PIPE.STATUS.LOAD_WARN l) (decide (d.rd TRIG.MIN_PERIOD.VAL < w))) d

/-! ## Classes (R99, R465) -/

def LineClass.rank : LineClass → Nat
  | .process => 0
  | .suspect => 1
  | .void => 2

/-- The stronger of two classes. -/
def LineClass.max (a b : LineClass) : LineClass := if a.rank < b.rank then b else a

/-- The class a PORT_FLAGS word calls for under a set (Table 4.2). -/
def classOf (d : Dev) (epoch : Nat) (l : Fin 8) (flags : Nat) : LineClass :=
  if bitOf flags PF.missing || bitOf flags PF.linkDown || bitOf flags PF.snoopDrop then .void
  else
    (List.range 8).foldl (fun (c : LineClass) k =>
      if bitOf flags (k + 2) then
        c.max (match bitsOf (d.cfg epoch (PIPE.FLAG_POLICY.POLICY l)) (2 * k) 2 with
          | 0 => .process
          | 2 => .void
          | _ => .suspect)
      else c) .process

/-! ## Slots -/

/-- The slots of a pipeline mapped. -/
def updSlots (d : Dev) (l : Fin 8) (g : List Slot → List Slot) : Dev := d.updPipe l fun q => { q with slots := g q.slots }

/-- One slot rewritten. -/
def updSlot (d : Dev) (l : Fin 8) (p w : Nat) (g : Slot → Slot) : Dev :=
  updSlots d l (List.map fun s => if s.port == p && s.trig.wln == w then g s else s)

/-- The PORT_FLAGS of a slot's line as known now. -/
def slotFlags (d : Dev) (s : Slot) : Nat := if s.tailIn then s.portFlags
  else (findLine d (Fin.ofNat 16 s.port) s.trig.wln).elim s.portFlags PLine.flags

/-- R96: an EPOCH_ID older than the current set and the one before it (the set of an epoch whose line E has been issued but
is not yet live counts as current). -/
def setGone (d : Dev) (epoch : Nat) : Bool :=
  !(epoch == d.rd WEB.EPOCH_ID.LIVE_ID || (d.ep.sets.head?.elim false fun q => q.1 == epoch) || epoch == d.ep.id)

/-- The class of a slot's line at this item boundary: it only rises. -/
def slotClass (d : Dev) (l : Fin 8) (s : Slot) : LineClass :=
  let c := s.cls.max (classOf d s.trig.epoch l (slotFlags d s))
  let c := if s.poison.isEmpty then c else c.max .suspect
  if setGone d s.trig.epoch then .void else c

/-- R98: a line of a port is held while an earlier one has not left its pipeline or been passed on. Within the context `via`
a line follows another at once: it is held only until the earlier one's tail has entered. -/
def heldBack (d : Dev) (p w : Nat) (via : Option (Fin 8 × Ctx)) : Bool :=
  allPipes.any fun k =>
    (d.pipes[k].slots.any fun s => s.port == p && decide (s.trig.wln < w) && s.state != .done &&
      !(s.tailIn && via == some (k, s.ctx))) ||
    (d.pipes[k].notices.any fun o => o.port == p && decide (o.trig.wln < w))

/-- A slot's head is ready (R87). -/
def headReady (d : Dev) (l : Fin 8) (s : Slot) : Bool :=
  let ln := findLine d (Fin.ofNat 16 s.port) s.trig.wln
  let closedVoid := slotClass d l s == .void && ln.elim true fun x => x.closed.isSome
  match s.ctx with
  | .m => s.landed.isSome || closedVoid
  | _ => closedVoid || ln.elim false fun x => x.headAt.isSome || x.closed.isSome

/-- The five counts of the slot book (R104). -/
def slotBook (d : Dev) (l : Fin 8) : Nat × Nat × Nat × Nat × Nat :=
  let ss := d.pipes[l].slots
  let cnt (f : Slot → Bool) : Nat := (ss.filter f).length
  (64 - ss.length, cnt fun s => s.state == .wait && !headReady d l s, cnt fun s => s.state == .wait && headReady d l s,
   cnt fun s => s.state == .run, cnt fun s => s.state == .done)

/-! ## Triggers at the pipelines (R92 to R94, R101, R103, R105) -/

/-- A pipeline sees a trigger: LINES_IN, the overload check, the lateness of landed lines, and the reservations to come. -/
def pipeTrigger (d : Dev) (l : Fin 8) : Dev :=
  match d.pipes[l].trigQ with
  | [] => d
  | t :: rest =>
    let d := d.snapReach (Page.PIPE l) t.wln (PIPE.fields l)
    let rs := routed d t.epoch l
    let q := d.pipes[l]
    let isOver := !t.skipped && q.prevTrig.elim false fun u => decide (16 * q.prevLoad > t.time - u)
    let d1 := d.addCnt (PIPE.LINES_IN.CNT l) rs.length
    let d1 := if t.skipped then d1 else
      let d2 := d1.wrB (PIPE.STATUS.OVERLOAD l) isOver
      if isOver then (d2.inc (PIPE.OVERLOAD_CNT.CNT l)).irq (Page.PIPE l) PIPE.irq.OVERLOAD else d2
    let isLate (s : Slot) : Bool :=
      !t.skipped && s.ctx == .m && s.landed.isSome && s.state != .done && !s.lateSeen && decide (1 ≤ s.trigsSince)
    let late := (q.slots.filter isLate).length
    let d1 := (List.range late).foldl (fun d _ => (d.inc (PIPE.MR_LATE_CNT.CNT l)).irq (Page.PIPE l) PIPE.irq.MR_LATE) d1
    let d1 := updSlots d1 l (List.map fun s =>
      if isLate s then { s with lateSeen := true, trigsSince := s.trigsSince + 1, pipeFlags := setBit s.pipeFlags QF.mrLate }
      else if s.ctx == .m && s.landed.isSome && !t.skipped then { s with trigsSince := s.trigsSince + 1 } else s)
    d1.updPipe l fun q =>
      { q with trigQ := rest, resQ := q.resQ ++ rs.map fun r => (r.1.val, t)
               prevTrig := if t.skipped then q.prevTrig else some t.time
               prevLoad := if t.skipped then q.prevLoad else pipeLoad d t.epoch l }

/-- TRIGGER_AT_PIPELINE: all eight pipelines in the same cycle (R103). -/
def triggerAtPipeline (d : Dev) : Dev := allPipes.foldl pipeTrigger d

/-- A line that holds no slot (R94, R101, R105): it leaves as a VOID notice and counts in LINES_VOID. The port keeps no pixels for it,
but its flags until the notice leaves. -/
def refuseSlot (d : Dev) (l : Fin 8) (p : Fin 16) (t : TrigRec) (mr : Bool) (flag : Nat) : Dev :=
  let o : OutLine :=
    { trig := t, port := p.val, pipe := l.val, epoch := t.epoch, setId := 0xFFFF, portFlags := 0
      pipeFlags := 1 + (if mr then 4 else 0) + 2 ^ flag, residence := 0, y := [] }
  let d1 := (d.inc (PIPE.LINES_VOID.CNT l)).updPipe l fun q => { q with notices := q.notices ++ [o] }
  bankBusyClear (if (findLine d1 p t.wln).elim false fun x => x.closed.isSome then releaseBlocks d1 p t.wln else d1) p

/-- SLOT_RESERVE (R103): the next routed port of the trigger takes its cycle. Where several refusals hold, decimation comes before
MRQ_MAX and that before a full book; in degraded mode a memory-routed line skips the first two (log entry 129). -/
def slotReserve (l : Fin 8) (d : Dev) : Dev :=
  match d.pipes[l].resQ with
  | [] => d
  | (pn, t) :: rest =>
    let p : Fin 16 := Fin.ofNat 16 pn
    let d := d.updPipe l fun q => { q with resQ := rest }
    let ctx := (routeOf d t.epoch p).elim Ctx.m Prod.snd
    let mr := ctx == .m
    let gone := mr && d.on (PIPE.STATUS.DEGRADED l)
    let n := d.rd (PIPE.DECIM.N l)
    let waiting := (d.pipes[l].slots.filter fun s => s.ctx == Ctx.m && s.state == SlotState.wait).length
    if mr && !gone && decide (1 < n) && t.wln % n != 0 then
      (refuseSlot d l p t true QF.decimated).inc (PIPE.DECIM_CNT.CNT l)
    else if mr && !gone && decide (d.cfg t.epoch (PIPE.ARB.MRQ_MAX l) ≤ waiting) then
      ((refuseSlot d l p t true QF.dropped).inc (PIPE.MR_DROP_CNT.CNT l)).irq (Page.PIPE l) PIPE.irq.MR_DROP
    else if 64 ≤ d.pipes[l].slots.length then
      ((refuseSlot d l p t mr QF.dropped).inc (PIPE.SLOT_FULL_CNT.CNT l)).irq (Page.PIPE l) PIPE.irq.SLOT_FULL
    else
      let s : Slot :=
        { port := pn, trig := t, ctx := ctx, state := .wait, item := 0, landed := none, trigsSince := 0, fetched := 0
          poison := [], cls := if gone then .void else .process
          pipeFlags := (if mr then 4 else 0) + (if gone then 2 ^ QF.noRoute else 0), yOk := 0, portFlags := 0
          setId := 0xFFFF, tailIn := false, lateSeen := false, residence := 0
          phase := (findLine d p t.wln).bind PLine.phase, proc := none }
      updSlots d l fun ss => ss ++ [s]

/-- MR_LINE_LANDED (R87): the line's last pixel has been written to HBM, be the line closed or not. Its pixels leave the port
buffer. -/
def mrLineLanded (l : Fin 8) (p : Fin 16) (w : Nat) (d : Dev) : Dev :=
  match d.pipes[l].slots.find? fun s => s.port == p.val && s.trig.wln == w && s.ctx == .m && s.state == .wait && s.landed.isNone with
  | none => d
  | some s =>
    let whole (x : PLine) : Bool := x.closed.isSome || decide (d.cfg s.trig.epoch (PORT.LINE_LEN.LEN p) ≤ x.pix.length)
    if !(findLine d p w).elim false whole || slotClass d l s == .void then d
    else releaseBlocks (updSlot d l p w fun s => { s with landed := some d.now }) p w

/-! ## Arbitration (R88 to R90) -/

/-- The number of slices of a slot's line under its set. -/
def slotSlices (d : Dev) (s : Slot) : Nat := sliceCount (d.cfg s.trig.epoch (PORT.LINE_LEN.LEN s.port))

/-- The slot a context works on next: the line it runs, else the line it would start. -/
def ctxSlot (d : Dev) (l : Fin 8) (c : Ctx) : Option Slot :=
  let ss := d.pipes[l].slots.filter fun s => s.ctx == c
  match ss.find? fun s => s.state == .run && !s.tailIn with
  | some s => some s
  | none =>
    let ready := ss.filter fun s => s.state == .wait && headReady d l s && !heldBack d s.port s.trig.wln (some (l, s.ctx))
    let first := match c with
      | .m => ready
      | _ => ready.filter fun s => !(ss.any fun x => x.state == SlotState.wait && decide (x.trig.wln < s.trig.wln))
    first.foldl (fun (b : Option Slot) s => match b with
      | none => some s
      | some x => if s.trig.wln < x.trig.wln ∨ (s.trig.wln = x.trig.wln ∧ s.port < x.port) then some s else some x) none

/-- The instant at which slice `k` of an in-line line had all its pixels, or the line was closed. -/
def sliceReadyAt (ln : PLine) (len k : Nat) : Option Nat :=
  let need := min (64 * (k + 1)) len
  let t := (ln.marks.filter fun q => decide (need ≤ q.1)).foldl
    (fun (b : Option Nat) q => some (b.elim q.2 fun x => min x q.2)) none
  match t, ln.closed with
  | some a, some b => some (min a b)
  | some a, none => some a
  | none, c => c

/-- The instant since when a slot's next item is ready, if it is. -/
def itemReadyAt (d : Dev) (l : Fin 8) (s : Slot) : Option Nat :=
  let n := slotSlices d s
  let ln := findLine d (Fin.ofNat 16 s.port) s.trig.wln
  if s.item = 0 then
    match s.ctx with
    | .m => some (s.landed.getD 0)
    | _ => some (ln.elim 0 fun x => match x.headAt, x.closed with
        | some a, some b => min a b
        | some a, none => a
        | none, c => c.getD 0)
  else if n < s.item then some 0
  else if slotClass d l s == .void then some ((ln.bind PLine.closed).getD d.now)
  else
    match s.ctx with
    | .m => if s.item ≤ s.fetched then some 0 else none
    | _ => ln.bind fun x => sliceReadyAt x (d.cfg s.trig.epoch (PORT.LINE_LEN.LEN s.port)) (s.item - 1)

/-- MR_SLICE_FETCH (R87, R100): the chosen memory-routed line gets its next slice, at most 64 ahead. -/
def mrSliceFetch (l : Fin 8) (poisoned : Bool) (d : Dev) : Dev :=
  match ctxSlot d l .m with
  | none => d
  | some s =>
    if slotSlices d s ≤ s.fetched ∨ s.item - 1 + 64 ≤ s.fetched ∨ slotClass d l s == .void then d
    else
      updSlot d l s.port s.trig.wln fun s =>
        { s with fetched := s.fetched + 1, poison := if poisoned then s.fetched :: s.poison else s.poison }

/-! ## Items (R85, R96 to R100) -/

/-- The bank that holds a slot's tables. -/
def slotBank (d : Dev) (s : Slot) : Nat :=
  let p : Fin 16 := Fin.ofNat 16 s.port
  bankBase s.port (d.cfg s.trig.epoch (STAT.CORR_CTL.BANK (statPage p) (statBank p)))

/-- Table words are read for slice `k` of a port's line (R100, R280): each faulty one is logged. Answers whether one is lost. -/
def tableRead (p k a n : Nat) (x : DM) : Bool × DM :=
  if x.2.checks.isEmpty && x.1.integ.gone.isEmpty then (false, x)
  else
    let y := readRange x a n ⟨0, some k, some p, false⟩
    (y.1.lostIn a n, y.2)

/-- Slices that poison a line added to those it has. -/
def Slot.addPoison (s : Slot) (ks : List Nat) : Slot := { s with poison := s.poison ++ ks.filter fun k => !s.poison.contains k }

/-- The head: in MODE 3 the line's word of the flicker table is read, for every slice of the line. -/
def headRead (s : Slot) (x : DM) : List Nat × DM :=
  let d := x.1
  let p : Fin 16 := Fin.ofNat 16 s.port
  match (findLine d p s.trig.wln).bind (flickerBin d p) with
  | none => ([], x)
  | some (b, _) =>
    if d.cfg s.trig.epoch (STAT.FLK_CTL.MODE (statPage p) (statBank p)) = 3 then
      let r := tableRead s.port 0 (slotBank d s + 0x24400 + 2 * b) 2 x
      (if r.1 then List.range (slotSlices d s) else [], r.2)
    else ([], x)

/-- The head enters the pipeline. -/
def headGrant (x : DM) (l : Fin 8) (s : Slot) : DM :=
  let p : Fin 16 := Fin.ofNat 16 s.port
  let x := (statReach x.1 p s.trig.wln, x.2)
  let r := if slotClass x.1 l s == .void then ([], x) else headRead s x
  let s := s.addPoison r.1
  (updSlot r.2.1 l s.port s.trig.wln fun q => { q with state := .run, item := 1, poison := s.poison, cls := slotClass r.2.1 l s }, r.2.2)

/-- A slice enters the pipeline with its record of the tables; it passes stage 2 in the class the line has then. -/
def sliceGrant (x : DM) (l : Fin 8) (s : Slot) : DM :=
  let k := s.item - 1
  let r := tableRead s.port k (slotBank x.1 s + 288 * k) 288 x
  let s := if r.1 then s.addPoison [k] else s
  let cls := slotClass r.2.1 l s
  (updSlot r.2.1 l s.port s.trig.wln fun q =>
    { q with item := q.item + 1, cls := cls, poison := s.poison, yOk := if cls == .process then q.item else q.yOk }, r.2.2)

/-- The slices of a corrected line that use a lost word of the tone curve; each faulty word the line uses is read once. -/
def toneRead (s : Slot) (pr : Proc) (h : Nat) (x : DM) : List Nat × DM :=
  let d := x.1
  let p : Fin 16 := Fin.ofNat 16 s.port
  if (x.2.checks.isEmpty && d.integ.gone.isEmpty) || d.cfg s.trig.epoch (STAT.CORR_CTL.TONE_EN (statPage p) (statBank p)) = 0 then
    ([], x)
  else
    let used (k : Nat) : List Nat :=
      ((stageFlicker h (((pr.m.drop (64 * k)).take 64).map fun v => ⟨v, false⟩)).flatMap fun c => knotsUsed c.v).eraseDups
    let at' (i : Nat) : Nat := (slotBank d s + 0x24000 + 2 * i) / 8 * 8
    let ks := (List.range (slotSlices d s)).map fun k => (k, (used k).map at')
    -- the words read so far, each with whether it is lost
    let read (k : Nat) (y : List (Nat × Bool) × DM) (a : Nat) : List (Nat × Bool) × DM :=
      if y.1.any fun q => q.1 == a then y else let r := tableRead s.port k a 8 y.2; ((a, r.1) :: y.1, r.2)
    let y := ks.foldl (fun y q => q.2.foldl (read q.1) y) (([] : List (Nat × Bool)), x)
    ((ks.filter fun q => q.2.any fun a => y.1.contains (a, true)).map Prod.fst, y.2)

/-- The stages form a line (R107 to R118). A slice that a lost word of the tone curve touches runs as zeros, and the line is SUSPECT
from then on: what stage 2 had written stands (R100, R465; log entry 130). -/
def formLine (x : DM) (s : Slot) (ln : PLine) : Proc × Slot × DM :=
  let d := x.1
  let p : Fin 16 := Fin.ofNat 16 s.port
  let base := slotBank d s
  let m := x.2.fixRange base 0x24444
  let (pr, d1) := correctLine m d p ln s.poison s.yOk
  if x.2.checks.isEmpty then (pr, s, (d1, x.2))
  else
    let (ks, y) := toneRead s pr (flickerGain m d p ln base) x
    let s' := s.addPoison ks
    let (pr', d2) := correctLine m y.1 p ln s'.poison s.yOk
    (pr', s', (d2.updCorr p fun c => { c with y := d1.corr[p].y, yPos := d1.corr[p].yPos }, y.2))

/-- The tail of a line enters the pipeline: its class and PORT_FLAGS are final (R465), the stages form the line, and the
port buffer is released. -/
def tailGrant (x : DM) (l : Fin 8) (s : Slot) : DM :=
  let p : Fin 16 := Fin.ofNat 16 s.port
  let w := s.trig.wln
  let ln := findLine x.1 p w
  let flags := slotFlags x.1 s
  let (proc, s, y) := match slotClass x.1 l s, ln with
    | .void, _ => (none, s, x)
    | _, none => (none, s, x)
    | _, some q =>
      let (pr, s', y) := formLine x s q
      (some pr, s', y)
  let cls := slotClass y.1 l s
  let d1 := endRecursion y.1 p s.trig proc.isNone
  let d2 := updSlot d1 l s.port w fun q =>
    { q with cls := cls, tailIn := true, portFlags := flags, setId := ln.elim 0xFFFF PLine.setId, proc := proc
             poison := s.poison
             item := slotSlices x.1 s + 2
             pipeFlags := if setGone x.1 s.trig.epoch then setBit q.pipeFlags QF.mrLate else q.pipeFlags }
  (if ln.elim false fun q => q.closed.isSome then releaseLine d2 p w else releaseBlocks d2 p w, y.2)

/-- The next item of a slot is granted: head, slice or tail. -/
def grantItem (x : DM) (l : Fin 8) (s : Slot) : DM :=
  if s.item = 0 then headGrant x l s
  else if slotClass x.1 l s == .void || decide (slotSlices x.1 s < s.item) then tailGrant x l s
  else sliceGrant x l s

/-- The instant since when a slot's next item is its context's oldest ready item (R89, R98): not before the end of the tick after
the context's last grant, and for a head not before the port's line before it left another route. -/
def oldestSince (d : Dev) (l : Fin 8) (s : Slot) (readyAt : Nat) : Nat :=
  let q := d.ports[Fin.ofNat 16 s.port]
  let held := if s.item = 0 ∧ q.lastVia ≠ some (l, s.ctx) then q.lastAt else 0
  max (max readyAt held) ((if s.ctx == .a then d.pipes[l].grantA else d.pipes[l].grantB) + 20)

/-- IL_STALL (R89): the wait of an in-line item in CLK_PIX cycles (40 cycles are 533 1/3 units of 1/16 ns). -/
def recordWait (d : Dev) (l : Fin 8) (s : Slot) (readyAt : Nat) : Dev :=
  let wait := (d.now - oldestSince d l s readyAt) * 3 / 40
  let d1 := if d.rd (PIPE.IL_WAIT_MAX.CYCLES l) < wait then d.wrSat (PIPE.IL_WAIT_MAX.CYCLES l) wait else d
  d1.irqIf (decide (31 < wait)) (Page.PIPE l) PIPE.irq.IL_STALL

/-- ITEM_GRANT (R88): the pipeline grants one item by the arbitration order, or idles. -/
def itemGrant (l : Fin 8) (x : DM) : DM :=
  let d := x.1
  let cand (c : Ctx) : Option (Slot × Nat) := (ctxSlot d l c).bind fun s => (itemReadyAt d l s).map fun t => (s, t)
  let grantIl (c : Ctx) (s : Slot) (t : Nat) : DM :=
    let y := grantItem (recordWait d l s t, x.2) l s
    (y.1.updPipe l fun q =>
      { q with lastIl := c, grantA := if c == .a then d.now else q.grantA, grantB := if c == .b then d.now else q.grantB }, y.2)
  match cand .a, cand .b with
  | some (s, t), none => grantIl .a s t
  | none, some (s, t) => grantIl .b s t
  | some (sa, ta), some (sb, tb) => if d.pipes[l].lastIl == .a then grantIl .b sb tb else grantIl .a sa ta
  | none, none =>
    match cand .m with
    | some (s, _) => grantItem x l s
    | none => x

/-! ## Leaving the pipeline (R97, R98, R102 to R104) -/

/-- The line header and words that leave a slot. -/
def slotOut (l : Fin 8) (s : Slot) : OutLine :=
  { trig := s.trig, port := s.port, pipe := l.val, epoch := s.trig.epoch, setId := s.setId, portFlags := s.portFlags
    pipeFlags := Nat.lor s.pipeFlags ((match s.cls with | .void => 1 | .suspect => 2 | .process => 0) +
      (if s.poison.isEmpty then 0 else 2 ^ QF.poison))
    residence := s.residence, y := s.proc.elim [] Proc.y }

/-- LINE_TAIL_OUT (R103): the header is complete, the classes count, the residence is taken, the statistics step ends the
line, and the slot goes DONE. POISON_CNT and IRQ_RAW.POISON count the line once, here (log entry 131). -/
def lineTailOut (l : Fin 8) (p : Fin 16) (w : Nat) (d : Dev) : Dev :=
  match d.pipes[l].slots.find? fun s => s.port == p.val && s.trig.wln == w && s.state == .run && s.tailIn with
  | none => d
  | some s =>
    let res := s.landed.elim 0 fun t => d.now - t
    let d1 := updSlot d l p w fun x => { x with state := .done }
    let d1 := match s.cls with
      | .void => d1.inc (PIPE.LINES_VOID.CNT l)
      | .suspect => d1.inc (PIPE.LINES_SUSPECT.CNT l)
      | .process => d1
    let d1 := if s.poison.isEmpty then d1 else (d1.inc (PIPE.POISON_CNT.CNT l)).irq (Page.PIPE l) PIPE.irq.POISON
    let d1 := if s.landed.isSome && decide (d1.rd (PIPE.MR_RES_MAX.NS l) < res / 16)
              then d1.wrSat (PIPE.MR_RES_MAX.NS l) (res / 16) else d1
    let d2 := statLine d1 p s.trig l.val s.cls s.portFlags s.phase s.proc
    let d3 := d2.updPort p fun q => { q with lastOut := some w, lastAt := d.now, lastVia := some (l, s.ctx) }
    bankBusyClear (updSlot d3 l p w fun x => { x with residence := min (res / 256) (2 ^ 24 - 1) }) p

/-- VOID_NOTICE (R98): a line without a slot is passed on once the port's earlier lines have left. -/
def voidNotice (l : Fin 8) (p : Fin 16) (w : Nat) (d : Dev) : Dev :=
  match d.pipes[l].notices.find? fun o => o.port == p.val && o.trig.wln == w with
  | none => d
  | some o =>
    if heldBack d p w none then d
    else
      let ln := findLine d p w
      let fl := ln.elim 0 PLine.flags
      let d := statReach d p w
      let d1 := d.updPipe l fun q =>
        { q with notices := q.notices.filter fun x => !(x.port == p.val && x.trig.wln == w)
                 passed := q.passed ++ [{ o with portFlags := fl, setId := ln.elim o.setId PLine.setId }] }
      let d2 := statLine (endRecursion d1 p o.trig true) p o.trig l.val .void fl (ln.bind PLine.phase) none
      let d3 := d2.updPort p fun q => { q with lastOut := some w, lastAt := d.now, lastVia := none }
      if ln.elim false fun x => x.closed.isSome then releaseLine d3 p w else d3

/-- Degraded on-die mode at a pipeline (R101): unfinished memory-routed lines leave as VOID with NO_ROUTE. -/
def pipeDegrade (d : Dev) (l : Fin 8) : Dev :=
  updSlots (d.wr (PIPE.STATUS.DEGRADED l) 1) l (List.map fun s =>
    if s.ctx == .m && s.state != .done && !s.tailIn then { s with cls := .void, pipeFlags := setBit s.pipeFlags QF.noRoute } else s)

/-- Decimation of memory-routed lines (R101, throttle step 3). -/
def setDecimation (d : Dev) (n : Nat) : Dev :=
  allPipes.foldl (fun (d : Dev) (l : Fin 8) => (d.wr (PIPE.DECIM.N l) n).wrB (PIPE.STATUS.DECIMATING l) (decide (1 < n))) d

/-- The consistency check of the staged routes (R83): the pipeline, cause and port of the first fault. -/
def routeCheck (d : Dev) (st : List (Fld × Nat)) : Option (Nat × Nat × Nat) :=
  let v (f : Fld) : Nat := stagedVal d st f
  let uses (l : Fin 8) (p : Fin 16) : Nat :=
    (if v (PIPE.ROUTE_IL.A_EN l) != 0 && p.val == 4 * (l.val / 2) + v (PIPE.ROUTE_IL.A_PORT l) then 1 else 0) +
    (if v (PIPE.ROUTE_IL.B_EN l) != 0 && p.val == 4 * (l.val / 2) + v (PIPE.ROUTE_IL.B_PORT l) then 1 else 0) +
    (if bitOf (v (PIPE.ROUTE_MR.MR_MASK l)) p.val then 1 else 0)
  allPipes.findSome? fun (l : Fin 8) =>
    if v (PIPE.ROUTE_IL.A_EN l) != 0 && v (PIPE.ROUTE_IL.B_EN l) != 0 &&
        v (PIPE.ROUTE_IL.A_PORT l) == v (PIPE.ROUTE_IL.B_PORT l) then
      some (l.val, 2, 4 * (l.val / 2) + v (PIPE.ROUTE_IL.A_PORT l))
    else if d.on MEM.STATUS.DEGRADED && !d.on MEM.STATUS.HBM_READY && v (PIPE.ROUTE_MR.MR_MASK l) != 0 then
      some (l.val, 3, (lowestBit 16 (v (PIPE.ROUTE_MR.MR_MASK l))).getD 0)
    else
      (allPorts.find? fun p => decide (0 < uses l p) && decide (1 < (allPipes.map fun k => uses k p).foldl (· + ·) 0)).map
        fun p => (l.val, 1, p.val)

/-! ## Meanings -/

def execTriggerAtPipeline (s : State) : Host.Outcome State Fault Refusal := s.onDev triggerAtPipeline
def execSlotReserve (l : Fin 8) (s : State) : Host.Outcome State Fault Refusal := s.onDev (slotReserve l)
def execMrLineLanded (l : Fin 8) (p : Fin 16) (wln : Nat) (s : State) : Host.Outcome State Fault Refusal :=
  s.onDev (mrLineLanded l p wln)
def execMrSliceFetch (l : Fin 8) (poisoned : Bool) (s : State) : Host.Outcome State Fault Refusal :=
  s.onDev (mrSliceFetch l poisoned)
def execItemGrant (l : Fin 8) (s : State) : Host.Outcome State Fault Refusal := s.onBoth (itemGrant l)
def execLineTailOut (l : Fin 8) (p : Fin 16) (wln : Nat) (s : State) : Host.Outcome State Fault Refusal :=
  s.onDev (lineTailOut l p wln)
def execVoidNotice (l : Fin 8) (p : Fin 16) (wln : Nat) (s : State) : Host.Outcome State Fault Refusal :=
  s.onDev (voidNotice l p wln)
/-- R106: a write of CLEAR.IL_WAIT_MAX. -/
def execIlWaitMaxClear (l : Fin 8) (s : State) : Host.Outcome State Fault Refusal :=
  s.onDev fun d => d.wr (PIPE.IL_WAIT_MAX.CYCLES l) 0
/-- R106: a write of CLEAR.MR_RES_MAX. -/
def execMrResMaxClear (l : Fin 8) (s : State) : Host.Outcome State Fault Refusal :=
  s.onDev fun d => d.wr (PIPE.MR_RES_MAX.NS l) 0

end Sys2Proof.Machine
end

