-- ==== Sys2Proof/Machine/Stitch.lean ====
section
/-! DEFINITION. Stitching the web (spec/07_stitching.md): seam maps, stagger, release, column rules, strips, seam agreement
and calibration. -/

namespace Sys2Proof.Machine

/-! ## Seam maps (R164 to R166) -/

/-- WEB_FLAGS bits (Table 7.2). -/
def WF.skipped : Nat := 0
def WF.late : Nat := 1
def WF.remoteLate : Nat := 2
def WF.reconf : Nat := 3
def WF.noStagger : Nat := 4
def WF.diverged : Nat := 5
def WF.epochDoubt : Nat := 6
def WF.holes : Nat := 7

/-- A way to read a field: under a set by EPOCH_ID, or with a staged set applied. -/
abbrev View := Fld → Nat

/-- A signed 32-bit field under a view. -/
def View.i32 (v : View) (f : Fld) : Int := toSigned 32 (v f)

/-- x_i of a port's seam map in fine units (R164). -/
def seamX (v : View) (p i : Nat) : Int :=
  let c0 := toSigned 40 (v (STITCH.C0_LO.C0 p) + 2 ^ 32 * v (STITCH.C0_HI.C0 p))
  c0 + sar (v.i32 (STITCH.C1.C p) * i) 16 + sar (v.i32 (STITCH.C2.C p) * i * i) 32 + sar (v.i32 (STITCH.C3.C p) * i * i * i) 48

/-- PIX_FIRST and PIX_LAST, the latter taken as at most LINE_LEN − 1. -/
def pixRange (v : View) (p : Nat) : Nat × Nat :=
  (v (STITCH.PIX_RANGE.FIRST p), min (v (STITCH.PIX_RANGE.LAST p)) (v (PORT.LINE_LEN.LEN p) - 1))

/-- Ceiling of a fine position in columns. -/
def ceilCol (x : Int) : Int := (x + 4095) / 4096

/-- X_FIRST and X_LAST of a port: the map is monotone, so its ends bound it (R165). -/
def cover (v : View) (p : Nat) : Int × Int :=
  let (a, b) := pixRange v p
  let (xa, xb) := (seamX v p a, seamX v p b)
  (ceilCol (min xa xb), (max xa xb) / 4096)

/-- The map is valid: every step nonzero, of one sign, and at most one grid pitch (R165). -/
def mapValid (v : View) (p : Nat) : Bool :=
  let (a, b) := pixRange v p
  let step (k : Nat) : Int := seamX v p (a + k + 1) - seamX v p (a + k)
  (List.range (b - a)).all fun k => step k != 0 && decide ((step k).natAbs ≤ 4096) && decide (0 < step k ↔ 0 < step 0)

/-- COL_FIRST, COL_COUNT and EDGE under a view. -/
def colFirst (v : View) : Int := v.i32 STITCH.COL_FIRST.COL
def colCount (v : View) : Nat := v STITCH.COL_COUNT.N
def colLast (v : View) : Int := colFirst v + colCount v - 1

/-- Stage 8 (R166): the columns a line's pixels emit, in ascending column order. -/
def stage8 (v : View) (p : Nat) (y : List Nat) (st : Nat) : List (Int × Nat × Nat) :=
  let (a, b) := pixRange v p
  let val (i : Nat) : Int := ((y.getD i 0 : Nat) : Int)
  let lim (c : Int) : Bool :=
    decide (colFirst v - v STITCH.EDGE.VAL ≤ c) && decide (c ≤ colLast v + v STITCH.EDGE.VAL)
  let pair (i : Nat) : List (Int × Nat × Nat) :=
    let (x0, x1) := (seamX v p i, seamX v p (i + 1))
    let (lo, hi) := (min x0 x1, max x0 x1)
    let (vlo, vhi) := if x0 ≤ x1 then (val i, val (i + 1)) else (val (i + 1), val i)
    let d := hi - lo
    let c := ceilCol lo
    if 4096 * c < hi ∧ lim c then [(c, (vlo + ((vhi - vlo) * (4096 * c - lo) + d / 2) / d).toNat, st)] else []
  let last := let e := if seamX v p a ≤ seamX v p b then b else a
    if seamX v p e % 4096 = 0 ∧ lim (seamX v p e / 4096) then [(seamX v p e / 4096, (val e).toNat, st)] else []
  let cs := (List.range (b - a)).flatMap fun k => pair (a + k)
  (if seamX v p a ≤ seamX v p b then cs else cs.reverse) ++ last

/-! ## The chain (R168) -/

/-- One member of the chain under a set: a port or a remote strip, its cover, its segment, and its seam to the next. -/
structure Link where
  id : Nat
  xf : Int
  xl : Int
  seg : Option Seg
  rule : Nat
  half : Nat
  seam : Int
  deriving DecidableEq, Repr

/-- F of a rule: OWNER and the reserved code have an empty zone. -/
def effHalf (rule f : Nat) : Nat := if rule = 1 ∨ rule = 2 then f else 0

/-- The enabled ports by ascending X_FIRST. -/
def chainPorts (v : View) : List Nat :=
  sortBy (fun p q => decide ((cover v p).1 ≤ (cover v q).1)) ((List.range 16).filter fun p => v (STITCH.CFG.EN p) != 0)

/-- A port as a chain member. -/
def portLink (v : View) (seg : Option Seg) (p : Nat) : Link :=
  let c := cover v p
  ⟨p, c.1, c.2, seg, v (STITCH.CFG.RULE p), effHalf (v (STITCH.CFG.RULE p)) (v (STITCH.CFG.F p)), v.i32 (STITCH.SEAM_X.COL p)⟩

/-- The half-width of a ring seam: at most EDGE (Table 7.5). -/
def ringHalf (v : View) (rule f : Fld) : Nat := effHalf (v rule) (min (v f) (v STITCH.EDGE.VAL))

/-- The whole chain of a web line: the ports and, where a neighbour is present, its strips at the ends (R178). -/
def chain (v : View) (seg : Nat → Option Seg) : List Link :=
  let e : Int := v STITCH.EDGE.VAL
  let ps := (chainPorts v).map fun p => portLink v (seg p) p
  let lo := if v STITCH.RSEAM_LO.EN != 0 then
    [⟨16, colFirst v - e, colFirst v + e - 1, seg 16, v STITCH.RSEAM_LO.RULE, ringHalf v STITCH.RSEAM_LO.RULE STITCH.RSEAM_LO.F,
      colFirst v⟩] else []
  let hi := if v STITCH.RSEAM_HI.EN != 0 then
    [⟨17, colLast v + 1 - e, colLast v + e, seg 17, 0, 0, 0⟩] else []
  let ps := if v STITCH.RSEAM_HI.EN != 0 then
      ps.dropLast ++ (ps.getLast?.toList.map fun q =>
        { q with rule := v STITCH.RSEAM_HI.RULE, half := ringHalf v STITCH.RSEAM_HI.RULE STITCH.RSEAM_HI.F, seam := colLast v + 1 })
    else ps
  lo ++ ps ++ hi

/-- The value and state of a member at a column, if its segment is present and has one. -/
def Link.at (q : Link) (c : Int) : Option (Nat × Nat) :=
  q.seg.bind fun s => if s.void then none else (s.cols.find? fun x => x.1 == c).bind fun x => if x.2.2 = 2 then none else some x.2

/-- |v(c+1) − v(c−1)| of a member, neighbours clamped to its own emitted columns (rule MAXC). -/
def Link.slope (q : Link) (c : Int) : Nat :=
  match q.seg with
  | none => 0
  | some s =>
    match s.cols.head?, s.cols.getLast? with
    | some a, some b =>
      let g (k : Int) : Int := (((q.at (clampI a.1 b.1 k)).getD (0, 0)).1 : Int)
      (g (c + 1) - g (c - 1)).natAbs
    | _, _ => 0

/-- A column where both members are present (Table 7.1). -/
def seamCol (l u : Link) (c : Int) (a b : Nat × Nat) : Nat × Nat :=
  if c < l.seam - l.half then a
  else if l.seam + l.half ≤ c then b
  else if l.rule = 1 then
    let n : Int := 2 * (c - l.seam + l.half) + 1
    let k : Int := 4 * l.half
    ((((a.1 : Int) * (k - n) + b.1 * n + k / 2) / k).toNat, max a.2 b.2)
  else if l.slope c < u.slope c then b
  else if u.slope c < l.slope c then a
  else if c < l.seam then a else b

/-- One column of a web line: the covering members that are present, each joined to the next by Table 7.1; none is a HOLE. -/
def formCol (ch : List Link) (c : Int) : Option (Nat × Nat) :=
  match ch.filterMap fun q => if q.xf ≤ c ∧ c ≤ q.xl then (q.at c).map fun a => (q, a) else none with
  | [] => none
  | first :: rest => some (rest.foldl (fun l u => (u.1, seamCol l.1 u.1 c l.2 u.2)) first).2

/-! ## Segments on their way (R167, R170, R171, R176) -/

def Dev.updStitch (d : Dev) (g : Stitch → Stitch) : Dev := { d with stitch := g d.stitch }

/-- A port's segment is withheld from a web line: deep stagger in degraded mode, a change of its map (R176), or a port line
before the first line of triggering. -/
def withheld (d : Dev) (v : View) (p w : Nat) : Bool :=
  let dl := v (STITCH.STAGGER.D p)
  (d.on STITCH.STATUS.DEGRADED && decide (16 < dl)) || decide (d.stitch.firstWln ≤ w ∧ w < d.stitch.firstWln + dl) ||
    d.stitch.reconf.any fun r => r.1 == p && decide (r.2.1 ≤ w ∧ w < r.2.2)

/-- The accepted segment of a port or strip for a web line. -/
def segFor (d : Dev) (v : View) (w p : Nat) : Option Seg :=
  if p < 16 then
    if withheld d v p w then none
    else d.stitch.segs.find? fun s => s.port == p && s.wln + v (STITCH.STAGGER.D p) == w
  else d.stitch.segs.find? fun s => s.port == p && s.wln == w

/-- The enabled ports whose segment for a web line is still outstanding. -/
def outstanding (d : Dev) (v : View) (w : Nat) : List Nat :=
  (chainPorts v).filter fun p => !withheld d v p w && (segFor d v w p).isNone

/-- The remote strips still outstanding. -/
def stripsDue (d : Dev) (v : View) (w : Nat) : List Nat :=
  (if v STITCH.RSEAM_LO.EN != 0 && (segFor d v w 16).isNone then [16] else []) ++
  (if v STITCH.RSEAM_HI.EN != 0 && (segFor d v w 17).isNone then [17] else [])

/-- The two strips of a web line (R178). -/
def sendStrips (d : Dev) (v : View) (w : Nat) : Dev :=
  let e : Int := v STITCH.EDGE.VAL
  let cells (p : Option Nat) (lo hi : Int) : List Int :=
    match p.bind (segFor d v w) with
    | none => []
    | some s => if s.void then [] else
      (s.cols.filter fun c => decide (lo ≤ c.1 ∧ c.1 ≤ hi)).flatMap fun c => [c.1, (c.2.1 : Int), (c.2.2 : Int)]
  let ps := chainPorts v
  let d1 := if v STITCH.RSEAM_LO.EN != 0 then
      d.emit (.string .strip ([0, (w : Int)] ++ cells ps.head? (colFirst v - e) (colFirst v - 1))) else d
  if v STITCH.RSEAM_HI.EN != 0 then
    d1.emit (.string .strip ([1, (w : Int)] ++ cells ps.getLast? (colLast v + 1) (colLast v + e))) else d1

/-- Strips of every waiting line whose own segments are complete. -/
def stripSweep (d : Dev) : Dev :=
  d.stitch.waiting.foldl (fun d o =>
    let v := d.cfg o.trig.epoch
    if o.stripsSent || !(outstanding d v o.trig.wln).isEmpty then d
    else (sendStrips d v o.trig.wln).updStitch fun s =>
      { s with waiting := s.waiting.map fun x => if x.trig.wln == o.trig.wln then { x with stripsSent := true } else x }) d

/-- The trigger of a web line reaches the stitch stage; a line that expects no segment of its own sends its strips at once. -/
def stitchTrigger (d : Dev) (t : TrigRec) : Dev :=
  stripSweep (d.updStitch fun s => { s with waiting := s.waiting ++ [⟨t, false, false⟩] })

/-- A segment that is held in HBM in degraded mode: it is lost, and its web line takes it as absent (R167, R288). -/
def Seg.loseDeep (d : Dev) (epoch : Nat) (s : Seg) : Seg :=
  if s.port < 16 ∧ 16 < d.cfg epoch (STITCH.STAGGER.D s.port) then { s with void := true, suspect := false, cols := [] } else s

/-- Degraded on-die mode at the stitch stage. -/
def stitchDegrade (d : Dev) : Dev :=
  let live := d.rd WEB.EPOCH_ID.LIVE_ID
  stripSweep ((d.wr STITCH.STATUS.DEGRADED 1).updStitch fun q => { q with segs := q.segs.map (Seg.loseDeep d live) })

/-! ## Calibration (R180, R181) -/

/-- The mean with half up rounding of R180. -/
def meanUp (s n : Nat) : Nat := if n = 0 then 0 else (s + n / 2) / n

/-- The edges of a port's mean line. -/
def edges (v : View) (p thr : Nat) (ys : List Nat) : List (Nat × Nat) :=
  let (a, b) := pixRange v p
  (List.range (b - a)).filterMap fun k =>
    let i := a + k
    let y0 : Int := ys.getD i 0
    let y1 : Int := ys.getD (i + 1) 0
    let d := y1 - y0
    let rising := decide (y0 < thr ∧ (thr : Int) ≤ y1)
    if rising ∨ ((thr : Int) ≤ y0 ∧ y1 < thr) then
      some (ofSigned 32 (256 * i + (((thr : Int) - y0) * 256 + d / 2).fdiv d), b2n rising + 65536 * d.natAbs)
    else none

/-- A result area written. -/
def calStore (m : Memory) (p : Nat) (ws : List (Nat × Nat)) : Memory :=
  let base := 0x05000000 + 0x400 * p
  ws.foldl (fun m w => m.put32 (base + 4 * w.1) w.2) (m.zero base 0x400)

/-- A port has finished; with the last one the measurement ends. -/
def calEnd (d : Dev) (p : Nat) : Dev :=
  let d1 := d.updStitch fun s => { s with cal := s.cal.filter fun c => c.port != p }
  if d1.stitch.cal.isEmpty then
    ((d1.wr STITCH.CAL_STAT.BUSY 0).wr STITCH.CAL_STAT.DONE 1).irq Page.STITCH STITCH.irq.CAL_DONE
  else d1

/-- A PROCESS line of a port under measurement. -/
def calLine (x : DM) (o : OutLine) : DM :=
  let (d, m) := x
  match d.stitch.cal.find? fun c => c.port == o.port with
  | none => x
  | some c =>
    let v := d.cfg o.epoch
    let wl := o.trig.wln
    let (a, b) := pixRange v o.port
    if d.stitch.calMode = 1 then
      let sums := if c.sums.isEmpty then o.y else (c.sums.zip o.y).map fun q => q.1 + q.2
      if c.left ≤ 1 then
        let es := edges v o.port (d.rd STITCH.CAL_THR.THR) (sums.map fun s => meanUp s (c.n + 1))
        let kept := es.take 64
        let ws := [(0, kept.length + (if 64 < es.length then 256 else 0)), (1, wl % 2 ^ 32), (2, wl / 2 ^ 32)] ++
          (kept.zip (List.range 64)).flatMap fun q => [(4 + 2 * q.2, q.1.1), (5 + 2 * q.2, q.1.2)]
        (calEnd d o.port, calStore m o.port ws)
      else
        (d.updStitch fun s => { s with cal := s.cal.map fun k =>
          if k.port == o.port then { k with left := k.left - 1, sums := sums, n := k.n + 1 } else k }, m)
    else
      let mean := meanUp ((o.y.drop a).take (b + 1 - a)).sum (b + 1 - a)
      let thr := d.rd STITCH.CAL_THR.THR
      if c.prev.elim false fun q => decide (q < thr ∧ thr ≤ mean) then
        (calEnd d o.port, calStore m o.port [(0, 1), (1, wl % 2 ^ 32), (2, wl / 2 ^ 32),
          (6, ofSigned 48 (sar o.trig.pos 24) % 2 ^ 32), (7, ofSigned 48 (sar o.trig.pos 24) / 2 ^ 32)])
      else if c.left ≤ 1 then (calEnd d o.port, calStore m o.port [])
      else
        (d.updStitch fun s => { s with cal := s.cal.map fun k =>
          if k.port == o.port then { k with left := k.left - 1, prev := some mean } else k }, m)

/-- CAL_GO. A GO while a measurement runs, or with MODE 0 or 3, starts nothing. -/
def calGo (d : Dev) : Dev :=
  let mode := d.rd STITCH.CAL_CTL.MODE
  if d.on STITCH.CAL_STAT.BUSY ∨ (mode ≠ 1 ∧ mode ≠ 2) then d
  else
    let ps := (List.range 16).filter fun p => bitOf (d.rd STITCH.CAL_PORTS.MASK) p
    let d1 := d.updStitch fun s =>
      { s with calMode := mode, cal := ps.map fun p => ⟨p, d.rd STITCH.CAL_CTL.LINES, [], 0, none⟩ }
    if ps.isEmpty then (d1.wr STITCH.CAL_STAT.DONE 1).irq Page.STITCH STITCH.irq.CAL_DONE
    else d1.wr STITCH.CAL_STAT.BUSY 1

/-! ## Acceptance (R171, R172) -/

/-- A web line that has been released takes no more segments. -/
def released (d : Dev) (w : Nat) : Bool := d.stitch.lastRel.elim false fun r => decide (w ≤ r)

/-- A pipeline line as a port segment, or discarded when its web line is released. -/
def acceptLine (x : DM) (o : OutLine) : DM :=
  let void := bitOf o.pipeFlags QF.void
  let susp := bitOf o.pipeFlags QF.suspect
  let (d, m) := if void || susp then x else calLine x o
  let v := d.cfg o.epoch
  if released d (o.trig.wln + v (STITCH.STAGGER.D o.port)) || v (STITCH.CFG.EN o.port) == 0 then (d, m)
  else
    let s : Seg := ⟨o.port, o.trig.wln, void, susp, if void then [] else stage8 v o.port o.y (b2n susp)⟩
    let s := if d.on STITCH.STATUS.DEGRADED then s.loseDeep d o.epoch else s
    (stripSweep (d.updStitch fun q => { q with segs := q.segs ++ [s] }), m)

/-- SEGMENT_ACCEPT: a DONE slot becomes FREE and counts in LINES_OUT (Table 4.4), or a notice without a slot is taken. -/
def segmentAccept (l : Fin 8) (p : Fin 16) (w : Nat) (x : DM) : DM :=
  let d := x.1
  match d.pipes[l].slots.find? fun s => s.port == p.val && s.trig.wln == w && s.state == SlotState.done with
  | some s =>
    acceptLine ((updSlots d l (List.filter fun q => !(q.port == p.val && q.trig.wln == w))).inc (PIPE.LINES_OUT.CNT l), x.2) (slotOut l s)
  | none =>
    match d.pipes[l].passed.find? fun o => o.port == p.val && o.trig.wln == w with
    | some o =>
      acceptLine (d.updPipe l fun q => { q with passed := q.passed.filter fun y => !(y.port == p.val && y.trig.wln == w) }, x.2) o
    | none => x

/-- STRIP: from the upper neighbour (its lower strip) or the lower one. -/
def strip (upper : Bool) (w : Nat) (cols : List (Int × Nat × Nat)) (d : Dev) : Dev :=
  if released d w then d
  else d.updStitch fun s => { s with segs := s.segs ++ [⟨if upper then 17 else 16, w, false, false, cols⟩] }

/-- DEADLINE_US (R171): DEADLINE_US µs after its trigger the line must go. -/
def deadlineUs (w : Nat) (d : Dev) : Dev :=
  let due (o : OpenWeb) : Bool := o.trig.wln == w && decide (o.trig.time + 16000 * d.cfg o.trig.epoch STITCH.DEADLINE_US.US ≤ d.now)
  d.updStitch fun s => { s with waiting := s.waiting.map fun o => if due o then { o with forced := true } else o }

/-! ## Release (R171, R173 to R176) -/

/-- The value of a HOLE column (R170). -/
def fillVal (d : Dev) (v : View) (c : Int) : Nat :=
  match v STITCH.CTL.FILL with
  | 1 => ((d.stitch.last.find? fun x => x.1 == c).elim 0 Prod.snd)
  | 2 => v STITCH.FILL_VAL.VAL
  | _ => 0

/-- The seams of a chain: each member with the next. -/
def seams : List Link → List (Link × Link)
  | l :: u :: rest => (l, u) :: seams (u :: rest)
  | _ => []

/-- A seam's sum of differences over one line (R179). -/
def seamDiff (l u : Link) : Nat × Nat :=
  let (a, b) := if l.half = 0 then (u.xf, l.xl) else (l.seam - l.half, l.seam + l.half - 1)
  (List.range (b + 1 - a).toNat).foldl (fun (acc : Nat × Nat) (k : Nat) =>
    match l.at (a + k), u.at (a + k) with
    | some x, some y => if x.2 = 0 ∧ y.2 = 0 then (acc.1 + ((x.1 : Int) - y.1).natAbs, acc.2 + 1) else acc
    | _, _ => acc) (0, 0)

/-- SEAM_DIFF_UPDATE: the mean and count of a block loaded, the sums cleared; the ageing ledger takes the mean. -/
def loadSeam (x : DM) (s : SeamSum) : DM :=
  let mean := if s.n = 0 then 0 else (s.sum + s.n / 2) / s.n
  let d1 := (x.1.wr (STITCH.SEAM_DIFF.MEAN s.port) mean).wrSat (STITCH.SEAM_DIFF.N s.port) s.n
  let y : DM := (d1.updStitch fun q => { q with seams := q.seams.filter fun z => z.port != s.port }, x.2)
  if s.n = 0 then y else ledgerEnter y 9 s.port mean

/-- The seams of one released line: sums of an earlier block are loaded first, and at the last line of a block. A block is known by its
first line, since it goes on across an epoch that leaves BLOCK_LEN as it is (R17). -/
def seamUpdate (x : DM) (v : View) (epoch w : Nat) (ch : List Link) : DM :=
  let idx := (blockOf x.1 epoch w).2
  let key := w - idx
  let x := (x.1.stitch.seams.filter fun s => s.block != key).foldl loadSeam x
  let d := (seams ch).foldl (fun d q =>
    if 16 ≤ q.1.id ∨ 16 ≤ q.2.id then d
    else
      let (s, n) := seamDiff q.1 q.2
      d.updStitch fun t =>
        let old := (t.seams.find? fun z => z.port == q.1.id).getD ⟨q.1.id, key, 0, 0⟩
        { t with seams := { old with sum := old.sum + s, n := old.n + n } :: t.seams.filter fun z => z.port != q.1.id }) x.1
  if idx + 1 = v WEB.BLOCK_LEN.VAL then d.stitch.seams.foldl loadSeam (d, x.2) else (d, x.2)

/-- The web line a set of cells makes, with its counters. -/
def webLine (t : TrigRec) (v : View) (flags present suspect remote : Nat) (cells : List (Nat × Nat)) : WebLine :=
  ⟨t.wln, ofSigned 48 (sar t.pos 24), t.epoch,
   if cells.any fun c => c.2 == 2 then setBit flags WF.holes else flags, present, suspect, remote, colFirst v, cells⟩

/-- A released line leaves the waiting ones, its segments go, and it waits for its emission; it counts one OVERLOAD when the line
before it has not left (R174). -/
def putOut (d : Dev) (v : View) (o : WebLine) : Dev :=
  let waits := !d.stitch.out.isEmpty || decide (d.now < d.stitch.busyUntil)
  let d1 := if colCount v = 0 then d else
    (d.inc STITCH.LINES_OUT.CNT).updStitch fun s => { s with out := s.out ++ [o] }
  let d1 := if colCount v ≠ 0 ∧ waits then (d1.inc STITCH.OVERLOAD_CNT.CNT).irq Page.STITCH STITCH.irq.OVERLOAD else d1
  let d1 := if colCount v ≠ 0 ∧ bitOf o.flags WF.holes then d1.inc STITCH.HOLE_LINES.CNT else d1
  let d1 := if bitOf o.flags WF.skipped then (d1.inc STITCH.SKIPPED_CNT.CNT).irq Page.STITCH STITCH.irq.SKIPPED else d1
  let d1 := if bitOf o.flags WF.reconf then d1.inc STITCH.RECONF_CNT.CNT else d1
  d1.updStitch fun s =>
    { s with waiting := s.waiting.drop 1, lastRel := some o.wln
             segs := s.segs.filter fun g =>
               if g.port < 16 then decide (o.wln < g.wln + v (STITCH.STAGGER.D g.port)) else decide (o.wln < g.wln)
             reconf := s.reconf.filter fun r => decide (o.wln + 1 < r.2.2) }

/-- NO_STAGGER: a port with a deep stagger contributes nothing in degraded mode (R167). -/
def noStagger (d : Dev) (v : View) : Bool :=
  d.on STITCH.STATUS.DEGRADED && (chainPorts v).any fun p => decide (16 < v (STITCH.STAGGER.D p))

/-- The release of the oldest waiting line. -/
def releaseWeb (x : DM) (o : OpenWeb) : DM :=
  let w := o.trig.wln
  let d := x.1.snapReach Page.STITCH w STITCH.fields
  let v := d.cfg o.trig.epoch
  let d := if o.stripsSent then d else sendStrips d v w
  let late := outstanding d v w
  let strips := stripsDue d v w
  let ch := chain v (segFor d v w)
  let n := colCount v
  let cells := (List.range n).map fun (k : Nat) => (formCol ch (colFirst v + k)).getD (0, 2)
  let used (p : Nat) : Bool := (segFor d v w p).elim false fun s => !s.void
  let rec16 (f : Nat → Bool) : Nat := (List.range 16).foldl (fun a p => if f p then a + 2 ^ p else a) 0
  let recon := d.stitch.reconf.any fun r => decide (r.2.1 ≤ w ∧ w < r.2.2)
  let flags := b2n o.trig.skipped + 2 * b2n (!late.isEmpty) + 4 * b2n (!strips.isEmpty) + 8 * b2n recon + 16 * b2n (noStagger d v) +
    32 * b2n o.trig.diverged + 64 * b2n o.trig.doubt
  let d1 := late.foldl (fun d p => ((d.inc STITCH.LATE_SEG_CNT.CNT).inc (STITCH.LATE_CNT.CNT p)).irq Page.STITCH STITCH.irq.LATE_SEG) d
  let d2 := strips.foldl (fun d _ => (d.inc STITCH.REMOTE_LATE_CNT.CNT).irq Page.STITCH STITCH.irq.REMOTE_LATE) d1
  let y := seamUpdate (d2, x.2) v o.trig.epoch w ch
  (putOut y.1 v (webLine o.trig v flags (rec16 fun p => (chainPorts v).contains p && used p)
    (rec16 fun p => used p && (segFor d v w p).elim false Seg.suspect)
    (b2n (used 16) + 2 * b2n (used 17)) cells), y.2)

/-- A line of an evicted set (R462): every column HOLE, with RECONF. -/
def releaseHoles (d : Dev) (o : OpenWeb) : Dev :=
  let d := d.snapReach Page.STITCH o.trig.wln STITCH.fields
  let v := d.cfg o.trig.epoch
  let cells := List.replicate (colCount v) (0, 2)
  putOut d v (webLine o.trig v (b2n o.trig.skipped + 8 + 16 * b2n (noStagger d v) + 32 * b2n o.trig.diverged + 64 * b2n o.trig.doubt) 0 0 0 cells)

/-- SET_EVICTION: the waiting lines of a set that leaves the store go out as HOLE lines; a released line not yet begun is
made one. -/
def stitchEvict (d : Dev) (epoch : Nat) : Dev :=
  let d1 := d.updStitch fun s =>
    { s with out := s.out.map fun o => if o.epoch == epoch then
        { o with cells := o.cells.map fun _ => (0, 2), flags := setBit (setBit o.flags WF.reconf) WF.holes, present := 0, suspect := 0, remote := 0 }
      else o }
  let n := (d.stitch.out.filter fun o => o.epoch == epoch && !bitOf o.flags WF.reconf).length
  let h := (d.stitch.out.filter fun o => o.epoch == epoch && !bitOf o.flags WF.holes).length
  let d2 := (d1.addCnt STITCH.RECONF_CNT.CNT n).addCnt STITCH.HOLE_LINES.CNT h
  (d2.stitch.waiting.filter fun o => o.trig.epoch == epoch).foldl releaseHoles d2

/-- WEB_LINE_RELEASE: the oldest waiting line goes when it is complete, at the trigger of W + DEADLINE_LINES, or at its
deadline. -/
def webLineRelease (x : DM) : DM :=
  match x.1.stitch.waiting with
  | [] => x
  | o :: _ =>
    let d := x.1
    let w := o.trig.wln
    let v := d.cfg o.trig.epoch
    let complete := (outstanding d v w).isEmpty && (stripsDue d v w).isEmpty
    let passed := d.gen.maxWln.elim false fun m => decide (w + v STITCH.CTL.DEADLINE_LINES ≤ m)
    if complete || passed || o.forced then releaseWeb x o else x

/-- LOAD of R174 in cycles. -/
def stitchLoad (n : Nat) : Nat := (n + 31) / 32 + 24

/-- A line as it is emitted: its HOLE columns take the fill of R170. -/
def fillLine (d : Dev) (o : WebLine) : WebLine :=
  { o with cells := (o.cells.zip (List.range o.cells.length)).map fun q =>
      if q.1.2 = 2 then (fillVal d (d.cfg o.epoch) (o.colFirst + q.2), 2) else q.1 }

/-- The values last emitted, with those of a line's columns that are no HOLE. -/
def lastEmitted (last : List (Int × Nat)) (o : WebLine) : List (Int × Nat) :=
  ((o.cells.zip (List.range o.cells.length)).filterMap fun q => if q.1.2 = 2 then none else some (o.colFirst + q.2, q.1.1)) ++
    last.filter fun c => !((o.cells[(c.1 - o.colFirst).toNat]?).elim false fun z => z.2 != 2 && decide (o.colFirst ≤ c.1))

/-- STITCH_EMIT (R174): the oldest released line is emitted unless the line before it is still leaving. 40/3 units of 1/16 ns are one
CLK_PIX cycle. -/
def stitchEmit (d : Dev) : Dev :=
  match d.stitch.out with
  | [] => d
  | o :: rest =>
    if d.now < d.stitch.busyUntil then d
    else d.updStitch fun s =>
      { s with out := rest, busyUntil := d.now + stitchLoad o.cells.length * 40 / 3
               toSeg := s.toSeg ++ [fillLine d o], toArc := s.toArc ++ [fillLine d o], last := lastEmitted s.last o }

/-! ## Epochs and checks -/

/-- A seam's zone lies outside the covers of its two ports; for F = 0, SEAM_X lies outside X_FIRST(upper) to X_LAST(lower) + 1 (R168).
Two covers with a gap between them have no seam. -/
def seamBad (l u : Link) : Bool :=
  let h : Int := l.half
  decide (u.xf ≤ l.xl + 1) &&
    if l.half = 0 then decide (l.seam < u.xf ∨ l.xl + 1 < l.seam)
    else decide (l.seam - h < max l.xf u.xf ∨ min l.xl u.xl < l.seam + h - 1)

/-- The consistency check of R165 and R168: cause and port of the first fault. -/
def stitchCheck (v : View) : Option (Nat × Nat) :=
  let ps := (List.range 16).filter fun p => v (STITCH.CFG.EN p) != 0
  let bad (p : Nat) : Option (Nat × Nat) :=
    let (a, b) := pixRange v p
    if b < a then some (2, p) else if mapValid v p then none else some (1, p)
  match ps.findSome? bad with
  | some r => some r
  | none =>
    let ls := (chainPorts v).map (portLink v none)
    let meets (u : Link) (k : Nat) : Bool := ((ls.take k).filter fun l => decide (u.xf ≤ l.xl)).length ≥ 2
    match ls.zipIdx.find? fun q => meets q.1 q.2 with
    | some q => some (3, q.1.id)
    | none => ((seams ls).find? fun q => seamBad q.1 q.2).map fun q => (4, q.1.id)

/-- What follows the stitch set in force: covers, LOAD, GAP and the ring neighbours. -/
def stitchShow (d : Dev) : Dev :=
  let v : View := d.rd
  let d1 := (chainPorts v).foldl (fun d p =>
    (d.wrS (STITCH.X_FIRST.COL p) (cover v p).1).wrS (STITCH.X_LAST.COL p) (cover v p).2) d
  let ls := (chainPorts v).map (portLink v none)
  let gap := (seams ls).any fun q => decide (q.1.xl + 1 < q.2.xf)
  let load := stitchLoad (colCount v)
  (((((d1.wrB STITCH.STATUS.GAP gap).wr STITCH.LOAD.CYCLES load).wrB STITCH.STATUS.LOAD_WARN
    (decide (d.rd TRIG.MIN_PERIOD.VAL < load))).wrB STITCH.STATUS.RING_LO (d.on STITCH.RSEAM_LO.EN))).wrB STITCH.STATUS.RING_HI
    (d.on STITCH.RSEAM_HI.EN)

/-- The fields of a port whose change withholds its segments (R176). -/
def mapFields (p : Nat) : List Fld :=
  [STITCH.C0_LO.C0 p, STITCH.C0_HI.C0 p, STITCH.C1.C p, STITCH.C2.C p, STITCH.C3.C p, STITCH.PIX_RANGE.FIRST p,
   STITCH.PIX_RANGE.LAST p, STITCH.CFG.EN p, STITCH.STAGGER.D p]

/-- An epoch from line `e` on, the registers before it in `old` (R176). -/
def stitchEpoch (d : Dev) (old : View) (e : Nat) : Dev :=
  let rs := (List.range 16).filterMap fun p =>
    if (old (STITCH.CFG.EN p) != 0 || d.on (STITCH.CFG.EN p)) && (mapFields p).any fun f => old f != d.rd f then
      some (p, e, e + max (old (STITCH.STAGGER.D p)) (d.rd (STITCH.STAGGER.D p))) else none
  stripSweep (stitchShow (d.updStitch fun s => { s with reconf := s.reconf ++ rs }))

/-! ## Meanings -/

def execSegmentAccept (l : Fin 8) (p : Fin 16) (wln : Nat) (s : State) : Host.Outcome State Fault Refusal :=
  s.onBoth (segmentAccept l p wln)
def execStrip (upper : Bool) (wln : Nat) (cols : List (Int × Nat × Nat)) (s : State) : Host.Outcome State Fault Refusal :=
  s.onDev (strip upper wln cols)
def execDeadlineUs (wln : Nat) (s : State) : Host.Outcome State Fault Refusal := s.onDev (deadlineUs wln)
def execWebLineRelease (s : State) : Host.Outcome State Fault Refusal := s.onBoth webLineRelease
def execStitchEmit (s : State) : Host.Outcome State Fault Refusal := s.onDev stitchEmit
def execCalGo (s : State) : Host.Outcome State Fault Refusal := s.onDev calGo

end Sys2Proof.Machine
end

