-- ==== Sys2Proof/Machine/Web.lean ====
section
/-! DEFINITION. Timebase, along-web position, trigger generator and snapshots (spec/01_web_coordinates_and_time.md), with the
speed reading, the index slew and the failover of the trigger source that the triggers touch (spec/02_encoder_inputs.md). -/

namespace Sys2Proof.Machine

/-! ## Timebase (R11 to R13) -/

/-- ±200 ppm in units of 1/65,536 ppm. -/
def ppmLimit : Int := 13107200

/-- The rate trim in force, in 1/65,536 ppm: REF_TRIM + TB_RATE clamped to ±200 ppm (R402). -/
def timeRate (d : Dev) : Int := clampI (-ppmLimit) ppmLimit (d.rdS THM.REF_TRIM.TRIM + d.rdS WEB.TB_RATE.RATE)

/-- One CLK_FAB cycle: 20/16 ns trimmed. The accumulator counts units of 2^-16 × 10^-6 of 1/16 ns. -/
def timebaseTick (d : Dev) : Dev :=
  let u : Int := 65536000000
  let x := (d.time.acc : Int) + 20 * (u + timeRate d)
  { d with time := { d.time with tb := d.time.tb + (x / u).toNat, acc := (x % u).toNat } }

/-- TRIG.CTL.MODE with 3 acting as Stopped. -/
def trigMode (d : Dev) : Nat := if d.rd TRIG.CTL.MODE = 3 then 0 else d.rd TRIG.CTL.MODE

/-- The Free-run period in 1/16 ns. -/
def freePeriod (d : Dev) : Nat := max (d.rd TRIG.FREE_PERIOD.VAL) (16 * d.rd TRIG.MIN_PERIOD.VAL)

/-- Whether the generator issues triggers under the live set. -/
def genRuns (d : Dev) : Bool :=
  (trigMode d == 1 && d.on TRIG.PITCH.VAL) || (trigMode d == 2 && freePeriod d != 0)

/-- TB_STEP (R12): the step is added while the generator is Stopped, or acts as Stopped (R464), and the result stays in range, else refused. -/
def tbStep (d : Dev) : Dev :=
  let x : Int := (d.time.tb : Int) + 16 * d.rdS WEB.TB_STEP.STEP_NS
  if genRuns d = true ∨ x < 0 ∨ (2 ^ 68 : Int) ≤ x then d.wr WEB.TB_CTL.STEP_REFUSED 1
  else { d with time := { d.time with tb := x.toNat } }

/-- TB_HOLDOVER: sixteen comparisons missed. -/
def tbHoldover (d : Dev) : Dev :=
  let d1 := d.wr WEB.TB_CTL.LOCKED 0
  { d1 with time := { d1.time with inBand := 0 } }

/-- One comparison with the source of Table 1.1, the offset in 1/16 ns (R13). While LOCKED the discipline sets the rate, a
free value within ±200 ppm; while LOCKED is clear the last rate is held. -/
def timeCompare (off : Int) (d : Dev) : Dev :=
  let n := if off.natAbs ≤ 32 then min (d.time.inBand + 1) 64 else 0
  let d1 := { d with time := { d.time with inBand := n } }
  if 128 < off.natAbs then d1.wr WEB.TB_CTL.LOCKED 0
  else
    let d2 := if n = 64 then d1.wr WEB.TB_CTL.LOCKED 1 else d1
    if d2.on WEB.TB_CTL.LOCKED then
      let (v, d3) := d2.free 25
      d3.wrS WEB.TB_RATE.RATE (clampI (-ppmLimit) ppmLimit ((v : Int) - 2 ^ 24))
    else d2

/-! ## Channels as the generator sees them -/

/-- SCALE of a channel in 2^-24 µm per count, live. -/
def encScale (d : Dev) (n : Nat) : Int := toSigned 48 (d.rd2 (ENC.SCALE_LO.SCALE n) (ENC.SCALE_HI.SCALE n))

/-- The channel that drives the position: TRIG.CTL.SRC, or its backup after a failover. -/
def trigSrc (d : Dev) : Fin 4 := Fin.ofNat 4 (d.rd TRIG.CTL.SRC)
def drivingCh (d : Dev) : Fin 4 := d.gen.fo.getD (trigSrc d)

/-- |v| in 2^-24 µm over t in 1/16 ns, as a speed in 1/16 µm/s, truncated. -/
def speedOf (v t : Nat) : Nat := if t = 0 then 0 else v * 256000000000 / (2 ^ 24 * t)

/-- SPEED of a channel at an instant (R45). -/
def speedAt (d : Dev) (n : Fin 4) (t : Nat) : Int :=
  let c := d.enc[n]
  if !d.on (ENC.CH_STAT.SPEED_VALID n) then 0
  else
    let m := if c.tLast - c.tPrev < t - c.tLast then min c.estMag (speedOf (encScale d n).natAbs (t - c.tLast)) else c.estMag
    clampI (-2147483648) 2147483647 (if c.rev then -(m : Int) else m)

/-- The counts and positions of a channel shown in its registers. -/
def encShow (d : Dev) (n : Fin 4) : Dev :=
  let c := d.enc[n]
  let d1 := (d.wr2S (ENC.CNT_LO.CNT n) (ENC.CNT_HI.CNT n) c.c).wr2S (ENC.FCNT_LO.FCNT n) (ENC.FCNT_HI.FCNT n) c.f
  let d2 := (d1.wr2S (ENC.CH_POS_LO.CH_POS n) (ENC.CH_POS_HI.CH_POS n) (sar c.pos 24)).wrB (ENC.CH_STAT.DIR n) c.rev
  d2.wr2S (ENC.OFS_LO.OFS n) (ENC.OFS_HI.OFS n) c.ofs

/-- The position stamp of an internal position (R14). -/
def posStamp (x : Int) : Nat := ofSigned 48 (sar x 24)

/-- The position as a frame's row stamps will look it up (R134): entered with the instant at which it was reached. -/
def Head.logPos (t x : Nat) (h : Head) : Head :=
  if h.cur.isNone || (h.posLog.head?.elim false fun q => q.2 == x) then h else { h with posLog := (t, x) :: h.posLog }

/-- The position of now entered for the frames in progress. -/
def frameLog (d : Dev) (t : Nat) : Dev := { d with heads := d.heads.map (Head.logPos t (posStamp d.gen.pos)) }

/-- The along-web position (R14) and the fraction of N shown in their registers. -/
def posShow (d : Dev) : Dev :=
  frameLog ((d.wr2S WEB.POS_LO.POS WEB.POS_HI.POS (sar d.gen.pos 24)).wrS TRIG.NEXT_FRAC.FRAC d.gen.n) d.now

/-- A timebase stamp in three words, as WEB.TB_0 to TB_2. -/
def wrStamp (d : Dev) (t0 t1 t2 : Fld) (t : Nat) : Dev := ((d.wr t0 t).wr t1 (t / 2 ^ 32)).wr t2 (t / 2 ^ 64)

/-- A latch event at an instant (R44): the coherent set, VALID, and OVERRUN on an overwrite. -/
def latchSet (d : Dev) (n : Fin 4) (t : Nat) : Dev :=
  let c := d.enc[n]
  let d1 := if d.on (ENC.LATCH_STAT.VALID n) then d.wr (ENC.LATCH_STAT.OVERRUN n) 1 else d
  let d2 := (d1.wr2S (ENC.L_CNT_LO.L_CNT n) (ENC.L_CNT_HI.L_CNT n) c.c).wr2S (ENC.L_POS_LO.L_POS n) (ENC.L_POS_HI.L_POS n) (sar c.pos 24)
  let d3 := wrStamp d2 (ENC.L_EDGE_T0.L_EDGE_T n) (ENC.L_EDGE_T1.L_EDGE_T n) (ENC.L_EDGE_T2.L_EDGE_T n) c.tLast
  let d4 := wrStamp d3 (ENC.L_EV_T0.L_EV_T n) (ENC.L_EV_T1.L_EV_T n) (ENC.L_EV_T2.L_EV_T n) t
  (d4.wrS (ENC.L_SPEED.VAL n) (speedAt d n t)).wr (ENC.LATCH_STAT.VALID n) 1

/-! ## Index slew (R39) -/

/-- An index correction increment on a channel's position, and on the web position when the channel drives it; it belongs to the
position at the source's last count as well (R50). -/
def addCorr (d : Dev) (n : Fin 4) (x : Int) : Dev :=
  let d1 := encShow (d.updEnc n fun c => { c with pos := c.pos + x }) n
  if drivingCh d1 = n then
    posShow { d1 with gen := { d1.gen with pos := d1.gen.pos + x, srcPosAtLast := d1.gen.srcPosAtLast + x } }
  else d1

/-- The EPOCH_ID under which line `w` is processed (R24). -/
def lineEpoch (d : Dev) (w : Nat) : Nat :=
  let live := d.rd WEB.EPOCH_ID.LIVE_ID
  if d.rd WEB.EPOCH_STATUS.STATE = 3 ∧ d.ep.applyAt = none ∧ d.ep.target ≤ w then d.ep.id else live

/-- The S of a correction of `x` counts: SLEW_LINES, raised to the least value for which no increment exceeds PITCH / 8. -/
def slewLines (x scale : Int) (pitch lines : Nat) : Nat :=
  let lim := 32 * pitch
  let mag := (x * scale).natAbs
  if lim < mag / max 1 lines then mag / (lim + 1) + 1 else max 1 lines

/-- A correction at line `w`, the first of its range: SLEW is loaded, and the increment formed, with the SCALE of the set in force for
that line. -/
def slewLoad (w : Nat) (d : Dev) (n : Fin 4) (s : Slew) : Dev × Slew :=
  if s.left ≠ 0 then (d, s)
  else
    let v := d.cfg (lineEpoch d w)
    let delta := s.d * toSigned 48 (v (ENC.SCALE_LO.SCALE n) + 2 ^ 32 * v (ENC.SCALE_HI.SCALE n))
    let q := delta.tdiv s.s
    ((d.wrSat (ENC.SLEW.S n) s.s).wrSat (ENC.SLEW.LEFT n) s.s, { s with left := s.s, q := q, rem := delta - s.s * q })

/-- The increment of line `w` on one channel. On the last one d goes into OFS and a correction that waited becomes the
pending one (R40). -/
def slewOne (w : Nat) (d : Dev) (n : Fin 4) : Dev :=
  match d.enc[n].slew with
  | none => d
  | some s0 =>
    if s0.s = 0 ∨ s0.first.elim true (fun e => decide (w < e)) then d
    else
      let (d0, s) := slewLoad w d n s0
      let d1 := addCorr d0 n (if s.left = 1 then s.q + s.rem else s.q)
      let d2 := (d1.wr (ENC.INDEX_STAT.SLEWING n) 1).wrSat (ENC.SLEW.LEFT n) (s.left - 1)
      if s.left = 1 then
        let again := d2.enc[n].nextCorr
        let d3 := (d2.wr (ENC.INDEX_STAT.SLEWING n) 0).wrB (ENC.INDEX_STAT.PENDING n) again.isSome
        encShow (d3.updEnc n fun c =>
          { c with ofs := c.ofs + s.d, slew := again.map fun x => ⟨x, none, 0, 0, 0, 0⟩, nextCorr := none }) n
      else d2.updEnc n fun c => { c with slew := some { s with left := s.left - 1 } }

/-- The increments of line `w` on every channel. -/
def slewTick (d : Dev) (w : Nat) : Dev := allEnc.foldl (slewOne w) d

/-- Corrections accepted but not yet applied, P of R38. -/
def EncCh.pendingCorr (c : EncCh) : Int := c.slew.elim 0 Slew.d + c.nextCorr.getD 0

/-- The corrected count of a channel (R38). -/
def EncCh.corrected (c : EncCh) : Int := c.f + c.ofs + c.pendingCorr

/-- R40: the corrected count has moved more than INDEX_PERIOD + TOL past the last index event without a new one. -/
def indexMissing (d : Dev) (ch : Fin 4) : Dev :=
  let c := d.enc[ch]
  let per := d.rd (ENC.INDEX_PERIOD.PERIOD ch)
  let gone := if c.rev then c.lastIndex - c.corrected else c.corrected - c.lastIndex
  if per ≠ 0 ∧ c.refDue = false ∧ (per + d.rd (ENC.INDEX_CFG.TOL ch) : Int) < gone then
    (d.wr (ENC.INDEX_STAT.MISSING ch) 1).updEnc ch fun c => { c with refDue := true }
  else d

/-! ## Snapshots (R30) -/

/-- The pages whose counters count lines and whose unit is in use: each is copied when the first data of line S reaches its
block. -/
def perLinePages (d : Dev) : List Nat :=
  ((allPorts.filter fun (p : Fin 16) => d.on (PORT.LINK_CFG.EN p)).map fun (p : Fin 16) => Page.PORT p) ++
    ((allPorts.filter fun (p : Fin 16) => (routeOf d (d.rd WEB.EPOCH_ID.LIVE_ID) p).isSome).map statKey) ++
    ((allPipes.filter fun (l : Fin 8) => d.on (PIPE.ROUTE_IL.A_EN l) || d.on (PIPE.ROUTE_IL.B_EN l) || d.on (PIPE.ROUTE_MR.MR_MASK l)).map
      fun (l : Fin 8) => Page.PIPE l) ++
    (if (List.range 16).any fun p => d.on (STITCH.CFG.EN p) then [Page.STITCH] else []) ++
    (if d.on SEG.CTL.EN then [Page.SEG, Page.SEG + 4096, Page.CLASS, Page.CLASS + 4096, Page.TAG, Page.TAG + 4096, Page.TAG + 8192, Page.MARK]
     else []) ++ (if d.on ZCTL.ARCH_CFG.EN then [Page.ZCTL] else [])

/-- The counters behind segmentation: those of a stage are copied when line S has been decided and every close of an earlier line has
passed the stage: the classifier, tag formation, the hand-over, the marker intake. -/
def tailReach (d : Dev) : Dev :=
  let s := d.snap.target
  let t := d.tags
  let cls := d.seg.prev.elim false (fun p => decide (s ≤ p.1)) && t.vecs.all fun v => decide (s ≤ v.close)
  let form := cls && t.decided.all fun q => decide (s ≤ q.1.close)
  let hand := form && t.formed.all fun f => decide (s ≤ f.vec.close)
  let mark := hand && t.handOff.all fun h => decide (s ≤ h.close)
  let d1 := if cls then (d.snapReach (Page.SEG + 4096) s [SEG.BLOBS_TAGGED.CNT]).snapReach Page.CLASS s CLASS.fields1 else d
  let d2 := if form then (d1.snapReach (Page.CLASS + 4096) s ((List.range 64).map CLASS.CLASS_CNT.CNT)).snapReach Page.TAG s
    [TAG.TAGS_CNT.CNT, TAG.MARK_REQ_CNT.CNT] else d1
  let d3 := if hand then d2.snapReach (Page.TAG + 4096) s
    [TAG.MARK_FULL_CNT.CNT, TAG.MERGE_CNT.CNT, TAG.MARKRES_CNT.CNT, TAG.FEAT_CNT.CNT, TAG.HOST_LOST_CNT.CNT] else d2
  if mark then d3.snapReach Page.MARK s MARK.fields else d3

/-- SLOT_STAT of a pipeline put into the register file. -/
def slotViews (d : Dev) (l : Fin 8) : Dev :=
  let (f, w, r, run, dn) := slotBook d l
  ((((d.wr (PIPE.SLOT_STAT0.FREE l) f).wr (PIPE.SLOT_STAT0.WAIT l) w).wr (PIPE.SLOT_STAT0.READY l) r).wr (PIPE.SLOT_STAT1.RUN l) run).wr
    (PIPE.SLOT_STAT1.DONE l) dn

/-- WEB.TB_CTL.SRC by Table 1.1: 3 twin link on a standby, 2 String in slots 1 to 7, 1 IEEE 1588 or 0 free-run on the Puppeteer. -/
def timeSource (d : Dev) : Nat := if d.isStandby then 3 else if d.slot ≠ 0 then 2 else b2n (d.on WEB.TB_CTL.PTP_EN)

/-- The quantities of a page that are computed when they are read, put into the register file. -/
def pageView (d : Dev) (p : Nat) : Dev :=
  let d := commonView d p
  match (pageKind p).elim 0 PageKind.type with
  | 0x10 => (wrStamp d WEB.TB_0.VAL WEB.TB_1.VAL WEB.TB_2.VAL d.now).wr WEB.TB_CTL.SRC (timeSource d)
  | 0x11 => d.wrS (ENC.SPEED.VAL (p - 0x11)) (speedAt d (Fin.ofNat 4 (p - 0x11)) d.now)
  | 0x28 => slotViews d (Fin.ofNat 8 (p - 0x40))
  | _ => d

/-- All of them, for a copy. -/
def stampViews (d : Dev) : Dev := pageList.foldl pageView d

/-- SNAP_CAPTURE: at the trigger of line S (or the first later one) the status and counters are copied. -/
def snapTake (d : Dev) (w : Nat) : Dev :=
  if d.on WEB.SNAP_STATUS.PENDING && !d.snap.nextLine && decide (d.snap.target ≤ w) then
    let d1 := (((d.wr WEB.SNAP_STATUS.PENDING 0).wr WEB.SNAP_STATUS.VALID 1).wr WEB.SNAP_STATUS.EPOCH_ID
      (lineEpoch d (d.snap.target - 1)))
    snapAnswer { d1 with snap := { d1.snap with wait := perLinePages d, copy := (stampViews d1).regs } }
  else if d.on WEB.SNAP_STATUS.PENDING && d.snap.nextLine then
    let d1 := { d with snap := { d.snap with nextLine := false, target := w + 1 } }
    if (d1.on WEB.SNAP_CTL.RING || d1.snap.jobs.head?.elim false SnapJob.ring) && d1.isPuppeteer then (d1.toRing .snap [((w + 1 : Nat) : Int)]).toStandby .snap [((w + 1 : Nat) : Int)] else d1
  else d

/-- SNAP_REQ: a request for the line of SNAP_TGT. -/
def snapReq (d : Dev) : Dev :=
  snapRequest d false (d.rd2 WEB.SNAP_TGT_LO.SNAP_TGT WEB.SNAP_TGT_HI.SNAP_TGT) (d.on WEB.SNAP_CTL.RING)

/-- SNAP_NEXT: a request for the line after the next trigger. -/
def snapNext (d : Dev) : Dev := snapRequest d true 0 (d.on WEB.SNAP_CTL.RING)

/-- SNAP_RELEASE. -/
def snapRelease (d : Dev) : Dev := snapDrop d

/-! ## Failover (R49 to R51) -/

/-- The positions at the source's last filtered count, for the continuity of a failover (R50). -/
def sourceMark (d : Dev) : Dev :=
  { d with gen := { d.gen with srcPosAtLast := d.gen.pos, chPosAtLast := allEnc.map fun (k : Fin 4) => d.enc[k].pos } }

/-- FO_TOL.WIN starts anew from the lines and positions of now (R49). -/
def foRebase (d : Dev) : Dev :=
  let s := trigSrc d
  { d with gen := { d.gen with foSrcBase := d.enc[s].pos, foBkBase := d.enc[(Fin.ofNat 4 (d.rd (ENC.FO_CFG.BACKUP s)) : Fin 4)].pos
                               foWlnBase := d.gen.nextWln } }

/-- A failover cause of Table 2.3 is shown by a channel that would be the backup, cause 2 by its own QERR_MAX. STALL names the source
and its backup, so a backup has no such cause (log entry 122). -/
def chBad (d : Dev) (n : Fin 4) : Bool :=
  bitsOf (d.rd (ENC.CH_STAT.LOS n)) 0 2 != 0 || decide (3 ≤ d.enc[n].ssiBad) ||
    decide (d.rd (ENC.FO_CFG.QERR_MAX n) ≤ (d.enc[n].qerrTimes.filter fun t => decide (d.now < t + 16000000)).length ∧
      d.enc[n].qerrTimes ≠ [])

/-- The switch itself (R50): the position continues from the source's last filtered count by the backup's advance since. -/
def foSwitchNow (d : Dev) (cause : Nat) (loc : Bool) : Dev :=
  let s := trigSrc d
  let b : Fin 4 := Fin.ofNat 4 (d.rd (ENC.FO_CFG.BACKUP s))
  let pos := d.gen.srcPosAtLast + (d.enc[b].pos - d.gen.chPosAtLast.getD b 0)
  let d1 := ((d.wr (ENC.FO_STAT.ACTIVE s) 1).wr (ENC.FO_STAT.CAUSE s) cause).wrB (ENC.FO_STAT.LOCAL s) loc
  posShow { d1 with gen := { d1.gen with pos := pos, fo := some b, foMark := true, foSwitch := none } }

/-! ## The trigger generator (R16, R18, R19, R464) -/

/-- PITCH in 2^-24 µm. -/
def pitch24 (d : Dev) : Int := 256 * (d.rd TRIG.PITCH.VAL : Int)

/-- Line E of a committed epoch has its trigger (issued, held back or skipped) and the set is not yet live: the triggers that follow
line E are governed by the new set (R464), so none falls due in between. -/
def epochDue (d : Dev) : Bool :=
  d.rd WEB.EPOCH_STATUS.STATE == 3 && d.ep.applyAt.isNone && decide (d.ep.target < d.gen.nextWln)

/-- R21: a LINE message's stamp against the module's own: more than one count apart sets DIVERGE. -/
def divergeCheck (d : Dev) (own : Int) (pos : Nat) : Dev :=
  let diff := toSigned 48 (ofSigned 48 ((posStamp own : Int) - pos))
  if (encScale d (drivingCh d)).natAbs < diff.natAbs * 2 ^ 24 then
    let d1 := d.wr TRIG.STAT.DIVERGE 1
    { d1 with gen := { d1.gen with diverged := true } }
  else d

/-- What the active tells its standby at each trigger (Table 15.3): G of each splitter port, and at a block end its counters
(key of the field, value). -/
def tellStandby (d : Dev) (t : TrigRec) : Dev :=
  if !d.hasStandby then d
  else
    let gs := (allPorts.filter fun (p : Fin 16) => d.rd (PORT.LINK_CFG.HOMING p) == 2).flatMap fun (p : Fin 16) =>
      [(p.val : Int), (d.rd (PORT.CREDIT_G.G p) : Int)]
    let d1 := if gs.isEmpty then d else d.toStandby .creditG gs
    if (blockOf d t.epoch t.wln).2 + 1 = d.cfg t.epoch WEB.BLOCK_LEN.VAL then
      d1.toStandby .counts ((pageList.flatMap fun p => (roFields (Com.fields p ++ pageFields p)).filter fun f => d.rd f != f.reset).flatMap
        fun f => [(f.key : Int), (d.rd f : Int)])
    else d1

/-- A module that has taken over repeats ROLE at each trigger until ROLE_ACK arrives (R337). -/
def Dev.hasTaken (d : Dev) : Bool := d.rd TWIN.STATUS.STATE == 3 && d.on TWIN.TAKE_INFO.CAUSE

/-- TRIGGER_ISSUE (R18): the line gets its trigger. It is handed to the ports (each enabled or routed one), the pipelines and
the stitch stage; the Puppeteer sends LINE; the latches, snapshots, send lines and marks that wait for a trigger take it. -/
def issueTrig (d : Dev) (t : TrigRec) : Dev :=
  let w := t.wln
  let d := if t.skipped then d else
    match d.gen.foSwitch with
    | some (v, cause) => if v ≤ w then foSwitchNow d cause false else d
    | none => d
  let d := snapTake d w
  let d := d.wr2 WEB.WLN_LO.WLN WEB.WLN_HI.WLN w
  let d := { d with gen := { d.gen with
    maxWln := some w
    last := if t.skipped then d.gen.last else some t.time
    posIssue := d.gen.pos
    recent := (t :: d.gen.recent).take 64 } }
  let d := match d.gen.expected.find? fun e => e.1 == w with
    | some (_, pos) => divergeCheck d t.pos pos
    | none => d
  let d := { d with gen := { d.gen with expected := d.gen.expected.filter fun e => decide (w < e.1) } }
  let d := if d.gen.foMark then
      let d1 := d.wr2 (ENC.FO_WLN_LO.FO_WLN (trigSrc d)) (ENC.FO_WLN_HI.FO_WLN (trigSrc d)) w
      { d1 with gen := { d1.gen with foMark := false } }
    else d
  let d := if d.gen.takeMark then
      let d1 := d.wr2 TWIN.TAKE_WLN_LO.WLN TWIN.TAKE_WLN_HI.WLN w
      { d1 with gen := { d1.gen with takeMark := false } }
    else d
  let d := if t.skipped then d else
    allEnc.foldl (fun (d : Dev) (n : Fin 4) => if d.rd (ENC.LATCH_CTL.SRC n) = 3 then latchSet d n t.time else d) d
  let d := allPipes.foldl (fun d l => d.updPipe l fun q => { q with trigQ := q.trigQ ++ [t] }) d
  let d := stitchTrigger d t
  let d := allPorts.foldl (fun (d : Dev) (p : Fin 16) =>
    if d.on (PORT.LINK_CFG.EN p) || (routeOf d t.epoch p).isSome then portTrigger d p t else d) d
  let d := if t.skipped then d else allPorts.foldl (fun (d : Dev) (p : Fin 16) => settingsSend d p w) d
  let d := if d.isPuppeteer then (d.toRing .line [(w : Int), (posStamp t.pos : Int)]).toStandby .line [(w : Int), (posStamp t.pos : Int)] else d
  let d := tellStandby d t
  let d := allPorts.foldl (fun (d : Dev) (p : Fin 16) =>
    if homing d p == 1 && linkState d p == LS.active && d.hasTaken && !d.on (PORT.LINK_STAT.PRIMARY p) then sendRole d p else d) d
  if t.skipped then d else slewTick d w

/-- A trigger falls due at an instant (R19): issued, held back, or skipped. Its line is marked EPOCH_DOUBT when the module is out of
coherence, or is line E or a later one on a module that is READY and has learned no outcome (R26). -/
def dueTrig (d : Dev) (time : Nat) : Dev :=
  let w := d.gen.nextWln
  let inDoubt := d.rd WEB.EPOCH_STATUS.STATE == 4 || d.ep.doubt ||
    (d.rd WEB.EPOCH_STATUS.STATE == 2 && !d.isPuppeteer && decide (d.ep.target ≤ w))
  let t : TrigRec := ⟨w, d.gen.pos, time, lineEpoch d w, false, d.gen.diverged, inDoubt⟩
  let d := { d with gen := { d.gen with nextWln := w + 1 } }
  if d.gen.held.isSome then
    let d1 := d.inc TRIG.SKIP_CNT.VAL
    slewTick { d1 with gen := { d1.gen with skipped := d1.gen.skipped ++ [{ t with skipped := true }] } } w
  else if d.gen.last.elim false fun u => decide (time < u + 16 * d.rd TRIG.MIN_PERIOD.VAL) then
    let d1 := d.wr TRIG.STAT.OVERSPEED 1
    { d1 with gen := { d1.gen with held := some t } }
  else issueTrig d t

/-- The multiples of PITCH that the position has crossed (R18): H follows the position, and each N it reaches is due. -/
def crossLoop (time : Nat) : Nat → Dev → Dev
  | 0, d => d
  | f + 1, d =>
    let d := { d with gen := { d.gen with h := max d.gen.h d.gen.pos } }
    if trigMode d = 1 ∧ d.on TRIG.STAT.RUNNING ∧ d.gen.n ≤ d.gen.h ∧ epochDue d = false then
      crossLoop time f (dueTrig { d with gen := { d.gen with n := d.gen.n + pitch24 d } } time)
    else d

/-- The position has moved: triggers that have become due. -/
def cross (d : Dev) (time : Nat) : Dev :=
  let fuel := if pitch24 d = 0 then 0 else 2 * ((d.gen.pos - d.gen.n) / pitch24 d).toNat + 8
  posShow (crossLoop time fuel d)

/-- FREE_RUN_TRIGGER (R18, R464): acts once the timebase has reached T. -/
def freeRunTrigger (d : Dev) : Dev :=
  if trigMode d = 2 ∧ freePeriod d ≠ 0 ∧ d.on TRIG.STAT.RUNNING ∧ epochDue d = false ∧ d.gen.t ≤ d.now then
    let t := d.gen.t
    dueTrig { d with gen := { d.gen with t := t + freePeriod d } } t
  else d

/-- HOLDBACK_RELEASE (R19): once MIN_PERIOD has passed since the previous trigger the held one is issued, and the lines skipped while
it was held follow at once. -/
def holdbackRelease (d : Dev) : Dev :=
  match d.gen.held with
  | none => d
  | some t =>
    let time := d.gen.last.elim t.time fun u => u + 16 * d.rd TRIG.MIN_PERIOD.VAL
    if d.now < time then d else
    let sk := d.gen.skipped
    let d1 := issueTrig { d with gen := { d.gen with held := none, skipped := [] } } { t with time := time }
    let d2 := sk.foldl issueTrig d1
    if trigMode d2 = 1 then cross d2 time else d2

/-- A failover cause shows on a channel (Table 2.3): the source switches over when its FO_CFG says so and the backup is
sound. The Puppeteer of a ring sends the switch, with the WLN of the first line triggered after it (a held trigger's, when one is
held back); another module of a ring switches on its own copy and sets LOCAL. Only the event of a cause is judged (log entry 122). -/
def foCause (d : Dev) (n : Fin 4) (cause time : Nat) : Dev :=
  let b : Fin 4 := Fin.ofNat 4 (d.rd (ENC.FO_CFG.BACKUP n))
  if n ≠ trigSrc d ∨ d.gen.fo.isSome ∨ !d.on (ENC.FO_CFG.EN n) ∨ b = n ∨ d.rd (ENC.CFG.MODE b) = 0 ∨ chBad d b then d
  else
    let d1 := foSwitchNow d cause (!d.isPuppeteer)
    let args : List Int := [((d.gen.held.elim d.gen.nextWln TrigRec.wln : Nat) : Int), -1, (cause : Int)]
    let d2 := if d.isPuppeteer then (d1.toRing .line args).toStandby .line args else d1
    cross d2 time

/-- LINE (R21, R41, R51) on a module other than the Puppeteer: the stamp is compared with the module's own trigger, an index
correction is taken over, whose lines already triggered are made up at once, and a failover switch waits for its WLN. -/
def line (w pos : Nat) (corr : Option LineCorr) (switchAt : Option (Nat × Nat)) (d : Dev) : Dev :=
  if d.isPuppeteer then d
  else
    let d1 := match d.gen.recent.find? fun t => t.wln == w with
      | some t => divergeCheck d t.pos pos
      | none => { d with gen := { d.gen with expected := ((w, pos % 2 ^ 48) :: d.gen.expected).take 64 } }
    let d2 := match corr with
      | none => d1
      | some c =>
        let d2 := (d1.wr (ENC.INDEX_STAT.PENDING c.ch) 1).updEnc c.ch fun q => { q with slew := some ⟨c.d, some c.first, max 1 c.s, 0, 0, 0⟩ }
        let past := ((List.range (d2.gen.nextWln - c.first)).map (c.first + ·)).filter fun v => d2.gen.held.elim true fun t => t.wln != v
        cross (past.foldl (fun d v => slewOne v d c.ch) (indexMissing d2 c.ch)) d2.now
    match switchAt with
    | none => d2
    | some (v, cause) =>
      if d2.gen.fo.isSome then d2
      else if d2.gen.maxWln.elim false fun m => decide (v ≤ m) then cross (foSwitchNow d2 cause false) d2.now
      else { d2 with gen := { d2.gen with foSwitch := some (v, cause) } }

/-! ## Meanings -/

def execTimebaseTick (s : State) : Host.Outcome State Fault Refusal := s.onDev timebaseTick
def execTbStep (s : State) : Host.Outcome State Fault Refusal := s.onDev tbStep
def execTbHoldover (s : State) : Host.Outcome State Fault Refusal := s.onDev tbHoldover
def execFreeRunTrigger (s : State) : Host.Outcome State Fault Refusal := s.onDev freeRunTrigger
def execHoldbackRelease (s : State) : Host.Outcome State Fault Refusal := s.onDev holdbackRelease
def execLine (wln pos : Nat) (corr : Option LineCorr) (switchAt : Option (Nat × Nat)) (s : State) :
    Host.Outcome State Fault Refusal := s.onDev (line wln pos corr switchAt)
def execSnapReq (s : State) : Host.Outcome State Fault Refusal := s.onDev snapReq
def execSnapNext (s : State) : Host.Outcome State Fault Refusal := s.onDev snapNext
def execSnapRelease (s : State) : Host.Outcome State Fault Refusal := s.onDev snapRelease
/-- SNAP (R342): a ring snapshot request arrives; the active module passes it to its standby. -/
def execSnap (target : Nat) (s : State) : Host.Outcome State Fault Refusal :=
  s.onDev fun d => (snapAsk d false target).toStandby .snap [(target : Int)]

end Sys2Proof.Machine
end

