-- ==== Sys2Proof/Machine/Valve.lean ====
section
/-! DEFINITION. Markers and valve drive (spec/10_markers_and_valves.md): the scheduler, the valve engine, admission, the
actuator energy ledger, faults and the shed. -/

namespace Sys2Proof.Machine

def Dev.updMark (d : Dev) (g : MarkSt → MarkSt) : Dev := { d with mark := g d.mark }
def Dev.updValve (d : Dev) (ch : Fin 16) (g : ValveCh → ValveCh) : Dev := { d with valves := d.valves.set ch (g d.valves[ch]) }

/-- All channels, and the channels of a high-side group: Hn feeds V(4n) to V(4n+3). -/
def allValves : List (Fin 16) := List.finRange 16
def groupOf (ch : Fin 16) : Nat := ch.val / 4
def groupChs (g : Nat) : List (Fin 16) := allValves.filter fun c => groupOf c == g

/-- A change of a channel's running program. -/
def Dev.updRun (d : Dev) (ch : Fin 16) (g : Run → Run) : Dev := d.updValve ch fun v => { v with run := v.run.map g }

/-! ## Drive states (R234) -/

def DR.off : Nat := 0
def DR.on : Nat := 1
def DR.free : Nat := 2
def DR.quench : Nat := 3

/-- The drive state of a channel; `cur` is the current regulated, in 4 mA units. -/
def setDrive (d : Dev) (ch : Fin 16) (mode cur : Nat) : Dev :=
  if d.rd (VALVE.STATUS.DRIVE ch) = mode then d else (d.wr (VALVE.STATUS.DRIVE ch) mode).emit (.drive ch mode cur)

/-! ## Marker slots (R232, R233) -/

/-- The slot counts of SLOT_STAT0 and SLOT_STAT1. -/
def slotShow (d : Dev) : Dev :=
  let n (st : MState) : Nat := (d.mark.slots.filter fun s => s.state == st).length
  (((d.wr MARK.SLOT_STAT0.FREE (4096 - d.mark.slots.length)).wrSat MARK.SLOT_STAT0.ARMED (n .armed)).wrSat
    MARK.SLOT_STAT1.RUN (n .run)).wrSat MARK.SLOT_STAT1.DONE (n .done)

/-- Slots changed, and their counts with them. -/
def Dev.updMSlots (d : Dev) (g : List MSlot → List MSlot) : Dev := slotShow (d.updMark fun m => { m with slots := g m.slots })

/-- One slot changed. -/
def Dev.updMSlot (d : Dev) (idx : Nat) (g : MSlot → MSlot) : Dev :=
  d.updMSlots (List.map fun s => if s.idx == idx then g s else s)

def slotAt (d : Dev) (idx : Nat) : Option MSlot := d.mark.slots.find? fun s => s.idx == idx

/-- The lowest FREE slot, searched `fuel` slots from `k`. -/
def freeSlotFrom (ss : List MSlot) : Nat → Nat → Option Nat
  | 0, _ => none
  | fuel + 1, k => if ss.any fun s => s.idx == k then freeSlotFrom ss fuel (k + 1) else some k

/-- The counter of a result code. -/
def resultCnt (d : Dev) (result : Nat) : Dev :=
  match result with
  | 0 => d.inc MARK.CONFIRMED_CNT.CNT
  | 1 => d.inc MARK.FAILED_CNT.CNT
  | 2 => d.inc MARK.FAULT_CNT.CNT
  | 3 => d.inc MARK.SKIPPED_CNT.CNT
  | 4 => d.inc MARK.SHED_CNT.CNT
  | 5 => d.inc MARK.NO_SLOT_CNT.CNT
  | _ => d

/-- The record of a DONE slot enters the tag stream and the slot becomes FREE. -/
def slotRelease (d : Dev) (s : MSlot) : Dev :=
  let d1 := markResultPut d ⟨s.blob, s.close, s.result, s.valve, s.dipT, s.firePos, s.fireT, s.taken⟩
  (d1.inc MARK.RES_CNT.CNT).updMSlots (List.filter fun q => q.idx != s.idx)

/-- A result for an armed or running slot: DONE; the record follows at once, or after SLOT_ACK with a mirrored twin. -/
def slotResult (d : Dev) (idx result dipT : Nat) (valve : Nat) (start : Option (Nat × Nat)) (spent : Nat := 0) : Dev :=
  match slotAt d idx with
  | none => d
  | some s =>
    let pos := start.elim 0 Prod.snd
    let time := start.elim 0 Prod.fst
    let by' := if start.isSome then valve else 0
    let s' := { s with state := MState.done, result := result, dipT := dipT, valve := by', firePos := pos, fireT := time }
    let d1 := resultCnt (d.updMSlot idx fun _ => s') result
    let d2 := d1.toStandby .slotEnd [(idx : Int), (result : Int), (dipT : Int), (spent : Int)]
    if d2.mirrored then d2 else slotRelease d2 s'

/-- SLOT_ACK: the waiting slot leaves DONE. -/
def slotAck (idx : Nat) (d : Dev) : Dev :=
  match slotAt d idx with
  | some s => if s.state = .done then slotRelease d s else d
  | none => d

/-- The twin stops mirroring: every slot that waits leaves DONE (R232). -/
def slotAckAll (d : Dev) : Dev := (d.mark.slots.filter fun s => s.state == .done).foldl slotRelease d

/-- An answer at intake or on MARK_FULL: both counters rise in the same cycle, no slot is used. -/
def answerNow (d : Dev) (h : HandOff) (result : Nat) : Dev :=
  (resultCnt ((d.inc MARK.MARK_IN.CNT).inc MARK.RES_CNT.CNT) result) |> fun d =>
    markResultPut d (earlyResult h.blob h.close result h.taken)

/-! ## Program ends -/

/-- DIP_T as the record and LAST show it: a dip_t that 16 bits do not hold has no stated field value (log entry 3). -/
def dipField (d : Dev) (seen : Option Nat) : Nat × Dev :=
  match seen with
  | none => (0xFFFF, d)
  | some t => if t < 65536 then (t, d) else d.free 16

/-- The group's books: BUSY, OWNER, WAITING and I_SUM. -/
def hsgShow (d : Dev) (g : Nat) : Dev :=
  let chs := groupChs g
  let owner := chs.find? fun c => (d.valves[c].run.bind Run.peakSince).isSome
  let waiting := chs.foldl (fun a c => if (d.valves[c].run.bind Run.wait).isSome then setBit a (c.val % 4) else a) 0
  let sum := (chs.map fun c => d.valves[c].run.elim 0 Run.budget).sum
  (((d.wrB (HSG.STAT.BUSY g) owner.isSome).wr (HSG.STAT.OWNER g) (owner.elim 0 fun c => c.val % 4)).wr
    (HSG.STAT.WAITING g) waiting).wrSat (HSG.STAT.I_SUM g) sum

/-- BANK_BUSY: a program runs from a bank that is no longer live (R236). -/
def busyShow (d : Dev) (ch : Fin 16) : Dev :=
  d.wrB (VALVE.TBL_STAT.BANK_BUSY ch) (d.valves[ch].run.elim false fun r => r.bank != d.rd (VALVE.CFG.BANK ch))

/-- A wait for admission has lasted from an instant to now: WAIT_MAX. -/
def waitOver (d : Dev) (ch : Fin 16) (since : Nat) : Dev :=
  let g := groupOf ch
  let us := (d.now - since) / 16000
  if d.rd (HSG.WAIT_MAX.US g) < us then d.wrSat (HSG.WAIT_MAX.US g) us else d

/-- A channel's program is gone: its wait ends, its remainder goes back to the ledger, the rest begins. -/
def runGone (d : Dev) (ch : Fin 16) : Dev :=
  let d1 := ((d.valves[ch].run).bind Run.wait).elim d fun w => waitOver d ch w.1
  busyShow (d1.updValve ch fun v => { v with run := none, rest := some d.now, released := false, ended := v.ended + v.rem, rem := 0 }) ch

/-- The program of a channel is over with a result code: LAST, the slot's result, the remainder to the ledger. -/
def progOver (d : Dev) (ch : Fin 16) (result : Nat) : Dev :=
  match d.valves[ch].run with
  | none => d
  | some r =>
    let (dt, d) := dipField d r.seen
    let d1 := ((d.wr (VALVE.LAST.DIP_T ch) dt).wr (VALVE.LAST.RESULT ch) result).wrSat (VALVE.LAST_E.UJ ch) (r.spent / 1024)
    let d2 := runGone (d1.irq (Page.VALVE ch) VALVE.irq.DONE) ch
    hsgShow (r.slot.elim d2 fun s => slotResult d2 s result dt ch.val r.start (r.spent / 1024)) (groupOf ch)

/-- A program is driven to QUENCH and ends with a result; a result already decided stands. -/
def progAbort (d : Dev) (ch : Fin 16) (result : Nat) : Dev :=
  match d.valves[ch].run with
  | none => setDrive d ch DR.off 0
  | some r => progOver (setDrive (setDrive d ch DR.quench 0) ch DR.off 0) ch (r.decided.getD result)

/-! ## Faults (R245) -/

/-- Armed slots of a channel answered. -/
def answerArmed (d : Dev) (p : MSlot → Bool) (result : Nat) : Dev :=
  (d.mark.slots.filter fun s => s.state == .armed && p s).foldl (fun d s => slotResult d s.idx result 0xFFFF 0 none) d

/-- A channel latches a cause: QUENCH and OFF, FAULT to its program and to its armed slots. -/
def chanFault (d : Dev) (ch : Fin 16) (cause : Nat) : Dev :=
  let d1 := if d.on (VALVE.FAULT.CAUSE ch) then d else d.wr (VALVE.FAULT.CAUSE ch) cause
  let d2 := answerArmed (progAbort d1 ch 2) (fun s => s.ch == ch.val) 2
  let d3 := (d2.inc (VALVE.FAULT_CNT.CNT ch)).irq (Page.VALVE ch) VALVE.irq.FAULT
  (d3.irq Page.MARK MARK.irq.VALVE_FAULT).toStandby .faultEv [(ch.val : Int), (cause : Int), 1]

/-- A fault of a group: all its channels read cause 7. -/
def groupFault (d : Dev) (g : Fin 4) (cause : Nat) : Dev :=
  let d1 := if d.on (HSG.FAULT.CAUSE g) then d else d.wr (HSG.FAULT.CAUSE g) cause
  (((groupChs g).foldl (fun d c => chanFault d c 7) d1).irq (Page.HSG g) HSG.irq.FAULT).toStandby .faultEv [(16 + g.val : Int), (cause : Int), 1]

/-- The faults of Table 10.4 that a sensor or a comparator detects. -/
def coilShort (ch : Fin 16) (d : Dev) : Dev := chanFault d ch 2
def lsShort (ch : Fin 16) (d : Dev) : Dev := chanFault d ch 3
def valveOvertemp (ch : Fin 16) (d : Dev) : Dev := chanFault d ch 6
def hsShort (g : Fin 4) (d : Dev) : Dev := groupFault d g 1
def hsOt (g : Fin 4) (d : Dev) : Dev := groupFault d g 2

/-- PEAK_LONG: the holder has kept the token for more than PEAK_LIMIT µs; 0 acts as 1 (R241, Table 10.7). -/
def peakLong (ch : Fin 16) (d : Dev) : Dev :=
  let limit := 16000 * max 1 (d.rd (HSG.PEAK_LIMIT.US (groupOf ch)))
  if ((d.valves[ch].run).bind Run.peakSince).elim false fun t => decide (t + limit < d.now) then
    (chanFault d ch 4).irq (Page.HSG (groupOf ch)) HSG.irq.PEAK_LONG
  else d

/-- PROG_RUNAWAY: 65,536 instructions without END. -/
def progRunaway (ch : Fin 16) (d : Dev) : Dev :=
  if d.valves[ch].run.elim false fun r => decide (65536 ≤ r.count) then chanFault d ch 5 else d

/-- VALVE_FAULT_CLR and GROUP_FAULT_CLR: a condition that persists latches again. A channel's cause 7 is its group's. -/
def valveFaultClr (ch : Fin 16) (persists : Bool) (d : Dev) : Dev :=
  let c := d.rd (VALVE.FAULT.CAUSE ch)
  if c = 0 ∨ c = 7 then d
  else
    let d1 := (d.wr (VALVE.FAULT.CAUSE ch) 0).toStandby .faultEv [(ch.val : Int), (c : Int), 0]
    if persists then chanFault d1 ch c
    else if d.on (HSG.FAULT.CAUSE (groupOf ch)) then d1.wr (VALVE.FAULT.CAUSE ch) 7 else d1

def groupFaultClr (g : Fin 4) (persists : Bool) (d : Dev) : Dev :=
  let c := d.rd (HSG.FAULT.CAUSE g)
  if c = 0 then d
  else
    let d1 := (groupChs g).foldl (fun (d : Dev) (k : Fin 16) =>
      if d.rd (VALVE.FAULT.CAUSE k) = 7 then
        (d.wr (VALVE.FAULT.CAUSE k) 0).toStandby .faultEv [(k.val : Int), 7, 0]
      else d) ((d.wr (HSG.FAULT.CAUSE g) 0).toStandby .faultEv [(16 + g.val : Int), (c : Int), 0])
    if persists then groupFault d1 g c else d1

/-! ## Launches (R229, R230) -/

/-- E0 to E3. -/
def entryFld (ch entry : Nat) : Fld :=
  match entry with
  | 0 => VALVE.ENTRY.E0 ch
  | 1 => VALVE.ENTRY.E1 ch
  | 2 => VALVE.ENTRY.E2 ch
  | _ => VALVE.ENTRY.E3 ch

/-- The web position in whole µm, as records carry it. -/
def webPosUm (d : Dev) : Nat := ofSigned 48 (sar d.gen.pos 24)

/-- AVAIL set; a negative one raises LEDGER_NEG (R243). -/
def availPut (d : Dev) (v : Int) : Dev := (d.wrS MARK.AVAIL.UJ v).irqIf (decide (v < 0)) Page.MARK MARK.irq.LEDGER_NEG

/-- An entry launches: the reservation moves from AVAIL to RESV, the program starts at its entry address. -/
def startProgram (d : Dev) (ch : Fin 16) (slot : Option Nat) (entry : Nat) : Dev :=
  let e := d.rd (VALVE.ENERGY.UJ ch entry)
  let d1 := (availPut d (d.rdS MARK.AVAIL.UJ - e)).wr MARK.RESV.UJ (d.rd MARK.RESV.UJ + e)
  let r : Run :=
    { slot := slot, bank := d.rd (VALVE.CFG.BANK ch), pc := d.rd (entryFld ch entry), left := none, start := none, ticks := 0,
      loop := none, count := 0, cls := 0, budget := 0, peakSince := none, wait := none, admitted := false, armed := none,
      window := 0, imax := 0, runLen := 0, seen := none, decided := none, spent := 0 }
  let d2 := ((d1.wr (VALVE.STATUS.DIP ch) 0).wr (VALVE.NOW.PC ch) r.pc).inc (VALVE.RUN_CNT.CNT ch)
  d2.updValve ch fun v => { v with run := some r, req := none, released := false, rem := v.rem + e }

/-- AVAIL covers the reservation; a negative AVAIL blocks every one. -/
def canReserve (d : Dev) (ch : Fin 16) (entry : Nat) : Bool :=
  decide (0 ≤ d.rdS MARK.AVAIL.UJ ∧ (d.rd (VALVE.ENERGY.UJ ch entry) : Int) ≤ d.rdS MARK.AVAIL.UJ)

/-- Role Mark is fired only by the scheduler, the others only by what requested it; role Off never (R225). -/
def roleFires (d : Dev) (ch : Fin 16) (role : Nat) : Bool := role != 0 && d.rd (VALVE.CFG.ROLE ch) == role

/-- Nothing launches on a standby, in a shed, on a channel that runs, is in fault or has not rested. -/
def canLaunch (d : Dev) (ch : Fin 16) : Bool :=
  d.isActive && !d.on MARK.STATUS.SHED && (d.valves[ch].run).isNone && !d.on (VALVE.FAULT.CAUSE ch) &&
    d.valves[ch].rest.elim true fun t => decide (16000 * d.rd (VALVE.REG.REST ch) ≤ d.now - t)

/-- A position is at or past another: their difference modulo 2^48, as a signed number, is not negative (R14). -/
def posReached (a b : Int) : Bool := decide (0 ≤ toSigned 48 (ofSigned 48 (a - b)))

/-- The due slot of a channel that launches first: ascending F, then ascending intake order. -/
def firstDue (d : Dev) (ch : Fin 16) : Option MSlot :=
  (d.mark.slots.filter fun s => s.state == .armed && s.ch == ch.val && s.due.isSome).foldl (fun b s =>
    match b with
    | none => some s
    | some q =>
      if posReached q.f s.f = true ∧ (posReached s.f q.f = false ∨ s.seq < q.seq) then some s else b) none

/-- MARK_LAUNCH of a channel: its waiting request, or its first due slot, when the reservation can be made. -/
def markLaunch (ch : Fin 16) (d : Dev) : Dev :=
  if !canLaunch d ch then d
  else
    match d.valves[ch].req with
    | some (e, _, role) => if roleFires d ch role && canReserve d ch e then startProgram d ch none e else d
    | none =>
      match firstDue d ch with
      | none => d
      | some s =>
        if roleFires d ch 1 && canReserve d ch s.entry then
          let d1 := d.toStandby .launch [(s.idx : Int), (webPosUm d : Int), (d.nowNs : Int), (d.rd (VALVE.ENERGY.UJ ch s.entry) : Int)]
          startProgram (d1.updMSlot s.idx fun q => { q with state := .run, valve := ch.val }) ch (some s.idx) s.entry
        else d

/-- SHED_WAIT µs (16,000 units of 1/16 ns each) have passed since an instant. -/
def shedWaited (d : Dev) (since : Nat) : Bool := decide (since + 16000 * d.rd MARK.SHED_WAIT.US ≤ d.now)

/-- SHED_WAIT_EXPIRY: a slot that has been due for SHED_WAIT without a reservation is answered SHED; 4096 + ch names the waiting request
of a Host channel, which is dropped. -/
def shedWaitExpiry (target : Nat) (d : Dev) : Dev :=
  if target < 4096 then
    match slotAt d target with
    | some s => if s.state = .armed ∧ s.due.elim false (shedWaited d) ∧ d.isActive then slotResult d target 4 0xFFFF 0 none else d
    | none => d
  else
    let ch := Fin.ofNat 16 target
    match d.valves[ch].req with
    | some (_, since, 3) => if shedWaited d since then d.updValve ch fun v => { v with req := none } else d
    | _ => d

/-- The close program of a shutter (R146, R225): entry E0 unless CMD selects another (Table 10.8). -/
def shutterClose (d : Dev) (ch : Fin 16) : Dev :=
  if d.rd (VALVE.CFG.ROLE ch) ≠ 2 then d
  else markLaunch ch (d.updValve ch fun v => { v with req := some (d.rd (VALVE.CMD.ENTRY ch), d.now, 2) })

/-- The thermal port releases a shutter: WAITR ends. -/
def shutterRelease (d : Dev) (ch : Fin 16) : Dev := d.updValve ch fun v => { v with released := true, req := none }

/-- CMD.RUN and CMD.STOP, role Host only. -/
def valveCmdRun (ch : Fin 16) (entry : Fin 4) (d : Dev) : Dev :=
  let d1 := d.wr (VALVE.CMD.ENTRY ch) entry
  if d.rd (VALVE.CFG.ROLE ch) ≠ 3 then d1
  else markLaunch ch (d1.updValve ch fun v => { v with req := some (entry.val, d.now, 3) })

/-! ## Intake (R227, R228) -/

/-- The lead at the present speed: 0 while the speed is negative or unknown. -/
def leadUm (d : Dev) (ch : Nat) : Int := max 0 (speedAt d (drivingCh d) d.now) * d.rd (VALVE.LEAD_NS.NS ch) / 16000000000

/-- A slot falls due: position plus lead reaches F. A web that runs backwards makes none due. -/
def slotDueNow (d : Dev) (s : MSlot) : Bool :=
  decide (0 ≤ speedAt d (drivingCh d) d.now) && posReached (sar d.gen.pos 24 + leadUm d s.ch) s.f

/-- SLOT_DUE: every armed slot is examined. -/
def slotDue (d : Dev) : Dev :=
  d.updMSlots (List.map fun s =>
    if s.state = .armed ∧ s.due.isNone ∧ slotDueNow d s = true then { s with due := some d.now } else s)

/-- The channels of an entry's mask in role Mark that cover a cross-web position. -/
def covering (d : Dev) (prog : Nat) (cx : Int) : Option (Fin 16) :=
  allValves.find? fun c => bitOf (d.rd (MARK.MPS.MASK prog)) c && d.rd (VALVE.CFG.ROLE c) == 1 &&
    decide (d.rdS (VALVE.XW_LO.X c) ≤ cx ∧ cx ≤ d.rdS (VALVE.XW_HI.X c))

/-- The anchor of R228; code 3 acts as 1. -/
def anchorOf (d : Dev) (prog : Nat) (p0 p1 : Int) : Int :=
  match d.rd (MARK.MPS.ANCHOR prog) with
  | 0 => p0
  | 2 => p1
  | _ => p0 + toSigned 48 (ofSigned 48 (p1 - p0)) / 2

/-- One request: answered at once, or a slot armed. -/
def intakeOne (d : Dev) (h : HandOff) : Dev :=
  if d.on MARK.STATUS.SHED then answerNow d h 4
  else if !d.on MARK.CTL.EN then answerNow d h 3
  else
    match covering d h.prog h.cx with
    | none => answerNow d h 3
    | some ch =>
      if d.on (VALVE.FAULT.CAUSE ch) then answerNow d h 2
      else
        match freeSlotFrom d.mark.slots 4096 0 with
        | none => (answerNow d h 5).irq Page.MARK MARK.irq.NO_SLOT
        | some k =>
          let f := anchorOf d h.prog h.p0 h.p1 + d.rd (VALVE.DIST.UM ch) + d.rdS (MARK.MPS_OFS.UM h.prog)
          let s : MSlot :=
            { idx := k, seq := d.mark.seq, blob := h.blob, close := h.close, ch := ch.val, entry := d.rd (MARK.MPS.ENTRY h.prog),
              f := f, state := .armed, due := none, taken := h.taken, valve := 0, firePos := 0, fireT := 0, result := 0,
              dipT := 0xFFFF }
          let s' := if posReached (sar d.gen.pos 24) f = true ∨ slotDueNow d s = true then { s with due := some d.now } else s
          let d1 := (d.inc MARK.MARK_IN.CNT).updMark fun m => { m with seq := m.seq + 1 }
          d1.updMSlots fun ss => ss ++ [s']

/-- MARK_INTAKE: one entry of the hand-off queue. -/
def markIntake (d : Dev) : Dev :=
  match d.tags.handOff with
  | [] => d
  | h :: rest =>
    let d1 := intakeOne ((d.updTags fun t => { t with handOff := rest }).wr TAG.MQ_DEPTH.N rest.length) h
    let armed := d1.mark.seq != d.mark.seq
    tailReach (digestSettle (digestNote d1 h.close h.blob fun q => (q.1, some (if armed then 1 else 0))))

/-! ## Admission (R239, R240) -/

/-- The sum of the budgets of the other channels that satisfy `p`. -/
def otherBudgets (d : Dev) (ch : Fin 16) (p : Fin 16 → Bool) : Nat :=
  ((allValves.filter fun c => c != ch && p c).map fun c => d.valves[c].run.elim 0 Run.budget).sum

/-- An instruction's needs fit every limit, its channel's own budget counted as released. -/
def admits (d : Dev) (ch : Fin 16) (cls budget : Nat) : Bool :=
  let g := groupOf ch
  !(cls == 2 && (d.on MARK.STATUS.RAIL_LOW ||
      (groupChs g).any fun c => c != ch && ((d.valves[c].run).bind Run.peakSince).isSome)) &&
  decide (otherBudgets d ch (fun c => groupOf c == g) + budget ≤ d.rd (HSG.I_MAX.MA g)) &&
  decide (otherBudgets d ch (fun _ => true) + budget ≤ d.rd MARK.I_MAX.MA)

/-- Class and budget of the instruction that starts; a token is released by another class. -/
def Run.enter (r : Run) (cls budget now : Nat) : Run :=
  { r with cls := cls, budget := budget, peakSince := if cls = 2 then some (r.peakSince.getD now) else none }

/-- One waiting request considered; `fresh` when it began to wait in this command. -/
def admitOne (fresh : Option (Fin 16)) (d : Dev) (ch : Fin 16) : Dev :=
  match d.valves[ch].run with
  | none => d
  | some r =>
    match r.wait with
    | none => d
    | some (since, cls, budget) =>
      if admits d ch cls budget then
        let g := groupOf ch
        let token := cls = 2 ∧ r.peakSince.isNone
        let d1 := d.updRun ch fun r => { r.enter cls budget d.now with wait := none, admitted := true }
        let d2 := if token then d1.inc (HSG.PEAK_GRANT_CNT.CNT g) else d1
        let d3 := if token ∧ fresh ≠ some ch then d2.inc (HSG.PEAK_WAIT_CNT.CNT g) else d2
        hsgShow (waitOver d3 ch since) g
      else d

/-- The waiting channels in order of the instant at which each began to wait, then by number. -/
def waiters (d : Dev) : List (Fin 16) :=
  (sortBy (fun a b => decide (a.1 < b.1 ∨ (a.1 = b.1 ∧ a.2 ≤ b.2)))
    (allValves.filterMap fun c => ((d.valves[c].run).bind Run.wait).map fun w => (w.1, c))).map Prod.snd

/-- Every waiting request that fits is granted. -/
def grantAll (fresh : Option (Fin 16)) (d : Dev) : Dev := (waiters d).foldl (admitOne fresh) d

/-- ADMISSION_GRANT. -/
def admissionGrant (d : Dev) : Dev := grantAll none d

/-! ## Program words (R234, R236) -/

/-- The address of a program word, and the word as its readers see it. -/
def progAddr (ch : Nat) (bank pc : Nat) : Nat := 0x07000000 + 0x1000 * ch + 0x400 * bank + 4 * pc
def progWord (m : Memory) (ch : Nat) (bank pc : Nat) : Nat := (m.fixRange (progAddr ch bank pc) 4).u32 (progAddr ch bank pc)

/-- OP, I and T of an instruction; a T of 0 acts as 1. -/
def opOf (w : Nat) : Nat := bitsOf w 28 4
def iOf (w : Nat) : Nat := bitsOf w 16 12
def tOf (w : Nat) : Nat := max 1 (bitsOf w 0 14 * if bitOf w 14 then 64 else 1)

/-- The current class of an instruction (Table 10.3). -/
def opClass (op : Nat) : Nat := if op = 1 ∨ op = 2 then 2 else if op = 3 ∨ op = 6 then 1 else 0

/-! ## The rail, the ledger and the shed (R242 to R246) -/

/-- RAIL_LOW and RAIL_RECOVER with the rail's reading in mV. -/
def railLow (mv : Nat) (d : Dev) : Dev :=
  let d1 := d.wrSat MARK.RAIL.MV mv
  if mv < 40000 then (d1.wr MARK.STATUS.RAIL_LOW 1).irq Page.MARK MARK.irq.RAIL_LOW else d1

def railRecover (mv : Nat) (d : Dev) : Dev :=
  let d1 := d.wrSat MARK.RAIL.MV mv
  if 42000 ≤ mv then d1.wr MARK.STATUS.RAIL_LOW 0 else d1

/-- SPENT, REFILL and SPILL. -/
def addTotal (d : Dev) (lo hi : Fld) (v : Nat) : Dev := d.wr2 lo hi (d.rd2 lo hi + v)

/-- One channel of a ledger step: whole µJ move to SPENT, first from what ended programs left. -/
def ledgerCh (d : Dev) (ch : Fin 16) : Dev :=
  let v := d.valves[ch]
  let e := v.acc / 1024
  let t1 := min e v.ended
  let t2 := min (e - t1) v.rem
  let back := v.ended - t1
  let d1 := d.updValve ch fun v => { v with acc := v.acc % 1024, ended := 0, rem := v.rem - t2 }
  let d2 := d1.wr MARK.RESV.UJ (d.rd MARK.RESV.UJ - (t1 + t2 + back))
  addTotal (d2.wrS MARK.AVAIL.UJ (d.rdS MARK.AVAIL.UJ - ((e - t1 - t2 : Nat) : Int) + back)) MARK.SPENT_LO.SPENT MARK.SPENT_HI.SPENT e

/-- LEDGER_STEP; a negative AVAIL raises LEDGER_NEG. -/
def ledgerStep (d : Dev) : Dev :=
  let d1 := allValves.foldl ledgerCh d
  let rate := d.rd MARK.LEDGER_RATE.UJ
  let a := d1.rdS MARK.AVAIL.UJ + rate
  let cap : Int := d.rd MARK.LEDGER_CAP.UJ
  let d2 := addTotal d1 MARK.REFILL_LO.REFILL MARK.REFILL_HI.REFILL rate
  if cap < a then addTotal (availPut d2 cap) MARK.SPILL_LO.SPILL MARK.SPILL_HI.SPILL (a - cap).toNat else availPut d2 a

/-- The actuators are shed (R246). -/
def shedActuators (d : Dev) : Dev :=
  let d1 := (d.wr MARK.STATUS.SHED 1).irq Page.MARK MARK.irq.SHED
  let d2 := allValves.foldl (fun d c => if (d.valves[c].run).isSome then progAbort d c 4 else d) d1
  answerArmed d2 (fun _ => true) 4

/-- SHED_END: the actuators are restored (R416) and the rail reads at least 42.0 V. -/
def shedEnd (d : Dev) : Dev := if !d.on PWR.STATUS.SHED ∧ 42000 ≤ d.rd MARK.RAIL.MV then d.wr MARK.STATUS.SHED 0 else d

/-- WAIT_MAX_CLEAR. -/
def waitMaxClear (g : Fin 4) (d : Dev) : Dev := d.wr (HSG.WAIT_MAX.US g) 0

/-! ## Program banks and the consistency check (R226, R236) -/

/-- VALVE_TABLE_WRITE: a word of a program bank through the window. -/
def valveTableWrite (addr : Nat) (word : Word32) (x : DM) : DM :=
  let o := addr - 0x07000000
  let ch := o / 0x1000
  let bank := o % 0x1000 / 0x400
  if addr < 0x07000000 ∨ 16 ≤ ch ∨ 2 ≤ bank then x
  else if x.1.rd (VALVE.CFG.BANK ch) = bank ∨ x.1.on (VALVE.TBL_STAT.BANK_BUSY ch) then
    ((x.1.wr (VALVE.TBL_STAT.WR_LIVE ch) 1).irq (Page.VALVE ch) VALVE.irq.WR_LIVE, x.2)
  else (x.1, x.2.put32 (addr / 4 * 4) word.toNat)

/-- An instruction that the check refuses: a reserved opcode, or a current field above 2,000. -/
def badInstr (w : Nat) : Bool :=
  decide (13 ≤ opOf w) || ([1, 2, 3, 5, 6].contains (opOf w) && decide (2000 < iOf w))

/-- R226 over a staged set: cause and channel. -/
def markCheck (m : Memory) (d : Dev) (v : Fld → Nat) : Option (Nat × Nat) :=
  let chs := List.range 16
  let mask := (List.range 16).foldl (fun a n => Nat.lor a (v (MARK.MPS.MASK n))) 0
  let f1 := (chs.find? fun c => bitOf mask c && v (VALVE.CFG.ROLE c) != 1).map fun c => (1, c)
  let f2 := (chs.find? fun c => v (VALVE.CFG.ROLE c) == 1 &&
    decide (toSigned 32 (v (VALVE.XW_HI.X c)) < toSigned 32 (v (VALVE.XW_LO.X c)))).map fun c => (2, c)
  let f3 := (chs.find? fun c => v (VALVE.CFG.BANK c) != d.rd (VALVE.CFG.BANK c) &&
    (List.range 256).any fun k => badInstr (progWord m c (v (VALVE.CFG.BANK c)) k)).map fun c => (3, c)
  let f4 := (chs.find? fun c => v (VALVE.CFG.ROLE c) == 2 &&
    !((List.range 2).any fun n => v (THERM.SH_CFG.VALVE n) == c)).map fun c => (4, c)
  f1.orElse fun _ => f2.orElse fun _ => f3.orElse fun _ => f4

/-- BANK_BUSY after an epoch. -/
def valveEpoch (d : Dev) : Dev := allValves.foldl busyShow d

/-! ## Meanings -/

def execMarkIntake (s : State) : Host.Outcome State Fault Refusal := s.onDev markIntake
def execSlotDue (s : State) : Host.Outcome State Fault Refusal := s.onDev slotDue
def execMarkLaunch (ch : Fin 16) (s : State) : Host.Outcome State Fault Refusal := s.onDev (markLaunch ch)
def execShedWaitExpiry (target : Nat) (s : State) : Host.Outcome State Fault Refusal := s.onDev (shedWaitExpiry target)
def execAdmissionGrant (s : State) : Host.Outcome State Fault Refusal := s.onDev admissionGrant
def execSlotAck (slot : Nat) (s : State) : Host.Outcome State Fault Refusal := s.onDev (slotAck slot)
def execCoilShort (ch : Fin 16) (s : State) : Host.Outcome State Fault Refusal := s.onDev (coilShort ch)
def execLsShort (ch : Fin 16) (s : State) : Host.Outcome State Fault Refusal := s.onDev (lsShort ch)
def execPeakLong (ch : Fin 16) (s : State) : Host.Outcome State Fault Refusal := s.onDev (peakLong ch)
def execProgRunaway (ch : Fin 16) (s : State) : Host.Outcome State Fault Refusal := s.onDev (progRunaway ch)
def execValveOvertemp (ch : Fin 16) (s : State) : Host.Outcome State Fault Refusal := s.onDev (valveOvertemp ch)
def execHsShort (g : Fin 4) (s : State) : Host.Outcome State Fault Refusal := s.onDev (hsShort g)
def execHsOt (g : Fin 4) (s : State) : Host.Outcome State Fault Refusal := s.onDev (hsOt g)
def execValveFaultClr (ch : Fin 16) (persists : Bool) (s : State) : Host.Outcome State Fault Refusal :=
  s.onDev (valveFaultClr ch persists)
def execGroupFaultClr (g : Fin 4) (persists : Bool) (s : State) : Host.Outcome State Fault Refusal :=
  s.onDev (groupFaultClr g persists)
def execRailLow (mv : Nat) (s : State) : Host.Outcome State Fault Refusal := s.onDev (railLow mv)
def execRailRecover (mv : Nat) (s : State) : Host.Outcome State Fault Refusal := s.onDev (railRecover mv)
def execLedgerStep (s : State) : Host.Outcome State Fault Refusal := s.onDev ledgerStep
def execShedEnd (s : State) : Host.Outcome State Fault Refusal := s.onDev shedEnd
def execValveCmdRun (ch : Fin 16) (entry : Fin 4) (s : State) : Host.Outcome State Fault Refusal := s.onDev (valveCmdRun ch entry)
def execValveTableWrite (addr : Nat) (word : Word32) (s : State) : Host.Outcome State Fault Refusal :=
  s.onBoth (valveTableWrite addr word)
def execWaitMaxClear (g : Fin 4) (s : State) : Host.Outcome State Fault Refusal := s.onDev (waitMaxClear g)

end Sys2Proof.Machine
end

