-- ==== Sys2Proof/Machine/Thermal.lean ====
section
/-! DEFINITION. Thermal head readout (spec/06_thermal_readout.md): head states, frames, correction, captures and the web
map. -/

namespace Sys2Proof.Machine

/-- Head states (Table 6.1) and shutter states (SH_STAT). -/
def HS.off : Nat := 0
def HS.bias : Nat := 1
def HS.starting : Nat := 2
def HS.run : Nat := 3
def HS.fault : Nat := 4
def SS.opened : Nat := 0
def SS.closing : Nat := 1
def SS.settling : Nat := 2
def SS.capturing : Nat := 3
def SS.opening : Nat := 4
def SS.failed : Nat := 5

def Dev.updHead (d : Dev) (n : Fin 2) (g : Head → Head) : Dev := { d with heads := d.heads.set n (g d.heads[n]) }
def headState (d : Dev) (n : Nat) : Nat := d.rd (THERM.STATUS.STATE n)
def shState (d : Dev) (n : Nat) : Nat := d.rd (THERM.SH_STAT.STATE n)

/-- A field under the set of the head's frame. -/
def headCfg (d : Dev) (n : Fin 2) (f : Fld) : Nat := RegFile.get d.heads[n].set f.key f.reset

/-- The latest result of a converter's sequence entry and the instant it was written. -/
def padcResult (d : Dev) (conv entry : Nat) : Int × Nat :=
  (d.rdS (PADC.RES.VAL conv entry), (d.padcTimes.find? fun x => x.1 == 16 * conv + entry).elim 0 Prod.snd)

def sat16 (v : Int) : Int := clampI (-32768) 32767 v
def sat24 (v : Int) : Int := clampI (-8388608) 8388607 v

/-! ## Timing lines (R133) -/

/-- t_PCLK in 1/16 ns: 4.8 GHz / 192 at RATE 0, halved per step. -/
def tPclk (rate : Nat) : Nat := 640 * 2 ^ (rate % 3)

/-- The levels of a head's timing lines. -/
structure HeadPins where
  pclk : Bool
  fsync : Bool
  lsync : Bool
  int : Bool
  deriving DecidableEq, Repr

/-- The timing lines of a head run: from entry to BIAS until OFF or FAULT; a standby leaves them at high impedance (R159). -/
def headTimed (d : Dev) (n : Fin 2) : Bool :=
  !d.isStandby && (headState d n == HS.bias || headState d n == HS.starting || headState d n == HS.run)

/-- The timing lines at an instant after the last FSYNC. FSYNC and LSYNC pulses last one PCLK cycle and PCLK is high in the first half
of its period (log entry 132). -/
def headPins (d : Dev) (n : Fin 2) (t : Nat) : HeadPins :=
  let tp := tPclk (headCfg d n TAPC.CTL.RATE)
  let s := d.heads[n].nextF - 16 * headCfg d n (THERM.FRAME_PERIOD.NS n)
  let c := (t - s) / tp
  let k := c % max 1 (headCfg d n (THERM.ROW_TIMING.ROW_PERIOD n))
  let i0 := headCfg d n (THERM.INT_TIMING.INT_START n)
  if headTimed d n && d.heads[n].cur.isSome then
    ⟨decide ((t - s) % tp < tp / 2), c == 0, k == 0, decide (i0 ≤ k ∧ k < i0 + headCfg d n (THERM.INT_TIMING.INT_LEN n))⟩
  else ⟨headTimed d n && decide ((t - d.heads[n].t0) % tp < tp / 2), false, false, false⟩

/-- The instant at which a tap's converter takes sample `i` of row `r`: SAMPLE_PH after the rising PCLK edge, in the row period that
puts the row out (R133). -/
def sampleInstant (d : Dev) (n : Fin 2) (start r i : Nat) : Nat :=
  let tp := tPclk (headCfg d n TAPC.CTL.RATE)
  let c := headCfg d n
  start + ((r + c (THERM.ROW_TIMING.RD_LAG n)) * c (THERM.ROW_TIMING.ROW_PERIOD n) + c (THERM.ROW_TIMING.DATA_START n) + i) * tp +
    tp * c TAPC.CTL.SAMPLE_PH / 192

/-- The mid-integration instant of row `r` of a frame that started at `start` (R134). -/
def rowInstant (d : Dev) (n : Fin 2) (start r : Nat) : Nat :=
  let c := headCfg d n
  start + (r * c (THERM.ROW_TIMING.ROW_PERIOD n) + c (THERM.INT_TIMING.INT_START n) + c (THERM.INT_TIMING.INT_LEN n) / 2) *
    tPclk (c TAPC.CTL.RATE)

/-- The position stamp at an instant of the frame in progress. -/
def posAt (log : List (Nat × Nat)) (t : Nat) : Nat :=
  ((log.find? fun q => decide (q.1 ≤ t)).orElse fun _ => log.getLast?).elim 0 Prod.snd

/-- P_r of every row of a frame (R134). -/
def rowStamps (d : Dev) (n : Fin 2) (f : FrameInfo) : List Nat :=
  (List.range (headCfg d n (THERM.GEOM.ROWS n))).map fun r => posAt d.heads[n].posLog (rowInstant d n f.time r)

/-! ## Head states (R135, R136) -/

/-- A bias code waits for its transfer; a standby leaves the bias outputs alone (R159). -/
def biasWrite (d : Dev) (n : Fin 2) (code : Nat) : Dev :=
  if d.isStandby then d else d.updHead n fun h => { h with biasQ := h.biasQ ++ [(d.rd (THERM.BIAS.CS n), code)] }

/-- The standby learns of a capture's step (R159): the frame's flags, the shutter state, and what the next frames need. -/
def captureTell (d : Dev) (n : Fin 2) (sh cap chk : Bool) : Dev :=
  let h := d.heads[n]
  d.toStandby .capture [(n.val : Int), (b2n sh : Int), (b2n cap : Int), (b2n chk : Int), (shState d n : Int),
    (d.rd (THERM.SH_STAT.CAUSE n) : Int), (h.left : Int), (b2n h.retried : Int), (b2n h.again : Int)]

/-- A step between two frame starts: the flags of the frame in progress stay. -/
def captureTellMid (d : Dev) (n : Fin 2) : Dev :=
  match d.heads[n].cur with
  | some f => captureTell d n f.shutter f.capture f.check
  | none => captureTell d n false false false

/-- The last frame of the previous set has left the chain: BANK_BUSY ends (R158). -/
def chainEmpty (d : Dev) (n : Fin 2) : Dev := d.wr (THERM.TBL_STAT.BANK_BUSY n) 0

/-- A capture in progress is abandoned and the valve released. -/
def abandonCapture (d : Dev) (n : Fin 2) : Dev :=
  let st := shState d n
  let d1 := if st = SS.closing ∨ st = SS.settling ∨ st = SS.capturing then shutterRelease d (Fin.ofNat 16 (headCfg d n (THERM.SH_CFG.VALVE n))) else d
  let d2 := (d1.wr (THERM.SH_STAT.STATE n) SS.opened).updHead n fun h =>
    { h with req := none, retried := false, again := false, left := 0, done := false, sums := [], capN := 0, old := none }
  if st = SS.opened then d2 else captureTellMid d2 n

/-- Entry to BIAS: timing starts at T_0 = now, the bias is written. -/
def enterBias (d : Dev) (n : Fin 2) : Dev :=
  let d1 := biasWrite (d.wr (THERM.STATUS.STATE n) HS.bias) n (d.rd (THERM.BIAS.CODE n))
  (chainEmpty d1 n).updHead n fun h => { h with t0 := d.now, nextF := d.now, cur := none, set := d.regs, settled := false, biasBad := 0 }

/-- Entry to FAULT with a cause: bias 0, timing stopped. -/
def headFault (d : Dev) (n : Fin 2) (cause : Nat) : Dev :=
  let d1 := biasWrite (abandonCapture d n) n 0
  let d2 := (d1.wr (THERM.STATUS.STATE n) HS.fault).wr (THERM.STATUS.FAULT_CAUSE n) cause
  (chainEmpty (d2.irq (Page.THERM n) THERM.irq.FAULT) n).updHead n fun h => { h with cur := none }

/-- The head-sense line says present, and the head's supply has not tripped (R412). -/
def headThere (d : Dev) (n : Fin 2) : Bool := d.on (THERM.STATUS.HEAD_PRESENT n) && !d.pw.tripped.contains n.val

/-- HEAD_ENABLE. -/
def headEnable (n : Fin 2) (d : Dev) : Dev :=
  let d1 := d.wr (THERM.CTL.EN n) 1
  if headState d n = HS.off ∧ headThere d n = true then enterBias d1 n else d1

/-- HEAD_DISABLE. -/
def headDisable (n : Fin 2) (d : Dev) : Dev :=
  let d1 := d.wr (THERM.CTL.EN n) 0
  if headState d n = HS.off then d1
  else
    let d2 := biasWrite (abandonCapture d1 n) n 0
    (chainEmpty ((shutterRelease d2 (Fin.ofNat 16 (d.rd (THERM.SH_CFG.VALVE n)))).wr (THERM.STATUS.STATE n) HS.off) n).updHead n fun h =>
      { h with cur := none }

/-- HEAD_RESTART: FAULT_CAUSE clears; it also re-enables a supply that tripped (R412), so that an enabled head in OFF counts as
present again. -/
def headRestart (n : Fin 2) (d : Dev) : Dev :=
  let d1 := { d with pw := { d.pw with tripped := d.pw.tripped.filter fun k => k != n.val } }
  if headState d n = HS.fault ∧ d.on (THERM.STATUS.HEAD_PRESENT n) then enterBias (d1.wr (THERM.STATUS.FAULT_CAUSE n) 0) n
  else if headState d n = HS.off ∧ d.on (THERM.CTL.EN n) ∧ headThere d1 n = true then enterBias d1 n
  else d1

/-- HEAD_PRESENT_LOST and HEAD_PRESENT_GAINED: the head-sense line. -/
def headPresentLost (n : Fin 2) (d : Dev) : Dev :=
  let d1 := d.wr (THERM.STATUS.HEAD_PRESENT n) 0
  if headState d n = HS.off ∨ headState d n = HS.fault then d1 else headFault d1 n 2

def headPresentGained (n : Fin 2) (d : Dev) : Dev :=
  let d1 := d.wr (THERM.STATUS.HEAD_PRESENT n) 1
  if headState d n = HS.off ∧ d.on (THERM.CTL.EN n) ∧ headThere d1 n = true then enterBias d1 n else d1

/-- A bias transfer waits. -/
def biasWaits (d : Dev) : Bool := d.heads.toList.any fun h => !h.biasQ.isEmpty

/-- BIAS_TRANSFER: one 24-bit transfer, command byte 0x30 and the code, on the head's select (R135). -/
def biasTransfer (n : Fin 2) (d : Dev) : Dev :=
  match d.heads[n].biasQ with
  | [] => d
  | (cs, code) :: rest =>
    let d1 := ((d.spiSend cs 24 (0x300000 + code)).inc MGMT.MST_XFER_CNT.CNT).updHead n fun h => { h with biasQ := rest }
    if biasWaits d1 then d1 else { d1 with spi := { d1.spi with mst := d1.spi.mst.map fun t => { t with waits := false } } }

/-- The bias monitor is within BIAS_TOL of BIAS_EXP. -/
def biasOk (d : Dev) (n : Fin 2) : Bool :=
  let x := (padcResult d (headCfg d n (THERM.TEMP_SRC.BIAS_CONV n)) (headCfg d n (THERM.TEMP_SRC.BIAS_ENTRY n))).1
  decide ((x - toSigned 32 (headCfg d n (THERM.BIAS_EXP.EXP n))).natAbs ≤ headCfg d n (THERM.BIAS_TOL.TOL n))

/-! ## Captures (R146, R147) -/

/-- Precedence of a capture cause: CONFIG, START, MAX, command, drift. -/
def causeRank (c : Nat) : Nat := [0, 1, 3, 2, 4, 5].getD c 0

/-- CAPTURE_REQUEST: dropped during a capture; causes 3 and 1 (command and drift) are held while SH_INHIBIT is set. -/
def captureReq (d : Dev) (n : Fin 2) (cause : Nat) : Dev :=
  let st := shState d n
  let keep (h : Head) : Head := { h with req := some (match h.req with
    | some c => if causeRank c < causeRank cause then cause else c
    | none => cause) }
  if ¬(st = SS.opened ∨ st = SS.failed) ∨ ¬(headState d n = HS.starting ∨ headState d n = HS.run) then d
  else if (cause = 3 ∨ cause = 1) ∧ d.on (THERM.CTL.SH_INHIBIT n) then (d.wr (THERM.SH_STAT.PENDING n) 1).updHead n keep
  else d.updHead n keep

/-- Whether the request of a head acts now. -/
def reqActs (d : Dev) (n : Fin 2) : Bool :=
  match d.heads[n].req with
  | none => false
  | some c => !((c == 3 || c == 1) && d.on (THERM.CTL.SH_INHIBIT n))

/-- CAPTURE_START: the close program of the shutter's channel runs and holds. -/
def captureStart (d : Dev) (n : Fin 2) : Dev :=
  let h := d.heads[n]
  let cause := h.req.getD (d.rd (THERM.SH_STAT.CAUSE n))
  let d1 := shutterClose d (Fin.ofNat 16 (headCfg d n (THERM.SH_CFG.VALVE n)))
  let d2 := ((d1.wr (THERM.SH_STAT.STATE n) SS.closing).wr (THERM.SH_STAT.CAUSE n) cause).wr (THERM.SH_STAT.PENDING n) 0
  d2.updHead n fun h =>
    { h with req := none, again := false, done := false, sums := [], capN := 0, sumT := 0, sumSh := 0, closeAt := d.now }

/-- BIAS_SETTLED: BIAS.SETTLE ms after entry to BIAS. -/
def biasSettled (n : Fin 2) (d : Dev) : Dev :=
  if headState d n ≠ HS.bias ∨ d.now < d.heads[n].t0 + 16000000 * d.rd (THERM.BIAS.SETTLE n) then d
  else
    let d1 := d.updHead n fun h => { h with settled := true }
    if biasOk d1 n then captureReq (d1.wr (THERM.STATUS.STATE n) HS.starting) n 4 else headFault d1 n 1

/-- SH_NOW. -/
def shNow (n : Fin 2) (d : Dev) : Dev := captureReq d n 3

/-- SH_INHIBIT_WRITE: a held request acts at the next FSYNC once the field is clear. -/
def shInhibitWrite (n : Fin 2) (on : Bool) (d : Dev) : Dev :=
  let d1 := d.wrB (THERM.CTL.SH_INHIBIT n) on
  if on then
    d1.wrB (THERM.SH_STAT.PENDING n) (match d.heads[n].req with
      | some c => c == 3 || c == 1
      | none => false)
  else d1.wr (THERM.SH_STAT.PENDING n) 0

/-- The end of DIP_WIN in a capture (Table 6.2). -/
def dipLimit (d : Dev) (n : Fin 2) : Nat := d.heads[n].closeAt + 16000000 * headCfg d n (THERM.SH_CFG.DIP_WIN n)

/-- SHUTTER_DIP, within DIP_WIN. -/
def shutterDip (n : Fin 2) (d : Dev) : Dev :=
  if shState d n = SS.closing ∧ d.now ≤ dipLimit d n then
    captureTellMid ((d.wr (THERM.SH_STAT.STATE n) SS.settling).updHead n fun h => { h with left := headCfg d n (THERM.SH_CFG.SETTLE n) }) n
  else d

/-- A capture has failed: no drift or MAX request is made for SH_INTERVAL.MIN. -/
def captureFailed (d : Dev) (n : Fin 2) : Dev :=
  (d.wr (THERM.SH_STAT.STATE n) SS.failed).updHead n fun h =>
    { h with retried := false, uncal := false, quietUntil := d.now + 16000000000 * headCfg d n (THERM.SH_INTERVAL.MIN n) }

/-- SHUTTER_DIP_TIMEOUT: the first miss retries once after OPEN_FRAMES frames; the second fails the capture. -/
def shutterDipTimeout (n : Fin 2) (d : Dev) : Dev :=
  if shState d n ≠ SS.closing ∨ d.now < dipLimit d n then d
  else
    let d1 := shutterRelease d (Fin.ofNat 16 (headCfg d n (THERM.SH_CFG.VALVE n)))
    if d.heads[n].retried then
      captureTellMid (((captureFailed d1 n).inc (THERM.SH_FAIL_CNT.CNT n)).irq (Page.THERM n) THERM.irq.SH_FAIL) n
    else
      captureTellMid ((d1.wr (THERM.SH_STAT.STATE n) SS.opening).updHead n fun h =>
        { h with retried := true, again := true, left := headCfg d n (THERM.SH_CFG.OPEN_FRAMES n) }) n

/-- CAPTURE_RETRY (Table 6.1): SH_INTERVAL.MIN after the failure. -/
def captureRetry (n : Fin 2) (d : Dev) : Dev :=
  if headState d n = HS.starting ∧ shState d n = SS.failed ∧ d.heads[n].quietUntil ≤ d.now then captureReq d n 4 else d

/-- CLR_DYN. -/
def clrDyn (n : Fin 2) (d : Dev) : Dev := (d.wr (THERM.DYN_BP.CNT n) 0).updHead n fun h => { h with dyn := [] }

/-! ## NUC banks (R156 to R158) -/

def nucBase (n bank : Nat) : Nat := 0x02000000 + 0x01000000 * n + 0x00800000 * bank
def offsAddr (n p : Nat) : Nat := 0x04000000 + 0x00800000 * n + 4 * p

/-- COLS, ROWS, NODE_COLS and NODE_ROWS as a bank's header declares them. -/
def nucDims (m : Memory) (base : Nat) : Nat × Nat × Nat × Nat :=
  (m.u16 (base + 2), m.u16 (base + 4), (m.byte (base + 6)).toNat, (m.byte (base + 7)).toNat)

/-- The least and greatest u of a bank's warp nodes. -/
def nucU (m : Memory) (base : Nat) : Int × Int :=
  let (_, _, nc, nr) := nucDims m base
  let us := (List.range (nc * nr)).map fun k => m.s32 (base + 0x400 + 8 * k + 4)
  (us.foldl min (us.headD 0), us.foldl max (us.headD 0))

/-- The check of R158: header rules and the four CRCs. -/
def nucGood (m : Memory) (base : Nat) : Bool :=
  let (c, r, nc, nr) := nucDims m base
  (m.byte base).toNat == 0x54 && (m.byte (base + 1)).toNat == 1 && decide (160 ≤ c ∧ c ≤ 1280 ∧ c % 32 = 0 ∧ 64 ≤ r ∧ r ≤ 1024) &&
    nc == c / 32 + 1 && nr == (r + 31) / 32 + 1 && (m.take (base + 24) 228).all (fun b => b == 0) &&
    crc32 (m.take base 252) == m.u32 (base + 252) && crc32 (m.take (base + 0x100) 516) == m.u32 (base + 0x304) &&
    crc32 (m.take (base + 0x400) (8 * nc * nr)) == m.u32 (base + 20) && crc32 (m.take (base + 0x4000) (6 * c * r)) == m.u32 (base + 16)

def verifiedFld (n bank : Nat) : Fld := if bank = 0 then THERM.TBL_STAT.VERIFIED0 n else THERM.TBL_STAT.VERIFIED1 n

/-- NUC_VERIFY: each bank is checked on its own. -/
def nucVerify (n bank : Fin 2) (d : Dev) : Dev :=
  if d.heads[n].verify.contains bank.val then d
  else (d.wr (THERM.TBL_STAT.VBUSY n) 1).updHead n fun h => { h with verify := h.verify ++ [bank.val] }

/-- The live bank's U_MIN and U_MAX shown. -/
def showU (m : Memory) (d : Dev) (n : Fin 2) : Dev :=
  let (a, b) := nucU m (nucBase n (d.rd (THERM.CTL.BANK n)))
  (d.wrS (THERM.U_MIN.U n) a).wrS (THERM.U_MAX.U n) b

/-- NUC_VERIFY_DONE. -/
def nucVerifyDone (n : Fin 2) (m : Memory) (d : Dev) : Dev :=
  match d.heads[n].verify with
  | [] => d
  | b :: rest =>
    let d1 := (d.wrB (THERM.TBL_STAT.VBUSY n) (!rest.isEmpty)).updHead n fun h => { h with verify := rest }
    let d2 := if nucGood m (nucBase n b) then d1.wr (verifiedFld n b) 1 else d1.wr (THERM.TBL_STAT.CHK_CAUSE n) 6
    showU m (d2.irq (Page.THERM n) THERM.irq.VERIFY_DONE) n

/-- NUC_TABLE_WRITE: ignored with WR_LIVE on the live bank, and on the other while BANK_BUSY; no HBM write in degraded mode. -/
def nucTableWrite (a : Nat) (w : Word32) (x : DM) : DM :=
  let (d, m) := x
  if a < 0x02000000 ∨ 0x04000000 ≤ a ∨ d.on MEM.STATUS.DEGRADED then x
  else
    let n := (a - 0x02000000) / 0x01000000
    let b := a / 0x00800000 % 2
    if d.rd (THERM.CTL.BANK n) = b ∨ d.on (THERM.TBL_STAT.BANK_BUSY n) then (d.wr (THERM.TBL_STAT.WR_LIVE n) 1, m)
    else (d.wr (verifiedFld n b) 0, m.put32 (a / 4 * 4) w.toNat)

/-- The consistency check of R158 for one head: its cause, if refused. `v` reads a field with the staged set applied. -/
def thermCheck (m : Memory) (d : Dev) (v : Fld → Nat) (n : Fin 2) : Option Nat :=
  if d.rd (THERM.CTL.EN n) = 0 then none
  else
    let b := v (THERM.CTL.BANK n)
    let base := nucBase n b
    let (c, r, _, _) := nucDims m base
    let tp := 640 * 2 ^ (v TAPC.CTL.RATE % 3)
    let rp := v (THERM.ROW_TIMING.ROW_PERIOD n)
    let aw := max 1 (v (THERM.CELL.AW n))
    let xc := v (THERM.MAP_CFG.XW_CELLS n)
    let o : Fin 2 := if n = 0 then 1 else 0
    if d.rd (verifiedFld n b) = 0 then some 1
    else if c ≠ v (THERM.GEOM.COLS n) ∨ r ≠ v (THERM.GEOM.ROWS n) then some 2
    else if rp < v (THERM.ROW_TIMING.DATA_START n) + c / 4 ∨ rp < v (THERM.INT_TIMING.INT_START n) + v (THERM.INT_TIMING.INT_LEN n) ∨
        16 * v (THERM.FRAME_PERIOD.NS n) < (r + v (THERM.ROW_TIMING.RD_LAG n)) * rp * tp then some 3
    else if (512 : Int) < ((nucU m base).2 + aw - 1) / aw + 2 ∨ xc = 0 ∨ 1024 < xc then some 4
    else if v (VALVE.CFG.ROLE (v (THERM.SH_CFG.VALVE n))) ≠ 2 then some 5
    else if d.rd (THERM.CTL.EN o) = 1 ∧ v (THERM.SH_CFG.VALVE o) = v (THERM.SH_CFG.VALVE n) then some 7
    else none

/-! ## FSYNC (R133, R139, R154) -/

/-- The restart fields of R154. -/
def restartFlds (n : Nat) : List Fld :=
  [THERM.GEOM.COLS n, THERM.GEOM.ROWS n, THERM.FRAME_PERIOD.NS n, THERM.ROW_TIMING.ROW_PERIOD n, THERM.ROW_TIMING.RD_LAG n,
   THERM.ROW_TIMING.DATA_START n, THERM.INT_TIMING.INT_START n, THERM.INT_TIMING.INT_LEN n, THERM.BIAS.CODE n, THERM.BIAS.CS n,
   THERM.BIAS.SETTLE n, THERM.TEMP_SRC.FPA_CONV n, THERM.TEMP_SRC.FPA_ENTRY n, THERM.TEMP_SRC.SHT_CONV n, THERM.TEMP_SRC.SHT_ENTRY n,
   THERM.TEMP_SRC.BIAS_CONV n, THERM.TEMP_SRC.BIAS_ENTRY n, THERM.TEMP_SRC.MAXAGE n, TAPC.CTL.RATE, TAPC.CTL.SAMPLE_PH]

/-- The converter fields of R154. -/
def convFlds (n : Nat) : List Fld :=
  (List.range 4).flatMap fun k => [TAPC.AFE.GAIN (4 * n + k), TAPC.AFE.OFS_DAC (4 * n + k), TAPC.TAP_OFS.OFS (4 * n + k), TAPC.TAP_GAIN.GAIN (4 * n + k)]

/-- The map fields of R154. -/
def mapFlds (n : Nat) : List Fld :=
  [THERM.CELL.AW n, THERM.CELL.XW n, THERM.CELL.MINN n, THERM.XW_ORIGIN.ORIGIN n, THERM.MAP_CFG.XW_CELLS n, THERM.MAP_CFG.BG_SHIFT n]

/-- The whole map cleared: no row final, k_lo set by the next sample. -/
def clearMap (h : Head) : Head := { h with kLo := none, cells := [], finals := [], finalK := none, bg := [], pendL := none, buf := [] }

/-- What a map is built under: the bank, the CRC of its warp nodes, and the map fields (R154). -/
def mapKeyOf (m : Memory) (d : Dev) (n : Fin 2) : Nat × Nat × List Nat :=
  let b := d.rd (THERM.CTL.BANK n)
  (b, m.u32 (nucBase n b + 20), (mapFlds n).map d.rd)

/-- The map and the dynamic map at the first FSYNC under a new set. -/
def takeMap (m : Memory) (d : Dev) (n : Fin 2) : Dev :=
  let new := mapKeyOf m d n
  let d1 := match d.heads[n].mapKey with
    | none => d
    | some old =>
      let e := if old.1 = new.1 then d else clrDyn n d
      if old.2.2 ≠ new.2.2 ∨ (old.1 ≠ new.1 ∧ old.2.1 ≠ new.2.1) then e.updHead n clearMap else e
  d1.updHead n fun h => { h with mapKey := some new }

/-- The first FSYNC under a new set: map clearing, bank change, restart, CONFIG capture. Answers whether the head restarts and
whether it requests a capture. -/
def takeSet (m : Memory) (d : Dev) (n : Fin 2) : (Bool × Bool) × Dev :=
  let old := d.heads[n].set
  let ch (fs : List Fld) : Bool := fs.any fun f => old.get f.key f.reset != d.rd f
  let d1 := showU m (chainEmpty (takeMap m d n) n) n
  if ch (restartFlds n) then ((true, false), enterBias (abandonCapture d1 n) n)
  else
    let cfg := ch (convFlds n)
    let d2 := if cfg then captureReq ((abandonCapture d1 n).updHead n fun h => { h with uncal := true }) n 5 else d1
    ((false, cfg), d2.updHead n fun h => { h with set := d.regs })

/-- The shutter sequence at a frame start: flags SHUTTER, CAPTURE and open check of the new frame. A request made at this FSYNC itself
starts at the next one. -/
def shutterAtFsync (d : Dev) (n : Fin 2) (asked : Bool) : (Bool × Bool × Bool) × Dev :=
  let h := d.heads[n]
  let start (d : Dev) : (Bool × Bool × Bool) × Dev :=
    if reqActs d n && !asked then ((true, false, false), captureStart d n) else ((false, false, false), d)
  let openNow (d : Dev) : (Bool × Bool × Bool) × Dev :=
    let d1 := (d.wr (THERM.SH_STAT.STATE n) SS.opened).updHead n fun h => { h with old := none, retried := false, done := false }
    ((false, false, true), d1)
  match shState d n with
  | 1 => ((true, false, false), d)
  | 2 =>
    if 0 < h.left then ((true, false, false), d.updHead n fun h => { h with left := h.left - 1 })
    else ((true, true, false), d.wr (THERM.SH_STAT.STATE n) SS.capturing)
  | 3 =>
    if h.done then
      let d1 := shutterRelease d (Fin.ofNat 16 (headCfg d n (THERM.SH_CFG.VALVE n)))
      let k := headCfg d n (THERM.SH_CFG.OPEN_FRAMES n)
      if k = 0 then openNow d1
      else ((true, false, false), (d1.wr (THERM.SH_STAT.STATE n) SS.opening).updHead n fun h => { h with left := k - 1 })
    else ((true, true, false), d)
  | 4 =>
    if 0 < h.left then ((true, false, false), d.updHead n fun h => { h with left := h.left - 1 })
    else if h.again then ((true, false, false), captureStart d n)
    else openNow d
  | _ => start d

/-- CAPTURE (R159): the active's frame in progress, its flags, the shutter state and what the next frames need; the standby captures on
the same frames. -/
def captureMsg (n : Fin 2) (sh cap chk : Bool) (state cause left : Nat) (retried again : Bool) (d : Dev) : Dev :=
  if !d.isStandby then d
  else
    let was := shState d n
    let first : Bool := cap && d.heads[n].cur.elim false fun f => !f.capture
    let d0 := if state = SS.failed ∧ was ≠ SS.failed then captureFailed d n else d
    let d1 := ((d0.wr (THERM.SH_STAT.STATE n) state).wr (THERM.SH_STAT.CAUSE n) cause).updHead n fun h =>
      { h with cur := h.cur.map fun f => { f with shutter := sh, capture := cap, check := chk }
               left := left, retried := retried, again := again, req := if state = SS.opened ∨ state = SS.failed then h.req else none }
    let d2 := if state = SS.closing ∧ was ≠ SS.closing then
        d1.updHead n fun h => { h with done := false, sums := [], capN := 0, sumT := 0, sumSh := 0, closeAt := d.now }
      else d1
    let d3 := if first then d2.updHead n fun h =>
        { h with sumT := h.sumT + h.cur.elim 0 FrameInfo.tFpa, sumSh := h.sumSh + h.cur.elim 0 FrameInfo.tSh } else d2
    if chk then
      let dT (f : FrameInfo) : Int := sat16 (sar (f.tFpa - d.rdS (THERM.T_S.T n)) 6)
      (d3.wrS (THERM.DRIFT.DT n) (d3.heads[n].cur.elim (d.rdS (THERM.DRIFT.DT n)) dT)).updHead n fun h =>
        { h with old := none, done := false, cur := h.cur.map fun f => { f with oldOfs := false, dT := dT f } }
    else d3

/-- FSYNC: at T_0 + f × FRAME_PERIOD the module pulses the line; a standby takes the pulse it receives (R133, R159). -/
def fsync (n : Fin 2) (m : Memory) (d : Dev) : Dev :=
  let st := headState d n
  if st = HS.off ∨ st = HS.fault ∨ (!d.isStandby ∧ d.now < d.heads[n].nextF) then d
  else
    let time := if d.isStandby then d.now else d.heads[n].nextF
    let d := if d.isStandby then d else d.emit (.headPin n.val 1 1)
    let ((restarted, asked), d) := takeSet m d n
    if restarted then d
    else
      let c := headCfg d n
      let d := d.updHead n fun h => { h with nextF := time + 16 * c (THERM.FRAME_PERIOD.NS n), posLog := [(time, posStamp d.gen.pos)] }
      let (tF, tFt) := padcResult d (c (THERM.TEMP_SRC.FPA_CONV n)) (c (THERM.TEMP_SRC.FPA_ENTRY n))
      let (tSh, _) := padcResult d (c (THERM.TEMP_SRC.SHT_CONV n)) (c (THERM.TEMP_SRC.SHT_ENTRY n))
      let stale := decide (tFt + 16000000 * c (THERM.TEMP_SRC.MAXAGE n) < time)
      let d := (d.wrS (THERM.T_FPA.T n) tF).wrB (THERM.STATUS.FPA_STALE n) stale
      let d := if stale then (d.inc (THERM.FPA_STALE_CNT.CNT n)).irq (Page.THERM n) THERM.irq.FPA_STALE else d
      let bad := if d.heads[n].settled && !biasOk d n then d.heads[n].biasBad + 1 else 0
      let d := d.updHead n fun h => { h with biasBad := bad }
      if 3 ≤ bad ∧ (st = HS.starting ∨ st = HS.run) then headFault d n 1
      else
        let ((sh, cap, chk), d) :=
          if d.on MEM.STATUS.DEGRADED || d.isStandby then ((false, false, false), d) else shutterAtFsync d n asked
        let d := if sh || cap || chk then captureTell d n sh cap chk else d
        let tS := match d.heads[n].old with
          | some (_, t, _) => t
          | none => d.rdS (THERM.T_S.T n)
        let dT := sat16 (sar (tF - tS) 6)
        let d := d.wrS (THERM.DRIFT.DT n) dT
        let f : FrameInfo := ⟨time, d.rd WEB.EPOCH_ID.LIVE_ID, d.rd (THERM.FRAME_CNT.CNT n), tF, tSh, dT, stale, sh, cap, chk,
          d.heads[n].old.isSome⟩
        d.updHead n fun h =>
          { h with cur := some f, sumT := if cap then h.sumT + tF else h.sumT, sumSh := if cap then h.sumSh + tSh else h.sumSh }

/-! ## The chain (R137 to R143) -/

/-- A pixel on its way: T1 value, T3 value, code in force, whether it is good. -/
structure ThermPx where
  t : Int
  g : Int
  code : Nat
  good : Bool
  deriving DecidableEq, Repr

/-- Stage T1. -/
def stageT1 (ofs : Int) (gain v : Nat) : Int := sat24 (sar (((v : Int) - ofs) * gain + 512) 10)

/-- Stage T2: the offset o of a pixel for a frame's dT. -/
def stageT2 (t o d1 d2 dT : Int) : Int :=
  let q := sat16 (sar (dT * dT) 10)
  sat24 (t - (o + sar (d1 * dT + 512) 10 + sar (d2 * q + 512) 10))

/-- Stage T3. -/
def stageT3 (t2 : Int) (g : Nat) (neg : Bool) : Int := sat24 (sar ((if neg then -t2 else t2) * g + 8192) 14)

/-- Stage T4: the value of pixel (r, c). -/
def stageT4 (px : Array ThermPx) (rows cols r c : Nat) : Int :=
  let at? (i j : Int) : Option ThermPx :=
    if 0 ≤ i ∧ i < rows ∧ 0 ≤ j ∧ j < cols then px[i.toNat * cols + j.toNat]? else none
  let here := px.getD (r * cols + c) ⟨0, 0, 0, true⟩
  let val (i j : Int) : Option Int := (at? i j).map ThermPx.g
  match here.code with
  | 0 => here.g
  | 1 =>
    let nb := [(-1, -1), (-1, 0), (-1, 1), (0, -1), (0, 1), (1, -1), (1, 0), (1, 1)].filterMap
      fun (o : Int × Int) => (at? (r + o.1) (c + o.2)).bind fun p => if p.good then some p.g else none
    if nb.isEmpty then ((val ((r : Int) - 1) c).orElse fun _ => val r ((c : Int) - 1)).getD here.g
    else (nb.foldl (· + ·) 0 + ((nb.length / 2 : Nat) : Int)) / nb.length
  | 2 =>
    match val r ((c : Int) - 1), val r ((c : Int) + 1) with
    | some a, some b => sar (a + b + 1) 1
    | some a, none => a
    | none, some b => b
    | none, none => here.g
  | _ => (if r = 0 then val 1 c else val ((r : Int) - 1) c).getD here.g

/-- Stage T5: the apparent temperature. -/
def stageT5 (m : Memory) (base : Nat) (theta g : Int) : Nat :=
  let x := (clampI 0 (2 ^ 20 - 1) (g + 2 ^ 19)).toNat
  let k (i : Nat) : Int := m.s16 (base + 0x100 + 2 * i)
  let i := x / 4096
  let dq := k i + sar ((k (i + 1) - k i) * (x % 4096 : Nat) + 2048) 12
  (clampI 0 65535 (dq + theta)).toNat

/-- THETA_SH of a shutter temperature. -/
def thetaSh (tSh : Int) : Int := sar (tSh + 64 * 2 ^ 16 + 512) 10

/-- Whether every sample of tap `k` in row `r` is at one rail (R143). -/
def tapStuck (samples : Array Nat) (cols r k : Nat) : Bool :=
  let xs := (List.range (cols / 4)).map fun i => samples.getD (r * cols + 4 * i + k) 0
  !xs.isEmpty && (xs.all (fun v => v == 0) || xs.all fun v => v == 65535)

/-- The pixels of a frame after T3, with the codes that T4 acts on. -/
def framePixels (m : Memory) (d : Dev) (n : Fin 2) (f : FrameInfo) (samples : Array Nat) : Array ThermPx :=
  let h := d.heads[n]
  let c := headCfg d n
  let cols := c (THERM.GEOM.COLS n)
  let rows := c (THERM.GEOM.ROWS n)
  let base := nucBase n (c (THERM.CTL.BANK n))
  let oldO := (h.old.elim [] Prod.fst).toArray
  ((List.range (rows * cols)).map fun p =>
    let k := p % cols % 4
    let r := p / cols
    let j := 4 * n.val + k
    let t := stageT1 (toSigned 16 (c (TAPC.TAP_OFS.OFS j))) (c (TAPC.TAP_GAIN.GAIN j)) (samples.getD p 0)
    let pr := base + 0x4000 + 6 * p
    let o := if f.oldOfs then oldO.getD p 0 else m.s32 (offsAddr n p)
    let lost := m.lostIn pr 6 || m.lostIn (offsAddr n p) 4
    let dyn := h.dyn.contains p
    let bank := (m.byte (pr + 5)).toNat % 4
    let t2 := stageT2 t o (m.s16 (pr + 2)) (toSigned 8 (m.byte (pr + 4)).toNat) f.dT
    let g := stageT3 t2 (m.u16 pr) (c (THERM.CTL.POLARITY n) != 0)
    let code := if tapStuck samples cols r k then 2 else if lost then 1 else if bank = 0 ∧ dyn then 1 else bank
    (⟨t, g, code, bank == 0 && !dyn && !lost⟩ : ThermPx)).toArray

/-! ## Drift model (R145) -/

/-- e(d, tau) of a bank. -/
def driftErr (m : Memory) (base : Nat) (dv : Int) (tau : Nat) : Nat :=
  m.u16 (base + 8) * dv.natAbs / 1024 + m.u16 (base + 10) * (sat16 (sar (dv * dv) 10)).toNat / 1024 + m.u32 (base + 12) * tau / 2 ^ 20

/-- The drift evaluation at the end of a frame read in RUN, and the MAX and drift requests. -/
def driftEval (m : Memory) (d : Dev) (n : Fin 2) (f : FrameInfo) (t : Nat) : Dev :=
  let c := headCfg d n
  let base := nucBase n (c (THERM.CTL.BANK n))
  let tau := (f.time - d.heads[n].capTime) * 64 / 1000000000
  let hist := (f.dT :: d.heads[n].dTs).take 17
  let k := hist.length - 1
  let lead := c (THERM.SH_CFG.LEAD n)
  let pred := if k = 0 then f.dT else sat16 (f.dT + (f.dT - hist.getD k f.dT) * lead / (k : Int))
  let tauP := tau + lead * c (THERM.FRAME_PERIOD.NS n) * 1024 / 1000000000
  let now := driftErr m base f.dT tau
  let ePred := driftErr m base pred tauP
  let bound := c (THERM.SH_BOUND.BOUND n)
  let d1 := (((d.wrS (THERM.DRIFT.DT_PRED n) pred).wrSat (THERM.E_NOW.E n) now).wrSat (THERM.E_PRED.E n) ePred).wrSat (THERM.TAU.VAL n) tau
  let d1 := (d1.wrB (THERM.STATUS.DRIFT_HIGH n) (decide (bound ≤ now))).updHead n fun h => { h with dTs := hist }
  if t < d.heads[n].quietUntil ∨ d.isStandby then d1
  else if 1024 * c (THERM.SH_INTERVAL.MAX n) ≤ tau then captureReq d1 n 2
  else if bound ≤ ePred ∧ 1024 * c (THERM.SH_INTERVAL.MIN n) ≤ tau then captureReq d1 n 1
  else d1

/-! ## The map (R149 to R152) -/

/-- x and u of a pixel by the warp nodes; none when a node is lost (R280). -/
def warpAt (m : Memory) (base nc r c : Nat) : Option (Int × Int) :=
  let (i, j, a, b) := (c / 32, r / 32, c % 32, r % 32)
  let addr (jj ii : Nat) : Nat := base + 0x400 + 8 * (jj * nc + ii)
  if m.lostIn (addr j i) 16 || m.lostIn (addr (j + 1) i) 16 then none
  else
    let bil (o : Nat) : Int :=
      let g (jj ii : Nat) : Int := m.s32 (addr jj ii + o)
      let top := g j i * (32 - a : Nat) + g j (i + 1) * (a : Nat)
      let bot := g (j + 1) i * (32 - a : Nat) + g (j + 1) (i + 1) * (a : Nat)
      sar (top * (32 - b : Nat) + bot * (b : Nat) + 512) 10
    some (bil 0, bil 4)

/-- One sample into the map (R150). -/
def mapAdd (n : Fin 2) (d : Dev) (k : Int) (ci hv : Nat) : Dev :=
  let h := d.heads[n]
  let lo := match h.kLo with
    | none => k - 511
    | some l => if l + 511 < k then k - 511 else l
  let h1 := if h.kLo = some lo then h else
    { h with kLo := some lo, cells := h.cells.filter fun x => decide (lo ≤ x.1.1), finals := h.finals.filter fun x => decide (lo ≤ x.k) }
  if k < lo ∨ h1.finalK.elim false fun z => decide (k ≤ z) then (d.updHead n fun _ => h1).inc (THERM.DISCARD_CNT.CNT n)
  else
    let (s, c) := ((h1.cells.find? fun x => x.1 == (k, ci)).map Prod.snd).getD (0, 0)
    d.updHead n fun _ =>
      if 65535 ≤ c then h1
      else { h1 with cells := ((k, ci), s + hv, c + 1) :: h1.cells.filter fun x => x.1 != (k, ci) }

/-- A frame's pixels into the map: Y = P_r + u is a stamp of 48 bits, as P_r is (R14, R149). -/
def accumulate (m : Memory) (d : Dev) (n : Fin 2) (hs : Array Nat) (rowPos : List Nat) : Dev :=
  let c := headCfg d n
  let base := nucBase n (c (THERM.CTL.BANK n))
  let (cols, _, nc, _) := nucDims m base
  let aw : Int := max 1 (c (THERM.CELL.AW n))
  let xw : Int := 16 * (max 1 (c (THERM.CELL.XW n)) : Nat)
  let org := toSigned 32 (c (THERM.XW_ORIGIN.ORIGIN n))
  let d1 := (List.range hs.size).foldl (fun d p =>
    match warpAt m base nc (p / cols) (p % cols) with
    | none => d
    | some (x, u) =>
      let ci := (x - org) / xw
      if ci < 0 ∨ (c (THERM.MAP_CFG.XW_CELLS n) : Int) ≤ ci then d
      else mapAdd n d ((ofSigned 48 (rowPos.getD (p / cols) 0 + u) : Int) / aw) ci.toNat (hs.getD p 0)) d
  d1.updHead n fun h => { h with pendL := some (ofSigned 48 (rowPos.headD 0 + (nucU m base).1) : Int) }

/-- One row made final (R151). -/
def finalRow (d : Dev) (n : Fin 2) (k : Int) : Dev :=
  let c := headCfg d n
  let (cells, bg) := (List.range (c (THERM.MAP_CFG.XW_CELLS n))).foldl (fun acc ci =>
    let h := d.heads[n]
    let (s, cnt) := ((h.cells.find? fun x => x.1 == (k, ci)).map Prod.snd).getD (0, 0)
    let ok := decide (c (THERM.CELL.MINN n) ≤ cnt) && cnt != 0
    let hv := if ok then (s + cnt / 2) / cnt else 0
    let old := (acc.2.find? fun x => x.1 == ci).map Prod.snd
    let b := old.getD (if ok then hv else 0)
    let nb := if ok then ((b : Int) + sar ((hv : Int) - b) (c (THERM.MAP_CFG.BG_SHIFT n))).toNat else b
    (acc.1 ++ [(hv, b, ok)], if ok ∨ old.isSome then (ci, nb) :: acc.2.filter (fun x => x.1 != ci) else acc.2))
    (([] : List (Nat × Nat × Bool)), d.heads[n].bg)
  (d.wr2S (THERM.MAP_K_LO.K n) (THERM.MAP_K_HI.K n) k).updHead n fun h =>
    { h with finals := ⟨k, cells⟩ :: h.finals, finalK := some k, bg := bg, cells := h.cells.filter fun x => x.1.1 != k }

/-- MAP_FINALIZE: every row with (k + 1) × AW ≤ L, in ascending order. -/
def mapFinalize (n : Fin 2) (d : Dev) : Dev :=
  match d.heads[n].pendL, d.heads[n].kLo with
  | some l, some lo =>
    let aw : Int := max 1 (headCfg d n (THERM.CELL.AW n))
    let first := match d.heads[n].finalK with
      | some z => max lo (z + 1)
      | none => lo
    let cnt := min 512 (l / aw - first).toNat
    ((List.range cnt).foldl (fun (d : Dev) (k : Nat) => finalRow d n (first + k)) d).updHead n fun h => { h with pendL := none }
  | _, _ => d

/-- MAP_ROW_FETCH: a final row within 8 rows above the row of the last web line goes into the row buffer of 8. -/
def mapRowFetch (n : Fin 2) (k : Int) (d : Dev) : Dev :=
  let h := d.heads[n]
  if (h.finals.any fun r => r.k == k) && !h.buf.contains k && !d.on (THERM.STATUS.DEGRADED n) &&
      h.lastRow.elim true fun l => decide (l ≤ k ∧ k ≤ l + 8) then
    d.updHead n fun h =>
      let b := (h.buf ++ [k]).filter fun z => h.lastRow.elim true fun l => decide (l ≤ z)
      { h with buf := b.drop (b.length - 8) }
  else d

/-- THERMAL_LOOKUP (R152) of one head for a web line's position: status 0 FINAL, 1 LATE, 2 EXPIRED, 3 OFF, and the cells. -/
def thermalLookup (d : Dev) (n : Fin 2) (pos : Nat) : (Nat × List (Nat × Nat × Bool)) × Dev :=
  let h := d.heads[n]
  let k : Int := (pos : Int) / (max 1 (headCfg d n (THERM.CELL.AW n)) : Nat)
  let d1 := d.updHead n fun h => { h with lastRow := some k }
  if headState d n ≠ HS.run ∨ d.on (THERM.STATUS.DEGRADED n) then ((3, []), d1)
  else if h.kLo.elim false fun l => decide (k < l) then ((2, []), d1.inc (THERM.EXPIRED_CNT.CNT n))
  else
    match h.finals.find? fun r => r.k == k with
    | some r => if h.buf.contains k then ((0, r.cells), d1) else ((1, []), d1.inc (THERM.LATE_CNT.CNT n))
    | none => ((1, []), d1.inc (THERM.LATE_CNT.CNT n))

/-! ## The end of a frame (R145 to R148, R155) -/

/-- CAPTURE_COMPLETE: new offsets, T_S, T_SH, NOISE, dynamic marks and RESP; the ledger takes them. -/
def captureComplete (x : DM) (n : Fin 2) (f : FrameInfo) (px : Array ThermPx) : DM :=
  let (d, m) := x
  let h := d.heads[n]
  let c := headCfg d n
  let nn := 2 ^ min 4 (c (THERM.SH_CFG.FRAMES n))
  let mean (s : Int) : Int := (s + ((nn / 2 : Nat) : Int)) / nn
  let oldO := (List.range h.sums.length).map fun p => m.s32 (offsAddr n p)
  let newO := h.sums.map fun s => mean s.1
  let m1 := (newO.zip (List.range newO.length)).foldl (fun m q => m.put32 (offsAddr n q.2) (ofSigned 32 q.1)) m
  let good := (List.range newO.length).filter fun p => (px.getD p ⟨0, 0, 1, false⟩).good
  let ng := good.length
  let var := good.foldl (fun a p => let s := h.sums.getD p (0, 0); a + (nn * s.2 - (s.1 * s.1).toNat)) 0
  let noise := if ng = 0 ∨ nn < 2 then d.rd (THERM.NOISE.VAL n) else isqrt (var / (nn * ng * (nn - 1)))
  let jump := c (THERM.BP_JUMP.JUMP n)
  let marks := if jump = 0 ∨ h.capCount = 0 ∨ h.lostO then [] else
    (List.range newO.length).filter fun p => decide (jump < (newO.getD p 0 - oldO.getD p 0).natAbs) && !h.dyn.contains p
  let dyn := h.dyn ++ marks
  let sumO := good.foldl (fun a p => a + newO.getD p 0) 0
  let mO := if ng = 0 then 0 else (sumO + ((ng / 2 : Nat) : Int)) / ng
  let tS := mean h.sumT
  let tSh := mean h.sumSh
  let prevSh := d.rdS (THERM.T_SH.T n)
  let hasResp := decide (0 < h.capCount) && decide (32768 ≤ (tSh - prevSh).natAbs)
  let resp := if hasResp then ((mO - h.meanO) * 2 ^ 16).fdiv (tSh - prevSh) else 0
  let d1 := ((d.wrS (THERM.T_S.T n) tS).wrS (THERM.T_SH.T n) tSh).wrSat (THERM.NOISE.VAL n) noise
  let d1 := if hasResp then d1.wrS (THERM.RESP.VAL n) resp else d1
  let d1 := ((d1.wr (THERM.DYN_BP.CNT n) dyn.length).inc (THERM.SH_CNT.CNT n)).irq (Page.THERM n) THERM.irq.SH_DONE
  let d1 := if headState d1 n = HS.starting then d1.wr (THERM.STATUS.STATE n) HS.run else d1
  let d2 := d1.updHead n fun h =>
    { h with done := true, dyn := dyn, capTime := f.time, dTs := [], capCount := h.capCount + 1, meanO := mO, uncal := false, lostO := false
             old := some (oldO, d.rdS (THERM.T_S.T n), prevSh), sums := [], capN := 0, retried := false }
  let y := ledgerEnter (ledgerEnter (d2, m1) 6 n noise) 7 n dyn.length
  if hasResp then ledgerEnter y 5 n resp else y

/-- The thermal frame record (Table 6.4). -/
def thermalRecord (d : Dev) (n : Fin 2) (f : FrameInfo) (flags clip : Nat) (rowPos : List Nat) (hs : Array Nat) : List Byte :=
  let c := headCfg d n
  let p0 := rowPos.headD 0
  let cols := c (THERM.GEOM.COLS n)
  let rows := c (THERM.GEOM.ROWS n)
  let (tS, tSh) := match d.heads[n].old with
    | some (_, a, b) => (a, b)
    | none => (d.rdS (THERM.T_S.T n), d.rdS (THERM.T_SH.T n))
  let ws := [0x46 + 256 + 65536 * n.val + 2 ^ 17 * d.slot, f.num, f.time / 16 % 2 ^ 32, f.time / 16 / 2 ^ 32, p0 % 2 ^ 32,
    p0 / 2 ^ 32 + 65536 * f.epoch, cols + 65536 * rows, flags, ofSigned 32 f.tFpa, ofSigned 32 tS,
    ofSigned 16 (thetaSh tSh) + 65536 * ofSigned 16 f.dT, d.rd (THERM.E_NOW.E n), clip, d.rd (THERM.DYN_BP.CNT n),
    d.rd (THERM.NOISE.VAL n), 0] ++
    (List.range rows).map (fun r => ofSigned 32 (toSigned 48 (ofSigned 48 ((rowPos.getD r 0 : Int) - p0)))) ++
    (List.range (rows * cols / 2)).map fun i => hs.getD (2 * i) 0 + 65536 * hs.getD (2 * i + 1) 0
  ws.flatMap (leBytes 4)

/-- FRAME_DONE: the samples of the frame in column order, row by row; the last came `delay` before the present instant. -/
def frameDone (n : Fin 2) (samples : List Nat) (delay : Nat) (x : DM) : DM :=
  match x.1.heads[n].cur with
  | none => x
  | some f =>
    let st := headState x.1 n
    let rowPos := rowStamps x.1 n f
    let arr := (samples.map fun v => v % 65536).toArray
    let clip := (arr.toList.filter fun v => v == 0 || v == 65535).length
    let d := (((chainEmpty x.1 n).updHead n fun h => { h with cur := none, posLog := [] }).addCnt (THERM.FRAME_CNT.CNT n) 1).irq (Page.THERM n) THERM.irq.FRAME
    let c := headCfg d n
    let cols := c (THERM.GEOM.COLS n)
    let rows := c (THERM.GEOM.ROWS n)
    let d := (List.range 4).foldl (fun d k =>
      let mine := (List.range (arr.size)).filter fun p => p % cols % 4 == k
      let cl := (mine.filter fun p => arr.getD p 0 == 0 || arr.getD p 0 == 65535).length
      (d.addCnt (TAPC.CLIP_CNT.CNT (4 * n.val + k)) cl).wr (TAPC.LAST.SAMPLE (4 * n.val + k)) (arr.getD (mine.getLastD 0) 0)) d
    let d := d.addCnt (THERM.CLIP_CNT.CNT n) clip
    if (st ≠ HS.starting ∧ st ≠ HS.run) ∨ d.on (THERM.STATUS.DEGRADED n) then (d, x.2)
    else
      let base := nucBase n (c (THERM.CTL.BANK n))
      let who : Reader := ⟨5, none, some n.val, true⟩
      let (m1, y1) := readRange (d, x.2) base (0x4000 + 6 * rows * cols) who
      let y := (readRange y1 (offsAddr n 0) (4 * rows * cols) who).2
      let m := (readRange (y1.1, m1) (offsAddr n 0) (4 * rows * cols) who).1
      let d := y.1
      let stuckTaps := (List.range rows).flatMap fun r => ((List.range 4).filter fun k => tapStuck arr cols r k)
      let tapFault := !stuckTaps.isEmpty
      let d := stuckTaps.foldl (fun d k => (((d.wr (TAPC.STAT.STUCK (4 * n.val + k)) 1).inc (THERM.TAP_STUCK_CNT.CNT n)).irq
        (Page.THERM n) THERM.irq.TAP_STUCK).irq Page.TAPC (4 * n.val + k)) d
      let px := framePixels m d n f arr
      let tSh := match d.heads[n].old with
        | some (_, _, b) => b
        | none => d.rdS (THERM.T_SH.T n)
      let gs := ((List.range (rows * cols)).map fun p => stageT4 px rows cols (p / cols) (p % cols)).toArray
      let hs := (gs.toList.map fun g => stageT5 m base (thetaSh tSh) g).toArray
      -- the open check of the first frame after opening, and of every frame while SH_STUCK lasts
      let omin := c (THERM.SH_OPEN_MIN.MIN n)
      let goodG := (List.range gs.size).filter fun p => (px.getD p ⟨0, 0, 1, false⟩).good
      let meanAbs := if goodG.isEmpty then 0 else (goodG.foldl (fun a p => a + (gs.getD p 0).natAbs) 0) / goodG.length
      let shStuck := omin != 0 && if f.shutter then d.heads[n].stuck else (f.check || d.heads[n].stuck) && decide (meanAbs < omin)
      let d := if shStuck && !d.heads[n].stuck then d.irq (Page.THERM n) THERM.irq.SH_STUCK else d
      let d := if f.shutter then d else d.updHead n fun h => { h with stuck := shStuck }
      let d := if st = HS.run then driftEval m d n f (d.now - delay) else d
      let uncal := d.heads[n].uncal || st == HS.starting
      let d := if st = HS.run ∧ !f.shutter ∧ !shStuck ∧ !uncal then accumulate m d n hs rowPos else d
      let flags := b2n f.shutter + 2 * b2n uncal + 4 * b2n f.stale + 8 * b2n (d.on (THERM.STATUS.DRIFT_HIGH n)) + 16 * b2n shStuck +
        32 * b2n tapFault + 64 * b2n f.capture + 128 * b2n (!d.heads[n].dyn.isEmpty)
      let d := if c (THERM.CTL.ARCH_EN n) != 0 && f.num % max 1 (c (THERM.CTL.ARCH_DECIM n)) == 0 then
          thermChunk d n.val f.num (thermalRecord d n f flags clip rowPos hs) else d
      if f.capture then
        let olds := d.heads[n].sums
        let sums := (List.range px.size).map fun p =>
          let s := olds.getD p (0, 0)
          let t := (px.getD p ⟨0, 0, 0, true⟩).t
          (s.1 + t, s.2 + (t * t).toNat)
        let d := d.updHead n fun h => { h with sums := sums, capN := h.capN + 1 }
        if 2 ^ min 4 (c (THERM.SH_CFG.FRAMES n)) ≤ d.heads[n].capN then captureComplete (d, y.2) n f px else (d, y.2)
      else (d, y.2)

/-! ## Degraded mode and epochs (R158, R160) -/

/-- Degraded on-die mode at the heads. -/
def thermDegrade (d : Dev) : Dev :=
  (List.finRange 2).foldl (fun (d : Dev) (n : Fin 2) => (abandonCapture (d.wr (THERM.STATUS.DEGRADED n) 1) n).updHead n fun h => { h with lostO := true }) d

/-- HBM is back: a START capture, an empty map, and STARTING for a head that ran. -/
def thermRecover (d : Dev) : Dev :=
  (List.finRange 2).foldl (fun (d : Dev) (n : Fin 2) =>
    let d1 := (d.wr (THERM.STATUS.DEGRADED n) 0).updHead n clearMap
    if headState d n = HS.run ∨ headState d n = HS.starting then captureReq (d1.wr (THERM.STATUS.STATE n) HS.starting) n 4 else d1) d

/-- BANK_BUSY at an epoch that changes a head's bank (R158), the registers before it in `old`. -/
def thermEpoch (d : Dev) (old : Fld → Nat) : Dev :=
  (List.finRange 2).foldl (fun (d : Dev) (n : Fin 2) =>
    if old (THERM.CTL.BANK n) != d.rd (THERM.CTL.BANK n) && d.heads[n].cur.isSome then d.wr (THERM.TBL_STAT.BANK_BUSY n) 1 else d) d

/-! ## Meanings -/

def execHeadEnable (n : Fin 2) (s : State) : Host.Outcome State Fault Refusal := s.onDev (headEnable n)
def execHeadDisable (n : Fin 2) (s : State) : Host.Outcome State Fault Refusal := s.onDev (headDisable n)
def execHeadRestart (n : Fin 2) (s : State) : Host.Outcome State Fault Refusal := s.onDev (headRestart n)
def execHeadPresentLost (n : Fin 2) (s : State) : Host.Outcome State Fault Refusal := s.onDev (headPresentLost n)
def execHeadPresentGained (n : Fin 2) (s : State) : Host.Outcome State Fault Refusal := s.onDev (headPresentGained n)
def execBiasTransfer (n : Fin 2) (s : State) : Host.Outcome State Fault Refusal := s.onDev (biasTransfer n)
def execBiasSettled (n : Fin 2) (s : State) : Host.Outcome State Fault Refusal := s.onDev (biasSettled n)
def execFsync (n : Fin 2) (s : State) : Host.Outcome State Fault Refusal := s.onDevM (fsync n)
def execFrameDone (n : Fin 2) (samples : List Nat) (delay : Nat) (s : State) : Host.Outcome State Fault Refusal :=
  s.onBoth (frameDone n samples delay)
def execShNow (n : Fin 2) (s : State) : Host.Outcome State Fault Refusal := s.onDev (shNow n)
def execShInhibitWrite (n : Fin 2) (on : Bool) (s : State) : Host.Outcome State Fault Refusal := s.onDev (shInhibitWrite n on)
def execShutterDip (n : Fin 2) (s : State) : Host.Outcome State Fault Refusal := s.onDev (shutterDip n)
def execShutterDipTimeout (n : Fin 2) (s : State) : Host.Outcome State Fault Refusal := s.onDev (shutterDipTimeout n)
def execCaptureRetry (n : Fin 2) (s : State) : Host.Outcome State Fault Refusal := s.onDev (captureRetry n)
def execClrDyn (n : Fin 2) (s : State) : Host.Outcome State Fault Refusal := s.onDev (clrDyn n)
def execMapFinalize (n : Fin 2) (s : State) : Host.Outcome State Fault Refusal := s.onDev (mapFinalize n)
def execMapRowFetch (n : Fin 2) (k : Int) (s : State) : Host.Outcome State Fault Refusal := s.onDev (mapRowFetch n k)
def execNucVerify (n bank : Fin 2) (s : State) : Host.Outcome State Fault Refusal := s.onDev (nucVerify n bank)
def execNucTableWrite (addr : Nat) (word : Word32) (s : State) : Host.Outcome State Fault Refusal :=
  s.onBoth (nucTableWrite addr word)

end Sys2Proof.Machine
end

