-- ==== Sys2Proof/Machine/Drive.lean ====
section
/-! DEFINITION. The valve engine (spec/10_markers_and_valves.md, R234 to R238): the instructions of a program, the dip detector and the
result. A dip goes to the ageing ledger and, on a Shutter channel, to the thermal port. -/

namespace Sys2Proof.Machine

/-- A dip window opens: imax and run are cleared, seen and dip_t stay. -/
def Run.openWindow (r : Run) (t : Nat) : Run := { r with window := t, armed := none, imax := 0, runLen := 0 }

/-- One tick of the dip detector on an open window. A tick spent waiting for admission does not count towards its T (R234). -/
def Run.detect (r : Run) (waits on : Bool) (i depth n : Nat) : Run :=
  if r.window = 0 then r
  else
    let r1 := if waits then r else { r with window := r.window - 1 }
    if !on then r1
    else if r.imax < i then { r1 with imax := i, runLen := 0 }
    else if depth ≤ r.imax - i then
      { r1 with runLen := r.runLen + 1, seen := if n ≤ r.runLen + 1 then some (r.seen.getD (r.ticks / 2)) else r.seen }
    else { r1 with runLen := 0 }

/-- A dip seen at a time: DIP, the ageing ledger for a marking or shutter program (kind 8), the report to the thermal port of a shutter. -/
def dipSeen (ch : Fin 16) (t : Nat) (x : DM) : DM :=
  let role := x.1.rd (VALVE.CFG.ROLE ch)
  let d1 := (x.1.wr (VALVE.STATUS.DIP ch) 1).inc (VALVE.DIP_CNT.CNT ch)
  let d2 := if role = 2 then
      (List.finRange 2).foldl (fun d n => if headCfg d n (THERM.SH_CFG.VALVE n) = ch.val then shutterDip n d else d) d1
    else d1
  if role = 1 ∨ role = 2 then ledgerEnter (d2, x.2) 8 ch t else (d2, x.2)

/-- One tick of a running program with the present drive state and a sample: draw, detector, tick count. -/
def sampleTick (ch : Fin 16) (waits : Bool) (s : Nat) (x : DM) : DM :=
  let d := x.1
  let i := s % 4096
  let on := d.rd (VALVE.STATUS.DRIVE ch) == DR.on
  let e := if on then d.rd MARK.RAIL.MV * i * 204800 / 1000000000 else 0
  let n := max 1 (d.rd (VALVE.DIP_CFG.N ch))
  let before := (d.valves[ch].run).bind Run.seen
  let d1 := (d.updRun ch fun r =>
    let r1 := r.detect waits on i (d.rd (VALVE.DIP_CFG.DEPTH ch)) n
    { r1 with ticks := if r.start.isSome then r.ticks + 1 else r.ticks, spent := r.spent + e }).updValve ch fun v =>
      { v with acc := v.acc + e }
  let d2 := d1.wr (VALVE.NOW.I ch) i
  match before, (d2.valves[ch].run).bind Run.seen with
  | none, some t => dipSeen ch t (d2, x.2)
  | _, _ => (d2, x.2)

/-- The next instruction follows. -/
def advance (d : Dev) (ch : Fin 16) (pc : Nat) : Dev :=
  (d.updRun ch fun r => { r with pc := pc % 256, left := none, admitted := false }).wr (VALVE.NOW.PC ch) pc

/-- The drive state of an instruction for a sample; regulation keeps its state between the two bounds. -/
def driveFor (d : Dev) (ch : Fin 16) (op i s : Nat) : Nat :=
  match op with
  | 1 => DR.on
  | 4 => DR.free
  | 5 => DR.quench
  | 11 => DR.off
  | _ =>
    if (s : Int) < (i : Int) - d.rd (VALVE.REG.HYST ch) then DR.on
    else if i + d.rd (VALVE.REG.HYST ch) < s then DR.free
    else d.rd (VALVE.STATUS.DRIVE ch)

/-- The ticks of a drive instruction in progress, one per sample, until its condition or its T is met. -/
def driveTicks (ch : Fin 16) (op i pc : Nat) : List Nat → DM → DM
  | [], x => x
  | s :: rest, x =>
    match x.1.valves[ch].run.bind Run.left with
    | none => x
    | some left =>
      if op = 6 ∧ x.1.valves[ch].released then (advance x.1 ch (pc + 1), x.2)
      else
        let y := sampleTick ch false s (setDrive x.1 ch (driveFor x.1 ch op i (s % 4096)) i, x.2)
        let left' := if op = 6 then left else left - 1
        let hit := (op = 1 ∧ i ≤ s % 4096) ∨ (op = 5 ∧ s % 4096 ≤ i)
        if hit then (advance y.1 ch (pc + 1), y.2)
        else if left' = 0 then
          (if op = 1 ∧ s % 4096 < y.1.rd (VALVE.FAULT_CFG.OPEN_I ch) then chanFault y.1 ch 1 else advance y.1 ch (pc + 1), y.2)
        else driveTicks ch op i pc rest (y.1.updRun ch fun r => { r with left := some left' }, y.2)

/-- Program start: FIRE_T and FIRE_POS are taken, and a waiting dip window opens. -/
def Run.begin (r : Run) (op now pos t : Nat) : Run :=
  let r1 := { r with left := some t, admitted := false, count := r.count + 1 }
  if op = 11 ∨ r.start.isSome then r1
  else
    let r2 := { r1 with start := some (now, pos), ticks := 0 }
    r2.armed.elim r2 r2.openWindow

/-- The word at a program's pc, read by the code (R278). -/
def progRead (ch : Fin 16) (r : Run) (x : DM) : Nat × DM :=
  let a := progAddr ch r.bank r.pc
  let (m, y) := readRange x a 4 ⟨6, none, none, false⟩
  (m.u32 a, y)

/-- A drive instruction of a channel: refused unless the word at its pc has that opcode. It begins when admitted; until then
the ticks pass in the drive state before it. -/
def driveInstr (op : Nat) (ch : Fin 16) (samples : List Nat) (x : DM) : DM :=
  match x.1.valves[ch].run with
  | none => x
  | some r =>
    let (w, y) := progRead ch r x
    let d := y.1
    let show' (z : DM) : DM := (hsgShow z.1 (groupOf ch), z.2)
    if opOf w ≠ op then x
    else if r.left.isSome then
      show' (if op = 6 ∧ d.valves[ch].released then (advance d ch (r.pc + 1), y.2) else driveTicks ch op (iOf w) r.pc samples y)
    else if op = 6 ∧ d.rd (VALVE.CFG.ROLE ch) ≠ 2 then
      (advance (d.updRun ch fun r => { r with count := r.count + 1 }) ch (r.pc + 1), y.2)
    else
      let cls := opClass op
      let budget := if cls = 0 then 0 else 4 * iOf w
      let needs := !r.admitted && ((cls == 2 && r.peakSince.isNone) || decide (r.budget < budget))
      let d1 := if !needs then d
        else if r.wait.isSome then d
        else grantAll (some ch) (d.updRun ch fun r => { r with wait := some (d.now, cls, budget) })
      if needs ∧ ¬((d1.valves[ch].run).elim false Run.admitted) then
        show' (samples.foldl (fun z s => sampleTick ch true s z) (d1, y.2))
      else
        let d2 := d1.updRun ch fun r => (r.enter cls budget d.now).begin op d.nowNs (webPosUm d) (tOf w)
        show' (driveTicks ch op (iOf w) r.pc samples (d2, y.2))

def boost (ch : Fin 16) (samples : List Nat) : DM → DM := driveInstr 1 ch samples
def regp (ch : Fin 16) (samples : List Nat) : DM → DM := driveInstr 2 ch samples
def regh (ch : Fin 16) (samples : List Nat) : DM → DM := driveInstr 3 ch samples
def freeInstr (ch : Fin 16) (samples : List Nat) : DM → DM := driveInstr 4 ch samples
def quench (ch : Fin 16) (samples : List Nat) : DM → DM := driveInstr 5 ch samples
def waitr (ch : Fin 16) (samples : List Nat) : DM → DM := driveInstr 6 ch samples
def waitInstr (ch : Fin 16) (samples : List Nat) : DM → DM := driveInstr 11 ch samples

/-- A control instruction: one tick in the drive state before it, then `act` on the run and the next pc. -/
def ctrlInstr (op : Nat) (ch : Fin 16) (s : Nat) (act : Dev → Run → Nat → Nat × Dev) (x : DM) : DM :=
  match x.1.valves[ch].run with
  | none => x
  | some r =>
    let (w, y) := progRead ch r x
    if opOf w ≠ op ∨ r.left.isSome then x
    else
      let (pc, d1) := act (y.1.updRun ch fun r => { r with count := r.count + 1 }) r w
      let z := sampleTick ch false s (d1, y.2)
      (advance z.1 ch pc, z.2)

/-- DIP: the window opens now, or at program start. -/
def dip (ch : Fin 16) (s : Nat) : DM → DM :=
  ctrlInstr 7 ch s fun d r w => (r.pc + 1, d.updRun ch fun r =>
    if r.start.isSome then r.openWindow (tOf w) else { r with armed := some (tOf w) })

/-- JDIP and JMP. -/
def jdip (ch : Fin 16) (s : Nat) : DM → DM :=
  ctrlInstr 8 ch s fun d r w => (if r.seen.isSome then bitsOf w 0 8 else r.pc + 1, d)

def jmp (ch : Fin 16) (s : Nat) : DM → DM := ctrlInstr 9 ch s fun d _ w => (bitsOf w 0 8, d)

/-- LOOP: loads N on first use, decrements, jumps while nonzero. The decrement of a count of 0 has no stated result. -/
def loopInstr (ch : Fin 16) (s : Nat) : DM → DM :=
  ctrlInstr 10 ch s fun d r w =>
    let c := r.loop.getD (bitsOf w 16 8)
    let (c', d1) := if c = 0 then d.free 8 else (c - 1, d)
    if c' = 0 then (r.pc + 1, d1.updRun ch fun r => { r with loop := none })
    else (bitsOf w 0 8, d1.updRun ch fun r => { r with loop := some c' })

/-- RESERVED_OPCODE. -/
def reservedOpcode (ch : Fin 16) (m : Memory) (d : Dev) : Dev :=
  match d.valves[ch].run with
  | none => d
  | some r => if 13 ≤ opOf (progWord m ch r.bank r.pc) ∧ r.left.isNone then chanFault d ch 5 else d

/-! ## The result of a program (R238) -/

/-- The result decided from the dip and DIP_WIN. -/
def decideRun (d : Dev) (ch : Nat) (r : Run) : Nat :=
  match r.seen with
  | some t => if d.rd (VALVE.DIP_WIN.TMIN ch) ≤ t ∧ t ≤ d.rd (VALVE.DIP_WIN.TMAX ch) then 0 else 1
  | none => 1

/-- The first CONF, or END without one, decides. -/
def decideNow (ch : Fin 16) (d : Dev) : Dev :=
  match d.valves[ch].run with
  | none => d
  | some r =>
    if r.decided.isSome then d
    else
      let res := decideRun d ch r
      let d1 := d.updRun ch fun r => { r with decided := some res }
      if res = 1 then (d1.inc (VALVE.DIP_MISS_CNT.CNT ch)).irq (Page.VALVE ch) VALVE.irq.DIP_MISS else d1

/-- CONF. -/
def conf (ch : Fin 16) (s : Nat) : DM → DM := ctrlInstr 12 ch s fun d r _ => (r.pc + 1, decideNow ch d)

/-- The quench of END, one tick per sample, until i ≤ 10; then OFF and the program is over. -/
def endTicks (ch : Fin 16) : List Nat → DM → DM
  | [], x => x
  | s :: rest, x =>
    let y := sampleTick ch false s (setDrive x.1 ch DR.quench 0, x.2)
    if s % 4096 ≤ 10 then (progOver (setDrive y.1 ch DR.off 0) ch (((x.1.valves[ch].run).bind Run.decided).getD 1), y.2)
    else endTicks ch rest y

/-- END: the class is none, so the token and the budget are released as it starts. -/
def endInstr (ch : Fin 16) (samples : List Nat) (x : DM) : DM :=
  match x.1.valves[ch].run with
  | none => x
  | some r =>
    let (w, y) := progRead ch r x
    if opOf w ≠ 0 then x
    else
      let d1 := (decideNow ch y.1).updRun ch fun r => { r.enter 0 0 y.1.now with left := some 1, wait := none }
      let z := endTicks ch samples (setDrive d1 ch DR.quench 0, y.2)
      (hsgShow z.1 (groupOf ch), z.2)

/-- CMD.STOP of a Host channel: QUENCH and END. -/
def valveCmdStop (ch : Fin 16) (d : Dev) : Dev :=
  if d.rd (VALVE.CFG.ROLE ch) ≠ 3 then d
  else progAbort ((decideNow ch d).updValve ch fun v => { v with req := none }) ch 1

/-! ## Meanings -/

def execEnd_ (ch : Fin 16) (samples : List Nat) (s : State) : Host.Outcome State Fault Refusal := s.onBoth (endInstr ch samples)
def execBoost (ch : Fin 16) (samples : List Nat) (s : State) : Host.Outcome State Fault Refusal := s.onBoth (boost ch samples)
def execRegp (ch : Fin 16) (samples : List Nat) (s : State) : Host.Outcome State Fault Refusal := s.onBoth (regp ch samples)
def execRegh (ch : Fin 16) (samples : List Nat) (s : State) : Host.Outcome State Fault Refusal := s.onBoth (regh ch samples)
def execFree (ch : Fin 16) (samples : List Nat) (s : State) : Host.Outcome State Fault Refusal := s.onBoth (freeInstr ch samples)
def execQuench (ch : Fin 16) (samples : List Nat) (s : State) : Host.Outcome State Fault Refusal := s.onBoth (quench ch samples)
def execWaitr (ch : Fin 16) (samples : List Nat) (s : State) : Host.Outcome State Fault Refusal := s.onBoth (waitr ch samples)
def execDip (ch : Fin 16) (i : Nat) (s : State) : Host.Outcome State Fault Refusal := s.onBoth (dip ch i)
def execJdip (ch : Fin 16) (i : Nat) (s : State) : Host.Outcome State Fault Refusal := s.onBoth (jdip ch i)
def execJmp (ch : Fin 16) (i : Nat) (s : State) : Host.Outcome State Fault Refusal := s.onBoth (jmp ch i)
def execLoop (ch : Fin 16) (i : Nat) (s : State) : Host.Outcome State Fault Refusal := s.onBoth (loopInstr ch i)
def execWait (ch : Fin 16) (samples : List Nat) (s : State) : Host.Outcome State Fault Refusal := s.onBoth (waitInstr ch samples)
def execConf (ch : Fin 16) (i : Nat) (s : State) : Host.Outcome State Fault Refusal := s.onBoth (conf ch i)
def execReservedOpcode (ch : Fin 16) (s : State) : Host.Outcome State Fault Refusal := s.onDevM (reservedOpcode ch)
def execValveCmdStop (ch : Fin 16) (s : State) : Host.Outcome State Fault Refusal := s.onDev (valveCmdStop ch)

end Sys2Proof.Machine
end

