-- ==== Sys2Proof/Machine/Segment.lean ====
section
/-! DEFINITION. Defect segmentation (spec/08_segmentation.md): background, runs, blobs, closes, features and the pieces at a
module seam. -/

namespace Sys2Proof.Machine

def Dev.updSeg (d : Dev) (g : Segm → Segm) : Dev := { d with seg := g d.seg }

/-! ## Background (R185, R186) -/

/-- Slice of a column (R184). -/
def sliceOf (first c : Int) : Nat := ((c - first) / 64).toNat

/-- floor(log2 n) for n ≥ 1. -/
def log2 (n : Nat) : Nat := Nat.log2 n

/-- One update of a slice from the values of its usable columns. -/
def bgUpdate (old : Option SliceBg) (j s t : Nat) (vs : List Nat) : Option SliceBg :=
  let n := vs.length
  if n = 0 then old
  else
    let m := ((vs.map fun v => 256 * v).sum + n / 2) / n
    let dev (b : Nat) : Nat := ((vs.map fun (v : Nat) => ((256 * v : Int) - b).natAbs).sum + n / 2) / n
    match old with
    | none => some ⟨j, m, dev m, 1⟩
    | some o =>
      let s' := min s (log2 (o.k + 1))
      let t' := min t (log2 (o.k + 1))
      some ⟨j, ((o.b : Int) + sar ((m : Int) - o.b) s').toNat, ((o.s : Int) + sar ((dev o.b : Int) - o.s) t').toNat, o.k + 1⟩

/-- The background of the next line. -/
def bgLine (bg : List SliceBg) (v : View) (l : SegLine) : List SliceBg :=
  let cells := l.line.cells
  let inRun (c : Int) : Bool := l.taken.any fun r => decide (r.a ≤ c ∧ c ≤ r.b)
  if bitOf l.line.flags WF.skipped || cells.all fun c => c.2 == 2 then bg
  else
    (List.range ((cells.length + 63) / 64)).foldl (fun bg j =>
      let vs := (((cells.drop (64 * j)).take 64).zip (List.range 64)).filterMap fun q =>
        if q.1.2 = 0 ∧ !inRun (l.line.colFirst + ((64 * j + q.2 : Nat) : Int)) then some q.1.1 else none
      match bgUpdate (bg.find? fun b => b.j == j) j (v SEG.BG.SHIFT_M) (v SEG.BG.SHIFT_S) vs with
      | some b => b :: bg.filter fun o => o.j != j
      | none => bg) bg

/-- The background restarts: every slice empty, WARMUP while fewer than WARM lines have passed. -/
def bgRestart (d : Dev) : Dev :=
  (d.updSeg fun s => { s with bg := [], since := 0, restart := false }).wrB SEG.STATUS.WARMUP (d.rd SEG.BG.WARM != 0)

/-- SEG_RESTART: the line in progress keeps the background it began with (R187), and the restart follows it. -/
def segRestart (d : Dev) : Dev := if d.seg.cur.isNone then bgRestart d else d.updSeg fun s => { s with restart := true }

/-! ## Families, thresholds and runs (R187, R188) -/

/-- A column is blocked (R183). -/
def blockedCell (susp : Bool) (st : Nat) : Bool := st == 2 || (st == 1 && susp)

/-- The deviation of a value from the background of its slice. -/
def deviation (pol v b : Nat) : Int :=
  let x : Int := 256 * v - b
  match pol with
  | 0 => x
  | 1 => -x
  | _ => (x.natAbs : Int)

/-- T_LO or T_HI. -/
def threshold (floor k s : Nat) : Nat := max (floor * 256) ((k * s + 8) / 16)

/-- One column of a family: grow, seed, deviation, S_eff and B; none where it is blocked or its slice has no background. -/
def columnOf (v : View) (bg : List SliceBg) (l : WebLine) (f i : Nat) : Option (Bool × Bool × Nat × Nat × Nat) :=
  match l.cells[i]? with
  | none => none
  | some (y, st) =>
    if blockedCell (v SEG.CTL.SUSP != 0) st then none
    else
      match bg.find? fun b => b.j == i / 64 with
      | none => none
      | some b =>
        let s := max b.s (v SEG.SPREAD_FLOOR.FLOOR)
        let dv := deviation (v (SEG.FAM_CTL.POL f)) y b.b
        some (decide ((threshold (v (SEG.FAM_LO.FLOOR f)) (v (SEG.FAM_LO.K f)) s : Int) < dv),
          decide ((threshold (v (SEG.FAM_HI.FLOOR f)) (v (SEG.FAM_HI.K f)) s : Int) < dv), dv.toNat, s, b.b)

/-- The maximal sequences of true entries: (first, last) index. -/
def sequences : List Bool → Nat → Option Nat → List (Nat × Nat)
  | [], k, some a => [(a, k - 1)]
  | [], _, none => []
  | true :: rest, k, some a => sequences rest (k + 1) (some a)
  | true :: rest, k, none => sequences rest (k + 1) (some k)
  | false :: rest, k, some a => (a, k - 1) :: sequences rest (k + 1) none
  | false :: rest, k, none => sequences rest (k + 1) none

/-- The runs of one family on a line. -/
def famRuns (v : View) (bg : List SliceBg) (l : WebLine) (f : Nat) : List SegRun :=
  let grow := (List.range l.cells.length).map fun i => (columnOf v bg l f i).elim false fun c => c.1
  let isBlocked (i : Nat) : Bool := (l.cells[i]?).elim false fun c => blockedCell (v SEG.CTL.SUSP != 0) c.2
  ((sequences grow 0 none).filter fun q => decide (max 1 (v (SEG.FAM_CTL.MIN_RUN f)) ≤ q.2 + 1 - q.1)).map fun q =>
    ⟨f, l.colFirst + q.1, l.colFirst + q.2, (q.1 != 0 && isBlocked (q.1 - 1)) || isBlocked (q.2 + 1)⟩

/-- All runs of a line in order of first column, then of family. -/
def lineRuns (v : View) (bg : List SliceBg) (l : WebLine) : List SegRun :=
  let fs := (List.range 4).filter fun f => v (SEG.FAM_CTL.EN f) != 0
  sortBy (fun p q => decide (p.a < q.a ∨ (p.a = q.a ∧ p.fam ≤ q.fam))) (fs.flatMap fun f => famRuns v bg l f)

/-! ## Accumulators (R195) -/

def accZero : BlobAcc where
  n := 0
  ns := 0
  runs := 0
  nsus := 0
  xl := 0
  xr := 0
  maxRun := 0
  vmin := 0
  vmax := 0
  dmax := 0
  sv := 0
  svv := 0
  sd := 0
  sx := 0
  sy := 0
  sxx := 0
  syy := 0
  sxy := 0
  sdx := 0
  sdy := 0
  ss := 0
  sb := 0
  tn := 0
  sh := 0
  hmax := 0
  sth := 0
  per := 0

/-- Two sets of sums added; an empty one leaves the extremes alone. -/
def accAdd (p q : BlobAcc) : BlobAcc :=
  if p.n = 0 then { q with per := p.per + q.per }
  else if q.n = 0 then { p with per := p.per + q.per }
  else
    { n := p.n + q.n, ns := p.ns + q.ns, runs := p.runs + q.runs, nsus := p.nsus + q.nsus, xl := min p.xl q.xl, xr := max p.xr q.xr,
      maxRun := max p.maxRun q.maxRun, vmin := min p.vmin q.vmin, vmax := max p.vmax q.vmax, dmax := max p.dmax q.dmax,
      sv := p.sv + q.sv, svv := p.svv + q.svv, sd := p.sd + q.sd, sx := p.sx + q.sx, sy := p.sy + q.sy, sxx := p.sxx + q.sxx,
      syy := p.syy + q.syy, sxy := p.sxy + q.sxy, sdx := p.sdx + q.sdx, sdy := p.sdy + q.sdy, ss := p.ss + q.ss, sb := p.sb + q.sb,
      tn := p.tn + q.tn, sh := p.sh + q.sh, hmax := max p.hmax q.hmax, sth := p.sth + q.sth, per := p.per + q.per }

/-- The origin moved `e` lines earlier. -/
def accShiftY (p : BlobAcc) (e : Nat) : BlobAcc :=
  { p with sy := p.sy + p.n * e, syy := p.syy + 2 * e * p.sy + p.n * e * e, sxy := p.sxy + e * p.sx, sdy := p.sdy + e * p.sd }

/-- The origin moved `e` columns lower (R204). -/
def accShiftX (p : BlobAcc) (e : Nat) : BlobAcc :=
  { p with sx := p.sx + p.n * e, sxx := p.sxx + 2 * e * p.sx + p.n * e * e, sxy := p.sxy + e * p.sy, sdx := p.sdx + e * p.sd }

/-- The thermal value of a column (R152): the cell of T0 by the column rule, else that of T1. -/
def thermalOf (d : Dev) (rows : List (Nat × List (Nat × Nat × Bool))) (c : Int) : Option (Nat × Nat) :=
  (List.finRange 2).findSome? fun n =>
    match rows[n.val]? with
    | some (0, cells) =>
      let xw : Int := 16 * (max 1 (headCfg d n (THERM.CELL.XW n)) : Nat)
      let ci := (16 * c - toSigned 32 (headCfg d n (THERM.XW_ORIGIN.ORIGIN n))) / xw
      if ci < 0 then none
      else
        match cells[ci.toNat]? with
        | some (h, b, true) => some (h, b)
        | _ => none
    | _ => none

/-- What one column adds; y is the line's distance from FIRST_WLN. -/
def colAcc (d : Dev) (v : View) (l : SegLine) (f : Nat) (y : Nat) (c : Int) : BlobAcc :=
  let i := (c - l.line.colFirst).toNat
  match columnOf v d.seg.bg l.line f i, l.line.cells[i]? with
  | some (_, seed, dv, s, b), some (val, st) =>
    let t := thermalOf d l.rows c
    { accZero with
      n := 1, ns := b2n seed, nsus := b2n (st == 1), xl := c, xr := c, vmin := val, vmax := val, dmax := dv, sv := val, svv := val * val,
      sd := dv, sx := i, sy := y, sxx := i * i, syy := y * y, sxy := i * y, sdx := dv * i, sdy := dv * y, ss := s, sb := b,
      tn := b2n t.isSome, sh := t.elim 0 Prod.fst, hmax := t.elim 0 Prod.fst, sth := t.elim 0 Prod.snd }
  | _, _ => accZero

/-- What a run adds. -/
def runAcc (d : Dev) (v : View) (l : SegLine) (r : SegRun) (y : Nat) : BlobAcc :=
  let len := (r.b + 1 - r.a).toNat
  let s := (List.range len).foldl (fun (a : BlobAcc) (k : Nat) => accAdd a (colAcc d v l r.fam y (r.a + k))) accZero
  { s with runs := 1, maxRun := len }

/-! ## The books (R198 to R200) -/

/-- FREE entries. -/
def blobsFree (d : Dev) : Nat := 8192 - d.seg.blobs.length - d.tags.vecs.length

/-- BLOB_STAT, FREE_MIN and LOW_FREE follow the table. -/
def segShow (d : Dev) : Dev :=
  let fr := blobsFree d
  let d1 := ((d.wr SEG.BLOB_STAT0.FREE fr).wr SEG.BLOB_STAT0.OPEN d.seg.blobs.length).wr SEG.BLOB_STAT1.CLOSED d.tags.vecs.length
  let d2 := d1.wr SEG.BLOB_STAT1.HELD (d.seg.blobs.filter fun b => b.held != 0).length
  let d3 := if fr < d2.rd SEG.FREE_MIN.N then d2.wr SEG.FREE_MIN.N fr else d2
  let low := decide (fr < d.rd SEG.MIN_FREE.N)
  (d3.wrB SEG.STATUS.LOW_FREE low).irqIf (low && !d.on SEG.STATUS.LOW_FREE) Page.SEG SEG.irq.LOW_FREE

/-- FREE_MIN_CLEAR. -/
def freeMinClear (d : Dev) : Dev := d.wr SEG.FREE_MIN.N (blobsFree d)

/-! ## Seam groups (R202, R203) -/

/-- A piece enters a group of its own, unless it has one or none is free. -/
def ensureGroup (d : Dev) (id : Nat) : Dev :=
  if (d.seg.groups.any fun g => g.members.contains id) || d.seg.noGroup.contains id then d
  else if 512 ≤ d.seg.groups.length then d.updSeg fun s => { s with noGroup := id :: s.noGroup }
  else d.updSeg fun s => { s with groups := s.groups ++ [⟨[id], [], false, 0, false, none, none⟩] }

/-- Two groups made one. -/
def Group.union (a b : Group) : Group :=
  ⟨a.members ++ b.members, a.closed ++ b.closed, true, max a.lastClose b.lastClose, a.noGroup || b.noGroup, none, none⟩

/-- The groups of two pieces joined. -/
def joinGroups (d : Dev) (a b : Nat) : Dev :=
  match d.seg.groups.find? fun g => g.members.contains a, d.seg.groups.find? fun g => g.members.contains b with
  | some ga, some gb =>
    if ga.members = gb.members then
      d.updSeg fun s => { s with groups := s.groups.map fun g => if g.members == ga.members then { g with linked := true } else g }
    else
      d.updSeg fun s =>
        { s with groups := (s.groups.filter fun g => g.members != ga.members && g.members != gb.members) ++ [ga.union gb] }
  | _, _ => d

/-- An absorbed piece takes the name of its survivor, in its touches and in its group. -/
def aliasGroups (d : Dev) (absorbed survivor : Nat) : Dev :=
  let ren (x : Nat) : Nat := if x = absorbed then survivor else x
  let both := (d.seg.groups.any fun g => g.members.contains absorbed) && (d.seg.groups.any fun g => g.members.contains survivor)
  let linked := (d.seg.groups.find? fun g => g.members.contains absorbed).elim false Group.linked ||
    (d.seg.groups.find? fun g => g.members.contains survivor).elim false Group.linked
  let d1 := if both then joinGroups d absorbed survivor else d
  d1.updSeg fun s =>
    { s with
      groups := s.groups.map fun g =>
        if g.members.contains absorbed then { g with members := (g.members.map ren).eraseDups, linked := linked } else g
      own := s.own.map fun t => (t.1, t.2.1, ren t.2.2)
      upper := s.upper.map fun t => (t.1, t.2.1, ren t.2.2) }

/-- Lower pieces and upper pieces of one family that touch on the same line, or on neighbouring lines under CONN = 1. -/
def linkSeam (d : Dev) (conn : Bool) : Dev :=
  d.seg.own.foldl (fun d o =>
    d.seg.upper.foldl (fun d u =>
      let near := if conn then decide (o.1 ≤ u.1 + 1 ∧ u.1 ≤ o.1 + 1) else o.1 == u.1
      if near && o.2.1 == u.2.1 then joinGroups d o.2.2 u.2.2 else d) d) d

/-- A piece has closed on a line whose set is `v`: it joins its group, or is reported alone. -/
def pieceClosed (d : Dev) (v : View) (lower : Bool) (p : Piece) : Dev :=
  let c : ClosedPiece := ⟨lower, colFirst v, colCount v, p⟩
  let d1 := ensureGroup d p.blob
  if d1.seg.noGroup.contains p.blob then
    d1.updSeg fun s =>
      { s with noGroup := s.noGroup.filter fun x => x != p.blob
               groups := s.groups ++ [⟨[p.blob], [c], false, d.now, true, none, none⟩] }
  else
    let put (g : Group) : Group :=
      if g.members.contains p.blob then { g with closed := g.closed ++ [c], lastClose := d.now } else g
    d1.updSeg fun s => { s with groups := s.groups.map put }

/-- Whether a group is complete: every piece closed, and the records of both sides held up to the latest closing line. -/
def Group.complete (g : Group) (s : Segm) : Bool :=
  let latest := (g.closed.map fun c => c.piece.close).foldl max 0
  let upTo (o : Option Nat) : Bool := o.elim false fun w => decide (latest ≤ w)
  g.noGroup || (!g.closed.isEmpty && (g.members.all fun i => g.closed.any fun c => c.piece.blob == i) && upTo s.ownUpTo && upTo s.upperUpTo)

/-- The groups that have become complete keep the set in force at this moment (R215). -/
def groupsDone (d : Dev) : Dev :=
  let live := d.rd WEB.EPOCH_ID.LIVE_ID
  let mark (g : Group) : Group := if g.set.isNone && g.complete d.seg then { g with set := some live } else g
  d.updSeg fun s => { s with groups := s.groups.map mark }

/-- Touches that no open group needs and that no line to come can link. -/
def pruneTouches (d : Dev) (w : Nat) : Dev :=
  let keep (t : Nat × Nat × Nat) : Bool :=
    decide (w ≤ t.1 + 4) || d.seg.groups.any fun g => g.members.contains t.2.2
  d.updSeg fun s => { s with own := s.own.filter keep, upper := s.upper.filter keep }

/-- The EPOCH_ID of an issued line. -/
def lineSet (d : Dev) (w : Nat) : Nat := ((d.gen.recent.find? fun t => t.wln == w).map TrigRec.epoch).getD (lineEpoch d w)

/-- BOUND (R202): from the upper module. -/
def bound (r : BoundRec) (d : Dev) : Dev :=
  let v := d.cfg (lineSet d r.wln)
  let d1 := (d.wr SEG.STATUS.HI_RX 1).updSeg fun s =>
    { s with upperUpTo := some (max (s.upperUpTo.getD 0) r.wln) }
  let d2 := r.touches.foldl (fun d t => (ensureGroup d t.2).updSeg fun s => { s with upper := s.upper ++ [(r.wln, t.1, t.2)] }) d1
  let d3 := linkSeam d2 (v SEG.CTL.CONN != 0)
  let d4 := r.aliases.foldl (fun d a => aliasGroups d a.1 a.2) d3
  groupsDone (pruneTouches (r.closes.foldl (fun d p => pieceClosed d v false p) d4) r.wln)

/-! ## Blobs (R189) -/

/-- Two column ranges overlap under CONN. -/
def overlaps (conn : Bool) (a b a' b' : Int) : Bool :=
  if conn then decide (a ≤ b' + 1 ∧ a' ≤ b + 1) else decide (a ≤ b' ∧ a' ≤ b)

/-- The line's position stamp, µm modulo 2^48 (R14). -/
def linePos (l : WebLine) : Int := l.pos

/-- The way from one stamp to another: positions count modulo 2^48. -/
def stampDiff (p q : Int) : Int := toSigned 48 (ofSigned 48 (q - p))

/-- A new blob with a frontier (empty, or the continuation's). -/
def newBlob (d : Dev) (l : SegLine) (f : Nat) (frontier : List (Int × Int)) (flags : Nat) (pred : Option Nat) : Dev :=
  let id := 2 ^ 29 * d.slot + d.seg.ord % 2 ^ 29
  let b : Blob :=
    { id := id, ord := d.seg.ord, fam := f, first := l.line.wln, last := l.line.wln, p0 := linePos l.line, p1 := linePos l.line,
      frontier := frontier, adj := [], next := [], held := 0, flags := flags, pred := pred, headRun := false, taken := false,
      acc := accZero }
  segShow ((d.inc SEG.BLOBS_STARTED.CNT).updSeg fun s => { s with blobs := s.blobs ++ [b], ord := s.ord + 1 })

/-- BLOB_MERGE: an absorbed blob's sums, frontier and flags move to the survivor. -/
def Blob.absorb (s a : Blob) : Blob :=
  { s with
    acc := accAdd s.acc (accShiftY a.acc (a.first - s.first))
    frontier := s.frontier ++ a.frontier
    adj := s.adj ++ (if a.last = s.last then a.adj else [])
    next := s.next ++ a.next
    flags := Nat.lor s.flags a.flags
    pred := s.pred.orElse fun _ => a.pred
    headRun := s.headRun || a.headRun
    taken := s.taken || a.taken }

/-- The later of the two last lines decides which runs are adjacent to the next line. -/
def Blob.absorbLate (s a : Blob) : Blob :=
  if s.last < a.last then { s.absorb a with last := a.last, adj := a.adj, p1 := a.p1 } else s.absorb a

/-- RUN_DROP: the run's columns count as non-grow. -/
def dropRun (d : Dev) : Dev :=
  ((d.inc SEG.RUN_DROP_CNT.CNT).irq Page.SEG SEG.irq.RUN_DROP).updSeg fun s =>
    { s with cur := s.cur.map fun l => { l with drop := true } }

/-- The blobs of a family that a run overlaps, oldest first. -/
def hit (d : Dev) (conn : Bool) (r : SegRun) : List Blob :=
  sortBy (fun p q => decide (p.ord ≤ q.ord))
    (d.seg.blobs.filter fun b => b.fam == r.fam && b.frontier.any fun q => overlaps conn r.a r.b q.1 q.2)

/-- The flags a run brings (Table 8.3). -/
def runFlags (v : View) (r : SegRun) : Nat :=
  let lo := decide (r.a ≤ colFirst v)
  let hi := decide (colLast v ≤ r.b)
  b2n lo + 2 * b2n hi + 4 * b2n (lo && v STITCH.RSEAM_LO.EN != 0) + 8 * b2n (hi && v STITCH.RSEAM_HI.EN != 0) + 16 * b2n r.blocked

/-- A run joins a blob. -/
def joinRun (d : Dev) (v : View) (l : SegLine) (r : SegRun) (ord : Nat) : Dev :=
  d.updSeg fun s =>
    { s with
      blobs := s.blobs.map fun b =>
        if b.ord == ord then
          { b with next := b.next ++ [(r.a, r.b)], held := 0, flags := Nat.lor b.flags (runFlags v r)
                   acc := accAdd b.acc (runAcc d v l r (l.line.wln - b.first)) }
        else b
      cur := s.cur.map fun q => { q with taken := q.taken ++ [r] } }

/-- A merge: absorbed blobs leave the table; a merge of a blob that touches a seam is noted. -/
def mergeInto (d : Dev) (surv : Blob) (a : Blob) : Dev :=
  let d1 := (d.inc SEG.BLOBS_ABSORBED.CNT).updSeg fun s =>
    { s with
      blobs := (s.blobs.filter fun b => b.ord != a.ord).map fun b => if b.ord == surv.ord then b.absorbLate a else b
      aliases := if bitOf a.flags 0 then s.aliases ++ [(a.id, surv.id)] else s.aliases }
  aliasGroups d1 a.id surv.id

/-- RUN_EXTRACTED: the next run of the line in the order of R188. -/
def runExtracted (d : Dev) : Dev :=
  match d.seg.cur with
  | none => d
  | some l =>
    match l.runs with
    | [] => d
    | r :: rest =>
      let v := d.cfg l.line.epoch
      let conn := v SEG.CTL.CONN != 0
      let d := d.updSeg fun s => { s with cur := some { l with runs := rest } }
      let mine := d.seg.conts.filter fun c => c.fam == r.fam && c.runs.any fun q => overlaps conn r.a r.b q.1 q.2
      let d := mine.foldl (fun d c =>
        if blobsFree d = 0 then d
        else (newBlob d l r.fam c.runs 128 (some c.blob)).updSeg fun s =>
          { s with conts := s.conts.filter fun k => !(k.blob == c.blob && k.fam == c.fam) }) d
      match hit d conn r with
      | [] =>
        if blobsFree d = 0 then dropRun d
        else
          let ord := d.seg.ord
          joinRun (newBlob d l r.fam [] 0 none) v l r ord
      | surv :: others => segShow (joinRun (others.foldl (fun d a => mergeInto d surv a) d) v l r surv.ord)

/-! ## Features (R196) -/

/-- Saturation of an unsigned and of a signed 32-bit word. -/
def satU32 (x : Int) : Nat := (clampI 0 4294967295 x).toNat
def satS32 (x : Int) : Nat := ofSigned 32 (clampI (-2147483648) 2147483647 x)

/-- F18 ELONG. -/
def elong (a b m : Int) : Nat :=
  let r : Int := isqrt ((a - b) * (a - b) + 4 * m * m).toNat
  let den := a + b - r
  if den ≤ 0 then 65535 else satU32 ((256 * (a + b + r) + den / 2) / den)

/-- The 32 features of Table 8.2. -/
def features (p : BlobAcc) (first last fam flags : Nat) (origin : Int) (p0 p1 : Int) : List Nat :=
  let n : Int := p.n
  let len : Int := last + 1 - first
  let wid := p.xr - p.xl + 1
  let i (x : Nat) : Int := x
  let a := n * i p.sxx - i p.sx * i p.sx
  let b := n * i p.syy - i p.sy * i p.sy
  let m := n * i p.sxy - i p.sx * i p.sy
  let nn := n * n
  let snr := if p.ss = 0 then Config.divByZero (16 * i p.sd) % 2 ^ 32 else satU32 ((16 * i p.sd + i p.ss / 2) / i p.ss)
  let t0 := p.tn = 0
  let tmean : Int := if t0 then 0 else (i p.sh + i p.tn / 2) / i p.tn
  [satU32 n, satU32 len, satU32 wid, satU32 p.runs, satU32 p.ns, satU32 (256 * n / (len * wid)), satU32 ((i p.sv + n / 2) / n),
   satU32 (isqrt ((n * i p.svv - i p.sv * i p.sv) / nn).toNat), satU32 p.vmin, satU32 p.vmax, satU32 ((i p.sd + n / 2) / n),
   satU32 p.dmax, snr, satS32 (16 * origin + 16 * i p.sx / n), satU32 (16 * i p.sy / n), satU32 ((16 * a + nn / 2) / nn),
   satU32 ((16 * b + nn / 2) / nn), satS32 ((16 * m + nn / 2) / nn), elong a b m, satU32 p.maxRun,
   satS32 (16 * i p.sdx / i p.sd - 16 * i p.sx / n), satS32 (16 * i p.sdy / i p.sd - 16 * i p.sy / n), flags, satU32 p.nsus, satU32 p.tn,
   satU32 (if t0 then 0 else i p.hmax), satU32 tmean, satS32 (if t0 then 0 else tmean - (i p.sth + i p.tn / 2) / i p.tn), fam,
   satU32 (stampDiff p0 p1), satU32 ((i p.sb + 128 * n) / (256 * n)), satU32 p.per]

/-- The flags of a closed blob: SUSPECT and NO_THERMAL are derived. -/
def Blob.finalFlags (b : Blob) : Nat :=
  Nat.lor b.flags (32 * b2n (decide (0 < b.acc.nsus)) + 8192 * b2n (b.headRun && b.acc.tn == 0))

/-! ## Closes (R190 to R193) -/

/-- Columns of a set of runs, and the columns that two sets share. -/
def colsOf (rs : List (Int × Int)) : Nat := (rs.map fun r => (r.2 + 1 - r.1).toNat).sum
def sharedCols (rs qs : List (Int × Int)) : Nat :=
  (rs.map fun r => (qs.map fun q => (min r.2 q.2 + 1 - max r.1 q.1).toNat).sum).sum

/-- The perimeter that passing a line adds: the ends of its runs, and the vertical neighbours that are not the blob's. -/
def linePerimeter (adj next : List (Int × Int)) : Nat :=
  2 * next.length + (colsOf next - sharedCols next adj) + (colsOf adj - sharedCols next adj)

/-- A blob that closes on the line `w` of its last runs: their lower neighbours are not its columns (R195). -/
def Blob.lastEdge (b : Blob) (w : Nat) : Blob :=
  if b.last = w then { b with acc := { b.acc with per := b.acc.per + colsOf b.adj } } else b

/-- A blob with a flag set. -/
def Blob.withFlag (b : Blob) (f : Nat) : Blob := { b with flags := Nat.lor b.flags f }

/-- A blob as the piece a seam group takes. -/
def Blob.piece (b : Blob) (close : Nat) : Piece := ⟨b.id, b.fam, b.first, b.last, close, b.p0, b.p1, b.finalFlags, b.acc⟩

/-- BLOB_CLOSE: the blob leaves the open ones. It is discarded, or its vector waits for the classifier; a seam-pending blob
goes to its seam groups first. -/
def closeBlob (close epoch ref : Nat) (x : Dev × Nat × List Piece) (b : Blob) : Dev × Nat × List Piece :=
  let (d, k, lows) := x
  let v := d.cfg epoch
  let fl := b.finalFlags
  let feats := features b.acc b.first b.last b.fam fl (colFirst v) b.p0 b.p1
  let pendLo := bitOf fl 2
  let pendHi := bitOf fl 3
  let d1 := d.updSeg fun s => { s with blobs := s.blobs.filter fun q => q.ord != b.ord }
  let d2 := if pendLo || pendHi then d1.inc SEG.SEAM_PEND_CNT.CNT else d1
  let d3 := if pendHi then pieceClosed d2 v true (b.piece close) else d2
  let lows' := if pendLo then lows ++ [b.piece close] else lows
  let d4 := if 48 ≤ k then (d3.inc TAG.OVER_K_CNT.CNT).irq Page.TAG TAG.irq.OVER_K else d3
  if !(pendLo || pendHi) && (b.acc.ns == 0 || decide (b.acc.n < v SEG.MIN_AREA.AREA)) then
    (segShow (d4.inc SEG.BLOBS_DISCARDED.CNT), k + 1, lows')
  else
    let vec : Vec := ⟨b.id, k, ref, feats, b.first, close, epoch, b.p0, b.p1, b.acc.xl, b.acc.xr, b.taken⟩
    (segShow (d4.updTags fun t => { t with vecs := t.vecs ++ [vec] }), k + 1, lows')

/-- The order in which the closes of a line are handed on. -/
def firstCol (b : Blob) : Int := (b.frontier.map Prod.fst).foldl min ((b.frontier.head?).elim 0 Prod.fst)
def closeOrder (bs : List Blob) : List Blob :=
  sortBy (fun p q => decide (firstCol p < firstCol q ∨ (firstCol p = firstCol q ∧ p.fam ≤ q.fam))) bs

/-- What the line's header adds to the flags of every blob it spans. -/
def lineFlags (l : SegLine) : Nat :=
  let f := l.line.flags
  256 * b2n l.drop + 512 * b2n (bitOf f WF.late || bitOf f WF.remoteLate || bitOf f WF.skipped) +
    1024 * b2n (bitOf f WF.epochDoubt || bitOf f WF.diverged)

/-- Some column of the widened frontier is blocked on the line. -/
def frontierBlocked (v : View) (l : SegLine) (b : Blob) : Bool :=
  let wide : Int := if v SEG.CTL.CONN != 0 then 1 else 0
  b.frontier.any fun r => (List.range (r.2 + 1 + 2 * wide - r.1).toNat).any fun k =>
    let i := r.1 - wide + k - l.line.colFirst
    decide (0 ≤ i) && (l.line.cells[i.toNat]?).elim false fun c => blockedCell (v SEG.CTL.SUSP != 0) c.2

/-- A blob after the line: its new frontier, or its hold. -/
def Blob.pass (b : Blob) (v : View) (l : SegLine) : Blob :=
  let adj := if b.last + 1 = l.line.wln then b.adj else []
  let acc := { b.acc with per := b.acc.per + linePerimeter adj b.next }
  let b1 := { b with acc := acc, flags := Nat.lor b.flags (lineFlags l), headRun := b.headRun || l.headRun }
  if b.next.isEmpty then
    if frontierBlocked v l b && decide (b.held < v SEG.CTL.HOLE_LINES) then
      { b1 with held := b.held + 1, flags := Nat.lor b1.flags 16 }
    else b1
  else { b1 with frontier := b.next, adj := b.next, next := [], last := l.line.wln, p1 := linePos l.line }

/-- Whether a blob that gained no run on the line closes. -/
def Blob.ends (b : Blob) (v : View) (l : SegLine) : Bool :=
  b.next.isEmpty && !(frontierBlocked v l b && decide (b.held < v SEG.CTL.HOLE_LINES))

/-- Whether a blob reaches MAX_LINES (R191). -/
def Blob.chunks (b : Blob) (v : View) (l : SegLine) : Bool :=
  !b.next.isEmpty && v SEG.MAX_LINES.LINES != 0 && decide (v SEG.MAX_LINES.LINES ≤ l.line.wln + 1 - b.first)

/-- The accumulators of a piece as a CLOSE note carries them (R195). -/
def accArgs (a : BlobAcc) : List Int :=
  [(a.n : Int), a.ns, a.runs, a.nsus, a.xl, a.xr, a.maxRun, a.vmin, a.vmax, a.dmax, a.sv, a.svv, a.sd, a.sx, a.sy, a.sxx, a.syy, a.sxy,
   a.sdx, a.sdy, a.ss, a.sb, a.tn, a.sh, a.hmax, a.sth, a.per]

/-- A CLOSE note. -/
def pieceArgs (p : Piece) : List Int :=
  [(p.blob : Int), (p.fam : Int), (p.first : Int), (p.last : Int), (p.close : Int), p.p0, p.p1, (p.flags : Int)] ++ accArgs p.acc

/-- BOUNDARY_RECORD_SEND: the upper module of a seam to the lower one. -/
def sendBound (d : Dev) (v : View) (w : Nat) (touches : List (Nat × Nat)) (lows : List Piece) : Dev :=
  if v STITCH.RSEAM_LO.EN = 0 ∨ !d.isActive then d
  else
    let args := [(w : Int), (touches.length : Int)] ++ (touches.flatMap fun t => [(t.1 : Int), (t.2 : Int)]) ++
      [(d.seg.aliases.length : Int)] ++ (d.seg.aliases.flatMap fun a => [(a.1 : Int), (a.2 : Int)]) ++ lows.flatMap pieceArgs
    d.emit (.string .bound args)

/-! ## Geometry changes (R193) -/

/-- The fields whose change is a geometry change. -/
def geometryFields : List Fld :=
  [SEG.CTL.CONN, STITCH.COL_FIRST.COL, STITCH.COL_COUNT.N, STITCH.RSEAM_LO.EN, STITCH.RSEAM_LO.RULE, STITCH.RSEAM_LO.F,
   STITCH.RSEAM_HI.EN, STITCH.RSEAM_HI.RULE, STITCH.RSEAM_HI.F] ++
  (List.range 4).flatMap fun f => [SEG.FAM_CTL.EN f, SEG.FAM_CTL.POL f]

/-- A geometry change takes effect behind the last line decided: every open blob closes on that line with RECONF, and the background
restarts. -/
def geoClose (d : Dev) : Dev :=
  match d.seg.prev with
  | none => bgRestart d
  | some (w, old, k, ref) =>
    let bs := d.seg.blobs.map fun b => (b.lastEdge w).withFlag 2048
    let d1 := (d.addCnt SEG.RECONF_CNT.CNT bs.length).updSeg fun s => { s with blobs := bs, conts := [] }
    let (d2, k', lows) := (closeOrder bs).foldl (closeBlob w old ref) (d1, k, [])
    bgRestart (groupsDone ((sendBound d2 (d.cfg old) w [] lows).updSeg fun s => { s with prev := some (w, old, k', ref) }))

/-- The changes whose line E is at most `w` take effect, oldest first. -/
def geoUpTo (d : Dev) (w : Nat) : Dev :=
  let due (g : Nat × Bool) : Bool := !g.2 && decide (g.1 ≤ w)
  ((d.seg.geo.filter due).foldl (fun d _ => geoClose d) d).updSeg fun s =>
    { s with geo := s.geo.map fun g => if due g then (g.1, true) else g }

/-- The changes before whose line E no line is left to come. -/
def segGeo (d : Dev) : Dev :=
  let left := (d.stitch.waiting.map fun o => o.trig.wln) ++ (d.stitch.out ++ d.stitch.toSeg).map WebLine.wln
  match d.seg.cur, left with
  | some _, _ => d
  | none, [] => (d.seg.geo.getLast?).elim d fun g => geoUpTo d g.1
  | none, w :: ws => geoUpTo d (ws.foldl min w)

/-- An epoch from line `e` on, after the registers `old`: a geometry change is noted. The sixteen newest stay for a replay (R331). -/
def segGeoEpoch (d : Dev) (old : View) (e : Nat) : Dev :=
  if geometryFields.any fun f => old f != d.rd f then
    let gs := d.seg.geo ++ [(e, false)]
    segGeo (d.updSeg fun s => { s with geo := gs.drop (gs.length - 16) })
  else d

/-- Another change of set at a line: the blobs open across it carry EPOCH_SPAN. -/
def segEpoch (d : Dev) (epoch : Nat) : Dev :=
  match d.seg.prev with
  | none => d
  | some p =>
    if p.2.1 = epoch then d
    else d.updSeg fun s => { s with blobs := s.blobs.map fun b => { b with flags := Nat.lor b.flags 4096 } }

/-- CLOSE_DECISION (R190): once every run of the line has been taken. -/
def closeDecision (d : Dev) : Dev :=
  match d.seg.cur with
  | none => d
  | some l =>
    if !l.runs.isEmpty then d
    else
      let v := d.cfg l.line.epoch
      let w := l.line.wln
      let ref := d.now - 320
      let bs := d.seg.blobs
      let touchHi := bs.filter fun b => b.next.any fun r => decide (colLast v ≤ r.2)
      let touchLo := bs.filter fun b => b.next.any fun r => decide (r.1 ≤ colFirst v)
      let endIds := (bs.filter fun b => b.ends v l).map Blob.ord
      let chunkIds := (bs.filter fun b => b.chunks v l).map Blob.ord
      -- touches of this line enter their groups
      let d1 := if v STITCH.RSEAM_HI.EN = 0 then d
        else
          let e := touchHi.foldl (fun d b => (ensureGroup d b.id).updSeg fun s => { s with own := s.own ++ [(w, b.fam, b.id)] }) d
          linkSeam (e.updSeg fun s => { s with ownUpTo := some w }) (v SEG.CTL.CONN != 0)
      -- every blob passes the line
      let passed := bs.map fun b =>
        let p := b.pass v l
        if chunkIds.contains b.ord then (p.lastEdge w).withFlag 64 else p
      let going := passed.filter fun b => endIds.contains b.ord || chunkIds.contains b.ord
      let conts := (passed.filter fun b => chunkIds.contains b.ord).map fun b => (⟨b.fam, b.frontier, b.id⟩ : Cont)
      let d2 := (d1.addCnt SEG.CHUNK_CNT.CNT chunkIds.length).updSeg fun s => { s with blobs := passed, conts := conts }
      let (d3, k, lows) := (closeOrder going).foldl (closeBlob w l.line.epoch ref) (d2, 0, [])
      let d4 := sendBound d3 v w (touchLo.map fun b => (b.fam, b.id)) lows
      -- the background, the warm-up and the books of the line
      let bg := if v SEG.CTL.EN != 0 then bgLine d4.seg.bg v l else d4.seg.bg
      let dig : LineDigest := ⟨w, (l.taken.flatMap fun r => [(r.fam : Int), r.a, r.b]), bg.flatMap fun b => [b.j, b.b, b.s],
        (closeOrder going).map fun b => (b.id, none, none)⟩
      let d5 := d4.updSeg fun s =>
        { s with cur := none, bg := bg, since := s.since + b2n (v SEG.CTL.EN != 0), aliases := [], prev := some (w, l.line.epoch, k, ref)
                 digests := (dig :: s.digests).take 64 }
      let d6 := if d5.seg.restart then bgRestart d5 else d5.wrB SEG.STATUS.WARMUP (decide (d5.seg.since < v SEG.BG.WARM))
      tailReach (segGeo (imageSend (digestSettle (segShow (pruneTouches (groupsDone d6) w)))))

/-! ## A line enters (R183, R193) -/

/-- SEG_LINE_HEAD: the next emitted web line enters; its thermal rows are looked up and its runs found. The counters of a snapshot are
copied before the line's own (R30). -/
def segLineHead (d : Dev) : Dev :=
  match d.stitch.toSeg, d.seg.cur with
  | l :: rest, none =>
    let d := segEpoch (geoUpTo (d.updStitch fun s => { s with toSeg := rest }) l.wln) l.epoch
    let d := (d.snapReach Page.SEG l.wln (SEG.fields.filter fun f => f.key != SEG.BLOBS_TAGGED.CNT.key)).snapReach (Page.TAG + 8192) l.wln
      [TAG.OVER_K_CNT.CNT]
    let (r0, d) := thermalLookup d 0 l.pos
    let (r1, d) := thermalLookup d 1 l.pos
    let v := d.cfg l.epoch
    let runs := if v SEG.CTL.EN = 0 ∨ d.seg.since < v SEG.BG.WARM then [] else lineRuns v d.seg.bg l
    let excess := runs.length - 4096
    let d := if excess = 0 then d else (d.addCnt SEG.RUN_OVF_CNT.CNT excess).irq Page.SEG SEG.irq.RUN_OVF
    let headRun := headState d 0 == HS.run || headState d 1 == HS.run
    let q : SegLine := ⟨l, [r0, r1], headRun, runs.take 4096, [], excess != 0⟩
    let d := if d.rd TWIN.STATUS.STATE = 2 then d.updTwin fun t => { t with store := t.store ++ [q] } else d
    d.updSeg fun s => { s with cur := some q }
  | _, _ => d

/-- A blob-table entry is lost (Table 12.3): the blob closes and is discarded. -/
def blobLost (id : Nat) (d : Dev) : Dev :=
  if d.seg.blobs.any fun b => b.id == id then
    segShow ((d.inc SEG.BLOBS_DISCARDED.CNT).updSeg fun s => { s with blobs := s.blobs.filter fun b => b.id != id })
  else d

/-- The consistency check of R187: cause and family. -/
def segCheck (v : View) : Option (Nat × Nat) :=
  let en := (List.range 4).filter fun f => v (SEG.FAM_CTL.EN f) != 0
  let f1 := (en.find? fun f => decide (v (SEG.FAM_HI.K f) < v (SEG.FAM_LO.K f))).map fun f => (1, f)
  let f2 := (en.find? fun f => decide (v (SEG.FAM_HI.FLOOR f) < v (SEG.FAM_LO.FLOOR f))).map fun f => (2, f)
  f1.orElse fun _ => f2.orElse fun _ => if v SEG.CTL.EN != 0 && en.isEmpty then some (3, 0) else none

/-- The background word of a slice as the window shows it (R206). -/
def bgWord (d : Dev) (off : Nat) : Nat :=
  match d.seg.bg.find? fun b => b.j == off / 8 with
  | none => 0
  | some b => if off % 8 < 4 then b.b + 2 ^ 31 else b.s

/-! ## Meanings -/

def execSegLineHead (s : State) : Host.Outcome State Fault Refusal := s.onDev segLineHead
def execRunExtracted (s : State) : Host.Outcome State Fault Refusal := s.onDev runExtracted
def execCloseDecision (s : State) : Host.Outcome State Fault Refusal := s.onDev closeDecision
def execBound (r : BoundRec) (s : State) : Host.Outcome State Fault Refusal := s.onDev (bound r)
def execSegRestart (s : State) : Host.Outcome State Fault Refusal := s.onDev segRestart
def execFreeMinClear (s : State) : Host.Outcome State Fault Refusal := s.onDev freeMinClear

end Sys2Proof.Machine
end

