-- ==== Sys2Proof/Machine/Classify.lean ====
section
/-! DEFINITION. Classification and defect tags (spec/09_classification_and_tags.md): rule banks, the decision, tags, merge
records and the hand-over of a tag. -/

namespace Sys2Proof.Machine

/-! ## Rule banks (R207 to R210) -/

def clsBase (b : Nat) : Nat := 0x06100000 + 0x4000 * b

/-- One condition of a rule (Table 9.2). -/
structure Cond where
  feat : Nat
  signed : Bool
  outside : Bool
  en : Bool
  lo : Nat
  hi : Nat
  deriving DecidableEq, Repr

/-- One rule. -/
structure Rule where
  en : Bool
  fams : Nat
  cls : Nat
  conf : Nat
  care : Nat
  want : Nat
  conds : List Cond
  deriving DecidableEq, Repr

/-- Condition i of the rule at an address. -/
def readCond (m : Memory) (a i : Nat) : Cond :=
  let c := (m.byte (a + 8 + 10 * i)).toNat
  ⟨c % 32, bitOf c 5, bitOf c 6, bitOf c 7, m.u32 (a + 10 + 10 * i), m.u32 (a + 14 + 10 * i)⟩

/-- The rule at an address. -/
def readRule (m : Memory) (a : Nat) : Rule :=
  ⟨bitOf (m.byte a).toNat 0, (m.byte (a + 1)).toNat, (m.byte (a + 2)).toNat % 64, (m.byte (a + 3)).toNat, m.u16 (a + 4), m.u16 (a + 6),
   (List.range 4).map fun i => readCond m a i⟩

/-- a ≤ b as SIGNED says. -/
def leAs (signed : Bool) (a b : Nat) : Bool := if signed then decide (toSigned 32 a ≤ toSigned 32 b) else decide (a ≤ b)

/-- cond_ok of R211. -/
def condOk (v : List Nat) (c : Cond) : Bool :=
  let x := v.getD c.feat 0
  let inside := leAs c.signed c.lo x && leAs c.signed x c.hi
  !c.en || (if c.outside then !inside else inside)

/-- A rule matches a vector of family f. -/
def ruleMatches (v : List Nat) (f : Nat) (r : Rule) : Bool :=
  r.en && bitOf r.fams f && Nat.land (v.getD 22 0) r.care == Nat.land r.want r.care && r.conds.all (condOk v)

/-- Class attributes (Table 9.3): MARK_EN, HOST, MARK_PROG, MARK_CONF, SEVERITY. -/
def attrOf (m : Memory) (base cls : Nat) : Nat := m.u32 (base + 0x3000 + 4 * cls)
def attrMark (a : Nat) : Bool := bitOf a 0
def attrHost (a : Nat) : Bool := bitOf a 1
def attrProg (a : Nat) : Nat := bitsOf a 4 4
def attrConf (a : Nat) : Nat := bitsOf a 8 8
def attrSev (a : Nat) : Nat := bitsOf a 16 2

/-- The penalty and the mark request of R211. -/
def finishVerdict (m : Memory) (base flags cls conf rule : Nat) (dflt : Bool) : Verdict :=
  let pen := Nat.land flags (Nat.land (m.u16 (base + 0x3104)) 0x3FFF)
  let conf' := if pen ≠ 0 then (conf * (m.byte (base + 0x3106)).toNat + 128) / 256 else conf
  let a := attrOf m base cls
  ⟨cls, conf', rule, dflt, attrMark a && decide (attrConf a ≤ conf') && !dflt, a⟩

/-- The decision of R211 over a bank; a rule or an attribute that reads uncorrectable gives the default (Table 12.3). -/
def decideVec (m : Memory) (base : Nat) (v : List Nat) : Verdict :=
  let f := v.getD 28 0
  let dclass := (m.byte (base + 0x3100 + f)).toNat % 64
  let dflt := finishVerdict m base (v.getD 22 0) dclass 0 0 true
  match (List.range 256).find? fun n => m.lostIn (base + 48 * n) 48 || ruleMatches v f (readRule m (base + 48 * n)) with
  | none => dflt
  | some n =>
    if m.lostIn (base + 48 * n) 48 then dflt
    else
      let r := readRule m (base + 48 * n)
      if m.lostIn (base + 0x3000 + 4 * r.cls) 4 then dflt else finishVerdict m base (v.getD 22 0) r.cls r.conf n false

/-- The verdict under a set: with the classifier off class 0, default, no mark. The words are read by the code (R278). -/
def verdictOf (x : DM) (v : Fld → Nat) (feats : List Nat) : Verdict × DM :=
  let base := clsBase (v CLASS.CTL.BANK)
  if v CLASS.CTL.EN = 0 then
    let (m, y) := readRange x (base + 0x3000) 4 ⟨6, none, none, false⟩
    (⟨0, 0, 0, true, false, attrOf m base 0⟩, y)
  else
    let (m, y) := readRange x base 0x3108 ⟨6, none, none, false⟩
    (decideVec m base feats, y)

/-- Word 16 of a tag (Table 9.4). -/
def classWord (fam : Nat) (r : Verdict) (mark : Bool) : Nat :=
  r.cls + 64 * (fam % 4) + 256 * r.conf + 65536 * r.rule + 2 ^ 24 * b2n r.dflt + 2 ^ 25 * b2n mark + 2 ^ 26 * attrProg r.attr +
    2 ^ 30 * attrSev r.attr

/-- BANK_BUSY ends when no vector of an earlier EPOCH_ID remains (R210). -/
def clsBusy (d : Dev) : Dev :=
  match d.tags.bankEpoch with
  | none => d
  | some e =>
    if (d.tags.vecs.any fun v => v.epoch == e) || d.seg.cur.elim false fun l => l.line.epoch == e then d
    else (d.updTags fun t => { t with bankEpoch := none }).wr CLASS.TBL_STAT.BANK_BUSY 0

/-- CLASSIFY: the next vector is taken and decided. -/
def classify' (x : DM) : DM :=
  match x.1.tags.vecs with
  | [] => x
  | vec :: rest =>
    let d := x.1
    let v := d.cfg vec.epoch
    let (r, y) := verdictOf x v vec.feats
    let w := classWord (vec.feats.getD 28 0) r r.mark
    let d1 := (y.1.updTags fun t => { t with vecs := rest, decided := t.decided ++ [(vec, r)] }).inc SEG.BLOBS_TAGGED.CNT
    let d2 := ((d1.wr CLASS.LAST.CLASS_WORD w).inc CLASS.DECIDED_CNT.CNT)
    let d3 := if r.dflt then d2.inc CLASS.DEFAULT_CNT.CNT else d2
    let d4 := digestNote d3 vec.close vec.blob fun q => (some w, q.2)
    (tailReach (digestSettle (clsBusy (segShow d4))), y.2)

/-! ## Tags (R213, R217, R218) -/

/-- SLICE, PORT and NO_PORT of column floor(CX / 16) under the closing line's set. -/
def tagPlace (v : View) (cx : Int) : Nat × Option Nat :=
  let col := cx / 16
  (sliceOf (colFirst v) col,
   (List.range 16).find? fun p => v (STITCH.CFG.EN p) != 0 && decide ((cover v p).1 ≤ col ∧ col ≤ (cover v p).2))

/-- The tag record, SSEQ zero (Table 9.4). -/
def tagWords (d : Dev) (vec : Vec) (r : Verdict) : List Nat :=
  let v := d.cfg vec.epoch
  let f (k : Nat) : Nat := vec.feats.getD k 0
  let (slice, port) := tagPlace v (toSigned 32 (f 13))
  let pos (p : Int) : Nat := ofSigned 48 p
  [0x140144, 0,
   slice % 2048 + 2048 * port.getD 0 + 32768 * b2n port.isNone + 65536 * d.slot + 2 ^ 19 * b2n vec.taken, vec.blob,
   vec.first % 2 ^ 32, vec.first / 2 ^ 32 % 65536 + 65536 * vec.epoch, vec.close % 2 ^ 32,
   vec.close / 2 ^ 32 % 65536 + 65536 * min 65535 (f 1), pos vec.p0 % 2 ^ 32, pos vec.p0 / 2 ^ 32 + 65536 * min 65535 (f 2),
   pos vec.p1 % 2 ^ 32, pos vec.p1 / 2 ^ 32, ofSigned 32 vec.xl, ofSigned 32 vec.xr, f 13, f 0,
   classWord (f 28) r r.mark, f 22 % 16384,
   min 65535 (f 25) + 65536 * ofSigned 16 (clampI (-32768) 32767 (toSigned 32 (f 27))), d.nowNs % 2 ^ 32]

/-- TAG_FORM: T_FORM is stamped. -/
def tagForm (d : Dev) : Dev :=
  match d.tags.decided with
  | [] => d
  | (vec, r) :: rest =>
    let d1 := d.updTags fun t => { t with decided := rest, formed := t.formed ++ [⟨vec, r, tagWords d vec r, attrHost r.attr, false⟩] }
    let d2 := (d1.inc TAG.TAGS_CNT.CNT).inc (CLASS.CLASS_CNT.CNT r.cls)
    tailReach (if r.mark then d2.inc TAG.MARK_REQ_CNT.CNT else d2)

/-- The feature record of a tag (R214); word 3 waits for the tag's SSEQ. -/
def featureWords (vec : Vec) : List Nat := [0x240156, 0, vec.blob, 0] ++ (List.range 32).map fun k => vec.feats.getD k 0

/-- TAG_HANDOFF: the marker path, then the host path. -/
def tagHandoff (d : Dev) : Dev :=
  match d.tags.formed with
  | [] => d
  | t :: rest =>
    let d := d.updTags fun q => { q with formed := rest }
    let v := d.cfg t.vec.epoch
    let full := t.verdict.mark && decide (64 ≤ d.tags.handOff.length)
    let h : HandOff := ⟨t.vec.blob, t.vec.close, toSigned 32 (t.vec.feats.getD 13 0), t.vec.p0, t.vec.p1,
      attrProg t.verdict.attr, t.taken⟩
    let d1 := if t.verdict.mark && !full then
        let e := d.updTags fun q => { q with handOff := q.handOff ++ [h] }
        e.wr TAG.MQ_DEPTH.N e.tags.handOff.length
      else if full then digestNote ((d.inc TAG.MARK_FULL_CNT.CNT).irq Page.TAG TAG.irq.MARK_FULL) t.vec.close t.vec.blob fun q => (q.1, some 2)
      else d
    let ws := if full then t.words.set 17 (t.words.getD 17 0 + 16384) else t.words
    let uid := d1.tags.uid
    let d2 := if t.host then tagPut d1 0x44 t.vec.blob t.vec.close ws none else d1
    let sent := t.host && d1.on TAG.CTL.HOST_EN
    let d3 := if sent && v TAG.CTL.FEAT_EN != 0 then
        tagPut (d2.inc TAG.FEAT_CNT.CNT) 0x56 t.vec.blob t.vec.close (featureWords t.vec) (some uid) else d2
    let d4 := if full then markResultPut d3 (earlyResult t.vec.blob t.vec.close 6 t.taken) else d3
    let ns := (d4.now - t.vec.ref) / 16
    tailReach (digestSettle (if d4.rd TAG.LAT_MAX.NS < ns then d4.wrSat TAG.LAT_MAX.NS ns else d4))

/-- HQ_MAX_CLEAR and LAT_MAX_CLEAR. -/
def hqMaxClear (d : Dev) : Dev := d.wr TAG.HQ_MAX.N 0
def latMaxClear (d : Dev) : Dev := d.wr TAG.LAT_MAX.NS 0

/-! ## Merge records (R203, R204, R215) -/

/-- The closed pieces in the order of the record. -/
def Group.pieces (g : Group) : List ClosedPiece :=
  sortBy (fun a b => decide (a.piece.first < b.piece.first ∨ (a.piece.first = b.piece.first ∧ a.piece.blob ≤ b.piece.blob))) g.closed

/-- The lines on which linked pieces occupy both sides of the seam. -/
def seamLines (s : Segm) (g : Group) : Nat :=
  ((s.own.filter fun o => g.members.contains o.2.2 &&
    s.upper.any fun u => u.1 == o.1 && u.2.1 == o.2.1 && g.members.contains u.2.2).map fun o => o.1).eraseDups.length

/-- The lower module's COL_FIRST, from which the group's x counts: the least of those its pieces closed under (R204). -/
def Group.origin (g : Group) : Int := g.closed.foldl (fun a p => min a p.first) ((g.closed.head?).elim 0 ClosedPiece.first)

/-- A closed piece's sums about the group's origin: its x counts from its own module's COL_FIRST. -/
def ClosedPiece.sums (p : ClosedPiece) (first : Nat) (origin : Int) : BlobAcc :=
  accShiftX (accShiftY p.piece.acc (p.piece.first - first)) ((p.first - origin).toNat + if p.lower then 0 else p.count)

/-- The combined accumulators, first and last lines, flags, stamps and family (R204). -/
def Group.combine (d : Dev) (g : Group) : BlobAcc × Nat × Nat × Nat × Nat × Int × Int :=
  let ps := g.pieces
  let first := ps.foldl (fun a p => min a p.piece.first) ((ps.head?).elim 0 fun p => p.piece.first)
  let last := ps.foldl (fun a p => max a p.piece.last) 0
  let acc := ps.foldl (fun a p => accAdd a (p.sums first g.origin)) accZero
  let flags := ps.foldl (fun a p => Nat.lor a (clrBit p.piece.flags (if p.lower then 3 else 2))) 0
  let p0 := ps.foldl (fun a p => min a p.piece.p0) ((ps.head?).elim 0 fun p => p.piece.p0)
  let p1 := ps.foldl (fun a p => max a p.piece.p1) ((ps.head?).elim 0 fun p => p.piece.p1)
  ({ acc with per := acc.per - 2 * seamLines d.seg g }, first, last, flags, (ps.head?).elim 0 fun p => p.piece.fam, p0, p1)

/-- The features of a group. -/
def Group.feats (d : Dev) (g : Group) : List Nat :=
  let (acc, first, last, flags, fam, p0, p1) := g.combine d
  features acc first last fam flags g.origin p0 p1

/-- The EPOCH_ID in force when the group was complete; a group cut short by its timeout is judged by the live set. -/
def Group.epoch (g : Group) (d : Dev) : Nat := g.set.getD (d.rd WEB.EPOCH_ID.LIVE_ID)

/-- The tests of R192 over a group. -/
def Group.fails (d : Dev) (g : Group) : Bool :=
  let (acc, _) := g.combine d
  acc.ns == 0 || decide (acc.n < d.cfg (g.epoch d) SEG.MIN_AREA.AREA)

/-- STATUS of the merge record. -/
def Group.status (d : Dev) (g : Group) (part : Bool) : Nat :=
  if g.noGroup then 4
  else if part then 3
  else if g.fails d then 2
  else if g.closed.length = 1 ∧ !g.linked then 1
  else 0

/-- The class word of a group under the set of its completion; MARK_REQ reads 0. -/
def groupVerdict (x : DM) (g : Group) : Nat × DM :=
  let f := g.feats x.1
  let (r, y) := verdictOf x (x.1.cfg (g.epoch x.1)) f
  (classWord (f.getD 28 0) r false, (y.1.inc CLASS.GROUP_CNT.CNT, y.2))

/-- GROUP_CLASSIFY: the oldest complete group not yet classified, unless it is DISCARDED. -/
def groupClassify (x : DM) : DM :=
  let s := x.1.seg
  match s.groups.find? fun g => g.cls.isNone && g.complete s && g.status x.1 false != 2 with
  | none => x
  | some g =>
    let (w, y) := groupVerdict x g
    let put (q : Group) : Group := if q.members == g.members then { q with cls := some w } else q
    (y.1.updSeg fun s => { s with groups := s.groups.map put }, y.2)

/-- The merge record, SSEQ zero (Table 9.5). -/
def mergeWords (d : Dev) (g : Group) (status cls : Nat) : List Nat :=
  let ps := g.pieces
  let n := ps.length
  let (_, first, _, _, _, p0, p1) := g.combine d
  let close := (ps.map fun p => p.piece.close).foldl max 0
  let ids := ps.map fun p => p.piece.blob
  [0x3C014D, 0, d.slot + 16 * status + 256 * min 31 n + 8192 * b2n (decide (16 < n)) + 65536 * g.epoch d, cls,
   first % 2 ^ 32, first / 2 ^ 32 % 65536, close % 2 ^ 32, close / 2 ^ 32 % 65536, ofSigned 48 p0 % 2 ^ 32, ofSigned 48 p0 / 2 ^ 32,
   ofSigned 48 p1 % 2 ^ 32, ofSigned 48 p1 / 2 ^ 32] ++
  (List.range 16).map (fun k => ids.getD k 0xFFFFFFFF) ++ g.feats d

/-- A group leaves as one merge record. -/
def emitMerge (d : Dev) (g : Group) (status cls : Nat) : Dev :=
  let ws := mergeWords d g status cls
  let close := (g.closed.map fun p => p.piece.close).foldl max 0
  let d1 := d.updSeg fun s => { s with groups := s.groups.filter fun q => q.members != g.members }
  let d2 := d1.inc SEG.MERGE_REC_CNT.CNT
  let d3 := if status = 3 then (d2.inc SEG.MERGE_PARTIAL_CNT.CNT).irq Page.SEG SEG.irq.MERGE_PARTIAL
    else if status = 4 then (d2.inc SEG.MERGE_PARTIAL_CNT.CNT).irq Page.SEG SEG.irq.GROUP_FULL
    else d2
  let d4 := if d3.on TAG.CTL.HOST_EN then d3.inc TAG.MERGE_CNT.CNT else d3
  tagPut d4 0x4D ((g.pieces.head?).elim 0 fun p => p.piece.blob) close ws none

/-- MERGE_RECORD: the oldest complete group that is classified, or DISCARDED. -/
def mergeRecord (d : Dev) : Dev :=
  match d.seg.groups.find? fun g => g.complete d.seg && (g.cls.isSome || g.status d false == 2) with
  | none => d
  | some g => emitMerge d g (g.status d false) (if g.status d false = 2 then 0 else g.cls.getD 0)

/-- MERGE_TIMEOUT of the group that holds a piece: a record needed for completion is missing MERGE_TIMEOUT µs (16,000 units of 1/16 ns
each) after the group's last close, every piece of this module in the group having closed. -/
def mergeTimeout (piece : Nat) (x : DM) : DM :=
  match x.1.seg.groups.find? fun g => g.members.contains piece with
  | none => x
  | some g =>
    if g.closed.isEmpty || g.complete x.1.seg || (g.members.any fun i => x.1.seg.blobs.any fun b => b.id == i) ||
        decide (x.1.now < g.lastClose + 16000 * x.1.rd SEG.MERGE_TIMEOUT.US) then x
    else
      let (w, y) := groupVerdict x g
      (emitMerge (y.1.wr SEG.STATUS.HI_RX 0) g 3 w, y.2)

/-! ## The consistency check of a bank (R210) -/

/-- Cause and rule of the first fault of a staged bank. -/
def classCheck (m : Memory) (d : Dev) (v : Fld → Nat) : Option (Nat × Nat) :=
  if v CLASS.CTL.BANK = d.rd CLASS.CTL.BANK then none
  else
    let b := clsBase (v CLASS.CTL.BANK)
    let byte (k : Nat) : Nat := (m.byte (b + k)).toNat
    let zeroRule (n : Nat) : Bool :=
      let o := 48 * n
      byte o < 2 && byte (o + 1) < 16 && byte (o + 2) < 64 && byte (o + 5) < 64 && (List.range 4).all fun i => byte (o + 9 + 10 * i) == 0
    let zeroAttr (c : Nat) : Bool :=
      let a := attrOf m b c
      bitsOf a 2 2 == 0 && bitsOf a 18 14 == 0
    let condBad (n : Nat) : Bool := (readRule m (b + 48 * n)).conds.any fun c => c.en && !leAs c.signed c.lo c.hi
    if crc32 (m.take b 0x3108) ≠ m.u32 (b + 0x3108) then some (1, 0)
    else
      match (List.range 256).find? fun n => !zeroRule n with
      | some n => some (2, n)
      | none =>
        if !((List.range 64).all zeroAttr) || byte 0x3105 ≥ 64 || byte 0x3107 != 0
        then some (2, 0)
        else ((List.range 256).find? condBad).map fun n => (3, n)

/-- The windows that a bank write is refused in (R210): the live bank, and the other while BANK_BUSY is set. -/
def clsWrite (addr : Nat) (word : Word32) (x : DM) : DM :=
  let bank := (addr - 0x06100000) / 0x4000
  if bank = x.1.rd CLASS.CTL.BANK ∨ x.1.on CLASS.TBL_STAT.BANK_BUSY then
    ((x.1.wr CLASS.TBL_STAT.WR_LIVE 1).irq Page.CLASS CLASS.irq.WR_LIVE, x.2)
  else (x.1, x.2.put32 (addr / 4 * 4) word.toNat)

/-- BANK_BUSY at an epoch that changes the bank. -/
def classEpoch (d old : Dev) : Dev :=
  if old.rd CLASS.CTL.BANK = d.rd CLASS.CTL.BANK then d
  else clsBusy ((d.wr CLASS.TBL_STAT.BANK_BUSY 1).updTags fun t => { t with bankEpoch := some (old.rd WEB.EPOCH_ID.LIVE_ID) })

/-! ## Meanings -/

def execClassify (s : State) : Host.Outcome State Fault Refusal := s.onBoth classify'
def execGroupClassify (s : State) : Host.Outcome State Fault Refusal := s.onBoth groupClassify
def execTagForm (s : State) : Host.Outcome State Fault Refusal := s.onDev tagForm
def execTagHandoff (s : State) : Host.Outcome State Fault Refusal := s.onDev tagHandoff
def execHqMaxClear (s : State) : Host.Outcome State Fault Refusal := s.onDev hqMaxClear
def execLatMaxClear (s : State) : Host.Outcome State Fault Refusal := s.onDev latMaxClear
def execMergeRecord (s : State) : Host.Outcome State Fault Refusal := s.onDev mergeRecord
def execMergeTimeout (piece : Nat) (s : State) : Host.Outcome State Fault Refusal := s.onBoth (mergeTimeout piece)

end Sys2Proof.Machine
end

