-- ==== Sys2Proof/Machine/Encoder.lean ====
section
/-! DEFINITION. Encoder inputs and web speed (spec/02_encoder_inputs.md). -/

namespace Sys2Proof.Machine

/-! ## Counting (R35 to R37, R42, R45) -/

/-- The filtered count after a raw count (R36): the new F, whether the declared direction is reverse, and whether this count
declared a reversal. -/
def bandStep (c f : Int) (rev : Bool) : Int × Bool × Bool :=
  if rev then
    if c = f then (f, true, false)
    else if f < c then (c, false, true)
    else (c + 1, true, false)
  else
    if c = f - 1 then (f, false, false)
    else if c < f - 1 then (c + 1, true, true)
    else (c, false, false)

/-- The speed history after `n` filtered counts at an instant (R45), newest first. -/
def speedStep (d : Dev) (ch : Fin 4) (n t : Nat) (fresh : Bool) : Dev :=
  let c := d.enc[ch]
  let win := d.rd (ENC.SPEED_CFG.WIN ch)
  let tmax := 16000 * d.rd (ENC.SPEED_CFG.TMAX ch)
  let h0 := (t, n) :: (if fresh then [] else c.hist)
  let h1 := h0.take (win + 1)
  let rec drop : Nat → List (Nat × Nat) → List (Nat × Nat)
    | 0, h => h
    | k + 1, h =>
      if 2 < h.length ∧ (h.getLast?.elim false fun e => decide (tmax < t - e.1)) then drop k h.dropLast else h
  let h := drop h1.length h1
  let t0 := h.getLast?.elim t Prod.fst
  let sum := (h.dropLast.map Prod.snd).foldl (· + ·) 0
  let ok := decide (2 ≤ h.length) && decide (t0 < t)
  let est := if ok then speedOf (sum * (encScale d ch).natAbs) (t - t0) else c.estMag
  (d.updEnc ch fun c => { c with hist := h, estMag := est, tPrev := c.tLast, tLast := t }).wrB (ENC.CH_STAT.SPEED_VALID ch) ok

/-- One raw count: CNT moves, and a filtered count moves the channel's position, and the web position when the channel
drives it; a trigger that falls due is timed RING_DLY after the count (R21, log entry 123). Answers the device, whether F moved and
whether a reversal was declared. -/
def rawCount (d : Dev) (ch : Fin 4) (step : Int) (t : Nat) : Dev × Bool × Bool :=
  let c := d.enc[ch]
  let c' := c.c + step
  let (f', rev', turned) := bandStep c' c.f c.rev
  let delta := (f' - c.f) * encScale d ch
  let d1 := encShow (d.updEnc ch fun x => { x with c := c', f := f', rev := rev', pos := x.pos + delta }) ch
  if f' = c.f then (d1, false, false)
  else
    let d2 := indexMissing d1 ch
    let driving := drivingCh d2 = ch
    let d3 := if driving then { d2 with gen := { d2.gen with pos := d2.gen.pos + delta } } else d2
    let d4 := if trigSrc d3 = ch then sourceMark d3 else d3
    (if driving then cross (frameLog d4 t) (t + d.rd TRIG.RING_DLY.VAL) else d4, true, turned)

/-- R49, cause 3: the source stands still while the backup has advanced by more than STALL. -/
def stallCheck (d : Dev) (t : Nat) : Dev :=
  let s := trigSrc d
  let b : Fin 4 := Fin.ofNat 4 (d.rd (ENC.FO_CFG.BACKUP s))
  let adv := (d.enc[b].pos - d.gen.chPosAtLast.getD b 0).natAbs
  if d.on (ENC.CH_STAT.STANDSTILL s) && decide (d.rd (ENC.FO_CFG.STALL s) * 2 ^ 24 < adv) then foCause d s 3 t else d

/-- `n` raw counts of one direction at one stamp. -/
def countMany (ch : Fin 4) (step : Int) (t : Nat) : Nat → Dev → Dev
  | 0, d => d
  | k + 1, d => countMany ch step t k (rawCount d ch step t).1

/-- Whether `n` raw counts move F, and whether they declare a reversal (R36). -/
def bandMany (step : Int) : Nat → Int → Int → Bool → Bool × Bool
  | 0, _, _, _ => (false, false)
  | k + 1, c, f, rev =>
    let b := bandStep (c + step) f rev
    let r := bandMany step k (c + step) b.1 b.2.1
    (b.1 != f || r.1, b.2.2 || r.2)

/-- The counts of the channel that drives the web: marker slots fall due at them (R228). -/
def countsDue (d : Dev) (ch : Fin 4) : Dev := if drivingCh d = ch then slotDue d else d

/-- A channel's counts at one stamp. The speed is formed first, so that a latch or a stamp that the counts cause reads it with them
(R44, R45). `n` is 1, or |difference| of an SSI reading. -/
def counts (d : Dev) (ch : Fin 4) (step : Int) (n t : Nat) : Dev :=
  let (moved, turned) := bandMany step n d.enc[ch].c d.enc[ch].f d.enc[ch].rev
  if moved then
    let d1 := speedStep d ch n t (d.on (ENC.CH_STAT.STANDSTILL ch) || turned)
    countsDue (stallCheck (countMany ch step t n (d1.wr (ENC.CH_STAT.STANDSTILL ch) 0)) t) ch
  else countMany ch step t n d

/-! ## Events -/

/-- The mode of a channel. -/
def encMode (d : Dev) (ch : Fin 4) : Nat := d.rd (ENC.CFG.MODE ch)

/-- ENCODER_EDGE (R34, R35): the accepted levels of A and B, counted in Incremental mode; `delay` is how long ago the first sample
at the new level was. -/
def encoderEdge (ch : Fin 4) (a b : Bool) (delay : Nat) (d : Dev) : Dev :=
  let c := d.enc[ch]
  let d1 := d.updEnc ch fun x => { x with a := a, b := b }
  if encMode d ch ≠ 1 then d1
  else
    let t := d.now - delay
    let ea := a != c.a
    let eb := b != c.b
    if ea && eb then
      let d2 := (d1.wr (ENC.CH_STAT.QUAD_ERR ch) 1).inc (ENC.QERR_CNT.VAL ch)
      let d3 := d2.updEnc ch fun x => { x with qerrTimes := t :: x.qerrTimes.filter fun u => decide (t < u + 16000000) }
      if d3.rd (ENC.FO_CFG.QERR_MAX ch) ≤ d3.enc[ch].qerrTimes.length then foCause d3 ch 2 t else d3
    else
      match d.rd (ENC.CFG.DECODE ch) with
      | 0 => if ea && !b then counts d1 ch (if a then 1 else -1) 1 t else d1
      | 1 => if ea then counts d1 ch (if a != b then 1 else -1) 1 t else d1
      | _ => if ea then counts d1 ch (if a != b then 1 else -1) 1 t
             else if eb then counts d1 ch (if a == b then 1 else -1) 1 t else d1

/-- HALL_EDGE (R43): one count in the direction of HALL_DIR; `aux` is the level of the AUX input HALL_IO selects. -/
def hallEdge (ch : Fin 4) (aux : Bool) (delay : Nat) (d : Dev) : Dev :=
  if encMode d ch ≠ 3 then d
  else
    let rev := match d.rd (ENC.CFG.HALL_DIR ch) with
      | 1 => true
      | 2 => aux
      | _ => false
    counts d ch (if rev then -1 else 1) 1 (d.now - delay)

/-- INDEX_GATE (R38). -/
def indexGate (d : Dev) (ch : Fin 4) : Bool :=
  let c := d.enc[ch]
  match d.rd (ENC.CFG.INDEX_GATE ch) with
  | 1 => c.a && c.b
  | 2 => !c.a && !c.b
  | _ => true

/-- The signed difference d of an index event (R38). -/
def indexDiff (corrected phase : Int) (period : Nat) : Int :=
  let r := (corrected - phase) % period
  if r ≤ ((period / 2 : Nat) : Int) then -r else period - r

/-- A correction accepted (R39, R40): the pending one, or one that waits for the end of the present slew. Several that wait are one
correction, their sum (log entry 124). -/
def scheduleCorr (d : Dev) (ch : Fin 4) (x : Int) : Dev :=
  (d.wr (ENC.INDEX_STAT.PENDING ch) 1).updEnc ch fun c =>
    match c.slew with
    | none => { c with slew := some ⟨x, none, 0, 0, 0, 0⟩ }
    | some _ => { c with nextCorr := some (c.nextCorr.getD 0 + x) }

/-- INDEX_EVENT (R38 to R41): the reference index loads OFS; a later one latches d and acts by Table 2.2. -/
def indexEvent (ch : Fin 4) (delay : Nat) (d : Dev) : Dev :=
  if encMode d ch ≠ 1 ∨ indexGate d ch = false then d
  else
    let t := d.now - delay
    let d := if d.rd (ENC.LATCH_CTL.SRC ch) = 1 then latchSet d ch t else d
    let per := d.rd (ENC.INDEX_PERIOD.PERIOD ch)
    if per = 0 then d
    else
      let c := d.enc[ch]
      let phase : Int := d.rd (ENC.INDEX_PHASE.PHASE ch)
      let p := c.pendingCorr
      if c.refDue then
        encShow (d.updEnc ch fun c => { c with ofs := phase - c.f - p, refDue := false, lastIndex := phase }) ch
      else
        let x := indexDiff c.corrected phase per
        let d1 := (d.wrS (ENC.INDEX_ERR.D ch) x).wr (ENC.INDEX_STAT.COUNT ch) (d.rd (ENC.INDEX_STAT.COUNT ch) + 1)
        let d2 := d1.updEnc ch fun c => { c with lastIndex := c.corrected }
        let mode := d.rd (ENC.INDEX_CFG.MODE ch)
        if x = 0 ∨ mode = 0 then d2
        else
          let d3 := d2.wr (ENC.INDEX_STAT.MISMATCH ch) 1
          if mode ≠ 2 then d3
          else if d.rd (ENC.INDEX_CFG.TOL ch) < x.natAbs then d3.wr (ENC.INDEX_STAT.FAULT ch) 1
          else if trigSrc d = ch ∧ d.isPuppeteer = false then d3
          else (scheduleCorr d3 ch x).updEnc ch fun c => { c with lastIndex := c.corrected }

/-- The frame of an SSI reading in 1/16 ns: the edges times the clock period (R42). -/
def ssiFrame (d : Dev) (ch : Fin 4) : Nat :=
  let par := d.rd (ENC.SSI_CFG.PAR ch)
  let edges := d.rd (ENC.SSI_CFG.BITS ch) + (if par = 1 ∨ par = 2 then 2 else 1)
  edges * (160 * (clampN 9 999 (d.rd (ENC.SSI_CFG.CLKDIV ch)) + 1))

/-- SSI_READ_START (R42): the clock line is held high for MONO, then the edges go out; the next reading follows SSI_PERIOD
later, clamped from below to the frame time plus MONO. On a standby the clock is an input (R453). -/
def ssiReadStart (ch : Fin 4) (d : Dev) : Dev :=
  if encMode d ch ≠ 2 ∨ d.isStandby ∨ d.now < d.enc[ch].ssiNext then d
  else
    let par := d.rd (ENC.SSI_CFG.PAR ch)
    let edges := d.rd (ENC.SSI_CFG.BITS ch) + (if par = 1 ∨ par = 2 then 2 else 1)
    let per := max (16 * d.rd (ENC.SSI_PERIOD.PERIOD ch)) (ssiFrame d ch + 16000 * d.rd (ENC.SSI_CFG.MONO ch))
    (d.emit (.ssiClock ch.val edges)).updEnc ch fun c => { c with ssiBusy := true, ssiNext := d.now + per }

/-- Gray code to binary, most significant bit first. -/
def grayToBin : Nat → Nat → Nat
  | 0, v => v
  | k + 1, v => Nat.xor v (grayToBin k (v / 2))

/-- The signed difference of two readings modulo 2^BITS, from −2^(BITS−1) + 1 to 2^(BITS−1). -/
def ssiDiff (bits new old : Nat) : Int :=
  let r : Int := ((new : Int) - old) % ((2 ^ bits : Nat) : Int)
  if r ≤ ((2 ^ (bits - 1) : Nat) : Int) then r else r - ((2 ^ bits : Nat) : Int)

/-- A discarded reading (R42); three in a row are failover cause 4. -/
def ssiDiscard (d : Dev) (ch : Fin 4) (t : Nat) : Dev :=
  let d1 := (d.inc (ENC.SSI_ERR_CNT.VAL ch)).updEnc ch fun c => { c with ssiBad := c.ssiBad + 1 }
  if d1.enc[ch].ssiBad = 3 then foCause d1 ch 4 t else d1

/-- SSI_READING (R42): `raw` is the frame's data, `delay` how long ago its first falling edge was. -/
def ssiReading (ch : Fin 4) (busy : Bool) (raw : Nat) (parityBit : Bool) (delay : Nat) (d : Dev) : Dev :=
  if encMode d ch ≠ 2 then d
  else
    let t := d.now - delay
    let bits := d.rd (ENC.SSI_CFG.BITS ch)
    let v := raw % 2 ^ bits
    let par := d.rd (ENC.SSI_CFG.PAR ch)
    let ones := popCount bits v + b2n parityBit
    let badPar := (par == 1 && ones % 2 != 0) || (par == 2 && ones % 2 != 1)
    let bin := if d.on (ENC.SSI_CFG.GRAY ch) then grayToBin bits v else v
    let d := (d.wr (ENC.SSI_RAW.RAW ch) bin).updEnc ch fun c => { c with ssiBusy := false }
    let c := d.enc[ch]
    if busy || badPar then ssiDiscard d ch t
    else
      let taken := d.updEnc ch fun c => { c with ssiPrev := some bin, ssiBad := 0 }
      if 3 ≤ c.ssiBad then taken.wr (ENC.CH_STAT.SSI_RESYNC ch) 1
      else
        match c.ssiPrev with
        | none => taken
        | some old =>
          let x := ssiDiff bits bin old
          if d.rd (ENC.SSI_MAXSTEP.MAXSTEP ch) < x.natAbs then ssiDiscard d ch t
          else if x = 0 then taken else counts taken ch (if x < 0 then -1 else 1) x.natAbs t

/-- SSI_CLOCK_EDGE_RECEIVED (R453): on a standby that shares an SSI encoder the first received falling edge starts and stamps
a reading of the frame the active clocks. -/
def ssiClockEdge (ch : Fin 4) (d : Dev) : Dev :=
  if encMode d ch ≠ 2 ∨ d.isStandby = false then d
  else d.updEnc ch fun c => { c with ssiBusy := true, ssiNext := d.now }

/-- LATCH_EVENT (R44): an AUX input edge; `src` 8 to 15 is AUX input 0 to 7. -/
def latchEvent (ch : Fin 4) (src : Nat) (rising : Bool) (delay : Nat) (d : Dev) : Dev :=
  let edgeOk : Bool := match d.rd (ENC.LATCH_CTL.EDGE ch) with
    | 1 => !rising
    | 2 => true
    | _ => rising
  if 8 ≤ src ∧ src ≤ 15 ∧ d.rd (ENC.LATCH_CTL.SRC ch) = src ∧ edgeOk then latchSet d ch (d.now - delay) else d

/-- LATCH_SW. -/
def latchSw (ch : Fin 4) (d : Dev) : Dev := if d.rd (ENC.LATCH_CTL.SRC ch) = 2 then latchSet d ch d.now else d

/-- STANDSTILL (R46): no filtered count for STANDSTILL_TIME µs. -/
def standstill (ch : Fin 4) (d : Dev) : Dev :=
  if d.now < d.enc[ch].tLast + 16000 * d.rd (ENC.STANDSTILL_TIME.TIME ch) then d else
  let d1 := (d.wr (ENC.CH_STAT.STANDSTILL ch) 1).wr (ENC.CH_STAT.SPEED_VALID ch) 0
  if trigSrc d1 = ch then stallCheck d1 d1.now else d1

/-- ENCODER_LOS (R49): line 0 A, 1 B, 2 Z; a Hall channel has no loss-of-signal detection. -/
def encoderLos (ch : Fin 4) (ln : Fin 3) (lost : Bool) (d : Dev) : Dev :=
  if encMode d ch = 0 ∨ encMode d ch = 3 then d
  else
    let d1 := d.wr (ENC.CH_STAT.LOS ch) (putBit (d.rd (ENC.CH_STAT.LOS ch)) ln lost)
    if lost ∧ ln.val < 2 then foCause d1 ch 1 d1.now else d1

/-- FO_DISAGREE_CHECK (R49): over every FO_TOL.WIN lines the advances of source and backup are compared, whether or not failover is
enabled. -/
def foDisagreeCheck (d : Dev) : Dev :=
  let s := trigSrc d
  if d.gen.nextWln < d.gen.foWlnBase + d.rd (ENC.FO_TOL.WIN s) then d
  else
    let b : Fin 4 := Fin.ofNat 4 (d.rd (ENC.FO_CFG.BACKUP s))
    let diff := ((d.enc[s].pos - d.gen.foSrcBase) - (d.enc[b].pos - d.gen.foBkBase)).natAbs
    foRebase (if d.rd (ENC.FO_TOL.TOL s) * 2 ^ 24 < diff then d.wr (ENC.FO_STAT.DISAGREE s) 1 else d)

/-! ## Meanings -/

def execEncoderEdge (ch : Fin 4) (a b : Bool) (delay : Nat) (s : State) : Host.Outcome State Fault Refusal :=
  s.onDev (unlessDormant (encoderEdge ch a b delay))
def execIndexEvent (ch : Fin 4) (delay : Nat) (s : State) : Host.Outcome State Fault Refusal := s.onDev (unlessDormant (indexEvent ch delay))
def execSsiReadStart (ch : Fin 4) (s : State) : Host.Outcome State Fault Refusal := s.onDev (unlessDormant (ssiReadStart ch))
def execSsiReading (ch : Fin 4) (busy : Bool) (raw : Nat) (parityBit : Bool) (delay : Nat) (s : State) :
    Host.Outcome State Fault Refusal := s.onDev (unlessDormant (ssiReading ch busy raw parityBit delay))
def execSsiClockEdgeReceived (ch : Fin 4) (s : State) : Host.Outcome State Fault Refusal := s.onDev (unlessDormant (ssiClockEdge ch))
def execHallEdge (ch : Fin 4) (aux : Bool) (delay : Nat) (s : State) : Host.Outcome State Fault Refusal :=
  s.onDev (unlessDormant (hallEdge ch aux delay))
def execLatchEvent (ch : Fin 4) (src : Nat) (rising : Bool) (delay : Nat) (s : State) : Host.Outcome State Fault Refusal :=
  s.onDev (unlessDormant (latchEvent ch src rising delay))
def execLatchSw (ch : Fin 4) (s : State) : Host.Outcome State Fault Refusal := s.onDev (latchSw ch)
/-- L_SPEED_READ (R44): reading L_SPEED clears VALID. -/
def execLSpeedRead (ch : Fin 4) (s : State) : Host.Outcome State Fault Refusal :=
  s.onDev fun d => d.wr (ENC.LATCH_STAT.VALID ch) 0
def execStandstill (ch : Fin 4) (s : State) : Host.Outcome State Fault Refusal := s.onDev (unlessDormant (standstill ch))
def execEncoderLos (ch : Fin 4) (line : Fin 3) (lost : Bool) (s : State) : Host.Outcome State Fault Refusal :=
  s.onDev (unlessDormant (encoderLos ch line lost))
def execFoDisagreeCheck (s : State) : Host.Outcome State Fault Refusal := s.onDev foDisagreeCheck

end Sys2Proof.Machine
end

