-- ==== Sys2Proof/Machine/Frb.lean ====
section
/-! DEFINITION. What an engine codes (R252, R257 to R260): packing, FRB coding and decoding, Adler-32, and the wrappers of a
DEFLATE stream. -/

namespace Sys2Proof.Machine

/-- Fields (value, width) packed least significant bit first into whole bytes, zero bits at the end (R252). -/
def packFields : List (Nat × Nat) → Nat → Nat → List Byte
  | [], acc, nb => leBytes ((nb + 7) / 8) acc
  | (v, w) :: rest, acc, nb =>
    let a := acc + v % 2 ^ w * 2 ^ nb
    let t := nb + w
    leBytes (t / 8) a ++ packFields rest (a / 2 ^ (8 * (t / 8))) (t % 8)

/-- Values of one width packed. -/
def packVals (w : Nat) (vs : List Nat) : List Byte := packFields (vs.map fun v => (v, w)) 0 0

/-! ## FRB (R258 to R260) -/

/-- The divisor RATIO names. -/
def frbDiv (ratio : Nat) : Nat := ratio % 3 + 2

/-- Group size, base width and extra count of BITS and RATIO (R258). -/
def frbG (bits ratio : Nat) : Nat := 16 * bits / frbDiv ratio
def frbN (bits ratio : Nat) : Nat := (frbG bits ratio - 6) / 16
def frbX (bits ratio : Nat) : Nat := frbG bits ratio - 6 - 16 * frbN bits ratio

/-- The width of residual i. -/
def frbWidth (bits ratio i : Nat) : Nat := if i < frbX bits ratio then frbN bits ratio + 1 else frbN bits ratio

/-- pred(mode, i) of R259: `l` the value to the left (none at stripe column 0), `u` the one above. -/
def frbPred (bits mode : Nat) (l : Option Int) (u : Int) : Int :=
  match mode, l with
  | 0, none => ((2 ^ (bits - 1) : Nat) : Int)
  | 0, some l => l
  | 1, _ => u
  | _, none => u
  | _, some l => sar (l + u) 1

/-- The reconstruction of a value. -/
def frbRecon (bits k : Nat) (p q : Int) : Int := clampI 0 (((2 ^ bits : Nat) : Int) - 1) (p + q * ((2 ^ k : Nat) : Int))

/-- The residuals of a group in its order, with the reconstructed values; none where a residual does not fit. `i` is the
index of the next value. -/
def frbCode (bits ratio mode k : Nat) : List (Int × Int) → Nat → Option Int → Option (List Int × List Int)
  | [], _, _ => some ([], [])
  | (x, u) :: rest, i, l =>
    let p := frbPred bits mode l u
    let h : Int := if k = 0 then 0 else ((2 ^ (k - 1) : Nat) : Int)
    let q := sar (x - p + h) k
    let w := frbWidth bits ratio i
    let lim : Int := ((2 ^ (w - 1) : Nat) : Int)
    if q < -lim ∨ lim ≤ q then none
    else
      let r := frbRecon bits k p q
      match frbCode bits ratio mode k rest (i + 1) (some r) with
      | some (qs, xs) => some (q :: qs, r :: xs)
      | none => none

/-- The mode and k of a group: the smallest k for which a coding fits, then the lowest mode; modes 1 and 2 not on a chunk's
first line. -/
def frbChoose (bits ratio : Nat) (first : Bool) (xs : List (Int × Int)) (l : Option Int) :
    Option (Nat × Nat × List Int × List Int) :=
  (List.range (min 15 bits + 1)).findSome? fun k =>
    (if first then [0] else [0, 1, 2]).findSome? fun mode =>
      (frbCode bits ratio mode k xs 0 l).map fun r => (mode, k, r.1, r.2)

/-- The groups of one line: packed fields and reconstructed values. -/
def frbGroups (bits ratio : Nat) (first : Bool) : List (List (Int × Int)) → Option Int → List (Nat × Nat) × List Int
  | [], _ => ([], [])
  | g :: rest, l =>
    let (mode, k, qs, xs) := (frbChoose bits ratio first g l).getD (0, min 15 bits, List.replicate 16 0, g.map Prod.fst)
    let fields := (mode, 2) :: (k, 4) :: (qs.zipIdx.map fun q => (ofSigned (frbWidth bits ratio q.2) q.1, frbWidth bits ratio q.2))
    let (fs, ys) := frbGroups bits ratio first rest xs.getLast?
    (fields ++ fs, xs ++ ys)

/-- A list cut into pieces of 16; `fuel` bounds their number. -/
def chunks16 {α : Type} : Nat → List α → List (List α)
  | 0, _ => []
  | fuel + 1, xs => if xs.isEmpty then [] else xs.take 16 :: chunks16 fuel (xs.drop 16)

/-- The values of a line with the columns beyond the stripe's width filled (R258). -/
def frbPad (vs : List Nat) : List Int :=
  let n := vs.length
  let last := vs.getLastD 0
  (vs.map fun (v : Nat) => (v : Int)) ++ List.replicate ((n + 15) / 16 * 16 - n) (last : Int)

/-- One line coded: its bytes and its reconstructed values, `up` those of the line above. -/
def frbLine (bits ratio : Nat) (vs : List Nat) (up : Option (List Int)) : List Byte × List Int :=
  let xs := frbPad vs
  let us := up.getD (xs.map fun _ => 0)
  let (fs, ys) := frbGroups bits ratio up.isNone (chunks16 xs.length (xs.zip us)) none
  (packFields fs 0 0, ys)

/-- Bytes of one line's groups of `w` columns, and of its state plane. -/
def frbLineLen (bits ratio w : Nat) : Nat := ((w + 15) / 16 * frbG bits ratio + 7) / 8
def planeLen (withStates : Bool) (w : Nat) : Nat := if withStates then (w + 3) / 4 else 0

/-- S_F of R260. -/
def frbSize (bits ratio w lines : Nat) (withStates : Bool) : Nat :=
  lines * (16 + frbLineLen bits ratio w + planeLen withStates w) + 4

/-! ## Check values and wrappers (R257) -/

/-- One byte into Adler-32's two sums. -/
def adlerStep (s : Nat × Nat) (b : Byte) : Nat × Nat := let a := (s.1 + b.toNat) % 65521; (a, (s.2 + a) % 65521)

/-- Adler-32 of a byte string. -/
def adler32 (bs : List Byte) : Nat := let s := bs.foldl adlerStep (1, 0); s.2 * 65536 + s.1

/-- Four bytes, most significant first. -/
def beBytes4 (v : Nat) : List Byte := (leBytes 4 v).reverse

/-- The header of a wrapper. -/
def wrapHead (wrap level : Nat) : List Byte :=
  match wrap with
  | 1 => [0x78, ([0x01, 0x5E, 0x9C, 0xDA] : List Byte).getD (level - 1) 0x01]
  | 2 => [0x1F, 0x8B, 0x08, 0, 0, 0, 0, 0, if level = 1 then 4 else if level = 4 then 2 else 0, 0xFF]
  | _ => []

/-- The trailer of a wrapper over the check values and the length of the uncompressed data. -/
def wrapTail (wrap adler crc len : Nat) : List Byte :=
  match wrap with
  | 1 => beBytes4 adler
  | 2 => leBytes 4 crc ++ leBytes 4 len
  | _ => []

end Sys2Proof.Machine
end

