-- ==== Sys2Proof/Machine/Inflate.lean ====
section
/-! DEFINITION. The decoders of R271: DEFLATE with its wrappers and FRB, the errors of Table 11.5 and where they stand. -/

namespace Sys2Proof.Machine

/-- A decoder: input bytes, the next bit, the output so far, and the most it may put out, with the code that says why. -/
structure Inf where
  inp : Array Byte
  pos : Nat
  out : Array Byte
  cap : Nat
  capErr : Nat

/-- How a decoder stops: the code of Table 11.5 with the decoder where it stopped. -/
abbrev InfE := Nat × Inf

def Inf.fail {α : Type} (s : Inf) (code : Nat) : Except InfE (α × Inf) := .error (code, s)

/-- The stop for an output that runs past its chain; no code of Table 11.5. -/
def infFull : Nat := 256

/-- `n` bits, the first read the least significant. -/
def Inf.bits (s : Inf) (n : Nat) : Except InfE (Nat × Inf) :=
  if 8 * s.inp.size < s.pos + n then s.fail 12
  else
    let v := (List.range n).foldl (fun a k =>
      if bitOf ((s.inp.getD ((s.pos + k) / 8) 0).toNat) ((s.pos + k) % 8) then a + 2 ^ k else a) 0
    .ok (v, { s with pos := s.pos + n })

/-- The position at the next whole byte. -/
def Inf.align (s : Inf) : Inf := { s with pos := (s.pos + 7) / 8 * 8 }

/-- One byte put out. -/
def Inf.put (s : Inf) (b : Byte) : Except InfE (Unit × Inf) :=
  if s.cap ≤ s.out.size then s.fail s.capErr else .ok ((), { s with out := s.out.push b })

/-- Bytes copied from the input. -/
def Inf.copyIn : Nat → Inf → Except InfE (Unit × Inf)
  | 0, s => .ok ((), s)
  | n + 1, s => do
    let (b, s) ← s.bits 8
    let (_, s) ← s.put (BitVec.ofNat 8 b)
    Inf.copyIn n s

/-- Bytes copied from the output `dist` back. -/
def Inf.copyBack (dist : Nat) : Nat → Inf → Except InfE (Unit × Inf)
  | 0, s => .ok ((), s)
  | n + 1, s => do
    let (_, s) ← s.put (s.out.getD (s.out.size - dist) 0)
    Inf.copyBack dist n s

/-- How many codes have each length 1 to 15. -/
def huffCount (ls : List Nat) (k : Nat) : Nat := ls.countP fun l => l == k

/-- Codes left over by a set of lengths (the Kraft sum): negative when over-subscribed, positive when incomplete. -/
def huffLeft (ls : List Nat) : Int :=
  (List.range 15).foldl (fun a k => 2 * a - huffCount ls (k + 1)) 1

/-- A canonical code ready for decoding: per length 1 to 15 the count, and the symbols in code order. -/
structure Huff where
  counts : List Nat
  syms : Array Nat

def mkHuff (ls : List Nat) : Huff where
  counts := (List.range 15).map fun k => huffCount ls (k + 1)
  syms := ((List.range 15).flatMap fun k => (ls.zipIdx.filter fun p => p.1 == k + 1).map Prod.snd).toArray

/-- One symbol; a bit string that is no code is a SYMBOL error (DESIGN CHOICE, log entry 41). -/
def Inf.symGo (h : Huff) : List Nat → Nat → Nat → Nat → Inf → Except InfE (Nat × Inf)
  | [], _, _, _, s => s.fail 10
  | c :: rest, code, first, index, s => do
    let (b, s) ← s.bits 1
    let code := 2 * code + b
    let first := 2 * first
    if code < first + c then return (h.syms.getD (index + (code - first)) 0, s)
    else Inf.symGo h rest code (first + c) (index + c) s

def Inf.sym (s : Inf) (h : Huff) : Except InfE (Nat × Inf) := Inf.symGo h h.counts 0 0 0 s

/-- Base and extra bits of length symbols 257 to 285 and of distance symbols 0 to 29 (RFC 1951). -/
def lenBase : List Nat :=
  [3, 4, 5, 6, 7, 8, 9, 10, 11, 13, 15, 17, 19, 23, 27, 31, 35, 43, 51, 59, 67, 83, 99, 115, 131, 163, 195, 227, 258]
def lenExtra : List Nat := [0, 0, 0, 0, 0, 0, 0, 0, 1, 1, 1, 1, 2, 2, 2, 2, 3, 3, 3, 3, 4, 4, 4, 4, 5, 5, 5, 5, 0]
def distBase : List Nat :=
  [1, 2, 3, 4, 5, 7, 9, 13, 17, 25, 33, 49, 65, 97, 129, 193, 257, 385, 513, 769, 1025, 1537, 2049, 3073, 4097, 6145, 8193,
   12289, 16385, 24577]
def distExtra : List Nat :=
  [0, 0, 0, 0, 1, 1, 2, 2, 3, 3, 4, 4, 5, 5, 6, 6, 7, 7, 8, 8, 9, 9, 10, 10, 11, 11, 12, 12, 13, 13]

/-- The symbols of a block up to its end. -/
def Inf.codes (ll dd : Huff) : Nat → Inf → Except InfE (Unit × Inf)
  | 0, s => s.fail 12
  | fuel + 1, s => do
    let (y, s) ← s.sym ll
    if y < 256 then
      let (_, s) ← s.put (BitVec.ofNat 8 y)
      Inf.codes ll dd fuel s
    else if y = 256 then return ((), s)
    else if 285 < y then s.fail 10
    else
      let (e, s) ← s.bits (lenExtra.getD (y - 257) 0)
      let len := lenBase.getD (y - 257) 0 + e
      let (z, s) ← s.sym dd
      if 29 < z then s.fail 10
      else
        let (e, s) ← s.bits (distExtra.getD z 0)
        let dist := distBase.getD z 0 + e
        if s.out.size < dist then s.fail 11
        else
          let (_, s) ← Inf.copyBack dist len s
          Inf.codes ll dd fuel s

/-- The code lengths of a dynamic block: `total` of them by the code-length code. -/
def Inf.lengths (cl : Huff) (total : Nat) : Nat → List Nat → Inf → Except InfE ((List Nat) × Inf)
  | 0, _, s => s.fail 12
  | fuel + 1, ls, s =>
    if total ≤ ls.length then return (ls, s)
    else do
      let (y, s) ← s.sym cl
      if y < 16 then Inf.lengths cl total fuel (ls ++ [y]) s
      else if y = 16 ∧ ls.isEmpty then s.fail 7
      else
        let (e, s) ← s.bits (if y = 16 then 2 else if y = 17 then 3 else 7)
        let n := e + (if y = 18 then 11 else 3)
        if total < ls.length + n then s.fail 8
        else Inf.lengths cl total fuel (ls ++ List.replicate n (if y = 16 then ls.getLastD 0 else 0)) s

/-- The order of the code-length code's lengths. -/
def clOrder : List Nat := [16, 17, 18, 0, 8, 7, 9, 6, 10, 5, 11, 4, 12, 3, 13, 2, 14, 1, 15]

/-- `n` three-bit lengths. -/
def Inf.clLens : Nat → Inf → Except InfE ((List Nat) × Inf)
  | 0, s => .ok ([], s)
  | n + 1, s => do
    let (v, s) ← s.bits 3
    let (r, s) ← Inf.clLens n s
    return (v :: r, s)

/-- The two codes of a dynamic block. -/
def Inf.dynamic (s : Inf) : Except InfE ((Huff × Huff) × Inf) := do
  let (hl, s) ← s.bits 5
  let (hd, s) ← s.bits 5
  let (hc, s) ← s.bits 4
  if 286 < hl + 257 ∨ 30 < hd + 1 then s.fail 3
  else
    let (cs, s) ← Inf.clLens (hc + 4) s
    let cl := (List.range 19).map fun k => ((clOrder.zip cs).find? fun p => p.1 == k).elim 0 Prod.snd
    if huffLeft cl ≠ 0 then s.fail 4
    else
      let (ls, s) ← Inf.lengths (mkHuff cl) (hl + 257 + hd + 1) 400 [] s
      let ll := ls.take (hl + 257)
      let dl := ls.drop (hl + 257)
      if huffLeft ll ≠ 0 then s.fail 5
      else if huffLeft dl < 0 ∨ (0 < huffLeft dl ∧ (dl.filter fun l => l != 0) ≠ [1]) then s.fail 6
      else if ll.getD 256 0 = 0 then s.fail 9
      else return ((mkHuff ll, mkHuff dl), s)

/-- The fixed codes. -/
def fixedLL : List Nat := List.replicate 144 8 ++ List.replicate 112 9 ++ List.replicate 24 7 ++ List.replicate 8 8
def fixedDist : List Nat := List.replicate 32 5

/-- Blocks up to the final one. -/
def Inf.blocks : Nat → Inf → Except InfE (Unit × Inf)
  | 0, s => s.fail 12
  | fuel + 1, s => do
    let (fin, s) ← s.bits 1
    let (ty, s) ← s.bits 2
    let (_, s) ←
      if ty = 0 then do
        let (n, s) ← s.align.bits 16
        let (c, s) ← s.bits 16
        if n + c ≠ 65535 then s.fail 2 else Inf.copyIn n s
      else if ty = 1 then Inf.codes (mkHuff fixedLL) (mkHuff fixedDist) (8 * s.inp.size + 1) s
      else if ty = 2 then do
        let (h, s) ← s.dynamic
        Inf.codes h.1 h.2 (8 * s.inp.size + 1) s
      else s.fail 1
    if fin = 1 then return ((), s) else Inf.blocks fuel s

/-- A zero-terminated field of a gzip header. -/
def Inf.zstr : Nat → Inf → Except InfE (Unit × Inf)
  | 0, s => s.fail 12
  | fuel + 1, s => do
    let (b, s) ← s.bits 8
    if b = 0 then return ((), s) else Inf.zstr fuel s

/-- The optional extra field of a gzip header. -/
def Inf.gzipExtra (on : Bool) (s : Inf) : Except InfE (Nat × Inf) :=
  if on then do
    let (n, s) ← s.bits 16
    s.bits (8 * n)
  else return (0, s)

/-- An optional zero-terminated field. -/
def Inf.gzipStr (on : Bool) (s : Inf) : Except InfE (Unit × Inf) := if on then Inf.zstr (s.inp.size + 1) s else return ((), s)

/-- The gzip header. -/
def Inf.gzipHead (s : Inf) : Except InfE (Unit × Inf) := do
  let (id, s) ← s.bits 16
  let (cm, s) ← s.bits 8
  let (flg, s) ← s.bits 8
  if id ≠ 0x8B1F ∨ cm ≠ 8 ∨ 32 ≤ flg then s.fail 16
  else
    let (_, s) ← s.bits 48
    let (_, s) ← s.gzipExtra (bitOf flg 2)
    let (_, s) ← s.gzipStr (bitOf flg 3)
    let (_, s) ← s.gzipStr (bitOf flg 4)
    if bitOf flg 1 then
      let want := crc32 (s.inp.toList.take (s.pos / 8)) % 65536
      let (c, s) ← s.bits 16
      if c = want then return ((), s) else s.fail 16
    else return ((), s)

/-- The zlib header. -/
def Inf.zlibHead (s : Inf) : Except InfE (Unit × Inf) := do
  let (cmf, s) ← s.bits 8
  let (flg, s) ← s.bits 8
  if cmf % 16 ≠ 8 ∨ 7 < cmf / 16 ∨ bitOf flg 5 ∨ (256 * cmf + flg) % 31 ≠ 0 then s.fail 14 else return ((), s)

/-- The trailer of a wrapper. -/
def Inf.trailer (wrap : Nat) (s : Inf) : Except InfE (Unit × Inf) :=
  let out := s.out.toList
  if wrap = 1 then do
    let (a, s) ← s.bits 32
    if leBytes 4 a ≠ beBytes4 (adler32 out) then s.fail 15 else return ((), s)
  else if wrap = 2 then do
    let (c, s) ← s.bits 32
    let (n, s) ← s.bits 32
    if c ≠ crc32 out ∨ n ≠ out.length % 2 ^ 32 then s.fail 18 else return ((), s)
  else return ((), s)

/-- A member with its wrapper, to the end of the input. -/
def Inf.member (wrap : Nat) (s : Inf) : Except InfE (Unit × Inf) := do
  let (_, s) ← if wrap = 1 then s.zlibHead else if wrap = 2 then s.gzipHead else pure ((), s)
  let (_, s) ← Inf.blocks (8 * s.inp.size + 1) s
  let (_, s) ← Inf.trailer wrap s.align
  if s.pos < 8 * s.inp.size then s.fail 13 else return ((), s)

/-- What a decoder answers: its output, the code and byte offset of an error, and the input bytes it has consumed. -/
structure Decoded where
  out : List Byte
  err : Option (Nat × Nat)
  used : Nat
  deriving DecidableEq, Repr

def toDecoded : Except InfE (Unit × Inf) → Decoded
  | .ok (_, s) => ⟨s.out.toList, none, (s.pos + 7) / 8⟩
  | .error (c, s) => ⟨s.out.toList, some (c, s.pos / 8), (s.pos + 7) / 8⟩

/-- A DEFLATE stream decoded: at most `cap` bytes into the chain and, when not 0, `limit` bytes. -/
def inflate (wrap limit cap : Nat) (src : List Byte) : Decoded :=
  let (c, e) := if limit ≠ 0 ∧ limit ≤ cap then (limit, 17) else (cap, infFull)
  toDecoded (Inf.member wrap ⟨src.toArray, 0, #[], c, e⟩)

/-! ## FRB decoding -/

/-- The residuals of a group read and reconstructed; `i` the index of the next. -/
def Inf.frbGo (bits ratio mode k : Nat) : List Int → Nat → Option Int → Inf → Except InfE ((List Int) × Inf)
  | [], _, _, s => .ok ([], s)
  | u :: us, i, l, s => do
    let w := frbWidth bits ratio i
    let (v, s) ← s.bits w
    let r := frbRecon bits k (frbPred bits mode l u) (toSigned w v)
    let (rs, s) ← Inf.frbGo bits ratio mode k us (i + 1) (some r) s
    return (r :: rs, s)

/-- The groups of one line. -/
def Inf.frbLine (bits ratio : Nat) (first : Bool) : List (List Int) → Option Int → Inf → Except InfE ((List Int) × Inf)
  | [], _, s => .ok ([], s)
  | us :: rest, l, s => do
    let s0 := s
    let (mode, s) ← s.bits 2
    let (k, s) ← s.bits 4
    if mode = 3 ∨ (first ∧ mode ≠ 0) then s0.fail 20
    else if bits < k then s0.fail 21
    else
      let (rs, s) ← Inf.frbGo bits ratio mode k us 0 l s
      let (more, s) ← Inf.frbLine bits ratio first rest rs.getLast? s
      return (rs ++ more, s)

/-- `n` bytes of the input. -/
def Inf.bytes : Nat → Inf → Except InfE ((List Byte) × Inf)
  | 0, s => .ok ([], s)
  | n + 1, s => do
    let (b, s) ← s.bits 8
    let (r, s) ← Inf.bytes n s
    return (BitVec.ofNat 8 b :: r, s)

/-- Bytes put out. -/
def Inf.putAll : List Byte → Inf → Except InfE (Unit × Inf)
  | [], s => .ok ((), s)
  | b :: bs, s => do
    let (_, s) ← s.put b
    Inf.putAll bs s

/-- The lines of a record: each put out as its raw line (R252). -/
def Inf.frbLines (bits ratio w : Nat) (withStates : Bool) : Nat → Option (List Int) → Inf → Except InfE (Unit × Inf)
  | 0, _, s => .ok ((), s)
  | n + 1, up, s => do
    let (pre, s) ← Inf.bytes 16 s
    let us := up.getD (List.replicate ((w + 15) / 16 * 16) 0)
    let (xs, s) ← Inf.frbLine bits ratio up.isNone (chunks16 us.length us) none s
    let (plane, s) ← Inf.bytes (planeLen withStates w) s.align
    let (_, s) ← Inf.putAll (pre ++ packVals bits ((xs.take w).map Int.toNat) ++ plane) s
    Inf.frbLines bits ratio w withStates n (some xs) s

/-- Bytes of one raw line (R252). -/
def rawLineLen (bits w : Nat) (withStates : Bool) : Nat := 16 + (w * bits + 7) / 8 + planeLen withStates w

/-- An archive record decoded: its header checked against R260, its lines, its CRC. -/
def Inf.frbRecord (s : Inf) : Except InfE (Unit × Inf) :=
  let word (k : Nat) : Nat := ofLeBytes ((List.range 4).map fun j => s.inp.getD (4 * k + j) 0)
  let w0 := word 0
  let lines := bitsOf (word 5) 16 7
  let bits := bitsOf (word 5) 24 5
  let w := bitsOf (word 7) 0 14
  let ratio := bitsOf (word 7) 16 2
  let st := bitOf (word 7) 18
  let good := decide (32 ≤ s.inp.size ∧ w0 % 65536 = 0x0141 ∧ bitsOf w0 19 2 = 1 ∧ 8 ≤ bits ∧ bits ≤ 16 ∧ ratio < 3 ∧
    2 ≤ frbN bits ratio ∧ 1 ≤ w ∧ w ≤ 8192 ∧ 1 ≤ lines ∧ lines ≤ 64 ∧ word 1 = frbSize bits ratio w lines st ∧
    word 2 = lines * rawLineLen bits w st ∧ s.inp.size = 32 + word 1)
  if !good then s.fail 19
  else do
    let (_, s) ← Inf.frbLines bits ratio w st lines none { s with pos := 256 }
    let want := crc32 ((s.inp.toList.drop 32).take (s.pos / 8 - 32))
    let s0 := s
    let (c, s) ← s.bits 32
    if c = want then return ((), s) else s0.fail 21

/-- An FRB archive record decoded into at most `cap` bytes. -/
def frbDecode (cap : Nat) (src : List Byte) : Decoded := toDecoded (Inf.frbRecord ⟨src.toArray, 0, #[], cap, infFull⟩)

end Sys2Proof.Machine
end

