-- ==== Sys2Proof/Machine/Deflate.lean ====
section
/-! DEFINITION. The DEFLATE encoder (R256, R257, R269): the engine's own choice of matches and codes held to the limits of
R256, the blocks, and the check of a result by the decoder of R271. -/

namespace Sys2Proof.Machine

/-- A symbol of a block: (0, byte) a literal, (length, distance) a match. -/
abbrev DSym := Nat × Nat

/-! ## Matching -/

/-- A match within the limits of R256: 3 to 258 bytes, at most 32,768 back and not before the start, equal bytes, and within
the first 4^LEVEL places of the chain of its 3-byte prefix (DEDUCED: every earlier place is in the chain; log entry 4). -/
def matchOk (level : Nat) (before ahead : List Byte) (y : DSym) : Bool :=
  let n := before.length
  let all := before ++ ahead
  let nearer := (List.range (y.2 - 1)).countP fun k => (all.drop (n - 1 - k)).take 3 == ahead.take 3
  decide (3 ≤ y.1 ∧ y.1 ≤ 258 ∧ 1 ≤ y.2 ∧ y.2 ≤ 32768 ∧ y.2 ≤ n ∧ y.1 ≤ ahead.length ∧ nearer < 4 ^ level) &&
    (all.drop (n - y.2)).take y.1 == ahead.take y.1

/-- The symbol at a place: the engine's match, seen over the next 259 bytes, or the literal. -/
def symAt (level : Nat) (before ahead : List Byte) : DSym :=
  let y := Config.deflateMatch level before (ahead.take 259)
  if matchOk level before ahead y then y else (0, (ahead.headD 0).toNat)

/-- Bytes a symbol stands for. -/
def DSym.span (y : DSym) : Nat := max 1 y.1

/-- The symbols of the bytes ahead; `fuel` bounds their number. -/
def symsOf (level : Nat) : Nat → List Byte → List Byte → List DSym
  | 0, _, _ => []
  | fuel + 1, before, ahead =>
    if ahead.isEmpty then []
    else
      let y := symAt level before ahead
      y :: symsOf level fuel (before ++ ahead.take (DSym.span y)) (ahead.drop (DSym.span y))

/-! ## Codes -/

/-- A canonical code word (RFC 1951) as a field sent most significant bit first. -/
def huffField (ls : List Nat) (sym : Nat) : Nat × Nat :=
  let w := ls.getD sym 0
  let first := (List.range w).foldl (fun c k => 2 * (c + if k = 0 then 0 else huffCount ls k)) 0
  let code := first + (ls.take sym).countP fun l => l == w
  ((List.range w).foldl (fun r k => 2 * r + code / 2 ^ k % 2) 0, w)

/-- The last index of a table of bases that a value reaches. -/
def baseIdx (bases : List Nat) (v : Nat) : Nat := (bases.countP fun b => decide (b ≤ v)) - 1

/-- The fields of a symbol. -/
def symFields (ll dd : List Nat) (y : DSym) : List (Nat × Nat) :=
  if y.1 = 0 then [huffField ll y.2]
  else
    let i := baseIdx lenBase y.1
    let j := baseIdx distBase y.2
    [huffField ll (257 + i), (y.1 - lenBase.getD i 0, lenExtra.getD i 0), huffField dd j, (y.2 - distBase.getD j 0, distExtra.getD j 0)]

/-- The symbols of a block and its end. -/
def bodyFields (ll dd : List Nat) (ys : List DSym) : List (Nat × Nat) := ys.flatMap (symFields ll dd) ++ [huffField ll 256]

/-- The code symbols (literal/length, distance) a symbol needs. -/
def symUses (y : DSym) : Nat × Option Nat :=
  if y.1 = 0 then (y.2, none) else (257 + baseIdx lenBase y.1, some (baseIdx distBase y.2))

/-- The lengths that run-length symbols spell; none where a repeat has nothing before it or no such symbol exists. -/
def expandOps : List (Nat × Nat) → List Nat → Option (List Nat)
  | [], acc => some acc
  | (s, e) :: rest, acc =>
    if s < 16 then expandOps rest (acc ++ [s])
    else if s = 16 ∧ acc ≠ [] ∧ e < 4 then expandOps rest (acc ++ List.replicate (e + 3) (acc.getLastD 0))
    else if s = 17 ∧ e < 8 then expandOps rest (acc ++ List.replicate (e + 3) 0)
    else if s = 18 ∧ e < 128 then expandOps rest (acc ++ List.replicate (e + 11) 0)
    else none

/-- Codes that R256 and RFC 1951 allow for a block: complete within 15 and 7 bits, symbol 256 and at least one distance code
coded, every symbol used coded, and the lengths spelled by the code-length code as sent. -/
def dynOk (c : DynCodes) (ys : List DSym) : Bool :=
  decide (257 ≤ c.ll.length ∧ c.ll.length ≤ 286 ∧ 1 ≤ c.dd.length ∧ c.dd.length ≤ 30 ∧ c.cl.length = 19 ∧ 4 ≤ c.sent ∧ c.sent ≤ 19 ∧
    huffLeft c.ll = 0 ∧ huffLeft c.cl = 0 ∧ (huffLeft c.dd = 0 ∨ (c.dd.filter fun l => l != 0) = [1]) ∧ c.ll.getD 256 0 ≠ 0) &&
  c.ll.all (fun l => decide (l ≤ 15)) && c.dd.all (fun l => decide (l ≤ 15)) && c.cl.all (fun l => decide (l ≤ 7)) &&
  (clOrder.drop c.sent).all (fun k => c.cl.getD k 0 == 0) && expandOps c.ops [] == some (c.ll ++ c.dd) &&
  c.ops.all (fun o => c.cl.getD o.1 0 != 0) &&
  ys.all fun y => c.ll.getD (symUses y).1 0 != 0 && (symUses y).2.elim true fun k => c.dd.getD k 0 != 0

/-! ## Blocks -/

/-- Bits of a list of fields. -/
def fieldBits (fs : List (Nat × Nat)) : Nat := (fs.map Prod.snd).sum

/-- The three header bits of a block. -/
def blockHead (final : Bool) (btype : Nat) : List (Nat × Nat) := [(b2n final, 1), (btype, 2)]

/-- Stored blocks of at most 65,535 bytes, from bit `pos` of the stream. -/
def storedFields (final : Bool) : Nat → Nat → List Byte → List (Nat × Nat)
  | 0, _, _ => []
  | fuel + 1, pos, bs =>
    let now := bs.take 65535
    let rest := bs.drop 65535
    let head := blockHead (final && rest.isEmpty) 0 ++ [(0, (8 - (pos + 3) % 8) % 8), (now.length, 16), (65535 - now.length, 16)] ++
      now.map fun b => (b.toNat, 8)
    if rest.isEmpty then head else head ++ storedFields final fuel 0 rest

/-- A block in a fixed and in a dynamic coding. -/
def fixedFields (final : Bool) (ys : List DSym) : List (Nat × Nat) := blockHead final 1 ++ bodyFields fixedLL fixedDist ys

def dynFields (final : Bool) (c : DynCodes) (ys : List DSym) : List (Nat × Nat) :=
  let op (o : Nat × Nat) : List (Nat × Nat) :=
    huffField c.cl o.1 :: (if o.1 < 16 then [] else [(o.2, if o.1 = 16 then 2 else if o.1 = 17 then 3 else 7)])
  blockHead final 2 ++ [(c.ll.length - 257, 5), (c.dd.length - 1, 5), (c.sent - 4, 4)] ++
    ((clOrder.take c.sent).map fun k => (c.cl.getD k 0, 3)) ++ c.ops.flatMap op ++ bodyFields c.ll c.dd ys

/-- A block in the coding of fewest bits: stored before fixed before dynamic on a tie. -/
def blockFields (final : Bool) (pos : Nat) (ys : List DSym) (bs : List Byte) : List (Nat × Nat) :=
  let c := Config.deflateCodes ys
  let less (a b : List (Nat × Nat)) : List (Nat × Nat) := if fieldBits b < fieldBits a then b else a
  let best := less (storedFields final (bs.length + 1) pos bs) (fixedFields final ys)
  if dynOk c ys then less best (dynFields final c ys) else best

/-- Blocks of 16,384 symbols in turn from bit `pos`, `final` on the last. -/
def blocksFields (final : Bool) : Nat → Nat → List DSym → List Byte → List (Nat × Nat)
  | 0, _, _, _ => []
  | fuel + 1, pos, ys, bs =>
    let now := ys.take 16384
    let rest := ys.drop 16384
    let k := (now.map DSym.span).sum
    let fs := blockFields (final && rest.isEmpty) pos now (bs.take k)
    if rest.isEmpty then fs else fs ++ blocksFields final fuel (pos + fieldBits fs) rest (bs.drop k)

/-- The stream of some bytes after a history, without a wrapper. FINISH (0) ends it with BFINAL = 1; SYNC and FULL end it
with an empty stored block. -/
def deflateBody (level : Nat) (hist : List Byte) (flush : Nat) (src : List Byte) : List Byte :=
  let fs := blocksFields (flush == 0) (src.length + 1) 0 (symsOf level (src.length + 1) hist src) src
  packFields (if flush = 0 then fs else fs ++ storedFields false 1 (fieldBits fs) []) 0 0

/-- Bytes sent once `src` has been consumed and more is to come: the whole blocks whose symbols no later byte can change. -/
def deflateSent (level : Nat) (src : List Byte) : Nat :=
  if src.length ≤ 16384 then 0
  else
    let ys := symsOf level (src.length + 1) [] src
    let settled := ((List.range ys.length).filter fun k => decide (((ys.take k).map DSym.span).sum + 259 ≤ src.length)).length
    let whole := settled / 16384 * 16384
    if whole = 0 then 0 else fieldBits (blocksFields false (src.length + 1) 0 (ys.take whole) src) / 8

/-- A whole DEFLATE stream of a byte string with its wrapper. -/
def deflateWhole (wrap level : Nat) (bs : List Byte) : List Byte :=
  wrapHead wrap level ++ deflateBody level [] 0 bs ++ wrapTail wrap (adler32 bs) (crc32 bs) bs.length

/-! ## Self-verification (R261, R270) -/

/-- Whether a stream decodes to the bytes it codes, after its history. SYNC and FULL leave the decoder at its end. -/
def bodyDecodes (hist : List Byte) (flush : Nat) (body src : List Byte) : Bool :=
  let want := hist ++ src
  match Inf.blocks (8 * body.length + 1) ⟨body.toArray, 0, hist.toArray, want.length, infFull⟩ with
  | .ok (_, s) => flush == 0 && s.out.toList == want
  | .error (c, s) => flush != 0 && c == 12 && s.pos == 8 * body.length && s.out.toList == want

end Sys2Proof.Machine
end

