-- ==== Sys2Proof/Machine/Archive.lean ====
section
/-! DEFINITION. The compression engines (spec/11_compression.md): the archive of the web, its budget, book and records, and the
host's jobs. -/

namespace Sys2Proof.Machine

/-! ## Raw chunks (R252) -/

/-- One raw line. -/
def rawLine (c : Chunk) (l : ChunkLine) : List Byte :=
  leBytes 6 l.wln ++ leBytes 2 l.flags ++ leBytes 6 l.pos ++ leBytes 2 l.epoch ++ packVals c.bits l.vals ++
    (if c.withStates then packVals 2 l.states else [])

/-- Bytes of a chunk's raw lines. -/
def rawLen (c : Chunk) : Nat :=
  match c.therm with
  | some (_, _, r) => r.length
  | none => c.lines.length * rawLineLen c.bits c.width c.withStates

/-- The raw chunk. -/
def rawChunk (c : Chunk) : List Byte :=
  match c.therm with
  | some (_, _, r) => r
  | none => c.lines.flatMap (rawLine c)

/-- The coding of a chunk's lines by FRB (R260): the bytes before the CRC, and the encoder's values x̂ line by line. -/
def frbCoded (c : Chunk) : List Byte × List (List Int) :=
  c.lines.foldl (fun (s : List Byte × List (List Int)) l =>
    let (bs, xs) := frbLine c.bits c.ratio l.vals s.2.getLast?
    (s.1 ++ (leBytes 6 l.wln ++ leBytes 2 l.flags ++ leBytes 6 l.pos ++ leBytes 2 l.epoch ++ bs ++
      (if c.withStates then packVals 2 l.states else [])), s.2 ++ [xs])) ([], [])

/-- FRB payload of a chunk (R260). -/
def frbPayload (c : Chunk) : List Byte := let body := (frbCoded c).1; body ++ leBytes 4 (crc32 body)

/-- DEFLATE payload of a chunk. -/
def deflPayload (c : Chunk) : List Byte := deflateWhole c.wrap c.level (rawChunk c)

/-! ## Self-verification (R261) -/

/-- The header of Table 11.1. -/
def archHeader (d : Dev) (c : Chunk) (n coding : Nat) (vfail forced : Bool) (payload cseq : Nat) : List Byte :=
  let t := c.therm.isSome
  let first := match c.therm with
    | some (h, f, _) => (f % 2 ^ 32, h)
    | none => let w := (c.lines.head?.map ChunkLine.wln).getD 0; (w % 2 ^ 32, w / 2 ^ 32 % 65536)
  let ws := [0x141 + 65536 * d.slot + 2 ^ 19 * coding + 2 ^ 21 * b2n t + 2 ^ 22 * b2n vfail + 2 ^ 23 * b2n forced + 2 ^ 24 * n +
      2 ^ 29 * c.wrap, payload, rawLen c, cseq, first.1, first.2 + 65536 * c.lines.length + 2 ^ 24 * c.bits, ofSigned 32 c.col0,
    c.width + 65536 * c.ratio + 2 ^ 18 * b2n c.withStates]
  ws.flatMap (leBytes 4)

/-- Whether the decoder finds the DEFLATE coding equal to the raw chunk. -/
def deflVerified (c : Chunk) : Bool :=
  let raw := rawChunk c
  let r := inflate c.wrap 0 raw.length (deflPayload c)
  r.err.isNone && r.out == raw

/-- Whether the decoder finds the FRB coding equal to the encoder's x̂ values. -/
def frbVerified (d : Dev) (c : Chunk) : Bool :=
  let payload := frbPayload c
  let want := (c.lines.zip (frbCoded c).2).flatMap fun p => rawLine c { p.1 with vals := (p.2.take c.width).map Int.toNat }
  let r := frbDecode want.length (archHeader d c 0 1 false false payload.length 0 ++ payload)
  r.err.isNone && r.out == want

/-! ## What the engines consume (R255) -/

def updChunk (d : Dev) (id : Nat) (g : Chunk → Chunk) : Dev :=
  d.updArch fun a => { a with chunks := a.chunks.map fun c => if c.id == id then g c else c }

/-- Bytes each coding of a chunk has produced, its 32 header bytes included, once its engine has `left` bytes to consume: FRB
line by line, its CRC when the last line is coded (R260); DEFLATE block by block (R256). -/
def fMade (c : Chunk) (left : Nat) : Nat :=
  32 + (if c.closed ∧ left = 0 then (frbPayload c).length
    else (rawLen c - left) / rawLineLen c.bits c.width c.withStates * (16 + frbLineLen c.bits c.ratio c.width + planeLen c.withStates c.width))

def dMade (c : Chunk) (left : Nat) : Nat :=
  let k := rawLen c - left
  32 + (if c.closed ∧ left = 0 then (deflPayload c).length
    else if k = 0 then 0 else (wrapHead c.wrap c.level).length + deflateSent c.level ((rawChunk c).take k))

/-- Whether a coding of a chunk waits for a buffer (R265): it has none yet, or what it has produced runs past those it has. -/
def dLacks (c : Chunk) (left : Nat) : Bool := !c.noDefl && (c.dBufs == 0 || decide (65536 * c.dBufs < dMade c left))
def fLacks (c : Chunk) (left : Nat) : Bool := c.therm.isNone && (c.fBufs == 0 || decide (65536 * c.fBufs < fMade c left))
def stalled (c : Chunk) (left : Nat) : Bool := dLacks c left || fLacks c left

/-- Chunks of one engine after it has consumed up to `b` bytes: in order, a chunk once the one before is closed and consumed. A
coding that waits for a buffer stalls the engine at the byte that fills the last one (R265). -/
def consume : Nat → List Chunk → List Chunk × Nat
  | _, [] => ([], 0)
  | b, c :: rest =>
    if stalled c c.left then (c :: rest, 0)
    else
      let m := min b c.left
      let k := if stalled c (c.left - m) then ((List.range m).find? fun j => stalled c (c.left - j)).getD m else m
      let c1 := { c with left := c.left - k, begun := c.begun || k != 0 }
      if c1.closed ∧ c1.left = 0 ∧ stalled c1 0 = false then
        let (r, n) := consume (b - k) rest
        (c1 :: r, n + k)
      else (c1 :: rest, k)

/-- The bytes an engine's codings have written since the book last took them: up to the end of their buffers (R266). -/
def zBook (d : Dev) (n : Nat) : Dev :=
  let seen (c : Chunk) : Chunk :=
    { c with dSeen := if c.noDefl || c.dBufs == 0 then c.dSeen else max c.dSeen (min (65536 * c.dBufs) (dMade c c.left))
             fSeen := if c.therm.isSome || c.fBufs == 0 then c.fSeen else max c.fSeen (min (65536 * c.fBufs) (fMade c c.left)) }
  let total (cs : List Chunk) : Nat := (cs.map fun c => c.dSeen + c.fSeen).sum
  let cs := heldBy d n
  let new := total (cs.map seen) - total cs
  let d1 := d.updArch fun a => { a with chunks := a.chunks.map fun c => if c.engine == some n then seen c else c }
  let d2 := bookPending (bookWritten d1 new) (new : Int)
  d2.wr2 (Z.OUT_LO.BYTES n) (Z.OUT_HI.BYTES n) (d2.rd2 (Z.OUT_LO.BYTES n) (Z.OUT_HI.BYTES n) + new)

/-- 2 bytes per CLK_FAB cycle (20 units of 1/16 ns) since the engine was last advanced. -/
def zAdvance (d : Dev) (n : Nat) : Dev :=
  let t0 := (d.arch.engT.find? fun x => x.1 == n).elim d.now Prod.snd
  let (cs, k) := consume ((d.now - t0) / 10) (heldBy d n)
  let d1 := d.updArch fun a =>
    { a with chunks := a.chunks.map fun c => (cs.find? fun x => x.id == c.id).getD c
             engT := (n, d.now) :: a.engT.filter fun x => x.1 != n }
  zShow (zBook (d1.wr2 (Z.IN_LO.BYTES n) (Z.IN_HI.BYTES n) (d1.rd2 (Z.IN_LO.BYTES n) (Z.IN_HI.BYTES n) + k)) n) n

/-! ## The archive input (R252 to R255) -/

/-- The register values a change of which closes a chunk (R253). -/
def archKey (v : View) : List Nat :=
  [v ZCTL.ARCH_CFG.EN, v ZCTL.ARCH_CFG.MODE, v ZCTL.ARCH_CFG.WRAP, v ZCTL.ARCH_CFG.LEVEL, v ZCTL.ARCH_CFG.STATES,
   v ZCTL.ARCH_CFG.THERM, v ZCTL.ARCH_CFG.BITS, v ZCTL.ARCH_GEOM.STRIPE_W, v ZCTL.ARCH_GEOM.CHUNK_LINES, v ZCTL.FRB_CFG.RATIO,
   v STITCH.COL_FIRST.COL, v STITCH.COL_COUNT.N]

/-- Raw bytes in the archive input queue. -/
def queued (d : Dev) : Nat := (d.arch.chunks.map rawLen).sum

/-- The widths of the stripes of `n` columns. -/
def stripes (n w : Nat) : List Nat := (List.range ((n + w - 1) / w)).map fun s => min w (n - s * w)

/-- One stripe of a web line into its chunk. -/
def stripeLine (l : WebLine) (key : List Nat) (a : ArchSet) (d : Dev) (s w : Nat) : Dev :=
  let cells := (l.cells.drop (s * a.stripeW)).take w
  let line : ChunkLine := ⟨l.wln, l.flags, l.pos, l.epoch, cells.map fun c => c.1 / 2 ^ (16 - a.bits), cells.map Prod.snd⟩
  let need := rawLineLen a.bits w a.states
  let isOpen (c : Chunk) : Bool := c.therm.isNone && !c.closed && c.stripe == s
  if 8388608 < queued d + need then
    let d1 := d.updArch fun r => { r with chunks := r.chunks.map fun c => if isOpen c then { c with closed := true } else c }
    (d1.inc ZCTL.LINES_LOST.CNT).irq Page.ZCTL ZCTL.irq.LINES_LOST
  else if d.arch.chunks.any isOpen then
    let grow (c : Chunk) : Chunk :=
      { c with lines := c.lines ++ [line], left := c.left + need, closed := decide (c.maxLines ≤ c.lines.length + 1) }
    d.updArch fun r => { r with chunks := r.chunks.map fun c => if isOpen c then grow c else c }
  else
    chunkPut d
      { id := 0, key := key, therm := none, stripe := s, epoch := l.epoch, mode := a.mode, wrap := a.wrap, level := a.level
        withStates := a.states, bits := a.bits, ratio := a.ratio, maxLines := a.maxLines
        col0 := l.colFirst + (s * a.stripeW : Nat), width := w, lines := [line], closed := decide (a.maxLines ≤ 1)
        engine := none, begun := false, noDefl := d.on ZCTL.FORCE.FRB, left := need, dBufs := 0, fBufs := 0, dSeen := 0
        fSeen := 0 }

/-- ARCHIVE_LINE (R252): the oldest emitted web line, stripe by stripe. None in degraded mode (R267) or on a standby (R331). -/
def archiveLine (d : Dev) : Dev :=
  match d.stitch.toArc with
  | [] => d
  | l :: rest =>
    let d := (d.updStitch fun s => { s with toArc := rest }).snapReach Page.ZCTL l.wln ZCTL.fields
    if d.on ZCTL.STATUS.DEGRADED || d.isStandby then d
    else
      let d := (List.range 32).foldl zAdvance d
      let v := d.cfg l.epoch
      let key := archKey v
      let shut (c : Chunk) : Chunk := if c.therm.isNone && c.key != key then { c with closed := true } else c
      let d := d.updArch fun a => { a with chunks := a.chunks.map shut }
      if v ZCTL.ARCH_CFG.EN = 0 then d
      else
        let a := archSet v
        zShowAll ((stripes l.cells.length a.stripeW).zipIdx.foldl (fun d p => stripeLine l key a d p.2 p.1) d)

/-- The oldest of the chunks that wait. -/
def oldestWaiting (d : Dev) : Option Chunk :=
  (d.arch.chunks.filter fun c => c.engine.isNone).foldl (fun b c => some (b.elim c fun x => if c.id < x.id then c else x)) none

/-- CHUNK_DISPATCH (R255): the oldest chunk that waits goes to the stream engine with the fewest bytes queued, the lowest
number between equals; an engine holds up to four, in the order of their dispatch. -/
def chunkDispatch (d : Dev) : Dev :=
  let d := (List.range 32).foldl zAdvance d
  match oldestWaiting d with
  | none => d
  | some c =>
    let free := (List.range 32).filter fun n =>
      streamEngine d n && !engFaulted d n && (jobOn d n).isNone && decide ((heldBy d n).length < 4)
    match free with
    | [] => d
    | n :: ns =>
      let load (k : Nat) : Nat := ((heldBy d k).map Chunk.left).sum
      let best := ns.foldl (fun b k => if load k < load b then k else b) n
      zShow (d.updArch fun a =>
        { a with chunks := (a.chunks.filter fun x => x.id != c.id) ++ [{ c with engine := some best }] }) best

/-! ## Buffers and the book (R265, R266) -/

/-- Buffers a coding of `len` payload bytes fills. -/
def bufsFor (len : Nat) : Nat := (32 + len + 65535) / 65536

/-- BUFFER_LINK (R265): the engine's oldest chunk whose coding waits for a buffer takes one. The first starts the chain, its
32 header bytes counted; a further one takes what the coding has produced beyond those before. -/
def bufferLink (n : Fin 32) (frb : Bool) (d : Dev) : Dev :=
  let d := zAdvance d n
  match (heldBy d n).find? fun c => if frb then fLacks c c.left else dLacks c c.left with
  | none => d
  | some c =>
    if d.rd ZCTL.POOL_FREE.N = 0 then d
    else
      zBook (updChunk (poolTake d 1) c.id fun c => if frb then { c with fBufs := c.fBufs + 1 } else { c with dBufs := c.dBufs + 1 }) n

/-! ## The decision (R261 to R264) -/

/-- F_LINE, RAW_LINE, BUDGET_WARN, CAP_WARN and ARCH_ON. -/
def archShow (d : Dev) : Dev :=
  let v : View := d.rd
  let a := archSet v
  let ws := stripes (colCount v) a.stripeW
  let lineBytes := (ws.map fun w => 16 + frbLineLen a.bits a.ratio w + planeLen a.states w).sum
  let fLine := lineBytes + (4 * ws.length + a.maxLines - 1) / a.maxLines
  let raw := (ws.map fun w => rawLineLen a.bits w a.states).sum
  let engines := ((List.range 32).filter fun n => streamEngine d n && !engFaulted d n).length
  let mp := v TRIG.MIN_PERIOD.VAL
  let d1 := (d.wrSat ZCTL.F_LINE.BYTES fLine).wrSat ZCTL.RAW_LINE.BYTES raw
  let d2 := d1.wrB ZCTL.STATUS.BUDGET_WARN (decide (v ZCTL.BUDGET.BPUS * mp < fLine * 1000))
  let d3 := d2.wrB ZCTL.STATUS.CAP_WARN (decide (1600 * engines * mp < raw * 1000))
  d3.wrB ZCTL.STATUS.ARCH_ON (v ZCTL.ARCH_CFG.EN != 0 && !d.on ZCTL.STATUS.DEGRADED && !d.isStandby)

/-- A failure of a coding or a job on an engine: `k` failures; the fourth in a row faults it and frees what it has not begun. -/
def verifyCount (d : Dev) (n : Fin 32) (k : Nat) : Dev :=
  if k = 0 then d.wr (Z.VFAIL_RUN.N n) 0
  else
    let d1 := ((d.addCnt (Z.VFAIL_CNT.CNT n) k).irq (Page.Z n) Z.irq.VFAIL).irq Page.ZCTL ZCTL.irq.VFAIL
    let run := d1.rd (Z.VFAIL_RUN.N n) + 1
    let d2 := d1.wr (Z.VFAIL_RUN.N n) (min run 4)
    if run < 4 then d2
    else
      let d3 := ((d2.wr (Z.STATUS.STATE n) 3).irq (Page.Z n) Z.irq.FAULT).irq Page.ZCTL ZCTL.irq.ENG_FAULT
      let free (c : Chunk) : Chunk :=
        if c.engine == some n.val && !c.begun && c.dBufs == 0 && c.fBufs == 0 then { c with engine := none } else c
      archShow (d3.updArch fun a => { a with chunks := a.chunks.map free })

/-- CHUNK_DECIDE (R262): the engine's first chunk, coded and verified, keeps one coding. A verification fails where the decoder
does not give back what was coded, or where the command says that it failed on this engine (R261). -/
def chunkDecide (n : Fin 32) (dFail fFail : Bool) (d : Dev) : Dev :=
  let d := zAdvance d n
  match heldBy d n with
  | [] => d
  | c :: _ =>
    let t := c.therm.isSome
    let dp := if c.noDefl then [] else deflPayload c
    let fp := if t then [] else frbPayload c
    let raw := rawChunk c
    let dFail := dFail || (!c.noDefl && !deflVerified c)
    let fFail := fFail || (!t && !frbVerified d c)
    let forceFrb := d.on ZCTL.FORCE.FRB || c.noDefl || c.mode == 1
    let noD := dFail || c.noDefl
    let fits := dp.length ≤ fp.length ∨ ((dp.length : Int) + 32) ≤ d.arch.credit
    let coding :=
      if t then (if dFail then 2 else 0)
      else if forceFrb ∨ noD then (if fFail then 2 else 1)
      else if fFail ∨ fits then 0
      else 1
    let payload := if coding = 0 then dp else if coding = 1 then fp else raw
    let ready := c.closed && c.left == 0 && (c.noDefl || c.dBufs == bufsFor dp.length) && (t || c.fBufs == bufsFor fp.length)
    let room := coding != 2 || decide (bufsFor raw.length ≤ d.rd ZCTL.POOL_FREE.N + c.dBufs + c.fBufs)
    if !ready || !room then d
    else
      -- the rest of both codings enters the book, then the chunk's bytes leave PENDING
      let dTot := if c.noDefl then 0 else 32 + dp.length
      let fTot := if t then 0 else 32 + fp.length
      let rest := dTot + fTot - (c.dSeen + c.fSeen)
      let d := d.wr2 (Z.OUT_LO.BYTES n) (Z.OUT_HI.BYTES n) (d.rd2 (Z.OUT_LO.BYTES n) (Z.OUT_HI.BYTES n) + rest)
      let d := bookPending (bookWritten d rest) (-((c.dSeen + c.fSeen : Nat) : Int))
      let keptBytes := 32 + payload.length
      let d := if coding = 2 then bookDropped (bookHeld (bookWritten d keptBytes) keptBytes) (dTot + fTot)
        else bookDropped (bookHeld d keptBytes) (dTot + fTot - keptBytes)
      let keptBufs := if coding = 0 then c.dBufs else if coding = 1 then c.fBufs else bufsFor raw.length
      let d := if coding = 2 then poolTake (poolFree d (c.dBufs + c.fBufs)) keptBufs else poolFree d (c.dBufs + c.fBufs - keptBufs)
      let d := setCredit d (d.arch.credit - (keptBytes : Nat))
      let fails := b2n (dFail && !c.noDefl) + b2n (fFail && !t)
      let forced := coding == 1 && forceFrb
      let bytes := archHeader d c n.val coding (fails != 0) forced payload.length d.arch.cseq ++ payload
      let d := d.inc (if coding = 0 then ZCTL.CHUNKS_DEFLATE.CNT else if coding = 1 then ZCTL.CHUNKS_FRB.CNT else ZCTL.CHUNKS_RAW.CNT)
      let d := if t then d.inc ZCTL.THERM_RECS.CNT else d
      let d := archPut d ⟨some d.arch.cseq, bytes, c.lines.length, keptBufs, none⟩
      let d := d.updArch fun a => { a with cseq := (a.cseq + 1) % 2 ^ 32, chunks := a.chunks.filter fun x => x.id != c.id }
      zShow ((verifyCount (d.inc (Z.CHUNK_CNT.CNT n)) n fails)) n

/-- BUDGET_TICK (R262). -/
def budgetTick (d : Dev) : Dev :=
  setCredit d (min (d.arch.credit + (d.rd ZCTL.BUDGET.BPUS : Nat)) (d.rd ZCTL.BUCKET_CAP.BYTES : Nat))

/-- RECORD_SENT (R305): the last frame of the port's oldest record has left; a record fills frames of 1,456 bytes (DEDUCED, log entry
25). -/
def recordSent (port : Fin 2) (d : Dev) : Dev :=
  match d.arch.recs.find? fun r => r.port == some port.val with
  | none => d
  | some r =>
    let i := (d.arch.recs.findIdx? fun r => r.port == some port.val).getD 0
    let d1 := (d.updArch fun a => { a with recs := a.recs.eraseIdx i }).emit (.record port.val r.bytes)
    let d2 := if r.cseq.isSome then bookSent (bookHeld d1 (-((r.bytes.length : Nat) : Int))) r.bytes.length else d1
    let d3 := d2.addCnt (if port = 0 then HOST.TX_FRAMES_HA.CNT else HOST.TX_FRAMES_HB.CNT) ((r.bytes.length + 1455) / 1456)
    archQShow (poolFree d3 r.bufs)

/-- An archive buffer read uncorrectable: the record is not sent (Table 12.3). -/
def archRecordLost (d : Dev) (cseq : Nat) : Dev :=
  match d.arch.recs.find? fun r => r.cseq == some cseq with
  | none => d
  | some r =>
    let d1 := d.updArch fun a => { a with recs := a.recs.filter fun x => x.cseq != some cseq }
    let d2 := bookDropped (bookHeld d1 (-((r.bytes.length : Nat) : Int))) r.bytes.length
    let d3 := archQShow (poolFree (d2.addCnt ZCTL.LINES_LOST.CNT r.lines) r.bufs)
    d3.irqIf (r.lines != 0) Page.ZCTL ZCTL.irq.LINES_LOST

/-- CLR_FAULT (R261). -/
def clrFault (n : Fin 32) (d : Dev) : Dev :=
  if engFaulted d n then archShow (zShow ((d.wr (Z.STATUS.STATE n) 0).wr (Z.VFAIL_RUN.N n) 0) n) else d

/-- SIDE_STREAM_PACKET (R67, R305): a packet of a user-defined type on an enabled virtual channel goes to the archive stream
and debits the budget by its length (R254); one beyond the grant is discarded (R73). Without an open line its WLN is a free value (log entry 3). -/
def sideStreamPacket (p : Fin 16) (vc : Fin 16) (dt : Nat) (bytes : List Byte) (crcOk corrected : Bool) (d : Dev) : Dev :=
  if !receiving d p || decide (dt < 0x30 ∨ 0x37 < dt) then d
  else
    let en := bitOf (d.cfg (packetEpoch d p) (PORT.STREAM_CFG.SIDE_VC_EN p)) vc
    let (kept, d) := packetIn d p (6 + bytes.length) corrected crcOk d.ports[p].cur false
    if !en || !kept || d.isStandby then d
    else
      let (w, d) := match d.ports[p].cur with
        | some w => (w, d)
        | none => d.free 48
      let head := [0x158 + 65536 * p.val + 2 ^ 20 * vc.val, bytes.length, w % 2 ^ 32, w / 2 ^ 32]
      let pad := List.replicate ((4 - bytes.length % 4) % 4) (0 : Byte)
      setCredit (archPut d ⟨none, head.flatMap (leBytes 4) ++ bytes ++ pad, 0, 0, none⟩) (d.arch.credit - ((6 + bytes.length : Nat) : Int))

/-! ## Status, checks and epochs (R251, R258, R263, R267) -/

/-- The consistency check of ZCTL: its cause. -/
def zctlCheck (v : View) : Option Nat :=
  if v ZCTL.ARCH_CFG.EN ≠ 0 ∧ v ZCTL.STREAM_MASK.MASK = 0 then some 1
  else if frbN (archSet v).bits (archSet v).ratio < 2 then some 2
  else none

/-- An epoch: an engine that leaves the stream mode gives back what it has not begun (R251). -/
def archEpoch (d : Dev) : Dev :=
  let free (c : Chunk) : Chunk :=
    match c.engine with
    | some n => if !streamEngine d n && !c.begun && c.dBufs == 0 && c.fBufs == 0 then { c with engine := none } else c
    | none => c
  let d1 := d.updArch fun a => { a with chunks := a.chunks.map free }
  archShow (zShowAll d1)

/-- The throttle acts on compression (R267). -/
def archForce (d : Dev) (pause frb : Bool) : Dev :=
  zShowAll ((((d.wrB ZCTL.FORCE.JOB_PAUSE pause).wrB ZCTL.FORCE.FRB frb).wrB ZCTL.STATUS.JOB_PAUSE pause).wrB ZCTL.STATUS.FORCE_FRB frb)

/-! ## Jobs (R268 to R271) -/

def jqBase : Nat := 0x08000000
def cqBase : Nat := 0x08002000
def bdBase : Nat := 0x08010000

/-- A range wholly in the job area (Table 12.1). -/
def inJobArea (a n : Nat) : Bool := decide (0x560000000 ≤ a ∧ a + n ≤ 0x7E0000000)

/-- The buffers of a chain (address, length), none where a descriptor is not valid; at most 4,096. -/
def outChain (m : Memory) : Nat → Nat → Option (List (Nat × Nat))
  | 0, _ => some []
  | fuel + 1, b =>
    if 4096 ≤ b then none
    else
      let a := m.u64 (bdBase + 16 * b)
      let n := m.u32 (bdBase + 16 * b + 8)
      let next := m.u32 (bdBase + 16 * b + 12)
      if n < 64 ∨ !inJobArea a n then none
      else if next = 0xFFFFFFFF then some [(a, n)]
      else (outChain m fuel next).map fun r => (a, n) :: r

/-- The job at the head as its descriptor says (Table 11.2), on an engine. -/
def readJob (m : Memory) (idx engine : Nat) : Job :=
  let a := jqBase + 32 * idx
  let ctl := m.u32 a
  let src := m.u64 (a + 8)
  let len := m.u32 (a + 16)
  let (op, wrap, level, flush) := (bitsOf ctl 0 2, bitsOf ctl 2 2, bitsOf ctl 4 3, bitsOf ctl 8 2)
  let chain := outChain m 4096 (m.u32 (a + 20))
  let bad := decide (op = 3 ∨ (op ≠ 2 ∧ wrap = 3) ∨ (op = 0 ∧ (level < 1 ∨ 4 < level ∨ flush = 3)) ∨ len = 0 ∨ 2 ^ 31 < len) ||
    !inJobArea src len || chain.isNone
  { idx := idx, force := if bad then 6 else 0, engine := engine, op := op, wrap := wrap, level := level, flush := flush
    ctx := bitsOf ctl 12 4, tag := m.u32 (a + 4), src := src, len := len, chain := chain.getD [], limit := m.u32 (a + 24) }

/-- The session that holds the JOB right (R306). -/
def jobSession (d : Dev) : Option Nat := (List.range 4).find? fun j => d.on (HOST.SESS_STAT.STATE j) && d.on (HOST.SESS_STAT.JOB j)

/-- JOB_DONE of a completion record. -/
def sendJobDone (d : Dev) (m : Memory) (idx : Nat) : Dev :=
  match jobSession d with
  | some j =>
    let port := d.rd (HOST.SESS_STAT.CUR j)
    sendFrame (arpUse (d.start (.jobDone idx)) port j) port 0x2A ((List.range 4).map fun k => m.u32 (cqBase + 16 * idx + 4 * k))
  | none => d

/-- A completion record at CQ_TAIL (Table 11.4). AUX of a status the table gives none for is a free value (log entry 3). -/
def putCompletion (x : DM) (job tag status err engine outLen : Nat) (aux : Option Nat) : DM :=
  let (w, d) := match aux with
    | some w => (w, x.1)
    | none => x.1.free 32
  let t := d.rd ZCTL.CQ_TAIL.IDX
  let m1 := x.2.store (cqBase + 16 * t)
    (leBytes 4 tag ++ leBytes 4 (status + 256 * err + 65536 * engine) ++ leBytes 4 outLen ++ leBytes 4 w)
  let d1 := ((d.wr ZCTL.CQ_TAIL.IDX (t + 1)).inc ZCTL.JOBS_DONE.CNT).irq Page.ZCTL ZCTL.irq.JOB_DONE
  let d2 := d1.updArch fun a => { a with cq := a.cq ++ [(t, job, false)] }
  (sendJobDone d2 m1 t, m1)

/-- A record would overwrite one the host has not retired. -/
def cqFull (d : Dev) : Bool := decide (256 ≤ d.arch.cq.length)

/-- Contexts as the Z pages show them. -/
def ctxShow (d : Dev) : Dev :=
  (List.range 32).foldl (fun d n =>
    d.wr (Z.CTX.OPEN n) (d.arch.ctxs.foldl (fun v c => if c.engine == n then setBit v c.c else v) 0)) d

/-- JQ_TAIL_WRITE (R268, R306). -/
def jqTailWrite (idx : Nat) (d : Dev) : Dev := if d.on HOST.STATUS.JQ_OWNED then d else d.wr ZCTL.JQ_TAIL.IDX idx

/-- CQ_HEAD_WRITE: the records before it are retired. -/
def cqRetire (idx : Nat) (d : Dev) : Dev :=
  let k := (idx + 256 - d.rd ZCTL.CQ_HEAD.IDX) % 256
  (d.updArch fun a => { a with cq := a.cq.drop k }).wr ZCTL.CQ_HEAD.IDX idx

def cqHeadWrite (idx : Nat) (d : Dev) : Dev := if d.on HOST.STATUS.JQ_OWNED then d else cqRetire (idx % 256) d

/-- JOB_START (R268): the job at the head, on the engine that holds its context or the lowest idle job engine; in degraded
mode it ends with NO_MEM (R267). -/
def jobStart (x : DM) : DM :=
  let (d, m) := x
  let idx := d.rd ZCTL.JQ_HEAD.IDX
  if idx = d.rd ZCTL.JQ_TAIL.IDX then x
  else if d.on ZCTL.STATUS.DEGRADED then
    if cqFull d then x else putCompletion (d.wr ZCTL.JQ_HEAD.IDX (idx + 1), m) idx (m.u32 (jqBase + 32 * idx + 4)) 7 0 0 0 none
  else if d.on ZCTL.FORCE.JOB_PAUSE then x
  else
    let idle (n : Nat) : Bool := !streamEngine d n && !engFaulted d n && (heldBy d n).isEmpty && (jobOn d n).isNone
    let j := readJob m idx 0
    let holds := if j.op = 0 then
        match d.arch.ctxs.find? fun c => c.c == j.ctx with
        | some c => some c.engine
        | none => (d.arch.jobs.find? fun r => r.op == 0 && r.flush != 0 && r.ctx == j.ctx).map Job.engine
      else none
    let pick := match holds with
      | some n => if idle n then some n else none
      | none => (List.range 32).find? idle
    match pick with
    | none => x
    | some n =>
      let same := (d.arch.ctxs.find? fun c => c.c == j.ctx).elim true fun c => c.wrap == j.wrap && c.level == j.level
      let other := j.op != 0 && j.force == 0
      let j1 := { j with engine := n, force := if j.force == 0 && !other && !same then 6 else j.force }
      (zShow ((d.updArch fun a => { a with jobs := a.jobs ++ [j1] }).wr ZCTL.JQ_HEAD.IDX (idx + 1)) n, m)

/-- Bytes laid down a chain of buffers. -/
def putChain (who : Reader) (x : DM) : List (Nat × Nat) → List Byte → DM
  | [], _ => x
  | (a, n) :: rest, bs => if bs.isEmpty then x else putChain who (mergeWrite who x a (bs.take n)) rest (bs.drop n)

/-- What a job comes to: status, ERR, OUT_LEN, AUX where Table 11.4 gives it, where in the source an error stands, the source
bytes consumed, the bytes laid down, and the context left open. -/
structure JobEnd where
  status : Nat
  err : Nat
  outLen : Nat
  aux : Option Nat
  errAt : Nat
  used : Nat
  bytes : List Byte
  ctx : Option JobCtx
  deriving DecidableEq, Repr

/-- The value AUX reports on success: Adler-32 with the zlib wrapper, else CRC-32. -/
def auxOf (wrap adler crc : Nat) : Nat := if wrap = 1 then adler else crc

/-- A compress job (R269, R270): `cap` bytes of chain, `ctx` its open context, `src` its source, `fail` whether the engine's
comparison failed. -/
def compressJob (j : Job) (ctx : Option JobCtx) (cap : Nat) (src : List Byte) (fail : Bool) : JobEnd :=
  let c := ctx.getD ⟨j.ctx, j.engine, j.wrap, j.level, [], 1, 0, 0xFFFFFFFF, 0⟩
  let (a, b) := src.foldl adlerStep (c.adlerA, c.adlerB)
  let crc := src.foldl (fun r x => crc32Byte r x.toNat) c.crc
  let len := c.len + src.length
  let adler := b * 65536 + a
  let sum := Nat.xor crc 0xFFFFFFFF
  let body := deflateBody j.level c.hist j.flush src
  let out := (if ctx.isNone then wrapHead j.wrap j.level else []) ++ body ++
    (if j.flush = 0 then wrapTail j.wrap adler sum len else [])
  let all := c.hist ++ src
  let next : JobCtx := { c with hist := if j.flush = 1 then all.drop (all.length - 32768) else [], adlerA := a, adlerB := b
                                crc := crc, len := len }
  let n := src.length
  if n ≤ out.length ∧ n ≤ cap then ⟨1, 0, 0, none, 0, n, out.take n, none⟩
  else if cap < out.length then ⟨2, 0, cap, none, 0, n, out.take cap, none⟩
  else if fail || !bodyDecodes c.hist j.flush body src then ⟨5, 0, out.length, none, 0, n, out, none⟩
  else ⟨0, 0, out.length, some (auxOf j.wrap adler sum), 0, n, out, if j.flush = 0 then none else some next⟩

/-- A decompress or FRB decode job (R271). -/
def decodeJob (j : Job) (cap : Nat) (src : List Byte) : JobEnd :=
  let r := if j.op = 1 then inflate j.wrap j.limit cap src else frbDecode cap src
  let n := r.out.length
  match r.err with
  | none => ⟨0, 0, n, some (if j.op = 1 then auxOf j.wrap (adler32 r.out) (crc32 r.out) else crc32 r.out), 0, r.used, r.out, none⟩
  | some (code, ofs) =>
    if code = infFull then ⟨2, 0, n, none, 0, r.used, r.out, none⟩
    else if code = 17 then ⟨3, 17, n, none, ofs, r.used, r.out, none⟩
    else ⟨4, code, n, some ofs, ofs, r.used, r.out, none⟩

/-- A word of a job's output that its writes cover in part and that cannot be read for the merge: its offset in the output
(R277, Table 12.3). -/
def outLost (m : Memory) : List (Nat × Nat) → Nat → Nat → Option Nat
  | [], _, _ => none
  | (a, k) :: rest, off, left =>
    let n := min k left
    if n = 0 then none
    else
      let bad (w : Nat) : Bool := decide (w < a ∨ a + n < w + 8) && m.lost w
      match [a / 8 * 8, (a + n - 1) / 8 * 8].find? bad with
      | some w => some (off + (w - a))
      | none => outLost m rest (off + n) (left - n)

/-- JOB_COMPLETE (R268 to R271): the job on an engine ends and its record is written, once the host has room for it. -/
def jobComplete (n : Fin 32) (fail : Bool) (x : DM) : DM :=
  let (d, m) := x
  match jobOn d n with
  | none => x
  | some j =>
    if cqFull d then x
    else
      let ctx := if j.op = 0 then d.arch.ctxs.find? fun c => c.c == j.ctx else none
      let who : Reader := ⟨8, none, none, false⟩
      let (mr, y) := if j.force = 0 then readRange x j.src j.len who else (m, x)
      let lost := (mr.checks.filter fun c => decide (j.src / 8 * 8 ≤ c.1 ∧ c.1 < j.src + j.len) && mr.lost c.1).map Prod.fst
      let cap := (j.chain.map Prod.snd).sum
      let r : JobEnd :=
        if j.force ≠ 0 then ⟨j.force, 0, 0, none, 0, 0, [], none⟩
        else match lost.foldl (fun (b : Option Nat) a => some (b.elim a (min a))) none with
          | some a => ⟨7, 0, 0, some (a - j.src), 0, a - j.src, [], none⟩
          | none =>
            let src := mr.take j.src j.len
            let e := if j.op = 0 then compressJob j ctx cap src fail else decodeJob j cap src
            match outLost y.2 j.chain 0 e.bytes.length with
            | some o => { e with status := 7, err := 0, outLen := o, aux := some o, errAt := 0, bytes := e.bytes.take o, ctx := none }
            | none => e
      let d := y.1.updArch fun a =>
        { a with jobs := a.jobs.filter fun q => q.engine != n.val
                 ctxs := if j.op = 0 && r.status != 6 then (a.ctxs.filter fun c => c.c != j.ctx) ++ r.ctx.toList else a.ctxs }
      let d := if j.op = 0 ∧ j.force = 0 then verifyCount d n (b2n (r.status == 5))
        else if j.force = 0 then verifyCount d n 0 else d
      let d := if r.err ≠ 0 then
          ((d.wr (Z.LAST_ERR.CODE n) r.err).wr (Z.LAST_ERR_OFS.OFS n) r.errAt).irq (Page.Z n) Z.irq.DECODE_ERR else d
      let d := d.inc (Z.JOB_CNT.CNT n)
      let io (d : Dev) (lo hi : Fld) (k : Nat) : Dev := d.wr2 lo hi (d.rd2 lo hi + k)
      let d := if j.force = 0 then
          io (io d (Z.IN_LO.BYTES n) (Z.IN_HI.BYTES n) r.used) (Z.OUT_LO.BYTES n) (Z.OUT_HI.BYTES n) r.bytes.length else d
      let z := putCompletion (putChain who (d, y.2) j.chain r.bytes) j.idx j.tag r.status r.err n.val r.outLen r.aux
      (zShow (ctxShow z.1) n, z.2)

/-- JOB_ABORT (R270): every running job ends with ABORTED, every context closes. -/
def jobAbort (x : DM) : DM :=
  let d1 := ctxShow (x.1.updArch fun a => { a with jobs := a.jobs.map fun j => { j with force := 8 }, ctxs := [] })
  (List.finRange 32).foldl (fun x n => jobComplete n false x) (d1, x.2)

/-- What the pool held is lost: open chunks, and records not yet sent (R267). -/
def archPoolLost (d : Dev) : Dev :=
  let (mine, side) := d.arch.recs.partition fun r => r.cseq.isSome
  let pend := (d.arch.chunks.map fun c => c.dSeen + c.fSeen).sum
  let held := (mine.map fun r => r.bytes.length).sum
  let lines := (d.arch.chunks.map fun c => c.lines.length).sum + (mine.map ArchRec.lines).sum
  let d1 := bookDropped (bookHeld (bookPending d (-(pend : Int))) (-(held : Int))) (pend + held)
  let d2 := (d1.addCnt ZCTL.LINES_LOST.CNT lines).irqIf (lines != 0) Page.ZCTL ZCTL.irq.LINES_LOST
  zShowAll (archQShow ((d2.updArch fun a => { a with chunks := [], recs := side }).wr ZCTL.POOL_FREE.N 16384))

/-- Degraded mode (R267): the pool is lost, the running jobs and the queue end with NO_MEM. -/
def archDegrade (x : DM) : DM :=
  let d := (archPoolLost x.1).updArch fun a => { a with jobs := a.jobs.map fun j => { j with force := 7 } }
  let y := (List.finRange 32).foldl (fun x n => jobComplete n false x) (archShow (d.wr ZCTL.STATUS.DEGRADED 1), x.2)
  (List.range 255).foldl (fun x _ => jobStart x) y

/-- Degraded mode ends (R288). -/
def archRecover (d : Dev) : Dev := archShow (d.wr ZCTL.STATUS.DEGRADED 0)

/-! ## Meanings -/

def execArchiveLine (s : State) : Host.Outcome State Fault Refusal := s.onDev archiveLine
def execChunkDispatch (s : State) : Host.Outcome State Fault Refusal := s.onDev chunkDispatch
def execBufferLink (n : Fin 32) (frb : Bool) (s : State) : Host.Outcome State Fault Refusal := s.onDev (bufferLink n frb)
def execChunkDecide (n : Fin 32) (dFail fFail : Bool) (s : State) : Host.Outcome State Fault Refusal :=
  s.onDev (chunkDecide n dFail fFail)
def execBudgetTick (s : State) : Host.Outcome State Fault Refusal := s.onDev budgetTick
def execRecordSent (port : Fin 2) (s : State) : Host.Outcome State Fault Refusal := s.onDev (recordSent port)
def execClrFault (n : Fin 32) (s : State) : Host.Outcome State Fault Refusal := s.onDev (clrFault n)
def execJqTailWrite (idx : Nat) (s : State) : Host.Outcome State Fault Refusal := s.onDev (jqTailWrite idx)
def execJobStart (s : State) : Host.Outcome State Fault Refusal := s.onBoth jobStart
def execJobComplete (n : Fin 32) (verifyFail : Bool) (s : State) : Host.Outcome State Fault Refusal :=
  s.onBoth (jobComplete n verifyFail)
def execCqHeadWrite (idx : Nat) (s : State) : Host.Outcome State Fault Refusal := s.onDev (cqHeadWrite idx)
def execJobAbort (s : State) : Host.Outcome State Fault Refusal := s.onBoth jobAbort
def execSideStreamPacket (p : Fin 16) (vc : Fin 16) (dt : Nat) (packet : Packet) (s : State) : Host.Outcome State Fault Refusal :=
  s.onDev (sideStreamPacket p vc dt packet.bytes packet.crcOk packet.corrected)

end Sys2Proof.Machine
end

