-- ==== Sys2Proof/Machine/Fabric.lean ====
section
/-! DEFINITION. Memory and integrity (spec/12_memory_and_integrity.md): operations on the fabric and their tokens, reads checked
by the code, what a lost object costs its reader, the scrubber, and the causes of degraded mode. -/

namespace Sys2Proof.Machine

def Dev.updInteg (d : Dev) (g : Integ → Integ) : Dev := { d with integ := g d.integ }

/-! ## Tokens (R283, R284) -/

/-- FREE and what follows it. -/
def setFree (d : Dev) (n : Nat) : Dev :=
  let d1 := (d.wr FAB.TOK_STAT0.FREE n).wr FAB.FREE_MIN.N (min n (d.rd FAB.FREE_MIN.N))
  let low := decide (n < d.rd FAB.TOK_LOW_THR.N)
  (d1.wrB FAB.STATUS.TOK_LOW low).irqIf (low && !d.on FAB.STATUS.TOK_LOW) Page.FAB FAB.irq.TOK_LOW

/-- Whether a class may take a token. -/
def mayTake (d : Dev) (k : Nat) : Bool :=
  let h := d.rd (FAB.HELD.N k)
  let others := ((List.range 8).filter fun j => j != k).map fun j => d.rd (FAB.RESERVE.N j) - d.rd (FAB.HELD.N j)
  decide (h < d.rd (FAB.LIMIT.N k)) && (decide (h < d.rd (FAB.RESERVE.N k)) || decide (others.sum < d.rd FAB.TOK_STAT0.FREE)) &&
    d.rd FAB.TOK_STAT0.FREE != 0

/-- One request at a CLK_FAB edge: `n` tokens may still be issued. No HBM operation is issued in degraded mode (Table 12.7):
such a request ends with NO_MEM. -/
def issueOne (s : Nat × Dev) (r : TokReq) : Nat × Dev :=
  let d := s.2
  let noMem := r.hbm && (d.on MEM.STATUS.DEGRADED || d.integ.degWait.isSome)
  if s.1 = 0 ∨ noMem ∨ !mayTake d r.cls then s
  else
    let d1 := if r.waited then d.inc (FAB.WAIT_CNT.CNT r.cls) else d
    let d2 := (d1.wr FAB.TOK_STAT0.INFLIGHT (d1.rd FAB.TOK_STAT0.INFLIGHT + 1)).wr (FAB.HELD.N r.cls) (d1.rd (FAB.HELD.N r.cls) + 1)
    let d3 := d2.wr2 FAB.ISSUED_LO.CNT FAB.ISSUED_HI.CNT (d2.rd2 FAB.ISSUED_LO.CNT FAB.ISSUED_HI.CNT + 1)
    let d4 := setFree d3 (d3.rd FAB.TOK_STAT0.FREE - 1)
    (s.1 - 1, d4.updInteg fun i => { i with ops := i.ops ++ [⟨r.cls, r.hbm, d.now⟩] })

/-- TOKEN_ISSUE (R283): the requests waiting at one edge, in order of request; at most four are issued in ascending class. -/
def tokenIssue (reqs : List TokReq) (d : Dev) : Dev :=
  let sorted := (List.finRange 8).flatMap fun (k : Fin 8) => reqs.filter fun r => r.cls == k
  (sorted.foldl issueOne (4, d)).2

/-- An operation ends: its token counts as RETURNING. -/
def opEnds (d : Dev) (i : Nat) (o : FabTok) : Dev :=
  let d1 := (d.wr FAB.TOK_STAT0.INFLIGHT (d.rd FAB.TOK_STAT0.INFLIGHT - 1)).wr FAB.TOK_STAT1.RETURNING
    (d.rd FAB.TOK_STAT1.RETURNING + 1)
  d1.updInteg fun g => { g with ops := g.ops.eraseIdx i, returning := g.returning ++ [(o.cls, d.now)] }

/-- TOKEN_RETURN (R284): a token whose operation ended two CLK_FAB cycles ago joins the free list. -/
def tokenReturn (d : Dev) : Dev :=
  match d.integ.returning with
  | [] => d
  | (k, t) :: rest =>
    if d.now < t + 40 then d
    else
      let d1 := d.updInteg fun i => { i with returning := rest }
      let d2 := (d1.wr FAB.TOK_STAT1.RETURNING (d1.rd FAB.TOK_STAT1.RETURNING - 1)).wr (FAB.HELD.N k) (d1.rd (FAB.HELD.N k) - 1)
      let d3 := d2.wr2 FAB.RETIRED_LO.CNT FAB.RETIRED_HI.CNT (d2.rd2 FAB.RETIRED_LO.CNT FAB.RETIRED_HI.CNT + 1)
      setFree d3 (d3.rd FAB.TOK_STAT0.FREE + 1)

/-- The consistency check of R283: cause and class. -/
def fabCheck (v : Fld → Nat) : Option (Nat × Nat) :=
  if 16384 < ((List.range 8).map fun k => v (FAB.RESERVE.N k)).sum then some (1, 0)
  else ((List.range 8).find? fun k => decide (v (FAB.LIMIT.N k) < v (FAB.RESERVE.N k))).map fun k => (2, k)

/-! ## Checked completions (R276 to R280) -/

/-- Bits of a stored 72-bit word inverted: data bits 0 to 63, check bits 64 to 71. -/
def Memory.flip (m : Memory) (a f : Nat) : Memory :=
  let w := a / 8 * 8
  let chk := Nat.xor ((m.storedCheck w).getD (checkByte (m.u64 w))) (f / 2 ^ 64 % 256)
  let m1 := m.write w (leBytes 8 (Nat.xor (m.u64 w) (f % 2 ^ 64)))
  let m2 := m1.clearChecks w 8
  if chk = checkByte (m1.u64 w) then m2 else { m2 with checks := (w, BitVec.ofNat 8 chk) :: m2.checks }

/-- The syndrome of inverted bits: the code is linear. -/
def flipSyndrome (f : Nat) : Nat := Nat.xor (checkByte (f % 2 ^ 64)) (f / 2 ^ 64 % 256)

/-- What the loss of an object costs its reader (Table 12.3). -/
def lostTarget (t : FabTarget) (d : Dev) : Dev :=
  match t with
  | .word a _ _ _ _ => d.updInteg fun i => { i with gone := homeAddr a / 8 * 8 :: i.gone }
  | .transitRead a _ _ _ _ => d.updInteg fun i => { i with gone := homeAddr a / 8 * 8 :: i.gone }
  | .transit _ _ => d
  | .stagger p w => d.updStitch fun s => { s with segs := s.segs.filter fun g => !(g.port == p.val && g.wln == w) }
  | .mapCell h k c =>
    let out (r : MapRow) : MapRow :=
      if r.k == k then { r with cells := r.cells.zipIdx.map fun x => if (x.2 : Int) = c then (x.1.1, x.1.2.1, false) else x.1 } else r
    d.updHead h fun q => { q with finals := q.finals.map out, cells := q.cells.filter fun x => !(x.1.1 == k && (x.1.2 : Int) == c) }
  | .blob id => blobLost id d
  | .slot idx both =>
    if !both then d
    else
      let d1 := allValves.foldl (fun (d : Dev) (c : Fin 16) =>
        d.updRun c fun r => if r.slot == some idx then { r with slot := none } else r) d
      slotResult d1 idx 2 0xFFFF 0 none
  | .tagRecord uid =>
    if (d.tags.kept.any fun r => r.2.uid == uid) || d.tags.waiting.any fun r => r.uid == uid then
      let d1 := (d.inc TAG.HOST_LOST_CNT.CNT).irq Page.TAG TAG.irq.HOST_LOST
      hqShow (match d1.tags.waiting.find? fun r => r.uid == uid with
        | some r => passSseq d1 r
        | none => d1.updTags fun t => { t with kept := t.kept.filter fun r => r.2.uid != uid })
    else d
  | .archive cseq => archRecordLost d cseq

/-- REQ, MEM, PORT and THERMAL of an object without an address. -/
def targetReader (d : Dev) (t : FabTarget) : Nat × Reader :=
  match t with
  | .word a r s p th => (memOf a, ⟨r, s, p, th⟩)
  | .transitRead _ r s p th => (2, ⟨r, s, p, th⟩)
  | .transit _ r => (2, ⟨r, none, none, false⟩)
  | .stagger p _ => (if 16 < d.rd (STITCH.STAGGER.D p) then 0 else 1, ⟨3, none, some p, false⟩)
  | .mapCell h _ _ => (0, ⟨5, none, some h, true⟩)
  | .blob _ => (1, ⟨4, none, none, false⟩)
  | .slot _ _ => (1, ⟨6, none, none, false⟩)
  | .tagRecord _ => (1, ⟨11, none, none, false⟩)
  | .archive _ => (0, ⟨7, none, none, false⟩)

/-- An object without an address read with `flip` inverted: its address in the log is a free value (log entry 3). -/
def readObject (t : FabTarget) (flip : Nat) (x : DM) : DM :=
  let (d, m) := x
  let (mem, r) := targetReader d t
  let syn := flipSyndrome flip
  match classify syn with
  | .good => x
  | .single k => let (a, d1) := d.free 40; (d1.errPut ET.ce mem (some k) syn r a, m)
  | .poison => let (a, d1) := d.free 40; (lostTarget t (d1.errPut ET.poisonRd mem none syn r a), m)
  | .bad =>
    let (a, d1) := d.free 40
    let d2 := d1.errPut ET.ue mem none syn r a
    (lostTarget t (if mem = 0 then noteUe d2 else d2), m)

/-- A beat of a write checked at the controller (R277): a single error is written correct, an uncorrectable beat as poison. -/
def transitBeat (a req flip : Nat) (x : DM) : DM :=
  let (d, m) := x
  let syn := flipSyndrome flip
  let r : Reader := ⟨req, none, none, false⟩
  match classify syn with
  | .good => x
  | .single k => (d.errPut ET.ce 2 (some k) syn r a, m)
  | .poison => (d, m.setPoison a)
  | .bad => (d.errPut ET.ue 2 none syn r a, m.setPoison a)

/-- A beat of a read checked by its reader (R277): a single error is corrected, an uncorrectable beat is lost to this reader; the
word in memory is not changed. -/
def readBeat (t : FabTarget) (a flip : Nat) (x : DM) : DM :=
  let (d, m) := x
  let syn := flipSyndrome flip
  let r := (targetReader d t).2
  match classify syn with
  | .good => x
  | .single k => (d.errPut ET.ce 2 (some k) syn r a, m)
  | .poison => (lostTarget t (d.errPut ET.poisonRd 2 none syn r a), m)
  | .bad => (lostTarget t (d.errPut ET.ue 2 none syn r a), m)

/-- FABRIC_OP_COMPLETE (R277): the oldest operation of the class ends (an owner path has none); `flip` are the bits that were
found inverted. A completion of no operation in flight is discarded (R285). -/
def fabricOpComplete (cls : Option (Fin 8)) (t : FabTarget) (flip : Nat) (x : DM) : DM :=
  let check (x : DM) : DM :=
    match t with
    | .word a r s p th => readWord ⟨r, s, p, th⟩ (x.1, x.2.flip (homeAddr a) flip) (homeAddr a)
    | .transit a r => transitBeat (homeAddr a) r flip x
    | .transitRead a _ _ _ _ => readBeat t a flip x
    | _ => readObject t flip x
  match cls with
  | none => check x
  | some k =>
    match x.1.integ.ops.zipIdx.find? fun o => o.1.cls == k.val with
    | none => x
    | some (o, i) => check (opEnds x.1 i o, x.2)

/-- CE_WRITEBACK (R278): the oldest corrected word is written back, unless a write has reached it. -/
def ceWriteback (x : DM) : DM :=
  let (d, m) := x
  match d.integ.wb with
  | [] => x
  | (a, v) :: rest =>
    let d1 := d.updInteg fun i => { i with wb := rest }
    match m.wordState a with
    | .single _ => if m.u64 a = v then (d1, m.fixWord a) else (d1.inc MEM.WB_DROP_CNT.CNT, m)
    | _ => (d1.inc MEM.WB_DROP_CNT.CNT, m)

/-- FABRIC_TIMEOUT (R285): the class's oldest operation, TIMEOUT_US after its issue. -/
def fabricTimeout (k : Fin 8) (t : FabTarget) (d : Dev) : Dev :=
  match d.integ.ops.zipIdx.find? fun o => o.1.cls == k.val with
  | none => d
  | some (o, i) =>
    if d.now < o.t + max 1 (d.rd FAB.TIMEOUT_US.US) * 16000 then d
    else
      let (_, r) := targetReader d t
      let (a, d1) := match t with
        | .word a _ _ _ _ => (a, d)
        | .transit a _ => (a, d)
        | .transitRead a _ _ _ _ => (a, d)
        | _ => d.free 40
      let d2 := ((opEnds d1 i o).errPut ET.timeout (if o.hbm then 0 else 1) none 0 r a).inc FAB.TIMEOUT_CNT.CNT
      let d3 := lostTarget t (d2.irq Page.FAB FAB.irq.TIMEOUT)
      if o.hbm then
        let ts := d3.now :: d3.integ.toTimes.filter fun q => decide (d3.now < q + 16000000)
        let d4 := d3.updInteg fun g => { g with toTimes := ts }
        if 16 ≤ ts.length then degradeCause d4 4 else d4
      else d3

/-! ## Scrubbing (R282) -/

/-- SCRUB_PAUSED: throttle step 1 or degraded mode. -/
def scrubShow (d : Dev) : Dev := d.wrB MEM.STATUS.SCRUB_PAUSED (d.on THM.STATUS.STEP || d.on MEM.STATUS.DEGRADED)

/-- One word the scrubber reads, at its place in the stack or the SRAM. -/
def scrubWord (addr flip : Nat) (x : DM) : DM :=
  let a := homeAddr addr
  let (d, m) := (x.1, x.2.flip a flip)
  let r : Reader := ⟨10, none, none, false⟩
  let mem := memOf a
  let syn := Nat.xor ((m.storedCheck a).getD 0) (checkByte (m.u64 a))
  match m.wordState a with
  | .good => (d, m)
  | .poison => (d, m)
  | .single k =>
    let y := noteRow (d.errPut ET.scrubCe mem (some k) syn r addr, m) a r
    if d.on MEM.CTL.CE_WB then (y.1.updInteg fun i => { i with wb := i.wb ++ [(a, m.u64 a)] }, y.2) else y
  | .bad =>
    let d1 := d.errPut ET.scrubUe mem none syn r addr
    (if mem = 0 then noteUe d1 else d1, m.setPoison a)

/-- SCRUB_READ (R282): the next word of the stack, or of the SRAM that the data space maps. -/
def scrubRead (hbm : Bool) (flip : Nat) (x : DM) : DM :=
  let d := x.1
  if d.on THM.STATUS.STEP || (hbm && d.on MEM.STATUS.DEGRADED) then x
  else if hbm then
    let a := max 0x400000000 (d.rd2 MEM.SCRUB_POS_LO.ADDR MEM.SCRUB_POS_HI.ADDR)
    let y := scrubWord a flip x
    if 0x7E0000000 ≤ a + 8 then
      let d1 := (y.1.updInteg fun i => { i with rows := [] }).irq Page.MEM MEM.irq.SCRUB_PASS
      (d1.wr2 MEM.SCRUB_POS_LO.ADDR MEM.SCRUB_POS_HI.ADDR 0x400000000, y.2)
    else (y.1.wr2 MEM.SCRUB_POS_LO.ADDR MEM.SCRUB_POS_HI.ADDR (a + 8), y.2)
  else
    let a := d.integ.sramPos
    let y := scrubWord a flip x
    let next := if a + 8 = 0x02000000 then 0x05000000 else a + 8
    if 0x10000000 ≤ next then ((y.1.updInteg fun i => { i with sramPos := 0x01000000 }).irq Page.MEM MEM.irq.SCRUB_PASS, y.2)
    else (y.1.updInteg fun i => { i with sramPos := next }, y.2)

/-- STACK_OT and DEGRADE (Table 12.6): causes 5 and 6. -/
def stackOt (d : Dev) : Dev := degradeCause d 5
def degrade (d : Dev) : Dev := degradeCause d 6

/-- Table 12.7, once a cause is detected: HBM operations in flight end, the units that need the stack stop. -/
def degradedEnter (x : DM) : DM :=
  let d := x.1
  match d.integ.degWait with
  | none => x
  | some c =>
    let d := (d.integ.ops.filter FabTok.hbm).foldl (fun d _ =>
      match d.integ.ops.zipIdx.find? fun o => o.1.hbm with
      | some (o, i) => opEnds d i o
      | none => d) d
    let d := d.updInteg fun i => { i with degWait := none, recovering := false, autoTries := 0 }
    let d := ((d.wr MEM.STATUS.DEGRADED 1).wr MEM.STATUS.HBM_READY 0).irq Page.MEM MEM.irq.DEGRADED
    let d := (d.wr MEM.DEG_CAUSE.CAUSE c).wr MEM.DEG_CAUSE.TRIES 0
    let d := d.errPut ET.degraded 0 none 0 ⟨9, none, none, false⟩ 0
    let d := thermDegrade (stitchDegrade (allPipes.foldl pipeDegrade d))
    archDegrade (scrubShow d, x.2)

/-- RECOVER (R288): the core retrains the stack. -/
def recover (d : Dev) : Dev :=
  if d.on MEM.STATUS.DEGRADED && !d.on MEM.STATUS.HBM_READY && !d.integ.recovering then
    (d.wrSat MEM.DEG_CAUSE.TRIES (d.rd MEM.DEG_CAUSE.TRIES + 1)).updInteg fun i => { i with recovering := true }
  else d

/-- AUTO_RECOVER (R288): causes 1, 2 and 4, at most eight tries. TRIES has three bits: the eighth try shows 7. -/
def autoRecover (d : Dev) : Dev :=
  let c := d.rd MEM.DEG_CAUSE.CAUSE
  if d.on MEM.CTL.AUTO_RECOVER && (c == 1 || c == 2 || c == 4) && decide (d.integ.autoTries < 8) && d.past .recover oneS then
    let d1 := recover d
    if d1.integ.recovering && !d.integ.recovering then (d1.updInteg fun i => { i with autoTries := i.autoTries + 1 }).start .recover else d1
  else d

/-- ERROR_LOG_READ (R281): word 7 of an entry read marks it read. -/
def errorLogRead (idx : Fin 64) (d : Dev) : Dev :=
  { d with errLog := d.errLog.map fun e => if e.idx == idx.val then { e with read := true } else e }

/-! ## Meanings -/

def execFabricOpComplete (cls : Option (Fin 8)) (target : FabTarget) (flip : Nat) (s : State) : Host.Outcome State Fault Refusal :=
  s.onBoth (fabricOpComplete cls target flip)
def execCeWriteback (s : State) : Host.Outcome State Fault Refusal := s.onBoth ceWriteback
def execTokenIssue (reqs : List TokReq) (s : State) : Host.Outcome State Fault Refusal := s.onDev (tokenIssue reqs)
def execTokenReturn (s : State) : Host.Outcome State Fault Refusal := s.onDev tokenReturn
def execFabricTimeout (cls : Fin 8) (target : FabTarget) (s : State) : Host.Outcome State Fault Refusal :=
  s.onDev (fabricTimeout cls target)
def execScrubRead (hbm : Bool) (flip : Nat) (s : State) : Host.Outcome State Fault Refusal := s.onBoth (scrubRead hbm flip)
def execStackOt (s : State) : Host.Outcome State Fault Refusal := s.onDev stackOt
def execDegrade (s : State) : Host.Outcome State Fault Refusal := s.onDev degrade
def execRecover (s : State) : Host.Outcome State Fault Refusal := s.onDev recover
def execAutoRecover (s : State) : Host.Outcome State Fault Refusal := s.onDev autoRecover
def execErrorLogRead (idx : Fin 64) (s : State) : Host.Outcome State Fault Refusal := s.onDev (errorLogRead idx)

end Sys2Proof.Machine
end

