-- ==== Sys2Proof/Machine/Host.lean ====
section
/-! DEFINITION. Host ports and THP (spec/13_host_protocol.md): frames received, sessions, streams, jobs over THP, IEEE 1588 and
the loss of a port. Register and memory access stand in Machine/Access.lean. -/

namespace Sys2Proof.Machine

def Dev.updHost (d : Dev) (g : HostSt → HostSt) : Dev := { d with host := g d.host }

/-- Whether a port's link is up. -/
def portUp (d : Dev) (p : Nat) : Bool := if p = 0 then d.on HOST.STATUS.HA_UP else d.on HOST.STATUS.HB_UP

/-- A frame arrives on a port that is up. -/
def rxFrame (d : Dev) (p : Nat) : Dev := d.inc (if p = 0 then HOST.RX_FRAMES_HA.CNT else HOST.RX_FRAMES_HB.CNT)

/-- A discarded frame (R293). -/
def rxDrop (d : Dev) : Dev := d.inc HOST.RX_DROP_CNT.CNT

/-- KIND of the frames that are no THP datagrams, as the output log writes them: ARP request and reply, ICMP echo reply, and the
IEEE 1588 messages by their type. -/
def FK.arpRequest : Nat := 0x101
def FK.arpReply : Nat := 0x102
def FK.echoReply : Nat := 0x103
def FK.sync : Nat := 0x110
def FK.delayReq : Nat := 0x111
def FK.followUp : Nat := 0x118
def FK.delayResp : Nat := 0x119
def FK.announce : Nat := 0x11B

/-! ## ARP and ICMP (R293) -/

/-- An address entered or refreshed in a port's cache of 16 entries; a full cache loses the entry unused the longest. -/
def arpPut (d : Dev) (p ip mac : Nat) : Dev :=
  d.updHost fun h =>
    let mine := (h.arp.filter fun e => e.port == p && e.ip != ip).take 15
    { h with arp := ⟨p, ip, mac, d.now⟩ :: mine ++ h.arp.filter fun e => e.port != p }

/-- ARP_REQUEST: answered for the port's own address. -/
def arpRequest (p : Fin 2) (target ip mac : Nat) (d : Dev) : Dev :=
  if !portUp d p then d
  else
    let d1 := rxFrame d p
    if portIp d p = 0 ∨ target ≠ portIp d p then rxDrop d1 else sendFrame (arpPut d1 p ip mac) p FK.arpReply [ip, mac, portIp d p]

/-- ARP_REPLY. -/
def arpReply (p : Fin 2) (ip mac : Nat) (d : Dev) : Dev :=
  if !portUp d p then d else if portIp d p = 0 then rxDrop (rxFrame d p) else arpPut (rxFrame d p) p ip mac

/-- ARP_AGE: 300 s without use (4.8 × 10^12 units of 1/16 ns). -/
def arpAge (p : Fin 2) (ip : Nat) (d : Dev) : Dev :=
  d.updHost fun h => { h with arp := h.arp.filter fun e => !(e.port == p.val && e.ip == ip && decide (e.used + 4800000000000 ≤ d.now)) }

/-- An ARP request for a session's host on both ports. -/
def arpResolve (d : Dev) (ip : Nat) : Dev :=
  (List.range 2).foldl (fun d p => if portUp d p && portIp d p != 0 then sendFrame d p FK.arpRequest [nextHop d p ip] else d) d

/-- The open sessions. -/
def openSessions (d : Dev) : List Nat := (List.range 4).filter fun j => d.on (HOST.SESS_STAT.STATE j)

/-- ARP_REFRESH. -/
def arpRefresh (d : Dev) : Dev := (openSessions d).foldl (fun d j => arpResolve d (d.rd (HOST.SESS_IP.IP j))) d

/-- ICMP_ECHO_REQUEST. -/
def icmpEchoRequest (p : Fin 2) (ip len : Nat) (d : Dev) : Dev :=
  if !portUp d p then d
  else
    let d1 := rxFrame d p
    if d.on HOST.CTL.ICMP_EN && portIp d p != 0 && decide (len ≤ 1472) then sendFrame d1 p FK.echoReply [ip, len] else rxDrop d1

/-- FRAME_DISCARD. -/
def frameDiscard (p : Fin 2) (badFcs : Bool) (d : Dev) : Dev :=
  if !portUp d p then d
  else
    let d1 := rxDrop (rxFrame d p)
    if badFcs then d1.inc HOST.FCS_ERR_CNT.CNT else d1

/-! ## Requests (R294 to R299) -/

/-- A THP datagram is taken: the port is up with an address, and THP is accepted. -/
def thpTaken (d : Dev) (p : Nat) : Bool := portUp d p && portIp d p != 0 && d.on HOST.CTL.THP_EN

/-- BAD_THP (R294). -/
def badThp (p : Fin 2) (d : Dev) : Dev :=
  if !portUp d p then d
  else if !thpTaken d p then rxDrop (rxFrame d p)
  else (rxFrame d p).inc HOST.BAD_THP_CNT.CNT

/-- The open session a request names. -/
def findSession (d : Dev) (r : ThpReq) : Option Nat :=
  (openSessions d).find? fun j => d.rd (HOST.SESS_IP.IP j) == r.ip && d.rd (HOST.SESS_PORTS.CTL_PORT j) == r.udp &&
    d.rd (HOST.SESS_ID.ID j) == r.session

/-- Whether SEQ is older than all 16 kept answers. -/
def tooOld (s : Sess) (seq : Nat) : Bool :=
  decide (16 ≤ s.kept.length) && s.kept.all fun e => decide (0 < (e.1 + 2 ^ 32 - seq) % 2 ^ 32 ∧ (e.1 + 2 ^ 32 - seq) % 2 ^ 32 < 2 ^ 31)

/-- A request up to the point where it is executed: the session that executes it, if it is. `kind` is the KIND of its answer. -/
def takeRequest (r : ThpReq) (kind : Nat) (d : Dev) : Option Nat × Dev :=
  if !portUp d r.port then (none, d)
  else if !thpTaken d r.port then (none, rxDrop (rxFrame d r.port))
  else
    let d1 := rxFrame d r.port
    match findSession d1 r with
    | none => (none, sendFrame d1 r.port kind [r.session, r.seq, 3])
    | some j =>
      let d1 := d1.start (.session j)
      let s := d1.host.sess[Fin.ofNat 4 j]
      match s.kept.find? fun e => e.1 == r.seq with
      | some e => (none, (e.2.foldl (fun d f => sendFrame (arpUse d r.port j) r.port f.1 (r.session :: r.seq :: f.2)) d1).inc HOST.DUP_REQ_CNT.CNT)
      | none =>
        if tooOld s r.seq then (none, d1.inc HOST.DUP_REQ_CNT.CNT)
        else if !r.lenOk then (none, answer d1 r.port j r.seq [(kind, [2])])
        else (some j, d1.inc (HOST.SESS_REQ_CNT.CNT j))

/-- A request with its effect on the device. -/
def request (r : ThpReq) (kind : Nat) (g : Nat → Dev → Dev) (d : Dev) : Dev :=
  match takeRequest r kind d with
  | (some j, d1) => g j d1
  | (none, d1) => d1

/-- A request with its effect on the device and the data space. -/
def requestBoth (r : ThpReq) (kind : Nat) (g : Nat → DM → DM) (x : DM) : DM :=
  match takeRequest r kind x.1 with
  | (some j, d1) => g j (d1, x.2)
  | (none, d1) => (d1, x.2)

/-- Minor version of a session. -/
def minorOf (d : Dev) (j : Nat) : Nat := d.rd (HOST.SESS_STAT.VER j) % 16

/-- UNKNOWN_KIND: BAD_KIND. -/
def unknownKind (r : ThpReq) (kind : Nat) (d : Dev) : Dev :=
  request r kind (fun j d => answer d r.port j r.seq [(kind, [1])]) d

/-- KEEPALIVE. -/
def keepalive (r : ThpReq) (d : Dev) : Dev := request r 5 (fun j d => answer d r.port j r.seq [(5, [0])]) d

/-! ## Sessions (R296, R298) -/

/-- Whether another session holds a stream. -/
def streamHeld (d : Dev) (s : Nat) : Bool := (openSessions d).any fun j => bitOf (d.rd (HOST.SESS_STAT.STREAMS j)) s

/-- STATUS.JQ_OWNED and STATUS.FAILOVER follow the sessions. -/
def hostShow (d : Dev) : Dev :=
  (d.wrB HOST.STATUS.JQ_OWNED (jobSession d).isSome).wrB HOST.STATUS.FAILOVER
    ((openSessions d).any fun j => d.rd (HOST.SESS_STAT.CUR j) != d.rd (HOST.SESS_STAT.HOME j))

/-- A session closes: its streams stop, its JOB right returns, its read-outs, kept answers and locks go. -/
def dropSession (d : Dev) (j : Nat) : Dev :=
  if !d.on (HOST.SESS_STAT.STATE j) then d
  else
    let d1 := (HOST.fields3 j).foldl (fun d f => d.wr f f.reset) d
    let held := bitOf (d.rd (HOST.SESS_STAT.STREAMS j)) 1
    let d1 := if held then d1.updTags fun t => { t with retx := [], moved := false } else d1
    let d2 := d1.updHost fun h => { h with sess := h.sess.set (Fin.ofNat 4 j) ⟨[], []⟩ }
    let head := (d2.snap.jobs.head?.bind SnapJob.sess).elim false fun s => s.1 == j
    let jobs := d2.snap.jobs.filter fun q => q.sess.elim true fun s => s.1 != j
    let d3 := { d2 with snap := { d2.snap with jobs := jobs }, locks := d2.locks.filter fun l => l.who != Requester.session j }
    let d4 := if head then snapNextJob jobs d3 else d3
    hostShow (d4.irq Page.HOST HOST.irq.SESS_CLOSE)

/-- The entry that admits an address (R296). -/
def admits? (d : Dev) (ip : Nat) : Option Nat :=
  (List.range 4).find? fun k =>
    let n := min 32 (d.rd (HOST.ALLOW_CFG.PREFIX k))
    d.on (HOST.ALLOW_CFG.EN k) && ip / 2 ^ (32 - n) == d.rd (HOST.ALLOW_ADDR.IP k) / 2 ^ (32 - n)

/-- OPEN (R296). SESSION is a value of the module's own, a free value (log entry 3). -/
def openSession (r : ThpReq) (major minorMax streams dataPort : Nat) (d : Dev) : Dev :=
  if !portUp d r.port then d
  else if !thpTaken d r.port then rxDrop (rxFrame d r.port)
  else
    let d := rxFrame d r.port
    let ack (d : Dev) (st : Nat) : Dev := sendFrame d r.port 2 [0, r.seq, st, 0, 0, 0, 0, 0x30, 0x32]
    if !r.lenOk then ack d 2
    else
      match admits? d r.ip with
      | none => (ack (d.inc HOST.DENIED_CNT.CNT) 4).irq Page.HOST HOST.irq.DENIED
      | some k =>
        if major ≠ 3 then ack d 5
        else
          let d := ((openSessions d).filter fun j => d.rd (HOST.SESS_IP.IP j) == r.ip &&
            d.rd (HOST.SESS_PORTS.CTL_PORT j) == r.udp).foldl dropSession d
          match (List.range 4).find? fun j => !d.on (HOST.SESS_STAT.STATE j) with
          | none => ack d 8
          | some j =>
            let granted := ([1, 2, 3].filter fun s => bitOf streams s && !streamHeld d s).foldl setBit 0
            let job := d.on (HOST.ALLOW_CFG.JOB k) && (jobSession d).isNone
            let wr := d.on (HOST.ALLOW_CFG.WR k)
            let ver := 0x30 + min minorMax 2
            let (id, d) := d.free 16
            let d := (((d.start (.session j)).wr (HOST.SESS_STAT.STATE j) 1).wr (HOST.SESS_STAT.STREAMS j) granted).wr (HOST.SESS_STAT.VER j) ver
            let d := (d.wr (HOST.SESS_STAT.HOME j) r.port).wr (HOST.SESS_STAT.CUR j) r.port
            let d := (d.wrB (HOST.SESS_STAT.WR j) wr).wrB (HOST.SESS_STAT.JOB j) job
            let d := ((d.wr (HOST.SESS_IP.IP j) r.ip).wr (HOST.SESS_PORTS.CTL_PORT j) r.udp).wr (HOST.SESS_PORTS.DATA_PORT j) dataPort
            let d := arpResolve (hostShow ((d.wr (HOST.SESS_ID.ID j) id).irq Page.HOST HOST.irq.SESS_OPEN)) r.ip
            answer d r.port j r.seq [(2, [0, ver, granted, b2n wr + 2 * b2n job, id, 0x30, 0x32])]

/-- CLOSE. -/
def closeSession (r : ThpReq) (d : Dev) : Dev := request r 3 (fun j d => dropSession (answer d r.port j r.seq [(3, [0])]) j) d

/-- SESSION_TIMEOUT: SESS_TIMEOUT ms have passed without a datagram (R298). -/
def sessionTimeout (j : Fin 4) (d : Dev) : Dev :=
  if d.past (.session j) (d.rd HOST.SESS_TIMEOUT.MS * oneMs) then dropSession d j else d

/-! ## The tag stream (R219, R220, R303, R304) -/

/-- The session that holds the tag stream. -/
def tagSession (d : Dev) : Option Nat := (openSessions d).find? fun j => bitOf (d.rd (HOST.SESS_STAT.STREAMS j)) 1

/-- The records one frame takes from a list in order: up to 16 tag records and 1,472 bytes. -/
def frameTake : Nat → Nat → List StreamRec → List StreamRec
  | _, _, [] => []
  | tags, bytes, r :: rest =>
    let t := if r.type = 0x44 then tags + 1 else tags
    let b := bytes + 4 * r.words.length
    if 16 < t ∨ 1472 < b then [] else r :: frameTake t b rest

/-- A data frame of a stream: its number on that port rises by one. -/
def dataFrame (d : Dev) (j stream kind flags : Nat) (payload : List Nat) : Dev :=
  let port := d.rd (HOST.SESS_STAT.CUR j)
  let k : Fin 4 := Fin.ofNat 4 j
  let s := d.host.sess[k]
  let n := (s.frameSeq.find? fun e => e.1 == (stream, port)).elim 0 Prod.snd
  let s' : Sess := { s with frameSeq := ((stream, port), (n + 1) % 2 ^ 32) :: s.frameSeq.filter fun e => e.1 != (stream, port) }
  sendFrame (arpUse (d.updHost fun h => { h with sess := h.sess.set k s' }) port j) port kind
    ([d.rd (HOST.SESS_ID.ID j), flags + 4 * port, n] ++ payload)

/-- A record placed: SSEQ in word 1; word 3 of a feature record is that of its tag. -/
def placeRec (d : Dev) (r : StreamRec) : Dev :=
  let n := d.rd TAG.SSEQ.NEXT
  let r := (d.tags.waiting.find? fun x => x.uid == r.uid).getD r
  let d1 := (passSseq d r).updTags fun t => { t with kept := t.kept ++ [(n, { r with words := r.words.set 1 n })] }
  (hqShow d1).toStandby .placed [(r.type : Int), (r.blob : Int), (r.close : Int), (n : Int)]

/-- The records waiting to be sent again, in SSEQ order. -/
def resendFrame (d : Dev) (j : Nat) : Dev :=
  let rs := d.tags.retx.filterMap fun s => d.tags.kept.find? fun e => e.1 == s
  let take := frameTake 0 0 (rs.map Prod.snd)
  let gone := (rs.take take.length).map Prod.fst
  let live := rs.map Prod.fst
  let d1 := (d.addCnt HOST.RETX_CNT.CNT take.length).updTags fun t =>
    { t with retx := t.retx.filter fun s => live.contains s && !gone.contains s, moved := t.moved && decide (take.length < rs.length) }
  if take.isEmpty then d1 else dataFrame d1 j 1 0x40 2 (take.flatMap StreamRec.words)

/-- TAG_FRAME_START (R219): a frame of the records that wait, in the order of preference; records sent again come after every
new one (R304), but first after a move to the other port (R308). -/
def tagFrameStart (d : Dev) : Dev :=
  match tagSession d with
  | none => d
  | some j =>
    if !d.isActive || !portUp d (d.rd (HOST.SESS_STAT.CUR j)) then d
    else if !d.tags.retx.isEmpty && (d.tags.moved || d.tags.waiting.isEmpty) then resendFrame d j
    else
      let by' (k : Nat) : List StreamRec := d.tags.waiting.filter fun r => r.rank == k
      let rs := frameTake 0 0 (by' 0 ++ by' 1 ++ by' 2)
      if rs.isEmpty then d
      else
        let d1 := rs.foldl placeRec d
        let sent := rs.filterMap fun r => d1.tags.kept.find? fun e => e.2.uid == r.uid
        dataFrame d1 j 1 0x40 0 (sent.flatMap fun e => e.2.words)

/-- Records up to an SSEQ leave the retention buffer; an acknowledgement at or below an earlier one changes nothing. -/
def ackUpTo (d : Dev) (sseq : Nat) : Dev :=
  let next := d.rd TAG.SSEQ.NEXT
  let base := (d.tags.acked.elim (2 ^ 32 - 1) id) + 1
  let k := (sseq + 2 ^ 33 - base) % 2 ^ 32
  if (next + 2 ^ 33 - base) % 2 ^ 32 ≤ k then d
  else d.updTags fun t =>
    let old (s : Nat) : Bool := decide ((s + 2 ^ 33 - base) % 2 ^ 32 ≤ k)
    { t with acked := some sseq, kept := t.kept.filter (fun e => !old e.1), retx := t.retx.filter fun s => !old s }

/-- STREAM_ACK (R304). -/
def streamAck (r : ThpReq) (sseq : Nat) (d : Dev) : Dev :=
  request r 0x30 (fun j d =>
    let d := answer d r.port j r.seq []
    if tagSession d ≠ some j then d
    else
      let d1 := ackUpTo d (sseq % 2 ^ 32)
      if d1.tags.acked == d.tags.acked then d
      else (d1.wr (HOST.SESS_ACK.SSEQ j) sseq).toStandby .hostAck [(sseq : Int)]) d

/-- The first SSEQ from `s` on (or down from it) that is not kept, at most `fuel` steps on. -/
def firstLost (kept : List Nat) (up : Bool) : Nat → Nat → Nat
  | 0, s => s
  | fuel + 1, s => if kept.contains (s % 2 ^ 32) then firstLost kept up fuel (if up then s + 1 else s + 2 ^ 32 - 1) else s % 2 ^ 32

/-- STREAM_NACK (R304): the kept records of the range are sent again; one STREAM_LOST covers those that are gone. -/
def streamNack (r : ThpReq) (first last : Nat) (d : Dev) : Dev :=
  request r 0x31 (fun j d =>
    if minorOf d j < 2 then answer d r.port j r.seq [(0x31, [1])]
    else if tagSession d ≠ some j then answer d r.port j r.seq []
    else
      let base := (d.tags.acked.elim (2 ^ 32 - 1) id) + 1
      let rel (s : Nat) : Nat := (s + 2 ^ 33 - base) % 2 ^ 32
      let sent := rel (d.rd TAG.SSEQ.NEXT)
      -- the part of the range that has been sent and is not acknowledged
      let lo := if rel first ≤ rel last ∨ last < first then rel first else 0
      let hi := min (rel last) (sent - 1)
      let kept := d.tags.kept.map Prod.fst
      let mine := kept.filter fun s => decide (lo ≤ rel s ∧ rel s ≤ hi)
      let d1 := d.updTags fun t => { t with retx := t.retx.filter (fun s => !mine.contains s) ++ mine }
      let some' := sent ≠ 0 ∧ lo ≤ hi ∧ mine.length < hi - lo + 1
      if some' then
        let a := firstLost kept true (kept.length + 1) (base + lo)
        let b := firstLost kept false (kept.length + 1) (base + hi)
        answer (d1.inc HOST.LOST_NOTICE_CNT.CNT) r.port j r.seq [(0x32, [a, b])]
      else answer d1 r.port j r.seq []) d

/-! ## Jobs over THP (R306) -/

/-- JOB_SUBMIT. -/
def jobSubmit (r : ThpReq) (desc : List Byte) (x : DM) : DM :=
  requestBoth r 0x29 (fun j x =>
    let (d, m) := x
    let t := d.rd ZCTL.JQ_TAIL.IDX
    if minorOf d j < 1 then (answer d r.port j r.seq [(0x29, [1])], m)
    else if desc.length ≠ 32 then (answer d r.port j r.seq [(0x29, [2])], m)
    else if !d.on (HOST.SESS_STAT.JOB j) then (answer d r.port j r.seq [(0x29, [4])], m)
    else if (t + 1) % 256 = d.rd ZCTL.JQ_HEAD.IDX then (answer d r.port j r.seq [(0x29, [8])], m)
    else (answer (d.wr ZCTL.JQ_TAIL.IDX (t + 1)) r.port j r.seq [(0x29, [0, t])], m.store (jqBase + 32 * t) desc)) x

/-- JOB_DONE_ACK: the completion of a job is acknowledged; CQ_HEAD passes every completion before the first unacknowledged. -/
def jobDoneAck (r : ThpReq) (idx : Nat) (d : Dev) : Dev :=
  request r 0x2B (fun j d =>
    let d := answer d r.port j r.seq []
    if minorOf d j < 1 || !d.on (HOST.SESS_STAT.JOB j) then d
    else
      match d.arch.cq.findIdx? fun c => c.2.1 == idx && !c.2.2 with
      | none => d
      | some i =>
        let cq := d.arch.cq.zipIdx.map fun c => if c.2 = i then (c.1.1, c.1.2.1, true) else c.1
        let n := (cq.takeWhile fun c => c.2.2).length
        (d.updArch fun a => { a with cq := cq.drop n }).wr ZCTL.CQ_HEAD.IDX (d.rd ZCTL.CQ_HEAD.IDX + n)) d

/-- JOB_DONE_RESEND: each completion not acknowledged for 10 ms is sent again. -/
def jobDoneResend (m : Memory) (d : Dev) : Dev :=
  (d.arch.cq.filter fun c => !c.2.2 && d.past (.jobDone c.1) (10 * oneMs)).foldl (fun d c => sendJobDone d m c.1) d

/-! ## SNAPSHOT (R302) -/

/-- SNAPSHOT: queued behind a read-out that runs; a second one of the same session is BUSY. -/
def snapshot (r : ThpReq) (target : Nat) (ring release : Bool) (ranges : List (Nat × Nat)) (d : Dev) : Dev :=
  request r 0x21 (fun j d =>
    let bad (q : Nat × Nat) : Bool := decide (q.2 < 1 ∨ 1024 < q.2 ∨ q.1 % 4 ≠ 0 ∨ 4096 < q.1 % 4096 + 4 * q.2)
    if ring && decide (minorOf d j < 2) then answer d r.port j r.seq [(0x21, [1])]
    else if ranges.isEmpty || decide (16 < ranges.length) || ranges.any bad then answer d r.port j r.seq [(0x21, [2])]
    else if ring && !d.isPuppeteer then answer d r.port j r.seq [(0x21, [4])]
    else if d.snap.jobs.any fun q => q.sess.elim false fun s => s.1 == j then answer d r.port j r.seq [(0x21, [6])]
    else
      let job : SnapJob := ⟨some (j, r.seq), target == 0, target, ring, release, ranges⟩
      if d.snap.jobs.isEmpty then snapNextJob [job] d else { d with snap := { d.snap with jobs := d.snap.jobs ++ [job] } }) d

/-! ## Loss and return of a port (R308) -/

/-- ARCH_CAP: 11,830 bytes per µs for each port that is up (R305). -/
def capShow (d : Dev) : Dev := d.wr HOST.ARCH_CAP.BPUS (11830 * (b2n (portUp d 0) + b2n (portUp d 1)))

/-- A session's streams move to the other port: its retained records are sent again first. -/
def moveSession (d : Dev) (j dest : Nat) : Dev :=
  let d1 := ((d.wr (HOST.SESS_STAT.CUR j) dest).inc HOST.FAILOVER_CNT.CNT).irq Page.HOST HOST.irq.FAILOVER
  if bitOf (d.rd (HOST.SESS_STAT.STREAMS j)) 1 then d1.updTags fun t => { t with retx := t.kept.map Prod.fst, moved := !t.kept.isEmpty }
  else d1

/-- Sessions whose port is down move to the other port if that is up. -/
def moveSessions (d : Dev) : Dev :=
  hostShow ((openSessions d).foldl (fun d j =>
    let cur := d.rd (HOST.SESS_STAT.CUR j)
    if !portUp d cur && portUp d (1 - cur) then moveSession d j (1 - cur) else d) d)

/-- HOST_PORT_DOWN. -/
def hostPortDown (p : Fin 2) (d : Dev) : Dev :=
  if !portUp d p then d
  else
    let d1 := (d.wr (if p = 0 then HOST.STATUS.HA_UP else HOST.STATUS.HB_UP) 0).irq Page.HOST
      (if p = 0 then HOST.irq.LINK_HA else HOST.irq.LINK_HB)
    let d2 := d1.updArch fun a => { a with recs := a.recs.map fun r => if r.port == some p.val then { r with port := none } else r }
    capShow (moveSessions (if portUp d2 (1 - p.val) then archAssign d2 else archQShow d2))

/-- HOST_PORT_UP. -/
def hostPortUp (p : Fin 2) (d : Dev) : Dev :=
  if portUp d p || !d.on (if p = 0 then HOST.CTL.HA_EN else HOST.CTL.HB_EN) then d
  else
    let d1 := d.wr (if p = 0 then HOST.STATUS.HA_UP else HOST.STATUS.HB_UP) 1
    let d2 := d1.updHost fun h => { h with upAt := (p.val, d.now) :: h.upAt.filter fun e => e.1 != p.val }
    capShow (moveSessions (archAssign d2))

/-- HOME_RETURN: the home port has been up for 1 s. -/
def homeReturn (j : Fin 4) (d : Dev) : Dev :=
  let home := d.rd (HOST.SESS_STAT.HOME j)
  let long := (d.host.upAt.find? fun e => e.1 == home).elim false fun e => decide (e.2 + 16000000000 ≤ d.now)
  if d.on (HOST.SESS_STAT.STATE j) && d.rd (HOST.SESS_STAT.CUR j) != home && portUp d home && long then
    hostShow (d.wr (HOST.SESS_STAT.CUR j) home)
  else d

/-! ## IEEE 1588 (R307) -/

/-- The port that carries 1588: the one of PTP_CFG, or the other while that is down. -/
def ptpPort (d : Dev) : Nat :=
  let p := d.rd HOST.PTP_CFG.PORT
  if !portUp d p && portUp d (1 - p) then 1 - p else p

/-- A 1588 frame is taken in a role: on the 1588 port, in the domain where it names one. -/
def ptpTaken (d : Dev) (port role : Nat) : Bool :=
  portUp d port && port == ptpPort d && portIp d port != 0 && d.rd HOST.PTP_CFG.ROLE == role

/-- An event of the clock's frame: counted, and discarded unless it is taken. -/
def ptpFrame (d : Dev) (port role : Nat) (ok : Bool) (g : Dev → Dev) : Dev :=
  if !portUp d port then d
  else if ptpTaken d port role && ok then g (rxFrame d port) else rxDrop (rxFrame d port)

def Dev.updPtp (d : Dev) (g : Ptp → Ptp) : Dev := d.updHost fun h => { h with ptp := g h.ptp }

/-- The offset of a Sync once the path delay is known: PTP_OFS, and R13 on the Puppeteer with PTP_EN. -/
def ptpOffset (d : Dev) (t1 t2 : Int) : Dev :=
  let asym := d.rdS HOST.PTP_ASYM.ASYM
  let d1 := d.updPtp fun q => { q with last := some (t1, t2) }
  match d.host.ptp.delay with
  | none => d1
  | some del =>
    let off := t2 - t1 - asym - del
    let d2 := d1.wrS HOST.PTP_OFS.OFS (clampI (-2147483648) 2147483647 off)
    if d.isPuppeteer && d.on WEB.TB_CTL.PTP_EN then timeCompare off d2 else d2

/-- SYNC: t2 is stamped at arrival; a two-step Sync waits for its Follow_Up. -/
def sync (port : Fin 2) (src domain seq : Nat) (twoStep : Bool) (t1 : Int) (d : Dev) : Dev :=
  ptpFrame d port 1 (domain == d.rd HOST.PTP_CFG.DOMAIN && d.host.ptp.master == some src) fun d =>
    if twoStep then d.updPtp fun q => { q with syncWait := some (src, seq, (d.now : Int)) } else ptpOffset d t1 d.now

/-- FOLLOW_UP. -/
def followUp (port : Fin 2) (src seq : Nat) (t1 : Int) (d : Dev) : Dev :=
  match d.host.ptp.syncWait with
  | none => ptpFrame d port 1 false id
  | some (s, q, t2) =>
    ptpFrame d port 1 (s == src && q == seq) fun d => ptpOffset (d.updPtp fun p => { p with syncWait := none }) t1 t2

/-- ANNOUNCE: the first transmitter of the domain is followed. -/
def announce (port : Fin 2) (src domain : Nat) (d : Dev) : Dev :=
  ptpFrame d port 1 (domain == d.rd HOST.PTP_CFG.DOMAIN) fun d =>
    match d.host.ptp.master with
    | none => (d.updPtp fun q => { q with master := some src, announced := d.now }).wr HOST.STATUS.PTP_ACTIVE 1
    | some m => if m = src then d.updPtp fun q => { q with announced := d.now } else d

/-- No time transmitter is followed. -/
def ptpLeave (d : Dev) : Dev :=
  (d.updPtp fun q => { q with master := none, syncWait := none, last := none, req := none, delay := none }).wr HOST.STATUS.PTP_ACTIVE 0

/-- ANNOUNCE_TIMEOUT: three Announce intervals, of 2 s each (log entry 5), without one. -/
def announceTimeout (d : Dev) : Dev :=
  if d.now < d.host.ptp.announced + 6 * oneS then d
  else ptpLeave d

/-- 2^k seconds for a signed exponent field. -/
def expSeconds (d : Dev) (f : Fld) : Nat := let k := d.rdS f; if 0 ≤ k then oneS * 2 ^ k.toNat else oneS / 2 ^ k.natAbs

/-- DELAY_REQ_SEND, at 2^LOG_DELAY s. -/
def delayReqSend (d : Dev) : Dev :=
  let p := ptpPort d
  if ptpTaken d p 1 && d.host.ptp.master.isSome && d.past .delayReq (expSeconds d HOST.PTP_CFG.LOG_DELAY) then
    let n := d.host.ptp.seqDelay
    sendFrame ((d.start .delayReq).updPtp fun q => { q with req := some (n, (d.now : Int)), seqDelay := (n + 1) % 65536 }) p FK.delayReq
      [d.rd HOST.PTP_CFG.DOMAIN, n]
  else d

/-- DELAY_RESP: the mean path delay from t1, t2 of the last Sync and t3, t4; PTP_OFS follows. -/
def delayResp (port : Fin 2) (src seq : Nat) (t4 : Int) (d : Dev) : Dev :=
  ptpFrame d port 1 (d.host.ptp.master == some src) fun d =>
    match d.host.ptp.req, d.host.ptp.last with
    | some (n, t3), some (t1, t2) =>
      if n ≠ seq then d
      else
        let asym := d.rdS HOST.PTP_ASYM.ASYM
        let del := ((t2 - t1) + (t4 - t3)) / 2
        (d.updPtp fun q => { q with delay := some del, req := none }).wrS HOST.PTP_OFS.OFS
          (clampI (-2147483648) 2147483647 (t2 - t1 - asym - del))
    | _, _ => d

/-- DELAY_REQ: answered as transmitter with the time it was received at. -/
def delayReq (port : Fin 2) (src domain seq : Nat) (d : Dev) : Dev :=
  ptpFrame d port 2 (domain == d.rd HOST.PTP_CFG.DOMAIN) fun d => sendFrame d port FK.delayResp [domain, src, seq, d.now]

/-- ANNOUNCE_SEND, every 2 s: clockClass 248. -/
def announceSend (d : Dev) : Dev :=
  let p := ptpPort d
  if ptpTaken d p 2 && d.past .announce (2 * oneS) then
    sendFrame ((d.start .announce).updPtp fun q => { q with seqAnn := (q.seqAnn + 1) % 65536 }) p FK.announce
      [d.rd HOST.PTP_CFG.DOMAIN, d.host.ptp.seqAnn, 248]
  else d

/-- SYNC_SEND, at 2^LOG_SYNC s: a two-step Sync and its Follow_Up. -/
def syncSend (d : Dev) : Dev :=
  let p := ptpPort d
  if ptpTaken d p 2 && d.past .sync (expSeconds d HOST.PTP_CFG.LOG_SYNC) then
    let d := d.start .sync
    let n := d.host.ptp.seqSync
    let dom := d.rd HOST.PTP_CFG.DOMAIN
    sendFrame (sendFrame (d.updPtp fun q => { q with seqSync := (n + 1) % 65536 }) p FK.sync [dom, n]) p FK.followUp [dom, n, d.now]
  else d

/-! ## Meanings -/

def execTagFrameStart (s : State) : Host.Outcome State Fault Refusal := s.onDev tagFrameStart
def execSync (port : Fin 2) (src domain seq : Nat) (twoStep : Bool) (t1 : Int) (s : State) : Host.Outcome State Fault Refusal :=
  s.onDev (sync port src domain seq twoStep t1)
def execFollowUp (port : Fin 2) (src seq : Nat) (t1 : Int) (s : State) : Host.Outcome State Fault Refusal :=
  s.onDev (followUp port src seq t1)
def execAnnounce (port : Fin 2) (src domain : Nat) (s : State) : Host.Outcome State Fault Refusal := s.onDev (announce port src domain)
def execAnnounceTimeout (s : State) : Host.Outcome State Fault Refusal := s.onDev announceTimeout
def execDelayReqSend (s : State) : Host.Outcome State Fault Refusal := s.onDev delayReqSend
def execDelayResp (port : Fin 2) (src seq : Nat) (t4 : Int) (s : State) : Host.Outcome State Fault Refusal :=
  s.onDev (delayResp port src seq t4)
def execDelayReq (port : Fin 2) (src domain seq : Nat) (s : State) : Host.Outcome State Fault Refusal :=
  s.onDev (delayReq port src domain seq)
def execAnnounceSend (s : State) : Host.Outcome State Fault Refusal := s.onDev announceSend
def execSyncSend (s : State) : Host.Outcome State Fault Refusal := s.onDev syncSend
def execArpRequest (port : Fin 2) (target ip mac : Nat) (s : State) : Host.Outcome State Fault Refusal :=
  s.onDev (arpRequest port target ip mac)
def execArpReply (port : Fin 2) (ip mac : Nat) (s : State) : Host.Outcome State Fault Refusal := s.onDev (arpReply port ip mac)
def execArpAge (port : Fin 2) (ip : Nat) (s : State) : Host.Outcome State Fault Refusal := s.onDev (arpAge port ip)
def execArpRefresh (s : State) : Host.Outcome State Fault Refusal := s.onDev arpRefresh
def execIcmpEchoRequest (port : Fin 2) (ip len : Nat) (s : State) : Host.Outcome State Fault Refusal :=
  s.onDev (icmpEchoRequest port ip len)
def execFrameDiscard (port : Fin 2) (badFcs : Bool) (s : State) : Host.Outcome State Fault Refusal := s.onDev (frameDiscard port badFcs)
def execBadThp (port : Fin 2) (s : State) : Host.Outcome State Fault Refusal := s.onDev (badThp port)
def execUnknownKind (r : ThpReq) (kind : Nat) (s : State) : Host.Outcome State Fault Refusal := s.onDev (unknownKind r kind)
def execOpenSession (r : ThpReq) (major minorMax streams dataPort : Nat) (s : State) : Host.Outcome State Fault Refusal :=
  s.onDev (openSession r major minorMax streams dataPort)
def execCloseSession (r : ThpReq) (s : State) : Host.Outcome State Fault Refusal := s.onDev (closeSession r)
def execKeepalive (r : ThpReq) (s : State) : Host.Outcome State Fault Refusal := s.onDev (keepalive r)
def execSnapshot (r : ThpReq) (target : Nat) (ring release : Bool) (ranges : List (Nat × Nat)) (s : State) :
    Host.Outcome State Fault Refusal := s.onDev (snapshot r target ring release ranges)
def execJobSubmit (r : ThpReq) (desc : List Byte) (s : State) : Host.Outcome State Fault Refusal := s.onBoth (jobSubmit r desc)
def execJobDoneAck (r : ThpReq) (queueIdx : Nat) (s : State) : Host.Outcome State Fault Refusal := s.onDev (jobDoneAck r queueIdx)
def execJobDoneResend (s : State) : Host.Outcome State Fault Refusal := s.onDevM jobDoneResend
def execStreamAck (r : ThpReq) (sseq : Nat) (s : State) : Host.Outcome State Fault Refusal := s.onDev (streamAck r sseq)
def execStreamNack (r : ThpReq) (first last : Nat) (s : State) : Host.Outcome State Fault Refusal := s.onDev (streamNack r first last)
def execSessionTimeout (j : Fin 4) (s : State) : Host.Outcome State Fault Refusal := s.onDev (sessionTimeout j)
def execHostPortDown (port : Fin 2) (s : State) : Host.Outcome State Fault Refusal := s.onDev (hostPortDown port)
def execHostPortUp (port : Fin 2) (s : State) : Host.Outcome State Fault Refusal :=
  s.onDev (unlessDormant fun d => if cageDark d (16 + port) then d else hostPortUp port d)
def execHomeReturn (j : Fin 4) (s : State) : Host.Outcome State Fault Refusal := s.onDev (homeReturn j)

end Sys2Proof.Machine
end

