-- ==== Sys2Proof/Machine/Convert.lean ====
section
/-! DEFINITION. The precision converters (spec/17_precision_converters.md): the sequence, results, injected conversions, system
calibration and the cross-check. -/

namespace Sys2Proof.Machine

def Dev.updPadc (d : Dev) (n : Fin 2) (g : Padc → Padc) : Dev := { d with padc := d.padc.set n (g d.padc[n]) }

/-! ## An entry's fields -/

/-- CFG0 and CFG1 of an entry as words. -/
def cfg0Word (d : Dev) (n e : Nat) : Nat :=
  d.rd (PADC.CFG0.MUXP n e) + 2 ^ 5 * d.rd (PADC.CFG0.MUXN n e) + 2 ^ 10 * d.rd (PADC.CFG0.GAIN n e) +
    2 ^ 13 * d.rd (PADC.CFG0.ORDER n e) + 2 ^ 16 * d.rd (PADC.CFG0.DEC n e) + 2 ^ 19 * d.rd (PADC.CFG0.NOTCH n e) +
    2 ^ 21 * d.rd (PADC.CFG0.TSAMP n e)
def cfg1Word (d : Dev) (n e : Nat) : Nat :=
  d.rd (PADC.CFG1.EN n e) + 2 * d.rd (PADC.CFG1.KIND n e) + 2 ^ 4 * d.rd (PADC.CFG1.SKIP n e) + 2 ^ 7 * d.rd (PADC.CFG1.INT_TEMP n e) +
    2 ^ 8 * d.rd (PADC.CFG1.TC_TYPE n e) + 2 ^ 12 * d.rd (PADC.CFG1.CJ_ENTRY n e) + 2 ^ 16 * d.rd (PADC.CFG1.CJ_CONV n e) +
    2 ^ 17 * d.rd (PADC.CFG1.EXC n e) + 2 ^ 20 * d.rd (PADC.CFG1.EXC_PIN n e)

def Conv.muxp (c : Conv) : Nat := bitsOf c.cfg0 0 5
def Conv.kindNo (c : Conv) : Nat := bitsOf c.cfg1 1 3
def Conv.intTemp (c : Conv) : Bool := bitOf c.cfg1 7

/-- GAIN; 1 on the internal channels that R378 names. -/
def Conv.gain (c : Conv) : Nat :=
  if c.muxp = 24 ∨ c.muxp = 26 ∨ 28 ≤ c.muxp then 1 else 2 ^ bitsOf c.cfg0 10 3

/-- An internal channel (Table 17.1), or the converter's own temperature. -/
def Conv.internal (c : Conv) : Bool := c.intTemp || decide (24 ≤ c.muxp)

/-- The conversion of an entry as configured now. -/
def entryConv (d : Dev) (n : Nat) (kind : ConvKind) (e : Nat) : Conv :=
  ⟨kind, e, cfg0Word d n e, cfg1Word d n e, d.rdS (PADC.SLOPE.VAL n e), d.rdS (PADC.LOFS.VAL n e), d.rdS (PADC.OFS.VAL n e),
   d.rd (PADC.GAINC.VAL n e), d.rd (PADC.PASS.VAL n), false, d.now⟩

/-- t_conv in 1/16 ns (R380): TSAMP in µs, then ORDER + M − 1 decimator outputs of D / 3 MHz. -/
def Conv.time (c : Conv) : Nat :=
  let k := clampN 1 5 (bitsOf c.cfg0 13 3)
  let dec := [16, 40, 100, 200, 400, 1000, 2000, 10000].getD (bitsOf c.cfg0 16 3) 16
  let m := [1, 60000 / dec, 50000 / dec, 300000 / dec].getD (bitsOf c.cfg0 19 2) 1
  16000 * (bitsOf c.cfg0 21 8) + (k + m - 1) * dec * 16000 / 3

/-! ## From code to result (R381, R382) -/

/-- A code saturated at ±(2^23 − 1). -/
def satCode (x : Int) : Int := clampI (-8388607) 8388607 x

/-- c', and whether x, c or c' saturates. -/
def codeOf (c : Conv) (refCorr : Nat) (x : Int) (overload : Bool) : Int × Bool :=
  let x1 := satCode x
  let y := sar ((x1 - c.ofs) * c.gainc + 2 ^ 23) 24
  let y1 := sat24 y
  let z := sar (y1 * refCorr + 2 ^ 23) 24
  (sat24 z, overload || x1 != x || y1 != y || sat24 z != z)

/-- v in nV. -/
def nanoVolts (c : Conv) (code : Int) : Int := code * 15625 / (64 * c.gain)

/-- The largest temperature in `lo` … `lo + 2^k − 1` at which a rising function does not exceed `y`. -/
def bisect (f : Int → Int) (y : Int) : Nat → Int → Int
  | 0, lo => lo
  | k + 1, lo => if f (lo + 2 ^ k) ≤ y then bisect f y k (lo + 2 ^ k) else bisect f y k lo

/-- The IEC 60751 function times 10^15 × 2^64 ÷ R0, at T in 2^-16 °C (standard coefficients, log entry 21). -/
def rtdScaled (t : Int) : Int :=
  10 ^ 15 * 2 ^ 64 + 39083 * 10 ^ 8 * t * 2 ^ 48 - 5775 * 10 ^ 5 * t * t * 2 ^ 32 -
    (if t < 0 then 4183 * (t - 100 * 65536) * t * t * t else 0)

/-- A result within `tol` of a stated function: R382 gives the function and how close the result is. -/
def near (d : Dev) (t : Int) (tol : Nat) : Int × Dev :=
  let (v, d1) := d.free 16
  (t + ((v % (2 * tol + 1) : Nat) : Int) - tol, d1)

/-- A result put into 32 bits, saturated at the range end. -/
def satRes (x : Int) : Int × Bool := (clampI (-2147483648) 2147483647 x, decide (x < -2147483648 ∨ 2147483647 < x))

/-- RTD: r in mΩ, R0 in mΩ; within 0.002 °C, from −200 °C to 850 °C. -/
def rtdTemp (d : Dev) (r r0 : Int) : (Int × Bool) × Dev :=
  let lo : Int := -200 * 65536
  let hi : Int := 850 * 65536
  let y := r * 10 ^ 15 * 2 ^ 64
  let f (t : Int) : Int := r0 * rtdScaled t
  if y < f lo then ((lo, true), d)
  else if f hi < y then ((hi, true), d)
  else
    let (t, d1) := near d (bisect f y 27 lo) 131
    ((clampI lo hi t, false), d1)

/-- Thermocouple: within 0.01 °C of E⁻¹(v + E(T_cj)). -/
def tcTemp (d : Dev) (type : Nat) (v tcj : Int) : (Int × Bool) × Dev :=
  let lo := Config.tcLo type
  let hi := Config.tcHi type
  let y := v + Config.tcEmf type tcj
  if y < Config.tcEmf type lo then ((lo, true), d)
  else if Config.tcEmf type hi < y then ((hi, true), d)
  else
    let (t, d1) := near d (bisect (Config.tcEmf type) y 28 lo) 655
    ((clampI lo hi t, false), d1)

/-- The result of a conversion: value, RANGE, CJ_STALE. -/
def convResult (d : Dev) (n : Fin 2) (c : Conv) (code : Int) : (Int × Bool × Bool) × Dev :=
  let v := nanoVolts c code
  let plain (x : Int) : (Int × Bool × Bool) × Dev := (((satRes x).1, (satRes x).2, false), d)
  if c.intTemp then plain (Config.intTemp n code)
  else if c.muxp = 24 then plain v
  else if c.muxp = 26 then plain (4 * v)
  else if 28 ≤ c.muxp then plain (16 * v)
  else
    match c.kindNo with
    | 0 => plain code
    | 2 => plain (c.lofs + sar (v * c.slope + 2 ^ 23) 24)
    | 3 =>
      let (r, d1) := rtdTemp d (code * (c.slope % 2 ^ 32) / (c.gain * 2 ^ 23)) (c.lofs % 2 ^ 32)
      ((r.1, r.2, false), d1)
    | 4 =>
      let conv := bitsOf c.cfg1 16 1
      let e := bitsOf c.cfg1 12 4
      let (tcj, at') := padcResult d conv e
      let (r, d1) := tcTemp d (bitsOf c.cfg1 8 3) v tcj
      ((r.1, r.2, decide (16000000000 < d.now - at')), d1)
    | _ => plain v

/-! ## Excitation (R388, R389) -/

/-- The current of an EXC code in µA. -/
def excCurrent (c : Nat) : Nat := [0, 10, 50, 100, 250, 500, 1000, 0].getD c 0

/-- The source of a conversion switched on or off; off on a module that is not active. -/
def excite (d : Dev) (n : Fin 2) (c : Conv) (on : Bool) : Dev :=
  let i := excCurrent (bitsOf c.cfg1 17 3)
  if i = 0 ∨ !d.isActive then d else d.emit (.excite n (bitsOf c.cfg1 20 5) (if on then i else 0))

/-- The excitation sources change hands: a conversion that spans the instant carries EXC_CHG, and a new active's sources go
on. -/
def excHandOver (d : Dev) : Dev :=
  (List.finRange 2).foldl (fun (d : Dev) (n : Fin 2) =>
    match d.padc[n].run with
    | none => d
    | some c => excite (d.updPadc n fun p => { p with run := some { c with excChg := true } }) n c true) d

/-! ## The sequence (R379) and what starts next (R384, R386) -/

/-- The next entry of the list, `fuel` entries looked at: the entry, and how many wraps precede it. -/
def nextEntry (d : Dev) (n : Nat) : Nat → Nat → Nat → Option (Nat × Nat)
  | 0, _, _ => none
  | fuel + 1, e, wraps =>
    let len := d.rd (PADC.SEQ_CTL.LEN n)
    if len ≤ e then nextEntry d n fuel 0 (wraps + 1)
    else if d.on (PADC.CFG1.EN n e) && (d.rd (PADC.PASS.VAL n) + wraps) % 2 ^ d.rd (PADC.CFG1.SKIP n e) == 0 then some (e, wraps)
    else nextEntry d n fuel (e + 1) wraps

/-- A conversion starts: the registers show it, its source goes on. -/
def convStart (d : Dev) (n : Fin 2) (c : Conv) : Dev :=
  let d1 := (((d.wr (PADC.STATUS.RUNNING n) 1).wr (PADC.CUR.ENTRY n) c.entry).wrB (PADC.CUR.INJ n) (c.kind == .inj)).wrB (PADC.CUR.CAL n)
    (c.kind == .cal)
  excite (d1.updPadc n fun p => { p with run := some { c with since := d.now } }) n c true

/-- The injected conversion starts: INJ_CFG0 and INJ_CFG1, with OFS and GAINC of the entry COEF. -/
def injStart (d : Dev) (n : Fin 2) : Dev :=
  let e := d.rd (PADC.INJ_CTL.COEF n)
  let c : Conv := { entryConv d n .inj e with cfg0 := d.rd (PADC.INJ_CFG0.CFG n), cfg1 := d.rd (PADC.INJ_CFG1.CFG n) }
  let d1 := (d.wr (PADC.INJ_STAT.PENDING n) 0).wrSat (PADC.INJ_STAT.WAIT_US n) ((d.now - d.padc[n].injAt) / 16000)
  convStart d1 n c

/-- A calibration step ends as failed. -/
def calFail (d : Dev) (n : Fin 2) (err : Nat) : Dev :=
  let d1 := ((d.wr (PADC.CAL_STAT.BUSY n) 0).wr (PADC.STATUS.SUSPENDED n) 0).wr (PADC.CAL_STAT.PENDING n) 0
  ((d1.wr (PADC.CAL_STAT.ERR n) err).irq (Page.PADC n) PADC.irq.CAL_ERR).updPadc n fun p => { p with cal := none, calWait := none }

/-- The step that waited starts: BUSY, SUSPENDED. One on an internal channel fails. -/
def calBegin (d : Dev) (n : Fin 2) (full : Bool) : Dev :=
  let e := d.rd (PADC.CAL_CTL.ENTRY n)
  let c := entryConv d n .cal e
  let d1 := (d.wr (PADC.CAL_STAT.PENDING n) 0).updPadc n fun p => { p with calWait := none }
  if c.internal then calFail d1 n 3
  else
    let avg := d.rd (PADC.CAL_CTL.AVG n)
    ((d1.wr (PADC.CAL_STAT.BUSY n) 1).wr (PADC.STATUS.SUSPENDED n) 1).updPadc n fun p =>
      { p with cal := some ⟨full, avg, d.rdS (PADC.CAL_TARGET.NV n), 2 ^ avg, 0, c, false⟩ }

/-- The sequence's next conversion, PASS rising at each wrap. -/
def seqStart (d : Dev) (n : Fin 2) : Dev :=
  if !d.on (PADC.SEQ_CTL.RUN n) then d
  else
    match nextEntry d n 2304 d.padc[n].next 0 with
    | none => d
    | some (e, wraps) =>
      let d1 := (List.range wraps).foldl (fun d _ =>
        (d.wr (PADC.PASS.VAL n) (d.rd (PADC.PASS.VAL n) + 1)).irq (Page.PADC n) PADC.irq.PASS) d
      convStart (d1.updPadc n fun p => { p with next := e + 1 }) n (entryConv d1 n .seq e)

/-- CONVERSION_START: with no conversion running, an injection goes first, then a calibration step, then the sequence. In DORMANT
the converters stand still (R427). -/
def padcKick (d : Dev) (n : Fin 2) : Dev :=
  if d.padc[n].run.isSome || dormant d then d
  else if d.on (PADC.INJ_STAT.PENDING n) then injStart d n
  else
    let d1 := match d.padc[n].cal, d.padc[n].calWait with
      | none, some full => calBegin d n full
      | _, _ => d
    match d1.padc[n].cal with
    | some s => convStart d1 n s.conv
    | none => seqStart d1 n

/-- Both converters looked at: after an epoch, at start and at a write of RUN. -/
def padcKickAll (d : Dev) : Dev := (List.finRange 2).foldl padcKick d

/-! ## Cross-check (R387) -/

/-- CHK_STAT and STATUS.SUSPECT of a converter. -/
def setSuspect (d : Dev) (n : Nat) (b : Bool) : Dev :=
  (d.wrB (PADC.STATUS.SUSPECT n) b).wrB (if n = 0 then PADC.CHK_STAT.A_SUSPECT 0 else PADC.CHK_STAT.B_SUSPECT 0) b

/-- The latest INT_REF result of a converter lies outside REF_EXP ± REF_TOL. -/
def refOutside (d : Dev) (n : Fin 2) : Bool :=
  match d.padc[n].ref with
  | none => false
  | some r => decide ((d.rd (PADC.REF_TOL.NV 0) : Int) < (r - d.rd (PADC.REF_EXP.NV 0)).natAbs)

/-- CROSS_CHECK: a code-21 result against the other converter's latest, when it is no older than AGE. -/
def crossCheck (d : Dev) (n : Fin 2) (v : Int) : Dev :=
  let o : Fin 2 := if n = 0 then 1 else 0
  let d0 := d.updPadc n fun p => { p with chk := some (v, d.now) }
  match d.padc[o].chk with
  | none => d0
  | some (w, t) =>
    if 16000000 * d.rd (PADC.CHK_CFG.AGE 0) < d.now - t then d0
    else
      let need := max 1 (d.rd (PADC.CHK_CFG.N 0))
      let d1 := d0.wrS (PADC.CHK_DIFF.NV n) (clampI (-2147483648) 2147483647 (v - w))
      if d.rd (PADC.CHK_TOL.NV 0) < (v - w).natAbs then
        let k := d.padc[(0 : Fin 2)].miss + 1
        let d2 := (d1.inc (PADC.CHK_MISS_CNT.CNT n)).updPadc 0 fun p => { p with miss := k, agree := 0 }
        if k < need then d2
        else
          let a := refOutside d2 0
          let b := refOutside d2 1
          let d3 := (d2.wr (PADC.CHK_STAT.FAIL 0) 1).irqIf (!d2.on (PADC.CHK_STAT.FAIL 0)) (Page.PADC 0) PADC.irq.CHK_FAIL
          setSuspect (setSuspect d3 0 (a || !b)) 1 (b || !a)
      else
        let k := d.padc[(0 : Fin 2)].agree + 1
        let d2 := d1.updPadc 0 fun p => { p with miss := 0, agree := k }
        if k < need then d2 else setSuspect (setSuspect d2 0 false) 1 false

/-! ## A conversion ends (R383 to R385) -/

/-- RES_STAT as a word. -/
def resStat (ovr suspect stale exc range : Bool) (pass : Nat) : Nat :=
  1 + 2 * b2n ovr + 4 * b2n suspect + 8 * b2n stale + 16 * b2n exc + 32 * b2n range + 65536 * (pass % 65536)

/-- RES, RES_STAT and RES_T of the entry, in one cycle. -/
def putResult (d : Dev) (n : Fin 2) (c : Conv) (v : Int) (st : Nat) : Dev :=
  let e := c.entry
  let d1 := (d.wrS (PADC.RES.VAL n e) v).wr (PADC.RES_T.T n e) d.nowNs
  let d2 := ((((((d1.wr (PADC.RES_STAT.VALID n e) 1).wrB (PADC.RES_STAT.OVR n e) (bitOf st 1)).wrB (PADC.RES_STAT.SUSPECT n e)
    (bitOf st 2)).wrB (PADC.RES_STAT.CJ_STALE n e) (bitOf st 3)).wrB (PADC.RES_STAT.EXC_CHG n e) (bitOf st 4)).wrB (PADC.RES_STAT.RANGE n e)
    (bitOf st 5)).wr (PADC.RES_STAT.PASS n e) (st / 65536)
  { d2 with padcTimes := (16 * n.val + e, d.now) :: d2.padcTimes.filter fun q => q.1 != 16 * n.val + e }

/-- A quotient rounded as R385 writes it; a zero divisor leaves it open. -/
def openDiv (a b : Int) : Int := if b = 0 then Config.divByZero a else a / b

/-- The last conversion of a step: CAL_Z, or the new OFS and GAINC together. -/
def padcCalEnd (d : Dev) (n : Fin 2) (s : CalStep) : Dev :=
  let avg := (s.sum + 2 ^ s.avg / 2) / 2 ^ s.avg
  let idle (d : Dev) : Dev :=
    ((d.wr (PADC.CAL_STAT.BUSY n) 0).wr (PADC.STATUS.SUSPENDED n) 0).updPadc n fun p => { p with cal := none }
  if !s.full then (idle d).wrS (PADC.CAL_Z.Z n) avg |>.wr (PADC.CAL_STAT.ZERO_HELD n) 1
  else
    let z := if d.on (PADC.CAL_STAT.ZERO_HELD n) then d.rdS (PADC.CAL_Z.Z n) else s.conv.ofs
    let rc : Int := d.rd (PADC.REF_CORR.RC n)
    let t := (s.target * 64 * s.conv.gain + 7812) / 15625
    let t' := openDiv (t * 2 ^ 24 + rc / 2) rc
    let g := if avg = z then 0 else (t' * 2 ^ 24 + (avg - z) / 2).fdiv (avg - z)
    if avg = z ∨ g < 2 ^ 23 ∨ (2 : Int) ^ 25 < g then calFail d n 1
    else
      let e := s.conv.entry
      let d1 := ((idle d).wrS (PADC.OFS.VAL n e) z).wr (PADC.GAINC.VAL n e) g.toNat
      ((d1.wr (PADC.CAL_STAT.ZERO_HELD n) 0).wr (PADC.CAL_STAT.DONE n) 1).irq (Page.PADC n) PADC.irq.CAL_DONE

/-- One conversion of a step with its raw code. -/
def calOne (d : Dev) (n : Fin 2) (x : Int) (ovr : Bool) : Dev :=
  match d.padc[n].cal with
  | none => d
  | some s =>
    if s.abort then calFail d n 4
    else if ovr then calFail d n 2
    else
      let s' := { s with left := s.left - 1, sum := s.sum + x }
      if s'.left = 0 then padcCalEnd d n s' else d.updPadc n fun p => { p with cal := some s' }

/-- CONVERSION_END, t_conv after the start: the raw code x and whether the modulator overloaded; the result is written, and the next
conversion starts. -/
def conversionEnd (n : Fin 2) (x : Int) (overload : Bool) (d : Dev) : Dev :=
  match d.padc[n].run with
  | none => d
  | some c =>
    if d.now < c.since + c.time then d else
    let (code, ovr) := codeOf c (d.rd (PADC.REF_CORR.RC n)) x overload
    let ((v, range, stale), d0) := convResult d n c code
    let d1 := excite (((d0.updPadc n fun p => { p with run := none }).wr (PADC.STATUS.RUNNING n) 0).inc (PADC.CONV_CNT.CNT n)) n c false
    let d2 := (if ovr then (d1.inc (PADC.OVR_CNT.CNT n)).irq (Page.PADC n) PADC.irq.OVR else d1)
    let d3 := if c.muxp = 24 ∧ !c.intTemp then d2.updPadc n fun p => { p with ref := some v } else d2
    let volt := c.kindNo = 1 ∨ 5 ≤ c.kindNo
    let d4 := if c.muxp = 21 ∧ volt ∧ !c.intTemp then crossCheck d3 n v else d3
    let st := resStat ovr (d4.on (PADC.STATUS.SUSPECT n)) stale c.excChg range c.pass
    let d5 := match c.kind with
      | .inj =>
        ((((d4.wrS (PADC.INJ_RES.RES n) v).wr (PADC.INJ_RES_STAT.STAT n) st).wr (PADC.INJ_T_END.T n) d4.nowNs).wr (PADC.INJ_STAT.DONE n) 1).irq
          (Page.PADC n) PADC.irq.INJ_DONE
      | .seq => putResult d4 n c v st
      | .cal => calOne (putResult d4 n c v st) n (satCode x) ovr
    padcKick d5 n

/-! ## Requests -/

/-- SEQ_RUN: RUN written. -/
def seqRun (n : Fin 2) (on : Bool) (d : Dev) : Dev := padcKick (d.wrB (PADC.SEQ_CTL.RUN n) on) n

/-- INJ_GO, and an edge on the selected input: a request while one is pending or running is lost. -/
def injRequest (n : Fin 2) (d : Dev) : Dev :=
  if d.on (PADC.INJ_STAT.PENDING n) ∨ (d.padc[n].run).elim false (fun c => c.kind == .inj) then
    (d.wr (PADC.INJ_STAT.LOST n) 1).inc (PADC.INJ_LOST_CNT.CNT n)
  else
    let d1 := (d.wr (PADC.INJ_STAT.PENDING n) 1).wr (PADC.INJ_T_REQ.T n) d.nowNs
    padcKick (d1.updPadc n fun p => { p with injAt := d.now }) n

/-- INJ_EDGE on AUX general input `io`. -/
def injEdge (n : Fin 2) (io : Nat) (falling : Bool) (d : Dev) : Dev :=
  if d.rd (PADC.INJ_CTL.SRC n) = 1 ∧ d.rd (PADC.INJ_CTL.IO n) = io ∧ d.on (PADC.INJ_CTL.EDGE n) = falling then injRequest n d else d

/-- CAL_ZERO and CAL_FULL_SCALE: a GO while PENDING or BUSY is set is ignored. -/
def padcCalGo (n : Fin 2) (full : Bool) (d : Dev) : Dev :=
  let d0 := d.wrB (PADC.CAL_CTL.STEP n) full
  if d.on (PADC.CAL_STAT.PENDING n) ∨ d.on (PADC.CAL_STAT.BUSY n) then d0
  else
    let d1 := (d0.wr (PADC.CAL_STAT.PENDING n) 1).wr (PADC.CAL_STAT.ERR n) 0
    padcKick (d1.updPadc n fun p => { p with calWait := some full }) n

/-- CAL_ABORT: the step ends at the end of the conversion that runs; one that still waits ends at once. -/
def calAbort (n : Fin 2) (d : Dev) : Dev :=
  match d.padc[n].cal with
  | some s => d.updPadc n fun p => { p with cal := some { s with abort := true } }
  | none => if d.padc[n].calWait.isSome then calFail d n 4 else d

/-! ## The consistency check (R378, R382, R388) -/

/-- Cause, converter and entry of the first fault. -/
def padcCheck (v : Fld → Nat) : Option (Nat × Nat × Nat) :=
  let all := (List.range 2).flatMap fun n => ((List.range 16).filter fun e => v (PADC.CFG1.EN n e) != 0).map fun e => (n, e)
  let exc (q : Nat × Nat) : Bool := decide (1 ≤ v (PADC.CFG1.EXC q.1 q.2) ∧ v (PADC.CFG1.EXC q.1 q.2) ≤ 6)
  let shared (q : Nat × Nat) : Bool :=
    exc q && all.any fun r => r.1 != q.1 && exc r && v (PADC.CFG1.EXC_PIN r.1 r.2) == v (PADC.CFG1.EXC_PIN q.1 q.2)
  let badCj (q : Nat × Nat) : Bool :=
    v (PADC.CFG1.KIND q.1 q.2) == 4 &&
      (let c := v (PADC.CFG1.CJ_CONV q.1 q.2)
       let e := v (PADC.CFG1.CJ_ENTRY q.1 q.2)
       v (PADC.CFG1.EN c e) == 0 || !(v (PADC.CFG1.KIND c e) == 2 || v (PADC.CFG1.KIND c e) == 3))
  let res (x : Nat) : Bool := x == 22 || x == 23 || x == 25
  let badMux (q : Nat × Nat) : Bool :=
    res (v (PADC.CFG0.MUXP q.1 q.2)) || (decide (v (PADC.CFG0.MUXP q.1 q.2) < 24) && res (v (PADC.CFG0.MUXN q.1 q.2)))
  ((all.find? shared).map fun q => (1, q)).orElse fun _ =>
    ((all.find? badCj).map fun q => (2, q)).orElse fun _ => (all.find? badMux).map fun q => (3, q)

/-! ## Meanings -/

def execConversionEnd (n : Fin 2) (x : Int) (overload : Bool) (s : State) : Host.Outcome State Fault Refusal :=
  s.onDev (conversionEnd n x overload)
def execSeqRun (n : Fin 2) (on : Bool) (s : State) : Host.Outcome State Fault Refusal := s.onDev (seqRun n on)
def execInjGo (n : Fin 2) (s : State) : Host.Outcome State Fault Refusal := s.onDev (injRequest n)
def execInjEdge (n : Fin 2) (io : Fin 8) (falling : Bool) (s : State) : Host.Outcome State Fault Refusal :=
  s.onDev (injEdge n io falling)
def execCalZero (n : Fin 2) (s : State) : Host.Outcome State Fault Refusal := s.onDev (padcCalGo n false)
def execCalFullScale (n : Fin 2) (s : State) : Host.Outcome State Fault Refusal := s.onDev (padcCalGo n true)
def execCalAbort (n : Fin 2) (s : State) : Host.Outcome State Fault Refusal := s.onDev (calAbort n)

end Sys2Proof.Machine
end

