-- ==== Sys2Proof/Machine/Store.lean ====
section
/-! DEFINITION. The parameter store (spec/16_store_and_profiles.md): the journal, stored pages, stores, Wind-up, the recovery at
power-up, the margin scan, and the persistent counters. -/

namespace Sys2Proof.Machine

def Dev.updNvs (d : Dev) (g : Nvs → Nvs) : Dev := { d with nvs := g d.nvs }

/-! ## Stored pages and the journal (R351 to R353) -/

/-- Copy `x` (0 A, 1 B) of page `p`. -/
def copyAddr (x p : Nat) : Nat := 0x09080000 + 0x80000 * x + 0x200 * p

/-- Journal entry `i`. -/
def jAddr (i : Nat) : Nat := 0x09040000 + 32 * i

/-- Number of a working-array page's first byte. -/
def pageAddr (p : Nat) : Nat := waBase + 256 * p

def copySeq (m : Memory) (x p : Nat) : Nat := m.num (copyAddr x p + 256) 6
def copyWcnt (m : Memory) (x p : Nat) : Nat := m.u32 (copyAddr x p + 264)
def copyCrcOk (m : Memory) (x p : Nat) : Bool :=
  decide (copyWcnt m x p ≠ 0) && m.u16 (copyAddr x p + 262) == p + 1024 * x + 4096 &&
    crc32 (m.take (copyAddr x p) 268) == m.u32 (copyAddr x p + 268)

/-- The CRC of the copy page verifies. -/
def copyCrc (m : Memory) (x p : Nat) : Bool := crc32 (m.take (copyAddr x p) 268) == m.u32 (copyAddr x p + 268)

/-- R352. -/
def copyValid (m : Memory) (next x p : Nat) : Bool := copyCrcOk m x p && decide (copySeq m x p < next)

/-- The bytes of a stored page (Table 16.2). -/
def storedPage (data : List Byte) (seq x p wcnt : Nat) : List Byte :=
  let b := data ++ leBytes 6 seq ++ leBytes 2 (p + 1024 * x + 4096) ++ leBytes 4 wcnt
  b ++ leBytes 4 (crc32 b)

/-- A journal entry (Table 16.3): 0x4F OPEN, 0x43 CLOSE, 0x52 ROLLBACK. -/
def jEntry (type kind npages seq time wln : Nat) : List Byte :=
  let b := leBytes 1 type ++ leBytes 1 kind ++ leBytes 2 npages ++ leBytes 6 seq ++ leBytes 2 0 ++ leBytes 8 time ++
    leBytes 4 wln ++ leBytes 4 0
  b ++ leBytes 4 (crc32 b)

def jValid (m : Memory) (i : Nat) : Bool := crc32 (m.take (jAddr i) 28) == m.u32 (jAddr i + 28)
def jSeq (m : Memory) (i : Nat) : Nat := m.num (jAddr i + 4) 6
def jType (m : Memory) (i : Nat) : Nat := (m.byte (jAddr i)).toNat

/-- An entry written in the slot after the newest valid one. -/
def jWrite (x : DM) (entry : List Byte) : DM :=
  let k := x.1.nvs.jNewest.elim 0 fun i => (i + 1) % 64
  (x.1.updNvs fun n => { n with jNewest := some k }, x.2.store (jAddr k) entry)

/-! ## Stores (R354 to R358) -/

def seqNext (d : Dev) : Nat := d.rd2 NVS.SEQ_NEXT_LO.SEQ NVS.SEQ_NEXT_HI.SEQ
def setSeqNext (d : Dev) (v : Nat) : Dev := d.wr2 NVS.SEQ_NEXT_LO.SEQ NVS.SEQ_NEXT_HI.SEQ v

/-- DIRTY.N follows the dirty pages. -/
def setDirty (d : Dev) (ps : List Nat) : Dev := (d.updNvs fun n => { n with dirty := ps }).wr NVS.DIRTY.N ps.length

/-- CLOSE: the books of the store that ends. -/
def storeEnd (x : DM) (r : StoreRun) : DM :=
  let y := jWrite x (jEntry 0x43 r.kind r.npages r.seq (r.t0 / 16) r.wln)
  let d := y.1.updNvs fun n => { n with run := none }
  let d1 := ((d.wr NVS.STATUS.BUSY 0).wr NVS.STATUS.KIND 0).irq Page.NVS NVS.irq.STORE_DONE
  let d2 := ((d1.wr NVS.LAST_STORE.NPAGES r.npages).wr NVS.LAST_STORE.KIND r.kind).wrSat NVS.LAST_STORE.US ((d.now - r.t0) / 16000)
  let d3 := if r.kind = 1 then d2.inc NVS.STORE_CNT.CNT
    else if r.kind = 2 then (d2.inc NVS.WINDUP_CNT.CNT).wr NVS.STATUS.FROZEN 0
    else d2.inc NVS.REFRESH_CNT.CNT
  (d3, y.2)

/-- A store captures its pages and writes OPEN; one without a page closes at once. -/
def storeOpen (x : DM) (kind : Nat) (pages : List Nat) (both : Bool) : DM :=
  let d := x.1
  let s := seqNext d
  let n := if both then 2 * pages.length else pages.length
  let w := d.rd2 WEB.WLN_LO.WLN WEB.WLN_HI.WLN
  let r : StoreRun := ⟨kind, s, both, n, pages, none, d.now, w % 2 ^ 32, []⟩
  let d1 := setDirty (setSeqNext d (s + 1)) (d.nvs.dirty.filter fun p => !pages.contains p)
  let d2 := (d1.wr NVS.STATUS.BUSY 1).wr NVS.STATUS.KIND kind
  let y := jWrite (d2.updNvs fun q => { q with run := some r }, x.2) (jEntry 0x4F kind n s (d.now / 16) w)
  if pages.isEmpty then storeEnd y r else y

/-- The dirty pages, ascending. -/
def dirtyPages (d : Dev) : List Nat := (List.range 1024).filter d.nvs.dirty.contains

/-- A command store: every page when FULL. -/
def commandStore (full both : Bool) (x : DM) : DM :=
  storeOpen x 1 (if full then List.range 1024 else dirtyPages x.1) both

/-- What follows a CLOSE: a Wind-up that waited, which drops a pending command store (R358), else that store. -/
def storeNext (x : DM) : DM :=
  if x.1.nvs.run.isSome then x
  else if x.1.nvs.windup then
    let d := (x.1.updNvs fun n => { n with windup := false, pend := none }).wr NVS.STATUS.PENDING 0
    storeOpen (d, x.2) 2 (dirtyPages d) false
  else
    match x.1.nvs.pend with
    | some (full, both) =>
      commandStore full both ((x.1.updNvs fun n => { n with pend := none }).wr NVS.STATUS.PENDING 0, x.2)
    | none => x

/-- STORE (R357): while a store runs it waits, Wind-up's own included. -/
def storeCmd (x : DM) : DM :=
  let d := x.1
  let full := d.on NVS.CTL.FULL
  let both := d.on NVS.CTL.BOTH
  if d.nvs.run.isNone then storeNext (commandStore full both x)
  else if d.nvs.pend.isSome then x
  else ((d.updNvs fun n => { n with pend := some (full, both) }).wr NVS.STATUS.PENDING 1, x.2)

/-- WEAR_MAX, WEAR_PAGE and the warning (R366). -/
def wearNote (x : DM) (c p wcnt : Nat) : DM :=
  let d := x.1
  if wcnt ≤ d.rd NVS.WEAR_MAX.WCNT then x
  else
    let d1 := ((d.wr NVS.WEAR_MAX.WCNT wcnt).wr NVS.WEAR_PAGE.PAGE p).wr NVS.WEAR_PAGE.COPY c
    if d1.rd NVS.WEAR_WARN_AT.WCNT ≤ wcnt ∧ !d1.on NVS.STATUS.WEAR_WARN then
      evLog ((d1.wr NVS.STATUS.WEAR_WARN 1).irq Page.NVS NVS.irq.WEAR_WARN, x.2) .wearWarn p wcnt
    else (d1, x.2)

/-- One page write of a running store; `c` is the copy written. -/
def pageWrite (x : DM) (r : StoreRun) (p c : Nat) : DM :=
  let wcnt := min 0xFFFFFFFF (copyWcnt x.2 c p + 1)
  wearNote (x.1, x.2.store (copyAddr c p) (storedPage (x.2.take (pageAddr p) 256) r.seq c p wcnt)) c p wcnt

/-- The writes that waited for page `p` are made and mark it dirty (R356). -/
def releaseHeld (p : Nat) (x : DM) : DM :=
  match x.1.nvs.run with
  | none => x
  | some r =>
    let mine := r.held.filter fun h => (h.1 - waBase) / 256 == p
    let d := x.1.updNvs fun n => { n with run := some { r with held := r.held.filter fun h => (h.1 - waBase) / 256 != p } }
    mine.foldl (fun x h => (markDirty x.1 p, x.2.store h.1 h.2)) (d, x.2)

/-- STORE_PAGE_WRITTEN: the next page write of the running store completes; after the last, CLOSE. A store that reaches a page
with an uncorrectable word waits for its reload (R363). -/
def storePage (x : DM) : DM :=
  match x.1.nvs.run with
  | none => x
  | some r =>
    let done (y : DM) (r' : StoreRun) (p : Nat) (b : Bool) : DM :=
      let win (n : Nvs) : Nvs := { n with
        run := some r'
        winB := if b then p :: n.winB.filter (fun q => q != p) else n.winB.filter fun q => q != p }
      let z := releaseHeld p (y.1.updNvs win, y.2)
      if r'.queue.isEmpty then storeNext (storeEnd z r') else z
    match r.second with
    | some (p, c) => done (pageWrite x r p c) { r with second := none } p false
    | none =>
      match r.queue with
      | [] => x
      | p :: rest =>
        if x.2.lostIn (pageAddr p) 256 then x
        else
          let c := if x.1.nvs.winB.contains p then 0 else 1
          let y := pageWrite x r p c
          if r.both then (y.1.updNvs fun n => { n with run := some { r with queue := rest, second := some (p, 1 - c) } }, y.2)
          else done y { r with queue := rest } p (c == 1)

/-- What a write of a copy page leaves that power failed in (Table 16.4): words below k are new, word k holds in each bit the old or the
new value, the rest is old. How far it got and those bits are free values (log entry 139). A store between two page writes, or one
that waits for a reload, leaves its copies as they are. -/
def interruptStore (x : DM) : DM :=
  match x.1.nvs.run with
  | none => x
  | some r =>
    let b := x.1.nvs.winB
    match r.second.orElse fun _ => ((r.queue.head?).filter fun p => !x.2.lostIn (pageAddr p) 256).map fun p => (p, if b.contains p then 0 else 1) with
    | none => x
    | some (p, c) =>
      let a := copyAddr c p
      let new := storedPage (x.2.take (pageAddr p) 256) r.seq c p (min 0xFFFFFFFF (copyWcnt x.2 c p + 1))
      let (k, d) := x.1.free 6
      let (mask, d) := d.free 64
      let k := k % 35
      let old := ofLeBytes (x.2.take (a + 8 * k) 8)
      let word := Nat.xor old (Nat.land mask (Nat.xor old (ofLeBytes ((new.drop (8 * k)).take 8))))
      let m := x.2.store a (new.take (8 * k))
      (d, if k < 34 then m.store (a + 8 * k) (leBytes 8 word) else m)

/-! ## Persistent counters (R350) -/

/-- The persistent counters in the order in which the model stores them from page 832 on (DESIGN CHOICE, log entry 17). -/
def persistFields : List Fld :=
  [RST.POWER_ON_CNT.CNT, RST.SYS_CNT.CNT, RST.WDT_CNT.CNT, RST.LOCKSTEP_CNT.CNT, CLK.ROOT_UNLOCK_CNT.CNT, CLK.REF_LOSS_CNT.CNT,
   THM.HW_TRIP_CNT.CNT, AGE.POH.HOURS]

/-- The refresh: pages 832 to 835 are written and become dirty. -/
def persistRefresh (x : DM) : DM :=
  let bs := persistFields.flatMap fun f => leBytes 4 (x.1.rd f)
  let all := bs ++ List.replicate (1024 - bs.length) 0
  (List.range 4).foldl (fun x k => coreWrite x (pageAddr (832 + k)) ((all.drop (256 * k)).take 256)) x

/-- The counters as the working array holds them. -/
def persistLoad (x : DM) : DM :=
  let load (d : Dev) (q : Fld × Nat) : Dev := d.wr q.1 (x.2.u32 (pageAddr 832 + 4 * q.2))
  ((persistFields.zipIdx).foldl load x.1, x.2)

/-! ## Wind-up (R358) -/

/-- Wind-up: the loss is logged, the counters refreshed, the array frozen; when a running store has finished, a pending one is dropped,
and a store of kind 2 captures every dirty page. -/
def windup (x : DM) : DM :=
  if x.1.on NVS.STATUS.FROZEN then x
  else
    let y := persistRefresh (evLog x .mainsFail 0 0)
    storeNext ((y.1.wr NVS.STATUS.FROZEN 1).updNvs fun n => { n with windup := true }, y.2)

/-! ## The window of the working array (R350) -/

/-- A host write of one word: ignored in a region that the core keeps, and while frozen. -/
def waHostWrite (addr : Nat) (word : Nat) (x : DM) : DM :=
  let page := (addr - waBase) / 256
  if addr < waBase ∨ 1024 ≤ page then x
  else if waReserved page ∨ x.1.on NVS.STATUS.FROZEN then (x.1.irq Page.NVS NVS.irq.WR_PROT, x.2)
  else waWrite x (addr / 4 * 4) (leBytes 4 word)

/-- WA_UE_RELOAD (R363): the page is reloaded from its WIN copy. -/
def waReload (page : Nat) (x : DM) : DM :=
  let c := b2n (x.1.nvs.winB.contains page)
  let d := (setDirty x.1 (x.1.nvs.dirty.filter fun p => p != page)).irq Page.NVS NVS.irq.WA_UE
  evLog (d, x.2.store (pageAddr page) (x.2.take (copyAddr c page) 256)) .waUe page 0

/-! ## Recovery (R360 to R362) -/

/-- Every copy page: (copy, page). -/
def copyPages : List (Nat × Nat) := (List.range 1024).flatMap fun p => [(0, p), (1, p)]

/-- The newest journal entry: the largest SEQ, an OPEN ranking before a CLOSE or a ROLLBACK. -/
def newestEntry (m : Memory) : Option Nat :=
  let rank (i : Nat) : Nat := 2 * jSeq m i + b2n (jType m i != 0x4F)
  ((List.range 64).filter (jValid m)).foldl (fun b i => match b with
    | none => some i
    | some k => if rank k < rank i then some i else some k) none

/-- An open store resolved: completed when every page it writes is valid and stable at both margins, else rolled back.
`unstable` lists the copy pages that read differently at a margin. -/
def resolveOpen (unstable : List (Nat × Nat)) (i : Nat) (x : DM) : DM :=
  let m := x.2
  let s := jSeq m i
  let kind := (m.byte (jAddr i + 1)).toNat
  let np := m.u16 (jAddr i + 2)
  let mine := copyPages.filter fun q => copyValid m (s + 1) q.1 q.2 && copySeq m q.1 q.2 == s
  let time := m.num (jAddr i + 12) 8
  let w := m.u32 (jAddr i + 20)
  if (mine.filter fun q => !unstable.contains q).length = np then
    let y := jWrite x (jEntry 0x43 kind np s time w)
    ((y.1.inc NVS.COMPLETE_CNT.CNT).wr NVS.STATUS.START_RESULT 1, y.2)
  else
    let m' := mine.foldl (fun m q => m.store (copyAddr q.1 q.2 + 264) (leBytes 8 0)) m
    let y := jWrite (x.1, m') (jEntry 0x52 kind np s time w)
    ((y.1.inc NVS.ROLLBACK_CNT.CNT).wr NVS.STATUS.START_RESULT 2, y.2)

/-- The event-log slot that follows the newest entry of the rebuilt array. -/
def eventNext (m : Memory) : Nat :=
  let t (k : Nat) : Nat := m.u64 (waBase + 0x38000 + 16 * k)
  let used := (List.range 1024).filter fun k => m.take (waBase + 0x38000 + 16 * k) 16 != List.replicate 16 0
  match used with
  | [] => 0
  | k :: rest => ((rest.foldl (fun b i => if t b < t i then i else b) k) + 1) % 1024

/-- One page of the working array filled by Table 16.5. -/
def fillPage (next : Nat) (x : DM) (p : Nat) : DM :=
  let m := x.2
  let va := copyValid m next 0 p
  let vb := copyValid m next 1 p
  let take (c : Nat) (d : Dev) : DM :=
    (if c = 1 then d.updNvs fun n => { n with winB := p :: n.winB } else d, m.store (pageAddr p) (m.take (copyAddr c p) 256))
  match va, vb with
  | true, false => take 0 x.1
  | false, true => take 1 x.1
  | true, true =>
    if copySeq m 0 p < copySeq m 1 p then take 1 x.1
    else if copySeq m 0 p = copySeq m 1 p ∧ m.take (copyAddr 0 p) 256 ≠ m.take (copyAddr 1 p) 256 then
      take 0 (((x.1.inc NVS.SEQ_TIE_CNT.CNT).irq Page.NVS NVS.irq.SEQ_TIE).wr NVS.TIE_PAGE.PAGE p)
    else take 0 x.1
  | false, false =>
    let d := (x.1.inc NVS.PAGE_LOST_CNT.CNT).irq Page.NVS NVS.irq.PAGE_LOST
    let d1 := if d.on NVS.STATUS.LOST then d else (d.wr NVS.STATUS.LOST 1).wr NVS.LOST_PAGE.PAGE p
    (d1, m.zero (pageAddr p) 256)

/-- STORE_RECOVERY. The pages that are logged are logged once the array stands. -/
def storeRecover (unstable : List (Nat × Nat)) (x : DM) : DM :=
  let d0 := x.1.updNvs fun _ => { Nvs.reset with jNewest := newestEntry x.2 }
  let y := match newestEntry x.2 with
    | none =>
      let top := (copyPages.filter fun q => copyCrc x.2 q.1 q.2).foldl (fun a q => max a (copySeq x.2 q.1 q.2)) 0
      ((setSeqNext d0 (top + 1)).wr NVS.STATUS.START_RESULT 3, x.2)
    | some i =>
      let z := if jType x.2 i = 0x4F then resolveOpen unstable i (d0, x.2) else (d0, x.2)
      (setSeqNext z.1 (jSeq x.2 i + 1), z.2)
  let lost := newestEntry x.2 == none
  let next := seqNext y.1
  let m := y.2
  let ties := (List.range 1024).filter fun p =>
    copyValid m next 0 p && copyValid m next 1 p && copySeq m 0 p == copySeq m 1 p && m.take (copyAddr 0 p) 256 != m.take (copyAddr 1 p) 256
  let gone := (List.range 1024).filter fun p => !copyValid m next 0 p && !copyValid m next 1 p
  let z := (List.range 1024).foldl (fillPage next) y
  let z1 := (setDirty (z.1.updNvs fun n => { n with evNext := eventNext z.2 }) [], z.2)
  let top := (copyPages.filter fun q => copyCrcOk m q.1 q.2).foldl (fun (b : Nat × Nat × Nat) q =>
    if b.1 < copyWcnt m q.1 q.2 then (copyWcnt m q.1 q.2, q) else b) (0, 0, 0)
  let z2 := (((z1.1.wr NVS.WEAR_MAX.WCNT top.1).wr NVS.WEAR_PAGE.PAGE top.2.2).wr NVS.WEAR_PAGE.COPY top.2.1, z1.2)
  let z3 := if lost then evLog z2 .journalLost 0 0 else z2
  let z4 := ties.foldl (fun x p => evLog x .seqTie p 0) z3
  persistLoad (gone.foldl (fun x p => evLog x .pageLost p 0) z4)

/-! ## The margin scan (R365) -/

/-- A pass starts. -/
def scanStart (d : Dev) : Dev :=
  if d.on NVS.STATUS.SCAN then d
  else ((((d.start .scan).wr NVS.STATUS.SCAN 1).wr NVS.SCAN_POS.PAGE 0).wr NVS.SCAN_POS.COPY 0).updNvs fun n => { n with weakA := 0, weakB := 0 }

/-- SCAN_PASS_START: HOURS hours after the start of the last pass. -/
def scanDue (d : Dev) : Dev := if d.past .scan (d.rd NVS.SCAN_CFG.HOURS * 3600 * oneS) then scanStart d else d

/-- A pass ends: its weak words enter the ledger (kind 4); a pass that found some halves HOURS (Table 18.6). -/
def scanEnd (x : DM) : DM :=
  let n := x.1.nvs
  let some' := n.weakA + n.weakB != 0
  let h := x.1.rd NVS.SCAN_CFG.HOURS
  let d := (x.1.wr NVS.STATUS.SCAN 0).updNvs fun n => { n with lastWeak := some', passGood := if some' then 0 else n.passGood + 1 }
  let d1 := if some' then d.wr NVS.SCAN_CFG.HOURS (max 1 (h / 2)) else d
  ledgerEnter (ledgerEnter (d1, x.2) 4 0 (n.weakA : Int)) 4 1 (n.weakB : Int)

/-- SCAN_PAGE with the number of weak words of the copy page: a page with some is refreshed. The scan pauses while a store
runs. The pages of copy A come first, then those of copy B (DESIGN CHOICE, log entry 18). -/
def scanPage (weak : Nat) (x : DM) : DM :=
  if !x.1.on NVS.STATUS.SCAN || x.1.nvs.run.isSome || x.1.on NVS.STATUS.FROZEN then x
  else
    let p := x.1.rd NVS.SCAN_POS.PAGE
    let c := x.1.rd NVS.SCAN_POS.COPY
    let d := (x.1.addCnt NVS.WEAK_CNT.CNT weak).irqIf (weak != 0) Page.NVS NVS.irq.WEAK
    let d1 := d.updNvs fun n => if c = 0 then { n with weakA := n.weakA + weak } else { n with weakB := n.weakB + weak }
    let d2 := if p < 1023 then d1.wr NVS.SCAN_POS.PAGE (p + 1)
      else if c = 0 then (d1.wr NVS.SCAN_POS.PAGE 0).wr NVS.SCAN_POS.COPY 1 else d1
    let y := if p = 1023 ∧ c = 1 then scanEnd (d2, x.2) else (d2, x.2)
    if weak = 0 then y else storeOpen y 3 [p] false

/-! ## Meanings -/

def execStore (s : State) : Host.Outcome State Fault Refusal := s.onBoth storeCmd
def execWorkingArrayWrite (addr : Nat) (word : Word32) (s : State) : Host.Outcome State Fault Refusal :=
  s.onBoth (waHostWrite addr word.toNat)
def execWaUeReload (page : Fin 1024) (s : State) : Host.Outcome State Fault Refusal := s.onBoth (waReload page)
def execScanPage (weak : Nat) (s : State) : Host.Outcome State Fault Refusal := s.onBoth (scanPage weak)
def execScanPassStart (s : State) : Host.Outcome State Fault Refusal := s.onDev scanDue
def execScanNow (s : State) : Host.Outcome State Fault Refusal := s.onDev scanStart

end Sys2Proof.Machine
end

