-- ==== Sys2Proof/Machine/Power.lean ====
section
/-! DEFINITION. Mains, rails and PLLs (spec/19_power_clocks_reset.md): what a loss sheds, what removes the rails, what is
measured, and how a module goes down. Starts stand in Start.lean. -/

namespace Sys2Proof.Machine

def Dev.updPw (d : Dev) (g : Power → Power) : Dev := { d with pw := g d.pw }

/-! ## Rails (R411, R417, R421, R431) -/

/-- The rails of Table 19.1 by number: 0 V12, 1 VAUX, 2 VCORE, 3 VSRD, 4 VHBM, 5 VANA, 6 V48. -/
def v48 : Nat := 6

/-- What keeps its content without power (Table 19.6): the journal, the store copies and the table flash. -/
def keepsContent (a : Nat) : Bool :=
  decide (0x09040000 ≤ a ∧ a < 0x09040800) || decide (0x09080000 ≤ a ∧ a < 0x09180000)

def Memory.powerLoss (m : Memory) : Memory :=
  { m with bytes := m.bytes.filter fun c => keepsContent c.1, checks := m.checks.filter fun c => keepsContent c.1 }

/-- Every register and unit at its reset value; what the outside saw, the levels of the input lines, whether mains is in tolerance
and V48 stopped (R416), and the supervisor's clock stay. -/
def logicReset (d : Dev) : Dev :=
  let r := { Dev.reset with out := d.out, freeCtr := d.freeCtr, pw := { Power.reset with restarts := d.pw.restarts } }
  [TWIN.STATUS.TAKE_IN, THERM.STATUS.HEAD_PRESENT 0, THERM.STATUS.HEAD_PRESENT 1, PWR.STATUS.MAINS_OK, PWR.STATUS.SHED].foldl
    (fun r f => r.wr f (d.rd f)) r

/-- All logic returns to its reset state and is held there; a page write that runs breaks off (R359). -/
def logicDown (cause : Nat) (held : Bool) (x : DM) : DM :=
  let y := interruptStore x
  ((logicReset y.1).updPw fun p => { p with down := some cause, held := held }, y.2.powerLoss)

/-- TAKE_OUT released (R421, R423). -/
def releaseTakeOut (d : Dev) : Dev := (d.wr TWIN.STATUS.TAKE_OUT 0).emit (.pin 7 0)

/-- The FAULT relay on AUX, pin 8 in this model's list of outputs, opens. -/
def openFault (d : Dev) : Dev := d.emit (.pin 8 0)

/-- The logic rails are removed in the reverse of the order of Table 19.1, V48 with them. -/
def railsOff (cause : Nat) (x : DM) : DM :=
  let d := (([v48, 5, 4, 3, 2, 1, 0] : List Nat)).foldl (fun (d : Dev) k => d.emit (.rail k false)) (openFault (releaseTakeOut x.1))
  logicDown cause false (d, x.2)

/-- BULK_LOW_OFF and RAIL_FAULT. -/
def bulkLowOff (x : DM) : DM := railsOff 1 x
def railFault (x : DM) : DM := railsOff 2 x

/-- REFCLK_LOSS: the hardware sheds, releases TAKE_OUT, opens FAULT and holds system reset. -/
def refclkLoss (x : DM) : DM := logicDown 10 true (openFault (releaseTakeOut (shedActuators x.1)), x.2)

/-! ## Mains (R410, R414 to R416) -/

/-- MAINS_IN_TOLERANCE with the last half-cycle's rms in 0.1 V. -/
def mainsInTolerance (rms : Nat) (d : Dev) : Dev :=
  let d1 := ((d.wr PWR.STATUS.MAINS_OK 1).wrSat PWR.MAINS.RMS rms).irq Page.PWR PWR.irq.MAINS_OK
  let d2 := d1.updPw fun p => { p with tolAt := some d.now }
  if d.on PWR.STATUS.RIDE then
    let ms := d.pw.lossAt.elim 0 fun t => (d.now - t) / 16000000
    (((d2.wr PWR.STATUS.RIDE 0).inc PWR.RIDE_CNT.CNT).wrSat PWR.LAST_LOSS.MS ms).updPw fun p => { p with lossAt := none }
  else d2

/-- MAINS_LOSS with BULK in 0.1 V. -/
def mainsLoss (bulk : Nat) (x : DM) : DM :=
  let d := (x.1.wrSat PWR.BULK.V bulk).wrB PWR.STATUS.BULK_LOW (decide (bulk < 3000))
  if d.on PWR.STATUS.RIDE then (d, x.2)
  else
    let d1 := ((d.wr PWR.STATUS.MAINS_OK 0).wr PWR.STATUS.RIDE 1).wr PWR.STATUS.SHED 1
    let d2 := ((d1.inc PWR.MAINS_LOSS_CNT.CNT).inc PWR.SHED_CNT.CNT).irq Page.PWR PWR.irq.MAINS_LOSS
    let d3 := (shedActuators d2).emit (.rail v48 false)
    let d4 := d3.updPw fun p => { p with lossAt := some d.now, tolAt := none }
    if d.pw.started then windup (d4, x.2) else (d4, x.2)

/-- ACTUATOR_RESTORE: mains has stayed in tolerance for 100 ms, and BULK reads 380 V (R416). -/
def actuatorRestore (d : Dev) : Dev :=
  if d.on PWR.STATUS.MAINS_OK && d.on PWR.STATUS.SHED && d.pw.tolAt.elim false (fun t => decide (t + 100 * oneMs ≤ d.now)) &&
      decide (3800 ≤ d.rd PWR.BULK.V) then
    ((d.wr PWR.STATUS.SHED 0).emit (.rail v48 true)).irq Page.PWR PWR.irq.RESTORE
  else d

/-- RAIL_WARN: rail 0 V12, 1 VAUX, 2 VCORE, 3 VSRD, 4 VHBM, 5 VANA with its voltage. -/
def railFields : List Fld := [PWR.V12.MV, PWR.VAUX.MV, PWR.VCORE.MV, PWR.VSRD.MV, PWR.VHBM.MV, PWR.VANA.MV]
def railWarn (rail : Fin 6) (mv : Nat) (d : Dev) : Dev :=
  (d.wrSat (railFields.getD rail PWR.V12.MV) mv).irq Page.PWR PWR.irq.RAIL_WARN

/-- What is measured every 1 ms (R412). -/
def powerMeasure (p : PowerMeas) (d : Dev) : Dev :=
  let d1 := ((d.wrSat PWR.P_IN.MW p.pIn).wrSat PWR.P_LOGIC.MW p.pLogic).wrSat PWR.P_ACT.MW p.pAct
  let d2 := (d1.wrSat PWR.BULK.V p.bulk).wrB PWR.STATUS.BULK_LOW (decide (p.bulk < 3000))
  (railFields.zip p.rails).foldl (fun d q => d.wrSat q.1 q.2) d2

/-- The core rail's setting moves 1 mV per ms towards 750 mV plus the guardband. -/
def coreRamp (d : Dev) : Dev :=
  let goal := 750 + d.rd AGE.VGB.MV
  let now' := d.rd PWR.CORE.SET
  if now' < goal then d.wr PWR.CORE.SET (now' + 1) else if goal < now' then d.wr PWR.CORE.SET (now' - 1) else d

/-- HEAD_OC: the supply trips off, the head counts as absent. -/
def headOc (n : Fin 2) (d : Dev) : Dev :=
  let d1 := (d.wr (if n = 0 then PWR.HEAD.OC_A else PWR.HEAD.OC_B) 1).irq Page.PWR PWR.irq.HEAD_OC
  let d2 := d1.updPw fun p => { p with tripped := n.val :: p.tripped.filter fun k => k != n.val }
  if headState d2 n = HS.off ∨ headState d2 n = HS.fault then d2 else headFault d2 n 2

/-! ## PLLs and clocks (R420, R422, R433) -/

/-- HBM_PLL_UNLOCK: cause 2 of degraded mode. -/
def hbmPllUnlock (d : Dev) : Dev :=
  degradeCause (((d.wr CLK.STATUS.HBM_LOCK 0).inc CLK.HBM_UNLOCK_CNT.CNT).irq Page.CLK CLK.irq.HBM_UNLOCK) 2

/-- The frequency monitors with their nominal values in kHz (Table 19.3). -/
def freqFields : List (Fld × Nat) :=
  [(CLK.FREQ_PIX.KHZ, 1200000), (CLK.FREQ_FAB.KHZ, 800000), (CLK.FREQ_CTL.KHZ, 200000), (CLK.FREQ_ADC.KHZ, 24000),
   (CLK.FREQ_VLV.KHZ, 20000), (CLK.FREQ_LANE.KHZ, 156250)]

/-- A measurement beyond FREQ_TOL. -/
def freqOff (d : Dev) (khz nominal : Nat) : Bool :=
  decide (d.rd CLK.FREQ_TOL.PPM * nominal < 1000000 * ((khz : Int) - nominal).natAbs)

/-- FREQ_MEASURE. The lane PLL shows lock again when its measurement is in tolerance (R422 gives it 1 ms and the table no row;
log entry 22). -/
def freqMeasure (khz : List Nat) (d : Dev) : Dev :=
  let qs := freqFields.zip khz
  let d1 := qs.foldl (fun d q => d.wrSat q.1.1 q.2) d
  let d2 := d1.irqIf (qs.any fun q => freqOff d q.2 q.1.2) Page.CLK CLK.irq.FREQ_ERR
  if (khz[5]?).elim false fun f => !freqOff d f 156250 then d2.wr CLK.STATUS.LANE_LOCK 1 else d2

/-! ## Going down (R400, R401, R422, R424) -/

/-- Wind-up for a shut-down whose rails go when it closes (Table 18.3, steps 3 and 4). -/
def shedAndWind (cause : Nat) (x : DM) : DM :=
  let d := ((shedActuators x.1).emit (.rail v48 false)).wr PWR.STATUS.SHED 1
  windup (d.updPw fun p => { p with going := .windup cause }, x.2)

/-- A module whose yield is awaited: active, with a standby, and the option set. -/
def mayYield (d : Dev) (opt : Bool) : Bool := opt && d.hasStandby

/-- The shut-down sequence begins (Table 18.3): it cannot be cancelled. -/
def shutBegin (x : DM) : DM :=
  match x.1.pw.going with
  | .no =>
    if mayYield x.1 (x.1.on TWIN.CFG.YIELD_THM) then
      ((x.1.toStandby .yield []).updPw fun p => { p with going := .yielding none }, x.2)
    else shedAndWind 3 x
  | _ => x

/-- HW_TRIP: the comparators remove the rails without the firmware; Wind-up only while the cores still run. -/
def hwTrip (coresRun : Bool) (x : DM) : DM := if coresRun then shedAndWind 4 x else railsOff 4 x

/-! ## Persistent counters (R350) -/

/-- PERSISTENT_COUNTER_REFRESH, once per second: 3,600 of them are a power-on hour (log entry 17). -/
def persistTick (x : DM) : DM :=
  let s := x.1.pw.seconds + 1
  let d := x.1.updPw fun p => { p with seconds := s % 3600 }
  persistRefresh (if s = 3600 then d.inc AGE.POH.HOURS else d, x.2)

/-! ## Meanings -/

def execBulkLowOff (s : State) : Host.Outcome State Fault Refusal := s.onBoth bulkLowOff
def execRailFault (s : State) : Host.Outcome State Fault Refusal := s.onBoth railFault
def execRefclkLoss (s : State) : Host.Outcome State Fault Refusal := s.onBoth refclkLoss
def execMainsInTolerance (rms : Nat) (s : State) : Host.Outcome State Fault Refusal := s.onDev (mainsInTolerance rms)
def execMainsLoss (bulk : Nat) (s : State) : Host.Outcome State Fault Refusal := s.onBoth (mainsLoss bulk)
def execActuatorRestore (s : State) : Host.Outcome State Fault Refusal := s.onDev actuatorRestore
def execRailWarn (rail : Fin 6) (mv : Nat) (s : State) : Host.Outcome State Fault Refusal := s.onDev (railWarn rail mv)
def execHeadOc (n : Fin 2) (s : State) : Host.Outcome State Fault Refusal := s.onDev (headOc n)
def execHbmPllUnlock (s : State) : Host.Outcome State Fault Refusal := s.onDev hbmPllUnlock
def execFreqMeasure (khz : List Nat) (s : State) : Host.Outcome State Fault Refusal := s.onDev (freqMeasure khz)
def execPersistentCounterRefresh (s : State) : Host.Outcome State Fault Refusal := s.onBoth persistTick

end Sys2Proof.Machine
end

