-- ==== Sys2Proof/Machine/Temp.lean ====
section
/-! DEFINITION. Temperature and ageing (spec/18_temperature_and_ageing.md): sites, thresholds, throttle and shut-down, reference
compensation, and the re-planned margins. -/

namespace Sys2Proof.Machine

def Dev.updTemp (d : Dev) (g : Temp → Temp) : Dev := { d with temp := g d.temp }

/-! ## Sites (R392 to R395) -/

/-- The group of a site: the die's sixteen, then the board's four. -/
def sameGroup (i j : Nat) : Bool := decide (i < 16) == decide (j < 16)

def siteBad (d : Dev) (i : Nat) : Bool := bitOf (d.rd THM.SITE_BAD.MASK) i

/-- A site marked bad. -/
def markBad (d : Dev) (i : Nat) : Dev :=
  if siteBad d i then d
  else
    let d1 := d.wr THM.SITE_BAD.MASK (setBit (d.rd THM.SITE_BAD.MASK) i)
    ((d1.inc THM.SITE_BAD_CNT.CNT).irq Page.THM THM.irq.SITE_BAD).updTemp fun t =>
      { t with within := t.within.set i 0, beyond := t.beyond.set i 0 }

/-- The neighbours of a site that are not bad, with their gradients. -/
def neighbours (d : Dev) (i : Nat) : List (Nat × Int) :=
  ([(THM.MODEL.NBR0 i, THM.MODEL.GRAD0 i), (THM.MODEL.NBR1 i, THM.MODEL.GRAD1 i), (THM.MODEL.NBR2 i, THM.MODEL.GRAD2 i)]).filterMap
    fun q => let j := d.rd q.1; if j < 20 && !siteBad d j then some (j, d.rdS q.2) else none

/-- E(i) and how many neighbours it rests on. -/
def expected (d : Dev) (i : Nat) : Option (Int × Nat) :=
  let ns := neighbours d i
  if ns.isEmpty then none
  else
    let p := (d.rd PWR.P_LOGIC.MW : Int)
    some ((ns.foldl (fun s q => s + (d.rdS (THM.TEMP.T q.1) + q.2 * p / 1000)) 0) / (ns.length : Int), ns.length)

/-- One site's cross-check, against the marks that stand when the sample is taken. -/
def crossSite (d0 : Dev) (rail : Nat) (d : Dev) (i : Nat) : Dev :=
  let t := d.rdS (THM.TEMP.T i)
  let dwell := max 1 (d.rd THM.XCHK.XDWELL)
  let e := expected d0 i
  let diff := e.map fun q => (t - q.1).natAbs
  let set (b w : Nat) (d : Dev) : Dev := d.updTemp fun u => { u with beyond := u.beyond.set i b, within := u.within.set i w }
  if siteBad d0 i then
    let ok := !bitOf rail i && diff.elim false fun x => decide (2 * x ≤ d.rd THM.XCHK.XTOL * 4096)
    let w := if ok then d.temp.within.getD i 0 + 1 else 0
    if 16 * dwell ≤ w then set 0 0 (d.wr THM.SITE_BAD.MASK (clrBit (d.rd THM.SITE_BAD.MASK) i)) else set 0 w d
  else
    let far := (e.elim false fun q => decide (2 ≤ q.2)) && diff.elim false fun x => decide (d.rd THM.XCHK.XTOL * 4096 < x)
    let b := if far then d.temp.beyond.getD i 0 + 1 else 0
    if dwell ≤ b then markBad d i else set b 0 d

/-- The largest of a list of values. -/
def maxI : List Int → Option Int
  | [] => none
  | x :: xs => some (xs.foldl max x)

/-- The effective values: T of a good site, E of a bad one with two neighbours; any other takes the largest of its group, and
keeps its last value where its group has none. -/
def effAll (d : Dev) : Dev :=
  let sites := List.range 20
  let val (i : Nat) : Option Int :=
    if !siteBad d i then some (d.rdS (THM.TEMP.T i))
    else (expected d i).bind fun q => if 2 ≤ q.2 then some q.1 else none
  let vs := sites.map val
  sites.foldl (fun d i =>
    match vs.getD i none with
    | some v => d.wrS (THM.EFF.T i) v
    | none =>
      match maxI (sites.filterMap fun j => if j != i && sameGroup i j then vs.getD j none else none) with
      | some v => d.wrS (THM.EFF.T i) v
      | none => d) d

/-- The governing temperatures and how many good sites each group has. -/
def govern (d : Dev) : Dev :=
  let good (g : Nat) : List Nat := (List.range 20).filter fun i => (decide (16 ≤ i) == (g == 1)) && !siteBad d i
  let gov (g : Nat) (f : Fld) (d : Dev) : Dev := (maxI ((good g).map fun i => d.rdS (THM.EFF.T i))).elim d fun v => d.wrS f v
  let d1 := gov 1 THM.GOV_BRD.T (gov 0 THM.GOV_DIE.T d)
  let nd := (good 0).length
  let nb := (good 1).length
  let fail := decide (nd < 4) || nb == 0
  let d2 := (d1.wr THM.VALID.DIE nd).wr THM.VALID.BRD nb
  (d2.irqIf (fail && !d.on THM.STATUS.SENSE_FAIL) Page.THM THM.irq.SENSE_FAIL).wrB THM.STATUS.SENSE_FAIL fail

/-! ## Thresholds (R396, R397) -/

/-- One condition counts a sample: on the far side for rising, on the far side for falling. -/
def ThrCond.count (c : ThrCond) (dwell : Nat) (up down : Bool) : ThrCond :=
  if c.on then
    if down then (if dwell ≤ c.fall + 1 then ⟨false, 0, 0⟩ else ⟨true, 0, c.fall + 1⟩) else ⟨true, 0, 0⟩
  else if up then (if dwell ≤ c.rise + 1 then ⟨true, 0, 0⟩ else ⟨false, c.rise + 1, 0⟩) else ⟨false, 0, 0⟩

def govFld (g : Nat) : Fld := if g = 0 then THM.GOV_DIE.T else THM.GOV_BRD.T
def rateFld (g : Nat) : Fld := if g = 0 then THM.RATE_DIE.R else THM.RATE_BRD.R

/-- The rate condition at the sample: r ≥ RISE_LIM, in 0.1 °C per minute. -/
def rateMet (d : Dev) (g l : Nat) (r : Int) : Bool := decide ((d.rd (THM.RATE_CFG.RISE_LIM g l) * 65536 : Nat) ≤ 10 * r)

/-- One threshold at a sample; with `force` the throttle condition counts as met (R395). -/
def thrStep (d : Dev) (g l : Nat) (force : Bool) (t : Thr) : Thr :=
  let v := d.rdS (govFld g)
  let r := d.rdS (rateFld g)
  let dwell := max 1 (d.rd (THM.LEVEL_CFG.DWELL g l))
  let lev := d.rdS (THM.LEVEL_CFG.LEVEL g l) * 4096
  let hyst := (d.rd (THM.LEVEL_CFG.HYST g l) * 4096 : Nat)
  let a := t.level.count dwell (force || decide (lev ≤ v)) (!force && decide (v ≤ lev - hyst))
  let b := t.rate.count dwell (force || rateMet d g l r)
    (!force && decide (20 * r ≤ (d.rd (THM.RATE_CFG.RISE_LIM g l) * 65536 : Nat)))
  let on := match d.rd (THM.RATE_CFG.MODE g l) with
    | 1 => b.on
    | 2 => a.on || b.on
    | _ => a.on
  ⟨a, b, on⟩

/-- The governing values once per second, newest first, and the rate of each group: zero until RISE_WIN seconds are kept. -/
def rates (d : Dev) : Dev :=
  let d1 := d.updTemp fun t =>
    { t with gov := if t.samples % 1000 = 0 then ((d.rdS THM.GOV_DIE.T, d.rdS THM.GOV_BRD.T) :: t.gov).take 602 else t.gov
             samples := (t.samples + 1) % 1000 }
  let rate (g : Nat) (d : Dev) : Dev :=
    let w := d.rd (THM.RISE_WIN.S g)
    match d.temp.gov[w]? with
    | none => d.wrS (rateFld g) 0
    | some q => d.wrS (rateFld g) ((d.rdS (govFld g) - (if g = 0 then q.1 else q.2)) * 60 / (w : Int))
  rate 1 (rate 0 d1)

/-! ## Throttle (R398, R399) -/

/-- A throttle step entered or left, with the actions of Table 18.2. -/
def setStep (d : Dev) (n : Nat) : Dev :=
  let was := d.rd THM.STATUS.STEP
  let d1 := archForce (scrubShow ((d.start .throttle).wr THM.STATUS.STEP n)) (decide (1 ≤ n)) (decide (2 ≤ n))
  if n = 3 then setDecimation d1 (max 2 (d.rd THM.THR_CFG.DECIM))
  else if was = 3 then setDecimation d1 1 else d1

/-- THROTTLE_STEP, STEP_MS after the last change. -/
def throttleStep (d : Dev) : Dev :=
  let n := d.rd THM.STATUS.STEP
  if !d.past .throttle (d.rd THM.THR_CFG.STEP_MS * oneMs) then d
  else if d.temp.throttle then (if n < 3 then setStep d (n + 1) else d)
  else if 0 < n then setStep d (n - 1) else d

/-- Throttle asserts or clears at a sample. -/
def throttleChange (on : Bool) (d : Dev) : Dev :=
  let n := d.rd THM.STATUS.STEP
  let d1 := d.updTemp fun t => { t with throttle := on }
  if on && !d.temp.throttle then (if n = 0 then setStep d1 1 else d1)
  else if !on && d.temp.throttle && 0 < n then setStep d1 (n - 1) else d1

/-- What the assertion of a threshold leaves: its counter, its interrupt and its entry of the event log. -/
def thrAssert (g l : Nat) (x : DM) : DM :=
  let d := x.1
  let d1 := match l with
    | 0 => (d.inc THM.WARN_CNT.CNT).irq Page.THM THM.irq.WARN
    | 1 => (d.inc THM.THR_CNT.CNT).irq Page.THM THM.irq.THROTTLE
    | _ => (d.inc THM.SD_CNT.CNT).irq Page.THM THM.irq.SHUTDOWN
  evLog (d1, x.2) (if l = 0 then .warning else if l = 1 then .throttle else .shutdown) g (d.rd (govFld g))

/-- All six thresholds at a sample, and what they cause. -/
def thresholds (x : DM) : DM :=
  let d := x.1
  let old := d.temp.thr
  let force := d.on THM.STATUS.SENSE_FAIL
  let new : Vector Thr 6 := Vector.ofFn fun (k : Fin 6) => thrStep d (k.val / 3) (k.val % 3) (force && k.val % 3 == 1) old[k]
  let bits (g : Nat) : Nat := (List.finRange 6).foldl (fun v (k : Fin 6) =>
    if k.val / 3 = g && new[k].on then v + 2 ^ (k.val % 3) else v) 0
  let d1 := ((d.updTemp fun t => { t with thr := new }).wr THM.STATUS.DIE (bits 0)).wr THM.STATUS.BRD (bits 1)
  let y := (List.finRange 6).foldl (fun (y : DM) (k : Fin 6) =>
    if new[k].on && !old[k].on then thrAssert (k.val / 3) (k.val % 3) y else y) (d1, x.2)
  let z := (throttleChange (new[(1 : Fin 6)].on || new[(4 : Fin 6)].on) y.1, y.2)
  let sd (k : Fin 6) : Bool := new[k].on && !old[k].on
  if sd 2 || sd 5 then shutBegin z else z

/-- TEMP_SAMPLE: the twenty samples in 2^-16 °C, the sites at a rail of their converter, and the power measured with them. -/
def tempSample (temps : List Int) (rail : Nat) (meas : PowerMeas) (x : DM) : DM :=
  let d0 := coreRamp (powerMeasure meas x.1)
  let d1 := (temps.take 20).zipIdx.foldl (fun d q => d.wrS (THM.TEMP.T q.2) q.1) d0
  let pad (l : List Nat) : List Nat := if l.isEmpty then List.replicate 20 0 else l
  let d2 := d1.updTemp fun t => { t with beyond := pad t.beyond, within := pad t.within }
  let d3 := (List.range 20).foldl (fun d i => if bitOf rail i then markBad d i else d) d2
  let d4 := govern (effAll ((List.range 20).foldl (crossSite d3 rail) d3))
  let d5 := rates d4
  let rose := (List.range 6).any fun k =>
    rateMet d5 (k / 3) (k % 3) (d5.rdS (rateFld (k / 3))) && !rateMet d5 (k / 3) (k % 3) (d4.rdS (rateFld (k / 3)))
  thresholds (d5.irqIf rose Page.THM THM.irq.RISE, x.2)

/-! ## Reference compensation (R402, R403) -/

/-- ppm(T) of R402 in 2^-16 ppm, at T in 2^-16 °C. -/
def refDrift (t : Int) : Int :=
  let x := t - 25 * 65536
  sar (Config.refC1 * x * 2 ^ 32 + Config.refC2 * x * x * 2 ^ 16 + Config.refC3 * x * x * x) 80

/-- REF_TRIM_UPDATE: at most 0.01 ppm per update, 655 of 2^-16 ppm. -/
def refTrimUpdate (d : Dev) : Dev :=
  let cur := d.rdS THM.REF_TRIM.TRIM
  d.wrS THM.REF_TRIM.TRIM (cur + clampI (-655) 655 (-refDrift (d.rdS (THM.EFF.T 16)) - cur))

/-- REF_CORR_UPDATE. -/
def refCorrUpdate (d : Dev) : Dev :=
  let dT := sat16 (sar (d.rdS (THM.EFF.T 17) - 25 * 65536) 6)
  (List.range 2).foldl (fun d n =>
    d.wrS (PADC.REF_CORR.RC n) (2 ^ 24 - sar (Config.refRA n * dT) 10 - sar (Config.refRB n * sat16 (sar (dT * dT) 10)) 10)) d

/-! ## The ledger's own sources (R404, R57) -/

/-- RING_OSCILLATOR_READING: the readings of one instant; 360 of them make an hour, whose mean enters the ledger. -/
def roReading (ppm : List Int) (x : DM) : DM :=
  let t := x.1.temp
  let sums := (List.range 16).map fun i => t.ro.getD i 0 + ppm.getD i 0
  if t.roN + 1 < 360 then (x.1.updTemp fun t => { t with ro := sums, roN := t.roN + 1 }, x.2)
  else sums.zipIdx.foldl (fun x q => ledgerEnter x 1 q.2 (q.1 / 360)) (x.1.updTemp fun t => { t with ro := [], roN := 0 }, x.2)

/-- EYE_MEASURE: the measurement and its two ledger entries, the height in steps of 4 mV (R57). -/
def eyeLedger (p : Fin 16) (k : Fin 4) (h v : Nat) (x : DM) : DM :=
  let u := 4 * p.val + k.val
  if eyeDue p k x.1 then ledgerEnter (ledgerEnter (eyeMeasured p k h v x.1, x.2) 2 u (h : Int)) 3 u ((v / 4 * 4 : Nat) : Int) else x

/-! ## Re-planning (R407) -/

/-- The fields of a track. -/
def trackN (m : Memory) (kind unit : Nat) : Nat := m.u16 (trackAddr kind unit + 2)
def trackBase (m : Memory) (kind unit : Nat) : Int := m.s32 (trackAddr kind unit + 4)
def trackCur (m : Memory) (kind unit : Nat) : Int := m.s32 (trackAddr kind unit + 8)
def trackSpread (m : Memory) (kind unit : Nat) : Int := m.s32 (trackAddr kind unit + 12)

/-- SLOPE of every track that has a measurement. -/
def planSlopes (x : DM) : DM :=
  (List.range 185).foldl (fun x i =>
    let a := waBase + 0x3C000 + 32 * i
    let m := x.2
    if m.u16 (a + 2) = 0 then x
    else coreWrite x (a + 20) (leBytes 4 (ofSigned 32
      ((m.s32 (a + 8) - m.s32 (a + 4)) * 1000 / ((max 1 (m.u32 (a + 28) - m.u32 (a + 24)) : Nat) : Int))))) x

/-- A planned value: how many fields have changed so far, and the device. A staged field is written in the staged set, at start
in the live copy as well. -/
def planPut (atStart : Bool) (f : Fld) (v : Nat) (q : Nat × Dev) : Nat × Dev :=
  let d := q.2
  let old := if f.acc = .rws then stagedVal d d.ep.next f else d.rd f
  let d1 := if f.acc = .rws then (if atStart then (d.stageWrite f v).wr f v else d.stageWrite f v) else d.wr f v
  (if v = old then q.1 else q.1 + 1, d1)

/-- The voltage guardband. -/
def planGuard (m : Memory) (q : Nat × Dev) : Nat × Dev :=
  let d := q.2
  let cur := ((List.range 16).map fun u => trackCur m 1 u).foldl max 0
  let gb := min 40 ((cur * (d.rd AGE.VGB.VGB_K : Int) + 999) / 1000).toNat
  let old := d.rd AGE.VGB.MV
  let v := min (old + 5) (max (old - 5) gb)
  let r := planPut false AGE.VGB.MV v q
  (r.1, r.2.wr PWR.CORE.GB v)

/-- LANE_WARN of the lanes whose smoothed eye is below twice EYE_MIN.H. -/
def planLanes (m : Memory) (q : Nat × Dev) : Nat × Dev :=
  let d := q.2
  let low (u : Nat) : Bool := trackN m 2 u != 0 && decide (trackCur m 2 u < 2 * (d.rd (LANE.EYE_MIN.H_MIN (u / 4) (u % 4)) : Int))
  let word (base : Nat) : Nat := (List.range 32).foldl (fun v b => if low (base + b) then v + 2 ^ b else v) 0
  let lo := word 0
  let hi := word 32
  let new := Nat.land lo (Nat.xor (d.rd AGE.LANE_WARN_LO.MASK) (2 ^ 32 - 1)) != 0 ||
    Nat.land hi (Nat.xor (d.rd AGE.LANE_WARN_HI.MASK) (2 ^ 32 - 1)) != 0
  let r := planPut false AGE.LANE_WARN_HI.MASK hi (planPut false AGE.LANE_WARN_LO.MASK lo q)
  (r.1, (r.2.wrB AGE.STATUS.LANE_WARN_ANY (decide (0 < lo + hi))).irqIf new Page.AGE AGE.irq.LANE_WARN)

/-- The refresh interval. -/
def planHours (q : Nat × Dev) : Nat × Dev :=
  let d := q.2
  let h := d.rd NVS.SCAN_CFG.HOURS
  if d.nvs.lastWeak then planPut false NVS.SCAN_CFG.HOURS (max 1 (h / 2)) q
  else if 4 ≤ d.nvs.passGood then
    let r := planPut false NVS.SCAN_CFG.HOURS (min (d.rd NVS.SCAN_CFG.MAX_HOURS) (2 * h)) q
    (r.1, r.2.updNvs fun n => { n with passGood := 0 })
  else q

/-- The shutter interval of a head. Where a quotient's divisor is zero the spec states no value: it is a free one. -/
def planShutter (atStart : Bool) (m : Memory) (n : Nat) (q : Nat × Dev) : Nat × Dev :=
  let d := q.2
  if !d.on AGE.CTL.PLAN_SH || decide (trackN m 5 n < 8) || decide (trackN m 6 n < 8) then q
  else
    let ceil := d.rd (if n = 0 then AGE.SH_CEIL.T0 else AGE.SH_CEIL.T1)
    let low := stagedVal d d.ep.next (THERM.SH_INTERVAL.MIN n)
    let rb := (trackBase m 5 n).natAbs
    let rc := min rb (trackCur m 5 n).natAbs
    let nc := (trackCur m 6 n).natAbs
    let nb := min nc (trackBase m 6 n).natAbs
    if rb = 0 ∨ nc = 0 then
      let (v, d1) := d.free 16
      planPut atStart (THERM.SH_INTERVAL.MAX n) v (q.1, d1)
    else planPut atStart (THERM.SH_INTERVAL.MAX n) (max low (ceil * rc * nb / (rb * nc))) q

/-- The timing window of a valve. -/
def planValve (atStart : Bool) (m : Memory) (v : Nat) (q : Nat × Dev) : Nat × Dev :=
  let d := q.2
  if !d.on AGE.CTL.PLAN_VALVE || decide (trackN m 8 v < 32) then q
  else
    let c := trackCur m 8 v
    let w := 4 * trackSpread m 8 v + (d.rd AGE.DIP_MARGIN.T : Int)
    planPut atStart (VALVE.DIP_WIN.TMAX v) (min 65535 (c + w).toNat) (planPut atStart (VALVE.DIP_WIN.TMIN v) (c - w).toNat q)

/-- A re-plan. -/
def planRun (atStart : Bool) (x : DM) : DM :=
  let y := planSlopes x
  let m := y.2
  let q0 := planHours (planLanes m (planGuard m (0, y.1)))
  let q1 := planShutter atStart m 1 (planShutter atStart m 0 q0)
  let q2 := (List.range 16).foldl (fun q v => planValve atStart m v q) q1
  let d := (q2.2.wrSat AGE.LAST_PLAN.CHANGED q2.1).wr AGE.NEXT_PLAN.HOURS (q2.2.rd AGE.POH.HOURS + 720)
  evLog (d.irq Page.AGE AGE.irq.PLAN_DONE, m) .plan q2.1 0

/-- REPLAN: POH has reached NEXT_PLAN. -/
def planDue (x : DM) : DM := if x.1.rd AGE.NEXT_PLAN.HOURS ≤ x.1.rd AGE.POH.HOURS then planRun false x else x

/-! ## Meanings -/

def execThrottleStep (s : State) : Host.Outcome State Fault Refusal := s.onDev throttleStep
def execRefTrimUpdate (s : State) : Host.Outcome State Fault Refusal := s.onDev refTrimUpdate
def execRefCorrUpdate (s : State) : Host.Outcome State Fault Refusal := s.onDev refCorrUpdate
def execRingOscillatorReading (ppm : List Int) (s : State) : Host.Outcome State Fault Refusal := s.onBoth (roReading ppm)
def execEyeMeasure (p : Fin 16) (k : Fin 4) (h v : Nat) (s : State) : Host.Outcome State Fault Refusal :=
  s.onBoth (eyeLedger p k h v)
def execPlanNow (s : State) : Host.Outcome State Fault Refusal := s.onBoth (planRun false)
def execReplan (s : State) : Host.Outcome State Fault Refusal := s.onBoth planDue

end Sys2Proof.Machine
end

