-- ==== Sys2Proof/Machine/Epoch.lean ====
section
/-! DEFINITION. Epochs (R22 to R28, R441 to R443, R463, R464): arming, the consistency check, the two-phase commit, and the
instant at which a frozen set becomes live. -/

namespace Sys2Proof.Machine

def Dev.updEp (d : Dev) (g : Epoch → Epoch) : Dev := { d with ep := g d.ep }

/-- EPOCH_STATUS.STATE (Table 1.6). -/
def epState (d : Dev) : Nat := d.rd WEB.EPOCH_STATUS.STATE
def setEpState (d : Dev) (n : Nat) : Dev := d.wr WEB.EPOCH_STATUS.STATE n

/-- The floor of LEAD_LINES (R25): 16 lines in a ring, else 4. -/
def leadFloor (d : Dev) : Nat := if d.inRing then 16 else 4

/-- The slots of the ring. -/
def slotCount (d : Dev) : Nat := if d.inRing then d.rd STRING.CFG.SLOTS else 1

/-! ## The consistency check (Table 1.4) -/

/-- A check's cause and what it concerns in two fields, with its interrupt. -/
def chkShow (r : Option (Nat × Nat)) (cause which : Fld) (page bit : Nat) (x : Bool × Dev) : Bool × Dev :=
  match r with
  | none => (x.1, (x.2.wr cause 0).wr which 0)
  | some q => (true, ((x.2.wr cause q.1).wr which q.2).irq page bit)

/-- The routes' check recorded (R83). -/
def routeShow (l : List (Fld × Nat)) (x : Bool × Dev) : Bool × Dev :=
  let d := allPipes.foldl (fun (d : Dev) (k : Fin 8) => (d.wr (PIPE.ROUTE_CHK.CAUSE k) 0).wr (PIPE.ROUTE_CHK.PORT k) 0) x.2
  match routeCheck x.2 l with
  | none => (x.1, d)
  | some (k, c, p) =>
    (true, (((d.wr (PIPE.ROUTE_CHK.CAUSE k) c).wr (PIPE.ROUTE_CHK.PORT k) p).wr (PIPE.STATUS.ROUTE_ERR k) 1).irq (Page.PIPE k)
      PIPE.irq.ROUTE_ERR)

/-- The correction stages' check recorded per port (R121). -/
def corrShow (m : Memory) (l : List (Fld × Nat)) (x : Bool × Dev) : Bool × Dev :=
  allPorts.foldl (fun (x : Bool × Dev) (p : Fin 16) =>
    match corrCheck m x.2 l p with
    | none => (x.1, x.2.wr (STAT.TBL_STAT.CHK_CAUSE (statPage p) (statBank p)) 0)
    | some r => (true, corrRecord x.2 p r)) x

/-- The heads' check recorded (R158). -/
def thermShow (m : Memory) (v : Fld → Nat) (x : Bool × Dev) : Bool × Dev :=
  (List.finRange 2).foldl (fun (x : Bool × Dev) (n : Fin 2) =>
    match thermCheck m x.2 v n with
    | some c => (true, x.2.wr (THERM.TBL_STAT.CHK_CAUSE n) c)
    | none => (x.1, if x.2.on (THERM.CTL.EN n) then x.2.wr (THERM.TBL_STAT.CHK_CAUSE n) 0 else x.2)) x

/-- The converters' check recorded (R378, R382, R388). -/
def padcShow (v : Fld → Nat) (x : Bool × Dev) : Bool × Dev :=
  let d := (List.range 2).foldl (fun d n => (d.wr (PADC.CHK.CAUSE n) 0).wr (PADC.CHK.ENTRY n) 0) x.2
  match padcCheck v with
  | none => (x.1, d)
  | some (c, n, e) => (true, (d.wr (PADC.CHK.CAUSE n) c).wr (PADC.CHK.ENTRY n) e)

/-- The check of every block on the set, with what each block records. -/
def checkAll (m : Memory) (l : List (Fld × Nat)) (d : Dev) : Bool × Dev :=
  let v := stagedVal d l
  let x := corrShow m l (routeShow l (false, d))
  let x := thermShow m v x
  let x := chkShow (stitchCheck v) STITCH.CHK.CAUSE STITCH.CHK.PORT Page.STITCH STITCH.irq.CHK_FAIL x
  let x := chkShow (segCheck v) SEG.CHK.CAUSE SEG.CHK.FAMILY Page.SEG SEG.irq.CHK_FAIL x
  let x := chkShow (classCheck m d v) CLASS.CHK.CAUSE CLASS.CHK.RULE Page.CLASS CLASS.irq.CHK_FAIL x
  let x := chkShow (markCheck m d v) MARK.CHK.CAUSE MARK.CHK.CHAN Page.MARK MARK.irq.CHK_FAIL x
  let x := chkShow ((zctlCheck v).map fun c => (c, c)) ZCTL.CHK.CAUSE ZCTL.CHK.CAUSE Page.ZCTL ZCTL.irq.CHK_FAIL x
  let x := chkShow (fabCheck v) FAB.CHK.CAUSE FAB.CHK.CLASS Page.FAB FAB.irq.CHK_FAIL x
  padcShow v x

/-- RSEAM_HI or RSEAM_LO as a word. -/
def seamWord (rule f en : Nat) : Nat := rule + 256 * f + 2 ^ 31 * en

/-- What a module sends to its upper neighbour (R177). -/
def geomOut (v : Fld → Nat) : List Int :=
  [colLast v, (seamWord (v STITCH.RSEAM_HI.RULE) (v STITCH.RSEAM_HI.F) (v STITCH.RSEAM_HI.EN) : Int), (v WEB.GRID_PITCH.VAL : Int),
    (v WEB.GEOM.XW_DIR : Int)]

/-- The lower neighbour's geometry against the module's own: 0 where they agree, else the CHK cause; 7 stands for R15, which has
none. -/
def geomBad (v : Fld → Nat) (g : GeomMsg) : Nat :=
  if colFirst v ≠ g.colLast + 1 then 5
  else if seamWord (v STITCH.RSEAM_LO.RULE) (v STITCH.RSEAM_LO.F) (v STITCH.RSEAM_LO.EN) ≠ g.seam ∨
      v STITCH.EDGE.VAL < v STITCH.RSEAM_LO.F then 6
  else if v WEB.GRID_PITCH.VAL ≠ g.grid ∨ v WEB.GEOM.XW_DIR ≠ g.xwDir then 7
  else 0

/-- GEOM held against the frozen set while the module prepares. -/
def geomCheck (d : Dev) : Dev :=
  match d.ep.frozen, d.ring.geom with
  | some l, some g =>
    if !d.ep.geomWait then d else
    let d1 := { d with ep := { d.ep with geomWait := false }, ring := { d.ring with geom := none } }
    let c := geomBad (stagedVal d l) g
    if c = 0 then d1
    else
      let d2 := if c < 7 then (d1.wr STITCH.CHK.CAUSE c).wr STITCH.CHK.PORT 0 else d1
      (d2.irq Page.STITCH STITCH.irq.CHK_FAIL).updEp fun e => { e with checkCause := some 8 }
  | _, _ => d

/-! ## The generator at an epoch (R14, R16, R18, R464) -/

/-- WLN_PRESET, or the WLN after the last one issued. -/
def firstWln (d : Dev) : Nat × Bool :=
  let p := d.rd2 WEB.WLN_PRESET_LO.WLN_PRESET WEB.WLN_PRESET_HI.WLN_PRESET
  match d.gen.maxWln with
  | none => (p, false)
  | some w => if w < p then (p, false) else (w + 1, true)

/-- The position loaded from POS_PRESET. -/
def presetPos (d : Dev) : Int := ((d.rd2 WEB.POS_PRESET_LO.POS_PRESET WEB.POS_PRESET_HI.POS_PRESET : Nat) : Int) * 2 ^ 24

/-- The generator's state from a position: H there, N one PITCH further. -/
def stateFrom (d : Dev) (p : Int) : GenStart := ⟨p + pitch24 d, p, p, (firstWln d).1⟩

/-- The state the Puppeteer hands out with COMMIT when the set `new` starts the generator (R21, R463): from POS_PRESET when MODE leaves
Stopped, else from the present position. -/
def startState (old new : Dev) : GenStart := stateFrom new (if trigMode old = 0 then presetPos new else new.gen.pos)

/-- The generator's state as it is. -/
def ownState (d : Dev) : GenStart := ⟨d.gen.n, d.gen.h, d.gen.pos, d.gen.nextWln⟩

/-- BLOCK_ORIGIN set (R17): the block in progress ends at the line before. -/
def setOrigin (d : Dev) (w : Nat) : Dev :=
  allPorts.foldl (originCorr w) (d.wr2 WEB.BLOCK_ORIGIN_LO.BLOCK_ORIGIN WEB.BLOCK_ORIGIN_HI.BLOCK_ORIGIN w)

/-- The generator starts under the live set at an instant. The last trigger before a stop is still the previous trigger for
MIN_PERIOD (R19). -/
def genStart (d : Dev) (t : Nat) (handed : Option GenStart) : Dev :=
  let st := handed.getD (stateFrom d d.gen.pos)
  let d1 := (d.wr TRIG.STAT.RUNNING 1).wrB TRIG.STAT.PRESET_RAISED ((firstWln d).2 || d.on TRIG.STAT.PRESET_RAISED)
  let d2 := { d1 with gen := { d1.gen with pos := st.pos, n := st.n, h := st.h, t := t, nextWln := st.wln } }
  posShow ((foRebase (setOrigin d2 st.wln)).updStitch fun s => { s with firstWln := st.wln })

/-- The generator goes on under the set of an epoch whose line E it has issued: what follows line E is governed by the new
values. -/
def genGoOn (d old : Dev) (t : Nat) : Dev :=
  let g := d.gen
  let mode := trigMode d
  let was := trigMode old
  if mode = 1 ∧ was = 1 then { d with gen := { g with n := g.n + pitch24 d - pitch24 old } }
  else if mode = 1 then { d with gen := { g with h := g.posIssue, n := g.posIssue + pitch24 d } }
  else if mode = 2 ∧ was = 2 then { d with gen := { g with t := g.t + freePeriod d - freePeriod old } }
  else if mode = 2 then { d with gen := { g with t := t + freePeriod d } }
  else d

/-- A module that diverged takes the Puppeteer's state, `st` as COMMIT carried it and `own` its own at that instant: what separated the
two is added to what the generator holds now (R21). The WLN never goes back (R16). -/
def takeState (d : Dev) (st own : GenStart) : Dev :=
  let g := d.gen
  let w : Int := (g.nextWln : Int) + st.wln - own.wln
  { d with gen := { g with n := g.n + st.n - own.n, h := g.h + st.h - own.h, pos := g.pos + st.pos - own.pos
                           nextWln := max (g.maxWln.elim 0 (· + 1)) w.toNat, diverged := false } }

/-- The trigger generator at the epoch instant `t`. DIVERGED ends with the Puppeteer's state, or on the Puppeteer itself. -/
def genEpoch (d old : Dev) (t : Nat) : Dev :=
  let ran := old.on TRIG.STAT.RUNNING
  let g := d.gen
  let d0 := { d with gen := { g with handed := none, handedOwn := none
                                     diverged := g.diverged && !d.isPuppeteer && g.handed.isNone } }
  let d1 := if !ran && trigMode old = 0 && trigMode d ≠ 0 then { d0 with gen := { d0.gen with pos := presetPos d } } else d0
  if !genRuns d then posShow (sourceMark (d1.wr TRIG.STAT.RUNNING 0))
  else if !ran then sourceMark (genStart d1 t g.handed)
  else
    let d2 := genGoOn d1 old t
    match g.diverged, g.handed, g.handedOwn with
    | true, some st, some own => posShow (sourceMark (takeState d2 st own))
    | _, _, _ => posShow d2

/-! ## Corrections, modes and banks at an epoch -/

/-- A channel whose mode changes starts afresh: it waits for a reference index, and no reading precedes its next. -/
def encEpoch (old : Dev) (d : Dev) (n : Fin 4) : Dev :=
  if old.rd (ENC.CFG.MODE n) = d.rd (ENC.CFG.MODE n) then d
  else d.updEnc n fun c => { c with refDue := true, ssiPrev := none }

/-- A port's correction bank and flicker gains at an epoch (R121, R124). -/
def corrEpoch (m : Memory) (old : Dev) (e : Nat) (d : Dev) (p : Fin 16) : Dev :=
  let (n, j) := (statPage p, statBank p)
  let changed := old.rd (STAT.CORR_CTL.BANK n j) != d.rd (STAT.CORR_CTL.BANK n j)
  let d1 := if changed then
      (d.wr (STAT.TBL_STAT.BANK_BUSY n j) 1).updCorr p fun c => { c with bankEpoch := some (old.rd WEB.EPOCH_ID.LIVE_ID) }
    else d
  let learns (x : Nat) : Bool := x == 1 || x == 2
  if learns (d.rd (STAT.FLK_CTL.MODE n j)) && !learns (old.rd (STAT.FLK_CTL.MODE n j)) then
    loadGains m (bankBusyClear d1 p) p e
  else bankBusyClear d1 p

/-- Degraded mode clears at the first epoch after HBM_READY (R288). -/
def degradedClear (d : Dev) : Dev :=
  if d.on MEM.STATUS.DEGRADED && d.on MEM.STATUS.HBM_READY then
    let d1 := (d.wr MEM.STATUS.DEGRADED 0).wr STITCH.STATUS.DEGRADED 0
    let d2 := allPipes.foldl (fun (d : Dev) (l : Fin 8) => d.wr (PIPE.STATUS.DEGRADED l) 0) d1
    archRecover (thermRecover (scrubShow d2))
  else d

/-- A configuration set that a web line, a close or a vector still needs (R462). -/
def setInUse (d : Dev) (id : Nat) : Bool :=
  (d.tags.vecs.any fun v => v.epoch == id) || (d.tags.decided.any fun v => v.1.epoch == id) ||
    (d.tags.formed.any fun f => f.vec.epoch == id) || (d.stitch.out.any fun o => o.epoch == id) ||
    (d.stitch.toSeg.any fun o => o.epoch == id) || (d.stitch.toArc.any fun o => o.epoch == id) ||
    (d.seg.cur.elim false fun c => c.line.epoch == id) || (d.twin.store.any fun q => q.line.epoch == id) ||
    (d.seg.groups.any fun g => g.set == some id) || (d.seg.prev.elim false fun p => p.2.1 == id)

/-- The set in force is kept beside one earlier; the one that was third leaves, its lines not yet begun with it. -/
def keepSet (d : Dev) : Dev :=
  let d1 := match d.ep.sets.drop 1 with
    | q :: _ => stitchEvict d q.1
    | [] => d
  let older := (d1.ep.sets.drop 1).filter fun q => setInUse d1 q.1
  d1.updEp fun e => { e with sets := (d.rd WEB.EPOCH_ID.LIVE_ID, d.regs) :: e.sets.take 1 ++ older }

/-- A committed change of TRIG.CTL ends a failover (R49). -/
def failoverEnd (l : List (Fld × Nat)) (d : Dev) : Dev :=
  if d.gen.fo.isSome && l.any fun q => q.1.addr == TRIG.CTL.MODE.addr then
    let d1 := allEnc.foldl (fun (d : Dev) (n : Fin 4) => d.wr (ENC.FO_STAT.ACTIVE n) 0) d
    { d1 with gen := { d1.gen with fo := none, foMark := false } }
  else d

/-- A set becomes live at an instant: everything that follows an epoch but the epoch's own bookkeeping. While the generator is stopped
the epoch's WLN is that of the line issued next (log entry 125). -/
def makeLive (m : Memory) (l : List (Fld × Nat)) (target t : Nat) (old d : Dev) : Dev :=
  let d := genEpoch (failoverEnd l (d.applySet l)) old t
  let e := if old.on TRIG.STAT.RUNNING then target else d.gen.nextWln
  let d := if old.rd WEB.BLOCK_LEN.VAL != d.rd WEB.BLOCK_LEN.VAL then setOrigin d e else d
  let d := if trigSrc old != trigSrc d || (old.gen.fo.isSome && d.gen.fo.isNone) then foRebase (sourceMark d) else d
  let d := allEnc.foldl (encEpoch old) d
  let d := allPorts.foldl (corrEpoch m old e) (refreshLoads d)
  let d := allPipes.foldl (fun (d : Dev) (k : Fin 8) => d.wr (PIPE.STATUS.ROUTE_ERR k) 0) d
  let d := segGeoEpoch (stitchEpoch d old.rd e) old.rd e
  let d := classEpoch (valveEpoch (thermEpoch d old.rd)) old
  let d := padcKickAll (archEpoch (degradedClear d))
  if trigMode d = 1 then cross d t
  else if !old.on TRIG.STAT.RUNNING && trigMode d = 2 then freeRunTrigger d else d

/-- EPOCH_APPLY: line E has been issued, or the apply instant is reached. -/
def epochApply (m : Memory) (d : Dev) : Dev :=
  let due := match d.ep.applyAt with
    | some t => decide (t ≤ d.now)
    | none => d.gen.maxWln.elim false fun w => decide (d.ep.target ≤ w)
  match d.ep.frozen with
  | none => d
  | some l =>
    if epState d ≠ 3 || !due then d
    else
      let t := d.ep.applyAt.getD (d.gen.last.getD d.now)
      let d1 := keepSet d
      let d2 := (d1.wr WEB.EPOCH_ID.LIVE_ID d.ep.id).wr WEB.EPOCH_ID.ARMED_ID d.ep.id
      let d3 := ((setEpState d2 0).wr WEB.EPOCH_STATUS.RESULT 1).updEp fun e =>
        { e with frozen := none, kept := false, doubt := false, applyAt := none, ready := [], refused := none }
      makeLive m l d.ep.target t d d3

/-! ## Outcomes -/

/-- The frozen set returns to pending (R442). -/
def unfreeze (d : Dev) : Dev :=
  (setEpState (d.wr WEB.EPOCH_ID.ARMED_ID (d.rd WEB.EPOCH_ID.LIVE_ID)) 0).updEp fun e =>
    { e with next := stageMerge (e.frozen.getD []) e.next, frozen := none, kept := false, applyAt := none, ready := [], refused := none,
             checkCause := none, stbyWait := false, geomWait := false }

/-- A module in doubt learns that its epoch committed: the set stays frozen for the next one (R28). -/
def keepFrozen (d : Dev) : Dev :=
  (setEpState (d.wr WEB.EPOCH_ID.ARMED_ID (d.rd WEB.EPOCH_ID.LIVE_ID)) 0).updEp fun e =>
    { e with kept := true, ready := [], refused := none, checkCause := none, stbyWait := false, geomWait := false }

/-- The result of an aborted epoch. -/
def setAbort (d : Dev) (slot cause : Nat) : Dev :=
  (unfreeze d).wr WEB.EPOCH_STATUS.RESULT cause |>.wr WEB.EPOCH_STATUS.FAIL_SLOT slot

/-- An outcome told to the standby. -/
def startArgs (s : Option GenStart) : List Int := s.elim [] fun g => [g.n, g.h, g.pos, (g.wln : Int)]
def outcomeOut (d : Dev) (committed : Bool) (applyAt : Option Nat) (start : Option GenStart) : Dev :=
  d.toStandby .outcome ([(b2n committed : Int), (d.ep.target : Int), (d.ep.id : Int), applyAt.elim (-1) fun t => (t : Int)] ++
    startArgs start)

/-- The Puppeteer aborts its epoch. -/
def abortAll (d : Dev) (slot cause : Nat) : Dev :=
  let args : List Int := [(d.ep.target : Int), (d.ep.id : Int), (slot : Int), (cause : Int)]
  setAbort (outcomeOut (d.toRing .abort args) false none none) slot cause

/-- An index correction that waits belongs to the epoch that commits: its first line is E and its S that of the set of line E; the
Puppeteer tells the ring (R39 to R41). -/
def slewMark (d : Dev) (n : Fin 4) : Dev :=
  match d.enc[n].slew with
  | none => d
  | some s =>
    if s.s ≠ 0 then d
    else
      let v := stagedVal d (d.ep.frozen.getD [])
      let e := if d.on TRIG.STAT.RUNNING then d.ep.target else d.gen.nextWln
      let k := slewLines s.d (toSigned 48 (v (ENC.SCALE_LO.SCALE n) + 2 ^ 32 * v (ENC.SCALE_HI.SCALE n))) (v TRIG.PITCH.VAL)
        (v (ENC.INDEX_CFG.SLEW_LINES n))
      let d1 := d.updEnc n fun c => { c with slew := some { s with first := some e, s := k } }
      if d1.isPuppeteer && n == trigSrc d1 then
        let args : List Int := [(e : Int), -2, (n.val : Int), s.d, (k : Int)]
        (d1.toRing .line args).toStandby .line args
      else d1

/-- COMMITTED is entered with the state that COMMIT carried; pending index corrections belong to this epoch. -/
def enterCommitted (d : Dev) (applyAt : Option Nat) (start : Option GenStart) : Dev :=
  let d1 := allEnc.foldl slewMark d
  setEpState { d1 with ep := { d1.ep with applyAt := applyAt }
                       gen := { d1.gen with handed := start, handedOwn := start.map fun _ => ownState d } } 3

/-- Line D of an armed epoch has begun, or 1 ms has passed since PREPARE while the generator is not running (R26, R463). -/
def deadlineOver (d : Dev) : Bool :=
  if d.on TRIG.STAT.RUNNING then d.gen.maxWln.elim false fun w => decide (d.ep.target ≤ w + 2) else decide (d.ep.since + 16000000 ≤ d.now)

/-- Line E has begun, or 2 ms have passed since READY while the generator is not running. -/
def doubtDue (d : Dev) : Bool :=
  if d.on TRIG.STAT.RUNNING then d.gen.maxWln.elim false fun w => decide (d.ep.target ≤ w) else decide (d.ep.since + 32000000 ≤ d.now)

/-- The Puppeteer commits once it holds a READY of every slot, before line D begins. COMMIT carries the generator's state: that of the
start, or while it runs the present one, for a module that has diverged (R21). -/
def commitAll (d : Dev) : Dev :=
  if epState d ≠ 2 || deadlineOver d || !(List.range (slotCount d)).all fun k => d.ep.ready.contains k then d
  else
    let running := d.on TRIG.STAT.RUNNING
    let at' := if running then none else some (d.now + 800000)
    let new := d.applySet (d.ep.frozen.getD [])
    let start := if running then some (ownState d) else if genRuns new then some (startState d new) else none
    let args : List Int := [(d.ep.target : Int), (d.ep.id : Int), at'.elim (-1) fun t => (t : Int)] ++ startArgs start
    enterCommitted (outcomeOut (d.toRing .commit args) true at' start) at' none

/-- What a prepared module does: REFUSE on a failed check, READY once its standby has acknowledged. -/
def tryReady (d : Dev) : Dev :=
  if epState d ≠ 1 then d
  else
    match d.ep.checkCause with
    | some c =>
      let d1 := setEpState d 2
      if d.isPuppeteer then abortAll d1 d.slot c else d1.toRing .refuse [(d.slot : Int), (c : Int)]
    | none =>
      if d.ep.stbyWait || d.ep.geomWait then d
      else
        let d1 := setEpState d 2
        if d.isPuppeteer then commitAll (d1.updEp fun e => { e with ready := d.slot :: e.ready.filter fun k => k != d.slot })
        else (d1.updEp fun e => { e with since := d.now }).toRing .ready [(d.slot : Int)]

/-- Freezes the staged set and checks it: PREPARING. -/
def freeze (m : Memory) (d : Dev) (e id : Nat) : Dev :=
  let l := if d.ep.kept then stageMerge (d.ep.frozen.getD []) d.ep.next else d.ep.next
  let wait := d.inRing && decide (0 < d.slot)
  let d1 := d.updEp fun p =>
    { p with target := e, id := id, applyAt := none, ready := [], checkCause := none, refused := none, geomWait := wait,
             stbyWait := d.hasStandby, kept := false, next := [], frozen := some l, since := d.now }
  let d2 := setEpState (d1.wr WEB.EPOCH_ID.ARMED_ID id) 1
  let d3 := if d.inRing && decide (d.slot + 1 < slotCount d) then d2.toRing .geom (geomOut (stagedVal d2 l)) else d2
  let d4 := d3.toStandby .stage ([(e : Int), (id : Int)] ++ l.flatMap fun q => [(q.1.key : Int), (q.2 : Int)])
  let c := checkAll m l d4
  let d5 := if c.1 then c.2.updEp fun p => { p with checkCause := some 6 } else c.2
  tryReady (geomCheck d5)

/-! ## ARM and CANCEL (R25, R463) -/

/-- Line E is expected less than 200 µs from now. -/
def tooSoon (d : Dev) (e : Nat) : Bool :=
  let lines : Int := (e : Int) - d.gen.nextWln
  if trigMode d = 1 then
    let v := speedAt d (drivingCh d) d.now
    decide (0 < v) && decide ((d.gen.n + lines * pitch24 d - d.gen.pos) * 80000 < v * 2 ^ 24)
  else decide (((d.gen.t : Int) + lines * (freePeriod d : Int)) - d.now < 3200000)

/-- The RESULT of an ARM that is refused. -/
def armRefusal (d : Dev) (e : Nat) : Option Nat :=
  if !d.isPuppeteer then some 4
  else if epState d ≠ 0 then some 3
  else if d.on TRIG.STAT.RUNNING &&
      (decide (e < d.rd2 WEB.WLN_LO.WLN WEB.WLN_HI.WLN + max (leadFloor d) (d.rd WEB.EPOCH_CTL.LEAD_LINES)) || tooSoon d e) then some 2
  else none

/-- An epoch armed with target line `e`. -/
def armAt (m : Memory) (e : Nat) (d : Dev) : Dev :=
  match armRefusal d e with
  | some r => d.wr WEB.EPOCH_STATUS.RESULT r
  | none =>
    let live := d.rd WEB.EPOCH_ID.LIVE_ID
    let id := (live + 1) % 65536
    freeze m (d.toRing .prepare [(e : Int), (id : Int), (live : Int)]) e id

/-- ARM. -/
def arm (m : Memory) (d : Dev) : Dev := armAt m (d.rd2 WEB.EPOCH_TGT_LO.EPOCH_TGT WEB.EPOCH_TGT_HI.EPOCH_TGT) d

/-- CANCEL; a module in doubt takes it as ABORT, for its standby too (R28). -/
def cancel (d : Dev) : Dev :=
  if epState d = 4 then setAbort (outcomeOut d false none none) (d.rd WEB.EPOCH_STATUS.FAIL_SLOT) 7
  else if d.isPuppeteer && (epState d == 1 || epState d == 2) then abortAll d d.slot 7
  else d

/-! ## Messages (Table 1.4, R27, R28) -/

/-- PREPARE: an earlier epoch not yet settled shows its outcome by last_id. -/
def prepare (m : Memory) (e id lastId : Nat) (d : Dev) : Dev :=
  if d.isPuppeteer || !d.isActive || epState d == 3 then d
  else
    let d1 := if epState d = 0 then d else if lastId = d.ep.id then keepFrozen d else unfreeze d
    freeze m d1 e id

/-- STAGE_ACK. -/
def stageAck (id : Nat) (d : Dev) : Dev :=
  if d.ep.stbyWait && id == d.ep.id then tryReady (d.updEp fun e => { e with stbyWait := false }) else d

/-- A READY that reaches slot 0; the standby of slot 0 holds it (R347). -/
def epochReady (slot : Nat) (d : Dev) : Dev :=
  if d.slot ≠ 0 || !(epState d == 1 || epState d == 2) then d
  else
    let d1 := d.updEp fun e => { e with ready := slot :: e.ready.filter fun k => k != slot }
    if d.isPuppeteer then commitAll d1 else d1

/-- A REFUSE that reaches slot 0. -/
def refuse (slot cause : Nat) (d : Dev) : Dev :=
  if d.slot ≠ 0 || !(epState d == 1 || epState d == 2) then d
  else if d.isPuppeteer then abortAll d slot cause
  else d.updEp fun e => { e with refused := some (slot, cause) }

/-- EPOCH_IN_DOUBT: line E begins in READY with no outcome. -/
def epochInDoubt (d : Dev) : Dev :=
  if !d.isPuppeteer && epState d == 2 && doubtDue d then
    ((setEpState d 4).wr WEB.EPOCH_STATUS.IN_DOUBT 1).updEp fun e => { e with doubt := true }
  else d

/-- An outcome reaches a module that holds the set of that epoch; the active tells its standby. One that comes after line E has begun
finds the module in doubt. -/
def outcome (m : Memory) (committed : Bool) (id slot cause : Nat) (applyAt : Option Nat) (start : Option GenStart) (d : Dev) : Dev :=
  let d := epochInDoubt d
  if id ≠ d.ep.id then d
  else if epState d = 4 then
    let d1 := outcomeOut d committed applyAt start
    if committed then (keepFrozen d1).wr WEB.EPOCH_STATUS.RESULT 1 else setAbort d1 slot cause
  else if epState d = 2 ∧ committed then
    let d1 := enterCommitted (outcomeOut d true applyAt start) applyAt start
    if applyAt.isSome then epochApply m d1 else d1
  else if (epState d = 1 ∨ epState d = 2) ∧ committed = false then setAbort (outcomeOut d false none none) slot cause
  else d

/-- COMMIT and ABORT on String: taken by an active module that is not the Puppeteer. -/
def commit (m : Memory) (id : Nat) (applyAt : Option Nat) (start : Option GenStart) (d : Dev) : Dev :=
  if d.isPuppeteer || !d.isActive then d else outcome m true id 0 0 applyAt start d
def abort (m : Memory) (id slot cause : Nat) (d : Dev) : Dev :=
  if d.isPuppeteer || !d.isActive then d else outcome m false id slot cause none none d

/-- COMMIT or ABORT forwarded by the active to its standby. An ABORT forwarded carries no cause: RESULT keeps its value. -/
def commitForward (m : Memory) (committed : Bool) (id : Nat) (applyAt : Option Nat) (start : Option GenStart) (d : Dev) : Dev :=
  if d.isActive then d
  else outcome m committed id (d.rd WEB.EPOCH_STATUS.FAIL_SLOT) (d.rd WEB.EPOCH_STATUS.RESULT) applyAt start d

/-- STAGE on a standby (R443): the received set replaces every staged write and is frozen. -/
def stageIn (e id : Nat) (set : List (Nat × Nat)) (d : Dev) : Dev :=
  if d.isActive then d
  else
    let find (q : Nat × Nat) : Option (Fld × Nat) :=
      ((pageFields (q.1 / 32 / 4096)).find? fun f => f.key == q.1 && f.acc == .rws).map fun f => (f, q.2 % 2 ^ f.width)
    let l := set.filterMap find
    let lost := d.ep.next.any fun q => !l.any fun r => r.1.key == q.1.key && r.2 == q.2
    let d1 := d.updEp fun p =>
      { p with target := e, id := id, applyAt := none, ready := [], checkCause := none, refused := none, geomWait := false,
               stbyWait := false, kept := false, next := [], frozen := some l, since := d.now }
    let d2 := setEpState (d1.wr WEB.EPOCH_ID.ARMED_ID id) 2
    (if lost then (d2.wr SYS.STATUS.STBY_STAGE_LOST 1).irq Page.SYS SYS.irq.STBY_STAGE_LOST else d2).emit (.twin .stageAck [(id : Int)])

/-- GEOM from the lower neighbour. At ring formation GRID_PITCH and XW_DIR are held against the live set (R15). -/
def geom (g : GeomMsg) (d : Dev) : Dev :=
  if d.inRing && d.rd STRING.STATUS.RING_STATE == 1 then
    if d.rd WEB.GRID_PITCH.VAL ≠ g.grid ∨ d.rd WEB.GEOM.XW_DIR ≠ g.xwDir then d.wr WEB.EPOCH_STATUS.RESULT 8 else d
  else
  let d1 := { d with ring := { d.ring with geom := some g } }
  if d.isActive && epState d == 1 && d.ep.geomWait then tryReady (geomCheck d1) else d1

/-! ## Instants (R26, R463) -/

/-- EPOCH_DEADLINE: line D begins, or 1 ms has passed, without every READY. -/
def epochDeadline (d : Dev) : Dev :=
  if d.isPuppeteer && (epState d == 1 || epState d == 2) && deadlineOver d then
    abortAll d (((List.range (slotCount d)).find? fun k => !d.ep.ready.contains k).getD d.slot) 5
  else d

/-- STAGE_DISCARD: the next set of the page only (R442). -/
def stageDiscard (page : Nat) (d : Dev) : Dev := d.updEp fun e => { e with next := e.next.filter fun q => q.1.page != page }

/-! ## Meanings -/

def execArm (s : State) : Host.Outcome State Fault Refusal := s.onDevM arm
def execCancel (s : State) : Host.Outcome State Fault Refusal := s.onDev cancel
def execPrepare (e id lastId : Nat) (s : State) : Host.Outcome State Fault Refusal := s.onDevM fun m => prepare m e id lastId
def execStageAck (id : Nat) (s : State) : Host.Outcome State Fault Refusal := s.onDev (stageAck id)
def execEpochReady (slot : Nat) (s : State) : Host.Outcome State Fault Refusal := s.onDev (epochReady slot)
def execRefuse (slot cause : Nat) (s : State) : Host.Outcome State Fault Refusal := s.onDev (refuse slot cause)
/-- COMMIT names its target beside the id that the module compares. -/
def execCommit (_e id : Nat) (applyAt : Option Nat) (start : Option GenStart) (s : State) : Host.Outcome State Fault Refusal :=
  s.onDevM fun m => commit m id applyAt start
def execAbort (_e id slot cause : Nat) (s : State) : Host.Outcome State Fault Refusal := s.onDevM fun m => abort m id slot cause
def execCommitForward (committed : Bool) (_e id : Nat) (applyAt : Option Nat) (start : Option GenStart) (s : State) :
    Host.Outcome State Fault Refusal :=
  s.onDevM fun m d => commitForward m committed id applyAt start (if follows d then d.start .twin else d)
def execStage (e id : Nat) (set : List (Nat × Nat)) (s : State) : Host.Outcome State Fault Refusal := s.fromTwin (stageIn e id set)
def execGeom (g : GeomMsg) (s : State) : Host.Outcome State Fault Refusal := s.onDev (geom g)
def execEpochDeadline (s : State) : Host.Outcome State Fault Refusal := s.onDev epochDeadline
def execEpochApply (s : State) : Host.Outcome State Fault Refusal := s.onDevM epochApply
def execEpochInDoubt (s : State) : Host.Outcome State Fault Refusal := s.onDev epochInDoubt
def execStageDiscard (page : Nat) (s : State) : Host.Outcome State Fault Refusal := s.onDev (stageDiscard page)

end Sys2Proof.Machine
end

