-- ==== Sys2Proof/Machine/Pages.lean ====
section
/-! DEFINITION. The register pages and the windows as a requester sees them: what a word reads as, read locks, staged views, window
words with the 32-bit half that is held, and a write of the plain fields of a word (R9, R22, R23, R29, R277, R321, R435 to R445). -/

namespace Sys2Proof.Machine

/-- UNMAPPED (R436). -/
def unmapped (d : Dev) : Dev := (d.wr SYS.STATUS.UNMAPPED 1).irq Page.SYS SYS.irq.UNMAPPED

def memErr (d : Dev) : Dev := d.wr MGMT.STATUS.MEM_ERR 1
def pageEnd (d : Dev) : Dev := d.wr MGMT.STATUS.PAGE_END 1

/-- A write discarded under WR_DROP. -/
def wrDrop (d : Dev) : Dev := ((d.wr MGMT.STATUS.WR_DROP 1).inc MGMT.WR_DROP_CNT.CNT).irq Page.MGMT MGMT.irq.WR_DROP

/-! ## Register words -/

/-- A word of PADC-B that reads PADC-A: CHK_CFG, CHK_TOL, REF_EXP, REF_TOL and CHK_STAT (R386). -/
def sharedB (a : Nat) : Bool := decide (0xC1080 ≤ a ∧ a < 0xC1094)

/-- TX_EQ of lanes 1 to 3, which reads 0. -/
def deadTxEq (a : Nat) : Bool := a / 4096 / 16 == 3 && a % 0x20 == 4 && decide (0x60 ≤ a % 4096 ∧ a % 4096 < 0xC0)

/-- The newest staged value of a field, else the live one. -/
def newestStaged (d : Dev) (f : Fld) : Nat :=
  match d.ep.next.find? fun q => q.1.key == f.key with
  | some q => q.2
  | none => stagedVal d (d.ep.frozen.getD []) f

/-- What a field shows. `v` is the device with the computed fields of the page put in. -/
def shownField (d v : Dev) (p : Nat) (f : Fld) : Nat :=
  match f.acc with
  | .rws => if d.on (Com.VIEW p) then newestStaged d f else d.rd f
  | .ro => if d.on WEB.SNAP_CTL.VIEW && d.on WEB.SNAP_STATUS.VALID then snapGet d f else v.rd f
  | _ => d.rd f

/-- A word of the error log on the MEM page (Table 12.4): entry i at offset 0x800 + 32 i. -/
def logWord (d : Dev) (a : Nat) : Option (Fin 64 × Nat) :=
  let o := a % 4096
  if a / 4096 = Page.MEM ∧ 0x800 ≤ o then some (Fin.ofNat 64 ((o - 0x800) / 32), (d.errLog.find? fun e => e.idx == (o - 0x800) / 32).elim 0
    fun e => e.word (o % 32 / 4))
  else none

/-- What a word of a register page reads as, apart from the effects of reading it. -/
def regWord (d : Dev) (a : Nat) : Nat :=
  let a := if sharedB a then a - 0x1000 else a
  let p := a / 4096
  if !pageExists p || pageHeld d p || deadTxEq a then 0
  else
    match logWord d a with
    | some w => w.2
    | none => wordOf (shownField d (pageView d p) p) a

/-! ## Read locks (R29, R440) -/

/-- The offsets that a word of a page type locks. -/
def lockOffsets (type o : Nat) : List Nat :=
  let next (l : List Nat) : List Nat := if l.contains o then [o + 4] else []
  let words (n : Nat) : List Nat := (List.range n).map fun k => o + 4 + 4 * k
  match type with
  | 0x01 => next [0x44]
  | 0x03 => next [0x4C]
  | 0x06 => next [0x60]
  | 0x07 => next [0x44]
  | 0x08 => next [0x60]
  | 0x0a => next [0x58]
  | 0x0b => if o = 0x40 then words 5 else next [0x48, 0x50]
  | 0x10 => if o = 0x40 then words 2 else next [0x60, 0x68, 0x70, 0x78, 0x8C, 0xA0, 0xC0]
  | 0x11 => if o = 0xB8 ∨ o = 0xC4 then words 2 else if o = 0xEC then [0xF8] else next [0x44, 0x4C, 0x54, 0x60, 0x88, 0xA8, 0xB0]
  | 0x28 => next [0x58]
  | 0x29 => next [0x150, 0x250]
  | 0x30 => next [0xE4]
  | 0x38 => if 0x100 ≤ o ∧ o < 0x500 ∧ o % 0x40 = 0 then [o + 4] else []
  | 0x40 => next [0xA0]
  | 0x48 => if o = 0x58 then words 7 else if o = 0x78 then [0x7C, 0x84, 0x88] else next [0x60, 0x68, 0x70]
  | 0x50 => if o = 0xA0 then words 9 else next [0xA8, 0xB0, 0xB8, 0xC0]
  | 0x51 => next [0x48, 0x50]
  | 0x58 => next [0x44]
  | 0x60 => next [0x4C, 0x58]
  | 0x68 => if 0x100 ≤ o ∧ o % 0x40 = 0x18 then words 2 else []
  | _ => []

/-- The addresses that a read of `a` locks; word 0 of a background slice locks word 1. -/
def lockGroup (a : Nat) : List Nat :=
  if a < 0x01000000 then
    (lockOffsets ((pageKind (a / 4096)).elim 0 PageKind.type) (a % 4096)).map fun o => a / 4096 * 4096 + o
  else if 0x06000000 ≤ a ∧ a < 0x06004000 ∧ a % 8 = 0 then [a + 4]
  else []

/-- A read through the requester's locks: a locked word gives its value, and the lock ends with its last word; a locking word sets
a new lock. `live` gives the present value of a word. -/
def lockRead (who : Requester) (live : Dev → Nat → Nat) (a : Nat) (d : Dev) : Nat × Dev :=
  match d.locks.find? fun l => l.who == who && l.addr == a with
  | some l =>
    let later := d.locks.any fun q => q.who == who && q.locker == l.locker && decide (a < q.addr)
    (l.value, if later then d else { d with locks := d.locks.filter fun q => !(q.who == who && q.locker == l.locker) })
  | none =>
    let g := lockGroup a
    let v := live d a
    if g.isEmpty then (v, d)
    else
      (v, { d with locks := (g.map fun b => ⟨who, a, b, live d b, d.now⟩) ++ d.locks.filter fun q => !(q.who == who && q.locker == a) })

/-- LOCK_EXPIRY: 1 ms after it was set (R440). -/
def lockExpiry (who : Requester) (locker : Nat) (d : Dev) : Dev :=
  { d with locks := d.locks.filter fun q => !(q.who == who && q.locker == locker && decide (q.since + oneMs ≤ d.now)) }

/-- A read of a register word with its effects: UNMAPPED, locks, VALID of a latch (R44), the read mark of a log entry (R281). -/
def pageRead (who : Requester) (a : Nat) (d : Dev) : Nat × Dev :=
  let p := a / 4096
  if !pageExists p then (0, unmapped d)
  else if pageHeld d p then (0, d)
  else
    let (v, d1) := lockRead who regWord a d
    let d2 := (List.range 4).foldl (fun (d : Dev) n => if a = (ENC.L_SPEED.VAL n).addr then d.wr (ENC.LATCH_STAT.VALID n) 0 else d) d1
    match logWord d2 a with
    | some w => (v, if a % 32 = 28 then errorLogRead w.1 d2 else d2)
    | none => (v, d2)

/-! ## Window words (Table 20.1) -/

/-- A range of Table 20.1 above the pages, or of the stack (Table 12.1). -/
def inWindow (a : Nat) : Bool :=
  decide ((0x01000000 ≤ a ∧ a < 0x01800000) ∨ (0x02000000 ≤ a ∧ a < 0x05004000) ∨ (0x06000000 ≤ a ∧ a < 0x06004000) ∨
    (0x06100000 ≤ a ∧ a < 0x06108000) ∨ (0x07000000 ≤ a ∧ a < 0x07010000) ∨ (0x08000000 ≤ a ∧ a < 0x08020000) ∨
    (0x09000000 ≤ a ∧ a < 0x09040800) ∨ (0x09080000 ≤ a ∧ a < 0x09180000) ∨ (0x0A000000 ≤ a ∧ a < 0x0A100000))

/-- A window that is held in HBM. -/
def hbmWindow (a : Nat) : Bool := decide (0x02000000 ≤ a ∧ a < 0x05000000)

/-- A word of the mirror of the active's counters, in page layout (R331). -/
def mirrorWord (d : Dev) (a : Nat) : Nat :=
  (wordFields (a - 0x0A000000)).foldl (fun v f => if f.acc = .ro then v + d.twin.mirror.get f.key 0 * 2 ^ f.lo else v) 0

/-- Words of a window that are computed. -/
def computedWord (d : Dev) (a : Nat) : Option Nat :=
  if 0x01000000 ≤ a ∧ a < 0x01800000 ∧ 0x35000 ≤ a % 0x80000 ∧ a % 0x80000 < 0x35040 then
    let h := learnedGains d (Fin.ofNat 16 ((a - 0x01000000) / 0x80000))
    let k := (a % 0x80000 - 0x35000) / 4 * 2
    some (h.getD k 0 + 65536 * h.getD (k + 1) 0)
  else if 0x06000000 ≤ a ∧ a < 0x06004000 then some (bgWord d (a - 0x06000000))
  else if 0x0A000000 ≤ a ∧ a < 0x0A100000 then some (mirrorWord d a)
  else none

/-- One 32-bit word written by the rules of its window; the ranges that only the module writes ignore it. -/
def windowStore (a w : Nat) (x : DM) : DM :=
  let w32 : Word32 := BitVec.ofNat 32 w
  if 0x01000000 ≤ a ∧ a < 0x01800000 then corrTableWrite a w32 x
  else if 0x02000000 ≤ a ∧ a < 0x04000000 then nucTableWrite a w32 x
  else if 0x06100000 ≤ a ∧ a < 0x06108000 then clsWrite a w32 x
  else if 0x07000000 ≤ a ∧ a < 0x07010000 then valveTableWrite a w32 x
  else if 0x08000000 ≤ a ∧ a < 0x08020000 then (x.1, x.2.put32 a w)
  else if 0x09000000 ≤ a ∧ a < 0x09040000 then waHostWrite a w x
  else x

/-- A write of half a word: read, corrected, merged, written; dropped onto a word that is lost (R277). -/
def partialWrite (a w : Nat) (x : DM) : DM :=
  let gone := x.2.lost a
  let y := readWord mgmtReader x a
  if gone then y else windowStore a w (y.1, y.2.fixWord a)

/-- The half that a requester's last access left, written before the next access proceeds. -/
def flushHalf (who : Requester) (x : DM) : DM :=
  match x.1.integ.half.find? fun h => h.1 == who with
  | none => x
  | some h => partialWrite h.2.1 h.2.2 (x.1.updInteg fun i => { i with half := i.half.filter fun q => q.1 != who }, x.2)

/-- A 32-bit write to a window: a low half waits; a high half after its low half makes one whole word. -/
def windowWrite (who : Requester) (a w : Nat) (x : DM) : DM :=
  let drop (d : Dev) : Dev := d.updInteg fun i => { i with half := i.half.filter fun q => q.1 != who }
  match x.1.integ.half.find? fun h => h.1 == who with
  | some h =>
    if a = h.2.1 + 4 then windowStore a w (windowStore h.2.1 h.2.2 (drop x.1, x.2))
    else
      let y := partialWrite h.2.1 h.2.2 (drop x.1, x.2)
      if a % 8 = 0 then (y.1.updInteg fun i => { i with half := (who, a, w) :: i.half }, y.2) else partialWrite a w y
  | none => if a % 8 = 0 then (x.1.updInteg fun i => { i with half := (who, a, w) :: i.half }, x.2) else partialWrite a w x

/-- A window word read: 0 with MEM_ERR from a lost word, or from HBM in degraded mode. -/
def windowRead (who : Requester) (a : Nat) (x : DM) : Nat × DM :=
  if !inWindow a then (0, (unmapped x.1, x.2))
  else if hbmWindow a && x.1.on MEM.STATUS.DEGRADED then (0, (memErr x.1, x.2))
  else if (computedWord x.1 a).isSome then
    let r := lockRead who (fun d b => (computedWord d b).getD 0) a x.1
    (r.1, (r.2, x.2))
  else
    let gone := wordGone x a
    let (m, y) := readRange x (a / 8 * 8) 8 mgmtReader
    if gone then (0, (memErr y.1, y.2)) else (m.u32 a, y)

/-- A 32-bit read of the data space below 0x1000_0000 by a requester. -/
def wordRead (who : Requester) (a : Nat) (x : DM) : Nat × DM :=
  let y := flushHalf who x
  if a < 0x01000000 then
    let r := pageRead who a y.1
    (r.1, (r.2, y.2))
  else windowRead who a y

/-! ## Writes of plain fields (R9, R22) -/

/-- The value an RW field takes for a written one: the clamps of its table row, of R25 and of R398. -/
def rwValue (d : Dev) (f : Fld) (v : Nat) : Nat :=
  if f.key = WEB.EPOCH_CTL.LEAD_LINES.key then max (leadFloor d) v
  else
    match (List.range 2).find? fun g => f.key == (THM.LEVEL_CFG.LEVEL g 2).key with
    | some g => if 0 ≤ toSigned 16 v then min (if g = 0 then 2080 else 1760) v else v
    | none => f.clamp v

/-- A write to one field by its access code. -/
def fieldWrite (d : Dev) (f : Fld) (v : Nat) : Dev :=
  match f.acc with
  | .rws => d.stageWrite f (if f.key = ZCTL.ARCH_GEOM.STRIPE_W.key then v / 64 * 64 else v)
  | .rw => d.wr f (rwValue d f v)
  | .w1c => d.wr f (d.rd f - Nat.land (d.rd f) v)
  | _ => d

/-- A write to the fields of one word, but for those that have an effect of their own. -/
def plainWrite (skip : List Fld) (a v : Nat) (d : Dev) : Dev :=
  ((wordFields a).filter fun f => !(skip.any fun g => g.key == f.key)).foldl (fun d f => fieldWrite d f (bitsOf v f.lo f.width)) d

end Sys2Proof.Machine
end

