-- ==== Sys2Proof/Machine/Twin.lean ====
section
/-! DEFINITION. The pair (spec/15_twin_and_ring.md, R325 to R339): pair states, the gate, what the standby takes from the twin link,
resynchronization and takeover. -/

namespace Sys2Proof.Machine

def Dev.updRing (d : Dev) (g : RingSt → RingSt) : Dev := { d with ring := g d.ring }

/-! ## The take wire and the gated outputs (R325, R326) -/

/-- TAKE_OUT rises. -/
def assertOut (d : Dev) : Dev :=
  ((d.wr TWIN.STATUS.TAKE_OUT 1).emit (.pin 7 1)).updTwin fun t => { t with first := d.on TWIN.STATUS.TAKE_IN, outAt := d.now }

/-- A running program quenches because the gate closes: its drive ends, its remainder goes back to the ledger. -/
def gateQuench (d : Dev) (ch : Fin 16) : Dev :=
  if (d.valves[ch].run).isNone then d
  else hsgShow (runGone (setDrive (setDrive d ch DR.quench 0) ch DR.off 0) ch) (groupOf ch)

/-- The gated outputs go off: valve stages, the backchannel transmitters of splitter ports (which return to SNOOP), excitation. -/
def outputsOff (d : Dev) : Dev :=
  let d1 := allValves.foldl gateQuench d
  let d2 := allPorts.foldl (fun (d : Dev) (p : Fin 16) =>
    if homing d p == 2 && linkState d p != LS.disabled && linkState d p != LS.snoop then
      let d1 := if linkState d p == LS.active then closeAll d p [PF.missing, PF.linkDown] else d
      ((d1.emit (.camTx p.val false)).wr (PORT.LINK_STAT.STATE p) LS.snoop).updPort p fun q => { q with snoopG := d.rd (PORT.CREDIT_G.G p) }
    else d) d1
  (List.finRange 2).foldl (fun (d : Dev) (n : Fin 2) =>
    match d.padc[n].run with
    | some c => if excCurrent (bitsOf c.cfg1 17 3) = 0 then d else d.emit (.excite n (bitsOf c.cfg1 20 5) 0)
    | none => d) d2

/-- A module that starts alone, or as side A of a pair, becomes ACTIVE: its splitter ports train. -/
def becomeActive (d : Dev) : Dev :=
  allPorts.foldl (fun (d : Dev) (p : Fin 16) =>
    if linkState d p == LS.snoop then toAcquire (d.emit (.camTx p.val true)) p else d) (archShow (assertOut (setPair d 3)))

/-- The gate is lost to the twin (R339). -/
def gateLost (d : Dev) : Dev :=
  if pairState d ≠ 3 then d
  else
    let d1 := ((setPair (releaseTakeOut (outputsOff d)) 5).wr TWIN.STATUS.MIRRORED 0).inc TWIN.FENCED_CNT.CNT
    archShow (excHandOver (sayHello (d1.irq Page.TWIN TWIN.irq.FENCED)))

/-- TAKE_IN_CHANGE: the twin's assertion after the own one takes the outputs; within 200 ns (3,200 units) side A keeps them. -/
def takeIn (level : Bool) (d : Dev) : Dev :=
  let d1 := (d.wrB TWIN.STATUS.TAKE_IN level).updTwin fun t => { t with inAt := if level then d.now else t.inAt }
  let mine := d.on TWIN.STATUS.TAKE_OUT
  let tie := decide (d.now ≤ d.twin.outAt + 3200)
  if d.on TWIN.CTL.EN && level && !d.on TWIN.STATUS.TAKE_IN && mine && !(tie && !d.on TWIN.STATUS.SIDE) then gateLost d1 else d1

/-- Side B loses a tie also when it asserts second, within 200 ns of the twin. -/
def assertTie (d : Dev) : Dev :=
  if d.on TWIN.STATUS.TAKE_IN && d.on TWIN.STATUS.SIDE && decide (d.now ≤ d.twin.inAt + 3200) then gateLost d else d

/-! ## Pairing (Table 15.1) -/

def pairErr (d : Dev) (cause : Nat) : Dev := ((setPair d 6).wr TWIN.STATUS.ERR_CAUSE cause).irq Page.TWIN TWIN.irq.PAIR_ERR

/-- The active learns whether its twin mirrors it. -/
def twinMirrors (d : Dev) (b : Bool) : Dev :=
  let d1 := d.wrB TWIN.STATUS.MIRRORED b
  if d.on TWIN.STATUS.MIRRORED && !b then slotAckAll d1 else d1

/-- TWIN_HELLO. -/
def twinHello (sideB : Bool) (state : Nat) (takeOut : Bool) (d : Dev) : Dev :=
  if !d.on TWIN.CTL.EN then d
  else
    match pairState d with
    | 1 =>
      let d := d.start .solo
      if sideB = d.on TWIN.STATUS.SIDE then pairErr d 1
      else if takeOut ≠ d.on TWIN.STATUS.TAKE_IN then pairErr d 2
      else if state = 6 then pairErr d 3
      else if state = 3 then enterSyncing d
      else if state = 1 then (if d.on TWIN.STATUS.SIDE then enterSyncing d else sayHello (becomeActive d))
      else d
    | 3 => if state = 1 ∨ d.on TWIN.STATUS.MIRRORED ≠ (state == 4) then sayHello (twinMirrors d (state == 4)) else d
    | 5 => if state = 3 ∧ d.on TWIN.STATUS.LINK_UP then enterSyncing d else d
    | _ => d

/-- HELLO_SEND: every 1 ms in HELLO. -/
def helloSend (d : Dev) : Dev :=
  if d.on TWIN.CTL.EN && pairState d == 1 && d.past .hello oneMs then sayHello (d.start .hello) else d

/-- SOLO_WAIT_EXPIRY: no HELLO for SOLO_WAIT. -/
def soloWaitExpiry (d : Dev) : Dev :=
  if d.on TWIN.CTL.EN && pairState d == 1 && d.past .solo (d.rd TWIN.CFG.SOLO_WAIT * oneMs) then assertTie (becomeActive d) else d

/-- A write of TWIN.CTL.EN: setting it on a module that runs alone starts pairing with the outputs held. Clearing it changes no state
(Table 15.1 gives no transition). -/
def twinEnable (on : Bool) (d : Dev) : Dev :=
  let d1 := d.wrB TWIN.CTL.EN on
  if on && !d.on TWIN.CTL.EN && pairState d == 0 && d.pw.started then
    sayHello (archShow (setPair (releaseTakeOut (outputsOff d1)) 1))
  else d1

/-! ## Messages of the active (Table 15.3) -/

/-- HEART: timebase, WLN of the last trigger, HBM_READY and throttle step. -/
def heart (tb : Nat) (hbm : Bool) (step : Nat) (d : Dev) : Dev :=
  if !d.on TWIN.CTL.EN then d
  else
    let d1 := d.updTwin fun t => { t with hbm := hbm, step := step }
    if follows d then timeCompare ((tb : Int) + d.rd TWIN.LINK_DLY.DLY - d.now) d1
    else if pairState d = 5 ∧ d.on TWIN.STATUS.LINK_UP then enterSyncing d1
    else d1

/-- ECHO is answered; ECHO_R gives the delay: the round trip less the far module's residence, halved (R344). -/
def twinEcho (answer : Bool) (rtt residence : Nat) (d : Dev) : Dev :=
  if answer then d.wrSat TWIN.LINK_DLY.DLY ((rtt - residence) / 2) else d.emit (.twin .echoR [])

/-- DIGEST. -/
def digest (wln runs bg n closes : Nat) (d : Dev) : Dev :=
  if !follows d then d
  else
    digestSettle (d.updTwin fun t => { t with digests := ((wln, [runs, bg, n, closes]) :: t.digests.filter fun e => e.1 != wln).take 64 })

/-- CREDIT_G: G of each splitter port. -/
def creditG (gs : List (Nat × Nat)) (d : Dev) : Dev :=
  if d.isActive then d
  else gs.foldl (fun d g => if g.1 < 16 then d.updPort (Fin.ofNat 16 g.1) fun q => { q with snoopG := g.2 } else d) d

/-- LAUNCH: the slot runs on the active. -/
def twinLaunch (slot firePos fireT energy : Nat) (d : Dev) : Dev :=
  if d.isActive then d
  else
    (d.updMSlot slot fun s => { s with state := .run, valve := s.ch, firePos := firePos, fireT := fireT }).updTwin fun t =>
      { t with launches := (slot, energy) :: t.launches.filter fun l => l.1 != slot }

/-- SLOT_END: the result is held until it is placed; the energy leaves the ledger. -/
def slotEnd (slot result dipT spent : Nat) (d : Dev) : Dev :=
  if d.isActive then d
  else
    let d1 := (d.updMSlot slot fun s => { s with state := .done, result := result, dipT := dipT }).updTwin fun t =>
      { t with launches := t.launches.filter fun l => l.1 != slot }
    let d2 := addTotal (availPut d1 (d1.rdS MARK.AVAIL.UJ - spent)) MARK.SPENT_LO.SPENT MARK.SPENT_HI.SPENT spent
    d2.emit (.twin .slotAck [(slot : Int)])

/-- FAULT_EV: target 0 to 15 a channel, 16 to 19 a group. -/
def faultEv (target : Fin 20) (cause : Nat) (latched : Bool) (d : Dev) : Dev :=
  if d.isActive then d
  else
    let f := if target.val < 16 then VALVE.FAULT.CAUSE target.val else HSG.FAULT.CAUSE (target.val - 16)
    d.wr f (if latched then cause else 0)

/-- One record of PLACED: the shadow record leaves the waiting ones under its SSEQ; a mark-result record frees its slot. -/
def placedOne (x : Nat × Dev) (k : Nat × Nat × Nat) : Nat × Dev :=
  let (n, d) := x
  let d1 := match d.mark.slots.find? fun s => k.1 == 0x52 && s.state == .done && s.blob == k.2.1 && s.close == k.2.2 with
    | some s => slotRelease d s
    | none => d
  let d2 := match d1.tags.waiting.find? fun r => r.type == k.1 && r.blob == k.2.1 && r.close == k.2.2 with
    | some r => placeRec (d1.wr TAG.SSEQ.NEXT n) r
    | none => d1.wr TAG.SSEQ.NEXT (n + 1)
  ((n + 1) % 2 ^ 32, d2)

/-- PLACED: the first SSEQ and the key of each record (TYPE, BLOB_ID, CLOSE_WLN). -/
def placed (first : Nat) (keys : List (Nat × Nat × Nat)) (d : Dev) : Dev :=
  if d.isActive then d else (keys.foldl placedOne (first, d)).2

/-- HOST_ACK: shadow records up to SSEQ are freed. -/
def hostAck (sseq : Nat) (d : Dev) : Dev := if d.isActive then d else hqShow (ackUpTo d sseq)

/-- COUNTS: the mirror of the active's counters. -/
def countsMsg (cs : List (Nat × Nat)) (d : Dev) : Dev :=
  if d.isActive then d else d.updTwin fun t => { t with mirror := cs.foldl (fun r c => RegFile.set r c.1 c.2 0) t.mirror }

/-! ## Resynchronization (R331) -/

/-- IMAGE_REQ: the image is sent at the end of a line. -/
def imageReq (d : Dev) : Dev := if d.isActive then imageSend (d.updTwin fun t => { t with owed := true }) else d

/-- A stored line enters again, behind the changes of set before it. -/
def reenter (d : Dev) (q : SegLine) : Dev := (segEpoch (geoUpTo d q.line.wln) q.line.epoch).updSeg fun s => { s with cur := some q }

/-- One stored line replayed. -/
def replay (d : Dev) (q : SegLine) : Dev := closeDecision (q.runs.foldl (fun d _ => runExtracted d) (reenter d q))

/-- A close the image already accounts for: it was after w0, it holds a slot, or its tag or its result has been placed. -/
def TwinImage.has (i : TwinImage) (w0 blob close : Nat) : Bool :=
  decide (w0 < close) || (i.slots.any fun s => s.blob == blob && s.close == close) ||
    i.placed.any fun p => p.2.2.1 == blob && p.2.2.2 == close

/-- The books follow what an image replaces: entries and slots that go count as discarded and as answered, those that come as started
and as taken in, and AVAIL moves against REFILL or SPILL (log entry 135). -/
def imageBooks (i : TwinImage) (vecs : List Vec) (d : Dev) : Dev :=
  let d1 := (d.addCnt SEG.BLOBS_STARTED.CNT i.blobs.length).addCnt SEG.BLOBS_DISCARDED.CNT
    (d.seg.blobs.length + (d.tags.vecs.length - vecs.length))
  let d2 := (d1.addCnt MARK.MARK_IN.CNT i.slots.length).addCnt MARK.RES_CNT.CNT d.mark.slots.length
  let more := i.avail - d.rdS MARK.AVAIL.UJ
  let d3 := if 0 ≤ more then addTotal d2 MARK.REFILL_LO.REFILL MARK.REFILL_HI.REFILL more.toNat
    else addTotal d2 MARK.SPILL_LO.SPILL MARK.SPILL_HI.SPILL (-more).toNat
  availPut d3 i.avail

/-- A placed record as the standby keeps it, with the SSEQs the image gives it and its tag. -/
def keepPlaced (i : TwinImage) (recs : List StreamRec) (p : Nat × Nat × Nat × Nat) : Option (Nat × StreamRec) :=
  let keyed (r : StreamRec) (q : Nat × Nat × Nat × Nat) : Bool := q.2.1 == r.type && q.2.2.1 == r.blob && q.2.2.2 == r.close
  (recs.find? fun r => keyed r p).map fun r =>
    let tag := r.tagOf.bind fun u => (recs.find? fun t => t.uid == u).bind fun t => i.placed.find? (keyed t)
    let ws := r.words.set 1 p.1
    (p.1, { r with words := tag.elim ws fun q => ws.set 3 q.1 })

/-- The image taken over. What this module holds of closes up to w0 that the image does not account for stays on its way. -/
def loadImage (w0 : Nat) (i : TwinImage) (d : Dev) : Dev :=
  let own (blob close : Nat) : Bool := !i.has w0 blob close
  let vecs := d.tags.vecs.filter fun v => own v.blob v.close
  let d1 := (imageBooks i vecs d).updSeg fun s =>
    { s with cur := none, blobs := i.blobs, conts := i.conts, bg := i.bg, since := i.since, ord := i.ord, groups := i.groups,
             noGroup := i.noGroup, own := i.own, upper := i.upper, digests := [], restart := false
             prev := some (w0, lineSet d w0, 0, s.prev.elim d.now fun p => p.2.2.2)
             geo := s.geo.map fun g => (g.1, g.2 && decide (g.1 ≤ w0)) }
  let recs := d.tags.kept.map Prod.snd ++ d.tags.waiting
  let isPlaced (r : StreamRec) : Bool := i.placed.any fun p => p.2.1 == r.type && p.2.2.1 == r.blob && p.2.2.2 == r.close
  let d2 := d1.updTags fun t =>
    { t with vecs := vecs, decided := t.decided.filter (fun q => own q.1.blob q.1.close)
             formed := t.formed.filter (fun f => own f.vec.blob f.vec.close), handOff := t.handOff.filter (fun h => own h.blob h.close)
             retx := [], acked := i.acked
             kept := i.placed.filterMap (keepPlaced i recs)
             waiting := t.waiting.filter fun r => !isPlaced r && decide (r.close ≤ w0) }
  let d3 := ((d2.wr TAG.MQ_DEPTH.N d2.tags.handOff.length).updMark fun m => { m with slots := i.slots, seq := i.markSeq }).updTwin fun t =>
    { t with launches := (i.slots.filter fun s => s.state == .run).map fun s => (s.idx, d.rd (VALVE.ENERGY.UJ s.ch s.entry)) }
  hqShow (slotShow (segShow (d3.wr TAG.SSEQ.NEXT i.nextSseq)))

/-- IMAGE with the line w0 at whose end it was taken: loaded, then the stored lines after w0 are replayed; the line in progress
starts anew. -/
def image (w0 : Nat) (i : TwinImage) (d : Dev) : Dev :=
  if pairState d ≠ 2 || !d.twin.wanted then d
  else
    let open' := d.seg.cur.map fun q => q.line.wln
    let later := d.twin.store.filter fun q => decide (w0 < q.line.wln)
    let d1 := (later.filter fun q => open' != some q.line.wln).foldl replay (loadImage w0 i d)
    let d2 := (open'.bind fun w => later.find? fun q => q.line.wln == w).elim d1 (reenter d1)
    digestSettle (d2.updTwin fun t => { t with applied := true, wanted := false, store := [] })

/-- RESYNC_FAIL: the run-list store filled before the image was loaded. -/
def resyncFail (d : Dev) : Dev := if pairState d = 2 ∧ d.twin.wanted then imageAsk (d.inc TWIN.RESYNC_FAIL_CNT.CNT) else d

/-- RESYNC on the standby. -/
def resync (d : Dev) : Dev := if follows d then enterSyncing d else d

/-! ## The link -/

/-- TWIN_LINK_DOWN. A STANDBY that still sees PAIR_HB returns to SYNCING; an active loses its mirror. -/
def twinLinkDown (d : Dev) : Dev :=
  if !d.on TWIN.STATUS.LINK_UP then d
  else
    let d1 := ((d.wr TWIN.STATUS.LINK_UP 0).inc TWIN.LINK_DOWN_CNT.CNT).irq Page.TWIN TWIN.irq.LINK_DOWN
    if d.isActive then
      let d2 := (twinMirrors d1 false).updTwin fun t => { t with owed := false }
      if d2.ep.stbyWait then tryReady (d2.updEp fun e => { e with stbyWait := false }) else d2
    else if pairState d = 4 ∧ pairHbFresh d then
      ((setPair d1 2).wr TWIN.STATUS.MIRRORED 0).updTwin fun t => { t with wanted := true, applied := false, store := [], digests := [] }
    else d1

/-- TWIN_LINK_UP: HELLO both ways; a module in SYNCING requests its image. -/
def twinLinkUp (d : Dev) : Dev :=
  let d1 := sayHello (d.wr TWIN.STATUS.LINK_UP 1)
  if pairState d = 2 then imageAsk d1 else d1

/-! ## Takeover (R333 to R338) -/

/-- Every slot is the new active's (Table 15.6): one that runs with no SLOT_END is answered FAILED, ended ones are placed. What those programs
reserved counts as spent (log entry 135). -/
def takeSlots (d : Dev) : Dev :=
  let mark (s : MSlot) : MSlot := { s with taken := true }
  let d1 := d.updMSlots (List.map mark)
  let lost := d1.mark.slots.filter fun s => s.state == .run
  let d2 := lost.foldl (fun d s =>
    (resultCnt (d.updMSlot s.idx fun q => { q with state := .done, result := 1, dipT := 0xFFFF }) 1).inc TWIN.MARK_UNKNOWN_CNT.CNT) d1
  let due := (d.twin.launches.map Prod.snd).sum
  let d3 := addTotal (availPut d2 (d2.rdS MARK.AVAIL.UJ - (due : Nat))) MARK.SPENT_LO.SPENT MARK.SPENT_HI.SPENT due
  slotAckAll d3

/-- Blobs, vectors, tags and requests started before the takeover carry TAKEN_OVER (R336). -/
def takeBlobs (d : Dev) : Dev :=
  let vec (v : Vec) : Vec := { v with taken := true }
  (d.updSeg fun s => { s with blobs := s.blobs.map fun b => { b with taken := true } }).updTags fun t =>
    { t with vecs := t.vecs.map vec, decided := t.decided.map fun q => (vec q.1, q.2), formed := t.formed.map fun f => { f with taken := true }
             handOff := t.handOff.map fun h => { h with taken := true }, retx := t.kept.map Prod.fst, moved := !t.kept.isEmpty }

/-- The new active finishes the epoch it mirrored (R347). -/
def takeEpoch (d : Dev) : Dev :=
  if !d.isPuppeteer || epState d ≠ 2 then d
  else
    match d.ep.refused with
    | some (slot, cause) => abortAll d slot cause
    | none => commitAll (d.updEp fun e => { e with ready := d.slot :: e.ready.filter fun k => k != d.slot })

/-- Takeover by a cause of Table 15.4, with the steps of Table 15.5. -/
def takeover (cause : Nat) (d : Dev) : Dev :=
  if !follows d then d
  else
    let un := !d.on TWIN.STATUS.MIRRORED
    let d1 := (assertOut (setPair d 3)).wr TWIN.STATUS.MIRRORED 0
    let d2 := takeBlobs (takeSlots d1)
    let d3 := { d2 with gen := { d2.gen with takeMark := true } }
    let d4 := allPorts.foldl (fun (d : Dev) (p : Fin 16) =>
      if homing d p == 1 && linkState d p == LS.active then sendRole (d.wr (PORT.LINK_STAT.PRIMARY p) 0) p else snoopTakeover d p) d3
    let d5 := (excHandOver d4).toRing .newActive [(d.slot : Int), (d.rd TWIN.STATUS.SIDE : Int)]
    let d6 := ((d5.inc TWIN.TAKEOVER_CNT.CNT).wr TWIN.TAKE_INFO.CAUSE cause).wrB TWIN.TAKE_INFO.UNMIRRORED un
    let d7 := (d6.irq Page.TWIN TWIN.irq.TAKEOVER).updTwin fun t =>
      { t with wanted := false, applied := false, owed := false, store := [], digests := [], launches := [] }
    assertTie (takeEpoch (archShow (sayHello d7)))

/-- HEARTBEAT_TIMEOUT: no message from the active for HB_TIMEOUT, and with STRING_HB no PAIR_HB either. -/
def heartbeatTimeout (d : Dev) : Dev :=
  if d.on TWIN.CTL.EN && d.past .twin (16000 * hbTimeout d) && !(d.on TWIN.CFG.STRING_HB && pairHbFresh d) then takeover 1 d else d

/-- YIELD: taken while MIRRORED, else refused. -/
def yieldMsg (d : Dev) : Dev := if pairState d = 4 then takeover 2 d else if d.isActive then d else d.emit (.twin .yieldRefuse [])

/-- TAKE on the standby, SWITCH on the active. -/
def takeOver (d : Dev) : Dev := takeover 3 d
def switchOver (d : Dev) : Dev := d.toStandby .yield []

/-! ## Meanings -/

def execTwinHello (sideB : Bool) (state : Nat) (takeOut : Bool) (_serial _fw : Nat) (s : State) : Host.Outcome State Fault Refusal :=
  s.fromTwin (twinHello sideB state takeOut)
def execHelloSend (s : State) : Host.Outcome State Fault Refusal := s.onDev helloSend
def execSoloWaitExpiry (s : State) : Host.Outcome State Fault Refusal := s.onDev soloWaitExpiry
def execHeart (tb _wln : Nat) (hbm : Bool) (step : Nat) (s : State) : Host.Outcome State Fault Refusal := s.fromTwin (heart tb hbm step)
def execTwinEcho (answer : Bool) (rtt residence : Nat) (s : State) : Host.Outcome State Fault Refusal :=
  s.fromTwin (twinEcho answer rtt residence)
def execDigest (wln runs bg n closes : Nat) (s : State) : Host.Outcome State Fault Refusal := s.fromTwin (digest wln runs bg n closes)
def execCreditG (gs : List (Nat × Nat)) (s : State) : Host.Outcome State Fault Refusal := s.fromTwin (creditG gs)
def execCapture (n : Fin 2) (sh cap chk : Bool) (state : Nat) (run : CaptureRun) (s : State) : Host.Outcome State Fault Refusal :=
  s.fromTwin (captureMsg n sh cap chk state run.cause run.left run.retried run.again)
def execTwinLaunch (slot firePos fireT energy : Nat) (s : State) : Host.Outcome State Fault Refusal :=
  s.fromTwin (twinLaunch slot firePos fireT energy)
def execSlotEnd (slot result dipT spent : Nat) (s : State) : Host.Outcome State Fault Refusal := s.fromTwin (slotEnd slot result dipT spent)
def execFaultEv (target : Fin 20) (cause : Nat) (latched : Bool) (s : State) : Host.Outcome State Fault Refusal :=
  s.fromTwin (faultEv target cause latched)
def execPlaced (first : Nat) (keys : List (Nat × Nat × Nat)) (s : State) : Host.Outcome State Fault Refusal := s.fromTwin (placed first keys)
def execHostAck (sseq : Nat) (s : State) : Host.Outcome State Fault Refusal := s.fromTwin (hostAck sseq)
def execCounts (cs : List (Nat × Nat)) (s : State) : Host.Outcome State Fault Refusal := s.fromTwin (countsMsg cs)
def execImageReq (s : State) : Host.Outcome State Fault Refusal := s.onDev imageReq
def execImage (w0 : Nat) (img : TwinImage) (s : State) : Host.Outcome State Fault Refusal := s.fromTwin (image w0 img)
def execResyncFail (s : State) : Host.Outcome State Fault Refusal := s.onDev resyncFail
def execResync (s : State) : Host.Outcome State Fault Refusal := s.onDev resync
def execTwinLinkDown (s : State) : Host.Outcome State Fault Refusal := s.onDev twinLinkDown
def execTwinLinkUp (s : State) : Host.Outcome State Fault Refusal :=
  s.onDev (unlessDormant fun d => if cageDark d 18 then d else twinLinkUp d)
def execHeartbeatTimeout (s : State) : Host.Outcome State Fault Refusal := s.onDev heartbeatTimeout
def execYieldMsg (s : State) : Host.Outcome State Fault Refusal := s.fromTwin yieldMsg
def execTakeOver (s : State) : Host.Outcome State Fault Refusal := s.onDev takeOver
def execSwitchOver (s : State) : Host.Outcome State Fault Refusal := s.onDev switchOver

end Sys2Proof.Machine
end

