-- ==== Sys2Proof/Machine/Ring.lean ====
section
/-! DEFINITION. The String ring (spec/15_twin_and_ring.md, R340 to R347): topology, ring states, time on String and the forwarding of
messages. What a message carries is the effect of its own command; forwarding moves the message on. -/

namespace Sys2Proof.Machine

def ringState (d : Dev) : Nat := d.rd STRING.STATUS.RING_STATE
def setRing (d : Dev) (n : Nat) : Dev := (if n = 1 then d.start .form else d).wr STRING.STATUS.RING_STATE n

/-- The cable position (R340). -/
def cablePos (d : Dev) : Nat := 2 * d.ringSlot + d.rd TWIN.STATUS.SIDE

/-- A module that is heard on some side. -/
def RingMod.heard (r : RingMod) : Bool := r.inHops.isSome || r.outHops.isSome

/-- A module in ACTIVE or SOLO. -/
def RingMod.active (r : RingMod) : Bool := r.state == 3 || r.state == 0

/-- Hops to a module: the fewer of the two sides. -/
def RingMod.hops (r : RingMod) : Nat :=
  match r.inHops, r.outHops with
  | some a, some b => min a b
  | some a, none => a
  | none, some b => b
  | none, none => 0

/-- The module itself as the others see it. -/
def ownMod (d : Dev) : RingMod := ⟨cablePos d, d.ringSlot, d.rd TWIN.STATUS.SIDE, pairState d, some 0, some 0⟩

/-- Every module within reach, the own one too. -/
def reachable (d : Dev) : List RingMod := ownMod d :: d.ring.mods.filter RingMod.heard

/-- The active module of a slot within reach. -/
def slotActive (d : Dev) (k : Nat) : Option RingMod := (reachable d).find? fun r => r.slot == k && r.active

/-- The Puppeteer and the active of every slot are within reach. -/
def reachAll (d : Dev) : Bool := (List.range (max 1 (d.rd STRING.CFG.SLOTS))).all fun k => (slotActive d k).isSome

/-- REACH, POS and PUP_HOPS follow. -/
def ringShow (d : Dev) : Dev :=
  let bits (p : Nat → Bool) (n : Nat) : Nat := (List.range n).foldl (fun v k => if p k then v + 2 ^ k else v) 0
  let rs := reachable d
  let d1 := d.wr STRING.REACH.POS_MAP (bits (fun p => rs.any fun r => r.pos == p) 16)
  let d2 := d1.wr STRING.REACH.ACTIVE_B (bits (fun k => (slotActive d k).elim false fun r => r.side == 1) 8)
  let d3 := d2.wr STRING.REACH.SLOT_MAP (bits (fun k => rs.any fun r => r.slot == k) 8)
  (d3.wr STRING.STATUS.POS (cablePos d)).wr STRING.STATUS.PUP_HOPS ((slotActive d 0).elim 0 RingMod.hops)

/-- The topology check (R345): the first cause with the position concerned. -/
def topoCheck (d : Dev) (dup : Option Nat) : Option (Nat × Nat) :=
  let rs := reachable d
  let own := cablePos d
  let slots := max 1 (d.rd STRING.CFG.SLOTS)
  let lower := rs.filter fun r => decide (r.pos < own)
  let want := ((if lower.isEmpty then rs else lower).map RingMod.pos).foldl max 0
  let inNbr := (d.ring.mods.find? fun r => r.inHops == some 1).map RingMod.pos
  match dup with
  | some p => some (1, p)
  | none =>
    match rs.find? fun r => decide (slots ≤ r.slot) with
    | some r => some (2, r.pos)
    | none =>
      if inNbr.elim false fun p => p != want then some (3, own)
      else ((List.range slots).find? fun k => !rs.any fun r => r.slot == k).map fun k => (4, 2 * k)

/-- TOPO on both hops: position, slot, side, pair state, and the reach map. -/
def sendTopo (d : Dev) : Dev :=
  d.toRing .topo [(cablePos d : Int), (d.ringSlot : Int), (d.rd TWIN.STATUS.SIDE : Int), (pairState d : Int),
    (d.rd STRING.REACH.POS_MAP : Int), (b2n (ringState d == 2) : Int)]

/-- A module out of the Puppeteer's reach: holdover, lines marked DIVERGED, no DIVERGE check (R346). -/
def ringHoldover (d : Dev) : Dev :=
  if d.slot = 0 ∨ (slotActive d 0).isSome then d
  else
    let d1 := tbHoldover d
    { d1 with gen := { d1.gen with diverged := true, expected := [] } }

/-- A change of reach in RING, FOLDED or SPLIT. -/
def ringReach (d : Dev) : Dev :=
  let st := ringState d
  if (st = 2 ∨ st = 3) ∧ reachAll d = false then ringHoldover ((setRing d 4).irq Page.STRING STRING.irq.SPLIT)
  else if st = 4 ∧ reachAll d then setRing d (if d.ring.closed then 2 else 3)
  else d

/-- FORMING: entered with the slot of CFG (R349: it applies at the next formation). The geometry in force goes to the upper
neighbour (R15). -/
def ringForm (d : Dev) : Dev :=
  let d1 := { d with ringSlot := d.rd STRING.CFG.SLOT }
  let d1 := if d1.slot + 1 < slotCount d1 then d1.toRing .geom (geomOut d1.rd) else d1
  sendTopo (ringShow (setRing (d1.updRing fun r => { r with mods := [], closed := false }) 1))

/-- A write of STRING.CFG.EN: with a hop up the ring forms; cleared, it is DOWN. LEAD_LINES follows its floor (R25). -/
def stringEnable (on : Bool) (d : Dev) : Dev :=
  let d0 := d.wrB STRING.CFG.EN on
  let d1 := d0.wr WEB.EPOCH_CTL.LEAD_LINES (max (leadFloor d0) (d0.rd WEB.EPOCH_CTL.LEAD_LINES))
  if on && !d.on STRING.CFG.EN then
    (if d.on STRING.STATUS.IN_UP || d.on STRING.STATUS.OUT_UP then ringForm d1 else d1)
  else if !on && d.on STRING.CFG.EN then setRing (d1.updRing fun r => { r with mods := [], closed := false }) 0
  else d1

/-- The ring in FORMING: TOPO from every module of a closed ring, and the check passes. -/
def tryForm (dup : Option Nat) (d : Dev) : Dev :=
  if ringState d ≠ 1 || !(d.ring.closed || dup.isSome) then d
  else
    match topoCheck d dup with
    | some (c, p) => (((d.wr STRING.TOPO_ERR.CAUSE c).wr STRING.TOPO_ERR.POS p)).irq Page.STRING STRING.irq.TOPO_ERR
    | none => sendTopo ((setRing d 2).irq Page.STRING STRING.irq.RING_UP)

/-- A break seen: RING becomes FOLDED. -/
def ringBreak (d : Dev) : Dev :=
  let d1 := d.updRing fun r => { r with closed := false }
  if ringState d = 2 then ((setRing d1 3).inc STRING.BREAK_CNT.CNT).irq Page.STRING STRING.irq.BREAK else d1

/-- The ring whole again. -/
def ringHeal (d : Dev) : Dev :=
  let d1 := d.updRing fun r => { r with closed := true }
  if ringState d = 3 then ((setRing d1 2).inc STRING.HEAL_CNT.CNT).irq Page.STRING STRING.irq.HEAL else d1

/-- TOPO. -/
def topo (r : TopoRec) (d : Dev) : Dev :=
  if !d.inRing then d
  else
    let dup := if !r.mine && r.pos == cablePos d then some r.pos else none
    let old := d.ring.mods.find? fun m => m.pos == r.pos
    let m : RingMod := ⟨r.pos, r.slot, r.side, r.state, if r.fromOut then old.bind RingMod.inHops else some r.hops,
      if r.fromOut then some r.hops else old.bind RingMod.outHops⟩
    let d1 := if r.mine then d.updRing fun q => { q with closed := true }
      else if dup.isSome then d
      else d.updRing fun q => { q with mods := m :: q.mods.filter fun k => k.pos != r.pos }
    let d2 := if r.mine then d1 else if r.chain then ringBreak d1 else if ringState d1 == 3 && d1.on STRING.STATUS.IN_UP &&
      d1.on STRING.STATUS.OUT_UP && d1.ring.closed then ringHeal d1 else d1
    ringShow (ringReach (tryForm dup d2))

/-- FORM_WAIT_EXPIRY: a chain that holds the Puppeteer and every slot runs FOLDED. -/
def formWaitExpiry (d : Dev) : Dev :=
  if !d.inRing || ringState d ≠ 1 || !d.past .form (d.rd STRING.CFG.FORM_WAIT * oneMs) then d
  else if reachAll d && (topoCheck d none).isNone then ringShow (setRing d 3)
  else d

/-- HOP_DOWN: what was heard over that side is no longer reached over it. -/
def hopDown (out : Bool) (d : Dev) : Dev :=
  let d1 := d.wr (if out then STRING.STATUS.OUT_UP else STRING.STATUS.IN_UP) 0
  let cut (m : RingMod) : RingMod := if out then { m with outHops := none } else { m with inHops := none }
  if !d.inRing then d1
  else ringShow (ringReach (sendTopo (ringBreak (d1.updRing fun r => { r with mods := r.mods.map cut }))))

/-- HOP_UP: in DOWN the ring forms; else the module sends TOPO. -/
def hopUp (out : Bool) (d : Dev) : Dev :=
  let d1 := ((d.start (.hop out)).stop (.measured out)).wr (if out then STRING.STATUS.OUT_UP else STRING.STATUS.IN_UP) 1
  if !d.inRing then d1 else if ringState d = 0 then ringForm d1 else sendTopo d1

/-- HOP_HEAL: the broken hop has been up for 100 ms and measured. -/
def hopHeal (d : Dev) : Dev :=
  let long (out : Bool) : Bool := d.past (.hop out) (100 * oneMs) && d.began (.measured out)
  if d.inRing && d.on STRING.STATUS.IN_UP && d.on STRING.STATUS.OUT_UP && long false && long true then ringShow (sendTopo (ringHeal d)) else d

/-- ECHO is answered; ECHO_R gives the hop's delay. -/
def stringEcho (out answer : Bool) (rtt residence : Nat) (d : Dev) : Dev :=
  if !d.inRing then d
  else if answer then
    (d.start (.measured out)).wrSat (if out then STRING.HOP_OUT_DLY.DLY else STRING.HOP_IN_DLY.DLY) ((rtt - residence) / 2)
  else d.emit (.string .echoR [(b2n out : Int)])

/-- PAIR_HB. -/
def pairHb (d : Dev) : Dev := if d.inRing then d.updRing fun r => { r with pairHb := some d.now } else d

/-- TIME (R344): compared by an active module of slot 1 to 7, from the copy over fewer hops; every module forwards it with the delay
of the hop it came in by and its residence. -/
def timeMsg (origin corr hops : Nat) (fromOut : Bool) (residence : Nat) (d : Dev) : Dev :=
  if !d.inRing || d.isPuppeteer then d
  else
    let dly := d.rd (if fromOut then STRING.HOP_OUT_DLY.DLY else STRING.HOP_IN_DLY.DLY)
    let off : Int := (origin : Int) + corr + dly - d.now
    let d1 := d.emit (.string .time [(origin : Int), ((corr + dly + residence : Nat) : Int), ((hops + 1 : Nat) : Int), (b2n fromOut : Int)])
    if hops ≤ (slotActive d 0).elim hops RingMod.hops then
      let d2 := d1.wrS STRING.TIME_OFS.OFS (clampI (-2147483648) 2147483647 off)
      if d.isActive && d.slot != 0 then timeCompare off d2 else d2
    else d1

/-- NEW_ACTIVE. -/
def newActive (slot : Nat) (sideB : Bool) (d : Dev) : Dev :=
  if !d.inRing then d
  else
    let put (m : RingMod) : RingMod := if m.slot = slot then { m with state := if (m.side == 1) == sideB then 3 else 5 } else m
    ringShow (ringReach (d.updRing fun r => { r with mods := r.mods.map put }))

/-! ## Forwarding (R341, R343) -/

/-- The order in which waiting messages leave. -/
def StrMsg.rank (m : StrMsg) : Nat :=
  if m.type = 0x08 then 0 else if m.type = 0x09 then 1 else if 0x10 ≤ m.type ∧ m.type ≤ 0x14 then 2 else if m.type = 0x21 then 3
  else if m.type = 0x20 then 4 else 5

/-- A message that arrives: a duplicate or one back at its sender is removed; one for this slot goes on only past the first module of a
pair; one without a way on is dropped and counted. -/
def forwardIn (d : Dev) (m : StrMsg) : Dev :=
  let own := cablePos d
  let last := (d.ring.seen.find? fun e => e.1 == m.src).map Prod.snd
  let dup := last.elim false fun l => !decide (0 < (m.mseq + 65536 - l) % 65536 ∧ (m.mseq + 65536 - l) % 65536 < 32768)
  if dup || m.src == own then d
  else
    let d1 := d.updRing fun r => { r with seen := (m.src, m.mseq) :: r.seen.filter fun e => e.1 != m.src }
    let twin := d.ring.mods.any fun r => r.slot == d.ringSlot && r.pos != own && r.heard
    let here := !m.all && m.dst == d.ringSlot
    let second := !m.pair || !twin || (m.up == d.on TWIN.STATUS.SIDE)
    let way := d.on (if m.up then STRING.STATUS.OUT_UP else STRING.STATUS.IN_UP)
    if here && second then d1
    else if way then d1.updRing fun r => { r with wait := r.wait ++ [m] }
    else if m.all then d1
    else d1.inc STRING.FWD_DROP_CNT.CNT

/-- STRING_FORWARD: messages arrive, and the first that waits for the hop leaves. -/
def stringForward (up : Bool) (arrived : List StrMsg) (d : Dev) : Dev :=
  if !d.inRing then d
  else
    let d1 := arrived.foldl forwardIn d
    let mine := d1.ring.wait.zipIdx.filter fun q => q.1.up == up
    match (List.range 6).findSome? fun k => mine.find? fun q => StrMsg.rank q.1 == k with
    | none => d1
    | some (m, i) =>
      (d1.updRing fun r => { r with wait := r.wait.eraseIdx i }).emit (.string .forwarded
        ([(m.type : Int), (b2n m.up : Int), (b2n m.pair : Int), (b2n m.all : Int), (m.dst : Int), (m.src : Int), (m.mseq : Int)] ++ m.body))

/-- A message whose CRC fails (R328). -/
def messageCrcFail (string : Bool) (d : Dev) : Dev := d.inc (if string then STRING.MSG_ERR_CNT.CNT else TWIN.MSG_ERR_CNT.CNT)

/-! ## Meanings -/

def execTopo (r : TopoRec) (s : State) : Host.Outcome State Fault Refusal := s.onDev (topo r)
def execStringEcho (out answer : Bool) (rtt residence : Nat) (s : State) : Host.Outcome State Fault Refusal :=
  s.onDev (stringEcho out answer rtt residence)
def execPairHb (s : State) : Host.Outcome State Fault Refusal := s.onDev pairHb
def execTimeMsg (origin corr hops : Nat) (fromOut : Bool) (residence : Nat) (s : State) : Host.Outcome State Fault Refusal :=
  s.onDev (timeMsg origin corr hops fromOut residence)
def execNewActive (slot : Nat) (sideB : Bool) (s : State) : Host.Outcome State Fault Refusal := s.onDev (newActive slot sideB)
def execStringForward (up : Bool) (arrived : List StrMsg) (s : State) : Host.Outcome State Fault Refusal := s.onDev (stringForward up arrived)
def execFormWaitExpiry (s : State) : Host.Outcome State Fault Refusal := s.onDev formWaitExpiry
def execHopDown (out : Bool) (s : State) : Host.Outcome State Fault Refusal := s.onDev (hopDown out)
def execHopUp (out : Bool) (s : State) : Host.Outcome State Fault Refusal :=
  s.onDev (unlessDormant fun d => if cageDark d (if out then 20 else 19) then d else hopUp out d)
def execHopHeal (s : State) : Host.Outcome State Fault Refusal := s.onDev hopHeal
def execMessageCrcFail (string : Bool) (s : State) : Host.Outcome State Fault Refusal := s.onDev (messageCrcFail string)

end Sys2Proof.Machine
end

