-- ==== Sys2Proof/Machine/Modes.lean ====
section
/-! DEFINITION. Inspection reset, unit reset and the low-power states (R425 to R427). -/

namespace Sys2Proof.Machine

/-! ## Inspection reset (R425) -/

/-- Fields put back to their reset values. -/
def resetFields (d : Dev) (fs : List Fld) : Dev := fs.foldl (fun d f => d.wr f f.reset) d

/-- The counters of the pages that an inspection reset returns, beside those whose unit returns to its reset state whole. -/
def inspCounters : List Fld :=
  (List.range 16).flatMap (fun p =>
    [PORT.LINES_OK.CNT p, PORT.LINES_FLAGGED.CNT p, PORT.MISSING_CNT.CNT p, PORT.HDR_CORR_CNT.CNT p, PORT.HDR_ERR_CNT.CNT p,
     PORT.CRC_ERR_CNT.CNT p, PORT.FORMAT_CNT.CNT p, PORT.DT_ERR_CNT.CNT p, PORT.CREDIT_VIOL_CNT.CNT p, PORT.RESYNC_CNT.CNT p,
     PORT.LINK_DOWN_CNT.CNT p, PORT.TRIG_LATE_CNT.CNT p, PORT.SNOOP_DROP_CNT.CNT p, PORT.MSG_ERR_CNT.CNT p, PORT.SET_FAIL_CNT.CNT p,
     Com.ERR_CNT (Page.PORT p), Com.ERR_CNT (Page.LANE p)] ++
    (List.range 4).flatMap fun k => [LANE.BLK_ERR_CNT.CNT p k, LANE.LOS_CNT.CNT p k]) ++
  (List.range 8).flatMap (fun n => Com.ERR_CNT (Page.PIPE n) :: Com.ERR_CNT (Page.STAT n) ::
    (List.range 2).flatMap fun j => [STAT.REC_CNT.CNT n j, STAT.SAT_CNT.CNT n j, STAT.DP_DYN_CNT.CNT n j, STAT.SET_UNKNOWN_CNT.CNT n j,
      STAT.FLK_INVALID_CNT.CNT n j, STAT.TBL_STAT.BANK_BUSY n j]) ++
  [Com.ERR_CNT Page.STITCH, Com.ERR_CNT Page.SEG, Com.ERR_CNT Page.CLASS, TAG.HQ_DEPTH.N, TAG.MQ_DEPTH.N]

/-- Every running program quenches, every ARMED or RUN slot is answered SHED. -/
def slotsShed (d : Dev) : Dev :=
  answerArmed (allValves.foldl (fun d c => if (d.valves[c].run).isSome then progAbort d c 4 else d) d) (fun _ => true) 4

/-- Undecided archive chunks are lost by the rule of R267. -/
def chunksLost (d : Dev) : Dev :=
  let pend := (d.arch.chunks.map fun c => c.dSeen + c.fSeen).sum
  let bufs := (d.arch.chunks.map fun c => c.dBufs + c.fBufs).sum
  let lines := (d.arch.chunks.map fun c => c.lines.length).sum
  let d1 := bookDropped (bookPending d (-(pend : Int))) pend
  let d2 := ((poolFree d1 bufs).addCnt ZCTL.LINES_LOST.CNT lines).irqIf (lines != 0) Page.ZCTL ZCTL.irq.LINES_LOST
  zShowAll (archQShow (d2.updArch fun a => { a with chunks := [] }))

/-- Tags that ask for a mark and have not reached a slot are answered SHED: each has exactly one mark-result (R216). -/
def marksShed (d : Dev) : Dev :=
  let d1 := d.tags.handOff.foldl (fun d h => answerNow d h 4) d
  (d.tags.formed.filter fun f => f.verdict.mark).foldl (fun d f =>
    answerNow d ⟨f.vec.blob, f.vec.close, 0, f.vec.p0, f.vec.p1, 0, f.taken⟩ 4) d1

/-- Pipelines with their correction stages, stitch stage, segmentation, classifier and tag formation in their reset state; DEGRADED
and decimation follow what still holds. The camera settings and flicker gains of a port belong to STAT and stay. -/
def pathReset (d : Dev) : Dev :=
  let d := marksShed d
  let keep (c : Corr) : Corr := { Corr.reset with hSets := c.hSets, known := c.known }
  let d1 := { d with pipes := Vector.replicate 8 Pipe.reset, stitch := Stitch.reset, seg := Segm.reset, corr := d.corr.map keep }
  let d2 := d1.updTags fun t => { t with vecs := [], decided := [], formed := [], groups := [], handOff := [], bankEpoch := none }
  let fs := roFields ((List.range 8).flatMap PIPE.fields ++ STITCH.fields ++ SEG.fields ++ CLASS.fields) ++
    (List.range 16).map fun p => STAT.TBL_STAT.BANK_BUSY (p / 2) (p % 2)
  let d3 := resetFields d2 fs
  let n := d.rd (PIPE.DECIM.N 0)
  let deg := d.rd MEM.STATUS.DEGRADED
  let d4 := (List.range 8).foldl (fun d l => (d.wr (PIPE.STATUS.DEGRADED l) deg).wr (PIPE.DECIM.N l) n |>.wrB (PIPE.STATUS.DECIMATING l)
    (decide (1 < n))) d3
  stitchShow (segShow (bgRestart (d4.wr STITCH.STATUS.DEGRADED deg)))

/-- The thermal heads pass through STARTING, the maps are cleared. -/
def headsStart (d : Dev) : Dev :=
  (List.finRange 2).foldl (fun (d : Dev) (n : Fin 2) =>
    let d1 := d.updHead n clearMap
    if headState d n = HS.run ∨ headState d n = HS.starting then
      captureReq ((abandonCapture d1 n).wr (THERM.STATUS.STATE n) HS.starting) n 4
    else d1) d

/-- INSP_RESET in the order of R425; a standby resynchronizes. -/
def inspReset (x : DM) : DM :=
  let d1 := slotsShed x.1
  let d2 := d1.updSeg fun s => { s with blobs := [], conts := [] }
  let y := jobAbort (chunksLost d2, x.2)
  let d3 := headsStart (pathReset (allPorts.foldl (fun (d : Dev) (p : Fin 16) => retrain p d) y.1))
  let d4 := (resetFields d3 inspCounters).inc RST.INSP_CNT.CNT
  let d5 := d4.irq Page.RST RST.irq.INSP_DONE
  (if pairState d5 = 4 then enterSyncing d5 else d5, y.2)

/-! ## Unit reset (R426) -/

/-- The kinds: 0 ports, 1 pipelines, 2 heads, 3 engines. -/
def unitFld (kind : Nat) : Fld :=
  if kind = 0 then RST.UNIT_PORT.MASK else if kind = 1 then RST.UNIT_PIPE.MASK else if kind = 2 then RST.UNIT_HEAD.MASK else RST.UNIT_Z.MASK

/-- A port that some pipeline takes a line from. -/
def portRouted (d : Dev) (p : Nat) : Bool :=
  (List.range 8).any fun l => (d.on (PIPE.ROUTE_IL.A_EN l) && p == 4 * (l / 2) + d.rd (PIPE.ROUTE_IL.A_PORT l)) ||
    (d.on (PIPE.ROUTE_IL.B_EN l) && p == 4 * (l / 2) + d.rd (PIPE.ROUTE_IL.B_PORT l)) || bitOf (d.rd (PIPE.ROUTE_MR.MR_MASK l)) p

/-- The live configuration uses the unit. -/
def unitUsed (d : Dev) (kind b : Nat) : Bool :=
  if kind = 0 then d.on (PORT.LINK_CFG.EN b) || portRouted d b
  else if kind = 1 then d.on (PIPE.ROUTE_IL.A_EN b) || d.on (PIPE.ROUTE_IL.B_EN b) || d.on (PIPE.ROUTE_MR.MR_MASK b)
  else if kind = 2 then d.on (THERM.CTL.EN b)
  else streamEngine d b || (jobOn d b).isSome

/-- A page with every register at its reset value. -/
def pageReset (d : Dev) (p : Nat) : Dev := { d with regs := d.regs.filter fun e => e.1 / 131072 != p }

/-- A unit in its reset state: its registers and what its record holds. What the outside shows of it stays: the head-sense line. -/
def unitStart (d : Dev) (kind b : Nat) : Dev :=
  if kind = 0 then (pageReset (pageReset d (Page.PORT b)) (Page.LANE b)).updPort (Fin.ofNat 16 b) fun _ => Port.reset
  else if kind = 1 then allPorts.foldl bankBusyClear ((pageReset d (Page.PIPE b)).updPipe (Fin.ofNat 8 b) fun _ => Pipe.reset)
  else if kind = 2 then
    ((pageReset d (Page.THERM b)).wr (THERM.STATUS.HEAD_PRESENT b) (d.rd (THERM.STATUS.HEAD_PRESENT b))).updHead (Fin.ofNat 2 b) fun _ => Head.reset
  else zShow (pageReset d (Page.Z b)) b

/-- UNIT_RESET: the mask written. A bit set for a unit in use is ignored and sets IN_USE; a bit set or cleared puts the unit in its
reset state. -/
def unitReset (kind : Nat) (mask : Nat) (d : Dev) : Dev :=
  let f := unitFld kind
  (List.range f.width).foldl (fun d b =>
    let old := bitOf (d.rd f) b
    let new := bitOf mask b
    if new && !old && unitUsed d kind b then (d.wr RST.STATUS.IN_USE 1).irq Page.RST RST.irq.IN_USE
    else if new != old then unitStart (d.wr f (putBit (d.rd f) b new)) kind b
    else d) d

/-! ## Low-power states (R427) -/

/-- HBM content is lost: the thermal banks and offsets with it. -/
def hbmLost (m : Memory) : Memory :=
  let gone (a : Nat) : Bool := decide (0x400000000 ≤ a) || hbmWindow a
  { m with bytes := m.bytes.filter fun c => !gone c.1, checks := m.checks.filter fun c => !gone c.1 }

/-- QUIET: the CLK_PIX domain, ports and lanes, compression, heads with their supplies and V48 stop; slots are answered SHED and
cleared, the blob table is cleared. -/
def quietEnter (d : Dev) : Dev :=
  let d1 := slotAckAll (slotsShed d)
  let d2 := allPorts.foldl (fun (d : Dev) (p : Fin 16) =>
    if linkState d p == LS.disabled then d
    else
      let e := if linkState d p == LS.active then leaveActive d p else d
      (toAcquire (e.emit (.camTx p.val false)) p).wr (PORT.LINK_STAT.STATE p) LS.disabled) d1
  let d3 := (List.finRange 2).foldl (fun (d : Dev) (n : Fin 2) => (headDisable n d).wr (THERM.CTL.EN n) (d.rd (THERM.CTL.EN n))) d2
  (pathReset d3).emit (.rail v48 false)

/-- Both hops, the twin link and the host ports lose their links. -/
def seriesDown (d : Dev) : Dev :=
  let d1 := (List.finRange 2).foldl (fun (d : Dev) (p : Fin 2) => hostPortDown p d) d
  hopDown false (hopDown true (twinLinkDown d1))

/-- DORMANT: VHBM off, host ports, twin link, String, encoders and converters stop; what HBM held is lost. -/
def dormantEnter (x : DM) : DM :=
  let d1 := seriesDown ((openSessions x.1).foldl dropSession x.1)
  let d2 := tbHoldover (((archPoolLost d1).wr MEM.STATUS.HBM_READY 0).emit (.rail 4 false))
  let d3 := (List.finRange 2).foldl (fun (d : Dev) (n : Fin 2) => d.updPadc n fun _ => Padc.reset) d2
  (d3.updHost fun h => { h with ptp := HostSt.reset.ptp }, hbmLost x.2)

/-- DORMANT ends: VHBM on, HBM training, converters. -/
def dormantLeave (d : Dev) : Dev := padcKickAll ((d.emit (.rail 4 true)).updInteg fun i => { i with recovering := true })

/-- RUN again: ports train, heads pass through BIAS and STARTING, V48 is on; from DORMANT also HBM training and the converters. -/
def lpLeave (x : DM) : DM :=
  let was := x.1.rd PWR.STATUS.LP
  let d1 := (x.1.wr PWR.STATUS.LP 0).emit (.rail v48 true)
  let d2 := if was = 2 then dormantLeave d1 else d1
  let d3 := allPorts.foldl (fun (d : Dev) (p : Fin 16) => if d.on (PORT.LINK_CFG.EN p) then portEnable p d else d) d2
  let d4 := (List.finRange 2).foldl (fun (d : Dev) (n : Fin 2) =>
    let e := d.updHead n clearMap
    if d.on (THERM.CTL.EN n) then headEnable n e else e) d3
  (d4.irq Page.PWR PWR.irq.LP_DONE, x.2)

/-- LP_REQUEST: refused while triggers run or a job runs. DEDUCED: LP_CNT counts each completed change to a state other than RUN
(log entry 26). -/
def lpRequest (lp : Nat) (x : DM) : DM :=
  let d := x.1.wr PWR.CTL.LP lp
  let want := if lp = 3 then 0 else lp
  let now' := d.rd PWR.STATUS.LP
  if want = now' then (d, x.2)
  else if want = 0 then lpLeave (d, x.2)
  else if d.on TRIG.STAT.RUNNING || !d.arch.jobs.isEmpty then (d.wr PWR.STATUS.LP_REFUSED 1, x.2)
  else
    let q := if now' = 0 then quietEnter d else d
    let y := if want = 2 then dormantEnter (q, x.2) else if now' = 2 then (dormantLeave q, x.2) else (q, x.2)
    (((y.1.wr PWR.STATUS.LP want).inc PWR.LP_CNT.CNT).irq Page.PWR PWR.irq.LP_DONE, y.2)

/-- WAKE: an edge on an AUX general input. -/
def wake (io : Nat) (falling : Bool) (x : DM) : DM :=
  let d := x.1
  if d.on PWR.STATUS.LP && d.on PWR.WAKE.EN && d.rd PWR.WAKE.IO == io && d.on PWR.WAKE.EDGE == falling then
    lpLeave (d.wr PWR.CTL.LP 0, x.2)
  else x

/-! ## The lane PLL (R422) -/

/-- LANE_PLL_UNLOCK: every lane that the PLL clocks loses lock. -/
def lanePllUnlock (d : Dev) : Dev :=
  let d1 := ((d.wr CLK.STATUS.LANE_LOCK 0).inc CLK.LANE_UNLOCK_CNT.CNT).irq Page.CLK CLK.irq.LANE_UNLOCK
  seriesDown (allPorts.foldl (fun (d : Dev) (p : Fin 16) =>
    if linkState d p == LS.disabled then d
    else (List.finRange 4).foldl (fun (d : Dev) (k : Fin 4) => blockLockLost p k true d) d) d1)

/-! ## Meanings -/

def execLanePllUnlock (s : State) : Host.Outcome State Fault Refusal := s.onDev lanePllUnlock

def execInspReset (s : State) : Host.Outcome State Fault Refusal := s.onBoth inspReset
def execUnitReset (kind : Fin 4) (mask : Word32) (s : State) : Host.Outcome State Fault Refusal := s.onDev (unitReset kind mask.toNat)
def execLpRequest (lp : Fin 4) (s : State) : Host.Outcome State Fault Refusal := s.onBoth (lpRequest lp)
def execWake (io : Fin 8) (falling : Bool) (s : State) : Host.Outcome State Fault Refusal := s.onBoth (wake io falling)

end Sys2Proof.Machine
end

