-- ==== Sys2Proof/Machine/Write.lean ====
section
/-! DEFINITION. A write of a register word without its W1S actions: plain fields, and the RW fields whose write has an effect of its own
(R22, R54, R65, R263, R298, R426, R427). A profile image is written this way (R369). -/

namespace Sys2Proof.Machine

/-- The fields that plainWrite leaves to the page's own effect. -/
def effectFields (a : Nat) : List Fld :=
  let n (base : Nat) : Nat := a / 4096 - base
  match (pageKind (a / 4096)).elim 0 PageKind.type with
  | 0x03 => [PWR.CTL.LP]
  | 0x04 => [RST.UNIT_PORT.MASK, RST.UNIT_PIPE.MASK, RST.UNIT_HEAD.MASK, RST.UNIT_Z.MASK]
  | 0x10 => [WEB.TB_RATE.RATE]
  | 0x20 => [PORT.LINK_CFG.EN (n 0x20)]
  | 0x21 => LANE.TX_EQ.POST (n 0x30) 0 :: (List.range 4).map fun k => LANE.RX_EQ.CTLE (n 0x30) k
  | 0x30 => [THERM.CTL.EN (n 0x50), THERM.CTL.SH_INHIBIT (n 0x50)]
  | 0x50 => [ZCTL.JQ_TAIL.IDX, ZCTL.CQ_HEAD.IDX]
  | 0x60 => [TWIN.CTL.EN]
  | 0x61 => [STRING.CFG.EN]
  | 0x68 => [PADC.SEQ_CTL.RUN (n 0xC0)]
  | _ => []

/-- What a written word holds for a field. -/
def Fld.of (f : Fld) (v : Nat) : Nat := bitsOf v f.lo f.width

/-- TB_RATE: the Puppeteer's own, unless IEEE 1588 disciplines it; ±200 ppm (R11 to R13). -/
def tbRateWrite (v : Nat) (d : Dev) : Dev :=
  if !d.isPuppeteer || (timeSource d == 1 && d.on WEB.TB_CTL.LOCKED) then d
  else d.wrS WEB.TB_RATE.RATE (clampI (-ppmLimit) ppmLimit (toSigned 32 v))

/-- LINK_CFG.EN; in a low-power state the port trains at its end. -/
def portEnWrite (p : Fin 16) (on : Bool) (d : Dev) : Dev :=
  if !on then portDisable p d else if d.on PWR.STATUS.LP then d.wr (PORT.LINK_CFG.EN p) 1 else portEnable p d

/-- THERMn.CTL. -/
def thermCtlWrite (n : Fin 2) (v : Nat) (d : Dev) : Dev :=
  let on := (THERM.CTL.EN n).of v != 0
  let d1 := if !on then headDisable n d else if d.on PWR.STATUS.LP then d.wr (THERM.CTL.EN n) 1 else headEnable n d
  let inh := (THERM.CTL.SH_INHIBIT n).of v != 0
  if inh != d1.on (THERM.CTL.SH_INHIBIT n) then shInhibitWrite n inh d1 else d1

/-- HOST registers: sessions close when an address or the port is written or THP is turned off; a port turned off goes down. DEDUCED: a
new ROLE or DOMAIN of IEEE 1588 ends what was followed under the old one (log entry 75). `old` is the device before the write. -/
def hostWrite (a : Nat) (old d : Dev) : Dev :=
  let closeAll' (d : Dev) : Dev := (openSessions d).foldl dropSession d
  if a = HOST.IP_HA.IP.addr ∨ a = HOST.IP_HB.IP.addr ∨ a = HOST.UDP.THP_PORT.addr then closeAll' d
  else if a = HOST.CTL.HA_EN.addr then
    let d1 := if old.on HOST.CTL.THP_EN && !d.on HOST.CTL.THP_EN then closeAll' d else d
    let d2 := if old.on HOST.CTL.HA_EN && !d.on HOST.CTL.HA_EN then hostPortDown 0 d1 else d1
    if old.on HOST.CTL.HB_EN && !d.on HOST.CTL.HB_EN then hostPortDown 1 d2 else d2
  else if [HOST.PTP_CFG.ROLE, HOST.PTP_CFG.DOMAIN].any fun f => old.rd f != d.rd f then ptpLeave d
  else d

/-- The effect of the fields that plainWrite left. CTLE reads the peaking in use: a written one is used with ADAPT = 0 (R55, R81). -/
def wordEffect (a v : Nat) (old : Dev) (x : DM) : DM :=
  let (d, m) := x
  let n (base : Nat) : Nat := a / 4096 - base
  match (pageKind (a / 4096)).elim 0 PageKind.type with
  | 0x03 => if a = PWR.CTL.LP.addr then lpRequest (PWR.CTL.LP.of v) x else x
  | 0x04 =>
    match (List.range 4).find? fun k => a == (unitFld k).addr with
    | some k => (unitReset k v d, m)
    | none => x
  | 0x10 => if a = WEB.TB_RATE.RATE.addr then (tbRateWrite v d, m) else x
  | 0x11 =>
    let s := (trigSrc d).val
    if a = (ENC.FO_CFG.EN s).addr then (foRebase d, m) else x
  | 0x20 =>
    let p := Fin.ofNat 16 (n 0x20)
    if a = (PORT.LINK_CFG.EN p).addr then (portEnWrite p ((PORT.LINK_CFG.EN p).of v != 0) d, m) else x
  | 0x21 =>
    let p := n 0x30
    if a = (LANE.TX_EQ.POST p 0).addr then
      (d.wr (LANE.TX_EQ.POST p 0) (txPost (d.rd (LANE.TX_EQ.PRE p 0)) ((LANE.TX_EQ.POST p 0).of v)), m)
    else
      match (List.range 4).find? fun k => a == (LANE.RX_EQ.CTLE p k).addr with
      | some k => (if d.on (LANE.RX_EQ.ADAPT p k) then d else d.wr (LANE.RX_EQ.CTLE p k) ((LANE.RX_EQ.CTLE p k).of v), m)
      | none => x
  | 0x40 => if a = SEG.MIN_FREE.N.addr then (segShow d, m) else x
  | 0x30 => if a = (THERM.CTL.EN (n 0x50)).addr then (thermCtlWrite (Fin.ofNat 2 (n 0x50)) v d, m) else x
  | 0x50 =>
    let d1 := if a = ZCTL.JQ_TAIL.IDX.addr then jqTailWrite (ZCTL.JQ_TAIL.IDX.of v) d
      else if a = ZCTL.CQ_HEAD.IDX.addr then cqHeadWrite (ZCTL.CQ_HEAD.IDX.of v) d else d
    (archShow d1, m)
  | 0x58 => (hostWrite a old d, m)
  | 0x60 => if a = TWIN.CTL.EN.addr then (twinEnable (TWIN.CTL.EN.of v != 0) d, m) else x
  | 0x61 => if a = STRING.CFG.EN.addr then (stringEnable (STRING.CFG.EN.of v != 0) d, m) else x
  | 0x68 =>
    let k := Fin.ofNat 2 (n 0xC0)
    if a = (PADC.SEQ_CTL.RUN k).addr then (seqRun k ((PADC.SEQ_CTL.RUN k).of v != 0) d, m) else x
  | _ => x

/-- A register word written, its W1S bits apart. -/
def fieldsWrite (a v : Nat) (x : DM) : DM :=
  if sharedB a || deadTxEq a then x
  else wordEffect a v x.1 (plainWrite (effectFields a) a v x.1, x.2)

/-- A page word: a page that does not exist sets UNMAPPED, one in unit reset discards it. -/
def pageWrite' (a v : Nat) (act : DM → DM) (x : DM) : DM :=
  if !pageExists (a / 4096) then (unmapped x.1, x.2)
  else if pageHeld x.1 (a / 4096) then (wrDrop x.1, x.2)
  else act (fieldsWrite a v x)

/-- A window word (R321, R436). -/
def windowWriteChecked (who : Requester) (a v : Nat) (x : DM) : DM :=
  if !inWindow a then (unmapped x.1, x.2)
  else if hbmWindow a && x.1.on MEM.STATUS.DEGRADED then (memErr x.1, x.2)
  else windowWrite who a v x

end Sys2Proof.Machine
end

