-- ==== Sys2Proof/Machine/Profile.lean ====
section
/-! DEFINITION. Profiles and the table flash (R367 to R374), and HBM ready with the thermal banks reloaded (R288). -/

namespace Sys2Proof.Machine

def Dev.updProf (d : Dev) (g : Prof → Prof) : Dev := { d with prof := g d.prof }

/-! ## Headers and references (Tables 16.6 and 16.7) -/

/-- The first byte of profile `k`. -/
def profBase (k : Nat) : Nat := waBase + 256 * (64 + 96 * k)

def profImgLen (m : Memory) (k : Nat) : Nat := m.u16 (profBase k + 2)
def profRefs (m : Memory) (k : Nat) : Nat := m.u16 (profBase k + 4)
def profCrc (m : Memory) (k : Nat) : Nat := m.u32 (profBase k + 764)

def allZero (m : Memory) (a n : Nat) : Bool := (m.take a n).all fun b => b == 0

/-- The header rules. -/
def headerOk (m : Memory) (k : Nat) : Bool :=
  let b := profBase k
  let len := profImgLen m k
  let n := profRefs m k
  (m.byte b).toNat == 0x50 && (m.byte (b + 1)).toNat == 1 && len % 4 == 0 && decide (4 ≤ len ∧ len ≤ 23808 ∧ n ≤ 40) &&
    allZero m (b + 6) 2 && allZero m (b + 32 + 16 * n) (764 - (32 + 16 * n))

/-- The CRC over header and image. -/
def headerCrcOk (m : Memory) (k : Nat) : Bool :=
  crc32 (m.take (profBase k) 764 ++ m.take (profBase k + 768) (profImgLen m k)) == profCrc m k

/-- A table reference. -/
structure TblRef where
  kind : Nat
  unit : Nat
  ofs : Nat
  len : Nat
  crc : Nat
  deriving DecidableEq, Repr

def refAt (m : Memory) (k r : Nat) : TblRef :=
  let a := profBase k + 32 + 16 * r
  ⟨(m.byte a).toNat, (m.byte (a + 1)).toNat, m.u32 (a + 4), m.u32 (a + 8), m.u32 (a + 12)⟩

/-- The length that a NUC table's own header in the flash declares: header, nodes and 6 bytes a pixel. -/
def nucLen (m : Memory) (ofs : Nat) : Nat := 0x4000 + 6 * ofLeBytes (m.ftake (ofs + 2) 2) * ofLeBytes (m.ftake (ofs + 4) 2)

/-- The reference rules of Table 16.7. -/
def refOk (m : Memory) (q : TblRef) : Bool :=
  decide (q.ofs + q.len ≤ 2 ^ 32) &&
    ((q.kind == 1 && decide (q.unit < 16) && q.len == 148548) || (q.kind == 2 && decide (q.unit < 2) && q.len == nucLen m q.ofs) ||
      (q.kind == 3 && q.unit == 0 && q.len == 12556) || (q.kind == 4 && decide (q.unit < 16) && q.len == 1024))

/-- The bank-select field of a reference's unit, its BANK_BUSY, and the first byte of a bank. -/
def bankSel (kind unit : Nat) : Fld :=
  if kind = 1 then STAT.CORR_CTL.BANK (unit / 2) (unit % 2) else if kind = 2 then THERM.CTL.BANK unit
  else if kind = 3 then CLASS.CTL.BANK else VALVE.CFG.BANK unit
def bankBusyOf (kind unit : Nat) : Fld :=
  if kind = 1 then STAT.TBL_STAT.BANK_BUSY (unit / 2) (unit % 2) else if kind = 2 then THERM.TBL_STAT.BANK_BUSY unit
  else if kind = 3 then CLASS.TBL_STAT.BANK_BUSY else VALVE.TBL_STAT.BANK_BUSY unit
def bankAt (kind unit bank : Nat) : Nat :=
  if kind = 1 then bankBase unit bank else if kind = 2 then nucBase unit bank
  else if kind = 3 then 0x06100000 + 0x4000 * bank else 0x07000000 + 0x1000 * unit + 0x400 * bank

/-! ## The image (R369) -/

/-- A word of a record may be named by an image. -/
def imageWordOk (a : Nat) : Bool :=
  let p := a / 4096
  let o := a % 4096
  !([Page.RST, Page.NVS, Page.PROF, Page.MGMT].contains p) && !decide (o < 0x14) && !decide (0x18 ≤ o ∧ o < 0x40) &&
    !(p == Page.WEB && decide (0xA0 ≤ o ∧ o < 0xD0))

/-- The image's words read as records: the writes (address, word), or the index of the word at which it is refused. -/
def imageParse (ws : List Nat) : Nat → Nat → List (Nat × Nat) → Except Nat (List (Nat × Nat))
  | 0, i, _ => .error i
  | fuel + 1, i, acc =>
    match ws.drop i with
    | [] => .error i
    | c :: rest =>
      let n := c / 2 ^ 24
      let a := c % 2 ^ 24
      if c = 0 then
        match rest.findIdx? fun w => w != 0 with
        | some j => .error (i + 1 + j)
        | none => .ok acc.reverse
      else if n = 0 ∨ a % 4 ≠ 0 ∨ rest.length < n ∨ (a + 4 * (n - 1)) / 4096 ≠ a / 4096 then .error i
      else
        let as := (List.range n).map fun t => a + 4 * t
        if as.all imageWordOk then imageParse ws fuel (i + 1 + n) ((as.zip rest).reverse ++ acc) else .error i

/-- The 32-bit words of a range of the working array. -/
def wordsAt (m : Memory) (a bytes : Nat) : List Nat := (List.range (bytes / 4)).map fun t => m.u32 (a + 4 * t)

/-- A word with its W1S, W1C and WO fields forced to 0. -/
def imageWord (a v : Nat) : Nat :=
  (wordFields a).foldl (fun n f => if f.acc = .rw ∨ f.acc = .rws then n + bitsOf v f.lo f.width * 2 ^ f.lo else n) 0

/-- An image's words written. -/
def imageWrite (ws : List (Nat × Nat)) (x : DM) : DM := ws.foldl (fun x w => pageWrite' w.1 (imageWord w.1 w.2) id x) x

/-! ## The load (R371, R372) -/

/-- A load runs. -/
def loading (d : Dev) : Bool := d.rd PROF.STATUS.STATE == 1

/-- A load fails: the staged writes of the pages it has written are discarded. -/
def loadFail (err detail : Nat) (pages : List Nat) (d : Dev) : Dev :=
  let d1 := ((d.wr PROF.STATUS.STATE 3).wr PROF.STATUS.ERR err).wrSat PROF.ERR_DETAIL.INDEX detail
  (pages.foldl (fun d p => stageDiscard p d) (d1.updProf fun p => { p with verifying := false })).irq Page.PROF PROF.irq.LOAD_FAIL

/-- A load of profile `k` begins: its header and CRC are checked (Table 16.8, step 1). ERR of the base image stands beside a start
load. -/
def loadStart (k : Nat) (start : Bool) (m : Memory) (d : Dev) : Dev :=
  if loading d then d
  else
    let d0 := if start then d else (d.wr PROF.STATUS.ERR 0).wr PROF.ERR_DETAIL.INDEX 0
    let d1 := (d0.wr PROF.STATUS.STATE 1).wr PROF.STATUS.SKIPPED 0
    let d2 := d1.updProf fun p => { p with k := k, next := 0, start := start, verifying := false, filled := [] }
    let d2 := d2.start .bank
    if !headerOk m k then loadFail 1 0 [] d2 else if !headerCrcOk m k then loadFail 2 0 [] d2 else d2

/-- PROFILE_LOAD: the number comes from SEL, or from the pins. -/
def profileLoad (m : Memory) (d : Dev) : Dev :=
  loadStart (if d.on PROF.CTL.USE_PINS then d.rd PROF.STATUS.PINS else d.rd PROF.CTL.SEL) false m d

/-- The reference that the load is at. -/
def curRef (m : Memory) (d : Dev) : Option TblRef :=
  if loading d && !d.prof.verifying && decide (d.prof.next < profRefs m d.prof.k) then some (refAt m d.prof.k d.prof.next) else none

def refNext (d : Dev) : Dev := (d.updProf fun p => { p with next := p.next + 1 }).start .bank

/-- A table copied from the flash to a bank, and whether its CRC fits; the bytes stand there either way. -/
def tableCopy (q : TblRef) (bank : Nat) (m : Memory) : Bool × Memory :=
  let bs := m.ftake q.ofs q.len
  (crc32 bs == q.crc, m.merge (bankAt q.kind q.unit bank) bs)

/-- PROFILE_REF_COPIED: the reference's table goes to the bank that is not live (Table 16.8, step 2). It waits for BANK_BUSY, and for a
check of the head's banks that still runs. -/
def refCopied (x : DM) : DM :=
  let (d, m) := x
  match curRef m d with
  | none => x
  | some q =>
    if q.kind = 2 ∧ d.on MEM.STATUS.DEGRADED then (refNext (d.wr PROF.STATUS.SKIPPED 1), m)
    else if !refOk m q then (loadFail 4 d.prof.next [] d, m)
    else if d.on (bankBusyOf q.kind q.unit) ∨ (q.kind = 2 ∧ d.on (THERM.TBL_STAT.VBUSY q.unit)) then x
    else
      let bank := 1 - d.rd (bankSel q.kind q.unit)
      let (ok, m1) := tableCopy q bank m
      if !ok then (loadFail 4 d.prof.next [] d, m1)
      else
        let d1 := d.updProf fun p => { p with filled := p.filled ++ [(q.kind, q.unit, bank)] }
        if q.kind = 2 then
          let d2 := nucVerify (Fin.ofNat 2 q.unit) (Fin.ofNat 2 bank) (d1.wr (verifiedFld q.unit bank) 0)
          (d2.updProf fun p => { p with verifying := true }, m1)
        else (refNext d1, m1)

/-- BANK_BUSY_TIMEOUT: 100 ms of waiting for the reference's bank. -/
def bankBusyTimeout (m : Memory) (d : Dev) : Dev :=
  match curRef m d with
  | some q => if d.on (bankBusyOf q.kind q.unit) && d.past .bank (100 * oneMs) then loadFail 5 d.prof.next [] d else d
  | none => d

/-- NUC_VERIFY_DONE; a load that awaits the result goes on, or fails. -/
def verifyDone (n : Fin 2) (m : Memory) (d : Dev) : Dev :=
  let d1 := nucVerifyDone n m d
  match d.heads[n].verify.head?, d.prof.filled.getLast? with
  | some b, some (_, u, bank) =>
    if d.prof.verifying && u == n.val && bank == b then
      if d1.on (verifiedFld n b) then refNext (d1.updProf fun p => { p with verifying := false }) else loadFail 7 d.prof.next [] d1
    else d1
  | _, _ => d1

/-- No epoch has committed since reset. -/
def beforeEpochs (d : Dev) : Bool := d.ep.sets.isEmpty && d.rd WEB.EPOCH_ID.LIVE_ID == 0

/-- The staged set of the whole module checked and made live without an epoch; `none` where the check fails. -/
def applyStaged (m : Memory) (d : Dev) : Bool × Dev :=
  let l := d.ep.next
  let (bad, d1) := checkAll m l d
  if bad then (false, d1) else (true, makeLive m l d1.gen.nextWln d.now d1 (d1.updEp fun e => { e with next := [] }))

/-- The load is complete (Table 16.8, step 4). -/
def loadDone (m : Memory) (d : Dev) : Dev :=
  let d1 := ((d.wr PROF.STATUS.STATE 2).wr PROF.STATUS.LOADED d.prof.k).wr PROF.STATUS.LOADED_VALID 1
  let d2 := (d1.wr PROF.LOADED_CRC.CRC (profCrc m d.prof.k)).irq Page.PROF PROF.irq.LOAD_DONE
  if d2.on PROF.CTL.ARM && !d2.prof.start then
    let e := d2.rd2 WEB.WLN_LO.WLN WEB.WLN_HI.WLN + d2.rd PROF.LEAD.LINES
    let refused := (armRefusal d2 e).isSome
    let d3 := armAt m e d2
    if refused then d3.wr PROF.STATUS.ERR 6 else d3
  else d2

/-- PROFILE_IMAGE_APPLY: image words and bank selects in one step, then the end of the load (Table 16.8, steps 3 and 4). -/
def imageApply (x : DM) : DM :=
  let (d, m) := x
  let k := d.prof.k
  if !loading d || d.prof.verifying || decide (d.prof.next < profRefs m k) then x
  else
    let ws := wordsAt m (profBase k + 768) (profImgLen m k)
    match imageParse ws (ws.length + 1) 0 [] with
    | .error i => (loadFail 3 i [] d, m)
    | .ok writes =>
      let y := imageWrite writes x
      let d1 := d.prof.filled.foldl (fun d f => d.stageWrite (bankSel f.1 f.2.1) f.2.2) y.1
      let pages := writes.map (fun w => w.1 / 4096) ++ d.prof.filled.map fun f => (bankSel f.1 f.2.1).page
      if beforeEpochs d1 then
        let r := applyStaged y.2 d1
        if r.1 then (loadDone y.2 r.2, y.2) else (loadFail 9 0 pages r.2, y.2)
      else (loadDone y.2 d1, y.2)

/-- What follows the start load (Table 19.2, step 9; R407): the re-plan and the converters. -/
def startTail (x : DM) : DM :=
  let y := planRun true (x.1.updPw fun p => { p with booting := false }, x.2)
  (padcKickAll y.1, y.2)

/-- A step of a load; the start goes on when the start load has ended. -/
def loadStep (g : DM → DM) (x : DM) : DM :=
  let y := g x
  if y.1.pw.booting && y.1.prof.start && loading x.1 && !loading y.1 then startTail y else y

/-- The start load of R373; it begins when the stack is trained, or has failed to train. -/
def startLoad (x : DM) : DM :=
  let (d, m) := x
  if !d.pw.booting || loading d then x
  else if d.rd PROF.BOOT.SRC = 2 then startTail x
  else
    let k := if d.rd PROF.BOOT.SRC = 1 then d.rd PROF.BOOT.VAL else d.rd PROF.STATUS.PINS
    let d1 := loadStart k true m d
    if loading d1 then (d1, m) else startTail (d1, m)

/-! ## The table flash (R374) -/

/-- An address whose content is held in HBM. -/
def inHbm (a : Nat) : Bool := decide (0x400000000 ≤ a) || hbmWindow a

/-- A byte of the data space as the module's own copies read it. -/
def dataByte (x : DM) (addr : Nat) : Byte :=
  let a := homeAddr addr
  let part (w : Nat) : Byte := BitVec.ofNat 8 (w / 256 ^ (a % 4))
  if a < 0x01000000 then part (regWord x.1 (a / 4 * 4))
  else
    match computedWord x.1 (a / 4 * 4) with
    | some w => part w
    | none => x.2.byte a

/-- Part of a window word of 64 bits written by the window's rules: read, corrected and merged, dropped where it cannot be read
(R277). -/
def windowPiece (a : Nat) (bs : List Byte) (x : DM) : DM :=
  let w := a / 8 * 8
  let whole := bs.length = 8
  let y := if whole then x else readWord mgmtReader x a
  if !whole && y.2.lost a then y
  else
    let old := (y.2.fixWord a).take w 8
    let new := old.take (a - w) ++ bs ++ old.drop (a - w + bs.length)
    let half (k : Nat) (z : DM) : DM :=
      if a < w + 4 * (k + 1) ∧ w + 4 * k < a + bs.length then windowStore (w + 4 * k) (ofLeBytes ((new.drop (4 * k)).take 4)) z else z
    half 1 (half 0 (y.1, y.2.fixWord a))

/-- Bytes written to the data space by the rules of each window, word after word; a register page takes none. `fuel` bounds the
words. -/
def dataPut : Nat → Nat → List Byte → DM → DM
  | 0, _, _, x => x
  | fuel + 1, addr, bs, x =>
    if bs.isEmpty then x
    else
      let a := homeAddr addr
      let k := 8 - a % 8
      let y := if a < 0x01000000 then x
        else if a < 0x10000000 then windowPiece a (bs.take k) x
        else mergeWrite mgmtReader x a (bs.take k)
      dataPut fuel (addr + k) (bs.drop k) y

/-- A sector or range that the running load still reads. -/
def loadReads (m : Memory) (d : Dev) (ofs len : Nat) : Bool :=
  match curRef m d with
  | some q => decide (q.ofs < ofs + len ∧ ofs < q.ofs + q.len)
  | none => false

/-- A flash operation that fails. -/
def flashErr (cause : Nat) (d : Dev) : Dev :=
  ((d.wr PROF.FL_STAT.ERR 1).wr PROF.FL_STAT.CAUSE cause).irq Page.PROF PROF.irq.FL_ERR

/-- Why an operation cannot run; `none` when it can. The causes are tried in this order: 1, 5, 4, 6, 2. -/
def flashCause (x : DM) (op src dst len : Nat) : Option Nat :=
  let (d, m) := x
  if op = 2 then
    if dst % 65536 ≠ 0 then some 1 else if loadReads m d dst 65536 then some 6 else none
  else if op = 1 ∧ (dst % 256 ≠ 0 ∨ len % 256 ≠ 0) then some 1
  else if 2 ^ 32 < dst + len then some 5
  else if d.on MEM.STATUS.DEGRADED && (inHbm src || inHbm (src + len - 1)) then some 4
  else if op = 1 ∧ loadReads m d dst len then some 6
  else if op = 1 ∧ !(m.ftake dst len).all fun b => b == Memory.erased then some 2
  else none

/-- FLASH_PROG, FLASH_ERASE and FLASH_READ: ignored while BUSY. -/
def flashStart (op : Nat) (x : DM) : DM :=
  let d := x.1
  let src := d.rd2 PROF.FL_SRC_LO.ADDR PROF.FL_SRC_HI.ADDR
  let dst := d.rd PROF.FL_DST.OFS
  let len := d.rd PROF.FL_LEN.BYTES
  if d.on PROF.FL_STAT.BUSY then x
  else
    match flashCause x op src dst len with
    | some c => (flashErr c d, x.2)
    | none => ((d.wr PROF.FL_STAT.BUSY 1).updProf fun p => { p with flash := op, flSrc := src, flDst := dst, flLen := len }, x.2)

/-- FLASH_OP_DONE: the operation's effect; `badReadBack` says that the cells read back other than written. -/
def flashDone (badReadBack : Bool) (x : DM) : DM :=
  let p := x.1.prof
  if !x.1.on PROF.FL_STAT.BUSY then x
  else
    let d := (x.1.wr PROF.FL_STAT.BUSY 0).updProf fun p => { p with flash := 0 }
    let ok (d : Dev) : Dev := (d.wr PROF.FL_STAT.DONE 1).irq Page.PROF PROF.irq.FL_DONE
    if p.flash = 2 then (ok d, x.2.ferase p.flDst 65536)
    else if p.flash = 1 then
      let y := readRange (d, x.2) (homeAddr p.flSrc) p.flLen mgmtReader
      let bs := (List.range p.flLen).map fun t => dataByte (y.2.1, y.1) (p.flSrc + t)
      (if badReadBack then flashErr 3 y.2.1 else ok y.2.1, y.2.2.fwrite p.flDst bs)
    else
      let y := dataPut (p.flLen / 8 + 2) p.flSrc (x.2.ftake p.flDst p.flLen) (d, x.2)
      (ok y.1, y.2)

/-! ## HBM ready (R288) -/

/-- The thermal banks of the profile in force go from the table flash to the live NUC banks. -/
def reloadBanks (x : DM) : DM :=
  if !x.1.on PROF.STATUS.LOADED_VALID then x
  else
    let k := x.1.rd PROF.STATUS.LOADED
    (List.range (profRefs x.2 k)).foldl (fun (x : DM) r =>
      let q := refAt x.2 k r
      if q.kind ≠ 2 || !refOk x.2 q then x
      else
        let bank := x.1.rd (THERM.CTL.BANK q.unit)
        let (ok, m) := tableCopy q bank x.2
        let n := Fin.ofNat 2 q.unit
        if ok then (showU m (x.1.wrB (verifiedFld q.unit bank) (nucGood m (nucBase q.unit bank))) n, m) else (x.1, m)) x

/-- HBM is trained and zero-filled: what was checked in it is gone. -/
def hbmUp (x : DM) : DM :=
  let d1 := (List.range 2).foldl (fun d n => (d.wr (verifiedFld n 0) 0).wr (verifiedFld n 1) 0) x.1
  let y := reloadBanks (d1, hbmLost x.2)
  ((y.1.wr MEM.STATUS.HBM_READY 1).irq Page.MEM MEM.irq.HBM_READY, y.2)

/-- A training that fails: logged again in degraded mode, else cause 1. -/
def hbmDown (d : Dev) : Dev :=
  if d.on MEM.STATUS.DEGRADED then d.errPut ET.degraded 0 none 0 ⟨9, none, none, false⟩ 0 else degradeCause d 1

/-- HBM_READY: a training of the stack ends; at a start the start load follows. -/
def hbmTrained (ok : Bool) (x : DM) : DM :=
  if !x.1.integ.recovering then x
  else
    let d := x.1.updInteg fun i => { i with recovering := false }
    startLoad (if ok then hbmUp (d, x.2) else (hbmDown d, x.2))

/-! ## Meanings -/

def execProfileLoad (s : State) : Host.Outcome State Fault Refusal := s.onDevM profileLoad
def execProfileRefCopied (s : State) : Host.Outcome State Fault Refusal := s.onBoth (loadStep refCopied)
def execBankBusyTimeout (s : State) : Host.Outcome State Fault Refusal :=
  s.onBoth (loadStep fun x => (bankBusyTimeout x.2 x.1, x.2))
def execNucVerifyDone (n : Fin 2) (s : State) : Host.Outcome State Fault Refusal :=
  s.onBoth (loadStep fun x => (verifyDone n x.2 x.1, x.2))
def execProfileImageApply (s : State) : Host.Outcome State Fault Refusal := s.onBoth (loadStep imageApply)
def execFlashErase (s : State) : Host.Outcome State Fault Refusal := s.onBoth (flashStart 2)
def execFlashProg (s : State) : Host.Outcome State Fault Refusal := s.onBoth (flashStart 1)
def execFlashRead (s : State) : Host.Outcome State Fault Refusal := s.onBoth (flashStart 3)
def execHbmReady (ok : Bool) (s : State) : Host.Outcome State Fault Refusal := s.onBoth (hbmTrained ok)
def execFlashOpDone (badReadBack : Bool) (s : State) : Host.Outcome State Fault Refusal := s.onBoth (flashDone badReadBack)

end Sys2Proof.Machine
end

