-- ==== Sys2Proof/Machine/Start.lean ====
section
/-! DEFINITION. Starts and restarts (R360, R370, R373, R406, R418, R421 to R424, R431), and how a module goes down once the twin has
answered or its stores have closed (R333, R358, R400). -/

namespace Sys2Proof.Machine

/-! ## The base image (R350, R370) -/

/-- Page 0 of the working array: BOOT_SRC, BOOT_PROF. -/
def bootSrc (m : Memory) : Nat := (m.byte (waBase + 2)).toNat
def bootProf (m : Memory) : Nat := (m.byte (waBase + 3)).toNat % 8

/-- BOOT shows page 0; source 3 acts as 0. -/
def bootShow (m : Memory) (d : Dev) : Dev :=
  (d.wr PROF.BOOT.SRC (if bootSrc m = 1 then 1 else if bootSrc m = 2 then 2 else 0)).wr PROF.BOOT.VAL (bootProf m)

/-- The base image applied: nothing when BASE_LEN is 0; ERR 8 when its CRC fails, ERR 3 when R369 refuses it. -/
def baseImage (x : DM) : DM :=
  let (d, m) := x
  let len := m.u32 (waBase + 4)
  let a := waBase + 256
  if len = 0 then x
  else if 1792 < len ∨ crc32 (m.take a len) ≠ m.u32 (waBase + 8) then (d.wr PROF.STATUS.ERR 8, m)
  else
    match imageParse (wordsAt m a len) (len / 4 + 1) 0 [] with
    | .error i => ((d.wr PROF.STATUS.ERR 3).wrSat PROF.ERR_DETAIL.INDEX i, m)
    | .ok ws => imageWrite ws x

/-- With no profile to load, the check and copy of R372 end the base image. -/
def baseApply (x : DM) : DM :=
  if x.1.rd PROF.BOOT.SRC ≠ 2 then x
  else
    let r := applyStaged x.2 x.1
    (if r.1 then r.2 else r.2.wr PROF.STATUS.ERR 9, x.2)

/-! ## Row repair (R406) -/

def rowEntry (m : Memory) (i : Nat) : Nat := m.u32 (waBase + 0x3E000 + 4 * i)

/-- The entries listed: up to the last one that is not zero. -/
def rowsListed (m : Memory) : Nat := (List.range 1024).foldl (fun n i => if rowEntry m i = 0 then n else i + 1) 0

/-- One listed row without REPAIRED is mapped to a spare row. -/
def rowRepair (x : DM) (i : Nat) : DM :=
  let e := rowEntry x.2 i
  if bitOf e 31 then x
  else
    let y := coreWrite x (waBase + 0x3E000 + 4 * i) (leBytes 4 (e % 2 ^ 28 + 2 ^ 31))
    evLog (y.1.irq Page.AGE AGE.irq.ROW_REPAIRED, y.2) .rowRepaired 0 (e % 2 ^ 28)

/-- The row-repair list at a start. -/
def rowsRepair (x : DM) : DM :=
  let n := rowsListed x.2
  let y := (List.range n).foldl rowRepair x
  ((y.1.wr AGE.REPAIR.LISTED n).wr AGE.REPAIR.REPAIRED n, y.2)

/-! ## The start (Table 19.2) -/

/-- Persistent counters that the start itself counts, by its cause (RST.CAUSE). -/
def causeCounters (cause : Nat) : List Fld :=
  (if cause < 5 then [RST.POWER_ON_CNT.CNT] else [RST.SYS_CNT.CNT]) ++
    (if cause = 4 then [THM.HW_TRIP_CNT.CNT] else if cause = 6 then [RST.WDT_CNT.CNT] else if cause = 7 then [RST.LOCKSTEP_CNT.CNT]
     else if cause = 9 then [CLK.ROOT_UNLOCK_CNT.CNT] else if cause = 10 then [CLK.REF_LOSS_CNT.CNT] else [])

/-- The patch image: applied when its CRC and its ROM revision fit (`patch` names its revision). -/
def patchApply (patch : Option Nat) (x : DM) : DM :=
  match patch with
  | some rev => (x.1.wr SYS.FW_PATCH.REV rev, x.2)
  | none => evLog x .patchRej 0 0

/-- End of reset in Table 15.1: alone, or holding the outputs in HELLO. -/
def pairStart (d : Dev) : Dev := if d.on TWIN.CTL.EN then sayHello (archShow (setPair d 1)) else assertOut d

/-- Steps 3 to 7 of Table 19.2: what is sampled, the clocks, the store, the patch and base images, pairing, row repair and the
beginning of HBM training. Steps 8 and 9 follow HBM_READY. -/
def startUp (cause : Nat) (info : StartInfo) (x : DM) : DM :=
  let d0 := ((x.1.wr PROF.STATUS.PINS info.prof).wrB TWIN.STATUS.SIDE info.sideB).wr RST.CAUSE.VAL cause
  let d1 := [CLK.STATUS.REF_OK, CLK.STATUS.ROOT_LOCK, CLK.STATUS.LANE_LOCK, CLK.STATUS.HBM_LOCK].foldl (fun d f => d.wr f 1) d0
  let y := storeRecover info.unstable (d1, x.2)
  let z := patchApply info.patch ((causeCounters cause).foldl Dev.inc y.1, y.2)
  let b := baseApply (baseImage (bootShow z.2 z.1, z.2))
  let d2 := pairStart (b.1.updPw fun p => { p with started := true, booting := true })
  rowsRepair (d2.updInteg fun i => { i with recovering := true }, b.2)

/-- A power-on start: the logic rails rise in the order of Table 19.1, with mains in tolerance. -/
def powerOn (cause : Nat) (info : StartInfo) (x : DM) : DM :=
  let d := (([v48, 0, 1, 2, 3, 4, 5] : List Nat)).foldl (fun (d : Dev) k => d.emit (.rail k true)) (logicReset x.1)
  startUp cause info (((d.wr PWR.STATUS.MAINS_OK 1).wr PWR.STATUS.SHED 0).updPw fun p => { p with tolAt := some 0 }, x.2)

/-- POWER_ON_START: from the first power-up, or after the rails were off. -/
def powerOnStart (info : StartInfo) (x : DM) : DM :=
  match x.1.pw.down with
  | some c => if x.1.pw.held then x else powerOn c info x
  | none => if x.1.pw.started then x else powerOn 0 info x

/-- SUPERVISOR_RESTART (R431), 300 s after the rails went: the board thermistor (1/16 °C) reads below 70 °C; after three restarts
within an hour mains must have been absent. -/
def supervisorRestart (sec : Nat) (board : Int) (mainsAbsent : Bool) (info : StartInfo) (x : DM) : DM :=
  match x.1.pw.down with
  | none => x
  | some c =>
    let last := x.1.pw.restarts.filter fun t => decide (sec < t + 3600)
    if x.1.pw.held || c < 2 || decide (70 * 16 ≤ board) || (decide (3 ≤ last.length) && !mainsAbsent) then x
    else
      let rs := if mainsAbsent then [sec] else sec :: last
      powerOn c info (x.1.updPw fun p => { p with restarts := rs }, x.2)

/-- A system reset of a cause: actuators shed, TAKE_OUT released, FAULT open, then all logic, then the start from step 4. -/
def sysRestart (cause : Nat) (info : StartInfo) (x : DM) : DM :=
  let y := interruptStore x
  startUp cause info (logicReset (openFault (releaseTakeOut (shedActuators y.1))), y.2.powerLoss)

/-- REFCLK_RETURN: present for 10 ms. -/
def refclkReturn (info : StartInfo) (x : DM) : DM := if x.1.pw.held then startUp 10 info (logicReset x.1, x.2) else x

/-! ## Going down (R358, R400, R422, R424) -/

/-- A module that waits for its stores goes on when they have closed. -/
def goOn (x : DM) : DM :=
  match x.1.pw.going with
  | .windup c => if x.1.nvs.run.isNone && !x.1.nvs.windup then railsOff c x else x
  | .sysStores true info =>
    if x.1.nvs.run.isSome then x
    else
      let y := commandStore false false (x.1.updPw fun p => { p with going := .sysStores false info }, x.2)
      if y.1.nvs.run.isNone then sysRestart 5 info y else y
  | .sysStores false info => if x.1.nvs.run.isNone then sysRestart 5 info x else x
  | _ => x

/-- STORE_PAGE_WRITTEN. -/
def storePageWritten (x : DM) : DM := goOn (storePage x)

/-- SYS_RESET (R424). -/
def sysReset (info : StartInfo) (x : DM) : DM :=
  match x.1.pw.going with
  | .no => goOn (x.1.updPw fun p => { p with going := .sysStores true info }, x.2)
  | _ => x

/-- The gate has passed, REFUSE has come, or 1 ms has: the module goes on. -/
def proceed (x : DM) : DM :=
  match x.1.pw.going with
  | .yielding none => goOn (shedAndWind 3 x)
  | .yielding (some info) => sysRestart 9 info x
  | _ => x

/-- ROOT_PLL_UNLOCK: shed, no more triggers, and YIELD with up to 1 ms for the gate; then a system reset. -/
def rootPllUnlock (info : StartInfo) (x : DM) : DM :=
  let d1 := (x.1.wr CLK.STATUS.ROOT_LOCK 0).inc CLK.ROOT_UNLOCK_CNT.CNT
  let d2 := (shedActuators d1).wr TRIG.STAT.RUNNING 0
  if mayYield d2 true then ((d2.toStandby .yield []).updPw fun p => { p with going := .yielding (some info) }, x.2)
  else sysRestart 9 info (d2, x.2)

/-- TAKE_IN_CHANGE; a gate lost lets a module that yields go on. A module without power only sees the line. -/
def takeInChange (level : Bool) (x : DM) : DM :=
  if !x.1.up then (x.1.wrB TWIN.STATUS.TAKE_IN level, x.2)
  else
    let d := takeIn level x.1
    if pairState x.1 = 3 ∧ pairState d = 5 then proceed (d, x.2) else (d, x.2)

/-- TWIN_REFUSE: the standby does not take over. -/
def twinRefuse (x : DM) : DM := proceed (if x.1.hasStandby then x.1.irq Page.TWIN TWIN.irq.YIELD_REFUSED else x.1, x.2)

/-- DEGRADED_ENTRY with the yield of R333. -/
def degradedEntry (x : DM) : DM :=
  let y := degradedEnter x
  if x.1.integ.degWait.isSome && mayYield y.1 (y.1.on TWIN.CFG.YIELD_DEG && y.1.twin.hbm) then (y.1.toStandby .yield [], y.2) else y

/-- HW_TRIP, gone on with when nothing is to be stored. -/
def hwTripGo (coresRun : Bool) (x : DM) : DM := goOn (hwTrip coresRun x)

/-- TEMP_SAMPLE, gone on with when a shut-down finds nothing to store. -/
def tempSampleGo (temps : List Int) (rail : Nat) (meas : PowerMeas) (x : DM) : DM := goOn (tempSample temps rail meas x)

/-! ## Meanings -/

def execTempSample (temps : List Int) (rail : Nat) (meas : PowerMeas) (s : State) : Host.Outcome State Fault Refusal :=
  s.onBoth (tempSampleGo temps rail meas)

def execPowerOnStart (info : StartInfo) (s : State) : Host.Outcome State Fault Refusal := s.onAny (powerOnStart info)
def execSupervisorRestart (sec : Nat) (board : Int) (mainsAbsent : Bool) (info : StartInfo) (s : State) : Host.Outcome State Fault Refusal :=
  s.onAny (supervisorRestart sec board mainsAbsent info)
def execRefclkReturn (info : StartInfo) (s : State) : Host.Outcome State Fault Refusal := s.onAny (refclkReturn info)
def execStorePageWritten (s : State) : Host.Outcome State Fault Refusal := s.onBoth storePageWritten
def execSysReset (info : StartInfo) (s : State) : Host.Outcome State Fault Refusal := s.onBoth (sysReset info)
def execWatchdogExpiry (info : StartInfo) (s : State) : Host.Outcome State Fault Refusal := s.onBoth (sysRestart 6 info)
def execLockstepMismatch (info : StartInfo) (s : State) : Host.Outcome State Fault Refusal := s.onBoth (sysRestart 7 info)
def execMgmtMemoryUe (info : StartInfo) (s : State) : Host.Outcome State Fault Refusal := s.onBoth (sysRestart 8 info)
def execRootPllUnlock (info : StartInfo) (s : State) : Host.Outcome State Fault Refusal := s.onBoth (rootPllUnlock info)
def execShutdownProceed (s : State) : Host.Outcome State Fault Refusal := s.onBoth proceed
def execTakeInChange (level : Bool) (s : State) : Host.Outcome State Fault Refusal := s.onAny (takeInChange level)
def execTwinRefuse (s : State) : Host.Outcome State Fault Refusal := s.onBoth twinRefuse
def execDegradedEntry (s : State) : Host.Outcome State Fault Refusal := s.onBoth degradedEntry
def execHwTrip (coresRun : Bool) (s : State) : Host.Outcome State Fault Refusal := s.onBoth (hwTripGo coresRun)

end Sys2Proof.Machine
end

