-- ==== Sys2Proof/Machine/Access.lean ====
section
/-! DEFINITION. Register accesses whole (R22, R300, R301, R323, R435 to R440, R445): a written word with its W1S actions, THP register and memory
access, the SPI master's host transfers, interrupt clears, read locks, and the cages (R447). -/

namespace Sys2Proof.Machine

/-! ## The SPI master (R322, R323) -/

/-- MST_GO on a select: ignored while BUSY, refused on a select that an enabled head owns. -/
def mstGo (sel : Fin 8) (d : Dev) : Dev :=
  if d.on MGMT.MST_STAT.BUSY then d
  else if (List.range 2).any fun n => d.on (THERM.CTL.EN n) && d.rd (THERM.BIAS.CS n) == sel.val then d.wr MGMT.MST_STAT.OWNED 1
  else
    let run : MstRun := ⟨sel, d.rd (MGMT.MST_SEL.BITS sel), d.rd MGMT.MST_TX.DATA, biasWaits d⟩
    { d.wr MGMT.MST_STAT.BUSY 1 with spi := { d.spi with mst := some run } }

/-- MST_TRANSFER_DONE with the bits received; a host transfer that waits for a bias transfer has not run. -/
def mstDone (received : Nat) (d : Dev) : Dev :=
  match d.spi.mst with
  | none => d
  | some t =>
    if t.waits then d
    else
      let d1 := ({ d with spi := { d.spi with mst := none } }).spiSend t.sel t.bits (t.data % 2 ^ t.bits)
      let d2 := (d1.wr MGMT.MST_RX.DATA (received % 2 ^ t.bits)).inc MGMT.MST_XFER_CNT.CNT
      ((d2.wr MGMT.MST_STAT.BUSY 0).wr MGMT.MST_STAT.DONE 1).irq Page.MGMT MGMT.irq.MST_DONE

/-! ## W1S actions -/

/-- A W1S field with what writing 1 does. -/
abbrev Action := Fld × (DM → DM)

def onFst (g : Dev → Dev) (x : DM) : DM := (g x.1, x.2)

/-- What a system reset by RST.CTL.SYS samples: the levels it sampled before (log entry 23). -/
def sameInfo (d : Dev) : StartInfo :=
  ⟨d.on TWIN.STATUS.SIDE, Fin.ofNat 8 (d.rd PROF.STATUS.PINS), if d.on SYS.FW_PATCH.REV then some (d.rd SYS.FW_PATCH.REV) else none, []⟩

/-- The actions of a page of a type, where `v` is the word written and `n` the instance. -/
def pageActions (type n v : Nat) : List Action :=
  let p : Fin 16 := Fin.ofNat 16 n
  let h : Fin 2 := Fin.ofNat 2 n
  match type with
  | 0x04 =>
    if RST.CTL.KEY.of v = 0xA5 then [(RST.CTL.INSP, inspReset), (RST.CTL.SYS, fun x => sysReset (sameInfo x.1) x)] else []
  | 0x06 => [(AGE.CTL.PLAN_NOW, planRun false)]
  | 0x07 => [(NVS.CTL.STORE, storeCmd), (NVS.CTL.SCAN_NOW, onFst scanStart)]
  | 0x08 =>
    [(PROF.CTL.LOAD, fun x => (profileLoad x.2 x.1, x.2)), (PROF.FL_CTL.PROG, flashStart 1), (PROF.FL_CTL.ERASE, flashStart 2),
     (PROF.FL_CTL.READ, flashStart 3)]
  | 0x09 => [(MGMT.MST_CTL.GO, onFst (mstGo (Fin.ofNat 8 (MGMT.MST_CTL.SEL.of v))))]
  | 0x0a => [(MEM.CTL.DEGRADE, onFst degrade), (MEM.CTL.RECOVER, onFst recover)]
  | 0x0b => [(FAB.CLEAR.FREE_MIN, onFst fun d => d.wr FAB.FREE_MIN.N (d.rd FAB.TOK_STAT0.FREE))]
  | 0x10 =>
    [(WEB.TB_CTL.STEP, onFst tbStep), (WEB.EPOCH_CTL.CANCEL, onFst cancel), (WEB.EPOCH_CTL.ARM, fun x => (arm x.2 x.1, x.2)),
     (WEB.SNAP_CTL.REQ, onFst snapReq), (WEB.SNAP_CTL.NEXT, onFst snapNext), (WEB.SNAP_CTL.RELEASE, onFst snapRelease)]
  | 0x11 => [(ENC.LATCH_CTL.SW n, onFst (latchSw (Fin.ofNat 4 n)))]
  | 0x20 => [(PORT.LINK_CFG.RETRAIN n, onFst (retrain p)), (PORT.CR_CTL.GO n, onFst (crGo p))]
  | 0x28 =>
    [(PIPE.CLEAR.IL_WAIT_MAX n, onFst fun d => d.wr (PIPE.IL_WAIT_MAX.CYCLES n) 0),
     (PIPE.CLEAR.MR_RES_MAX n, onFst fun d => d.wr (PIPE.MR_RES_MAX.NS n) 0)]
  | 0x29 => (List.range 2).map fun j => (STAT.SET_REQ.GO n j, setReqGo (Fin.ofNat 16 (2 * n + j)))
  | 0x30 =>
    [(THERM.CTL.RESTART n, onFst (headRestart h)), (THERM.CTL.SH_NOW n, onFst (shNow h)), (THERM.CTL.CLR_DYN n, onFst (clrDyn h)),
     (THERM.TBL_CTL.VERIFY0 n, onFst (nucVerify h 0)), (THERM.TBL_CTL.VERIFY1 n, onFst (nucVerify h 1))]
  | 0x38 => [(STITCH.CAL_CTL.GO, onFst calGo)]
  | 0x40 => [(SEG.CTL.RESTART, onFst segRestart), (SEG.CLEAR.FREE_MIN, onFst freeMinClear)]
  | 0x42 => [(TAG.CLEAR.HQ_MAX, onFst hqMaxClear), (TAG.CLEAR.LAT_MAX, onFst latMaxClear)]
  | 0x49 =>
    [(HSG.FAULT.CLR n, onFst (groupFaultClr (Fin.ofNat 4 n) false)), (HSG.CLEAR.WAIT_MAX n, onFst (waitMaxClear (Fin.ofNat 4 n)))]
  | 0x4a =>
    [(VALVE.FAULT.CLR n, onFst (valveFaultClr p false)),
     (VALVE.CMD.RUN n, onFst (valveCmdRun p (Fin.ofNat 4 ((VALVE.CMD.ENTRY n).of v)))), (VALVE.CMD.STOP n, onFst (valveCmdStop p))]
  | 0x50 => [(ZCTL.JOB_CTL.ABORT, jobAbort)]
  | 0x51 => [(Z.CTL.CLR_FAULT n, onFst (clrFault (Fin.ofNat 32 n)))]
  | 0x60 => [(TWIN.CTL.SWITCH, onFst switchOver), (TWIN.CTL.TAKE, onFst takeOver), (TWIN.CTL.RESYNC, onFst resync)]
  | 0x68 =>
    [(PADC.INJ_CTL.GO n, onFst (injRequest h)), (PADC.CAL_CTL.GO n, onFst (padcCalGo h ((PADC.CAL_CTL.STEP n).of v != 0))),
     (PADC.CAL_CTL.ABORT n, onFst (calAbort h))]
  | _ => []

/-- PAGE_CTL.ERR_CLR. -/
def errClr (page : Nat) (d : Dev) : Dev := if pageExists page then d.wr (Com.ERR_CNT page) 0 else d

/-- The actions of a written word: those of the page, ERR_CLR and STAGE.DISCARD. -/
def wordActions (a v : Nat) (x : DM) : DM :=
  let p := a / 4096
  let own := match pageKind p with
    | some k => pageActions k.type (p - k.first) v
    | none => []
  let all := (fld (4096 * p + 8) 0 1 .w1s 0, onFst (errClr p)) :: (fld (4096 * p + 0x1C) 3 1 .w1s 0, onFst (stageDiscard p)) :: own
  all.foldl (fun x q => if q.1.addr = a ∧ q.1.of v ≠ 0 then q.2 x else x) x

/-- A requester's write of one 32-bit word below 0x1000_0000: REGISTER_WRITE, one word of a REG_WRITE, one queued SPI word. -/
def regWrite (who : Requester) (addr v : Nat) (x : DM) : DM :=
  let a := addr / 4 * 4
  if a < 0x01000000 then pageWrite' a v (wordActions a v) (flushHalf who x) else windowWriteChecked who a v x

/-- The requester named by a command. -/
def requester (who : Option (Fin 4)) : Requester := who.elim .spi fun k => .session k.val

/-! ## Interrupts (R438, R439) -/

/-- IRQ_CLEAR: W1C of `mask`, while the events `again` of the same cycle leave their bits set. -/
def irqClear (page : Nat) (mask again : Nat) (d : Dev) : Dev :=
  if !pageExists page then unmapped d
  else
    let f := Com.IRQ_RAW page
    let raw := d.rd f
    let d1 := d.wr f (raw - Nat.land raw mask)
    (List.range 8).foldl (fun d b => d.irqIf (bitOf again b) page b) d1

/-! ## THP register access (R300) -/

/-- The words of a read from `a`, those past the page's end 0. -/
def regWords (who : Requester) (page : Nat) : Nat → Nat → DM → List Nat × DM
  | _, 0, x => ([], x)
  | a, n + 1, x =>
    let r := if a / 4096 = page then wordRead who a x else (0, x)
    let q := regWords who page (a + 4) n r.2
    (r.1 :: q.1, q.2)

/-- Some word of the access lies past the page's end. -/
def crosses (a n : Nat) : Bool := decide (4096 < a % 4096 + 4 * n)

def pageEndIf (b : Bool) (x : DM) : DM := if b then (pageEnd x.1, x.2) else x

/-- ACC_RESP, when the session still stands. -/
def accResp (r : ThpReq) (j status : Nat) (last : Bool) (n : Nat) (data : List Nat) (x : DM) : DM :=
  if x.1.on (HOST.SESS_STAT.STATE j) then (answer x.1 r.port j r.seq [(0x14, [status, b2n last, n] ++ data)], x.2) else x

/-- A count or address that the message does not admit. -/
def badAccess (addr count : Nat) : Bool := decide (addr % 4 ≠ 0 ∨ count = 0 ∨ 256 < count)

/-- REG_READ. -/
def regRead (r : ThpReq) (addr count : Nat) (x : DM) : DM :=
  requestBoth r 0x14 (fun j x =>
    if badAccess addr count then accResp r j 2 false 0 [] x
    else
      let e := crosses addr count
      let y := regWords (.session j) (addr / 4096) addr count x
      accResp r j 0 e count y.1 (pageEndIf e y.2)) x

/-- All words of a REG_WRITE in one step; those past the page's end are ignored. -/
def regWriteAll (who : Requester) (page : Nat) : Nat → List Word32 → DM → DM
  | _, [], x => x
  | a, w :: ws, x => regWriteAll who page (a + 4) ws (if a / 4096 = page then regWrite who a w.toNat x else x)

/-- REG_WRITE. -/
def regWriteReq (r : ThpReq) (addr : Nat) (words : List Word32) (x : DM) : DM :=
  requestBoth r 0x14 (fun j x =>
    if badAccess addr words.length then accResp r j 2 false 0 [] x
    else if !x.1.on (HOST.SESS_STAT.WR j) then accResp r j 4 false 0 [] x
    else
      let e := crosses addr words.length
      accResp r j 0 e words.length [] (pageEndIf e (regWriteAll (.session j) (addr / 4096) addr words x))) x

/-! ## THP memory access (R301) -/

/-- The addressable HBM of Table 12.1. -/
def hbmAddr (a : Nat) : Bool := decide (0x400000000 ≤ a ∧ a < 0x7E0000000)

/-- One 64-bit word read: its bytes, or nothing when it is lost. An address of the stack that a window shows is read through the
window (R274). An address that Table 12.1 gives no content reads a free value. -/
def memWord (who : Requester) (addr : Nat) (x : DM) : Option (List Nat) × DM :=
  let a := homeAddr addr
  if a < 0x10000000 then
    if inWindow a && wordGone x a && (computedWord x.1 a).isNone then (none, (windowRead who a x).2)
    else
      let lo := windowRead who a x
      let hi := windowRead who (a + 4) lo.2
      (some ((leBytes 4 lo.1 ++ leBytes 4 hi.1).map BitVec.toNat), hi.2)
  else if hbmAddr a then
    let gone := wordGone x a
    let y := readRange x a 8 mgmtReader
    (if gone then none else some ((y.1.take a 8).map BitVec.toNat), y.2)
  else
    let q := x.1.free 64
    (some ((leBytes 8 q.1).map BitVec.toNat), (q.2, x.2))

/-- Words read up to the first that is lost: the bytes, whether all were read. -/
def memWords (who : Requester) : Nat → Nat → DM → List Nat × Bool × DM
  | _, 0, x => ([], true, x)
  | a, n + 1, x =>
    match memWord who a x with
    | (none, y) => ([], false, y)
    | (some bs, y) =>
      let q := memWords who (a + 8) n y
      (bs ++ q.1, q.2)

/-- One 64-bit word written whole (R277), through its window where it has one; an address without content takes nothing. -/
def memPut (addr : Nat) (bs : List Byte) (x : DM) : DM :=
  let a := homeAddr addr
  if a < 0x10000000 then
    if !inWindow a then (unmapped x.1, x.2)
    else windowStore (a + 4) (ofLeBytes (bs.drop 4)) (windowStore a (ofLeBytes (bs.take 4)) x)
  else if hbmAddr a then (x.1, x.2.store a bs)
  else x

/-- The bytes written word by word. -/
def memPuts : Nat → Nat → List Byte → DM → DM
  | _, 0, _, x => x
  | a, n + 1, bs, x => memPuts (a + 8) n (bs.drop 8) (memPut a (bs.take 8) x)

/-- STATUS of an access that is turned away: a minor version without the message, a bad length, the register pages, HBM in degraded
mode. -/
def memRefusal (d : Dev) (j addr len : Nat) : Option Nat :=
  if minorOf d j < 1 then some 1
  else if addr % 8 ≠ 0 ∨ len % 8 ≠ 0 ∨ len = 0 ∨ 1024 < len then some 2
  else if addr < 0x01000000 then some 2
  else if d.on MEM.STATUS.DEGRADED && (inHbm addr || inHbm (addr + len - 1)) then some 7
  else none

/-- MEM_READ. -/
def memRead (r : ThpReq) (addr len : Nat) (x : DM) : DM :=
  requestBoth r 0x14 (fun j x =>
    match memRefusal x.1 j addr len with
    | some c => accResp r j c false 0 [] x
    | none =>
      let y := memWords (.session j) addr (len / 8) (flushHalf (.session j) x)
      accResp r j (if y.2.1 then 0 else 7) false y.1.length y.1 y.2.2) x

/-- MEM_WRITE. -/
def memWrite (r : ThpReq) (addr : Nat) (data : List Byte) (x : DM) : DM :=
  requestBoth r 0x14 (fun j x =>
    match memRefusal x.1 j addr data.length with
    | some c => accResp r j c false 0 [] x
    | none =>
      if !x.1.on (HOST.SESS_STAT.WR j) then accResp r j 4 false 0 [] x
      else accResp r j 0 false data.length [] (memPuts addr (data.length / 8) data (flushHalf (.session j) x))) x

/-! ## Cages (R447) -/

/-- CAGE_INSERT: identifier, media type and power class as read. VALUE of CAGE_IN holds the first two. -/
def cageInsert (cage : Fin 21) (ident media cls : Nat) (x : DM) : DM :=
  let c : Cage := ⟨cage, 0, decide (3 < cls)⟩
  evLog (x.1.updPw fun p => { p with cages := c :: p.cages.filter fun q => q.cage != cage }, x.2) .cageIn cage (ident + 256 * media)

/-- CAGE_REMOVE. -/
def cageRemove (cage : Fin 21) (x : DM) : DM :=
  if x.1.pw.cages.any fun c => c.cage == cage then
    evLog (x.1.updPw fun p => { p with cages := p.cages.filter fun q => q.cage != cage }, x.2) .cageOut cage 0
  else x

/-- The flags of one cage: an alarm that rises is logged with the flag bytes concerned. -/
def cageFlags (x : DM) (f : CageFlags) : DM :=
  match x.1.pw.cages.find? fun c => c.cage == f.cage with
  | none => x
  | some c =>
    let upd (q : Cage) : Cage := if q.cage = f.cage then { q with alarms := f.alarms } else q
    let y : DM := (x.1.updPw fun p => { p with cages := p.cages.map upd }, x.2)
    if (List.range 5).any fun b => bitOf f.alarms b && !bitOf c.alarms b then evLog y .cageAlarm f.cage f.value else y

/-- CAGE_POLL, once per second. -/
def cagePoll (flags : List CageFlags) (x : DM) : DM := flags.foldl cageFlags x

/-! ## Meanings -/

def execMstGo (sel : Fin 8) (s : State) : Host.Outcome State Fault Refusal := s.onDev (mstGo sel)
def execMstTransferDone (received : Word32) (s : State) : Host.Outcome State Fault Refusal := s.onDev (mstDone received.toNat)
def execRegRead (r : ThpReq) (addr count : Nat) (s : State) : Host.Outcome State Fault Refusal := s.onBoth (regRead r addr count)
def execRegWrite (r : ThpReq) (addr : Nat) (words : List Word32) (s : State) : Host.Outcome State Fault Refusal :=
  s.onBoth (regWriteReq r addr words)
def execMemRead (r : ThpReq) (addr len : Nat) (s : State) : Host.Outcome State Fault Refusal := s.onBoth (memRead r addr len)
def execMemWrite (r : ThpReq) (addr : Nat) (data : List Byte) (s : State) : Host.Outcome State Fault Refusal :=
  s.onBoth (memWrite r addr data)
def execIrqClear (page : Nat) (mask again : BitVec 8) (s : State) : Host.Outcome State Fault Refusal :=
  s.onDev (irqClear page mask.toNat again.toNat)
def execErrClr (page : Nat) (s : State) : Host.Outcome State Fault Refusal := s.onDev (errClr page)
def execLockingRead (who : Option (Fin 4)) (addr : Nat) (s : State) : Host.Outcome State Fault Refusal :=
  s.onBoth fun x => (wordRead (requester who) (addr / 4 * 4) x).2
def execLockExpiry (who : Option (Fin 4)) (locker : Nat) (s : State) : Host.Outcome State Fault Refusal :=
  s.onDev (lockExpiry (requester who) locker)
def execRegisterWrite (who : Option (Fin 4)) (addr : Nat) (word : Word32) (s : State) : Host.Outcome State Fault Refusal :=
  s.onBoth (regWrite (requester who) addr word.toNat)
def execCageInsert (cage : Fin 21) (ident media cls : Nat) (s : State) : Host.Outcome State Fault Refusal :=
  s.onBoth (cageInsert cage ident media cls)
def execCageRemove (cage : Fin 21) (s : State) : Host.Outcome State Fault Refusal := s.onBoth (cageRemove cage)
def execCagePoll (flags : List CageFlags) (s : State) : Host.Outcome State Fault Refusal := s.onBoth (cagePoll flags)

end Sys2Proof.Machine
end

