-- ==== Sys2Proof/Machine/Spi.lean ====
section
/-! DEFINITION. The SPI slave (spec/14_management_spi.md): frames slot by slot, the read pipeline, the write queue, faults of select and
clock. -/

namespace Sys2Proof.Machine

def Dev.updSpi (d : Dev) (g : SpiSt → SpiSt) : Dev := { d with spi := g d.spi }

/-! ## The command word (Table 14.3) -/

def cmdRead (c : Nat) : Bool := bitsOf c 30 2 == 1
def cmdInc (c : Nat) : Bool := bitOf c 1
def cmdAddr (c : Nat) : Nat := bitsOf c 2 26 * 4
/-- The checks of R313: odd parity, OP 0 or 1, bits 29:28 zero. -/
def cmdOk (c : Nat) : Bool := popCount 32 c % 2 == 1 && decide (bitsOf c 30 2 < 2) && bitsOf c 28 2 == 0

/-- The address of data word `k`; none past the end of the 4 KiB page of the command's address (R318). -/
def wordAddr (c k : Nat) : Option Nat :=
  let a := cmdAddr c
  if !cmdInc c then some a else if a % 4096 + 4 * k < 4096 then some (a + 4 * k) else none

/-- A command error is counted. -/
def cmdError (d : Dev) : Dev := ((d.wr MGMT.STATUS.CMD_ERR 1).inc MGMT.CMD_ERR_CNT.CNT).irq Page.MGMT MGMT.irq.CMD_ERR

/-! ## Slots (Table 14.2) -/

def setFrame (f : SpiFrame) (x : DM) : DM := (x.1.updSpi fun s => { s with frame := some f }, x.2)

/-- Data word `k` read at the end of slot `k` (R314). -/
def spiIssue (f : SpiFrame) (k : Nat) (x : DM) : DM :=
  match wordAddr f.cmd k with
  | none => setFrame { f with words := (k, 0) :: f.words } (pageEnd x.1, x.2)
  | some a =>
    let r := wordRead .spi a x
    setFrame { f with words := (k, r.1) :: f.words } r.2

/-- A received data word enters the write queue (R317, R318). -/
def spiQueue (f : SpiFrame) (k word : Nat) (x : DM) : DM :=
  match wordAddr f.cmd k with
  | none => (pageEnd x.1, x.2)
  | some a =>
    if 16 ≤ x.1.spi.queue.length then (wrDrop x.1, x.2)
    else
      let d := x.1.updSpi fun s => { s with queue := s.queue ++ [(a, word)] }
      (d.wr MGMT.WR_QUEUE.N d.spi.queue.length, x.2)

/-- The word that slot `s` ≥ 1 sends, and whether it repeats the one before (R315). Only a read of an HBM window can be late. -/
def spiOutWord (f : SpiFrame) (s : Nat) (ready : Bool) : Nat × Bool :=
  if s = 1 then (f.cmd, false)
  else if !f.ok || !cmdRead f.cmd then (0, false)
  else
    let late := !ready && (wordAddr f.cmd (s - 2)).elim false hbmWindow
    if late then (f.last, true) else ((f.words.find? fun w => w.1 == s - 2).elim 0 Prod.snd, false)

/-- UNDERRUN in slot `s`. -/
def spiUnderrun (f : SpiFrame) (s : Nat) (d : Dev) : Dev :=
  let d1 := if f.under || d.on MGMT.STATUS.UNDERRUN then d else d.wrSat MGMT.UNDERRUN_IDX.SLOT s
  ((d1.wr MGMT.STATUS.UNDERRUN 1).inc MGMT.UNDERRUN_CNT.CNT).irq Page.MGMT MGMT.irq.UNDERRUN

/-- A frame begins with its command: the idle level decides the mode (R310), STATUS goes out, the command is checked. -/
def spiCommand (sckHigh : Bool) (c : Nat) (x : DM) : DM :=
  let d := x.1.updSpi fun s => { s with stray := false }
  let mode := d.rd MGMT.SLV_CFG.MODE
  if (mode = 1 ∧ sckHigh) ∨ (mode = 2 ∧ !sckHigh) then setFrame ⟨true, 0, false, 0, 0, [], false⟩ (cmdError d, x.2)
  else
    let status := regWord d MGMT.STATUS.PAGE_END.addr
    let f : SpiFrame := ⟨false, c, cmdOk c, 1, status, [], d.on MGMT.STATUS.UNDERRUN⟩
    let d1 := d.emit (.spiSdo 0 status)
    if !f.ok then setFrame f (cmdError d1, x.2)
    else if cmdRead c then spiIssue f 0 (d1, x.2)
    else setFrame f (d1, x.2)

/-- A later slot. -/
def spiSlot (f : SpiFrame) (word : Nat) (ready : Bool) (x : DM) : DM :=
  let s := f.slots
  let o := spiOutWord f s ready
  let d := x.1.emit (.spiSdo s o.1)
  let d1 := if o.2 then spiUnderrun f s d else d
  let g := { f with slots := s + 1, last := o.1, words := f.words.filter fun w => decide (s ≤ w.1 + 1) }
  if !f.ok then setFrame g (d1, x.2)
  else if cmdRead f.cmd then spiIssue g s (d1, x.2)
  else spiQueue g (s - 1) word (setFrame g (d1, x.2))

/-- A whole slot of a frame arrives. Frames are ignored until the port answers (R321). -/
def spiWord (sckHigh : Bool) (word : Nat) (ready : Bool) (x : DM) : DM :=
  match x.1.spi.frame with
  | none => if x.1.pw.started then spiCommand sckHigh word x else x
  | some f => if f.ignored then x else spiSlot f word ready x

/-- SPI_WRITE_APPLY: the oldest queued word is applied. -/
def spiApply (x : DM) : DM :=
  match x.1.spi.queue with
  | [] => x
  | (a, w) :: rest =>
    let d := x.1.updSpi fun s => { s with queue := rest }
    regWrite .spi a w (d.wr MGMT.WR_QUEUE.N rest.length, x.2)

/-- SPI_FRAME_END after `bits` edges of a slot that is not whole (Table 14.4, R320). -/
def spiEnd (bits : Nat) (d : Dev) : Dev :=
  let d0 := d.updSpi fun s => { s with frame := none, stray := false }
  let f := d.spi.frame
  if !d.pw.started || f.elim false SpiFrame.ignored then d0
  else
    let d1 := f.elim d0 fun f => d0.wr MGMT.LAST_CMD.CMD f.cmd
    let d2 := ((d1.wrSat MGMT.LAST_WORDS.WORDS (f.elim 0 SpiFrame.slots)).wr MGMT.LAST_WORDS.BITS bits).inc MGMT.FRAME_CNT.CNT
    if bits = 0 then d2 else (d2.inc MGMT.SEL_ABORT_CNT.CNT).irq Page.MGMT MGMT.irq.SEL_ABORT

/-- SPI_STRAY_EDGE: counted once per gap. -/
def strayEdge (d : Dev) : Dev :=
  if !d.pw.started || d.spi.frame.isSome || d.spi.stray then d
  else (d.inc MGMT.STRAY_EDGE_CNT.CNT).updSpi fun s => { s with stray := true }

/-! ## Meanings -/

def execSpiRead (sckHigh : Bool) (word : Word32) (ready : Bool) (s : State) : Host.Outcome State Fault Refusal :=
  s.onBoth (spiWord sckHigh word.toNat ready)
def execSpiWrite (sckHigh : Bool) (word : Word32) (s : State) : Host.Outcome State Fault Refusal :=
  s.onBoth (spiWord sckHigh word.toNat true)
def execSpiWriteApply (s : State) : Host.Outcome State Fault Refusal := s.onBoth spiApply
def execSpiFrameEnd (bits : Fin 32) (s : State) : Host.Outcome State Fault Refusal := s.onDev (spiEnd bits)
def execSpiStrayEdge (s : State) : Host.Outcome State Fault Refusal := s.onDev strayEdge

end Sys2Proof.Machine
end

