-- ==== Sys2Proof/Machine/Dispatch.lean ====
section
/-! DEFINITION. One arm per command: the direct call of its meaning. -/

namespace Sys2Proof.Machine

def exec (i : Instr) (s : State) : Host.Outcome State Fault Refusal :=
  match i with
  | .timebaseTick => Sys2Proof.Machine.execTimebaseTick s
  | .tbStep => Sys2Proof.Machine.execTbStep s
  | .tbHoldover => Sys2Proof.Machine.execTbHoldover s
  | .sync port src domain seq twoStep t1 => Sys2Proof.Machine.execSync port src domain seq twoStep t1 s
  | .followUp port src seq t1 => Sys2Proof.Machine.execFollowUp port src seq t1 s
  | .announce port src domain => Sys2Proof.Machine.execAnnounce port src domain s
  | .announceTimeout => Sys2Proof.Machine.execAnnounceTimeout s
  | .delayReqSend => Sys2Proof.Machine.execDelayReqSend s
  | .delayResp port src seq t4 => Sys2Proof.Machine.execDelayResp port src seq t4 s
  | .delayReq port src domain seq => Sys2Proof.Machine.execDelayReq port src domain seq s
  | .announceSend => Sys2Proof.Machine.execAnnounceSend s
  | .syncSend => Sys2Proof.Machine.execSyncSend s
  | .encoderEdge ch a b delay => Sys2Proof.Machine.execEncoderEdge ch a b delay s
  | .indexEvent ch delay => Sys2Proof.Machine.execIndexEvent ch delay s
  | .ssiReadStart ch => Sys2Proof.Machine.execSsiReadStart ch s
  | .ssiReading ch busy raw parityBit delay => Sys2Proof.Machine.execSsiReading ch busy raw parityBit delay s
  | .hallEdge ch aux delay => Sys2Proof.Machine.execHallEdge ch aux delay s
  | .latchEvent ch src rising delay => Sys2Proof.Machine.execLatchEvent ch src rising delay s
  | .latchSw ch => Sys2Proof.Machine.execLatchSw ch s
  | .lSpeedRead ch => Sys2Proof.Machine.execLSpeedRead ch s
  | .standstill ch => Sys2Proof.Machine.execStandstill ch s
  | .encoderLos ch line lost => Sys2Proof.Machine.execEncoderLos ch line lost s
  | .foDisagreeCheck => Sys2Proof.Machine.execFoDisagreeCheck s
  | .freeRunTrigger => Sys2Proof.Machine.execFreeRunTrigger s
  | .holdbackRelease => Sys2Proof.Machine.execHoldbackRelease s
  | .line wln pos corr switchAt => Sys2Proof.Machine.execLine wln pos corr switchAt s
  | .arm => Sys2Proof.Machine.execArm s
  | .cancel => Sys2Proof.Machine.execCancel s
  | .prepare e id lastId => Sys2Proof.Machine.execPrepare e id lastId s
  | .stageAck id => Sys2Proof.Machine.execStageAck id s
  | .epochReady slot => Sys2Proof.Machine.execEpochReady slot s
  | .refuse slot cause => Sys2Proof.Machine.execRefuse slot cause s
  | .commit e id applyAt start => Sys2Proof.Machine.execCommit e id applyAt start s
  | .abort e id slot cause => Sys2Proof.Machine.execAbort e id slot cause s
  | .commitForward committed e id applyAt start => Sys2Proof.Machine.execCommitForward committed e id applyAt start s
  | .epochDeadline => Sys2Proof.Machine.execEpochDeadline s
  | .epochApply => Sys2Proof.Machine.execEpochApply s
  | .epochInDoubt => Sys2Proof.Machine.execEpochInDoubt s
  | .stageDiscard page => Sys2Proof.Machine.execStageDiscard page s
  | .snapReq => Sys2Proof.Machine.execSnapReq s
  | .snapNext => Sys2Proof.Machine.execSnapNext s
  | .snapRelease => Sys2Proof.Machine.execSnapRelease s
  | .snap target => Sys2Proof.Machine.execSnap target s
  | .portEnable p => Sys2Proof.Machine.execPortEnable p s
  | .portDisable p => Sys2Proof.Machine.execPortDisable p s
  | .retrain p => Sys2Proof.Machine.execRetrain p s
  | .laneLos p k => Sys2Proof.Machine.execLaneLos p k s
  | .blockLockGained p k => Sys2Proof.Machine.execBlockLockGained p k s
  | .blockLockLost p k cdr => Sys2Proof.Machine.execBlockLockLost p k cdr s
  | .align p used skews => Sys2Proof.Machine.execAlign p used skews s
  | .camHello p caps => Sys2Proof.Machine.execCamHello p caps s
  | .capsTimeout p => Sys2Proof.Machine.execCapsTimeout p s
  | .accept p ver rate lanes credits => Sys2Proof.Machine.execAccept p ver rate lanes credits s
  | .rateSwitch p => Sys2Proof.Machine.execRateSwitch p s
  | .switchTimeout p => Sys2Proof.Machine.execSwitchTimeout p s
  | .camReady p => Sys2Proof.Machine.execCamReady p s
  | .linkActive p => Sys2Proof.Machine.execLinkActive p s
  | .equalizeTimeout p => Sys2Proof.Machine.execEqualizeTimeout p s
  | .failedRetry p => Sys2Proof.Machine.execFailedRetry p s
  | .eyeReport p h v => Sys2Proof.Machine.execEyeReport p h v s
  | .eyeMeasure p k h v => Sys2Proof.Machine.execEyeMeasure p k h v s
  | .linkMsgDiscard p bytes => Sys2Proof.Machine.execLinkMsgDiscard p bytes s
  | .frameStart p vc data corrected => Sys2Proof.Machine.execFrameStart p vc data corrected s
  | .embeddedData p vc bytes crcOk corrected => Sys2Proof.Machine.execEmbeddedData p vc bytes crcOk corrected s
  | .rawPacket p vc dt bytes crcOk corrected => Sys2Proof.Machine.execRawPacket p vc dt bytes crcOk corrected s
  | .frameEnd p vc data corrected => Sys2Proof.Machine.execFrameEnd p vc data corrected s
  | .sideStreamPacket p vc dt packet => Sys2Proof.Machine.execSideStreamPacket p vc dt packet s
  | .dtError p packet => Sys2Proof.Machine.execDtError p packet s
  | .lineTimeout p wln => Sys2Proof.Machine.execLineTimeout p wln s
  | .creditGUpdate p => Sys2Proof.Machine.execCreditGUpdate p s
  | .creditSend p => Sys2Proof.Machine.execCreditSend p s
  | .triggerBlockSend p boundary => Sys2Proof.Machine.execTriggerBlockSend p boundary s
  | .triggerLate p boundary => Sys2Proof.Machine.execTriggerLate p boundary s
  | .setAck p id status => Sys2Proof.Machine.execSetAck p id status s
  | .settingsRetry p tag => Sys2Proof.Machine.execSettingsRetry p tag s
  | .regAck p tag => Sys2Proof.Machine.execRegAck p tag s
  | .regNak p tag cause => Sys2Proof.Machine.execRegNak p tag cause s
  | .regData p tag value => Sys2Proof.Machine.execRegData p tag value s
  | .crGo p => Sys2Proof.Machine.execCrGo p s
  | .crTimeout p => Sys2Proof.Machine.execCrTimeout p s
  | .roleAck p role fromWln => Sys2Proof.Machine.execRoleAck p role fromWln s
  | .triggerAtPipeline => Sys2Proof.Machine.execTriggerAtPipeline s
  | .slotReserve l => Sys2Proof.Machine.execSlotReserve l s
  | .mrLineLanded l p wln => Sys2Proof.Machine.execMrLineLanded l p wln s
  | .mrSliceFetch l poisoned => Sys2Proof.Machine.execMrSliceFetch l poisoned s
  | .itemGrant l => Sys2Proof.Machine.execItemGrant l s
  | .lineTailOut l p wln => Sys2Proof.Machine.execLineTailOut l p wln s
  | .voidNotice l p wln => Sys2Proof.Machine.execVoidNotice l p wln s
  | .ilWaitMaxClear l => Sys2Proof.Machine.execIlWaitMaxClear l s
  | .mrResMaxClear l => Sys2Proof.Machine.execMrResMaxClear l s
  | .statRecord p => Sys2Proof.Machine.execStatRecord p s
  | .flickerUpdate p => Sys2Proof.Machine.execFlickerUpdate p s
  | .mainsZeroCrossing delay => Sys2Proof.Machine.execMainsZeroCrossing delay s
  | .setReqGo p => Sys2Proof.Machine.execSetReqGo p s
  | .corrTableWrite addr word => Sys2Proof.Machine.execCorrTableWrite addr word s
  | .headEnable n => Sys2Proof.Machine.execHeadEnable n s
  | .headDisable n => Sys2Proof.Machine.execHeadDisable n s
  | .headRestart n => Sys2Proof.Machine.execHeadRestart n s
  | .headPresentLost n => Sys2Proof.Machine.execHeadPresentLost n s
  | .biasTransfer n => Sys2Proof.Machine.execBiasTransfer n s
  | .biasSettled n => Sys2Proof.Machine.execBiasSettled n s
  | .fsync n => Sys2Proof.Machine.execFsync n s
  | .frameDone n samples delay => Sys2Proof.Machine.execFrameDone n samples delay s
  | .shNow n => Sys2Proof.Machine.execShNow n s
  | .shInhibitWrite n on => Sys2Proof.Machine.execShInhibitWrite n on s
  | .shutterDip n => Sys2Proof.Machine.execShutterDip n s
  | .shutterDipTimeout n => Sys2Proof.Machine.execShutterDipTimeout n s
  | .captureRetry n => Sys2Proof.Machine.execCaptureRetry n s
  | .clrDyn n => Sys2Proof.Machine.execClrDyn n s
  | .mapFinalize n => Sys2Proof.Machine.execMapFinalize n s
  | .mapRowFetch n k => Sys2Proof.Machine.execMapRowFetch n k s
  | .nucVerify n bank => Sys2Proof.Machine.execNucVerify n bank s
  | .nucVerifyDone n => Sys2Proof.Machine.execNucVerifyDone n s
  | .nucTableWrite addr word => Sys2Proof.Machine.execNucTableWrite addr word s
  | .segmentAccept l p wln => Sys2Proof.Machine.execSegmentAccept l p wln s
  | .strip upper wln cols => Sys2Proof.Machine.execStrip upper wln cols s
  | .deadlineUs wln => Sys2Proof.Machine.execDeadlineUs wln s
  | .webLineRelease => Sys2Proof.Machine.execWebLineRelease s
  | .stitchEmit => Sys2Proof.Machine.execStitchEmit s
  | .calGo => Sys2Proof.Machine.execCalGo s
  | .segLineHead => Sys2Proof.Machine.execSegLineHead s
  | .runExtracted => Sys2Proof.Machine.execRunExtracted s
  | .closeDecision => Sys2Proof.Machine.execCloseDecision s
  | .bound r => Sys2Proof.Machine.execBound r s
  | .mergeRecord => Sys2Proof.Machine.execMergeRecord s
  | .mergeTimeout piece => Sys2Proof.Machine.execMergeTimeout piece s
  | .segRestart => Sys2Proof.Machine.execSegRestart s
  | .freeMinClear => Sys2Proof.Machine.execFreeMinClear s
  | .classify => Sys2Proof.Machine.execClassify s
  | .groupClassify => Sys2Proof.Machine.execGroupClassify s
  | .tagForm => Sys2Proof.Machine.execTagForm s
  | .tagHandoff => Sys2Proof.Machine.execTagHandoff s
  | .tagFrameStart => Sys2Proof.Machine.execTagFrameStart s
  | .hqMaxClear => Sys2Proof.Machine.execHqMaxClear s
  | .latMaxClear => Sys2Proof.Machine.execLatMaxClear s
  | .markIntake => Sys2Proof.Machine.execMarkIntake s
  | .slotDue => Sys2Proof.Machine.execSlotDue s
  | .markLaunch ch => Sys2Proof.Machine.execMarkLaunch ch s
  | .shedWaitExpiry target => Sys2Proof.Machine.execShedWaitExpiry target s
  | .end_ ch samples => Sys2Proof.Machine.execEnd_ ch samples s
  | .boost ch samples => Sys2Proof.Machine.execBoost ch samples s
  | .regp ch samples => Sys2Proof.Machine.execRegp ch samples s
  | .regh ch samples => Sys2Proof.Machine.execRegh ch samples s
  | .free ch samples => Sys2Proof.Machine.execFree ch samples s
  | .quench ch samples => Sys2Proof.Machine.execQuench ch samples s
  | .waitr ch samples => Sys2Proof.Machine.execWaitr ch samples s
  | .dip ch idx => Sys2Proof.Machine.execDip ch idx s
  | .jdip ch idx => Sys2Proof.Machine.execJdip ch idx s
  | .jmp ch idx => Sys2Proof.Machine.execJmp ch idx s
  | .loop ch idx => Sys2Proof.Machine.execLoop ch idx s
  | .wait ch samples => Sys2Proof.Machine.execWait ch samples s
  | .conf ch idx => Sys2Proof.Machine.execConf ch idx s
  | .reservedOpcode ch => Sys2Proof.Machine.execReservedOpcode ch s
  | .admissionGrant => Sys2Proof.Machine.execAdmissionGrant s
  | .slotAck slot => Sys2Proof.Machine.execSlotAck slot s
  | .coilShort ch => Sys2Proof.Machine.execCoilShort ch s
  | .lsShort ch => Sys2Proof.Machine.execLsShort ch s
  | .peakLong ch => Sys2Proof.Machine.execPeakLong ch s
  | .progRunaway ch => Sys2Proof.Machine.execProgRunaway ch s
  | .valveOvertemp ch => Sys2Proof.Machine.execValveOvertemp ch s
  | .hsShort g => Sys2Proof.Machine.execHsShort g s
  | .hsOt g => Sys2Proof.Machine.execHsOt g s
  | .valveFaultClr ch persists => Sys2Proof.Machine.execValveFaultClr ch persists s
  | .groupFaultClr g persists => Sys2Proof.Machine.execGroupFaultClr g persists s
  | .railLow mv => Sys2Proof.Machine.execRailLow mv s
  | .railRecover mv => Sys2Proof.Machine.execRailRecover mv s
  | .ledgerStep => Sys2Proof.Machine.execLedgerStep s
  | .shedEnd => Sys2Proof.Machine.execShedEnd s
  | .valveCmdRun ch entry => Sys2Proof.Machine.execValveCmdRun ch entry s
  | .valveCmdStop ch => Sys2Proof.Machine.execValveCmdStop ch s
  | .valveTableWrite addr word => Sys2Proof.Machine.execValveTableWrite addr word s
  | .waitMaxClear g => Sys2Proof.Machine.execWaitMaxClear g s
  | .archiveLine => Sys2Proof.Machine.execArchiveLine s
  | .chunkDispatch => Sys2Proof.Machine.execChunkDispatch s
  | .bufferLink n frb => Sys2Proof.Machine.execBufferLink n frb s
  | .chunkDecide n dFail fFail => Sys2Proof.Machine.execChunkDecide n dFail fFail s
  | .budgetTick => Sys2Proof.Machine.execBudgetTick s
  | .recordSent port => Sys2Proof.Machine.execRecordSent port s
  | .clrFault n => Sys2Proof.Machine.execClrFault n s
  | .jqTailWrite idx => Sys2Proof.Machine.execJqTailWrite idx s
  | .jobStart => Sys2Proof.Machine.execJobStart s
  | .jobComplete n verifyFail => Sys2Proof.Machine.execJobComplete n verifyFail s
  | .cqHeadWrite idx => Sys2Proof.Machine.execCqHeadWrite idx s
  | .jobAbort => Sys2Proof.Machine.execJobAbort s
  | .fabricOpComplete cls target flip => Sys2Proof.Machine.execFabricOpComplete cls target flip s
  | .ceWriteback => Sys2Proof.Machine.execCeWriteback s
  | .tokenIssue reqs => Sys2Proof.Machine.execTokenIssue reqs s
  | .tokenReturn => Sys2Proof.Machine.execTokenReturn s
  | .fabricTimeout cls target => Sys2Proof.Machine.execFabricTimeout cls target s
  | .scrubRead hbm flip => Sys2Proof.Machine.execScrubRead hbm flip s
  | .stackOt => Sys2Proof.Machine.execStackOt s
  | .degradedEntry => Sys2Proof.Machine.execDegradedEntry s
  | .degrade => Sys2Proof.Machine.execDegrade s
  | .recover => Sys2Proof.Machine.execRecover s
  | .autoRecover => Sys2Proof.Machine.execAutoRecover s
  | .hbmReady ok => Sys2Proof.Machine.execHbmReady ok s
  | .errorLogRead idx => Sys2Proof.Machine.execErrorLogRead idx s
  | .arpRequest port target ip mac => Sys2Proof.Machine.execArpRequest port target ip mac s
  | .arpReply port ip mac => Sys2Proof.Machine.execArpReply port ip mac s
  | .arpAge port ip => Sys2Proof.Machine.execArpAge port ip s
  | .arpRefresh => Sys2Proof.Machine.execArpRefresh s
  | .icmpEchoRequest port ip len => Sys2Proof.Machine.execIcmpEchoRequest port ip len s
  | .frameDiscard port badFcs => Sys2Proof.Machine.execFrameDiscard port badFcs s
  | .badThp port => Sys2Proof.Machine.execBadThp port s
  | .unknownKind r kind => Sys2Proof.Machine.execUnknownKind r kind s
  | .openSession r major minorMax streams dataPort => Sys2Proof.Machine.execOpenSession r major minorMax streams dataPort s
  | .closeSession r => Sys2Proof.Machine.execCloseSession r s
  | .keepalive r => Sys2Proof.Machine.execKeepalive r s
  | .regRead r addr count => Sys2Proof.Machine.execRegRead r addr count s
  | .regWrite r addr words => Sys2Proof.Machine.execRegWrite r addr words s
  | .memRead r addr len => Sys2Proof.Machine.execMemRead r addr len s
  | .memWrite r addr data => Sys2Proof.Machine.execMemWrite r addr data s
  | .snapshot r target ring release ranges => Sys2Proof.Machine.execSnapshot r target ring release ranges s
  | .jobSubmit r desc => Sys2Proof.Machine.execJobSubmit r desc s
  | .jobDoneAck r queueIdx => Sys2Proof.Machine.execJobDoneAck r queueIdx s
  | .jobDoneResend => Sys2Proof.Machine.execJobDoneResend s
  | .streamAck r sseq => Sys2Proof.Machine.execStreamAck r sseq s
  | .streamNack r first last => Sys2Proof.Machine.execStreamNack r first last s
  | .sessionTimeout j => Sys2Proof.Machine.execSessionTimeout j s
  | .hostPortDown port => Sys2Proof.Machine.execHostPortDown port s
  | .hostPortUp port => Sys2Proof.Machine.execHostPortUp port s
  | .homeReturn j => Sys2Proof.Machine.execHomeReturn j s
  | .spiRead sckHigh word ready => Sys2Proof.Machine.execSpiRead sckHigh word ready s
  | .spiWrite sckHigh word => Sys2Proof.Machine.execSpiWrite sckHigh word s
  | .spiWriteApply => Sys2Proof.Machine.execSpiWriteApply s
  | .spiFrameEnd bits => Sys2Proof.Machine.execSpiFrameEnd bits s
  | .mstGo sel => Sys2Proof.Machine.execMstGo sel s
  | .mstTransferDone received => Sys2Proof.Machine.execMstTransferDone received s
  | .twinHello sideB state takeOut serial fw => Sys2Proof.Machine.execTwinHello sideB state takeOut serial fw s
  | .helloSend => Sys2Proof.Machine.execHelloSend s
  | .soloWaitExpiry => Sys2Proof.Machine.execSoloWaitExpiry s
  | .heart tb wln hbm step => Sys2Proof.Machine.execHeart tb wln hbm step s
  | .twinEcho answer rtt residence => Sys2Proof.Machine.execTwinEcho answer rtt residence s
  | .stage e id set => Sys2Proof.Machine.execStage e id set s
  | .digest wln runs bg n closes => Sys2Proof.Machine.execDigest wln runs bg n closes s
  | .creditG gs => Sys2Proof.Machine.execCreditG gs s
  | .capture n sh cap chk state run => Sys2Proof.Machine.execCapture n sh cap chk state run s
  | .twinLaunch slot firePos fireT energy => Sys2Proof.Machine.execTwinLaunch slot firePos fireT energy s
  | .slotEnd slot result dipT spent => Sys2Proof.Machine.execSlotEnd slot result dipT spent s
  | .faultEv target cause latched => Sys2Proof.Machine.execFaultEv target cause latched s
  | .placed first keys => Sys2Proof.Machine.execPlaced first keys s
  | .hostAck sseq => Sys2Proof.Machine.execHostAck sseq s
  | .counts cs => Sys2Proof.Machine.execCounts cs s
  | .imageReq => Sys2Proof.Machine.execImageReq s
  | .image w0 img => Sys2Proof.Machine.execImage w0 img s
  | .resyncFail => Sys2Proof.Machine.execResyncFail s
  | .yieldMsg => Sys2Proof.Machine.execYieldMsg s
  | .twinRefuse => Sys2Proof.Machine.execTwinRefuse s
  | .heartbeatTimeout => Sys2Proof.Machine.execHeartbeatTimeout s
  | .takeInChange level => Sys2Proof.Machine.execTakeInChange level s
  | .twinLinkDown => Sys2Proof.Machine.execTwinLinkDown s
  | .switchOver => Sys2Proof.Machine.execSwitchOver s
  | .takeOver => Sys2Proof.Machine.execTakeOver s
  | .resync => Sys2Proof.Machine.execResync s
  | .topo r => Sys2Proof.Machine.execTopo r s
  | .stringEcho out answer rtt residence => Sys2Proof.Machine.execStringEcho out answer rtt residence s
  | .pairHb => Sys2Proof.Machine.execPairHb s
  | .timeMsg origin corr hops fromOut residence => Sys2Proof.Machine.execTimeMsg origin corr hops fromOut residence s
  | .geom g => Sys2Proof.Machine.execGeom g s
  | .newActive slot sideB => Sys2Proof.Machine.execNewActive slot sideB s
  | .stringForward up arrived => Sys2Proof.Machine.execStringForward up arrived s
  | .formWaitExpiry => Sys2Proof.Machine.execFormWaitExpiry s
  | .hopDown out => Sys2Proof.Machine.execHopDown out s
  | .hopHeal => Sys2Proof.Machine.execHopHeal s
  | .store => Sys2Proof.Machine.execStore s
  | .storePageWritten => Sys2Proof.Machine.execStorePageWritten s
  | .workingArrayWrite addr word => Sys2Proof.Machine.execWorkingArrayWrite addr word s
  | .waUeReload page => Sys2Proof.Machine.execWaUeReload page s
  | .scanPage weak => Sys2Proof.Machine.execScanPage weak s
  | .scanPassStart => Sys2Proof.Machine.execScanPassStart s
  | .scanNow => Sys2Proof.Machine.execScanNow s
  | .profileLoad => Sys2Proof.Machine.execProfileLoad s
  | .profileRefCopied => Sys2Proof.Machine.execProfileRefCopied s
  | .bankBusyTimeout => Sys2Proof.Machine.execBankBusyTimeout s
  | .profileImageApply => Sys2Proof.Machine.execProfileImageApply s
  | .flashErase => Sys2Proof.Machine.execFlashErase s
  | .flashProg => Sys2Proof.Machine.execFlashProg s
  | .flashRead => Sys2Proof.Machine.execFlashRead s
  | .flashOpDone badReadBack => Sys2Proof.Machine.execFlashOpDone badReadBack s
  | .conversionEnd n x overload => Sys2Proof.Machine.execConversionEnd n x overload s
  | .seqRun n on => Sys2Proof.Machine.execSeqRun n on s
  | .injGo n => Sys2Proof.Machine.execInjGo n s
  | .injEdge n io falling => Sys2Proof.Machine.execInjEdge n io falling s
  | .calZero n => Sys2Proof.Machine.execCalZero n s
  | .calFullScale n => Sys2Proof.Machine.execCalFullScale n s
  | .calAbort n => Sys2Proof.Machine.execCalAbort n s
  | .tempSample temps rail meas => Sys2Proof.Machine.execTempSample temps rail meas s
  | .throttleStep => Sys2Proof.Machine.execThrottleStep s
  | .shutdownProceed => Sys2Proof.Machine.execShutdownProceed s
  | .hwTrip coresRun => Sys2Proof.Machine.execHwTrip coresRun s
  | .refTrimUpdate => Sys2Proof.Machine.execRefTrimUpdate s
  | .refCorrUpdate => Sys2Proof.Machine.execRefCorrUpdate s
  | .planNow => Sys2Proof.Machine.execPlanNow s
  | .replan => Sys2Proof.Machine.execReplan s
  | .mainsInTolerance rms => Sys2Proof.Machine.execMainsInTolerance rms s
  | .mainsLoss bulk => Sys2Proof.Machine.execMainsLoss bulk s
  | .actuatorRestore => Sys2Proof.Machine.execActuatorRestore s
  | .bulkLowOff => Sys2Proof.Machine.execBulkLowOff s
  | .railFault => Sys2Proof.Machine.execRailFault s
  | .headOc n => Sys2Proof.Machine.execHeadOc n s
  | .refclkLoss => Sys2Proof.Machine.execRefclkLoss s
  | .refclkReturn info => Sys2Proof.Machine.execRefclkReturn info s
  | .rootPllUnlock info => Sys2Proof.Machine.execRootPllUnlock info s
  | .lanePllUnlock => Sys2Proof.Machine.execLanePllUnlock s
  | .hbmPllUnlock => Sys2Proof.Machine.execHbmPllUnlock s
  | .sysReset info => Sys2Proof.Machine.execSysReset info s
  | .inspReset => Sys2Proof.Machine.execInspReset s
  | .watchdogExpiry info => Sys2Proof.Machine.execWatchdogExpiry info s
  | .lockstepMismatch info => Sys2Proof.Machine.execLockstepMismatch info s
  | .mgmtMemoryUe info => Sys2Proof.Machine.execMgmtMemoryUe info s
  | .unitReset kind mask => Sys2Proof.Machine.execUnitReset kind mask s
  | .lpRequest lp => Sys2Proof.Machine.execLpRequest lp s
  | .wake io falling => Sys2Proof.Machine.execWake io falling s
  | .powerOnStart info => Sys2Proof.Machine.execPowerOnStart info s
  | .supervisorRestart sec board mainsAbsent info => Sys2Proof.Machine.execSupervisorRestart sec board mainsAbsent info s
  | .freqMeasure khz => Sys2Proof.Machine.execFreqMeasure khz s
  | .irqClear page mask again => Sys2Proof.Machine.execIrqClear page mask again s
  | .errClr page => Sys2Proof.Machine.execErrClr page s
  | .lockingRead who addr => Sys2Proof.Machine.execLockingRead who addr s
  | .lockExpiry who locker => Sys2Proof.Machine.execLockExpiry who locker s
  | .registerWrite who addr word => Sys2Proof.Machine.execRegisterWrite who addr word s
  | .cageInsert cage ident media cls => Sys2Proof.Machine.execCageInsert cage ident media cls s
  | .cageRemove cage => Sys2Proof.Machine.execCageRemove cage s
  | .cagePoll flags => Sys2Proof.Machine.execCagePoll flags s
  | .twinLinkUp => Sys2Proof.Machine.execTwinLinkUp s
  | .hopUp out => Sys2Proof.Machine.execHopUp out s
  | .invalidSyncHeader p k => Sys2Proof.Machine.execInvalidSyncHeader p k s
  | .headerEccError lost => Sys2Proof.Machine.execHeaderEccError lost s
  | .spiStrayEdge => Sys2Proof.Machine.execSpiStrayEdge s
  | .messageCrcFail string => Sys2Proof.Machine.execMessageCrcFail string s
  | .headPresentGained n => Sys2Proof.Machine.execHeadPresentGained n s
  | .ringOscillatorReading ppm => Sys2Proof.Machine.execRingOscillatorReading ppm s
  | .persistentCounterRefresh => Sys2Proof.Machine.execPersistentCounterRefresh s
  | .railWarn rail mv => Sys2Proof.Machine.execRailWarn rail mv s
  | .ssiClockEdgeReceived ch => Sys2Proof.Machine.execSsiClockEdgeReceived ch s

end Sys2Proof.Machine
end

