-- ==== Sys2Proof/Safety.lean ====
section
/-! DEFINITION. What claims call a safe run, and the shapes in which claims say what a command does: that it completes, what it
gives, and what it leaves as it was. -/

namespace Sys2Proof.Machine

/-- The invariant of a state: the data space and the flash are in canonical form (equal contents are equal data). -/
def State.Inv (s : State) : Prop := s.mem.wf = true

/-- A step from `s` goes on: it is neither a fault nor a refusal. -/
def State.GoesOn (s : State) : Prop := ∃ t, step s = .next t

/-- The command completes at `s`: exec answers a next state, with the queue as it was, of which `P` holds. -/
def Completes (c : Instr) (s : State) (P : State → Prop) : Prop := ∃ t, exec c s = .next t ∧ t.pending = s.pending ∧ P t

/-- The command completes at `s` with every byte of the data space and of the flash as it was and the queue as it was, and `P`
holds of the device after it. -/
def Gives (c : Instr) (s : State) (P : Dev → Prop) : Prop := ∃ d, exec c s = .next { s with dev := d } ∧ P d

/-- Every register field but the listed ones reads in `e` as in `d`. -/
def Dev.KeepsRegs (d e : Dev) (fs : List Fld) : Prop := ∀ f : Fld, f.key ∉ fs.map Fld.key → e.rd f = d.rd f

/-- From `d` to `e` only registers changed, and of them at most the listed fields. -/
def Dev.OnlyRegs (d e : Dev) (fs : List Fld) : Prop := e = { d with regs := e.regs } ∧ d.KeepsRegs e fs

/-- From `d` to `e` only registers, of them at most the listed fields, and what the module has sent or driven changed. -/
def Dev.OnlyRegsOut (d e : Dev) (fs : List Fld) : Prop := e = { d with regs := e.regs, out := e.out } ∧ d.KeepsRegs e fs

/-- Registers outside the listed pages read in `e` as in `d` (R7: a page is 4,096 bytes, so 131,072 bit addresses). -/
def Dev.KeepsPages (d e : Dev) (ps : List Nat) : Prop := ∀ f : Fld, f.key / 131072 ∉ ps → e.rd f = d.rd f

/-- From `d` to `e` only one camera port, its two pages and what the module has sent changed. -/
def Dev.OnlyPort (d e : Dev) (p : Fin 16) : Prop :=
  e = { d with regs := e.regs, ports := e.ports, out := e.out } ∧ (∀ q : Fin 16, q ≠ p → e.ports[q] = d.ports[q]) ∧
  d.KeepsPages e [Page.PORT p, Page.LANE p]

/-- From `d` to `e` only one thermal head, the valve channels its shutter may act on, what the module has sent and at most the listed
fields changed. -/
def Dev.OnlyHead (d e : Dev) (n : Fin 2) (fs : List Fld) : Prop :=
  e = { d with regs := e.regs, heads := e.heads, valves := e.valves, out := e.out } ∧ (∀ k : Fin 2, k ≠ n → e.heads[k] = d.heads[k]) ∧
  d.KeepsRegs e fs

/-- From `m` to `n` the bytes from address `a` on became `bs`; every other byte of the data space and all of the flash stayed. -/
def Memory.Stored (m n : Memory) (a : Nat) (bs : List Byte) : Prop :=
  (∀ k < bs.length, n.byte (a + k) = bs.getD k 0) ∧ (∀ b, b < a ∨ a + bs.length ≤ b → n.byte b = m.byte b) ∧ n.flash = m.flash

/-- Sound memory: no stored word differs from its check byte, and no read in flight has been lost (R276, R286). -/
abbrev State.Sound (s : State) : Prop := s.mem.checks = [] ∧ s.dev.integ.gone = []

/-- The counter `f` rose by one, or stayed at its largest value. -/
def Dev.Counted (d e : Dev) (f : Fld) : Prop := e.rd f = min (d.rd f + 1) (2 ^ f.width - 1)

/-- From `d` to `e` only registers of the HOST page, the sessions' books, the intervals measured and what the module has sent
changed. -/
def Dev.OnlyHost (d e : Dev) : Prop :=
  e = { d with regs := e.regs, out := e.out, host := e.host, marks := e.marks } ∧ d.KeepsPages e [Page.HOST]

/-- Session `j` executes request `r` (R294, R296, R299): THP is taken on its port, the session is open for its sender, no answer
of its SEQ is kept, it is not older than all 16 kept ones, and its length is right. -/
def Dev.Executes (d : Dev) (r : ThpReq) (j : Fin 4) : Prop :=
  thpTaken d r.port = true ∧ findSession d r = some j.val ∧ (∀ e ∈ d.host.sess[j].kept, e.1 ≠ r.seq) ∧
  tooOld d.host.sess[j] r.seq = false ∧ r.lenOk = true

/-- `r` was answered once, by a message of `kind` that carries `body` after SESSION and SEQ, and the answer is kept. -/
def Dev.Answered (d e : Dev) (r : ThpReq) (j : Fin 4) (kind : Nat) (body : List Nat) : Prop :=
  e.out = .frame r.port kind (d.rd (HOST.SESS_ID.ID j) :: r.seq :: body) :: d.out ∧
  e.host.sess[j].kept = (r.seq, [(kind, body)]) :: d.host.sess[j].kept.take 15 ∧ d.Counted e (HOST.SESS_REQ_CNT.CNT j)

/-- A register word behind whose read no lock, latch or log entry stands: reading it changes nothing. -/
def Dev.PlainWord (d : Dev) (who : Requester) (a : Nat) : Prop :=
  pageExists (a / 4096) = true ∧ pageHeld d (a / 4096) = false ∧ lockGroup a = [] ∧ logWord d a = none ∧
  (∀ c < 4, a ≠ (ENC.L_SPEED.VAL c).addr) ∧ (∀ l ∈ d.locks, l.who ≠ who) ∧ ∀ h ∈ d.integ.half, h.1 ≠ who

/-- The requests of a host (Table 13.3) but for OPEN, each with the KIND of its answer. -/
def thpKind : Instr → Option (ThpReq × Nat)
  | .closeSession r => some (r, 3)
  | .keepalive r => some (r, 5)
  | .regRead r _ _ => some (r, 0x14)
  | .regWrite r _ _ => some (r, 0x14)
  | .memRead r _ _ => some (r, 0x14)
  | .memWrite r _ _ => some (r, 0x14)
  | .snapshot r _ _ _ _ => some (r, 0x21)
  | .jobSubmit r _ => some (r, 0x29)
  | .jobDoneAck r _ => some (r, 0x2B)
  | .streamAck r _ => some (r, 0x30)
  | .streamNack r _ _ => some (r, 0x31)
  | .unknownKind r k => some (r, k)
  | _ => none

/-- Session `j` is closed in `e`: its registers at reset, no answer kept, no lock of its own, and SESS_CLOSE raised. -/
def Dev.Closed (d e : Dev) (j : Fin 4) : Prop :=
  (∀ f ∈ HOST.fields3 j, e.rd f = f.reset) ∧ e.host.sess[j] = ⟨[], []⟩ ∧
  (∀ l, l ∈ e.locks ↔ l ∈ d.locks ∧ l.who ≠ .session j) ∧ bitOf (e.rd (Com.IRQ_RAW Page.HOST)) HOST.irq.SESS_CLOSE = true

/-- The pages of a unit that RST can hold in reset (R426): a port's two, a pipeline's, a head's, an engine's. -/
def unitPages (kind b : Nat) : List Nat :=
  if kind = 0 then [Page.PORT b, Page.LANE b] else if kind = 1 then [Page.PIPE b] else if kind = 2 then [Page.THERM b] else [Page.Z b]

end Sys2Proof.Machine
end

