-- ==== Sys2Proof/Certificates/Slice0/Obligations.lean ====
section
/-! DEFINITION. The statements for the provers, family by family. -/

open Sys2Proof Sys2Proof.Machine

/-! ## The queue and the invariant -/

/-- A step takes the command at the front of the queue and runs it with the queue's rest; on an empty queue the block idles, which is
the model's own choice (log entry 24). -/
def Obligations.StepRunsTheFrontCommand : Prop :=
  (∀ (c : Instr) (rest : List Instr) (s : State), step { s with pending := c :: rest } = exec c { s with pending := rest }) ∧
  ∀ s : State, s.pending = [] → step s = .next s

/-- Every command completes from every state (a command the spec refuses has the refusal as its effect), and a step takes one command
and adds none. The model's own choice it rests on in part: log entry 24. -/
def Obligations.StepTakesOneCommand : Prop :=
  (∀ (c : Instr) (s : State), ∃ t, exec c s = .next t ∧ t.pending = s.pending) ∧
  ∀ s : State, ∃ t, step s = .next t ∧ t.pending = s.pending.tail

/-- At reset the data space and the flash are in canonical form. The model's own choice it rests on in part: log entry 2. -/
def Obligations.ResetMeetsInvariant : Prop := State.Inv State.reset

/-- From every state in which the data space and the flash are in canonical form, reachable or not, a step gives such a state. The model's own choice it rests on in part: log entry 2. -/
def Obligations.StepKeepsCanonicalMemory : Prop :=
  ∀ s t : State, s.Inv → step s = .next t → t.Inv

/-- Reset leaves every field of Tables 20.2 to 20.3's pages at the value its table gives, and nothing in flight. The model's own choice it rests on in part: log entry 1. -/
def Obligations.ResetRegistersReadTheirTable : Prop :=
  (∀ p ∈ pageList, ∀ f ∈ Com.fields p ++ pageFields p, State.reset.dev.rd f = f.reset) ∧
  State.reset.dev.now = 0 ∧ State.reset.dev.ep.frozen = none ∧ State.reset.dev.ep.next = [] ∧ State.reset.dev.errLog = [] ∧
  State.reset.dev.out = [] ∧ State.reset.dev.locks = [] ∧ State.reset.pending = []

/-! ## Timebase, generator, epochs and snapshots (spec/01_web_coordinates_and_time.md) -/

/-- R11 to R13: the tick in exact arithmetic, the guarded step, holdover. The accumulator's unit is 2^-16 ppm of 1/16 ns. The model's own choice it rests on in part: log entry 6. -/
def Obligations.TimebaseTicksAndSteps : Prop :=
  (∀ s : State, s.dev.up = true → Gives .timebaseTick s fun d =>
    65536000000 * (d.time.tb : Int) + d.time.acc =
      65536000000 * (s.dev.time.tb : Int) + s.dev.time.acc + 20 * (65536000000 + timeRate s.dev) ∧
    d.time.acc < 65536000000 ∧ s.dev.time.tb ≤ d.time.tb ∧
    d = { s.dev with time := { s.dev.time with tb := d.time.tb, acc := d.time.acc } }) ∧
  (∀ (s : State) (x : Nat), s.dev.up = true → genRuns s.dev = false →
    (s.dev.time.tb : Int) + 16 * s.dev.rdS WEB.TB_STEP.STEP_NS = x → x < 2 ^ 68 →
    Gives .tbStep s fun d => d = { s.dev with time := { s.dev.time with tb := x } }) ∧
  (∀ s : State, s.dev.up = true →
    genRuns s.dev = true ∨ (s.dev.time.tb : Int) + 16 * s.dev.rdS WEB.TB_STEP.STEP_NS < 0 ∨
      (2 ^ 68 : Int) ≤ (s.dev.time.tb : Int) + 16 * s.dev.rdS WEB.TB_STEP.STEP_NS →
    Gives .tbStep s fun d => d.rd WEB.TB_CTL.STEP_REFUSED = 1 ∧ s.dev.OnlyRegs d [WEB.TB_CTL.STEP_REFUSED]) ∧
  ∀ s : State, s.dev.up = true → Gives .tbHoldover s fun d =>
    d.rd WEB.TB_CTL.LOCKED = 0 ∧ d.rd WEB.TB_RATE.RATE = s.dev.rd WEB.TB_RATE.RATE ∧ d.time.tb = s.dev.time.tb ∧
    s.dev.KeepsRegs d [WEB.TB_CTL.LOCKED]

/-- R307 for each of its frames. `ptpTaken` says that the port is up, is the 1588 port, has an address, and PTP_CFG.ROLE is the
role. The model's own choices it rests on in part: log entries 5, 33, 75. -/
def Obligations.PtpFramesSteerTheClock : Prop :=
  (∀ (s : State) (port : Fin 2) (src seq : Nat) (t1 : Int), s.dev.up = true → ptpTaken s.dev port 1 = true →
    s.dev.host.ptp.master = some src →
    Gives (.sync port src (s.dev.rd HOST.PTP_CFG.DOMAIN) seq true t1) s fun d =>
      d.host.ptp.syncWait = some (src, seq, (s.dev.now : Int)) ∧
      s.dev.KeepsRegs d [HOST.RX_FRAMES_HA.CNT, HOST.RX_FRAMES_HB.CNT]) ∧
  (∀ (s : State) (port : Fin 2) (src dom seq : Nat) (two : Bool) (t1 : Int), s.dev.up = true → portUp s.dev port = true →
    s.dev.host.ptp.master ≠ some src →
    Gives (.sync port src dom seq two t1) s fun d =>
      s.dev.Counted d HOST.RX_DROP_CNT.CNT ∧
      s.dev.OnlyRegs d [HOST.RX_FRAMES_HA.CNT, HOST.RX_FRAMES_HB.CNT, HOST.RX_DROP_CNT.CNT]) ∧
  (∀ (s : State) (port : Fin 2) (src seq : Nat) (t1 t2 del : Int), s.dev.up = true → ptpTaken s.dev port 1 = true →
    s.dev.host.ptp.syncWait = some (src, seq, t2) → s.dev.host.ptp.delay = some del → s.dev.on WEB.TB_CTL.PTP_EN = false →
    Gives (.followUp port src seq t1) s fun d =>
      d.rdS HOST.PTP_OFS.OFS = clampI (-2147483648) 2147483647 (t2 - t1 - s.dev.rdS HOST.PTP_ASYM.ASYM - del) ∧
      d.host.ptp.syncWait = none ∧ d.host.ptp.last = some (t1, t2) ∧ d.time = s.dev.time ∧
      s.dev.KeepsRegs d [HOST.RX_FRAMES_HA.CNT, HOST.RX_FRAMES_HB.CNT, HOST.PTP_OFS.OFS]) ∧
  (∀ (s : State) (port : Fin 2) (src : Nat), s.dev.up = true → ptpTaken s.dev port 1 = true → s.dev.host.ptp.master = none →
    Gives (.announce port src (s.dev.rd HOST.PTP_CFG.DOMAIN)) s fun d =>
      d.host.ptp.master = some src ∧ d.host.ptp.announced = s.dev.now ∧ d.rd HOST.STATUS.PTP_ACTIVE = 1 ∧
      s.dev.KeepsRegs d [HOST.RX_FRAMES_HA.CNT, HOST.RX_FRAMES_HB.CNT, HOST.STATUS.PTP_ACTIVE]) ∧
  (∀ s : State, s.dev.up = true → s.dev.host.ptp.announced + 6 * oneS ≤ s.dev.now → Gives .announceTimeout s fun d =>
    d.host.ptp.master = none ∧ d.rd HOST.STATUS.PTP_ACTIVE = 0 ∧ s.dev.KeepsRegs d [HOST.STATUS.PTP_ACTIVE]) ∧
  (∀ (s : State) (src : Nat), s.dev.up = true → ptpTaken s.dev (ptpPort s.dev) 1 = true → s.dev.host.ptp.master = some src →
    s.dev.past .delayReq (expSeconds s.dev HOST.PTP_CFG.LOG_DELAY) = true →
    Gives .delayReqSend s fun d =>
      d.host.ptp.req = some (s.dev.host.ptp.seqDelay, (s.dev.now : Int)) ∧
      d.host.ptp.seqDelay = (s.dev.host.ptp.seqDelay + 1) % 65536 ∧
      d.out = .frame (ptpPort s.dev) FK.delayReq [s.dev.rd HOST.PTP_CFG.DOMAIN, s.dev.host.ptp.seqDelay] :: s.dev.out ∧
      s.dev.KeepsRegs d [HOST.TX_FRAMES_HA.CNT, HOST.TX_FRAMES_HB.CNT]) ∧
  (∀ (s : State) (port : Fin 2) (src seq : Nat) (t1 t2 t3 t4 : Int), s.dev.up = true → ptpTaken s.dev port 1 = true →
    s.dev.host.ptp.master = some src → s.dev.host.ptp.req = some (seq, t3) → s.dev.host.ptp.last = some (t1, t2) →
    Gives (.delayResp port src seq t4) s fun d =>
      d.host.ptp.delay = some (((t2 - t1) + (t4 - t3)) / 2) ∧ d.host.ptp.req = none ∧
      s.dev.KeepsRegs d [HOST.RX_FRAMES_HA.CNT, HOST.RX_FRAMES_HB.CNT, HOST.PTP_OFS.OFS]) ∧
  (∀ (s : State) (port : Fin 2) (src seq : Nat), s.dev.up = true → ptpTaken s.dev port 2 = true →
    Gives (.delayReq port src (s.dev.rd HOST.PTP_CFG.DOMAIN) seq) s fun d =>
      d.out = .frame port FK.delayResp [s.dev.rd HOST.PTP_CFG.DOMAIN, src, seq, s.dev.now] :: s.dev.out ∧
      s.dev.OnlyRegsOut d [HOST.RX_FRAMES_HA.CNT, HOST.RX_FRAMES_HB.CNT, HOST.TX_FRAMES_HA.CNT, HOST.TX_FRAMES_HB.CNT]) ∧
  (∀ s : State, s.dev.up = true → ptpTaken s.dev (ptpPort s.dev) 2 = true → s.dev.past .announce (2 * oneS) = true → Gives .announceSend s fun d =>
    d.out = .frame (ptpPort s.dev) FK.announce [s.dev.rd HOST.PTP_CFG.DOMAIN, s.dev.host.ptp.seqAnn, 248] :: s.dev.out ∧
    s.dev.KeepsRegs d [HOST.TX_FRAMES_HA.CNT, HOST.TX_FRAMES_HB.CNT]) ∧
  ∀ s : State, s.dev.up = true → ptpTaken s.dev (ptpPort s.dev) 2 = true →
    s.dev.past .sync (expSeconds s.dev HOST.PTP_CFG.LOG_SYNC) = true → Gives .syncSend s fun d =>
    d.out = .frame (ptpPort s.dev) FK.followUp [s.dev.rd HOST.PTP_CFG.DOMAIN, s.dev.host.ptp.seqSync, s.dev.now] ::
      .frame (ptpPort s.dev) FK.sync [s.dev.rd HOST.PTP_CFG.DOMAIN, s.dev.host.ptp.seqSync] :: s.dev.out ∧
    s.dev.KeepsRegs d [HOST.TX_FRAMES_HA.CNT, HOST.TX_FRAMES_HB.CNT]

/-- R25, R26: what the Puppeteer does before COMMIT. `armRefusal` is the judgement of R25 and R463. The model's own choices it rests on in part: log entries 5, 35, 36. -/
def Obligations.PuppeteerArmsAndSettles : Prop :=
  (∀ s : State, s.dev.up = true → s.dev.isPuppeteer = false →
    Gives .arm s fun d => d.rd WEB.EPOCH_STATUS.RESULT = 4 ∧ s.dev.OnlyRegs d [WEB.EPOCH_STATUS.RESULT]) ∧
  (∀ s : State, s.dev.up = true → s.dev.isPuppeteer = true → s.dev.rd WEB.EPOCH_STATUS.STATE ≠ 0 →
    Gives .arm s fun d => d.rd WEB.EPOCH_STATUS.RESULT = 3 ∧ s.dev.OnlyRegs d [WEB.EPOCH_STATUS.RESULT]) ∧
  (∀ s : State, s.dev.up = true → s.dev.isPuppeteer = true → s.dev.rd WEB.EPOCH_STATUS.STATE = 0 → s.dev.on TRIG.STAT.RUNNING = true →
    s.dev.rd2 WEB.EPOCH_TGT_LO.EPOCH_TGT WEB.EPOCH_TGT_HI.EPOCH_TGT <
      s.dev.rd2 WEB.WLN_LO.WLN WEB.WLN_HI.WLN + s.dev.rd WEB.EPOCH_CTL.LEAD_LINES →
    Gives .arm s fun d => d.rd WEB.EPOCH_STATUS.RESULT = 2 ∧ s.dev.OnlyRegs d [WEB.EPOCH_STATUS.RESULT]) ∧
  (∀ s : State, s.dev.up = true → s.dev.inRing = false → s.dev.hasStandby = true → s.dev.ep.kept = false →
    armRefusal s.dev (s.dev.rd2 WEB.EPOCH_TGT_LO.EPOCH_TGT WEB.EPOCH_TGT_HI.EPOCH_TGT) = none →
    Gives .arm s fun d =>
      d.ep.target = s.dev.rd2 WEB.EPOCH_TGT_LO.EPOCH_TGT WEB.EPOCH_TGT_HI.EPOCH_TGT ∧
      d.ep.id = (s.dev.rd WEB.EPOCH_ID.LIVE_ID + 1) % 65536 ∧ d.rd WEB.EPOCH_ID.LIVE_ID = s.dev.rd WEB.EPOCH_ID.LIVE_ID ∧
      ((d.rd WEB.EPOCH_STATUS.STATE = 1 ∧ d.ep.frozen = some s.dev.ep.next ∧ d.ep.next = [] ∧ d.ep.stbyWait = true ∧
          d.rd WEB.EPOCH_ID.ARMED_ID = (s.dev.rd WEB.EPOCH_ID.LIVE_ID + 1) % 65536) ∨
        (d.rd WEB.EPOCH_STATUS.STATE = 0 ∧ d.ep.frozen = none ∧ d.rd WEB.EPOCH_STATUS.RESULT = 6))) ∧
  (∀ s : State, s.dev.up = true → s.dev.isPuppeteer = true →
    s.dev.rd WEB.EPOCH_STATUS.STATE = 1 ∨ s.dev.rd WEB.EPOCH_STATUS.STATE = 2 →
    Gives .cancel s fun d => d.rd WEB.EPOCH_STATUS.STATE = 0 ∧ d.rd WEB.EPOCH_STATUS.RESULT = 7 ∧
      d.rd WEB.EPOCH_STATUS.FAIL_SLOT = 0 ∧ d.ep.frozen = none ∧
      d.ep.next = stageMerge (s.dev.ep.frozen.getD []) s.dev.ep.next ∧
      s.dev.KeepsRegs d [WEB.EPOCH_STATUS.STATE, WEB.EPOCH_STATUS.RESULT, WEB.EPOCH_STATUS.FAIL_SLOT, WEB.EPOCH_ID.ARMED_ID]) ∧
  (∀ s : State, s.dev.up = true → s.dev.rd WEB.EPOCH_STATUS.STATE = 3 → Gives .cancel s fun d => d = s.dev) ∧
  (∀ (s : State) (slot cause : Nat), s.dev.up = true → s.dev.isPuppeteer = true →
    s.dev.rd WEB.EPOCH_STATUS.STATE = 1 ∨ s.dev.rd WEB.EPOCH_STATUS.STATE = 2 →
    Gives (.refuse slot cause) s fun d => d.rd WEB.EPOCH_STATUS.STATE = 0 ∧
      d.rd WEB.EPOCH_STATUS.RESULT = cause % 2 ^ WEB.EPOCH_STATUS.RESULT.width ∧
      d.rd WEB.EPOCH_STATUS.FAIL_SLOT = slot % 2 ^ WEB.EPOCH_STATUS.FAIL_SLOT.width ∧ d.ep.frozen = none ∧
      d.ep.next = stageMerge (s.dev.ep.frozen.getD []) s.dev.ep.next ∧
      s.dev.KeepsRegs d [WEB.EPOCH_STATUS.STATE, WEB.EPOCH_STATUS.RESULT, WEB.EPOCH_STATUS.FAIL_SLOT, WEB.EPOCH_ID.ARMED_ID]) ∧
  (∀ s : State, s.dev.up = true → s.dev.isPuppeteer = true →
    s.dev.rd WEB.EPOCH_STATUS.STATE = 1 ∨ s.dev.rd WEB.EPOCH_STATUS.STATE = 2 →
    deadlineOver s.dev = true →
    Gives .epochDeadline s fun d => d.rd WEB.EPOCH_STATUS.STATE = 0 ∧ d.rd WEB.EPOCH_STATUS.RESULT = 5 ∧ d.ep.frozen = none ∧
      d.ep.next = stageMerge (s.dev.ep.frozen.getD []) s.dev.ep.next ∧
      s.dev.KeepsRegs d [WEB.EPOCH_STATUS.STATE, WEB.EPOCH_STATUS.RESULT, WEB.EPOCH_STATUS.FAIL_SLOT, WEB.EPOCH_ID.ARMED_ID]) ∧
  (∀ (s : State) (slot : Nat), s.dev.up = true → s.dev.isPuppeteer = true → s.dev.rd WEB.EPOCH_STATUS.STATE = 2 →
    s.dev.on TRIG.STAT.RUNNING = true → deadlineOver s.dev = false → (∀ k < slotCount s.dev, k = slot ∨ k ∈ s.dev.ep.ready) →
    Gives (.epochReady slot) s fun d => d.rd WEB.EPOCH_STATUS.STATE = 3 ∧ d.ep.frozen = s.dev.ep.frozen ∧ d.ep.applyAt = none ∧
      s.dev.KeepsRegs d [WEB.EPOCH_STATUS.STATE]) ∧
  ∀ (s : State) (slot k : Nat), s.dev.up = true → s.dev.isPuppeteer = true → s.dev.rd WEB.EPOCH_STATUS.STATE = 2 →
    k < slotCount s.dev → k ≠ slot → k ∉ s.dev.ep.ready →
    Gives (.epochReady slot) s fun d => slot ∈ d.ep.ready ∧ d = { s.dev with ep := { s.dev.ep with ready := d.ep.ready } }

/-- R26 to R28 and R442 on the modules that are not the Puppeteer, and R24's application. The model's own choices it rests on in part: log entries 5, 36, 37. -/
def Obligations.MembersFollowTheEpoch : Prop :=
  (∀ (s : State) (e id lastId : Nat), s.dev.up = true → s.dev.isPuppeteer = false → s.dev.isActive = true →
    s.dev.rd WEB.EPOCH_STATUS.STATE ≠ 3 →
    Gives (.prepare e id lastId) s fun d => d.ep.target = e ∧ d.ep.id = id ∧ d.ep.next = [] ∧
      d.ep.frozen = some (if s.dev.rd WEB.EPOCH_STATUS.STATE = 0 ∧ s.dev.ep.kept = false then s.dev.ep.next
        else stageMerge (s.dev.ep.frozen.getD []) s.dev.ep.next) ∧
      d.rd WEB.EPOCH_ID.ARMED_ID = id % 65536 ∧ d.rd WEB.EPOCH_ID.LIVE_ID = s.dev.rd WEB.EPOCH_ID.LIVE_ID ∧
      ((d.rd WEB.EPOCH_STATUS.STATE = 1 ∧ d.ep.checkCause = none) ∨ d.rd WEB.EPOCH_STATUS.STATE = 2) ∧
      (s.dev.ring.geom = none → d.ep.checkCause = none ∨ d.ep.checkCause = some 6)) ∧
  (∀ (s : State) (e id lastId : Nat), s.dev.up = true →
    s.dev.isPuppeteer = true ∨ s.dev.isActive = false ∨ s.dev.rd WEB.EPOCH_STATUS.STATE = 3 →
    Gives (.prepare e id lastId) s fun d => d = s.dev) ∧
  (∀ s : State, s.dev.up = true → s.dev.isPuppeteer = false → s.dev.inRing = true → s.dev.rd WEB.EPOCH_STATUS.STATE = 1 →
    s.dev.ep.stbyWait = true → s.dev.ep.geomWait = false → s.dev.ep.checkCause = none →
    Gives (.stageAck s.dev.ep.id) s fun d => d.rd WEB.EPOCH_STATUS.STATE = 2 ∧ d.ep.stbyWait = false ∧
      d.ep.frozen = s.dev.ep.frozen ∧ d.out = .string .ready [(s.dev.slot : Int)] :: s.dev.out ∧
      s.dev.KeepsRegs d [WEB.EPOCH_STATUS.STATE]) ∧
  (∀ s : State, s.dev.up = true → s.dev.rd WEB.EPOCH_STATUS.STATE = 1 → s.dev.ep.stbyWait = true → s.dev.ep.geomWait = true →
    s.dev.ep.checkCause = none →
    Gives (.stageAck s.dev.ep.id) s fun d => d = { s.dev with ep := { s.dev.ep with stbyWait := false } }) ∧
  (∀ (s : State) (id : Nat), s.dev.up = true → s.dev.ep.stbyWait = false ∨ id ≠ s.dev.ep.id →
    Gives (.stageAck id) s fun d => d = s.dev) ∧
  (∀ (s : State) (e : Nat) (applyAt : Option Nat) (start : Option GenStart), s.dev.up = true → s.dev.isPuppeteer = false →
    s.dev.isActive = true → s.dev.rd WEB.EPOCH_STATUS.STATE = 2 → doubtDue s.dev = false → (∀ t, applyAt = some t → s.dev.now < t) →
    Gives (.commit e s.dev.ep.id applyAt start) s fun d => d.rd WEB.EPOCH_STATUS.STATE = 3 ∧ d.ep.frozen = s.dev.ep.frozen ∧
      d.ep.applyAt = applyAt ∧ d.gen.handed = start ∧ s.dev.KeepsRegs d [WEB.EPOCH_STATUS.STATE]) ∧
  (∀ (s : State) (e id : Nat) (applyAt : Option Nat) (start : Option GenStart), s.dev.up = true →
    s.dev.isPuppeteer = true ∨ s.dev.isActive = false ∨ (id ≠ s.dev.ep.id ∧ doubtDue s.dev = false) →
    Gives (.commit e id applyAt start) s fun d => d = s.dev) ∧
  (∀ (s : State) (e id slot cause : Nat), s.dev.up = true →
    s.dev.isPuppeteer = true ∨ s.dev.isActive = false ∨ (id ≠ s.dev.ep.id ∧ doubtDue s.dev = false) →
    Gives (.abort e id slot cause) s fun d => d = s.dev) ∧
  (∀ (s : State) (e : Nat) (applyAt : Option Nat) (start : Option GenStart), s.dev.up = true → s.dev.isPuppeteer = false →
    s.dev.isActive = true → s.dev.rd WEB.EPOCH_STATUS.STATE = 4 →
    Gives (.commit e s.dev.ep.id applyAt start) s fun d => d.rd WEB.EPOCH_STATUS.STATE = 0 ∧ d.rd WEB.EPOCH_STATUS.RESULT = 1 ∧
      d.ep.kept = true ∧ d.ep.frozen = s.dev.ep.frozen ∧
      s.dev.KeepsRegs d [WEB.EPOCH_STATUS.STATE, WEB.EPOCH_STATUS.RESULT, WEB.EPOCH_ID.ARMED_ID]) ∧
  (∀ (s : State) (e slot cause : Nat), s.dev.up = true → s.dev.isPuppeteer = false → s.dev.isActive = true →
    s.dev.rd WEB.EPOCH_STATUS.STATE = 1 ∨ (s.dev.rd WEB.EPOCH_STATUS.STATE = 2 ∧ doubtDue s.dev = false) →
    Gives (.abort e s.dev.ep.id slot cause) s fun d => d.rd WEB.EPOCH_STATUS.STATE = 0 ∧ d.ep.frozen = none ∧
      d.ep.next = stageMerge (s.dev.ep.frozen.getD []) s.dev.ep.next ∧
      d.rd WEB.EPOCH_STATUS.RESULT = cause % 2 ^ WEB.EPOCH_STATUS.RESULT.width ∧
      d.rd WEB.EPOCH_STATUS.FAIL_SLOT = slot % 2 ^ WEB.EPOCH_STATUS.FAIL_SLOT.width ∧
      s.dev.KeepsRegs d [WEB.EPOCH_STATUS.STATE, WEB.EPOCH_STATUS.RESULT, WEB.EPOCH_STATUS.FAIL_SLOT, WEB.EPOCH_ID.ARMED_ID]) ∧
  (∀ (s : State) (e : Nat) (start : Option GenStart), s.dev.up = true → s.dev.isActive = false → s.dev.rd WEB.EPOCH_STATUS.STATE = 2 →
    doubtDue s.dev = false →
    Gives (.commitForward true e s.dev.ep.id none start) s fun d => d.rd WEB.EPOCH_STATUS.STATE = 3 ∧
      d.ep.frozen = s.dev.ep.frozen ∧ s.dev.KeepsRegs d [WEB.EPOCH_STATUS.STATE]) ∧
  (∀ s : State, s.dev.up = true → s.dev.isPuppeteer = false → s.dev.rd WEB.EPOCH_STATUS.STATE = 2 → doubtDue s.dev = true →
    Gives .epochInDoubt s fun d => d.rd WEB.EPOCH_STATUS.STATE = 4 ∧ d.rd WEB.EPOCH_STATUS.IN_DOUBT = 1 ∧ d.ep.doubt = true ∧
      d.ep.frozen = s.dev.ep.frozen ∧ s.dev.KeepsRegs d [WEB.EPOCH_STATUS.STATE, WEB.EPOCH_STATUS.IN_DOUBT]) ∧
  (∀ (s : State) (l : List (Fld × Nat)) (w : Nat), s.dev.up = true → s.dev.rd WEB.EPOCH_STATUS.STATE = 3 →
    s.dev.ep.frozen = some l → (∀ q ∈ l, q.1.addr ≠ WEB.EPOCH_ID.LIVE_ID.addr ∧ q.1.addr ≠ WEB.EPOCH_STATUS.STATE.addr) →
    s.dev.ep.applyAt = none → s.dev.gen.maxWln = some w → s.dev.ep.target ≤ w →
    Gives .epochApply s fun d => d.rd WEB.EPOCH_ID.LIVE_ID = s.dev.ep.id % 65536 ∧ d.rd WEB.EPOCH_STATUS.STATE = 0 ∧
      d.rd WEB.EPOCH_STATUS.RESULT = 1 ∧ d.ep.frozen = none) ∧
  (∀ s : State, s.dev.up = true → s.dev.ep.applyAt = none → (∀ w, s.dev.gen.maxWln = some w → w < s.dev.ep.target) →
    Gives .epochApply s fun d => d = s.dev) ∧
  (∀ (s : State) (page : Nat), s.dev.up = true → Gives (.stageDiscard page) s fun d =>
    d = { s.dev with ep := { s.dev.ep with next := d.ep.next } } ∧
    ∀ q, q ∈ d.ep.next ↔ q ∈ s.dev.ep.next ∧ q.1.page ≠ page) ∧
  ∀ (s : State) (g : GeomMsg), s.dev.up = true →
    (s.dev.inRing = true → s.dev.rd STRING.STATUS.RING_STATE = 1 →
      (s.dev.rd WEB.GRID_PITCH.VAL ≠ g.grid ∨ s.dev.rd WEB.GEOM.XW_DIR ≠ g.xwDir → Gives (.geom g) s fun d =>
        d.rd WEB.EPOCH_STATUS.RESULT = 8 ∧ d.ring = s.dev.ring ∧ s.dev.KeepsRegs d [WEB.EPOCH_STATUS.RESULT]) ∧
      (s.dev.rd WEB.GRID_PITCH.VAL = g.grid → s.dev.rd WEB.GEOM.XW_DIR = g.xwDir → Gives (.geom g) s fun d => d = s.dev)) ∧
    (s.dev.rd STRING.STATUS.RING_STATE ≠ 1 → s.dev.rd WEB.EPOCH_STATUS.STATE ≠ 1 → Gives (.geom g) s fun d =>
      d = { s.dev with ring := { s.dev.ring with geom := some g } })

/-- R30: what a request and a release leave. The model's own choices it rests on in part: log entries 27, 28. -/
def Obligations.SnapshotsAreRequested : Prop :=
  (∀ s : State, s.dev.up = true → s.dev.snap.jobs = [] → s.dev.on WEB.SNAP_CTL.RING = false →
    Gives .snapReq s fun d => d.rd WEB.SNAP_STATUS.PENDING = 1 ∧ d.rd WEB.SNAP_STATUS.VALID = 0 ∧ d.snap.nextLine = false ∧
      d.snap.target = s.dev.rd2 WEB.SNAP_TGT_LO.SNAP_TGT WEB.SNAP_TGT_HI.SNAP_TGT ∧
      s.dev.KeepsRegs d [WEB.SNAP_STATUS.PENDING, WEB.SNAP_STATUS.VALID]) ∧
  (∀ s : State, s.dev.up = true → s.dev.snap.jobs = [] → s.dev.on WEB.SNAP_CTL.RING = false →
    Gives .snapNext s fun d => d.rd WEB.SNAP_STATUS.PENDING = 1 ∧ d.rd WEB.SNAP_STATUS.VALID = 0 ∧ d.snap.nextLine = true ∧
      s.dev.KeepsRegs d [WEB.SNAP_STATUS.PENDING, WEB.SNAP_STATUS.VALID]) ∧
  (∀ (s : State) (target : Nat), s.dev.up = true → Gives (.snap target) s fun d =>
    d.rd WEB.SNAP_STATUS.PENDING = 1 ∧ d.rd WEB.SNAP_STATUS.VALID = 0 ∧ d.snap.nextLine = false ∧ d.snap.target = target ∧
    s.dev.KeepsRegs d [WEB.SNAP_STATUS.PENDING, WEB.SNAP_STATUS.VALID]) ∧
  ∀ s : State, s.dev.up = true → Gives .snapRelease s fun d =>
    d.rd WEB.SNAP_STATUS.PENDING = 0 ∧ d.rd WEB.SNAP_STATUS.VALID = 0 ∧ d.snap.copy = [] ∧ d.snap.jobs = s.dev.snap.jobs ∧
    s.dev.KeepsRegs d [WEB.SNAP_STATUS.PENDING, WEB.SNAP_STATUS.VALID]

/-- R18, R19, R464 in Free-run, and R21's comparison. The model's own choices it rests on in part: log entries 11, 32. -/
def Obligations.TriggersAreIssuedHeldOrSkipped : Prop :=
  (∀ (s : State) (u : Nat), s.dev.up = true → trigMode s.dev = 2 → freePeriod s.dev ≠ 0 → s.dev.on TRIG.STAT.RUNNING = true →
    epochDue s.dev = false → s.dev.gen.t ≤ s.dev.now → s.dev.gen.held = none → s.dev.gen.last = some u →
    s.dev.gen.t < u + 16 * s.dev.rd TRIG.MIN_PERIOD.VAL →
    Gives .freeRunTrigger s fun d => d.rd TRIG.STAT.OVERSPEED = 1 ∧ s.dev.KeepsRegs d [TRIG.STAT.OVERSPEED] ∧
      d.gen.nextWln = s.dev.gen.nextWln + 1 ∧ d.gen.t = s.dev.gen.t + freePeriod s.dev ∧ d.gen.maxWln = s.dev.gen.maxWln ∧
      d.gen.held.map TrigRec.wln = some s.dev.gen.nextWln) ∧
  (∀ (s : State) (h : TrigRec), s.dev.up = true → trigMode s.dev = 2 → freePeriod s.dev ≠ 0 → s.dev.on TRIG.STAT.RUNNING = true →
    epochDue s.dev = false → s.dev.gen.t ≤ s.dev.now → s.dev.gen.held = some h → (∀ n : Fin 4, s.dev.enc[n].slew = none) →
    Gives .freeRunTrigger s fun d => s.dev.Counted d TRIG.SKIP_CNT.VAL ∧ s.dev.KeepsRegs d [TRIG.SKIP_CNT.VAL] ∧
      d.gen.nextWln = s.dev.gen.nextWln + 1 ∧ d.gen.t = s.dev.gen.t + freePeriod s.dev ∧ d.gen.held = some h ∧
      d.gen.skipped.map TrigRec.wln = s.dev.gen.skipped.map TrigRec.wln ++ [s.dev.gen.nextWln]) ∧
  (∀ s : State, s.dev.up = true → trigMode s.dev = 2 → freePeriod s.dev ≠ 0 → s.dev.on TRIG.STAT.RUNNING = true →
    epochDue s.dev = false → s.dev.gen.t ≤ s.dev.now → s.dev.gen.held = none →
    (s.dev.gen.last.elim true fun u => decide (u + 16 * s.dev.rd TRIG.MIN_PERIOD.VAL ≤ s.dev.gen.t)) = true →
    Gives .freeRunTrigger s fun d => d.gen.maxWln = some s.dev.gen.nextWln ∧ d.gen.nextWln = s.dev.gen.nextWln + 1 ∧
      d.gen.last = some s.dev.gen.t ∧ d.gen.t = s.dev.gen.t + freePeriod s.dev ∧ d.rd WEB.WLN_LO.WLN = s.dev.gen.nextWln % 2 ^ 32) ∧
  (∀ s : State, s.dev.up = true → s.dev.now < s.dev.gen.t → Gives .freeRunTrigger s fun d => d = s.dev) ∧
  (∀ s : State, s.dev.up = true → s.dev.gen.held = none → Gives .holdbackRelease s fun d => d = s.dev) ∧
  (∀ (s : State) (h : TrigRec) (u : Nat), s.dev.up = true → s.dev.gen.held = some h → s.dev.gen.last = some u →
    s.dev.now < u + 16 * s.dev.rd TRIG.MIN_PERIOD.VAL → Gives .holdbackRelease s fun d => d = s.dev) ∧
  (∀ (s : State) (h : TrigRec) (u : Nat), s.dev.up = true → s.dev.gen.held = some h → s.dev.gen.last = some u →
    u + 16 * s.dev.rd TRIG.MIN_PERIOD.VAL ≤ s.dev.now → h.skipped = false → (∀ k ∈ s.dev.gen.skipped, k.skipped = true) →
    trigMode s.dev ≠ 1 ∨ (s.dev.gen.foSwitch = none ∧ (∀ n : Fin 4, s.dev.enc[n].slew = none) ∧
      max s.dev.gen.h s.dev.gen.pos < s.dev.gen.n) →
    Gives .holdbackRelease s fun d => d.gen.held = none ∧ d.gen.skipped = [] ∧ d.gen.nextWln = s.dev.gen.nextWln ∧
      d.gen.maxWln = some (s.dev.gen.skipped.getLast?.getD h).wln ∧ d.gen.last = some (u + 16 * s.dev.rd TRIG.MIN_PERIOD.VAL)) ∧
  (∀ (s : State) (w pos : Nat) (t : TrigRec), s.dev.up = true → s.dev.isPuppeteer = false →
    s.dev.gen.recent.find? (fun t => t.wln == w) = some t →
    (encScale s.dev (drivingCh s.dev)).natAbs < (toSigned 48 (ofSigned 48 ((posStamp t.pos : Int) - pos))).natAbs * 2 ^ 24 →
    Gives (.line w pos none none) s fun d => d.rd TRIG.STAT.DIVERGE = 1 ∧ d.gen.diverged = true ∧
      s.dev.KeepsRegs d [TRIG.STAT.DIVERGE]) ∧
  (∀ (s : State) (w pos : Nat) (t : TrigRec), s.dev.up = true → s.dev.isPuppeteer = false →
    s.dev.gen.recent.find? (fun t => t.wln == w) = some t →
    (toSigned 48 (ofSigned 48 ((posStamp t.pos : Int) - pos))).natAbs * 2 ^ 24 ≤ (encScale s.dev (drivingCh s.dev)).natAbs →
    Gives (.line w pos none none) s fun d => d = s.dev) ∧
  (∀ (s : State) (w pos : Nat) (sw : Option (Nat × Nat)), s.dev.up = true → s.dev.isPuppeteer = false →
    s.dev.gen.recent.find? (fun t => t.wln == w) = none → s.dev.gen.fo = none →
    (sw.elim true fun v => s.dev.gen.maxWln.elim true fun m => decide (m < v.1)) = true →
    Gives (.line w pos none sw) s fun d => d = { s.dev with gen := { s.dev.gen with
      expected := ((w, pos % 2 ^ 48) :: s.dev.gen.expected).take 64, foSwitch := sw.elim s.dev.gen.foSwitch some } }) ∧
  (∀ (s : State) (w pos v cause m : Nat), s.dev.up = true → s.dev.isPuppeteer = false → trigMode s.dev ≠ 1 →
    s.dev.gen.recent.find? (fun t => t.wln == w) = none → s.dev.gen.fo = none → s.dev.gen.maxWln = some m → v ≤ m →
    Gives (.line w pos none (some (v, cause))) s fun d => d.rd (ENC.FO_STAT.ACTIVE (trigSrc s.dev)) = 1 ∧
      d.rd (ENC.FO_STAT.CAUSE (trigSrc s.dev)) = cause % 2 ^ (ENC.FO_STAT.CAUSE (trigSrc s.dev)).width ∧
      d.rd (ENC.FO_STAT.LOCAL (trigSrc s.dev)) = 0 ∧
      d.gen.fo = some (Fin.ofNat 4 (s.dev.rd (ENC.FO_CFG.BACKUP (trigSrc s.dev)))) ∧ d.gen.foSwitch = none ∧
      d.gen.maxWln = some m) ∧
  (∀ (s : State) (w pos : Nat) (c : LineCorr), s.dev.up = true → s.dev.isPuppeteer = false → trigMode s.dev ≠ 1 →
    s.dev.gen.recent.find? (fun t => t.wln == w) = none → s.dev.gen.nextWln ≤ c.first →
    Gives (.line w pos (some c) none) s fun d => d.rd (ENC.INDEX_STAT.PENDING c.ch) = 1 ∧
      d.enc[c.ch].slew = some ⟨c.d, some c.first, max 1 c.s, 0, 0, 0⟩ ∧ d.gen.nextWln = s.dev.gen.nextWln ∧
      d.gen.pos = s.dev.gen.pos ∧ d.gen.expected = ((w, pos % 2 ^ 48) :: s.dev.gen.expected).take 64) ∧
  ∀ (s : State) (w pos : Nat) (corr : Option LineCorr) (sw : Option (Nat × Nat)), s.dev.up = true → s.dev.isPuppeteer = true →
    Gives (.line w pos corr sw) s fun d => d = s.dev

/-! ## Encoder inputs (spec/02_encoder_inputs.md) -/

/-- R35, R36, R37, R43 on a channel beside the trigger source; `bandStep` is R36's band. The model's own choice it rests on in part: log entry 113. -/
def Obligations.EdgesMakeCounts : Prop :=
  (∀ (s : State) (ch : Fin 4) (a b : Bool) (delay : Nat), s.dev.up = true → dormant s.dev = false → s.dev.rd (ENC.CFG.MODE ch) = 1 →
    s.dev.rd (ENC.CFG.DECODE ch) = 2 → ch ≠ trigSrc s.dev → ch ≠ drivingCh s.dev → s.dev.on (ENC.FO_CFG.EN (trigSrc s.dev)) = false →
    ((a != s.dev.enc[ch].a) != (b != s.dev.enc[ch].b)) = true →
    Gives (.encoderEdge ch a b delay) s fun d =>
      d.enc[ch].c = s.dev.enc[ch].c +
        (if (a != s.dev.enc[ch].a) = (a != b) then 1 else -1) ∧
      d.enc[ch].f = (bandStep d.enc[ch].c s.dev.enc[ch].f s.dev.enc[ch].rev).1 ∧
      d.enc[ch].rev = (bandStep d.enc[ch].c s.dev.enc[ch].f s.dev.enc[ch].rev).2.1 ∧
      d.enc[ch].pos = s.dev.enc[ch].pos + (d.enc[ch].f - s.dev.enc[ch].f) * encScale s.dev ch ∧
      d.enc[ch].a = a ∧ d.enc[ch].b = b ∧ d.gen = s.dev.gen ∧ s.dev.KeepsRegs d (ENC.fields ch) ∧ ∀ n : Fin 4, n ≠ ch → d.enc[n] = s.dev.enc[n]) ∧
  (∀ (s : State) (ch : Fin 4) (delay : Nat), s.dev.up = true → dormant s.dev = false → s.dev.rd (ENC.CFG.MODE ch) = 1 → ch ≠ trigSrc s.dev →
    Gives (.encoderEdge ch (!s.dev.enc[ch].a) (!s.dev.enc[ch].b) delay) s fun d =>
      d.rd (ENC.CH_STAT.QUAD_ERR ch) = 1 ∧ s.dev.Counted d (ENC.QERR_CNT.VAL ch) ∧
      d.enc[ch].c = s.dev.enc[ch].c ∧ d.enc[ch].f = s.dev.enc[ch].f ∧ d.enc[ch].pos = s.dev.enc[ch].pos ∧
      d.enc[ch].a = (!s.dev.enc[ch].a) ∧ d.enc[ch].b = (!s.dev.enc[ch].b) ∧
      s.dev.KeepsRegs d [ENC.CH_STAT.QUAD_ERR ch, ENC.QERR_CNT.VAL ch]) ∧
  ∀ (s : State) (ch : Fin 4) (aux : Bool) (delay : Nat), s.dev.up = true → dormant s.dev = false → s.dev.rd (ENC.CFG.MODE ch) = 3 →
    ch ≠ trigSrc s.dev → ch ≠ drivingCh s.dev → s.dev.on (ENC.FO_CFG.EN (trigSrc s.dev)) = false →
    Gives (.hallEdge ch aux delay) s fun d =>
      d.enc[ch].c = s.dev.enc[ch].c +
        (if s.dev.rd (ENC.CFG.HALL_DIR ch) = 1 ∨ (s.dev.rd (ENC.CFG.HALL_DIR ch) = 2 ∧ aux = true) then -1 else 1) ∧
      d.enc[ch].f = (bandStep d.enc[ch].c s.dev.enc[ch].f s.dev.enc[ch].rev).1 ∧
      d.enc[ch].pos = s.dev.enc[ch].pos + (d.enc[ch].f - s.dev.enc[ch].f) * encScale s.dev ch ∧
      d.gen = s.dev.gen ∧ s.dev.KeepsRegs d (ENC.fields ch) ∧ ∀ n : Fin 4, n ≠ ch → d.enc[n] = s.dev.enc[n]

/-- R38, R39 (Table 2.2, Report), R42, R453. The model's own choices it rests on in part: log entries 29, 113, 124. -/
def Obligations.IndexAndSsiReadings : Prop :=
  (∀ (s : State) (ch : Fin 4) (delay : Nat), s.dev.up = true → dormant s.dev = false → s.dev.rd (ENC.CFG.MODE ch) = 1 → indexGate s.dev ch = true →
    s.dev.rd (ENC.LATCH_CTL.SRC ch) ≠ 1 → s.dev.rd (ENC.INDEX_PERIOD.PERIOD ch) ≠ 0 → s.dev.enc[ch].refDue = true →
    Gives (.indexEvent ch delay) s fun d =>
      d.enc[ch].f + d.enc[ch].ofs + d.enc[ch].pendingCorr = (s.dev.rd (ENC.INDEX_PHASE.PHASE ch) : Int) ∧
      d.enc[ch].refDue = false ∧ d.enc[ch].f = s.dev.enc[ch].f ∧ d.enc[ch].pos = s.dev.enc[ch].pos ∧ d.gen = s.dev.gen ∧
      s.dev.KeepsRegs d (ENC.fields ch)) ∧
  (∀ (s : State) (ch : Fin 4) (delay : Nat), s.dev.up = true → dormant s.dev = false → s.dev.rd (ENC.CFG.MODE ch) = 1 → indexGate s.dev ch = true →
    s.dev.rd (ENC.LATCH_CTL.SRC ch) ≠ 1 → s.dev.rd (ENC.INDEX_PERIOD.PERIOD ch) ≠ 0 → s.dev.enc[ch].refDue = false →
    s.dev.rd (ENC.INDEX_CFG.MODE ch) = 1 →
    Gives (.indexEvent ch delay) s fun d =>
      let x := indexDiff (s.dev.enc[ch].f + s.dev.enc[ch].ofs + s.dev.enc[ch].pendingCorr) (s.dev.rd (ENC.INDEX_PHASE.PHASE ch))
        (s.dev.rd (ENC.INDEX_PERIOD.PERIOD ch))
      d.rd (ENC.INDEX_ERR.D ch) = ofSigned (ENC.INDEX_ERR.D ch).width x % 2 ^ (ENC.INDEX_ERR.D ch).width ∧
      d.rd (ENC.INDEX_STAT.COUNT ch) = (s.dev.rd (ENC.INDEX_STAT.COUNT ch) + 1) % 2 ^ (ENC.INDEX_STAT.COUNT ch).width ∧
      (x ≠ 0 → d.rd (ENC.INDEX_STAT.MISMATCH ch) = 1) ∧ d.enc[ch].ofs = s.dev.enc[ch].ofs ∧ d.enc[ch].slew = s.dev.enc[ch].slew ∧
      d.enc[ch].pos = s.dev.enc[ch].pos ∧ d.gen = s.dev.gen ∧
      s.dev.KeepsRegs d [ENC.INDEX_ERR.D ch, ENC.INDEX_STAT.COUNT ch, ENC.INDEX_STAT.MISMATCH ch]) ∧
  (∀ (s : State) (ch : Fin 4), s.dev.up = true → dormant s.dev = false → s.dev.rd (ENC.CFG.MODE ch) = 2 → s.dev.isStandby = false →
    s.dev.enc[ch].ssiNext ≤ s.dev.now →
    Gives (.ssiReadStart ch) s fun d =>
      d.out = .ssiClock ch.val (s.dev.rd (ENC.SSI_CFG.BITS ch) +
        (if s.dev.rd (ENC.SSI_CFG.PAR ch) = 1 ∨ s.dev.rd (ENC.SSI_CFG.PAR ch) = 2 then 2 else 1)) :: s.dev.out ∧
      d.enc[ch].ssiBusy = true ∧ s.dev.now + 16000 * s.dev.rd (ENC.SSI_CFG.MONO ch) ≤ d.enc[ch].ssiNext ∧ d.regs = s.dev.regs) ∧
  (∀ (s : State) (ch : Fin 4) (raw : Nat) (pb : Bool) (delay : Nat), s.dev.up = true → dormant s.dev = false → s.dev.rd (ENC.CFG.MODE ch) = 2 →
    ch ≠ trigSrc s.dev →
    Gives (.ssiReading ch true raw pb delay) s fun d =>
      s.dev.Counted d (ENC.SSI_ERR_CNT.VAL ch) ∧ d.enc[ch].ssiPrev = s.dev.enc[ch].ssiPrev ∧ d.enc[ch].c = s.dev.enc[ch].c ∧
      d.enc[ch].pos = s.dev.enc[ch].pos ∧ s.dev.KeepsRegs d [ENC.SSI_RAW.RAW ch, ENC.SSI_ERR_CNT.VAL ch]) ∧
  (∀ (s : State) (ch : Fin 4) (raw : Nat) (pb : Bool) (delay : Nat), s.dev.up = true → dormant s.dev = false → s.dev.rd (ENC.CFG.MODE ch) = 2 →
    s.dev.rd (ENC.SSI_CFG.PAR ch) = 0 → s.dev.rd (ENC.SSI_CFG.GRAY ch) = 0 → s.dev.enc[ch].ssiPrev = none →
    s.dev.enc[ch].ssiBad < 3 →
    Gives (.ssiReading ch false raw pb delay) s fun d =>
      d.enc[ch].ssiPrev = some (raw % 2 ^ s.dev.rd (ENC.SSI_CFG.BITS ch)) ∧ d.enc[ch].ssiBad = 0 ∧ d.enc[ch].c = s.dev.enc[ch].c ∧
      d.enc[ch].pos = s.dev.enc[ch].pos ∧ s.dev.KeepsRegs d [ENC.SSI_RAW.RAW ch]) ∧
  (∀ (s : State) (ch : Fin 4) (raw : Nat) (pb : Bool) (delay : Nat), s.dev.up = true → dormant s.dev = false →
    s.dev.rd (ENC.CFG.MODE ch) = 2 → s.dev.rd (ENC.SSI_CFG.PAR ch) = 0 → 3 ≤ s.dev.enc[ch].ssiBad →
    Gives (.ssiReading ch false raw pb delay) s fun d =>
      d.rd (ENC.CH_STAT.SSI_RESYNC ch) = 1 ∧ d.enc[ch].ssiBad = 0 ∧ d.enc[ch].c = s.dev.enc[ch].c ∧
      d.enc[ch].pos = s.dev.enc[ch].pos ∧ s.dev.KeepsRegs d [ENC.SSI_RAW.RAW ch, ENC.CH_STAT.SSI_RESYNC ch]) ∧
  ∀ (s : State) (ch : Fin 4), s.dev.up = true → dormant s.dev = false → s.dev.rd (ENC.CFG.MODE ch) = 2 → s.dev.isStandby = true →
    Gives (.ssiClockEdgeReceived ch) s fun d => d.enc[ch].ssiBusy = true ∧ d.enc[ch].ssiNext = s.dev.now ∧ d.regs = s.dev.regs

/-- R44, R46, R49. The model's own choices it rests on in part: log entries 5, 31, 122. -/
def Obligations.LatchesAndChannelFaults : Prop :=
  (∀ (s : State) (ch : Fin 4) (src delay : Nat) (rising : Bool), s.dev.up = true → dormant s.dev = false → 8 ≤ src → src ≤ 15 →
    s.dev.rd (ENC.LATCH_CTL.SRC ch) = src → s.dev.rd (ENC.LATCH_CTL.EDGE ch) = 2 →
    Gives (.latchEvent ch src rising delay) s fun d => d.rd (ENC.LATCH_STAT.VALID ch) = 1 ∧
      d.rd2 (ENC.L_CNT_LO.L_CNT ch) (ENC.L_CNT_HI.L_CNT ch) = ofSigned 48 s.dev.enc[ch].c ∧
      d.rd2 (ENC.L_POS_LO.L_POS ch) (ENC.L_POS_HI.L_POS ch) = ofSigned 48 (sar s.dev.enc[ch].pos 24) ∧
      (s.dev.on (ENC.LATCH_STAT.VALID ch) = true → d.rd (ENC.LATCH_STAT.OVERRUN ch) = 1) ∧ d = { s.dev with regs := d.regs }) ∧
  (∀ (s : State) (ch : Fin 4), s.dev.up = true → s.dev.rd (ENC.LATCH_CTL.SRC ch) = 2 →
    Gives (.latchSw ch) s fun d => d.rd (ENC.LATCH_STAT.VALID ch) = 1 ∧
      d.rd2 (ENC.L_CNT_LO.L_CNT ch) (ENC.L_CNT_HI.L_CNT ch) = ofSigned 48 s.dev.enc[ch].c ∧
      (s.dev.on (ENC.LATCH_STAT.VALID ch) = true → d.rd (ENC.LATCH_STAT.OVERRUN ch) = 1) ∧ d = { s.dev with regs := d.regs }) ∧
  (∀ (s : State) (ch : Fin 4), s.dev.up = true →
    Gives (.lSpeedRead ch) s fun d => d.rd (ENC.LATCH_STAT.VALID ch) = 0 ∧ s.dev.OnlyRegs d [ENC.LATCH_STAT.VALID ch]) ∧
  (∀ (s : State) (ch : Fin 4), s.dev.up = true → dormant s.dev = false → ch ≠ trigSrc s.dev →
    s.dev.enc[ch].tLast + 16000 * s.dev.rd (ENC.STANDSTILL_TIME.TIME ch) ≤ s.dev.now →
    Gives (.standstill ch) s fun d => d.rd (ENC.CH_STAT.STANDSTILL ch) = 1 ∧ d.rd (ENC.CH_STAT.SPEED_VALID ch) = 0 ∧
      s.dev.OnlyRegs d [ENC.CH_STAT.STANDSTILL ch, ENC.CH_STAT.SPEED_VALID ch]) ∧
  (∀ (s : State) (ch : Fin 4) (ln : Fin 3) (lost : Bool), s.dev.up = true → dormant s.dev = false → s.dev.rd (ENC.CFG.MODE ch) = 1 → ch ≠ trigSrc s.dev →
    Gives (.encoderLos ch ln lost) s fun d =>
      (∀ k : Fin 3, bitOf (d.rd (ENC.CH_STAT.LOS ch)) k = if k = ln then lost else bitOf (s.dev.rd (ENC.CH_STAT.LOS ch)) k) ∧
      s.dev.OnlyRegs d [ENC.CH_STAT.LOS ch]) ∧
  ∀ s : State, s.dev.up = true → s.dev.gen.foWlnBase + s.dev.rd (ENC.FO_TOL.WIN (trigSrc s.dev)) ≤ s.dev.gen.nextWln →
    s.dev.rd (ENC.FO_TOL.TOL (trigSrc s.dev)) * 2 ^ 24 <
      ((s.dev.enc[trigSrc s.dev].pos - s.dev.gen.foSrcBase) -
        (s.dev.enc[(Fin.ofNat 4 (s.dev.rd (ENC.FO_CFG.BACKUP (trigSrc s.dev))) : Fin 4)].pos - s.dev.gen.foBkBase)).natAbs →
    Gives .foDisagreeCheck s fun d => d.rd (ENC.FO_STAT.DISAGREE (trigSrc s.dev)) = 1 ∧
      d.gen.foSrcBase = s.dev.enc[trigSrc s.dev].pos ∧ d.gen.foWlnBase = s.dev.gen.nextWln ∧ s.dev.KeepsRegs d [ENC.FO_STAT.DISAGREE (trigSrc s.dev)]

/-! ## Camera links (spec/03_camera_links.md) -/

/-- Table 3.4, R62, R64 state by state. The model's own choices it rests on in part: log entries 5, 12, 13, 38, 39, 127. -/
def Obligations.TrainingWalksItsStates : Prop :=
  (∀ (s : State) (p : Fin 16), s.dev.up = true → linkState s.dev p = 0 → homing s.dev p ≠ 2 →
    Gives (.portEnable p) s fun d => linkState d p = 1 ∧ d.rd (PORT.LINK_CFG.EN p) = 1 ∧ d.rd (PORT.LINK_STAT.RATE p) = 0 ∧
      d.rd (PORT.LINK_STAT.LANES p) = 0 ∧ d.out = .camTx p.val true :: s.dev.out ∧ s.dev.OnlyPort d p) ∧
  (∀ (s : State) (p : Fin 16), s.dev.up = true → linkState s.dev p = 0 → s.dev.rd (PORT.LINK_CFG.HOMING p) = 2 → s.dev.isStandby = true →
    Gives (.portEnable p) s fun d => linkState d p = 7 ∧ d.rd (PORT.LINK_CFG.EN p) = 1 ∧ d.out = s.dev.out ∧ s.dev.OnlyPort d p) ∧
  (∀ (s : State) (p : Fin 16), s.dev.up = true → 1 ≤ linkState s.dev p → linkState s.dev p ≠ 5 → s.dev.ports[p].lines = [] →
    Gives (.portDisable p) s fun d => linkState d p = 0 ∧ d.rd (PORT.LINK_CFG.EN p) = 0 ∧ d.out = .camTx p.val false :: s.dev.out ∧
      s.dev.OnlyPort d p) ∧
  (∀ (s : State) (p : Fin 16), s.dev.up = true → s.dev.on (PORT.LINK_CFG.EN p) = true →
    linkState s.dev p = 2 ∨ linkState s.dev p = 3 ∨ linkState s.dev p = 4 →
    Gives (.retrain p) s fun d => linkState d p = 1 ∧ d.ports[p].chosen = none ∧ d.out = s.dev.out ∧ s.dev.OnlyPort d p) ∧
  (∀ (s : State) (p : Fin 16), s.dev.up = true → linkState s.dev p = 0 → Gives (.retrain p) s fun d => d = s.dev) ∧
  (∀ (s : State) (p : Fin 16), s.dev.up = true → cageDark s.dev p = false → linkState s.dev p = 1 →
    Gives (.blockLockGained p 0) s fun d => linkState d p = 2 ∧ d.rd (LANE.STAT.BLOCK_LOCK p 0) = 1 ∧ d.ports[p].hellos = 0 ∧
      d.out = .cam p.val .hello [3, 15, 7, 0, 32768, 0, 0, 0, 0, 0, 0] :: s.dev.out ∧ s.dev.OnlyPort d p) ∧
  (∀ (s : State) (p : Fin 16), s.dev.up = true → linkState s.dev p = 2 → s.dev.ports[p].hellos < 4 →
    Gives (.capsTimeout p) s fun d => linkState d p = 2 ∧ d.ports[p].hellos = s.dev.ports[p].hellos + 1 ∧
      d.out = .cam p.val .hello [3, 15, 7, 0, 32768, 0, 0, 0, 0, 0, 0] :: s.dev.out ∧ s.dev.OnlyPort d p) ∧
  (∀ (s : State) (p : Fin 16), s.dev.up = true → linkState s.dev p = 2 → 4 ≤ s.dev.ports[p].hellos →
    Gives (.capsTimeout p) s fun d => linkState d p = 1 ∧ d.out = s.dev.out ∧ s.dev.OnlyPort d p) ∧
  (∀ (s : State) (p : Fin 16) (c : CamCaps), s.dev.up = true → linkState s.dev p = 2 → s.dev.rd (PORT.LINK_CFG.HOMING p) = 0 →
    s.dev.rd (PORT.LINK_CFG.VER_MAX p) = 3 → s.dev.rd (PORT.LINK_CFG.RATE_MAX p) = 3 → s.dev.rd (PORT.LINK_CFG.LANE_MAX p) = 2 →
    s.dev.ports[p].excl = [] → c.maxVer = 3 → c.rateMask = 15 → c.laneMask = 7 →
    Gives (.camHello p c) s fun d => linkState d p = 3 ∧ d.rd (PORT.LINK_STAT.VER p) = 3 ∧ d.ports[p].chosen = some (3, 3, 2) ∧
      d.out = .cam p.val .choose [3, 3, 2, 2048] :: s.dev.out ∧ d.rd (PORT.CAM_CAP0.RATE_MASK p) = 15 ∧ s.dev.OnlyPort d p) ∧
  (∀ (s : State) (p : Fin 16) (c : CamCaps), s.dev.up = true → linkState s.dev p = 2 → c.laneMask = 0 →
    Gives (.camHello p c) s fun d => linkState d p = 6 ∧ d.rd (PORT.LINK_STAT.FAIL_CAUSE p) = 1 ∧ d.ports[p].excl = [] ∧
      s.dev.OnlyPort d p) ∧
  (∀ (s : State) (p : Fin 16) (ver rate lanes : Nat), s.dev.up = true → linkState s.dev p = 3 →
    s.dev.ports[p].chosen = some (ver, rate, lanes) →
    Gives (.accept p ver rate lanes 2048) s fun d => linkState d p = 3 ∧ d.ports[p].accepted = true ∧
      d.out = .camIdle p.val 256 :: s.dev.out ∧ s.dev.OnlyPort d p) ∧
  (∀ (s : State) (p : Fin 16) (ver rate lanes credits : Nat), s.dev.up = true → linkState s.dev p = 3 →
    s.dev.ports[p].chosen ≠ some (ver, rate, lanes) →
    Gives (.accept p ver rate lanes credits) s fun d => linkState d p = 1 ∧ s.dev.Counted d (PORT.LINK_STAT.ATTEMPTS p) ∧
      s.dev.OnlyPort d p) ∧
  (∀ (s : State) (p : Fin 16) (ver rate lanes : Nat), s.dev.up = true → linkState s.dev p = 3 → s.dev.ports[p].accepted = true →
    s.dev.ports[p].chosen = some (ver, rate, lanes) → rate < 4 → lanes < 3 →
    Gives (.rateSwitch p) s fun d => linkState d p = 4 ∧ d.rd (PORT.LINK_STAT.RATE p) = rate ∧ d.rd (PORT.LINK_STAT.LANES p) = lanes ∧
      d.ports[p].readySent = true ∧ d.ports[p].readyGot = false ∧ d.out = .cam p.val .ready [] :: s.dev.out ∧ s.dev.OnlyPort d p) ∧
  (∀ (s : State) (p : Fin 16), s.dev.up = true → linkState s.dev p = 3 → s.dev.ports[p].accepted = false →
    Gives (.switchTimeout p) s fun d => linkState d p = 1 ∧ s.dev.Counted d (PORT.LINK_STAT.ATTEMPTS p) ∧ s.dev.OnlyPort d p) ∧
  (∀ (s : State) (p : Fin 16), s.dev.up = true → linkState s.dev p = 4 →
    Gives (.camReady p) s fun d => d.ports[p].readyGot = true ∧ d.regs = s.dev.regs ∧ d.out = s.dev.out ∧ s.dev.OnlyPort d p) ∧
  (∀ (s : State) (p : Fin 16), s.dev.up = true → linkState s.dev p = 4 → equalized s.dev p = true → s.dev.rd (PORT.BUF_USED.B p) = 0 →
    s.dev.rd (PORT.LINK_CFG.HOMING p) = 0 →
    Gives (.linkActive p) s fun d => linkState d p = 5 ∧ d.rd (PORT.CREDIT_G.G p) = 2048 ∧ d.rd (PORT.CREDIT_R.R p) = 0 ∧
      d.out = .credit p.val 2048 :: s.dev.out ∧ d.ports[p].excl = [] ∧ s.dev.OnlyPort d p) ∧
  (∀ (s : State) (p : Fin 16), s.dev.up = true → linkState s.dev p = 4 →
    Gives (.equalizeTimeout p) s fun d => linkState d p = 1 ∧ s.dev.Counted d (PORT.LINK_STAT.ATTEMPTS p) ∧ s.dev.OnlyPort d p) ∧
  ∀ (s : State) (p : Fin 16), s.dev.up = true → linkState s.dev p = 6 →
    Gives (.failedRetry p) s fun d => linkState d p = 1 ∧ d.ports[p].excl = [] ∧ s.dev.OnlyPort d p

/-- R56, R57, R60, R61, R69, R71, R73. The model's own choices it rests on in part: log entries 13, 14, 39, 40, 42, 126, 127. -/
def Obligations.LanesErrorsAndCredits : Prop :=
  (∀ (s : State) (p : Fin 16) (k : Fin 4), s.dev.up = true → linkState s.dev p ≠ 5 → s.dev.on (LANE.STAT.LOS p k) = false →
    Gives (.laneLos p k) s fun d => d.rd (LANE.STAT.LOS p k) = 1 ∧ s.dev.Counted d (LANE.LOS_CNT.CNT p k) ∧
      s.dev.OnlyRegs d [LANE.STAT.LOS p k, LANE.LOS_CNT.CNT p k]) ∧
  (∀ (s : State) (p : Fin 16) (k : Fin 4), s.dev.up = true → linkState s.dev p = 5 → k.val < activeLanes s.dev p →
    s.dev.ports[p].lines = [] →
    Gives (.laneLos p k) s fun d => linkState d p = 1 ∧ s.dev.Counted d (PORT.LINK_DOWN_CNT.CNT p) ∧ d.rd (PORT.CREDIT_R.R p) = 0 ∧
      s.dev.OnlyPort d p) ∧
  (∀ (s : State) (p : Fin 16) (k : Fin 4) (cdr : Bool), s.dev.up = true → linkState s.dev p ≠ 5 →
    Gives (.blockLockLost p k cdr) s fun d => d.rd (LANE.STAT.BLOCK_LOCK p k) = 0 ∧ d.rd (LANE.STAT.ALIGNED p k) = 0 ∧
      (cdr = true → d.rd (LANE.STAT.CDR_LOCK p k) = 0) ∧
      s.dev.OnlyRegs d [LANE.STAT.BLOCK_LOCK p k, LANE.STAT.ALIGNED p k, LANE.STAT.CDR_LOCK p k]) ∧
  (∀ (s : State) (p : Fin 16) (used : Nat) (skews : List Nat), s.dev.up = true → linkState s.dev p = 5 → activeLanes s.dev p ≤ 4 →
    used % 2 ^ 32 ≠ s.dev.rd (PORT.CREDIT_R.R p) →
    Gives (.align p used skews) s fun d => d.rd (PORT.CREDIT_R.R p) = used % 2 ^ 32 ∧ s.dev.Counted d (PORT.RESYNC_CNT.CNT p) ∧
      (∀ k < activeLanes s.dev p, d.rd (LANE.STAT.ALIGNED p k) = if skews.getD k 0 ≤ 32 then 1 else 0) ∧ s.dev.OnlyPort d p) ∧
  (∀ (s : State) (p : Fin 16) (h v : Nat), s.dev.up = true → linkState s.dev p = 4 → adaptsTx s.dev p = true →
    Gives (.eyeReport p h v) s fun d => d.rd (LANE.TX_EQ.PRE p 0) + d.rd (LANE.TX_EQ.POST p 0) ≤ 32 ∧ d.ports[p].eyeGot = true ∧
      s.dev.KeepsRegs d [LANE.TX_EQ.PRE p 0, LANE.TX_EQ.POST p 0]) ∧
  (∀ (s : State) (p : Fin 16) (k : Fin 4) (h v : Nat), s.dev.up = true → linkState s.dev p = 5 →
    s.dev.past (.eye (4 * p.val + k.val)) (s.dev.rd (LANE.EYE_PERIOD.PERIOD p) * oneMs) = true →
    Completes (.eyeMeasure p k h v) s fun t => t.dev.rd (LANE.EYE.H p k) = min h 255 ∧ t.dev.rd (LANE.EYE.V p k) = min (v / 4 * 4) 4095 ∧
      (t.dev.rd (LANE.STAT.EYE_LOW p k) = 1 ↔
        min h 255 < s.dev.rd (LANE.EYE_MIN.H_MIN p k) ∨ min (v / 4 * 4) 4095 < s.dev.rd (LANE.EYE_MIN.V_MIN p k)) ∧ linkState t.dev p = 5 ∧
      t.dev = { s.dev with regs := t.dev.regs, nvs := t.dev.nvs, marks := t.dev.marks } ∧
      s.dev.KeepsRegs t.dev [LANE.EYE.H p k, LANE.EYE.V p k, LANE.EYE.VALID p k, LANE.STAT.EYE_LOW p k, NVS.DIRTY.N, NVS.WR_WAIT_CNT.CNT] ∧
      (∀ a, (a < trackAddr 2 (4 * p + k) ∨ trackAddr 2 (4 * p + k) + 32 ≤ a) →
        (a < trackAddr 3 (4 * p + k) ∨ trackAddr 3 (4 * p + k) + 32 ≤ a) → t.mem.byte a = s.mem.byte a) ∧ t.mem.flash = s.mem.flash) ∧
  (∀ (s : State) (p : Fin 16) (n : Nat), s.dev.up = true →
    Gives (.linkMsgDiscard p n) s fun d => s.dev.Counted d (PORT.MSG_ERR_CNT.CNT p) ∧
      s.dev.OnlyRegs d [PORT.MSG_ERR_CNT.CNT p, PORT.CREDIT_R.R p]) ∧
  (∀ (s : State) (p : Fin 16) (dt n : Nat), s.dev.up = true → receiving s.dev p = true →
    (receive s.dev p (if dt < 16 then 4 else 6 + n)).1 = true → ¬(dt = 2 ∨ dt = 3 ∨ (8 ≤ dt ∧ dt < 16)) →
    Gives (.dtError p ⟨dt, n, true, false⟩) s fun d => s.dev.Counted d (PORT.DT_ERR_CNT.CNT p) ∧
      s.dev.OnlyRegs d [PORT.DT_ERR_CNT.CNT p, PORT.CREDIT_R.R p]) ∧
  (∀ (s : State) (p : Fin 16) (dt n : Nat), s.dev.up = true → receiving s.dev p = true → (receive s.dev p 4).1 = true →
    dt = 2 ∨ dt = 3 ∨ (8 ≤ dt ∧ dt < 16) →
    Gives (.dtError p ⟨dt, n, true, false⟩) s fun d =>
      d.rd (PORT.CREDIT_R.R p) = (s.dev.rd (PORT.CREDIT_R.R p) + 2) % 2 ^ 32 ∧ s.dev.OnlyRegs d [PORT.CREDIT_R.R p]) ∧
  (∀ (s : State) (p : Fin 16) (k : Fin 4), s.dev.up = true →
    Gives (.invalidSyncHeader p k) s fun d => s.dev.Counted d (LANE.BLK_ERR_CNT.CNT p k) ∧
      s.dev.KeepsRegs d [LANE.BLK_ERR_CNT.CNT p k] ∧ s.dev.OnlyPort d p) ∧
  (∀ (s : State) (p : Fin 16) (n : Nat), s.dev.up = true → receiving s.dev p = true →
    Gives (.headerEccError ⟨p, n⟩) s fun d => s.dev.Counted d (PORT.HDR_ERR_CNT.CNT p) ∧
      d.rd (PORT.CREDIT_R.R p) = (s.dev.rd (PORT.CREDIT_R.R p) + n) % 2 ^ 32 ∧
      s.dev.KeepsRegs d [PORT.HDR_ERR_CNT.CNT p, PORT.CREDIT_R.R p] ∧ s.dev.OnlyPort d p) ∧
  (∀ (s : State) (p : Fin 16) (free : Nat), s.dev.up = true → linkState s.dev p ≠ 7 →
    65536 - (s.dev.rd (PORT.BUF_USED.B p) : Int) - grantLeft s.dev p = free → s.dev.rd (PORT.CREDIT_G.G p) + free / 32 < 2 ^ 32 →
    Gives (.creditGUpdate p) s fun d => d.rd (PORT.CREDIT_G.G p) = s.dev.rd (PORT.CREDIT_G.G p) + free / 32 ∧
      (d.out = .credit p.val (d.rd (PORT.CREDIT_G.G p) % 65536) :: s.dev.out ↔
        linkState s.dev p = 5 ∧ s.dev.ports[p].lastG + 16 ≤ d.rd (PORT.CREDIT_G.G p)) ∧
      s.dev.KeepsRegs d [PORT.CREDIT_G.G p] ∧ s.dev.OnlyPort d p) ∧
  (∀ (s : State) (p : Fin 16), s.dev.up = true → linkState s.dev p = 7 → Gives (.creditGUpdate p) s fun d => d = s.dev) ∧
  ∀ (s : State) (p : Fin 16), s.dev.up = true → linkState s.dev p = 5 →
    Gives (.creditSend p) s fun d => d.out = .credit p.val (s.dev.rd (PORT.CREDIT_G.G p) % 65536) :: s.dev.out ∧ d.regs = s.dev.regs ∧
      d.ports[p].lastG = s.dev.rd (PORT.CREDIT_G.G p) ∧ s.dev.OnlyPort d p

/-- R67, R68 for one packet each; `packetEpoch` is the set a packet is judged under. The model's own choices it rests on in part: log entries 40, 117, 118. -/
def Obligations.PacketsFillLines : Prop :=
  (∀ (s : State) (p vc : Fin 16) (data : Nat) (l : PLine), s.dev.up = true → linkState s.dev p = 5 → onImage s.dev p vc = true →
    (receive s.dev p 4).1 = true → (s.dev.lines p).find? (fun l => l.closed.isNone && l.sent && l.trig.wln % 65536 == data) = some l →
    Gives (.frameStart p vc data false) s fun d => d.ports[p].cur = some l.trig.wln ∧ d.ports[p].dropToFs = false ∧
      (findLine d p l.trig.wln).map PLine.fs = some true ∧ d.pipes = s.dev.pipes ∧ d.gen = s.dev.gen) ∧
  (∀ (s : State) (p vc : Fin 16) (data : Nat), s.dev.up = true → linkState s.dev p = 5 → onImage s.dev p vc = true →
    (receive s.dev p 4).1 = true → (s.dev.lines p).find? (fun l => l.closed.isNone && l.sent && l.trig.wln % 65536 == data) = none →
    Gives (.frameStart p vc data false) s fun d => s.dev.Counted d (PORT.FORMAT_CNT.CNT p) ∧ d.ports[p].dropToFs = true ∧
      s.dev.KeepsRegs d [PORT.FORMAT_CNT.CNT p, PORT.CREDIT_R.R p] ∧ s.dev.OnlyPort d p) ∧
  (∀ (s : State) (p vc : Fin 16) (bytes : List Byte) (w : Nat) (l : PLine), s.dev.up = true → linkState s.dev p = 5 →
    onImage s.dev p vc = true → s.dev.ports[p].dropToFs = false → s.dev.ports[p].cur = some w → findLine s.dev p w = some l →
    l.headAt = none → 8 ≤ bytes.length → (receive s.dev p (6 + bytes.length)).1 = true →
    Gives (.embeddedData p vc bytes true false) s fun d =>
      (findLine d p w).map (fun l => (l.setId, l.expo, l.gain)) =
        some (ofLeBytes (bytes.take 2), some (ofLeBytes ((bytes.drop 2).take 4)), some (ofLeBytes ((bytes.drop 6).take 2))) ∧
      s.dev.KeepsRegs d [PORT.CREDIT_R.R p, PORT.BUF_USED.B p] ∧ s.dev.OnlyPort d p) ∧
  (∀ (s : State) (p vc : Fin 16) (dt : Nat) (bytes : List Byte) (w : Nat) (l : PLine), s.dev.up = true → linkState s.dev p = 5 →
    onImage s.dev p vc = true → s.dev.ports[p].dropToFs = false → s.dev.ports[p].cur = some w → findLine s.dev p w = some l →
    dt = s.dev.cfg (packetEpoch s.dev p) (PORT.STREAM_CFG.DT_EXP p) → bytes.length % (rawGroup dt).1 = 0 →
    (receive s.dev p (6 + bytes.length)).1 = true →
    l.pix.length + (unpackRaw dt bytes.length (bytes.map BitVec.toNat)).length ≤ s.dev.cfg l.trig.epoch (PORT.LINE_LEN.LEN p) →
    Gives (.rawPacket p vc dt bytes true false) s fun d =>
      (findLine d p w).map PLine.pix = some (l.pix ++ unpackRaw dt bytes.length (bytes.map BitVec.toNat)) ∧
      (findLine d p w).map PLine.blocks = some (l.blocks + packetBlocks (6 + bytes.length)) ∧
      s.dev.KeepsRegs d [PORT.CREDIT_R.R p, PORT.BUF_USED.B p] ∧ s.dev.OnlyPort d p) ∧
  (∀ (s : State) (p vc : Fin 16) (data : Nat) (l : PLine), s.dev.up = true → linkState s.dev p = 5 → onImage s.dev p vc = true →
    s.dev.ports[p].dropToFs = false → (receive s.dev p 4).1 = true →
    (s.dev.lines p).find? (fun l => l.closed.isNone && l.fs && l.trig.wln % 65536 == data) = some l →
    findLine s.dev p l.trig.wln = some l →
    Gives (.frameEnd p vc data false) s fun d => (∀ x ∈ d.lines p, x.trig.wln = l.trig.wln → x.closed.isSome = true) ∧
      d.ports[p].cur ≠ some l.trig.wln ∧ d.pipes = s.dev.pipes ∧ d.gen = s.dev.gen) ∧
  (∀ (s : State) (p : Fin 16) (w : Nat) (l : PLine), s.dev.up = true → findLine s.dev p w = some l → l.closed = none → l.fs = false →
    l.trig.time + s.dev.rd (PORT.LINE_TIMEOUT.TIME p) * 16000 ≤ s.dev.now →
    Gives (.lineTimeout p w) s fun d => (∀ x ∈ d.lines p, x.trig.wln = w → x.closed.isSome = true) ∧
      s.dev.Counted d (PORT.MISSING_CNT.CNT p) ∧ d.pipes = s.dev.pipes ∧ d.gen = s.dev.gen) ∧
  ∀ (s : State) (p vc : Fin 16) (dt : Nat) (bytes : List Byte) (w : Nat), s.dev.up = true → linkState s.dev p = 5 → 0x30 ≤ dt → dt ≤ 0x37 →
    bitOf (s.dev.cfg (packetEpoch s.dev p) (PORT.STREAM_CFG.SIDE_VC_EN p)) vc = true → s.dev.isStandby = false →
    s.dev.ports[p].cur = some w → (receive s.dev p (6 + bytes.length)).1 = true →
    Gives (.sideStreamPacket p vc dt ⟨bytes, true, false⟩) s fun d => ∃ r, d.arch.recs = s.dev.arch.recs ++ [r] ∧ r.cseq = none ∧
      r.bytes = [0x158 + 65536 * p.val + 2 ^ 20 * vc.val, bytes.length, w % 2 ^ 32, w / 2 ^ 32].flatMap (leBytes 4) ++ bytes ++
        List.replicate ((4 - bytes.length % 4) % 4) (0 : Byte) ∧
      d.ports = s.dev.ports ∧ d.gen = s.dev.gen

/-- R74 to R78. The model's own choices it rests on in part: log entries 5, 128, 141. -/
def Obligations.BackchannelMessages : Prop :=
  (∀ (s : State) (p : Fin 16) (b : Nat) (l : PLine), s.dev.up = true → linkState s.dev p = 5 → s.dev.ports[p].boundary ≠ some b →
    s.dev.ports[p].relock ≤ b → unsent s.dev p = [l] → b ≤ l.target →
    (l.target - b) * 100 < blockTime100 (s.dev.rd (PORT.LINK_STAT.RATE p)) →
    Gives (.triggerBlockSend p b) s fun d =>
      d.out = .trigger p.val (l.trig.wln % 2 ^ 32) (l.target - b) false (s.dev.on (PORT.LINK_STAT.PRIMARY p)) :: s.dev.out ∧
      d.ports[p].boundary = some b ∧ (∀ x ∈ d.lines p, x.trig.wln = l.trig.wln → x.sent = true) ∧ d.regs = s.dev.regs ∧
      s.dev.OnlyPort d p) ∧
  (∀ (s : State) (p : Fin 16) (b : Nat) (l : PLine), s.dev.up = true → linkState s.dev p = 5 → s.dev.ports[p].boundary ≠ some b →
    s.dev.ports[p].relock ≤ b → unsent s.dev p = [l] → l.target < b →
    Gives (.triggerLate p b) s fun d =>
      d.out = .trigger p.val (l.trig.wln % 2 ^ 32) 0 true (s.dev.on (PORT.LINK_STAT.PRIMARY p)) :: s.dev.out ∧
      (∀ x ∈ d.lines p, x.trig.wln = l.trig.wln → x.sent = true ∧ bitOf x.flags PF.trigLate = true) ∧
      s.dev.Counted d (PORT.TRIG_LATE_CNT.CNT p) ∧ s.dev.KeepsRegs d [PORT.TRIG_LATE_CNT.CNT p] ∧ s.dev.OnlyPort d p) ∧
  (∀ (s : State) (p : Fin 16) (b : Nat), s.dev.up = true → s.dev.ports[p].boundary = some b →
    Gives (.triggerBlockSend p b) s (fun d => d = s.dev) ∧ Gives (.triggerLate p b) s fun d => d = s.dev) ∧
  (∀ (s : State) (p : Fin 16) (r : SetReq), s.dev.up = true → s.dev.ports[p].set = some r → r.sent = true →
    s.dev.rd (PORT.LINK_STAT.VER p) ≠ 1 →
    Gives (.setAck p r.id 0) s fun d => d.rd (STAT.SET_STAT.SENT (statPage p) (statBank p)) = 1 ∧
      d.rd (STAT.SET_STAT.BUSY (statPage p) (statBank p)) = 0 ∧ d.ports[p].set = none ∧
      s.dev.KeepsPages d [Page.PORT p, Page.STAT (statPage p)]) ∧
  (∀ (s : State) (p : Fin 16) (r : SetReq) (status : Nat), s.dev.up = true → s.dev.ports[p].set = some r → r.sent = true →
    s.dev.rd (PORT.LINK_STAT.VER p) ≠ 1 → status ≠ 0 →
    Gives (.setAck p r.id status) s fun d => d.rd (STAT.SET_STAT.FAIL (statPage p) (statBank p)) = 1 ∧
      d.rd (STAT.SET_STAT.BUSY (statPage p) (statBank p)) = 0 ∧ s.dev.Counted d (PORT.SET_FAIL_CNT.CNT p) ∧ d.ports[p].set = none ∧
      s.dev.KeepsPages d [Page.PORT p, Page.STAT (statPage p)]) ∧
  (∀ (s : State) (p : Fin 16) (tag : Nat) (r : SetReq), s.dev.up = true → s.dev.ports[p].set = some r →
    s.dev.rd (PORT.LINK_STAT.VER p) ≠ 1 → r.waiting = [(tag, false)] →
    Gives (.settingsRetry p tag) s fun d =>
      d.out = .cam p.val .settings ([tag, r.id, r.w, r.entries.length] ++ r.entries.flatMap fun e => [e.1, e.2]) :: s.dev.out ∧
      d.ports[p].set = some { r with waiting := [(tag, true)] } ∧ d.regs = s.dev.regs ∧ s.dev.OnlyPort d p) ∧
  (∀ (s : State) (p : Fin 16) (tag : Nat) (r : SetReq), s.dev.up = true → s.dev.ports[p].set = some r → r.waiting = [(tag, true)] →
    Gives (.settingsRetry p tag) s fun d => d.ports[p].set = none ∧ s.dev.Counted d (PORT.SET_FAIL_CNT.CNT p) ∧
      s.dev.KeepsPages d [Page.PORT p, Page.STAT (statPage p)]) ∧
  (∀ (s : State) (p : Fin 16), s.dev.up = true → s.dev.on (PORT.CR_STAT.BUSY p) = false → s.dev.on (PORT.CR_CTL.WRITE p) = false →
    Gives (.crGo p) s fun d => d.rd (PORT.CR_STAT.BUSY p) = 1 ∧ d.ports[p].crTag = some (s.dev.ports[p].tag, false) ∧
      d.out = .cam p.val .regRd [s.dev.ports[p].tag, s.dev.rd (PORT.CR_ADDR.ADDR p), 1] :: s.dev.out ∧
      s.dev.KeepsRegs d [PORT.CR_STAT.BUSY p] ∧ s.dev.OnlyPort d p) ∧
  (∀ (s : State) (p : Fin 16), s.dev.up = true → s.dev.on (PORT.CR_STAT.BUSY p) = true → Gives (.crGo p) s fun d => d = s.dev) ∧
  (∀ (s : State) (p : Fin 16) (tag value : Nat), s.dev.up = true → s.dev.ports[p].crTag = some (tag, false) →
    Gives (.regData p tag value) s fun d => d.rd (PORT.CR_DATA.DATA p) = value % 2 ^ 32 ∧ d.rd (PORT.CR_STAT.BUSY p) = 0 ∧
      d.rd (PORT.CR_STAT.DONE p) = 1 ∧ d.ports[p].crTag = none ∧ s.dev.OnlyPort d p) ∧
  (∀ (s : State) (p : Fin 16) (tag : Nat), s.dev.up = true → s.dev.ports[p].crTag = some (tag, true) →
    Gives (.regAck p tag) s fun d => d.rd (PORT.CR_STAT.BUSY p) = 0 ∧ d.rd (PORT.CR_STAT.DONE p) = 1 ∧ d.ports[p].crTag = none ∧
      s.dev.OnlyPort d p) ∧
  (∀ (s : State) (p : Fin 16) (tag cause : Nat) (w : Bool), s.dev.up = true → s.dev.ports[p].crTag = some (tag, w) →
    Gives (.regNak p tag cause) s fun d => d.rd (PORT.CR_STAT.NAK p) = 1 ∧ d.rd (PORT.CR_STAT.NAK_CAUSE p) = cause % 256 ∧
      d.rd (PORT.CR_STAT.BUSY p) = 0 ∧ d.ports[p].crTag = none ∧ s.dev.OnlyPort d p) ∧
  (∀ (s : State) (p : Fin 16), s.dev.up = true → s.dev.on (PORT.CR_STAT.BUSY p) = true →
    Gives (.crTimeout p) s fun d => d.rd (PORT.CR_STAT.TIMEOUT p) = 1 ∧ d.rd (PORT.CR_STAT.BUSY p) = 0 ∧ d.rd (PORT.CR_STAT.DONE p) = 1 ∧
      d.ports[p].crTag = none ∧ s.dev.OnlyPort d p) ∧
  ∀ (s : State) (p : Fin 16) (role from_ : Nat), s.dev.up = true →
    Gives (.roleAck p role from_) s fun d => d.rd (PORT.LINK_STAT.PRIMARY p) = b2n (role == 1) ∧
      s.dev.OnlyRegs d [PORT.LINK_STAT.PRIMARY p, PORT.CREDIT_R.R p]

/-! ## Line pipelines (spec/04_line_pipelines.md) -/

/-- R94, R103, R105. The model's own choices it rests on in part: log entries 8, 129. -/
def Obligations.TriggersReserveSlots : Prop :=
  (∀ s : State, s.dev.up = true → s.dev.snap.wait = [] →
    Gives .triggerAtPipeline s fun d => ∀ l : Fin 8, d.pipes[l].trigQ = s.dev.pipes[l].trigQ.tail ∧
      d.pipes[l].resQ = s.dev.pipes[l].resQ ++
        (s.dev.pipes[l].trigQ.head?.elim [] fun t => (routed s.dev t.epoch l).map fun r => (r.1.val, t)) ∧
      d.rd (PIPE.LINES_IN.CNT l) = (s.dev.pipes[l].trigQ.head?.elim (s.dev.rd (PIPE.LINES_IN.CNT l)) fun t =>
        min (s.dev.rd (PIPE.LINES_IN.CNT l) + (routed s.dev t.epoch l).length) (2 ^ 32 - 1)) ∧
      d.ports = s.dev.ports ∧ d.gen = s.dev.gen) ∧
  (∀ (s : State) (l : Fin 8) (p : Fin 16) (t : TrigRec) (rest : List (Nat × TrigRec)) (c : Ctx), s.dev.up = true →
    s.dev.pipes[l].resQ = (p.val, t) :: rest → routeOf s.dev t.epoch p = some (l, c) →
    (c = .m → s.dev.on (PIPE.STATUS.DEGRADED l) = false ∧ s.dev.rd (PIPE.DECIM.N l) ≤ 1 ∧
      (s.dev.pipes[l].slots.filter fun q => q.ctx == Ctx.m && q.state == SlotState.wait).length < s.dev.cfg t.epoch (PIPE.ARB.MRQ_MAX l)) →
    s.dev.pipes[l].slots.length < 64 →
    Gives (.slotReserve l) s fun d => d.pipes[l].resQ = rest ∧ d.regs = s.dev.regs ∧
      (∃ x, d.pipes[l].slots = s.dev.pipes[l].slots ++ [x] ∧ x.port = p.val ∧ x.trig = t ∧ x.ctx = c ∧ x.state = .wait ∧ x.item = 0 ∧
        x.cls = .process ∧ x.pipeFlags = if c = .m then 4 else 0) ∧
      ∀ k : Fin 8, k ≠ l → d.pipes[k] = s.dev.pipes[k]) ∧
  (∀ (s : State) (l : Fin 8) (p : Fin 16) (t : TrigRec) (rest : List (Nat × TrigRec)) (c : Ctx), s.dev.up = true →
    s.dev.pipes[l].resQ = (p.val, t) :: rest → routeOf s.dev t.epoch p = some (l, c) →
    (c = .m → s.dev.on (PIPE.STATUS.DEGRADED l) = false ∧ s.dev.rd (PIPE.DECIM.N l) ≤ 1 ∧
      (s.dev.pipes[l].slots.filter fun q => q.ctx == Ctx.m && q.state == SlotState.wait).length < s.dev.cfg t.epoch (PIPE.ARB.MRQ_MAX l)) →
    64 ≤ s.dev.pipes[l].slots.length →
    Gives (.slotReserve l) s fun d => d.pipes[l].slots = s.dev.pipes[l].slots ∧ s.dev.Counted d (PIPE.SLOT_FULL_CNT.CNT l) ∧
      s.dev.Counted d (PIPE.LINES_VOID.CNT l) ∧
      (∃ o, d.pipes[l].notices = s.dev.pipes[l].notices ++ [o] ∧ o.port = p.val ∧ o.trig = t ∧ bitOf o.pipeFlags QF.void = true ∧
        bitOf o.pipeFlags QF.dropped = true) ∧
      s.dev.KeepsPages d [Page.PIPE l, Page.PORT p, Page.STAT (statPage p)]) ∧
  ∀ (s : State) (l : Fin 8) (p : Fin 16) (w : Nat) (o : OutLine), s.dev.up = true →
    s.dev.pipes[l].notices.find? (fun o => o.port == p.val && o.trig.wln == w) = some o → heldBack s.dev p w none = false →
    Gives (.voidNotice l p w) s fun d => d.ports[p].lastOut = some w ∧
      (∀ x ∈ d.pipes[l].notices, ¬ (x.port = p.val ∧ x.trig.wln = w)) ∧ (∃ x ∈ d.pipes[l].passed, x.trig = o.trig ∧ x.port = p.val)

/-- R87, R88, R97, R103, R106. The model's own choices it rests on in part: log entries 44, 131. -/
def Obligations.ItemsAreGrantedAndLinesLeave : Prop :=
  (∀ (s : State) (l : Fin 8) (x : Slot) (c o : Ctx), s.dev.up = true → s.Sound → (c = .a ∧ o = .b) ∨ (c = .b ∧ o = .a) →
    ctxSlot s.dev l c = some x → ctxSlot s.dev l o = none → x.item = 0 →
    Gives (.itemGrant l) s fun d => d.pipes[l].lastIl = c ∧
      (∀ y ∈ d.pipes[l].slots, y.port = x.port → y.trig.wln = x.trig.wln → y.state = .run ∧ y.item = 1) ∧
      s.dev.KeepsPages d [Page.PIPE l] ∧ d.ports = s.dev.ports ∧ d.out = s.dev.out ∧
      ∀ k : Fin 8, k ≠ l → d.pipes[k] = s.dev.pipes[k]) ∧
  (∀ (s : State) (l : Fin 8) (x : Slot) (c o : Ctx), s.dev.up = true → s.Sound → (c = .a ∧ o = .b) ∨ (c = .b ∧ o = .a) →
    ctxSlot s.dev l c = some x → ctxSlot s.dev l o = none → x.item ≠ 0 → x.item ≤ slotSlices s.dev x →
    slotClass s.dev l x ≠ .void → (itemReadyAt s.dev l x).isSome = true →
    Gives (.itemGrant l) s fun d => d.pipes[l].lastIl = c ∧
      (∃ y ∈ d.pipes[l].slots, y.port = x.port ∧ y.trig = x.trig ∧ y.item = x.item + 1) ∧
      s.dev.KeepsPages d [Page.PIPE l] ∧ d.ports = s.dev.ports ∧ d.out = s.dev.out ∧
      ∀ k : Fin 8, k ≠ l → d.pipes[k] = s.dev.pipes[k]) ∧
  (∀ (s : State) (l : Fin 8), s.dev.up = true → ctxSlot s.dev l .a = none → ctxSlot s.dev l .b = none → ctxSlot s.dev l .m = none →
    Gives (.itemGrant l) s fun d => d = s.dev) ∧
  (∀ (s : State) (l : Fin 8) (p : Fin 16) (w : Nat) (x : Slot) (ln : PLine), s.dev.up = true →
    s.dev.pipes[l].slots.find? (fun s => s.port == p.val && s.trig.wln == w && s.ctx == .m && s.state == .wait && s.landed.isNone) =
      some x →
    findLine s.dev p w = some ln →
    ln.closed.isSome = true ∨ s.dev.cfg x.trig.epoch (PORT.LINE_LEN.LEN p) ≤ ln.pix.length → slotClass s.dev l x ≠ .void →
    Gives (.mrLineLanded l p w) s fun d =>
      (∀ y ∈ d.pipes[l].slots, y.port = p.val → y.trig.wln = w → y.landed = some s.dev.now) ∧
      d.rd (PORT.BUF_USED.B p) = (s.dev.rd (PORT.BUF_USED.B p) - ln.blocks) % 2 ^ 17 ∧ s.dev.KeepsRegs d [PORT.BUF_USED.B p] ∧
      d.out = s.dev.out) ∧
  (∀ (s : State) (l : Fin 8) (x : Slot) (bad : Bool), s.dev.up = true → ctxSlot s.dev l .m = some x → x.fetched < slotSlices s.dev x →
    x.fetched < x.item - 1 + 64 → slotClass s.dev l x ≠ .void →
    (∀ y ∈ s.dev.pipes[l].slots, y.port = x.port → y.trig.wln = x.trig.wln → y = x) →
    Gives (.mrSliceFetch l bad) s fun d =>
      (∀ y ∈ d.pipes[l].slots, y.port = x.port → y.trig.wln = x.trig.wln → y.fetched = x.fetched + 1 ∧
        y.poison = if bad then x.fetched :: x.poison else x.poison) ∧
      d.regs = s.dev.regs ∧ d.ports = s.dev.ports ∧ ∀ k : Fin 8, k ≠ l → d.pipes[k] = s.dev.pipes[k]) ∧
  (∀ (s : State) (l : Fin 8) (p : Fin 16) (w : Nat) (x : Slot), s.dev.up = true →
    s.dev.pipes[l].slots.find? (fun s => s.port == p.val && s.trig.wln == w && s.state == .run && s.tailIn) = some x →
    Gives (.lineTailOut l p w) s fun d => (∀ y ∈ d.pipes[l].slots, y.port = p.val → y.trig.wln = w → y.state = .done) ∧
      d.ports[p].lastOut = some w ∧ (x.cls = .void → s.dev.Counted d (PIPE.LINES_VOID.CNT l)) ∧
      (x.cls = .suspect → s.dev.Counted d (PIPE.LINES_SUSPECT.CNT l))) ∧
  (∀ (s : State) (l : Fin 8), s.dev.up = true →
    Gives (.ilWaitMaxClear l) s fun d => d.rd (PIPE.IL_WAIT_MAX.CYCLES l) = 0 ∧ s.dev.OnlyRegs d [PIPE.IL_WAIT_MAX.CYCLES l]) ∧
  ∀ (s : State) (l : Fin 8), s.dev.up = true →
    Gives (.mrResMaxClear l) s fun d => d.rd (PIPE.MR_RES_MAX.NS l) = 0 ∧ s.dev.OnlyRegs d [PIPE.MR_RES_MAX.NS l]

/-! ## Pixel correction and statistics (spec/05_pixel_correction.md) -/

/-- R119, R121 to R123, R127, R128. The model's own choice it rests on in part: log entry 46. -/
def Obligations.StatisticsAndTables : Prop :=
  (∀ (s : State) (p : Fin 16) (b : BlockAcc) (rest : List BlockAcc), s.dev.up = true → s.dev.corr[p].closed = b :: rest →
    s.dev.cfg b.epoch (STAT.CORR_CTL.STAT_EN (statPage p) (statBank p)) ≠ 0 →
    Completes (.statRecord p) s fun t =>
      s.mem.Stored t.mem (0x01000000 + 0x80000 * p.val + 0x30000) ((recordWords s.dev p b).flatMap (leBytes 4)) ∧
      t.dev.out = .record 0x53 ((recordWords s.dev p b).flatMap (leBytes 4)) :: s.dev.out ∧ t.dev.corr[p].closed = rest ∧
      s.dev.Counted t.dev (STAT.REC_CNT.CNT (statPage p) (statBank p)) ∧ s.dev.KeepsPages t.dev [Page.STAT (statPage p)]) ∧
  (∀ (s : State) (p : Fin 16) (b : BlockAcc) (rest : List BlockAcc), s.dev.up = true → s.dev.corr[p].flkWait = b :: rest →
    s.dev.cfg b.epoch (STAT.FLK_CTL.MODE (statPage p) (statBank p)) = 0 ∨
      s.dev.cfg b.epoch (STAT.FLK_CTL.MODE (statPage p) (statBank p)) = 3 →
    Gives (.flickerUpdate p) s fun d => d.corr[p].flkWait = rest ∧ d.corr[p].hSets = s.dev.corr[p].hSets ∧ d.regs = s.dev.regs) ∧
  (∀ (s : State) (p : Fin 16) (b : BlockAcc) (rest : List BlockAcc), s.dev.up = true →
    s.dev.corr[p].flkWait = b :: rest → s.dev.cfg b.epoch (STAT.FLK_CTL.MODE (statPage p) (statBank p)) ≠ 0 →
    s.dev.cfg b.epoch (STAT.FLK_CTL.MODE (statPage p) (statBank p)) ≠ 3 → (learnedGains s.dev p).length = 32 → b.bins.length = 32 →
    Gives (.flickerUpdate p) s fun d => (∃ g : GainSet, g.h.length = 32 ∧ g.next = b.first + b.lines ∧
        g.first = blockAfter s.dev (b.first + b.lines) (s.dev.cfg b.epoch WEB.BLOCK_LEN.VAL) ∧
        d.corr[p].hSets = g :: s.dev.corr[p].hSets.take 3) ∧ d.corr[p].flkWait = rest ∧
      (∀ q : Fin 16, q ≠ p → d.corr[q] = s.dev.corr[q]) ∧ d = { s.dev with corr := d.corr }) ∧
  (∀ (s : State) (delay : Nat), s.dev.up = true → s.dev.zeroX.length < 8 →
    Gives (.mainsZeroCrossing delay) s fun d => d.zeroX = (s.dev.now - delay) / 16 :: s.dev.zeroX ∧
      d.rd2 PWR.ZC_T_LO.T PWR.ZC_T_HI.T = (s.dev.now - delay) / 16 % 2 ^ 64 ∧ d.rd PWR.MAINS_PERIOD.NS = 0 ∧
      s.dev.KeepsRegs d [PWR.ZC_T_LO.T, PWR.ZC_T_HI.T, PWR.MAINS_PERIOD.NS]) ∧
  (∀ (s : State) (p : Fin 16), s.dev.up = true → s.dev.on (STAT.SET_STAT.BUSY (statPage p) (statBank p)) = true →
    Gives (.setReqGo p) s fun d => d = s.dev) ∧
  (∀ (s : State) (p : Fin 16) (w lead : Nat), s.dev.up = true → s.dev.on (STAT.SET_STAT.BUSY (statPage p) (statBank p)) = false →
    s.dev.rd (STAT.SET_ID.ID (statPage p) (statBank p)) ≠ 0xFFFF →
    (∀ k ∈ s.dev.corr[p].known, k.id ≠ s.dev.rd (STAT.SET_ID.ID (statPage p) (statBank p))) →
    1 ≤ s.dev.rd (STAT.SET_REQ.N (statPage p) (statBank p)) → s.dev.rd (STAT.SET_REQ.N (statPage p) (statBank p)) ≤ 32 →
    w = s.dev.rd2 WEB.BLOCK_ORIGIN_LO.BLOCK_ORIGIN WEB.BLOCK_ORIGIN_HI.BLOCK_ORIGIN +
      s.dev.rd (STAT.SET_BLOCK.BLOCK (statPage p) (statBank p)) * s.dev.rd WEB.BLOCK_LEN.VAL →
    lead = s.dev.rd (PORT.CAM_CAP1.SET_DELAY p) +
      (if s.dev.rd (PORT.LINK_STAT.VER p) = 1 then 0 else s.dev.rd (PORT.SET_LEAD.LEAD p)) →
    lead ≤ w → (s.dev.gen.maxWln.elim true fun v => decide (v < w - lead)) = true → s.Sound →
    Gives (.setReqGo p) s fun d => d.rd (STAT.SET_STAT.BUSY (statPage p) (statBank p)) = 1 ∧
      d.rd2 (STAT.SET_W_LO.W (statPage p) (statBank p)) (STAT.SET_W_HI.W (statPage p) (statBank p)) = w % 2 ^ 48 ∧
      (∃ r, d.ports[p].set = some r ∧ r.id = s.dev.rd (STAT.SET_ID.ID (statPage p) (statBank p)) ∧ r.w = w ∧ r.v = w - lead ∧
        r.sent = false ∧ r.entries.length = s.dev.rd (STAT.SET_REQ.N (statPage p) (statBank p))) ∧
      s.dev.KeepsRegs d [STAT.SET_STAT.BUSY (statPage p) (statBank p), STAT.SET_W_LO.W (statPage p) (statBank p),
        STAT.SET_W_HI.W (statPage p) (statBank p)]) ∧
  (∀ (s : State) (p : Fin 16) (o : Nat) (w : Word32), s.dev.up = true → o < 0x24000 →
    s.dev.rd (STAT.CORR_CTL.BANK (statPage p) (statBank p)) = 0 → s.dev.on (STAT.TBL_STAT.BANK_BUSY (statPage p) (statBank p)) = false →
    Completes (.corrTableWrite (0x01000000 + 0x80000 * p.val + 0x40000 + 4 * (o / 4)) w) s fun t =>
      s.mem.Stored t.mem (0x01000000 + 0x80000 * p.val + 0x40000 + 4 * (o / 4)) (leBytes 4 w.toNat) ∧ t.dev = s.dev) ∧
  ∀ (s : State) (p : Fin 16) (o : Nat) (w : Word32), s.dev.up = true → o < 0x24000 →
    s.dev.rd (STAT.CORR_CTL.BANK (statPage p) (statBank p)) = 0 →
    Gives (.corrTableWrite (0x01000000 + 0x80000 * p.val + o) w) s fun d =>
      d.rd (STAT.TBL_STAT.WR_LIVE (statPage p) (statBank p)) = 1 ∧
      s.dev.OnlyRegs d [STAT.TBL_STAT.WR_LIVE (statPage p) (statBank p)]

/-! ## Thermal heads (spec/06_thermal_readout.md) -/

/-- R135, R136, R412. The model's own choices it rests on in part: log entries 5, 8. -/
def Obligations.HeadsChangeState : Prop :=
  (∀ (s : State) (n : Fin 2), s.dev.up = true → headState s.dev n = 0 → headThere s.dev n = true →
    Gives (.headEnable n) s fun d => d.rd (THERM.CTL.EN n) = 1 ∧ headState d n = 1 ∧
      d.heads[n].t0 = s.dev.now ∧ d.heads[n].cur = none ∧ d.heads[n].settled = false ∧
      (s.dev.isStandby = false →
        d.heads[n].biasQ = s.dev.heads[n].biasQ ++ [(s.dev.rd (THERM.BIAS.CS n), s.dev.rd (THERM.BIAS.CODE n))]) ∧
      s.dev.OnlyHead d n [THERM.CTL.EN n, THERM.STATUS.STATE n, THERM.TBL_STAT.BANK_BUSY n]) ∧
  (∀ (s : State) (n : Fin 2), s.dev.up = true → headState s.dev n ≠ 0 →
    Gives (.headEnable n) s fun d => d.rd (THERM.CTL.EN n) = 1 ∧ s.dev.OnlyRegs d [THERM.CTL.EN n]) ∧
  (∀ (s : State) (n : Fin 2), s.dev.up = true → headState s.dev n ≠ 0 →
    Gives (.headDisable n) s fun d => d.rd (THERM.CTL.EN n) = 0 ∧ headState d n = 0 ∧ shState d n = 0 ∧ d.heads[n].cur = none ∧
      d.heads[n].req = none ∧ d.heads[n].capN = 0 ∧
      (s.dev.isStandby = false → d.heads[n].biasQ = s.dev.heads[n].biasQ ++ [(s.dev.rd (THERM.BIAS.CS n), 0)]) ∧
      s.dev.OnlyHead d n [THERM.CTL.EN n, THERM.STATUS.STATE n, THERM.SH_STAT.STATE n, THERM.TBL_STAT.BANK_BUSY n]) ∧
  (∀ (s : State) (n : Fin 2), s.dev.up = true → headState s.dev n = 0 →
    Gives (.headDisable n) s fun d => d.rd (THERM.CTL.EN n) = 0 ∧ s.dev.OnlyRegs d [THERM.CTL.EN n]) ∧
  (∀ (s : State) (n : Fin 2), s.dev.up = true → headState s.dev n = 4 → s.dev.on (THERM.STATUS.HEAD_PRESENT n) = true →
    Gives (.headRestart n) s fun d => headState d n = 1 ∧ d.rd (THERM.STATUS.FAULT_CAUSE n) = 0 ∧ d.heads[n].t0 = s.dev.now ∧
      n.val ∉ d.pw.tripped ∧ s.dev.KeepsRegs d [THERM.STATUS.STATE n, THERM.STATUS.FAULT_CAUSE n, THERM.TBL_STAT.BANK_BUSY n] ∧
      ∀ k : Fin 2, k ≠ n → d.heads[k] = s.dev.heads[k]) ∧
  (∀ (s : State) (n : Fin 2), s.dev.up = true → headState s.dev n = 1 ∨ headState s.dev n = 2 ∨ headState s.dev n = 3 →
    Gives (.headPresentLost n) s fun d => d.rd (THERM.STATUS.HEAD_PRESENT n) = 0 ∧ headState d n = 4 ∧
      d.rd (THERM.STATUS.FAULT_CAUSE n) = 2 ∧ bitOf (d.rd (Com.IRQ_RAW (Page.THERM n))) THERM.irq.FAULT = true ∧
      d.heads[n].cur = none ∧
      s.dev.OnlyHead d n [THERM.STATUS.HEAD_PRESENT n, THERM.STATUS.STATE n, THERM.STATUS.FAULT_CAUSE n, THERM.SH_STAT.STATE n,
        THERM.TBL_STAT.BANK_BUSY n, Com.IRQ_RAW (Page.THERM n), Com.ERR_CNT (Page.THERM n)]) ∧
  (∀ (s : State) (n : Fin 2), s.dev.up = true → headState s.dev n = 0 → s.dev.on (THERM.CTL.EN n) = true → n.val ∉ s.dev.pw.tripped →
    Gives (.headPresentGained n) s fun d => d.rd (THERM.STATUS.HEAD_PRESENT n) = 1 ∧ headState d n = 1 ∧
      d.heads[n].t0 = s.dev.now ∧
      s.dev.OnlyHead d n [THERM.STATUS.HEAD_PRESENT n, THERM.STATUS.STATE n, THERM.TBL_STAT.BANK_BUSY n]) ∧
  (∀ (s : State) (n : Fin 2) (cs code : Nat) (rest : List (Nat × Nat)), s.dev.up = true → s.dev.heads[n].biasQ = (cs, code) :: rest →
    Gives (.biasTransfer n) s fun d => d.out = .spiOut cs 24 (0x300000 + code) (s.dev.rd (MGMT.MST_SEL.MODE cs)) (max 3 (s.dev.rd (MGMT.MST_SEL.DIV cs)))
        (s.dev.rd (MGMT.MST_SEL.CSS cs)) (s.dev.rd (MGMT.MST_SEL.CSH cs)) :: s.dev.out ∧ d.heads[n].biasQ = rest ∧
      s.dev.Counted d MGMT.MST_XFER_CNT.CNT ∧ s.dev.KeepsRegs d [MGMT.MST_XFER_CNT.CNT] ∧
      ∀ k : Fin 2, k ≠ n → d.heads[k] = s.dev.heads[k]) ∧
  (∀ (s : State) (n : Fin 2), s.dev.up = true → s.dev.heads[n].biasQ = [] → Gives (.biasTransfer n) s fun d => d = s.dev) ∧
  (∀ (s : State) (n : Fin 2), s.dev.up = true →
    headState s.dev n ≠ 1 ∨ s.dev.now < s.dev.heads[n].t0 + 16000000 * s.dev.rd (THERM.BIAS.SETTLE n) →
    Gives (.biasSettled n) s fun d => d = s.dev) ∧
  (∀ (s : State) (n : Fin 2), s.dev.up = true → headState s.dev n = 1 → biasOk s.dev n = true → shState s.dev n = 0 →
    s.dev.heads[n].t0 + 16000000 * s.dev.rd (THERM.BIAS.SETTLE n) ≤ s.dev.now →
    s.dev.heads[n].req = none →
    Gives (.biasSettled n) s fun d => headState d n = 2 ∧ d.heads[n].settled = true ∧ d.heads[n].req = some 4 ∧
      s.dev.OnlyHead d n [THERM.STATUS.STATE n]) ∧
  ∀ (s : State) (n : Fin 2), s.dev.up = true → headState s.dev n = 1 → biasOk s.dev n = false →
    s.dev.heads[n].t0 + 16000000 * s.dev.rd (THERM.BIAS.SETTLE n) ≤ s.dev.now →
    Gives (.biasSettled n) s fun d => headState d n = 4 ∧ d.rd (THERM.STATUS.FAULT_CAUSE n) = 1 ∧
      bitOf (d.rd (Com.IRQ_RAW (Page.THERM n))) THERM.irq.FAULT = true ∧
      s.dev.OnlyHead d n [THERM.STATUS.STATE n, THERM.STATUS.FAULT_CAUSE n, THERM.SH_STAT.STATE n, THERM.TBL_STAT.BANK_BUSY n,
        Com.IRQ_RAW (Page.THERM n), Com.ERR_CNT (Page.THERM n)]

/-- R133, R139, R146, R147. The model's own choices it rests on in part: log entries 5, 48. -/
def Obligations.CapturesAndFrames : Prop :=
  (∀ (s : State) (n : Fin 2), s.dev.up = true → headState s.dev n = 3 → shState s.dev n = 0 → s.dev.heads[n].req = none →
    Gives (.shNow n) s fun d => d.heads[n].req = some 3 ∧
      (s.dev.on (THERM.CTL.SH_INHIBIT n) = false → d.regs = s.dev.regs) ∧
      (s.dev.on (THERM.CTL.SH_INHIBIT n) = true → d.rd (THERM.SH_STAT.PENDING n) = 1) ∧
      s.dev.OnlyHead d n [THERM.SH_STAT.PENDING n]) ∧
  (∀ (s : State) (n : Fin 2), s.dev.up = true → headState s.dev n = 0 ∨ headState s.dev n = 1 ∨ headState s.dev n = 4 →
    Gives (.shNow n) s fun d => d = s.dev) ∧
  (∀ (s : State) (n : Fin 2) (on : Bool), s.dev.up = true →
    Gives (.shInhibitWrite n on) s fun d => d.rd (THERM.CTL.SH_INHIBIT n) = b2n on ∧
      d.rd (THERM.SH_STAT.PENDING n) = b2n (on && (s.dev.heads[n].req == some 3 || s.dev.heads[n].req == some 1)) ∧
      s.dev.OnlyRegs d [THERM.CTL.SH_INHIBIT n, THERM.SH_STAT.PENDING n]) ∧
  (∀ (s : State) (n : Fin 2), s.dev.up = true → shState s.dev n = 1 → s.dev.now ≤ dipLimit s.dev n →
    Gives (.shutterDip n) s fun d => shState d n = 2 ∧ d.heads[n].left = headCfg s.dev n (THERM.SH_CFG.SETTLE n) ∧
      s.dev.OnlyHead d n [THERM.SH_STAT.STATE n]) ∧
  (∀ (s : State) (n : Fin 2), s.dev.up = true → shState s.dev n ≠ 1 ∨ dipLimit s.dev n < s.dev.now →
    Gives (.shutterDip n) s fun d => d = s.dev) ∧
  (∀ (s : State) (n : Fin 2), s.dev.up = true → shState s.dev n = 1 → s.dev.heads[n].retried = false → dipLimit s.dev n ≤ s.dev.now →
    Gives (.shutterDipTimeout n) s fun d => shState d n = 4 ∧ d.heads[n].retried = true ∧ d.heads[n].again = true ∧
      d.heads[n].left = headCfg s.dev n (THERM.SH_CFG.OPEN_FRAMES n) ∧
      d.valves[Fin.ofNat 16 (headCfg s.dev n (THERM.SH_CFG.VALVE n))].released = true ∧
      s.dev.OnlyHead d n [THERM.SH_STAT.STATE n]) ∧
  (∀ (s : State) (n : Fin 2), s.dev.up = true → shState s.dev n = 1 → s.dev.heads[n].retried = true → dipLimit s.dev n ≤ s.dev.now →
    Gives (.shutterDipTimeout n) s fun d => shState d n = 5 ∧ s.dev.Counted d (THERM.SH_FAIL_CNT.CNT n) ∧
      bitOf (d.rd (Com.IRQ_RAW (Page.THERM n))) THERM.irq.SH_FAIL = true ∧
      d.heads[n].quietUntil = s.dev.now + 16000000000 * headCfg s.dev n (THERM.SH_INTERVAL.MIN n) ∧
      s.dev.OnlyHead d n [THERM.SH_STAT.STATE n, THERM.SH_FAIL_CNT.CNT n, Com.IRQ_RAW (Page.THERM n), Com.ERR_CNT (Page.THERM n)]) ∧
  (∀ (s : State) (n : Fin 2), s.dev.up = true → headState s.dev n = 2 → shState s.dev n = 5 → s.dev.heads[n].req = none →
    s.dev.heads[n].quietUntil ≤ s.dev.now →
    Gives (.captureRetry n) s fun d => d.heads[n].req = some 4 ∧ s.dev.OnlyHead d n []) ∧
  (∀ (s : State) (n : Fin 2), s.dev.up = true →
    Gives (.clrDyn n) s fun d => d.rd (THERM.DYN_BP.CNT n) = 0 ∧ d.heads[n].dyn = [] ∧ s.dev.OnlyHead d n [THERM.DYN_BP.CNT n]) ∧
  (∀ (s : State) (n : Fin 2), s.dev.up = true → headState s.dev n = 0 ∨ headState s.dev n = 4 ∨
      (s.dev.isStandby = false ∧ s.dev.now < s.dev.heads[n].nextF) →
    Gives (.fsync n) s fun d => d = s.dev) ∧
  (∀ (s : State) (n : Fin 2), s.dev.up = true → headState s.dev n = 3 → s.dev.heads[n].set = s.dev.regs → shState s.dev n = 0 →
    s.dev.heads[n].req = none → biasOk s.dev n = true → s.dev.heads[n].mapKey = some (mapKeyOf s.mem s.dev n) →
    s.dev.isStandby = true ∨ s.dev.heads[n].nextF ≤ s.dev.now →
    Gives (.fsync n) s fun d =>
      (∃ f, d.heads[n].cur = some f ∧ f.time = (if s.dev.isStandby then s.dev.now else s.dev.heads[n].nextF) ∧
        d.heads[n].nextF = f.time + 16 * headCfg s.dev n (THERM.FRAME_PERIOD.NS n) ∧ f.num = s.dev.rd (THERM.FRAME_CNT.CNT n) ∧
        f.epoch = s.dev.rd WEB.EPOCH_ID.LIVE_ID ∧ f.shutter = false ∧ f.capture = false ∧
        f.tFpa = (padcResult s.dev (s.dev.rd (THERM.TEMP_SRC.FPA_CONV n)) (s.dev.rd (THERM.TEMP_SRC.FPA_ENTRY n))).1 ∧
        f.dT = sat16 (sar (f.tFpa - (s.dev.heads[n].old.elim (s.dev.rdS (THERM.T_S.T n)) fun o => o.2.1)) 6)) ∧
      d.out = (if s.dev.isStandby then s.dev.out else .headPin n.val 1 1 :: s.dev.out) ∧
      headState d n = 3 ∧ s.dev.KeepsPages d [Page.THERM n] ∧ ∀ k : Fin 2, k ≠ n → d.heads[k] = s.dev.heads[k]) ∧
  (∀ (s : State) (n : Fin 2) (samples : List Nat) (delay : Nat), s.dev.up = true → s.dev.heads[n].cur = none →
    Gives (.frameDone n samples delay) s fun d => d = s.dev) ∧
  ∀ (s : State) (n : Fin 2) (samples : List Nat) (delay : Nat) (f : FrameInfo), s.dev.up = true →
    s.dev.heads[n].cur = some f → s.dev.on (THERM.STATUS.DEGRADED n) = true →
    Gives (.frameDone n samples delay) s fun d => d.heads[n].cur = none ∧ s.dev.Counted d (THERM.FRAME_CNT.CNT n) ∧
      bitOf (d.rd (Com.IRQ_RAW (Page.THERM n))) THERM.irq.FRAME = true ∧
      d.rd (THERM.CLIP_CNT.CNT n) = min (s.dev.rd (THERM.CLIP_CNT.CNT n) +
        ((samples.map fun v => v % 65536).filter fun v => v == 0 || v == 65535).length) (2 ^ 32 - 1) ∧
      s.dev.KeepsPages d [Page.THERM n, Page.TAPC] ∧ ∀ k : Fin 2, k ≠ n → d.heads[k] = s.dev.heads[k]

/-- R150 to R152, R156 to R158. The model's own choice it rests on in part: log entry 47. -/
def Obligations.MapAndNucBanks : Prop :=
  (∀ (s : State) (n : Fin 2), s.dev.up = true → s.dev.heads[n].pendL = none → Gives (.mapFinalize n) s fun d => d = s.dev) ∧
  (∀ (s : State) (n : Fin 2) (l lo z first : Int) (cnt : Nat), s.dev.up = true → s.dev.heads[n].pendL = some l →
    s.dev.heads[n].kLo = some lo → s.dev.heads[n].finalK = some z → first = max lo (z + 1) →
    cnt = min 512 (l / (max 1 (headCfg s.dev n (THERM.CELL.AW n)) : Nat) - first).toNat →
    Gives (.mapFinalize n) s fun d => d.heads[n].pendL = none ∧
      (∀ k : Nat, k < cnt → ∃ r ∈ d.heads[n].finals, r.k = first + k ∧ r.cells.length = headCfg s.dev n (THERM.MAP_CFG.XW_CELLS n)) ∧
      (∀ r ∈ s.dev.heads[n].finals, r ∈ d.heads[n].finals) ∧
      d.heads[n].finalK = some (if cnt = 0 then z else first + cnt - 1) ∧
      s.dev.OnlyHead d n [THERM.MAP_K_LO.K n, THERM.MAP_K_HI.K n]) ∧
  (∀ (s : State) (n : Fin 2) (k : Int), s.dev.up = true → (∃ r ∈ s.dev.heads[n].finals, r.k = k) →
    s.dev.on (THERM.STATUS.DEGRADED n) = false → s.dev.heads[n].lastRow = some k →
    Gives (.mapRowFetch n k) s fun d => k ∈ d.heads[n].buf ∧ d.regs = s.dev.regs ∧ s.dev.OnlyHead d n []) ∧
  (∀ (s : State) (n : Fin 2) (k : Int), s.dev.up = true → (∀ r ∈ s.dev.heads[n].finals, r.k ≠ k) →
    Gives (.mapRowFetch n k) s fun d => d = s.dev) ∧
  (∀ (s : State) (n bank : Fin 2), s.dev.up = true → bank.val ∉ s.dev.heads[n].verify →
    Gives (.nucVerify n bank) s fun d => d.rd (THERM.TBL_STAT.VBUSY n) = 1 ∧ d.heads[n].verify = s.dev.heads[n].verify ++ [bank.val] ∧
      s.dev.OnlyHead d n [THERM.TBL_STAT.VBUSY n]) ∧
  (∀ (s : State) (n bank : Fin 2), s.dev.up = true → bank.val ∈ s.dev.heads[n].verify →
    Gives (.nucVerify n bank) s fun d => d = s.dev) ∧
  (∀ (s : State) (n : Fin 2) (b : Nat) (rest : List Nat), s.dev.up = true → s.dev.heads[n].verify = b :: rest →
    s.dev.prof.verifying = false → s.dev.pw.booting = false →
    Gives (.nucVerifyDone n) s fun d => d.rd (THERM.TBL_STAT.VBUSY n) = b2n (!rest.isEmpty) ∧ d.heads[n].verify = rest ∧
      (nucGood s.mem (nucBase n b) = true → d.rd (verifiedFld n b) = 1) ∧
      (nucGood s.mem (nucBase n b) = false → d.rd (THERM.TBL_STAT.CHK_CAUSE n) = 6) ∧
      bitOf (d.rd (Com.IRQ_RAW (Page.THERM n))) THERM.irq.VERIFY_DONE = true ∧ s.dev.KeepsPages d [Page.THERM n]) ∧
  (∀ (s : State) (n bank : Fin 2) (o : Nat) (w : Word32), s.dev.up = true → o < 0x200000 → s.dev.on MEM.STATUS.DEGRADED = false →
    s.dev.rd (THERM.CTL.BANK n) ≠ bank.val → s.dev.on (THERM.TBL_STAT.BANK_BUSY n) = false →
    Completes (.nucTableWrite (nucBase n bank + 4 * o) w) s fun t => s.mem.Stored t.mem (nucBase n bank + 4 * o) (leBytes 4 w.toNat) ∧
      t.dev.rd (verifiedFld n bank) = 0 ∧ s.dev.OnlyRegs t.dev [verifiedFld n bank]) ∧
  ∀ (s : State) (n bank : Fin 2) (o : Nat) (w : Word32), s.dev.up = true → o < 0x800000 → s.dev.on MEM.STATUS.DEGRADED = false →
    s.dev.rd (THERM.CTL.BANK n) = bank.val →
    Gives (.nucTableWrite (nucBase n bank + o) w) s fun d => d.rd (THERM.TBL_STAT.WR_LIVE n) = 1 ∧
      s.dev.OnlyRegs d [THERM.TBL_STAT.WR_LIVE n]

/-! ## Stitching (spec/07_stitching.md) -/

/-- R166, R170 to R174, R178, R180. The model's own choices it rests on in part: log entries 8, 110. -/
def Obligations.WebLinesAreStitched : Prop :=
  (∀ (s : State) (l : Fin 8) (p : Fin 16) (w : Nat) (x : Slot), s.dev.up = true →
    s.dev.pipes[l].slots.find? (fun q => q.port == p.val && q.trig.wln == w && q.state == SlotState.done) = some x →
    (∀ c ∈ s.dev.stitch.cal, c.port ≠ p.val) → s.dev.snap.wait = [] →
    s.dev.cfg x.trig.epoch (STITCH.CFG.EN p) ≠ 0 →
    s.dev.on STITCH.STATUS.DEGRADED = false ∨ s.dev.cfg x.trig.epoch (STITCH.STAGGER.D p) ≤ 16 → released s.dev (w + s.dev.cfg x.trig.epoch (STITCH.STAGGER.D p)) = false →
    Gives (.segmentAccept l p w) s fun d => (∀ q ∈ d.pipes[l].slots, ¬ (q.port = p.val ∧ q.trig.wln = w)) ∧
      (∃ g, d.stitch.segs = s.dev.stitch.segs ++ [g] ∧ g.port = p.val ∧ g.wln = w ∧
        g.void = bitOf (slotOut l x).pipeFlags QF.void ∧ g.suspect = bitOf (slotOut l x).pipeFlags QF.suspect ∧
        g.cols = if g.void then [] else stage8 (s.dev.cfg x.trig.epoch) p (slotOut l x).y (b2n g.suspect)) ∧
      s.dev.Counted d (PIPE.LINES_OUT.CNT l) ∧ s.dev.KeepsRegs d [PIPE.LINES_OUT.CNT l]) ∧
  (∀ (s : State) (l : Fin 8) (p : Fin 16) (w : Nat) (x : Slot), s.dev.up = true →
    s.dev.pipes[l].slots.find? (fun q => q.port == p.val && q.trig.wln == w && q.state == SlotState.done) = some x →
    (∀ c ∈ s.dev.stitch.cal, c.port ≠ p.val) → released s.dev (w + s.dev.cfg x.trig.epoch (STITCH.STAGGER.D p)) = true →
    Gives (.segmentAccept l p w) s fun d => (∀ q ∈ d.pipes[l].slots, ¬ (q.port = p.val ∧ q.trig.wln = w)) ∧
      d.stitch = s.dev.stitch ∧ d.out = s.dev.out ∧ s.dev.Counted d (PIPE.LINES_OUT.CNT l) ∧
      s.dev.KeepsRegs d [PIPE.LINES_OUT.CNT l]) ∧
  (∀ (s : State) (upper : Bool) (w : Nat) (cols : List (Int × Nat × Nat)), s.dev.up = true → released s.dev w = false →
    Gives (.strip upper w cols) s fun d =>
      d = { s.dev with stitch := { s.dev.stitch with
        segs := s.dev.stitch.segs ++ [⟨if upper then 17 else 16, w, false, false, cols⟩] } }) ∧
  (∀ (s : State) (upper : Bool) (w : Nat) (cols : List (Int × Nat × Nat)), s.dev.up = true → released s.dev w = true →
    Gives (.strip upper w cols) s fun d => d = s.dev) ∧
  (∀ (s : State) (w : Nat), s.dev.up = true →
    Gives (.deadlineUs w) s fun d => (∀ o ∈ d.stitch.waiting, o.trig.wln = w →
        o.trig.time + 16000 * s.dev.cfg o.trig.epoch STITCH.DEADLINE_US.US ≤ s.dev.now → o.forced = true) ∧
      d.stitch.waiting.map OpenWeb.trig = s.dev.stitch.waiting.map OpenWeb.trig ∧
      d = { s.dev with stitch := { s.dev.stitch with waiting := d.stitch.waiting } }) ∧
  (∀ (s : State) (o : OpenWeb) (rest : List OpenWeb), s.dev.up = true → s.dev.stitch.waiting = o :: rest → o.forced = false →
    outstanding s.dev (s.dev.cfg o.trig.epoch) o.trig.wln ≠ [] →
    (∀ m, s.dev.gen.maxWln = some m → m < o.trig.wln + s.dev.cfg o.trig.epoch STITCH.CTL.DEADLINE_LINES) →
    Gives .webLineRelease s fun d => d = s.dev) ∧
  (∀ (s : State) (o : OpenWeb) (rest : List OpenWeb) (v : View), s.dev.up = true → s.dev.stitch.waiting = o :: rest →
    v = s.dev.cfg o.trig.epoch → outstanding s.dev v o.trig.wln = [] → stripsDue s.dev v o.trig.wln = [] → colCount v ≠ 0 →
    Completes .webLineRelease s fun t => t.dev.stitch.waiting = rest ∧ t.dev.stitch.lastRel = some o.trig.wln ∧
      s.dev.Counted t.dev STITCH.LINES_OUT.CNT ∧
      (s.dev.stitch.out ≠ [] ∨ s.dev.now < s.dev.stitch.busyUntil → s.dev.Counted t.dev STITCH.OVERLOAD_CNT.CNT) ∧
      ∃ g, t.dev.stitch.out = s.dev.stitch.out ++ [g] ∧ g.wln = o.trig.wln ∧ g.epoch = o.trig.epoch ∧ g.colFirst = colFirst v ∧
        bitOf g.flags WF.late = false ∧ g.cells.length = colCount v ∧
        ∀ k : Nat, k < colCount v → g.cells[k]? = some ((formCol (chain v (segFor s.dev v o.trig.wln)) (colFirst v + k)).getD
          (0, 2))) ∧
  (∀ (s : State) (g : WebLine) (rest : List WebLine), s.dev.up = true → s.dev.stitch.out = g :: rest →
    s.dev.stitch.busyUntil ≤ s.dev.now →
    Gives .stitchEmit s fun d =>
      (∃ f : WebLine, f.cells.length = g.cells.length ∧ f = { g with cells := f.cells } ∧
        (∀ (k : Nat) (c : Nat × Nat), g.cells[k]? = some c →
          f.cells[k]? = some (if c.2 = 2 then (fillVal s.dev (s.dev.cfg g.epoch) (g.colFirst + k), 2) else c)) ∧
        d.stitch.toSeg = s.dev.stitch.toSeg ++ [f] ∧ d.stitch.toArc = s.dev.stitch.toArc ++ [f]) ∧ d.stitch.out = rest ∧
      d.stitch.busyUntil = s.dev.now + stitchLoad g.cells.length * 40 / 3 ∧ d = { s.dev with stitch := d.stitch }) ∧
  (∀ (s : State) (g : WebLine) (rest : List WebLine), s.dev.up = true → s.dev.stitch.out = g :: rest →
    s.dev.now < s.dev.stitch.busyUntil → Gives .stitchEmit s fun d => d = s.dev) ∧
  (∀ s : State, s.dev.up = true → s.dev.on STITCH.CAL_STAT.BUSY = true → Gives .calGo s fun d => d = s.dev) ∧
  ∀ s : State, s.dev.up = true → s.dev.on STITCH.CAL_STAT.BUSY = false →
    s.dev.rd STITCH.CAL_CTL.MODE = 1 ∨ s.dev.rd STITCH.CAL_CTL.MODE = 2 → (∃ p < 16, bitOf (s.dev.rd STITCH.CAL_PORTS.MASK) p = true) →
    Gives .calGo s fun d => d.rd STITCH.CAL_STAT.BUSY = 1 ∧ d.stitch.calMode = s.dev.rd STITCH.CAL_CTL.MODE ∧
      (∀ p < 16, (∃ c ∈ d.stitch.cal, c.port = p ∧ c.left = s.dev.rd STITCH.CAL_CTL.LINES) ↔
        bitOf (s.dev.rd STITCH.CAL_PORTS.MASK) p = true) ∧
      s.dev.KeepsRegs d [STITCH.CAL_STAT.BUSY]

/-! ## Segmentation (spec/08_segmentation.md) -/

/-- R183, R187 to R189, R193, R198. The model's own choices it rests on in part: log entries 49, 53. -/
def Obligations.RunsMakeBlobs : Prop :=
  (∀ (s : State) (g : WebLine) (rest : List WebLine), s.dev.up = true → s.dev.stitch.toSeg = g :: rest → s.dev.seg.cur = none →
    s.dev.snap.jobs = [] → (∀ w e k r, s.dev.seg.prev = some (w, e, k, r) → e = g.epoch) → (∀ q ∈ s.dev.seg.geo, q.2 = true ∨ g.wln < q.1) →
    Gives .segLineHead s fun d => d.stitch.toSeg = rest ∧ d.seg.blobs = s.dev.seg.blobs ∧ d.seg.bg = s.dev.seg.bg ∧
      ∃ q, d.seg.cur = some q ∧ q.line = g ∧ q.taken = [] ∧ q.runs.length ≤ 4096 ∧
        (s.dev.cfg g.epoch SEG.CTL.EN = 0 ∨ s.dev.seg.since < s.dev.cfg g.epoch SEG.BG.WARM → q.runs = []) ∧
        (s.dev.cfg g.epoch SEG.CTL.EN ≠ 0 → s.dev.cfg g.epoch SEG.BG.WARM ≤ s.dev.seg.since →
          q.runs = (lineRuns (s.dev.cfg g.epoch) s.dev.seg.bg g).take 4096)) ∧
  (∀ s : State, s.dev.up = true → s.dev.stitch.toSeg = [] ∨ s.dev.seg.cur ≠ none → Gives .segLineHead s fun d => d = s.dev) ∧
  (∀ (s : State) (l : SegLine) (r : SegRun) (rest : List SegRun) (v : View), s.dev.up = true → s.dev.seg.cur = some l →
    l.runs = r :: rest → s.dev.seg.conts = [] → v = s.dev.cfg l.line.epoch → hit s.dev (v SEG.CTL.CONN != 0) r = [] →
    blobsFree s.dev ≠ 0 → (∀ b ∈ s.dev.seg.blobs, b.ord < s.dev.seg.ord) →
    Gives .runExtracted s fun d => d.seg.cur = some { l with runs := rest, taken := l.taken ++ [r] } ∧
      (∃ b, d.seg.blobs = s.dev.seg.blobs ++ [b] ∧ b.ord = s.dev.seg.ord ∧ b.id = 2 ^ 29 * s.dev.slot + s.dev.seg.ord % 2 ^ 29 ∧
        b.fam = r.fam ∧ b.first = l.line.wln ∧ b.last = l.line.wln ∧ b.next = [(r.a, r.b)] ∧ b.held = 0 ∧ b.flags = runFlags v r ∧
        b.acc.runs = 1 ∧ b.acc.maxRun = (r.b + 1 - r.a).toNat) ∧
      d.seg.ord = s.dev.seg.ord + 1 ∧ s.dev.Counted d SEG.BLOBS_STARTED.CNT ∧ s.dev.KeepsPages d [Page.SEG] ∧ d.out = s.dev.out) ∧
  (∀ (s : State) (l : SegLine) (r : SegRun) (rest : List SegRun), s.dev.up = true → s.dev.seg.cur = some l →
    l.runs = r :: rest → s.dev.seg.conts = [] → hit s.dev (s.dev.cfg l.line.epoch SEG.CTL.CONN != 0) r = [] → blobsFree s.dev = 0 →
    Gives .runExtracted s fun d => d.seg.cur = some { l with runs := rest, drop := true } ∧ d.seg.blobs = s.dev.seg.blobs ∧
      s.dev.Counted d SEG.RUN_DROP_CNT.CNT ∧ bitOf (d.rd (Com.IRQ_RAW Page.SEG)) SEG.irq.RUN_DROP = true ∧
      s.dev.KeepsRegs d [SEG.RUN_DROP_CNT.CNT, Com.IRQ_RAW Page.SEG, Com.ERR_CNT Page.SEG]) ∧
  (∀ (s : State) (l : SegLine) (r : SegRun) (rest : List SegRun) (b : Blob), s.dev.up = true → s.dev.seg.cur = some l →
    l.runs = r :: rest → s.dev.seg.conts = [] → hit s.dev (s.dev.cfg l.line.epoch SEG.CTL.CONN != 0) r = [b] →
    Gives .runExtracted s fun d => d.seg.cur = some { l with runs := rest, taken := l.taken ++ [r] } ∧
      d.seg.blobs.map Blob.ord = s.dev.seg.blobs.map Blob.ord ∧
      (∀ x ∈ d.seg.blobs, x.ord = b.ord → (r.a, r.b) ∈ x.next ∧ x.held = 0) ∧
      (∀ x ∈ s.dev.seg.blobs, x.ord ≠ b.ord → x ∈ d.seg.blobs) ∧ s.dev.KeepsPages d [Page.SEG] ∧ d.out = s.dev.out) ∧
  (∀ s : State, s.dev.up = true → s.dev.seg.cur = none →
    Gives .segRestart s fun d => d.seg.bg = [] ∧ d.seg.since = 0 ∧ d.seg.blobs = s.dev.seg.blobs ∧
      d.rd SEG.STATUS.WARMUP = b2n (s.dev.rd SEG.BG.WARM != 0) ∧ s.dev.KeepsRegs d [SEG.STATUS.WARMUP]) ∧
  (∀ s : State, s.dev.up = true → s.dev.seg.cur ≠ none →
    Gives .segRestart s fun d => d = { s.dev with seg := { s.dev.seg with restart := true } }) ∧
  ∀ s : State, s.dev.up = true →
    Gives .freeMinClear s fun d => d.rd SEG.FREE_MIN.N = blobsFree s.dev ∧ s.dev.OnlyRegs d [SEG.FREE_MIN.N]

/-- R185, R186, R190, R192, R194, R202. The model's own choices it rests on in part: log entries 50, 52, 53. -/
def Obligations.LinesCloseAndSeamsMeet : Prop :=
  (∀ (s : State) (l : SegLine), s.dev.up = true → s.dev.seg.cur = some l → l.runs ≠ [] →
    Gives .closeDecision s fun d => d = s.dev) ∧
  (∀ (s : State) (l : SegLine) (v : View), s.dev.up = true → s.dev.seg.cur = some l → l.runs = [] → s.dev.seg.blobs = [] →
    v = s.dev.cfg l.line.epoch → s.dev.seg.restart = false → s.dev.snap.jobs = [] → (∀ q ∈ s.dev.seg.geo, q.2 = true) →
    Gives .closeDecision s fun d => d.seg.cur = none ∧ d.seg.blobs = [] ∧
      d.seg.since = (if v SEG.CTL.EN ≠ 0 then s.dev.seg.since + 1 else s.dev.seg.since) ∧
      d.seg.prev = some (l.line.wln, l.line.epoch, 0, s.dev.now - 320) ∧ d.tags.vecs = s.dev.tags.vecs ∧
      d.seg.bg = (if v SEG.CTL.EN ≠ 0 then bgLine s.dev.seg.bg v l else s.dev.seg.bg) ∧
      d.rd SEG.STATUS.WARMUP = b2n (decide (d.seg.since < v SEG.BG.WARM)) ∧
      s.dev.KeepsPages d [Page.SEG, Page.TWIN]) ∧
  (∀ (s : State) (l : SegLine) (b : Blob) (v : View), s.dev.up = true → s.dev.seg.cur = some l → l.runs = [] →
    s.dev.seg.blobs = [b] → v = s.dev.cfg l.line.epoch → b.ends v l = true → bitOf b.flags 2 = false → bitOf b.flags 3 = false →
    b.acc.ns ≠ 0 → v SEG.MIN_AREA.AREA ≤ b.acc.n → s.dev.snap.jobs = [] → (∀ q ∈ s.dev.seg.geo, q.2 = true) →
    Gives .closeDecision s fun d => d.seg.cur = none ∧ d.seg.blobs = [] ∧
      (∃ x, d.tags.vecs = s.dev.tags.vecs ++ [x] ∧ x.blob = b.id ∧ x.feats.length = 32 ∧ x.first = b.first ∧ x.close = l.line.wln ∧
        x.epoch = l.line.epoch ∧ x.xl = b.acc.xl ∧ x.xr = b.acc.xr) ∧
      s.dev.KeepsPages d [Page.SEG, Page.TWIN]) ∧
  ∀ (s : State) (r : BoundRec), s.dev.up = true →
    Gives (.bound r) s fun d => d.rd SEG.STATUS.HI_RX = 1 ∧ d.seg.upperUpTo = some (max (s.dev.seg.upperUpTo.getD 0) r.wln) ∧
      (∀ x ∈ r.touches, ∃ u ∈ d.seg.upper, u.1 = r.wln ∧ u.2.1 = x.1) ∧ d.seg.blobs = s.dev.seg.blobs ∧
      s.dev.KeepsRegs d [SEG.STATUS.HI_RX] ∧ d.out = s.dev.out

/-! ## Classification and tags (spec/09_classification_and_tags.md) -/

/-- R207, R211, R213, R217 to R220. The model's own choice it rests on in part: log entry 55. -/
def Obligations.TagsAreFormed : Prop :=
  (∀ (s : State) (x : Vec) (rest : List Vec) (v : View) (r : Verdict), s.dev.up = true → s.dev.tags.vecs = x :: rest →
    v = s.dev.cfg x.epoch → s.Sound → s.dev.snap.jobs = [] →
    r = (if v CLASS.CTL.EN = 0 then ⟨0, 0, 0, true, false, attrOf s.mem (clsBase (v CLASS.CTL.BANK)) 0⟩ else decideVec s.mem (clsBase (v CLASS.CTL.BANK)) x.feats) →
    Gives .classify s fun d => d.tags.vecs = rest ∧ d.tags.decided = s.dev.tags.decided ++ [(x, r)] ∧
      d.rd CLASS.LAST.CLASS_WORD = classWord (x.feats.getD 28 0) r r.mark % 2 ^ 32 ∧
      s.dev.Counted d CLASS.DECIDED_CNT.CNT ∧ s.dev.Counted d SEG.BLOBS_TAGGED.CNT ∧
      s.dev.KeepsPages d [Page.SEG, Page.CLASS, Page.TWIN]) ∧
  (∀ s : State, s.dev.up = true → s.dev.tags.vecs = [] → Gives .classify s fun d => d = s.dev) ∧
  (∀ (s : State) (x : Vec) (r : Verdict) (rest : List (Vec × Verdict)), s.dev.up = true → s.dev.tags.decided = (x, r) :: rest →
    r.cls < 64 → s.dev.snap.jobs = [] →
    Gives .tagForm s fun d => d.tags.decided = rest ∧
      (∃ f, d.tags.formed = s.dev.tags.formed ++ [f] ∧ f.vec = x ∧ f.verdict = r ∧ f.words = tagWords s.dev x r ∧
        f.words.getLast? = some (s.dev.nowNs % 2 ^ 32)) ∧
      s.dev.Counted d TAG.TAGS_CNT.CNT ∧ s.dev.Counted d (CLASS.CLASS_CNT.CNT r.cls) ∧
      (r.mark = true → s.dev.Counted d TAG.MARK_REQ_CNT.CNT) ∧
      s.dev.KeepsRegs d ([TAG.TAGS_CNT.CNT, CLASS.CLASS_CNT.CNT r.cls] ++ if r.mark then [TAG.MARK_REQ_CNT.CNT] else [])) ∧
  (∀ (s : State) (f : Formed) (rest : List Formed), s.dev.up = true → s.dev.tags.formed = f :: rest → f.verdict.mark = true →
    s.dev.tags.handOff.length < 64 → s.dev.snap.jobs = [] →
    Gives .tagHandoff s fun d => d.tags.formed = rest ∧
      (∃ h, d.tags.handOff = s.dev.tags.handOff ++ [h] ∧ h.blob = f.vec.blob ∧ h.close = f.vec.close ∧
        h.cx = toSigned 32 (f.vec.feats.getD 13 0) ∧ h.prog = attrProg f.verdict.attr ∧ h.taken = f.taken ∧ h.p0 = f.vec.p0 ∧ h.p1 = f.vec.p1) ∧
      d.rd TAG.MQ_DEPTH.N = s.dev.tags.handOff.length + 1 ∧
      d.rd TAG.LAT_MAX.NS = (if s.dev.rd TAG.LAT_MAX.NS < (s.dev.now - f.vec.ref) / 16 then min ((s.dev.now - f.vec.ref) / 16) 65535
        else s.dev.rd TAG.LAT_MAX.NS) ∧
      s.dev.KeepsPages d [Page.TAG, Page.TWIN]) ∧
  (∀ (s : State) (f : Formed) (rest : List Formed), s.dev.up = true → s.dev.tags.formed = f :: rest → f.verdict.mark = true →
    64 ≤ s.dev.tags.handOff.length → s.dev.snap.jobs = [] →
    Gives .tagHandoff s fun d => d.tags.formed = rest ∧ d.tags.handOff = s.dev.tags.handOff ∧
      s.dev.Counted d TAG.MARK_FULL_CNT.CNT ∧ bitOf (d.rd (Com.IRQ_RAW Page.TAG)) TAG.irq.MARK_FULL = true ∧
      s.dev.KeepsPages d [Page.TAG, Page.TWIN]) ∧
  (∀ (s : State) (f : Formed) (rest : List Formed), s.dev.up = true → s.dev.tags.formed = f :: rest → f.verdict.mark = false →
    f.host = true → s.dev.on TAG.CTL.HOST_EN = true → s.dev.cfg f.vec.epoch TAG.CTL.FEAT_EN = 0 →
    retained s.dev.tags + 4 * f.words.length ≤ 2097152 → s.dev.snap.jobs = [] →
    Gives .tagHandoff s fun d => d.tags.formed = rest ∧ d.tags.handOff = s.dev.tags.handOff ∧
      d.tags.waiting = s.dev.tags.waiting ++ [⟨0x44, f.vec.blob, f.vec.close, f.words, s.dev.tags.uid, none⟩] ∧
      d.rd TAG.HQ_DEPTH.N = min (s.dev.tags.waiting.length + 1) 65535 ∧ s.dev.KeepsPages d [Page.TAG, Page.TWIN]) ∧
  (∀ s : State, s.dev.up = true →
    Gives .hqMaxClear s fun d => d.rd TAG.HQ_MAX.N = 0 ∧ s.dev.OnlyRegs d [TAG.HQ_MAX.N]) ∧
  ∀ s : State, s.dev.up = true →
    Gives .latMaxClear s fun d => d.rd TAG.LAT_MAX.NS = 0 ∧ s.dev.OnlyRegs d [TAG.LAT_MAX.NS]

/-- R203 to R205, R215. The model's own choices it rests on in part: log entries 5, 52. -/
def Obligations.MergeRecordsLeave : Prop :=
  (∀ (s : State) (g : Group), s.dev.up = true → s.Sound →
    s.dev.seg.groups.find? (fun g => g.cls.isNone && g.complete s.dev.seg && g.status s.dev false != 2) = some g →
    Gives .groupClassify s fun d => s.dev.Counted d CLASS.GROUP_CNT.CNT ∧
      (∀ q ∈ d.seg.groups, q.members = g.members → q.cls = some (groupVerdict (s.dev, s.mem) g).1) ∧
      (∀ q ∈ s.dev.seg.groups, q.members ≠ g.members → q ∈ d.seg.groups) ∧ d.seg.groups.length = s.dev.seg.groups.length ∧
      s.dev.KeepsRegs d [CLASS.GROUP_CNT.CNT]) ∧
  (∀ s : State, s.dev.up = true →
    s.dev.seg.groups.find? (fun g => g.cls.isNone && g.complete s.dev.seg && g.status s.dev false != 2) = none →
    Gives .groupClassify s fun d => d = s.dev) ∧
  (∀ (s : State) (g : Group), s.dev.up = true →
    s.dev.seg.groups.find? (fun g => g.complete s.dev.seg && (g.cls.isSome || g.status s.dev false == 2)) = some g →
    Gives .mergeRecord s fun d => (∀ q ∈ d.seg.groups, q.members ≠ g.members) ∧
      (∀ q ∈ s.dev.seg.groups, q.members ≠ g.members → q ∈ d.seg.groups) ∧ s.dev.Counted d SEG.MERGE_REC_CNT.CNT ∧
      s.dev.KeepsPages d [Page.SEG, Page.TAG]) ∧
  (∀ s : State, s.dev.up = true →
    s.dev.seg.groups.find? (fun g => g.complete s.dev.seg && (g.cls.isSome || g.status s.dev false == 2)) = none →
    Gives .mergeRecord s fun d => d = s.dev) ∧
  (∀ (s : State) (piece : Nat) (g : Group), s.dev.up = true → s.Sound →
    s.dev.seg.groups.find? (fun g => g.members.contains piece) = some g → g.closed ≠ [] → g.complete s.dev.seg = false →
    (∀ b ∈ s.dev.seg.blobs, b.id ∉ g.members) → g.lastClose + 16000 * s.dev.rd SEG.MERGE_TIMEOUT.US ≤ s.dev.now →
    Gives (.mergeTimeout piece) s fun d => (∀ q ∈ d.seg.groups, q.members ≠ g.members) ∧ s.dev.Counted d SEG.MERGE_PARTIAL_CNT.CNT ∧
      s.dev.Counted d SEG.MERGE_REC_CNT.CNT ∧ d.rd SEG.STATUS.HI_RX = 0 ∧ s.dev.KeepsPages d [Page.SEG, Page.CLASS, Page.TAG]) ∧
  ∀ (s : State) (piece : Nat), s.dev.up = true → (∀ g ∈ s.dev.seg.groups, piece ∉ g.members) →
    Gives (.mergeTimeout piece) s fun d => d = s.dev

/-! ## Markers and valves (spec/10_markers_and_valves.md) -/

/-- R227 to R233. The model's own choices it rests on in part: log entries 5, 60. -/
def Obligations.MarksAreArmedAndLaunched : Prop :=
  (∀ s : State, s.dev.up = true → s.dev.tags.handOff = [] → Gives .markIntake s fun d => d = s.dev) ∧
  (∀ (s : State) (h : HandOff) (rest : List HandOff), s.dev.up = true → s.dev.tags.handOff = h :: rest →
    s.dev.on MARK.STATUS.SHED = true → s.dev.snap.jobs = [] →
    Gives .markIntake s fun d => d.tags.handOff = rest ∧ d.mark.slots = s.dev.mark.slots ∧ s.dev.Counted d MARK.MARK_IN.CNT ∧
      s.dev.Counted d MARK.RES_CNT.CNT ∧ s.dev.Counted d MARK.SHED_CNT.CNT ∧ s.dev.KeepsPages d [Page.MARK, Page.TAG, Page.TWIN]) ∧
  (∀ (s : State) (h : HandOff) (rest : List HandOff) (ch : Fin 16) (k : Nat), s.dev.up = true → s.dev.tags.handOff = h :: rest →
    s.dev.on MARK.STATUS.SHED = false → s.dev.on MARK.CTL.EN = true → covering s.dev h.prog h.cx = some ch →
    s.dev.on (VALVE.FAULT.CAUSE ch) = false → freeSlotFrom s.dev.mark.slots 4096 0 = some k → s.dev.snap.jobs = [] →
    Gives .markIntake s fun d => d.tags.handOff = rest ∧ d.rd TAG.MQ_DEPTH.N = rest.length % 128 ∧
      (∃ x, d.mark.slots = s.dev.mark.slots ++ [x] ∧ x.idx = k ∧ x.blob = h.blob ∧ x.close = h.close ∧ x.ch = ch.val ∧
        x.entry = s.dev.rd (MARK.MPS.ENTRY h.prog) ∧ x.state = .armed ∧
        x.f = anchorOf s.dev h.prog h.p0 h.p1 + s.dev.rd (VALVE.DIST.UM ch) + s.dev.rdS (MARK.MPS_OFS.UM h.prog)) ∧
      d.mark.seq = s.dev.mark.seq + 1 ∧ s.dev.Counted d MARK.MARK_IN.CNT ∧ s.dev.KeepsPages d [Page.MARK, Page.TAG, Page.TWIN]) ∧
  (∀ s : State, s.dev.up = true →
    Gives .slotDue s fun d => d.mark.slots = (s.dev.mark.slots.map fun x =>
        if x.state = .armed ∧ x.due = none ∧ slotDueNow s.dev x = true then { x with due := some s.dev.now } else x) ∧
      s.dev.KeepsPages d [Page.MARK]) ∧
  (∀ (s : State) (ch : Fin 16), s.dev.up = true → canLaunch s.dev ch = false → Gives (.markLaunch ch) s fun d => d = s.dev) ∧
  (∀ (s : State) (ch : Fin 16) (e t role : Nat), s.dev.up = true → canLaunch s.dev ch = true → s.dev.valves[ch].req = some (e, t, role) →
    roleFires s.dev ch role = true → canReserve s.dev ch e = true →
    Gives (.markLaunch ch) s fun d => (∃ r, d.valves[ch].run = some r ∧ r.slot = none ∧ r.pc = s.dev.rd (entryFld ch e) ∧
        r.bank = s.dev.rd (VALVE.CFG.BANK ch) ∧ r.start = none ∧ r.decided = none ∧ r.spent = 0) ∧ d.valves[ch].req = none ∧
      d.rdS MARK.AVAIL.UJ = s.dev.rdS MARK.AVAIL.UJ - s.dev.rd (VALVE.ENERGY.UJ ch e) ∧
      d.rd MARK.RESV.UJ = (s.dev.rd MARK.RESV.UJ + s.dev.rd (VALVE.ENERGY.UJ ch e)) % 2 ^ 32 ∧
      s.dev.Counted d (VALVE.RUN_CNT.CNT ch) ∧ (∀ c : Fin 16, c ≠ ch → d.valves[c] = s.dev.valves[c]) ∧
      s.dev.KeepsPages d [Page.MARK, Page.VALVE ch]) ∧
  (∀ (s : State) (ch : Fin 16) (x : MSlot), s.dev.up = true → canLaunch s.dev ch = true → s.dev.valves[ch].req = none →
    firstDue s.dev ch = some x → s.dev.rd (VALVE.CFG.ROLE ch) = 1 → canReserve s.dev ch x.entry = true →
    Gives (.markLaunch ch) s fun d => (∃ r, d.valves[ch].run = some r ∧ r.slot = some x.idx ∧ r.pc = s.dev.rd (entryFld ch x.entry)) ∧
      (∀ y ∈ d.mark.slots, y.idx = x.idx → y.state = .run ∧ y.valve = ch.val) ∧
      (∀ y ∈ s.dev.mark.slots, y.idx ≠ x.idx → y ∈ d.mark.slots) ∧ s.dev.Counted d (VALVE.RUN_CNT.CNT ch) ∧
      s.dev.KeepsPages d [Page.MARK, Page.VALVE ch]) ∧
  (∀ (s : State) (k t : Nat) (x : MSlot), s.dev.up = true → k < 4096 → slotAt s.dev k = some x → x.state = .armed → x.due = some t →
    t + 16000 * s.dev.rd MARK.SHED_WAIT.US ≤ s.dev.now →
    s.dev.isActive = true →
    Gives (.shedWaitExpiry k) s fun d => s.dev.Counted d MARK.SHED_CNT.CNT ∧
      (s.dev.mirrored = true → ∀ y ∈ d.mark.slots, y.idx = k → y.state = .done ∧ y.result = 4) ∧
      (s.dev.mirrored = false → (∀ y ∈ d.mark.slots, y.idx ≠ k) ∧ s.dev.Counted d MARK.RES_CNT.CNT) ∧
      (∀ y ∈ s.dev.mark.slots, y.idx ≠ k → y ∈ d.mark.slots) ∧ s.dev.KeepsPages d [Page.MARK, Page.TAG]) ∧
  (∀ (s : State) (ch : Fin 16) (e t : Nat), s.dev.up = true → s.dev.valves[ch].req = some (e, t, 3) →
    t + 16000 * s.dev.rd MARK.SHED_WAIT.US ≤ s.dev.now →
    Gives (.shedWaitExpiry (4096 + ch)) s fun d => d.valves[ch].req = none ∧ d.valves[ch].run = s.dev.valves[ch].run ∧
      d = { s.dev with valves := d.valves } ∧ ∀ c : Fin 16, c ≠ ch → d.valves[c] = s.dev.valves[c]) ∧
  (∀ (s : State) (k : Nat) (x : MSlot), s.dev.up = true → slotAt s.dev k = some x → x.state = .done →
    Gives (.slotAck k) s fun d => (∀ y ∈ d.mark.slots, y.idx ≠ k) ∧ (∀ y ∈ s.dev.mark.slots, y.idx ≠ k → y ∈ d.mark.slots) ∧
      s.dev.Counted d MARK.RES_CNT.CNT ∧ s.dev.KeepsPages d [Page.MARK, Page.TAG]) ∧
  ∀ (s : State) (k : Nat), s.dev.up = true → (∀ x, slotAt s.dev k = some x → x.state ≠ .done) →
    Gives (.slotAck k) s fun d => d = s.dev

/-- R234, R235, R237, R239, R240. The model's own choices it rests on in part: log entries 57, 59, 118. -/
def Obligations.DriveInstructionsRun : Prop :=
  (∀ q ∈ [(Instr.boost, 1), (Instr.regp, 2), (Instr.regh, 3), (Instr.free, 4), (Instr.quench, 5), (Instr.waitr, 6), (Instr.wait, 11)],
    (∀ (s : State) (ch : Fin 16) (samples : List Nat), s.dev.up = true → s.Sound →
      (∀ r, s.dev.valves[ch].run = some r → opOf (progWord s.mem ch r.bank r.pc) ≠ q.2) →
      Gives (q.1 ch samples) s fun d => d = s.dev) ∧
    (∀ (s : State) (ch : Fin 16) (r : Run) (w t i : Nat), s.dev.up = true → s.Sound → s.dev.valves[ch].run = some r →
      r.window = 0 → w = progWord s.mem ch r.bank r.pc → opOf w = q.2 → r.left = some t → 2 ≤ t → i < 4096 → (q.2 = 1 → i < iOf w) →
      (q.2 = 5 → iOf w < i) → (q.2 = 6 → s.dev.valves[ch].released = false) →
      Gives (q.1 ch [i]) s fun d =>
        (∃ e, d.valves[ch].run = some e ∧ e.left = some (if q.2 = 6 then t else t - 1) ∧ e.pc = r.pc ∧
          e.ticks = (if r.start.isSome then r.ticks + 1 else r.ticks)) ∧
        d.rd (VALVE.NOW.I ch) = i ∧
        (q.2 = 1 → d.rd (VALVE.STATUS.DRIVE ch) = 1) ∧ (q.2 = 4 → d.rd (VALVE.STATUS.DRIVE ch) = 2) ∧
        (q.2 = 5 → d.rd (VALVE.STATUS.DRIVE ch) = 3) ∧ (q.2 = 11 → d.rd (VALVE.STATUS.DRIVE ch) = 0) ∧
        (q.2 = 2 ∨ q.2 = 3 ∨ q.2 = 6 → d.rd (VALVE.STATUS.DRIVE ch) =
          if i + s.dev.rd (VALVE.REG.HYST ch) < iOf w then 1 else if iOf w + s.dev.rd (VALVE.REG.HYST ch) < i then 2
          else s.dev.rd (VALVE.STATUS.DRIVE ch)) ∧
        s.dev.KeepsPages d [Page.VALVE ch, Page.HSG (groupOf ch)] ∧ ∀ c : Fin 16, c ≠ ch → d.valves[c] = s.dev.valves[c]) ∧
    (∀ (s : State) (ch : Fin 16) (r : Run) (w i : Nat), s.dev.up = true → s.Sound → s.dev.valves[ch].run = some r →
      r.window = 0 → w = progWord s.mem ch r.bank r.pc → opOf w = q.2 → q.2 ≠ 6 → r.left = some 1 →
      (q.2 = 1 → s.dev.rd (VALVE.FAULT_CFG.OPEN_I ch) ≤ i) → i < 4096 →
      Gives (q.1 ch [i]) s fun d =>
        (∃ e, d.valves[ch].run = some e ∧ e.left = none ∧ e.pc = (r.pc + 1) % 256) ∧ d.rd (VALVE.NOW.PC ch) = (r.pc + 1) % 256 ∧
        s.dev.KeepsPages d [Page.VALVE ch, Page.HSG (groupOf ch)]) ∧
    (∀ (s : State) (ch : Fin 16) (r : Run) (w : Nat), s.dev.up = true → s.Sound → s.dev.valves[ch].run = some r →
      r.window = 0 → w = progWord s.mem ch r.bank r.pc → opOf w = q.2 → r.left = none → r.admitted = true ∨ q.2 = 4 ∨ q.2 = 5 ∨ q.2 = 11 →
      (q.2 = 6 → s.dev.rd (VALVE.CFG.ROLE ch) = 2) →
      Gives (q.1 ch []) s fun d =>
        (∃ e, d.valves[ch].run = some e ∧ e.left = some (tOf w) ∧ e.pc = r.pc ∧ e.count = r.count + 1 ∧
          e.budget = (if q.2 = 4 ∨ q.2 = 5 ∨ q.2 = 11 then 0 else 4 * iOf w) ∧
          e.start = (if q.2 = 11 ∨ r.start.isSome then r.start else some (s.dev.nowNs, webPosUm s.dev))) ∧
        s.dev.KeepsPages d [Page.HSG (groupOf ch)])) ∧
  (∀ (s : State) (ch : Fin 16) (r : Run) (w t i : Nat), s.dev.up = true → s.Sound → s.dev.valves[ch].run = some r →
    r.window = 0 → w = progWord s.mem ch r.bank r.pc → opOf w = 1 → r.left = some t → 2 ≤ t → i < 4096 → iOf w ≤ i →
    Gives (.boost ch [i]) s fun d => (∃ e, d.valves[ch].run = some e ∧ e.left = none ∧ e.pc = (r.pc + 1) % 256) ∧
      s.dev.KeepsPages d [Page.VALVE ch, Page.HSG (groupOf ch)]) ∧
  (∀ (s : State) (ch : Fin 16) (r : Run) (w t i : Nat), s.dev.up = true → s.Sound → s.dev.valves[ch].run = some r →
    r.window = 0 → w = progWord s.mem ch r.bank r.pc → opOf w = 5 → r.left = some t → 2 ≤ t → i < 4096 → i ≤ iOf w →
    Gives (.quench ch [i]) s fun d => (∃ e, d.valves[ch].run = some e ∧ e.left = none ∧ e.pc = (r.pc + 1) % 256) ∧
      s.dev.KeepsPages d [Page.VALVE ch, Page.HSG (groupOf ch)]) ∧
  (∀ (s : State) (ch : Fin 16) (r : Run) (w i : Nat), s.dev.up = true → s.Sound → s.dev.valves[ch].run = some r →
    r.window = 0 → w = progWord s.mem ch r.bank r.pc → opOf w = 1 → r.left = some 1 → i < iOf w → i < 4096 →
    i < s.dev.rd (VALVE.FAULT_CFG.OPEN_I ch) → s.dev.on (VALVE.FAULT.CAUSE ch) = false →
    Gives (.boost ch [i]) s fun d => d.valves[ch].run = none ∧ d.rd (VALVE.FAULT.CAUSE ch) = 1 ∧ d.rd (VALVE.STATUS.DRIVE ch) = 0) ∧
  (∀ (s : State) (ch : Fin 16) (r : Run) (w t : Nat) (samples : List Nat), s.dev.up = true → s.Sound → s.dev.valves[ch].run = some r →
    r.window = 0 → w = progWord s.mem ch r.bank r.pc → opOf w = 6 → r.left = some t → s.dev.valves[ch].released = true →
    Gives (.waitr ch samples) s fun d => (∃ e, d.valves[ch].run = some e ∧ e.left = none ∧ e.pc = (r.pc + 1) % 256) ∧
      s.dev.KeepsPages d [Page.VALVE ch, Page.HSG (groupOf ch)]) ∧
  (∀ (s : State) (ch : Fin 16) (r : Run) (w : Nat), s.dev.up = true → s.Sound → s.dev.valves[ch].run = some r →
    r.window = 0 → w = progWord s.mem ch r.bank r.pc → opOf w = 1 → r.left = none → r.admitted = false → r.peakSince = none → r.wait = none →
    (∀ c : Fin 16, ∀ e, s.dev.valves[c].run = some e → e.wait = none) → admits s.dev ch 2 (4 * iOf w) = false →
    Gives (.boost ch []) s fun d =>
      (∃ e, d.valves[ch].run = some e ∧ e.wait = some (s.dev.now, 2, 4 * iOf w) ∧ e.pc = r.pc ∧ e.left = none) ∧
      s.dev.KeepsPages d [Page.HSG (groupOf ch)]) ∧
  (∀ (s : State) (ch : Fin 16) (r : Run) (since cls budget : Nat), s.dev.up = true → s.dev.valves[ch].run = some r →
    r.wait = some (since, cls, budget) → (∀ c : Fin 16, c ≠ ch → ∀ e, s.dev.valves[c].run = some e → e.wait = none) →
    admits s.dev ch cls budget = true →
    Gives .admissionGrant s fun d =>
      (∃ e, d.valves[ch].run = some e ∧ e.wait = none ∧ e.admitted = true ∧ e.cls = cls ∧ e.budget = budget ∧ e.pc = r.pc) ∧
      s.dev.KeepsPages d [Page.HSG (groupOf ch)] ∧ ∀ c : Fin 16, c ≠ ch → d.valves[c] = s.dev.valves[c]) ∧
  ∀ s : State, s.dev.up = true → (∀ c : Fin 16, ∀ e, s.dev.valves[c].run = some e → e.wait = none) →
    Gives .admissionGrant s fun d => d = s.dev

/-- R225, R234, R235, R237, R238. The model's own choices it rests on in part: log entries 56, 57, 58. -/
def Obligations.ProgramsBranchAndEnd : Prop :=
  (∀ q ∈ [(Instr.dip, 7), (Instr.jdip, 8), (Instr.jmp, 9), (Instr.loop, 10), (Instr.conf, 12)],
    ∀ (s : State) (ch : Fin 16) (i : Nat), s.dev.up = true → s.Sound →
      (∀ r, s.dev.valves[ch].run = some r → opOf (progWord s.mem ch r.bank r.pc) ≠ q.2) →
      Gives (q.1 ch i) s fun d => d = s.dev) ∧
  (∀ (s : State) (ch : Fin 16) (r : Run) (w i : Nat), s.dev.up = true → s.Sound → s.dev.valves[ch].run = some r →
    r.window = 0 → w = progWord s.mem ch r.bank r.pc → r.left = none →
    (opOf w = 7 → s.dev.on (VALVE.DIP_CFG.DEPTH ch) = true → Gives (.dip ch i) s fun d =>
      (∃ e, d.valves[ch].run = some e ∧ e.pc = (r.pc + 1) % 256 ∧ e.count = r.count + 1 ∧
        (r.start = none → r.window = 0 → e.armed = some (tOf w)) ∧
        (r.start ≠ none → e.armed = none ∧ e.window = tOf w - 1)) ∧ s.dev.KeepsPages d [Page.VALVE ch]) ∧
    (opOf w = 8 → Gives (.jdip ch i) s fun d =>
      (∃ e, d.valves[ch].run = some e ∧ e.pc = (if r.seen.isSome then bitsOf w 0 8 else (r.pc + 1) % 256) ∧ e.count = r.count + 1) ∧
      s.dev.KeepsPages d [Page.VALVE ch]) ∧
    (opOf w = 9 → Gives (.jmp ch i) s fun d => (∃ e, d.valves[ch].run = some e ∧ e.pc = bitsOf w 0 8 ∧ e.count = r.count + 1) ∧
      d.rd (VALVE.NOW.PC ch) = bitsOf w 0 8 ∧ s.dev.KeepsPages d [Page.VALVE ch]) ∧
    (opOf w = 10 → 2 ≤ r.loop.getD (bitsOf w 16 8) → Gives (.loop ch i) s fun d =>
      (∃ e, d.valves[ch].run = some e ∧ e.pc = bitsOf w 0 8 ∧ e.loop = some (r.loop.getD (bitsOf w 16 8) - 1)) ∧
      s.dev.KeepsPages d [Page.VALVE ch]) ∧
    (opOf w = 10 → r.loop.getD (bitsOf w 16 8) = 1 → Gives (.loop ch i) s fun d =>
      (∃ e, d.valves[ch].run = some e ∧ e.pc = (r.pc + 1) % 256 ∧ e.loop = none) ∧ s.dev.KeepsPages d [Page.VALVE ch])) ∧
  (∀ (s : State) (ch : Fin 16) (r : Run) (i : Nat), s.dev.up = true → s.Sound → s.dev.valves[ch].run = some r → r.window = 0 →
    opOf (progWord s.mem ch r.bank r.pc) = 12 → r.left = none → r.decided = none → r.seen = none →
    Gives (.conf ch i) s fun d => (∃ e, d.valves[ch].run = some e ∧ e.decided = some 1 ∧ e.pc = (r.pc + 1) % 256) ∧
      s.dev.Counted d (VALVE.DIP_MISS_CNT.CNT ch) ∧ bitOf (d.rd (Com.IRQ_RAW (Page.VALVE ch))) VALVE.irq.DIP_MISS = true ∧
      s.dev.KeepsPages d [Page.VALVE ch]) ∧
  (∀ (s : State) (ch : Fin 16) (r : Run) (i t : Nat), s.dev.up = true → s.Sound → s.dev.valves[ch].run = some r → r.window = 0 →
    opOf (progWord s.mem ch r.bank r.pc) = 12 → r.left = none → r.decided = none → r.seen = some t →
    s.dev.rd (VALVE.DIP_WIN.TMIN ch) ≤ t → t ≤ s.dev.rd (VALVE.DIP_WIN.TMAX ch) →
    Completes (.conf ch i) s fun u => ∃ e, u.dev.valves[ch].run = some e ∧ e.decided = some 0 ∧ e.pc = (r.pc + 1) % 256) ∧
  (∀ (s : State) (ch : Fin 16) (r : Run) (i : Nat), s.dev.up = true → s.Sound → s.dev.valves[ch].run = some r → r.window = 0 →
    opOf (progWord s.mem ch r.bank r.pc) = 0 → r.slot = none → r.decided = none → r.seen = none → i % 4096 ≤ 10 →
    Gives (.end_ ch [i]) s fun d => d.valves[ch].run = none ∧ d.valves[ch].rest = some s.dev.now ∧
      d.rd (VALVE.LAST.RESULT ch) = 1 ∧ d.rd (VALVE.STATUS.DRIVE ch) = 0 ∧ d.mark = s.dev.mark ∧
      bitOf (d.rd (Com.IRQ_RAW (Page.VALVE ch))) VALVE.irq.DONE = true ∧
      s.dev.KeepsPages d [Page.VALVE ch, Page.HSG (groupOf ch)]) ∧
  (∀ (s : State) (ch : Fin 16) (entry : Fin 4), s.dev.up = true → s.dev.rd (VALVE.CFG.ROLE ch) ≠ 3 →
    Gives (.valveCmdRun ch entry) s fun d => d.rd (VALVE.CMD.ENTRY ch) = entry.val ∧ s.dev.OnlyRegs d [VALVE.CMD.ENTRY ch]) ∧
  (∀ (s : State) (ch : Fin 16) (entry : Fin 4), s.dev.up = true → s.dev.rd (VALVE.CFG.ROLE ch) = 3 →
    Gives (.valveCmdRun ch entry) s fun d => d.rd (VALVE.CMD.ENTRY ch) = entry.val ∧
      (canLaunch s.dev ch = false → d.valves[ch].req = some (entry.val, s.dev.now, 3)) ∧
      (canLaunch s.dev ch = true → canReserve s.dev ch entry = true →
        (∃ r, d.valves[ch].run = some r ∧ r.pc = s.dev.rd (entryFld ch entry)) ∧ s.dev.Counted d (VALVE.RUN_CNT.CNT ch)) ∧
      s.dev.KeepsPages d [Page.MARK, Page.VALVE ch]) ∧
  (∀ (s : State) (ch : Fin 16), s.dev.up = true → s.dev.rd (VALVE.CFG.ROLE ch) ≠ 3 →
    Gives (.valveCmdStop ch) s fun d => d = s.dev) ∧
  (∀ (s : State) (ch : Fin 16), s.dev.up = true → s.dev.rd (VALVE.CFG.ROLE ch) = 3 →
    Gives (.valveCmdStop ch) s fun d => d.valves[ch].run = none ∧ d.valves[ch].req = none ∧ d.rd (VALVE.STATUS.DRIVE ch) = 0) ∧
  (∀ (s : State) (ch : Fin 16) (bank : Fin 2) (k : Fin 256) (w : Word32), s.dev.up = true → s.dev.rd (VALVE.CFG.BANK ch) ≠ bank.val →
    s.dev.on (VALVE.TBL_STAT.BANK_BUSY ch) = false →
    Completes (.valveTableWrite (0x07000000 + 0x1000 * ch.val + 0x400 * bank.val + 4 * k.val) w) s fun t =>
      s.mem.Stored t.mem (0x07000000 + 0x1000 * ch.val + 0x400 * bank.val + 4 * k.val) (leBytes 4 w.toNat) ∧ t.dev = s.dev) ∧
  (∀ (s : State) (ch : Fin 16) (bank : Fin 2) (k : Fin 256) (w : Word32), s.dev.up = true → s.dev.rd (VALVE.CFG.BANK ch) = bank.val →
    Gives (.valveTableWrite (0x07000000 + 0x1000 * ch.val + 0x400 * bank.val + 4 * k.val) w) s fun d =>
      d.rd (VALVE.TBL_STAT.WR_LIVE ch) = 1 ∧ bitOf (d.rd (Com.IRQ_RAW (Page.VALVE ch))) VALVE.irq.WR_LIVE = true ∧
      s.dev.OnlyRegs d [VALVE.TBL_STAT.WR_LIVE ch, Com.IRQ_RAW (Page.VALVE ch), Com.ERR_CNT (Page.VALVE ch)]) ∧
  ∀ (s : State) (g : Fin 4), s.dev.up = true →
    Gives (.waitMaxClear g) s fun d => d.rd (HSG.WAIT_MAX.US g) = 0 ∧ s.dev.OnlyRegs d [HSG.WAIT_MAX.US g]

/-- R242 to R246. The model's own choices it rests on in part: log entries 59, 114. -/
def Obligations.ValveFaultsAndLedger : Prop :=
  (∀ q ∈ [(Instr.coilShort, 2), (Instr.lsShort, 3), (Instr.valveOvertemp, 6)], ∀ (s : State) (ch : Fin 16), s.dev.up = true →
    Gives (q.1 ch) s fun d =>
      d.rd (VALVE.FAULT.CAUSE ch) = (if s.dev.on (VALVE.FAULT.CAUSE ch) then s.dev.rd (VALVE.FAULT.CAUSE ch) else q.2) ∧
      d.rd (VALVE.STATUS.DRIVE ch) = 0 ∧ d.valves[ch].run = none ∧ (∀ x ∈ d.mark.slots, x.ch = ch.val → x.state ≠ .armed) ∧
      s.dev.Counted d (VALVE.FAULT_CNT.CNT ch) ∧ bitOf (d.rd (Com.IRQ_RAW (Page.VALVE ch))) VALVE.irq.FAULT = true ∧
      bitOf (d.rd (Com.IRQ_RAW Page.MARK)) MARK.irq.VALVE_FAULT = true ∧ (∀ c : Fin 16, c ≠ ch → d.valves[c] = s.dev.valves[c]) ∧
      s.dev.KeepsPages d [Page.VALVE ch, Page.MARK, Page.TAG, Page.HSG (groupOf ch)]) ∧
  (∀ q ∈ [(Instr.hsShort, 1), (Instr.hsOt, 2)], ∀ (s : State) (g : Fin 4), s.dev.up = true →
    Gives (q.1 g) s fun d =>
      d.rd (HSG.FAULT.CAUSE g) = (if s.dev.on (HSG.FAULT.CAUSE g) then s.dev.rd (HSG.FAULT.CAUSE g) else q.2) ∧
      (∀ c : Fin 16, groupOf c = g.val → d.valves[c].run = none ∧ d.rd (VALVE.STATUS.DRIVE c) = 0 ∧
        d.rd (VALVE.FAULT.CAUSE c) = (if s.dev.on (VALVE.FAULT.CAUSE c) then s.dev.rd (VALVE.FAULT.CAUSE c) else 7)) ∧
      (∀ c : Fin 16, groupOf c ≠ g.val → d.valves[c] = s.dev.valves[c]) ∧
      bitOf (d.rd (Com.IRQ_RAW (Page.HSG g))) HSG.irq.FAULT = true) ∧
  (∀ (s : State) (ch : Fin 16) (r : Run) (t : Nat), s.dev.up = true → s.dev.valves[ch].run = some r → r.peakSince = some t →
    s.dev.on (VALVE.FAULT.CAUSE ch) = false → t + 16000 * max 1 (s.dev.rd (HSG.PEAK_LIMIT.US (groupOf ch))) < s.dev.now →
    Gives (.peakLong ch) s fun d => d.rd (VALVE.FAULT.CAUSE ch) = 4 ∧ d.valves[ch].run = none ∧
      bitOf (d.rd (Com.IRQ_RAW (Page.HSG (groupOf ch)))) HSG.irq.PEAK_LONG = true) ∧
  (∀ (s : State) (ch : Fin 16) (r : Run), s.dev.up = true → s.dev.valves[ch].run = some r →
    (∀ t, r.peakSince = some t → s.dev.now ≤ t + 16000 * max 1 (s.dev.rd (HSG.PEAK_LIMIT.US (groupOf ch)))) →
    Gives (.peakLong ch) s fun d => d = s.dev) ∧
  (∀ (s : State) (ch : Fin 16) (r : Run), s.dev.up = true → s.dev.valves[ch].run = some r → s.dev.on (VALVE.FAULT.CAUSE ch) = false →
    (r.count < 65536 → Gives (.progRunaway ch) s fun d => d = s.dev) ∧
    (65536 ≤ r.count → Gives (.progRunaway ch) s fun d => d.rd (VALVE.FAULT.CAUSE ch) = 5 ∧ d.valves[ch].run = none)) ∧
  (∀ (s : State) (ch : Fin 16) (r : Run), s.dev.up = true → s.dev.valves[ch].run = some r → s.dev.on (VALVE.FAULT.CAUSE ch) = false →
    r.left = none →
    (13 ≤ opOf (progWord s.mem ch r.bank r.pc) →
      Gives (.reservedOpcode ch) s fun d => d.rd (VALVE.FAULT.CAUSE ch) = 5 ∧ d.valves[ch].run = none) ∧
    (opOf (progWord s.mem ch r.bank r.pc) < 13 → Gives (.reservedOpcode ch) s fun d => d = s.dev)) ∧
  (∀ (s : State) (ch : Fin 16), s.dev.up = true → s.dev.rd (VALVE.FAULT.CAUSE ch) ≠ 0 → s.dev.rd (VALVE.FAULT.CAUSE ch) ≠ 7 →
    s.dev.on (HSG.FAULT.CAUSE (groupOf ch)) = false →
    Gives (.valveFaultClr ch false) s fun d => d.rd (VALVE.FAULT.CAUSE ch) = 0 ∧ s.dev.OnlyRegsOut d [VALVE.FAULT.CAUSE ch]) ∧
  (∀ (s : State) (ch : Fin 16) (persists : Bool), s.dev.up = true →
    s.dev.rd (VALVE.FAULT.CAUSE ch) = 0 ∨ s.dev.rd (VALVE.FAULT.CAUSE ch) = 7 →
    Gives (.valveFaultClr ch persists) s fun d => d = s.dev) ∧
  (∀ (s : State) (g : Fin 4), s.dev.up = true → s.dev.rd (HSG.FAULT.CAUSE g) ≠ 0 →
    Gives (.groupFaultClr g false) s fun d => d.rd (HSG.FAULT.CAUSE g) = 0 ∧
      (∀ c : Fin 16, groupOf c = g.val → d.rd (VALVE.FAULT.CAUSE c) =
        if s.dev.rd (VALVE.FAULT.CAUSE c) = 7 then 0 else s.dev.rd (VALVE.FAULT.CAUSE c)) ∧
      s.dev.OnlyRegsOut d (HSG.FAULT.CAUSE g :: (groupChs g).map fun c : Fin 16 => VALVE.FAULT.CAUSE c)) ∧
  (∀ (s : State) (mv : Nat), s.dev.up = true → mv < 40000 →
    Gives (.railLow mv) s fun d => d.rd MARK.STATUS.RAIL_LOW = 1 ∧ d.rd MARK.RAIL.MV = mv ∧
      bitOf (d.rd (Com.IRQ_RAW Page.MARK)) MARK.irq.RAIL_LOW = true ∧
      s.dev.OnlyRegs d [MARK.STATUS.RAIL_LOW, MARK.RAIL.MV, Com.IRQ_RAW Page.MARK, Com.ERR_CNT Page.MARK]) ∧
  (∀ (s : State) (mv : Nat), s.dev.up = true → 42000 ≤ mv → mv < 65536 →
    Gives (.railRecover mv) s fun d => d.rd MARK.STATUS.RAIL_LOW = 0 ∧ d.rd MARK.RAIL.MV = mv ∧
      s.dev.OnlyRegs d [MARK.STATUS.RAIL_LOW, MARK.RAIL.MV]) ∧
  (∀ s : State, s.dev.up = true → (∀ ch : Fin 16, s.dev.valves[ch].acc = 0 ∧ s.dev.valves[ch].ended = 0) →
    s.dev.rdS MARK.AVAIL.UJ + s.dev.rd MARK.LEDGER_RATE.UJ < 2147483648 →
    Gives .ledgerStep s fun d =>
      d.rdS MARK.AVAIL.UJ = min (s.dev.rd MARK.LEDGER_CAP.UJ : Int) (s.dev.rdS MARK.AVAIL.UJ + s.dev.rd MARK.LEDGER_RATE.UJ) ∧
      d.rd2 MARK.REFILL_LO.REFILL MARK.REFILL_HI.REFILL =
        (s.dev.rd2 MARK.REFILL_LO.REFILL MARK.REFILL_HI.REFILL + s.dev.rd MARK.LEDGER_RATE.UJ) % 2 ^ 64 ∧
      s.dev.KeepsPages d [Page.MARK]) ∧
  (∀ s : State, s.dev.up = true → s.dev.on PWR.STATUS.SHED = false → 42000 ≤ s.dev.rd MARK.RAIL.MV →
    Gives .shedEnd s fun d => d.rd MARK.STATUS.SHED = 0 ∧ s.dev.OnlyRegs d [MARK.STATUS.SHED]) ∧
  ∀ s : State, s.dev.up = true → s.dev.on PWR.STATUS.SHED = true ∨ s.dev.rd MARK.RAIL.MV < 42000 →
    Gives .shedEnd s fun d => d = s.dev

/-! ## Compression (spec/11_compression.md) -/

/-- R251 to R255, R261, R262, R265 to R267, R305. The model's own choices it rests on in part: log entries 25, 62, 63. -/
def Obligations.ArchiveBooksEveryByte : Prop :=
  (∀ s : State, s.dev.up = true → s.dev.stitch.toArc = [] → Gives .archiveLine s fun d => d = s.dev) ∧
  (∀ (s : State) (g : WebLine) (rest : List WebLine), s.dev.up = true → s.dev.stitch.toArc = g :: rest → s.dev.snap.jobs = [] →
    s.dev.on ZCTL.STATUS.DEGRADED = true ∨ s.dev.isStandby = true →
    Gives .archiveLine s fun d => d.stitch.toArc = rest ∧ d.arch = s.dev.arch ∧ d.regs = s.dev.regs) ∧
  (∀ (s : State) (g : WebLine) (rest : List WebLine) (v : View) (a : ArchSet), s.dev.up = true → s.dev.stitch.toArc = g :: rest →
    s.dev.snap.jobs = [] → s.dev.on ZCTL.STATUS.DEGRADED = false → s.dev.isStandby = false → v = s.dev.cfg g.epoch →
    a = archSet v → v ZCTL.ARCH_CFG.EN ≠ 0 → s.dev.arch.chunks = [] → 0 < g.cells.length → g.cells.length ≤ a.stripeW →
    rawLineLen a.bits g.cells.length a.states ≤ 8388608 →
    Gives .archiveLine s fun d => d.stitch.toArc = rest ∧
      ∃ c, d.arch.chunks = [c] ∧ c.id = s.dev.arch.nextId ∧ c.stripe = 0 ∧ c.epoch = g.epoch ∧ c.col0 = g.colFirst ∧
        c.width = g.cells.length ∧ c.bits = a.bits ∧ c.engine = none ∧ c.left = rawLineLen a.bits g.cells.length a.states ∧
        c.closed = decide (a.maxLines ≤ 1) ∧
        c.lines = [⟨g.wln, g.flags, g.pos, g.epoch, g.cells.map fun x => x.1 / 2 ^ (16 - a.bits), g.cells.map Prod.snd⟩]) ∧
  (∀ (s : State) (c : Chunk) (n : Nat), s.dev.up = true → s.dev.arch.chunks = [c] → c.engine = none →
    (List.range 32).find? (fun n => streamEngine s.dev n && !engFaulted s.dev n && (jobOn s.dev n).isNone) = some n →
    Gives .chunkDispatch s fun d => d.arch.chunks = [{ c with engine := some n }] ∧ d.rd (Z.STATUS.STATE n) = 1 ∧
      d.rd (Z.STATUS.CHUNKS n) = 1 ∧ d.arch.recs = s.dev.arch.recs ∧ s.dev.KeepsPages d ((List.range 32).map Page.Z)) ∧
  (∀ (s : State) (n : Fin 32) (c : Chunk), s.dev.up = true → s.dev.arch.chunks = [c] → c.engine = some n.val → c.noDefl = false →
    c.dBufs = 0 → c.dSeen = 0 → c.fBufs = 0 → c.left = rawLen c → 0 < c.left → s.dev.rd ZCTL.POOL_FREE.N ≠ 0 →
    Gives (.bufferLink n false) s fun d => d.arch.chunks = [{ c with dBufs := 1, dSeen := 32 }] ∧
      d.rd ZCTL.POOL_FREE.N = (s.dev.rd ZCTL.POOL_FREE.N - 1) % 2 ^ 15 ∧
      d.rd2 ZCTL.WRITTEN_LO.BYTES ZCTL.WRITTEN_HI.BYTES = (s.dev.rd2 ZCTL.WRITTEN_LO.BYTES ZCTL.WRITTEN_HI.BYTES + 32) % 2 ^ 64 ∧
      d.rd2 ZCTL.PENDING_LO.PENDING ZCTL.PENDING_HI.PENDING =
        (s.dev.rd2 ZCTL.PENDING_LO.PENDING ZCTL.PENDING_HI.PENDING + 32) % 2 ^ 64 ∧
      s.dev.KeepsPages d [Page.ZCTL, Page.Z n]) ∧
  (∀ (s : State) (n : Fin 32) (c : Chunk), s.dev.up = true → s.dev.arch.chunks = [c] → c.engine = some n.val → c.noDefl = false →
    c.dBufs = 0 → c.fBufs = 0 → s.dev.rd ZCTL.POOL_FREE.N = 0 →
    Gives (.bufferLink n false) s fun d => d.arch.chunks = [c] ∧ s.dev.KeepsPages d [Page.Z n]) ∧
  (∀ (s : State) (n : Fin 32) (c : Chunk), s.dev.up = true → s.dev.arch.chunks = [c] → c.engine = some n.val → c.therm = none →
    c.closed = true → c.left = 0 → c.noDefl = true → c.dBufs = 0 → c.fBufs = bufsFor (frbPayload c).length →
    frbVerified s.dev c = true →
    Gives (.chunkDecide n false false) s fun d => d.arch.chunks = [] ∧ d.arch.cseq = (s.dev.arch.cseq + 1) % 2 ^ 32 ∧
      (∃ r, d.arch.recs = s.dev.arch.recs ++ [r] ∧ r.cseq = some s.dev.arch.cseq ∧ r.lines = c.lines.length ∧ r.bufs = c.fBufs ∧
        r.bytes = archHeader s.dev c n.val 1 false true (frbPayload c).length s.dev.arch.cseq ++ frbPayload c) ∧
      s.dev.Counted d ZCTL.CHUNKS_FRB.CNT ∧ s.dev.Counted d (Z.CHUNK_CNT.CNT n) ∧
      d.arch.credit = s.dev.arch.credit - (32 + (frbPayload c).length : Nat) ∧
      s.dev.KeepsPages d [Page.ZCTL, Page.Z n, Page.HOST]) ∧
  (∀ (s : State) (n : Fin 32) (dFail fFail : Bool), s.dev.up = true → heldBy s.dev n = [] →
    Gives (.chunkDecide n dFail fFail) s fun d => d.arch.chunks = s.dev.arch.chunks ∧ d.arch.recs = s.dev.arch.recs ∧
      s.dev.KeepsPages d [Page.Z n]) ∧
  (∀ s : State, s.dev.up = true →
    Gives .budgetTick s fun d => d.arch.credit =
        min (s.dev.arch.credit + (s.dev.rd ZCTL.BUDGET.BPUS : Nat)) (s.dev.rd ZCTL.BUCKET_CAP.BYTES : Nat) ∧
      d.rd ZCTL.BUCKET.C = ofSigned 32 d.arch.credit ∧ s.dev.KeepsRegs d [ZCTL.BUCKET.C] ∧ d.out = s.dev.out) ∧
  (∀ (s : State) (port : Fin 2) (r : ArchRec) (rest : List ArchRec) (q : Nat), s.dev.up = true → s.dev.arch.recs = r :: rest →
    r.port = some port.val → r.cseq = some q →
    Gives (.recordSent port) s fun d => d.arch.recs = rest ∧ d.out = .record port.val r.bytes :: s.dev.out ∧
      d.rd2 ZCTL.SENT_LO.SENT ZCTL.SENT_HI.SENT = (s.dev.rd2 ZCTL.SENT_LO.SENT ZCTL.SENT_HI.SENT + r.bytes.length) % 2 ^ 64 ∧
      d.rd2 ZCTL.HELD_LO.HELD ZCTL.HELD_HI.HELD = (s.dev.rd2 ZCTL.HELD_LO.HELD ZCTL.HELD_HI.HELD - r.bytes.length) % 2 ^ 64 ∧
      d.rd ZCTL.POOL_FREE.N = min 16384 (s.dev.rd ZCTL.POOL_FREE.N + r.bufs) ∧ s.dev.KeepsPages d [Page.ZCTL, Page.HOST]) ∧
  (∀ (s : State) (port : Fin 2), s.dev.up = true → (∀ r ∈ s.dev.arch.recs, r.port ≠ some port.val) →
    Gives (.recordSent port) s fun d => d = s.dev) ∧
  (∀ (s : State) (n : Fin 32), s.dev.up = true → engFaulted s.dev n = true →
    Gives (.clrFault n) s fun d => engFaulted d n = false ∧ d.rd (Z.VFAIL_RUN.N n) = 0 ∧ s.dev.OnlyRegs d
      [Z.STATUS.STATE n, Z.VFAIL_RUN.N n, Z.STATUS.CHUNKS n, Z.QUEUED.BYTES n, ZCTL.F_LINE.BYTES, ZCTL.RAW_LINE.BYTES,
       ZCTL.STATUS.BUDGET_WARN, ZCTL.STATUS.CAP_WARN, ZCTL.STATUS.ARCH_ON]) ∧
  (∀ (s : State) (n : Fin 32), s.dev.up = true → engFaulted s.dev n = false → Gives (.clrFault n) s fun d => d = s.dev) ∧
  (∀ (s : State) (p vc : Fin 16) (dt : Nat) (bytes : List Byte) (w : Nat), s.dev.up = true → receiving s.dev p = true →
    0x30 ≤ dt → dt ≤ 0x37 → bitOf (s.dev.cfg (packetEpoch s.dev p) (PORT.STREAM_CFG.SIDE_VC_EN p)) vc = true →
    s.dev.isStandby = false → (receive s.dev p (6 + bytes.length)).1 = true → s.dev.ports[p].cur = some w →
    Gives (.sideStreamPacket p vc dt ⟨bytes, true, false⟩) s fun d =>
      (∃ r, d.arch.recs = s.dev.arch.recs ++ [r] ∧ r.cseq = none ∧
        r.bytes.take 16 = leBytes 4 (0x158 + 65536 * p.val + 2 ^ 20 * vc.val) ++ leBytes 4 bytes.length ++
          leBytes 4 (w % 2 ^ 32) ++ leBytes 4 (w / 2 ^ 32) ∧ (r.bytes.drop 16).take bytes.length = bytes ∧ r.bytes.length % 4 = 0) ∧
      d.arch.credit = s.dev.arch.credit - (6 + bytes.length : Nat) ∧ s.dev.KeepsPages d [Page.ZCTL, Page.HOST, Page.PORT p]) ∧
  ∀ (s : State) (p vc : Fin 16) (dt : Nat) (bytes : List Byte) (crcOk corrected : Bool), s.dev.up = true → receiving s.dev p = false →
    Gives (.sideStreamPacket p vc dt ⟨bytes, crcOk, corrected⟩) s fun d => d = s.dev

/-- R267 to R271, R306. The model's own choices it rests on in part: log entries 3, 8, 64, 138. -/
def Obligations.JobsRunAndComplete : Prop :=
  (∀ (s : State) (k : Nat), s.dev.up = true → s.dev.on HOST.STATUS.JQ_OWNED = false →
    Gives (.jqTailWrite k) s fun d => d.rd ZCTL.JQ_TAIL.IDX = k % 256 ∧ s.dev.OnlyRegs d [ZCTL.JQ_TAIL.IDX]) ∧
  (∀ (s : State) (k : Nat), s.dev.up = true → s.dev.on HOST.STATUS.JQ_OWNED = false →
    Gives (.cqHeadWrite k) s fun d => d.rd ZCTL.CQ_HEAD.IDX = k % 256 ∧
      d.arch.cq = s.dev.arch.cq.drop ((k % 256 + 256 - s.dev.rd ZCTL.CQ_HEAD.IDX) % 256) ∧ s.dev.KeepsRegs d [ZCTL.CQ_HEAD.IDX]) ∧
  (∀ (s : State) (k : Nat), s.dev.up = true → s.dev.on HOST.STATUS.JQ_OWNED = true →
    Gives (.jqTailWrite k) s (fun d => d = s.dev) ∧ Gives (.cqHeadWrite k) s fun d => d = s.dev) ∧
  (∀ s : State, s.dev.up = true → s.dev.rd ZCTL.JQ_HEAD.IDX = s.dev.rd ZCTL.JQ_TAIL.IDX → Gives .jobStart s fun d => d = s.dev) ∧
  (∀ s : State, s.dev.up = true → s.dev.on ZCTL.STATUS.DEGRADED = false → s.dev.on ZCTL.FORCE.JOB_PAUSE = true →
    Gives .jobStart s fun d => d = s.dev) ∧
  (∀ s : State, s.dev.up = true → s.dev.rd ZCTL.JQ_HEAD.IDX ≠ s.dev.rd ZCTL.JQ_TAIL.IDX → s.dev.on ZCTL.STATUS.DEGRADED = true →
    s.dev.arch.cq.length < 256 →
    Completes .jobStart s fun t => t.dev.rd ZCTL.JQ_HEAD.IDX = (s.dev.rd ZCTL.JQ_HEAD.IDX + 1) % 256 ∧
      t.dev.rd ZCTL.CQ_TAIL.IDX = (s.dev.rd ZCTL.CQ_TAIL.IDX + 1) % 256 ∧ s.dev.Counted t.dev ZCTL.JOBS_DONE.CNT ∧
      t.dev.arch.jobs = s.dev.arch.jobs ∧
      (∃ aux, s.mem.Stored t.mem (cqBase + 16 * s.dev.rd ZCTL.CQ_TAIL.IDX)
        (leBytes 4 (s.mem.u32 (jqBase + 32 * s.dev.rd ZCTL.JQ_HEAD.IDX + 4)) ++ leBytes 4 7 ++ leBytes 4 0 ++ leBytes 4 aux)) ∧
      s.dev.KeepsPages t.dev [Page.ZCTL, Page.HOST]) ∧
  (∀ (s : State) (n : Nat) (j : Job), s.dev.up = true → s.dev.rd ZCTL.JQ_HEAD.IDX ≠ s.dev.rd ZCTL.JQ_TAIL.IDX →
    s.dev.on ZCTL.STATUS.DEGRADED = false → s.dev.on ZCTL.FORCE.JOB_PAUSE = false →
    j = readJob s.mem (s.dev.rd ZCTL.JQ_HEAD.IDX) 0 → j.op ≠ 0 →
    (List.range 32).find? (fun n => !streamEngine s.dev n && !engFaulted s.dev n && (heldBy s.dev n).isEmpty &&
      (jobOn s.dev n).isNone) = some n →
    Gives .jobStart s fun d => d.arch.jobs = s.dev.arch.jobs ++ [{ j with engine := n }] ∧
      d.rd ZCTL.JQ_HEAD.IDX = (s.dev.rd ZCTL.JQ_HEAD.IDX + 1) % 256 ∧ d.rd (Z.STATUS.STATE n) = 2 ∧
      s.dev.KeepsRegs d [ZCTL.JQ_HEAD.IDX, Z.STATUS.STATE n, Z.STATUS.CHUNKS n, Z.QUEUED.BYTES n]) ∧
  (∀ (s : State) (n : Fin 32) (fail : Bool), s.dev.up = true → jobOn s.dev n = none →
    Gives (.jobComplete n fail) s fun d => d = s.dev) ∧
  (∀ (s : State) (n : Fin 32) (fail : Bool), s.dev.up = true → 256 ≤ s.dev.arch.cq.length →
    Gives (.jobComplete n fail) s fun d => d = s.dev) ∧
  (∀ (s : State) (n : Fin 32) (fail : Bool) (j : Job) (r : JobEnd), s.dev.up = true → jobOn s.dev n = some j →
    s.dev.arch.cq.length < 256 → s.Sound → j.force = 0 → j.op ≠ 0 →
    r = decodeJob j (j.chain.map Prod.snd).sum (s.mem.take j.src j.len) →
    Completes (.jobComplete n fail) s fun t => (∀ q ∈ t.dev.arch.jobs, q.engine ≠ n.val) ∧
      s.dev.Counted t.dev ZCTL.JOBS_DONE.CNT ∧ s.dev.Counted t.dev (Z.JOB_CNT.CNT n) ∧
      t.dev.rd ZCTL.CQ_TAIL.IDX = (s.dev.rd ZCTL.CQ_TAIL.IDX + 1) % 256 ∧
      t.dev.arch.cq = s.dev.arch.cq ++ [(s.dev.rd ZCTL.CQ_TAIL.IDX, j.idx, false)] ∧
      (∃ aux, (∀ w, r.aux = some w → aux = w) ∧
        t.mem = (putChain ⟨8, none, none, false⟩ (s.dev, s.mem) j.chain r.bytes).2.store (cqBase + 16 * s.dev.rd ZCTL.CQ_TAIL.IDX)
          (leBytes 4 j.tag ++ leBytes 4 (r.status + 256 * r.err + 65536 * n.val) ++ leBytes 4 r.outLen ++ leBytes 4 aux)) ∧
      (r.err ≠ 0 → t.dev.rd (Z.LAST_ERR.CODE n) = r.err % 256 ∧
        bitOf (t.dev.rd (Com.IRQ_RAW (Page.Z n))) Z.irq.DECODE_ERR = true) ∧
      s.dev.KeepsPages t.dev (Page.ZCTL :: Page.HOST :: (List.range 32).map Page.Z)) ∧
  (∀ s : State, s.dev.up = true → s.dev.arch.jobs = [] →
    Gives .jobAbort s fun d => d.arch.ctxs = [] ∧ d.arch.jobs = [] ∧ (∀ n : Fin 32, d.rd (Z.CTX.OPEN n) = 0) ∧
      s.dev.KeepsRegs d ((List.range 32).map fun n => Z.CTX.OPEN n)) ∧
  ∀ (s : State) (j : Job) (n : Fin 32), s.dev.up = true → s.dev.arch.jobs = [j] → j.engine = n.val → s.dev.arch.cq.length < 256 →
    Completes .jobAbort s fun t => t.dev.arch.jobs = [] ∧ t.dev.arch.ctxs = [] ∧ s.dev.Counted t.dev ZCTL.JOBS_DONE.CNT ∧
      ∃ aux, s.mem.Stored t.mem (cqBase + 16 * s.dev.rd ZCTL.CQ_TAIL.IDX)
        (leBytes 4 j.tag ++ leBytes 4 (8 + 65536 * n.val) ++ leBytes 4 0 ++ leBytes 4 aux)

/-! ## Memory and integrity (spec/12_memory_and_integrity.md) -/

/-- R277 to R279, R281, R283 to R285. The model's own choices it rests on in part: log entries 5, 66, 67, 137. -/
def Obligations.FabricTokensAndReads : Prop :=
  (∀ (s : State) (r : TokReq), s.dev.up = true → r.hbm = false → mayTake s.dev r.cls = true →
    Gives (.tokenIssue [r]) s fun d => d.rd FAB.TOK_STAT0.FREE = (s.dev.rd FAB.TOK_STAT0.FREE - 1) % 2 ^ 15 ∧
      d.rd FAB.TOK_STAT0.INFLIGHT = (s.dev.rd FAB.TOK_STAT0.INFLIGHT + 1) % 2 ^ 15 ∧
      d.rd (FAB.HELD.N r.cls) = (s.dev.rd (FAB.HELD.N r.cls) + 1) % 2 ^ 15 ∧
      d.rd2 FAB.ISSUED_LO.CNT FAB.ISSUED_HI.CNT = (s.dev.rd2 FAB.ISSUED_LO.CNT FAB.ISSUED_HI.CNT + 1) % 2 ^ 64 ∧
      (r.waited = true → s.dev.Counted d (FAB.WAIT_CNT.CNT r.cls)) ∧
      d.integ.ops = s.dev.integ.ops ++ [⟨r.cls, false, s.dev.now⟩] ∧ s.dev.KeepsPages d [Page.FAB]) ∧
  (∀ (s : State) (r : TokReq), s.dev.up = true → mayTake s.dev r.cls = false → Gives (.tokenIssue [r]) s fun d => d = s.dev) ∧
  (∀ (s : State) (k t : Nat) (rest : List (Nat × Nat)), s.dev.up = true → s.dev.integ.returning = (k, t) :: rest → k < 8 →
    t + 40 ≤ s.dev.now →
    Gives .tokenReturn s fun d => d.integ.returning = rest ∧ d.rd FAB.TOK_STAT0.FREE = (s.dev.rd FAB.TOK_STAT0.FREE + 1) % 2 ^ 15 ∧
      d.rd (FAB.HELD.N k) = (s.dev.rd (FAB.HELD.N k) - 1) % 2 ^ 15 ∧
      d.rd2 FAB.RETIRED_LO.CNT FAB.RETIRED_HI.CNT = (s.dev.rd2 FAB.RETIRED_LO.CNT FAB.RETIRED_HI.CNT + 1) % 2 ^ 64 ∧
      s.dev.KeepsPages d [Page.FAB]) ∧
  (∀ (s : State) (k t : Nat) (rest : List (Nat × Nat)), s.dev.up = true → s.dev.integ.returning = (k, t) :: rest →
    s.dev.now < t + 40 → Gives .tokenReturn s fun d => d = s.dev) ∧
  (∀ (s : State) (k : Fin 8) (t : FabTarget) (flip : Nat), s.dev.up = true → (∀ o ∈ s.dev.integ.ops, o.cls ≠ k.val) →
    Gives (.fabricOpComplete (some k) t flip) s fun d => d = s.dev) ∧
  (∀ (s : State) (a req : Nat), s.dev.up = true → s.mem.storedCheck (homeAddr a / 8 * 8) = none →
    Completes (.fabricOpComplete none (.word a req none none false) 0) s fun t => t.dev = s.dev ∧
      (∀ b, t.mem.byte b = s.mem.byte b) ∧ t.mem.flash = s.mem.flash) ∧
  (∀ (s : State) (a req flip k : Nat), s.dev.up = true → memOf a = 1 → (s.mem.flip a flip).wordState a = .single k →
    Completes (.fabricOpComplete none (.word a req none none false) flip) s fun t => t.mem = s.mem.flip a flip ∧
      s.dev.Counted t.dev MEM.CE_SRAM.CNT ∧ bitOf (t.dev.rd (Com.IRQ_RAW Page.MEM)) MEM.irq.CE = true ∧
      t.dev.integ.wb = (if s.dev.on MEM.CTL.CE_WB then s.dev.integ.wb ++ [(a / 8 * 8, (s.mem.flip a flip).u64 (a / 8 * 8))]
        else s.dev.integ.wb) ∧
      (∃ e ∈ t.dev.errLog, e.type = ET.ce ∧ e.addr = a / 8 * 8) ∧ s.dev.KeepsPages t.dev [Page.MEM]) ∧
  (∀ (s : State) (a req flip : Nat), s.dev.up = true → memOf a = 1 → (s.mem.flip a flip).wordState a = .bad →
    Completes (.fabricOpComplete none (.word a req none none false) flip) s fun t => t.mem = (s.mem.flip a flip).setPoison a ∧
      s.dev.Counted t.dev MEM.UE_SRAM.CNT ∧ bitOf (t.dev.rd (Com.IRQ_RAW Page.MEM)) MEM.irq.UE = true ∧
      (∃ e ∈ t.dev.errLog, e.type = ET.ue ∧ e.addr = a / 8 * 8) ∧ s.dev.KeepsPages t.dev [Page.MEM]) ∧
  (∀ (s : State) (a req flip k : Nat), s.dev.up = true → classify (flipSyndrome flip) = .single k →
    Gives (.fabricOpComplete none (.transit a req) flip) s fun d => s.dev.Counted d MEM.CE_FAB.CNT ∧
      s.dev.KeepsPages d [Page.MEM]) ∧
  (∀ (s : State) (a req flip : Nat), s.dev.up = true → classify (flipSyndrome flip) = .bad →
    Completes (.fabricOpComplete none (.transit a req) flip) s fun t => t.mem = s.mem.setPoison (homeAddr a) ∧
      s.dev.Counted t.dev MEM.UE_FAB.CNT ∧ s.dev.KeepsPages t.dev [Page.MEM]) ∧
  (∀ s : State, s.dev.up = true → s.dev.integ.wb = [] → Gives .ceWriteback s fun d => d = s.dev) ∧
  (∀ (s : State) (a v k : Nat) (rest : List (Nat × Nat)), s.dev.up = true → s.dev.integ.wb = (a, v) :: rest →
    s.mem.wordState a = .single k → s.mem.u64 a = v →
    Completes .ceWriteback s fun t => t.mem = s.mem.fixWord a ∧ t.dev.integ.wb = rest ∧ t.dev.regs = s.dev.regs) ∧
  (∀ (s : State) (a v : Nat) (rest : List (Nat × Nat)), s.dev.up = true → s.dev.integ.wb = (a, v) :: rest →
    s.mem.wordState a = .good ∨ s.mem.u64 a ≠ v →
    Gives .ceWriteback s fun d => d.integ.wb = rest ∧ s.dev.Counted d MEM.WB_DROP_CNT.CNT ∧ s.dev.KeepsRegs d [MEM.WB_DROP_CNT.CNT]) ∧
  (∀ (s : State) (k : Fin 8) (a req i : Nat) (o : FabTok), s.dev.up = true →
    s.dev.integ.ops.zipIdx.find? (fun o => o.1.cls == k.val) = some (o, i) → o.hbm = false →
    (s.dev.now < o.t + max 1 (s.dev.rd FAB.TIMEOUT_US.US) * 16000 →
      Gives (.fabricTimeout k (.word a req none none false)) s fun d => d = s.dev) ∧
    (o.t + max 1 (s.dev.rd FAB.TIMEOUT_US.US) * 16000 ≤ s.dev.now →
      Gives (.fabricTimeout k (.word a req none none false)) s fun d => d.integ.ops = s.dev.integ.ops.eraseIdx i ∧
        d.integ.returning = s.dev.integ.returning ++ [(o.cls, s.dev.now)] ∧ s.dev.Counted d FAB.TIMEOUT_CNT.CNT ∧
        bitOf (d.rd (Com.IRQ_RAW Page.FAB)) FAB.irq.TIMEOUT = true ∧ s.dev.KeepsPages d [Page.FAB, Page.MEM])) ∧
  ∀ (s : State) (idx : Fin 64), s.dev.up = true →
    Gives (.errorLogRead idx) s fun d => (∀ e ∈ d.errLog, e.idx = idx.val → e.read = true) ∧
      (∀ e ∈ s.dev.errLog, e.idx ≠ idx.val → e ∈ d.errLog) ∧ d = { s.dev with errLog := d.errLog }

/-- R282, R286 to R288. The model's own choices it rests on in part: log entries 66, 68. -/
def Obligations.ScrubAndDegradedMode : Prop :=
  (∀ (s : State) (hbm : Bool) (flip : Nat), s.dev.up = true → s.dev.on THM.STATUS.STEP = true →
    Gives (.scrubRead hbm flip) s fun d => d = s.dev) ∧
  (∀ (s : State) (flip a : Nat), s.dev.up = true → s.dev.on THM.STATUS.STEP = false → s.dev.integ.sramPos = a →
    a + 8 < 0x02000000 → (s.mem.flip a flip).wordState a = .good →
    Completes (.scrubRead false flip) s fun t => t.mem = s.mem.flip a flip ∧ t.dev.integ.sramPos = a + 8 ∧
      t.dev = { s.dev with integ := t.dev.integ }) ∧
  (∀ (s : State) (flip a k : Nat), s.dev.up = true → s.dev.on THM.STATUS.STEP = false → s.dev.integ.sramPos = a →
    a + 8 < 0x02000000 → (s.mem.flip a flip).wordState a = .single k →
    Completes (.scrubRead false flip) s fun t => t.mem = s.mem.flip a flip ∧ t.dev.integ.sramPos = a + 8 ∧
      s.dev.Counted t.dev MEM.SCRUB_CE.CNT ∧ s.dev.KeepsPages t.dev [Page.MEM]) ∧
  (∀ q ∈ [(Instr.stackOt, 5), (Instr.degrade, 6)], ∀ s : State, s.dev.up = true →
    (s.dev.on MEM.STATUS.DEGRADED = false → s.dev.integ.degWait = none →
      Gives q.1 s fun d => d = { s.dev with integ := { s.dev.integ with degWait := some q.2 } }) ∧
    (s.dev.on MEM.STATUS.DEGRADED = true ∨ s.dev.integ.degWait ≠ none → Gives q.1 s fun d => d = s.dev)) ∧
  (∀ s : State, s.dev.up = true → s.dev.integ.degWait = none → Gives .degradedEntry s fun d => d = s.dev) ∧
  (∀ (s : State) (c : Nat), s.dev.up = true → s.dev.integ.degWait = some c → c < 8 →
    Completes .degradedEntry s fun t => t.dev.rd MEM.STATUS.DEGRADED = 1 ∧ t.dev.rd MEM.STATUS.HBM_READY = 0 ∧
      t.dev.rd MEM.DEG_CAUSE.CAUSE = c ∧ t.dev.integ.degWait = none ∧ t.dev.rd STITCH.STATUS.DEGRADED = 1 ∧
      t.dev.rd ZCTL.STATUS.DEGRADED = 1 ∧ t.dev.arch.chunks = [] ∧
      (∀ n : Fin 2, t.dev.rd (THERM.STATUS.DEGRADED n) = 1) ∧
      bitOf (t.dev.rd (Com.IRQ_RAW Page.MEM)) MEM.irq.DEGRADED = true) ∧
  (∀ s : State, s.dev.up = true → s.dev.on MEM.STATUS.DEGRADED = true → s.dev.on MEM.STATUS.HBM_READY = false →
    s.dev.integ.recovering = false →
    (Gives .recover s fun d => d.integ.recovering = true ∧ d.rd MEM.DEG_CAUSE.TRIES = min (s.dev.rd MEM.DEG_CAUSE.TRIES + 1) 7 ∧
      s.dev.KeepsRegs d [MEM.DEG_CAUSE.TRIES]) ∧
    (s.dev.on MEM.CTL.AUTO_RECOVER = true → s.dev.rd MEM.DEG_CAUSE.CAUSE = 1 ∨ s.dev.rd MEM.DEG_CAUSE.CAUSE = 2 ∨
        s.dev.rd MEM.DEG_CAUSE.CAUSE = 4 → s.dev.integ.autoTries < 8 →
        s.dev.past .recover oneS = true →
      Gives .autoRecover s fun d => d.integ.recovering = true ∧ d.integ.autoTries = s.dev.integ.autoTries + 1 ∧
        d.rd MEM.DEG_CAUSE.TRIES = min (s.dev.rd MEM.DEG_CAUSE.TRIES + 1) 7 ∧ s.dev.KeepsRegs d [MEM.DEG_CAUSE.TRIES])) ∧
  (∀ s : State, s.dev.up = true → s.dev.on MEM.STATUS.DEGRADED = false ∨ s.dev.integ.recovering = true →
    Gives .recover s fun d => d = s.dev) ∧
  (∀ s : State, s.dev.up = true → s.dev.rd MEM.DEG_CAUSE.CAUSE = 3 ∨ s.dev.rd MEM.DEG_CAUSE.CAUSE = 5 ∨
      s.dev.rd MEM.DEG_CAUSE.CAUSE = 6 ∨ 8 ≤ s.dev.integ.autoTries →
    Gives .autoRecover s fun d => d = s.dev) ∧
  (∀ (s : State) (ok : Bool), s.dev.up = true → s.dev.integ.recovering = false → Gives (.hbmReady ok) s fun d => d = s.dev) ∧
  (∀ s : State, s.dev.up = true → s.dev.integ.recovering = true → s.dev.pw.booting = false →
    s.dev.on PROF.STATUS.LOADED_VALID = false →
    Completes (.hbmReady true) s fun t => t.dev.rd MEM.STATUS.HBM_READY = 1 ∧ t.dev.integ.recovering = false ∧
      bitOf (t.dev.rd (Com.IRQ_RAW Page.MEM)) MEM.irq.HBM_READY = true ∧ t.mem = hbmLost s.mem ∧
      (∀ n bank : Fin 2, t.dev.rd (verifiedFld n bank) = 0) ∧ s.dev.KeepsPages t.dev [Page.MEM, Page.THERM 0, Page.THERM 1]) ∧
  ∀ s : State, s.dev.up = true → s.dev.integ.recovering = true → s.dev.pw.booting = false →
    s.dev.on MEM.STATUS.DEGRADED = false → s.dev.integ.degWait = none →
    Gives (.hbmReady false) s fun d => d.integ.degWait = some 1 ∧ d.integ.recovering = false ∧ d.regs = s.dev.regs

/-- R276, R279. -/
def Obligations.CodeCorrectsOneDetectsTwo : Prop :=
  (∀ k < 72, classify (flipSyndrome (2 ^ k)) = .single k) ∧
  (∀ j < 72, ∀ k < j, ∀ i, classify (flipSyndrome (2 ^ j + 2 ^ k)) ≠ .single i ∧ classify (flipSyndrome (2 ^ j + 2 ^ k)) ≠ .good) ∧
  (∀ (m : Memory) (a : Nat), (m.setPoison a).wordState a = .poison ∧ ∀ b, (m.setPoison a).byte b = m.byte b) ∧
  ∀ v w : Nat, v < 2 ^ 64 → w < 2 ^ 64 → checkByte (Nat.xor v w) = Nat.xor (checkByte v) (checkByte w)

/-! ## Host ports and THP (spec/13_host_protocol.md) -/

/-- R293, R294. The model's own choices it rests on in part: log entries 74, 117. -/
def Obligations.FramesAreAnsweredOrDropped : Prop :=
  (∀ (s : State) (p : Fin 2) (ip mac : Nat), s.dev.up = true → portUp s.dev p = true → portIp s.dev p ≠ 0 →
    Gives (.arpRequest p (portIp s.dev p) ip mac) s fun d =>
      d.out = .frame p FK.arpReply [ip, mac, portIp s.dev p] :: s.dev.out ∧ ⟨p, ip, mac, s.dev.now⟩ ∈ d.host.arp ∧
      (∀ e ∈ s.dev.host.arp, e.port ≠ p → e ∈ d.host.arp) ∧
      s.dev.Counted d (if p = 0 then HOST.RX_FRAMES_HA.CNT else HOST.RX_FRAMES_HB.CNT) ∧ s.dev.OnlyHost d) ∧
  (∀ (s : State) (p : Fin 2) (target ip mac : Nat), s.dev.up = true → portUp s.dev p = true → target ≠ portIp s.dev p →
    Gives (.arpRequest p target ip mac) s fun d => s.dev.Counted d HOST.RX_DROP_CNT.CNT ∧
      s.dev.OnlyRegs d [HOST.RX_FRAMES_HA.CNT, HOST.RX_FRAMES_HB.CNT, HOST.RX_DROP_CNT.CNT]) ∧
  (∀ (s : State) (p : Fin 2) (ip mac : Nat), s.dev.up = true → portUp s.dev p = true → portIp s.dev p ≠ 0 →
    Gives (.arpReply p ip mac) s fun d => ⟨p, ip, mac, s.dev.now⟩ ∈ d.host.arp ∧ d.out = s.dev.out ∧
      (∀ e ∈ s.dev.host.arp, e.port ≠ p → e ∈ d.host.arp) ∧ s.dev.OnlyHost d) ∧
  (∀ (s : State) (p : Fin 2) (ip : Nat), s.dev.up = true →
    Gives (.arpAge p ip) s fun d =>
      (∀ e, e ∈ d.host.arp ↔ e ∈ s.dev.host.arp ∧ ¬(e.port = p ∧ e.ip = ip ∧ e.used + 4800000000000 ≤ s.dev.now)) ∧
      d = { s.dev with host := { s.dev.host with arp := d.host.arp } }) ∧
  (∀ s : State, s.dev.up = true → openSessions s.dev = [] → Gives .arpRefresh s fun d => d = s.dev) ∧
  (∀ (s : State) (j : Nat), s.dev.up = true → openSessions s.dev = [j] →
    (∀ p : Fin 2, portUp s.dev p = true ∧ portIp s.dev p ≠ 0) →
    Gives .arpRefresh s fun d => d.out = .frame 1 FK.arpRequest [nextHop s.dev 1 (s.dev.rd (HOST.SESS_IP.IP j))] ::
        .frame 0 FK.arpRequest [nextHop s.dev 0 (s.dev.rd (HOST.SESS_IP.IP j))] :: s.dev.out ∧
      s.dev.OnlyRegsOut d [HOST.TX_FRAMES_HA.CNT, HOST.TX_FRAMES_HB.CNT]) ∧
  (∀ (s : State) (p : Fin 2) (ip len : Nat), s.dev.up = true → portUp s.dev p = true →
    (s.dev.on HOST.CTL.ICMP_EN = true → portIp s.dev p ≠ 0 → len ≤ 1472 →
      Gives (.icmpEchoRequest p ip len) s fun d => d.out = .frame p FK.echoReply [ip, len] :: s.dev.out ∧
        s.dev.OnlyRegsOut d [HOST.RX_FRAMES_HA.CNT, HOST.RX_FRAMES_HB.CNT, HOST.TX_FRAMES_HA.CNT, HOST.TX_FRAMES_HB.CNT]) ∧
    (s.dev.on HOST.CTL.ICMP_EN = false ∨ 1472 < len →
      Gives (.icmpEchoRequest p ip len) s fun d => s.dev.Counted d HOST.RX_DROP_CNT.CNT ∧
        s.dev.OnlyRegs d [HOST.RX_FRAMES_HA.CNT, HOST.RX_FRAMES_HB.CNT, HOST.RX_DROP_CNT.CNT])) ∧
  (∀ (s : State) (p : Fin 2) (badFcs : Bool), s.dev.up = true → portUp s.dev p = true →
    Gives (.frameDiscard p badFcs) s fun d => s.dev.Counted d HOST.RX_DROP_CNT.CNT ∧
      s.dev.Counted d (if p = 0 then HOST.RX_FRAMES_HA.CNT else HOST.RX_FRAMES_HB.CNT) ∧
      (if badFcs then s.dev.Counted d HOST.FCS_ERR_CNT.CNT else d.rd HOST.FCS_ERR_CNT.CNT = s.dev.rd HOST.FCS_ERR_CNT.CNT) ∧
      s.dev.OnlyRegs d [HOST.RX_FRAMES_HA.CNT, HOST.RX_FRAMES_HB.CNT, HOST.RX_DROP_CNT.CNT, HOST.FCS_ERR_CNT.CNT]) ∧
  (∀ (s : State) (p : Fin 2), s.dev.up = true → portUp s.dev p = true →
    (thpTaken s.dev p = true → Gives (.badThp p) s fun d => s.dev.Counted d HOST.BAD_THP_CNT.CNT ∧
      s.dev.OnlyRegs d [HOST.RX_FRAMES_HA.CNT, HOST.RX_FRAMES_HB.CNT, HOST.BAD_THP_CNT.CNT]) ∧
    (thpTaken s.dev p = false → Gives (.badThp p) s fun d => s.dev.Counted d HOST.RX_DROP_CNT.CNT ∧
      s.dev.OnlyRegs d [HOST.RX_FRAMES_HA.CNT, HOST.RX_FRAMES_HB.CNT, HOST.RX_DROP_CNT.CNT])) ∧
  ∀ (s : State) (p : Fin 2), s.dev.up = true → portUp s.dev p = false →
    ∀ c ∈ [Instr.badThp p, .frameDiscard p true, .frameDiscard p false], ∀ target ip mac len : Nat,
    Gives c s (fun d => d = s.dev) ∧ Gives (.arpRequest p target ip mac) s (fun d => d = s.dev) ∧
    Gives (.arpReply p ip mac) s (fun d => d = s.dev) ∧ Gives (.icmpEchoRequest p ip len) s fun d => d = s.dev

/-- R295, R296, R298, R299. The value of SESSION is a free value (log entry 3). The model's own choices it rests on in part: log entries 3, 72. -/
def Obligations.SessionsOpenAnswerAndClose : Prop :=
  (∀ (s : State) (r : ThpReq) (minorMax streams dataPort k j : Nat), s.dev.up = true → thpTaken s.dev r.port = true →
    r.lenOk = true → admits? s.dev r.ip = some k →
    (∀ i ∈ openSessions s.dev, ¬(s.dev.rd (HOST.SESS_IP.IP i) = r.ip ∧ s.dev.rd (HOST.SESS_PORTS.CTL_PORT i) = r.udp)) →
    (List.range 4).find? (fun i => !s.dev.on (HOST.SESS_STAT.STATE i)) = some j →
    Gives (.openSession r 3 minorMax streams dataPort) s fun d => d.rd (HOST.SESS_STAT.STATE j) = 1 ∧
      d.rd (HOST.SESS_STAT.VER j) = 0x30 + min minorMax 2 ∧ d.rd (HOST.SESS_STAT.HOME j) = r.port ∧
      d.rd (HOST.SESS_STAT.CUR j) = r.port ∧ d.rd (HOST.SESS_STAT.WR j) = b2n (s.dev.on (HOST.ALLOW_CFG.WR k)) ∧
      d.rd (HOST.SESS_STAT.JOB j) = b2n (s.dev.on (HOST.ALLOW_CFG.JOB k) && (jobSession s.dev).isNone) ∧
      (∀ t < 4, bitOf (d.rd (HOST.SESS_STAT.STREAMS j)) t = (decide (0 < t) && bitOf streams t && !streamHeld s.dev t)) ∧
      d.rd (HOST.SESS_IP.IP j) = r.ip % 2 ^ 32 ∧ d.rd (HOST.SESS_PORTS.CTL_PORT j) = r.udp % 2 ^ 16 ∧
      d.rd (HOST.SESS_PORTS.DATA_PORT j) = dataPort % 2 ^ 16 ∧
      bitOf (d.rd (Com.IRQ_RAW Page.HOST)) HOST.irq.SESS_OPEN = true ∧
      d.out.head? = some (.frame r.port 2 [d.rd (HOST.SESS_ID.ID j), r.seq, 0, 0x30 + min minorMax 2,
        d.rd (HOST.SESS_STAT.STREAMS j), d.rd (HOST.SESS_STAT.WR j) + 2 * d.rd (HOST.SESS_STAT.JOB j),
        d.rd (HOST.SESS_ID.ID j), 0x30, 0x32]) ∧
      s.dev.KeepsPages d [Page.HOST]) ∧
  (∀ (s : State) (r : ThpReq) (major minorMax streams dataPort : Nat), s.dev.up = true → thpTaken s.dev r.port = true →
    r.lenOk = true → admits? s.dev r.ip = none →
    Gives (.openSession r major minorMax streams dataPort) s fun d => s.dev.Counted d HOST.DENIED_CNT.CNT ∧
      bitOf (d.rd (Com.IRQ_RAW Page.HOST)) HOST.irq.DENIED = true ∧
      d.out = .frame r.port 2 [0, r.seq, 4, 0, 0, 0, 0, 0x30, 0x32] :: s.dev.out ∧
      s.dev.OnlyRegsOut d [HOST.RX_FRAMES_HA.CNT, HOST.RX_FRAMES_HB.CNT, HOST.TX_FRAMES_HA.CNT, HOST.TX_FRAMES_HB.CNT,
        HOST.DENIED_CNT.CNT, Com.IRQ_RAW Page.HOST, Com.ERR_CNT Page.HOST]) ∧
  (∀ (s : State) (r : ThpReq) (major minorMax streams dataPort k : Nat), s.dev.up = true → thpTaken s.dev r.port = true →
    r.lenOk = true → admits? s.dev r.ip = some k →
    (major ≠ 3 → Gives (.openSession r major minorMax streams dataPort) s fun d =>
      d.out = .frame r.port 2 [0, r.seq, 5, 0, 0, 0, 0, 0x30, 0x32] :: s.dev.out ∧
      s.dev.OnlyRegsOut d [HOST.RX_FRAMES_HA.CNT, HOST.RX_FRAMES_HB.CNT, HOST.TX_FRAMES_HA.CNT, HOST.TX_FRAMES_HB.CNT]) ∧
    ((∀ i ∈ openSessions s.dev, ¬(s.dev.rd (HOST.SESS_IP.IP i) = r.ip ∧ s.dev.rd (HOST.SESS_PORTS.CTL_PORT i) = r.udp)) →
      openSessions s.dev = [0, 1, 2, 3] → Gives (.openSession r 3 minorMax streams dataPort) s fun d =>
      d.out = .frame r.port 2 [0, r.seq, 8, 0, 0, 0, 0, 0x30, 0x32] :: s.dev.out ∧
      s.dev.OnlyRegsOut d [HOST.RX_FRAMES_HA.CNT, HOST.RX_FRAMES_HB.CNT, HOST.TX_FRAMES_HA.CNT, HOST.TX_FRAMES_HB.CNT])) ∧
  (∀ (s : State) (r : ThpReq) (j : Fin 4), s.dev.up = true → s.dev.Executes r j →
    Gives (.keepalive r) s (fun d => s.dev.Answered d r j 5 [0] ∧ s.dev.OnlyHost d) ∧
    (∀ k, Gives (.unknownKind r k) s fun d => s.dev.Answered d r j k [1] ∧ s.dev.OnlyHost d) ∧
    ((∀ q ∈ s.dev.snap.jobs, q.sess.map Prod.fst ≠ some j.val) → Gives (.closeSession r) s fun d =>
      d.out = .frame r.port 3 [s.dev.rd (HOST.SESS_ID.ID j), r.seq, 0] :: s.dev.out ∧ s.dev.Closed d j ∧
      (∀ k : Fin 4, k ≠ j → d.host.sess[k] = s.dev.host.sess[k]) ∧ s.dev.KeepsPages d [Page.HOST])) ∧
  (∀ (s : State) (j : Fin 4), s.dev.up = true →
    (s.dev.on (HOST.SESS_STAT.STATE j) = false ∨ s.dev.past (.session j) (s.dev.rd HOST.SESS_TIMEOUT.MS * oneMs) = false →
      Gives (.sessionTimeout j) s fun d => d = s.dev) ∧
    (s.dev.on (HOST.SESS_STAT.STATE j) = true → (∀ q ∈ s.dev.snap.jobs, q.sess.map Prod.fst ≠ some j.val) →
      s.dev.past (.session j) (s.dev.rd HOST.SESS_TIMEOUT.MS * oneMs) = true →
      Gives (.sessionTimeout j) s fun d => s.dev.Closed d j ∧ d.out = s.dev.out ∧ d.arch = s.dev.arch ∧
        d.tags = (if bitOf (s.dev.rd (HOST.SESS_STAT.STREAMS j)) 1 then { s.dev.tags with retx := [], moved := false } else s.dev.tags) ∧
        (∀ k : Fin 4, k ≠ j → d.host.sess[k] = s.dev.host.sess[k]) ∧ s.dev.KeepsPages d [Page.HOST])) ∧
  (∀ (s : State) (c : Instr) (r : ThpReq) (k : Nat), s.dev.up = true → thpKind c = some (r, k) → thpTaken s.dev r.port = true →
    findSession s.dev r = none →
    Gives c s fun d => d.out = .frame r.port k [r.session, r.seq, 3] :: s.dev.out ∧
      s.dev.OnlyRegsOut d [HOST.RX_FRAMES_HA.CNT, HOST.RX_FRAMES_HB.CNT, HOST.TX_FRAMES_HA.CNT, HOST.TX_FRAMES_HB.CNT]) ∧
  (∀ (s : State) (c : Instr) (r : ThpReq) (k : Nat) (j : Fin 4) (fs : List (Nat × List Nat)), s.dev.up = true →
    thpKind c = some (r, k) → thpTaken s.dev r.port = true → findSession s.dev r = some j.val →
    s.dev.host.sess[j].kept.find? (fun e => e.1 == r.seq) = some (r.seq, fs) →
    Gives c s fun d => d.out = (fs.map fun f => Out.frame r.port f.1 (r.session :: r.seq :: f.2)).reverse ++ s.dev.out ∧
      s.dev.Counted d HOST.DUP_REQ_CNT.CNT ∧ s.dev.OnlyHost d ∧ d.host.sess = s.dev.host.sess ∧
      s.dev.KeepsRegs d [HOST.RX_FRAMES_HA.CNT, HOST.RX_FRAMES_HB.CNT, HOST.TX_FRAMES_HA.CNT, HOST.TX_FRAMES_HB.CNT,
        HOST.DUP_REQ_CNT.CNT]) ∧
  ∀ (s : State) (c : Instr) (r : ThpReq) (k : Nat) (j : Fin 4), s.dev.up = true → thpKind c = some (r, k) →
    thpTaken s.dev r.port = true → findSession s.dev r = some j.val → (∀ e ∈ s.dev.host.sess[j].kept, e.1 ≠ r.seq) →
    (tooOld s.dev.host.sess[j] r.seq = true → Gives c s fun d => s.dev.Counted d HOST.DUP_REQ_CNT.CNT ∧
      s.dev.OnlyHost d ∧ d.host = s.dev.host ∧ d.out = s.dev.out ∧
      s.dev.KeepsRegs d [HOST.RX_FRAMES_HA.CNT, HOST.RX_FRAMES_HB.CNT, HOST.DUP_REQ_CNT.CNT]) ∧
    (tooOld s.dev.host.sess[j] r.seq = false → r.lenOk = false → Gives c s fun d =>
      d.out = .frame r.port k [s.dev.rd (HOST.SESS_ID.ID j), r.seq, 2] :: s.dev.out ∧ s.dev.OnlyHost d)

/-- R300 to R302. The model's own choices it rests on in part: log entries 28, 72, 77, 137. -/
def Obligations.RegistersAndMemoryOverThp : Prop :=
  (∀ (s : State) (r : ThpReq) (j : Fin 4) (addr n : Nat) (d1 : Dev), s.dev.up = true → s.dev.Executes r j → addr % 4 = 0 → 0 < n →
    n ≤ 256 → addr < 0x01000000 →
    (∀ k < n, (addr + 4 * k) / 4096 = addr / 4096 → s.dev.PlainWord (.session j) (addr + 4 * k)) →
    d1 = ((rxFrame s.dev r.port).start (.session j)).inc (HOST.SESS_REQ_CNT.CNT j) →
    Gives (.regRead r addr n) s fun d =>
      s.dev.Answered d r j 0x14 ([0, b2n (decide (4096 < addr % 4096 + 4 * n)), n] ++ (List.range n).map fun k =>
        if (addr + 4 * k) / 4096 = addr / 4096 then
          regWord d1 (addr + 4 * k) else 0) ∧
      (d.rd MGMT.STATUS.PAGE_END = if 4096 < addr % 4096 + 4 * n then 1 else s.dev.rd MGMT.STATUS.PAGE_END) ∧
      d = { s.dev with regs := d.regs, out := d.out, host := d.host, marks := d.marks } ∧
      ∀ f : Fld, f.key / 131072 ≠ Page.HOST → f.key ≠ MGMT.STATUS.PAGE_END.key → d.rd f = s.dev.rd f) ∧
  (∀ (s : State) (r : ThpReq) (j : Fin 4) (addr n : Nat), s.dev.up = true → s.dev.Executes r j → addr % 4 = 0 → 0 < n → n ≤ 256 →
    0x01000000 ≤ addr → addr % 4096 + 4 * n ≤ 4096 → s.dev.on MEM.STATUS.DEGRADED = false → s.Sound →
    (∀ h ∈ s.dev.integ.half, h.1 ≠ .session j) → (∀ a, addr ≤ a → inWindow a = true ∧ computedWord s.dev a = none ∨ addr + 4 * n ≤ a) →
    Gives (.regRead r addr n) s fun d => s.dev.OnlyHost d ∧
      s.dev.Answered d r j 0x14 ([0, 0, n] ++ (List.range n).map fun k => s.mem.u32 (addr + 4 * k))) ∧
  (∀ (s : State) (r : ThpReq) (j : Fin 4) (addr n : Nat), s.dev.up = true → s.dev.Executes r j →
    addr % 4 ≠ 0 ∨ n = 0 ∨ 256 < n →
    Gives (.regRead r addr n) s fun d => s.dev.Answered d r j 0x14 [2, 0, 0] ∧ s.dev.OnlyHost d) ∧
  (∀ (s : State) (r : ThpReq) (j : Fin 4) (addr : Nat) (ws : List Word32) (x : DM), s.dev.up = true → s.dev.Executes r j →
    s.dev.on (HOST.SESS_STAT.WR j) = true → addr % 4 = 0 → 0 < ws.length → ws.length ≤ 256 → addr % 4096 + 4 * ws.length ≤ 4096 →
    x = ws.zipIdx.foldl (fun x w => regWrite (.session j) (addr + 4 * w.2) w.1.toNat x)
      (((rxFrame s.dev r.port).start (.session j)).inc (HOST.SESS_REQ_CNT.CNT j), s.mem) → x.1.on (HOST.SESS_STAT.STATE j) = true →
    Completes (.regWrite r addr ws) s fun t => t.mem = x.2 ∧
      t.dev.out = .frame r.port 0x14 [x.1.rd (HOST.SESS_ID.ID j), r.seq, 0, 0, ws.length] :: x.1.out ∧ x.1.OnlyHost t.dev) ∧
  (∀ (s : State) (r : ThpReq) (j : Fin 4) (addr : Nat) (ws : List Word32), s.dev.up = true → s.dev.Executes r j →
    s.dev.on (HOST.SESS_STAT.WR j) = false → addr % 4 = 0 → 0 < ws.length → ws.length ≤ 256 →
    Gives (.regWrite r addr ws) s fun d => s.dev.Answered d r j 0x14 [4, 0, 0] ∧ s.dev.OnlyHost d) ∧
  (∀ (s : State) (r : ThpReq) (j : Fin 4) (addr len : Nat), s.dev.up = true → s.dev.Executes r j → 1 ≤ minorOf s.dev j →
    addr % 8 = 0 → len % 8 = 0 → 0 < len → len ≤ 1024 → 0x400000000 ≤ addr → addr + len ≤ 0x7E0000000 →
    s.dev.on MEM.STATUS.DEGRADED = false → (∀ h ∈ s.dev.integ.half, h.1 ≠ .session j) →
    s.Sound →
    Gives (.memRead r addr len) s fun d =>
      s.dev.Answered d r j 0x14 ([0, 0, len] ++ (s.mem.take addr len).map BitVec.toNat) ∧ s.dev.OnlyHost d) ∧
  (∀ (s : State) (r : ThpReq) (j : Fin 4) (addr : Nat) (data : List Byte), s.dev.up = true → s.dev.Executes r j →
    1 ≤ minorOf s.dev j → addr % 8 = 0 → data.length % 8 = 0 → 0 < data.length → data.length ≤ 1024 → 0x400000000 ≤ addr →
    addr + data.length ≤ 0x7E0000000 → s.dev.on MEM.STATUS.DEGRADED = false → (∀ h ∈ s.dev.integ.half, h.1 ≠ .session j) →
    (s.dev.on (HOST.SESS_STAT.WR j) = true → Completes (.memWrite r addr data) s fun t => s.mem.Stored t.mem addr data ∧
      (∀ k < data.length / 8, t.mem.wordState (addr + 8 * k) = .good) ∧
      s.dev.Answered t.dev r j 0x14 [0, 0, data.length] ∧ s.dev.OnlyHost t.dev) ∧
    (s.dev.on (HOST.SESS_STAT.WR j) = false →
      Gives (.memWrite r addr data) s fun d => s.dev.Answered d r j 0x14 [4, 0, 0] ∧ s.dev.OnlyHost d)) ∧
  (∀ (s : State) (r : ThpReq) (j : Fin 4) (addr len : Nat) (data : List Byte), s.dev.up = true → s.dev.Executes r j →
    data.length = len → addr % 8 = 0 → len % 8 = 0 → 0 < len → len ≤ 1024 →
    let all (code : Nat) : Prop :=
      Gives (.memRead r addr len) s (fun d => s.dev.Answered d r j 0x14 [code, 0, 0] ∧ s.dev.OnlyHost d) ∧
      Gives (.memWrite r addr data) s fun d => s.dev.Answered d r j 0x14 [code, 0, 0] ∧ s.dev.OnlyHost d
    (minorOf s.dev j = 0 → all 1) ∧ (1 ≤ minorOf s.dev j → addr < 0x01000000 → all 2) ∧
    (1 ≤ minorOf s.dev j → 0x400000000 ≤ addr → addr + len ≤ 0x7E0000000 → s.dev.on MEM.STATUS.DEGRADED = true → all 7)) ∧
  ∀ (s : State) (r : ThpReq) (j : Fin 4) (target : Nat) (ring release : Bool) (ranges : List (Nat × Nat)), s.dev.up = true →
    s.dev.Executes r j → ranges ≠ [] → ranges.length ≤ 16 →
    let ok := ∀ q ∈ ranges, 1 ≤ q.2 ∧ q.2 ≤ 1024 ∧ q.1 % 4 = 0 ∧ q.1 % 4096 + 4 * q.2 ≤ 4096
    let refused (code : Nat) : Prop :=
      Gives (.snapshot r target ring release ranges) s fun d => s.dev.Answered d r j 0x21 [code] ∧ s.dev.OnlyHost d
    (ring = true → minorOf s.dev j < 2 → refused 1) ∧ (ring = false → ¬ok → refused 2) ∧
    (ring = true → 2 ≤ minorOf s.dev j → ok → s.dev.isPuppeteer = false → refused 4) ∧
    (ring = false → ok → (∃ q ∈ s.dev.snap.jobs, q.sess.map Prod.fst = some j.val) → refused 6) ∧
    ((ring = true → 2 ≤ minorOf s.dev j ∧ s.dev.isPuppeteer = true) → ok → s.dev.snap.jobs = [] →
      Gives (.snapshot r target ring release ranges) s fun d =>
      d.snap = ⟨target == 0, target, [], [], [⟨some (j.val, r.seq), target == 0, target, ring, release, ranges⟩]⟩ ∧
      d.rd WEB.SNAP_STATUS.PENDING = 1 ∧ d.rd WEB.SNAP_STATUS.VALID = 0 ∧ (ring = false → d.out = s.dev.out) ∧
      s.dev.KeepsPages d [Page.HOST, Page.WEB])

/-- R219, R303 to R306, R308. The model's own choices it rests on in part: log entries 73, 74, 134. -/
def Obligations.TagStreamJobsAndFailover : Prop :=
  (∀ s : State, s.dev.up = true → tagSession s.dev = none → Gives .tagFrameStart s fun d => d = s.dev) ∧
  (∀ (s : State) (j : Fin 4) (x : StreamRec) (n f : Nat), s.dev.up = true → tagSession s.dev = some j.val → s.dev.isActive = true →
    portUp s.dev (s.dev.rd (HOST.SESS_STAT.CUR j)) = true → s.dev.tags.retx = [] → s.dev.tags.waiting = [x] →
    x.words.length ≤ 368 → x.tagOf = none → (∀ e ∈ s.dev.tags.kept, e.2.uid ≠ x.uid) → n = s.dev.rd TAG.SSEQ.NEXT →
    f = (s.dev.host.sess[j].frameSeq.find? fun e => e.1 == (1, s.dev.rd (HOST.SESS_STAT.CUR j))).elim 0 Prod.snd →
    Gives .tagFrameStart s fun d => d.tags.waiting = [] ∧
      d.tags.kept = s.dev.tags.kept ++ [(n, { x with words := x.words.set 1 n })] ∧
      d.rd TAG.SSEQ.NEXT = (n + 1) % 2 ^ 32 ∧ d.rd TAG.HQ_DEPTH.N = 0 ∧
      d.out.head? = some (.frame (s.dev.rd (HOST.SESS_STAT.CUR j)) 0x40
        ([s.dev.rd (HOST.SESS_ID.ID j), 4 * s.dev.rd (HOST.SESS_STAT.CUR j), f] ++ x.words.set 1 n)) ∧
      ((1, s.dev.rd (HOST.SESS_STAT.CUR j)), (f + 1) % 2 ^ 32) ∈ d.host.sess[j].frameSeq ∧
      s.dev.KeepsPages d [Page.TAG, Page.HOST]) ∧
  (∀ (s : State) (j : Fin 4) (q : Nat) (x : StreamRec), s.dev.up = true → tagSession s.dev = some j.val → s.dev.isActive = true →
    portUp s.dev (s.dev.rd (HOST.SESS_STAT.CUR j)) = true → s.dev.tags.retx = [q] → s.dev.tags.waiting = [] →
    s.dev.tags.kept.find? (fun e => e.1 == q) = some (q, x) → x.words.length ≤ 368 →
    Gives .tagFrameStart s fun d => d.tags.retx = [] ∧ d.tags.kept = s.dev.tags.kept ∧ s.dev.Counted d HOST.RETX_CNT.CNT ∧
      (∃ f, d.out = .frame (s.dev.rd (HOST.SESS_STAT.CUR j)) 0x40
        ([s.dev.rd (HOST.SESS_ID.ID j), 2 + 4 * s.dev.rd (HOST.SESS_STAT.CUR j), f] ++ x.words) :: s.dev.out) ∧
      s.dev.KeepsPages d [Page.HOST]) ∧
  (∀ (s : State) (r : ThpReq) (j : Fin 4) (q : Nat), s.dev.up = true → s.dev.Executes r j → tagSession s.dev = some j.val →
    s.dev.tags.acked = none → q < s.dev.rd TAG.SSEQ.NEXT → s.dev.rd TAG.SSEQ.NEXT < 2 ^ 32 →
    (∀ e ∈ s.dev.tags.kept, e.1 < 2 ^ 32) →
    Gives (.streamAck r q) s fun d => d.tags.kept = s.dev.tags.kept.filter (fun e => decide (q < e.1)) ∧
      d.tags.acked = some q ∧ d.tags.waiting = s.dev.tags.waiting ∧ d.rd (HOST.SESS_ACK.SSEQ j) = q ∧
      s.dev.KeepsPages d [Page.HOST]) ∧
  (∀ (s : State) (r : ThpReq) (j : Fin 4) (q a : Nat), s.dev.up = true → s.dev.Executes r j → tagSession s.dev = some j.val →
    s.dev.tags.acked = some a → q ≤ a → a < s.dev.rd TAG.SSEQ.NEXT → s.dev.rd TAG.SSEQ.NEXT < 2 ^ 32 →
    Gives (.streamAck r q) s fun d => d.tags = s.dev.tags ∧ d.out = s.dev.out ∧ s.dev.KeepsPages d [Page.HOST]) ∧
  (∀ (s : State) (r : ThpReq) (j : Fin 4) (a b : Nat), s.dev.up = true → s.dev.Executes r j → tagSession s.dev = some j.val →
    2 ≤ minorOf s.dev j → s.dev.tags.acked = none → a ≤ b → b < s.dev.rd TAG.SSEQ.NEXT → s.dev.rd TAG.SSEQ.NEXT < 2 ^ 32 →
    s.dev.tags.kept.map Prod.fst = (List.range (s.dev.rd TAG.SSEQ.NEXT)) → s.dev.tags.retx = [] →
    Gives (.streamNack r a b) s fun d => d.tags.retx = (List.range (b + 1)).filter (fun q => decide (a ≤ q)) ∧
      d.tags.kept = s.dev.tags.kept ∧ d.out = s.dev.out ∧ s.dev.KeepsPages d [Page.HOST]) ∧
  (∀ (s : State) (r : ThpReq) (j : Fin 4) (q : Nat), s.dev.up = true → s.dev.Executes r j → tagSession s.dev = some j.val →
    2 ≤ minorOf s.dev j → s.dev.tags.acked = none → q < s.dev.rd TAG.SSEQ.NEXT → s.dev.rd TAG.SSEQ.NEXT < 2 ^ 32 →
    (∀ e ∈ s.dev.tags.kept, q < e.1 ∧ e.1 < 2 ^ 32) →
    Gives (.streamNack r q q) s fun d => s.dev.Answered d r j 0x32 [q, q] ∧ s.dev.Counted d HOST.LOST_NOTICE_CNT.CNT ∧
      d.tags = s.dev.tags ∧ s.dev.KeepsPages d [Page.HOST]) ∧
  (∀ (s : State) (r : ThpReq) (j : Fin 4) (desc : List Byte) (t : Nat), s.dev.up = true → s.dev.Executes r j →
    1 ≤ minorOf s.dev j → t = s.dev.rd ZCTL.JQ_TAIL.IDX →
    (desc.length = 32 → s.dev.on (HOST.SESS_STAT.JOB j) = true → (t + 1) % 256 ≠ s.dev.rd ZCTL.JQ_HEAD.IDX →
      Completes (.jobSubmit r desc) s fun u => s.mem.Stored u.mem (jqBase + 32 * t) desc ∧
        u.dev.rd ZCTL.JQ_TAIL.IDX = (t + 1) % 256 ∧ s.dev.Answered u.dev r j 0x29 [0, t] ∧
        ∀ f : Fld, f.key / 131072 ≠ Page.HOST → f.key ≠ ZCTL.JQ_TAIL.IDX.key → u.dev.rd f = s.dev.rd f) ∧
    (desc.length = 32 → s.dev.on (HOST.SESS_STAT.JOB j) = false →
      Gives (.jobSubmit r desc) s fun d => s.dev.Answered d r j 0x29 [4] ∧ s.dev.OnlyHost d) ∧
    (desc.length = 32 → s.dev.on (HOST.SESS_STAT.JOB j) = true → (t + 1) % 256 = s.dev.rd ZCTL.JQ_HEAD.IDX →
      Gives (.jobSubmit r desc) s fun d => s.dev.Answered d r j 0x29 [8] ∧ s.dev.OnlyHost d) ∧
    (desc.length ≠ 32 → Gives (.jobSubmit r desc) s fun d => s.dev.Answered d r j 0x29 [2] ∧ s.dev.OnlyHost d)) ∧
  (∀ (s : State) (r : ThpReq) (j : Fin 4) (slot idx : Nat), s.dev.up = true → s.dev.Executes r j → 1 ≤ minorOf s.dev j →
    s.dev.on (HOST.SESS_STAT.JOB j) = true → s.dev.arch.cq = [(slot, idx, false)] →
    Gives (.jobDoneAck r idx) s fun d => d.arch.cq = [] ∧ d.rd ZCTL.CQ_HEAD.IDX = (s.dev.rd ZCTL.CQ_HEAD.IDX + 1) % 256 ∧
      d.out = s.dev.out ∧ ∀ f : Fld, f.key / 131072 ≠ Page.HOST → f.key ≠ ZCTL.CQ_HEAD.IDX.key → d.rd f = s.dev.rd f) ∧
  (∀ (s : State) (slot idx : Nat), s.dev.up = true → s.dev.arch.cq = [(slot, idx, false)] →
    (∀ j, jobSession s.dev = some j → s.dev.past (.jobDone slot) (10 * oneMs) = true → Gives .jobDoneResend s fun d =>
      d.out = .frame (s.dev.rd (HOST.SESS_STAT.CUR j)) 0x2A ((List.range 4).map fun k => s.mem.u32 (cqBase + 16 * slot + 4 * k)) ::
        s.dev.out ∧ s.dev.OnlyHost d ∧ s.dev.KeepsRegs d [HOST.TX_FRAMES_HA.CNT, HOST.TX_FRAMES_HB.CNT]) ∧
    (jobSession s.dev = none ∨ s.dev.past (.jobDone slot) (10 * oneMs) = false → Gives .jobDoneResend s fun d => d = s.dev)) ∧
  (∀ (s : State) (p : Fin 2), s.dev.up = true →
    (portUp s.dev p = false → Gives (.hostPortDown p) s fun d => d = s.dev) ∧
    (portUp s.dev p = true → portUp s.dev (1 - p.val) = false → Gives (.hostPortDown p) s fun d => portUp d p = false ∧
      d.rd HOST.ARCH_CAP.BPUS = 0 ∧ (∀ r ∈ d.arch.recs, r.port ≠ some p.val) ∧ d.tags = s.dev.tags ∧
      bitOf (d.rd (Com.IRQ_RAW Page.HOST)) (if p = 0 then HOST.irq.LINK_HA else HOST.irq.LINK_HB) = true ∧
      s.dev.KeepsPages d [Page.HOST]) ∧
    (∀ j : Fin 4, portUp s.dev p = true → portUp s.dev (1 - p.val) = true → openSessions s.dev = [j.val] →
      s.dev.rd (HOST.SESS_STAT.CUR j) = p → bitOf (s.dev.rd (HOST.SESS_STAT.STREAMS j)) 1 = true →
      Gives (.hostPortDown p) s fun d => portUp d p = false ∧ d.rd HOST.ARCH_CAP.BPUS = 11830 ∧
        d.rd (HOST.SESS_STAT.CUR j) = 1 - p.val ∧ s.dev.Counted d HOST.FAILOVER_CNT.CNT ∧
        d.tags = { s.dev.tags with retx := s.dev.tags.kept.map Prod.fst, moved := !s.dev.tags.kept.isEmpty } ∧
        (∀ r ∈ d.arch.recs, r.port ≠ some p.val) ∧ s.dev.KeepsPages d [Page.HOST])) ∧
  (∀ (s : State) (p : Fin 2), s.dev.up = true → portUp s.dev p = false →
    (s.dev.on (if p = 0 then HOST.CTL.HA_EN else HOST.CTL.HB_EN) = true → cageDark s.dev (16 + p.val) = false → dormant s.dev = false →
      Gives (.hostPortUp p) s fun d => portUp d p = true ∧ portUp d (1 - p.val) = portUp s.dev (1 - p.val) ∧
        d.rd HOST.ARCH_CAP.BPUS = (if portUp s.dev (1 - p.val) = true then 23660 else 11830) ∧
        (p.val, s.dev.now) ∈ d.host.upAt ∧ (∀ r ∈ d.arch.recs, r.port ≠ none) ∧ s.dev.KeepsPages d [Page.HOST]) ∧
    (s.dev.on (if p = 0 then HOST.CTL.HA_EN else HOST.CTL.HB_EN) = false →
      Gives (.hostPortUp p) s fun d => d = s.dev)) ∧
  ∀ (s : State) (j : Fin 4) (t : Nat), s.dev.up = true → s.dev.on (HOST.SESS_STAT.STATE j) = true →
    s.dev.rd (HOST.SESS_STAT.CUR j) ≠ s.dev.rd (HOST.SESS_STAT.HOME j) → portUp s.dev (s.dev.rd (HOST.SESS_STAT.HOME j)) = true →
    s.dev.host.upAt.find? (fun e => e.1 == s.dev.rd (HOST.SESS_STAT.HOME j)) = some (s.dev.rd (HOST.SESS_STAT.HOME j), t) →
    (t + 16000000000 ≤ s.dev.now → Gives (.homeReturn j) s fun d =>
      d.rd (HOST.SESS_STAT.CUR j) = s.dev.rd (HOST.SESS_STAT.HOME j) % 2 ∧ d.out = s.dev.out ∧
      s.dev.OnlyRegs d [HOST.SESS_STAT.CUR j, HOST.STATUS.JQ_OWNED, HOST.STATUS.FAILOVER]) ∧
    (s.dev.now < t + 16000000000 → Gives (.homeReturn j) s fun d => d = s.dev)

/-! ## The management serial port (spec/14_management_spi.md) -/

/-- R313. -/
def Obligations.SpiCommandErrorsMakeNoAccess : Prop :=
  (∀ (s : State) (high ready : Bool) (c : Word32), s.dev.up = true → s.dev.pw.started = true → s.dev.spi.frame = none →
    (s.dev.rd MGMT.SLV_CFG.MODE = 1 → high = false) → (s.dev.rd MGMT.SLV_CFG.MODE = 2 → high = true) →
    popCount 32 c.toNat % 2 = 0 ∨ 2 ≤ bitsOf c.toNat 30 2 ∨ bitsOf c.toNat 28 2 ≠ 0 →
    ∀ i ∈ [Instr.spiRead high c ready, .spiWrite high c], Gives i s fun d =>
      d.rd MGMT.STATUS.CMD_ERR = 1 ∧ s.dev.Counted d MGMT.CMD_ERR_CNT.CNT ∧
      (∃ f, d.spi.frame = some f ∧ f.ignored = false ∧ f.ok = false ∧ f.cmd = c.toNat ∧ f.slots = 1) ∧
      d.spi.queue = s.dev.spi.queue ∧ d = { s.dev with regs := d.regs, out := d.out, spi := d.spi } ∧
      s.dev.KeepsRegs d [MGMT.STATUS.CMD_ERR, MGMT.CMD_ERR_CNT.CNT, Com.IRQ_RAW Page.MGMT, Com.ERR_CNT Page.MGMT]) ∧
  ∀ (s : State) (high ready : Bool) (w : Word32) (f : SpiFrame), s.dev.up = true → s.dev.spi.frame = some f → f.ignored = false →
    f.ok = false → 1 ≤ f.slots →
    ∀ i ∈ [Instr.spiRead high w ready, .spiWrite high w], Gives i s fun d =>
      d.out = .spiSdo f.slots (if f.slots = 1 then f.cmd else 0) :: s.dev.out ∧
      (∃ g, d.spi.frame = some g ∧ g.ignored = false ∧ g.ok = false ∧ g.cmd = f.cmd ∧ g.slots = f.slots + 1) ∧
      d.spi.queue = s.dev.spi.queue ∧ d = { s.dev with out := d.out, spi := d.spi }

/-- R320. -/
def Obligations.SpiFrameEndsAreRecorded : Prop :=
  ∀ (s : State) (bits : Fin 32), s.dev.up = true → s.dev.pw.started = true → (∀ f, s.dev.spi.frame = some f → f.ignored = false) →
    Gives (.spiFrameEnd bits) s fun d => d.spi = { s.dev.spi with frame := none, stray := false } ∧
      (∀ f, s.dev.spi.frame = some f → d.rd MGMT.LAST_CMD.CMD = f.cmd % 2 ^ 32) ∧
      (s.dev.spi.frame = none → d.rd MGMT.LAST_CMD.CMD = s.dev.rd MGMT.LAST_CMD.CMD) ∧
      d.rd MGMT.LAST_WORDS.WORDS =
        min ((s.dev.spi.frame.map SpiFrame.slots).getD 0) (2 ^ MGMT.LAST_WORDS.WORDS.width - 1) ∧
      d.rd MGMT.LAST_WORDS.BITS = bits ∧ s.dev.Counted d MGMT.FRAME_CNT.CNT ∧
      (bits.val ≠ 0 → bitOf (d.rd (Com.IRQ_RAW Page.MGMT)) MGMT.irq.SEL_ABORT = true ∧
        s.dev.Counted d MGMT.SEL_ABORT_CNT.CNT) ∧
      (bits.val = 0 → d.rd (Com.IRQ_RAW Page.MGMT) = s.dev.rd (Com.IRQ_RAW Page.MGMT) ∧
        d.rd MGMT.SEL_ABORT_CNT.CNT = s.dev.rd MGMT.SEL_ABORT_CNT.CNT ∧
        d.rd (Com.ERR_CNT Page.MGMT) = s.dev.rd (Com.ERR_CNT Page.MGMT)) ∧
      d = { s.dev with regs := d.regs, spi := d.spi } ∧
      s.dev.KeepsRegs d [MGMT.LAST_CMD.CMD, MGMT.LAST_WORDS.WORDS, MGMT.LAST_WORDS.BITS, MGMT.FRAME_CNT.CNT, MGMT.SEL_ABORT_CNT.CNT,
        Com.IRQ_RAW Page.MGMT, Com.ERR_CNT Page.MGMT]

/-- R310, R312 to R323. The model's own choices it rests on in part: log entries 79, 80. -/
def Obligations.SpiFramesAndMaster : Prop :=
  (∀ (s : State) (high ready : Bool) (c : Word32) (a : Nat), s.dev.up = true → s.dev.pw.started = true → s.dev.spi.frame = none →
    (s.dev.rd MGMT.SLV_CFG.MODE = 1 → high = false) → (s.dev.rd MGMT.SLV_CFG.MODE = 2 → high = true) → cmdOk c.toNat = true →
    cmdRead c.toNat = true → a = cmdAddr c.toNat → a < 0x01000000 → s.dev.PlainWord .spi a →
    Gives (.spiRead high c ready) s fun d => d.out = .spiSdo 0 (regWord s.dev MGMT.STATUS.PAGE_END.addr) :: s.dev.out ∧
      (∃ f, d.spi.frame = some f ∧ f.ok = true ∧ f.ignored = false ∧ f.cmd = c.toNat ∧ f.slots = 1 ∧
        f.words = [(0, regWord s.dev a)]) ∧
      d = { s.dev with out := d.out, spi := d.spi }) ∧
  (∀ (s : State) (high : Bool) (w : Word32) (f : SpiFrame) (k v : Nat), s.dev.up = true → s.dev.spi.frame = some f →
    f.ignored = false → f.ok = true → cmdRead f.cmd = true → f.slots = k + 2 → f.words.find? (fun q => q.1 == k) = some (k, v) →
    (∀ a, wordAddr f.cmd (k + 2) = some a → a < 0x01000000 ∧ s.dev.PlainWord .spi a) →
    Gives (.spiRead high w true) s fun d => d.out = .spiSdo (k + 2) v :: s.dev.out ∧
      (∃ g, d.spi.frame = some g ∧ g.slots = k + 3 ∧ g.last = v ∧
        (k + 2, (wordAddr f.cmd (k + 2)).elim 0 (regWord s.dev)) ∈ g.words) ∧
      (d.rd MGMT.STATUS.PAGE_END = if (wordAddr f.cmd (k + 2)).isNone then 1 else s.dev.rd MGMT.STATUS.PAGE_END) ∧
      s.dev.KeepsRegs d [MGMT.STATUS.PAGE_END] ∧ d.spi.queue = s.dev.spi.queue) ∧
  (∀ (s : State) (high : Bool) (w : Word32) (f : SpiFrame) (k a b : Nat), s.dev.up = true → s.dev.spi.frame = some f →
    f.ignored = false → f.ok = true → cmdRead f.cmd = true → f.slots = k + 2 → wordAddr f.cmd k = some a → hbmWindow a = true →
    wordAddr f.cmd (k + 2) = some b → hbmWindow b = true → s.dev.on MEM.STATUS.DEGRADED = false → s.Sound →
    (∀ h ∈ s.dev.integ.half, h.1 ≠ .spi) →
    Gives (.spiRead high w false) s fun d => d.out = .spiSdo (k + 2) f.last :: s.dev.out ∧
      (∃ g, d.spi.frame = some g ∧ g.slots = k + 3 ∧ (k + 2, s.mem.u32 b) ∈ g.words) ∧ d.rd MGMT.STATUS.UNDERRUN = 1 ∧
      s.dev.Counted d MGMT.UNDERRUN_CNT.CNT ∧ bitOf (d.rd (Com.IRQ_RAW Page.MGMT)) MGMT.irq.UNDERRUN = true ∧
      (f.under = false → s.dev.on MGMT.STATUS.UNDERRUN = false → d.rd MGMT.UNDERRUN_IDX.SLOT =
        min (k + 2) (2 ^ MGMT.UNDERRUN_IDX.SLOT.width - 1)) ∧ s.dev.KeepsPages d [Page.MGMT]) ∧
  (∀ (s : State) (high : Bool) (c : Word32), s.dev.up = true → s.dev.pw.started = true → s.dev.spi.frame = none →
    (s.dev.rd MGMT.SLV_CFG.MODE = 1 → high = false) → (s.dev.rd MGMT.SLV_CFG.MODE = 2 → high = true) → cmdOk c.toNat = true →
    cmdRead c.toNat = false →
    Gives (.spiWrite high c) s fun d => d.out = .spiSdo 0 (regWord s.dev MGMT.STATUS.PAGE_END.addr) :: s.dev.out ∧
      (∃ f, d.spi.frame = some f ∧ f.ok = true ∧ f.cmd = c.toNat ∧ f.slots = 1) ∧ d.spi.queue = s.dev.spi.queue ∧
      d = { s.dev with out := d.out, spi := d.spi }) ∧
  (∀ (s : State) (high : Bool) (w : Word32) (f : SpiFrame) (k : Nat), s.dev.up = true → s.dev.spi.frame = some f → f.ignored = false →
    f.ok = true → cmdRead f.cmd = false → f.slots = k + 1 →
    Gives (.spiWrite high w) s fun d => d.out = .spiSdo (k + 1) (if k = 0 then f.cmd else 0) :: s.dev.out ∧
      (∃ g, d.spi.frame = some g ∧ g.slots = k + 2) ∧
      (∀ a, wordAddr f.cmd k = some a → s.dev.spi.queue.length < 16 → d.spi.queue = s.dev.spi.queue ++ [(a, w.toNat)] ∧
        d.rd MGMT.WR_QUEUE.N = s.dev.spi.queue.length + 1 ∧ s.dev.KeepsRegs d [MGMT.WR_QUEUE.N]) ∧
      (∀ a, wordAddr f.cmd k = some a → 16 ≤ s.dev.spi.queue.length → d.spi.queue = s.dev.spi.queue ∧
        d.rd MGMT.STATUS.WR_DROP = 1 ∧ s.dev.Counted d MGMT.WR_DROP_CNT.CNT ∧ s.dev.KeepsRegs d [MGMT.STATUS.WR_DROP,
          MGMT.WR_DROP_CNT.CNT, Com.IRQ_RAW Page.MGMT, Com.ERR_CNT Page.MGMT]) ∧
      (wordAddr f.cmd k = none → d.spi.queue = s.dev.spi.queue ∧ d.rd MGMT.STATUS.PAGE_END = 1 ∧
        s.dev.KeepsRegs d [MGMT.STATUS.PAGE_END])) ∧
  (∀ (s : State) (high : Bool) (c : Word32), s.dev.up = true → s.dev.pw.started = true → s.dev.spi.frame = none →
    (s.dev.rd MGMT.SLV_CFG.MODE = 1 ∧ high = true ∨ s.dev.rd MGMT.SLV_CFG.MODE = 2 ∧ high = false) →
    Gives (.spiWrite high c) s fun d => (∃ f, d.spi.frame = some f ∧ f.ignored = true) ∧ d.rd MGMT.STATUS.CMD_ERR = 1 ∧
      s.dev.Counted d MGMT.CMD_ERR_CNT.CNT ∧ d.out = s.dev.out ∧ d.spi.queue = s.dev.spi.queue) ∧
  (∀ (s : State) (high ready : Bool) (c : Word32) (bits : Fin 32) (f : SpiFrame), s.dev.up = true → s.dev.spi.frame = some f →
    f.ignored = true → Gives (.spiWrite high c) s (fun d => d = s.dev) ∧ Gives (.spiRead high c ready) s (fun d => d = s.dev) ∧
      Gives (.spiFrameEnd bits) s fun d => d = { s.dev with spi := { s.dev.spi with frame := none, stray := false } }) ∧
  (∀ s : State, s.dev.up = true → s.dev.spi.queue = [] → Gives .spiWriteApply s fun d => d = s.dev) ∧
  (∀ (s : State) (a w : Nat) (rest : List (Nat × Nat)), s.dev.up = true → s.dev.spi.queue = (a, w) :: rest → rest.length < 16 →
    Completes .spiWriteApply s fun t => (t.dev, t.mem) = regWrite .spi a w
      (({ s.dev with spi := { s.dev.spi with queue := rest } }).wr MGMT.WR_QUEUE.N rest.length, s.mem)) ∧
  (∀ s : State, s.dev.up = true → s.dev.pw.started = true → s.dev.spi.frame = none →
    (s.dev.spi.stray = false → Gives .spiStrayEdge s fun d => d.spi = { s.dev.spi with stray := true } ∧
      s.dev.Counted d MGMT.STRAY_EDGE_CNT.CNT ∧ s.dev.KeepsRegs d [MGMT.STRAY_EDGE_CNT.CNT] ∧
      d = { s.dev with regs := d.regs, spi := d.spi }) ∧
    (s.dev.spi.stray = true → Gives .spiStrayEdge s fun d => d = s.dev)) ∧
  (∀ (s : State) (sel : Fin 8), s.dev.up = true →
    (s.dev.on MGMT.MST_STAT.BUSY = true → Gives (.mstGo sel) s fun d => d = s.dev) ∧
    (s.dev.on MGMT.MST_STAT.BUSY = false → (∃ n : Fin 2, s.dev.on (THERM.CTL.EN n) = true ∧ s.dev.rd (THERM.BIAS.CS n) = sel) →
      Gives (.mstGo sel) s fun d => d.rd MGMT.MST_STAT.OWNED = 1 ∧ s.dev.OnlyRegs d [MGMT.MST_STAT.OWNED]) ∧
    (s.dev.on MGMT.MST_STAT.BUSY = false → (∀ n : Fin 2, s.dev.on (THERM.CTL.EN n) = true → s.dev.rd (THERM.BIAS.CS n) ≠ sel) →
      Gives (.mstGo sel) s fun d => d.rd MGMT.MST_STAT.BUSY = 1 ∧
        d.spi = { s.dev.spi with
          mst := some ⟨sel, s.dev.rd (MGMT.MST_SEL.BITS sel), s.dev.rd MGMT.MST_TX.DATA, biasWaits s.dev⟩ } ∧
        d = { s.dev with regs := d.regs, spi := d.spi } ∧ s.dev.KeepsRegs d [MGMT.MST_STAT.BUSY])) ∧
  (∀ (s : State) (w : Word32) (t : MstRun), s.dev.up = true → s.dev.spi.mst = some t →
    (t.waits = true → Gives (.mstTransferDone w) s fun d => d = s.dev) ∧
    (t.waits = false → Gives (.mstTransferDone w) s fun d => d.spi = { s.dev.spi with mst := none } ∧
      d.out = .spiOut t.sel t.bits (t.data % 2 ^ t.bits) (s.dev.rd (MGMT.MST_SEL.MODE t.sel)) (max 3 (s.dev.rd (MGMT.MST_SEL.DIV t.sel)))
          (s.dev.rd (MGMT.MST_SEL.CSS t.sel)) (s.dev.rd (MGMT.MST_SEL.CSH t.sel)) :: s.dev.out ∧ d.rd MGMT.MST_RX.DATA = w.toNat % 2 ^ t.bits ∧
      d.rd MGMT.MST_STAT.BUSY = 0 ∧ d.rd MGMT.MST_STAT.DONE = 1 ∧ s.dev.Counted d MGMT.MST_XFER_CNT.CNT ∧
      bitOf (d.rd (Com.IRQ_RAW Page.MGMT)) MGMT.irq.MST_DONE = true ∧ s.dev.KeepsPages d [Page.MGMT])) ∧
  ∀ (s : State) (w : Word32), s.dev.up = true → s.dev.spi.mst = none → Gives (.mstTransferDone w) s fun d => d = s.dev

/-! ## Twins and the ring (spec/15_twin_and_ring.md) -/

/-- R325 to R328, R331, R339, R344. The model's own choices it rests on in part: log entries 5, 81, 82, 83, 84. -/
def Obligations.PairsFormAndTheGateDecides : Prop :=
  (∀ (s : State) (sideB takeOut : Bool) (state serial fw : Nat), s.dev.up = true → s.dev.on TWIN.CTL.EN = true →
    s.dev.rd TWIN.STATUS.STATE = 1 →
    let err (c : Nat) : Prop := Gives (.twinHello sideB state takeOut serial fw) s fun d => d.rd TWIN.STATUS.STATE = 6 ∧
      d.rd TWIN.STATUS.ERR_CAUSE = c ∧ bitOf (d.rd (Com.IRQ_RAW Page.TWIN)) TWIN.irq.PAIR_ERR = true ∧
      s.dev.OnlyRegs { d with marks := s.dev.marks } [TWIN.STATUS.STATE, TWIN.STATUS.ERR_CAUSE, Com.IRQ_RAW Page.TWIN, Com.ERR_CNT Page.TWIN]
    let syncs : Prop := Gives (.twinHello sideB state takeOut serial fw) s fun d => d.rd TWIN.STATUS.STATE = 2 ∧
      d.rd TWIN.STATUS.MIRRORED = 0 ∧ d.twin.wanted = true ∧ d.twin.applied = false ∧ d.out.head? = some (.twin .imageReq []) ∧
      s.dev.KeepsRegs d [TWIN.STATUS.STATE, TWIN.STATUS.MIRRORED]
    (sideB = s.dev.on TWIN.STATUS.SIDE → err 1) ∧
    (sideB ≠ s.dev.on TWIN.STATUS.SIDE → takeOut ≠ s.dev.on TWIN.STATUS.TAKE_IN → err 2) ∧
    (sideB ≠ s.dev.on TWIN.STATUS.SIDE → takeOut = s.dev.on TWIN.STATUS.TAKE_IN → (state = 6 → err 3) ∧
      (state = 3 ∨ state = 1 ∧ s.dev.on TWIN.STATUS.SIDE = true → syncs) ∧
      (state = 1 → s.dev.on TWIN.STATUS.SIDE = false → (∀ p : Fin 16, linkState s.dev p ≠ LS.snoop) →
        Gives (.twinHello sideB state takeOut serial fw) s fun d => d.rd TWIN.STATUS.STATE = 3 ∧ d.rd TWIN.STATUS.TAKE_OUT = 1 ∧
          .pin 7 1 ∈ d.out ∧ s.dev.KeepsPages d [Page.TWIN, Page.ZCTL]))) ∧
  (∀ (s : State) (sideB takeOut : Bool) (state serial fw : Nat), s.dev.up = true → s.dev.on TWIN.CTL.EN = false →
    Gives (.twinHello sideB state takeOut serial fw) s fun d => d = { s.dev with marks := d.marks }) ∧
  (∀ s : State, s.dev.up = true →
    (s.dev.on TWIN.CTL.EN = true → s.dev.rd TWIN.STATUS.STATE = 1 → s.dev.past .hello oneMs = true → Gives .helloSend s fun d => d = { s.dev with
      marks := d.marks
      out := .twin .hello [(s.dev.rd TWIN.STATUS.SIDE : Int), 1, (s.dev.rd TWIN.STATUS.TAKE_OUT : Int),
        (Config.serialLo.toNat : Int), (Config.fwRom.toNat : Int)] :: s.dev.out }) ∧
    (s.dev.on TWIN.CTL.EN = true → s.dev.rd TWIN.STATUS.STATE = 1 → (∀ p : Fin 16, linkState s.dev p ≠ LS.snoop) →
      s.dev.on TWIN.STATUS.TAKE_IN = false → s.dev.past .solo (s.dev.rd TWIN.CFG.SOLO_WAIT * oneMs) = true → Gives .soloWaitExpiry s fun d => d.rd TWIN.STATUS.STATE = 3 ∧
        d.rd TWIN.STATUS.TAKE_OUT = 1 ∧ d.out = .pin 7 1 :: s.dev.out ∧ s.dev.KeepsPages d [Page.TWIN, Page.ZCTL]) ∧
    (s.dev.on TWIN.CTL.EN = false ∨ s.dev.rd TWIN.STATUS.STATE ≠ 1 →
      Gives .helloSend s (fun d => d = s.dev) ∧ Gives .soloWaitExpiry s fun d => d = s.dev) ∧
    (s.dev.past .hello oneMs = false → Gives .helloSend s fun d => d = s.dev) ∧
    (s.dev.past .solo (s.dev.rd TWIN.CFG.SOLO_WAIT * oneMs) = false → Gives .soloWaitExpiry s fun d => d = s.dev)) ∧
  (∀ s : State, s.dev.up = true → s.dev.on TWIN.CTL.EN = true → s.dev.on TWIN.STATUS.TAKE_IN = false →
    s.dev.on TWIN.STATUS.TAKE_OUT = true → s.dev.rd TWIN.STATUS.STATE = 3 →
    (s.dev.twin.outAt + 3200 < s.dev.now ∨ s.dev.on TWIN.STATUS.SIDE = true → s.dev.pw.going = .no →
      (∀ ch : Fin 16, s.dev.valves[ch].run = none) → (∀ p : Fin 16, homing s.dev p ≠ 2) →
      Gives (.takeInChange true) s fun d => d.rd TWIN.STATUS.STATE = 5 ∧ d.rd TWIN.STATUS.TAKE_OUT = 0 ∧
        d.rd TWIN.STATUS.TAKE_IN = 1 ∧ d.rd TWIN.STATUS.MIRRORED = 0 ∧ s.dev.Counted d TWIN.FENCED_CNT.CNT ∧
        bitOf (d.rd (Com.IRQ_RAW Page.TWIN)) TWIN.irq.FENCED = true ∧ .pin 7 0 ∈ d.out ∧
        s.dev.KeepsPages d [Page.TWIN, Page.ZCTL]) ∧
    (s.dev.now ≤ s.dev.twin.outAt + 3200 → s.dev.on TWIN.STATUS.SIDE = false →
      Gives (.takeInChange true) s fun d => d.rd TWIN.STATUS.TAKE_IN = 1 ∧ d.out = s.dev.out ∧
        s.dev.KeepsRegs d [TWIN.STATUS.TAKE_IN])) ∧
  (∀ s : State, s.dev.up = true → Gives (.takeInChange false) s fun d => d.rd TWIN.STATUS.TAKE_IN = 0 ∧
    s.dev.OnlyRegs d [TWIN.STATUS.TAKE_IN]) ∧
  (∀ (s : State) (rtt res : Nat), s.dev.up = true →
    Gives (.twinEcho true rtt res) s (fun d => d.rd TWIN.LINK_DLY.DLY = min ((rtt - res) / 2) 65535 ∧
      s.dev.OnlyRegs { d with marks := s.dev.marks } [TWIN.LINK_DLY.DLY]) ∧
    Gives (.twinEcho false rtt res) s fun d => d = { s.dev with marks := d.marks, out := .twin .echoR [] :: s.dev.out }) ∧
  (∀ s : State, s.dev.up = true → s.dev.on TWIN.STATUS.LINK_UP = false → Gives .twinLinkDown s fun d => d = s.dev) ∧
  (∀ s : State, s.dev.up = true → s.dev.on TWIN.STATUS.LINK_UP = true →
    (s.dev.isActive = true → s.dev.on TWIN.STATUS.MIRRORED = false → s.dev.ep.stbyWait = false →
      Gives .twinLinkDown s fun d => d.rd TWIN.STATUS.LINK_UP = 0 ∧ s.dev.Counted d TWIN.LINK_DOWN_CNT.CNT ∧
        bitOf (d.rd (Com.IRQ_RAW Page.TWIN)) TWIN.irq.LINK_DOWN = true ∧ d.twin.owed = false ∧ s.dev.KeepsPages d [Page.TWIN]) ∧
    (s.dev.rd TWIN.STATUS.STATE = 4 → pairHbFresh s.dev = true → Gives .twinLinkDown s fun d => d.rd TWIN.STATUS.STATE = 2 ∧
      d.rd TWIN.STATUS.MIRRORED = 0 ∧ d.rd TWIN.STATUS.LINK_UP = 0 ∧ d.twin.wanted = true ∧ d.twin.applied = false ∧
      s.dev.KeepsPages d [Page.TWIN]) ∧
    (s.dev.rd TWIN.STATUS.STATE = 4 → pairHbFresh s.dev = false → Gives .twinLinkDown s fun d => d.rd TWIN.STATUS.STATE = 4 ∧
      d.rd TWIN.STATUS.LINK_UP = 0 ∧ s.dev.Counted d TWIN.LINK_DOWN_CNT.CNT ∧ d.twin = s.dev.twin ∧
      s.dev.KeepsPages d [Page.TWIN])) ∧
  (∀ s : State, s.dev.up = true → cageDark s.dev 18 = false → dormant s.dev = false → Gives .twinLinkUp s fun d => d.rd TWIN.STATUS.LINK_UP = 1 ∧
    s.dev.KeepsRegs d [TWIN.STATUS.LINK_UP] ∧ d.twin.wanted = (s.dev.twin.wanted || decide (s.dev.rd TWIN.STATUS.STATE = 2)) ∧
    (s.dev.rd TWIN.STATUS.STATE = 2 → d.out.head? = some (.twin .imageReq []))) ∧
  ∀ (s : State) (string : Bool), s.dev.up = true → Gives (.messageCrcFail string) s fun d =>
    s.dev.Counted d (if string then STRING.MSG_ERR_CNT.CNT else TWIN.MSG_ERR_CNT.CNT) ∧
    s.dev.OnlyRegs d [STRING.MSG_ERR_CNT.CNT, TWIN.MSG_ERR_CNT.CNT]

/-- R329 to R332, R443. The model's own choices it rests on in part: log entries 85, 86, 135. -/
def Obligations.StandbyFollowsItsActive : Prop :=
  (∀ (s : State) (tb wln step : Nat) (hbm : Bool), s.dev.up = true →
    (s.dev.on TWIN.CTL.EN = false → Gives (.heart tb wln hbm step) s fun d => d = { s.dev with marks := d.marks }) ∧
    (s.dev.on TWIN.CTL.EN = true → s.dev.rd TWIN.STATUS.STATE = 5 → s.dev.on TWIN.STATUS.LINK_UP = true →
      Gives (.heart tb wln hbm step) s fun d => d.rd TWIN.STATUS.STATE = 2 ∧ d.twin.wanted = true ∧ d.twin.hbm = hbm ∧
        d.twin.step = step ∧ s.dev.KeepsRegs d [TWIN.STATUS.STATE, TWIN.STATUS.MIRRORED]) ∧
    (s.dev.on TWIN.CTL.EN = true → s.dev.rd TWIN.STATUS.STATE = 4 ∨ s.dev.rd TWIN.STATUS.STATE = 2 →
      let off : Int := (tb : Int) + s.dev.rd TWIN.LINK_DLY.DLY - s.dev.now
      (128 < off.natAbs → Gives (.heart tb wln hbm step) s fun d => d.rd WEB.TB_CTL.LOCKED = 0 ∧ d.time.inBand = 0 ∧
        d.twin.hbm = hbm ∧ d.twin.step = step ∧ s.dev.KeepsRegs d [WEB.TB_CTL.LOCKED]) ∧
      (off.natAbs ≤ 32 → s.dev.time.inBand < 63 → s.dev.on WEB.TB_CTL.LOCKED = false → Gives (.heart tb wln hbm step) s fun d =>
        d.time.inBand = s.dev.time.inBand + 1 ∧ d.twin.hbm = hbm ∧ d.twin.step = step ∧ d.regs = s.dev.regs) ∧
      (off.natAbs ≤ 32 → s.dev.time.inBand = 63 → Gives (.heart tb wln hbm step) s fun d => d.rd WEB.TB_CTL.LOCKED = 1 ∧
        s.dev.KeepsRegs d [WEB.TB_CTL.LOCKED, WEB.TB_RATE.RATE]))) ∧
  (∀ (s : State) (e id : Nat) (f : Fld) (v : Nat), s.dev.up = true → s.dev.isActive = false →
    (pageFields (f.key / 32 / 4096)).find? (fun g => g.key == f.key && g.acc == .rws) = some f →
    Gives (.stage e id [(f.key, v)]) s fun d => d.ep.frozen = some [(f, v % 2 ^ f.width)] ∧ d.ep.next = [] ∧ d.ep.target = e ∧
      d.ep.id = id ∧ d.rd WEB.EPOCH_STATUS.STATE = 2 ∧ d.rd WEB.EPOCH_ID.ARMED_ID = id % 65536 ∧
      d.out = .twin .stageAck [(id : Int)] :: s.dev.out ∧
      ((∃ q ∈ s.dev.ep.next, q.1.key ≠ f.key) → d.rd SYS.STATUS.STBY_STAGE_LOST = 1) ∧
      (s.dev.ep.next = [] → d.rd SYS.STATUS.STBY_STAGE_LOST = s.dev.rd SYS.STATUS.STBY_STAGE_LOST) ∧
      s.dev.KeepsRegs d [WEB.EPOCH_STATUS.STATE, WEB.EPOCH_ID.ARMED_ID, SYS.STATUS.STBY_STAGE_LOST, Com.IRQ_RAW Page.SYS,
        Com.ERR_CNT Page.SYS]) ∧
  (∀ (s : State) (q : LineDigest) (runs bg n closes : Nat), s.dev.up = true → s.dev.seg.digests = [q] →
    digestSettled s.dev q = true → s.dev.twin.digests = [] →
    (s.dev.rd TWIN.STATUS.STATE = 4 → q.sums = [runs, bg, n, closes] → Gives (.digest q.wln runs bg n closes) s fun d =>
      d.rd2 TWIN.VER_WLN_LO.WLN TWIN.VER_WLN_HI.WLN = q.wln % 2 ^ 48 ∧ d.rd TWIN.STATUS.STATE = 4 ∧ d.seg.digests = [] ∧
      s.dev.KeepsRegs d [TWIN.VER_WLN_LO.WLN, TWIN.VER_WLN_HI.WLN]) ∧
    (s.dev.rd TWIN.STATUS.STATE = 2 → s.dev.twin.applied = true → q.sums = [runs, bg, n, closes] →
      Gives (.digest q.wln runs bg n closes) s fun d => d.rd TWIN.STATUS.STATE = 4 ∧ d.rd TWIN.STATUS.MIRRORED = 1 ∧
        s.dev.Counted d TWIN.RESYNC_CNT.CNT ∧ bitOf (d.rd (Com.IRQ_RAW Page.TWIN)) TWIN.irq.MIRRORED = true ∧
        s.dev.KeepsPages d [Page.TWIN]) ∧
    (s.dev.rd TWIN.STATUS.STATE = 4 → q.sums ≠ [runs, bg, n, closes] → Gives (.digest q.wln runs bg n closes) s fun d =>
      d.rd TWIN.STATUS.STATE = 2 ∧ d.rd TWIN.STATUS.MIRRORED = 0 ∧ s.dev.Counted d TWIN.DIFF_CNT.CNT ∧
      bitOf (d.rd (Com.IRQ_RAW Page.TWIN)) TWIN.irq.DIFF = true ∧ d.twin.wanted = true ∧ s.dev.KeepsPages d [Page.TWIN])) ∧
  (∀ (s : State) (p : Fin 16) (g : Nat), s.dev.up = true → s.dev.isActive = false →
    Gives (.creditG [(p.val, g)]) s fun d => d.ports[p].snoopG = g ∧ d = { s.dev with ports := d.ports, marks := d.marks } ∧
      ∀ q : Fin 16, q ≠ p → d.ports[q] = s.dev.ports[q]) ∧
  (∀ (s : State) (x : MSlot) (firePos fireT energy : Nat), s.dev.up = true → s.dev.isActive = false → s.dev.mark.slots = [x] →
    Gives (.twinLaunch x.idx firePos fireT energy) s fun d =>
      d.mark.slots = [{ x with state := .run, valve := x.ch, firePos := firePos, fireT := fireT }] ∧
      (x.idx, energy) ∈ d.twin.launches ∧ d.rd MARK.SLOT_STAT1.RUN = 1 ∧ d.out = s.dev.out ∧ s.dev.KeepsPages d [Page.MARK]) ∧
  (∀ (s : State) (x : MSlot) (result dipT spent : Nat), s.dev.up = true → s.dev.isActive = false → s.dev.mark.slots = [x] →
    Gives (.slotEnd x.idx result dipT spent) s fun d =>
      d.mark.slots = [{ x with state := .done, result := result, dipT := dipT }] ∧ (∀ l ∈ d.twin.launches, l.1 ≠ x.idx) ∧
      d.rd MARK.AVAIL.UJ = ofSigned MARK.AVAIL.UJ.width (s.dev.rdS MARK.AVAIL.UJ - spent) ∧
      d.rd2 MARK.SPENT_LO.SPENT MARK.SPENT_HI.SPENT = (s.dev.rd2 MARK.SPENT_LO.SPENT MARK.SPENT_HI.SPENT + spent) % 2 ^ 64 ∧
      d.out = .twin .slotAck [(x.idx : Int)] :: s.dev.out ∧ s.dev.KeepsPages d [Page.MARK]) ∧
  (∀ (s : State) (target : Fin 20) (cause : Nat) (latched : Bool) (f : Fld), s.dev.up = true → s.dev.isActive = false →
    f = (if target.val < 16 then VALVE.FAULT.CAUSE target.val else HSG.FAULT.CAUSE (target.val - 16)) →
    Gives (.faultEv target cause latched) s fun d => d.rd f = (if latched then cause % 2 ^ f.width else 0) ∧
      s.dev.OnlyRegs { d with marks := s.dev.marks } [f]) ∧
  (∀ (s : State) (first : Nat) (r : StreamRec), s.dev.up = true → s.dev.isActive = false → r.type ≠ 0x52 → r.tagOf = none →
    s.dev.tags.waiting = [r] → first < 2 ^ 32 → Gives (.placed first [(r.type, r.blob, r.close)]) s fun d =>
      d.tags.waiting = [] ∧ d.tags.kept = s.dev.tags.kept ++ [(first, { r with words := r.words.set 1 first })] ∧
      d.rd TAG.SSEQ.NEXT = (first + 1) % 2 ^ 32 ∧ d.mark = s.dev.mark ∧ s.dev.KeepsPages d [Page.TAG]) ∧
  (∀ (s : State) (sseq : Nat), s.dev.up = true → s.dev.isActive = false → s.dev.tags.acked = none →
    sseq < s.dev.rd TAG.SSEQ.NEXT → s.dev.rd TAG.SSEQ.NEXT < 2 ^ 32 → (∀ e ∈ s.dev.tags.kept, e.1 < 2 ^ 32) →
    Gives (.hostAck sseq) s fun d => d.tags.kept = s.dev.tags.kept.filter (fun e => decide (sseq < e.1)) ∧
      d.tags.acked = some sseq ∧ s.dev.KeepsPages d [Page.TAG]) ∧
  (∀ (s : State) (k v : Nat), s.dev.up = true → s.dev.isActive = false → Gives (.counts [(k, v)]) s fun d =>
    d.twin.mirror.get k 0 = v ∧ (∀ j, j ≠ k → d.twin.mirror.get j 0 = s.dev.twin.mirror.get j 0) ∧
    d = { s.dev with twin := { s.dev.twin with mirror := d.twin.mirror }, marks := d.marks }) ∧
  (∀ (s : State) (n : Fin 2) (sh cap chk : Bool) (state : Nat) (run : CaptureRun), s.dev.up = true →
    (s.dev.isActive = true → Gives (.capture n sh cap chk state run) s fun d => d = s.dev) ∧
    (s.dev.isActive = false → state ≠ SS.closing → state ≠ SS.failed →
      Gives (.capture n sh false false state run) s fun d =>
        d.rd (THERM.SH_STAT.STATE n) = state % 2 ^ (THERM.SH_STAT.STATE n).width ∧
        d.rd (THERM.SH_STAT.CAUSE n) = run.cause % 2 ^ (THERM.SH_STAT.CAUSE n).width ∧ d.heads[n].left = run.left ∧
        d.heads[n].retried = run.retried ∧ d.heads[n].again = run.again ∧
        d.heads[n].cur = s.dev.heads[n].cur.map (fun f => { f with shutter := sh, capture := false, check := false }) ∧
        s.dev.KeepsRegs d [THERM.SH_STAT.STATE n, THERM.SH_STAT.CAUSE n] ∧ ∀ k : Fin 2, k ≠ n → d.heads[k] = s.dev.heads[k]) ∧
    (s.dev.isActive = false → Gives (.capture n sh cap true state run) s fun d =>
      d.heads[n].old = none ∧ d.heads[n].done = false ∧ (∀ f, d.heads[n].cur = some f → f.oldOfs = false ∧ f.check = true))) ∧
  ∀ (s : State) (gs : List (Nat × Nat)) (keys : List (Nat × Nat × Nat)) (target : Fin 20) (b : Bool) (n1 n2 n3 n4 : Nat),
    s.dev.up = true → s.dev.isActive = true →
    ∀ c ∈ [Instr.creditG gs, .twinLaunch n1 n2 n3 n4, .slotEnd n1 n2 n3 n4, .faultEv target n1 b, .placed n1 keys, .hostAck n1,
      .counts gs, .stage n1 n2 gs], Gives c s fun d => d = s.dev

/-- R331 to R338. The model's own choices it rests on in part: log entries 5, 82, 85, 135. -/
def Obligations.ResyncAndTakeover : Prop :=
  (∀ s : State, s.dev.up = true →
    (s.dev.isActive = true → s.dev.seg.cur = none → Gives .imageReq s fun d => d = { s.dev with
      out := .image (s.dev.seg.prev.elim 0 fun p => p.1) (takeImage s.dev) :: s.dev.out, twin := { s.dev.twin with owed := false } }) ∧
    (s.dev.isActive = true → s.dev.seg.cur ≠ none → Gives .imageReq s fun d => d = { s.dev with
      twin := { s.dev.twin with owed := true } }) ∧
    (s.dev.isActive = false → Gives .imageReq s fun d => d = s.dev)) ∧
  (∀ (s : State) (w0 : Nat) (img : TwinImage), s.dev.up = true →
    (s.dev.rd TWIN.STATUS.STATE = 2 → s.dev.twin.wanted = true → s.dev.twin.store = [] → s.dev.seg.cur = none →
      img.nextSseq < 2 ^ 32 → Gives (.image w0 img) s fun d => d.twin.applied = true ∧ d.twin.wanted = false ∧
        d.seg.blobs = img.blobs ∧ d.seg.conts = img.conts ∧ d.seg.bg = img.bg ∧ d.seg.groups = img.groups ∧
        d.mark.slots = img.slots ∧ d.mark.seq = img.markSeq ∧ d.tags.acked = img.acked ∧ d.rd TAG.SSEQ.NEXT = img.nextSseq ∧
        d.rd MARK.AVAIL.UJ = ofSigned MARK.AVAIL.UJ.width img.avail ∧ d.rd TWIN.STATUS.STATE = 2 ∧ d.out = s.dev.out ∧
        s.dev.KeepsPages d [Page.MARK, Page.SEG, Page.TAG]) ∧
    (s.dev.rd TWIN.STATUS.STATE ≠ 2 ∨ s.dev.twin.wanted = false → Gives (.image w0 img) s fun d => d = { s.dev with marks := d.marks })) ∧
  (∀ s : State, s.dev.up = true →
    (s.dev.rd TWIN.STATUS.STATE = 2 → s.dev.twin.wanted = true → Gives .resyncFail s fun d =>
      s.dev.Counted d TWIN.RESYNC_FAIL_CNT.CNT ∧ d.out = .twin .imageReq [] :: s.dev.out ∧ d.twin.wanted = true ∧
      d.twin.store = [] ∧ s.dev.KeepsRegs d [TWIN.RESYNC_FAIL_CNT.CNT]) ∧
    (s.dev.rd TWIN.STATUS.STATE = 2 ∨ s.dev.rd TWIN.STATUS.STATE = 4 → Gives .resync s fun d => d.rd TWIN.STATUS.STATE = 2 ∧
      d.rd TWIN.STATUS.MIRRORED = 0 ∧ d.twin.wanted = true ∧ d.out.head? = some (.twin .imageReq []) ∧
      s.dev.KeepsRegs d [TWIN.STATUS.STATE, TWIN.STATUS.MIRRORED]) ∧
    (s.dev.isActive = true → Gives .resyncFail s (fun d => d = s.dev) ∧ Gives .resync s fun d => d = s.dev)) ∧
  (∀ (s : State) (c : Instr) (cause : Nat), s.dev.up = true →
    (c = .heartbeatTimeout ∧ cause = 1 ∧ s.dev.on TWIN.CTL.EN = true ∧ s.dev.past .twin (16000 * hbTimeout s.dev) = true ∧
        (s.dev.on TWIN.CFG.STRING_HB = false ∨ pairHbFresh s.dev = false) ∧
        (s.dev.rd TWIN.STATUS.STATE = 2 ∨ s.dev.rd TWIN.STATUS.STATE = 4)) ∨
      (c = .yieldMsg ∧ cause = 2 ∧ s.dev.rd TWIN.STATUS.STATE = 4) ∨
      (c = .takeOver ∧ cause = 3 ∧ (s.dev.rd TWIN.STATUS.STATE = 2 ∨ s.dev.rd TWIN.STATUS.STATE = 4)) →
    ¬(s.dev.on TWIN.STATUS.TAKE_IN = true ∧ s.dev.on TWIN.STATUS.SIDE = true ∧ s.dev.now ≤ s.dev.twin.inAt + 3200) →
    s.dev.rd WEB.EPOCH_STATUS.STATE ≠ 2 → s.dev.rd TWIN.MARK_UNKNOWN_CNT.CNT < 2 ^ 32 →
    Gives c s fun d => d.rd TWIN.STATUS.STATE = 3 ∧ d.rd TWIN.STATUS.TAKE_OUT = 1 ∧ .pin 7 1 ∈ d.out ∧
      d.rd TWIN.TAKE_INFO.CAUSE = cause ∧ d.rd TWIN.TAKE_INFO.UNMIRRORED = b2n (!s.dev.on TWIN.STATUS.MIRRORED) ∧
      s.dev.Counted d TWIN.TAKEOVER_CNT.CNT ∧ bitOf (d.rd (Com.IRQ_RAW Page.TWIN)) TWIN.irq.TAKEOVER = true ∧
      (∀ x ∈ d.mark.slots, x.state = .armed ∧ x.taken = true) ∧
      d.rd TWIN.MARK_UNKNOWN_CNT.CNT = min (s.dev.rd TWIN.MARK_UNKNOWN_CNT.CNT +
        (s.dev.mark.slots.filter fun x => x.state == .run).length) (2 ^ 32 - 1) ∧
      (∀ b ∈ d.seg.blobs, b.taken = true) ∧ d.gen.takeMark = true ∧ d.twin.launches = []) ∧
  (∀ s : State, s.dev.up = true →
    (s.dev.isActive = true → Gives .heartbeatTimeout s (fun d => d = s.dev) ∧ Gives .takeOver s (fun d => d = s.dev) ∧
      Gives .yieldMsg s fun d => d = s.dev) ∧
    (s.dev.past .twin (16000 * hbTimeout s.dev) = false → Gives .heartbeatTimeout s fun d => d = s.dev) ∧
    (s.dev.on TWIN.CFG.STRING_HB = true → pairHbFresh s.dev = true → Gives .heartbeatTimeout s fun d => d = s.dev) ∧
    (s.dev.rd TWIN.STATUS.STATE = 2 → Gives .yieldMsg s fun d => d = { s.dev with marks := d.marks, out := .twin .yieldRefuse [] :: s.dev.out }) ∧
    (s.dev.hasStandby = true → Gives .switchOver s fun d => d = { s.dev with out := .twin .yield [] :: s.dev.out }) ∧
    (s.dev.hasStandby = false → Gives .switchOver s fun d => d = s.dev) ∧
    (s.dev.hasStandby = true → s.dev.pw.going = .no → Gives .twinRefuse s fun d =>
      bitOf (d.rd (Com.IRQ_RAW Page.TWIN)) TWIN.irq.YIELD_REFUSED = true ∧
      s.dev.OnlyRegs d [Com.IRQ_RAW Page.TWIN, Com.ERR_CNT Page.TWIN]))

/-- R340 to R347. The model's own choices it rests on in part: log entries 5, 87, 88. -/
def Obligations.RingFormsFoldsAndForwards : Prop :=
  (∀ (s : State) (out : Bool), s.dev.up = true → cageDark s.dev (if out then 20 else 19) = false → dormant s.dev = false →
    (s.dev.inRing = false → Gives (.hopUp out) s fun d =>
      d.rd (if out then STRING.STATUS.OUT_UP else STRING.STATUS.IN_UP) = 1 ∧
      s.dev.OnlyRegs { d with marks := s.dev.marks } [if out then STRING.STATUS.OUT_UP else STRING.STATUS.IN_UP]) ∧
    (s.dev.inRing = true → s.dev.rd STRING.STATUS.RING_STATE = 0 → Gives (.hopUp out) s fun d =>
      d.rd (if out then STRING.STATUS.OUT_UP else STRING.STATUS.IN_UP) = 1 ∧ d.rd STRING.STATUS.RING_STATE = 1 ∧
      d.ringSlot = s.dev.rd STRING.CFG.SLOT ∧ d.ring.mods = [] ∧ d.ring.closed = false ∧
      (∃ a, d.out.head? = some (.string .topo a)) ∧ s.dev.KeepsPages d [Page.STRING])) ∧
  (∀ (s : State) (r : TopoRec), s.dev.up = true → s.dev.inRing = false → Gives (.topo r) s fun d => d = s.dev) ∧
  (∀ (s : State) (r : TopoRec), s.dev.up = true → s.dev.inRing = true → s.dev.rd STRING.STATUS.RING_STATE = 1 →
    (r.mine = true → topoCheck s.dev none = none → reachAll s.dev = true → Gives (.topo r) s fun d =>
      d.rd STRING.STATUS.RING_STATE = 2 ∧
      bitOf (d.rd (Com.IRQ_RAW Page.STRING)) STRING.irq.RING_UP = true ∧ d.ring.closed = true ∧ s.dev.KeepsPages d [Page.STRING]) ∧
    (r.mine = false → r.pos = cablePos s.dev → r.pos < 16 → r.chain = false → Gives (.topo r) s fun d =>
      d.rd STRING.TOPO_ERR.CAUSE = 1 ∧ d.rd STRING.TOPO_ERR.POS = r.pos ∧ d.rd STRING.STATUS.RING_STATE = 1 ∧
      bitOf (d.rd (Com.IRQ_RAW Page.STRING)) STRING.irq.TOPO_ERR = true ∧ d.ring = s.dev.ring ∧
      s.dev.KeepsPages d [Page.STRING]) ∧
    (r.mine = false → r.pos ≠ cablePos s.dev → r.chain = false → s.dev.ring.closed = false → Gives (.topo r) s fun d =>
      d.rd STRING.STATUS.RING_STATE = 1 ∧ (∃ m ∈ d.ring.mods, m.pos = r.pos ∧ m.slot = r.slot ∧ m.side = r.side ∧
        m.state = r.state ∧ (if r.fromOut then m.outHops else m.inHops) = some r.hops) ∧
      (∀ m ∈ s.dev.ring.mods, m.pos ≠ r.pos → m ∈ d.ring.mods) ∧ s.dev.KeepsPages d [Page.STRING])) ∧
  (∀ s : State, s.dev.up = true →
    (s.dev.inRing = true → s.dev.rd STRING.STATUS.RING_STATE = 1 → reachAll s.dev = true → topoCheck s.dev none = none →
      s.dev.past .form (s.dev.rd STRING.CFG.FORM_WAIT * oneMs) = true →
      Gives .formWaitExpiry s fun d => d.rd STRING.STATUS.RING_STATE = 3 ∧ d.out = s.dev.out ∧ s.dev.KeepsPages d [Page.STRING]) ∧
    (s.dev.inRing = false ∨ s.dev.rd STRING.STATUS.RING_STATE ≠ 1 ∨ reachAll s.dev = false ∨
        s.dev.past .form (s.dev.rd STRING.CFG.FORM_WAIT * oneMs) = false →
      Gives .formWaitExpiry s fun d => d = s.dev)) ∧
  (∀ (s : State) (out : Bool), s.dev.up = true →
    (s.dev.inRing = false → Gives (.hopDown out) s fun d =>
      d.rd (if out then STRING.STATUS.OUT_UP else STRING.STATUS.IN_UP) = 0 ∧
      s.dev.OnlyRegs d [if out then STRING.STATUS.OUT_UP else STRING.STATUS.IN_UP]) ∧
    (s.dev.inRing = true → s.dev.rd STRING.STATUS.RING_STATE = 2 → s.dev.rd STRING.CFG.SLOTS ≤ 1 → s.dev.ringSlot = 0 →
      s.dev.isActive = true → Gives (.hopDown out) s fun d => d.rd STRING.STATUS.RING_STATE = 3 ∧
        d.rd (if out then STRING.STATUS.OUT_UP else STRING.STATUS.IN_UP) = 0 ∧ s.dev.Counted d STRING.BREAK_CNT.CNT ∧
        bitOf (d.rd (Com.IRQ_RAW Page.STRING)) STRING.irq.BREAK = true ∧ d.ring.closed = false ∧
        s.dev.KeepsPages d [Page.STRING])) ∧
  (∀ s : State, s.dev.up = true →
    (s.dev.inRing = true → s.dev.on STRING.STATUS.IN_UP = true → s.dev.on STRING.STATUS.OUT_UP = true →
      s.dev.rd STRING.STATUS.RING_STATE = 3 →
      (∀ out, s.dev.past (.hop out) (100 * oneMs) = true ∧ s.dev.began (.measured out) = true) → Gives .hopHeal s fun d => d.rd STRING.STATUS.RING_STATE = 2 ∧
        s.dev.Counted d STRING.HEAL_CNT.CNT ∧ bitOf (d.rd (Com.IRQ_RAW Page.STRING)) STRING.irq.HEAL = true ∧
        d.ring.closed = true ∧ s.dev.KeepsPages d [Page.STRING]) ∧
    (s.dev.inRing = false ∨ s.dev.on STRING.STATUS.IN_UP = false ∨ s.dev.on STRING.STATUS.OUT_UP = false ∨
        (∃ out, s.dev.past (.hop out) (100 * oneMs) = false ∨ s.dev.began (.measured out) = false) →
      Gives .hopHeal s fun d => d = s.dev)) ∧
  (∀ (s : State) (out : Bool) (rtt res : Nat), s.dev.up = true → s.dev.inRing = true →
    Gives (.stringEcho out true rtt res) s (fun d =>
      d.rd (if out then STRING.HOP_OUT_DLY.DLY else STRING.HOP_IN_DLY.DLY) = min ((rtt - res) / 2) 65535 ∧
      s.dev.OnlyRegs { d with marks := s.dev.marks } [if out then STRING.HOP_OUT_DLY.DLY else STRING.HOP_IN_DLY.DLY]) ∧
    Gives (.stringEcho out false rtt res) s fun d => d = { s.dev with out := .string .echoR [(b2n out : Int)] :: s.dev.out }) ∧
  (∀ s : State, s.dev.up = true → s.dev.inRing = true →
    Gives .pairHb s fun d => d = { s.dev with ring := { s.dev.ring with pairHb := some s.dev.now } }) ∧
  (∀ (s : State) (origin corr hops res dly : Nat) (fromOut : Bool), s.dev.up = true → s.dev.inRing = true →
    s.dev.isPuppeteer = false → dly = s.dev.rd (if fromOut then STRING.HOP_OUT_DLY.DLY else STRING.HOP_IN_DLY.DLY) →
    hops ≤ (slotActive s.dev 0).elim hops RingMod.hops → s.dev.isActive = false ∨ s.dev.slot = 0 →
    Gives (.timeMsg origin corr hops fromOut res) s fun d =>
      d.out = .string .time [(origin : Int), ((corr + dly + res : Nat) : Int), ((hops + 1 : Nat) : Int), (b2n fromOut : Int)] ::
        s.dev.out ∧
      d.rd STRING.TIME_OFS.OFS = ofSigned 32 (clampI (-2147483648) 2147483647 ((origin : Int) + corr + dly - s.dev.now)) ∧
      s.dev.OnlyRegsOut d [STRING.TIME_OFS.OFS]) ∧
  (∀ (s : State) (m : RingMod) (sideB : Bool), s.dev.up = true → s.dev.inRing = true → s.dev.rd STRING.STATUS.RING_STATE = 1 →
    s.dev.ring.mods = [m] → Gives (.newActive m.slot sideB) s fun d =>
      d.ring.mods = [{ m with state := if (m.side = 1) = (sideB = true) then 3 else 5 }] ∧ s.dev.KeepsPages d [Page.STRING]) ∧
  (∀ (s : State) (up : Bool), s.dev.up = true → s.dev.inRing = true →
    (s.dev.ring.wait = [] → Gives (.stringForward up []) s fun d => d = s.dev) ∧
    (∀ m : StrMsg, s.dev.ring.wait = [m] → m.up = up → Gives (.stringForward up []) s fun d => d.ring.wait = [] ∧
      d.out = .string .forwarded ([(m.type : Int), (b2n m.up : Int), (b2n m.pair : Int), (b2n m.all : Int), (m.dst : Int),
        (m.src : Int), (m.mseq : Int)] ++ m.body) :: s.dev.out ∧ d.regs = s.dev.regs) ∧
    (∀ m : StrMsg, s.dev.ring.wait = [] → m.src = cablePos s.dev → Gives (.stringForward up [m]) s fun d => d = s.dev) ∧
    (∀ m : StrMsg, s.dev.ring.wait = [] → s.dev.ring.seen.find? (fun e => e.1 == m.src) = some (m.src, m.mseq) → m.mseq < 65536 →
      Gives (.stringForward up [m]) s fun d => d = s.dev) ∧
    (∀ m : StrMsg, s.dev.ring.wait = [] → m.src ≠ cablePos s.dev → s.dev.ring.seen = [] → m.all = false → m.dst ≠ s.dev.ringSlot →
      s.dev.on (if m.up then STRING.STATUS.OUT_UP else STRING.STATUS.IN_UP) = false → Gives (.stringForward up [m]) s fun d =>
        s.dev.Counted d STRING.FWD_DROP_CNT.CNT ∧ d.ring.seen = [(m.src, m.mseq)] ∧ d.ring.wait = [] ∧
        s.dev.KeepsRegs d [STRING.FWD_DROP_CNT.CNT])) ∧
  ∀ (s : State) (out answer fromOut up sideB : Bool) (n1 n2 n3 n4 : Nat) (ms : List StrMsg), s.dev.up = true →
    s.dev.inRing = false →
    ∀ c ∈ [Instr.stringEcho out answer n1 n2, .pairHb, .timeMsg n1 n2 n3 fromOut n4, .newActive n1 sideB, .stringForward up ms],
      Gives c s fun d => d = s.dev

/-! ## Parameter store and profiles (spec/16_store_and_profiles.md) -/

/-- R357. A store whose list is empty closes at once (the model's reading, log entry 89), so the lists here have a page. -/
def Obligations.StoreStartsOrWaits : Prop :=
  (∀ (s : State) (pages : List Nat), s.dev.up = true → s.dev.on NVS.STATUS.FROZEN = false → s.dev.nvs.run = none →
    pages = (if s.dev.on NVS.CTL.FULL then List.range 1024 else dirtyPages s.dev) → pages ≠ [] →
    Completes .store s fun t => (∃ r, t.dev.nvs.run = some r ∧ r.kind = 1 ∧ r.seq = seqNext s.dev ∧
        r.both = s.dev.on NVS.CTL.BOTH ∧ r.queue = pages ∧ r.held = [] ∧
        r.npages = (if s.dev.on NVS.CTL.BOTH then 2 * pages.length else pages.length)) ∧
      t.dev.rd NVS.STATUS.BUSY = 1 ∧ t.dev.rd NVS.STATUS.KIND = 1 ∧ seqNext t.dev = (seqNext s.dev + 1) % 2 ^ 48 ∧
      (∀ p, p ∈ t.dev.nvs.dirty ↔ p ∈ s.dev.nvs.dirty ∧ p ∉ pages) ∧ s.dev.KeepsPages t.dev [Page.NVS] ∧
      (∀ a, a < 0x09040000 ∨ 0x09040800 ≤ a → t.mem.byte a = s.mem.byte a)) ∧
  (∀ (s : State) (r : StoreRun), s.dev.up = true → s.dev.on NVS.STATUS.FROZEN = false → s.dev.nvs.run = some r →
    (s.dev.nvs.pend = none → Gives .store s fun d => d.rd NVS.STATUS.PENDING = 1 ∧ s.dev.KeepsRegs d [NVS.STATUS.PENDING] ∧
      d.nvs = { s.dev.nvs with pend := some (s.dev.on NVS.CTL.FULL, s.dev.on NVS.CTL.BOTH) }) ∧
    (s.dev.nvs.pend ≠ none → Gives .store s fun d => d = s.dev)) ∧
  ∀ (s : State) (r : StoreRun) (p : Nat) (full both : Bool) (pages : List Nat), s.dev.up = true → s.dev.nvs.run = some r →
    r.second = none → r.queue = [p] → r.both = false → r.held = [] → s.mem.lostIn (pageAddr p) 256 = false →
    s.dev.nvs.pend = some (full, both) → s.dev.nvs.windup = false → s.dev.pw.going = .no → s.dev.on NVS.STATUS.WEAR_WARN = true →
    pages = (if full then List.range 1024 else dirtyPages s.dev) → pages ≠ [] →
    Completes .storePageWritten s fun t => t.dev.rd NVS.STATUS.PENDING = 0 ∧ t.dev.nvs.pend = none ∧
      ∃ q, t.dev.nvs.run = some q ∧ q.kind = 1 ∧ q.both = both ∧ q.queue = pages ∧ q.seq = seqNext s.dev

/-- R350 to R356, R358, R363, R365, R366. The model's own choices it rests on in part: log entries 17, 18. -/
def Obligations.PagesAreStoredScannedAndReloaded : Prop :=
  (∀ s : State, s.dev.up = true → s.dev.pw.going = .no → s.dev.nvs.run = none → Gives .storePageWritten s fun d => d = s.dev) ∧
  (∀ (s : State) (r : StoreRun) (p q c wcnt : Nat) (rest : List Nat), s.dev.up = true → s.dev.pw.going = .no →
    s.dev.nvs.run = some r → r.second = none → r.queue = p :: q :: rest → r.both = false → r.held = [] →
    s.mem.lostIn (pageAddr p) 256 = false → c = (if p ∈ s.dev.nvs.winB then 0 else 1) →
    wcnt = min 0xFFFFFFFF (copyWcnt s.mem c p + 1) → wcnt < s.dev.rd NVS.WEAR_WARN_AT.WCNT ∨ s.dev.on NVS.STATUS.WEAR_WARN = true →
    Completes .storePageWritten s fun t =>
      s.mem.Stored t.mem (copyAddr c p) (storedPage (s.mem.take (pageAddr p) 256) r.seq c p wcnt) ∧
      t.dev.nvs.run = some { r with queue := q :: rest } ∧ (p ∈ t.dev.nvs.winB ↔ c = 1) ∧
      (∀ k, k ≠ p → (k ∈ t.dev.nvs.winB ↔ k ∈ s.dev.nvs.winB)) ∧
      t.dev.rd NVS.WEAR_MAX.WCNT = max wcnt (s.dev.rd NVS.WEAR_MAX.WCNT) ∧
      s.dev.KeepsRegs t.dev [NVS.WEAR_MAX.WCNT, NVS.WEAR_PAGE.PAGE, NVS.WEAR_PAGE.COPY]) ∧
  (∀ (s : State) (r : StoreRun) (p c k : Nat), s.dev.up = true → s.dev.pw.going = .no → s.dev.nvs.run = some r →
    r.second = none → r.queue = [p] → r.both = false → r.held = [] → s.mem.lostIn (pageAddr p) 256 = false → r.kind = 1 →
    s.dev.nvs.pend = none → s.dev.nvs.windup = false → c = (if p ∈ s.dev.nvs.winB then 0 else 1) →
    k = s.dev.nvs.jNewest.elim 0 (fun i => (i + 1) % 64) → s.dev.on NVS.STATUS.WEAR_WARN = true →
    Completes .storePageWritten s fun t => t.dev.nvs.run = none ∧ t.dev.nvs.jNewest = some k ∧
      t.mem = (s.mem.store (copyAddr c p) (storedPage (s.mem.take (pageAddr p) 256) r.seq c p
        (min 0xFFFFFFFF (copyWcnt s.mem c p + 1)))).store (jAddr k) (jEntry 0x43 1 r.npages r.seq (r.t0 / 16) r.wln) ∧
      t.dev.rd NVS.STATUS.BUSY = 0 ∧ t.dev.rd NVS.STATUS.KIND = 0 ∧ s.dev.Counted t.dev NVS.STORE_CNT.CNT ∧
      t.dev.rd NVS.LAST_STORE.NPAGES = r.npages % 4096 ∧ t.dev.rd NVS.LAST_STORE.KIND = 1 ∧
      bitOf (t.dev.rd (Com.IRQ_RAW Page.NVS)) NVS.irq.STORE_DONE = true ∧ s.dev.KeepsPages t.dev [Page.NVS]) ∧
  (∀ (s : State) (r : StoreRun) (p : Nat) (rest : List Nat), s.dev.up = true → s.dev.pw.going = .no → s.dev.nvs.run = some r →
    r.second = none → r.queue = p :: rest → s.mem.lostIn (pageAddr p) 256 = true →
    Gives .storePageWritten s fun d => d = s.dev) ∧
  (∀ (s : State) (addr : Nat) (w : Word32), s.dev.up = true → waBase ≤ addr → addr < waBase + 0x40000 →
    (waReserved ((addr - waBase) / 256) = true ∨ s.dev.on NVS.STATUS.FROZEN = true → Gives (.workingArrayWrite addr w) s fun d =>
      bitOf (d.rd (Com.IRQ_RAW Page.NVS)) NVS.irq.WR_PROT = true ∧
      s.dev.OnlyRegs d [Com.IRQ_RAW Page.NVS, Com.ERR_CNT Page.NVS]) ∧
    (waReserved ((addr - waBase) / 256) = false → s.dev.on NVS.STATUS.FROZEN = false →
      (∀ r : StoreRun, s.dev.nvs.run = some r → (addr - waBase) / 256 ∉ r.queue ∧
        ∀ q, r.second = some q → q.1 ≠ (addr - waBase) / 256) → Completes (.workingArrayWrite addr w) s fun t =>
        s.mem.Stored t.mem (addr / 4 * 4) (leBytes 4 w.toNat) ∧ (addr - waBase) / 256 ∈ t.dev.nvs.dirty ∧
        (∀ p ∈ s.dev.nvs.dirty, p ∈ t.dev.nvs.dirty) ∧ t.dev.out = s.dev.out ∧ s.dev.KeepsRegs t.dev [NVS.DIRTY.N]) ∧
    (∀ r : StoreRun, waReserved ((addr - waBase) / 256) = false → s.dev.on NVS.STATUS.FROZEN = false → s.dev.nvs.run = some r →
      (addr - waBase) / 256 ∈ r.queue → Gives (.workingArrayWrite addr w) s fun d => s.dev.Counted d NVS.WR_WAIT_CNT.CNT ∧
        (∃ q, d.nvs.run = some q ∧ q.queue.head? = some ((addr - waBase) / 256) ∧
          q.held = r.held ++ [(addr / 4 * 4, leBytes 4 w.toNat)]) ∧ s.dev.KeepsRegs d [NVS.WR_WAIT_CNT.CNT])) ∧
  (∀ (s : State) (page : Fin 1024), s.dev.up = true → page.val < 896 ∨ 960 ≤ page.val → s.dev.nvs.evNext < 1024 →
    Completes (.waUeReload page) s fun t =>
      (∀ k < 256, t.mem.byte (pageAddr page + k) = s.mem.byte (copyAddr (if page.val ∈ s.dev.nvs.winB then 1 else 0) page + k)) ∧
      (page.val ∉ t.dev.nvs.dirty) ∧ bitOf (t.dev.rd (Com.IRQ_RAW Page.NVS)) NVS.irq.WA_UE = true ∧
      s.dev.KeepsPages t.dev [Page.NVS] ∧ t.mem.flash = s.mem.flash) ∧
  (∀ c ∈ [Instr.scanPassStart, .scanNow], ∀ s : State, s.dev.up = true →
    (s.dev.on NVS.STATUS.SCAN = true ∨
        c = .scanPassStart ∧ s.dev.past .scan (s.dev.rd NVS.SCAN_CFG.HOURS * 3600 * oneS) = false → Gives c s fun d => d = s.dev) ∧
    (s.dev.on NVS.STATUS.SCAN = false → c = .scanNow ∨ s.dev.past .scan (s.dev.rd NVS.SCAN_CFG.HOURS * 3600 * oneS) = true → Gives c s fun d => d.rd NVS.STATUS.SCAN = 1 ∧ d.rd NVS.SCAN_POS.PAGE = 0 ∧
      d.rd NVS.SCAN_POS.COPY = 0 ∧ d.nvs.weakA = 0 ∧ d.nvs.weakB = 0 ∧
      s.dev.KeepsRegs d [NVS.STATUS.SCAN, NVS.SCAN_POS.PAGE, NVS.SCAN_POS.COPY])) ∧
  (∀ (s : State) (weak : Nat), s.dev.up = true →
    s.dev.on NVS.STATUS.SCAN = false ∨ s.dev.nvs.run ≠ none ∨ s.dev.on NVS.STATUS.FROZEN = true →
    Gives (.scanPage weak) s fun d => d = s.dev) ∧
  (∀ (s : State) (p : Nat), s.dev.up = true → s.dev.on NVS.STATUS.SCAN = true → s.dev.nvs.run = none →
    s.dev.on NVS.STATUS.FROZEN = false → s.dev.rd NVS.SCAN_POS.PAGE = p → p < 1023 →
    (Gives (.scanPage 0) s fun d => d.rd NVS.SCAN_POS.PAGE = p + 1 ∧ d.rd NVS.SCAN_POS.COPY = s.dev.rd NVS.SCAN_POS.COPY ∧
      d.nvs = s.dev.nvs ∧ d.rd NVS.WEAK_CNT.CNT = min (s.dev.rd NVS.WEAK_CNT.CNT) (2 ^ 32 - 1) ∧
      s.dev.KeepsRegs d [NVS.SCAN_POS.PAGE, NVS.WEAK_CNT.CNT]) ∧
    (∀ weak, 0 < weak → Completes (.scanPage weak) s fun t => t.dev.rd NVS.SCAN_POS.PAGE = p + 1 ∧
      t.dev.rd NVS.WEAK_CNT.CNT = min (s.dev.rd NVS.WEAK_CNT.CNT + weak) (2 ^ 32 - 1) ∧
      bitOf (t.dev.rd (Com.IRQ_RAW Page.NVS)) NVS.irq.WEAK = true ∧
      (∃ r, t.dev.nvs.run = some r ∧ r.kind = 3 ∧ r.queue = [p] ∧ r.both = false ∧ r.seq = seqNext s.dev) ∧
      s.dev.KeepsPages t.dev [Page.NVS])) ∧
  ∀ s : State, s.dev.up = true → s.dev.on NVS.STATUS.FROZEN = false → s.dev.nvs.run = none → s.dev.pw.seconds < 3599 →
    Completes .persistentCounterRefresh s fun t => t.dev.pw = { s.dev.pw with seconds := s.dev.pw.seconds + 1 } ∧
      (∀ q ∈ persistFields.zipIdx, t.mem.u32 (pageAddr 832 + 4 * q.2) = s.dev.rd q.1 % 2 ^ 32) ∧
      (∀ k < 4, 832 + k ∈ t.dev.nvs.dirty) ∧ (∀ a, a < pageAddr 832 ∨ pageAddr 836 ≤ a → t.mem.byte a = s.mem.byte a) ∧
      s.dev.KeepsRegs t.dev [NVS.DIRTY.N]

/-- R367 to R374. The model's own choices it rests on in part: log entries 5, 93, 95, 96. -/
def Obligations.ProfilesLoadAndFlashWorks : Prop :=
  (∀ (s : State) (k : Nat), s.dev.up = true → s.dev.rd PROF.STATUS.STATE ≠ 1 →
    k = (if s.dev.on PROF.CTL.USE_PINS then s.dev.rd PROF.STATUS.PINS else s.dev.rd PROF.CTL.SEL) →
    (headerOk s.mem k = true → headerCrcOk s.mem k = true → Gives .profileLoad s fun d => d.rd PROF.STATUS.STATE = 1 ∧
      d.rd PROF.STATUS.ERR = 0 ∧ d.rd PROF.STATUS.SKIPPED = 0 ∧ d.prof = { s.dev.prof with
        k := k, next := 0, start := false, verifying := false, filled := [] } ∧ s.dev.KeepsRegs d [PROF.STATUS.STATE, PROF.STATUS.ERR, PROF.STATUS.SKIPPED,
        PROF.ERR_DETAIL.INDEX]) ∧
    (headerOk s.mem k = false → Gives .profileLoad s fun d => d.rd PROF.STATUS.STATE = 3 ∧ d.rd PROF.STATUS.ERR = 1 ∧
      bitOf (d.rd (Com.IRQ_RAW Page.PROF)) PROF.irq.LOAD_FAIL = true ∧ s.dev.KeepsPages d [Page.PROF]) ∧
    (headerOk s.mem k = true → headerCrcOk s.mem k = false → Gives .profileLoad s fun d => d.rd PROF.STATUS.STATE = 3 ∧
      d.rd PROF.STATUS.ERR = 2 ∧ s.dev.KeepsPages d [Page.PROF])) ∧
  (∀ s : State, s.dev.up = true → s.dev.rd PROF.STATUS.STATE = 1 → Gives .profileLoad s fun d => d = s.dev) ∧
  (∀ s : State, s.dev.up = true → s.dev.rd PROF.STATUS.STATE ≠ 1 → Gives .profileRefCopied s (fun d => d = s.dev) ∧
    Gives .bankBusyTimeout s (fun d => d = s.dev) ∧ Gives .profileImageApply s fun d => d = s.dev) ∧
  (∀ (s : State) (q : TblRef), s.dev.up = true → s.dev.pw.booting = false → curRef s.mem s.dev = some q → q.kind ≠ 2 →
    refOk s.mem q = true →
    (s.dev.on (bankBusyOf q.kind q.unit) = false → crc32 (s.mem.ftake q.ofs q.len) = q.crc →
      Completes .profileRefCopied s fun t =>
        t.mem = s.mem.merge (bankAt q.kind q.unit (1 - s.dev.rd (bankSel q.kind q.unit))) (s.mem.ftake q.ofs q.len) ∧
        t.dev = { s.dev with marks := t.dev.marks, prof := { s.dev.prof with
          next := s.dev.prof.next + 1
          filled := s.dev.prof.filled ++ [(q.kind, q.unit, 1 - s.dev.rd (bankSel q.kind q.unit))] } }) ∧
    (s.dev.on (bankBusyOf q.kind q.unit) = false → crc32 (s.mem.ftake q.ofs q.len) ≠ q.crc →
      Completes .profileRefCopied s fun t => t.dev.rd PROF.STATUS.STATE = 3 ∧ t.dev.rd PROF.STATUS.ERR = 4 ∧
        t.mem = s.mem.merge (bankAt q.kind q.unit (1 - s.dev.rd (bankSel q.kind q.unit))) (s.mem.ftake q.ofs q.len) ∧
        t.dev.rd PROF.ERR_DETAIL.INDEX = min s.dev.prof.next 65535 ∧ s.dev.KeepsPages t.dev [Page.PROF]) ∧
    (s.dev.on (bankBusyOf q.kind q.unit) = true → Gives .profileRefCopied s fun d => d = s.dev) ∧
    (s.dev.past .bank (100 * oneMs) = false → Gives .bankBusyTimeout s fun d => d = s.dev) ∧
    (s.dev.on (bankBusyOf q.kind q.unit) = true → s.dev.past .bank (100 * oneMs) = true →
      Gives .bankBusyTimeout s fun d => d.rd PROF.STATUS.STATE = 3 ∧ d.rd PROF.STATUS.ERR = 5 ∧
        bitOf (d.rd (Com.IRQ_RAW Page.PROF)) PROF.irq.LOAD_FAIL = true ∧ s.dev.KeepsPages d [Page.PROF])) ∧
  (∀ (s : State) (q : TblRef) (bank : Nat), s.dev.up = true → s.dev.pw.booting = false → curRef s.mem s.dev = some q → q.kind = 2 →
    bank = 1 - s.dev.rd (THERM.CTL.BANK q.unit) →
    (s.dev.on MEM.STATUS.DEGRADED = true → Gives .profileRefCopied s fun d => d.rd PROF.STATUS.SKIPPED = 1 ∧
      d.prof = { s.dev.prof with next := s.dev.prof.next + 1 } ∧ s.dev.KeepsRegs d [PROF.STATUS.SKIPPED]) ∧
    (s.dev.on MEM.STATUS.DEGRADED = false → refOk s.mem q = true → s.dev.on (THERM.TBL_STAT.BANK_BUSY q.unit) = false →
      s.dev.on (THERM.TBL_STAT.VBUSY q.unit) = false →
      Completes .profileRefCopied s fun t =>
        t.mem = s.mem.merge (nucBase q.unit bank) (s.mem.ftake q.ofs q.len) ∧
        if crc32 (s.mem.ftake q.ofs q.len) = q.crc then
          t.dev.rd (THERM.TBL_STAT.VBUSY q.unit) = 1 ∧ t.dev.prof.verifying = true ∧ t.dev.prof.next = s.dev.prof.next ∧
          s.dev.KeepsRegs t.dev [THERM.TBL_STAT.VBUSY q.unit, verifiedFld q.unit bank]
        else t.dev.rd PROF.STATUS.STATE = 3 ∧ t.dev.rd PROF.STATUS.ERR = 4 ∧ s.dev.KeepsPages t.dev [Page.PROF])) ∧
  (∀ (s : State) (i : Nat), s.dev.up = true → s.dev.pw.booting = false → s.dev.rd PROF.STATUS.STATE = 1 →
    s.dev.prof.verifying = false → profRefs s.mem s.dev.prof.k ≤ s.dev.prof.next →
    imageParse (wordsAt s.mem (profBase s.dev.prof.k + 768) (profImgLen s.mem s.dev.prof.k))
      ((wordsAt s.mem (profBase s.dev.prof.k + 768) (profImgLen s.mem s.dev.prof.k)).length + 1) 0 [] = .error i →
    Gives .profileImageApply s fun d => d.rd PROF.STATUS.STATE = 3 ∧ d.rd PROF.STATUS.ERR = 3 ∧
      d.rd PROF.ERR_DETAIL.INDEX = min i 65535 ∧ s.dev.KeepsPages d [Page.PROF]) ∧
  (∀ (s : State) (ws : List (Nat × Nat)) (y : DM), s.dev.up = true → s.dev.pw.booting = false → s.dev.rd PROF.STATUS.STATE = 1 →
    s.dev.prof.verifying = false → profRefs s.mem s.dev.prof.k ≤ s.dev.prof.next → s.dev.prof.filled = [] →
    imageParse (wordsAt s.mem (profBase s.dev.prof.k + 768) (profImgLen s.mem s.dev.prof.k))
      ((wordsAt s.mem (profBase s.dev.prof.k + 768) (profImgLen s.mem s.dev.prof.k)).length + 1) 0 [] = .ok ws →
    y = imageWrite ws (s.dev, s.mem) → beforeEpochs y.1 = false → y.1.on PROF.CTL.ARM = false → y.1.prof = s.dev.prof →
    y.1.pw.booting = false →
    Completes .profileImageApply s fun t => t.mem = y.2 ∧ t.dev.rd PROF.STATUS.STATE = 2 ∧
      t.dev.rd PROF.STATUS.LOADED = s.dev.prof.k % 8 ∧ t.dev.rd PROF.STATUS.LOADED_VALID = 1 ∧
      t.dev.rd PROF.LOADED_CRC.CRC = profCrc y.2 s.dev.prof.k % 2 ^ 32 ∧
      bitOf (t.dev.rd (Com.IRQ_RAW Page.PROF)) PROF.irq.LOAD_DONE = true ∧ y.1.KeepsPages t.dev [Page.PROF]) ∧
  (∀ q ∈ [(Instr.flashProg, 1), (Instr.flashErase, 2), (Instr.flashRead, 3)], ∀ (s : State) (src dst len : Nat), s.dev.up = true →
    src = s.dev.rd2 PROF.FL_SRC_LO.ADDR PROF.FL_SRC_HI.ADDR → dst = s.dev.rd PROF.FL_DST.OFS → len = s.dev.rd PROF.FL_LEN.BYTES →
    (s.dev.on PROF.FL_STAT.BUSY = true → Gives q.1 s fun d => d = s.dev) ∧
    (s.dev.on PROF.FL_STAT.BUSY = false → flashCause (s.dev, s.mem) q.2 src dst len = none → Gives q.1 s fun d =>
      d.rd PROF.FL_STAT.BUSY = 1 ∧ d.prof = { s.dev.prof with flash := q.2, flSrc := src, flDst := dst, flLen := len } ∧
      s.dev.KeepsRegs d [PROF.FL_STAT.BUSY]) ∧
    (∀ c < 16, s.dev.on PROF.FL_STAT.BUSY = false → flashCause (s.dev, s.mem) q.2 src dst len = some c → Gives q.1 s fun d =>
      d.rd PROF.FL_STAT.ERR = 1 ∧ d.rd PROF.FL_STAT.CAUSE = c ∧ bitOf (d.rd (Com.IRQ_RAW Page.PROF)) PROF.irq.FL_ERR = true ∧
      s.dev.OnlyRegs d [PROF.FL_STAT.ERR, PROF.FL_STAT.CAUSE, Com.IRQ_RAW Page.PROF, Com.ERR_CNT Page.PROF])) ∧
  (∀ (s : State) (bad : Bool), s.dev.up = true → s.dev.on PROF.FL_STAT.BUSY = false →
    Gives (.flashOpDone bad) s fun d => d = s.dev) ∧
  (∀ (s : State) (bad : Bool), s.dev.up = true → s.dev.on PROF.FL_STAT.BUSY = true →
    (s.dev.prof.flash = 2 → Completes (.flashOpDone bad) s fun t => t.dev.rd PROF.FL_STAT.BUSY = 0 ∧ t.dev.rd PROF.FL_STAT.DONE = 1 ∧
      bitOf (t.dev.rd (Com.IRQ_RAW Page.PROF)) PROF.irq.FL_DONE = true ∧ (∀ a, t.mem.byte a = s.mem.byte a) ∧
      (∀ a, t.mem.fbyte a = if s.dev.prof.flDst ≤ a ∧ a < s.dev.prof.flDst + 65536 then 0xFF else s.mem.fbyte a) ∧
      s.dev.KeepsPages t.dev [Page.PROF]) ∧
    (s.dev.prof.flash = 1 → 0x413000000 ≤ s.dev.prof.flSrc → s.Sound → Completes (.flashOpDone bad) s fun t =>
      t.dev.rd PROF.FL_STAT.BUSY = 0 ∧
      (if bad then t.dev.rd PROF.FL_STAT.ERR = 1 ∧ t.dev.rd PROF.FL_STAT.CAUSE = 3 else t.dev.rd PROF.FL_STAT.DONE = 1) ∧
      (∀ a, t.mem.byte a = s.mem.byte a) ∧ (∀ a, t.mem.fbyte a = if s.dev.prof.flDst ≤ a ∧ a < s.dev.prof.flDst + s.dev.prof.flLen
        then s.mem.byte (s.dev.prof.flSrc + (a - s.dev.prof.flDst)) else s.mem.fbyte a) ∧ s.dev.KeepsPages t.dev [Page.PROF]) ∧
    (s.dev.prof.flash = 3 → 0x413000000 ≤ s.dev.prof.flSrc → s.Sound → Completes (.flashOpDone bad) s fun t =>
      t.dev.rd PROF.FL_STAT.BUSY = 0 ∧ t.dev.rd PROF.FL_STAT.DONE = 1 ∧
      s.mem.Stored t.mem s.dev.prof.flSrc (s.mem.ftake s.dev.prof.flDst s.dev.prof.flLen) ∧ s.dev.KeepsPages t.dev [Page.PROF]))

/-! ## Precision converters (spec/17_precision_converters.md) -/

/-- R378, R379, R381 to R383, R387, R390. The converter idles after the conversion (RUN = 0, nothing pending) in the clauses on a result,
so that only the result is seen. That the near temperatures of RTD and TC within their tolerance are free is log entry 3's; the tables
of the thermocouple functions are log entry 19's. The model's own choices it rests on in part: log entries 3, 19, 21. -/
def Obligations.ConversionsGiveTheirResults : Prop :=
  (∀ (s : State) (n : Fin 2) (x : Int) (ov : Bool), s.dev.up = true →
    s.dev.padc[n].run = none ∨ (∃ c, s.dev.padc[n].run = some c ∧ s.dev.now < c.since + c.time) →
    Gives (.conversionEnd n x ov) s fun d => d = s.dev) ∧
  (∀ (s : State) (n : Fin 2) (x raw c1 c2 v res : Int) (ov : Bool) (c : Conv), s.dev.up = true → s.dev.padc[n].run = some c →
    c.since + c.time ≤ s.dev.now → c.kind = .seq → c.entry < 16 → c.muxp ≠ 21 → c.intTemp = false →
    s.dev.on (PADC.SEQ_CTL.RUN n) = false → s.dev.on (PADC.INJ_STAT.PENDING n) = false → s.dev.padc[n].cal = none →
    s.dev.padc[n].calWait = none → raw = clampI (-8388607) 8388607 x → c1 = sar ((raw - c.ofs) * c.gainc + 2 ^ 23) 24 →
    c2 = sar (sat24 c1 * s.dev.rd (PADC.REF_CORR.RC n) + 2 ^ 23) 24 → v = sat24 c2 * 15625 / (64 * c.gain) →
    (c.muxp = 24 ∧ res = v ∨ c.muxp = 26 ∧ res = 4 * v ∨ 28 ≤ c.muxp ∧ res = 16 * v ∨
      c.muxp ≠ 24 ∧ c.muxp ≠ 26 ∧ c.muxp < 28 ∧ (c.kindNo = 0 ∧ res = sat24 c2 ∨ (c.kindNo = 1 ∨ 5 ≤ c.kindNo) ∧ res = v ∨
        c.kindNo = 2 ∧ res = c.lofs + sar (v * c.slope + 2 ^ 23) 24)) →
    Gives (.conversionEnd n x ov) s fun d =>
      d.rdS (PADC.RES.VAL n c.entry) = clampI (-2147483648) 2147483647 res ∧ d.rd (PADC.RES_STAT.VALID n c.entry) = 1 ∧
      (d.rd (PADC.RES_STAT.OVR n c.entry) = 1 ↔ ov = true ∨ raw ≠ x ∨ sat24 c1 ≠ c1 ∨ sat24 c2 ≠ c2) ∧
      (d.rd (PADC.RES_STAT.RANGE n c.entry) = 1 ↔ res < -2147483648 ∨ 2147483647 < res) ∧
      (d.rd (PADC.RES_STAT.SUSPECT n c.entry) = 1 ↔ s.dev.on (PADC.STATUS.SUSPECT n) = true) ∧
      d.rd (PADC.RES_STAT.CJ_STALE n c.entry) = 0 ∧ d.rd (PADC.RES_STAT.EXC_CHG n c.entry) = b2n c.excChg ∧
      d.rd (PADC.RES_STAT.PASS n c.entry) = c.pass % 65536 ∧ d.rd (PADC.RES_T.T n c.entry) = s.dev.nowNs % 2 ^ 32 ∧
      d.rd (PADC.STATUS.RUNNING n) = 0 ∧ s.dev.Counted d (PADC.CONV_CNT.CNT n) ∧
      (d.rd (PADC.RES_STAT.OVR n c.entry) = 1 → s.dev.Counted d (PADC.OVR_CNT.CNT n) ∧
        bitOf (d.rd (Com.IRQ_RAW (Page.PADC n))) PADC.irq.OVR = true) ∧
      (d.rd (PADC.RES_STAT.OVR n c.entry) = 0 → d.rd (PADC.OVR_CNT.CNT n) = s.dev.rd (PADC.OVR_CNT.CNT n) ∧
        d.rd (Com.IRQ_RAW (Page.PADC n)) = s.dev.rd (Com.IRQ_RAW (Page.PADC n)) ∧
        d.rd (Com.ERR_CNT (Page.PADC n)) = s.dev.rd (Com.ERR_CNT (Page.PADC n))) ∧
      (∀ k : Fin 2, k ≠ n → d.padc[k] = s.dev.padc[k]) ∧ d.padc[n].run = none ∧ d.out = (excite s.dev n c false).out ∧
      s.dev.KeepsRegs d [PADC.RES.VAL n c.entry, PADC.RES_STAT.VALID n c.entry, PADC.RES_STAT.OVR n c.entry,
        PADC.RES_STAT.SUSPECT n c.entry, PADC.RES_STAT.CJ_STALE n c.entry, PADC.RES_STAT.EXC_CHG n c.entry,
        PADC.RES_STAT.RANGE n c.entry, PADC.RES_STAT.PASS n c.entry, PADC.RES_T.T n c.entry, PADC.STATUS.RUNNING n,
        PADC.CONV_CNT.CNT n, PADC.OVR_CNT.CNT n, Com.IRQ_RAW (Page.PADC n), Com.ERR_CNT (Page.PADC n)]) ∧
  (∀ (s : State) (n : Fin 2) (x : Int) (ov : Bool) (c : Conv), s.dev.up = true → s.dev.padc[n].run = some c → c.kind = .seq →
    c.since + c.time ≤ s.dev.now → c.entry < 16 → c.muxp < 21 → c.intTemp = false → s.dev.on (PADC.SEQ_CTL.RUN n) = false →
    s.dev.on (PADC.INJ_STAT.PENDING n) = false → s.dev.padc[n].cal = none → s.dev.padc[n].calWait = none →
    (c.kindNo = 3 → Gives (.conversionEnd n x ov) s fun d => -200 * 65536 ≤ d.rdS (PADC.RES.VAL n c.entry) ∧
      d.rdS (PADC.RES.VAL n c.entry) ≤ 850 * 65536 ∧ d.rd (PADC.RES_STAT.VALID n c.entry) = 1 ∧ s.dev.KeepsPages d [Page.PADC n]) ∧
    (c.kindNo = 4 → Gives (.conversionEnd n x ov) s fun d => d.rd (PADC.RES_STAT.VALID n c.entry) = 1 ∧
      (d.rd (PADC.RES_STAT.CJ_STALE n c.entry) = 1 ↔
        16000000000 < s.dev.now - (padcResult s.dev (bitsOf c.cfg1 16 1) (bitsOf c.cfg1 12 4)).2) ∧
      s.dev.KeepsPages d [Page.PADC n])) ∧
  (∀ (s : State) (n o : Fin 2) (x c1 c2 v w : Int) (t need miss : Nat) (ov : Bool) (c : Conv), s.dev.up = true → o ≠ n →
    s.dev.padc[n].run = some c → c.since + c.time ≤ s.dev.now → c.kind = .seq → c.entry < 16 → c.muxp = 21 → c.kindNo = 1 → c.intTemp = false →
    s.dev.on (PADC.SEQ_CTL.RUN n) = false → s.dev.on (PADC.INJ_STAT.PENDING n) = false → s.dev.padc[n].cal = none →
    s.dev.padc[n].calWait = none → c1 = sar ((clampI (-8388607) 8388607 x - c.ofs) * c.gainc + 2 ^ 23) 24 →
    c2 = sar (sat24 c1 * s.dev.rd (PADC.REF_CORR.RC n) + 2 ^ 23) 24 → v = sat24 c2 * 15625 / (64 * c.gain) →
    s.dev.padc[o].chk = some (w, t) → s.dev.now - t ≤ 16000000 * s.dev.rd (PADC.CHK_CFG.AGE 0) →
    need = max 1 (s.dev.rd (PADC.CHK_CFG.N 0)) → miss = s.dev.padc[(0 : Fin 2)].miss + 1 →
    Gives (.conversionEnd n x ov) s fun d => d.rdS (PADC.RES.VAL n c.entry) = v ∧ d.padc[n].chk = some (v, s.dev.now) ∧
      (s.dev.rd (PADC.CHK_TOL.NV 0) < (v - w).natAbs → s.dev.Counted d (PADC.CHK_MISS_CNT.CNT n) ∧
        d.padc[(0 : Fin 2)].miss = miss ∧ (need ≤ miss → d.rd (PADC.CHK_STAT.FAIL 0) = 1 ∧
          (miss = need → bitOf (d.rd (Com.IRQ_RAW (Page.PADC 0))) PADC.irq.CHK_FAIL = true) ∧
          ∀ k : Fin 2, d.rd (PADC.STATUS.SUSPECT k) =
            b2n (refOutside s.dev k || !refOutside s.dev (if k = 0 then 1 else 0)))) ∧
      ((v - w).natAbs ≤ s.dev.rd (PADC.CHK_TOL.NV 0) → d.padc[(0 : Fin 2)].miss = 0 ∧
        d.padc[(0 : Fin 2)].agree = s.dev.padc[(0 : Fin 2)].agree + 1 ∧
        (need ≤ s.dev.padc[(0 : Fin 2)].agree + 1 → ∀ k : Fin 2, d.rd (PADC.STATUS.SUSPECT k) = 0)) ∧
      s.dev.KeepsPages d [Page.PADC 0, Page.PADC 1]) ∧
  (∀ (s : State) (n : Fin 2) (on : Bool) (c : Conv), s.dev.up = true → s.dev.padc[n].run = some c →
    Gives (.seqRun n on) s fun d => d.rd (PADC.SEQ_CTL.RUN n) = b2n on ∧ s.dev.OnlyRegs d [PADC.SEQ_CTL.RUN n]) ∧
  ∀ (s : State) (n : Fin 2) (e : Nat), s.dev.up = true → s.dev.padc[n].run = none → s.dev.on (PADC.INJ_STAT.PENDING n) = false →
    s.dev.padc[n].cal = none → s.dev.padc[n].calWait = none →
    (Gives (.seqRun n false) s fun d => d.rd (PADC.SEQ_CTL.RUN n) = 0 ∧ s.dev.OnlyRegs d [PADC.SEQ_CTL.RUN n]) ∧
    (s.dev.padc[n].next = e → dormant s.dev = false → e < s.dev.rd (PADC.SEQ_CTL.LEN n) → e < 16 → s.dev.on (PADC.CFG1.EN n e) = true →
      s.dev.rd (PADC.PASS.VAL n) % 2 ^ s.dev.rd (PADC.CFG1.SKIP n e) = 0 → Gives (.seqRun n true) s fun d =>
        d.padc[n].run = some (entryConv s.dev n .seq e) ∧ d.padc[n].next = e + 1 ∧ d.rd (PADC.STATUS.RUNNING n) = 1 ∧
        d.rd (PADC.CUR.ENTRY n) = e ∧ d.rd (PADC.CUR.INJ n) = 0 ∧ d.rd (PADC.CUR.CAL n) = 0 ∧
        d.out = (excite s.dev n (entryConv s.dev n .seq e) true).out ∧ s.dev.KeepsRegs d [PADC.SEQ_CTL.RUN n,
          PADC.STATUS.RUNNING n, PADC.CUR.ENTRY n, PADC.CUR.INJ n, PADC.CUR.CAL n]) ∧
    (s.dev.padc[n].next = s.dev.rd (PADC.SEQ_CTL.LEN n) → dormant s.dev = false → 0 < s.dev.rd (PADC.SEQ_CTL.LEN n) →
      s.dev.on (PADC.CFG1.EN n 0) = true → (s.dev.rd (PADC.PASS.VAL n) + 1) % 2 ^ s.dev.rd (PADC.CFG1.SKIP n 0) = 0 →
      Gives (.seqRun n true) s fun d => d.rd (PADC.PASS.VAL n) = (s.dev.rd (PADC.PASS.VAL n) + 1) % 2 ^ 32 ∧
        bitOf (d.rd (Com.IRQ_RAW (Page.PADC n))) PADC.irq.PASS = true ∧ d.rd (PADC.CUR.ENTRY n) = 0 ∧
        d.rd (PADC.STATUS.RUNNING n) = 1 ∧ s.dev.KeepsPages d [Page.PADC n])

/-- R384 to R386. The model's own choice it rests on in part: log entry 98. -/
def Obligations.InjectionsAndCalibrationSteps : Prop :=
  (∀ q : Instr × Fin 2, (∃ n, q = (.injGo n, n)) ∨ (∃ n io falling, q = (.injEdge n io falling, n)) →
    ∀ (s : State) (n : Fin 2), s.dev.up = true → n = q.2 →
    (∀ io falling, q.1 = .injEdge n io falling → s.dev.rd (PADC.INJ_CTL.SRC n) = 1 ∧ s.dev.rd (PADC.INJ_CTL.IO n) = io.val ∧
      s.dev.on (PADC.INJ_CTL.EDGE n) = falling) →
    (s.dev.on (PADC.INJ_STAT.PENDING n) = true ∨ (∃ c, s.dev.padc[n].run = some c ∧ c.kind = .inj) → Gives q.1 s fun d =>
      d.rd (PADC.INJ_STAT.LOST n) = 1 ∧ s.dev.Counted d (PADC.INJ_LOST_CNT.CNT n) ∧
      s.dev.OnlyRegs d [PADC.INJ_STAT.LOST n, PADC.INJ_LOST_CNT.CNT n]) ∧
    (∀ c : Conv, s.dev.on (PADC.INJ_STAT.PENDING n) = false → s.dev.padc[n].run = some c → c.kind ≠ .inj → Gives q.1 s fun d =>
      d.rd (PADC.INJ_STAT.PENDING n) = 1 ∧ d.rd (PADC.INJ_T_REQ.T n) = s.dev.nowNs % 2 ^ 32 ∧ d.padc[n].injAt = s.dev.now ∧
      d.padc[n].run = some c ∧ s.dev.KeepsRegs d [PADC.INJ_STAT.PENDING n, PADC.INJ_T_REQ.T n] ∧ d.out = s.dev.out) ∧
    (s.dev.on (PADC.INJ_STAT.PENDING n) = false → s.dev.padc[n].run = none → dormant s.dev = false → Gives q.1 s fun d =>
      d.rd (PADC.INJ_STAT.PENDING n) = 0 ∧ d.rd (PADC.INJ_T_REQ.T n) = s.dev.nowNs % 2 ^ 32 ∧
      d.rd (PADC.INJ_STAT.WAIT_US n) = 0 ∧ d.rd (PADC.STATUS.RUNNING n) = 1 ∧ d.rd (PADC.CUR.INJ n) = 1 ∧
      (∃ c, d.padc[n].run = some c ∧ c.kind = .inj ∧ c.cfg0 = s.dev.rd (PADC.INJ_CFG0.CFG n) ∧
        c.cfg1 = s.dev.rd (PADC.INJ_CFG1.CFG n) ∧ c.ofs = s.dev.rdS (PADC.OFS.VAL n (s.dev.rd (PADC.INJ_CTL.COEF n))) ∧
        c.gainc = s.dev.rd (PADC.GAINC.VAL n (s.dev.rd (PADC.INJ_CTL.COEF n)))) ∧
      s.dev.KeepsRegs d [PADC.INJ_STAT.PENDING n, PADC.INJ_T_REQ.T n, PADC.INJ_STAT.WAIT_US n, PADC.STATUS.RUNNING n,
        PADC.CUR.ENTRY n, PADC.CUR.INJ n, PADC.CUR.CAL n])) ∧
  (∀ (s : State) (n : Fin 2) (io : Fin 8) (falling : Bool), s.dev.up = true → s.dev.rd (PADC.INJ_CTL.SRC n) ≠ 1 ∨
    s.dev.rd (PADC.INJ_CTL.IO n) ≠ io.val ∨ s.dev.on (PADC.INJ_CTL.EDGE n) ≠ falling →
    Gives (.injEdge n io falling) s fun d => d = s.dev) ∧
  (∀ (s : State) (n : Fin 2) (x : Int) (ov : Bool) (c : Conv), s.dev.up = true → s.dev.padc[n].run = some c → c.entry < 16 →
    c.since + c.time ≤ s.dev.now → dormant s.dev = false → c.kind = .seq → c.muxp ≠ 21 → s.dev.on (PADC.INJ_STAT.PENDING n) = true → Gives (.conversionEnd n x ov) s fun d =>
      d.rd (PADC.INJ_STAT.PENDING n) = 0 ∧
      d.rd (PADC.INJ_STAT.WAIT_US n) = min ((s.dev.now - s.dev.padc[n].injAt) / 16000) 65535 ∧ d.rd (PADC.CUR.INJ n) = 1 ∧
      (∃ i, d.padc[n].run = some i ∧ i.kind = .inj ∧ i.cfg0 = s.dev.rd (PADC.INJ_CFG0.CFG n)) ∧
      s.dev.KeepsPages d [Page.PADC n]) ∧
  (∀ (s : State) (n : Fin 2) (x c1 c2 : Int) (ov : Bool) (c : Conv), s.dev.up = true → s.dev.padc[n].run = some c → c.entry < 16 →
    c.since + c.time ≤ s.dev.now → c.kind = .inj → c.muxp < 21 → c.intTemp = false → c.kindNo = 1 → s.dev.on (PADC.SEQ_CTL.RUN n) = false →
    s.dev.on (PADC.INJ_STAT.PENDING n) = false → s.dev.padc[n].cal = none → s.dev.padc[n].calWait = none →
    c1 = sar ((clampI (-8388607) 8388607 x - c.ofs) * c.gainc + 2 ^ 23) 24 →
    c2 = sar (sat24 c1 * s.dev.rd (PADC.REF_CORR.RC n) + 2 ^ 23) 24 → Gives (.conversionEnd n x ov) s fun d =>
      d.rdS (PADC.INJ_RES.RES n) = sat24 c2 * 15625 / (64 * c.gain) ∧ d.rd (PADC.INJ_T_END.T n) = s.dev.nowNs % 2 ^ 32 ∧
      bitOf (d.rd (PADC.INJ_RES_STAT.STAT n)) 0 = true ∧ d.rd (PADC.INJ_STAT.DONE n) = 1 ∧
      bitOf (d.rd (Com.IRQ_RAW (Page.PADC n))) PADC.irq.INJ_DONE = true ∧ d.padc[n].run = none ∧
      s.dev.Counted d (PADC.CONV_CNT.CNT n) ∧ (∀ e < 16, ∀ f ∈ PADC.fields2 n e, d.rd f = s.dev.rd f) ∧
      s.dev.KeepsPages d [Page.PADC n]) ∧
  (∀ q : Bool × (Fin 2 → Instr), q = (false, .calZero) ∨ q = (true, .calFullScale) → ∀ (s : State) (n : Fin 2), s.dev.up = true →
    (s.dev.on (PADC.CAL_STAT.PENDING n) = true ∨ s.dev.on (PADC.CAL_STAT.BUSY n) = true → Gives (q.2 n) s fun d =>
      d.rd (PADC.CAL_CTL.STEP n) = b2n q.1 ∧ s.dev.OnlyRegs d [PADC.CAL_CTL.STEP n]) ∧
    (s.dev.on (PADC.CAL_STAT.PENDING n) = false → s.dev.on (PADC.CAL_STAT.BUSY n) = false →
      (∀ c : Conv, s.dev.padc[n].run = some c → Gives (q.2 n) s fun d => d.rd (PADC.CAL_STAT.PENDING n) = 1 ∧
        d.padc[n] = { s.dev.padc[n] with calWait := some q.1 } ∧ d.out = s.dev.out ∧
        s.dev.KeepsRegs d [PADC.CAL_CTL.STEP n, PADC.CAL_STAT.PENDING n, PADC.CAL_STAT.ERR n]) ∧
      (∀ c : Conv, c = entryConv s.dev n .cal (s.dev.rd (PADC.CAL_CTL.ENTRY n)) → s.dev.padc[n].run = none → dormant s.dev = false →
        s.dev.on (PADC.INJ_STAT.PENDING n) = false → s.dev.padc[n].cal = none →
        (c.internal = false → Gives (q.2 n) s fun d => d.rd (PADC.CAL_STAT.BUSY n) = 1 ∧ d.rd (PADC.STATUS.SUSPENDED n) = 1 ∧
          d.rd (PADC.CAL_STAT.PENDING n) = 0 ∧ d.rd (PADC.CUR.CAL n) = 1 ∧ d.padc[n].run = some c ∧
          d.padc[n].cal = some ⟨q.1, s.dev.rd (PADC.CAL_CTL.AVG n), s.dev.rdS (PADC.CAL_TARGET.NV n),
            2 ^ s.dev.rd (PADC.CAL_CTL.AVG n), 0, c, false⟩ ∧ s.dev.KeepsPages d [Page.PADC n]) ∧
        (c.internal = true → s.dev.on (PADC.SEQ_CTL.RUN n) = false → Gives (q.2 n) s fun d => d.rd (PADC.CAL_STAT.ERR n) = 3 ∧
          d.rd (PADC.CAL_STAT.BUSY n) = 0 ∧ d.rd (PADC.CAL_STAT.PENDING n) = 0 ∧
          bitOf (d.rd (Com.IRQ_RAW (Page.PADC n))) PADC.irq.CAL_ERR = true ∧ s.dev.KeepsPages d [Page.PADC n])))) ∧
  (∀ (s : State) (n : Fin 2) (x f z t t' g : Int) (ov : Bool) (c : Conv) (st : CalStep), s.dev.up = true →
    s.dev.padc[n].run = some c → c.since + c.time ≤ s.dev.now → c.kind = .cal → c.entry < 16 → c.muxp < 21 → c.intTemp = false → s.dev.padc[n].cal = some st →
    st.conv = c → s.dev.on (PADC.SEQ_CTL.RUN n) = false → s.dev.on (PADC.INJ_STAT.PENDING n) = false →
    s.dev.padc[n].calWait = none → f = (st.sum + clampI (-8388607) 8388607 x + 2 ^ st.avg / 2) / 2 ^ st.avg →
    z = (if s.dev.on (PADC.CAL_STAT.ZERO_HELD n) then s.dev.rdS (PADC.CAL_Z.Z n) else c.ofs) →
    t = (st.target * 64 * c.gain + 7812) / 15625 → s.dev.on (PADC.REF_CORR.RC n) = true →
    t' = (t * 2 ^ 24 + s.dev.rd (PADC.REF_CORR.RC n) / 2) / s.dev.rd (PADC.REF_CORR.RC n) →
    (f ≠ z → g = (t' * 2 ^ 24 + (f - z) / 2).fdiv (f - z)) →
    Gives (.conversionEnd n x ov) s fun d => s.dev.KeepsPages d [Page.PADC n] ∧
      (st.abort = true → d.rd (PADC.CAL_STAT.ERR n) = 4) ∧
      (st.abort = false → (codeOf c (s.dev.rd (PADC.REF_CORR.RC n)) x ov).2 = true → d.rd (PADC.CAL_STAT.ERR n) = 2) ∧
      (st.abort = false → (codeOf c (s.dev.rd (PADC.REF_CORR.RC n)) x ov).2 = false → st.left = 1 →
        (st.full = false → -8388608 ≤ f → f ≤ 8388607 → d.rdS (PADC.CAL_Z.Z n) = f ∧ d.rd (PADC.CAL_STAT.ZERO_HELD n) = 1 ∧
          d.rd (PADC.CAL_STAT.BUSY n) = 0 ∧ d.rd (PADC.STATUS.SUSPENDED n) = 0 ∧ d.padc[n].cal = none) ∧
        (st.full = true → f ≠ z → 2 ^ 23 ≤ g → g ≤ 2 ^ 25 → -8388608 ≤ z → z ≤ 8388607 →
          d.rdS (PADC.OFS.VAL n c.entry) = z ∧ (d.rd (PADC.GAINC.VAL n c.entry) : Int) = g ∧ d.rd (PADC.CAL_STAT.DONE n) = 1 ∧
          d.rd (PADC.CAL_STAT.ZERO_HELD n) = 0 ∧ d.rd (PADC.CAL_STAT.BUSY n) = 0 ∧
          bitOf (d.rd (Com.IRQ_RAW (Page.PADC n))) PADC.irq.CAL_DONE = true) ∧
        (st.full = true → f = z ∨ g < 2 ^ 23 ∨ 2 ^ 25 < g → d.rd (PADC.CAL_STAT.ERR n) = 1)) ∧
      (d.rd (PADC.CAL_STAT.ERR n) ≠ 0 → s.dev.rd (PADC.CAL_STAT.ERR n) = 0 → d.padc[n].cal = none ∧
        d.rd (PADC.CAL_STAT.BUSY n) = 0 ∧ bitOf (d.rd (Com.IRQ_RAW (Page.PADC n))) PADC.irq.CAL_ERR = true ∧
        ∀ f ∈ [PADC.OFS.VAL n c.entry, PADC.GAINC.VAL n c.entry, PADC.CAL_Z.Z n, PADC.CAL_STAT.ZERO_HELD n], d.rd f = s.dev.rd f)) ∧
  ∀ (s : State) (n : Fin 2), s.dev.up = true →
    (∀ st : CalStep, s.dev.padc[n].cal = some st → Gives (.calAbort n) s fun d => d.padc[n] = { s.dev.padc[n] with
      cal := some { st with abort := true } } ∧ s.dev.OnlyRegs { d with padc := s.dev.padc } []) ∧
    (s.dev.padc[n].cal = none → s.dev.padc[n].calWait = none → Gives (.calAbort n) s fun d => d = s.dev) ∧
    (s.dev.padc[n].cal = none → s.dev.padc[n].calWait ≠ none → Gives (.calAbort n) s fun d => d.rd (PADC.CAL_STAT.ERR n) = 4 ∧
      d.rd (PADC.CAL_STAT.PENDING n) = 0 ∧ d.padc[n].calWait = none ∧
      bitOf (d.rd (Com.IRQ_RAW (Page.PADC n))) PADC.irq.CAL_ERR = true ∧ s.dev.KeepsPages d [Page.PADC n])

/-! ## Temperature and ageing (spec/18_temperature_and_ageing.md) -/

/-- R392 to R396, R398, R399. Samples of one temperature make every expected value that temperature, whatever the factory model of the
sites is. The model's own choices it rests on in part: log entries 99, 100. -/
def Obligations.SamplesCountThresholdsAndThrottle : Prop :=
  (∀ (s : State) (T : Int) (meas : PowerMeas), s.dev.up = true → -2147483648 ≤ T → T < 2147483648 → s.dev.rd THM.SITE_BAD.MASK = 0 →
    meas.pLogic = 0 → (∀ k : Fin 6, s.dev.rd (THM.RATE_CFG.MODE (k / 3) (k % 3)) = 0) → s.dev.pw.going = .no →
    s.dev.on NVS.STATUS.FROZEN = false →
    Completes (.tempSample (List.replicate 20 T) 0 meas) s fun t =>
      (∀ i < 20, t.dev.rdS (THM.TEMP.T i) = T ∧ t.dev.rdS (THM.EFF.T i) = T) ∧ t.dev.rdS THM.GOV_DIE.T = T ∧
      t.dev.rdS THM.GOV_BRD.T = T ∧ t.dev.rd THM.VALID.DIE = 16 ∧ t.dev.rd THM.VALID.BRD = 4 ∧ t.dev.rd THM.STATUS.SENSE_FAIL = 0 ∧
      t.dev.rd THM.SITE_BAD.MASK = 0 ∧
      (∀ k : Fin 6, ∀ c, c = s.dev.temp.thr[k].level →
        ∀ lev, lev = s.dev.rdS (THM.LEVEL_CFG.LEVEL (k / 3) (k % 3)) * 4096 →
        ∀ hyst : Int, hyst = s.dev.rd (THM.LEVEL_CFG.HYST (k / 3) (k % 3)) * 4096 →
        ∀ dwell, dwell = max 1 (s.dev.rd (THM.LEVEL_CFG.DWELL (k / 3) (k % 3))) →
        (c.on = false → lev ≤ T → dwell ≤ c.rise + 1 → t.dev.temp.thr[k].level = ⟨true, 0, 0⟩) ∧
        (c.on = false → lev ≤ T → c.rise + 1 < dwell → t.dev.temp.thr[k].level = ⟨false, c.rise + 1, 0⟩) ∧
        (c.on = false → T < lev → t.dev.temp.thr[k].level = ⟨false, 0, 0⟩) ∧
        (c.on = true → T ≤ lev - hyst → dwell ≤ c.fall + 1 → t.dev.temp.thr[k].level = ⟨false, 0, 0⟩) ∧
        (c.on = true → T ≤ lev - hyst → c.fall + 1 < dwell → t.dev.temp.thr[k].level = ⟨true, 0, c.fall + 1⟩) ∧
        (c.on = true → lev - hyst < T → t.dev.temp.thr[k].level = ⟨true, 0, 0⟩) ∧
        t.dev.temp.thr[k].on = t.dev.temp.thr[k].level.on ∧
        bitOf (t.dev.rd (if k.val < 3 then THM.STATUS.DIE else THM.STATUS.BRD)) (k % 3) = t.dev.temp.thr[k].on ∧
        (s.dev.temp.thr[k].on = false → t.dev.temp.thr[k].on = true → bitOf (t.dev.rd (Com.IRQ_RAW Page.THM)) (k % 3) = true)) ∧
      t.dev.temp.throttle = (t.dev.temp.thr[(1 : Fin 6)].on || t.dev.temp.thr[(4 : Fin 6)].on) ∧
      (s.dev.temp.throttle = false → t.dev.temp.throttle = true → s.dev.rd THM.STATUS.STEP = 0 → t.dev.rd THM.STATUS.STEP = 1) ∧
      ((∀ k : Fin 6, t.dev.temp.thr[k].on = s.dev.temp.thr[k].on) → t.dev.temp.throttle = s.dev.temp.throttle →
        t.mem = s.mem ∧ t.dev.out = s.dev.out ∧ s.dev.KeepsPages t.dev [Page.THM, Page.PWR])) ∧
  (∀ (s : State) (T U : Int) (i : Fin 20) (meas : PowerMeas), s.dev.up = true → -2147483648 ≤ T → T < 2147483648 →
    -2147483648 ≤ U → U < 2147483648 → s.dev.rd THM.SITE_BAD.MASK = 0 → meas.pLogic = 0 → s.dev.pw.going = .no →
    s.dev.on NVS.STATUS.FROZEN = false →
    Completes (.tempSample ((List.replicate 20 T).set i U) (2 ^ i.val) meas) s fun t => t.dev.rd THM.SITE_BAD.MASK = 2 ^ i.val ∧
      s.dev.Counted t.dev THM.SITE_BAD_CNT.CNT ∧ bitOf (t.dev.rd (Com.IRQ_RAW Page.THM)) THM.irq.SITE_BAD = true ∧
      t.dev.rdS (THM.TEMP.T i) = U ∧ (∀ k < 20, t.dev.rdS (THM.EFF.T k) = T) ∧ t.dev.rdS THM.GOV_DIE.T = T ∧
      t.dev.rdS THM.GOV_BRD.T = T ∧ t.dev.rd THM.VALID.DIE = (if i.val < 16 then 15 else 16) ∧
      t.dev.rd THM.VALID.BRD = (if i.val < 16 then 4 else 3)) ∧
  (∀ (s : State) (T : Int) (meas : PowerMeas), s.dev.up = true → -2147483648 ≤ T → T < 2147483648 →
    s.dev.rd THM.SITE_BAD.MASK = 0xF0000 → meas.pLogic = 0 → s.dev.pw.going = .no → s.dev.on NVS.STATUS.FROZEN = false →
    Completes (.tempSample (List.replicate 20 T) 0xF0000 meas) s fun t => t.dev.rd THM.VALID.BRD = 0 ∧
      t.dev.rd THM.STATUS.SENSE_FAIL = 1 ∧
      (s.dev.on THM.STATUS.SENSE_FAIL = false → bitOf (t.dev.rd (Com.IRQ_RAW Page.THM)) THM.irq.SENSE_FAIL = true) ∧
      ∀ k : Fin 6, k = 1 ∨ k = 4 → s.dev.temp.thr[k].level.on = false →
        max 1 (s.dev.rd (THM.LEVEL_CFG.DWELL (k / 3) 1)) ≤ s.dev.temp.thr[k].level.rise + 1 → t.dev.temp.thr[k].level.on = true) ∧
  ∀ (s : State) (n : Nat), s.dev.up = true → s.dev.rd THM.STATUS.STEP = n →
    (s.dev.temp.throttle = true ∧ 3 ≤ n ∨ s.dev.temp.throttle = false ∧ n = 0 ∨
      s.dev.past .throttle (s.dev.rd THM.THR_CFG.STEP_MS * oneMs) = false → Gives .throttleStep s fun d => d = s.dev) ∧
    (∀ m, s.dev.past .throttle (s.dev.rd THM.THR_CFG.STEP_MS * oneMs) = true →
      s.dev.temp.throttle = true ∧ n < 3 ∧ m = n + 1 ∨ s.dev.temp.throttle = false ∧ 0 < n ∧ n ≤ 3 ∧ m = n - 1 →
      Gives .throttleStep s fun d => d.rd THM.STATUS.STEP = m ∧ d.rd ZCTL.STATUS.JOB_PAUSE = b2n (decide (1 ≤ m)) ∧
        d.rd ZCTL.STATUS.FORCE_FRB = b2n (decide (2 ≤ m)) ∧
        d.rd MEM.STATUS.SCRUB_PAUSED = b2n (decide (1 ≤ m) || s.dev.on MEM.STATUS.DEGRADED) ∧
        (∀ l < 8, d.rd (PIPE.DECIM.N l) = if m = 3 then max 2 (s.dev.rd THM.THR_CFG.DECIM) % 16 else if n = 3 then 1
          else s.dev.rd (PIPE.DECIM.N l)) ∧ d.out = s.dev.out ∧ d.temp = s.dev.temp ∧
        s.dev.KeepsPages d ([Page.THM, Page.MEM, Page.ZCTL] ++ (List.range 8).map Page.PIPE ++ (List.range 32).map Page.Z))

/-- R358, R400 to R405, R407. The coefficients of the oscillator and of the converters are factory constants (log entries 3 and 111). The model's own choices it rests on in part: log entries 3, 103, 111. -/
def Obligations.ShutdownCompensationAndReplan : Prop :=
  (∀ s : State, s.dev.up = true → (∀ i, s.dev.pw.going ≠ .yielding i) → Gives .shutdownProceed s fun d => d = s.dev) ∧
  (∀ s : State, s.dev.up = true → s.dev.pw.going = .yielding none → s.dev.on NVS.STATUS.FROZEN = false →
    Completes .shutdownProceed s fun t => t.dev.pw.going = .windup 3 ∧ t.dev.rd PWR.STATUS.SHED = 1 ∧ t.dev.rd MARK.STATUS.SHED = 1 ∧
      t.dev.rd NVS.STATUS.FROZEN = 1 ∧ Out.rail v48 false ∈ t.dev.out ∧ ∀ a < 0x09000000, t.mem.byte a = s.mem.byte a) ∧
  (∀ (s : State) (info : StartInfo), s.dev.up = true → s.dev.pw.going = .yielding (some info) →
    Completes .shutdownProceed s fun t => t.dev.rd RST.CAUSE.VAL = 9 ∧ t.dev.now = 0 ∧ t.dev.rd PROF.STATUS.PINS = info.prof % 8) ∧
  (∀ s : State, s.dev.up = true → Completes (.hwTrip false) s fun t => t.dev.pw.down = some 4 ∧ t.dev.pw.held = false ∧
    t.dev.out = [Out.rail 0 false, .rail 1 false, .rail 2 false, .rail 3 false, .rail 4 false, .rail 5 false, .rail 6 false,
      .pin 8 0, .pin 7 0] ++ s.dev.out ∧ (s.dev.nvs.run = none → t.mem = s.mem.powerLoss)) ∧
  (∀ s : State, s.dev.up = true → s.dev.on NVS.STATUS.FROZEN = false → Completes (.hwTrip true) s fun t =>
    t.dev.pw.going = .windup 4 ∧ t.dev.rd PWR.STATUS.SHED = 1 ∧ t.dev.rd NVS.STATUS.FROZEN = 1) ∧
  (∀ (s : State) (cur goal : Int), s.dev.up = true → cur = s.dev.rdS THM.REF_TRIM.TRIM → -2147000000 ≤ cur → cur ≤ 2147000000 →
    goal = -refDrift (s.dev.rdS (THM.EFF.T 16)) → Gives .refTrimUpdate s fun d =>
      d.rdS THM.REF_TRIM.TRIM = (if goal < cur - 655 then cur - 655 else if cur + 655 < goal then cur + 655 else goal) ∧
      s.dev.OnlyRegs d [THM.REF_TRIM.TRIM]) ∧
  (∀ (s : State) (dT : Int), s.dev.up = true → dT = sat16 (sar (s.dev.rdS (THM.EFF.T 17) - 25 * 2 ^ 16) 6) →
    Gives .refCorrUpdate s fun d => (∀ n < 2, d.rd (PADC.REF_CORR.RC n) = ofSigned 32 (2 ^ 24 - sar (Config.refRA n * dT) 10 -
        sar (Config.refRB n * sat16 (sar (dT * dT) 10)) 10)) ∧
      s.dev.OnlyRegs d [PADC.REF_CORR.RC 0, PADC.REF_CORR.RC 1]) ∧
  (∀ (s : State) (ppm : List Int), s.dev.up = true → s.dev.temp.roN + 1 < 360 → Gives (.ringOscillatorReading ppm) s fun d =>
    d.temp.roN = s.dev.temp.roN + 1 ∧ d.temp.ro = (List.range 16).map (fun i => s.dev.temp.ro.getD i 0 + ppm.getD i 0) ∧
    d = { s.dev with temp := d.temp }) ∧
  (∀ (s : State) (ppm : List Int), s.dev.up = true → s.Sound → s.dev.temp.roN = 359 → s.dev.on NVS.STATUS.FROZEN = false → s.dev.nvs.run = none →
    Completes (.ringOscillatorReading ppm) s fun t => t.dev.temp.roN = 0 ∧ t.dev.temp.ro = [] ∧
      (∀ i < 16, ∀ v, v = (s.dev.temp.ro.getD i 0 + ppm.getD i 0) / 360 → -2147483648 ≤ v → v < 2147483648 →
        ∀ cur, cur = trackCur s.mem 1 i → trackN t.mem 1 i = min 65535 (trackN s.mem 1 i + 1) ∧
        (trackN s.mem 1 i = 0 → trackBase t.mem 1 i = v ∧ trackCur t.mem 1 i = v ∧ trackSpread t.mem 1 i = 0) ∧
        (trackN s.mem 1 i ≠ 0 → trackBase t.mem 1 i = trackBase s.mem 1 i ∧ trackCur t.mem 1 i = cur + sar (v - cur) 4)) ∧
      (∀ a, a < trackAddr 1 0 ∨ trackAddr 1 16 ≤ a → t.mem.byte a = s.mem.byte a) ∧ s.dev.KeepsRegs t.dev [NVS.DIRTY.N]) ∧
  (∀ s : State, s.dev.up = true → s.dev.rd AGE.POH.HOURS < s.dev.rd AGE.NEXT_PLAN.HOURS → Gives .replan s fun d => d = s.dev) ∧
  ∀ c ∈ [Instr.planNow, .replan], ∀ (s : State) (old gb : Nat), s.dev.up = true →
    (c = .replan → s.dev.rd AGE.NEXT_PLAN.HOURS ≤ s.dev.rd AGE.POH.HOURS) → old = s.dev.rd AGE.VGB.MV → old ≤ 40 →
    gb = min 40 (((((List.range 16).map fun u => trackCur s.mem 1 u).foldl max 0) * s.dev.rd AGE.VGB.VGB_K + 999) / 1000).toNat →
    Completes c s fun t => t.dev.rd AGE.VGB.MV = (if gb < old - 5 then old - 5 else if old + 5 < gb then old + 5 else gb) ∧
      t.dev.rd PWR.CORE.GB = t.dev.rd AGE.VGB.MV ∧ t.dev.rd AGE.NEXT_PLAN.HOURS = (s.dev.rd AGE.POH.HOURS + 720) % 2 ^ 32 ∧
      bitOf (t.dev.rd (Com.IRQ_RAW Page.AGE)) AGE.irq.PLAN_DONE = true ∧
      (∀ u < 64, bitOf (t.dev.rd (if u < 32 then AGE.LANE_WARN_LO.MASK else AGE.LANE_WARN_HI.MASK)) (u % 32) = true ↔
        trackN s.mem 2 u ≠ 0 ∧ trackCur s.mem 2 u < 2 * (s.dev.rd (LANE.EYE_MIN.H_MIN (u / 4) (u % 4)) : Int)) ∧
      (s.dev.on AGE.CTL.PLAN_SH = false → s.dev.on AGE.CTL.PLAN_VALVE = false → t.dev.ep = s.dev.ep) ∧
      (∀ n < 2, s.dev.on AGE.CTL.PLAN_SH = true → 8 ≤ trackN s.mem 5 n → 8 ≤ trackN s.mem 6 n → trackBase s.mem 5 n ≠ 0 →
        0 < trackCur s.mem 6 n → 0 ≤ trackBase s.mem 6 n → ∀ rb, rb = (trackBase s.mem 5 n).natAbs →
        ∀ rc, rc = min rb (trackCur s.mem 5 n).natAbs → ∀ nc, nc = (trackCur s.mem 6 n).toNat → ∀ nb, nb = min nc (trackBase s.mem 6 n).toNat →
        stagedVal t.dev t.dev.ep.next (THERM.SH_INTERVAL.MAX n) = (THERM.SH_INTERVAL.MAX n).clamp
          (max (stagedVal s.dev s.dev.ep.next (THERM.SH_INTERVAL.MIN n))
            (s.dev.rd (if n = 0 then AGE.SH_CEIL.T0 else AGE.SH_CEIL.T1) * rc * nb / (rb * nc)) %
              2 ^ (THERM.SH_INTERVAL.MAX n).width)) ∧
      (∀ v < 16, s.dev.on AGE.CTL.PLAN_VALVE = true → 32 ≤ trackN s.mem 8 v → ∀ c, c = trackCur s.mem 8 v →
        ∀ w, w = 4 * trackSpread s.mem 8 v + s.dev.rd AGE.DIP_MARGIN.T → 0 ≤ c + w → c - w ≤ 65535 →
        stagedVal t.dev t.dev.ep.next (VALVE.DIP_WIN.TMIN v) = (max 0 (c - w)).toNat ∧
        stagedVal t.dev t.dev.ep.next (VALVE.DIP_WIN.TMAX v) = (min 65535 (c + w)).toNat)

/-! ## Power, clocks and reset (spec/19_power_clocks_reset.md) -/

/-- R411, R412, R414 to R417, R420 to R422, R431, R433. That LANE_LOCK comes back with a measurement in tolerance is the model's choice
(log entry 22). The model's own choices it rests on in part: log entries 7, 22, 101. -/
def Obligations.MainsRailsAndClocks : Prop :=
  (∀ (s : State) (rms : Nat), s.dev.up = true → Gives (.mainsInTolerance rms) s fun d => d.rd PWR.STATUS.MAINS_OK = 1 ∧
    d.rd PWR.MAINS.RMS = min rms 4095 ∧ bitOf (d.rd (Com.IRQ_RAW Page.PWR)) PWR.irq.MAINS_OK = true ∧ d.rd PWR.STATUS.RIDE = 0 ∧
    (s.dev.on PWR.STATUS.RIDE = true → s.dev.Counted d PWR.RIDE_CNT.CNT ∧ ∀ t, s.dev.pw.lossAt = some t →
      d.rd PWR.LAST_LOSS.MS = min ((s.dev.now - t) / 16000000) 65535) ∧
    (s.dev.on PWR.STATUS.RIDE = false → d.rd PWR.RIDE_CNT.CNT = s.dev.rd PWR.RIDE_CNT.CNT) ∧
    d.out = s.dev.out ∧ s.dev.KeepsPages d [Page.PWR]) ∧
  (∀ (s : State) (bulk : Nat), s.dev.up = true →
    (s.dev.on PWR.STATUS.RIDE = true → Gives (.mainsLoss bulk) s fun d => d.rd PWR.BULK.V = min bulk 4095 ∧
      d.rd PWR.STATUS.BULK_LOW = b2n (decide (bulk < 3000)) ∧ s.dev.OnlyRegs d [PWR.BULK.V, PWR.STATUS.BULK_LOW]) ∧
    (s.dev.on PWR.STATUS.RIDE = false → Completes (.mainsLoss bulk) s fun t => t.dev.rd PWR.STATUS.MAINS_OK = 0 ∧
      t.dev.rd PWR.STATUS.RIDE = 1 ∧ t.dev.rd PWR.STATUS.SHED = 1 ∧ t.dev.rd MARK.STATUS.SHED = 1 ∧
      s.dev.Counted t.dev PWR.MAINS_LOSS_CNT.CNT ∧ s.dev.Counted t.dev PWR.SHED_CNT.CNT ∧
      bitOf (t.dev.rd (Com.IRQ_RAW Page.PWR)) PWR.irq.MAINS_LOSS = true ∧ Out.rail v48 false ∈ t.dev.out ∧
      t.dev.pw.lossAt = some s.dev.now ∧ (s.dev.pw.started = true → t.dev.rd NVS.STATUS.FROZEN ≠ 0) ∧
      (s.dev.pw.started = false → t.mem = s.mem) ∧ ∀ a < 0x09000000, t.mem.byte a = s.mem.byte a)) ∧
  (∀ s : State, s.dev.up = true →
    (∀ t0, s.dev.on PWR.STATUS.MAINS_OK = true → s.dev.on PWR.STATUS.SHED = true → s.dev.pw.tolAt = some t0 →
      t0 + 100 * oneMs ≤ s.dev.now → 3800 ≤ s.dev.rd PWR.BULK.V → Gives .actuatorRestore s fun d =>
      d.rd PWR.STATUS.SHED = 0 ∧ d.out = .rail v48 true :: s.dev.out ∧
      bitOf (d.rd (Com.IRQ_RAW Page.PWR)) PWR.irq.RESTORE = true ∧
      s.dev.OnlyRegsOut d [PWR.STATUS.SHED, Com.IRQ_RAW Page.PWR, Com.ERR_CNT Page.PWR]) ∧
    (s.dev.on PWR.STATUS.MAINS_OK = false ∨ s.dev.on PWR.STATUS.SHED = false ∨ s.dev.pw.tolAt = none ∨
      (∃ t0, s.dev.pw.tolAt = some t0 ∧ s.dev.now < t0 + 100 * oneMs) ∨ s.dev.rd PWR.BULK.V < 3800 → Gives .actuatorRestore s fun d => d = s.dev)) ∧
  (∀ q ∈ [(Instr.bulkLowOff, 1), (.railFault, 2)], ∀ s : State, s.dev.up = true → Completes q.1 s fun t =>
    t.dev.pw.down = some q.2 ∧ t.dev.pw.held = false ∧ (s.dev.nvs.run = none → t.mem = s.mem.powerLoss) ∧
    t.dev.out = [Out.rail 0 false, .rail 1 false, .rail 2 false, .rail 3 false, .rail 4 false, .rail 5 false, .rail 6 false,
      .pin 8 0, .pin 7 0] ++ s.dev.out ∧
    ∀ f : Fld, f.key ∉ [TWIN.STATUS.TAKE_IN.key, (THERM.STATUS.HEAD_PRESENT 0).key, (THERM.STATUS.HEAD_PRESENT 1).key] →
      t.dev.rd f = f.reset) ∧
  (∀ s : State, s.dev.up = true → Completes .refclkLoss s fun t => t.dev.pw.down = some 10 ∧ t.dev.pw.held = true ∧
    (s.dev.nvs.run = none → t.mem = s.mem.powerLoss) ∧ t.dev.out = [Out.pin 8 0, .pin 7 0] ++ (shedActuators s.dev).out) ∧
  (∀ (s : State) (info : StartInfo), (s.dev.pw.held = false → Gives (.refclkReturn info) s fun d => d = s.dev) ∧
    (s.dev.pw.held = true → Completes (.refclkReturn info) s fun t => t.dev.pw.down = none ∧ t.dev.pw.started = true ∧
      t.dev.rd RST.CAUSE.VAL = 10 ∧ t.dev.rd CLK.STATUS.REF_OK = 1 ∧ t.dev.now = 0)) ∧
  (∀ (s : State) (rail : Fin 6) (mv : Nat), s.dev.up = true → Gives (.railWarn rail mv) s fun d =>
    d.rd (railFields.getD rail PWR.V12.MV) = min mv 65535 ∧ bitOf (d.rd (Com.IRQ_RAW Page.PWR)) PWR.irq.RAIL_WARN = true ∧
    s.dev.OnlyRegs d [railFields.getD rail PWR.V12.MV, Com.IRQ_RAW Page.PWR, Com.ERR_CNT Page.PWR]) ∧
  (∀ (s : State) (n : Fin 2), s.dev.up = true → Gives (.headOc n) s fun d =>
    d.rd (if n = 0 then PWR.HEAD.OC_A else PWR.HEAD.OC_B) = 1 ∧ bitOf (d.rd (Com.IRQ_RAW Page.PWR)) PWR.irq.HEAD_OC = true ∧
    n.val ∈ d.pw.tripped ∧ (headState s.dev n = HS.off → headState d n = HS.off) ∧
    (headState s.dev n ≠ HS.off → headState d n = HS.fault) ∧ (∀ k : Fin 2, k ≠ n → d.heads[k] = s.dev.heads[k])) ∧
  (∀ (s : State) (info : StartInfo), s.dev.up = true →
    (s.dev.hasStandby = true → Gives (.rootPllUnlock info) s fun d => d.rd CLK.STATUS.ROOT_LOCK = 0 ∧
      s.dev.Counted d CLK.ROOT_UNLOCK_CNT.CNT ∧ d.rd TRIG.STAT.RUNNING = 0 ∧ d.rd MARK.STATUS.SHED = 1 ∧
      d.pw.going = .yielding (some info) ∧ d.out.head? = some (.twin .yield [])) ∧
    (s.dev.hasStandby = false → Completes (.rootPllUnlock info) s fun t => t.dev.rd RST.CAUSE.VAL = 9 ∧ t.dev.pw.down = none ∧
      t.dev.pw.started = true ∧ t.dev.now = 0 ∧ t.dev.rd PROF.STATUS.PINS = info.prof)) ∧
  (∀ s : State, s.dev.up = true → Gives .lanePllUnlock s fun d => d.rd CLK.STATUS.LANE_LOCK = 0 ∧
    s.dev.Counted d CLK.LANE_UNLOCK_CNT.CNT ∧ bitOf (d.rd (Com.IRQ_RAW Page.CLK)) CLK.irq.LANE_UNLOCK = true ∧
    (∀ (p : Fin 16) (k : Fin 4), linkState s.dev p ≠ LS.disabled → d.rd (LANE.STAT.CDR_LOCK p k) = 0 ∧ d.rd (LANE.STAT.BLOCK_LOCK p k) = 0) ∧
    (∀ f ∈ [HOST.STATUS.HA_UP, HOST.STATUS.HB_UP, TWIN.STATUS.LINK_UP, STRING.STATUS.IN_UP, STRING.STATUS.OUT_UP], d.rd f = 0) ∧
    ((∀ p : Fin 16, linkState s.dev p = LS.disabled) → (∀ p : Fin 2, portUp s.dev p = false) → s.dev.on TWIN.STATUS.LINK_UP = false →
      s.dev.inRing = false → s.dev.OnlyRegs d [CLK.STATUS.LANE_LOCK, CLK.LANE_UNLOCK_CNT.CNT, Com.IRQ_RAW Page.CLK,
        Com.ERR_CNT Page.CLK, STRING.STATUS.IN_UP, STRING.STATUS.OUT_UP])) ∧
  (∀ s : State, s.dev.up = true → Gives .hbmPllUnlock s fun d => d.rd CLK.STATUS.HBM_LOCK = 0 ∧
    s.dev.Counted d CLK.HBM_UNLOCK_CNT.CNT ∧ bitOf (d.rd (Com.IRQ_RAW Page.CLK)) CLK.irq.HBM_UNLOCK = true ∧
    (s.dev.on MEM.STATUS.DEGRADED = false → s.dev.integ.degWait = none → d.integ.degWait = some 2) ∧
    (s.dev.on MEM.STATUS.DEGRADED = true → d.integ = s.dev.integ) ∧
    s.dev.KeepsRegs d [CLK.STATUS.HBM_LOCK, CLK.HBM_UNLOCK_CNT.CNT, Com.IRQ_RAW Page.CLK, Com.ERR_CNT Page.CLK]) ∧
  ∀ (s : State) (khz : List Nat), s.dev.up = true → khz.length = 6 → Gives (.freqMeasure khz) s fun d =>
    (∀ q ∈ freqFields.zip khz, d.rd q.1.1 = min q.2 (2 ^ 24 - 1)) ∧
    ((∃ q ∈ freqFields.zip khz, freqOff s.dev q.2 q.1.2 = true) →
      bitOf (d.rd (Com.IRQ_RAW Page.CLK)) CLK.irq.FREQ_ERR = true) ∧
    ((∀ q ∈ freqFields.zip khz, freqOff s.dev q.2 q.1.2 = false) →
      d.rd CLK.STATUS.LANE_LOCK = 1 ∧ d.rd (Com.IRQ_RAW Page.CLK) = s.dev.rd (Com.IRQ_RAW Page.CLK)) ∧
    s.dev.OnlyRegs d (freqFields.map Prod.fst ++ [CLK.STATUS.LANE_LOCK, Com.IRQ_RAW Page.CLK, Com.ERR_CNT Page.CLK])

/-- R418, R423 to R425, R428, R431, R434. The model's own choices it rests on in part: log entries 7, 101, 102, 104. -/
def Obligations.StartsAndResets : Prop :=
  (∀ (s : State) (info : StartInfo), s.dev.pw.down = none → s.dev.pw.started = true →
    Gives (.powerOnStart info) s fun d => d = s.dev) ∧
  (∀ (s : State) (info : StartInfo) (c : Nat), s.dev.pw.down = some c → s.dev.pw.held = true →
    Gives (.powerOnStart info) s fun d => d = s.dev) ∧
  (∀ (s : State) (info : StartInfo) (sec : Nat) (board : Int) (absent : Bool) (last : List Nat),
    last = s.dev.pw.restarts.filter (fun t => decide (sec < t + 3600)) →
    s.dev.pw.down = none ∨ s.dev.pw.held = true ∨ s.dev.pw.down = some 0 ∨ s.dev.pw.down = some 1 ∨ 70 * 16 ≤ board ∨
      (3 ≤ last.length ∧ absent = false) → Gives (.supervisorRestart sec board absent info) s fun d => d = s.dev) ∧
  (∀ (i : Instr) (s : State) (info : StartInfo) (cause : Nat),
    (i = .powerOnStart info ∧ (s.dev.pw.down = none ∧ s.dev.pw.started = false ∧ cause = 0 ∨
        s.dev.pw.down = some cause ∧ s.dev.pw.held = false ∧ cause < 16)) ∨
      (∃ (sec : Nat) (board : Int) (absent : Bool) (last : List Nat), i = .supervisorRestart sec board absent info ∧
        last = s.dev.pw.restarts.filter (fun t => decide (sec < t + 3600)) ∧ s.dev.pw.down = some cause ∧ s.dev.pw.held = false ∧
        2 ≤ cause ∧ cause < 16 ∧ board < 70 * 16 ∧ (last.length < 3 ∨ absent = true)) ∨
      (s.dev.up = true ∧ (i = .watchdogExpiry info ∧ cause = 6 ∨ i = .lockstepMismatch info ∧ cause = 7 ∨
        i = .mgmtMemoryUe info ∧ cause = 8 ∨
        i = .sysReset info ∧ cause = 5 ∧ s.dev.pw.going = .no ∧ s.dev.nvs.run = none ∧ dirtyPages s.dev = [])) →
    Completes i s fun t => t.dev.rd RST.CAUSE.VAL = cause ∧ t.dev.rd PROF.STATUS.PINS = info.prof ∧
      t.dev.rd TWIN.STATUS.SIDE = b2n info.sideB ∧ t.dev.up = true ∧ t.dev.pw.started = true ∧ t.dev.now = 0 ∧
      t.dev.rd CLK.STATUS.REF_OK = 1 ∧ t.dev.rd CLK.STATUS.ROOT_LOCK = 1) ∧
  (∀ (s : State) (info : StartInfo), s.dev.up = true →
    (s.dev.pw.going ≠ .no → Gives (.sysReset info) s fun d => d = s.dev) ∧
    (∀ r : StoreRun, s.dev.pw.going = .no → s.dev.nvs.run = some r → Gives (.sysReset info) s fun d =>
      d = { s.dev with pw := { s.dev.pw with going := .sysStores true info } }) ∧
    (s.dev.pw.going = .no → s.dev.nvs.run = none → dirtyPages s.dev ≠ [] → Completes (.sysReset info) s fun t =>
      t.dev.pw.going = .sysStores false info ∧ (∃ r, t.dev.nvs.run = some r ∧ r.kind = 1 ∧ r.queue = dirtyPages s.dev) ∧
      t.dev.rd NVS.STATUS.BUSY = 1 ∧ s.dev.KeepsPages t.dev [Page.NVS])) ∧
  ∀ s : State, s.dev.up = true → Completes .inspReset s fun t => s.dev.Counted t.dev RST.INSP_CNT.CNT ∧
    bitOf (t.dev.rd (Com.IRQ_RAW Page.RST)) RST.irq.INSP_DONE = true ∧ t.dev.seg.blobs = [] ∧ t.dev.arch.chunks = [] ∧
    t.dev.pipes = Vector.replicate 8 Pipe.reset ∧ t.dev.stitch = Stitch.reset ∧ (∀ m ∈ t.dev.mark.slots, m.state ≠ .armed) ∧
    (∀ f ∈ inspCounters, t.dev.rd f = f.reset) ∧ t.dev.time = s.dev.time ∧ t.dev.enc = s.dev.enc ∧ t.dev.gen = s.dev.gen ∧
    t.dev.ep = s.dev.ep ∧ t.dev.pw = s.dev.pw

/-- R426 to R428. The model's own choices it rests on in part: log entries 26, 105, 106, 142. -/
def Obligations.UnitResetsAndLowPower : Prop :=
  (∀ (s : State) (kind : Fin 4) (b : Nat) (f : Fld) (mask : Word32), s.dev.up = true → f = unitFld kind → b < f.width →
    (mask.toNat % 2 ^ f.width = s.dev.rd f → Gives (.unitReset kind mask) s fun d => d = s.dev) ∧
    (bitOf (s.dev.rd f) b = false → (∀ k < f.width, bitOf mask.toNat k = (bitOf (s.dev.rd f) k || k == b)) →
      (unitUsed s.dev kind b = true → Gives (.unitReset kind mask) s fun d => d.rd RST.STATUS.IN_USE = 1 ∧
        bitOf (d.rd (Com.IRQ_RAW Page.RST)) RST.irq.IN_USE = true ∧
        s.dev.OnlyRegs d [RST.STATUS.IN_USE, Com.IRQ_RAW Page.RST, Com.ERR_CNT Page.RST]) ∧
      (unitUsed s.dev kind b = false → s.dev.rd f < 2 ^ f.width → Gives (.unitReset kind mask) s fun d =>
        d.rd f = s.dev.rd f + 2 ^ b ∧ s.dev.KeepsPages d (Page.RST :: unitPages kind b) ∧ (kind ≠ 3 →
          ∀ p ∈ unitPages kind b, ∀ g ∈ pageFields p, g ≠ THERM.STATUS.HEAD_PRESENT b → d.rd g = g.reset))) ∧
    (bitOf (s.dev.rd f) b = true → s.dev.rd f < 2 ^ f.width →
      (∀ k < f.width, bitOf mask.toNat k = (bitOf (s.dev.rd f) k && k != b)) →
      Gives (.unitReset kind mask) s fun d => d.rd f = s.dev.rd f - 2 ^ b ∧ s.dev.KeepsPages d (Page.RST :: unitPages kind b) ∧
        (kind ≠ 3 → ∀ p ∈ unitPages kind b, ∀ g ∈ pageFields p, g ≠ THERM.STATUS.HEAD_PRESENT b → d.rd g = g.reset))) ∧
  (∀ (s : State) (lp : Fin 4) (want : Nat), s.dev.up = true → want = (if lp = 3 then 0 else lp.val) →
    (want = s.dev.rd PWR.STATUS.LP → Gives (.lpRequest lp) s fun d => d.rd PWR.CTL.LP = lp ∧ s.dev.OnlyRegs d [PWR.CTL.LP]) ∧
    (want ≠ s.dev.rd PWR.STATUS.LP → want ≠ 0 → (s.dev.on TRIG.STAT.RUNNING = true ∨ s.dev.arch.jobs ≠ []) →
      Gives (.lpRequest lp) s fun d => d.rd PWR.CTL.LP = lp ∧ d.rd PWR.STATUS.LP_REFUSED = 1 ∧
        s.dev.OnlyRegs d [PWR.CTL.LP, PWR.STATUS.LP_REFUSED]) ∧
    (want ≠ s.dev.rd PWR.STATUS.LP → want = 0 ∨ s.dev.on TRIG.STAT.RUNNING = false ∧ s.dev.arch.jobs = [] →
      Completes (.lpRequest lp) s fun t => t.dev.rd PWR.CTL.LP = lp ∧ t.dev.rd PWR.STATUS.LP = want ∧
        bitOf (t.dev.rd (Com.IRQ_RAW Page.PWR)) PWR.irq.LP_DONE = true ∧ t.dev.pw = s.dev.pw ∧
        (want = 0 → Out.rail v48 true ∈ t.dev.out) ∧ (want ≠ 0 → s.dev.Counted t.dev PWR.LP_CNT.CNT) ∧
        (want ≠ 0 → s.dev.rd PWR.STATUS.LP = 0 → Out.rail v48 false ∈ t.dev.out ∧ t.dev.seg.blobs = [] ∧
          ∀ p : Fin 16, linkState t.dev p = LS.disabled) ∧
        (want = 2 → t.dev.rd MEM.STATUS.HBM_READY = 0 ∧ (∀ j < 4, t.dev.rd (HOST.SESS_STAT.STATE j) = 0) ∧ t.mem = hbmLost s.mem) ∧
        (want ≠ 2 → t.mem = s.mem))) ∧
  ∀ (s : State) (io : Fin 8) (falling : Bool), s.dev.up = true →
    (s.dev.rd PWR.STATUS.LP = 0 ∨ s.dev.on PWR.WAKE.EN = false ∨ s.dev.rd PWR.WAKE.IO ≠ io.val ∨ s.dev.on PWR.WAKE.EDGE ≠ falling →
      Gives (.wake io falling) s fun d => d = s.dev) ∧
    (s.dev.rd PWR.STATUS.LP ≠ 0 → s.dev.on PWR.WAKE.EN = true → s.dev.rd PWR.WAKE.IO = io.val → s.dev.on PWR.WAKE.EDGE = falling →
      Gives (.wake io falling) s fun d => d.rd PWR.STATUS.LP = 0 ∧ d.rd PWR.CTL.LP = 0 ∧ Out.rail v48 true ∈ d.out ∧
        bitOf (d.rd (Com.IRQ_RAW Page.PWR)) PWR.irq.LP_DONE = true)

/-! ## Register pages and cages (spec/20_register_pages.md, spec/21_electrical_and_mechanical.md) -/

/-- R22, R29, R321, R426, R436, R438 to R441, R447. The model's own choices it rests on in part: log entries 16, 107, 116. -/
def Obligations.RegistersLocksAndCages : Prop :=
  (∀ (s : State) (page : Nat) (mask again : BitVec 8), s.dev.up = true →
    (pageExists page = true → Gives (.irqClear page mask again) s fun d =>
      (∀ b < 8, bitOf (d.rd (Com.IRQ_RAW page)) b =
        (again.getLsbD b || (bitOf (s.dev.rd (Com.IRQ_RAW page)) b && !mask.getLsbD b))) ∧
      s.dev.OnlyRegs d [Com.IRQ_RAW page, Com.ERR_CNT page]) ∧
    (pageExists page = false → Gives (.irqClear page mask again) s fun d => d.rd SYS.STATUS.UNMAPPED = 1 ∧
      s.dev.OnlyRegs d [SYS.STATUS.UNMAPPED, Com.IRQ_RAW Page.SYS, Com.ERR_CNT Page.SYS])) ∧
  (∀ (s : State) (page : Nat), s.dev.up = true → pageExists page = true → Gives (.errClr page) s fun d =>
    d.rd (Com.ERR_CNT page) = 0 ∧ s.dev.OnlyRegs d [Com.ERR_CNT page]) ∧
  (∀ (s : State) (who : Option (Fin 4)) (addr a : Nat), s.dev.up = true → a = addr / 4 * 4 → a < 0x01000000 →
    (∀ h ∈ s.dev.integ.half, h.1 ≠ requester who) →
    (pageExists (a / 4096) = false → Gives (.lockingRead who addr) s fun d => d.rd SYS.STATUS.UNMAPPED = 1 ∧
      s.dev.OnlyRegs d [SYS.STATUS.UNMAPPED, Com.IRQ_RAW Page.SYS, Com.ERR_CNT Page.SYS]) ∧
    (s.dev.PlainWord (requester who) a → Gives (.lockingRead who addr) s fun d => d = s.dev) ∧
    (pageExists (a / 4096) = true → pageHeld s.dev (a / 4096) = false → logWord s.dev a = none → lockGroup a ≠ [] →
      (∀ c < 4, a ≠ (ENC.L_SPEED.VAL c).addr) → (∀ l ∈ s.dev.locks, ¬ (l.who = requester who ∧ l.addr = a)) →
      Gives (.lockingRead who addr) s fun d => (∀ b ∈ lockGroup a, ⟨requester who, a, b, regWord s.dev b, s.dev.now⟩ ∈ d.locks) ∧
        (∀ l : Lock, l.who ≠ requester who ∨ l.locker ≠ a → (l ∈ d.locks ↔ l ∈ s.dev.locks)) ∧
        (∀ l ∈ d.locks, l.who = requester who → l.locker = a → l.addr ∈ lockGroup a ∧ l.value = regWord s.dev l.addr) ∧
        d = { s.dev with locks := d.locks })) ∧
  (∀ (s : State) (who : Option (Fin 4)) (locker : Nat), s.dev.up = true → Gives (.lockExpiry who locker) s fun d =>
    (∀ l : Lock, l ∈ d.locks ↔ l ∈ s.dev.locks ∧ ¬ (l.who = requester who ∧ l.locker = locker ∧ l.since + oneMs ≤ s.dev.now)) ∧
    d = { s.dev with locks := d.locks }) ∧
  (∀ (s : State) (who : Option (Fin 4)) (addr a : Nat) (w : Word32), s.dev.up = true → a = addr / 4 * 4 → a < 0x01000000 →
    (∀ h ∈ s.dev.integ.half, h.1 ≠ requester who) →
    (pageExists (a / 4096) = false → Gives (.registerWrite who addr w) s fun d => d.rd SYS.STATUS.UNMAPPED = 1 ∧
      bitOf (d.rd (Com.IRQ_RAW Page.SYS)) SYS.irq.UNMAPPED = true ∧
      s.dev.OnlyRegs d [SYS.STATUS.UNMAPPED, Com.IRQ_RAW Page.SYS, Com.ERR_CNT Page.SYS]) ∧
    (pageExists (a / 4096) = true → pageHeld s.dev (a / 4096) = true → Gives (.registerWrite who addr w) s fun d =>
      d.rd MGMT.STATUS.WR_DROP = 1 ∧ s.dev.Counted d MGMT.WR_DROP_CNT.CNT ∧ s.dev.OnlyRegs d [MGMT.STATUS.WR_DROP, MGMT.WR_DROP_CNT.CNT,
        Com.IRQ_RAW Page.MGMT, Com.ERR_CNT Page.MGMT]) ∧
    (a = SYS.SCRATCH.DATA.addr → Gives (.registerWrite who addr w) s fun d => d.rd SYS.SCRATCH.DATA = w.toNat ∧
      s.dev.OnlyRegs d [SYS.SCRATCH.DATA]) ∧
    (∀ p, pageExists p = true → p ≠ Page.ZCTL → pageHeld s.dev p = false → a = (Com.IRQ_RAW p).addr → Gives (.registerWrite who addr w) s fun d =>
      (∀ b < 8, bitOf (d.rd (Com.IRQ_RAW p)) b = (bitOf (s.dev.rd (Com.IRQ_RAW p)) b && !w.getLsbD b)) ∧
      s.dev.OnlyRegs d [Com.IRQ_RAW p]) ∧
    (∀ (n : Fin 2) (e : Fin 16), a = (PADC.CFG0.MUXP n e).addr → Gives (.registerWrite who addr w) s fun d =>
      (∀ f ∈ [PADC.CFG0.MUXP n e, PADC.CFG0.MUXN n e, PADC.CFG0.GAIN n e, PADC.CFG0.ORDER n e, PADC.CFG0.DEC n e, PADC.CFG0.NOTCH n e,
        PADC.CFG0.TSAMP n e], stagedVal d d.ep.next f = bitsOf w.toNat f.lo f.width) ∧
      (∀ f : Fld, f.addr ≠ a → f.lo < 32 → stagedVal d d.ep.next f = stagedVal s.dev s.dev.ep.next f) ∧ d.regs = s.dev.regs ∧
      d = { s.dev with ep := { s.dev.ep with next := d.ep.next } })) ∧
  (∀ (s : State) (cage : Fin 21) (ident media cls : Nat), s.dev.up = true → Completes (.cageInsert cage ident media cls) s fun t =>
    (⟨cage, 0, decide (3 < cls)⟩ : Cage) ∈ t.dev.pw.cages ∧ (∀ c : Cage, c.cage ≠ cage → (c ∈ t.dev.pw.cages ↔ c ∈ s.dev.pw.cages)) ∧
    cageDark t.dev cage = decide (3 < cls) ∧ (s.dev.on NVS.STATUS.FROZEN = true → t.mem = s.mem) ∧
    (s.dev.on NVS.STATUS.FROZEN = false → s.dev.nvs.run = none → s.Sound → s.dev.nvs.evNext < 1024 →
      s.mem.Stored t.mem (waBase + 0x38000 + 16 * s.dev.nvs.evNext) (leBytes 8 s.dev.nowNs ++
        leBytes 2 (Config.eventCode Ev.cageIn.ctorIdx).toNat ++ leBytes 2 cage ++
        leBytes 4 (evValue .cageIn cage (ident + 256 * media))) ∧ t.dev.nvs.evNext = (s.dev.nvs.evNext + 1) % 1024) ∧
    s.dev.KeepsRegs t.dev [NVS.DIRTY.N, NVS.WR_WAIT_CNT.CNT]) ∧
  (∀ (s : State) (cage : Fin 21), s.dev.up = true →
    ((∀ c ∈ s.dev.pw.cages, c.cage ≠ cage) → Gives (.cageRemove cage) s fun d => d = s.dev) ∧
    ((∃ c ∈ s.dev.pw.cages, c.cage = cage) → Completes (.cageRemove cage) s fun t =>
      (∀ c : Cage, c ∈ t.dev.pw.cages ↔ c ∈ s.dev.pw.cages ∧ c.cage ≠ cage) ∧
      (s.dev.on NVS.STATUS.FROZEN = false → t.dev.nvs.evNext = (s.dev.nvs.evNext + 1) % 1024) ∧
      s.dev.KeepsRegs t.dev [NVS.DIRTY.N, NVS.WR_WAIT_CNT.CNT])) ∧
  ∀ (s : State) (f : CageFlags) (c : Cage), s.dev.up = true → s.dev.pw.cages = [c] →
    (f.cage ≠ c.cage → Gives (.cagePoll [f]) s fun d => d = s.dev) ∧
    (f.cage = c.cage → Completes (.cagePoll [f]) s fun t => t.dev.pw.cages = [{ c with alarms := f.alarms }] ∧
      ((∀ b < 5, bitOf f.alarms b = true → bitOf c.alarms b = true) → t.mem = s.mem ∧ t.dev.regs = s.dev.regs) ∧
      ((∃ b < 5, bitOf f.alarms b = true ∧ bitOf c.alarms b = false) → s.dev.on NVS.STATUS.FROZEN = false →
        t.dev.nvs.evNext = (s.dev.nvs.evNext + 1) % 1024))
end

