-- ==== Sys2Proof/Laws/Memory.lean ====
section
/-! SUPPORT. The data space and the flash: reading back what was written gives it, every other byte reads as before, and every memory
operation keeps the canonical form. -/

namespace Sys2Proof.Machine

/-! ## Reading back -/

theorem cellGet_erase (dflt : Byte) (m : List Host.Cell) (a b : Nat) :
    cellGet (cellErase m a) b dflt = if b = a then dflt else cellGet m b dflt := by
  induction m with
  | nil => simp [cellErase, cellGet]
  | cons x rest ih =>
    obtain ⟨k, v⟩ := x
    unfold cellErase
    by_cases hk : k = a
    · subst hk
      rw [if_pos rfl, ih]
      by_cases hb : b = k
      · simp [hb]
      · simp [hb, cellGet, Ne.symm hb]
    · rw [if_neg hk, cellGet, ih]
      by_cases hb : b = a
      · subst hb; simp [hk]
      · simp [hb, cellGet]

theorem cellGet_put (dflt : Byte) (m : List Host.Cell) (a b : Nat) (v : Byte) :
    cellGet (cellPut m a v) b dflt = if b = a then v else cellGet m b dflt := by
  induction m with
  | nil =>
    by_cases hb : b = a
    · simp [cellPut, cellGet, hb]
    · simp [cellPut, cellGet, hb, Ne.symm hb]
  | cons x rest ih =>
    obtain ⟨k, w⟩ := x
    unfold cellPut
    split
    · by_cases hb : b = a
      · simp [cellGet, hb]
      · simp [cellGet, hb, Ne.symm hb]
    · by_cases hk : k = a
      · subst hk
        rw [if_pos rfl, ih]
        by_cases hb : b = k
        · simp [hb]
        · simp [cellGet, hb, Ne.symm hb]
      · rw [if_neg hk, cellGet, ih]
        by_cases hb : b = a
        · subst hb; simp [hk]
        · simp [cellGet, hb]

/-- A byte reads as last written; every other byte as before. -/
theorem cellGet_set (dflt : Byte) (m : List Host.Cell) (a b : Nat) (v : Byte) :
    cellGet (cellSet m a v dflt) b dflt = if b = a then v else cellGet m b dflt := by
  unfold cellSet
  split
  · rename_i hv; subst hv; exact cellGet_erase _ m a b
  · exact cellGet_put dflt m a b v

/-- A byte outside a write reads as before, one inside as written. -/
theorem Memory.byte_write (m : Memory) (a : Nat) (bs : List Byte) (b : Nat) :
    (m.write a bs).byte b = if a ≤ b ∧ b < a + bs.length then bs.getD (b - a) 0 else m.byte b := by
  induction bs generalizing m a with
  | nil => simp [Memory.write, show ¬(a ≤ b ∧ b < a) by omega]
  | cons x bs ih =>
    rw [Memory.write, ih]
    have hb : (m.setByte a x).byte b = if b = a then x else m.byte b := cellGet_set _ _ a b x
    by_cases h1 : b = a
    · subst h1
      rw [hb, if_pos rfl, if_neg (by omega), if_pos (by simp), Nat.sub_self, List.getD_cons_zero]
    · rw [hb, if_neg h1]
      by_cases h2 : a ≤ b ∧ b < a + (x :: bs).length
      · have h3 : a + 1 ≤ b ∧ b < a + 1 + bs.length := by simp at h2; omega
        rw [if_pos h3, if_pos h2, show b - a = (b - (a + 1)) + 1 by omega]; simp
      · have h3 : ¬(a + 1 ≤ b ∧ b < a + 1 + bs.length) := by simp at h2; omega
        rw [if_neg h3, if_neg h2]

theorem Memory.byte_store (m : Memory) (a : Nat) (bs : List Byte) (b : Nat) :
    (m.store a bs).byte b = if a ≤ b ∧ b < a + bs.length then bs.getD (b - a) 0 else m.byte b := byte_write m a bs b

/-! ## The canonical form -/

/-- Every listed address lies above a bound. -/
def cellsAbove (a : Nat) : List Host.Cell → Prop
  | [] => True
  | (k, _) :: rest => a < k ∧ cellsAbove a rest

theorem cellsAbove_mono {a b : Nat} {m : List Host.Cell} (h : a ≤ b) (hb : cellsAbove b m) : cellsAbove a m := by
  induction m with
  | nil => trivial
  | cons x rest ih => exact ⟨Nat.lt_of_le_of_lt h hb.1, ih hb.2⟩

/-- The canonical form with the bound on the rest spelled out. -/
theorem cellsWf_cons {dflt : Byte} {k : Nat} {v : Byte} {rest : List Host.Cell} :
    cellsWf dflt ((k, v) :: rest) = true ↔ v ≠ dflt ∧ cellsAbove k rest ∧ cellsWf dflt rest = true := by
  induction rest generalizing k v with
  | nil => simp [cellsWf, cellsAbove]
  | cons x rest ih =>
    obtain ⟨k', v'⟩ := x
    simp only [cellsWf, Bool.and_eq_true, decide_eq_true_eq, bne_iff_ne, ne_eq, cellsAbove]
    constructor
    · rintro ⟨⟨h1, h2⟩, h3⟩
      exact ⟨h1, ⟨h2, cellsAbove_mono (Nat.le_of_lt h2) (ih.1 h3).2.1⟩, h3⟩
    · rintro ⟨h1, ⟨h2, -⟩, h3⟩
      exact ⟨⟨h1, h2⟩, h3⟩

theorem cellErase_wf {dflt : Byte} {m : List Host.Cell} (a : Nat) (h : cellsWf dflt m = true) :
    cellsWf dflt (cellErase m a) = true ∧ ∀ b, cellsAbove b m → cellsAbove b (cellErase m a) := by
  induction m with
  | nil => exact ⟨rfl, fun _ h => h⟩
  | cons x rest ih =>
    obtain ⟨k, v⟩ := x
    obtain ⟨h1, h2, h3⟩ := cellsWf_cons.1 h
    obtain ⟨i1, i2⟩ := ih h3
    unfold cellErase
    split
    · exact ⟨i1, fun b hb => i2 b hb.2⟩
    · exact ⟨cellsWf_cons.2 ⟨h1, i2 k h2, i1⟩, fun b hb => ⟨hb.1, i2 b hb.2⟩⟩

theorem cellPut_wf {dflt b : Byte} {m : List Host.Cell} (a : Nat) (hb : b ≠ dflt) (h : cellsWf dflt m = true) :
    cellsWf dflt (cellPut m a b) = true ∧ ∀ c, c < a → cellsAbove c m → cellsAbove c (cellPut m a b) := by
  induction m with
  | nil => exact ⟨by simp [cellPut, cellsWf, hb], fun c hc _ => ⟨hc, trivial⟩⟩
  | cons x rest ih =>
    obtain ⟨k, v⟩ := x
    obtain ⟨h1, h2, h3⟩ := cellsWf_cons.1 h
    obtain ⟨i1, i2⟩ := ih h3
    unfold cellPut
    split
    · rename_i hlt
      exact ⟨cellsWf_cons.2 ⟨hb, ⟨hlt, cellsAbove_mono (Nat.le_of_lt hlt) h2⟩, h⟩, fun c hc hm => ⟨hc, hm⟩⟩
    · split
      · rename_i hlt hk
        exact ⟨i1, fun c hc hm => i2 c hc hm.2⟩
      · rename_i hlt hk
        exact ⟨cellsWf_cons.2 ⟨h1, i2 k (by omega) h2, i1⟩, fun c hc hm => ⟨hm.1, i2 c hc hm.2⟩⟩

/-- Writing a byte keeps the canonical form. -/
theorem cellSet_wf {dflt : Byte} {m : List Host.Cell} (a : Nat) (b : Byte) (h : cellsWf dflt m = true) :
    cellsWf dflt (cellSet m a b dflt) = true := by
  unfold cellSet
  split
  · exact (cellErase_wf a h).1
  · exact (cellPut_wf a ‹_› h).1

/-- Dropping addresses keeps the canonical form. -/
theorem cellFilter_wf {dflt : Byte} {m : List Host.Cell} (p : Host.Cell → Bool) (h : cellsWf dflt m = true) :
    cellsWf dflt (m.filter p) = true ∧ ∀ b, cellsAbove b m → cellsAbove b (m.filter p) := by
  induction m with
  | nil => exact ⟨rfl, fun _ h => h⟩
  | cons x rest ih =>
    obtain ⟨k, v⟩ := x
    obtain ⟨h1, h2, h3⟩ := cellsWf_cons.1 h
    obtain ⟨i1, i2⟩ := ih h3
    rw [List.filter_cons]
    split
    · exact ⟨cellsWf_cons.2 ⟨h1, i2 k h2, i1⟩, fun b hb => ⟨hb.1, i2 b hb.2⟩⟩
    · exact ⟨i1, fun b hb => i2 b hb.2⟩

/-! ## Every memory operation keeps it -/

theorem Memory.wf_iff (m : Memory) : m.wf = true ↔ cellsWf Memory.blank m.bytes = true ∧ cellsWf Memory.erased m.flash = true := by
  simp [Memory.wf]

theorem Memory.setByte_wf {m : Memory} (a : Nat) (b : Byte) (h : m.wf = true) : (m.setByte a b).wf = true := by
  rw [wf_iff] at *; exact ⟨cellSet_wf a b h.1, h.2⟩

theorem Memory.write_wf {m : Memory} (a : Nat) (bs : List Byte) (h : m.wf = true) : (m.write a bs).wf = true := by
  induction bs generalizing m a with
  | nil => exact h
  | cons b bs ih => exact ih (a + 1) (setByte_wf a b h)

theorem Memory.clearChecks_wf {m : Memory} (a n : Nat) (h : m.wf = true) : (m.clearChecks a n).wf = true := h

theorem Memory.store_wf {m : Memory} (a : Nat) (bs : List Byte) (h : m.wf = true) : (m.store a bs).wf = true := write_wf a bs h

theorem Memory.putNum_wf {m : Memory} (a n v : Nat) (h : m.wf = true) : (m.putNum a n v).wf = true := store_wf _ _ h

theorem Memory.put32_wf {m : Memory} (a v : Nat) (h : m.wf = true) : (m.put32 a v).wf = true := store_wf _ _ h

theorem Memory.zero_wf {m : Memory} (a n : Nat) (h : m.wf = true) : (m.zero a n).wf = true := by
  rw [wf_iff] at *; exact ⟨(cellFilter_wf _ h.1).1, h.2⟩

theorem Memory.copy_wf {m : Memory} (dst src n : Nat) (h : m.wf = true) : (m.copy dst src n).wf = true := store_wf _ _ h

theorem Memory.fwrite_wf {m : Memory} (a : Nat) (bs : List Byte) (h : m.wf = true) : (m.fwrite a bs).wf = true := by
  induction bs generalizing m a with
  | nil => exact h
  | cons b bs ih => exact ih (a + 1) (by rw [wf_iff] at *; exact ⟨h.1, cellSet_wf a b h.2⟩)

theorem Memory.ferase_wf {m : Memory} (a n : Nat) (h : m.wf = true) : (m.ferase a n).wf = true := by
  rw [wf_iff] at *; exact ⟨h.1, (cellFilter_wf _ h.2).1⟩

theorem Memory.setPoison_wf {m : Memory} (a : Nat) (h : m.wf = true) : (m.setPoison a).wf = true := h

theorem Memory.fixWord_wf {m : Memory} (a : Nat) (h : m.wf = true) : (m.fixWord a).wf = true := by
  unfold Memory.fixWord; split <;> first | exact putNum_wf _ _ _ h | exact h

theorem Memory.flip_wf {m : Memory} (a f : Nat) (h : m.wf = true) : (m.flip a f).wf = true := by
  unfold Memory.flip; dsimp only; split <;> exact write_wf _ _ h

theorem Memory.restore_wf {m : Memory} (old : Memory) (w : Nat) (h : m.wf = true) : (m.restore old w).wf = true :=
  write_wf w (old.take w 8) h

theorem Memory.foldl_wf {α : Type} {g : Memory → α → Memory} (hg : ∀ m a, m.wf = true → (g m a).wf = true) (l : List α) {m : Memory}
    (h : m.wf = true) : (l.foldl g m).wf = true := by
  induction l generalizing m with
  | nil => exact h
  | cons a l ih => exact ih (hg m a h)

theorem Memory.merge_wf {m : Memory} (a : Nat) (bs : List Byte) (h : m.wf = true) : (m.merge a bs).wf = true := by
  unfold Memory.merge
  split
  · exact store_wf a bs h
  · exact foldl_wf (fun _ w hq => restore_wf _ w hq) _ (store_wf a bs (foldl_wf (fun _ w hq => fixWord_wf w hq) _ h))

/-- Where no word reads otherwise than its code, a write of any length stores its bytes. -/
theorem Memory.merge_eq_store {m : Memory} (a : Nat) (bs : List Byte) (h : m.checks = []) : m.merge a bs = m.store a bs := by
  simp [Memory.merge, h]

theorem Memory.powerLoss_wf {m : Memory} (h : m.wf = true) : m.powerLoss.wf = true := by
  rw [wf_iff] at *; exact ⟨(cellFilter_wf _ h.1).1, h.2⟩

theorem hbmLost_wf {m : Memory} (h : m.wf = true) : (hbmLost m).wf = true := by
  rw [Memory.wf_iff] at *; exact ⟨(cellFilter_wf _ h.1).1, h.2⟩

/-- The memory right after reset is in canonical form. -/
theorem State.reset_wf : State.reset.mem.wf = true := rfl

end Sys2Proof.Machine
end

