-- ==== Sys2Proof/Laws/Regs.lean ====
section
/-! SUPPORT. The register file: a field reads as last written, every other field as before. -/

namespace Sys2Proof.Machine

theorem RegFile.get_put (r : RegFile) (k k' v d : Nat) : (r.put k v).get k' d = if k' = k then v else r.get k' d := by
  induction r with
  | nil =>
    by_cases h : k' = k
    · simp [RegFile.put, RegFile.get, h]
    · simp [RegFile.put, RegFile.get, h, Ne.symm h]
  | cons x rest ih =>
    obtain ⟨j, w⟩ := x
    unfold RegFile.put
    split
    · by_cases h : k' = k
      · simp [RegFile.get, h]
      · simp [RegFile.get, h, Ne.symm h]
    · by_cases hj : j = k
      · subst hj
        rw [if_pos rfl, ih]
        by_cases h : k' = j
        · simp [h]
        · simp [RegFile.get, h, Ne.symm h]
      · rw [if_neg hj, RegFile.get, ih]
        by_cases h : k' = k
        · subst h; simp [hj]
        · simp [RegFile.get, h]

theorem RegFile.get_erase (r : RegFile) (k k' d : Nat) : (r.erase k).get k' d = if k' = k then d else r.get k' d := by
  induction r with
  | nil => simp [RegFile.erase, RegFile.get]
  | cons x rest ih =>
    obtain ⟨j, w⟩ := x
    unfold RegFile.erase
    by_cases hj : j = k
    · subst hj
      rw [if_pos rfl, ih]
      by_cases h : k' = j
      · simp [h]
      · simp [RegFile.get, h, Ne.symm h]
    · rw [if_neg hj, RegFile.get, ih]
      by_cases h : k' = k
      · subst h; simp [hj]
      · simp [RegFile.get, h]

/-- A key reads as last set; every other key as before. -/
theorem RegFile.get_set (r : RegFile) (k k' v d d' : Nat) :
    (r.set k v d).get k' d' = if k' = k then (if v = d then d' else v) else r.get k' d' := by
  unfold RegFile.set
  split
  · rw [RegFile.get_erase]
  · rw [RegFile.get_put]

/-! ## Fields -/

/-- A field reads as last written, at its width. -/
@[simp] theorem Dev.rd_wr_same (d : Dev) (f : Fld) (v : Nat) : (d.wr f v).rd f = v % 2 ^ f.width := by
  simp only [Dev.rd, Dev.wr, RegFile.get_set, if_true]
  split <;> simp_all

/-- Every other field reads as before. -/
theorem Dev.rd_wr_other (d : Dev) (f g : Fld) (v : Nat) (hk : g.key ≠ f.key) : (d.wr f v).rd g = d.rd g := by
  simp [Dev.rd, Dev.wr, RegFile.get_set, hk]

theorem Dev.rd_addCnt_same (d : Dev) (f : Fld) (n : Nat) : (d.addCnt f n).rd f = min (d.rd f + n) (2 ^ f.width - 1) := by
  rw [Dev.addCnt, Dev.wrSat, Dev.rd_wr_same, Nat.mod_eq_of_lt]
  have := Nat.two_pow_pos f.width
  omega

theorem Dev.rd_addCnt_other (d : Dev) (f g : Fld) (n : Nat) (hk : g.key ≠ f.key) : (d.addCnt f n).rd g = d.rd g :=
  Dev.rd_wr_other _ _ _ _ hk

/-- One page's IRQ_RAW and its error counter are all that an event changes. -/
theorem Dev.rd_irq_other (d : Dev) (p b : Nat) (g : Fld) (h1 : g.key ≠ (Com.IRQ_RAW p).key) (h2 : g.key ≠ (Com.ERR_CNT p).key) :
    (d.irq p b).rd g = d.rd g := by
  unfold Dev.irq
  split
  · split
    · rw [Dev.inc, Dev.rd_addCnt_other _ _ _ _ h2, Dev.rd_wr_other _ _ _ _ h1]
    · exact Dev.rd_wr_other _ _ _ _ h1
  · exact Dev.rd_wr_other _ _ _ _ h1

end Sys2Proof.Machine
end

