-- ==== Sys2Proof/Laws/State.lean ====
section
/-! SUPPORT. One lemma per field per update of the device, true by rfl: an update leaves every other field as it was. -/

namespace Sys2Proof.Machine

variable (d : Dev)

/-! `Dev.wr` changes `regs` alone. -/

@[simp] theorem Dev.wr_time (f : Fld) (v : Nat) : (d.wr f v).time = d.time := rfl
@[simp] theorem Dev.wr_gen (f : Fld) (v : Nat) : (d.wr f v).gen = d.gen := rfl
@[simp] theorem Dev.wr_ep (f : Fld) (v : Nat) : (d.wr f v).ep = d.ep := rfl
@[simp] theorem Dev.wr_snap (f : Fld) (v : Nat) : (d.wr f v).snap = d.snap := rfl
@[simp] theorem Dev.wr_locks (f : Fld) (v : Nat) : (d.wr f v).locks = d.locks := rfl
@[simp] theorem Dev.wr_marks (f : Fld) (v : Nat) : (d.wr f v).marks = d.marks := rfl
@[simp] theorem Dev.wr_enc (f : Fld) (v : Nat) : (d.wr f v).enc = d.enc := rfl
@[simp] theorem Dev.wr_ports (f : Fld) (v : Nat) : (d.wr f v).ports = d.ports := rfl
@[simp] theorem Dev.wr_pipes (f : Fld) (v : Nat) : (d.wr f v).pipes = d.pipes := rfl
@[simp] theorem Dev.wr_corr (f : Fld) (v : Nat) : (d.wr f v).corr = d.corr := rfl
@[simp] theorem Dev.wr_zeroX (f : Fld) (v : Nat) : (d.wr f v).zeroX = d.zeroX := rfl
@[simp] theorem Dev.wr_freeCtr (f : Fld) (v : Nat) : (d.wr f v).freeCtr = d.freeCtr := rfl
@[simp] theorem Dev.wr_out (f : Fld) (v : Nat) : (d.wr f v).out = d.out := rfl
@[simp] theorem Dev.wr_ringSlot (f : Fld) (v : Nat) : (d.wr f v).ringSlot = d.ringSlot := rfl
@[simp] theorem Dev.wr_errLog (f : Fld) (v : Nat) : (d.wr f v).errLog = d.errLog := rfl
@[simp] theorem Dev.wr_nvs (f : Fld) (v : Nat) : (d.wr f v).nvs = d.nvs := rfl
@[simp] theorem Dev.wr_integ (f : Fld) (v : Nat) : (d.wr f v).integ = d.integ := rfl
@[simp] theorem Dev.wr_stitch (f : Fld) (v : Nat) : (d.wr f v).stitch = d.stitch := rfl
@[simp] theorem Dev.wr_heads (f : Fld) (v : Nat) : (d.wr f v).heads = d.heads := rfl
@[simp] theorem Dev.wr_padcTimes (f : Fld) (v : Nat) : (d.wr f v).padcTimes = d.padcTimes := rfl
@[simp] theorem Dev.wr_tags (f : Fld) (v : Nat) : (d.wr f v).tags = d.tags := rfl
@[simp] theorem Dev.wr_mark (f : Fld) (v : Nat) : (d.wr f v).mark = d.mark := rfl
@[simp] theorem Dev.wr_valves (f : Fld) (v : Nat) : (d.wr f v).valves = d.valves := rfl
@[simp] theorem Dev.wr_seg (f : Fld) (v : Nat) : (d.wr f v).seg = d.seg := rfl
@[simp] theorem Dev.wr_arch (f : Fld) (v : Nat) : (d.wr f v).arch = d.arch := rfl
@[simp] theorem Dev.wr_host (f : Fld) (v : Nat) : (d.wr f v).host = d.host := rfl
@[simp] theorem Dev.wr_padc (f : Fld) (v : Nat) : (d.wr f v).padc = d.padc := rfl
@[simp] theorem Dev.wr_temp (f : Fld) (v : Nat) : (d.wr f v).temp = d.temp := rfl
@[simp] theorem Dev.wr_pw (f : Fld) (v : Nat) : (d.wr f v).pw = d.pw := rfl
@[simp] theorem Dev.wr_prof (f : Fld) (v : Nat) : (d.wr f v).prof = d.prof := rfl
@[simp] theorem Dev.wr_twin (f : Fld) (v : Nat) : (d.wr f v).twin = d.twin := rfl
@[simp] theorem Dev.wr_ring (f : Fld) (v : Nat) : (d.wr f v).ring = d.ring := rfl
@[simp] theorem Dev.wr_spi (f : Fld) (v : Nat) : (d.wr f v).spi = d.spi := rfl

/-! `Dev.emit` changes `out` alone. -/

@[simp] theorem Dev.emit_regs (o : Out) : (d.emit o).regs = d.regs := rfl
@[simp] theorem Dev.emit_time (o : Out) : (d.emit o).time = d.time := rfl
@[simp] theorem Dev.emit_gen (o : Out) : (d.emit o).gen = d.gen := rfl
@[simp] theorem Dev.emit_ep (o : Out) : (d.emit o).ep = d.ep := rfl
@[simp] theorem Dev.emit_snap (o : Out) : (d.emit o).snap = d.snap := rfl
@[simp] theorem Dev.emit_locks (o : Out) : (d.emit o).locks = d.locks := rfl
@[simp] theorem Dev.emit_marks (o : Out) : (d.emit o).marks = d.marks := rfl
@[simp] theorem Dev.emit_enc (o : Out) : (d.emit o).enc = d.enc := rfl
@[simp] theorem Dev.emit_ports (o : Out) : (d.emit o).ports = d.ports := rfl
@[simp] theorem Dev.emit_pipes (o : Out) : (d.emit o).pipes = d.pipes := rfl
@[simp] theorem Dev.emit_corr (o : Out) : (d.emit o).corr = d.corr := rfl
@[simp] theorem Dev.emit_zeroX (o : Out) : (d.emit o).zeroX = d.zeroX := rfl
@[simp] theorem Dev.emit_freeCtr (o : Out) : (d.emit o).freeCtr = d.freeCtr := rfl
@[simp] theorem Dev.emit_ringSlot (o : Out) : (d.emit o).ringSlot = d.ringSlot := rfl
@[simp] theorem Dev.emit_errLog (o : Out) : (d.emit o).errLog = d.errLog := rfl
@[simp] theorem Dev.emit_nvs (o : Out) : (d.emit o).nvs = d.nvs := rfl
@[simp] theorem Dev.emit_integ (o : Out) : (d.emit o).integ = d.integ := rfl
@[simp] theorem Dev.emit_stitch (o : Out) : (d.emit o).stitch = d.stitch := rfl
@[simp] theorem Dev.emit_heads (o : Out) : (d.emit o).heads = d.heads := rfl
@[simp] theorem Dev.emit_padcTimes (o : Out) : (d.emit o).padcTimes = d.padcTimes := rfl
@[simp] theorem Dev.emit_tags (o : Out) : (d.emit o).tags = d.tags := rfl
@[simp] theorem Dev.emit_mark (o : Out) : (d.emit o).mark = d.mark := rfl
@[simp] theorem Dev.emit_valves (o : Out) : (d.emit o).valves = d.valves := rfl
@[simp] theorem Dev.emit_seg (o : Out) : (d.emit o).seg = d.seg := rfl
@[simp] theorem Dev.emit_arch (o : Out) : (d.emit o).arch = d.arch := rfl
@[simp] theorem Dev.emit_host (o : Out) : (d.emit o).host = d.host := rfl
@[simp] theorem Dev.emit_padc (o : Out) : (d.emit o).padc = d.padc := rfl
@[simp] theorem Dev.emit_temp (o : Out) : (d.emit o).temp = d.temp := rfl
@[simp] theorem Dev.emit_pw (o : Out) : (d.emit o).pw = d.pw := rfl
@[simp] theorem Dev.emit_prof (o : Out) : (d.emit o).prof = d.prof := rfl
@[simp] theorem Dev.emit_twin (o : Out) : (d.emit o).twin = d.twin := rfl
@[simp] theorem Dev.emit_ring (o : Out) : (d.emit o).ring = d.ring := rfl
@[simp] theorem Dev.emit_spi (o : Out) : (d.emit o).spi = d.spi := rfl
@[simp] theorem Dev.emit_out (o : Out) : (d.emit o).out = o :: d.out := rfl

/-! `Dev.start` changes `marks` alone. -/

@[simp] theorem Dev.start_regs (t : Timer) : (d.start t).regs = d.regs := rfl
@[simp] theorem Dev.start_time (t : Timer) : (d.start t).time = d.time := rfl
@[simp] theorem Dev.start_gen (t : Timer) : (d.start t).gen = d.gen := rfl
@[simp] theorem Dev.start_ep (t : Timer) : (d.start t).ep = d.ep := rfl
@[simp] theorem Dev.start_snap (t : Timer) : (d.start t).snap = d.snap := rfl
@[simp] theorem Dev.start_locks (t : Timer) : (d.start t).locks = d.locks := rfl
@[simp] theorem Dev.start_enc (t : Timer) : (d.start t).enc = d.enc := rfl
@[simp] theorem Dev.start_ports (t : Timer) : (d.start t).ports = d.ports := rfl
@[simp] theorem Dev.start_pipes (t : Timer) : (d.start t).pipes = d.pipes := rfl
@[simp] theorem Dev.start_corr (t : Timer) : (d.start t).corr = d.corr := rfl
@[simp] theorem Dev.start_zeroX (t : Timer) : (d.start t).zeroX = d.zeroX := rfl
@[simp] theorem Dev.start_freeCtr (t : Timer) : (d.start t).freeCtr = d.freeCtr := rfl
@[simp] theorem Dev.start_out (t : Timer) : (d.start t).out = d.out := rfl
@[simp] theorem Dev.start_ringSlot (t : Timer) : (d.start t).ringSlot = d.ringSlot := rfl
@[simp] theorem Dev.start_errLog (t : Timer) : (d.start t).errLog = d.errLog := rfl
@[simp] theorem Dev.start_nvs (t : Timer) : (d.start t).nvs = d.nvs := rfl
@[simp] theorem Dev.start_integ (t : Timer) : (d.start t).integ = d.integ := rfl
@[simp] theorem Dev.start_stitch (t : Timer) : (d.start t).stitch = d.stitch := rfl
@[simp] theorem Dev.start_heads (t : Timer) : (d.start t).heads = d.heads := rfl
@[simp] theorem Dev.start_padcTimes (t : Timer) : (d.start t).padcTimes = d.padcTimes := rfl
@[simp] theorem Dev.start_tags (t : Timer) : (d.start t).tags = d.tags := rfl
@[simp] theorem Dev.start_mark (t : Timer) : (d.start t).mark = d.mark := rfl
@[simp] theorem Dev.start_valves (t : Timer) : (d.start t).valves = d.valves := rfl
@[simp] theorem Dev.start_seg (t : Timer) : (d.start t).seg = d.seg := rfl
@[simp] theorem Dev.start_arch (t : Timer) : (d.start t).arch = d.arch := rfl
@[simp] theorem Dev.start_host (t : Timer) : (d.start t).host = d.host := rfl
@[simp] theorem Dev.start_padc (t : Timer) : (d.start t).padc = d.padc := rfl
@[simp] theorem Dev.start_temp (t : Timer) : (d.start t).temp = d.temp := rfl
@[simp] theorem Dev.start_pw (t : Timer) : (d.start t).pw = d.pw := rfl
@[simp] theorem Dev.start_prof (t : Timer) : (d.start t).prof = d.prof := rfl
@[simp] theorem Dev.start_twin (t : Timer) : (d.start t).twin = d.twin := rfl
@[simp] theorem Dev.start_ring (t : Timer) : (d.start t).ring = d.ring := rfl
@[simp] theorem Dev.start_spi (t : Timer) : (d.start t).spi = d.spi := rfl
@[simp] theorem Dev.start_rd (t : Timer) (f : Fld) : (d.start t).rd f = d.rd f := rfl

/-- An interval that starts now has passed only when it has no length. -/
theorem Dev.past_start (t : Timer) (n : Nat) : (d.start t).past t n = decide (n = 0) := by
  simp only [Dev.past, Dev.start, Dev.now, List.find?_cons, beq_self_eq_true, Option.elim_some]
  exact decide_eq_decide.2 (by omega)

/-- Another interval is measured as before. -/
theorem Dev.past_start_other (t u : Timer) (n : Nat) (h : u ≠ t) : (d.start t).past u n = d.past u n := by
  have ht : (t == u) = false := beq_eq_false_iff_ne.2 (Ne.symm h)
  simp only [Dev.past, Dev.start, Dev.now, List.find?_cons, ht, List.find?_filter]
  congr 2
  funext q
  by_cases hq : q.1 = u
  · simp [hq, h]
  · simp [hq]

/-! `Dev.stop` changes `marks` alone. -/

@[simp] theorem Dev.stop_regs (t : Timer) : (d.stop t).regs = d.regs := rfl
@[simp] theorem Dev.stop_time (t : Timer) : (d.stop t).time = d.time := rfl
@[simp] theorem Dev.stop_gen (t : Timer) : (d.stop t).gen = d.gen := rfl
@[simp] theorem Dev.stop_ep (t : Timer) : (d.stop t).ep = d.ep := rfl
@[simp] theorem Dev.stop_snap (t : Timer) : (d.stop t).snap = d.snap := rfl
@[simp] theorem Dev.stop_locks (t : Timer) : (d.stop t).locks = d.locks := rfl
@[simp] theorem Dev.stop_enc (t : Timer) : (d.stop t).enc = d.enc := rfl
@[simp] theorem Dev.stop_ports (t : Timer) : (d.stop t).ports = d.ports := rfl
@[simp] theorem Dev.stop_pipes (t : Timer) : (d.stop t).pipes = d.pipes := rfl
@[simp] theorem Dev.stop_corr (t : Timer) : (d.stop t).corr = d.corr := rfl
@[simp] theorem Dev.stop_zeroX (t : Timer) : (d.stop t).zeroX = d.zeroX := rfl
@[simp] theorem Dev.stop_freeCtr (t : Timer) : (d.stop t).freeCtr = d.freeCtr := rfl
@[simp] theorem Dev.stop_out (t : Timer) : (d.stop t).out = d.out := rfl
@[simp] theorem Dev.stop_ringSlot (t : Timer) : (d.stop t).ringSlot = d.ringSlot := rfl
@[simp] theorem Dev.stop_errLog (t : Timer) : (d.stop t).errLog = d.errLog := rfl
@[simp] theorem Dev.stop_nvs (t : Timer) : (d.stop t).nvs = d.nvs := rfl
@[simp] theorem Dev.stop_integ (t : Timer) : (d.stop t).integ = d.integ := rfl
@[simp] theorem Dev.stop_stitch (t : Timer) : (d.stop t).stitch = d.stitch := rfl
@[simp] theorem Dev.stop_heads (t : Timer) : (d.stop t).heads = d.heads := rfl
@[simp] theorem Dev.stop_padcTimes (t : Timer) : (d.stop t).padcTimes = d.padcTimes := rfl
@[simp] theorem Dev.stop_tags (t : Timer) : (d.stop t).tags = d.tags := rfl
@[simp] theorem Dev.stop_mark (t : Timer) : (d.stop t).mark = d.mark := rfl
@[simp] theorem Dev.stop_valves (t : Timer) : (d.stop t).valves = d.valves := rfl
@[simp] theorem Dev.stop_seg (t : Timer) : (d.stop t).seg = d.seg := rfl
@[simp] theorem Dev.stop_arch (t : Timer) : (d.stop t).arch = d.arch := rfl
@[simp] theorem Dev.stop_host (t : Timer) : (d.stop t).host = d.host := rfl
@[simp] theorem Dev.stop_padc (t : Timer) : (d.stop t).padc = d.padc := rfl
@[simp] theorem Dev.stop_temp (t : Timer) : (d.stop t).temp = d.temp := rfl
@[simp] theorem Dev.stop_pw (t : Timer) : (d.stop t).pw = d.pw := rfl
@[simp] theorem Dev.stop_prof (t : Timer) : (d.stop t).prof = d.prof := rfl
@[simp] theorem Dev.stop_twin (t : Timer) : (d.stop t).twin = d.twin := rfl
@[simp] theorem Dev.stop_ring (t : Timer) : (d.stop t).ring = d.ring := rfl
@[simp] theorem Dev.stop_spi (t : Timer) : (d.stop t).spi = d.spi := rfl
@[simp] theorem Dev.stop_rd (t : Timer) (f : Fld) : (d.stop t).rd f = d.rd f := rfl

/-! `Dev.updEnc` changes `enc` alone. -/

@[simp] theorem Dev.updEnc_regs (n : Fin 4) (g : EncCh → EncCh) : (d.updEnc n g).regs = d.regs := rfl
@[simp] theorem Dev.updEnc_time (n : Fin 4) (g : EncCh → EncCh) : (d.updEnc n g).time = d.time := rfl
@[simp] theorem Dev.updEnc_gen (n : Fin 4) (g : EncCh → EncCh) : (d.updEnc n g).gen = d.gen := rfl
@[simp] theorem Dev.updEnc_ep (n : Fin 4) (g : EncCh → EncCh) : (d.updEnc n g).ep = d.ep := rfl
@[simp] theorem Dev.updEnc_snap (n : Fin 4) (g : EncCh → EncCh) : (d.updEnc n g).snap = d.snap := rfl
@[simp] theorem Dev.updEnc_locks (n : Fin 4) (g : EncCh → EncCh) : (d.updEnc n g).locks = d.locks := rfl
@[simp] theorem Dev.updEnc_marks (n : Fin 4) (g : EncCh → EncCh) : (d.updEnc n g).marks = d.marks := rfl
@[simp] theorem Dev.updEnc_ports (n : Fin 4) (g : EncCh → EncCh) : (d.updEnc n g).ports = d.ports := rfl
@[simp] theorem Dev.updEnc_pipes (n : Fin 4) (g : EncCh → EncCh) : (d.updEnc n g).pipes = d.pipes := rfl
@[simp] theorem Dev.updEnc_corr (n : Fin 4) (g : EncCh → EncCh) : (d.updEnc n g).corr = d.corr := rfl
@[simp] theorem Dev.updEnc_zeroX (n : Fin 4) (g : EncCh → EncCh) : (d.updEnc n g).zeroX = d.zeroX := rfl
@[simp] theorem Dev.updEnc_freeCtr (n : Fin 4) (g : EncCh → EncCh) : (d.updEnc n g).freeCtr = d.freeCtr := rfl
@[simp] theorem Dev.updEnc_out (n : Fin 4) (g : EncCh → EncCh) : (d.updEnc n g).out = d.out := rfl
@[simp] theorem Dev.updEnc_ringSlot (n : Fin 4) (g : EncCh → EncCh) : (d.updEnc n g).ringSlot = d.ringSlot := rfl
@[simp] theorem Dev.updEnc_errLog (n : Fin 4) (g : EncCh → EncCh) : (d.updEnc n g).errLog = d.errLog := rfl
@[simp] theorem Dev.updEnc_nvs (n : Fin 4) (g : EncCh → EncCh) : (d.updEnc n g).nvs = d.nvs := rfl
@[simp] theorem Dev.updEnc_integ (n : Fin 4) (g : EncCh → EncCh) : (d.updEnc n g).integ = d.integ := rfl
@[simp] theorem Dev.updEnc_stitch (n : Fin 4) (g : EncCh → EncCh) : (d.updEnc n g).stitch = d.stitch := rfl
@[simp] theorem Dev.updEnc_heads (n : Fin 4) (g : EncCh → EncCh) : (d.updEnc n g).heads = d.heads := rfl
@[simp] theorem Dev.updEnc_padcTimes (n : Fin 4) (g : EncCh → EncCh) : (d.updEnc n g).padcTimes = d.padcTimes := rfl
@[simp] theorem Dev.updEnc_tags (n : Fin 4) (g : EncCh → EncCh) : (d.updEnc n g).tags = d.tags := rfl
@[simp] theorem Dev.updEnc_mark (n : Fin 4) (g : EncCh → EncCh) : (d.updEnc n g).mark = d.mark := rfl
@[simp] theorem Dev.updEnc_valves (n : Fin 4) (g : EncCh → EncCh) : (d.updEnc n g).valves = d.valves := rfl
@[simp] theorem Dev.updEnc_seg (n : Fin 4) (g : EncCh → EncCh) : (d.updEnc n g).seg = d.seg := rfl
@[simp] theorem Dev.updEnc_arch (n : Fin 4) (g : EncCh → EncCh) : (d.updEnc n g).arch = d.arch := rfl
@[simp] theorem Dev.updEnc_host (n : Fin 4) (g : EncCh → EncCh) : (d.updEnc n g).host = d.host := rfl
@[simp] theorem Dev.updEnc_padc (n : Fin 4) (g : EncCh → EncCh) : (d.updEnc n g).padc = d.padc := rfl
@[simp] theorem Dev.updEnc_temp (n : Fin 4) (g : EncCh → EncCh) : (d.updEnc n g).temp = d.temp := rfl
@[simp] theorem Dev.updEnc_pw (n : Fin 4) (g : EncCh → EncCh) : (d.updEnc n g).pw = d.pw := rfl
@[simp] theorem Dev.updEnc_prof (n : Fin 4) (g : EncCh → EncCh) : (d.updEnc n g).prof = d.prof := rfl
@[simp] theorem Dev.updEnc_twin (n : Fin 4) (g : EncCh → EncCh) : (d.updEnc n g).twin = d.twin := rfl
@[simp] theorem Dev.updEnc_ring (n : Fin 4) (g : EncCh → EncCh) : (d.updEnc n g).ring = d.ring := rfl
@[simp] theorem Dev.updEnc_spi (n : Fin 4) (g : EncCh → EncCh) : (d.updEnc n g).spi = d.spi := rfl

/-! `Dev.updPort` changes `ports` alone. -/

@[simp] theorem Dev.updPort_regs (n : Fin 16) (g : Port → Port) : (d.updPort n g).regs = d.regs := rfl
@[simp] theorem Dev.updPort_time (n : Fin 16) (g : Port → Port) : (d.updPort n g).time = d.time := rfl
@[simp] theorem Dev.updPort_gen (n : Fin 16) (g : Port → Port) : (d.updPort n g).gen = d.gen := rfl
@[simp] theorem Dev.updPort_ep (n : Fin 16) (g : Port → Port) : (d.updPort n g).ep = d.ep := rfl
@[simp] theorem Dev.updPort_snap (n : Fin 16) (g : Port → Port) : (d.updPort n g).snap = d.snap := rfl
@[simp] theorem Dev.updPort_locks (n : Fin 16) (g : Port → Port) : (d.updPort n g).locks = d.locks := rfl
@[simp] theorem Dev.updPort_marks (n : Fin 16) (g : Port → Port) : (d.updPort n g).marks = d.marks := rfl
@[simp] theorem Dev.updPort_enc (n : Fin 16) (g : Port → Port) : (d.updPort n g).enc = d.enc := rfl
@[simp] theorem Dev.updPort_pipes (n : Fin 16) (g : Port → Port) : (d.updPort n g).pipes = d.pipes := rfl
@[simp] theorem Dev.updPort_corr (n : Fin 16) (g : Port → Port) : (d.updPort n g).corr = d.corr := rfl
@[simp] theorem Dev.updPort_zeroX (n : Fin 16) (g : Port → Port) : (d.updPort n g).zeroX = d.zeroX := rfl
@[simp] theorem Dev.updPort_freeCtr (n : Fin 16) (g : Port → Port) : (d.updPort n g).freeCtr = d.freeCtr := rfl
@[simp] theorem Dev.updPort_out (n : Fin 16) (g : Port → Port) : (d.updPort n g).out = d.out := rfl
@[simp] theorem Dev.updPort_ringSlot (n : Fin 16) (g : Port → Port) : (d.updPort n g).ringSlot = d.ringSlot := rfl
@[simp] theorem Dev.updPort_errLog (n : Fin 16) (g : Port → Port) : (d.updPort n g).errLog = d.errLog := rfl
@[simp] theorem Dev.updPort_nvs (n : Fin 16) (g : Port → Port) : (d.updPort n g).nvs = d.nvs := rfl
@[simp] theorem Dev.updPort_integ (n : Fin 16) (g : Port → Port) : (d.updPort n g).integ = d.integ := rfl
@[simp] theorem Dev.updPort_stitch (n : Fin 16) (g : Port → Port) : (d.updPort n g).stitch = d.stitch := rfl
@[simp] theorem Dev.updPort_heads (n : Fin 16) (g : Port → Port) : (d.updPort n g).heads = d.heads := rfl
@[simp] theorem Dev.updPort_padcTimes (n : Fin 16) (g : Port → Port) : (d.updPort n g).padcTimes = d.padcTimes := rfl
@[simp] theorem Dev.updPort_tags (n : Fin 16) (g : Port → Port) : (d.updPort n g).tags = d.tags := rfl
@[simp] theorem Dev.updPort_mark (n : Fin 16) (g : Port → Port) : (d.updPort n g).mark = d.mark := rfl
@[simp] theorem Dev.updPort_valves (n : Fin 16) (g : Port → Port) : (d.updPort n g).valves = d.valves := rfl
@[simp] theorem Dev.updPort_seg (n : Fin 16) (g : Port → Port) : (d.updPort n g).seg = d.seg := rfl
@[simp] theorem Dev.updPort_arch (n : Fin 16) (g : Port → Port) : (d.updPort n g).arch = d.arch := rfl
@[simp] theorem Dev.updPort_host (n : Fin 16) (g : Port → Port) : (d.updPort n g).host = d.host := rfl
@[simp] theorem Dev.updPort_padc (n : Fin 16) (g : Port → Port) : (d.updPort n g).padc = d.padc := rfl
@[simp] theorem Dev.updPort_temp (n : Fin 16) (g : Port → Port) : (d.updPort n g).temp = d.temp := rfl
@[simp] theorem Dev.updPort_pw (n : Fin 16) (g : Port → Port) : (d.updPort n g).pw = d.pw := rfl
@[simp] theorem Dev.updPort_prof (n : Fin 16) (g : Port → Port) : (d.updPort n g).prof = d.prof := rfl
@[simp] theorem Dev.updPort_twin (n : Fin 16) (g : Port → Port) : (d.updPort n g).twin = d.twin := rfl
@[simp] theorem Dev.updPort_ring (n : Fin 16) (g : Port → Port) : (d.updPort n g).ring = d.ring := rfl
@[simp] theorem Dev.updPort_spi (n : Fin 16) (g : Port → Port) : (d.updPort n g).spi = d.spi := rfl

/-! `Dev.updPipe` changes `pipes` alone. -/

@[simp] theorem Dev.updPipe_regs (n : Fin 8) (g : Pipe → Pipe) : (d.updPipe n g).regs = d.regs := rfl
@[simp] theorem Dev.updPipe_time (n : Fin 8) (g : Pipe → Pipe) : (d.updPipe n g).time = d.time := rfl
@[simp] theorem Dev.updPipe_gen (n : Fin 8) (g : Pipe → Pipe) : (d.updPipe n g).gen = d.gen := rfl
@[simp] theorem Dev.updPipe_ep (n : Fin 8) (g : Pipe → Pipe) : (d.updPipe n g).ep = d.ep := rfl
@[simp] theorem Dev.updPipe_snap (n : Fin 8) (g : Pipe → Pipe) : (d.updPipe n g).snap = d.snap := rfl
@[simp] theorem Dev.updPipe_locks (n : Fin 8) (g : Pipe → Pipe) : (d.updPipe n g).locks = d.locks := rfl
@[simp] theorem Dev.updPipe_marks (n : Fin 8) (g : Pipe → Pipe) : (d.updPipe n g).marks = d.marks := rfl
@[simp] theorem Dev.updPipe_enc (n : Fin 8) (g : Pipe → Pipe) : (d.updPipe n g).enc = d.enc := rfl
@[simp] theorem Dev.updPipe_ports (n : Fin 8) (g : Pipe → Pipe) : (d.updPipe n g).ports = d.ports := rfl
@[simp] theorem Dev.updPipe_corr (n : Fin 8) (g : Pipe → Pipe) : (d.updPipe n g).corr = d.corr := rfl
@[simp] theorem Dev.updPipe_zeroX (n : Fin 8) (g : Pipe → Pipe) : (d.updPipe n g).zeroX = d.zeroX := rfl
@[simp] theorem Dev.updPipe_freeCtr (n : Fin 8) (g : Pipe → Pipe) : (d.updPipe n g).freeCtr = d.freeCtr := rfl
@[simp] theorem Dev.updPipe_out (n : Fin 8) (g : Pipe → Pipe) : (d.updPipe n g).out = d.out := rfl
@[simp] theorem Dev.updPipe_ringSlot (n : Fin 8) (g : Pipe → Pipe) : (d.updPipe n g).ringSlot = d.ringSlot := rfl
@[simp] theorem Dev.updPipe_errLog (n : Fin 8) (g : Pipe → Pipe) : (d.updPipe n g).errLog = d.errLog := rfl
@[simp] theorem Dev.updPipe_nvs (n : Fin 8) (g : Pipe → Pipe) : (d.updPipe n g).nvs = d.nvs := rfl
@[simp] theorem Dev.updPipe_integ (n : Fin 8) (g : Pipe → Pipe) : (d.updPipe n g).integ = d.integ := rfl
@[simp] theorem Dev.updPipe_stitch (n : Fin 8) (g : Pipe → Pipe) : (d.updPipe n g).stitch = d.stitch := rfl
@[simp] theorem Dev.updPipe_heads (n : Fin 8) (g : Pipe → Pipe) : (d.updPipe n g).heads = d.heads := rfl
@[simp] theorem Dev.updPipe_padcTimes (n : Fin 8) (g : Pipe → Pipe) : (d.updPipe n g).padcTimes = d.padcTimes := rfl
@[simp] theorem Dev.updPipe_tags (n : Fin 8) (g : Pipe → Pipe) : (d.updPipe n g).tags = d.tags := rfl
@[simp] theorem Dev.updPipe_mark (n : Fin 8) (g : Pipe → Pipe) : (d.updPipe n g).mark = d.mark := rfl
@[simp] theorem Dev.updPipe_valves (n : Fin 8) (g : Pipe → Pipe) : (d.updPipe n g).valves = d.valves := rfl
@[simp] theorem Dev.updPipe_seg (n : Fin 8) (g : Pipe → Pipe) : (d.updPipe n g).seg = d.seg := rfl
@[simp] theorem Dev.updPipe_arch (n : Fin 8) (g : Pipe → Pipe) : (d.updPipe n g).arch = d.arch := rfl
@[simp] theorem Dev.updPipe_host (n : Fin 8) (g : Pipe → Pipe) : (d.updPipe n g).host = d.host := rfl
@[simp] theorem Dev.updPipe_padc (n : Fin 8) (g : Pipe → Pipe) : (d.updPipe n g).padc = d.padc := rfl
@[simp] theorem Dev.updPipe_temp (n : Fin 8) (g : Pipe → Pipe) : (d.updPipe n g).temp = d.temp := rfl
@[simp] theorem Dev.updPipe_pw (n : Fin 8) (g : Pipe → Pipe) : (d.updPipe n g).pw = d.pw := rfl
@[simp] theorem Dev.updPipe_prof (n : Fin 8) (g : Pipe → Pipe) : (d.updPipe n g).prof = d.prof := rfl
@[simp] theorem Dev.updPipe_twin (n : Fin 8) (g : Pipe → Pipe) : (d.updPipe n g).twin = d.twin := rfl
@[simp] theorem Dev.updPipe_ring (n : Fin 8) (g : Pipe → Pipe) : (d.updPipe n g).ring = d.ring := rfl
@[simp] theorem Dev.updPipe_spi (n : Fin 8) (g : Pipe → Pipe) : (d.updPipe n g).spi = d.spi := rfl

/-! `Dev.updCorr` changes `corr` alone. -/

@[simp] theorem Dev.updCorr_regs (n : Fin 16) (g : Corr → Corr) : (d.updCorr n g).regs = d.regs := rfl
@[simp] theorem Dev.updCorr_time (n : Fin 16) (g : Corr → Corr) : (d.updCorr n g).time = d.time := rfl
@[simp] theorem Dev.updCorr_gen (n : Fin 16) (g : Corr → Corr) : (d.updCorr n g).gen = d.gen := rfl
@[simp] theorem Dev.updCorr_ep (n : Fin 16) (g : Corr → Corr) : (d.updCorr n g).ep = d.ep := rfl
@[simp] theorem Dev.updCorr_snap (n : Fin 16) (g : Corr → Corr) : (d.updCorr n g).snap = d.snap := rfl
@[simp] theorem Dev.updCorr_locks (n : Fin 16) (g : Corr → Corr) : (d.updCorr n g).locks = d.locks := rfl
@[simp] theorem Dev.updCorr_marks (n : Fin 16) (g : Corr → Corr) : (d.updCorr n g).marks = d.marks := rfl
@[simp] theorem Dev.updCorr_enc (n : Fin 16) (g : Corr → Corr) : (d.updCorr n g).enc = d.enc := rfl
@[simp] theorem Dev.updCorr_ports (n : Fin 16) (g : Corr → Corr) : (d.updCorr n g).ports = d.ports := rfl
@[simp] theorem Dev.updCorr_pipes (n : Fin 16) (g : Corr → Corr) : (d.updCorr n g).pipes = d.pipes := rfl
@[simp] theorem Dev.updCorr_zeroX (n : Fin 16) (g : Corr → Corr) : (d.updCorr n g).zeroX = d.zeroX := rfl
@[simp] theorem Dev.updCorr_freeCtr (n : Fin 16) (g : Corr → Corr) : (d.updCorr n g).freeCtr = d.freeCtr := rfl
@[simp] theorem Dev.updCorr_out (n : Fin 16) (g : Corr → Corr) : (d.updCorr n g).out = d.out := rfl
@[simp] theorem Dev.updCorr_ringSlot (n : Fin 16) (g : Corr → Corr) : (d.updCorr n g).ringSlot = d.ringSlot := rfl
@[simp] theorem Dev.updCorr_errLog (n : Fin 16) (g : Corr → Corr) : (d.updCorr n g).errLog = d.errLog := rfl
@[simp] theorem Dev.updCorr_nvs (n : Fin 16) (g : Corr → Corr) : (d.updCorr n g).nvs = d.nvs := rfl
@[simp] theorem Dev.updCorr_integ (n : Fin 16) (g : Corr → Corr) : (d.updCorr n g).integ = d.integ := rfl
@[simp] theorem Dev.updCorr_stitch (n : Fin 16) (g : Corr → Corr) : (d.updCorr n g).stitch = d.stitch := rfl
@[simp] theorem Dev.updCorr_heads (n : Fin 16) (g : Corr → Corr) : (d.updCorr n g).heads = d.heads := rfl
@[simp] theorem Dev.updCorr_padcTimes (n : Fin 16) (g : Corr → Corr) : (d.updCorr n g).padcTimes = d.padcTimes := rfl
@[simp] theorem Dev.updCorr_tags (n : Fin 16) (g : Corr → Corr) : (d.updCorr n g).tags = d.tags := rfl
@[simp] theorem Dev.updCorr_mark (n : Fin 16) (g : Corr → Corr) : (d.updCorr n g).mark = d.mark := rfl
@[simp] theorem Dev.updCorr_valves (n : Fin 16) (g : Corr → Corr) : (d.updCorr n g).valves = d.valves := rfl
@[simp] theorem Dev.updCorr_seg (n : Fin 16) (g : Corr → Corr) : (d.updCorr n g).seg = d.seg := rfl
@[simp] theorem Dev.updCorr_arch (n : Fin 16) (g : Corr → Corr) : (d.updCorr n g).arch = d.arch := rfl
@[simp] theorem Dev.updCorr_host (n : Fin 16) (g : Corr → Corr) : (d.updCorr n g).host = d.host := rfl
@[simp] theorem Dev.updCorr_padc (n : Fin 16) (g : Corr → Corr) : (d.updCorr n g).padc = d.padc := rfl
@[simp] theorem Dev.updCorr_temp (n : Fin 16) (g : Corr → Corr) : (d.updCorr n g).temp = d.temp := rfl
@[simp] theorem Dev.updCorr_pw (n : Fin 16) (g : Corr → Corr) : (d.updCorr n g).pw = d.pw := rfl
@[simp] theorem Dev.updCorr_prof (n : Fin 16) (g : Corr → Corr) : (d.updCorr n g).prof = d.prof := rfl
@[simp] theorem Dev.updCorr_twin (n : Fin 16) (g : Corr → Corr) : (d.updCorr n g).twin = d.twin := rfl
@[simp] theorem Dev.updCorr_ring (n : Fin 16) (g : Corr → Corr) : (d.updCorr n g).ring = d.ring := rfl
@[simp] theorem Dev.updCorr_spi (n : Fin 16) (g : Corr → Corr) : (d.updCorr n g).spi = d.spi := rfl

/-! `Dev.updEp` changes `ep` alone. -/

@[simp] theorem Dev.updEp_regs (g : Epoch → Epoch) : (d.updEp g).regs = d.regs := rfl
@[simp] theorem Dev.updEp_time (g : Epoch → Epoch) : (d.updEp g).time = d.time := rfl
@[simp] theorem Dev.updEp_gen (g : Epoch → Epoch) : (d.updEp g).gen = d.gen := rfl
@[simp] theorem Dev.updEp_snap (g : Epoch → Epoch) : (d.updEp g).snap = d.snap := rfl
@[simp] theorem Dev.updEp_locks (g : Epoch → Epoch) : (d.updEp g).locks = d.locks := rfl
@[simp] theorem Dev.updEp_marks (g : Epoch → Epoch) : (d.updEp g).marks = d.marks := rfl
@[simp] theorem Dev.updEp_enc (g : Epoch → Epoch) : (d.updEp g).enc = d.enc := rfl
@[simp] theorem Dev.updEp_ports (g : Epoch → Epoch) : (d.updEp g).ports = d.ports := rfl
@[simp] theorem Dev.updEp_pipes (g : Epoch → Epoch) : (d.updEp g).pipes = d.pipes := rfl
@[simp] theorem Dev.updEp_corr (g : Epoch → Epoch) : (d.updEp g).corr = d.corr := rfl
@[simp] theorem Dev.updEp_zeroX (g : Epoch → Epoch) : (d.updEp g).zeroX = d.zeroX := rfl
@[simp] theorem Dev.updEp_freeCtr (g : Epoch → Epoch) : (d.updEp g).freeCtr = d.freeCtr := rfl
@[simp] theorem Dev.updEp_out (g : Epoch → Epoch) : (d.updEp g).out = d.out := rfl
@[simp] theorem Dev.updEp_ringSlot (g : Epoch → Epoch) : (d.updEp g).ringSlot = d.ringSlot := rfl
@[simp] theorem Dev.updEp_errLog (g : Epoch → Epoch) : (d.updEp g).errLog = d.errLog := rfl
@[simp] theorem Dev.updEp_nvs (g : Epoch → Epoch) : (d.updEp g).nvs = d.nvs := rfl
@[simp] theorem Dev.updEp_integ (g : Epoch → Epoch) : (d.updEp g).integ = d.integ := rfl
@[simp] theorem Dev.updEp_stitch (g : Epoch → Epoch) : (d.updEp g).stitch = d.stitch := rfl
@[simp] theorem Dev.updEp_heads (g : Epoch → Epoch) : (d.updEp g).heads = d.heads := rfl
@[simp] theorem Dev.updEp_padcTimes (g : Epoch → Epoch) : (d.updEp g).padcTimes = d.padcTimes := rfl
@[simp] theorem Dev.updEp_tags (g : Epoch → Epoch) : (d.updEp g).tags = d.tags := rfl
@[simp] theorem Dev.updEp_mark (g : Epoch → Epoch) : (d.updEp g).mark = d.mark := rfl
@[simp] theorem Dev.updEp_valves (g : Epoch → Epoch) : (d.updEp g).valves = d.valves := rfl
@[simp] theorem Dev.updEp_seg (g : Epoch → Epoch) : (d.updEp g).seg = d.seg := rfl
@[simp] theorem Dev.updEp_arch (g : Epoch → Epoch) : (d.updEp g).arch = d.arch := rfl
@[simp] theorem Dev.updEp_host (g : Epoch → Epoch) : (d.updEp g).host = d.host := rfl
@[simp] theorem Dev.updEp_padc (g : Epoch → Epoch) : (d.updEp g).padc = d.padc := rfl
@[simp] theorem Dev.updEp_temp (g : Epoch → Epoch) : (d.updEp g).temp = d.temp := rfl
@[simp] theorem Dev.updEp_pw (g : Epoch → Epoch) : (d.updEp g).pw = d.pw := rfl
@[simp] theorem Dev.updEp_prof (g : Epoch → Epoch) : (d.updEp g).prof = d.prof := rfl
@[simp] theorem Dev.updEp_twin (g : Epoch → Epoch) : (d.updEp g).twin = d.twin := rfl
@[simp] theorem Dev.updEp_ring (g : Epoch → Epoch) : (d.updEp g).ring = d.ring := rfl
@[simp] theorem Dev.updEp_spi (g : Epoch → Epoch) : (d.updEp g).spi = d.spi := rfl
@[simp] theorem Dev.updEp_ep (g : Epoch → Epoch) : (d.updEp g).ep = g d.ep := rfl

/-! `Dev.updStitch` changes `stitch` alone. -/

@[simp] theorem Dev.updStitch_regs (g : Stitch → Stitch) : (d.updStitch g).regs = d.regs := rfl
@[simp] theorem Dev.updStitch_time (g : Stitch → Stitch) : (d.updStitch g).time = d.time := rfl
@[simp] theorem Dev.updStitch_gen (g : Stitch → Stitch) : (d.updStitch g).gen = d.gen := rfl
@[simp] theorem Dev.updStitch_ep (g : Stitch → Stitch) : (d.updStitch g).ep = d.ep := rfl
@[simp] theorem Dev.updStitch_snap (g : Stitch → Stitch) : (d.updStitch g).snap = d.snap := rfl
@[simp] theorem Dev.updStitch_locks (g : Stitch → Stitch) : (d.updStitch g).locks = d.locks := rfl
@[simp] theorem Dev.updStitch_marks (g : Stitch → Stitch) : (d.updStitch g).marks = d.marks := rfl
@[simp] theorem Dev.updStitch_enc (g : Stitch → Stitch) : (d.updStitch g).enc = d.enc := rfl
@[simp] theorem Dev.updStitch_ports (g : Stitch → Stitch) : (d.updStitch g).ports = d.ports := rfl
@[simp] theorem Dev.updStitch_pipes (g : Stitch → Stitch) : (d.updStitch g).pipes = d.pipes := rfl
@[simp] theorem Dev.updStitch_corr (g : Stitch → Stitch) : (d.updStitch g).corr = d.corr := rfl
@[simp] theorem Dev.updStitch_zeroX (g : Stitch → Stitch) : (d.updStitch g).zeroX = d.zeroX := rfl
@[simp] theorem Dev.updStitch_freeCtr (g : Stitch → Stitch) : (d.updStitch g).freeCtr = d.freeCtr := rfl
@[simp] theorem Dev.updStitch_out (g : Stitch → Stitch) : (d.updStitch g).out = d.out := rfl
@[simp] theorem Dev.updStitch_ringSlot (g : Stitch → Stitch) : (d.updStitch g).ringSlot = d.ringSlot := rfl
@[simp] theorem Dev.updStitch_errLog (g : Stitch → Stitch) : (d.updStitch g).errLog = d.errLog := rfl
@[simp] theorem Dev.updStitch_nvs (g : Stitch → Stitch) : (d.updStitch g).nvs = d.nvs := rfl
@[simp] theorem Dev.updStitch_integ (g : Stitch → Stitch) : (d.updStitch g).integ = d.integ := rfl
@[simp] theorem Dev.updStitch_heads (g : Stitch → Stitch) : (d.updStitch g).heads = d.heads := rfl
@[simp] theorem Dev.updStitch_padcTimes (g : Stitch → Stitch) : (d.updStitch g).padcTimes = d.padcTimes := rfl
@[simp] theorem Dev.updStitch_tags (g : Stitch → Stitch) : (d.updStitch g).tags = d.tags := rfl
@[simp] theorem Dev.updStitch_mark (g : Stitch → Stitch) : (d.updStitch g).mark = d.mark := rfl
@[simp] theorem Dev.updStitch_valves (g : Stitch → Stitch) : (d.updStitch g).valves = d.valves := rfl
@[simp] theorem Dev.updStitch_seg (g : Stitch → Stitch) : (d.updStitch g).seg = d.seg := rfl
@[simp] theorem Dev.updStitch_arch (g : Stitch → Stitch) : (d.updStitch g).arch = d.arch := rfl
@[simp] theorem Dev.updStitch_host (g : Stitch → Stitch) : (d.updStitch g).host = d.host := rfl
@[simp] theorem Dev.updStitch_padc (g : Stitch → Stitch) : (d.updStitch g).padc = d.padc := rfl
@[simp] theorem Dev.updStitch_temp (g : Stitch → Stitch) : (d.updStitch g).temp = d.temp := rfl
@[simp] theorem Dev.updStitch_pw (g : Stitch → Stitch) : (d.updStitch g).pw = d.pw := rfl
@[simp] theorem Dev.updStitch_prof (g : Stitch → Stitch) : (d.updStitch g).prof = d.prof := rfl
@[simp] theorem Dev.updStitch_twin (g : Stitch → Stitch) : (d.updStitch g).twin = d.twin := rfl
@[simp] theorem Dev.updStitch_ring (g : Stitch → Stitch) : (d.updStitch g).ring = d.ring := rfl
@[simp] theorem Dev.updStitch_spi (g : Stitch → Stitch) : (d.updStitch g).spi = d.spi := rfl
@[simp] theorem Dev.updStitch_stitch (g : Stitch → Stitch) : (d.updStitch g).stitch = g d.stitch := rfl

/-! `Dev.updTags` changes `tags` alone. -/

@[simp] theorem Dev.updTags_regs (g : TagPath → TagPath) : (d.updTags g).regs = d.regs := rfl
@[simp] theorem Dev.updTags_time (g : TagPath → TagPath) : (d.updTags g).time = d.time := rfl
@[simp] theorem Dev.updTags_gen (g : TagPath → TagPath) : (d.updTags g).gen = d.gen := rfl
@[simp] theorem Dev.updTags_ep (g : TagPath → TagPath) : (d.updTags g).ep = d.ep := rfl
@[simp] theorem Dev.updTags_snap (g : TagPath → TagPath) : (d.updTags g).snap = d.snap := rfl
@[simp] theorem Dev.updTags_locks (g : TagPath → TagPath) : (d.updTags g).locks = d.locks := rfl
@[simp] theorem Dev.updTags_marks (g : TagPath → TagPath) : (d.updTags g).marks = d.marks := rfl
@[simp] theorem Dev.updTags_enc (g : TagPath → TagPath) : (d.updTags g).enc = d.enc := rfl
@[simp] theorem Dev.updTags_ports (g : TagPath → TagPath) : (d.updTags g).ports = d.ports := rfl
@[simp] theorem Dev.updTags_pipes (g : TagPath → TagPath) : (d.updTags g).pipes = d.pipes := rfl
@[simp] theorem Dev.updTags_corr (g : TagPath → TagPath) : (d.updTags g).corr = d.corr := rfl
@[simp] theorem Dev.updTags_zeroX (g : TagPath → TagPath) : (d.updTags g).zeroX = d.zeroX := rfl
@[simp] theorem Dev.updTags_freeCtr (g : TagPath → TagPath) : (d.updTags g).freeCtr = d.freeCtr := rfl
@[simp] theorem Dev.updTags_out (g : TagPath → TagPath) : (d.updTags g).out = d.out := rfl
@[simp] theorem Dev.updTags_ringSlot (g : TagPath → TagPath) : (d.updTags g).ringSlot = d.ringSlot := rfl
@[simp] theorem Dev.updTags_errLog (g : TagPath → TagPath) : (d.updTags g).errLog = d.errLog := rfl
@[simp] theorem Dev.updTags_nvs (g : TagPath → TagPath) : (d.updTags g).nvs = d.nvs := rfl
@[simp] theorem Dev.updTags_integ (g : TagPath → TagPath) : (d.updTags g).integ = d.integ := rfl
@[simp] theorem Dev.updTags_stitch (g : TagPath → TagPath) : (d.updTags g).stitch = d.stitch := rfl
@[simp] theorem Dev.updTags_heads (g : TagPath → TagPath) : (d.updTags g).heads = d.heads := rfl
@[simp] theorem Dev.updTags_padcTimes (g : TagPath → TagPath) : (d.updTags g).padcTimes = d.padcTimes := rfl
@[simp] theorem Dev.updTags_mark (g : TagPath → TagPath) : (d.updTags g).mark = d.mark := rfl
@[simp] theorem Dev.updTags_valves (g : TagPath → TagPath) : (d.updTags g).valves = d.valves := rfl
@[simp] theorem Dev.updTags_seg (g : TagPath → TagPath) : (d.updTags g).seg = d.seg := rfl
@[simp] theorem Dev.updTags_arch (g : TagPath → TagPath) : (d.updTags g).arch = d.arch := rfl
@[simp] theorem Dev.updTags_host (g : TagPath → TagPath) : (d.updTags g).host = d.host := rfl
@[simp] theorem Dev.updTags_padc (g : TagPath → TagPath) : (d.updTags g).padc = d.padc := rfl
@[simp] theorem Dev.updTags_temp (g : TagPath → TagPath) : (d.updTags g).temp = d.temp := rfl
@[simp] theorem Dev.updTags_pw (g : TagPath → TagPath) : (d.updTags g).pw = d.pw := rfl
@[simp] theorem Dev.updTags_prof (g : TagPath → TagPath) : (d.updTags g).prof = d.prof := rfl
@[simp] theorem Dev.updTags_twin (g : TagPath → TagPath) : (d.updTags g).twin = d.twin := rfl
@[simp] theorem Dev.updTags_ring (g : TagPath → TagPath) : (d.updTags g).ring = d.ring := rfl
@[simp] theorem Dev.updTags_spi (g : TagPath → TagPath) : (d.updTags g).spi = d.spi := rfl
@[simp] theorem Dev.updTags_tags (g : TagPath → TagPath) : (d.updTags g).tags = g d.tags := rfl

/-! `Dev.updSeg` changes `seg` alone. -/

@[simp] theorem Dev.updSeg_regs (g : Segm → Segm) : (d.updSeg g).regs = d.regs := rfl
@[simp] theorem Dev.updSeg_time (g : Segm → Segm) : (d.updSeg g).time = d.time := rfl
@[simp] theorem Dev.updSeg_gen (g : Segm → Segm) : (d.updSeg g).gen = d.gen := rfl
@[simp] theorem Dev.updSeg_ep (g : Segm → Segm) : (d.updSeg g).ep = d.ep := rfl
@[simp] theorem Dev.updSeg_snap (g : Segm → Segm) : (d.updSeg g).snap = d.snap := rfl
@[simp] theorem Dev.updSeg_locks (g : Segm → Segm) : (d.updSeg g).locks = d.locks := rfl
@[simp] theorem Dev.updSeg_marks (g : Segm → Segm) : (d.updSeg g).marks = d.marks := rfl
@[simp] theorem Dev.updSeg_enc (g : Segm → Segm) : (d.updSeg g).enc = d.enc := rfl
@[simp] theorem Dev.updSeg_ports (g : Segm → Segm) : (d.updSeg g).ports = d.ports := rfl
@[simp] theorem Dev.updSeg_pipes (g : Segm → Segm) : (d.updSeg g).pipes = d.pipes := rfl
@[simp] theorem Dev.updSeg_corr (g : Segm → Segm) : (d.updSeg g).corr = d.corr := rfl
@[simp] theorem Dev.updSeg_zeroX (g : Segm → Segm) : (d.updSeg g).zeroX = d.zeroX := rfl
@[simp] theorem Dev.updSeg_freeCtr (g : Segm → Segm) : (d.updSeg g).freeCtr = d.freeCtr := rfl
@[simp] theorem Dev.updSeg_out (g : Segm → Segm) : (d.updSeg g).out = d.out := rfl
@[simp] theorem Dev.updSeg_ringSlot (g : Segm → Segm) : (d.updSeg g).ringSlot = d.ringSlot := rfl
@[simp] theorem Dev.updSeg_errLog (g : Segm → Segm) : (d.updSeg g).errLog = d.errLog := rfl
@[simp] theorem Dev.updSeg_nvs (g : Segm → Segm) : (d.updSeg g).nvs = d.nvs := rfl
@[simp] theorem Dev.updSeg_integ (g : Segm → Segm) : (d.updSeg g).integ = d.integ := rfl
@[simp] theorem Dev.updSeg_stitch (g : Segm → Segm) : (d.updSeg g).stitch = d.stitch := rfl
@[simp] theorem Dev.updSeg_heads (g : Segm → Segm) : (d.updSeg g).heads = d.heads := rfl
@[simp] theorem Dev.updSeg_padcTimes (g : Segm → Segm) : (d.updSeg g).padcTimes = d.padcTimes := rfl
@[simp] theorem Dev.updSeg_tags (g : Segm → Segm) : (d.updSeg g).tags = d.tags := rfl
@[simp] theorem Dev.updSeg_mark (g : Segm → Segm) : (d.updSeg g).mark = d.mark := rfl
@[simp] theorem Dev.updSeg_valves (g : Segm → Segm) : (d.updSeg g).valves = d.valves := rfl
@[simp] theorem Dev.updSeg_arch (g : Segm → Segm) : (d.updSeg g).arch = d.arch := rfl
@[simp] theorem Dev.updSeg_host (g : Segm → Segm) : (d.updSeg g).host = d.host := rfl
@[simp] theorem Dev.updSeg_padc (g : Segm → Segm) : (d.updSeg g).padc = d.padc := rfl
@[simp] theorem Dev.updSeg_temp (g : Segm → Segm) : (d.updSeg g).temp = d.temp := rfl
@[simp] theorem Dev.updSeg_pw (g : Segm → Segm) : (d.updSeg g).pw = d.pw := rfl
@[simp] theorem Dev.updSeg_prof (g : Segm → Segm) : (d.updSeg g).prof = d.prof := rfl
@[simp] theorem Dev.updSeg_twin (g : Segm → Segm) : (d.updSeg g).twin = d.twin := rfl
@[simp] theorem Dev.updSeg_ring (g : Segm → Segm) : (d.updSeg g).ring = d.ring := rfl
@[simp] theorem Dev.updSeg_spi (g : Segm → Segm) : (d.updSeg g).spi = d.spi := rfl
@[simp] theorem Dev.updSeg_seg (g : Segm → Segm) : (d.updSeg g).seg = g d.seg := rfl

/-! `Dev.updMark` changes `mark` alone. -/

@[simp] theorem Dev.updMark_regs (g : MarkSt → MarkSt) : (d.updMark g).regs = d.regs := rfl
@[simp] theorem Dev.updMark_time (g : MarkSt → MarkSt) : (d.updMark g).time = d.time := rfl
@[simp] theorem Dev.updMark_gen (g : MarkSt → MarkSt) : (d.updMark g).gen = d.gen := rfl
@[simp] theorem Dev.updMark_ep (g : MarkSt → MarkSt) : (d.updMark g).ep = d.ep := rfl
@[simp] theorem Dev.updMark_snap (g : MarkSt → MarkSt) : (d.updMark g).snap = d.snap := rfl
@[simp] theorem Dev.updMark_locks (g : MarkSt → MarkSt) : (d.updMark g).locks = d.locks := rfl
@[simp] theorem Dev.updMark_marks (g : MarkSt → MarkSt) : (d.updMark g).marks = d.marks := rfl
@[simp] theorem Dev.updMark_enc (g : MarkSt → MarkSt) : (d.updMark g).enc = d.enc := rfl
@[simp] theorem Dev.updMark_ports (g : MarkSt → MarkSt) : (d.updMark g).ports = d.ports := rfl
@[simp] theorem Dev.updMark_pipes (g : MarkSt → MarkSt) : (d.updMark g).pipes = d.pipes := rfl
@[simp] theorem Dev.updMark_corr (g : MarkSt → MarkSt) : (d.updMark g).corr = d.corr := rfl
@[simp] theorem Dev.updMark_zeroX (g : MarkSt → MarkSt) : (d.updMark g).zeroX = d.zeroX := rfl
@[simp] theorem Dev.updMark_freeCtr (g : MarkSt → MarkSt) : (d.updMark g).freeCtr = d.freeCtr := rfl
@[simp] theorem Dev.updMark_out (g : MarkSt → MarkSt) : (d.updMark g).out = d.out := rfl
@[simp] theorem Dev.updMark_ringSlot (g : MarkSt → MarkSt) : (d.updMark g).ringSlot = d.ringSlot := rfl
@[simp] theorem Dev.updMark_errLog (g : MarkSt → MarkSt) : (d.updMark g).errLog = d.errLog := rfl
@[simp] theorem Dev.updMark_nvs (g : MarkSt → MarkSt) : (d.updMark g).nvs = d.nvs := rfl
@[simp] theorem Dev.updMark_integ (g : MarkSt → MarkSt) : (d.updMark g).integ = d.integ := rfl
@[simp] theorem Dev.updMark_stitch (g : MarkSt → MarkSt) : (d.updMark g).stitch = d.stitch := rfl
@[simp] theorem Dev.updMark_heads (g : MarkSt → MarkSt) : (d.updMark g).heads = d.heads := rfl
@[simp] theorem Dev.updMark_padcTimes (g : MarkSt → MarkSt) : (d.updMark g).padcTimes = d.padcTimes := rfl
@[simp] theorem Dev.updMark_tags (g : MarkSt → MarkSt) : (d.updMark g).tags = d.tags := rfl
@[simp] theorem Dev.updMark_valves (g : MarkSt → MarkSt) : (d.updMark g).valves = d.valves := rfl
@[simp] theorem Dev.updMark_seg (g : MarkSt → MarkSt) : (d.updMark g).seg = d.seg := rfl
@[simp] theorem Dev.updMark_arch (g : MarkSt → MarkSt) : (d.updMark g).arch = d.arch := rfl
@[simp] theorem Dev.updMark_host (g : MarkSt → MarkSt) : (d.updMark g).host = d.host := rfl
@[simp] theorem Dev.updMark_padc (g : MarkSt → MarkSt) : (d.updMark g).padc = d.padc := rfl
@[simp] theorem Dev.updMark_temp (g : MarkSt → MarkSt) : (d.updMark g).temp = d.temp := rfl
@[simp] theorem Dev.updMark_pw (g : MarkSt → MarkSt) : (d.updMark g).pw = d.pw := rfl
@[simp] theorem Dev.updMark_prof (g : MarkSt → MarkSt) : (d.updMark g).prof = d.prof := rfl
@[simp] theorem Dev.updMark_twin (g : MarkSt → MarkSt) : (d.updMark g).twin = d.twin := rfl
@[simp] theorem Dev.updMark_ring (g : MarkSt → MarkSt) : (d.updMark g).ring = d.ring := rfl
@[simp] theorem Dev.updMark_spi (g : MarkSt → MarkSt) : (d.updMark g).spi = d.spi := rfl
@[simp] theorem Dev.updMark_mark (g : MarkSt → MarkSt) : (d.updMark g).mark = g d.mark := rfl

/-! `Dev.updValve` changes `valves` alone. -/

@[simp] theorem Dev.updValve_regs (ch : Fin 16) (g : ValveCh → ValveCh) : (d.updValve ch g).regs = d.regs := rfl
@[simp] theorem Dev.updValve_time (ch : Fin 16) (g : ValveCh → ValveCh) : (d.updValve ch g).time = d.time := rfl
@[simp] theorem Dev.updValve_gen (ch : Fin 16) (g : ValveCh → ValveCh) : (d.updValve ch g).gen = d.gen := rfl
@[simp] theorem Dev.updValve_ep (ch : Fin 16) (g : ValveCh → ValveCh) : (d.updValve ch g).ep = d.ep := rfl
@[simp] theorem Dev.updValve_snap (ch : Fin 16) (g : ValveCh → ValveCh) : (d.updValve ch g).snap = d.snap := rfl
@[simp] theorem Dev.updValve_locks (ch : Fin 16) (g : ValveCh → ValveCh) : (d.updValve ch g).locks = d.locks := rfl
@[simp] theorem Dev.updValve_marks (ch : Fin 16) (g : ValveCh → ValveCh) : (d.updValve ch g).marks = d.marks := rfl
@[simp] theorem Dev.updValve_enc (ch : Fin 16) (g : ValveCh → ValveCh) : (d.updValve ch g).enc = d.enc := rfl
@[simp] theorem Dev.updValve_ports (ch : Fin 16) (g : ValveCh → ValveCh) : (d.updValve ch g).ports = d.ports := rfl
@[simp] theorem Dev.updValve_pipes (ch : Fin 16) (g : ValveCh → ValveCh) : (d.updValve ch g).pipes = d.pipes := rfl
@[simp] theorem Dev.updValve_corr (ch : Fin 16) (g : ValveCh → ValveCh) : (d.updValve ch g).corr = d.corr := rfl
@[simp] theorem Dev.updValve_zeroX (ch : Fin 16) (g : ValveCh → ValveCh) : (d.updValve ch g).zeroX = d.zeroX := rfl
@[simp] theorem Dev.updValve_freeCtr (ch : Fin 16) (g : ValveCh → ValveCh) : (d.updValve ch g).freeCtr = d.freeCtr := rfl
@[simp] theorem Dev.updValve_out (ch : Fin 16) (g : ValveCh → ValveCh) : (d.updValve ch g).out = d.out := rfl
@[simp] theorem Dev.updValve_ringSlot (ch : Fin 16) (g : ValveCh → ValveCh) : (d.updValve ch g).ringSlot = d.ringSlot := rfl
@[simp] theorem Dev.updValve_errLog (ch : Fin 16) (g : ValveCh → ValveCh) : (d.updValve ch g).errLog = d.errLog := rfl
@[simp] theorem Dev.updValve_nvs (ch : Fin 16) (g : ValveCh → ValveCh) : (d.updValve ch g).nvs = d.nvs := rfl
@[simp] theorem Dev.updValve_integ (ch : Fin 16) (g : ValveCh → ValveCh) : (d.updValve ch g).integ = d.integ := rfl
@[simp] theorem Dev.updValve_stitch (ch : Fin 16) (g : ValveCh → ValveCh) : (d.updValve ch g).stitch = d.stitch := rfl
@[simp] theorem Dev.updValve_heads (ch : Fin 16) (g : ValveCh → ValveCh) : (d.updValve ch g).heads = d.heads := rfl
@[simp] theorem Dev.updValve_padcTimes (ch : Fin 16) (g : ValveCh → ValveCh) : (d.updValve ch g).padcTimes = d.padcTimes := rfl
@[simp] theorem Dev.updValve_tags (ch : Fin 16) (g : ValveCh → ValveCh) : (d.updValve ch g).tags = d.tags := rfl
@[simp] theorem Dev.updValve_mark (ch : Fin 16) (g : ValveCh → ValveCh) : (d.updValve ch g).mark = d.mark := rfl
@[simp] theorem Dev.updValve_seg (ch : Fin 16) (g : ValveCh → ValveCh) : (d.updValve ch g).seg = d.seg := rfl
@[simp] theorem Dev.updValve_arch (ch : Fin 16) (g : ValveCh → ValveCh) : (d.updValve ch g).arch = d.arch := rfl
@[simp] theorem Dev.updValve_host (ch : Fin 16) (g : ValveCh → ValveCh) : (d.updValve ch g).host = d.host := rfl
@[simp] theorem Dev.updValve_padc (ch : Fin 16) (g : ValveCh → ValveCh) : (d.updValve ch g).padc = d.padc := rfl
@[simp] theorem Dev.updValve_temp (ch : Fin 16) (g : ValveCh → ValveCh) : (d.updValve ch g).temp = d.temp := rfl
@[simp] theorem Dev.updValve_pw (ch : Fin 16) (g : ValveCh → ValveCh) : (d.updValve ch g).pw = d.pw := rfl
@[simp] theorem Dev.updValve_prof (ch : Fin 16) (g : ValveCh → ValveCh) : (d.updValve ch g).prof = d.prof := rfl
@[simp] theorem Dev.updValve_twin (ch : Fin 16) (g : ValveCh → ValveCh) : (d.updValve ch g).twin = d.twin := rfl
@[simp] theorem Dev.updValve_ring (ch : Fin 16) (g : ValveCh → ValveCh) : (d.updValve ch g).ring = d.ring := rfl
@[simp] theorem Dev.updValve_spi (ch : Fin 16) (g : ValveCh → ValveCh) : (d.updValve ch g).spi = d.spi := rfl

/-! `Dev.updHead` changes `heads` alone. -/

@[simp] theorem Dev.updHead_regs (n : Fin 2) (g : Head → Head) : (d.updHead n g).regs = d.regs := rfl
@[simp] theorem Dev.updHead_time (n : Fin 2) (g : Head → Head) : (d.updHead n g).time = d.time := rfl
@[simp] theorem Dev.updHead_gen (n : Fin 2) (g : Head → Head) : (d.updHead n g).gen = d.gen := rfl
@[simp] theorem Dev.updHead_ep (n : Fin 2) (g : Head → Head) : (d.updHead n g).ep = d.ep := rfl
@[simp] theorem Dev.updHead_snap (n : Fin 2) (g : Head → Head) : (d.updHead n g).snap = d.snap := rfl
@[simp] theorem Dev.updHead_locks (n : Fin 2) (g : Head → Head) : (d.updHead n g).locks = d.locks := rfl
@[simp] theorem Dev.updHead_marks (n : Fin 2) (g : Head → Head) : (d.updHead n g).marks = d.marks := rfl
@[simp] theorem Dev.updHead_enc (n : Fin 2) (g : Head → Head) : (d.updHead n g).enc = d.enc := rfl
@[simp] theorem Dev.updHead_ports (n : Fin 2) (g : Head → Head) : (d.updHead n g).ports = d.ports := rfl
@[simp] theorem Dev.updHead_pipes (n : Fin 2) (g : Head → Head) : (d.updHead n g).pipes = d.pipes := rfl
@[simp] theorem Dev.updHead_corr (n : Fin 2) (g : Head → Head) : (d.updHead n g).corr = d.corr := rfl
@[simp] theorem Dev.updHead_zeroX (n : Fin 2) (g : Head → Head) : (d.updHead n g).zeroX = d.zeroX := rfl
@[simp] theorem Dev.updHead_freeCtr (n : Fin 2) (g : Head → Head) : (d.updHead n g).freeCtr = d.freeCtr := rfl
@[simp] theorem Dev.updHead_out (n : Fin 2) (g : Head → Head) : (d.updHead n g).out = d.out := rfl
@[simp] theorem Dev.updHead_ringSlot (n : Fin 2) (g : Head → Head) : (d.updHead n g).ringSlot = d.ringSlot := rfl
@[simp] theorem Dev.updHead_errLog (n : Fin 2) (g : Head → Head) : (d.updHead n g).errLog = d.errLog := rfl
@[simp] theorem Dev.updHead_nvs (n : Fin 2) (g : Head → Head) : (d.updHead n g).nvs = d.nvs := rfl
@[simp] theorem Dev.updHead_integ (n : Fin 2) (g : Head → Head) : (d.updHead n g).integ = d.integ := rfl
@[simp] theorem Dev.updHead_stitch (n : Fin 2) (g : Head → Head) : (d.updHead n g).stitch = d.stitch := rfl
@[simp] theorem Dev.updHead_padcTimes (n : Fin 2) (g : Head → Head) : (d.updHead n g).padcTimes = d.padcTimes := rfl
@[simp] theorem Dev.updHead_tags (n : Fin 2) (g : Head → Head) : (d.updHead n g).tags = d.tags := rfl
@[simp] theorem Dev.updHead_mark (n : Fin 2) (g : Head → Head) : (d.updHead n g).mark = d.mark := rfl
@[simp] theorem Dev.updHead_valves (n : Fin 2) (g : Head → Head) : (d.updHead n g).valves = d.valves := rfl
@[simp] theorem Dev.updHead_seg (n : Fin 2) (g : Head → Head) : (d.updHead n g).seg = d.seg := rfl
@[simp] theorem Dev.updHead_arch (n : Fin 2) (g : Head → Head) : (d.updHead n g).arch = d.arch := rfl
@[simp] theorem Dev.updHead_host (n : Fin 2) (g : Head → Head) : (d.updHead n g).host = d.host := rfl
@[simp] theorem Dev.updHead_padc (n : Fin 2) (g : Head → Head) : (d.updHead n g).padc = d.padc := rfl
@[simp] theorem Dev.updHead_temp (n : Fin 2) (g : Head → Head) : (d.updHead n g).temp = d.temp := rfl
@[simp] theorem Dev.updHead_pw (n : Fin 2) (g : Head → Head) : (d.updHead n g).pw = d.pw := rfl
@[simp] theorem Dev.updHead_prof (n : Fin 2) (g : Head → Head) : (d.updHead n g).prof = d.prof := rfl
@[simp] theorem Dev.updHead_twin (n : Fin 2) (g : Head → Head) : (d.updHead n g).twin = d.twin := rfl
@[simp] theorem Dev.updHead_ring (n : Fin 2) (g : Head → Head) : (d.updHead n g).ring = d.ring := rfl
@[simp] theorem Dev.updHead_spi (n : Fin 2) (g : Head → Head) : (d.updHead n g).spi = d.spi := rfl

/-! `Dev.updArch` changes `arch` alone. -/

@[simp] theorem Dev.updArch_regs (g : Arch → Arch) : (d.updArch g).regs = d.regs := rfl
@[simp] theorem Dev.updArch_time (g : Arch → Arch) : (d.updArch g).time = d.time := rfl
@[simp] theorem Dev.updArch_gen (g : Arch → Arch) : (d.updArch g).gen = d.gen := rfl
@[simp] theorem Dev.updArch_ep (g : Arch → Arch) : (d.updArch g).ep = d.ep := rfl
@[simp] theorem Dev.updArch_snap (g : Arch → Arch) : (d.updArch g).snap = d.snap := rfl
@[simp] theorem Dev.updArch_locks (g : Arch → Arch) : (d.updArch g).locks = d.locks := rfl
@[simp] theorem Dev.updArch_marks (g : Arch → Arch) : (d.updArch g).marks = d.marks := rfl
@[simp] theorem Dev.updArch_enc (g : Arch → Arch) : (d.updArch g).enc = d.enc := rfl
@[simp] theorem Dev.updArch_ports (g : Arch → Arch) : (d.updArch g).ports = d.ports := rfl
@[simp] theorem Dev.updArch_pipes (g : Arch → Arch) : (d.updArch g).pipes = d.pipes := rfl
@[simp] theorem Dev.updArch_corr (g : Arch → Arch) : (d.updArch g).corr = d.corr := rfl
@[simp] theorem Dev.updArch_zeroX (g : Arch → Arch) : (d.updArch g).zeroX = d.zeroX := rfl
@[simp] theorem Dev.updArch_freeCtr (g : Arch → Arch) : (d.updArch g).freeCtr = d.freeCtr := rfl
@[simp] theorem Dev.updArch_out (g : Arch → Arch) : (d.updArch g).out = d.out := rfl
@[simp] theorem Dev.updArch_ringSlot (g : Arch → Arch) : (d.updArch g).ringSlot = d.ringSlot := rfl
@[simp] theorem Dev.updArch_errLog (g : Arch → Arch) : (d.updArch g).errLog = d.errLog := rfl
@[simp] theorem Dev.updArch_nvs (g : Arch → Arch) : (d.updArch g).nvs = d.nvs := rfl
@[simp] theorem Dev.updArch_integ (g : Arch → Arch) : (d.updArch g).integ = d.integ := rfl
@[simp] theorem Dev.updArch_stitch (g : Arch → Arch) : (d.updArch g).stitch = d.stitch := rfl
@[simp] theorem Dev.updArch_heads (g : Arch → Arch) : (d.updArch g).heads = d.heads := rfl
@[simp] theorem Dev.updArch_padcTimes (g : Arch → Arch) : (d.updArch g).padcTimes = d.padcTimes := rfl
@[simp] theorem Dev.updArch_tags (g : Arch → Arch) : (d.updArch g).tags = d.tags := rfl
@[simp] theorem Dev.updArch_mark (g : Arch → Arch) : (d.updArch g).mark = d.mark := rfl
@[simp] theorem Dev.updArch_valves (g : Arch → Arch) : (d.updArch g).valves = d.valves := rfl
@[simp] theorem Dev.updArch_seg (g : Arch → Arch) : (d.updArch g).seg = d.seg := rfl
@[simp] theorem Dev.updArch_host (g : Arch → Arch) : (d.updArch g).host = d.host := rfl
@[simp] theorem Dev.updArch_padc (g : Arch → Arch) : (d.updArch g).padc = d.padc := rfl
@[simp] theorem Dev.updArch_temp (g : Arch → Arch) : (d.updArch g).temp = d.temp := rfl
@[simp] theorem Dev.updArch_pw (g : Arch → Arch) : (d.updArch g).pw = d.pw := rfl
@[simp] theorem Dev.updArch_prof (g : Arch → Arch) : (d.updArch g).prof = d.prof := rfl
@[simp] theorem Dev.updArch_twin (g : Arch → Arch) : (d.updArch g).twin = d.twin := rfl
@[simp] theorem Dev.updArch_ring (g : Arch → Arch) : (d.updArch g).ring = d.ring := rfl
@[simp] theorem Dev.updArch_spi (g : Arch → Arch) : (d.updArch g).spi = d.spi := rfl
@[simp] theorem Dev.updArch_arch (g : Arch → Arch) : (d.updArch g).arch = g d.arch := rfl

/-! `Dev.updInteg` changes `integ` alone. -/

@[simp] theorem Dev.updInteg_regs (g : Integ → Integ) : (d.updInteg g).regs = d.regs := rfl
@[simp] theorem Dev.updInteg_time (g : Integ → Integ) : (d.updInteg g).time = d.time := rfl
@[simp] theorem Dev.updInteg_gen (g : Integ → Integ) : (d.updInteg g).gen = d.gen := rfl
@[simp] theorem Dev.updInteg_ep (g : Integ → Integ) : (d.updInteg g).ep = d.ep := rfl
@[simp] theorem Dev.updInteg_snap (g : Integ → Integ) : (d.updInteg g).snap = d.snap := rfl
@[simp] theorem Dev.updInteg_locks (g : Integ → Integ) : (d.updInteg g).locks = d.locks := rfl
@[simp] theorem Dev.updInteg_marks (g : Integ → Integ) : (d.updInteg g).marks = d.marks := rfl
@[simp] theorem Dev.updInteg_enc (g : Integ → Integ) : (d.updInteg g).enc = d.enc := rfl
@[simp] theorem Dev.updInteg_ports (g : Integ → Integ) : (d.updInteg g).ports = d.ports := rfl
@[simp] theorem Dev.updInteg_pipes (g : Integ → Integ) : (d.updInteg g).pipes = d.pipes := rfl
@[simp] theorem Dev.updInteg_corr (g : Integ → Integ) : (d.updInteg g).corr = d.corr := rfl
@[simp] theorem Dev.updInteg_zeroX (g : Integ → Integ) : (d.updInteg g).zeroX = d.zeroX := rfl
@[simp] theorem Dev.updInteg_freeCtr (g : Integ → Integ) : (d.updInteg g).freeCtr = d.freeCtr := rfl
@[simp] theorem Dev.updInteg_out (g : Integ → Integ) : (d.updInteg g).out = d.out := rfl
@[simp] theorem Dev.updInteg_ringSlot (g : Integ → Integ) : (d.updInteg g).ringSlot = d.ringSlot := rfl
@[simp] theorem Dev.updInteg_errLog (g : Integ → Integ) : (d.updInteg g).errLog = d.errLog := rfl
@[simp] theorem Dev.updInteg_nvs (g : Integ → Integ) : (d.updInteg g).nvs = d.nvs := rfl
@[simp] theorem Dev.updInteg_stitch (g : Integ → Integ) : (d.updInteg g).stitch = d.stitch := rfl
@[simp] theorem Dev.updInteg_heads (g : Integ → Integ) : (d.updInteg g).heads = d.heads := rfl
@[simp] theorem Dev.updInteg_padcTimes (g : Integ → Integ) : (d.updInteg g).padcTimes = d.padcTimes := rfl
@[simp] theorem Dev.updInteg_tags (g : Integ → Integ) : (d.updInteg g).tags = d.tags := rfl
@[simp] theorem Dev.updInteg_mark (g : Integ → Integ) : (d.updInteg g).mark = d.mark := rfl
@[simp] theorem Dev.updInteg_valves (g : Integ → Integ) : (d.updInteg g).valves = d.valves := rfl
@[simp] theorem Dev.updInteg_seg (g : Integ → Integ) : (d.updInteg g).seg = d.seg := rfl
@[simp] theorem Dev.updInteg_arch (g : Integ → Integ) : (d.updInteg g).arch = d.arch := rfl
@[simp] theorem Dev.updInteg_host (g : Integ → Integ) : (d.updInteg g).host = d.host := rfl
@[simp] theorem Dev.updInteg_padc (g : Integ → Integ) : (d.updInteg g).padc = d.padc := rfl
@[simp] theorem Dev.updInteg_temp (g : Integ → Integ) : (d.updInteg g).temp = d.temp := rfl
@[simp] theorem Dev.updInteg_pw (g : Integ → Integ) : (d.updInteg g).pw = d.pw := rfl
@[simp] theorem Dev.updInteg_prof (g : Integ → Integ) : (d.updInteg g).prof = d.prof := rfl
@[simp] theorem Dev.updInteg_twin (g : Integ → Integ) : (d.updInteg g).twin = d.twin := rfl
@[simp] theorem Dev.updInteg_ring (g : Integ → Integ) : (d.updInteg g).ring = d.ring := rfl
@[simp] theorem Dev.updInteg_spi (g : Integ → Integ) : (d.updInteg g).spi = d.spi := rfl
@[simp] theorem Dev.updInteg_integ (g : Integ → Integ) : (d.updInteg g).integ = g d.integ := rfl

/-! `Dev.updHost` changes `host` alone. -/

@[simp] theorem Dev.updHost_regs (g : HostSt → HostSt) : (d.updHost g).regs = d.regs := rfl
@[simp] theorem Dev.updHost_time (g : HostSt → HostSt) : (d.updHost g).time = d.time := rfl
@[simp] theorem Dev.updHost_gen (g : HostSt → HostSt) : (d.updHost g).gen = d.gen := rfl
@[simp] theorem Dev.updHost_ep (g : HostSt → HostSt) : (d.updHost g).ep = d.ep := rfl
@[simp] theorem Dev.updHost_snap (g : HostSt → HostSt) : (d.updHost g).snap = d.snap := rfl
@[simp] theorem Dev.updHost_locks (g : HostSt → HostSt) : (d.updHost g).locks = d.locks := rfl
@[simp] theorem Dev.updHost_marks (g : HostSt → HostSt) : (d.updHost g).marks = d.marks := rfl
@[simp] theorem Dev.updHost_enc (g : HostSt → HostSt) : (d.updHost g).enc = d.enc := rfl
@[simp] theorem Dev.updHost_ports (g : HostSt → HostSt) : (d.updHost g).ports = d.ports := rfl
@[simp] theorem Dev.updHost_pipes (g : HostSt → HostSt) : (d.updHost g).pipes = d.pipes := rfl
@[simp] theorem Dev.updHost_corr (g : HostSt → HostSt) : (d.updHost g).corr = d.corr := rfl
@[simp] theorem Dev.updHost_zeroX (g : HostSt → HostSt) : (d.updHost g).zeroX = d.zeroX := rfl
@[simp] theorem Dev.updHost_freeCtr (g : HostSt → HostSt) : (d.updHost g).freeCtr = d.freeCtr := rfl
@[simp] theorem Dev.updHost_out (g : HostSt → HostSt) : (d.updHost g).out = d.out := rfl
@[simp] theorem Dev.updHost_ringSlot (g : HostSt → HostSt) : (d.updHost g).ringSlot = d.ringSlot := rfl
@[simp] theorem Dev.updHost_errLog (g : HostSt → HostSt) : (d.updHost g).errLog = d.errLog := rfl
@[simp] theorem Dev.updHost_nvs (g : HostSt → HostSt) : (d.updHost g).nvs = d.nvs := rfl
@[simp] theorem Dev.updHost_integ (g : HostSt → HostSt) : (d.updHost g).integ = d.integ := rfl
@[simp] theorem Dev.updHost_stitch (g : HostSt → HostSt) : (d.updHost g).stitch = d.stitch := rfl
@[simp] theorem Dev.updHost_heads (g : HostSt → HostSt) : (d.updHost g).heads = d.heads := rfl
@[simp] theorem Dev.updHost_padcTimes (g : HostSt → HostSt) : (d.updHost g).padcTimes = d.padcTimes := rfl
@[simp] theorem Dev.updHost_tags (g : HostSt → HostSt) : (d.updHost g).tags = d.tags := rfl
@[simp] theorem Dev.updHost_mark (g : HostSt → HostSt) : (d.updHost g).mark = d.mark := rfl
@[simp] theorem Dev.updHost_valves (g : HostSt → HostSt) : (d.updHost g).valves = d.valves := rfl
@[simp] theorem Dev.updHost_seg (g : HostSt → HostSt) : (d.updHost g).seg = d.seg := rfl
@[simp] theorem Dev.updHost_arch (g : HostSt → HostSt) : (d.updHost g).arch = d.arch := rfl
@[simp] theorem Dev.updHost_padc (g : HostSt → HostSt) : (d.updHost g).padc = d.padc := rfl
@[simp] theorem Dev.updHost_temp (g : HostSt → HostSt) : (d.updHost g).temp = d.temp := rfl
@[simp] theorem Dev.updHost_pw (g : HostSt → HostSt) : (d.updHost g).pw = d.pw := rfl
@[simp] theorem Dev.updHost_prof (g : HostSt → HostSt) : (d.updHost g).prof = d.prof := rfl
@[simp] theorem Dev.updHost_twin (g : HostSt → HostSt) : (d.updHost g).twin = d.twin := rfl
@[simp] theorem Dev.updHost_ring (g : HostSt → HostSt) : (d.updHost g).ring = d.ring := rfl
@[simp] theorem Dev.updHost_spi (g : HostSt → HostSt) : (d.updHost g).spi = d.spi := rfl
@[simp] theorem Dev.updHost_host (g : HostSt → HostSt) : (d.updHost g).host = g d.host := rfl

/-! `Dev.updNvs` changes `nvs` alone. -/

@[simp] theorem Dev.updNvs_regs (g : Nvs → Nvs) : (d.updNvs g).regs = d.regs := rfl
@[simp] theorem Dev.updNvs_time (g : Nvs → Nvs) : (d.updNvs g).time = d.time := rfl
@[simp] theorem Dev.updNvs_gen (g : Nvs → Nvs) : (d.updNvs g).gen = d.gen := rfl
@[simp] theorem Dev.updNvs_ep (g : Nvs → Nvs) : (d.updNvs g).ep = d.ep := rfl
@[simp] theorem Dev.updNvs_snap (g : Nvs → Nvs) : (d.updNvs g).snap = d.snap := rfl
@[simp] theorem Dev.updNvs_locks (g : Nvs → Nvs) : (d.updNvs g).locks = d.locks := rfl
@[simp] theorem Dev.updNvs_marks (g : Nvs → Nvs) : (d.updNvs g).marks = d.marks := rfl
@[simp] theorem Dev.updNvs_enc (g : Nvs → Nvs) : (d.updNvs g).enc = d.enc := rfl
@[simp] theorem Dev.updNvs_ports (g : Nvs → Nvs) : (d.updNvs g).ports = d.ports := rfl
@[simp] theorem Dev.updNvs_pipes (g : Nvs → Nvs) : (d.updNvs g).pipes = d.pipes := rfl
@[simp] theorem Dev.updNvs_corr (g : Nvs → Nvs) : (d.updNvs g).corr = d.corr := rfl
@[simp] theorem Dev.updNvs_zeroX (g : Nvs → Nvs) : (d.updNvs g).zeroX = d.zeroX := rfl
@[simp] theorem Dev.updNvs_freeCtr (g : Nvs → Nvs) : (d.updNvs g).freeCtr = d.freeCtr := rfl
@[simp] theorem Dev.updNvs_out (g : Nvs → Nvs) : (d.updNvs g).out = d.out := rfl
@[simp] theorem Dev.updNvs_ringSlot (g : Nvs → Nvs) : (d.updNvs g).ringSlot = d.ringSlot := rfl
@[simp] theorem Dev.updNvs_errLog (g : Nvs → Nvs) : (d.updNvs g).errLog = d.errLog := rfl
@[simp] theorem Dev.updNvs_integ (g : Nvs → Nvs) : (d.updNvs g).integ = d.integ := rfl
@[simp] theorem Dev.updNvs_stitch (g : Nvs → Nvs) : (d.updNvs g).stitch = d.stitch := rfl
@[simp] theorem Dev.updNvs_heads (g : Nvs → Nvs) : (d.updNvs g).heads = d.heads := rfl
@[simp] theorem Dev.updNvs_padcTimes (g : Nvs → Nvs) : (d.updNvs g).padcTimes = d.padcTimes := rfl
@[simp] theorem Dev.updNvs_tags (g : Nvs → Nvs) : (d.updNvs g).tags = d.tags := rfl
@[simp] theorem Dev.updNvs_mark (g : Nvs → Nvs) : (d.updNvs g).mark = d.mark := rfl
@[simp] theorem Dev.updNvs_valves (g : Nvs → Nvs) : (d.updNvs g).valves = d.valves := rfl
@[simp] theorem Dev.updNvs_seg (g : Nvs → Nvs) : (d.updNvs g).seg = d.seg := rfl
@[simp] theorem Dev.updNvs_arch (g : Nvs → Nvs) : (d.updNvs g).arch = d.arch := rfl
@[simp] theorem Dev.updNvs_host (g : Nvs → Nvs) : (d.updNvs g).host = d.host := rfl
@[simp] theorem Dev.updNvs_padc (g : Nvs → Nvs) : (d.updNvs g).padc = d.padc := rfl
@[simp] theorem Dev.updNvs_temp (g : Nvs → Nvs) : (d.updNvs g).temp = d.temp := rfl
@[simp] theorem Dev.updNvs_pw (g : Nvs → Nvs) : (d.updNvs g).pw = d.pw := rfl
@[simp] theorem Dev.updNvs_prof (g : Nvs → Nvs) : (d.updNvs g).prof = d.prof := rfl
@[simp] theorem Dev.updNvs_twin (g : Nvs → Nvs) : (d.updNvs g).twin = d.twin := rfl
@[simp] theorem Dev.updNvs_ring (g : Nvs → Nvs) : (d.updNvs g).ring = d.ring := rfl
@[simp] theorem Dev.updNvs_spi (g : Nvs → Nvs) : (d.updNvs g).spi = d.spi := rfl
@[simp] theorem Dev.updNvs_nvs (g : Nvs → Nvs) : (d.updNvs g).nvs = g d.nvs := rfl

/-! `Dev.updPadc` changes `padc` alone. -/

@[simp] theorem Dev.updPadc_regs (n : Fin 2) (g : Padc → Padc) : (d.updPadc n g).regs = d.regs := rfl
@[simp] theorem Dev.updPadc_time (n : Fin 2) (g : Padc → Padc) : (d.updPadc n g).time = d.time := rfl
@[simp] theorem Dev.updPadc_gen (n : Fin 2) (g : Padc → Padc) : (d.updPadc n g).gen = d.gen := rfl
@[simp] theorem Dev.updPadc_ep (n : Fin 2) (g : Padc → Padc) : (d.updPadc n g).ep = d.ep := rfl
@[simp] theorem Dev.updPadc_snap (n : Fin 2) (g : Padc → Padc) : (d.updPadc n g).snap = d.snap := rfl
@[simp] theorem Dev.updPadc_locks (n : Fin 2) (g : Padc → Padc) : (d.updPadc n g).locks = d.locks := rfl
@[simp] theorem Dev.updPadc_marks (n : Fin 2) (g : Padc → Padc) : (d.updPadc n g).marks = d.marks := rfl
@[simp] theorem Dev.updPadc_enc (n : Fin 2) (g : Padc → Padc) : (d.updPadc n g).enc = d.enc := rfl
@[simp] theorem Dev.updPadc_ports (n : Fin 2) (g : Padc → Padc) : (d.updPadc n g).ports = d.ports := rfl
@[simp] theorem Dev.updPadc_pipes (n : Fin 2) (g : Padc → Padc) : (d.updPadc n g).pipes = d.pipes := rfl
@[simp] theorem Dev.updPadc_corr (n : Fin 2) (g : Padc → Padc) : (d.updPadc n g).corr = d.corr := rfl
@[simp] theorem Dev.updPadc_zeroX (n : Fin 2) (g : Padc → Padc) : (d.updPadc n g).zeroX = d.zeroX := rfl
@[simp] theorem Dev.updPadc_freeCtr (n : Fin 2) (g : Padc → Padc) : (d.updPadc n g).freeCtr = d.freeCtr := rfl
@[simp] theorem Dev.updPadc_out (n : Fin 2) (g : Padc → Padc) : (d.updPadc n g).out = d.out := rfl
@[simp] theorem Dev.updPadc_ringSlot (n : Fin 2) (g : Padc → Padc) : (d.updPadc n g).ringSlot = d.ringSlot := rfl
@[simp] theorem Dev.updPadc_errLog (n : Fin 2) (g : Padc → Padc) : (d.updPadc n g).errLog = d.errLog := rfl
@[simp] theorem Dev.updPadc_nvs (n : Fin 2) (g : Padc → Padc) : (d.updPadc n g).nvs = d.nvs := rfl
@[simp] theorem Dev.updPadc_integ (n : Fin 2) (g : Padc → Padc) : (d.updPadc n g).integ = d.integ := rfl
@[simp] theorem Dev.updPadc_stitch (n : Fin 2) (g : Padc → Padc) : (d.updPadc n g).stitch = d.stitch := rfl
@[simp] theorem Dev.updPadc_heads (n : Fin 2) (g : Padc → Padc) : (d.updPadc n g).heads = d.heads := rfl
@[simp] theorem Dev.updPadc_padcTimes (n : Fin 2) (g : Padc → Padc) : (d.updPadc n g).padcTimes = d.padcTimes := rfl
@[simp] theorem Dev.updPadc_tags (n : Fin 2) (g : Padc → Padc) : (d.updPadc n g).tags = d.tags := rfl
@[simp] theorem Dev.updPadc_mark (n : Fin 2) (g : Padc → Padc) : (d.updPadc n g).mark = d.mark := rfl
@[simp] theorem Dev.updPadc_valves (n : Fin 2) (g : Padc → Padc) : (d.updPadc n g).valves = d.valves := rfl
@[simp] theorem Dev.updPadc_seg (n : Fin 2) (g : Padc → Padc) : (d.updPadc n g).seg = d.seg := rfl
@[simp] theorem Dev.updPadc_arch (n : Fin 2) (g : Padc → Padc) : (d.updPadc n g).arch = d.arch := rfl
@[simp] theorem Dev.updPadc_host (n : Fin 2) (g : Padc → Padc) : (d.updPadc n g).host = d.host := rfl
@[simp] theorem Dev.updPadc_temp (n : Fin 2) (g : Padc → Padc) : (d.updPadc n g).temp = d.temp := rfl
@[simp] theorem Dev.updPadc_pw (n : Fin 2) (g : Padc → Padc) : (d.updPadc n g).pw = d.pw := rfl
@[simp] theorem Dev.updPadc_prof (n : Fin 2) (g : Padc → Padc) : (d.updPadc n g).prof = d.prof := rfl
@[simp] theorem Dev.updPadc_twin (n : Fin 2) (g : Padc → Padc) : (d.updPadc n g).twin = d.twin := rfl
@[simp] theorem Dev.updPadc_ring (n : Fin 2) (g : Padc → Padc) : (d.updPadc n g).ring = d.ring := rfl
@[simp] theorem Dev.updPadc_spi (n : Fin 2) (g : Padc → Padc) : (d.updPadc n g).spi = d.spi := rfl

/-! `Dev.updTemp` changes `temp` alone. -/

@[simp] theorem Dev.updTemp_regs (g : Temp → Temp) : (d.updTemp g).regs = d.regs := rfl
@[simp] theorem Dev.updTemp_time (g : Temp → Temp) : (d.updTemp g).time = d.time := rfl
@[simp] theorem Dev.updTemp_gen (g : Temp → Temp) : (d.updTemp g).gen = d.gen := rfl
@[simp] theorem Dev.updTemp_ep (g : Temp → Temp) : (d.updTemp g).ep = d.ep := rfl
@[simp] theorem Dev.updTemp_snap (g : Temp → Temp) : (d.updTemp g).snap = d.snap := rfl
@[simp] theorem Dev.updTemp_locks (g : Temp → Temp) : (d.updTemp g).locks = d.locks := rfl
@[simp] theorem Dev.updTemp_marks (g : Temp → Temp) : (d.updTemp g).marks = d.marks := rfl
@[simp] theorem Dev.updTemp_enc (g : Temp → Temp) : (d.updTemp g).enc = d.enc := rfl
@[simp] theorem Dev.updTemp_ports (g : Temp → Temp) : (d.updTemp g).ports = d.ports := rfl
@[simp] theorem Dev.updTemp_pipes (g : Temp → Temp) : (d.updTemp g).pipes = d.pipes := rfl
@[simp] theorem Dev.updTemp_corr (g : Temp → Temp) : (d.updTemp g).corr = d.corr := rfl
@[simp] theorem Dev.updTemp_zeroX (g : Temp → Temp) : (d.updTemp g).zeroX = d.zeroX := rfl
@[simp] theorem Dev.updTemp_freeCtr (g : Temp → Temp) : (d.updTemp g).freeCtr = d.freeCtr := rfl
@[simp] theorem Dev.updTemp_out (g : Temp → Temp) : (d.updTemp g).out = d.out := rfl
@[simp] theorem Dev.updTemp_ringSlot (g : Temp → Temp) : (d.updTemp g).ringSlot = d.ringSlot := rfl
@[simp] theorem Dev.updTemp_errLog (g : Temp → Temp) : (d.updTemp g).errLog = d.errLog := rfl
@[simp] theorem Dev.updTemp_nvs (g : Temp → Temp) : (d.updTemp g).nvs = d.nvs := rfl
@[simp] theorem Dev.updTemp_integ (g : Temp → Temp) : (d.updTemp g).integ = d.integ := rfl
@[simp] theorem Dev.updTemp_stitch (g : Temp → Temp) : (d.updTemp g).stitch = d.stitch := rfl
@[simp] theorem Dev.updTemp_heads (g : Temp → Temp) : (d.updTemp g).heads = d.heads := rfl
@[simp] theorem Dev.updTemp_padcTimes (g : Temp → Temp) : (d.updTemp g).padcTimes = d.padcTimes := rfl
@[simp] theorem Dev.updTemp_tags (g : Temp → Temp) : (d.updTemp g).tags = d.tags := rfl
@[simp] theorem Dev.updTemp_mark (g : Temp → Temp) : (d.updTemp g).mark = d.mark := rfl
@[simp] theorem Dev.updTemp_valves (g : Temp → Temp) : (d.updTemp g).valves = d.valves := rfl
@[simp] theorem Dev.updTemp_seg (g : Temp → Temp) : (d.updTemp g).seg = d.seg := rfl
@[simp] theorem Dev.updTemp_arch (g : Temp → Temp) : (d.updTemp g).arch = d.arch := rfl
@[simp] theorem Dev.updTemp_host (g : Temp → Temp) : (d.updTemp g).host = d.host := rfl
@[simp] theorem Dev.updTemp_padc (g : Temp → Temp) : (d.updTemp g).padc = d.padc := rfl
@[simp] theorem Dev.updTemp_pw (g : Temp → Temp) : (d.updTemp g).pw = d.pw := rfl
@[simp] theorem Dev.updTemp_prof (g : Temp → Temp) : (d.updTemp g).prof = d.prof := rfl
@[simp] theorem Dev.updTemp_twin (g : Temp → Temp) : (d.updTemp g).twin = d.twin := rfl
@[simp] theorem Dev.updTemp_ring (g : Temp → Temp) : (d.updTemp g).ring = d.ring := rfl
@[simp] theorem Dev.updTemp_spi (g : Temp → Temp) : (d.updTemp g).spi = d.spi := rfl
@[simp] theorem Dev.updTemp_temp (g : Temp → Temp) : (d.updTemp g).temp = g d.temp := rfl

/-! `Dev.updPw` changes `pw` alone. -/

@[simp] theorem Dev.updPw_regs (g : Power → Power) : (d.updPw g).regs = d.regs := rfl
@[simp] theorem Dev.updPw_time (g : Power → Power) : (d.updPw g).time = d.time := rfl
@[simp] theorem Dev.updPw_gen (g : Power → Power) : (d.updPw g).gen = d.gen := rfl
@[simp] theorem Dev.updPw_ep (g : Power → Power) : (d.updPw g).ep = d.ep := rfl
@[simp] theorem Dev.updPw_snap (g : Power → Power) : (d.updPw g).snap = d.snap := rfl
@[simp] theorem Dev.updPw_locks (g : Power → Power) : (d.updPw g).locks = d.locks := rfl
@[simp] theorem Dev.updPw_marks (g : Power → Power) : (d.updPw g).marks = d.marks := rfl
@[simp] theorem Dev.updPw_enc (g : Power → Power) : (d.updPw g).enc = d.enc := rfl
@[simp] theorem Dev.updPw_ports (g : Power → Power) : (d.updPw g).ports = d.ports := rfl
@[simp] theorem Dev.updPw_pipes (g : Power → Power) : (d.updPw g).pipes = d.pipes := rfl
@[simp] theorem Dev.updPw_corr (g : Power → Power) : (d.updPw g).corr = d.corr := rfl
@[simp] theorem Dev.updPw_zeroX (g : Power → Power) : (d.updPw g).zeroX = d.zeroX := rfl
@[simp] theorem Dev.updPw_freeCtr (g : Power → Power) : (d.updPw g).freeCtr = d.freeCtr := rfl
@[simp] theorem Dev.updPw_out (g : Power → Power) : (d.updPw g).out = d.out := rfl
@[simp] theorem Dev.updPw_ringSlot (g : Power → Power) : (d.updPw g).ringSlot = d.ringSlot := rfl
@[simp] theorem Dev.updPw_errLog (g : Power → Power) : (d.updPw g).errLog = d.errLog := rfl
@[simp] theorem Dev.updPw_nvs (g : Power → Power) : (d.updPw g).nvs = d.nvs := rfl
@[simp] theorem Dev.updPw_integ (g : Power → Power) : (d.updPw g).integ = d.integ := rfl
@[simp] theorem Dev.updPw_stitch (g : Power → Power) : (d.updPw g).stitch = d.stitch := rfl
@[simp] theorem Dev.updPw_heads (g : Power → Power) : (d.updPw g).heads = d.heads := rfl
@[simp] theorem Dev.updPw_padcTimes (g : Power → Power) : (d.updPw g).padcTimes = d.padcTimes := rfl
@[simp] theorem Dev.updPw_tags (g : Power → Power) : (d.updPw g).tags = d.tags := rfl
@[simp] theorem Dev.updPw_mark (g : Power → Power) : (d.updPw g).mark = d.mark := rfl
@[simp] theorem Dev.updPw_valves (g : Power → Power) : (d.updPw g).valves = d.valves := rfl
@[simp] theorem Dev.updPw_seg (g : Power → Power) : (d.updPw g).seg = d.seg := rfl
@[simp] theorem Dev.updPw_arch (g : Power → Power) : (d.updPw g).arch = d.arch := rfl
@[simp] theorem Dev.updPw_host (g : Power → Power) : (d.updPw g).host = d.host := rfl
@[simp] theorem Dev.updPw_padc (g : Power → Power) : (d.updPw g).padc = d.padc := rfl
@[simp] theorem Dev.updPw_temp (g : Power → Power) : (d.updPw g).temp = d.temp := rfl
@[simp] theorem Dev.updPw_prof (g : Power → Power) : (d.updPw g).prof = d.prof := rfl
@[simp] theorem Dev.updPw_twin (g : Power → Power) : (d.updPw g).twin = d.twin := rfl
@[simp] theorem Dev.updPw_ring (g : Power → Power) : (d.updPw g).ring = d.ring := rfl
@[simp] theorem Dev.updPw_spi (g : Power → Power) : (d.updPw g).spi = d.spi := rfl
@[simp] theorem Dev.updPw_pw (g : Power → Power) : (d.updPw g).pw = g d.pw := rfl

/-! `Dev.updProf` changes `prof` alone. -/

@[simp] theorem Dev.updProf_regs (g : Prof → Prof) : (d.updProf g).regs = d.regs := rfl
@[simp] theorem Dev.updProf_time (g : Prof → Prof) : (d.updProf g).time = d.time := rfl
@[simp] theorem Dev.updProf_gen (g : Prof → Prof) : (d.updProf g).gen = d.gen := rfl
@[simp] theorem Dev.updProf_ep (g : Prof → Prof) : (d.updProf g).ep = d.ep := rfl
@[simp] theorem Dev.updProf_snap (g : Prof → Prof) : (d.updProf g).snap = d.snap := rfl
@[simp] theorem Dev.updProf_locks (g : Prof → Prof) : (d.updProf g).locks = d.locks := rfl
@[simp] theorem Dev.updProf_marks (g : Prof → Prof) : (d.updProf g).marks = d.marks := rfl
@[simp] theorem Dev.updProf_enc (g : Prof → Prof) : (d.updProf g).enc = d.enc := rfl
@[simp] theorem Dev.updProf_ports (g : Prof → Prof) : (d.updProf g).ports = d.ports := rfl
@[simp] theorem Dev.updProf_pipes (g : Prof → Prof) : (d.updProf g).pipes = d.pipes := rfl
@[simp] theorem Dev.updProf_corr (g : Prof → Prof) : (d.updProf g).corr = d.corr := rfl
@[simp] theorem Dev.updProf_zeroX (g : Prof → Prof) : (d.updProf g).zeroX = d.zeroX := rfl
@[simp] theorem Dev.updProf_freeCtr (g : Prof → Prof) : (d.updProf g).freeCtr = d.freeCtr := rfl
@[simp] theorem Dev.updProf_out (g : Prof → Prof) : (d.updProf g).out = d.out := rfl
@[simp] theorem Dev.updProf_ringSlot (g : Prof → Prof) : (d.updProf g).ringSlot = d.ringSlot := rfl
@[simp] theorem Dev.updProf_errLog (g : Prof → Prof) : (d.updProf g).errLog = d.errLog := rfl
@[simp] theorem Dev.updProf_nvs (g : Prof → Prof) : (d.updProf g).nvs = d.nvs := rfl
@[simp] theorem Dev.updProf_integ (g : Prof → Prof) : (d.updProf g).integ = d.integ := rfl
@[simp] theorem Dev.updProf_stitch (g : Prof → Prof) : (d.updProf g).stitch = d.stitch := rfl
@[simp] theorem Dev.updProf_heads (g : Prof → Prof) : (d.updProf g).heads = d.heads := rfl
@[simp] theorem Dev.updProf_padcTimes (g : Prof → Prof) : (d.updProf g).padcTimes = d.padcTimes := rfl
@[simp] theorem Dev.updProf_tags (g : Prof → Prof) : (d.updProf g).tags = d.tags := rfl
@[simp] theorem Dev.updProf_mark (g : Prof → Prof) : (d.updProf g).mark = d.mark := rfl
@[simp] theorem Dev.updProf_valves (g : Prof → Prof) : (d.updProf g).valves = d.valves := rfl
@[simp] theorem Dev.updProf_seg (g : Prof → Prof) : (d.updProf g).seg = d.seg := rfl
@[simp] theorem Dev.updProf_arch (g : Prof → Prof) : (d.updProf g).arch = d.arch := rfl
@[simp] theorem Dev.updProf_host (g : Prof → Prof) : (d.updProf g).host = d.host := rfl
@[simp] theorem Dev.updProf_padc (g : Prof → Prof) : (d.updProf g).padc = d.padc := rfl
@[simp] theorem Dev.updProf_temp (g : Prof → Prof) : (d.updProf g).temp = d.temp := rfl
@[simp] theorem Dev.updProf_pw (g : Prof → Prof) : (d.updProf g).pw = d.pw := rfl
@[simp] theorem Dev.updProf_twin (g : Prof → Prof) : (d.updProf g).twin = d.twin := rfl
@[simp] theorem Dev.updProf_ring (g : Prof → Prof) : (d.updProf g).ring = d.ring := rfl
@[simp] theorem Dev.updProf_spi (g : Prof → Prof) : (d.updProf g).spi = d.spi := rfl
@[simp] theorem Dev.updProf_prof (g : Prof → Prof) : (d.updProf g).prof = g d.prof := rfl

/-! `Dev.updTwin` changes `twin` alone. -/

@[simp] theorem Dev.updTwin_regs (g : TwinSt → TwinSt) : (d.updTwin g).regs = d.regs := rfl
@[simp] theorem Dev.updTwin_time (g : TwinSt → TwinSt) : (d.updTwin g).time = d.time := rfl
@[simp] theorem Dev.updTwin_gen (g : TwinSt → TwinSt) : (d.updTwin g).gen = d.gen := rfl
@[simp] theorem Dev.updTwin_ep (g : TwinSt → TwinSt) : (d.updTwin g).ep = d.ep := rfl
@[simp] theorem Dev.updTwin_snap (g : TwinSt → TwinSt) : (d.updTwin g).snap = d.snap := rfl
@[simp] theorem Dev.updTwin_locks (g : TwinSt → TwinSt) : (d.updTwin g).locks = d.locks := rfl
@[simp] theorem Dev.updTwin_marks (g : TwinSt → TwinSt) : (d.updTwin g).marks = d.marks := rfl
@[simp] theorem Dev.updTwin_enc (g : TwinSt → TwinSt) : (d.updTwin g).enc = d.enc := rfl
@[simp] theorem Dev.updTwin_ports (g : TwinSt → TwinSt) : (d.updTwin g).ports = d.ports := rfl
@[simp] theorem Dev.updTwin_pipes (g : TwinSt → TwinSt) : (d.updTwin g).pipes = d.pipes := rfl
@[simp] theorem Dev.updTwin_corr (g : TwinSt → TwinSt) : (d.updTwin g).corr = d.corr := rfl
@[simp] theorem Dev.updTwin_zeroX (g : TwinSt → TwinSt) : (d.updTwin g).zeroX = d.zeroX := rfl
@[simp] theorem Dev.updTwin_freeCtr (g : TwinSt → TwinSt) : (d.updTwin g).freeCtr = d.freeCtr := rfl
@[simp] theorem Dev.updTwin_out (g : TwinSt → TwinSt) : (d.updTwin g).out = d.out := rfl
@[simp] theorem Dev.updTwin_ringSlot (g : TwinSt → TwinSt) : (d.updTwin g).ringSlot = d.ringSlot := rfl
@[simp] theorem Dev.updTwin_errLog (g : TwinSt → TwinSt) : (d.updTwin g).errLog = d.errLog := rfl
@[simp] theorem Dev.updTwin_nvs (g : TwinSt → TwinSt) : (d.updTwin g).nvs = d.nvs := rfl
@[simp] theorem Dev.updTwin_integ (g : TwinSt → TwinSt) : (d.updTwin g).integ = d.integ := rfl
@[simp] theorem Dev.updTwin_stitch (g : TwinSt → TwinSt) : (d.updTwin g).stitch = d.stitch := rfl
@[simp] theorem Dev.updTwin_heads (g : TwinSt → TwinSt) : (d.updTwin g).heads = d.heads := rfl
@[simp] theorem Dev.updTwin_padcTimes (g : TwinSt → TwinSt) : (d.updTwin g).padcTimes = d.padcTimes := rfl
@[simp] theorem Dev.updTwin_tags (g : TwinSt → TwinSt) : (d.updTwin g).tags = d.tags := rfl
@[simp] theorem Dev.updTwin_mark (g : TwinSt → TwinSt) : (d.updTwin g).mark = d.mark := rfl
@[simp] theorem Dev.updTwin_valves (g : TwinSt → TwinSt) : (d.updTwin g).valves = d.valves := rfl
@[simp] theorem Dev.updTwin_seg (g : TwinSt → TwinSt) : (d.updTwin g).seg = d.seg := rfl
@[simp] theorem Dev.updTwin_arch (g : TwinSt → TwinSt) : (d.updTwin g).arch = d.arch := rfl
@[simp] theorem Dev.updTwin_host (g : TwinSt → TwinSt) : (d.updTwin g).host = d.host := rfl
@[simp] theorem Dev.updTwin_padc (g : TwinSt → TwinSt) : (d.updTwin g).padc = d.padc := rfl
@[simp] theorem Dev.updTwin_temp (g : TwinSt → TwinSt) : (d.updTwin g).temp = d.temp := rfl
@[simp] theorem Dev.updTwin_pw (g : TwinSt → TwinSt) : (d.updTwin g).pw = d.pw := rfl
@[simp] theorem Dev.updTwin_prof (g : TwinSt → TwinSt) : (d.updTwin g).prof = d.prof := rfl
@[simp] theorem Dev.updTwin_ring (g : TwinSt → TwinSt) : (d.updTwin g).ring = d.ring := rfl
@[simp] theorem Dev.updTwin_spi (g : TwinSt → TwinSt) : (d.updTwin g).spi = d.spi := rfl
@[simp] theorem Dev.updTwin_twin (g : TwinSt → TwinSt) : (d.updTwin g).twin = g d.twin := rfl

/-! `Dev.updRing` changes `ring` alone. -/

@[simp] theorem Dev.updRing_regs (g : RingSt → RingSt) : (d.updRing g).regs = d.regs := rfl
@[simp] theorem Dev.updRing_time (g : RingSt → RingSt) : (d.updRing g).time = d.time := rfl
@[simp] theorem Dev.updRing_gen (g : RingSt → RingSt) : (d.updRing g).gen = d.gen := rfl
@[simp] theorem Dev.updRing_ep (g : RingSt → RingSt) : (d.updRing g).ep = d.ep := rfl
@[simp] theorem Dev.updRing_snap (g : RingSt → RingSt) : (d.updRing g).snap = d.snap := rfl
@[simp] theorem Dev.updRing_locks (g : RingSt → RingSt) : (d.updRing g).locks = d.locks := rfl
@[simp] theorem Dev.updRing_marks (g : RingSt → RingSt) : (d.updRing g).marks = d.marks := rfl
@[simp] theorem Dev.updRing_enc (g : RingSt → RingSt) : (d.updRing g).enc = d.enc := rfl
@[simp] theorem Dev.updRing_ports (g : RingSt → RingSt) : (d.updRing g).ports = d.ports := rfl
@[simp] theorem Dev.updRing_pipes (g : RingSt → RingSt) : (d.updRing g).pipes = d.pipes := rfl
@[simp] theorem Dev.updRing_corr (g : RingSt → RingSt) : (d.updRing g).corr = d.corr := rfl
@[simp] theorem Dev.updRing_zeroX (g : RingSt → RingSt) : (d.updRing g).zeroX = d.zeroX := rfl
@[simp] theorem Dev.updRing_freeCtr (g : RingSt → RingSt) : (d.updRing g).freeCtr = d.freeCtr := rfl
@[simp] theorem Dev.updRing_out (g : RingSt → RingSt) : (d.updRing g).out = d.out := rfl
@[simp] theorem Dev.updRing_ringSlot (g : RingSt → RingSt) : (d.updRing g).ringSlot = d.ringSlot := rfl
@[simp] theorem Dev.updRing_errLog (g : RingSt → RingSt) : (d.updRing g).errLog = d.errLog := rfl
@[simp] theorem Dev.updRing_nvs (g : RingSt → RingSt) : (d.updRing g).nvs = d.nvs := rfl
@[simp] theorem Dev.updRing_integ (g : RingSt → RingSt) : (d.updRing g).integ = d.integ := rfl
@[simp] theorem Dev.updRing_stitch (g : RingSt → RingSt) : (d.updRing g).stitch = d.stitch := rfl
@[simp] theorem Dev.updRing_heads (g : RingSt → RingSt) : (d.updRing g).heads = d.heads := rfl
@[simp] theorem Dev.updRing_padcTimes (g : RingSt → RingSt) : (d.updRing g).padcTimes = d.padcTimes := rfl
@[simp] theorem Dev.updRing_tags (g : RingSt → RingSt) : (d.updRing g).tags = d.tags := rfl
@[simp] theorem Dev.updRing_mark (g : RingSt → RingSt) : (d.updRing g).mark = d.mark := rfl
@[simp] theorem Dev.updRing_valves (g : RingSt → RingSt) : (d.updRing g).valves = d.valves := rfl
@[simp] theorem Dev.updRing_seg (g : RingSt → RingSt) : (d.updRing g).seg = d.seg := rfl
@[simp] theorem Dev.updRing_arch (g : RingSt → RingSt) : (d.updRing g).arch = d.arch := rfl
@[simp] theorem Dev.updRing_host (g : RingSt → RingSt) : (d.updRing g).host = d.host := rfl
@[simp] theorem Dev.updRing_padc (g : RingSt → RingSt) : (d.updRing g).padc = d.padc := rfl
@[simp] theorem Dev.updRing_temp (g : RingSt → RingSt) : (d.updRing g).temp = d.temp := rfl
@[simp] theorem Dev.updRing_pw (g : RingSt → RingSt) : (d.updRing g).pw = d.pw := rfl
@[simp] theorem Dev.updRing_prof (g : RingSt → RingSt) : (d.updRing g).prof = d.prof := rfl
@[simp] theorem Dev.updRing_twin (g : RingSt → RingSt) : (d.updRing g).twin = d.twin := rfl
@[simp] theorem Dev.updRing_spi (g : RingSt → RingSt) : (d.updRing g).spi = d.spi := rfl
@[simp] theorem Dev.updRing_ring (g : RingSt → RingSt) : (d.updRing g).ring = g d.ring := rfl

/-! `Dev.updSpi` changes `spi` alone. -/

@[simp] theorem Dev.updSpi_regs (g : SpiSt → SpiSt) : (d.updSpi g).regs = d.regs := rfl
@[simp] theorem Dev.updSpi_time (g : SpiSt → SpiSt) : (d.updSpi g).time = d.time := rfl
@[simp] theorem Dev.updSpi_gen (g : SpiSt → SpiSt) : (d.updSpi g).gen = d.gen := rfl
@[simp] theorem Dev.updSpi_ep (g : SpiSt → SpiSt) : (d.updSpi g).ep = d.ep := rfl
@[simp] theorem Dev.updSpi_snap (g : SpiSt → SpiSt) : (d.updSpi g).snap = d.snap := rfl
@[simp] theorem Dev.updSpi_locks (g : SpiSt → SpiSt) : (d.updSpi g).locks = d.locks := rfl
@[simp] theorem Dev.updSpi_marks (g : SpiSt → SpiSt) : (d.updSpi g).marks = d.marks := rfl
@[simp] theorem Dev.updSpi_enc (g : SpiSt → SpiSt) : (d.updSpi g).enc = d.enc := rfl
@[simp] theorem Dev.updSpi_ports (g : SpiSt → SpiSt) : (d.updSpi g).ports = d.ports := rfl
@[simp] theorem Dev.updSpi_pipes (g : SpiSt → SpiSt) : (d.updSpi g).pipes = d.pipes := rfl
@[simp] theorem Dev.updSpi_corr (g : SpiSt → SpiSt) : (d.updSpi g).corr = d.corr := rfl
@[simp] theorem Dev.updSpi_zeroX (g : SpiSt → SpiSt) : (d.updSpi g).zeroX = d.zeroX := rfl
@[simp] theorem Dev.updSpi_freeCtr (g : SpiSt → SpiSt) : (d.updSpi g).freeCtr = d.freeCtr := rfl
@[simp] theorem Dev.updSpi_out (g : SpiSt → SpiSt) : (d.updSpi g).out = d.out := rfl
@[simp] theorem Dev.updSpi_ringSlot (g : SpiSt → SpiSt) : (d.updSpi g).ringSlot = d.ringSlot := rfl
@[simp] theorem Dev.updSpi_errLog (g : SpiSt → SpiSt) : (d.updSpi g).errLog = d.errLog := rfl
@[simp] theorem Dev.updSpi_nvs (g : SpiSt → SpiSt) : (d.updSpi g).nvs = d.nvs := rfl
@[simp] theorem Dev.updSpi_integ (g : SpiSt → SpiSt) : (d.updSpi g).integ = d.integ := rfl
@[simp] theorem Dev.updSpi_stitch (g : SpiSt → SpiSt) : (d.updSpi g).stitch = d.stitch := rfl
@[simp] theorem Dev.updSpi_heads (g : SpiSt → SpiSt) : (d.updSpi g).heads = d.heads := rfl
@[simp] theorem Dev.updSpi_padcTimes (g : SpiSt → SpiSt) : (d.updSpi g).padcTimes = d.padcTimes := rfl
@[simp] theorem Dev.updSpi_tags (g : SpiSt → SpiSt) : (d.updSpi g).tags = d.tags := rfl
@[simp] theorem Dev.updSpi_mark (g : SpiSt → SpiSt) : (d.updSpi g).mark = d.mark := rfl
@[simp] theorem Dev.updSpi_valves (g : SpiSt → SpiSt) : (d.updSpi g).valves = d.valves := rfl
@[simp] theorem Dev.updSpi_seg (g : SpiSt → SpiSt) : (d.updSpi g).seg = d.seg := rfl
@[simp] theorem Dev.updSpi_arch (g : SpiSt → SpiSt) : (d.updSpi g).arch = d.arch := rfl
@[simp] theorem Dev.updSpi_host (g : SpiSt → SpiSt) : (d.updSpi g).host = d.host := rfl
@[simp] theorem Dev.updSpi_padc (g : SpiSt → SpiSt) : (d.updSpi g).padc = d.padc := rfl
@[simp] theorem Dev.updSpi_temp (g : SpiSt → SpiSt) : (d.updSpi g).temp = d.temp := rfl
@[simp] theorem Dev.updSpi_pw (g : SpiSt → SpiSt) : (d.updSpi g).pw = d.pw := rfl
@[simp] theorem Dev.updSpi_prof (g : SpiSt → SpiSt) : (d.updSpi g).prof = d.prof := rfl
@[simp] theorem Dev.updSpi_twin (g : SpiSt → SpiSt) : (d.updSpi g).twin = d.twin := rfl
@[simp] theorem Dev.updSpi_ring (g : SpiSt → SpiSt) : (d.updSpi g).ring = d.ring := rfl
@[simp] theorem Dev.updSpi_spi (g : SpiSt → SpiSt) : (d.updSpi g).spi = g d.spi := rfl

/-! The register operations made of `Dev.wr`. -/

@[simp] theorem Dev.wrB_time (f : Fld) (b : Bool) : (d.wrB f b).time = d.time := rfl
@[simp] theorem Dev.wrB_gen (f : Fld) (b : Bool) : (d.wrB f b).gen = d.gen := rfl
@[simp] theorem Dev.wrB_ep (f : Fld) (b : Bool) : (d.wrB f b).ep = d.ep := rfl
@[simp] theorem Dev.wrB_snap (f : Fld) (b : Bool) : (d.wrB f b).snap = d.snap := rfl
@[simp] theorem Dev.wrB_locks (f : Fld) (b : Bool) : (d.wrB f b).locks = d.locks := rfl
@[simp] theorem Dev.wrB_marks (f : Fld) (b : Bool) : (d.wrB f b).marks = d.marks := rfl
@[simp] theorem Dev.wrB_enc (f : Fld) (b : Bool) : (d.wrB f b).enc = d.enc := rfl
@[simp] theorem Dev.wrB_ports (f : Fld) (b : Bool) : (d.wrB f b).ports = d.ports := rfl
@[simp] theorem Dev.wrB_pipes (f : Fld) (b : Bool) : (d.wrB f b).pipes = d.pipes := rfl
@[simp] theorem Dev.wrB_corr (f : Fld) (b : Bool) : (d.wrB f b).corr = d.corr := rfl
@[simp] theorem Dev.wrB_zeroX (f : Fld) (b : Bool) : (d.wrB f b).zeroX = d.zeroX := rfl
@[simp] theorem Dev.wrB_freeCtr (f : Fld) (b : Bool) : (d.wrB f b).freeCtr = d.freeCtr := rfl
@[simp] theorem Dev.wrB_out (f : Fld) (b : Bool) : (d.wrB f b).out = d.out := rfl
@[simp] theorem Dev.wrB_ringSlot (f : Fld) (b : Bool) : (d.wrB f b).ringSlot = d.ringSlot := rfl
@[simp] theorem Dev.wrB_errLog (f : Fld) (b : Bool) : (d.wrB f b).errLog = d.errLog := rfl
@[simp] theorem Dev.wrB_nvs (f : Fld) (b : Bool) : (d.wrB f b).nvs = d.nvs := rfl
@[simp] theorem Dev.wrB_integ (f : Fld) (b : Bool) : (d.wrB f b).integ = d.integ := rfl
@[simp] theorem Dev.wrB_stitch (f : Fld) (b : Bool) : (d.wrB f b).stitch = d.stitch := rfl
@[simp] theorem Dev.wrB_heads (f : Fld) (b : Bool) : (d.wrB f b).heads = d.heads := rfl
@[simp] theorem Dev.wrB_padcTimes (f : Fld) (b : Bool) : (d.wrB f b).padcTimes = d.padcTimes := rfl
@[simp] theorem Dev.wrB_tags (f : Fld) (b : Bool) : (d.wrB f b).tags = d.tags := rfl
@[simp] theorem Dev.wrB_mark (f : Fld) (b : Bool) : (d.wrB f b).mark = d.mark := rfl
@[simp] theorem Dev.wrB_valves (f : Fld) (b : Bool) : (d.wrB f b).valves = d.valves := rfl
@[simp] theorem Dev.wrB_seg (f : Fld) (b : Bool) : (d.wrB f b).seg = d.seg := rfl
@[simp] theorem Dev.wrB_arch (f : Fld) (b : Bool) : (d.wrB f b).arch = d.arch := rfl
@[simp] theorem Dev.wrB_host (f : Fld) (b : Bool) : (d.wrB f b).host = d.host := rfl
@[simp] theorem Dev.wrB_padc (f : Fld) (b : Bool) : (d.wrB f b).padc = d.padc := rfl
@[simp] theorem Dev.wrB_temp (f : Fld) (b : Bool) : (d.wrB f b).temp = d.temp := rfl
@[simp] theorem Dev.wrB_pw (f : Fld) (b : Bool) : (d.wrB f b).pw = d.pw := rfl
@[simp] theorem Dev.wrB_prof (f : Fld) (b : Bool) : (d.wrB f b).prof = d.prof := rfl
@[simp] theorem Dev.wrB_twin (f : Fld) (b : Bool) : (d.wrB f b).twin = d.twin := rfl
@[simp] theorem Dev.wrB_ring (f : Fld) (b : Bool) : (d.wrB f b).ring = d.ring := rfl
@[simp] theorem Dev.wrB_spi (f : Fld) (b : Bool) : (d.wrB f b).spi = d.spi := rfl

@[simp] theorem Dev.wrS_time (f : Fld) (x : Int) : (d.wrS f x).time = d.time := rfl
@[simp] theorem Dev.wrS_gen (f : Fld) (x : Int) : (d.wrS f x).gen = d.gen := rfl
@[simp] theorem Dev.wrS_ep (f : Fld) (x : Int) : (d.wrS f x).ep = d.ep := rfl
@[simp] theorem Dev.wrS_snap (f : Fld) (x : Int) : (d.wrS f x).snap = d.snap := rfl
@[simp] theorem Dev.wrS_locks (f : Fld) (x : Int) : (d.wrS f x).locks = d.locks := rfl
@[simp] theorem Dev.wrS_marks (f : Fld) (x : Int) : (d.wrS f x).marks = d.marks := rfl
@[simp] theorem Dev.wrS_enc (f : Fld) (x : Int) : (d.wrS f x).enc = d.enc := rfl
@[simp] theorem Dev.wrS_ports (f : Fld) (x : Int) : (d.wrS f x).ports = d.ports := rfl
@[simp] theorem Dev.wrS_pipes (f : Fld) (x : Int) : (d.wrS f x).pipes = d.pipes := rfl
@[simp] theorem Dev.wrS_corr (f : Fld) (x : Int) : (d.wrS f x).corr = d.corr := rfl
@[simp] theorem Dev.wrS_zeroX (f : Fld) (x : Int) : (d.wrS f x).zeroX = d.zeroX := rfl
@[simp] theorem Dev.wrS_freeCtr (f : Fld) (x : Int) : (d.wrS f x).freeCtr = d.freeCtr := rfl
@[simp] theorem Dev.wrS_out (f : Fld) (x : Int) : (d.wrS f x).out = d.out := rfl
@[simp] theorem Dev.wrS_ringSlot (f : Fld) (x : Int) : (d.wrS f x).ringSlot = d.ringSlot := rfl
@[simp] theorem Dev.wrS_errLog (f : Fld) (x : Int) : (d.wrS f x).errLog = d.errLog := rfl
@[simp] theorem Dev.wrS_nvs (f : Fld) (x : Int) : (d.wrS f x).nvs = d.nvs := rfl
@[simp] theorem Dev.wrS_integ (f : Fld) (x : Int) : (d.wrS f x).integ = d.integ := rfl
@[simp] theorem Dev.wrS_stitch (f : Fld) (x : Int) : (d.wrS f x).stitch = d.stitch := rfl
@[simp] theorem Dev.wrS_heads (f : Fld) (x : Int) : (d.wrS f x).heads = d.heads := rfl
@[simp] theorem Dev.wrS_padcTimes (f : Fld) (x : Int) : (d.wrS f x).padcTimes = d.padcTimes := rfl
@[simp] theorem Dev.wrS_tags (f : Fld) (x : Int) : (d.wrS f x).tags = d.tags := rfl
@[simp] theorem Dev.wrS_mark (f : Fld) (x : Int) : (d.wrS f x).mark = d.mark := rfl
@[simp] theorem Dev.wrS_valves (f : Fld) (x : Int) : (d.wrS f x).valves = d.valves := rfl
@[simp] theorem Dev.wrS_seg (f : Fld) (x : Int) : (d.wrS f x).seg = d.seg := rfl
@[simp] theorem Dev.wrS_arch (f : Fld) (x : Int) : (d.wrS f x).arch = d.arch := rfl
@[simp] theorem Dev.wrS_host (f : Fld) (x : Int) : (d.wrS f x).host = d.host := rfl
@[simp] theorem Dev.wrS_padc (f : Fld) (x : Int) : (d.wrS f x).padc = d.padc := rfl
@[simp] theorem Dev.wrS_temp (f : Fld) (x : Int) : (d.wrS f x).temp = d.temp := rfl
@[simp] theorem Dev.wrS_pw (f : Fld) (x : Int) : (d.wrS f x).pw = d.pw := rfl
@[simp] theorem Dev.wrS_prof (f : Fld) (x : Int) : (d.wrS f x).prof = d.prof := rfl
@[simp] theorem Dev.wrS_twin (f : Fld) (x : Int) : (d.wrS f x).twin = d.twin := rfl
@[simp] theorem Dev.wrS_ring (f : Fld) (x : Int) : (d.wrS f x).ring = d.ring := rfl
@[simp] theorem Dev.wrS_spi (f : Fld) (x : Int) : (d.wrS f x).spi = d.spi := rfl

@[simp] theorem Dev.wrSat_time (f : Fld) (v : Nat) : (d.wrSat f v).time = d.time := rfl
@[simp] theorem Dev.wrSat_gen (f : Fld) (v : Nat) : (d.wrSat f v).gen = d.gen := rfl
@[simp] theorem Dev.wrSat_ep (f : Fld) (v : Nat) : (d.wrSat f v).ep = d.ep := rfl
@[simp] theorem Dev.wrSat_snap (f : Fld) (v : Nat) : (d.wrSat f v).snap = d.snap := rfl
@[simp] theorem Dev.wrSat_locks (f : Fld) (v : Nat) : (d.wrSat f v).locks = d.locks := rfl
@[simp] theorem Dev.wrSat_marks (f : Fld) (v : Nat) : (d.wrSat f v).marks = d.marks := rfl
@[simp] theorem Dev.wrSat_enc (f : Fld) (v : Nat) : (d.wrSat f v).enc = d.enc := rfl
@[simp] theorem Dev.wrSat_ports (f : Fld) (v : Nat) : (d.wrSat f v).ports = d.ports := rfl
@[simp] theorem Dev.wrSat_pipes (f : Fld) (v : Nat) : (d.wrSat f v).pipes = d.pipes := rfl
@[simp] theorem Dev.wrSat_corr (f : Fld) (v : Nat) : (d.wrSat f v).corr = d.corr := rfl
@[simp] theorem Dev.wrSat_zeroX (f : Fld) (v : Nat) : (d.wrSat f v).zeroX = d.zeroX := rfl
@[simp] theorem Dev.wrSat_freeCtr (f : Fld) (v : Nat) : (d.wrSat f v).freeCtr = d.freeCtr := rfl
@[simp] theorem Dev.wrSat_out (f : Fld) (v : Nat) : (d.wrSat f v).out = d.out := rfl
@[simp] theorem Dev.wrSat_ringSlot (f : Fld) (v : Nat) : (d.wrSat f v).ringSlot = d.ringSlot := rfl
@[simp] theorem Dev.wrSat_errLog (f : Fld) (v : Nat) : (d.wrSat f v).errLog = d.errLog := rfl
@[simp] theorem Dev.wrSat_nvs (f : Fld) (v : Nat) : (d.wrSat f v).nvs = d.nvs := rfl
@[simp] theorem Dev.wrSat_integ (f : Fld) (v : Nat) : (d.wrSat f v).integ = d.integ := rfl
@[simp] theorem Dev.wrSat_stitch (f : Fld) (v : Nat) : (d.wrSat f v).stitch = d.stitch := rfl
@[simp] theorem Dev.wrSat_heads (f : Fld) (v : Nat) : (d.wrSat f v).heads = d.heads := rfl
@[simp] theorem Dev.wrSat_padcTimes (f : Fld) (v : Nat) : (d.wrSat f v).padcTimes = d.padcTimes := rfl
@[simp] theorem Dev.wrSat_tags (f : Fld) (v : Nat) : (d.wrSat f v).tags = d.tags := rfl
@[simp] theorem Dev.wrSat_mark (f : Fld) (v : Nat) : (d.wrSat f v).mark = d.mark := rfl
@[simp] theorem Dev.wrSat_valves (f : Fld) (v : Nat) : (d.wrSat f v).valves = d.valves := rfl
@[simp] theorem Dev.wrSat_seg (f : Fld) (v : Nat) : (d.wrSat f v).seg = d.seg := rfl
@[simp] theorem Dev.wrSat_arch (f : Fld) (v : Nat) : (d.wrSat f v).arch = d.arch := rfl
@[simp] theorem Dev.wrSat_host (f : Fld) (v : Nat) : (d.wrSat f v).host = d.host := rfl
@[simp] theorem Dev.wrSat_padc (f : Fld) (v : Nat) : (d.wrSat f v).padc = d.padc := rfl
@[simp] theorem Dev.wrSat_temp (f : Fld) (v : Nat) : (d.wrSat f v).temp = d.temp := rfl
@[simp] theorem Dev.wrSat_pw (f : Fld) (v : Nat) : (d.wrSat f v).pw = d.pw := rfl
@[simp] theorem Dev.wrSat_prof (f : Fld) (v : Nat) : (d.wrSat f v).prof = d.prof := rfl
@[simp] theorem Dev.wrSat_twin (f : Fld) (v : Nat) : (d.wrSat f v).twin = d.twin := rfl
@[simp] theorem Dev.wrSat_ring (f : Fld) (v : Nat) : (d.wrSat f v).ring = d.ring := rfl
@[simp] theorem Dev.wrSat_spi (f : Fld) (v : Nat) : (d.wrSat f v).spi = d.spi := rfl

@[simp] theorem Dev.addCnt_time (f : Fld) (n : Nat) : (d.addCnt f n).time = d.time := rfl
@[simp] theorem Dev.addCnt_gen (f : Fld) (n : Nat) : (d.addCnt f n).gen = d.gen := rfl
@[simp] theorem Dev.addCnt_ep (f : Fld) (n : Nat) : (d.addCnt f n).ep = d.ep := rfl
@[simp] theorem Dev.addCnt_snap (f : Fld) (n : Nat) : (d.addCnt f n).snap = d.snap := rfl
@[simp] theorem Dev.addCnt_locks (f : Fld) (n : Nat) : (d.addCnt f n).locks = d.locks := rfl
@[simp] theorem Dev.addCnt_marks (f : Fld) (n : Nat) : (d.addCnt f n).marks = d.marks := rfl
@[simp] theorem Dev.addCnt_enc (f : Fld) (n : Nat) : (d.addCnt f n).enc = d.enc := rfl
@[simp] theorem Dev.addCnt_ports (f : Fld) (n : Nat) : (d.addCnt f n).ports = d.ports := rfl
@[simp] theorem Dev.addCnt_pipes (f : Fld) (n : Nat) : (d.addCnt f n).pipes = d.pipes := rfl
@[simp] theorem Dev.addCnt_corr (f : Fld) (n : Nat) : (d.addCnt f n).corr = d.corr := rfl
@[simp] theorem Dev.addCnt_zeroX (f : Fld) (n : Nat) : (d.addCnt f n).zeroX = d.zeroX := rfl
@[simp] theorem Dev.addCnt_freeCtr (f : Fld) (n : Nat) : (d.addCnt f n).freeCtr = d.freeCtr := rfl
@[simp] theorem Dev.addCnt_out (f : Fld) (n : Nat) : (d.addCnt f n).out = d.out := rfl
@[simp] theorem Dev.addCnt_ringSlot (f : Fld) (n : Nat) : (d.addCnt f n).ringSlot = d.ringSlot := rfl
@[simp] theorem Dev.addCnt_errLog (f : Fld) (n : Nat) : (d.addCnt f n).errLog = d.errLog := rfl
@[simp] theorem Dev.addCnt_nvs (f : Fld) (n : Nat) : (d.addCnt f n).nvs = d.nvs := rfl
@[simp] theorem Dev.addCnt_integ (f : Fld) (n : Nat) : (d.addCnt f n).integ = d.integ := rfl
@[simp] theorem Dev.addCnt_stitch (f : Fld) (n : Nat) : (d.addCnt f n).stitch = d.stitch := rfl
@[simp] theorem Dev.addCnt_heads (f : Fld) (n : Nat) : (d.addCnt f n).heads = d.heads := rfl
@[simp] theorem Dev.addCnt_padcTimes (f : Fld) (n : Nat) : (d.addCnt f n).padcTimes = d.padcTimes := rfl
@[simp] theorem Dev.addCnt_tags (f : Fld) (n : Nat) : (d.addCnt f n).tags = d.tags := rfl
@[simp] theorem Dev.addCnt_mark (f : Fld) (n : Nat) : (d.addCnt f n).mark = d.mark := rfl
@[simp] theorem Dev.addCnt_valves (f : Fld) (n : Nat) : (d.addCnt f n).valves = d.valves := rfl
@[simp] theorem Dev.addCnt_seg (f : Fld) (n : Nat) : (d.addCnt f n).seg = d.seg := rfl
@[simp] theorem Dev.addCnt_arch (f : Fld) (n : Nat) : (d.addCnt f n).arch = d.arch := rfl
@[simp] theorem Dev.addCnt_host (f : Fld) (n : Nat) : (d.addCnt f n).host = d.host := rfl
@[simp] theorem Dev.addCnt_padc (f : Fld) (n : Nat) : (d.addCnt f n).padc = d.padc := rfl
@[simp] theorem Dev.addCnt_temp (f : Fld) (n : Nat) : (d.addCnt f n).temp = d.temp := rfl
@[simp] theorem Dev.addCnt_pw (f : Fld) (n : Nat) : (d.addCnt f n).pw = d.pw := rfl
@[simp] theorem Dev.addCnt_prof (f : Fld) (n : Nat) : (d.addCnt f n).prof = d.prof := rfl
@[simp] theorem Dev.addCnt_twin (f : Fld) (n : Nat) : (d.addCnt f n).twin = d.twin := rfl
@[simp] theorem Dev.addCnt_ring (f : Fld) (n : Nat) : (d.addCnt f n).ring = d.ring := rfl
@[simp] theorem Dev.addCnt_spi (f : Fld) (n : Nat) : (d.addCnt f n).spi = d.spi := rfl

@[simp] theorem Dev.inc_time (f : Fld) : (d.inc f).time = d.time := rfl
@[simp] theorem Dev.inc_gen (f : Fld) : (d.inc f).gen = d.gen := rfl
@[simp] theorem Dev.inc_ep (f : Fld) : (d.inc f).ep = d.ep := rfl
@[simp] theorem Dev.inc_snap (f : Fld) : (d.inc f).snap = d.snap := rfl
@[simp] theorem Dev.inc_locks (f : Fld) : (d.inc f).locks = d.locks := rfl
@[simp] theorem Dev.inc_marks (f : Fld) : (d.inc f).marks = d.marks := rfl
@[simp] theorem Dev.inc_enc (f : Fld) : (d.inc f).enc = d.enc := rfl
@[simp] theorem Dev.inc_ports (f : Fld) : (d.inc f).ports = d.ports := rfl
@[simp] theorem Dev.inc_pipes (f : Fld) : (d.inc f).pipes = d.pipes := rfl
@[simp] theorem Dev.inc_corr (f : Fld) : (d.inc f).corr = d.corr := rfl
@[simp] theorem Dev.inc_zeroX (f : Fld) : (d.inc f).zeroX = d.zeroX := rfl
@[simp] theorem Dev.inc_freeCtr (f : Fld) : (d.inc f).freeCtr = d.freeCtr := rfl
@[simp] theorem Dev.inc_out (f : Fld) : (d.inc f).out = d.out := rfl
@[simp] theorem Dev.inc_ringSlot (f : Fld) : (d.inc f).ringSlot = d.ringSlot := rfl
@[simp] theorem Dev.inc_errLog (f : Fld) : (d.inc f).errLog = d.errLog := rfl
@[simp] theorem Dev.inc_nvs (f : Fld) : (d.inc f).nvs = d.nvs := rfl
@[simp] theorem Dev.inc_integ (f : Fld) : (d.inc f).integ = d.integ := rfl
@[simp] theorem Dev.inc_stitch (f : Fld) : (d.inc f).stitch = d.stitch := rfl
@[simp] theorem Dev.inc_heads (f : Fld) : (d.inc f).heads = d.heads := rfl
@[simp] theorem Dev.inc_padcTimes (f : Fld) : (d.inc f).padcTimes = d.padcTimes := rfl
@[simp] theorem Dev.inc_tags (f : Fld) : (d.inc f).tags = d.tags := rfl
@[simp] theorem Dev.inc_mark (f : Fld) : (d.inc f).mark = d.mark := rfl
@[simp] theorem Dev.inc_valves (f : Fld) : (d.inc f).valves = d.valves := rfl
@[simp] theorem Dev.inc_seg (f : Fld) : (d.inc f).seg = d.seg := rfl
@[simp] theorem Dev.inc_arch (f : Fld) : (d.inc f).arch = d.arch := rfl
@[simp] theorem Dev.inc_host (f : Fld) : (d.inc f).host = d.host := rfl
@[simp] theorem Dev.inc_padc (f : Fld) : (d.inc f).padc = d.padc := rfl
@[simp] theorem Dev.inc_temp (f : Fld) : (d.inc f).temp = d.temp := rfl
@[simp] theorem Dev.inc_pw (f : Fld) : (d.inc f).pw = d.pw := rfl
@[simp] theorem Dev.inc_prof (f : Fld) : (d.inc f).prof = d.prof := rfl
@[simp] theorem Dev.inc_twin (f : Fld) : (d.inc f).twin = d.twin := rfl
@[simp] theorem Dev.inc_ring (f : Fld) : (d.inc f).ring = d.ring := rfl
@[simp] theorem Dev.inc_spi (f : Fld) : (d.inc f).spi = d.spi := rfl

@[simp] theorem Dev.wr2_time (lo hi : Fld) (v : Nat) : (d.wr2 lo hi v).time = d.time := rfl
@[simp] theorem Dev.wr2_gen (lo hi : Fld) (v : Nat) : (d.wr2 lo hi v).gen = d.gen := rfl
@[simp] theorem Dev.wr2_ep (lo hi : Fld) (v : Nat) : (d.wr2 lo hi v).ep = d.ep := rfl
@[simp] theorem Dev.wr2_snap (lo hi : Fld) (v : Nat) : (d.wr2 lo hi v).snap = d.snap := rfl
@[simp] theorem Dev.wr2_locks (lo hi : Fld) (v : Nat) : (d.wr2 lo hi v).locks = d.locks := rfl
@[simp] theorem Dev.wr2_marks (lo hi : Fld) (v : Nat) : (d.wr2 lo hi v).marks = d.marks := rfl
@[simp] theorem Dev.wr2_enc (lo hi : Fld) (v : Nat) : (d.wr2 lo hi v).enc = d.enc := rfl
@[simp] theorem Dev.wr2_ports (lo hi : Fld) (v : Nat) : (d.wr2 lo hi v).ports = d.ports := rfl
@[simp] theorem Dev.wr2_pipes (lo hi : Fld) (v : Nat) : (d.wr2 lo hi v).pipes = d.pipes := rfl
@[simp] theorem Dev.wr2_corr (lo hi : Fld) (v : Nat) : (d.wr2 lo hi v).corr = d.corr := rfl
@[simp] theorem Dev.wr2_zeroX (lo hi : Fld) (v : Nat) : (d.wr2 lo hi v).zeroX = d.zeroX := rfl
@[simp] theorem Dev.wr2_freeCtr (lo hi : Fld) (v : Nat) : (d.wr2 lo hi v).freeCtr = d.freeCtr := rfl
@[simp] theorem Dev.wr2_out (lo hi : Fld) (v : Nat) : (d.wr2 lo hi v).out = d.out := rfl
@[simp] theorem Dev.wr2_ringSlot (lo hi : Fld) (v : Nat) : (d.wr2 lo hi v).ringSlot = d.ringSlot := rfl
@[simp] theorem Dev.wr2_errLog (lo hi : Fld) (v : Nat) : (d.wr2 lo hi v).errLog = d.errLog := rfl
@[simp] theorem Dev.wr2_nvs (lo hi : Fld) (v : Nat) : (d.wr2 lo hi v).nvs = d.nvs := rfl
@[simp] theorem Dev.wr2_integ (lo hi : Fld) (v : Nat) : (d.wr2 lo hi v).integ = d.integ := rfl
@[simp] theorem Dev.wr2_stitch (lo hi : Fld) (v : Nat) : (d.wr2 lo hi v).stitch = d.stitch := rfl
@[simp] theorem Dev.wr2_heads (lo hi : Fld) (v : Nat) : (d.wr2 lo hi v).heads = d.heads := rfl
@[simp] theorem Dev.wr2_padcTimes (lo hi : Fld) (v : Nat) : (d.wr2 lo hi v).padcTimes = d.padcTimes := rfl
@[simp] theorem Dev.wr2_tags (lo hi : Fld) (v : Nat) : (d.wr2 lo hi v).tags = d.tags := rfl
@[simp] theorem Dev.wr2_mark (lo hi : Fld) (v : Nat) : (d.wr2 lo hi v).mark = d.mark := rfl
@[simp] theorem Dev.wr2_valves (lo hi : Fld) (v : Nat) : (d.wr2 lo hi v).valves = d.valves := rfl
@[simp] theorem Dev.wr2_seg (lo hi : Fld) (v : Nat) : (d.wr2 lo hi v).seg = d.seg := rfl
@[simp] theorem Dev.wr2_arch (lo hi : Fld) (v : Nat) : (d.wr2 lo hi v).arch = d.arch := rfl
@[simp] theorem Dev.wr2_host (lo hi : Fld) (v : Nat) : (d.wr2 lo hi v).host = d.host := rfl
@[simp] theorem Dev.wr2_padc (lo hi : Fld) (v : Nat) : (d.wr2 lo hi v).padc = d.padc := rfl
@[simp] theorem Dev.wr2_temp (lo hi : Fld) (v : Nat) : (d.wr2 lo hi v).temp = d.temp := rfl
@[simp] theorem Dev.wr2_pw (lo hi : Fld) (v : Nat) : (d.wr2 lo hi v).pw = d.pw := rfl
@[simp] theorem Dev.wr2_prof (lo hi : Fld) (v : Nat) : (d.wr2 lo hi v).prof = d.prof := rfl
@[simp] theorem Dev.wr2_twin (lo hi : Fld) (v : Nat) : (d.wr2 lo hi v).twin = d.twin := rfl
@[simp] theorem Dev.wr2_ring (lo hi : Fld) (v : Nat) : (d.wr2 lo hi v).ring = d.ring := rfl
@[simp] theorem Dev.wr2_spi (lo hi : Fld) (v : Nat) : (d.wr2 lo hi v).spi = d.spi := rfl

@[simp] theorem Dev.wr2S_time (lo hi : Fld) (x : Int) : (d.wr2S lo hi x).time = d.time := rfl
@[simp] theorem Dev.wr2S_gen (lo hi : Fld) (x : Int) : (d.wr2S lo hi x).gen = d.gen := rfl
@[simp] theorem Dev.wr2S_ep (lo hi : Fld) (x : Int) : (d.wr2S lo hi x).ep = d.ep := rfl
@[simp] theorem Dev.wr2S_snap (lo hi : Fld) (x : Int) : (d.wr2S lo hi x).snap = d.snap := rfl
@[simp] theorem Dev.wr2S_locks (lo hi : Fld) (x : Int) : (d.wr2S lo hi x).locks = d.locks := rfl
@[simp] theorem Dev.wr2S_marks (lo hi : Fld) (x : Int) : (d.wr2S lo hi x).marks = d.marks := rfl
@[simp] theorem Dev.wr2S_enc (lo hi : Fld) (x : Int) : (d.wr2S lo hi x).enc = d.enc := rfl
@[simp] theorem Dev.wr2S_ports (lo hi : Fld) (x : Int) : (d.wr2S lo hi x).ports = d.ports := rfl
@[simp] theorem Dev.wr2S_pipes (lo hi : Fld) (x : Int) : (d.wr2S lo hi x).pipes = d.pipes := rfl
@[simp] theorem Dev.wr2S_corr (lo hi : Fld) (x : Int) : (d.wr2S lo hi x).corr = d.corr := rfl
@[simp] theorem Dev.wr2S_zeroX (lo hi : Fld) (x : Int) : (d.wr2S lo hi x).zeroX = d.zeroX := rfl
@[simp] theorem Dev.wr2S_freeCtr (lo hi : Fld) (x : Int) : (d.wr2S lo hi x).freeCtr = d.freeCtr := rfl
@[simp] theorem Dev.wr2S_out (lo hi : Fld) (x : Int) : (d.wr2S lo hi x).out = d.out := rfl
@[simp] theorem Dev.wr2S_ringSlot (lo hi : Fld) (x : Int) : (d.wr2S lo hi x).ringSlot = d.ringSlot := rfl
@[simp] theorem Dev.wr2S_errLog (lo hi : Fld) (x : Int) : (d.wr2S lo hi x).errLog = d.errLog := rfl
@[simp] theorem Dev.wr2S_nvs (lo hi : Fld) (x : Int) : (d.wr2S lo hi x).nvs = d.nvs := rfl
@[simp] theorem Dev.wr2S_integ (lo hi : Fld) (x : Int) : (d.wr2S lo hi x).integ = d.integ := rfl
@[simp] theorem Dev.wr2S_stitch (lo hi : Fld) (x : Int) : (d.wr2S lo hi x).stitch = d.stitch := rfl
@[simp] theorem Dev.wr2S_heads (lo hi : Fld) (x : Int) : (d.wr2S lo hi x).heads = d.heads := rfl
@[simp] theorem Dev.wr2S_padcTimes (lo hi : Fld) (x : Int) : (d.wr2S lo hi x).padcTimes = d.padcTimes := rfl
@[simp] theorem Dev.wr2S_tags (lo hi : Fld) (x : Int) : (d.wr2S lo hi x).tags = d.tags := rfl
@[simp] theorem Dev.wr2S_mark (lo hi : Fld) (x : Int) : (d.wr2S lo hi x).mark = d.mark := rfl
@[simp] theorem Dev.wr2S_valves (lo hi : Fld) (x : Int) : (d.wr2S lo hi x).valves = d.valves := rfl
@[simp] theorem Dev.wr2S_seg (lo hi : Fld) (x : Int) : (d.wr2S lo hi x).seg = d.seg := rfl
@[simp] theorem Dev.wr2S_arch (lo hi : Fld) (x : Int) : (d.wr2S lo hi x).arch = d.arch := rfl
@[simp] theorem Dev.wr2S_host (lo hi : Fld) (x : Int) : (d.wr2S lo hi x).host = d.host := rfl
@[simp] theorem Dev.wr2S_padc (lo hi : Fld) (x : Int) : (d.wr2S lo hi x).padc = d.padc := rfl
@[simp] theorem Dev.wr2S_temp (lo hi : Fld) (x : Int) : (d.wr2S lo hi x).temp = d.temp := rfl
@[simp] theorem Dev.wr2S_pw (lo hi : Fld) (x : Int) : (d.wr2S lo hi x).pw = d.pw := rfl
@[simp] theorem Dev.wr2S_prof (lo hi : Fld) (x : Int) : (d.wr2S lo hi x).prof = d.prof := rfl
@[simp] theorem Dev.wr2S_twin (lo hi : Fld) (x : Int) : (d.wr2S lo hi x).twin = d.twin := rfl
@[simp] theorem Dev.wr2S_ring (lo hi : Fld) (x : Int) : (d.wr2S lo hi x).ring = d.ring := rfl
@[simp] theorem Dev.wr2S_spi (lo hi : Fld) (x : Int) : (d.wr2S lo hi x).spi = d.spi := rfl

/-! Interrupts touch the registers alone. -/

@[simp] theorem Dev.irq_time (p b : Nat) : (d.irq p b).time = d.time := by unfold Dev.irq; split <;> (try split) <;> rfl
@[simp] theorem Dev.irq_gen (p b : Nat) : (d.irq p b).gen = d.gen := by unfold Dev.irq; split <;> (try split) <;> rfl
@[simp] theorem Dev.irq_ep (p b : Nat) : (d.irq p b).ep = d.ep := by unfold Dev.irq; split <;> (try split) <;> rfl
@[simp] theorem Dev.irq_snap (p b : Nat) : (d.irq p b).snap = d.snap := by unfold Dev.irq; split <;> (try split) <;> rfl
@[simp] theorem Dev.irq_locks (p b : Nat) : (d.irq p b).locks = d.locks := by unfold Dev.irq; split <;> (try split) <;> rfl
@[simp] theorem Dev.irq_marks (p b : Nat) : (d.irq p b).marks = d.marks := by unfold Dev.irq; split <;> (try split) <;> rfl
@[simp] theorem Dev.irq_enc (p b : Nat) : (d.irq p b).enc = d.enc := by unfold Dev.irq; split <;> (try split) <;> rfl
@[simp] theorem Dev.irq_ports (p b : Nat) : (d.irq p b).ports = d.ports := by unfold Dev.irq; split <;> (try split) <;> rfl
@[simp] theorem Dev.irq_pipes (p b : Nat) : (d.irq p b).pipes = d.pipes := by unfold Dev.irq; split <;> (try split) <;> rfl
@[simp] theorem Dev.irq_corr (p b : Nat) : (d.irq p b).corr = d.corr := by unfold Dev.irq; split <;> (try split) <;> rfl
@[simp] theorem Dev.irq_zeroX (p b : Nat) : (d.irq p b).zeroX = d.zeroX := by unfold Dev.irq; split <;> (try split) <;> rfl
@[simp] theorem Dev.irq_freeCtr (p b : Nat) : (d.irq p b).freeCtr = d.freeCtr := by unfold Dev.irq; split <;> (try split) <;> rfl
@[simp] theorem Dev.irq_out (p b : Nat) : (d.irq p b).out = d.out := by unfold Dev.irq; split <;> (try split) <;> rfl
@[simp] theorem Dev.irq_ringSlot (p b : Nat) : (d.irq p b).ringSlot = d.ringSlot := by unfold Dev.irq; split <;> (try split) <;> rfl
@[simp] theorem Dev.irq_errLog (p b : Nat) : (d.irq p b).errLog = d.errLog := by unfold Dev.irq; split <;> (try split) <;> rfl
@[simp] theorem Dev.irq_nvs (p b : Nat) : (d.irq p b).nvs = d.nvs := by unfold Dev.irq; split <;> (try split) <;> rfl
@[simp] theorem Dev.irq_integ (p b : Nat) : (d.irq p b).integ = d.integ := by unfold Dev.irq; split <;> (try split) <;> rfl
@[simp] theorem Dev.irq_stitch (p b : Nat) : (d.irq p b).stitch = d.stitch := by unfold Dev.irq; split <;> (try split) <;> rfl
@[simp] theorem Dev.irq_heads (p b : Nat) : (d.irq p b).heads = d.heads := by unfold Dev.irq; split <;> (try split) <;> rfl
@[simp] theorem Dev.irq_padcTimes (p b : Nat) : (d.irq p b).padcTimes = d.padcTimes := by unfold Dev.irq; split <;> (try split) <;> rfl
@[simp] theorem Dev.irq_tags (p b : Nat) : (d.irq p b).tags = d.tags := by unfold Dev.irq; split <;> (try split) <;> rfl
@[simp] theorem Dev.irq_mark (p b : Nat) : (d.irq p b).mark = d.mark := by unfold Dev.irq; split <;> (try split) <;> rfl
@[simp] theorem Dev.irq_valves (p b : Nat) : (d.irq p b).valves = d.valves := by unfold Dev.irq; split <;> (try split) <;> rfl
@[simp] theorem Dev.irq_seg (p b : Nat) : (d.irq p b).seg = d.seg := by unfold Dev.irq; split <;> (try split) <;> rfl
@[simp] theorem Dev.irq_arch (p b : Nat) : (d.irq p b).arch = d.arch := by unfold Dev.irq; split <;> (try split) <;> rfl
@[simp] theorem Dev.irq_host (p b : Nat) : (d.irq p b).host = d.host := by unfold Dev.irq; split <;> (try split) <;> rfl
@[simp] theorem Dev.irq_padc (p b : Nat) : (d.irq p b).padc = d.padc := by unfold Dev.irq; split <;> (try split) <;> rfl
@[simp] theorem Dev.irq_temp (p b : Nat) : (d.irq p b).temp = d.temp := by unfold Dev.irq; split <;> (try split) <;> rfl
@[simp] theorem Dev.irq_pw (p b : Nat) : (d.irq p b).pw = d.pw := by unfold Dev.irq; split <;> (try split) <;> rfl
@[simp] theorem Dev.irq_prof (p b : Nat) : (d.irq p b).prof = d.prof := by unfold Dev.irq; split <;> (try split) <;> rfl
@[simp] theorem Dev.irq_twin (p b : Nat) : (d.irq p b).twin = d.twin := by unfold Dev.irq; split <;> (try split) <;> rfl
@[simp] theorem Dev.irq_ring (p b : Nat) : (d.irq p b).ring = d.ring := by unfold Dev.irq; split <;> (try split) <;> rfl
@[simp] theorem Dev.irq_spi (p b : Nat) : (d.irq p b).spi = d.spi := by unfold Dev.irq; split <;> (try split) <;> rfl
@[simp] theorem Dev.irqIf_time (c : Bool) (p b : Nat) : (d.irqIf c p b).time = d.time := by cases c <;> simp [Dev.irqIf]
@[simp] theorem Dev.irqIf_gen (c : Bool) (p b : Nat) : (d.irqIf c p b).gen = d.gen := by cases c <;> simp [Dev.irqIf]
@[simp] theorem Dev.irqIf_ep (c : Bool) (p b : Nat) : (d.irqIf c p b).ep = d.ep := by cases c <;> simp [Dev.irqIf]
@[simp] theorem Dev.irqIf_snap (c : Bool) (p b : Nat) : (d.irqIf c p b).snap = d.snap := by cases c <;> simp [Dev.irqIf]
@[simp] theorem Dev.irqIf_locks (c : Bool) (p b : Nat) : (d.irqIf c p b).locks = d.locks := by cases c <;> simp [Dev.irqIf]
@[simp] theorem Dev.irqIf_marks (c : Bool) (p b : Nat) : (d.irqIf c p b).marks = d.marks := by cases c <;> simp [Dev.irqIf]
@[simp] theorem Dev.irqIf_enc (c : Bool) (p b : Nat) : (d.irqIf c p b).enc = d.enc := by cases c <;> simp [Dev.irqIf]
@[simp] theorem Dev.irqIf_ports (c : Bool) (p b : Nat) : (d.irqIf c p b).ports = d.ports := by cases c <;> simp [Dev.irqIf]
@[simp] theorem Dev.irqIf_pipes (c : Bool) (p b : Nat) : (d.irqIf c p b).pipes = d.pipes := by cases c <;> simp [Dev.irqIf]
@[simp] theorem Dev.irqIf_corr (c : Bool) (p b : Nat) : (d.irqIf c p b).corr = d.corr := by cases c <;> simp [Dev.irqIf]
@[simp] theorem Dev.irqIf_zeroX (c : Bool) (p b : Nat) : (d.irqIf c p b).zeroX = d.zeroX := by cases c <;> simp [Dev.irqIf]
@[simp] theorem Dev.irqIf_freeCtr (c : Bool) (p b : Nat) : (d.irqIf c p b).freeCtr = d.freeCtr := by cases c <;> simp [Dev.irqIf]
@[simp] theorem Dev.irqIf_out (c : Bool) (p b : Nat) : (d.irqIf c p b).out = d.out := by cases c <;> simp [Dev.irqIf]
@[simp] theorem Dev.irqIf_ringSlot (c : Bool) (p b : Nat) : (d.irqIf c p b).ringSlot = d.ringSlot := by cases c <;> simp [Dev.irqIf]
@[simp] theorem Dev.irqIf_errLog (c : Bool) (p b : Nat) : (d.irqIf c p b).errLog = d.errLog := by cases c <;> simp [Dev.irqIf]
@[simp] theorem Dev.irqIf_nvs (c : Bool) (p b : Nat) : (d.irqIf c p b).nvs = d.nvs := by cases c <;> simp [Dev.irqIf]
@[simp] theorem Dev.irqIf_integ (c : Bool) (p b : Nat) : (d.irqIf c p b).integ = d.integ := by cases c <;> simp [Dev.irqIf]
@[simp] theorem Dev.irqIf_stitch (c : Bool) (p b : Nat) : (d.irqIf c p b).stitch = d.stitch := by cases c <;> simp [Dev.irqIf]
@[simp] theorem Dev.irqIf_heads (c : Bool) (p b : Nat) : (d.irqIf c p b).heads = d.heads := by cases c <;> simp [Dev.irqIf]
@[simp] theorem Dev.irqIf_padcTimes (c : Bool) (p b : Nat) : (d.irqIf c p b).padcTimes = d.padcTimes := by cases c <;> simp [Dev.irqIf]
@[simp] theorem Dev.irqIf_tags (c : Bool) (p b : Nat) : (d.irqIf c p b).tags = d.tags := by cases c <;> simp [Dev.irqIf]
@[simp] theorem Dev.irqIf_mark (c : Bool) (p b : Nat) : (d.irqIf c p b).mark = d.mark := by cases c <;> simp [Dev.irqIf]
@[simp] theorem Dev.irqIf_valves (c : Bool) (p b : Nat) : (d.irqIf c p b).valves = d.valves := by cases c <;> simp [Dev.irqIf]
@[simp] theorem Dev.irqIf_seg (c : Bool) (p b : Nat) : (d.irqIf c p b).seg = d.seg := by cases c <;> simp [Dev.irqIf]
@[simp] theorem Dev.irqIf_arch (c : Bool) (p b : Nat) : (d.irqIf c p b).arch = d.arch := by cases c <;> simp [Dev.irqIf]
@[simp] theorem Dev.irqIf_host (c : Bool) (p b : Nat) : (d.irqIf c p b).host = d.host := by cases c <;> simp [Dev.irqIf]
@[simp] theorem Dev.irqIf_padc (c : Bool) (p b : Nat) : (d.irqIf c p b).padc = d.padc := by cases c <;> simp [Dev.irqIf]
@[simp] theorem Dev.irqIf_temp (c : Bool) (p b : Nat) : (d.irqIf c p b).temp = d.temp := by cases c <;> simp [Dev.irqIf]
@[simp] theorem Dev.irqIf_pw (c : Bool) (p b : Nat) : (d.irqIf c p b).pw = d.pw := by cases c <;> simp [Dev.irqIf]
@[simp] theorem Dev.irqIf_prof (c : Bool) (p b : Nat) : (d.irqIf c p b).prof = d.prof := by cases c <;> simp [Dev.irqIf]
@[simp] theorem Dev.irqIf_twin (c : Bool) (p b : Nat) : (d.irqIf c p b).twin = d.twin := by cases c <;> simp [Dev.irqIf]
@[simp] theorem Dev.irqIf_ring (c : Bool) (p b : Nat) : (d.irqIf c p b).ring = d.ring := by cases c <;> simp [Dev.irqIf]
@[simp] theorem Dev.irqIf_spi (c : Bool) (p b : Nat) : (d.irqIf c p b).spi = d.spi := by cases c <;> simp [Dev.irqIf]

end Sys2Proof.Machine
end

