-- ==== Sys2Proof/WellFormed.lean ====
section
/-! DEFINITION. Well-formed commands: every operand that stands for a field of a message, a packet or an address lies within that field's width.
Operands whose type already bounds them need no check. -/

namespace Sys2Proof

/-- A number that a field of `w` bits holds. -/
def fits (w n : Nat) : Bool := decide (n < 2 ^ w)

/-- A web line number: 48 bits (R14). -/
def wlnOk (n : Nat) : Bool := fits 48 n

/-- A page index: address bits 23:12 (R7). -/
def pageOk (n : Nat) : Bool := fits 12 n

/-- A THP request as it arrives (Table 13.2): IPv4 address and UDP port. -/
def ThpReq.ok (r : ThpReq) : Bool := fits 32 r.ip && fits 16 r.udp

/-- A command whose operands lie within their fields. -/
def Instr.wf : Instr → Bool
  | .timebaseTick => true
  | .tbStep => true
  | .tbHoldover => true
  | .sync _ src domain seq _ _ => fits 80 src && fits 8 domain && fits 16 seq
  | .followUp _ src seq _ => fits 80 src && fits 16 seq
  | .announce _ src domain => fits 80 src && fits 8 domain
  | .announceTimeout => true
  | .delayReqSend => true
  | .delayResp _ src seq _ => fits 80 src && fits 16 seq
  | .delayReq _ src domain seq => fits 80 src && fits 8 domain && fits 16 seq
  | .announceSend => true
  | .syncSend => true
  | .encoderEdge _ _ _ _ => true
  | .indexEvent _ _ => true
  | .ssiReadStart _ => true
  | .ssiReading _ _ _ _ _ => true
  | .hallEdge _ _ _ => true
  | .latchEvent _ _ _ _ => true
  | .latchSw _ => true
  | .lSpeedRead _ => true
  | .standstill _ => true
  | .encoderLos _ _ _ => true
  | .foDisagreeCheck => true
  | .freeRunTrigger => true
  | .holdbackRelease => true
  | .line wln _ _ _ => wlnOk wln
  | .arm => true
  | .cancel => true
  | .prepare e id lastId => wlnOk e && fits 16 id && fits 16 lastId
  | .stageAck id => fits 16 id
  | .epochReady _ => true
  | .refuse _ _ => true
  | .commit e id _ _ => wlnOk e && fits 16 id
  | .abort e id _ _ => wlnOk e && fits 16 id
  | .commitForward _ e id _ _ => wlnOk e && fits 16 id
  | .epochDeadline => true
  | .epochApply => true
  | .epochInDoubt => true
  | .stageDiscard page => pageOk page
  | .snapReq => true
  | .snapNext => true
  | .snapRelease => true
  | .snap target => wlnOk target
  | .portEnable _ => true
  | .portDisable _ => true
  | .retrain _ => true
  | .laneLos _ _ => true
  | .blockLockGained _ _ => true
  | .blockLockLost _ _ _ => true
  | .align _ _ _ => true
  | .camHello _ _ => true
  | .capsTimeout _ => true
  | .accept _ _ _ _ _ => true
  | .rateSwitch _ => true
  | .switchTimeout _ => true
  | .camReady _ => true
  | .linkActive _ => true
  | .equalizeTimeout _ => true
  | .failedRetry _ => true
  | .eyeReport _ _ _ => true
  | .eyeMeasure _ _ _ _ => true
  | .linkMsgDiscard _ _ => true
  | .frameStart _ _ data _ => fits 16 data
  | .embeddedData _ _ _ _ _ => true
  | .rawPacket _ _ dt _ _ _ => fits 6 dt
  | .frameEnd _ _ data _ => fits 16 data
  | .sideStreamPacket _ _ dt _ => fits 6 dt
  | .dtError _ packet => fits 6 packet.dt
  | .lineTimeout _ wln => wlnOk wln
  | .creditGUpdate _ => true
  | .creditSend _ => true
  | .triggerBlockSend _ _ => true
  | .triggerLate _ _ => true
  | .setAck _ _ _ => true
  | .settingsRetry _ _ => true
  | .regAck _ _ => true
  | .regNak _ _ _ => true
  | .regData _ _ _ => true
  | .crGo _ => true
  | .crTimeout _ => true
  | .roleAck _ _ fromWln => wlnOk fromWln
  | .triggerAtPipeline => true
  | .slotReserve _ => true
  | .mrLineLanded _ _ wln => wlnOk wln
  | .mrSliceFetch _ _ => true
  | .itemGrant _ => true
  | .lineTailOut _ _ wln => wlnOk wln
  | .voidNotice _ _ wln => wlnOk wln
  | .ilWaitMaxClear _ => true
  | .mrResMaxClear _ => true
  | .statRecord _ => true
  | .flickerUpdate _ => true
  | .mainsZeroCrossing _ => true
  | .setReqGo _ => true
  | .corrTableWrite addr _ => fits 28 addr
  | .headEnable _ => true
  | .headDisable _ => true
  | .headRestart _ => true
  | .headPresentLost _ => true
  | .biasTransfer _ => true
  | .biasSettled _ => true
  | .fsync _ => true
  | .frameDone _ _ _ => true
  | .shNow _ => true
  | .shInhibitWrite _ _ => true
  | .shutterDip _ => true
  | .shutterDipTimeout _ => true
  | .captureRetry _ => true
  | .clrDyn _ => true
  | .mapFinalize _ => true
  | .mapRowFetch _ _ => true
  | .nucVerify _ _ => true
  | .nucVerifyDone _ => true
  | .nucTableWrite addr _ => fits 28 addr
  | .segmentAccept _ _ wln => wlnOk wln
  | .strip _ wln _ => wlnOk wln
  | .deadlineUs wln => wlnOk wln
  | .webLineRelease => true
  | .stitchEmit => true
  | .calGo => true
  | .segLineHead => true
  | .runExtracted => true
  | .closeDecision => true
  | .bound _ => true
  | .mergeRecord => true
  | .mergeTimeout _ => true
  | .segRestart => true
  | .freeMinClear => true
  | .classify => true
  | .groupClassify => true
  | .tagForm => true
  | .tagHandoff => true
  | .tagFrameStart => true
  | .hqMaxClear => true
  | .latMaxClear => true
  | .markIntake => true
  | .slotDue => true
  | .markLaunch _ => true
  | .shedWaitExpiry _ => true
  | .end_ _ _ => true
  | .boost _ _ => true
  | .regp _ _ => true
  | .regh _ _ => true
  | .free _ _ => true
  | .quench _ _ => true
  | .waitr _ _ => true
  | .dip _ _ => true
  | .jdip _ _ => true
  | .jmp _ _ => true
  | .loop _ _ => true
  | .wait _ _ => true
  | .conf _ _ => true
  | .reservedOpcode _ => true
  | .admissionGrant => true
  | .slotAck _ => true
  | .coilShort _ => true
  | .lsShort _ => true
  | .peakLong _ => true
  | .progRunaway _ => true
  | .valveOvertemp _ => true
  | .hsShort _ => true
  | .hsOt _ => true
  | .valveFaultClr _ _ => true
  | .groupFaultClr _ _ => true
  | .railLow _ => true
  | .railRecover _ => true
  | .ledgerStep => true
  | .shedEnd => true
  | .valveCmdRun _ _ => true
  | .valveCmdStop _ => true
  | .valveTableWrite addr _ => fits 28 addr
  | .waitMaxClear _ => true
  | .archiveLine => true
  | .chunkDispatch => true
  | .bufferLink _ _ => true
  | .chunkDecide _ _ _ => true
  | .budgetTick => true
  | .recordSent _ => true
  | .clrFault _ => true
  | .jqTailWrite idx => fits 8 idx
  | .jobStart => true
  | .jobComplete _ _ => true
  | .cqHeadWrite idx => fits 8 idx
  | .jobAbort => true
  | .fabricOpComplete _ _ _ => true
  | .ceWriteback => true
  | .tokenIssue _ => true
  | .tokenReturn => true
  | .fabricTimeout _ _ => true
  | .scrubRead _ _ => true
  | .stackOt => true
  | .degradedEntry => true
  | .degrade => true
  | .recover => true
  | .autoRecover => true
  | .hbmReady _ => true
  | .errorLogRead _ => true
  | .arpRequest _ target ip mac => fits 32 target && fits 32 ip && fits 48 mac
  | .arpReply _ ip mac => fits 32 ip && fits 48 mac
  | .arpAge _ ip => fits 32 ip
  | .arpRefresh => true
  | .icmpEchoRequest _ ip len => fits 32 ip && fits 16 len
  | .frameDiscard _ _ => true
  | .badThp _ => true
  | .unknownKind r kind => r.ok && fits 8 kind
  | .openSession r _ _ _ _ => r.ok
  | .closeSession r => r.ok
  | .keepalive r => r.ok
  | .regRead r addr count => r.ok && fits 32 addr && fits 16 count
  | .regWrite r addr words => r.ok && fits 32 addr && decide (words.length ≤ 256)
  | .memRead r addr len => r.ok && fits 40 addr && fits 16 len
  | .memWrite r addr data => r.ok && fits 40 addr && decide (data.length ≤ 1024)
  | .snapshot r target _ _ _ => r.ok && wlnOk target
  | .jobSubmit r _ => r.ok
  | .jobDoneAck r queueIdx => r.ok && fits 8 queueIdx
  | .jobDoneResend => true
  | .streamAck r sseq => r.ok && fits 32 sseq
  | .streamNack r first last => r.ok && fits 32 first && fits 32 last
  | .sessionTimeout _ => true
  | .hostPortDown _ => true
  | .hostPortUp _ => true
  | .homeReturn _ => true
  | .spiRead _ _ _ => true
  | .spiWrite _ _ => true
  | .spiWriteApply => true
  | .spiFrameEnd _ => true
  | .mstGo _ => true
  | .mstTransferDone _ => true
  | .twinHello _ _ _ serial _ => fits 64 serial
  | .helloSend => true
  | .soloWaitExpiry => true
  | .heart _ wln _ _ => wlnOk wln
  | .twinEcho _ _ _ => true
  | .stage e id _ => wlnOk e && fits 16 id
  | .digest wln _ _ _ _ => wlnOk wln
  | .creditG _ => true
  | .capture _ _ _ _ _ _ => true
  | .twinLaunch _ _ _ _ => true
  | .slotEnd _ _ _ _ => true
  | .faultEv _ _ _ => true
  | .placed first _ => fits 32 first
  | .hostAck sseq => fits 32 sseq
  | .counts _ => true
  | .imageReq => true
  | .image w0 _ => wlnOk w0
  | .resyncFail => true
  | .yieldMsg => true
  | .twinRefuse => true
  | .heartbeatTimeout => true
  | .takeInChange _ => true
  | .twinLinkDown => true
  | .switchOver => true
  | .takeOver => true
  | .resync => true
  | .topo _ => true
  | .stringEcho _ _ _ _ => true
  | .pairHb => true
  | .timeMsg _ _ _ _ _ => true
  | .geom _ => true
  | .newActive _ _ => true
  | .stringForward _ _ => true
  | .formWaitExpiry => true
  | .hopDown _ => true
  | .hopHeal => true
  | .store => true
  | .storePageWritten => true
  | .workingArrayWrite addr _ => fits 28 addr
  | .waUeReload _ => true
  | .scanPage _ => true
  | .scanPassStart => true
  | .scanNow => true
  | .profileLoad => true
  | .profileRefCopied => true
  | .bankBusyTimeout => true
  | .profileImageApply => true
  | .flashErase => true
  | .flashProg => true
  | .flashRead => true
  | .flashOpDone _ => true
  | .conversionEnd _ _ _ => true
  | .seqRun _ _ => true
  | .injGo _ => true
  | .injEdge _ _ _ => true
  | .calZero _ => true
  | .calFullScale _ => true
  | .calAbort _ => true
  | .tempSample _ _ _ => true
  | .throttleStep => true
  | .shutdownProceed => true
  | .hwTrip _ => true
  | .refTrimUpdate => true
  | .refCorrUpdate => true
  | .planNow => true
  | .replan => true
  | .mainsInTolerance _ => true
  | .mainsLoss _ => true
  | .actuatorRestore => true
  | .bulkLowOff => true
  | .railFault => true
  | .headOc _ => true
  | .refclkLoss => true
  | .refclkReturn _ => true
  | .rootPllUnlock _ => true
  | .lanePllUnlock => true
  | .hbmPllUnlock => true
  | .sysReset _ => true
  | .inspReset => true
  | .watchdogExpiry _ => true
  | .lockstepMismatch _ => true
  | .mgmtMemoryUe _ => true
  | .unitReset _ _ => true
  | .lpRequest _ => true
  | .wake _ _ => true
  | .powerOnStart _ => true
  | .supervisorRestart _ _ _ _ => true
  | .freqMeasure _ => true
  | .irqClear page _ _ => pageOk page
  | .errClr page => pageOk page
  | .lockingRead _ addr => fits 28 addr
  | .lockExpiry _ locker => fits 28 locker
  | .registerWrite _ addr _ => fits 28 addr
  | .cageInsert _ _ _ _ => true
  | .cageRemove _ => true
  | .cagePoll _ => true
  | .twinLinkUp => true
  | .hopUp _ => true
  | .invalidSyncHeader _ _ => true
  | .headerEccError _ => true
  | .spiStrayEdge => true
  | .messageCrcFail _ => true
  | .headPresentGained _ => true
  | .ringOscillatorReading _ => true
  | .persistentCounterRefresh => true
  | .railWarn _ _ => true
  | .ssiClockEdgeReceived _ => true

end Sys2Proof
end

