-- ==== Sys2Proof/Tests/Slice0.lean ====
section
/-! SUPPORT. The model's own tests: ill-formed commands are refused by the check; and for every statement of
Certificates/Slice0/Obligations.lean a witness: a concrete state and operands that meet the hypotheses of each of its clauses together, several where
a clause has more than one case. Expected values come from the rules of the spec, not from a run of the model. -/

namespace Sys2Proof.Tests
open Sys2Proof Sys2Proof.Machine

/-! ## Small states -/

/-- The device after reset with some register fields set. -/
def dev (l : List (Fld × Nat)) : Dev := l.foldl (fun d q => d.wr q.1 q.2) Dev.reset
/-- A state over a device. -/
def stOf (d : Dev) : State := { State.reset with dev := d }
def st (l : List (Fld × Nat)) : State := stOf (dev l)
/-- A state at a time in 1/16 ns. -/
def atTime (n : Nat) (s : State) : State := { s with dev := { s.dev with time := ⟨n, 0, 0⟩ } }
/-- The device after a command. -/
def after (c : Instr) (s : State) : Dev := match exec c s with
  | .next t => t.dev
  | _ => s.dev
/-- The data space after a command. -/
def afterMem (c : Instr) (s : State) : Memory := match exec c s with
  | .next t => t.mem
  | _ => s.mem

/-! ## Well-formedness: each check refuses an ill-formed term -/

theorem test_wf_width_checks : ∀ c ∈ [Instr.sync 0 (2 ^ 80) 0 0 false 0, .sync 0 0 256 0 false 0, .sync 0 0 0 65536 false 0,
    .followUp 0 (2 ^ 80) 0 0, .followUp 0 0 65536 0, .announce 0 (2 ^ 80) 0, .announce 0 0 256, .delayResp 0 (2 ^ 80) 0 0,
    .delayResp 0 0 65536 0, .delayReq 0 (2 ^ 80) 0 0, .delayReq 0 0 256 0, .delayReq 0 0 0 65536, .line (2 ^ 48) 0 none none,
    .prepare (2 ^ 48) 0 0, .prepare 0 65536 0, .prepare 0 0 65536, .stageAck 65536, .commit (2 ^ 48) 0 none none,
    .commit 0 65536 none none, .abort (2 ^ 48) 0 0 0, .abort 0 65536 0 0, .commitForward true (2 ^ 48) 0 none none,
    .commitForward true 0 65536 none none, .stageDiscard 4096, .snap (2 ^ 48), .frameStart 0 0 65536 false,
    .rawPacket 0 0 64 [] true false, .frameEnd 0 0 65536 false, .sideStreamPacket 0 0 64 ⟨[], true, false⟩, .lineTimeout 0 (2 ^ 48),
    .roleAck 0 0 (2 ^ 48), .mrLineLanded 0 0 (2 ^ 48), .lineTailOut 0 0 (2 ^ 48), .voidNotice 0 0 (2 ^ 48)],
    c.wf = false := by decide +kernel

theorem test_wf_address_checks : ∀ c ∈ [Instr.corrTableWrite (2 ^ 28) 0, .nucTableWrite (2 ^ 28) 0, .segmentAccept 0 0 (2 ^ 48),
    .strip true (2 ^ 48) [], .deadlineUs (2 ^ 48), .valveTableWrite (2 ^ 28) 0, .jqTailWrite 256, .cqHeadWrite 256,
    .workingArrayWrite (2 ^ 28) 0, .irqClear 4096 0 0, .errClr 4096, .lockingRead none (2 ^ 28), .lockExpiry none (2 ^ 28),
    .registerWrite none (2 ^ 28) 0, .twinHello false 0 false (2 ^ 64) 0, .heart 0 (2 ^ 48) false 0, .stage (2 ^ 48) 0 [],
    .stage 0 65536 [], .digest (2 ^ 48) 0 0 0 0, .placed (2 ^ 32) [], .hostAck (2 ^ 32)], c.wf = false := by decide +kernel

/-- A request from port 0 with sender IP 1, UDP port 2 and SEQ 7. -/
def req (port : Fin 2) (session seq : Nat) : ThpReq := { port := port, ip := 1, udp := 2, session := session, seq := seq, lenOk := true }

theorem test_wf_host_checks : ∀ c ∈ [Instr.arpRequest 0 (2 ^ 32) 0 0, .arpRequest 0 0 (2 ^ 32) 0, .arpRequest 0 0 0 (2 ^ 48),
    .arpReply 0 (2 ^ 32) 0, .arpReply 0 0 (2 ^ 48), .arpAge 0 (2 ^ 32), .icmpEchoRequest 0 (2 ^ 32) 0, .icmpEchoRequest 0 0 65536,
    .unknownKind (req 0 1 7) 256, .unknownKind { req 0 1 7 with ip := 2 ^ 32 } 0, .openSession { req 0 1 7 with udp := 65536 } 1 0 0 0,
    .closeSession { req 0 1 7 with ip := 2 ^ 32 }, .keepalive { req 0 1 7 with ip := 2 ^ 32 }, .regRead (req 0 1 7) (2 ^ 32) 1,
    .regRead (req 0 1 7) 0 65536, .regWrite (req 0 1 7) (2 ^ 32) [], .regWrite (req 0 1 7) 0 (List.replicate 257 0),
    .memRead (req 0 1 7) (2 ^ 40) 8, .memRead (req 0 1 7) 0 65536, .memWrite (req 0 1 7) (2 ^ 40) [],
    .memWrite (req 0 1 7) 0 (List.replicate 1025 0), .snapshot (req 0 1 7) (2 ^ 48) false false [],
    .jobSubmit { req 0 1 7 with ip := 2 ^ 32 } [], .jobDoneAck (req 0 1 7) 256, .streamAck (req 0 1 7) (2 ^ 32),
    .streamNack (req 0 1 7) (2 ^ 32) 0, .streamNack (req 0 1 7) 0 (2 ^ 32)], c.wf = false := by decide +kernel

theorem test_wf_accepts : ∀ c ∈ [Instr.timebaseTick, .sync 0 (2 ^ 80 - 1) 255 65535 true 0, .line (2 ^ 48 - 1) 0 none none,
    .regWrite (req 1 1 7) 0 (List.replicate 256 0), .irqClear 4095 0 0], c.wf = true := by decide +kernel

/-- No row of the table gives bits: no word spells a command, and a fetched word leaves the state as it is. -/
theorem test_no_word_spells_a_command : ∀ w ∈ [0, 1, 0xFFFF], decodeTableWord 16 w = none := by decide

/-! ## The queue and the invariant -/

theorem test_step_takes_front : step { State.reset with pending := [.snapRelease, .snapReq] } =
    exec .snapRelease { State.reset with pending := [.snapReq] } := rfl
theorem test_empty_queue_idles : step State.reset = .next State.reset := rfl
theorem wit_StepKeepsCanonicalMemory : State.reset.Inv ∧ (∃ t, step { State.reset with pending := [.timebaseTick] } = .next t) :=
  ⟨rfl, _, rfl⟩

/-! ## Timebase, generator, epochs, snapshots -/

/-- The timebase at 160 units of 1/16 ns, not triggering. -/
def tbState (stepNs : Nat) : State := stOf { dev [(WEB.TB_STEP.STEP_NS, stepNs), (TRIG.CTL.MODE, 0)] with time := ⟨160, 0, 0⟩ }

theorem wit_TimebaseTicksAndSteps :
    (∃ (s : State), s.dev.up = true) ∧
    (∃ (s : State) (x : Nat), s.dev.up = true ∧ genRuns s.dev = false ∧ (s.dev.time.tb : Int) + 16 * s.dev.rdS WEB.TB_STEP.STEP_NS = x
      ∧ x < 2 ^ 68) ∧
    (∃ (s : State) (x : Nat), s.dev.up = true ∧ genRuns s.dev = false ∧ (s.dev.time.tb : Int) + 16 * s.dev.rdS WEB.TB_STEP.STEP_NS = x
      ∧ x < 2 ^ 68) ∧
    (∃ (s : State), s.dev.up = true ∧ (genRuns s.dev = true ∨ (s.dev.time.tb : Int) + 16 * s.dev.rdS WEB.TB_STEP.STEP_NS < 0 ∨ (2 ^ 68
      : Int) ≤ (s.dev.time.tb : Int) + 16 * s.dev.rdS WEB.TB_STEP.STEP_NS)) ∧
    (∃ (s : State), s.dev.up = true ∧ (genRuns s.dev = true ∨ (s.dev.time.tb : Int) + 16 * s.dev.rdS WEB.TB_STEP.STEP_NS < 0 ∨ (2 ^ 68
      : Int) ≤ (s.dev.time.tb : Int) + 16 * s.dev.rdS WEB.TB_STEP.STEP_NS)) ∧
    (∃ (s : State), s.dev.up = true ∧ (genRuns s.dev = true ∨ (s.dev.time.tb : Int) + 16 * s.dev.rdS WEB.TB_STEP.STEP_NS < 0 ∨ (2 ^ 68
      : Int) ≤ (s.dev.time.tb : Int) + 16 * s.dev.rdS WEB.TB_STEP.STEP_NS)) ∧
    (∃ (s : State), s.dev.up = true) :=
  ⟨⟨State.reset, by decide +kernel⟩,
   ⟨tbState (2 ^ 32 - 10), 0, by decide +kernel⟩,
   ⟨stOf { dev [(WEB.TB_STEP.STEP_NS, 5)] with time := ⟨2 ^ 68 - 81, 0, 0⟩ }, 2 ^ 68 - 1, by decide +kernel⟩,
   ⟨tbState (2 ^ 32 - 11), by decide +kernel⟩,
   ⟨stOf { dev [(WEB.TB_STEP.STEP_NS, 5)] with time := ⟨2 ^ 68 - 80, 0, 0⟩ }, by decide +kernel⟩,
   ⟨st [(TRIG.CTL.MODE, 1)], by decide +kernel⟩,
   ⟨st [(WEB.TB_CTL.LOCKED, 1), (WEB.TB_RATE.RATE, 9)], by decide +kernel⟩⟩

/-- Port 0 is up and is the 1588 port with `role`, an address, and master 7. -/
def ptpState (role : Nat) (g : Ptp → Ptp) : State :=
  let d := dev [(HOST.CTL.HA_EN, 1), (HOST.STATUS.HA_UP, 1), (HOST.IP_HA.IP, 0x0A000001), (HOST.PTP_CFG.ROLE, role), (HOST.PTP_CFG.DOMAIN, 3)]
  stOf (d.updHost fun h => { h with ptp := g { h.ptp with master := some 7 } })

theorem wit_PtpFramesSteerTheClock :
    (∃ (s : State) (port : Fin 2) (src : Nat), s.dev.up = true ∧ ptpTaken s.dev port 1 = true ∧ s.dev.host.ptp.master = some src) ∧
    (∃ (s : State) (port : Fin 2) (src : Nat), s.dev.up = true ∧ portUp s.dev port = true ∧ s.dev.host.ptp.master ≠ some src) ∧
    (∃ (s : State) (port : Fin 2) (src : Nat) (seq : Nat) (t2 : Int) (del : Int), s.dev.up = true ∧ ptpTaken s.dev port 1 = true ∧
      s.dev.host.ptp.syncWait = some (src, seq, t2) ∧ s.dev.host.ptp.delay = some del ∧ s.dev.on WEB.TB_CTL.PTP_EN = false) ∧
    (∃ (s : State) (port : Fin 2), s.dev.up = true ∧ ptpTaken s.dev port 1 = true ∧ s.dev.host.ptp.master = none) ∧
    (∃ (s : State), s.dev.up = true ∧ s.dev.host.ptp.announced + 6 * oneS ≤ s.dev.now) ∧
    (∃ (s : State) (src : Nat), s.dev.up = true ∧ ptpTaken s.dev (ptpPort s.dev) 1 = true ∧ s.dev.host.ptp.master = some src ∧
      s.dev.past .delayReq (expSeconds s.dev HOST.PTP_CFG.LOG_DELAY) = true) ∧
    (∃ (s : State) (port : Fin 2) (src : Nat) (seq : Nat) (t1 : Int) (t2 : Int) (t3 : Int), s.dev.up = true ∧ ptpTaken s.dev port 1 =
      true ∧ s.dev.host.ptp.master = some src ∧ s.dev.host.ptp.req = some (seq, t3) ∧ s.dev.host.ptp.last = some (t1, t2)) ∧
    (∃ (s : State) (port : Fin 2), s.dev.up = true ∧ ptpTaken s.dev port 2 = true) ∧
    (∃ (s : State), s.dev.up = true ∧ ptpTaken s.dev (ptpPort s.dev) 2 = true ∧ s.dev.past .announce (2 * oneS) = true) ∧
    (∃ (s : State), s.dev.up = true ∧ ptpTaken s.dev (ptpPort s.dev) 2 = true ∧ s.dev.past .sync (expSeconds s.dev
      HOST.PTP_CFG.LOG_SYNC) = true) :=
  ⟨⟨ptpState 1 id, 0, 7, by decide +kernel⟩,
   ⟨ptpState 1 id, 0, 8, by decide +kernel⟩,
   ⟨ptpState 1 fun p => { p with syncWait := some (7, 1, 150), delay := some 20 }, 0, 7, 1, 150, 20, by decide +kernel⟩,
   ⟨ptpState 1 fun p => { p with master := none }, 0, by decide +kernel⟩,
   ⟨atTime 96000000000 (ptpState 1 id), by decide +kernel⟩,
   ⟨ptpState 1 id, 7, by decide +kernel⟩,
   ⟨ptpState 1 fun p => { p with req := some (0, 50), last := some (10, 40) }, 0, 7, 0, 10, 40, 50, by decide +kernel⟩,
   ⟨ptpState 2 id, 0, by decide +kernel⟩,
   ⟨ptpState 2 id, by decide +kernel⟩,
   ⟨ptpState 2 id, by decide +kernel⟩⟩

/-- An epoch in state `x` with id 5 and the set that PITCH becomes 77 frozen. -/
def epState (l : List (Fld × Nat)) (x : Nat) (g : Epoch → Epoch) : State :=
  let d := dev ((WEB.EPOCH_STATUS.STATE, x) :: l)
  stOf { d with ep := g { d.ep with id := 5, target := 100, frozen := some [(TRIG.PITCH.VAL, 77)] } }
/-- A module of a ring of two at slot 1: not the Puppeteer. -/
def atSlot1 (s : State) : State := stOf { s.dev.wr STRING.CFG.EN 1 |>.wr STRING.CFG.SLOTS 2 with ringSlot := 1 }

theorem wit_PuppeteerArmsAndSettles :
    (∃ (s : State), s.dev.up = true ∧ s.dev.isPuppeteer = false) ∧
    (∃ (s : State), s.dev.up = true ∧ s.dev.isPuppeteer = true ∧ s.dev.rd WEB.EPOCH_STATUS.STATE ≠ 0) ∧
    (∃ (s : State), s.dev.up = true ∧ s.dev.isPuppeteer = true ∧ s.dev.rd WEB.EPOCH_STATUS.STATE = 0 ∧ s.dev.on TRIG.STAT.RUNNING =
      true ∧ s.dev.rd2 WEB.EPOCH_TGT_LO.EPOCH_TGT WEB.EPOCH_TGT_HI.EPOCH_TGT < s.dev.rd2 WEB.WLN_LO.WLN WEB.WLN_HI.WLN + s.dev.rd
      WEB.EPOCH_CTL.LEAD_LINES) ∧
    (∃ (s : State), s.dev.up = true ∧ s.dev.inRing = false ∧ s.dev.hasStandby = true ∧ s.dev.ep.kept = false ∧ armRefusal s.dev
      (s.dev.rd2 WEB.EPOCH_TGT_LO.EPOCH_TGT WEB.EPOCH_TGT_HI.EPOCH_TGT) = none) ∧
    (∃ (s : State), s.dev.up = true ∧ s.dev.isPuppeteer = true ∧ (s.dev.rd WEB.EPOCH_STATUS.STATE = 1 ∨ s.dev.rd
      WEB.EPOCH_STATUS.STATE = 2)) ∧
    (∃ (s : State), s.dev.up = true ∧ s.dev.isPuppeteer = true ∧ (s.dev.rd WEB.EPOCH_STATUS.STATE = 1 ∨ s.dev.rd
      WEB.EPOCH_STATUS.STATE = 2)) ∧
    (∃ (s : State), s.dev.up = true ∧ s.dev.rd WEB.EPOCH_STATUS.STATE = 3) ∧
    (∃ (s : State), s.dev.up = true ∧ s.dev.isPuppeteer = true ∧ (s.dev.rd WEB.EPOCH_STATUS.STATE = 1 ∨ s.dev.rd
      WEB.EPOCH_STATUS.STATE = 2)) ∧
    (∃ (s : State), s.dev.up = true ∧ s.dev.isPuppeteer = true ∧ (s.dev.rd WEB.EPOCH_STATUS.STATE = 1 ∨ s.dev.rd
      WEB.EPOCH_STATUS.STATE = 2)) ∧
    (∃ (s : State), s.dev.up = true ∧ s.dev.isPuppeteer = true ∧ (s.dev.rd WEB.EPOCH_STATUS.STATE = 1 ∨ s.dev.rd
      WEB.EPOCH_STATUS.STATE = 2) ∧ deadlineOver s.dev = true) ∧
    (∃ (s : State), s.dev.up = true ∧ s.dev.isPuppeteer = true ∧ (s.dev.rd WEB.EPOCH_STATUS.STATE = 1 ∨ s.dev.rd
      WEB.EPOCH_STATUS.STATE = 2) ∧ deadlineOver s.dev = true) ∧
    (∃ (s : State) (slot : Nat), s.dev.up = true ∧ s.dev.isPuppeteer = true ∧ s.dev.rd WEB.EPOCH_STATUS.STATE = 2 ∧ s.dev.on
      TRIG.STAT.RUNNING = true ∧ deadlineOver s.dev = false ∧ (∀ k < slotCount s.dev, k = slot ∨ k ∈ s.dev.ep.ready)) ∧
    (∃ (s : State) (slot : Nat) (k : Nat), s.dev.up = true ∧ s.dev.isPuppeteer = true ∧ s.dev.rd WEB.EPOCH_STATUS.STATE = 2 ∧ k <
      slotCount s.dev ∧ k ≠ slot ∧ k ∉ s.dev.ep.ready) :=
  ⟨⟨atSlot1 State.reset, by decide +kernel⟩,
   ⟨epState [] 1 id, by decide +kernel⟩,
   ⟨st [(TRIG.STAT.RUNNING, 1), (WEB.EPOCH_TGT_LO.EPOCH_TGT, 99), (WEB.WLN_LO.WLN, 36), (WEB.EPOCH_CTL.LEAD_LINES, 64)],
      by decide +kernel⟩,
   ⟨st [(TWIN.CTL.EN, 1), (TWIN.STATUS.STATE, 3), (TWIN.STATUS.LINK_UP, 1), (WEB.EPOCH_TGT_LO.EPOCH_TGT, 100), (TRIG.STAT.RUNNING,
      1), (TRIG.FREE_PERIOD.VAL, 50000), (WEB.WLN_LO.WLN, 36), (WEB.EPOCH_CTL.LEAD_LINES, 64)] |> fun s => stOf
      { s.dev with gen := { s.dev.gen with nextWln := 36 } }, by decide +kernel⟩,
   ⟨epState [] 1 id, by decide +kernel⟩,
   ⟨epState [] 2 fun e => { e with next := [(TRIG.PITCH.VAL, 78)] }, by decide +kernel⟩,
   ⟨epState [] 3 id, by decide +kernel⟩,
   ⟨epState [] 1 id, by decide +kernel⟩,
   ⟨atSlot1 (epState [] 2 id) |> fun s => stOf { s.dev with ringSlot := 0 }, by decide +kernel⟩,
   ⟨atTime 16000000 (epState [] 2 id), by decide +kernel⟩,
   ⟨stOf { (epState [(TRIG.STAT.RUNNING, 1)] 1 id).dev with gen := { TrigGen.reset with maxWln := some 98 } }, by decide +kernel⟩,
   ⟨stOf { (atSlot1 (epState [(TRIG.STAT.RUNNING, 1)] 2 fun e => { e with ready := [0] })).dev with ringSlot := 0 }, 1,
      by decide +kernel⟩,
   ⟨stOf { (atSlot1 (epState [(TRIG.STAT.RUNNING, 1)] 2 id)).dev with ringSlot := 0 }, 1, 0, by decide +kernel⟩⟩

theorem wit_MembersFollowTheEpoch :
    (∃ (s : State), s.dev.up = true ∧ s.dev.isPuppeteer = false ∧ s.dev.isActive = true ∧ s.dev.rd WEB.EPOCH_STATUS.STATE ≠ 3) ∧
    (∃ (s : State), s.dev.up = true ∧ s.dev.isPuppeteer = false ∧ s.dev.isActive = true ∧ s.dev.rd WEB.EPOCH_STATUS.STATE ≠ 3) ∧
    (∃ (s : State), s.dev.up = true ∧ (s.dev.isPuppeteer = true ∨ s.dev.isActive = false ∨ s.dev.rd WEB.EPOCH_STATUS.STATE = 3)) ∧
    (∃ (s : State), s.dev.up = true ∧ s.dev.isPuppeteer = false ∧ s.dev.inRing = true ∧ s.dev.rd WEB.EPOCH_STATUS.STATE = 1 ∧
      s.dev.ep.stbyWait = true ∧ s.dev.ep.geomWait = false ∧ s.dev.ep.checkCause = none) ∧
    (∃ (s : State), s.dev.up = true ∧ s.dev.rd WEB.EPOCH_STATUS.STATE = 1 ∧ s.dev.ep.stbyWait = true ∧ s.dev.ep.geomWait = true ∧
      s.dev.ep.checkCause = none) ∧
    (∃ (s : State) (id : Nat), s.dev.up = true ∧ (s.dev.ep.stbyWait = false ∨ id ≠ s.dev.ep.id)) ∧
    (∃ (s : State) (applyAt : Option Nat), s.dev.up = true ∧ s.dev.isPuppeteer = false ∧ s.dev.isActive = true ∧ s.dev.rd
      WEB.EPOCH_STATUS.STATE = 2 ∧ doubtDue s.dev = false ∧ (∀ t, applyAt = some t → s.dev.now < t)) ∧
    (∃ (s : State) (id : Nat), s.dev.up = true ∧ (s.dev.isPuppeteer = true ∨ s.dev.isActive = false ∨ (id ≠ s.dev.ep.id ∧ doubtDue
      s.dev = false))) ∧
    (∃ (s : State) (id : Nat), s.dev.up = true ∧ (s.dev.isPuppeteer = true ∨ s.dev.isActive = false ∨ (id ≠ s.dev.ep.id ∧ doubtDue
      s.dev = false))) ∧
    (∃ (s : State), s.dev.up = true ∧ s.dev.isPuppeteer = false ∧ s.dev.isActive = true ∧ s.dev.rd WEB.EPOCH_STATUS.STATE = 4) ∧
    (∃ (s : State), s.dev.up = true ∧ s.dev.isPuppeteer = false ∧ s.dev.isActive = true ∧ (s.dev.rd WEB.EPOCH_STATUS.STATE = 1 ∨
      (s.dev.rd WEB.EPOCH_STATUS.STATE = 2 ∧ doubtDue s.dev = false))) ∧
    (∃ (s : State), s.dev.up = true ∧ s.dev.isActive = false ∧ s.dev.rd WEB.EPOCH_STATUS.STATE = 2 ∧ doubtDue s.dev = false) ∧
    (∃ (s : State), s.dev.up = true ∧ s.dev.isPuppeteer = false ∧ s.dev.rd WEB.EPOCH_STATUS.STATE = 2 ∧ doubtDue s.dev = true) ∧
    (∃ (s : State) (l : List (Fld × Nat)) (w : Nat), s.dev.up = true ∧ s.dev.rd WEB.EPOCH_STATUS.STATE = 3 ∧ s.dev.ep.frozen = some l
      ∧ (∀ q ∈ l, q.1.addr ≠ WEB.EPOCH_ID.LIVE_ID.addr ∧ q.1.addr ≠ WEB.EPOCH_STATUS.STATE.addr) ∧ s.dev.ep.applyAt = none ∧
      s.dev.gen.maxWln = some w ∧ s.dev.ep.target ≤ w) ∧
    (∃ (s : State), s.dev.up = true ∧ s.dev.ep.applyAt = none ∧ (∀ w, s.dev.gen.maxWln = some w → w < s.dev.ep.target)) ∧
    (∃ (s : State), s.dev.up = true ∧ s.dev.ep.applyAt = none ∧ (∀ w, s.dev.gen.maxWln = some w → w < s.dev.ep.target)) ∧
    (∃ (s : State), s.dev.up = true) ∧
    (∃ (s : State) (g : GeomMsg), s.dev.up = true ∧ s.dev.inRing = true ∧ s.dev.rd STRING.STATUS.RING_STATE = 1 ∧ (s.dev.rd
      WEB.GRID_PITCH.VAL ≠ g.grid ∨ s.dev.rd WEB.GEOM.XW_DIR ≠ g.xwDir)) ∧
    (∃ (s : State) (g : GeomMsg), s.dev.up = true ∧ s.dev.inRing = true ∧ s.dev.rd STRING.STATUS.RING_STATE = 1 ∧ s.dev.rd
      WEB.GRID_PITCH.VAL = g.grid ∧ s.dev.rd WEB.GEOM.XW_DIR = g.xwDir) ∧
    (∃ (s : State), s.dev.up = true ∧ s.dev.rd STRING.STATUS.RING_STATE ≠ 1 ∧ s.dev.rd WEB.EPOCH_STATUS.STATE ≠ 1) :=
  ⟨⟨atSlot1 State.reset, by decide +kernel⟩,
   ⟨atSlot1 (epState [] 4 fun e => { e with next := [(TRIG.PITCH.VAL, 78)] }), by decide +kernel⟩,
   ⟨atSlot1 (epState [] 3 id), by decide +kernel⟩,
   ⟨atSlot1 (epState [] 1 fun e => { e with stbyWait := true }), by decide +kernel⟩,
   ⟨atSlot1 (epState [] 1 fun e => { e with stbyWait := true, geomWait := true }), by decide +kernel⟩,
   ⟨atSlot1 (epState [] 1 fun e => { e with stbyWait := true }), 6, by decide +kernel⟩,
   ⟨atSlot1 (epState [] 2 id), none, ⟨by decide +kernel, by decide +kernel, by decide +kernel, by decide +kernel, by decide +kernel,
      fun _ h => nomatch h⟩⟩,
   ⟨atSlot1 (epState [] 2 id), 6, by decide +kernel⟩,
   ⟨atSlot1 (epState [] 2 id), 6, by decide +kernel⟩,
   ⟨atSlot1 (epState [] 4 id), by decide +kernel⟩,
   ⟨atSlot1 (epState [] 1 id), by decide +kernel⟩,
   ⟨epState [(TWIN.STATUS.STATE, 2)] 2 id, by decide +kernel⟩,
   ⟨atSlot1 (atTime 32000000 (epState [] 2 id)), by decide +kernel⟩,
   ⟨stOf { (epState [] 3 id).dev with gen := { TrigGen.reset with maxWln := some 100 } }, [(TRIG.PITCH.VAL, 77)], 100,
      by decide +kernel⟩,
   ⟨State.reset, ⟨by decide +kernel, by decide +kernel, fun _ h => nomatch h⟩⟩,
   ⟨stOf { (epState [] 3 id).dev with gen := { TrigGen.reset with maxWln := some 99 } }, ⟨by decide +kernel, by decide +kernel, fun _
      h => by cases h; decide⟩⟩,
   ⟨stOf { Dev.reset with ep := { Epoch.reset with next := [(TRIG.PITCH.VAL, 77), (WEB.EPOCH_CTL.LEAD_LINES, 70)] } },
      by decide +kernel⟩,
   ⟨st [(STRING.CFG.EN, 1), (STRING.STATUS.RING_STATE, 1), (WEB.GRID_PITCH.VAL, 500)], ⟨0, 0, 501, 0⟩, by decide +kernel⟩,
   ⟨st [(STRING.CFG.EN, 1), (STRING.STATUS.RING_STATE, 1), (WEB.GRID_PITCH.VAL, 500)], ⟨9, 8, 500, 0⟩, by decide +kernel⟩,
   ⟨st [(WEB.EPOCH_STATUS.STATE, 2)], by decide +kernel⟩⟩

theorem wit_SnapshotsAreRequested :
    (∃ (s : State), s.dev.up = true ∧ s.dev.snap.jobs = [] ∧ s.dev.on WEB.SNAP_CTL.RING = false) ∧
    (∃ (s : State), s.dev.up = true ∧ s.dev.snap.jobs = [] ∧ s.dev.on WEB.SNAP_CTL.RING = false) ∧
    (∃ (s : State), s.dev.up = true) ∧
    (∃ (s : State), s.dev.up = true) :=
  ⟨⟨st [(WEB.SNAP_TGT_LO.SNAP_TGT, 9), (WEB.SNAP_STATUS.VALID, 1)], by decide +kernel⟩,
   ⟨st [(WEB.SNAP_STATUS.VALID, 1)], by decide +kernel⟩,
   ⟨State.reset, by decide +kernel⟩,
   ⟨st [(WEB.SNAP_STATUS.VALID, 1)], by decide +kernel⟩⟩

/-- A trigger of line `w` at position `pos` (2^-24 µm) and time `t`. -/
def trig (w : Nat) (pos : Int := 0) (t : Nat := 0) : TrigRec := ⟨w, pos, t, 0, false, false, false⟩
/-- The generator in Free-run with a period of 10 µs and a minimum of 5 µs. -/
def freeRun (g : TrigGen → TrigGen) : State :=
  let d := dev [(TRIG.CTL.MODE, 2), (TRIG.FREE_PERIOD.VAL, 160000), (TRIG.MIN_PERIOD.VAL, 5000), (TRIG.STAT.RUNNING, 1)]
  stOf { d with gen := g d.gen }

theorem wit_TriggersAreIssuedHeldOrSkipped :
    (∃ (s : State) (u : Nat), s.dev.up = true ∧ trigMode s.dev = 2 ∧ freePeriod s.dev ≠ 0 ∧ s.dev.on TRIG.STAT.RUNNING = true ∧
      epochDue s.dev = false ∧ s.dev.gen.t ≤ s.dev.now ∧ s.dev.gen.held = none ∧ s.dev.gen.last = some u ∧ s.dev.gen.t < u + 16 *
      s.dev.rd TRIG.MIN_PERIOD.VAL) ∧
    (∃ (s : State) (h : TrigRec), s.dev.up = true ∧ trigMode s.dev = 2 ∧ freePeriod s.dev ≠ 0 ∧ s.dev.on TRIG.STAT.RUNNING = true ∧
      epochDue s.dev = false ∧ s.dev.gen.t ≤ s.dev.now ∧ s.dev.gen.held = some h ∧ (∀ n : Fin 4, s.dev.enc[n].slew = none)) ∧
    (∃ (s : State), s.dev.up = true ∧ trigMode s.dev = 2 ∧ freePeriod s.dev ≠ 0 ∧ s.dev.on TRIG.STAT.RUNNING = true ∧ epochDue s.dev =
      false ∧ s.dev.gen.t ≤ s.dev.now ∧ s.dev.gen.held = none ∧ (s.dev.gen.last.elim true fun u => decide (u + 16 * s.dev.rd
      TRIG.MIN_PERIOD.VAL ≤ s.dev.gen.t)) = true) ∧
    (∃ (s : State), s.dev.up = true ∧ trigMode s.dev = 2 ∧ freePeriod s.dev ≠ 0 ∧ s.dev.on TRIG.STAT.RUNNING = true ∧ epochDue s.dev =
      false ∧ s.dev.gen.t ≤ s.dev.now ∧ s.dev.gen.held = none ∧ (s.dev.gen.last.elim true fun u => decide (u + 16 * s.dev.rd
      TRIG.MIN_PERIOD.VAL ≤ s.dev.gen.t)) = true) ∧
    (∃ (s : State), s.dev.up = true ∧ s.dev.now < s.dev.gen.t) ∧
    (∃ (s : State), s.dev.up = true ∧ s.dev.gen.held = none) ∧
    (∃ (s : State) (h : TrigRec) (u : Nat), s.dev.up = true ∧ s.dev.gen.held = some h ∧ s.dev.gen.last = some u ∧ s.dev.now < u + 16 *
      s.dev.rd TRIG.MIN_PERIOD.VAL) ∧
    (∃ (s : State) (h : TrigRec) (u : Nat), s.dev.up = true ∧ s.dev.gen.held = some h ∧ s.dev.gen.last = some u ∧ u + 16 * s.dev.rd
      TRIG.MIN_PERIOD.VAL ≤ s.dev.now ∧ h.skipped = false ∧ (∀ k ∈ s.dev.gen.skipped, k.skipped = true) ∧ (trigMode s.dev ≠ 1 ∨
      (s.dev.gen.foSwitch = none ∧ (∀ n : Fin 4, s.dev.enc[n].slew = none) ∧ max s.dev.gen.h s.dev.gen.pos < s.dev.gen.n))) ∧
    (∃ (s : State) (w : Nat) (pos : Nat) (t : TrigRec), s.dev.up = true ∧ s.dev.isPuppeteer = false ∧ s.dev.gen.recent.find? (fun t =>
      t.wln == w) = some t ∧ (encScale s.dev (drivingCh s.dev)).natAbs < (toSigned 48 (ofSigned 48 ((posStamp t.pos : Int) -
      pos))).natAbs * 2 ^ 24) ∧
    (∃ (s : State) (w : Nat) (pos : Nat) (t : TrigRec), s.dev.up = true ∧ s.dev.isPuppeteer = false ∧ s.dev.gen.recent.find? (fun t =>
      t.wln == w) = some t ∧ (toSigned 48 (ofSigned 48 ((posStamp t.pos : Int) - pos))).natAbs * 2 ^ 24 ≤ (encScale s.dev
      (drivingCh s.dev)).natAbs) ∧
    (∃ (s : State) (w : Nat) (sw : Option (Nat × Nat)), s.dev.up = true ∧ s.dev.isPuppeteer = false ∧ s.dev.gen.recent.find? (fun t =>
      t.wln == w) = none ∧ s.dev.gen.fo = none ∧ (sw.elim true fun v => s.dev.gen.maxWln.elim true fun m => decide (m < v.1)) =
      true) ∧
    (∃ (s : State) (w : Nat) (v : Nat) (m : Nat), s.dev.up = true ∧ s.dev.isPuppeteer = false ∧ trigMode s.dev ≠ 1 ∧
      s.dev.gen.recent.find? (fun t => t.wln == w) = none ∧ s.dev.gen.fo = none ∧ s.dev.gen.maxWln = some m ∧ v ≤ m) ∧
    (∃ (s : State) (w : Nat) (c : LineCorr), s.dev.up = true ∧ s.dev.isPuppeteer = false ∧ trigMode s.dev ≠ 1 ∧ s.dev.gen.recent.find?
      (fun t => t.wln == w) = none ∧ s.dev.gen.nextWln ≤ c.first) ∧
    (∃ (s : State), s.dev.up = true ∧ s.dev.isPuppeteer = true) :=
  ⟨⟨freeRun fun g => { g with last := some 1, nextWln := 6, maxWln := some 5 }, 1, by decide +kernel⟩,
   ⟨freeRun fun g => { g with held := some (trig 5), nextWln := 6 }, trig 5, by decide +kernel⟩,
   ⟨atTime 80000 (freeRun fun g => { g with nextWln := 6, last := some 0, t := 80000 }), by decide +kernel⟩,
   ⟨freeRun fun g => { g with nextWln := 6 }, by decide +kernel⟩,
   ⟨freeRun fun g => { g with t := 1 }, by decide +kernel⟩,
   ⟨State.reset, by decide +kernel⟩,
   ⟨atTime 80000 (freeRun fun g => { g with held := some (trig 5), last := some 1, nextWln := 6 }), trig 5, 1, by decide +kernel⟩,
   ⟨atTime 80000 (freeRun fun g => { g with held := some (trig 5), last := some 0, nextWln := 6 }), trig 5, 0, by decide +kernel⟩,
   ⟨atSlot1 (stOf { dev [(ENC.SCALE_LO.SCALE 0, 2 ^ 24)] with gen := { TrigGen.reset with recent := [trig 9 (50 * 2 ^ 24)] } }), 9,
      48, trig 9 (50 * 2 ^ 24), by decide +kernel⟩,
   ⟨atSlot1 (stOf { dev [(ENC.SCALE_LO.SCALE 0, 2 ^ 24)] with gen := { TrigGen.reset with recent := [trig 9 (50 * 2 ^ 24)] } }), 9,
      49, trig 9 (50 * 2 ^ 24), by decide +kernel⟩,
   ⟨atSlot1 State.reset, 9, some (12, 1), by decide +kernel⟩,
   ⟨atSlot1 (stOf { dev [(ENC.FO_CFG.BACKUP 0, 2)] with gen := { TrigGen.reset with maxWln := some 12 } }), 9, 12, 12,
      by decide +kernel⟩,
   ⟨atSlot1 State.reset, 9, { ch := 1, d := -3, s := 4, first := 0 }, by decide +kernel⟩,
   ⟨State.reset, by decide +kernel⟩⟩

/-! ## Encoder inputs -/

/-- Channel 1 in `mode`, beside the trigger source, with a SCALE of 1 µm. -/
def encState (mode : Nat) (l : List (Fld × Nat)) (g : EncCh → EncCh) : State :=
  stOf ((dev ([(ENC.CFG.MODE 1, mode), (ENC.SCALE_LO.SCALE 1, 2 ^ 24)] ++ l)).updEnc 1 g)

theorem wit_EdgesMakeCounts :
    (∃ (s : State) (ch : Fin 4) (a : Bool) (b : Bool), s.dev.up = true ∧ dormant s.dev = false ∧ s.dev.rd (ENC.CFG.MODE ch) = 1 ∧
      s.dev.rd (ENC.CFG.DECODE ch) = 2 ∧ ch ≠ trigSrc s.dev ∧ ch ≠ drivingCh s.dev ∧ s.dev.on (ENC.FO_CFG.EN (trigSrc s.dev)) =
      false ∧ ((a != s.dev.enc[ch].a) != (b != s.dev.enc[ch].b)) = true) ∧
    (∃ (s : State) (ch : Fin 4) (a : Bool) (b : Bool), s.dev.up = true ∧ dormant s.dev = false ∧ s.dev.rd (ENC.CFG.MODE ch) = 1 ∧
      s.dev.rd (ENC.CFG.DECODE ch) = 2 ∧ ch ≠ trigSrc s.dev ∧ ch ≠ drivingCh s.dev ∧ s.dev.on (ENC.FO_CFG.EN (trigSrc s.dev)) =
      false ∧ ((a != s.dev.enc[ch].a) != (b != s.dev.enc[ch].b)) = true) ∧
    (∃ (s : State) (ch : Fin 4), s.dev.up = true ∧ dormant s.dev = false ∧ s.dev.rd (ENC.CFG.MODE ch) = 1 ∧ ch ≠ trigSrc s.dev) ∧
    (∃ (s : State) (ch : Fin 4), s.dev.up = true ∧ dormant s.dev = false ∧ s.dev.rd (ENC.CFG.MODE ch) = 3 ∧ ch ≠ trigSrc s.dev ∧ ch ≠
      drivingCh s.dev ∧ s.dev.on (ENC.FO_CFG.EN (trigSrc s.dev)) = false) ∧
    (∃ (s : State) (ch : Fin 4), s.dev.up = true ∧ dormant s.dev = false ∧ s.dev.rd (ENC.CFG.MODE ch) = 3 ∧ ch ≠ trigSrc s.dev ∧ ch ≠
      drivingCh s.dev ∧ s.dev.on (ENC.FO_CFG.EN (trigSrc s.dev)) = false) :=
  ⟨⟨encState 1 [] id, 1, true, false, by decide +kernel⟩,
   ⟨encState 1 [] fun e => { e with a := true, b := true, f := 1, pos := 2 ^ 24 }, 1, true, false, by decide +kernel⟩,
   ⟨encState 1 [(ENC.QERR_CNT.VAL 1, 65535)] fun e => { e with a := true }, 1, by decide +kernel⟩,
   ⟨encState 3 [(ENC.CFG.HALL_DIR 1, 2)] id, 1, by decide +kernel⟩,
   ⟨encState 3 [(ENC.CFG.HALL_DIR 1, 0)] id, 1, by decide +kernel⟩⟩

theorem wit_IndexAndSsiReadings :
    (∃ (s : State) (ch : Fin 4), s.dev.up = true ∧ dormant s.dev = false ∧ s.dev.rd (ENC.CFG.MODE ch) = 1 ∧ indexGate s.dev ch = true
      ∧ s.dev.rd (ENC.LATCH_CTL.SRC ch) ≠ 1 ∧ s.dev.rd (ENC.INDEX_PERIOD.PERIOD ch) ≠ 0 ∧ s.dev.enc[ch].refDue = true) ∧
    (∃ (s : State) (ch : Fin 4), s.dev.up = true ∧ dormant s.dev = false ∧ s.dev.rd (ENC.CFG.MODE ch) = 1 ∧ indexGate s.dev ch = true
      ∧ s.dev.rd (ENC.LATCH_CTL.SRC ch) ≠ 1 ∧ s.dev.rd (ENC.INDEX_PERIOD.PERIOD ch) ≠ 0 ∧ s.dev.enc[ch].refDue = false ∧ s.dev.rd
      (ENC.INDEX_CFG.MODE ch) = 1) ∧
    (∃ (s : State) (ch : Fin 4), s.dev.up = true ∧ dormant s.dev = false ∧ s.dev.rd (ENC.CFG.MODE ch) = 1 ∧ indexGate s.dev ch = true
      ∧ s.dev.rd (ENC.LATCH_CTL.SRC ch) ≠ 1 ∧ s.dev.rd (ENC.INDEX_PERIOD.PERIOD ch) ≠ 0 ∧ s.dev.enc[ch].refDue = false ∧ s.dev.rd
      (ENC.INDEX_CFG.MODE ch) = 1) ∧
    (∃ (s : State) (ch : Fin 4), s.dev.up = true ∧ dormant s.dev = false ∧ s.dev.rd (ENC.CFG.MODE ch) = 2 ∧ s.dev.isStandby = false ∧
      s.dev.enc[ch].ssiNext ≤ s.dev.now) ∧
    (∃ (s : State) (ch : Fin 4), s.dev.up = true ∧ dormant s.dev = false ∧ s.dev.rd (ENC.CFG.MODE ch) = 2 ∧ ch ≠ trigSrc s.dev) ∧
    (∃ (s : State) (ch : Fin 4), s.dev.up = true ∧ dormant s.dev = false ∧ s.dev.rd (ENC.CFG.MODE ch) = 2 ∧ s.dev.rd (ENC.SSI_CFG.PAR
      ch) = 0 ∧ s.dev.rd (ENC.SSI_CFG.GRAY ch) = 0 ∧ s.dev.enc[ch].ssiPrev = none ∧ s.dev.enc[ch].ssiBad < 3) ∧
    (∃ (s : State) (ch : Fin 4), s.dev.up = true ∧ dormant s.dev = false ∧ s.dev.rd (ENC.CFG.MODE ch) = 2 ∧ s.dev.rd (ENC.SSI_CFG.PAR
      ch) = 0 ∧ 3 ≤ s.dev.enc[ch].ssiBad) ∧
    (∃ (s : State) (ch : Fin 4), s.dev.up = true ∧ dormant s.dev = false ∧ s.dev.rd (ENC.CFG.MODE ch) = 2 ∧ s.dev.isStandby = true) :=
  ⟨⟨encState 1 [(ENC.INDEX_PERIOD.PERIOD 1, 1000), (ENC.INDEX_PHASE.PHASE 1, 30)] fun e => { e with f := 7 }, 1, by decide +kernel⟩,
   ⟨encState 1 [(ENC.INDEX_PERIOD.PERIOD 1, 1000), (ENC.INDEX_PHASE.PHASE 1, 30), (ENC.INDEX_CFG.MODE 1, 1)] fun e =>
      { e with f := 1032, ofs := 1, refDue := false }, 1, by decide +kernel⟩,
   ⟨encState 1 [(ENC.INDEX_PERIOD.PERIOD 1, 1000), (ENC.INDEX_PHASE.PHASE 1, 30), (ENC.INDEX_CFG.MODE 1, 1)] fun e =>
      { e with f := 30, refDue := false }, 1, by decide +kernel⟩,
   ⟨encState 2 [(ENC.SSI_CFG.PAR 1, 1)] id, 1, by decide +kernel⟩,
   ⟨encState 2 [] fun e => { e with ssiPrev := some 4 }, 1, by decide +kernel⟩,
   ⟨encState 2 [(ENC.SSI_CFG.GRAY 1, 0)] id, 1, by decide +kernel⟩,
   ⟨encState 2 [] fun e => { e with ssiBad := 3 }, 1, by decide +kernel⟩,
   ⟨encState 2 [(TWIN.STATUS.STATE, 4)] id, 1, by decide +kernel⟩⟩

theorem wit_LatchesAndChannelFaults :
    (∃ (s : State) (ch : Fin 4) (src : Nat), s.dev.up = true ∧ dormant s.dev = false ∧ 8 ≤ src ∧ src ≤ 15 ∧ s.dev.rd
      (ENC.LATCH_CTL.SRC ch) = src ∧ s.dev.rd (ENC.LATCH_CTL.EDGE ch) = 2) ∧
    (∃ (s : State) (ch : Fin 4) (src : Nat), s.dev.up = true ∧ dormant s.dev = false ∧ 8 ≤ src ∧ src ≤ 15 ∧ s.dev.rd
      (ENC.LATCH_CTL.SRC ch) = src ∧ s.dev.rd (ENC.LATCH_CTL.EDGE ch) = 2) ∧
    (∃ (s : State) (ch : Fin 4), s.dev.up = true ∧ s.dev.rd (ENC.LATCH_CTL.SRC ch) = 2) ∧
    (∃ (s : State), s.dev.up = true) ∧
    (∃ (s : State) (ch : Fin 4), s.dev.up = true ∧ dormant s.dev = false ∧ ch ≠ trigSrc s.dev ∧ s.dev.enc[ch].tLast + 16000 * s.dev.rd
      (ENC.STANDSTILL_TIME.TIME ch) ≤ s.dev.now) ∧
    (∃ (s : State) (ch : Fin 4), s.dev.up = true ∧ dormant s.dev = false ∧ s.dev.rd (ENC.CFG.MODE ch) = 1 ∧ ch ≠ trigSrc s.dev) ∧
    (∃ (s : State), s.dev.up = true ∧ s.dev.gen.foWlnBase + s.dev.rd (ENC.FO_TOL.WIN (trigSrc s.dev)) ≤ s.dev.gen.nextWln ∧ s.dev.rd
      (ENC.FO_TOL.TOL (trigSrc s.dev)) * 2 ^ 24 < ((s.dev.enc[trigSrc s.dev].pos - s.dev.gen.foSrcBase) - (s.dev.enc[(Fin.ofNat 4
      (s.dev.rd (ENC.FO_CFG.BACKUP (trigSrc s.dev))) : Fin 4)].pos - s.dev.gen.foBkBase)).natAbs) :=
  ⟨⟨encState 1 [(ENC.LATCH_CTL.SRC 1, 8), (ENC.LATCH_CTL.EDGE 1, 2), (ENC.LATCH_STAT.VALID 1, 1)] fun e =>
      { e with c := -5, pos := -(3 * 2 ^ 24) - 1 }, 1, 8, by decide +kernel⟩,
   ⟨encState 1 [(ENC.LATCH_CTL.SRC 1, 15), (ENC.LATCH_CTL.EDGE 1, 2)] id, 1, 15, by decide +kernel⟩,
   ⟨encState 1 [(ENC.LATCH_CTL.SRC 1, 2)] fun e => { e with c := -5 }, 1, by decide +kernel⟩,
   ⟨encState 1 [(ENC.LATCH_STAT.VALID 1, 1)] id, by decide +kernel⟩,
   ⟨atTime 16000 (encState 1 [(ENC.CH_STAT.SPEED_VALID 1, 1), (ENC.STANDSTILL_TIME.TIME 1, 1)] id), 1, by decide +kernel⟩,
   ⟨encState 1 [(ENC.CH_STAT.LOS 1, 1)] id, 1, by decide +kernel⟩,
   ⟨stOf ((dev [(ENC.FO_CFG.EN 0, 1), (ENC.FO_CFG.BACKUP 0, 1), (ENC.FO_TOL.TOL 0, 500), (ENC.FO_TOL.WIN 0, 0)]).updEnc 1 fun e =>
      { e with pos := 500 * 2 ^ 24 + 1 }), by decide +kernel⟩⟩

/-! ## Camera links -/

/-- Port 2 in state `x` of Table 3.4. -/
def portState (x : Nat) (l : List (Fld × Nat)) (g : Port → Port) : State :=
  stOf ((dev ((PORT.LINK_STAT.STATE 2, x) :: (PORT.LINK_CFG.EN 2, 1) :: (PORT.CREDIT_G.G 2, 2048) :: l)).updPort 2 g)
/-- A line of port 2: WLN `w`, sent and open. -/
def pline (w : Nat) (g : PLine → PLine) : PLine :=
  g { trig := trig w, target := 0, sent := true, sendLate := false, fs := false, closed := none, flags := 0, setId := 0, expo := none, gain := none, headAt := none, pix := [], marks := [], blocks := 0, phase := none }
def caps : CamCaps := ⟨3, 15, 7, 0, 4096, 4, 100, []⟩

theorem wit_TrainingWalksItsStates :
    (∃ (s : State) (p : Fin 16), s.dev.up = true ∧ linkState s.dev p = 0 ∧ homing s.dev p ≠ 2) ∧
    (∃ (s : State) (p : Fin 16), s.dev.up = true ∧ linkState s.dev p = 0 ∧ homing s.dev p ≠ 2) ∧
    (∃ (s : State) (p : Fin 16), s.dev.up = true ∧ linkState s.dev p = 0 ∧ s.dev.rd (PORT.LINK_CFG.HOMING p) = 2 ∧ s.dev.isStandby =
      true) ∧
    (∃ (s : State) (p : Fin 16), s.dev.up = true ∧ 1 ≤ linkState s.dev p ∧ linkState s.dev p ≠ 5 ∧ s.dev.ports[p].lines = []) ∧
    (∃ (s : State) (p : Fin 16), s.dev.up = true ∧ 1 ≤ linkState s.dev p ∧ linkState s.dev p ≠ 5 ∧ s.dev.ports[p].lines = []) ∧
    (∃ (s : State) (p : Fin 16), s.dev.up = true ∧ s.dev.on (PORT.LINK_CFG.EN p) = true ∧ (linkState s.dev p = 2 ∨ linkState s.dev p =
      3 ∨ linkState s.dev p = 4)) ∧
    (∃ (s : State) (p : Fin 16), s.dev.up = true ∧ linkState s.dev p = 0) ∧
    (∃ (s : State) (p : Fin 16), s.dev.up = true ∧ cageDark s.dev p = false ∧ linkState s.dev p = 1) ∧
    (∃ (s : State) (p : Fin 16), s.dev.up = true ∧ linkState s.dev p = 2 ∧ s.dev.ports[p].hellos < 4) ∧
    (∃ (s : State) (p : Fin 16), s.dev.up = true ∧ linkState s.dev p = 2 ∧ 4 ≤ s.dev.ports[p].hellos) ∧
    (∃ (s : State) (p : Fin 16) (c : CamCaps), s.dev.up = true ∧ linkState s.dev p = 2 ∧ s.dev.rd (PORT.LINK_CFG.HOMING p) = 0 ∧
      s.dev.rd (PORT.LINK_CFG.VER_MAX p) = 3 ∧ s.dev.rd (PORT.LINK_CFG.RATE_MAX p) = 3 ∧ s.dev.rd (PORT.LINK_CFG.LANE_MAX p) = 2 ∧
      s.dev.ports[p].excl = [] ∧ c.maxVer = 3 ∧ c.rateMask = 15 ∧ c.laneMask = 7) ∧
    (∃ (s : State) (p : Fin 16) (c : CamCaps), s.dev.up = true ∧ linkState s.dev p = 2 ∧ c.laneMask = 0) ∧
    (∃ (s : State) (p : Fin 16) (ver : Nat) (rate : Nat) (lanes : Nat), s.dev.up = true ∧ linkState s.dev p = 3 ∧
      s.dev.ports[p].chosen = some (ver, rate, lanes)) ∧
    (∃ (s : State) (p : Fin 16) (ver : Nat) (rate : Nat) (lanes : Nat), s.dev.up = true ∧ linkState s.dev p = 3 ∧
      s.dev.ports[p].chosen ≠ some (ver, rate, lanes)) ∧
    (∃ (s : State) (p : Fin 16) (ver : Nat) (rate : Nat) (lanes : Nat), s.dev.up = true ∧ linkState s.dev p = 3 ∧
      s.dev.ports[p].accepted = true ∧ s.dev.ports[p].chosen = some (ver, rate, lanes) ∧ rate < 4 ∧ lanes < 3) ∧
    (∃ (s : State) (p : Fin 16), s.dev.up = true ∧ linkState s.dev p = 3 ∧ s.dev.ports[p].accepted = false) ∧
    (∃ (s : State) (p : Fin 16), s.dev.up = true ∧ linkState s.dev p = 4) ∧
    (∃ (s : State) (p : Fin 16), s.dev.up = true ∧ linkState s.dev p = 4 ∧ equalized s.dev p = true ∧ s.dev.rd (PORT.BUF_USED.B p) = 0
      ∧ s.dev.rd (PORT.LINK_CFG.HOMING p) = 0) ∧
    (∃ (s : State) (p : Fin 16), s.dev.up = true ∧ linkState s.dev p = 4) ∧
    (∃ (s : State) (p : Fin 16), s.dev.up = true ∧ linkState s.dev p = 6) :=
  ⟨⟨State.reset, 2, by decide +kernel⟩,
   ⟨portState 0 [(PORT.LINK_CFG.HOMING 2, 3)] id, 2, by decide +kernel⟩,
   ⟨portState 0 [(PORT.LINK_CFG.HOMING 2, 2), (TWIN.STATUS.STATE, 4)] id, 2, by decide +kernel⟩,
   ⟨portState 1 [] id, 2, by decide +kernel⟩,
   ⟨portState 7 [] id, 2, by decide +kernel⟩,
   ⟨portState 4 [] fun q => { q with chosen := some (3, 3, 2) }, 2, by decide +kernel⟩,
   ⟨portState 0 [] id, 2, by decide +kernel⟩,
   ⟨portState 1 [] id, 2, by decide +kernel⟩,
   ⟨portState 2 [] fun q => { q with hellos := 3 }, 2, by decide +kernel⟩,
   ⟨portState 2 [] fun q => { q with hellos := 4 }, 2, by decide +kernel⟩,
   ⟨portState 2 [] id, 2, caps, by decide +kernel⟩,
   ⟨portState 2 [] id, 2, { caps with laneMask := 0 }, by decide +kernel⟩,
   ⟨portState 3 [] fun q => { q with chosen := some (3, 3, 2) }, 2, 3, 3, 2, by decide +kernel⟩,
   ⟨portState 3 [] fun q => { q with chosen := some (3, 3, 2) }, 2, 3, 2, 2, by decide +kernel⟩,
   ⟨portState 3 [] fun q => { q with chosen := some (3, 3, 2), accepted := true }, 2, 3, 3, 2, by decide +kernel⟩,
   ⟨portState 3 [] fun q => { q with chosen := some (3, 3, 2) }, 2, by decide +kernel⟩,
   ⟨portState 4 [] id, 2, by decide +kernel⟩,
   ⟨portState 4 [(LANE.STAT.BLOCK_LOCK 2 0, 1), (LANE.STAT.ALIGNED 2 0, 1), (LANE.EYE.VALID 2 0, 1), (LANE.EYE.H 2 0, 255),
      (LANE.EYE.V 2 0, 255)] fun q => { q with readyGot := true, readySent := true, ctleDone := true }, 2, by decide +kernel⟩,
   ⟨portState 4 [] id, 2, by decide +kernel⟩,
   ⟨portState 6 [] fun q => { q with excl := [1] }, 2, by decide +kernel⟩⟩

theorem wit_LanesErrorsAndCredits :
    (∃ (s : State) (p : Fin 16) (k : Fin 4), s.dev.up = true ∧ linkState s.dev p ≠ 5 ∧ s.dev.on (LANE.STAT.LOS p k) = false) ∧
    (∃ (s : State) (p : Fin 16) (k : Fin 4), s.dev.up = true ∧ linkState s.dev p = 5 ∧ k.val < activeLanes s.dev p ∧
      s.dev.ports[p].lines = []) ∧
    (∃ (s : State) (p : Fin 16), s.dev.up = true ∧ linkState s.dev p ≠ 5) ∧
    (∃ (s : State) (p : Fin 16) (used : Nat), s.dev.up = true ∧ linkState s.dev p = 5 ∧ activeLanes s.dev p ≤ 4 ∧ used % 2 ^ 32 ≠
      s.dev.rd (PORT.CREDIT_R.R p)) ∧
    (∃ (s : State) (p : Fin 16), s.dev.up = true ∧ linkState s.dev p = 4 ∧ adaptsTx s.dev p = true) ∧
    (∃ (s : State) (p : Fin 16) (k : Fin 4), s.dev.up = true ∧ linkState s.dev p = 5 ∧ s.dev.past (.eye (4 * p.val + k.val)) (s.dev.rd
      (LANE.EYE_PERIOD.PERIOD p) * oneMs) = true) ∧
    (∃ (s : State), s.dev.up = true) ∧
    (∃ (s : State) (p : Fin 16) (dt : Nat) (n : Nat), s.dev.up = true ∧ receiving s.dev p = true ∧ (receive s.dev p (if dt < 16 then 4
      else 6 + n)).1 = true ∧ (¬(dt = 2 ∨ dt = 3 ∨ (8 ≤ dt ∧ dt < 16)))) ∧
    (∃ (s : State) (p : Fin 16) (dt : Nat) (n : Nat), s.dev.up = true ∧ receiving s.dev p = true ∧ (receive s.dev p (if dt < 16 then 4
      else 6 + n)).1 = true ∧ (¬(dt = 2 ∨ dt = 3 ∨ (8 ≤ dt ∧ dt < 16)))) ∧
    (∃ (s : State) (p : Fin 16) (dt : Nat), s.dev.up = true ∧ receiving s.dev p = true ∧ (receive s.dev p 4).1 = true ∧ (dt = 2 ∨ dt =
      3 ∨ (8 ≤ dt ∧ dt < 16))) ∧
    (∃ (s : State), s.dev.up = true) ∧
    (∃ (s : State) (p : Fin 16), s.dev.up = true ∧ receiving s.dev p = true) ∧
    (∃ (s : State) (p : Fin 16) (free : Nat), s.dev.up = true ∧ linkState s.dev p ≠ 7 ∧ 65536 - (s.dev.rd (PORT.BUF_USED.B p) : Int) -
      grantLeft s.dev p = free ∧ s.dev.rd (PORT.CREDIT_G.G p) + free / 32 < 2 ^ 32) ∧
    (∃ (s : State) (p : Fin 16), s.dev.up = true ∧ linkState s.dev p = 7) ∧
    (∃ (s : State) (p : Fin 16), s.dev.up = true ∧ linkState s.dev p = 5) :=
  ⟨⟨portState 2 [(LANE.STAT.LOS 2 3, 0)] id, 2, 3, by decide +kernel⟩,
   ⟨portState 5 [] id, 2, 0, by decide +kernel⟩,
   ⟨portState 4 [(LANE.STAT.BLOCK_LOCK 2 0, 1)] id, 2, by decide +kernel⟩,
   ⟨portState 5 [(PORT.CREDIT_R.R 2, 8)] id, 2, 9, by decide +kernel⟩,
   ⟨portState 4 [(PORT.LINK_STAT.VER 2, 2), (PORT.CAM_CAP0.FLAGS 2, 4), (LANE.TX_EQ.ADAPT 2 0, 1)] id, 2, by decide +kernel⟩,
   ⟨atTime (3 * oneMs + 5) (stOf { (portState 5 [(LANE.EYE_PERIOD.PERIOD 2, 3)] id).dev with marks := [(.eye 8, 5)] }), 2, 0,
      by decide +kernel⟩,
   ⟨portState 5 [] id, by decide +kernel⟩,
   ⟨portState 7 [] id, 2, 20, 5, by decide +kernel⟩,
   ⟨portState 5 [] id, 2, 4, 5, by decide +kernel⟩,
   ⟨portState 5 [(PORT.CREDIT_R.R 2, 2 ^ 32 - 1)] id, 2, 15, by decide +kernel⟩,
   ⟨portState 1 [] id, by decide +kernel⟩,
   ⟨portState 5 [] id, 2, by decide +kernel⟩,
   ⟨portState 5 [(PORT.CREDIT_R.R 2, 320), (PORT.BUF_USED.B 2, 256)] id, 2, 64, by decide +kernel⟩,
   ⟨portState 7 [(PORT.CREDIT_R.R 2, 320)] id, 2, by decide +kernel⟩,
   ⟨portState 5 [(PORT.CREDIT_G.G 2, 65537)] id, 2, by decide +kernel⟩⟩

theorem wit_PacketsFillLines :
    (∃ (s : State) (p : Fin 16) (vc : Fin 16) (data : Nat) (l : PLine), s.dev.up = true ∧ linkState s.dev p = 5 ∧ onImage s.dev p vc =
      true ∧ (receive s.dev p 4).1 = true ∧ (s.dev.lines p).find? (fun l => l.closed.isNone && l.sent && l.trig.wln % 65536 ==
      data) = some l) ∧
    (∃ (s : State) (p : Fin 16) (vc : Fin 16) (data : Nat), s.dev.up = true ∧ linkState s.dev p = 5 ∧ onImage s.dev p vc = true ∧
      (receive s.dev p 4).1 = true ∧ (s.dev.lines p).find? (fun l => l.closed.isNone && l.sent && l.trig.wln % 65536 == data) =
      none) ∧
    (∃ (s : State) (p : Fin 16) (vc : Fin 16) (bytes : List Byte) (w : Nat) (l : PLine), s.dev.up = true ∧ linkState s.dev p = 5 ∧
      onImage s.dev p vc = true ∧ s.dev.ports[p].dropToFs = false ∧ s.dev.ports[p].cur = some w ∧ findLine s.dev p w = some l ∧
      l.headAt = none ∧ 8 ≤ bytes.length ∧ (receive s.dev p (6 + bytes.length)).1 = true) ∧
    (∃ (s : State) (p : Fin 16) (vc : Fin 16) (dt : Nat) (bytes : List Byte) (w : Nat) (l : PLine), s.dev.up = true ∧ linkState s.dev
      p = 5 ∧ onImage s.dev p vc = true ∧ s.dev.ports[p].dropToFs = false ∧ s.dev.ports[p].cur = some w ∧ findLine s.dev p w =
      some l ∧ dt = s.dev.cfg (packetEpoch s.dev p) (PORT.STREAM_CFG.DT_EXP p) ∧ bytes.length % (rawGroup dt).1 = 0 ∧ (receive
      s.dev p (6 + bytes.length)).1 = true ∧ l.pix.length + (unpackRaw dt bytes.length (bytes.map BitVec.toNat)).length ≤
      s.dev.cfg l.trig.epoch (PORT.LINE_LEN.LEN p)) ∧
    (∃ (s : State) (p : Fin 16) (vc : Fin 16) (dt : Nat) (bytes : List Byte) (w : Nat) (l : PLine), s.dev.up = true ∧ linkState s.dev
      p = 5 ∧ onImage s.dev p vc = true ∧ s.dev.ports[p].dropToFs = false ∧ s.dev.ports[p].cur = some w ∧ findLine s.dev p w =
      some l ∧ dt = s.dev.cfg (packetEpoch s.dev p) (PORT.STREAM_CFG.DT_EXP p) ∧ bytes.length % (rawGroup dt).1 = 0 ∧ (receive
      s.dev p (6 + bytes.length)).1 = true ∧ l.pix.length + (unpackRaw dt bytes.length (bytes.map BitVec.toNat)).length ≤
      s.dev.cfg l.trig.epoch (PORT.LINE_LEN.LEN p)) ∧
    (∃ (s : State) (p : Fin 16) (vc : Fin 16) (data : Nat) (l : PLine), s.dev.up = true ∧ linkState s.dev p = 5 ∧ onImage s.dev p vc =
      true ∧ s.dev.ports[p].dropToFs = false ∧ (receive s.dev p 4).1 = true ∧ (s.dev.lines p).find? (fun l => l.closed.isNone &&
      l.fs && l.trig.wln % 65536 == data) = some l ∧ findLine s.dev p l.trig.wln = some l) ∧
    (∃ (s : State) (p : Fin 16) (vc : Fin 16) (data : Nat) (l : PLine), s.dev.up = true ∧ linkState s.dev p = 5 ∧ onImage s.dev p vc =
      true ∧ s.dev.ports[p].dropToFs = false ∧ (receive s.dev p 4).1 = true ∧ (s.dev.lines p).find? (fun l => l.closed.isNone &&
      l.fs && l.trig.wln % 65536 == data) = some l ∧ findLine s.dev p l.trig.wln = some l) ∧
    (∃ (s : State) (p : Fin 16) (w : Nat) (l : PLine), s.dev.up = true ∧ findLine s.dev p w = some l ∧ l.closed = none ∧ l.fs = false
      ∧ l.trig.time + s.dev.rd (PORT.LINE_TIMEOUT.TIME p) * 16000 ≤ s.dev.now) ∧
    (∃ (s : State) (p : Fin 16) (vc : Fin 16) (dt : Nat) (bytes : List Byte) (w : Nat), s.dev.up = true ∧ linkState s.dev p = 5 ∧ 0x30
      ≤ dt ∧ dt ≤ 0x37 ∧ bitOf (s.dev.cfg (packetEpoch s.dev p) (PORT.STREAM_CFG.SIDE_VC_EN p)) vc = true ∧ s.dev.isStandby =
      false ∧ s.dev.ports[p].cur = some w ∧ (receive s.dev p (6 + bytes.length)).1 = true) ∧
    (∃ (s : State) (p : Fin 16) (vc : Fin 16) (dt : Nat) (bytes : List Byte) (w : Nat), s.dev.up = true ∧ linkState s.dev p = 5 ∧ 0x30
      ≤ dt ∧ dt ≤ 0x37 ∧ bitOf (s.dev.cfg (packetEpoch s.dev p) (PORT.STREAM_CFG.SIDE_VC_EN p)) vc = true ∧ s.dev.isStandby =
      false ∧ s.dev.ports[p].cur = some w ∧ (receive s.dev p (6 + bytes.length)).1 = true) :=
  ⟨⟨portState 5 [] fun q => { q with lines := [pline 65537 id] }, 2, 0, 1, pline 65537 id, by decide +kernel⟩,
   ⟨portState 5 [] fun q => { q with lines := [pline 65537 id] }, 2, 0, 2, by decide +kernel⟩,
   ⟨portState 5 [] fun q => { q with lines := [pline 9 id], cur := some 9 }, 2, 0, [0x34, 0x12, 5, 0, 0, 0, 3, 0], 9, pline 9 id,
      by decide +kernel⟩,
   ⟨portState 5 [] fun q => { q with lines := [pline 9 id], cur := some 9 }, 2, 0, 0x2C, [0xAB, 0xCD, 0xEF], 9, pline 9 id,
      by decide +kernel⟩,
   ⟨portState 5 [(PORT.LINE_LEN.LEN 2, 16)] fun q =>
      { q with lines := [pline 9 fun l => { l with pix := List.replicate 14 1 }], cur := some 9 }, 2, 0, 0x2C, [0xAB, 0xCD, 0xEF],
      9, pline 9 fun l => { l with pix := List.replicate 14 1 }, by decide +kernel⟩,
   ⟨portState 5 [] fun q => { q with lines := [pline 9 fun l => { l with fs := true }], cur := some 9 }, 2, 0, 9, pline 9 fun l =>
      { l with fs := true }, by decide +kernel⟩,
   ⟨portState 5 [(PORT.LINE_LEN.LEN 2, 16)] fun q =>
      { q with lines := [pline 9 fun l => { l with fs := true, headAt := some 3, pix := List.replicate 16 4 }], cur := some 9 },
      2, 0, 9, pline 9 fun l => { l with fs := true, headAt := some 3, pix := List.replicate 16 4 }, by decide +kernel⟩,
   ⟨atTime 16000 (portState 5 [(PORT.LINE_TIMEOUT.TIME 2, 1)] fun q => { q with lines := [pline 9 id] }), 2, 9, pline 9 id,
      by decide +kernel⟩,
   ⟨portState 5 [(PORT.STREAM_CFG.SIDE_VC_EN 2, 2)] fun q => { q with cur := some 9 }, 2, 1, 0x30, [1, 2], 9, by decide +kernel⟩,
   ⟨portState 5 [(PORT.STREAM_CFG.SIDE_VC_EN 2, 2)] fun q => { q with cur := some 9 }, 2, 1, 0x37, [], 9, by decide +kernel⟩⟩

theorem wit_BackchannelMessages :
    (∃ (s : State) (p : Fin 16) (b : Nat) (l : PLine), s.dev.up = true ∧ linkState s.dev p = 5 ∧ s.dev.ports[p].boundary ≠ some b ∧
      s.dev.ports[p].relock ≤ b ∧ unsent s.dev p = [l] ∧ b ≤ l.target ∧ (l.target - b) * 100 < blockTime100 (s.dev.rd
      (PORT.LINK_STAT.RATE p))) ∧
    (∃ (s : State) (p : Fin 16) (b : Nat) (l : PLine), s.dev.up = true ∧ linkState s.dev p = 5 ∧ s.dev.ports[p].boundary ≠ some b ∧
      s.dev.ports[p].relock ≤ b ∧ unsent s.dev p = [l] ∧ l.target < b) ∧
    (∃ (s : State) (p : Fin 16) (b : Nat), s.dev.up = true ∧ s.dev.ports[p].boundary = some b) ∧
    (∃ (s : State) (p : Fin 16) (r : SetReq), s.dev.up = true ∧ s.dev.ports[p].set = some r ∧ r.sent = true ∧ s.dev.rd
      (PORT.LINK_STAT.VER p) ≠ 1) ∧
    (∃ (s : State) (p : Fin 16) (r : SetReq) (status : Nat), s.dev.up = true ∧ s.dev.ports[p].set = some r ∧ r.sent = true ∧ s.dev.rd
      (PORT.LINK_STAT.VER p) ≠ 1 ∧ status ≠ 0) ∧
    (∃ (s : State) (p : Fin 16) (tag : Nat) (r : SetReq), s.dev.up = true ∧ s.dev.ports[p].set = some r ∧ s.dev.rd (PORT.LINK_STAT.VER
      p) ≠ 1 ∧ r.waiting = [(tag, false)]) ∧
    (∃ (s : State) (p : Fin 16) (tag : Nat) (r : SetReq), s.dev.up = true ∧ s.dev.ports[p].set = some r ∧ r.waiting = [(tag, true)]) ∧
    (∃ (s : State) (p : Fin 16), s.dev.up = true ∧ s.dev.on (PORT.CR_STAT.BUSY p) = false ∧ s.dev.on (PORT.CR_CTL.WRITE p) = false) ∧
    (∃ (s : State) (p : Fin 16), s.dev.up = true ∧ s.dev.on (PORT.CR_STAT.BUSY p) = true) ∧
    (∃ (s : State) (p : Fin 16) (tag : Nat), s.dev.up = true ∧ s.dev.ports[p].crTag = some (tag, false)) ∧
    (∃ (s : State) (p : Fin 16) (tag : Nat), s.dev.up = true ∧ s.dev.ports[p].crTag = some (tag, true)) ∧
    (∃ (s : State) (p : Fin 16) (tag : Nat) (w : Bool), s.dev.up = true ∧ s.dev.ports[p].crTag = some (tag, w)) ∧
    (∃ (s : State) (p : Fin 16), s.dev.up = true ∧ s.dev.on (PORT.CR_STAT.BUSY p) = true) ∧
    (∃ (s : State), s.dev.up = true) :=
  ⟨⟨portState 5 [] fun q => { q with lines := [pline 9 fun l => { l with sent := false, target := 1337 }] }, 2, 1000, pline 9 fun l
      => { l with sent := false, target := 1337 }, by decide +kernel⟩,
   ⟨portState 5 [] fun q => { q with lines := [pline 9 fun l => { l with sent := false, target := 999 }] }, 2, 1000, pline 9 fun l =>
      { l with sent := false, target := 999 }, by decide +kernel⟩,
   ⟨portState 5 [] fun q => { q with boundary := some 1000 }, 2, 1000, by decide +kernel⟩,
   ⟨portState 5 [(PORT.LINK_STAT.VER 2, 2)] fun q => { q with set := some ⟨7, 100, 80, [(1, 2)], true, [], [(3, false)]⟩ }, 2, ⟨7,
      100, 80, [(1, 2)], true, [], [(3, false)]⟩, by decide +kernel⟩,
   ⟨portState 5 [(PORT.LINK_STAT.VER 2, 2)] fun q => { q with set := some ⟨7, 100, 80, [(1, 2)], true, [], [(3, false)]⟩ }, 2, ⟨7,
      100, 80, [(1, 2)], true, [], [(3, false)]⟩, 1, by decide +kernel⟩,
   ⟨portState 5 [(PORT.LINK_STAT.VER 2, 2)] fun q => { q with set := some ⟨7, 100, 80, [(1, 2)], true, [], [(3, false)]⟩ }, 2, 3, ⟨7,
      100, 80, [(1, 2)], true, [], [(3, false)]⟩, by decide +kernel⟩,
   ⟨portState 5 [(PORT.LINK_STAT.VER 2, 2)] fun q => { q with set := some ⟨7, 100, 80, [(1, 2)], true, [], [(3, true)]⟩ }, 2, 3, ⟨7,
      100, 80, [(1, 2)], true, [], [(3, true)]⟩, by decide +kernel⟩,
   ⟨portState 5 [(PORT.CR_ADDR.ADDR 2, 0x100)] id, 2, by decide +kernel⟩,
   ⟨portState 5 [(PORT.CR_STAT.BUSY 2, 1)] id, 2, by decide +kernel⟩,
   ⟨portState 5 [(PORT.CR_STAT.BUSY 2, 1)] fun q => { q with crTag := some (3, false) }, 2, 3, by decide +kernel⟩,
   ⟨portState 5 [(PORT.CR_STAT.BUSY 2, 1)] fun q => { q with crTag := some (3, true) }, 2, 3, by decide +kernel⟩,
   ⟨portState 5 [(PORT.CR_STAT.BUSY 2, 1)] fun q => { q with crTag := some (3, true) }, 2, 3, true, by decide +kernel⟩,
   ⟨portState 5 [(PORT.CR_STAT.BUSY 2, 1)] fun q => { q with crTag := some (3, true) }, 2, by decide +kernel⟩,
   ⟨portState 5 [] id, by decide +kernel⟩⟩

/-! ## Line pipelines -/

/-- A slot of pipeline 0: line `w` of port 2. -/
def slotOf (w : Nat) (ctx : Ctx) (g : Slot → Slot) : Slot :=
  g { port := 2, trig := trig w, ctx := ctx, state := .wait, item := 0, landed := none, trigsSince := 0, fetched := 0, poison := [], cls := .process, pipeFlags := 0, yOk := 0, portFlags := 0, setId := 0, tailIn := false, lateSeen := false, residence := 0, phase := none, proc := none }
/-- Port 2 routed to pipeline 0 (as IL A, or over the merge ring), with `lines` in the port and `g` on the pipeline. -/
def pipeState (mr : Bool) (l : List (Fld × Nat)) (lines : List PLine) (g : Pipe → Pipe) : State :=
  let r := if mr then [(PIPE.ROUTE_MR.MR_MASK 0, 4)] else [(PIPE.ROUTE_IL.A_EN 0, 1), (PIPE.ROUTE_IL.A_PORT 0, 2)]
  stOf (((dev (r ++ l)).updPort 2 fun q => { q with lines := lines }).updPipe 0 g)

theorem wit_TriggersReserveSlots :
    (∃ (s : State), s.dev.up = true ∧ s.dev.snap.wait = []) ∧
    (∃ (s : State) (l : Fin 8) (p : Fin 16) (t : TrigRec) (rest : List (Nat × TrigRec)) (c : Ctx), s.dev.up = true ∧
      s.dev.pipes[l].resQ = (p.val, t) :: rest ∧ routeOf s.dev t.epoch p = some (l, c) ∧ (c = .m → s.dev.on (PIPE.STATUS.DEGRADED
      l) = false ∧ s.dev.rd (PIPE.DECIM.N l) ≤ 1 ∧ (s.dev.pipes[l].slots.filter fun q => q.ctx == Ctx.m && q.state ==
      SlotState.wait).length < s.dev.cfg t.epoch (PIPE.ARB.MRQ_MAX l)) ∧ s.dev.pipes[l].slots.length < 64) ∧
    (∃ (s : State) (l : Fin 8) (p : Fin 16) (t : TrigRec) (rest : List (Nat × TrigRec)) (c : Ctx), s.dev.up = true ∧
      s.dev.pipes[l].resQ = (p.val, t) :: rest ∧ routeOf s.dev t.epoch p = some (l, c) ∧ (c = .m → s.dev.on (PIPE.STATUS.DEGRADED
      l) = false ∧ s.dev.rd (PIPE.DECIM.N l) ≤ 1 ∧ (s.dev.pipes[l].slots.filter fun q => q.ctx == Ctx.m && q.state ==
      SlotState.wait).length < s.dev.cfg t.epoch (PIPE.ARB.MRQ_MAX l)) ∧ 64 ≤ s.dev.pipes[l].slots.length) ∧
    (∃ (s : State) (l : Fin 8) (p : Fin 16) (w : Nat) (o : OutLine), s.dev.up = true ∧ s.dev.pipes[l].notices.find? (fun o => o.port
      == p.val && o.trig.wln == w) = some o ∧ heldBack s.dev p w none = false) :=
  ⟨⟨pipeState false [(PIPE.LINES_IN.CNT 0, 2 ^ 32 - 1)] [] fun q => { q with trigQ := [trig 9, trig 10] }, by decide +kernel⟩,
   ⟨pipeState false [] [] fun q => { q with resQ := [(2, trig 9)], slots := List.replicate 63 (slotOf 1 .m id) }, 0, 2, trig 9, [],
      .a, by decide +kernel⟩,
   ⟨pipeState false [] [] fun q => { q with resQ := [(2, trig 9)], slots := List.replicate 64 (slotOf 1 .m id) }, 0, 2, trig 9, [],
      .a, by decide +kernel⟩,
   ⟨pipeState false [] [pline 9 id] fun q => { q with notices := [⟨trig 9, 2, 0, 0, 0, 0, 3, 0, []⟩] }, 0, 2, 9, ⟨trig 9, 2, 0, 0, 0,
      0, 3, 0, []⟩, by decide +kernel⟩⟩

theorem wit_ItemsAreGrantedAndLinesLeave :
    (∃ (s : State) (l : Fin 8) (x : Slot) (c : Ctx) (o : Ctx), s.dev.up = true ∧ s.Sound ∧ ((c = .a ∧ o = .b) ∨ (c = .b ∧ o = .a)) ∧
      ctxSlot s.dev l c = some x ∧ ctxSlot s.dev l o = none ∧ x.item = 0) ∧
    (∃ (s : State) (l : Fin 8) (x : Slot) (c : Ctx) (o : Ctx), s.dev.up = true ∧ s.Sound ∧ ((c = .a ∧ o = .b) ∨ (c = .b ∧ o = .a)) ∧
      ctxSlot s.dev l c = some x ∧ ctxSlot s.dev l o = none ∧ x.item ≠ 0 ∧ x.item ≤ slotSlices s.dev x ∧ slotClass s.dev l x ≠
      .void ∧ (itemReadyAt s.dev l x).isSome = true) ∧
    (∃ (s : State) (l : Fin 8), s.dev.up = true ∧ ctxSlot s.dev l .a = none ∧ ctxSlot s.dev l .b = none ∧ ctxSlot s.dev l .m = none) ∧
    (∃ (s : State) (l : Fin 8) (p : Fin 16) (w : Nat) (x : Slot) (ln : PLine), s.dev.up = true ∧ s.dev.pipes[l].slots.find? (fun s =>
      s.port == p.val && s.trig.wln == w && s.ctx == .m && s.state == .wait && s.landed.isNone) = some x ∧ findLine s.dev p w =
      some ln ∧ (ln.closed.isSome = true ∨ s.dev.cfg x.trig.epoch (PORT.LINE_LEN.LEN p) ≤ ln.pix.length) ∧ slotClass s.dev l x ≠
      .void) ∧
    (∃ (s : State) (l : Fin 8) (x : Slot), s.dev.up = true ∧ ctxSlot s.dev l .m = some x ∧ x.fetched < slotSlices s.dev x ∧ x.fetched
      < x.item - 1 + 64 ∧ slotClass s.dev l x ≠ .void ∧ (∀ y ∈ s.dev.pipes[l].slots, y.port = x.port → y.trig.wln = x.trig.wln → y
      = x)) ∧
    (∃ (s : State) (l : Fin 8) (p : Fin 16) (w : Nat) (x : Slot), s.dev.up = true ∧ s.dev.pipes[l].slots.find? (fun s => s.port ==
      p.val && s.trig.wln == w && s.state == .run && s.tailIn) = some x) ∧
    (∃ (s : State), s.dev.up = true) ∧
    (∃ (s : State), s.dev.up = true) :=
  ⟨⟨pipeState false [] [pline 9 fun l => { l with headAt := some 5 }] fun q => { q with slots := [slotOf 9 .a id] }, 0, slotOf 9 .a
      id, .a, .b, by decide +kernel⟩,
   ⟨pipeState false [] [pline 9 fun l => { l with headAt := some 5, closed := some 7, pix := List.replicate 16 4 }] fun q =>
      { q with slots := [slotOf 9 .a fun x => { x with state := .run, item := 1 }] }, 0, slotOf 9 .a fun x =>
      { x with state := .run, item := 1 }, .a, .b, by decide +kernel⟩,
   ⟨State.reset, 0, by decide +kernel⟩,
   ⟨pipeState true [(PORT.BUF_USED.B 2, 100)] [pline 9 fun l => { l with closed := some 5, blocks := 60 }] fun q =>
      { q with slots := [slotOf 9 .m id] }, 0, 2, 9, slotOf 9 .m id, pline 9 fun l => { l with closed := some 5, blocks := 60 },
      by decide +kernel⟩,
   ⟨pipeState true [] [] fun q => { q with slots := [slotOf 9 .m fun x => { x with landed := some 5, fetched := 62 }] }, 0, slotOf 9
      .m fun x => { x with landed := some 5, fetched := 62 }, by decide +kernel⟩,
   ⟨pipeState true [] [] fun q => { q with slots := [slotOf 9 .m fun x => { x with state := .run, tailIn := true, cls := .void }] },
      0, 2, 9, slotOf 9 .m fun x => { x with state := .run, tailIn := true, cls := .void }, by decide +kernel⟩,
   ⟨st [(PIPE.IL_WAIT_MAX.CYCLES 0, 5)], by decide +kernel⟩,
   ⟨st [(PIPE.MR_RES_MAX.NS 0, 5)], by decide +kernel⟩⟩

/-! ## Pixel correction and statistics -/

/-- An empty block. -/
def block : BlockAcc :=
  { num := 3, first := 0, epoch := 0, epochChg := false, pipe := 0, short := false, sCount := 0, lines := 0, used := 0, void := 0, suspect := 0, flagsOr := 0, flagged := 0, expo := none, gain := none, gotHead := false, setId := none, mixed := 0, noAck := false, flkAll := false, clipHi := 0, clipLo := 0, dpDyn := 0, rawSum := 0, rawN := 0, slices := [], bins := List.replicate 32 (0, 0), muSum := 0, muN := 0, mainsP := 0 }
def corrState (l : List (Fld × Nat)) (g : Corr → Corr) : State := stOf ((dev l).updCorr 3 g)

theorem wit_StatisticsAndTables :
    (∃ (s : State) (p : Fin 16) (b : BlockAcc) (rest : List BlockAcc), s.dev.up = true ∧ s.dev.corr[p].closed = b :: rest ∧ s.dev.cfg
      b.epoch (STAT.CORR_CTL.STAT_EN (statPage p) (statBank p)) ≠ 0) ∧
    (∃ (s : State) (p : Fin 16) (b : BlockAcc) (rest : List BlockAcc), s.dev.up = true ∧ s.dev.corr[p].flkWait = b :: rest ∧
      (s.dev.cfg b.epoch (STAT.FLK_CTL.MODE (statPage p) (statBank p)) = 0 ∨ s.dev.cfg b.epoch (STAT.FLK_CTL.MODE (statPage p)
      (statBank p)) = 3)) ∧
    (∃ (s : State) (p : Fin 16) (b : BlockAcc) (rest : List BlockAcc), s.dev.up = true ∧ s.dev.corr[p].flkWait = b :: rest ∧ s.dev.cfg
      b.epoch (STAT.FLK_CTL.MODE (statPage p) (statBank p)) ≠ 0 ∧ s.dev.cfg b.epoch (STAT.FLK_CTL.MODE (statPage p) (statBank p))
      ≠ 3 ∧ (learnedGains s.dev p).length = 32 ∧ b.bins.length = 32) ∧
    (∃ (s : State), s.dev.up = true ∧ s.dev.zeroX.length < 8) ∧
    (∃ (s : State) (p : Fin 16), s.dev.up = true ∧ s.dev.on (STAT.SET_STAT.BUSY (statPage p) (statBank p)) = true) ∧
    (∃ (s : State) (p : Fin 16) (w : Nat) (lead : Nat), s.dev.up = true ∧ s.dev.on (STAT.SET_STAT.BUSY (statPage p) (statBank p)) =
      false ∧ s.dev.rd (STAT.SET_ID.ID (statPage p) (statBank p)) ≠ 0xFFFF ∧ (∀ k ∈ s.dev.corr[p].known, k.id ≠ s.dev.rd
      (STAT.SET_ID.ID (statPage p) (statBank p))) ∧ 1 ≤ s.dev.rd (STAT.SET_REQ.N (statPage p) (statBank p)) ∧ s.dev.rd
      (STAT.SET_REQ.N (statPage p) (statBank p)) ≤ 32 ∧ w = s.dev.rd2 WEB.BLOCK_ORIGIN_LO.BLOCK_ORIGIN
      WEB.BLOCK_ORIGIN_HI.BLOCK_ORIGIN + s.dev.rd (STAT.SET_BLOCK.BLOCK (statPage p) (statBank p)) * s.dev.rd WEB.BLOCK_LEN.VAL ∧
      lead = s.dev.rd (PORT.CAM_CAP1.SET_DELAY p) + (if s.dev.rd (PORT.LINK_STAT.VER p) = 1 then 0 else s.dev.rd
      (PORT.SET_LEAD.LEAD p)) ∧ lead ≤ w ∧ (s.dev.gen.maxWln.elim true fun v => decide (v < w - lead)) = true ∧ s.Sound) ∧
    (∃ (s : State) (p : Fin 16) (o : Nat), s.dev.up = true ∧ o < 0x24000 ∧ s.dev.rd (STAT.CORR_CTL.BANK (statPage p) (statBank p)) = 0
      ∧ s.dev.on (STAT.TBL_STAT.BANK_BUSY (statPage p) (statBank p)) = false) ∧
    (∃ (s : State) (p : Fin 16) (o : Nat), s.dev.up = true ∧ o < 0x24000 ∧ s.dev.rd (STAT.CORR_CTL.BANK (statPage p) (statBank p)) =
      0) :=
  ⟨⟨corrState [] fun c => { c with closed := [block] }, 3, block, [], by decide +kernel⟩,
   ⟨corrState [] fun c => { c with flkWait := [block] }, 3, block, [], by decide +kernel⟩,
   ⟨corrState [(STAT.FLK_CTL.MODE 1 1, 2)] fun c =>
      { c with flkWait := [{ block with bins := List.replicate 32 (1000, 4), muSum := 2000, muN := 2 }], hSets := [⟨1, 0, List.replicate 32 16384⟩] },
      3, { block with bins := List.replicate 32 (1000, 4), muSum := 2000, muN := 2 }, [], by decide +kernel⟩,
   ⟨stOf { dev [(PWR.MAINS_PERIOD.NS, 5)] with zeroX := List.replicate 7 3, time := ⟨3200, 0, 0⟩ }, by decide +kernel⟩,
   ⟨st [(STAT.SET_STAT.BUSY 1 1, 1)], 3, by decide +kernel⟩,
   ⟨st [(WEB.BLOCK_LEN.VAL, 4096), (STAT.SET_ID.ID 1 1, 0xFFFE), (STAT.SET_REQ.N 1 1, 32), (STAT.SET_BLOCK.BLOCK 1 1, 2 ^ 32 - 1),
      (PORT.LINK_STAT.VER 3, 1)], 3, (2 ^ 32 - 1) * 4096, 0, by decide +kernel⟩,
   ⟨State.reset, 3, 0x23FFF, by decide +kernel⟩,
   ⟨State.reset, 3, 0x23FFF, by decide +kernel⟩⟩

/-! ## Thermal heads -/

/-- Head 1, present, in state `x` of Table 6.1. -/
def headSt (x : Nat) (l : List (Fld × Nat)) (g : Head → Head) : State :=
  stOf ((dev ([(THERM.STATUS.STATE 1, x), (THERM.STATUS.HEAD_PRESENT 1, 1), (THERM.CTL.EN 1, 1)] ++ l)).updHead 1 g)
/-- A frame in progress. -/
def frame : FrameInfo := ⟨0, 0, 7, 0, 0, 0, false, false, false, false, false⟩

theorem wit_HeadsChangeState :
    (∃ (s : State) (n : Fin 2), s.dev.up = true ∧ headState s.dev n = 0 ∧ headThere s.dev n = true) ∧
    (∃ (s : State) (n : Fin 2), s.dev.up = true ∧ headState s.dev n ≠ 0) ∧
    (∃ (s : State) (n : Fin 2), s.dev.up = true ∧ headState s.dev n ≠ 0) ∧
    (∃ (s : State) (n : Fin 2), s.dev.up = true ∧ headState s.dev n = 0) ∧
    (∃ (s : State) (n : Fin 2), s.dev.up = true ∧ headState s.dev n = 4 ∧ s.dev.on (THERM.STATUS.HEAD_PRESENT n) = true) ∧
    (∃ (s : State) (n : Fin 2), s.dev.up = true ∧ (headState s.dev n = 1 ∨ headState s.dev n = 2 ∨ headState s.dev n = 3)) ∧
    (∃ (s : State) (n : Fin 2), s.dev.up = true ∧ (headState s.dev n = 1 ∨ headState s.dev n = 2 ∨ headState s.dev n = 3)) ∧
    (∃ (s : State) (n : Fin 2), s.dev.up = true ∧ headState s.dev n = 0 ∧ s.dev.on (THERM.CTL.EN n) = true ∧ n.val ∉ s.dev.pw.tripped) ∧
    (∃ (s : State) (n : Fin 2) (cs : Nat) (code : Nat) (rest : List (Nat × Nat)), s.dev.up = true ∧ s.dev.heads[n].biasQ = (cs, code)
      :: rest) ∧
    (∃ (s : State) (n : Fin 2), s.dev.up = true ∧ s.dev.heads[n].biasQ = []) ∧
    (∃ (s : State) (n : Fin 2), s.dev.up = true ∧ (headState s.dev n ≠ 1 ∨ s.dev.now < s.dev.heads[n].t0 + 16000000 * s.dev.rd
      (THERM.BIAS.SETTLE n))) ∧
    (∃ (s : State) (n : Fin 2), s.dev.up = true ∧ (headState s.dev n ≠ 1 ∨ s.dev.now < s.dev.heads[n].t0 + 16000000 * s.dev.rd
      (THERM.BIAS.SETTLE n))) ∧
    (∃ (s : State) (n : Fin 2), s.dev.up = true ∧ headState s.dev n = 1 ∧ biasOk s.dev n = true ∧ shState s.dev n = 0 ∧
      s.dev.heads[n].t0 + 16000000 * s.dev.rd (THERM.BIAS.SETTLE n) ≤ s.dev.now ∧ s.dev.heads[n].req = none) ∧
    (∃ (s : State) (n : Fin 2), s.dev.up = true ∧ headState s.dev n = 1 ∧ biasOk s.dev n = false ∧ s.dev.heads[n].t0 + 16000000 *
      s.dev.rd (THERM.BIAS.SETTLE n) ≤ s.dev.now) :=
  ⟨⟨headSt 0 [(THERM.BIAS.CODE 1, 5)] id, 1, by decide +kernel⟩,
   ⟨headSt 4 [(THERM.CTL.EN 1, 0)] id, 1, by decide +kernel⟩,
   ⟨headSt 3 [(THERM.SH_STAT.STATE 1, 3)] fun h => { h with cur := some frame, req := some 1, capN := 4 }, 1, by decide +kernel⟩,
   ⟨headSt 0 [] id, 1, by decide +kernel⟩,
   ⟨stOf { (headSt 4 [] id).dev with pw := { Power.reset with tripped := [1] } }, 1, by decide +kernel⟩,
   ⟨headSt 1 [] id, 1, by decide +kernel⟩,
   ⟨headSt 3 [(THERM.SH_STAT.STATE 1, 2)] fun h => { h with cur := some frame }, 1, by decide +kernel⟩,
   ⟨headSt 0 [(THERM.STATUS.HEAD_PRESENT 1, 0)] id, 1, by decide +kernel⟩,
   ⟨headSt 1 [] fun h => { h with biasQ := [(3, 9), (3, 0)] }, 1, 3, 9, [(3, 0)], by decide +kernel⟩,
   ⟨headSt 1 [] id, 1, by decide +kernel⟩,
   ⟨headSt 2 [] id, 1, by decide +kernel⟩,
   ⟨headSt 1 [(THERM.BIAS.SETTLE 1, 1)] fun h => { h with t0 := 1 }, 1, by decide +kernel⟩,
   ⟨atTime 16000000 (headSt 1 [(THERM.BIAS.SETTLE 1, 1)] id), 1, by decide +kernel⟩,
   ⟨headSt 1 [(PADC.RES.VAL 0 0, 2 ^ 31 - 1), (THERM.BIAS.SETTLE 1, 0)] id, 1, by decide +kernel⟩⟩

theorem wit_CapturesAndFrames :
    (∃ (s : State) (n : Fin 2), s.dev.up = true ∧ headState s.dev n = 3 ∧ shState s.dev n = 0 ∧ s.dev.heads[n].req = none) ∧
    (∃ (s : State) (n : Fin 2), s.dev.up = true ∧ headState s.dev n = 3 ∧ shState s.dev n = 0 ∧ s.dev.heads[n].req = none) ∧
    (∃ (s : State) (n : Fin 2), s.dev.up = true ∧ (headState s.dev n = 0 ∨ headState s.dev n = 1 ∨ headState s.dev n = 4)) ∧
    (∃ (s : State) (n : Fin 2), s.dev.up = true ∧ (headState s.dev n = 0 ∨ headState s.dev n = 1 ∨ headState s.dev n = 4)) ∧
    (∃ (s : State), s.dev.up = true) ∧
    (∃ (s : State), s.dev.up = true) ∧
    (∃ (s : State) (n : Fin 2), s.dev.up = true ∧ shState s.dev n = 1 ∧ s.dev.now ≤ dipLimit s.dev n) ∧
    (∃ (s : State) (n : Fin 2), s.dev.up = true ∧ (shState s.dev n ≠ 1 ∨ dipLimit s.dev n < s.dev.now)) ∧
    (∃ (s : State) (n : Fin 2), s.dev.up = true ∧ (shState s.dev n ≠ 1 ∨ dipLimit s.dev n < s.dev.now)) ∧
    (∃ (s : State) (n : Fin 2), s.dev.up = true ∧ shState s.dev n = 1 ∧ s.dev.heads[n].retried = false ∧ dipLimit s.dev n ≤ s.dev.now) ∧
    (∃ (s : State) (n : Fin 2), s.dev.up = true ∧ shState s.dev n = 1 ∧ s.dev.heads[n].retried = true ∧ dipLimit s.dev n ≤ s.dev.now) ∧
    (∃ (s : State) (n : Fin 2), s.dev.up = true ∧ headState s.dev n = 2 ∧ shState s.dev n = 5 ∧ s.dev.heads[n].req = none ∧
      s.dev.heads[n].quietUntil ≤ s.dev.now) ∧
    (∃ (s : State), s.dev.up = true) ∧
    (∃ (s : State) (n : Fin 2), s.dev.up = true ∧ (headState s.dev n = 0 ∨ headState s.dev n = 4 ∨ (s.dev.isStandby = false ∧
      s.dev.now < s.dev.heads[n].nextF))) ∧
    (∃ (s : State) (n : Fin 2), s.dev.up = true ∧ headState s.dev n = 3 ∧ s.dev.heads[n].set = s.dev.regs ∧ shState s.dev n = 0 ∧
      s.dev.heads[n].req = none ∧ biasOk s.dev n = true ∧ s.dev.heads[n].mapKey = some (mapKeyOf s.mem s.dev n) ∧ (s.dev.isStandby
      = true ∨ s.dev.heads[n].nextF ≤ s.dev.now)) ∧
    (∃ (s : State) (n : Fin 2), s.dev.up = true ∧ s.dev.heads[n].cur = none) ∧
    (∃ (s : State) (n : Fin 2) (f : FrameInfo), s.dev.up = true ∧ s.dev.heads[n].cur = some f ∧ s.dev.on (THERM.STATUS.DEGRADED n) =
      true) :=
  ⟨⟨headSt 3 [(THERM.CTL.SH_INHIBIT 1, 1)] id, 1, by decide +kernel⟩,
   ⟨headSt 3 [] id, 1, by decide +kernel⟩,
   ⟨headSt 1 [] id, 1, by decide +kernel⟩,
   ⟨headSt 4 [] id, 1, by decide +kernel⟩,
   ⟨headSt 3 [] fun h => { h with req := some 3 }, by decide +kernel⟩,
   ⟨headSt 3 [(THERM.SH_STAT.PENDING 1, 1)] fun h => { h with req := some 3 }, by decide +kernel⟩,
   ⟨headSt 3 [(THERM.SH_STAT.STATE 1, 1)] id, 1, by decide +kernel⟩,
   ⟨headSt 3 [(THERM.SH_STAT.STATE 1, 2)] id, 1, by decide +kernel⟩,
   ⟨atTime (2 ^ 64) (headSt 3 [(THERM.SH_STAT.STATE 1, 1)] id), 1, by decide +kernel⟩,
   ⟨atTime (2 ^ 64) (headSt 3 [(THERM.SH_STAT.STATE 1, 1)] id), 1, by decide +kernel⟩,
   ⟨atTime (2 ^ 64) (headSt 3 [(THERM.SH_STAT.STATE 1, 1)] fun h => { h with retried := true }), 1, by decide +kernel⟩,
   ⟨headSt 2 [(THERM.SH_STAT.STATE 1, 5)] id, 1, by decide +kernel⟩,
   ⟨headSt 3 [(THERM.DYN_BP.CNT 1, 2)] fun h => { h with dyn := [4, 5] }, by decide +kernel⟩,
   ⟨headSt 4 [] id, 1, by decide +kernel⟩,
   ⟨stOf ((headSt 3 [] id).dev.updHead 1 fun h =>
      { h with set := (headSt 3 [] id).dev.regs, mapKey := some (mapKeyOf ⟨[], [], []⟩ (headSt 3 [] id).dev 1) }), 1,
      by decide +kernel⟩,
   ⟨headSt 3 [] id, 1, by decide +kernel⟩,
   ⟨headSt 3 [(THERM.STATUS.DEGRADED 1, 1)] fun h => { h with cur := some frame }, 1, frame, by decide +kernel⟩⟩

theorem wit_MapAndNucBanks :
    (∃ (s : State) (n : Fin 2), s.dev.up = true ∧ s.dev.heads[n].pendL = none) ∧
    (∃ (s : State) (n : Fin 2) (l : Int) (lo : Int) (z : Int) (first : Int) (cnt : Nat), s.dev.up = true ∧ s.dev.heads[n].pendL = some
      l ∧ s.dev.heads[n].kLo = some lo ∧ s.dev.heads[n].finalK = some z ∧ first = max lo (z + 1) ∧ cnt = min 512 (l / (max 1
      (headCfg s.dev n (THERM.CELL.AW n)) : Nat) - first).toNat) ∧
    (∃ (s : State) (n : Fin 2) (l : Int) (lo : Int) (z : Int) (first : Int) (cnt : Nat), s.dev.up = true ∧ s.dev.heads[n].pendL = some
      l ∧ s.dev.heads[n].kLo = some lo ∧ s.dev.heads[n].finalK = some z ∧ first = max lo (z + 1) ∧ cnt = min 512 (l / (max 1
      (headCfg s.dev n (THERM.CELL.AW n)) : Nat) - first).toNat) ∧
    (∃ (s : State) (n : Fin 2) (k : Int), s.dev.up = true ∧ (∃ r ∈ s.dev.heads[n].finals, r.k = k) ∧ s.dev.on (THERM.STATUS.DEGRADED
      n) = false ∧ s.dev.heads[n].lastRow = some k) ∧
    (∃ (s : State) (n : Fin 2) (k : Int), s.dev.up = true ∧ (∀ r ∈ s.dev.heads[n].finals, r.k ≠ k)) ∧
    (∃ (s : State) (n : Fin 2) (bank : Fin 2), s.dev.up = true ∧ bank.val ∉ s.dev.heads[n].verify) ∧
    (∃ (s : State) (n : Fin 2) (bank : Fin 2), s.dev.up = true ∧ bank.val ∈ s.dev.heads[n].verify) ∧
    (∃ (s : State) (n : Fin 2) (b : Nat) (rest : List Nat), s.dev.up = true ∧ s.dev.heads[n].verify = b :: rest ∧ s.dev.prof.verifying
      = false ∧ s.dev.pw.booting = false) ∧
    (∃ (s : State) (n : Fin 2) (b : Nat) (rest : List Nat), s.dev.up = true ∧ s.dev.heads[n].verify = b :: rest ∧ s.dev.prof.verifying
      = false ∧ s.dev.pw.booting = false) ∧
    (∃ (s : State) (n : Fin 2) (bank : Fin 2) (o : Nat), s.dev.up = true ∧ o < 0x200000 ∧ s.dev.on MEM.STATUS.DEGRADED = false ∧
      s.dev.rd (THERM.CTL.BANK n) ≠ bank.val ∧ s.dev.on (THERM.TBL_STAT.BANK_BUSY n) = false) ∧
    (∃ (s : State) (n : Fin 2) (bank : Fin 2) (o : Nat), s.dev.up = true ∧ o < 0x800000 ∧ s.dev.on MEM.STATUS.DEGRADED = false ∧
      s.dev.rd (THERM.CTL.BANK n) = bank.val) :=
  ⟨⟨headSt 3 [] id, 1, by decide +kernel⟩,
   ⟨headSt 3 [] fun h => { h with pendL := some 60000, kLo := some 5, finalK := some 6, finals := [⟨6, []⟩] }, 1, 60000, 5, 6, 7, 23,
      by decide +kernel⟩,
   ⟨headSt 3 [] fun h => { h with pendL := some 14000, kLo := some 5, finalK := some 6, finals := [⟨6, []⟩] }, 1, 14000, 5, 6, 7, 0,
      by decide +kernel⟩,
   ⟨headSt 3 [] fun h => { h with finals := [⟨6, []⟩], lastRow := some 6 }, 1, 6, by decide +kernel⟩,
   ⟨headSt 3 [] fun h => { h with finals := [⟨6, []⟩] }, 1, 5, by decide +kernel⟩,
   ⟨headSt 3 [] id, 1, 1, by decide +kernel⟩,
   ⟨headSt 3 [(THERM.TBL_STAT.VBUSY 1, 1)] fun h => { h with verify := [0, 1] }, 1, 1, by decide +kernel⟩,
   ⟨headSt 3 [(THERM.TBL_STAT.VBUSY 1, 1)] fun h => { h with verify := [1] }, 1, 1, [], by decide +kernel⟩,
   ⟨headSt 3 [(THERM.TBL_STAT.VBUSY 1, 1)] fun h => { h with verify := [0, 1] }, 1, 0, [1], by decide +kernel⟩,
   ⟨headSt 3 [(THERM.TBL_STAT.VERIFIED1 1, 1)] id, 1, 1, 0x1FFFFF, by decide +kernel⟩,
   ⟨headSt 3 [] id, 1, 0, 0x7FFFFF, by decide +kernel⟩⟩

/-! ## Stitching -/

/-- Port 2 stitched, its line 9 complete in pipeline 0. -/
def doneState (l : List (Fld × Nat)) (g : Stitch → Stitch) : State :=
  let s := pipeState true ((STITCH.CFG.EN 2, 1) :: l) [] fun q => { q with slots := [slotOf 9 .m fun x => { x with state := .done, tailIn := true }] }
  stOf (s.dev.updStitch g)
/-- A web line `w` of two columns. -/
def webLine (w : Nat) : WebLine := ⟨w, 0, 0, 0, 0, 0, 0, 0, [(100, 0), (200, 0)]⟩
def stitchState (l : List (Fld × Nat)) (g : Stitch → Stitch) : State := stOf ((dev l).updStitch g)

theorem wit_WebLinesAreStitched :
    (∃ (s : State) (l : Fin 8) (p : Fin 16) (w : Nat) (x : Slot), s.dev.up = true ∧ s.dev.pipes[l].slots.find? (fun q => q.port ==
      p.val && q.trig.wln == w && q.state == SlotState.done) = some x ∧ (∀ c ∈ s.dev.stitch.cal, c.port ≠ p.val) ∧ s.dev.snap.wait
      = [] ∧ s.dev.cfg x.trig.epoch (STITCH.CFG.EN p) ≠ 0 ∧ (s.dev.on STITCH.STATUS.DEGRADED = false ∨ s.dev.cfg x.trig.epoch
      (STITCH.STAGGER.D p) ≤ 16) ∧ released s.dev (w + s.dev.cfg x.trig.epoch (STITCH.STAGGER.D p)) = false) ∧
    (∃ (s : State) (l : Fin 8) (p : Fin 16) (w : Nat) (x : Slot), s.dev.up = true ∧ s.dev.pipes[l].slots.find? (fun q => q.port ==
      p.val && q.trig.wln == w && q.state == SlotState.done) = some x ∧ (∀ c ∈ s.dev.stitch.cal, c.port ≠ p.val) ∧ released s.dev
      (w + s.dev.cfg x.trig.epoch (STITCH.STAGGER.D p)) = true) ∧
    (∃ (s : State) (w : Nat), s.dev.up = true ∧ released s.dev w = false) ∧
    (∃ (s : State) (w : Nat), s.dev.up = true ∧ released s.dev w = true) ∧
    (∃ (s : State), s.dev.up = true) ∧
    (∃ (s : State) (o : OpenWeb) (rest : List OpenWeb), (s.dev.up = true ∧ s.dev.stitch.waiting = o :: rest ∧ o.forced = false ∧
      outstanding s.dev (s.dev.cfg o.trig.epoch) o.trig.wln ≠ []) ∧ (∀ m, s.dev.gen.maxWln = some m → m < o.trig.wln + s.dev.cfg
      o.trig.epoch STITCH.CTL.DEADLINE_LINES)) ∧
    (∃ (s : State) (o : OpenWeb) (rest : List OpenWeb) (v : View), (s.dev.up = true ∧ s.dev.stitch.waiting = o :: rest) ∧ v =
      s.dev.cfg o.trig.epoch ∧ outstanding s.dev v o.trig.wln = [] ∧ stripsDue s.dev v o.trig.wln = [] ∧ colCount v ≠ 0) ∧
    (∃ (s : State) (o : OpenWeb) (rest : List OpenWeb) (v : View), (s.dev.up = true ∧ s.dev.stitch.waiting = o :: rest) ∧ v =
      s.dev.cfg o.trig.epoch ∧ outstanding s.dev v o.trig.wln = [] ∧ stripsDue s.dev v o.trig.wln = [] ∧ colCount v ≠ 0) ∧
    (∃ (s : State) (g : WebLine) (rest : List WebLine), s.dev.up = true ∧ s.dev.stitch.out = g :: rest ∧ s.dev.stitch.busyUntil ≤
      s.dev.now) ∧
    (∃ (s : State) (g : WebLine) (rest : List WebLine), s.dev.up = true ∧ s.dev.stitch.out = g :: rest ∧ s.dev.now <
      s.dev.stitch.busyUntil) ∧
    (∃ (s : State), s.dev.up = true ∧ s.dev.on STITCH.CAL_STAT.BUSY = true) ∧
    (∃ (s : State), s.dev.up = true ∧ s.dev.on STITCH.CAL_STAT.BUSY = false ∧ (s.dev.rd STITCH.CAL_CTL.MODE = 1 ∨ s.dev.rd
      STITCH.CAL_CTL.MODE = 2) ∧ (∃ p < 16, bitOf (s.dev.rd STITCH.CAL_PORTS.MASK) p = true)) ∧
    (∃ (s : State), s.dev.up = true ∧ s.dev.on STITCH.CAL_STAT.BUSY = false ∧ (s.dev.rd STITCH.CAL_CTL.MODE = 1 ∨ s.dev.rd
      STITCH.CAL_CTL.MODE = 2) ∧ (∃ p < 16, bitOf (s.dev.rd STITCH.CAL_PORTS.MASK) p = true)) :=
  ⟨⟨doneState [(STITCH.STAGGER.D 2, 3)] fun q => { q with lastRel := some 11 }, 0, 2, 9, slotOf 9 .m fun x =>
      { x with state := .done, tailIn := true }, by decide +kernel⟩,
   ⟨doneState [(STITCH.STAGGER.D 2, 3)] fun q => { q with lastRel := some 12 }, 0, 2, 9, slotOf 9 .m fun x =>
      { x with state := .done, tailIn := true }, by decide +kernel⟩,
   ⟨stitchState [] fun q => { q with lastRel := some 8 }, 9, by decide +kernel⟩,
   ⟨stitchState [] fun q => { q with lastRel := some 9 }, 9, by decide +kernel⟩,
   ⟨stitchState [] fun q => { q with waiting := [⟨trig 9, false, false⟩, ⟨trig 10, false, false⟩] }, by decide +kernel⟩,
   ⟨stOf
      { (stitchState [(STITCH.CFG.EN 2, 1)] fun q => { q with waiting := [⟨trig 9, false, false⟩] }).dev with gen := { TrigGen.reset with maxWln := some 11 } },
      ⟨trig 9, false, false⟩, [], by decide +kernel, (fun _ h => by cases h; decide +kernel)⟩,
   ⟨stitchState [(STITCH.COL_COUNT.N, 3)] fun q => { q with waiting := [⟨trig 9, false, false⟩] }, ⟨trig 9, false, false⟩, [],
      Dev.cfg (dev [(STITCH.COL_COUNT.N, 3)]) 0, by decide +kernel, rfl, by decide +kernel⟩,
   ⟨stitchState [(STITCH.COL_COUNT.N, 3), (STITCH.CFG.EN 2, 1), (STITCH.CTL.FILL, 1)] fun q =>
      { q with waiting := [⟨trig 9, false, false⟩], segs := [⟨2, 9, false, false, [(0, 40, 0), (1, 41, 0)]⟩], last := [(2, 55)] },
      ⟨trig 9, false, false⟩, [], Dev.cfg (dev [(STITCH.COL_COUNT.N, 3), (STITCH.CFG.EN 2, 1), (STITCH.CTL.FILL, 1)]) 0,
      by decide +kernel, rfl, by decide +kernel⟩,
   ⟨stitchState [] fun q => { q with out := [webLine 9] }, webLine 9, [], by decide +kernel⟩,
   ⟨stitchState [] fun q => { q with out := [webLine 9], busyUntil := 1 }, webLine 9, [], by decide +kernel⟩,
   ⟨stitchState [(STITCH.CAL_STAT.BUSY, 1)] id, by decide +kernel⟩,
   ⟨stitchState [(STITCH.CAL_CTL.MODE, 1), (STITCH.CAL_PORTS.MASK, 0x8001)] id, by decide +kernel⟩,
   ⟨stitchState [(STITCH.CAL_CTL.MODE, 2), (STITCH.CAL_PORTS.MASK, 4)] id, by decide +kernel⟩⟩

/-! ## Segmentation -/

def acc0 : BlobAcc := ⟨0, 0, 0, 0, 0, 0, 0, 0, 0, 0, 0, 0, 0, 0, 0, 0, 0, 0, 0, 0, 0, 0, 0, 0, 0, 0, 0⟩
/-- An open blob of family 0 that met columns 3 to 5 on line 8. -/
def blob (ord : Nat) (g : Blob → Blob) : Blob :=
  g { id := ord, ord := ord, fam := 0, first := 8, last := 8, p0 := 0, p1 := 0, frontier := [(3, 5)], adj := [], next := [], held := 0, flags := 0, pred := none, headRun := false, taken := false, acc := { acc0 with n := 3, ns := 3 } }
/-- Line 9 in segmentation with the runs still to take. -/
def segLine (runs : List SegRun) : SegLine := ⟨webLine 9, [], false, runs, [], false⟩
def segState (l : List (Fld × Nat)) (g : Segm → Segm) : State := stOf ((dev l).updSeg g)
def segFields : List (Fld × Nat) := [(SEG.CTL.EN, 1), (SEG.BG.WARM, 0)]

theorem wit_RunsMakeBlobs :
    (∃ (s : State) (g : WebLine) (rest : List WebLine), (s.dev.up = true ∧ s.dev.stitch.toSeg = g :: rest ∧ s.dev.seg.cur = none ∧
      s.dev.snap.jobs = []) ∧ (∀ w e k r, s.dev.seg.prev = some (w, e, k, r) → e = g.epoch) ∧ (∀ q ∈ s.dev.seg.geo, q.2 = true ∨
      g.wln < q.1)) ∧
    (∃ (s : State) (g : WebLine) (rest : List WebLine), (s.dev.up = true ∧ s.dev.stitch.toSeg = g :: rest ∧ s.dev.seg.cur = none ∧
      s.dev.snap.jobs = []) ∧ (∀ w e k r, s.dev.seg.prev = some (w, e, k, r) → e = g.epoch) ∧ (∀ q ∈ s.dev.seg.geo, q.2 = true ∨
      g.wln < q.1)) ∧
    (∃ (s : State), s.dev.up = true ∧ (s.dev.stitch.toSeg = [] ∨ s.dev.seg.cur ≠ none)) ∧
    (∃ (s : State), s.dev.up = true ∧ (s.dev.stitch.toSeg = [] ∨ s.dev.seg.cur ≠ none)) ∧
    (∃ (s : State) (l : SegLine) (r : SegRun) (rest : List SegRun) (v : View), (s.dev.up = true ∧ s.dev.seg.cur = some l ∧ l.runs = r
      :: rest ∧ s.dev.seg.conts = []) ∧ v = s.dev.cfg l.line.epoch ∧ hit s.dev (v SEG.CTL.CONN != 0) r = [] ∧ blobsFree s.dev ≠ 0
      ∧ (∀ b ∈ s.dev.seg.blobs, b.ord < s.dev.seg.ord)) ∧
    (∃ (s : State) (l : SegLine) (r : SegRun) (rest : List SegRun), s.dev.up = true ∧ s.dev.seg.cur = some l ∧ l.runs = r :: rest ∧
      s.dev.seg.conts = [] ∧ hit s.dev (s.dev.cfg l.line.epoch SEG.CTL.CONN != 0) r = [] ∧ blobsFree s.dev = 0) ∧
    (∃ (s : State) (l : SegLine) (r : SegRun) (rest : List SegRun) (b : Blob), s.dev.up = true ∧ s.dev.seg.cur = some l ∧ l.runs = r
      :: rest ∧ s.dev.seg.conts = [] ∧ hit s.dev (s.dev.cfg l.line.epoch SEG.CTL.CONN != 0) r = [b]) ∧
    (∃ (s : State), s.dev.up = true ∧ s.dev.seg.cur = none) ∧
    (∃ (s : State), s.dev.up = true ∧ s.dev.seg.cur ≠ none) ∧
    (∃ (s : State), s.dev.up = true) :=
  ⟨⟨stitchState [] fun q => { q with toSeg := [webLine 9] }, webLine 9, [], by decide +kernel, (fun _ _ _ _ h => nomatch h),
      by decide +kernel⟩,
   ⟨stOf ((stitchState [(SEG.CTL.EN, 1), (SEG.BG.WARM, 4)] fun q => { q with toSeg := [webLine 9] }).dev.updSeg fun g =>
      { g with since := 4, prev := some (8, 0, 0, 0), bg := [⟨0, 100, 10, 0⟩] }), webLine 9, [], by decide +kernel,
      (fun _ _ _ _ h => by cases h; rfl), by decide +kernel⟩,
   ⟨State.reset, by decide +kernel⟩,
   ⟨stOf ((stitchState [] fun q => { q with toSeg := [webLine 10] }).dev.updSeg fun g => { g with cur := some (segLine []) }),
      by decide +kernel⟩,
   ⟨segState [] fun g => { g with cur := some (segLine [⟨0, 2, 4, false⟩]), ord := 7 }, segLine [⟨0, 2, 4, false⟩], ⟨0, 2, 4, false⟩,
      [], Dev.cfg Dev.reset 0, by decide +kernel, rfl, by decide +kernel⟩,
   ⟨segState [] fun g => { g with cur := some (segLine [⟨1, 2, 4, false⟩]), blobs := List.replicate 8192 (blob 0 id) }, segLine [⟨1,
      2, 4, false⟩], ⟨1, 2, 4, false⟩, [], by decide +kernel⟩,
   ⟨segState [] fun g => { g with cur := some (segLine [⟨0, 5, 7, false⟩]), ord := 7, blobs := [blob 3 id] }, segLine [⟨0, 5, 7,
      false⟩], ⟨0, 5, 7, false⟩, [], blob 3 id, by decide +kernel⟩,
   ⟨segState [] fun g => { g with since := 5, bg := [⟨0, 100, 10, 0⟩], blobs := [blob 3 id] }, by decide +kernel⟩,
   ⟨segState [] fun g => { g with cur := some (segLine []), since := 5 }, by decide +kernel⟩,
   ⟨segState [(SEG.FREE_MIN.N, 4)] fun g => { g with blobs := [blob 3 id] }, by decide +kernel⟩⟩

theorem wit_LinesCloseAndSeamsMeet :
    (∃ (s : State) (l : SegLine), s.dev.up = true ∧ s.dev.seg.cur = some l ∧ l.runs ≠ []) ∧
    (∃ (s : State) (l : SegLine) (v : View), (s.dev.up = true ∧ s.dev.seg.cur = some l ∧ l.runs = [] ∧ s.dev.seg.blobs = []) ∧ v =
      s.dev.cfg l.line.epoch ∧ s.dev.seg.restart = false ∧ s.dev.snap.jobs = [] ∧ (∀ q ∈ s.dev.seg.geo, q.2 = true)) ∧
    (∃ (s : State) (l : SegLine) (b : Blob) (v : View), (s.dev.up = true ∧ s.dev.seg.cur = some l ∧ l.runs = [] ∧ s.dev.seg.blobs =
      [b]) ∧ v = s.dev.cfg l.line.epoch ∧ b.ends v l = true ∧ bitOf b.flags 2 = false ∧ bitOf b.flags 3 = false ∧ b.acc.ns ≠ 0 ∧ v
      SEG.MIN_AREA.AREA ≤ b.acc.n ∧ s.dev.snap.jobs = [] ∧ (∀ q ∈ s.dev.seg.geo, q.2 = true)) ∧
    (∃ (s : State), s.dev.up = true) :=
  ⟨⟨segState [] fun g => { g with cur := some (segLine [⟨0, 5, 7, false⟩]) }, segLine [⟨0, 5, 7, false⟩], by decide +kernel⟩,
   ⟨segState [] fun g => { g with cur := some (segLine []) }, segLine [], Dev.cfg Dev.reset 0, by decide +kernel, rfl,
      by decide +kernel⟩,
   ⟨segState [(SEG.MIN_AREA.AREA, 3)] fun g => { g with cur := some (segLine []), blobs := [blob 3 id] }, segLine [], blob 3 id,
      Dev.cfg (dev [(SEG.MIN_AREA.AREA, 3)]) 0, by decide +kernel, rfl, by decide +kernel⟩,
   ⟨State.reset, by decide +kernel⟩⟩

/-! ## Classification and tags -/

/-- The vector of blob 3, closed on line 9. -/
def vec : Vec := ⟨3, 0, 0, List.replicate 32 0, 8, 9, 0, 0, 0, 3, 5, false⟩
def verdict (mark : Bool) : Verdict := ⟨63, 200, 4, false, mark, 0x020005⟩
def formed (mark host : Bool) : Formed := ⟨vec, verdict mark, List.replicate 16 7, host, false⟩
def tagState (l : List (Fld × Nat)) (g : TagPath → TagPath) : State := stOf ((dev l).updTags g)
def hand (k : Nat) : HandOff := ⟨k, 9, 50, 100, 300, 2, false⟩

theorem wit_TagsAreFormed :
    (∃ (s : State) (x : Vec) (rest : List Vec) (v : View) (r : Verdict), (s.dev.up = true ∧ s.dev.tags.vecs = x :: rest) ∧ v =
      s.dev.cfg x.epoch ∧ s.Sound ∧ s.dev.snap.jobs = [] ∧ r = (if v CLASS.CTL.EN = 0 then ⟨0, 0, 0, true, false, attrOf s.mem
      (clsBase (v CLASS.CTL.BANK)) 0⟩ else decideVec s.mem (clsBase (v CLASS.CTL.BANK)) x.feats)) ∧
    (∃ (s : State) (x : Vec) (rest : List Vec) (v : View) (r : Verdict), (s.dev.up = true ∧ s.dev.tags.vecs = x :: rest) ∧ v =
      s.dev.cfg x.epoch ∧ (s.Sound ∧ s.dev.snap.jobs = []) ∧ r = (if v CLASS.CTL.EN = 0 then ⟨0, 0, 0, true, false, attrOf s.mem
      (clsBase (v CLASS.CTL.BANK)) 0⟩ else decideVec s.mem (clsBase (v CLASS.CTL.BANK)) x.feats)) ∧
    (∃ (s : State), s.dev.up = true ∧ s.dev.tags.vecs = []) ∧
    (∃ (s : State) (x : Vec) (r : Verdict) (rest : List (Vec × Verdict)), s.dev.up = true ∧ s.dev.tags.decided = (x, r) :: rest ∧
      r.cls < 64 ∧ s.dev.snap.jobs = []) ∧
    (∃ (s : State) (f : Formed) (rest : List Formed), s.dev.up = true ∧ s.dev.tags.formed = f :: rest ∧ f.verdict.mark = true ∧
      s.dev.tags.handOff.length < 64 ∧ s.dev.snap.jobs = []) ∧
    (∃ (s : State) (f : Formed) (rest : List Formed), s.dev.up = true ∧ s.dev.tags.formed = f :: rest ∧ f.verdict.mark = true ∧ 64 ≤
      s.dev.tags.handOff.length ∧ s.dev.snap.jobs = []) ∧
    (∃ (s : State) (f : Formed) (rest : List Formed), s.dev.up = true ∧ s.dev.tags.formed = f :: rest ∧ f.verdict.mark = false ∧
      f.host = true ∧ s.dev.on TAG.CTL.HOST_EN = true ∧ s.dev.cfg f.vec.epoch TAG.CTL.FEAT_EN = 0 ∧ retained s.dev.tags + 4 *
      f.words.length ≤ 2097152 ∧ s.dev.snap.jobs = []) ∧
    (∃ (s : State), s.dev.up = true) ∧
    (∃ (s : State), s.dev.up = true) :=
  ⟨⟨tagState [] fun t => { t with vecs := [vec] }, vec, [], Dev.cfg Dev.reset 0, ⟨0, 0, 0, true, false, attrOf State.reset.mem
      (clsBase 0) 0⟩, by decide +kernel, rfl, by decide +kernel⟩,
   ⟨tagState [(CLASS.CTL.EN, 1)] fun t => { t with vecs := [vec] }, vec, [], Dev.cfg (dev [(CLASS.CTL.EN, 1)]) 0, decideVec
      State.reset.mem (clsBase 0) vec.feats, by decide +kernel, rfl, by decide +kernel, rfl⟩,
   ⟨State.reset, by decide +kernel⟩,
   ⟨tagState [] fun t => { t with decided := [(vec, verdict true)] }, vec, verdict true, [], by decide +kernel⟩,
   ⟨tagState [] fun t => { t with formed := [formed true false], handOff := (List.range 63).map hand }, formed true false, [],
      by decide +kernel⟩,
   ⟨tagState [] fun t => { t with formed := [formed true false], handOff := (List.range 64).map hand }, formed true false, [],
      by decide +kernel⟩,
   ⟨tagState [(TAG.CTL.HOST_EN, 1)] fun t => { t with formed := [formed false true] }, formed false true, [], by decide +kernel⟩,
   ⟨st [(TAG.HQ_MAX.N, 5)], by decide +kernel⟩,
   ⟨st [(TAG.LAT_MAX.NS, 5)], by decide +kernel⟩⟩

/-- A piece that closed on line 9. -/
def piece (b : Nat) : Piece := ⟨b, 0, 8, 9, 9, 0, 100, 8, { acc0 with n := 3, ns := 3, xr := 2 }⟩
/-- The group of piece 3, complete or not. -/
def group (cls : Option Nat) (members : List Nat) : Group := ⟨members, [⟨true, 0, 3, piece 3⟩], false, 0, false, cls, none⟩
def groupState (g : Group) : State := segState [(SEG.MIN_AREA.AREA, 3)] fun q => { q with groups := [g], ownUpTo := some 9, upperUpTo := some 9 }

theorem wit_MergeRecordsLeave :
    (∃ (s : State) (g : Group), s.dev.up = true ∧ s.Sound ∧ s.dev.seg.groups.find? (fun g => g.cls.isNone && g.complete s.dev.seg &&
      g.status s.dev false != 2) = some g) ∧
    (∃ (s : State), s.dev.up = true ∧ s.dev.seg.groups.find? (fun g => g.cls.isNone && g.complete s.dev.seg && g.status s.dev false !=
      2) = none) ∧
    (∃ (s : State) (g : Group), s.dev.up = true ∧ s.dev.seg.groups.find? (fun g => g.complete s.dev.seg && (g.cls.isSome || g.status
      s.dev false == 2)) = some g) ∧
    (∃ (s : State), s.dev.up = true ∧ s.dev.seg.groups.find? (fun g => g.complete s.dev.seg && (g.cls.isSome || g.status s.dev false
      == 2)) = none) ∧
    (∃ (s : State) (piece : Nat) (g : Group), s.dev.up = true ∧ s.Sound ∧ s.dev.seg.groups.find? (fun g => g.members.contains piece) =
      some g ∧ g.closed ≠ [] ∧ g.complete s.dev.seg = false ∧ (∀ b ∈ s.dev.seg.blobs, b.id ∉ g.members) ∧ g.lastClose + 16000 *
      s.dev.rd SEG.MERGE_TIMEOUT.US ≤ s.dev.now) ∧
    (∃ (s : State) (piece : Nat), s.dev.up = true ∧ (∀ g ∈ s.dev.seg.groups, piece ∉ g.members)) :=
  ⟨⟨groupState (group none [3]), group none [3], by decide +kernel⟩,
   ⟨groupState (group (some 5) [3]), by decide +kernel⟩,
   ⟨groupState (group (some 5) [3]), group (some 5) [3], by decide +kernel⟩,
   ⟨groupState (group none [3]), by decide +kernel⟩,
   ⟨atTime (2 ^ 64) (groupState (group none [3, 4])), 4, group none [3, 4], by decide +kernel⟩,
   ⟨groupState (group none [3, 4]), 5, by decide +kernel⟩⟩

/-! ## Markers and valves -/

def mslot (k : Nat) (st : MState) (due : Option Nat) : MSlot := ⟨k, k, 3, 9, 5, 1, 500, st, due, false, 0, 0, 0, 0, 0⟩
/-- Valve channel 5 in `role`, with 200 mJ in the ledger. -/
def valveSt (role : Nat) (l : List (Fld × Nat)) (g : ValveCh → ValveCh) : State :=
  stOf ((dev ([(VALVE.CFG.ROLE 5, role), (MARK.AVAIL.UJ, 200000)] ++ l)).updValve 5 g)
def withSlots (s : State) (l : List MSlot) : State := stOf { s.dev with mark := ⟨l, 9⟩ }

theorem wit_MarksAreArmedAndLaunched :
    (∃ (s : State), s.dev.up = true ∧ s.dev.tags.handOff = []) ∧
    (∃ (s : State) (h : HandOff) (rest : List HandOff), s.dev.up = true ∧ s.dev.tags.handOff = h :: rest ∧ s.dev.on MARK.STATUS.SHED =
      true ∧ s.dev.snap.jobs = []) ∧
    (∃ (s : State) (h : HandOff) (rest : List HandOff) (ch : Fin 16) (k : Nat), s.dev.up = true ∧ s.dev.tags.handOff = h :: rest ∧
      s.dev.on MARK.STATUS.SHED = false ∧ s.dev.on MARK.CTL.EN = true ∧ covering s.dev h.prog h.cx = some ch ∧ s.dev.on
      (VALVE.FAULT.CAUSE ch) = false ∧ freeSlotFrom s.dev.mark.slots 4096 0 = some k ∧ s.dev.snap.jobs = []) ∧
    (∃ (s : State) (h : HandOff) (rest : List HandOff) (ch : Fin 16) (k : Nat), s.dev.up = true ∧ s.dev.tags.handOff = h :: rest ∧
      s.dev.on MARK.STATUS.SHED = false ∧ s.dev.on MARK.CTL.EN = true ∧ covering s.dev h.prog h.cx = some ch ∧ s.dev.on
      (VALVE.FAULT.CAUSE ch) = false ∧ freeSlotFrom s.dev.mark.slots 4096 0 = some k ∧ s.dev.snap.jobs = []) ∧
    (∃ (s : State), s.dev.up = true) ∧
    (∃ (s : State) (ch : Fin 16), s.dev.up = true ∧ canLaunch s.dev ch = false) ∧
    (∃ (s : State) (ch : Fin 16) (e : Nat) (t : Nat) (role : Nat), s.dev.up = true ∧ canLaunch s.dev ch = true ∧ s.dev.valves[ch].req
      = some (e, t, role) ∧ roleFires s.dev ch role = true ∧ canReserve s.dev ch e = true) ∧
    (∃ (s : State) (ch : Fin 16) (x : MSlot), s.dev.up = true ∧ canLaunch s.dev ch = true ∧ s.dev.valves[ch].req = none ∧ firstDue
      s.dev ch = some x ∧ s.dev.rd (VALVE.CFG.ROLE ch) = 1 ∧ canReserve s.dev ch x.entry = true) ∧
    (∃ (s : State) (k : Nat) (t : Nat) (x : MSlot), s.dev.up = true ∧ k < 4096 ∧ slotAt s.dev k = some x ∧ x.state = .armed ∧ x.due =
      some t ∧ t + 16000 * s.dev.rd MARK.SHED_WAIT.US ≤ s.dev.now ∧ s.dev.isActive = true) ∧
    (∃ (s : State) (k : Nat) (t : Nat) (x : MSlot), s.dev.up = true ∧ k < 4096 ∧ slotAt s.dev k = some x ∧ x.state = .armed ∧ x.due =
      some t ∧ t + 16000 * s.dev.rd MARK.SHED_WAIT.US ≤ s.dev.now ∧ s.dev.isActive = true) ∧
    (∃ (s : State) (ch : Fin 16) (e : Nat) (t : Nat), s.dev.up = true ∧ s.dev.valves[ch].req = some (e, t, 3) ∧ t + 16000 * s.dev.rd
      MARK.SHED_WAIT.US ≤ s.dev.now) ∧
    (∃ (s : State) (k : Nat) (x : MSlot), s.dev.up = true ∧ slotAt s.dev k = some x ∧ x.state = .done) ∧
    (∃ (s : State) (k : Nat), s.dev.up = true ∧ (∀ x, slotAt s.dev k = some x → x.state ≠ .done)) :=
  ⟨⟨State.reset, by decide +kernel⟩,
   ⟨tagState [(MARK.STATUS.SHED, 1)] fun t => { t with handOff := [hand 3] }, hand 3, [], by decide +kernel⟩,
   ⟨tagState [(MARK.CTL.EN, 1), (MARK.MPS.MASK 2, 32), (VALVE.CFG.ROLE 5, 1), (VALVE.XW_LO.X 5, 50), (VALVE.XW_HI.X 5, 50)] fun t =>
      { t with handOff := [hand 3] }, hand 3, [], 5, 0, by decide +kernel⟩,
   ⟨withSlots (tagState [(MARK.CTL.EN, 1), (MARK.MPS.MASK 2, 32), (VALVE.CFG.ROLE 5, 1), (VALVE.XW_LO.X 5, 50), (VALVE.XW_HI.X 5,
      50)] fun t => { t with handOff := [hand 3] }) [mslot 0 .armed none], hand 3, [], 5, 1, by decide +kernel⟩,
   ⟨withSlots State.reset [mslot 0 .armed none, mslot 1 .done none], by decide +kernel⟩,
   ⟨valveSt 1 [(MARK.STATUS.SHED, 1)] id, 5, by decide +kernel⟩,
   ⟨valveSt 3 [(VALVE.ENERGY.UJ 5 2, 200000)] fun v => { v with req := some (2, 0, 3) }, 5, 2, 0, 3, by decide +kernel⟩,
   ⟨withSlots (valveSt 1 [] id) [mslot 7 .armed (some 4), mslot 8 .armed (some 3)], 5, mslot 7 .armed (some 4), by decide +kernel⟩,
   ⟨withSlots (atTime (2 ^ 64) State.reset) [mslot 4095 .armed (some 4)], 4095, 4, mslot 4095 .armed (some 4), by decide +kernel⟩,
   ⟨withSlots (atTime (2 ^ 64) <| st [(TWIN.CTL.EN, 1), (TWIN.STATUS.STATE, 3), (TWIN.STATUS.LINK_UP, 1), (TWIN.STATUS.MIRRORED, 1)])
      [mslot 4 .armed (some 4)], 4, 4, mslot 4 .armed (some 4), by decide +kernel⟩,
   ⟨atTime (2 ^ 64) (valveSt 3 [] fun v => { v with req := some (2, 0, 3) }), 5, 2, 0, by decide +kernel⟩,
   ⟨withSlots State.reset [mslot 7 .done none, mslot 8 .done none], 7, mslot 7 .done none, by decide +kernel⟩,
   ⟨withSlots State.reset [mslot 7 .armed none], 8, by decide +kernel, (fun _ h => nomatch h)⟩⟩

/-- A program of bank 0 at pc 4. -/
def run0 : Run := { slot := none, bank := 0, pc := 4, left := none, start := none, ticks := 0, loop := none, count := 0, cls := 0, budget := 0, peakSince := none, wait := none, admitted := false, armed := none, window := 0, imax := 0, runLen := 0, seen := none, decided := none, spent := 0 }
/-- The word of opcode `op` with I and T. -/
def opWord (op i t : Nat) : Nat := op * 2 ^ 28 + i * 2 ^ 16 + t
/-- Channel 5 runs `r` with `w` at its pc. -/
def runSt (w : Nat) (l : List (Fld × Nat)) (r : Run) (g : ValveCh → ValveCh := id) : State :=
  { (valveSt 2 l fun v => g { v with run := some r }) with mem := Memory.store ⟨[], [], []⟩ (0x07005000 + 4 * 4) (leBytes 4 w) }
theorem no_wait {d : Dev} (h : (List.finRange 16).all (fun c => d.valves[c].run.all (·.wait.isNone)) = true) :
    ∀ c : Fin 16, ∀ e, d.valves[c].run = some e → e.wait = none := by
  intro c e he
  have := List.all_eq_true.mp h c (List.mem_finRange c)
  simp only [Fin.getElem_fin] at he this
  simpa [he] using this
theorem no_wait_but {d : Dev} {ch : Fin 16}
    (h : (List.finRange 16).all (fun c => c == ch || d.valves[c].run.all (·.wait.isNone)) = true) :
    ∀ c : Fin 16, c ≠ ch → ∀ e, d.valves[c].run = some e → e.wait = none := by
  intro c hc e he
  have := List.all_eq_true.mp h c (List.mem_finRange c)
  simp only [Fin.getElem_fin] at he this
  simpa [he, hc] using this

theorem wit_DriveInstructionsRun :
    (∃ (q : _) (s : State) (ch : Fin 16), q ∈ [(Instr.boost, 1), (Instr.regp, 2), (Instr.regh, 3), (Instr.free, 4), (Instr.quench, 5),
      (Instr.waitr, 6), (Instr.wait, 11)] ∧ (s.dev.up = true ∧ s.Sound) ∧ (∀ r, s.dev.valves[ch].run = some r → opOf (progWord
      s.mem ch r.bank r.pc) ≠ q.2)) ∧
    (∃ (q : _) (s : State) (ch : Fin 16), q ∈ [(Instr.boost, 1), (Instr.regp, 2), (Instr.regh, 3), (Instr.free, 4), (Instr.quench, 5),
      (Instr.waitr, 6), (Instr.wait, 11)] ∧ (s.dev.up = true ∧ s.Sound) ∧ (∀ r, s.dev.valves[ch].run = some r → opOf (progWord
      s.mem ch r.bank r.pc) ≠ q.2)) ∧
    (∃ (q : _) (s : State) (ch : Fin 16) (r : Run) (w : Nat) (t : Nat) (i : Nat), q ∈ [(Instr.boost, 1), (Instr.regp, 2), (Instr.regh,
      3), (Instr.free, 4), (Instr.quench, 5), (Instr.waitr, 6), (Instr.wait, 11)] ∧ s.dev.up = true ∧ s.Sound ∧
      s.dev.valves[ch].run = some r ∧ r.window = 0 ∧ w = progWord s.mem ch r.bank r.pc ∧ opOf w = q.2 ∧ r.left = some t ∧ 2 ≤ t ∧
      i < 4096 ∧ (q.2 = 1 → i < iOf w) ∧ (q.2 = 5 → iOf w < i) ∧ (q.2 = 6 → s.dev.valves[ch].released = false)) ∧
    (∃ (q : _) (s : State) (ch : Fin 16) (r : Run) (w : Nat) (t : Nat) (i : Nat), q ∈ [(Instr.boost, 1), (Instr.regp, 2), (Instr.regh,
      3), (Instr.free, 4), (Instr.quench, 5), (Instr.waitr, 6), (Instr.wait, 11)] ∧ s.dev.up = true ∧ s.Sound ∧
      s.dev.valves[ch].run = some r ∧ r.window = 0 ∧ w = progWord s.mem ch r.bank r.pc ∧ opOf w = q.2 ∧ r.left = some t ∧ 2 ≤ t ∧
      i < 4096 ∧ (q.2 = 1 → i < iOf w) ∧ (q.2 = 5 → iOf w < i) ∧ (q.2 = 6 → s.dev.valves[ch].released = false)) ∧
    (∃ (q : _) (s : State) (ch : Fin 16) (r : Run) (w : Nat) (t : Nat) (i : Nat), q ∈ [(Instr.boost, 1), (Instr.regp, 2), (Instr.regh,
      3), (Instr.free, 4), (Instr.quench, 5), (Instr.waitr, 6), (Instr.wait, 11)] ∧ s.dev.up = true ∧ s.Sound ∧
      s.dev.valves[ch].run = some r ∧ r.window = 0 ∧ w = progWord s.mem ch r.bank r.pc ∧ opOf w = q.2 ∧ r.left = some t ∧ 2 ≤ t ∧
      i < 4096 ∧ (q.2 = 1 → i < iOf w) ∧ (q.2 = 5 → iOf w < i) ∧ (q.2 = 6 → s.dev.valves[ch].released = false)) ∧
    (∃ (q : _) (s : State) (ch : Fin 16) (r : Run) (w : Nat) (t : Nat) (i : Nat), q ∈ [(Instr.boost, 1), (Instr.regp, 2), (Instr.regh,
      3), (Instr.free, 4), (Instr.quench, 5), (Instr.waitr, 6), (Instr.wait, 11)] ∧ s.dev.up = true ∧ s.Sound ∧
      s.dev.valves[ch].run = some r ∧ r.window = 0 ∧ w = progWord s.mem ch r.bank r.pc ∧ opOf w = q.2 ∧ r.left = some t ∧ 2 ≤ t ∧
      i < 4096 ∧ (q.2 = 1 → i < iOf w) ∧ (q.2 = 5 → iOf w < i) ∧ (q.2 = 6 → s.dev.valves[ch].released = false)) ∧
    (∃ (q : _) (s : State) (ch : Fin 16) (r : Run) (w : Nat) (t : Nat) (i : Nat), q ∈ [(Instr.boost, 1), (Instr.regp, 2), (Instr.regh,
      3), (Instr.free, 4), (Instr.quench, 5), (Instr.waitr, 6), (Instr.wait, 11)] ∧ s.dev.up = true ∧ s.Sound ∧
      s.dev.valves[ch].run = some r ∧ r.window = 0 ∧ w = progWord s.mem ch r.bank r.pc ∧ opOf w = q.2 ∧ r.left = some t ∧ 2 ≤ t ∧
      i < 4096 ∧ (q.2 = 1 → i < iOf w) ∧ (q.2 = 5 → iOf w < i) ∧ (q.2 = 6 → s.dev.valves[ch].released = false)) ∧
    (∃ (q : _) (s : State) (ch : Fin 16) (r : Run) (w : Nat) (t : Nat) (i : Nat), q ∈ [(Instr.boost, 1), (Instr.regp, 2), (Instr.regh,
      3), (Instr.free, 4), (Instr.quench, 5), (Instr.waitr, 6), (Instr.wait, 11)] ∧ s.dev.up = true ∧ s.Sound ∧
      s.dev.valves[ch].run = some r ∧ r.window = 0 ∧ w = progWord s.mem ch r.bank r.pc ∧ opOf w = q.2 ∧ r.left = some t ∧ 2 ≤ t ∧
      i < 4096 ∧ (q.2 = 1 → i < iOf w) ∧ (q.2 = 5 → iOf w < i) ∧ (q.2 = 6 → s.dev.valves[ch].released = false)) ∧
    (∃ (q : _) (s : State) (ch : Fin 16) (r : Run) (w : Nat) (t : Nat) (i : Nat), q ∈ [(Instr.boost, 1), (Instr.regp, 2), (Instr.regh,
      3), (Instr.free, 4), (Instr.quench, 5), (Instr.waitr, 6), (Instr.wait, 11)] ∧ s.dev.up = true ∧ s.Sound ∧
      s.dev.valves[ch].run = some r ∧ r.window = 0 ∧ w = progWord s.mem ch r.bank r.pc ∧ opOf w = q.2 ∧ r.left = some t ∧ 2 ≤ t ∧
      i < 4096 ∧ (q.2 = 1 → i < iOf w) ∧ (q.2 = 5 → iOf w < i) ∧ (q.2 = 6 → s.dev.valves[ch].released = false)) ∧
    (∃ (q : _) (s : State) (ch : Fin 16) (r : Run) (w : Nat) (i : Nat), q ∈ [(Instr.boost, 1), (Instr.regp, 2), (Instr.regh, 3),
      (Instr.free, 4), (Instr.quench, 5), (Instr.waitr, 6), (Instr.wait, 11)] ∧ s.dev.up = true ∧ s.Sound ∧ s.dev.valves[ch].run =
      some r ∧ r.window = 0 ∧ w = progWord s.mem ch r.bank r.pc ∧ opOf w = q.2 ∧ q.2 ≠ 6 ∧ r.left = some 1 ∧ (q.2 = 1 → s.dev.rd
      (VALVE.FAULT_CFG.OPEN_I ch) ≤ i) ∧ i < 4096) ∧
    (∃ (q : _) (s : State) (ch : Fin 16) (r : Run) (w : Nat) (i : Nat), q ∈ [(Instr.boost, 1), (Instr.regp, 2), (Instr.regh, 3),
      (Instr.free, 4), (Instr.quench, 5), (Instr.waitr, 6), (Instr.wait, 11)] ∧ s.dev.up = true ∧ s.Sound ∧ s.dev.valves[ch].run =
      some r ∧ r.window = 0 ∧ w = progWord s.mem ch r.bank r.pc ∧ opOf w = q.2 ∧ q.2 ≠ 6 ∧ r.left = some 1 ∧ (q.2 = 1 → s.dev.rd
      (VALVE.FAULT_CFG.OPEN_I ch) ≤ i) ∧ i < 4096) ∧
    (∃ (q : _) (s : State) (ch : Fin 16) (r : Run) (w : Nat) (i : Nat), q ∈ [(Instr.boost, 1), (Instr.regp, 2), (Instr.regh, 3),
      (Instr.free, 4), (Instr.quench, 5), (Instr.waitr, 6), (Instr.wait, 11)] ∧ s.dev.up = true ∧ s.Sound ∧ s.dev.valves[ch].run =
      some r ∧ r.window = 0 ∧ w = progWord s.mem ch r.bank r.pc ∧ opOf w = q.2 ∧ q.2 ≠ 6 ∧ r.left = some 1 ∧ (q.2 = 1 → s.dev.rd
      (VALVE.FAULT_CFG.OPEN_I ch) ≤ i) ∧ i < 4096) ∧
    (∃ (q : _) (s : State) (ch : Fin 16) (r : Run) (w : Nat) (i : Nat), q ∈ [(Instr.boost, 1), (Instr.regp, 2), (Instr.regh, 3),
      (Instr.free, 4), (Instr.quench, 5), (Instr.waitr, 6), (Instr.wait, 11)] ∧ s.dev.up = true ∧ s.Sound ∧ s.dev.valves[ch].run =
      some r ∧ r.window = 0 ∧ w = progWord s.mem ch r.bank r.pc ∧ opOf w = q.2 ∧ q.2 ≠ 6 ∧ r.left = some 1 ∧ (q.2 = 1 → s.dev.rd
      (VALVE.FAULT_CFG.OPEN_I ch) ≤ i) ∧ i < 4096) ∧
    (∃ (q : _) (s : State) (ch : Fin 16) (r : Run) (w : Nat) (i : Nat), q ∈ [(Instr.boost, 1), (Instr.regp, 2), (Instr.regh, 3),
      (Instr.free, 4), (Instr.quench, 5), (Instr.waitr, 6), (Instr.wait, 11)] ∧ s.dev.up = true ∧ s.Sound ∧ s.dev.valves[ch].run =
      some r ∧ r.window = 0 ∧ w = progWord s.mem ch r.bank r.pc ∧ opOf w = q.2 ∧ q.2 ≠ 6 ∧ r.left = some 1 ∧ (q.2 = 1 → s.dev.rd
      (VALVE.FAULT_CFG.OPEN_I ch) ≤ i) ∧ i < 4096) ∧
    (∃ (q : _) (s : State) (ch : Fin 16) (r : Run) (w : Nat) (i : Nat), q ∈ [(Instr.boost, 1), (Instr.regp, 2), (Instr.regh, 3),
      (Instr.free, 4), (Instr.quench, 5), (Instr.waitr, 6), (Instr.wait, 11)] ∧ s.dev.up = true ∧ s.Sound ∧ s.dev.valves[ch].run =
      some r ∧ r.window = 0 ∧ w = progWord s.mem ch r.bank r.pc ∧ opOf w = q.2 ∧ q.2 ≠ 6 ∧ r.left = some 1 ∧ (q.2 = 1 → s.dev.rd
      (VALVE.FAULT_CFG.OPEN_I ch) ≤ i) ∧ i < 4096) ∧
    (∃ (q : _) (s : State) (ch : Fin 16) (r : Run) (w : Nat), q ∈ [(Instr.boost, 1), (Instr.regp, 2), (Instr.regh, 3), (Instr.free,
      4), (Instr.quench, 5), (Instr.waitr, 6), (Instr.wait, 11)] ∧ s.dev.up = true ∧ s.Sound ∧ s.dev.valves[ch].run = some r ∧
      r.window = 0 ∧ w = progWord s.mem ch r.bank r.pc ∧ opOf w = q.2 ∧ r.left = none ∧ (r.admitted = true ∨ q.2 = 4 ∨ q.2 = 5 ∨
      q.2 = 11) ∧ (q.2 = 6 → s.dev.rd (VALVE.CFG.ROLE ch) = 2)) ∧
    (∃ (q : _) (s : State) (ch : Fin 16) (r : Run) (w : Nat), q ∈ [(Instr.boost, 1), (Instr.regp, 2), (Instr.regh, 3), (Instr.free,
      4), (Instr.quench, 5), (Instr.waitr, 6), (Instr.wait, 11)] ∧ s.dev.up = true ∧ s.Sound ∧ s.dev.valves[ch].run = some r ∧
      r.window = 0 ∧ w = progWord s.mem ch r.bank r.pc ∧ opOf w = q.2 ∧ r.left = none ∧ (r.admitted = true ∨ q.2 = 4 ∨ q.2 = 5 ∨
      q.2 = 11) ∧ (q.2 = 6 → s.dev.rd (VALVE.CFG.ROLE ch) = 2)) ∧
    (∃ (q : _) (s : State) (ch : Fin 16) (r : Run) (w : Nat), q ∈ [(Instr.boost, 1), (Instr.regp, 2), (Instr.regh, 3), (Instr.free,
      4), (Instr.quench, 5), (Instr.waitr, 6), (Instr.wait, 11)] ∧ s.dev.up = true ∧ s.Sound ∧ s.dev.valves[ch].run = some r ∧
      r.window = 0 ∧ w = progWord s.mem ch r.bank r.pc ∧ opOf w = q.2 ∧ r.left = none ∧ (r.admitted = true ∨ q.2 = 4 ∨ q.2 = 5 ∨
      q.2 = 11) ∧ (q.2 = 6 → s.dev.rd (VALVE.CFG.ROLE ch) = 2)) ∧
    (∃ (q : _) (s : State) (ch : Fin 16) (r : Run) (w : Nat), q ∈ [(Instr.boost, 1), (Instr.regp, 2), (Instr.regh, 3), (Instr.free,
      4), (Instr.quench, 5), (Instr.waitr, 6), (Instr.wait, 11)] ∧ s.dev.up = true ∧ s.Sound ∧ s.dev.valves[ch].run = some r ∧
      r.window = 0 ∧ w = progWord s.mem ch r.bank r.pc ∧ opOf w = q.2 ∧ r.left = none ∧ (r.admitted = true ∨ q.2 = 4 ∨ q.2 = 5 ∨
      q.2 = 11) ∧ (q.2 = 6 → s.dev.rd (VALVE.CFG.ROLE ch) = 2)) ∧
    (∃ (q : _) (s : State) (ch : Fin 16) (r : Run) (w : Nat), q ∈ [(Instr.boost, 1), (Instr.regp, 2), (Instr.regh, 3), (Instr.free,
      4), (Instr.quench, 5), (Instr.waitr, 6), (Instr.wait, 11)] ∧ s.dev.up = true ∧ s.Sound ∧ s.dev.valves[ch].run = some r ∧
      r.window = 0 ∧ w = progWord s.mem ch r.bank r.pc ∧ opOf w = q.2 ∧ r.left = none ∧ (r.admitted = true ∨ q.2 = 4 ∨ q.2 = 5 ∨
      q.2 = 11) ∧ (q.2 = 6 → s.dev.rd (VALVE.CFG.ROLE ch) = 2)) ∧
    (∃ (q : _) (s : State) (ch : Fin 16) (r : Run) (w : Nat), q ∈ [(Instr.boost, 1), (Instr.regp, 2), (Instr.regh, 3), (Instr.free,
      4), (Instr.quench, 5), (Instr.waitr, 6), (Instr.wait, 11)] ∧ s.dev.up = true ∧ s.Sound ∧ s.dev.valves[ch].run = some r ∧
      r.window = 0 ∧ w = progWord s.mem ch r.bank r.pc ∧ opOf w = q.2 ∧ r.left = none ∧ (r.admitted = true ∨ q.2 = 4 ∨ q.2 = 5 ∨
      q.2 = 11) ∧ (q.2 = 6 → s.dev.rd (VALVE.CFG.ROLE ch) = 2)) ∧
    (∃ (q : _) (s : State) (ch : Fin 16) (r : Run) (w : Nat), q ∈ [(Instr.boost, 1), (Instr.regp, 2), (Instr.regh, 3), (Instr.free,
      4), (Instr.quench, 5), (Instr.waitr, 6), (Instr.wait, 11)] ∧ s.dev.up = true ∧ s.Sound ∧ s.dev.valves[ch].run = some r ∧
      r.window = 0 ∧ w = progWord s.mem ch r.bank r.pc ∧ opOf w = q.2 ∧ r.left = none ∧ (r.admitted = true ∨ q.2 = 4 ∨ q.2 = 5 ∨
      q.2 = 11) ∧ (q.2 = 6 → s.dev.rd (VALVE.CFG.ROLE ch) = 2)) ∧
    (∃ (s : State) (ch : Fin 16) (r : Run) (w : Nat) (t : Nat) (i : Nat), s.dev.up = true ∧ s.Sound ∧ s.dev.valves[ch].run = some r ∧
      r.window = 0 ∧ w = progWord s.mem ch r.bank r.pc ∧ opOf w = 1 ∧ r.left = some t ∧ 2 ≤ t ∧ i < 4096 ∧ iOf w ≤ i) ∧
    (∃ (s : State) (ch : Fin 16) (r : Run) (w : Nat) (t : Nat) (i : Nat), s.dev.up = true ∧ s.Sound ∧ s.dev.valves[ch].run = some r ∧
      r.window = 0 ∧ w = progWord s.mem ch r.bank r.pc ∧ opOf w = 5 ∧ r.left = some t ∧ 2 ≤ t ∧ i < 4096 ∧ i ≤ iOf w) ∧
    (∃ (s : State) (ch : Fin 16) (r : Run) (w : Nat) (i : Nat), s.dev.up = true ∧ s.Sound ∧ s.dev.valves[ch].run = some r ∧ r.window =
      0 ∧ w = progWord s.mem ch r.bank r.pc ∧ opOf w = 1 ∧ r.left = some 1 ∧ i < iOf w ∧ i < 4096 ∧ i < s.dev.rd
      (VALVE.FAULT_CFG.OPEN_I ch) ∧ s.dev.on (VALVE.FAULT.CAUSE ch) = false) ∧
    (∃ (s : State) (ch : Fin 16) (r : Run) (w : Nat) (t : Nat), s.dev.up = true ∧ s.Sound ∧ s.dev.valves[ch].run = some r ∧ r.window =
      0 ∧ w = progWord s.mem ch r.bank r.pc ∧ opOf w = 6 ∧ r.left = some t ∧ s.dev.valves[ch].released = true) ∧
    (∃ (s : State) (ch : Fin 16) (r : Run) (w : Nat), (s.dev.up = true ∧ s.Sound ∧ s.dev.valves[ch].run = some r ∧ r.window = 0 ∧ w =
      progWord s.mem ch r.bank r.pc ∧ opOf w = 1 ∧ r.left = none ∧ r.admitted = false ∧ r.peakSince = none ∧ r.wait = none) ∧ (∀ c
      : Fin 16, ∀ e, s.dev.valves[c].run = some e → e.wait = none) ∧ admits s.dev ch 2 (4 * iOf w) = false) ∧
    (∃ (s : State) (ch : Fin 16) (r : Run) (since : Nat) (cls : Nat) (budget : Nat), (s.dev.up = true ∧ s.dev.valves[ch].run = some r
      ∧ r.wait = some (since, cls, budget)) ∧ (∀ c : Fin 16, c ≠ ch → ∀ e, s.dev.valves[c].run = some e → e.wait = none) ∧ admits
      s.dev ch cls budget = true) ∧
    (∃ (s : State), s.dev.up = true ∧ (∀ c : Fin 16, ∀ e, s.dev.valves[c].run = some e → e.wait = none)) :=
  ⟨⟨(Instr.boost, 1), runSt (opWord 2 5 5) [] run0, 5, by simp, by decide +kernel, (fun _ h => by cases h; decide +kernel)⟩,
   ⟨(Instr.wait, 11), State.reset, 5, by simp, by decide +kernel, (fun _ h => by cases h)⟩,
   ⟨(Instr.boost, 1), runSt (opWord 1 4095 2) [] { run0 with left := some 2 }, 5, { run0 with left := some 2 }, opWord 1 4095 2, 2,
      4094, by simp, by decide +kernel⟩,
   ⟨(Instr.regp, 2), runSt (opWord 2 400 2) [] { run0 with left := some 2, start := some (0, 0), ticks := 6 }, 5,
      { run0 with left := some 2, start := some (0, 0), ticks := 6 }, opWord 2 400 2, 2, 374, by simp, by decide +kernel⟩,
   ⟨(Instr.regh, 3), runSt (opWord 3 400 2) [(VALVE.STATUS.DRIVE 5, 2)] { run0 with left := some 2 }, 5,
      { run0 with left := some 2 }, opWord 3 400 2, 2, 375, by simp, by decide +kernel⟩,
   ⟨(Instr.free, 4), runSt (opWord 4 0 2) [] { run0 with left := some 2 }, 5, { run0 with left := some 2 }, opWord 4 0 2, 2, 4095,
      by simp, by decide +kernel⟩,
   ⟨(Instr.quench, 5), runSt (opWord 5 10 2) [] { run0 with left := some 2 }, 5, { run0 with left := some 2 }, opWord 5 10 2, 2, 11,
      by simp, by decide +kernel⟩,
   ⟨(Instr.waitr, 6), runSt (opWord 6 400 2) [] { run0 with left := some 2 }, 5, { run0 with left := some 2 }, opWord 6 400 2, 2,
      426, by simp, by decide +kernel⟩,
   ⟨(Instr.wait, 11), runSt (opWord 11 0 2) [] { run0 with left := some 2 }, 5, { run0 with left := some 2 }, opWord 11 0 2, 2, 7,
      by simp, by decide +kernel⟩,
   ⟨(Instr.boost, 1), runSt (opWord 1 4095 2) [] { run0 with left := some 1 }, 5, { run0 with left := some 1 }, opWord 1 4095 2, 125,
      by simp, by decide +kernel⟩,
   ⟨(Instr.regp, 2), runSt (opWord 2 400 2) [] { run0 with left := some 1 }, 5, { run0 with left := some 1 }, opWord 2 400 2, 0,
      by simp, by decide +kernel⟩,
   ⟨(Instr.quench, 5), runSt (opWord 5 400 2) [] { run0 with left := some 1 }, 5, { run0 with left := some 1 }, opWord 5 400 2, 500,
      by simp, by decide +kernel⟩,
   ⟨(Instr.wait, 11), runSt (opWord 11 0 2) [] { run0 with left := some 1 }, 5, { run0 with left := some 1 }, opWord 11 0 2, 0,
      by simp, by decide +kernel⟩,
   ⟨(Instr.free, 4), runSt (opWord 4 0 2) [] { run0 with left := some 1 }, 5, { run0 with left := some 1 }, opWord 4 0 2, 0, by simp,
      by decide +kernel⟩,
   ⟨(Instr.regh, 3), runSt (opWord 3 7 2) [] { run0 with left := some 1 }, 5, { run0 with left := some 1 }, opWord 3 7 2, 0, by simp,
      by decide +kernel⟩,
   ⟨(Instr.boost, 1), runSt (opWord 1 400 9) [] { run0 with admitted := true }, 5, { run0 with admitted := true }, opWord 1 400 9,
      by simp, by decide +kernel⟩,
   ⟨(Instr.wait, 11), runSt (opWord 11 400 0) [] run0, 5, run0, opWord 11 400 0, by simp, by decide +kernel⟩,
   ⟨(Instr.waitr, 6), runSt (opWord 6 400 9) [] { run0 with admitted := true }, 5, { run0 with admitted := true }, opWord 6 400 9,
      by simp, by decide +kernel⟩,
   ⟨(Instr.free, 4), runSt (opWord 4 400 9) [] run0, 5, run0, opWord 4 400 9, by simp, by decide +kernel⟩,
   ⟨(Instr.quench, 5), runSt (opWord 5 400 9) [] run0, 5, run0, opWord 5 400 9, by simp, by decide +kernel⟩,
   ⟨(Instr.regp, 2), runSt (opWord 2 400 9) [] { run0 with admitted := true }, 5, { run0 with admitted := true }, opWord 2 400 9,
      by simp, by decide +kernel⟩,
   ⟨(Instr.regh, 3), runSt (opWord 3 400 9) [] { run0 with admitted := true }, 5, { run0 with admitted := true }, opWord 3 400 9,
      by simp, by decide +kernel⟩,
   ⟨runSt (opWord 1 400 9) [] { run0 with left := some 2 }, 5, { run0 with left := some 2 }, opWord 1 400 9, 2, 400,
      by decide +kernel⟩,
   ⟨runSt (opWord 5 400 9) [] { run0 with left := some 2 }, 5, { run0 with left := some 2 }, opWord 5 400 9, 2, 400,
      by decide +kernel⟩,
   ⟨runSt (opWord 1 400 9) [] { run0 with left := some 1 }, 5, { run0 with left := some 1 }, opWord 1 400 9, 124, by decide +kernel⟩,
   ⟨runSt (opWord 6 400 9) [] { run0 with left := some 2 } fun v => { v with released := true }, 5, { run0 with left := some 2 },
      opWord 6 400 9, 2, by decide +kernel⟩,
   ⟨runSt (opWord 1 2501 9) [] run0, 5, run0, opWord 1 2501 9, by decide +kernel, no_wait (by decide +kernel), by decide +kernel⟩,
   ⟨runSt (opWord 1 2500 9) [] { run0 with wait := some (0, 2, 10000) }, 5, { run0 with wait := some (0, 2, 10000) }, 0, 2, 10000,
      by decide +kernel, no_wait_but (by decide +kernel), by decide +kernel⟩,
   ⟨State.reset, by decide +kernel, no_wait (by decide +kernel)⟩⟩

theorem wit_ProgramsBranchAndEnd :
    (∃ (q : _) (s : State) (ch : Fin 16), q ∈ [(Instr.dip, 7), (Instr.jdip, 8), (Instr.jmp, 9), (Instr.loop, 10), (Instr.conf, 12)] ∧
      (s.dev.up = true ∧ s.Sound) ∧ (∀ r, s.dev.valves[ch].run = some r → opOf (progWord s.mem ch r.bank r.pc) ≠ q.2)) ∧
    (∃ (s : State) (ch : Fin 16) (r : Run) (w : Nat), s.dev.up = true ∧ s.Sound ∧ s.dev.valves[ch].run = some r ∧ r.window = 0 ∧ w =
      progWord s.mem ch r.bank r.pc ∧ r.left = none ∧ opOf w = 7 ∧ s.dev.on (VALVE.DIP_CFG.DEPTH ch) = true) ∧
    (∃ (s : State) (ch : Fin 16) (r : Run) (w : Nat), s.dev.up = true ∧ s.Sound ∧ s.dev.valves[ch].run = some r ∧ r.window = 0 ∧ w =
      progWord s.mem ch r.bank r.pc ∧ r.left = none ∧ opOf w = 7 ∧ s.dev.on (VALVE.DIP_CFG.DEPTH ch) = true) ∧
    (∃ (s : State) (ch : Fin 16) (r : Run) (w : Nat), s.dev.up = true ∧ s.Sound ∧ s.dev.valves[ch].run = some r ∧ r.window = 0 ∧ w =
      progWord s.mem ch r.bank r.pc ∧ r.left = none ∧ opOf w = 8) ∧
    (∃ (s : State) (ch : Fin 16) (r : Run) (w : Nat), s.dev.up = true ∧ s.Sound ∧ s.dev.valves[ch].run = some r ∧ r.window = 0 ∧ w =
      progWord s.mem ch r.bank r.pc ∧ r.left = none ∧ opOf w = 8) ∧
    (∃ (s : State) (ch : Fin 16) (r : Run) (w : Nat), s.dev.up = true ∧ s.Sound ∧ s.dev.valves[ch].run = some r ∧ r.window = 0 ∧ w =
      progWord s.mem ch r.bank r.pc ∧ r.left = none ∧ opOf w = 9) ∧
    (∃ (s : State) (ch : Fin 16) (r : Run) (w : Nat), s.dev.up = true ∧ s.Sound ∧ s.dev.valves[ch].run = some r ∧ r.window = 0 ∧ w =
      progWord s.mem ch r.bank r.pc ∧ r.left = none ∧ opOf w = 10 ∧ 2 ≤ r.loop.getD (bitsOf w 16 8)) ∧
    (∃ (s : State) (ch : Fin 16) (r : Run) (w : Nat), s.dev.up = true ∧ s.Sound ∧ s.dev.valves[ch].run = some r ∧ r.window = 0 ∧ w =
      progWord s.mem ch r.bank r.pc ∧ r.left = none ∧ opOf w = 10 ∧ r.loop.getD (bitsOf w 16 8) = 1) ∧
    (∃ (s : State) (ch : Fin 16) (r : Run), s.dev.up = true ∧ s.Sound ∧ s.dev.valves[ch].run = some r ∧ r.window = 0 ∧ opOf (progWord
      s.mem ch r.bank r.pc) = 12 ∧ r.left = none ∧ r.decided = none ∧ r.seen = none) ∧
    (∃ (s : State) (ch : Fin 16) (r : Run) (t : Nat), s.dev.up = true ∧ s.Sound ∧ s.dev.valves[ch].run = some r ∧ r.window = 0 ∧ opOf
      (progWord s.mem ch r.bank r.pc) = 12 ∧ r.left = none ∧ r.decided = none ∧ r.seen = some t ∧ s.dev.rd (VALVE.DIP_WIN.TMIN ch)
      ≤ t ∧ t ≤ s.dev.rd (VALVE.DIP_WIN.TMAX ch)) ∧
    (∃ (s : State) (ch : Fin 16) (r : Run) (i : Nat), s.dev.up = true ∧ s.Sound ∧ s.dev.valves[ch].run = some r ∧ r.window = 0 ∧ opOf
      (progWord s.mem ch r.bank r.pc) = 0 ∧ r.slot = none ∧ r.decided = none ∧ r.seen = none ∧ i % 4096 ≤ 10) ∧
    (∃ (s : State) (ch : Fin 16), s.dev.up = true ∧ s.dev.rd (VALVE.CFG.ROLE ch) ≠ 3) ∧
    (∃ (s : State) (ch : Fin 16), s.dev.up = true ∧ s.dev.rd (VALVE.CFG.ROLE ch) = 3) ∧
    (∃ (s : State) (ch : Fin 16), s.dev.up = true ∧ s.dev.rd (VALVE.CFG.ROLE ch) = 3) ∧
    (∃ (s : State) (ch : Fin 16), s.dev.up = true ∧ s.dev.rd (VALVE.CFG.ROLE ch) ≠ 3) ∧
    (∃ (s : State) (ch : Fin 16), s.dev.up = true ∧ s.dev.rd (VALVE.CFG.ROLE ch) = 3) ∧
    (∃ (s : State) (ch : Fin 16) (bank : Fin 2), s.dev.up = true ∧ s.dev.rd (VALVE.CFG.BANK ch) ≠ bank.val ∧ s.dev.on
      (VALVE.TBL_STAT.BANK_BUSY ch) = false) ∧
    (∃ (s : State) (ch : Fin 16) (bank : Fin 2), s.dev.up = true ∧ s.dev.rd (VALVE.CFG.BANK ch) = bank.val) ∧
    (∃ (s : State), s.dev.up = true) :=
  ⟨⟨(Instr.dip, 7), runSt (opWord 8 0 0) [] run0, 5, by simp, by decide +kernel, (fun _ h => by cases h; decide +kernel)⟩,
   ⟨runSt (opWord 7 0 9) [(VALVE.DIP_CFG.DEPTH 5, 1)] { run0 with start := some (0, 0) }, 5, { run0 with start := some (0, 0) },
      opWord 7 0 9, by decide +kernel⟩,
   ⟨runSt (opWord 7 0 9) [(VALVE.DIP_CFG.DEPTH 5, 255)] run0, 5, run0, opWord 7 0 9, by decide +kernel⟩,
   ⟨runSt (opWord 8 0 9) [] { run0 with seen := some 4 }, 5, { run0 with seen := some 4 }, opWord 8 0 9, by decide +kernel⟩,
   ⟨runSt (opWord 8 0 9) [] run0, 5, run0, opWord 8 0 9, by decide +kernel⟩,
   ⟨runSt (opWord 9 0 255) [] run0, 5, run0, opWord 9 0 255, by decide +kernel⟩,
   ⟨runSt (opWord 10 2 1) [] run0, 5, run0, opWord 10 2 1, by decide +kernel⟩,
   ⟨runSt (opWord 10 9 1) [] { run0 with loop := some 1 }, 5, { run0 with loop := some 1 }, opWord 10 9 1, by decide +kernel⟩,
   ⟨runSt (opWord 12 0 0) [] run0, 5, run0, by decide +kernel⟩,
   ⟨runSt (opWord 12 0 0) [(VALVE.DIP_WIN.TMIN 5, 4), (VALVE.DIP_WIN.TMAX 5, 4)] { run0 with seen := some 4 }, 5,
      { run0 with seen := some 4 }, 4, by decide +kernel⟩,
   ⟨runSt (opWord 0 0 0) [] run0, 5, run0, 10, by decide +kernel⟩,
   ⟨valveSt 1 [] id, 5, by decide +kernel⟩,
   ⟨valveSt 3 [] id, 5, by decide +kernel⟩,
   ⟨runSt (opWord 9 0 0) [(VALVE.CFG.ROLE 5, 3)] run0, 5, by decide +kernel⟩,
   ⟨runSt (opWord 9 0 0) [] run0, 5, by decide +kernel⟩,
   ⟨runSt (opWord 9 0 0) [(VALVE.CFG.ROLE 5, 3)] run0, 5, by decide +kernel⟩,
   ⟨valveSt 1 [] id, 5, 1, by decide +kernel⟩,
   ⟨valveSt 1 [] id, 5, 0, by decide +kernel⟩,
   ⟨st [(HSG.WAIT_MAX.US 3, 5)], by decide +kernel⟩⟩

theorem wit_ValveFaultsAndLedger :
    (∃ (q : _) (s : State), q ∈ [(Instr.coilShort, 2), (Instr.lsShort, 3), (Instr.valveOvertemp, 6)] ∧ s.dev.up = true) ∧
    (∃ (q : _) (s : State), q ∈ [(Instr.coilShort, 2), (Instr.lsShort, 3), (Instr.valveOvertemp, 6)] ∧ s.dev.up = true) ∧
    (∃ (q : _) (s : State), q ∈ [(Instr.coilShort, 2), (Instr.lsShort, 3), (Instr.valveOvertemp, 6)] ∧ s.dev.up = true) ∧
    (∃ (q : _) (s : State), q ∈ [(Instr.hsShort, 1), (Instr.hsOt, 2)] ∧ s.dev.up = true) ∧
    (∃ (q : _) (s : State), q ∈ [(Instr.hsShort, 1), (Instr.hsOt, 2)] ∧ s.dev.up = true) ∧
    (∃ (s : State) (ch : Fin 16) (r : Run) (t : Nat), s.dev.up = true ∧ s.dev.valves[ch].run = some r ∧ r.peakSince = some t ∧
      s.dev.on (VALVE.FAULT.CAUSE ch) = false ∧ t + 16000 * max 1 (s.dev.rd (HSG.PEAK_LIMIT.US (groupOf ch))) < s.dev.now) ∧
    (∃ (s : State) (ch : Fin 16) (r : Run), (s.dev.up = true ∧ s.dev.valves[ch].run = some r) ∧ (∀ t, r.peakSince = some t → s.dev.now
      ≤ t + 16000 * max 1 (s.dev.rd (HSG.PEAK_LIMIT.US (groupOf ch))))) ∧
    (∃ (s : State) (ch : Fin 16) (r : Run), (s.dev.up = true ∧ s.dev.valves[ch].run = some r) ∧ (∀ t, r.peakSince = some t → s.dev.now
      ≤ t + 16000 * max 1 (s.dev.rd (HSG.PEAK_LIMIT.US (groupOf ch))))) ∧
    (∃ (s : State) (ch : Fin 16) (r : Run), s.dev.up = true ∧ s.dev.valves[ch].run = some r ∧ s.dev.on (VALVE.FAULT.CAUSE ch) = false
      ∧ r.count < 65536) ∧
    (∃ (s : State) (ch : Fin 16) (r : Run), s.dev.up = true ∧ s.dev.valves[ch].run = some r ∧ s.dev.on (VALVE.FAULT.CAUSE ch) = false
      ∧ 65536 ≤ r.count) ∧
    (∃ (s : State) (ch : Fin 16) (r : Run), s.dev.up = true ∧ s.dev.valves[ch].run = some r ∧ s.dev.on (VALVE.FAULT.CAUSE ch) = false
      ∧ r.left = none ∧ 13 ≤ opOf (progWord s.mem ch r.bank r.pc)) ∧
    (∃ (s : State) (ch : Fin 16) (r : Run), s.dev.up = true ∧ s.dev.valves[ch].run = some r ∧ s.dev.on (VALVE.FAULT.CAUSE ch) = false
      ∧ r.left = none ∧ opOf (progWord s.mem ch r.bank r.pc) < 13) ∧
    (∃ (s : State) (ch : Fin 16), s.dev.up = true ∧ s.dev.rd (VALVE.FAULT.CAUSE ch) ≠ 0 ∧ s.dev.rd (VALVE.FAULT.CAUSE ch) ≠ 7 ∧
      s.dev.on (HSG.FAULT.CAUSE (groupOf ch)) = false) ∧
    (∃ (s : State) (ch : Fin 16), s.dev.up = true ∧ (s.dev.rd (VALVE.FAULT.CAUSE ch) = 0 ∨ s.dev.rd (VALVE.FAULT.CAUSE ch) = 7)) ∧
    (∃ (s : State) (g : Fin 4), s.dev.up = true ∧ s.dev.rd (HSG.FAULT.CAUSE g) ≠ 0) ∧
    (∃ (s : State) (mv : Nat), s.dev.up = true ∧ mv < 40000) ∧
    (∃ (s : State) (mv : Nat), s.dev.up = true ∧ 42000 ≤ mv ∧ mv < 65536) ∧
    (∃ (s : State) (mv : Nat), s.dev.up = true ∧ 42000 ≤ mv ∧ mv < 65536) ∧
    (∃ (s : State), s.dev.up = true ∧ (∀ ch : Fin 16, s.dev.valves[ch].acc = 0 ∧ s.dev.valves[ch].ended = 0) ∧ s.dev.rdS MARK.AVAIL.UJ
      + s.dev.rd MARK.LEDGER_RATE.UJ < 2147483648) ∧
    (∃ (s : State), s.dev.up = true ∧ (∀ ch : Fin 16, s.dev.valves[ch].acc = 0 ∧ s.dev.valves[ch].ended = 0) ∧ s.dev.rdS MARK.AVAIL.UJ
      + s.dev.rd MARK.LEDGER_RATE.UJ < 2147483648) ∧
    (∃ (s : State), s.dev.up = true ∧ s.dev.on PWR.STATUS.SHED = false ∧ 42000 ≤ s.dev.rd MARK.RAIL.MV) ∧
    (∃ (s : State), s.dev.up = true ∧ (s.dev.on PWR.STATUS.SHED = true ∨ s.dev.rd MARK.RAIL.MV < 42000)) ∧
    (∃ (s : State), s.dev.up = true ∧ (s.dev.on PWR.STATUS.SHED = true ∨ s.dev.rd MARK.RAIL.MV < 42000)) :=
  ⟨⟨(Instr.coilShort, 2), runSt (opWord 9 0 0) [] run0, by simp, by decide +kernel⟩,
   ⟨(Instr.valveOvertemp, 6), valveSt 1 [(VALVE.FAULT.CAUSE 5, 3)] id, by simp, by decide +kernel⟩,
   ⟨(Instr.lsShort, 3), runSt (opWord 9 0 0) [] { run0 with slot := some 4 }, by simp, by decide +kernel⟩,
   ⟨(Instr.hsShort, 1), runSt (opWord 9 0 0) [] run0, by simp, by decide +kernel⟩,
   ⟨(Instr.hsOt, 2), st [(HSG.FAULT.CAUSE 1, 1)], by simp, by decide +kernel⟩,
   ⟨atTime (2 ^ 64) (runSt (opWord 1 0 0) [] { run0 with peakSince := some 0 }), 5, { run0 with peakSince := some 0 }, 0,
      by decide +kernel⟩,
   ⟨runSt (opWord 1 0 0) [] run0, 5, run0, by decide +kernel, (fun _ h => nomatch h)⟩,
   ⟨runSt (opWord 1 0 0) [] { run0 with peakSince := some 0 }, 5, { run0 with peakSince := some 0 }, by decide +kernel,
      (fun _ h => by cases h; decide +kernel)⟩,
   ⟨runSt (opWord 9 0 0) [] { run0 with count := 65535 }, 5, { run0 with count := 65535 }, by decide +kernel⟩,
   ⟨runSt (opWord 9 0 0) [] { run0 with count := 65536 }, 5, { run0 with count := 65536 }, by decide +kernel⟩,
   ⟨runSt (opWord 13 0 0) [] run0, 5, run0, by decide +kernel⟩,
   ⟨runSt (opWord 12 0 0) [] run0, 5, run0, by decide +kernel⟩,
   ⟨valveSt 1 [(VALVE.FAULT.CAUSE 5, 3)] id, 5, by decide +kernel⟩,
   ⟨valveSt 1 [(VALVE.FAULT.CAUSE 5, 7)] id, 5, by decide +kernel⟩,
   ⟨st [(HSG.FAULT.CAUSE 1, 1), (VALVE.FAULT.CAUSE 5, 7)], 1, by decide +kernel⟩,
   ⟨State.reset, 39999, by decide +kernel⟩,
   ⟨st [(MARK.STATUS.RAIL_LOW, 1)], 42000, by decide +kernel⟩,
   ⟨st [(MARK.STATUS.RAIL_LOW, 1)], 65535, by decide +kernel⟩,
   ⟨st [(MARK.AVAIL.UJ, 3499950), (MARK.LEDGER_RATE.UJ, 100)], by decide +kernel⟩,
   ⟨st [(MARK.AVAIL.UJ, 2 ^ 32 - 5)], by decide +kernel⟩,
   ⟨st [(MARK.STATUS.SHED, 1), (MARK.RAIL.MV, 42000)], by decide +kernel⟩,
   ⟨st [(MARK.STATUS.SHED, 1), (MARK.RAIL.MV, 41999)], by decide +kernel⟩,
   ⟨st [(MARK.STATUS.SHED, 1), (PWR.STATUS.SHED, 1)], by decide +kernel⟩⟩

/-! ## Archive and jobs -/

/-- A chunk of one line, two columns of 12 bits, held by engine `n`. -/
def chunk (n : Option Nat) (g : Chunk → Chunk) : Chunk :=
  g { id := 0, key := [], therm := none, stripe := 0, epoch := 0, mode := 0, wrap := 0, level := 1, withStates := false, bits := 12, ratio := 0, maxLines := 64, col0 := 0, width := 2, lines := [⟨9, 0, 0, 0, [6, 12], [0, 0]⟩], closed := false, engine := n, begun := false, noDefl := false, left := 19, dBufs := 0, fBufs := 0, dSeen := 0, fSeen := 0 }
def archState (l : List (Fld × Nat)) (g : Arch → Arch) : State := stOf ((dev l).updArch g)
def arcFields : List (Fld × Nat) := [(ZCTL.ARCH_CFG.EN, 1)]
def lineState (l : List (Fld × Nat)) : State := stOf ((dev l).updStitch fun q => { q with toArc := [webLine 9] })

theorem wit_ArchiveBooksEveryByte :
    (∃ (s : State), s.dev.up = true ∧ s.dev.stitch.toArc = []) ∧
    (∃ (s : State) (g : WebLine) (rest : List WebLine), s.dev.up = true ∧ s.dev.stitch.toArc = g :: rest ∧ s.dev.snap.jobs = [] ∧
      (s.dev.on ZCTL.STATUS.DEGRADED = true ∨ s.dev.isStandby = true)) ∧
    (∃ (s : State) (g : WebLine) (rest : List WebLine), s.dev.up = true ∧ s.dev.stitch.toArc = g :: rest ∧ s.dev.snap.jobs = [] ∧
      (s.dev.on ZCTL.STATUS.DEGRADED = true ∨ s.dev.isStandby = true)) ∧
    (∃ (s : State) (g : WebLine) (rest : List WebLine) (v : View) (a : ArchSet), (s.dev.up = true ∧ s.dev.stitch.toArc = g :: rest ∧
      s.dev.snap.jobs = [] ∧ s.dev.on ZCTL.STATUS.DEGRADED = false ∧ s.dev.isStandby = false) ∧ v = s.dev.cfg g.epoch ∧ a =
      archSet v ∧ v ZCTL.ARCH_CFG.EN ≠ 0 ∧ s.dev.arch.chunks = [] ∧ 0 < g.cells.length ∧ g.cells.length ≤ a.stripeW ∧ rawLineLen
      a.bits g.cells.length a.states ≤ 8388608) ∧
    (∃ (s : State) (c : Chunk) (n : Nat), s.dev.up = true ∧ s.dev.arch.chunks = [c] ∧ c.engine = none ∧ (List.range 32).find? (fun n
      => streamEngine s.dev n && !engFaulted s.dev n && (jobOn s.dev n).isNone) = some n) ∧
    (∃ (s : State) (n : Fin 32) (c : Chunk), s.dev.up = true ∧ s.dev.arch.chunks = [c] ∧ c.engine = some n.val ∧ c.noDefl = false ∧
      c.dBufs = 0 ∧ c.dSeen = 0 ∧ c.fBufs = 0 ∧ c.left = rawLen c ∧ 0 < c.left ∧ s.dev.rd ZCTL.POOL_FREE.N ≠ 0) ∧
    (∃ (s : State) (n : Fin 32) (c : Chunk), s.dev.up = true ∧ s.dev.arch.chunks = [c] ∧ c.engine = some n.val ∧ c.noDefl = false ∧
      c.dBufs = 0 ∧ c.dSeen = 0 ∧ c.fBufs = 0 ∧ c.left = rawLen c ∧ 0 < c.left ∧ s.dev.rd ZCTL.POOL_FREE.N ≠ 0) ∧
    (∃ (s : State) (n : Fin 32) (c : Chunk), s.dev.up = true ∧ s.dev.arch.chunks = [c] ∧ c.engine = some n.val ∧ c.noDefl = false ∧
      c.dBufs = 0 ∧ c.fBufs = 0 ∧ s.dev.rd ZCTL.POOL_FREE.N = 0) ∧
    (∃ (s : State) (n : Fin 32) (c : Chunk), s.dev.up = true ∧ s.dev.arch.chunks = [c] ∧ c.engine = some n.val ∧ c.therm = none ∧
      c.closed = true ∧ c.left = 0 ∧ c.noDefl = true ∧ c.dBufs = 0 ∧ c.fBufs = bufsFor (frbPayload c).length ∧ frbVerified s.dev c
      = true) ∧
    (∃ (s : State) (n : Fin 32), s.dev.up = true ∧ heldBy s.dev n = []) ∧
    (∃ (s : State), s.dev.up = true) ∧
    (∃ (s : State), s.dev.up = true) ∧
    (∃ (s : State) (port : Fin 2) (r : ArchRec) (rest : List ArchRec) (q : Nat), s.dev.up = true ∧ s.dev.arch.recs = r :: rest ∧
      r.port = some port.val ∧ r.cseq = some q) ∧
    (∃ (s : State) (port : Fin 2), s.dev.up = true ∧ (∀ r ∈ s.dev.arch.recs, r.port ≠ some port.val)) ∧
    (∃ (s : State) (n : Fin 32), s.dev.up = true ∧ engFaulted s.dev n = true) ∧
    (∃ (s : State) (n : Fin 32), s.dev.up = true ∧ engFaulted s.dev n = false) ∧
    (∃ (s : State) (p : Fin 16) (vc : Fin 16) (dt : Nat) (bytes : List Byte) (w : Nat), s.dev.up = true ∧ receiving s.dev p = true ∧
      0x30 ≤ dt ∧ dt ≤ 0x37 ∧ bitOf (s.dev.cfg (packetEpoch s.dev p) (PORT.STREAM_CFG.SIDE_VC_EN p)) vc = true ∧ s.dev.isStandby =
      false ∧ (receive s.dev p (6 + bytes.length)).1 = true ∧ s.dev.ports[p].cur = some w) ∧
    (∃ (s : State) (p : Fin 16), s.dev.up = true ∧ receiving s.dev p = false) :=
  ⟨⟨State.reset, by decide +kernel⟩,
   ⟨lineState [(ZCTL.STATUS.DEGRADED, 1)], webLine 9, [], by decide +kernel⟩,
   ⟨lineState [(TWIN.STATUS.STATE, 4)], webLine 9, [], by decide +kernel⟩,
   ⟨lineState arcFields, webLine 9, [], Dev.cfg (dev arcFields) 0, archSet (Dev.cfg (dev arcFields) 0), by decide +kernel, rfl, rfl,
      by decide +kernel⟩,
   ⟨archState [(ZCTL.STREAM_MASK.MASK, 2 ^ 31)] fun a => { a with chunks := [chunk none id] }, chunk none id, 31, by decide +kernel⟩,
   ⟨archState [(ZCTL.STREAM_MASK.MASK, 2 ^ 31)] fun a => { a with chunks := [chunk (some 31) id] }, 31, chunk (some 31) id,
      by decide +kernel⟩,
   ⟨archState [(ZCTL.STREAM_MASK.MASK, 2 ^ 31), (ZCTL.POOL_FREE.N, 1), (ZCTL.WRITTEN_LO.BYTES, 2 ^ 32 - 1)] fun a =>
      { a with chunks := [chunk (some 31) id] }, 31, chunk (some 31) id, by decide +kernel⟩,
   ⟨archState [(ZCTL.POOL_FREE.N, 0)] fun a => { a with chunks := [chunk (some 31) id] }, 31, chunk (some 31) id, by decide +kernel⟩,
   ⟨archState [] fun a =>
      { a with cseq := 2 ^ 32 - 1, chunks := [chunk (some 31) fun c => { c with closed := true, left := 0, noDefl := true, fBufs := 1, fSeen := 32 }] },
      31, chunk (some 31) fun c => { c with closed := true, left := 0, noDefl := true, fBufs := 1, fSeen := 32 },
      by decide +kernel⟩,
   ⟨archState [] fun a => { a with chunks := [chunk (some 30) id] }, 31, by decide +kernel⟩,
   ⟨archState [(ZCTL.BUDGET.BPUS, 100), (ZCTL.BUCKET_CAP.BYTES, 50)] fun a => { a with credit := -60 }, by decide +kernel⟩,
   ⟨archState [(ZCTL.BUDGET.BPUS, 100), (ZCTL.BUCKET_CAP.BYTES, 30)] fun a => { a with credit := -60 }, by decide +kernel⟩,
   ⟨archState [(ZCTL.HELD_LO.HELD, 3), (ZCTL.POOL_FREE.N, 16383)] fun a => { a with recs := [⟨some 0, [1, 2, 3], 1, 1, some 1⟩] }, 1,
      ⟨some 0, [1, 2, 3], 1, 1, some 1⟩, [], 0, by decide +kernel⟩,
   ⟨archState [] fun a => { a with recs := [⟨some 0, [1, 2, 3], 1, 1, some 1⟩] }, 0, by decide +kernel⟩,
   ⟨st [(Z.STATUS.STATE 31, 3)], 31, by decide +kernel⟩,
   ⟨State.reset, 31, by decide +kernel⟩,
   ⟨portState 5 [(PORT.STREAM_CFG.SIDE_VC_EN 2, 2)] fun q => { q with cur := some 9 }, 2, 1, 0x37, [1, 2, 3, 4, 5], 9,
      by decide +kernel⟩,
   ⟨portState 4 [] id, 2, by decide +kernel⟩⟩

/-- A job on engine 31: decompress or FRB-decode `len` bytes. -/
def job (op : Nat) : Job := ⟨4, 0, 31, op, 0, 0, 0, 0, 77, 0x560000000, 3, [(0x560001000, 16)], 100⟩
/-- Job queue entry 0: DEFLATE-decompress 3 bytes. -/
def jobMem : Memory := Memory.store ⟨[], [], []⟩ 0x08000000 (leBytes 4 1 ++ leBytes 4 77 ++ leBytes 8 0x560000000 ++ leBytes 4 3 ++ leBytes 4 0 ++ leBytes 4 100)

theorem wit_JobsRunAndComplete :
    (∃ (s : State), s.dev.up = true ∧ s.dev.on HOST.STATUS.JQ_OWNED = false) ∧
    (∃ (s : State), s.dev.up = true ∧ s.dev.on HOST.STATUS.JQ_OWNED = false) ∧
    (∃ (s : State), s.dev.up = true ∧ s.dev.on HOST.STATUS.JQ_OWNED = true) ∧
    (∃ (s : State), s.dev.up = true ∧ s.dev.rd ZCTL.JQ_HEAD.IDX = s.dev.rd ZCTL.JQ_TAIL.IDX) ∧
    (∃ (s : State), s.dev.up = true ∧ s.dev.on ZCTL.STATUS.DEGRADED = false ∧ s.dev.on ZCTL.FORCE.JOB_PAUSE = true) ∧
    (∃ (s : State), s.dev.up = true ∧ s.dev.rd ZCTL.JQ_HEAD.IDX ≠ s.dev.rd ZCTL.JQ_TAIL.IDX ∧ s.dev.on ZCTL.STATUS.DEGRADED = true ∧
      s.dev.arch.cq.length < 256) ∧
    (∃ (s : State) (n : Nat) (j : Job), s.dev.up = true ∧ s.dev.rd ZCTL.JQ_HEAD.IDX ≠ s.dev.rd ZCTL.JQ_TAIL.IDX ∧ s.dev.on
      ZCTL.STATUS.DEGRADED = false ∧ s.dev.on ZCTL.FORCE.JOB_PAUSE = false ∧ j = readJob s.mem (s.dev.rd ZCTL.JQ_HEAD.IDX) 0 ∧
      j.op ≠ 0 ∧ (List.range 32).find? (fun n => !streamEngine s.dev n && !engFaulted s.dev n && (heldBy s.dev n).isEmpty &&
      (jobOn s.dev n).isNone) = some n) ∧
    (∃ (s : State) (n : Fin 32), s.dev.up = true ∧ jobOn s.dev n = none) ∧
    (∃ (s : State), s.dev.up = true ∧ 256 ≤ s.dev.arch.cq.length) ∧
    (∃ (s : State) (n : Fin 32) (j : Job) (r : JobEnd), (s.dev.up = true ∧ jobOn s.dev n = some j ∧ s.dev.arch.cq.length < 256 ∧
      s.Sound ∧ j.force = 0 ∧ j.op ≠ 0) ∧ r = decodeJob j (j.chain.map Prod.snd).sum (s.mem.take j.src j.len)) ∧
    (∃ (s : State) (n : Fin 32) (j : Job) (r : JobEnd), (s.dev.up = true ∧ jobOn s.dev n = some j ∧ s.dev.arch.cq.length < 256 ∧
      s.Sound ∧ j.force = 0 ∧ j.op ≠ 0) ∧ r = decodeJob j (j.chain.map Prod.snd).sum (s.mem.take j.src j.len)) ∧
    (∃ (s : State), s.dev.up = true ∧ s.dev.arch.jobs = []) ∧
    (∃ (s : State) (j : Job) (n : Fin 32), s.dev.up = true ∧ s.dev.arch.jobs = [j] ∧ j.engine = n.val ∧ s.dev.arch.cq.length < 256) :=
  ⟨⟨State.reset, by decide +kernel⟩,
   ⟨archState [(ZCTL.CQ_HEAD.IDX, 255)] fun a => { a with cq := [(255, 0, false), (0, 1, false)] }, by decide +kernel⟩,
   ⟨st [(HOST.STATUS.JQ_OWNED, 1)], by decide +kernel⟩,
   ⟨State.reset, by decide +kernel⟩,
   ⟨st [(ZCTL.JQ_TAIL.IDX, 1), (ZCTL.FORCE.JOB_PAUSE, 1)], by decide +kernel⟩,
   
      ⟨{ (archState [(ZCTL.JQ_TAIL.IDX, 1), (ZCTL.STATUS.DEGRADED, 1), (ZCTL.CQ_TAIL.IDX, 255)] fun a => { a with cq := List.replicate 255 (0, 0, false) }) with mem := jobMem },
      by decide +kernel⟩,
   ⟨{ (archState [(ZCTL.JQ_TAIL.IDX, 1), (ZCTL.STREAM_MASK.MASK, 1)] id) with mem := jobMem }, 1, readJob jobMem 0 0,
      by decide +kernel⟩,
   ⟨State.reset, 31, by decide +kernel⟩,
   ⟨archState [] fun a => { a with jobs := [job 1], cq := List.replicate 256 (0, 0, false) }, by decide +kernel⟩,
   ⟨archState [] fun a => { a with jobs := [job 1] }, 31, job 1, decodeJob (job 1) 16 (State.reset.mem.take 0x560000000 3),
      by decide +kernel, rfl⟩,
   ⟨archState [] fun a => { a with jobs := [job 2] }, 31, job 2, decodeJob (job 2) 16 (State.reset.mem.take 0x560000000 3),
      by decide +kernel, rfl⟩,
   ⟨archState [(Z.CTX.OPEN 31, 1)] fun a => { a with ctxs := [⟨0, 31, 0, 1, [], 1, 0, 0, 0⟩] }, by decide +kernel⟩,
   ⟨archState [] fun a => { a with jobs := [job 1] }, job 1, 31, by decide +kernel⟩⟩

/-! ## Memory and integrity -/

def integState (l : List (Fld × Nat)) (t : Nat) (g : Integ → Integ) : State := stOf { (dev l).updInteg g with time := ⟨t, 0, 0⟩ }

theorem wit_FabricTokensAndReads :
    (∃ (s : State) (r : TokReq), s.dev.up = true ∧ r.hbm = false ∧ mayTake s.dev r.cls = true) ∧
    (∃ (s : State) (r : TokReq), s.dev.up = true ∧ r.hbm = false ∧ mayTake s.dev r.cls = true) ∧
    (∃ (s : State) (r : TokReq), s.dev.up = true ∧ mayTake s.dev r.cls = false) ∧
    (∃ (s : State) (k : Nat) (t : Nat) (rest : List (Nat × Nat)), s.dev.up = true ∧ s.dev.integ.returning = (k, t) :: rest ∧ k < 8 ∧ t
      + 40 ≤ s.dev.now) ∧
    (∃ (s : State) (k : Nat) (t : Nat) (rest : List (Nat × Nat)), s.dev.up = true ∧ s.dev.integ.returning = (k, t) :: rest ∧ s.dev.now
      < t + 40) ∧
    (∃ (s : State) (k : Fin 8), s.dev.up = true ∧ (∀ o ∈ s.dev.integ.ops, o.cls ≠ k.val)) ∧
    (∃ (s : State) (a : Nat), s.dev.up = true ∧ s.mem.storedCheck (homeAddr a / 8 * 8) = none) ∧
    (∃ (s : State) (a : Nat) (flip : Nat) (k : Nat), s.dev.up = true ∧ memOf a = 1 ∧ (s.mem.flip a flip).wordState a = .single k) ∧
    (∃ (s : State) (a : Nat) (flip : Nat) (k : Nat), s.dev.up = true ∧ memOf a = 1 ∧ (s.mem.flip a flip).wordState a = .single k) ∧
    (∃ (s : State) (a : Nat) (flip : Nat), s.dev.up = true ∧ memOf a = 1 ∧ (s.mem.flip a flip).wordState a = .bad) ∧
    (∃ (s : State) (flip : Nat) (k : Nat), s.dev.up = true ∧ classify (flipSyndrome flip) = .single k) ∧
    (∃ (s : State) (flip : Nat), s.dev.up = true ∧ classify (flipSyndrome flip) = .bad) ∧
    (∃ (s : State), s.dev.up = true ∧ s.dev.integ.wb = []) ∧
    (∃ (s : State) (a : Nat) (v : Nat) (k : Nat) (rest : List (Nat × Nat)), s.dev.up = true ∧ s.dev.integ.wb = (a, v) :: rest ∧
      s.mem.wordState a = .single k ∧ s.mem.u64 a = v) ∧
    (∃ (s : State) (a : Nat) (v : Nat) (rest : List (Nat × Nat)), s.dev.up = true ∧ s.dev.integ.wb = (a, v) :: rest ∧ (s.mem.wordState
      a = .good ∨ s.mem.u64 a ≠ v)) ∧
    (∃ (s : State) (a : Nat) (v : Nat) (rest : List (Nat × Nat)), s.dev.up = true ∧ s.dev.integ.wb = (a, v) :: rest ∧ (s.mem.wordState
      a = .good ∨ s.mem.u64 a ≠ v)) ∧
    (∃ (s : State) (k : Fin 8) (i : Nat) (o : FabTok), s.dev.up = true ∧ s.dev.integ.ops.zipIdx.find? (fun o => o.1.cls == k.val) =
      some (o, i) ∧ o.hbm = false ∧ s.dev.now < o.t + max 1 (s.dev.rd FAB.TIMEOUT_US.US) * 16000) ∧
    (∃ (s : State) (k : Fin 8) (i : Nat) (o : FabTok), s.dev.up = true ∧ s.dev.integ.ops.zipIdx.find? (fun o => o.1.cls == k.val) =
      some (o, i) ∧ o.hbm = false ∧ o.t + max 1 (s.dev.rd FAB.TIMEOUT_US.US) * 16000 ≤ s.dev.now) ∧
    (∃ (s : State), s.dev.up = true) :=
  ⟨⟨integState [(FAB.TOK_STAT0.FREE, 16384)] 7 id, ⟨7, false, true⟩, by decide +kernel⟩,
   ⟨integState [] 7 id, ⟨0, false, false⟩, by decide +kernel⟩,
   ⟨integState [(FAB.TOK_STAT0.FREE, 0)] 7 id, ⟨7, false, true⟩, by decide +kernel⟩,
   ⟨integState [(FAB.HELD.N 7, 1)] 40 fun i => { i with returning := [(7, 0)] }, 7, 0, [], by decide +kernel⟩,
   ⟨integState [(FAB.HELD.N 7, 1)] 39 fun i => { i with returning := [(7, 0)] }, 7, 0, [], by decide +kernel⟩,
   ⟨integState [] 0 fun i => { i with ops := [⟨1, false, 0⟩] }, 2, by decide +kernel⟩,
   ⟨State.reset, 0x01000007, by decide +kernel⟩,
   ⟨State.reset, 0x01000007, 2, 1, by decide +kernel⟩,
   ⟨st [(MEM.CTL.CE_WB, 0)], 0x01000007, 2 ^ 71, 71, by decide +kernel⟩,
   ⟨State.reset, 0x01000007, 3, by decide +kernel⟩,
   ⟨State.reset, 1, 0, by decide +kernel⟩,
   ⟨State.reset, 5, by decide +kernel⟩,
   ⟨State.reset, by decide +kernel⟩,
   ⟨{ (integState [] 0 fun i => { i with wb := [(0x01000000, 2)] }) with mem := Memory.flip ⟨[], [], []⟩ 0x01000000 2 }, 0x01000000,
      2, 1, [], by decide +kernel⟩,
   ⟨integState [] 0 fun i => { i with wb := [(0x01000000, 0)] }, 0x01000000, 0, [], by decide +kernel⟩,
   ⟨{ (integState [] 0 fun i => { i with wb := [(0x01000000, 1)] }) with mem := Memory.flip ⟨[], [], []⟩ 0x01000000 2 }, 0x01000000,
      1, [], by decide +kernel⟩,
   ⟨integState [(FAB.TIMEOUT_US.US, 1)] 15999 fun i => { i with ops := [⟨2, false, 0⟩] }, 2, 0, ⟨2, false, 0⟩, by decide +kernel⟩,
   ⟨integState [(FAB.TIMEOUT_US.US, 1)] 16000 fun i => { i with ops := [⟨1, false, 0⟩, ⟨2, false, 0⟩] }, 2, 1, ⟨2, false, 0⟩,
      by decide +kernel⟩,
   ⟨State.reset, by decide +kernel⟩⟩

theorem wit_ScrubAndDegradedMode :
    (∃ (s : State), s.dev.up = true ∧ s.dev.on THM.STATUS.STEP = true) ∧
    (∃ (s : State) (flip : Nat) (a : Nat), s.dev.up = true ∧ s.dev.on THM.STATUS.STEP = false ∧ s.dev.integ.sramPos = a ∧ a + 8 <
      0x02000000 ∧ (s.mem.flip a flip).wordState a = .good) ∧
    (∃ (s : State) (flip : Nat) (a : Nat), s.dev.up = true ∧ s.dev.on THM.STATUS.STEP = false ∧ s.dev.integ.sramPos = a ∧ a + 8 <
      0x02000000 ∧ (s.mem.flip a flip).wordState a = .good) ∧
    (∃ (s : State) (flip : Nat) (a : Nat) (k : Nat), s.dev.up = true ∧ s.dev.on THM.STATUS.STEP = false ∧ s.dev.integ.sramPos = a ∧ a
      + 8 < 0x02000000 ∧ (s.mem.flip a flip).wordState a = .single k) ∧
    (∃ (q : _) (s : State), q ∈ [(Instr.stackOt, 5), (Instr.degrade, 6)] ∧ s.dev.up = true ∧ s.dev.on MEM.STATUS.DEGRADED = false ∧
      s.dev.integ.degWait = none) ∧
    (∃ (q : _) (s : State), q ∈ [(Instr.stackOt, 5), (Instr.degrade, 6)] ∧ s.dev.up = true ∧ s.dev.on MEM.STATUS.DEGRADED = false ∧
      s.dev.integ.degWait = none) ∧
    (∃ (q : _) (s : State), q ∈ [(Instr.stackOt, 5), (Instr.degrade, 6)] ∧ s.dev.up = true ∧ (s.dev.on MEM.STATUS.DEGRADED = true ∨
      s.dev.integ.degWait ≠ none)) ∧
    (∃ (q : _) (s : State), q ∈ [(Instr.stackOt, 5), (Instr.degrade, 6)] ∧ s.dev.up = true ∧ (s.dev.on MEM.STATUS.DEGRADED = true ∨
      s.dev.integ.degWait ≠ none)) ∧
    (∃ (s : State), s.dev.up = true ∧ s.dev.integ.degWait = none) ∧
    (∃ (s : State) (c : Nat), s.dev.up = true ∧ s.dev.integ.degWait = some c ∧ c < 8) ∧
    (∃ (s : State), s.dev.up = true ∧ s.dev.on MEM.STATUS.DEGRADED = true ∧ s.dev.on MEM.STATUS.HBM_READY = false ∧
      s.dev.integ.recovering = false) ∧
    (∃ (s : State), s.dev.up = true ∧ s.dev.on MEM.STATUS.DEGRADED = true ∧ s.dev.on MEM.STATUS.HBM_READY = false ∧
      s.dev.integ.recovering = false ∧ s.dev.on MEM.CTL.AUTO_RECOVER = true ∧ (s.dev.rd MEM.DEG_CAUSE.CAUSE = 1 ∨ s.dev.rd
      MEM.DEG_CAUSE.CAUSE = 2 ∨ s.dev.rd MEM.DEG_CAUSE.CAUSE = 4) ∧ s.dev.integ.autoTries < 8 ∧ s.dev.past .recover oneS = true) ∧
    (∃ (s : State), s.dev.up = true ∧ (s.dev.on MEM.STATUS.DEGRADED = false ∨ s.dev.integ.recovering = true)) ∧
    (∃ (s : State), s.dev.up = true ∧ (s.dev.rd MEM.DEG_CAUSE.CAUSE = 3 ∨ s.dev.rd MEM.DEG_CAUSE.CAUSE = 5 ∨ s.dev.rd
      MEM.DEG_CAUSE.CAUSE = 6 ∨ 8 ≤ s.dev.integ.autoTries)) ∧
    (∃ (s : State), s.dev.up = true ∧ (s.dev.rd MEM.DEG_CAUSE.CAUSE = 3 ∨ s.dev.rd MEM.DEG_CAUSE.CAUSE = 5 ∨ s.dev.rd
      MEM.DEG_CAUSE.CAUSE = 6 ∨ 8 ≤ s.dev.integ.autoTries)) ∧
    (∃ (s : State), s.dev.up = true ∧ s.dev.integ.recovering = false) ∧
    (∃ (s : State), s.dev.up = true ∧ s.dev.integ.recovering = true ∧ s.dev.pw.booting = false ∧ s.dev.on PROF.STATUS.LOADED_VALID =
      false) ∧
    (∃ (s : State), s.dev.up = true ∧ s.dev.integ.recovering = true ∧ s.dev.pw.booting = false ∧ s.dev.on MEM.STATUS.DEGRADED = false
      ∧ s.dev.integ.degWait = none) :=
  ⟨⟨st [(THM.STATUS.STEP, 1)], by decide +kernel⟩,
   ⟨State.reset, 0, 0x01000000, by decide +kernel⟩,
   ⟨integState [] 0 fun i => { i with sramPos := 0x01FFFFF0 }, 0, 0x01FFFFF0, by decide +kernel⟩,
   ⟨State.reset, 4, 0x01000000, 2, by decide +kernel⟩,
   ⟨(Instr.stackOt, 5), State.reset, by simp, by decide +kernel⟩,
   ⟨(Instr.degrade, 6), State.reset, by simp, by decide +kernel⟩,
   ⟨(Instr.degrade, 6), st [(MEM.STATUS.DEGRADED, 1)], by simp, by decide +kernel⟩,
   ⟨(Instr.stackOt, 5), integState [] 0 fun i => { i with degWait := some 1 }, by simp, by decide +kernel⟩,
   ⟨State.reset, by decide +kernel⟩,
   ⟨integState [] 0 fun i => { i with degWait := some 5 }, 5, by decide +kernel⟩,
   ⟨st [(MEM.STATUS.DEGRADED, 1), (MEM.STATUS.HBM_READY, 0), (MEM.DEG_CAUSE.TRIES, 7)], by decide +kernel⟩,
   ⟨integState [(MEM.STATUS.DEGRADED, 1), (MEM.STATUS.HBM_READY, 0), (MEM.CTL.AUTO_RECOVER, 1), (MEM.DEG_CAUSE.CAUSE, 4)] 0 fun i =>
      { i with autoTries := 7 }, by decide +kernel⟩,
   ⟨State.reset, by decide +kernel⟩,
   ⟨st [(MEM.DEG_CAUSE.CAUSE, 5)], by decide +kernel⟩,
   ⟨integState [] 0 fun i => { i with autoTries := 8 }, by decide +kernel⟩,
   ⟨State.reset, by decide +kernel⟩,
   ⟨integState [] 0 fun i => { i with recovering := true }, by decide +kernel⟩,
   ⟨integState [] 0 fun i => { i with recovering := true }, by decide +kernel⟩⟩

theorem wit_CodeCorrectsOneDetectsTwo :
    (∃ (k : Nat), k < 72) ∧
    (∃ (j : Nat) (k : Nat), j < 72 ∧ k < j) ∧
    (∃ (v : Nat) (w : Nat), v < 2 ^ 64 ∧ w < 2 ^ 64) :=
  ⟨⟨71, by decide +kernel⟩,
   ⟨71, 70, by decide +kernel⟩,
   ⟨2 ^ 64 - 1, 5, by decide +kernel⟩⟩

/-! ## Host protocol -/

/-- The fields of a module with both host ports up and session `j` open for `req _ 5 _`, with protocol 3.2. -/
def hostFields (j : Nat) : List (Fld × Nat) := [(HOST.STATUS.HA_UP, 1), (HOST.STATUS.HB_UP, 1), (HOST.IP_HA.IP, 0x0A000001),
  (HOST.IP_HB.IP, 0x0A000002), (HOST.CTL.THP_EN, 1), (HOST.CTL.HA_EN, 1), (HOST.CTL.HB_EN, 1), (HOST.SESS_STAT.STATE j, 1), (HOST.SESS_STAT.VER j, 0x32),
  (HOST.SESS_IP.IP j, 1), (HOST.SESS_PORTS.CTL_PORT j, 2), (HOST.SESS_ID.ID j, 5)]
def hostState (j : Nat) (l : List (Fld × Nat)) (g : HostSt → HostSt) : State := stOf ((dev (hostFields j ++ l)).updHost g)
/-- The same with the tag stream of the session. -/
def streamState (l : List (Fld × Nat)) (g : TagPath → TagPath) : State :=
  stOf ((hostState 3 ([(HOST.SESS_STAT.STREAMS 3, 2), (TAG.SSEQ.NEXT, 4)] ++ l) id).dev.updTags g)
def record (u : Nat) : StreamRec := ⟨0x44, 3, 9, [1, 0, 0, 0], u, none⟩

theorem wit_FramesAreAnsweredOrDropped :
    (∃ (s : State) (p : Fin 2), s.dev.up = true ∧ portUp s.dev p = true ∧ portIp s.dev p ≠ 0) ∧
    (∃ (s : State) (p : Fin 2), s.dev.up = true ∧ portUp s.dev p = true ∧ portIp s.dev p ≠ 0) ∧
    (∃ (s : State) (p : Fin 2) (target : Nat), s.dev.up = true ∧ portUp s.dev p = true ∧ target ≠ portIp s.dev p) ∧
    (∃ (s : State) (p : Fin 2), s.dev.up = true ∧ portUp s.dev p = true ∧ portIp s.dev p ≠ 0) ∧
    (∃ (s : State), s.dev.up = true) ∧
    (∃ (s : State), s.dev.up = true ∧ openSessions s.dev = []) ∧
    (∃ (s : State) (j : Nat), s.dev.up = true ∧ openSessions s.dev = [j] ∧ (∀ p : Fin 2, portUp s.dev p = true ∧ portIp s.dev p ≠ 0)) ∧
    (∃ (s : State) (p : Fin 2) (len : Nat), s.dev.up = true ∧ portUp s.dev p = true ∧ s.dev.on HOST.CTL.ICMP_EN = true ∧ portIp s.dev
      p ≠ 0 ∧ len ≤ 1472) ∧
    (∃ (s : State) (p : Fin 2) (len : Nat), s.dev.up = true ∧ portUp s.dev p = true ∧ (s.dev.on HOST.CTL.ICMP_EN = false ∨ 1472 <
      len)) ∧
    (∃ (s : State) (p : Fin 2) (len : Nat), s.dev.up = true ∧ portUp s.dev p = true ∧ (s.dev.on HOST.CTL.ICMP_EN = false ∨ 1472 <
      len)) ∧
    (∃ (s : State) (p : Fin 2), s.dev.up = true ∧ portUp s.dev p = true) ∧
    (∃ (s : State) (p : Fin 2), s.dev.up = true ∧ portUp s.dev p = true) ∧
    (∃ (s : State) (p : Fin 2), s.dev.up = true ∧ portUp s.dev p = true ∧ thpTaken s.dev p = true) ∧
    (∃ (s : State) (p : Fin 2), s.dev.up = true ∧ portUp s.dev p = true ∧ thpTaken s.dev p = false) ∧
    (∃ (s : State) (p : Fin 2) (c : _), (s.dev.up = true ∧ portUp s.dev p = false) ∧ c ∈ [Instr.badThp p, .frameDiscard p true,
      .frameDiscard p false]) ∧
    (∃ (s : State) (p : Fin 2) (c : _), (s.dev.up = true ∧ portUp s.dev p = false) ∧ c ∈ [Instr.badThp p, .frameDiscard p true,
      .frameDiscard p false]) :=
  ⟨⟨hostState 0 [] id, 0, by decide +kernel⟩,
   ⟨hostState 0 [] fun h => { h with arp := [⟨0, 9, 9, 0⟩, ⟨1, 7, 9, 0⟩] }, 1, by decide +kernel⟩,
   ⟨hostState 0 [] id, 1, 0x0A000001, by decide +kernel⟩,
   ⟨hostState 0 [] fun h => { h with arp := [⟨0, 7, 9, 0⟩, ⟨1, 7, 9, 0⟩] }, 0, by decide +kernel⟩,
   ⟨stOf
      { (hostState 0 [] fun h => { h with arp := [⟨0, 7, 9, 0⟩, ⟨1, 7, 9, 0⟩, ⟨0, 7, 8, 1⟩] }).dev with time := ⟨4800000000000, 0, 0⟩ },
      by decide +kernel⟩,
   ⟨State.reset, by decide +kernel⟩,
   ⟨hostState 2 [] id, 2, by decide +kernel⟩,
   ⟨hostState 0 [(HOST.CTL.ICMP_EN, 1)] id, 0, 1472, by decide +kernel⟩,
   ⟨hostState 0 [(HOST.CTL.ICMP_EN, 1)] id, 1, 1473, by decide +kernel⟩,
   ⟨hostState 0 [(HOST.CTL.ICMP_EN, 0)] id, 1, 0, by decide +kernel⟩,
   ⟨hostState 0 [] id, 0, by decide +kernel⟩,
   ⟨hostState 0 [] id, 1, by decide +kernel⟩,
   ⟨hostState 0 [] id, 1, by decide +kernel⟩,
   ⟨hostState 0 [(HOST.CTL.THP_EN, 0)] id, 1, by decide +kernel⟩,
   ⟨State.reset, 0, Instr.badThp 0, by decide +kernel, by simp⟩,
   ⟨State.reset, 1, Instr.frameDiscard 1 false, by decide +kernel, by simp⟩⟩

theorem wit_SessionsOpenAnswerAndClose :
    (∃ (s : State) (r : ThpReq) (k : Nat) (j : Nat), s.dev.up = true ∧ thpTaken s.dev r.port = true ∧ r.lenOk = true ∧ admits? s.dev
      r.ip = some k ∧ (∀ i ∈ openSessions s.dev, ¬(s.dev.rd (HOST.SESS_IP.IP i) = r.ip ∧ s.dev.rd (HOST.SESS_PORTS.CTL_PORT i) =
      r.udp)) ∧ (List.range 4).find? (fun i => !s.dev.on (HOST.SESS_STAT.STATE i)) = some j) ∧
    (∃ (s : State) (r : ThpReq) (k : Nat) (j : Nat), s.dev.up = true ∧ thpTaken s.dev r.port = true ∧ r.lenOk = true ∧ admits? s.dev
      r.ip = some k ∧ (∀ i ∈ openSessions s.dev, ¬(s.dev.rd (HOST.SESS_IP.IP i) = r.ip ∧ s.dev.rd (HOST.SESS_PORTS.CTL_PORT i) =
      r.udp)) ∧ (List.range 4).find? (fun i => !s.dev.on (HOST.SESS_STAT.STATE i)) = some j) ∧
    (∃ (s : State) (r : ThpReq), s.dev.up = true ∧ thpTaken s.dev r.port = true ∧ r.lenOk = true ∧ admits? s.dev r.ip = none) ∧
    (∃ (s : State) (r : ThpReq) (major : Nat) (k : Nat), s.dev.up = true ∧ thpTaken s.dev r.port = true ∧ r.lenOk = true ∧ admits?
      s.dev r.ip = some k ∧ major ≠ 3) ∧
    (∃ (s : State) (r : ThpReq) (k : Nat), s.dev.up = true ∧ thpTaken s.dev r.port = true ∧ r.lenOk = true ∧ admits? s.dev r.ip = some
      k ∧ (∀ i ∈ openSessions s.dev, ¬(s.dev.rd (HOST.SESS_IP.IP i) = r.ip ∧ s.dev.rd (HOST.SESS_PORTS.CTL_PORT i) = r.udp)) ∧
      openSessions s.dev = [0, 1, 2, 3]) ∧
    (∃ (s : State) (r : ThpReq) (j : Fin 4), s.dev.up = true ∧ s.dev.Executes r j) ∧
    (∃ (s : State) (j : Fin 4), s.dev.up = true ∧ (s.dev.on (HOST.SESS_STAT.STATE j) = false ∨ s.dev.past (.session j) (s.dev.rd
      HOST.SESS_TIMEOUT.MS * oneMs) = false)) ∧
    (∃ (s : State) (j : Fin 4), s.dev.up = true ∧ s.dev.on (HOST.SESS_STAT.STATE j) = true ∧ (∀ q ∈ s.dev.snap.jobs, q.sess.map
      Prod.fst ≠ some j.val) ∧ s.dev.past (.session j) (s.dev.rd HOST.SESS_TIMEOUT.MS * oneMs) = true) ∧
    (∃ (s : State) (c : Instr) (r : ThpReq) (k : Nat), s.dev.up = true ∧ thpKind c = some (r, k) ∧ thpTaken s.dev r.port = true ∧
      findSession s.dev r = none) ∧
    (∃ (s : State) (c : Instr) (r : ThpReq) (k : Nat) (j : Fin 4) (fs : List (Nat × List Nat)), s.dev.up = true ∧ thpKind c = some (r,
      k) ∧ thpTaken s.dev r.port = true ∧ findSession s.dev r = some j.val ∧ s.dev.host.sess[j].kept.find? (fun e => e.1 == r.seq)
      = some (r.seq, fs)) ∧
    (∃ (s : State) (c : Instr) (r : ThpReq) (k : Nat) (j : Fin 4), s.dev.up = true ∧ thpKind c = some (r, k) ∧ thpTaken s.dev r.port =
      true ∧ findSession s.dev r = some j.val ∧ (∀ e ∈ s.dev.host.sess[j].kept, e.1 ≠ r.seq) ∧ tooOld s.dev.host.sess[j] r.seq =
      true) ∧
    (∃ (s : State) (c : Instr) (r : ThpReq) (k : Nat) (j : Fin 4), s.dev.up = true ∧ thpKind c = some (r, k) ∧ thpTaken s.dev r.port =
      true ∧ findSession s.dev r = some j.val ∧ (∀ e ∈ s.dev.host.sess[j].kept, e.1 ≠ r.seq) ∧ tooOld s.dev.host.sess[j] r.seq =
      false ∧ r.lenOk = false) :=
  ⟨⟨hostState 0 [(HOST.ALLOW_CFG.EN 2, 1), (HOST.SESS_STAT.STREAMS 0, 4), (HOST.SESS_STAT.JOB 0, 1), (HOST.ALLOW_CFG.JOB 2, 1),
      (HOST.ALLOW_CFG.WR 2, 1)] id, { req 1 0 7 with udp := 9 }, 2, 1, by decide +kernel⟩,
   ⟨st [(HOST.STATUS.HA_UP, 1), (HOST.IP_HA.IP, 4), (HOST.CTL.THP_EN, 1), (HOST.ALLOW_CFG.EN 0, 1), (HOST.ALLOW_CFG.JOB 0, 1),
      (HOST.ALLOW_CFG.PREFIX 0, 32), (HOST.ALLOW_ADDR.IP 0, 1)], req 0 9 7, 0, 0, by decide +kernel⟩,
   ⟨hostState 0 [(HOST.ALLOW_CFG.EN 0, 1), (HOST.ALLOW_CFG.PREFIX 0, 32)] id, req 1 0 7, by decide +kernel⟩,
   ⟨hostState 0 [(HOST.ALLOW_CFG.EN 0, 1)] id, req 1 0 7, 2, 0, by decide +kernel⟩,
   ⟨hostState 0 [(HOST.ALLOW_CFG.EN 0, 1), (HOST.SESS_STAT.STATE 1, 1), (HOST.SESS_STAT.STATE 2, 1), (HOST.SESS_STAT.STATE 3, 1)] id,
      { req 1 0 7 with udp := 9 }, 0, by decide +kernel⟩,
   ⟨hostState 3 [] id, req 1 5 7, 3, by decide +kernel, (by unfold Dev.Executes; decide +kernel)⟩,
   ⟨State.reset, 3, by decide +kernel⟩,
   ⟨hostState 3 [] id, 3, by decide +kernel⟩,
   ⟨hostState 3 [] id, Instr.keepalive (req 1 6 7), req 1 6 7, 5, by decide +kernel⟩,
   ⟨hostState 2 [] fun h => { h with sess := h.sess.set 2 ⟨[(7, [(5, [0])])], []⟩ }, Instr.keepalive (req 1 5 7), req 1 5 7, 5, 2,
      [(5, [0])], by decide +kernel⟩,
   ⟨hostState 2 [] fun h => { h with sess := h.sess.set 2 ⟨(List.range 16).map fun i => (8 + i, []), []⟩ }, Instr.keepalive (req 1 5
      7), req 1 5 7, 5, 2, by decide +kernel⟩,
   ⟨hostState 2 [] fun h => { h with sess := h.sess.set 2 ⟨(List.range 15).map fun i => (8 + i, []), []⟩ }, Instr.keepalive
      { req 1 5 7 with lenOk := false }, { req 1 5 7 with lenOk := false }, 5, 2, by decide +kernel⟩⟩

theorem wit_RegistersAndMemoryOverThp :
    (∃ (s : State) (r : ThpReq) (j : Fin 4) (addr : Nat) (n : Nat) (d1 : Dev), s.dev.up = true ∧ s.dev.Executes r j ∧ (addr % 4 = 0 ∧
      0 < n ∧ n ≤ 256 ∧ addr < 0x01000000) ∧ (∀ k < n, (addr + 4 * k) / 4096 = addr / 4096 → s.dev.PlainWord (.session j) (addr +
      4 * k)) ∧ d1 = ((rxFrame s.dev r.port).start (.session j)).inc (HOST.SESS_REQ_CNT.CNT j)) ∧
    (∃ (s : State) (r : ThpReq) (j : Fin 4) (addr : Nat) (n : Nat) (d1 : Dev), s.dev.up = true ∧ s.dev.Executes r j ∧ (addr % 4 = 0 ∧
      0 < n ∧ n ≤ 256 ∧ addr < 0x01000000) ∧ (∀ k < n, (addr + 4 * k) / 4096 = addr / 4096 → s.dev.PlainWord (.session j) (addr +
      4 * k)) ∧ d1 = ((rxFrame s.dev r.port).start (.session j)).inc (HOST.SESS_REQ_CNT.CNT j)) ∧
    (∃ (s : State) (r : ThpReq) (j : Fin 4) (addr : Nat) (n : Nat), s.dev.up = true ∧ s.dev.Executes r j ∧ (addr % 4 = 0 ∧ 0 < n ∧ n ≤
      256 ∧ 0x01000000 ≤ addr ∧ addr % 4096 + 4 * n ≤ 4096 ∧ s.dev.on MEM.STATUS.DEGRADED = false ∧ s.Sound ∧ (∀ h ∈
      s.dev.integ.half, h.1 ≠ .session j)) ∧ (∀ a, addr ≤ a → inWindow a = true ∧ computedWord s.dev a = none ∨ addr + 4 * n ≤ a)) ∧
    (∃ (s : State) (r : ThpReq) (j : Fin 4) (addr : Nat) (n : Nat), s.dev.up = true ∧ s.dev.Executes r j ∧ (addr % 4 ≠ 0 ∨ n = 0 ∨ 256
      < n)) ∧
    (∃ (s : State) (r : ThpReq) (j : Fin 4) (addr : Nat) (n : Nat), s.dev.up = true ∧ s.dev.Executes r j ∧ (addr % 4 ≠ 0 ∨ n = 0 ∨ 256
      < n)) ∧
    (∃ (s : State) (r : ThpReq) (j : Fin 4) (addr : Nat) (ws : List Word32) (x : DM), s.dev.up = true ∧ s.dev.Executes r j ∧ (s.dev.on
      (HOST.SESS_STAT.WR j) = true ∧ addr % 4 = 0 ∧ 0 < ws.length ∧ ws.length ≤ 256 ∧ addr % 4096 + 4 * ws.length ≤ 4096) ∧ x =
      ws.zipIdx.foldl (fun x w => regWrite (.session j) (addr + 4 * w.2) w.1.toNat x) (((rxFrame s.dev r.port).start (.session
      j)).inc (HOST.SESS_REQ_CNT.CNT j), s.mem) ∧ x.1.on (HOST.SESS_STAT.STATE j) = true) ∧
    (∃ (s : State) (r : ThpReq) (j : Fin 4) (addr : Nat) (ws : List Word32), s.dev.up = true ∧ s.dev.Executes r j ∧ s.dev.on
      (HOST.SESS_STAT.WR j) = false ∧ addr % 4 = 0 ∧ 0 < ws.length ∧ ws.length ≤ 256) ∧
    (∃ (s : State) (r : ThpReq) (j : Fin 4) (addr : Nat) (len : Nat), s.dev.up = true ∧ s.dev.Executes r j ∧ 1 ≤ minorOf s.dev j ∧
      addr % 8 = 0 ∧ len % 8 = 0 ∧ 0 < len ∧ len ≤ 1024 ∧ 0x400000000 ≤ addr ∧ addr + len ≤ 0x7E0000000 ∧ s.dev.on
      MEM.STATUS.DEGRADED = false ∧ (∀ h ∈ s.dev.integ.half, h.1 ≠ .session j) ∧ s.Sound) ∧
    (∃ (s : State) (r : ThpReq) (j : Fin 4) (addr : Nat) (data : List Byte), s.dev.up = true ∧ s.dev.Executes r j ∧ 1 ≤ minorOf s.dev
      j ∧ addr % 8 = 0 ∧ data.length % 8 = 0 ∧ 0 < data.length ∧ data.length ≤ 1024 ∧ 0x400000000 ≤ addr ∧ addr + data.length ≤
      0x7E0000000 ∧ s.dev.on MEM.STATUS.DEGRADED = false ∧ (∀ h ∈ s.dev.integ.half, h.1 ≠ .session j) ∧ s.dev.on
      (HOST.SESS_STAT.WR j) = true) ∧
    (∃ (s : State) (r : ThpReq) (j : Fin 4) (addr : Nat) (data : List Byte), s.dev.up = true ∧ s.dev.Executes r j ∧ 1 ≤ minorOf s.dev
      j ∧ addr % 8 = 0 ∧ data.length % 8 = 0 ∧ 0 < data.length ∧ data.length ≤ 1024 ∧ 0x400000000 ≤ addr ∧ addr + data.length ≤
      0x7E0000000 ∧ s.dev.on MEM.STATUS.DEGRADED = false ∧ (∀ h ∈ s.dev.integ.half, h.1 ≠ .session j) ∧ s.dev.on
      (HOST.SESS_STAT.WR j) = false) ∧
    (∃ (s : State) (r : ThpReq) (j : Fin 4) (addr : Nat) (len : Nat) (data : List Byte), s.dev.up = true ∧ s.dev.Executes r j ∧
      data.length = len ∧ addr % 8 = 0 ∧ len % 8 = 0 ∧ 0 < len ∧ len ≤ 1024 ∧ minorOf s.dev j = 0) ∧
    (∃ (s : State) (r : ThpReq) (j : Fin 4) (addr : Nat) (len : Nat) (data : List Byte), s.dev.up = true ∧ s.dev.Executes r j ∧
      data.length = len ∧ addr % 8 = 0 ∧ len % 8 = 0 ∧ 0 < len ∧ len ≤ 1024 ∧ 1 ≤ minorOf s.dev j ∧ addr < 0x01000000) ∧
    (∃ (s : State) (r : ThpReq) (j : Fin 4) (addr : Nat) (len : Nat) (data : List Byte), s.dev.up = true ∧ s.dev.Executes r j ∧
      data.length = len ∧ addr % 8 = 0 ∧ len % 8 = 0 ∧ 0 < len ∧ len ≤ 1024 ∧ 1 ≤ minorOf s.dev j ∧ 0x400000000 ≤ addr ∧ addr +
      len ≤ 0x7E0000000 ∧ s.dev.on MEM.STATUS.DEGRADED = true) ∧
    (∃ (s : State) (r : ThpReq) (j : Fin 4) (ring : Bool) (ranges : List (Nat × Nat)), s.dev.up = true ∧ s.dev.Executes r j ∧ ranges ≠
      [] ∧ ranges.length ≤ 16 ∧ ring = true ∧ minorOf s.dev j < 2) ∧
    (∃ (s : State) (r : ThpReq) (j : Fin 4) (ring : Bool) (ranges : List (Nat × Nat)), s.dev.up = true ∧ s.dev.Executes r j ∧ ranges ≠
      [] ∧ ranges.length ≤ 16 ∧ ring = false ∧ ¬(∀ q ∈ ranges, 1 ≤ q.2 ∧ q.2 ≤ 1024 ∧ q.1 % 4 = 0 ∧ q.1 % 4096 + 4 * q.2 ≤ 4096 :
      Prop)) ∧
    (∃ (s : State) (r : ThpReq) (j : Fin 4) (ring : Bool) (ranges : List (Nat × Nat)), s.dev.up = true ∧ s.dev.Executes r j ∧ ranges ≠
      [] ∧ ranges.length ≤ 16 ∧ (ring = true → 2 ≤ minorOf s.dev j ∧ s.dev.isPuppeteer = true) ∧ (∀ q ∈ ranges, 1 ≤ q.2 ∧ q.2 ≤
      1024 ∧ q.1 % 4 = 0 ∧ q.1 % 4096 + 4 * q.2 ≤ 4096 : Prop) ∧ s.dev.snap.jobs = []) ∧
    (∃ (s : State) (r : ThpReq) (j : Fin 4) (ring : Bool) (ranges : List (Nat × Nat)), s.dev.up = true ∧ s.dev.Executes r j ∧ ranges ≠
      [] ∧ ranges.length ≤ 16 ∧ ring = false ∧ (∀ q ∈ ranges, 1 ≤ q.2 ∧ q.2 ≤ 1024 ∧ q.1 % 4 = 0 ∧ q.1 % 4096 + 4 * q.2 ≤ 4096 :
      Prop) ∧ (∃ q ∈ s.dev.snap.jobs, q.sess.map Prod.fst = some j.val)) ∧
    (∃ (s : State) (r : ThpReq) (j : Fin 4) (ring : Bool) (ranges : List (Nat × Nat)), s.dev.up = true ∧ s.dev.Executes r j ∧ ranges ≠
      [] ∧ ranges.length ≤ 16 ∧ (ring = true → 2 ≤ minorOf s.dev j ∧ s.dev.isPuppeteer = true) ∧ (∀ q ∈ ranges, 1 ≤ q.2 ∧ q.2 ≤
      1024 ∧ q.1 % 4 = 0 ∧ q.1 % 4096 + 4 * q.2 ≤ 4096 : Prop) ∧ s.dev.snap.jobs = []) ∧
    (∃ (s : State) (r : ThpReq) (j : Fin 4) (ring : Bool) (ranges : List (Nat × Nat)), s.dev.up = true ∧ s.dev.Executes r j ∧ ranges ≠
      [] ∧ ranges.length ≤ 16 ∧ ring = true ∧ 2 ≤ minorOf s.dev j ∧ (∀ q ∈ ranges, 1 ≤ q.2 ∧ q.2 ≤ 1024 ∧ q.1 % 4 = 0 ∧ q.1 % 4096
      + 4 * q.2 ≤ 4096 : Prop) ∧ s.dev.isPuppeteer = false) :=
  ⟨⟨hostState 3 [] id, req 1 5 7, 3, FAB.TIMEOUT_US.US.addr, 1, ((rxFrame (hostState 3 [] id).dev (req 1 5 7).port).start (.session
      (3 : Fin 4))).inc (HOST.SESS_REQ_CNT.CNT (3 : Fin 4)), by decide +kernel, (by unfold Dev.Executes; decide +kernel),
      by decide +kernel, (by unfold Dev.PlainWord; decide +kernel), rfl⟩,
   ⟨hostState 3 [] id, req 1 5 7, 3, 4096 * Page.HOST + 4092, 2, ((rxFrame (hostState 3 [] id).dev (req 1 5 7).port).start (.session
      (3 : Fin 4))).inc (HOST.SESS_REQ_CNT.CNT (3 : Fin 4)), by decide +kernel, (by unfold Dev.Executes; decide +kernel),
      by decide +kernel, (by unfold Dev.PlainWord; decide +kernel), rfl⟩,
   ⟨hostState 3 [] id, req 1 5 7, 3, 0x01000000, 1, by decide +kernel, (by unfold Dev.Executes; decide +kernel), by decide +kernel,
      (fun a ha => (Nat.lt_or_ge a 0x01000004).elim (fun h => .inl (by obtain ⟨k, rfl⟩ := Nat.exists_eq_add_of_le ha; exact (by decide +kernel : ∀ k < 4, inWindow (0x01000000 + k) = true ∧ computedWord (hostState 3 [] id).dev (0x01000000 + k) = none) k (by omega))) .inr)⟩,
   ⟨hostState 3 [] id, req 1 5 7, 3, 2, 1, by decide +kernel, (by unfold Dev.Executes; decide +kernel), by decide +kernel⟩,
   ⟨hostState 3 [] id, req 1 5 7, 3, 4, 257, by decide +kernel, (by unfold Dev.Executes; decide +kernel), by decide +kernel⟩,
   ⟨hostState 3 [(HOST.SESS_STAT.WR 3, 1)] id, req 1 5 7, 3, FAB.TIMEOUT_US.US.addr, [5], [(5 : Word32)].zipIdx.foldl (fun x w =>
      regWrite (.session (3 : Fin 4)) (FAB.TIMEOUT_US.US.addr + 4 * w.2) w.1.toNat x) (((rxFrame (hostState 3 [(HOST.SESS_STAT.WR
      3, 1)] id).dev (req 1 5 7).port).start (.session (3 : Fin 4))).inc (HOST.SESS_REQ_CNT.CNT (3 : Fin 4)), (hostState 3
      [(HOST.SESS_STAT.WR 3, 1)] id).mem), by decide +kernel, (by unfold Dev.Executes; decide +kernel), by decide +kernel, rfl,
      by decide +kernel⟩,
   ⟨hostState 3 [] id, req 1 5 7, 3, FAB.TIMEOUT_US.US.addr, [5], by decide +kernel, (by unfold Dev.Executes; decide +kernel),
      by decide +kernel⟩,
   ⟨hostState 3 [] id, req 1 5 7, 3, 0x7DFFFFFF8, 8, by decide +kernel, (by unfold Dev.Executes; decide +kernel), by decide +kernel⟩,
   ⟨hostState 3 [(HOST.SESS_STAT.WR 3, 1)] id, req 1 5 7, 3, 0x400000000, [1, 2, 3, 4, 5, 6, 7, 8], by decide +kernel,
      (by unfold Dev.Executes; decide +kernel), by decide +kernel⟩,
   ⟨hostState 3 [] id, req 1 5 7, 3, 0x400000000, [1, 2, 3, 4, 5, 6, 7, 8], by decide +kernel,
      (by unfold Dev.Executes; decide +kernel), by decide +kernel⟩,
   ⟨hostState 3 [(HOST.SESS_STAT.VER 3, 0x30)] id, req 1 5 7, 3, 0x400000000, 8, [1, 2, 3, 4, 5, 6, 7, 8], by decide +kernel,
      (by unfold Dev.Executes; decide +kernel), by decide +kernel⟩,
   ⟨hostState 3 [] id, req 1 5 7, 3, 0x00FFFFF8, 8, [1, 2, 3, 4, 5, 6, 7, 8], by decide +kernel,
      (by unfold Dev.Executes; decide +kernel), by decide +kernel⟩,
   ⟨hostState 3 [(MEM.STATUS.DEGRADED, 1)] id, req 1 5 7, 3, 0x7DFFFFFF8, 8, [1, 2, 3, 4, 5, 6, 7, 8], by decide +kernel,
      (by unfold Dev.Executes; decide +kernel), by decide +kernel⟩,
   ⟨hostState 3 [(HOST.SESS_STAT.VER 3, 0x31)] id, req 1 5 7, 3, true, [(0, 1)], by decide +kernel,
      (by unfold Dev.Executes; decide +kernel), by decide +kernel⟩,
   ⟨hostState 3 [] id, req 1 5 7, 3, false, [(0, 1025)], by decide +kernel, (by unfold Dev.Executes; decide +kernel),
      by decide +kernel⟩,
   ⟨hostState 3 [] id, req 1 5 7, 3, true, [(0, 1024)], by decide +kernel, (by unfold Dev.Executes; decide +kernel),
      by decide +kernel⟩,
   ⟨stOf { (hostState 3 [] id).dev with snap := ⟨false, 5, [], [], [⟨some (3, 6), false, 5, false, true, [(0, 1)]⟩]⟩ }, req 1 5 7, 3,
      false, [(0, 1024)], by decide +kernel, (by unfold Dev.Executes; decide +kernel), by decide +kernel⟩,
   ⟨hostState 3 [] id, req 1 5 7, 3, false, [(0, 1024), (4092, 1)], by decide +kernel, (by unfold Dev.Executes; decide +kernel),
      by decide +kernel⟩,
   ⟨hostState 3 [(TWIN.STATUS.STATE, 4)] id, req 1 5 7, 3, true, [(0, 1024)], by decide +kernel,
      (by unfold Dev.Executes; decide +kernel), by decide +kernel⟩⟩

theorem wit_TagStreamJobsAndFailover :
    (∃ (s : State), s.dev.up = true ∧ tagSession s.dev = none) ∧
    (∃ (s : State) (j : Fin 4) (x : StreamRec) (n : Nat) (f : Nat), s.dev.up = true ∧ tagSession s.dev = some j.val ∧ s.dev.isActive =
      true ∧ portUp s.dev (s.dev.rd (HOST.SESS_STAT.CUR j)) = true ∧ s.dev.tags.retx = [] ∧ s.dev.tags.waiting = [x] ∧
      x.words.length ≤ 368 ∧ x.tagOf = none ∧ (∀ e ∈ s.dev.tags.kept, e.2.uid ≠ x.uid) ∧ n = s.dev.rd TAG.SSEQ.NEXT ∧ f =
      (s.dev.host.sess[j].frameSeq.find? fun e => e.1 == (1, s.dev.rd (HOST.SESS_STAT.CUR j))).elim 0 Prod.snd) ∧
    (∃ (s : State) (j : Fin 4) (q : Nat) (x : StreamRec), s.dev.up = true ∧ tagSession s.dev = some j.val ∧ s.dev.isActive = true ∧
      portUp s.dev (s.dev.rd (HOST.SESS_STAT.CUR j)) = true ∧ s.dev.tags.retx = [q] ∧ s.dev.tags.waiting = [] ∧
      s.dev.tags.kept.find? (fun e => e.1 == q) = some (q, x) ∧ x.words.length ≤ 368) ∧
    (∃ (s : State) (r : ThpReq) (j : Fin 4) (q : Nat), s.dev.up = true ∧ s.dev.Executes r j ∧ tagSession s.dev = some j.val ∧
      s.dev.tags.acked = none ∧ q < s.dev.rd TAG.SSEQ.NEXT ∧ s.dev.rd TAG.SSEQ.NEXT < 2 ^ 32 ∧ (∀ e ∈ s.dev.tags.kept, e.1 < 2 ^
      32)) ∧
    (∃ (s : State) (r : ThpReq) (j : Fin 4) (q : Nat) (a : Nat), s.dev.up = true ∧ s.dev.Executes r j ∧ tagSession s.dev = some j.val
      ∧ s.dev.tags.acked = some a ∧ q ≤ a ∧ a < s.dev.rd TAG.SSEQ.NEXT ∧ s.dev.rd TAG.SSEQ.NEXT < 2 ^ 32) ∧
    (∃ (s : State) (r : ThpReq) (j : Fin 4) (q : Nat) (a : Nat), s.dev.up = true ∧ s.dev.Executes r j ∧ tagSession s.dev = some j.val
      ∧ s.dev.tags.acked = some a ∧ q ≤ a ∧ a < s.dev.rd TAG.SSEQ.NEXT ∧ s.dev.rd TAG.SSEQ.NEXT < 2 ^ 32) ∧
    (∃ (s : State) (r : ThpReq) (j : Fin 4) (a : Nat) (b : Nat), s.dev.up = true ∧ s.dev.Executes r j ∧ tagSession s.dev = some j.val
      ∧ 2 ≤ minorOf s.dev j ∧ s.dev.tags.acked = none ∧ a ≤ b ∧ b < s.dev.rd TAG.SSEQ.NEXT ∧ s.dev.rd TAG.SSEQ.NEXT < 2 ^ 32 ∧
      s.dev.tags.kept.map Prod.fst = (List.range (s.dev.rd TAG.SSEQ.NEXT)) ∧ s.dev.tags.retx = []) ∧
    (∃ (s : State) (r : ThpReq) (j : Fin 4) (a : Nat) (b : Nat), s.dev.up = true ∧ s.dev.Executes r j ∧ tagSession s.dev = some j.val
      ∧ 2 ≤ minorOf s.dev j ∧ s.dev.tags.acked = none ∧ a ≤ b ∧ b < s.dev.rd TAG.SSEQ.NEXT ∧ s.dev.rd TAG.SSEQ.NEXT < 2 ^ 32 ∧
      s.dev.tags.kept.map Prod.fst = (List.range (s.dev.rd TAG.SSEQ.NEXT)) ∧ s.dev.tags.retx = []) ∧
    (∃ (s : State) (r : ThpReq) (j : Fin 4) (q : Nat), s.dev.up = true ∧ s.dev.Executes r j ∧ tagSession s.dev = some j.val ∧ 2 ≤
      minorOf s.dev j ∧ s.dev.tags.acked = none ∧ q < s.dev.rd TAG.SSEQ.NEXT ∧ s.dev.rd TAG.SSEQ.NEXT < 2 ^ 32 ∧ (∀ e ∈
      s.dev.tags.kept, q < e.1 ∧ e.1 < 2 ^ 32)) ∧
    (∃ (s : State) (r : ThpReq) (j : Fin 4) (q : Nat), s.dev.up = true ∧ s.dev.Executes r j ∧ tagSession s.dev = some j.val ∧ 2 ≤
      minorOf s.dev j ∧ s.dev.tags.acked = none ∧ q < s.dev.rd TAG.SSEQ.NEXT ∧ s.dev.rd TAG.SSEQ.NEXT < 2 ^ 32 ∧ (∀ e ∈
      s.dev.tags.kept, q < e.1 ∧ e.1 < 2 ^ 32)) ∧
    (∃ (s : State) (r : ThpReq) (j : Fin 4) (desc : List Byte) (t : Nat), s.dev.up = true ∧ s.dev.Executes r j ∧ 1 ≤ minorOf s.dev j ∧
      t = s.dev.rd ZCTL.JQ_TAIL.IDX ∧ desc.length = 32 ∧ s.dev.on (HOST.SESS_STAT.JOB j) = true ∧ (t + 1) % 256 ≠ s.dev.rd
      ZCTL.JQ_HEAD.IDX) ∧
    (∃ (s : State) (r : ThpReq) (j : Fin 4) (desc : List Byte) (t : Nat), s.dev.up = true ∧ s.dev.Executes r j ∧ 1 ≤ minorOf s.dev j ∧
      t = s.dev.rd ZCTL.JQ_TAIL.IDX ∧ desc.length = 32 ∧ s.dev.on (HOST.SESS_STAT.JOB j) = false) ∧
    (∃ (s : State) (r : ThpReq) (j : Fin 4) (desc : List Byte) (t : Nat), s.dev.up = true ∧ s.dev.Executes r j ∧ 1 ≤ minorOf s.dev j ∧
      t = s.dev.rd ZCTL.JQ_TAIL.IDX ∧ desc.length = 32 ∧ s.dev.on (HOST.SESS_STAT.JOB j) = true ∧ (t + 1) % 256 = s.dev.rd
      ZCTL.JQ_HEAD.IDX) ∧
    (∃ (s : State) (r : ThpReq) (j : Fin 4) (desc : List Byte) (t : Nat), s.dev.up = true ∧ s.dev.Executes r j ∧ 1 ≤ minorOf s.dev j ∧
      t = s.dev.rd ZCTL.JQ_TAIL.IDX ∧ desc.length ≠ 32) ∧
    (∃ (s : State) (r : ThpReq) (j : Fin 4) (slot : Nat) (idx : Nat), s.dev.up = true ∧ s.dev.Executes r j ∧ 1 ≤ minorOf s.dev j ∧
      s.dev.on (HOST.SESS_STAT.JOB j) = true ∧ s.dev.arch.cq = [(slot, idx, false)]) ∧
    (∃ (s : State) (slot : Nat) (idx : Nat) (j : Nat), s.dev.up = true ∧ s.dev.arch.cq = [(slot, idx, false)] ∧ jobSession s.dev =
      some j ∧ s.dev.past (.jobDone slot) (10 * oneMs) = true) ∧
    (∃ (s : State) (slot : Nat) (idx : Nat), s.dev.up = true ∧ s.dev.arch.cq = [(slot, idx, false)] ∧ (jobSession s.dev = none ∨
      s.dev.past (.jobDone slot) (10 * oneMs) = false)) ∧
    (∃ (s : State) (p : Fin 2), s.dev.up = true ∧ portUp s.dev p = false) ∧
    (∃ (s : State) (p : Fin 2), s.dev.up = true ∧ portUp s.dev p = true ∧ portUp s.dev (1 - p.val) = false) ∧
    (∃ (s : State) (p : Fin 2) (j : Fin 4), s.dev.up = true ∧ portUp s.dev p = true ∧ portUp s.dev (1 - p.val) = true ∧ openSessions
      s.dev = [j.val] ∧ s.dev.rd (HOST.SESS_STAT.CUR j) = p ∧ bitOf (s.dev.rd (HOST.SESS_STAT.STREAMS j)) 1 = true) ∧
    (∃ (s : State) (p : Fin 2) (j : Fin 4), s.dev.up = true ∧ portUp s.dev p = true ∧ portUp s.dev (1 - p.val) = true ∧ openSessions
      s.dev = [j.val] ∧ s.dev.rd (HOST.SESS_STAT.CUR j) = p ∧ bitOf (s.dev.rd (HOST.SESS_STAT.STREAMS j)) 1 = true) ∧
    (∃ (s : State) (p : Fin 2), s.dev.up = true ∧ portUp s.dev p = false ∧ s.dev.on (if p = 0 then HOST.CTL.HA_EN else HOST.CTL.HB_EN)
      = true ∧ cageDark s.dev (16 + p.val) = false ∧ dormant s.dev = false) ∧
    (∃ (s : State) (p : Fin 2), s.dev.up = true ∧ portUp s.dev p = false ∧ s.dev.on (if p = 0 then HOST.CTL.HA_EN else HOST.CTL.HB_EN)
      = true ∧ cageDark s.dev (16 + p.val) = false ∧ dormant s.dev = false) ∧
    (∃ (s : State) (p : Fin 2), s.dev.up = true ∧ portUp s.dev p = false ∧ s.dev.on (if p = 0 then HOST.CTL.HA_EN else HOST.CTL.HB_EN)
      = false) ∧
    (∃ (s : State) (j : Fin 4) (t : Nat), s.dev.up = true ∧ s.dev.on (HOST.SESS_STAT.STATE j) = true ∧ s.dev.rd (HOST.SESS_STAT.CUR j)
      ≠ s.dev.rd (HOST.SESS_STAT.HOME j) ∧ portUp s.dev (s.dev.rd (HOST.SESS_STAT.HOME j)) = true ∧ s.dev.host.upAt.find? (fun e
      => e.1 == s.dev.rd (HOST.SESS_STAT.HOME j)) = some (s.dev.rd (HOST.SESS_STAT.HOME j), t) ∧ t + 16000000000 ≤ s.dev.now) ∧
    (∃ (s : State) (j : Fin 4) (t : Nat), s.dev.up = true ∧ s.dev.on (HOST.SESS_STAT.STATE j) = true ∧ s.dev.rd (HOST.SESS_STAT.CUR j)
      ≠ s.dev.rd (HOST.SESS_STAT.HOME j) ∧ portUp s.dev (s.dev.rd (HOST.SESS_STAT.HOME j)) = true ∧ s.dev.host.upAt.find? (fun e
      => e.1 == s.dev.rd (HOST.SESS_STAT.HOME j)) = some (s.dev.rd (HOST.SESS_STAT.HOME j), t) ∧ s.dev.now < t + 16000000000) :=
  ⟨⟨State.reset, by decide +kernel⟩,
   ⟨streamState [(TAG.HQ_DEPTH.N, 1)] fun t => { t with waiting := [record 77], kept := [(3, record 76)] }, 3, record 77, 4, 0,
      by decide +kernel⟩,
   ⟨streamState [] fun t => { t with kept := [(2, record 75), (3, record 76)], retx := [3] }, 3, 3, record 76, by decide +kernel⟩,
   ⟨streamState [] fun t => { t with kept := [(2, record 75), (3, record 76)] }, req 1 5 7, 3, 2, by decide +kernel,
      (by unfold Dev.Executes; decide +kernel), by decide +kernel⟩,
   ⟨streamState [] fun t => { t with kept := [(3, record 76)], acked := some 2 }, req 1 5 7, 3, 1, 2, by decide +kernel,
      (by unfold Dev.Executes; decide +kernel), by decide +kernel⟩,
   ⟨streamState [] fun t => { t with kept := [(3, record 76)], acked := some 2 }, req 1 5 7, 3, 2, 2, by decide +kernel,
      (by unfold Dev.Executes; decide +kernel), by decide +kernel⟩,
   ⟨streamState [(TAG.SSEQ.NEXT, 3)] fun t => { t with kept := [(0, record 75), (1, record 76), (2, record 77)] }, req 1 5 7, 3, 1,
      2, by decide +kernel, (by unfold Dev.Executes; decide +kernel), by decide +kernel⟩,
   ⟨streamState [(TAG.SSEQ.NEXT, 3)] fun t => { t with kept := [(0, record 75), (1, record 76), (2, record 77)] }, req 1 5 7, 3, 0,
      0, by decide +kernel, (by unfold Dev.Executes; decide +kernel), by decide +kernel⟩,
   ⟨streamState [] fun t => { t with kept := [(3, record 76)] }, req 1 5 7, 3, 2, by decide +kernel,
      (by unfold Dev.Executes; decide +kernel), by decide +kernel⟩,
   ⟨streamState [] fun t => { t with kept := [(3, record 76)] }, req 1 5 7, 3, 0, by decide +kernel,
      (by unfold Dev.Executes; decide +kernel), by decide +kernel⟩,
   ⟨hostState 3 [(HOST.SESS_STAT.JOB 3, 1), (ZCTL.JQ_TAIL.IDX, 255), (ZCTL.JQ_HEAD.IDX, 255)] id, req 1 5 7, 3, List.replicate 32 7,
      255, by decide +kernel, (by unfold Dev.Executes; decide +kernel), by decide +kernel⟩,
   ⟨hostState 3 [] id, req 1 5 7, 3, List.replicate 32 7, 0, by decide +kernel, (by unfold Dev.Executes; decide +kernel),
      by decide +kernel⟩,
   ⟨hostState 3 [(HOST.SESS_STAT.JOB 3, 1), (ZCTL.JQ_TAIL.IDX, 255)] id, req 1 5 7, 3, List.replicate 32 7, 255, by decide +kernel,
      (by unfold Dev.Executes; decide +kernel), by decide +kernel⟩,
   ⟨hostState 3 [(HOST.SESS_STAT.JOB 3, 1)] id, req 1 5 7, 3, [], 0, by decide +kernel, (by unfold Dev.Executes; decide +kernel),
      by decide +kernel⟩,
   ⟨stOf ((hostState 3 [(HOST.SESS_STAT.JOB 3, 1), (ZCTL.CQ_HEAD.IDX, 255)] id).dev.updArch fun a =>
      { a with cq := [(255, 9, false)] }), req 1 5 7, 3, 255, 9, by decide +kernel, (by unfold Dev.Executes; decide +kernel),
      by decide +kernel⟩,
   ⟨stOf ((hostState 3 [(HOST.SESS_STAT.JOB 3, 1)] id).dev.updArch fun a => { a with cq := [(255, 9, false)] }), 255, 9, 3,
      by decide +kernel⟩,
   ⟨stOf ((hostState 3 [] id).dev.updArch fun a => { a with cq := [(255, 9, false)] }), 255, 9, by decide +kernel⟩,
   ⟨hostState 3 [(HOST.STATUS.HA_UP, 0)] id, 0, by decide +kernel⟩,
   ⟨hostState 3 [(HOST.STATUS.HA_UP, 0)] id, 1, by decide +kernel⟩,
   ⟨stOf ((hostState 3 [(HOST.SESS_STAT.CUR 3, 1), (HOST.SESS_STAT.HOME 3, 1), (HOST.SESS_STAT.STREAMS 3, 2)] id).dev.updTags fun t
      => { t with kept := [(0, record 7)], retx := [0] }), 1, 3, by decide +kernel⟩,
   ⟨hostState 3 [(HOST.SESS_STAT.HOME 3, 1), (HOST.SESS_STAT.STREAMS 3, 2)] id, 0, 3, by decide +kernel⟩,
   ⟨hostState 3 [(HOST.STATUS.HA_UP, 0)] fun h => { h with upAt := [(0, 0)] }, 0, by decide +kernel⟩,
   ⟨hostState 3 [(HOST.STATUS.HA_UP, 0), (HOST.STATUS.HB_UP, 0)] id, 1, by decide +kernel⟩,
   ⟨hostState 3 [(HOST.STATUS.HB_UP, 0), (HOST.CTL.HB_EN, 0)] id, 1, by decide +kernel⟩,
   ⟨stOf { (hostState 3 [(HOST.SESS_STAT.HOME 3, 1)] fun h => { h with upAt := [(1, 5)] }).dev with time := ⟨16000000005, 0, 0⟩ }, 3,
      5, by decide +kernel⟩,
   ⟨stOf { (hostState 3 [(HOST.SESS_STAT.HOME 3, 1)] fun h => { h with upAt := [(1, 5)] }).dev with time := ⟨16000000004, 0, 0⟩ }, 3,
      5, by decide +kernel⟩⟩

/-! ## Serial port -/

/-- The command word of OP, address and INC, with odd parity (Table 14.3). -/
def spiCmd (op a inc : Nat) : Nat :=
  let w := op * 2 ^ 30 + a + 2 * inc
  if popCount 32 w % 2 = 1 then w else w + 1
def spiState (l : List (Fld × Nat)) (g : SpiSt → SpiSt) : State :=
  let d := (dev l).updSpi g
  stOf { d with pw := { d.pw with started := true } }
def spiFrame (op a inc slots : Nat) (g : SpiFrame → SpiFrame) : SpiFrame :=
  g { ignored := false, cmd := spiCmd op a inc, ok := true, slots := slots, last := 7, words := [], under := false }

theorem wit_SpiCommandErrorsMakeNoAccess :
    (∃ (s : State) (high : Bool) (ready : Bool) (c : Word32) (i : _), (s.dev.up = true ∧ s.dev.pw.started = true ∧ s.dev.spi.frame =
      none ∧ (s.dev.rd MGMT.SLV_CFG.MODE = 1 → high = false) ∧ (s.dev.rd MGMT.SLV_CFG.MODE = 2 → high = true) ∧ (popCount 32
      c.toNat % 2 = 0 ∨ 2 ≤ bitsOf c.toNat 30 2 ∨ bitsOf c.toNat 28 2 ≠ 0)) ∧ i ∈ [Instr.spiRead high c ready, .spiWrite high c]) ∧
    (∃ (s : State) (high : Bool) (ready : Bool) (c : Word32) (i : _), (s.dev.up = true ∧ s.dev.pw.started = true ∧ s.dev.spi.frame =
      none ∧ (s.dev.rd MGMT.SLV_CFG.MODE = 1 → high = false) ∧ (s.dev.rd MGMT.SLV_CFG.MODE = 2 → high = true) ∧ (popCount 32
      c.toNat % 2 = 0 ∨ 2 ≤ bitsOf c.toNat 30 2 ∨ bitsOf c.toNat 28 2 ≠ 0)) ∧ i ∈ [Instr.spiRead high c ready, .spiWrite high c]) ∧
    (∃ (s : State) (high : Bool) (ready : Bool) (c : Word32) (i : _), (s.dev.up = true ∧ s.dev.pw.started = true ∧ s.dev.spi.frame =
      none ∧ (s.dev.rd MGMT.SLV_CFG.MODE = 1 → high = false) ∧ (s.dev.rd MGMT.SLV_CFG.MODE = 2 → high = true) ∧ (popCount 32
      c.toNat % 2 = 0 ∨ 2 ≤ bitsOf c.toNat 30 2 ∨ bitsOf c.toNat 28 2 ≠ 0)) ∧ i ∈ [Instr.spiRead high c ready, .spiWrite high c]) ∧
    (∃ (s : State) (high : Bool) (ready : Bool) (w : Word32) (f : SpiFrame) (i : _), (s.dev.up = true ∧ s.dev.spi.frame = some f ∧
      f.ignored = false ∧ f.ok = false ∧ 1 ≤ f.slots) ∧ i ∈ [Instr.spiRead high w ready, .spiWrite high w]) ∧
    (∃ (s : State) (high : Bool) (ready : Bool) (w : Word32) (f : SpiFrame) (i : _), (s.dev.up = true ∧ s.dev.spi.frame = some f ∧
      f.ignored = false ∧ f.ok = false ∧ 1 ≤ f.slots) ∧ i ∈ [Instr.spiRead high w ready, .spiWrite high w]) :=
  ⟨⟨spiState [] id, true, true, 0, Instr.spiWrite true 0, by decide +kernel, by simp⟩,
   ⟨spiState [(MGMT.SLV_CFG.MODE, 1)] id, false, true, 0xC0000001, Instr.spiRead false 0xC0000001 true, by decide +kernel, by simp⟩,
   ⟨spiState [(MGMT.SLV_CFG.MODE, 2)] id, true, true, 0x10000000, Instr.spiRead true 0x10000000 true, by decide +kernel, by simp⟩,
   ⟨spiState [] fun x => { x with frame := some (spiFrame 1 0 0 1 fun f => { f with ok := false }) }, true, true, 5, spiFrame 1 0 0 1
      fun f => { f with ok := false }, Instr.spiWrite true 5, by decide +kernel, by simp⟩,
   ⟨spiState [] fun x => { x with frame := some (spiFrame 1 0 0 2 fun f => { f with ok := false }) }, true, true, 5, spiFrame 1 0 0 2
      fun f => { f with ok := false }, Instr.spiRead true 5 true, by decide +kernel, by simp⟩⟩

theorem wit_SpiFrameEndsAreRecorded :
    (∃ (s : State), (s.dev.up = true ∧ s.dev.pw.started = true) ∧ (∀ f, s.dev.spi.frame = some f → f.ignored = false)) ∧
    (∃ (s : State), (s.dev.up = true ∧ s.dev.pw.started = true) ∧ (∀ f, s.dev.spi.frame = some f → f.ignored = false)) ∧
    (∃ (s : State), (s.dev.up = true ∧ s.dev.pw.started = true) ∧ (∀ f, s.dev.spi.frame = some f → f.ignored = false)) :=
  ⟨⟨spiState [] fun x => { x with frame := some (spiFrame 1 0 0 5 id) }, by decide +kernel, (fun f h => by cases h; rfl)⟩,
   ⟨spiState [] fun x => { x with frame := some (spiFrame 1 0 0 70000 id) }, by decide +kernel, (fun f h => by cases h; rfl)⟩,
   ⟨spiState [] id, by decide +kernel, (fun f h => by cases h)⟩⟩

theorem wit_SpiFramesAndMaster :
    (∃ (s : State) (high : Bool) (c : Word32) (a : Nat), (s.dev.up = true ∧ s.dev.pw.started = true ∧ s.dev.spi.frame = none ∧
      (s.dev.rd MGMT.SLV_CFG.MODE = 1 → high = false) ∧ (s.dev.rd MGMT.SLV_CFG.MODE = 2 → high = true) ∧ cmdOk c.toNat = true ∧
      cmdRead c.toNat = true ∧ a = cmdAddr c.toNat ∧ a < 0x01000000) ∧ s.dev.PlainWord .spi a) ∧
    (∃ (s : State) (f : SpiFrame) (k : Nat) (v : Nat), s.dev.up = true ∧ s.dev.spi.frame = some f ∧ (f.ignored = false ∧ f.ok = true ∧
      cmdRead f.cmd = true ∧ f.slots = k + 2 ∧ f.words.find? (fun q => q.1 == k) = some (k, v)) ∧ (∀ a, wordAddr f.cmd (k + 2) =
      some a → a < 0x01000000 ∧ s.dev.PlainWord .spi a)) ∧
    (∃ (s : State) (f : SpiFrame) (k : Nat) (v : Nat), (s.dev.up = true ∧ s.dev.spi.frame = some f ∧ f.ignored = false ∧ f.ok = true ∧
      cmdRead f.cmd = true ∧ f.slots = k + 2 ∧ f.words.find? (fun q => q.1 == k) = some (k, v)) ∧ (∀ a, wordAddr f.cmd (k + 2) =
      some a → a < 0x01000000 ∧ s.dev.PlainWord .spi a)) ∧
    (∃ (s : State) (f : SpiFrame) (k : Nat) (a : Nat) (b : Nat), s.dev.up = true ∧ s.dev.spi.frame = some f ∧ f.ignored = false ∧ f.ok
      = true ∧ cmdRead f.cmd = true ∧ f.slots = k + 2 ∧ wordAddr f.cmd k = some a ∧ hbmWindow a = true ∧ wordAddr f.cmd (k + 2) =
      some b ∧ hbmWindow b = true ∧ s.dev.on MEM.STATUS.DEGRADED = false ∧ s.Sound ∧ (∀ h ∈ s.dev.integ.half, h.1 ≠ .spi)) ∧
    (∃ (s : State) (high : Bool) (c : Word32), s.dev.up = true ∧ s.dev.pw.started = true ∧ s.dev.spi.frame = none ∧ (s.dev.rd
      MGMT.SLV_CFG.MODE = 1 → high = false) ∧ (s.dev.rd MGMT.SLV_CFG.MODE = 2 → high = true) ∧ cmdOk c.toNat = true ∧ cmdRead
      c.toNat = false) ∧
    (∃ (s : State) (f : SpiFrame) (k : Nat), s.dev.up = true ∧ s.dev.spi.frame = some f ∧ f.ignored = false ∧ f.ok = true ∧ cmdRead
      f.cmd = false ∧ f.slots = k + 1) ∧
    (∃ (s : State) (f : SpiFrame) (k : Nat), s.dev.up = true ∧ s.dev.spi.frame = some f ∧ f.ignored = false ∧ f.ok = true ∧ cmdRead
      f.cmd = false ∧ f.slots = k + 1) ∧
    (∃ (s : State) (f : SpiFrame) (k : Nat), s.dev.up = true ∧ s.dev.spi.frame = some f ∧ f.ignored = false ∧ f.ok = true ∧ cmdRead
      f.cmd = false ∧ f.slots = k + 1) ∧
    (∃ (s : State) (high : Bool), s.dev.up = true ∧ s.dev.pw.started = true ∧ s.dev.spi.frame = none ∧ (s.dev.rd MGMT.SLV_CFG.MODE = 1
      ∧ high = true ∨ s.dev.rd MGMT.SLV_CFG.MODE = 2 ∧ high = false)) ∧
    (∃ (s : State) (high : Bool), s.dev.up = true ∧ s.dev.pw.started = true ∧ s.dev.spi.frame = none ∧ (s.dev.rd MGMT.SLV_CFG.MODE = 1
      ∧ high = true ∨ s.dev.rd MGMT.SLV_CFG.MODE = 2 ∧ high = false)) ∧
    (∃ (s : State) (f : SpiFrame), s.dev.up = true ∧ s.dev.spi.frame = some f ∧ f.ignored = true) ∧
    (∃ (s : State), s.dev.up = true ∧ s.dev.spi.queue = []) ∧
    (∃ (s : State) (a : Nat) (w : Nat) (rest : List (Nat × Nat)), s.dev.up = true ∧ s.dev.spi.queue = (a, w) :: rest ∧ rest.length <
      16) ∧
    (∃ (s : State), s.dev.up = true ∧ s.dev.pw.started = true ∧ s.dev.spi.frame = none ∧ s.dev.spi.stray = false) ∧
    (∃ (s : State), s.dev.up = true ∧ s.dev.pw.started = true ∧ s.dev.spi.frame = none ∧ s.dev.spi.stray = true) ∧
    (∃ (s : State), s.dev.up = true ∧ s.dev.on MGMT.MST_STAT.BUSY = true) ∧
    (∃ (s : State) (sel : Fin 8), s.dev.up = true ∧ s.dev.on MGMT.MST_STAT.BUSY = false ∧ (∃ n : Fin 2, s.dev.on (THERM.CTL.EN n) =
      true ∧ s.dev.rd (THERM.BIAS.CS n) = sel)) ∧
    (∃ (s : State) (sel : Fin 8), s.dev.up = true ∧ s.dev.on MGMT.MST_STAT.BUSY = false ∧ (∀ n : Fin 2, s.dev.on (THERM.CTL.EN n) =
      true → s.dev.rd (THERM.BIAS.CS n) ≠ sel)) ∧
    (∃ (s : State) (t : MstRun), s.dev.up = true ∧ s.dev.spi.mst = some t ∧ t.waits = true) ∧
    (∃ (s : State) (t : MstRun), s.dev.up = true ∧ s.dev.spi.mst = some t ∧ t.waits = false) ∧
    (∃ (s : State), s.dev.up = true ∧ s.dev.spi.mst = none) :=
  ⟨⟨spiState [] id, true, BitVec.ofNat 32 (spiCmd 1 FAB.TIMEOUT_US.US.addr 1), FAB.TIMEOUT_US.US.addr, by decide +kernel,
      (by unfold Dev.PlainWord; decide +kernel)⟩,
   ⟨spiState [] fun x => { x with frame := some (spiFrame 1 FAB.TIMEOUT_US.US.addr 1 2 fun f => { f with words := [(0, 9)] }) },
      spiFrame 1 FAB.TIMEOUT_US.US.addr 1 2 fun f => { f with words := [(0, 9)] }, 0, 9, by decide +kernel, by decide +kernel,
      by decide +kernel, (fun a h => by cases h; unfold Dev.PlainWord; decide +kernel)⟩,
   ⟨spiState [] fun x => { x with frame := some (spiFrame 1 (4096 * Page.FAB + 4084) 1 3 fun f => { f with words := [(1, 9)] }) },
      spiFrame 1 (4096 * Page.FAB + 4084) 1 3 fun f => { f with words := [(1, 9)] }, 1, 9, by decide +kernel,
      (fun a h => by cases h)⟩,
   ⟨spiState [] fun x => { x with frame := some (spiFrame 1 0x02000000 0 2 fun f => { f with words := [(0, 9)] }) }, spiFrame 1
      0x02000000 0 2 fun f => { f with words := [(0, 9)] }, 0, 0x02000000, 0x02000000, by decide +kernel⟩,
   ⟨spiState [] id, true, BitVec.ofNat 32 (spiCmd 0 FAB.TIMEOUT_US.US.addr 1), by decide +kernel⟩,
   ⟨spiState [] fun x => { x with frame := some (spiFrame 0 FAB.TIMEOUT_US.US.addr 1 1 id), queue := List.replicate 15 (0, 0) },
      spiFrame 0 FAB.TIMEOUT_US.US.addr 1 1 id, 0, by decide +kernel⟩,
   ⟨spiState [] fun x => { x with frame := some (spiFrame 0 FAB.TIMEOUT_US.US.addr 1 2 id), queue := List.replicate 16 (0, 0) },
      spiFrame 0 FAB.TIMEOUT_US.US.addr 1 2 id, 1, by decide +kernel⟩,
   ⟨spiState [] fun x => { x with frame := some (spiFrame 0 4092 1 2 id) }, spiFrame 0 4092 1 2 id, 1, by decide +kernel⟩,
   ⟨spiState [(MGMT.SLV_CFG.MODE, 1)] id, true, by decide +kernel⟩,
   ⟨spiState [(MGMT.SLV_CFG.MODE, 2)] id, false, by decide +kernel⟩,
   ⟨spiState [] fun x => { x with frame := some (spiFrame 0 4092 1 0 fun f => { f with ignored := true }) }, spiFrame 0 4092 1 0 fun
      f => { f with ignored := true }, by decide +kernel⟩,
   ⟨State.reset, by decide +kernel⟩,
   ⟨spiState [(MGMT.WR_QUEUE.N, 1)] fun x => { x with queue := [(FAB.TIMEOUT_US.US.addr, 9)] }, FAB.TIMEOUT_US.US.addr, 9, [],
      by decide +kernel⟩,
   ⟨spiState [] id, by decide +kernel⟩,
   ⟨spiState [] fun x => { x with stray := true }, by decide +kernel⟩,
   ⟨st [(MGMT.MST_STAT.BUSY, 1)], by decide +kernel⟩,
   ⟨st [(THERM.CTL.EN 1, 1), (THERM.BIAS.CS 1, 7)], 7, by decide +kernel⟩,
   ⟨st [(THERM.CTL.EN 1, 1), (THERM.BIAS.CS 1, 7), (MGMT.MST_SEL.BITS 6, 32)], 6, by decide +kernel⟩,
   ⟨spiState [] fun x => { x with mst := some ⟨7, 16, 0x12345, true⟩ }, ⟨7, 16, 0x12345, true⟩, by decide +kernel⟩,
   ⟨spiState [] fun x => { x with mst := some ⟨7, 16, 0x12345, false⟩ }, ⟨7, 16, 0x12345, false⟩, by decide +kernel⟩,
   ⟨State.reset, by decide +kernel⟩⟩

/-! ## Twin and ring -/

/-- A twin in pair state `x`, its link up. -/
def twinState (x : Nat) (l : List (Fld × Nat)) (g : TwinSt → TwinSt := id) : State :=
  stOf ((dev ([(TWIN.CTL.EN, 1), (TWIN.STATUS.LINK_UP, 1), (TWIN.STATUS.STATE, x)] ++ l)).updTwin g)
/-- A module of a ring in ring state `x`, both hops up. -/
def ringSt (x : Nat) (l : List (Fld × Nat)) (g : RingSt → RingSt := id) : State :=
  stOf ((dev ([(STRING.CFG.EN, 1), (STRING.STATUS.IN_UP, 1), (STRING.STATUS.OUT_UP, 1), (STRING.STATUS.RING_STATE, x)] ++ l)).updRing g)
def ringMod (pos state : Nat) : RingMod := ⟨pos, pos / 2, pos % 2, state, some 1, none⟩
def topoRec (pos : Nat) (mine : Bool) : TopoRec := ⟨pos, pos / 2, pos % 2, 3, mine, 1, false, false⟩
def strMsg (src : Nat) : StrMsg := ⟨3, true, false, false, 5, src, 9, []⟩
def lineDigest : LineDigest := ⟨9, [], [], []⟩
/-- A state with the digest of line 9 settled. -/
def digestState (x : Nat) (g : TwinSt → TwinSt := id) : State :=
  stOf ((twinState x [] g).dev.updSeg fun q => { q with digests := [lineDigest] })
def twinImage : TwinImage := ⟨[blob 4 id], [], [], 7, 5, [], [], [], [], [mslot 7 .armed none], 9, -5, 2 ^ 32 - 1, some 3, []⟩

theorem wit_PairsFormAndTheGateDecides :
    (∃ (s : State) (sideB : Bool), s.dev.up = true ∧ s.dev.on TWIN.CTL.EN = true ∧ s.dev.rd TWIN.STATUS.STATE = 1 ∧ sideB = s.dev.on
      TWIN.STATUS.SIDE) ∧
    (∃ (s : State) (sideB : Bool) (takeOut : Bool), s.dev.up = true ∧ s.dev.on TWIN.CTL.EN = true ∧ s.dev.rd TWIN.STATUS.STATE = 1 ∧
      sideB ≠ s.dev.on TWIN.STATUS.SIDE ∧ takeOut ≠ s.dev.on TWIN.STATUS.TAKE_IN) ∧
    (∃ (s : State) (sideB : Bool) (takeOut : Bool) (state : Nat), s.dev.up = true ∧ s.dev.on TWIN.CTL.EN = true ∧ s.dev.rd
      TWIN.STATUS.STATE = 1 ∧ sideB ≠ s.dev.on TWIN.STATUS.SIDE ∧ takeOut = s.dev.on TWIN.STATUS.TAKE_IN ∧ state = 6) ∧
    (∃ (s : State) (sideB : Bool) (takeOut : Bool) (state : Nat), s.dev.up = true ∧ s.dev.on TWIN.CTL.EN = true ∧ s.dev.rd
      TWIN.STATUS.STATE = 1 ∧ sideB ≠ s.dev.on TWIN.STATUS.SIDE ∧ takeOut = s.dev.on TWIN.STATUS.TAKE_IN ∧ (state = 3 ∨ state = 1
      ∧ s.dev.on TWIN.STATUS.SIDE = true)) ∧
    (∃ (s : State) (sideB : Bool) (takeOut : Bool) (state : Nat), s.dev.up = true ∧ s.dev.on TWIN.CTL.EN = true ∧ s.dev.rd
      TWIN.STATUS.STATE = 1 ∧ sideB ≠ s.dev.on TWIN.STATUS.SIDE ∧ takeOut = s.dev.on TWIN.STATUS.TAKE_IN ∧ (state = 3 ∨ state = 1
      ∧ s.dev.on TWIN.STATUS.SIDE = true)) ∧
    (∃ (s : State) (sideB : Bool) (takeOut : Bool) (state : Nat), s.dev.up = true ∧ s.dev.on TWIN.CTL.EN = true ∧ s.dev.rd
      TWIN.STATUS.STATE = 1 ∧ sideB ≠ s.dev.on TWIN.STATUS.SIDE ∧ takeOut = s.dev.on TWIN.STATUS.TAKE_IN ∧ state = 1 ∧ s.dev.on
      TWIN.STATUS.SIDE = false ∧ (∀ p : Fin 16, linkState s.dev p ≠ LS.snoop)) ∧
    (∃ (s : State), s.dev.up = true ∧ s.dev.on TWIN.CTL.EN = false) ∧
    (∃ (s : State), s.dev.up = true ∧ s.dev.on TWIN.CTL.EN = true ∧ s.dev.rd TWIN.STATUS.STATE = 1 ∧ s.dev.past .hello oneMs = true) ∧
    (∃ (s : State), s.dev.up = true ∧ s.dev.on TWIN.CTL.EN = true ∧ s.dev.rd TWIN.STATUS.STATE = 1 ∧ (∀ p : Fin 16, linkState s.dev p
      ≠ LS.snoop) ∧ s.dev.on TWIN.STATUS.TAKE_IN = false ∧ s.dev.past .solo (s.dev.rd TWIN.CFG.SOLO_WAIT * oneMs) = true) ∧
    (∃ (s : State), s.dev.up = true ∧ (s.dev.on TWIN.CTL.EN = false ∨ s.dev.rd TWIN.STATUS.STATE ≠ 1)) ∧
    (∃ (s : State), s.dev.up = true ∧ s.dev.past .hello oneMs = false) ∧
    (∃ (s : State), s.dev.up = true ∧ s.dev.past .solo (s.dev.rd TWIN.CFG.SOLO_WAIT * oneMs) = false) ∧
    (∃ (s : State), s.dev.up = true ∧ s.dev.on TWIN.CTL.EN = true ∧ s.dev.on TWIN.STATUS.TAKE_IN = false ∧ s.dev.on
      TWIN.STATUS.TAKE_OUT = true ∧ s.dev.rd TWIN.STATUS.STATE = 3 ∧ (s.dev.twin.outAt + 3200 < s.dev.now ∨ s.dev.on
      TWIN.STATUS.SIDE = true) ∧ s.dev.pw.going = .no ∧ (∀ ch : Fin 16, s.dev.valves[ch].run = none) ∧ (∀ p : Fin 16, homing s.dev
      p ≠ 2)) ∧
    (∃ (s : State), s.dev.up = true ∧ s.dev.on TWIN.CTL.EN = true ∧ s.dev.on TWIN.STATUS.TAKE_IN = false ∧ s.dev.on
      TWIN.STATUS.TAKE_OUT = true ∧ s.dev.rd TWIN.STATUS.STATE = 3 ∧ (s.dev.twin.outAt + 3200 < s.dev.now ∨ s.dev.on
      TWIN.STATUS.SIDE = true) ∧ s.dev.pw.going = .no ∧ (∀ ch : Fin 16, s.dev.valves[ch].run = none) ∧ (∀ p : Fin 16, homing s.dev
      p ≠ 2)) ∧
    (∃ (s : State), s.dev.up = true ∧ s.dev.on TWIN.CTL.EN = true ∧ s.dev.on TWIN.STATUS.TAKE_IN = false ∧ s.dev.on
      TWIN.STATUS.TAKE_OUT = true ∧ s.dev.rd TWIN.STATUS.STATE = 3 ∧ s.dev.now ≤ s.dev.twin.outAt + 3200 ∧ s.dev.on
      TWIN.STATUS.SIDE = false) ∧
    (∃ (s : State), s.dev.up = true) ∧
    (∃ (s : State), s.dev.up = true) ∧
    (∃ (s : State), s.dev.up = true) ∧
    (∃ (s : State), s.dev.up = true ∧ s.dev.on TWIN.STATUS.LINK_UP = false) ∧
    (∃ (s : State), s.dev.up = true ∧ s.dev.on TWIN.STATUS.LINK_UP = true ∧ s.dev.isActive = true ∧ s.dev.on TWIN.STATUS.MIRRORED =
      false ∧ s.dev.ep.stbyWait = false) ∧
    (∃ (s : State), s.dev.up = true ∧ s.dev.on TWIN.STATUS.LINK_UP = true ∧ s.dev.rd TWIN.STATUS.STATE = 4 ∧ pairHbFresh s.dev = true) ∧
    (∃ (s : State), s.dev.up = true ∧ s.dev.on TWIN.STATUS.LINK_UP = true ∧ s.dev.rd TWIN.STATUS.STATE = 4 ∧ pairHbFresh s.dev =
      false) ∧
    (∃ (s : State), s.dev.up = true ∧ cageDark s.dev 18 = false ∧ dormant s.dev = false) ∧
    (∃ (s : State), s.dev.up = true ∧ cageDark s.dev 18 = false ∧ dormant s.dev = false) ∧
    (∃ (s : State), s.dev.up = true) ∧
    (∃ (s : State), s.dev.up = true) :=
  ⟨⟨twinState 1 [], false, by decide +kernel⟩,
   ⟨twinState 1 [], true, true, by decide +kernel⟩,
   ⟨twinState 1 [], true, false, 6, by decide +kernel⟩,
   ⟨twinState 1 [(TWIN.STATUS.TAKE_IN, 1)], true, true, 3, by decide +kernel⟩,
   ⟨twinState 1 [(TWIN.STATUS.SIDE, 1)], false, false, 1, by decide +kernel⟩,
   ⟨twinState 1 [], true, false, 1, by decide +kernel⟩,
   ⟨State.reset, by decide +kernel⟩,
   ⟨twinState 1 [], by decide +kernel⟩,
   ⟨twinState 1 [], by decide +kernel⟩,
   ⟨twinState 3 [], by decide +kernel⟩,
   ⟨stOf { (twinState 1 []).dev with marks := [(.hello, 0)] }, by decide +kernel⟩,
   ⟨stOf { (twinState 1 [(TWIN.CFG.SOLO_WAIT, 1)]).dev with marks := [(.solo, 0)] }, by decide +kernel⟩,
   ⟨twinState 3 [(TWIN.STATUS.TAKE_OUT, 1), (TWIN.STATUS.SIDE, 1)], by decide +kernel⟩,
   ⟨stOf { (twinState 3 [(TWIN.STATUS.TAKE_OUT, 1)]).dev with time := ⟨3201, 0, 0⟩ }, by decide +kernel⟩,
   ⟨stOf { (twinState 3 [(TWIN.STATUS.TAKE_OUT, 1)]).dev with time := ⟨3200, 0, 0⟩ }, by decide +kernel⟩,
   ⟨twinState 3 [(TWIN.STATUS.TAKE_IN, 1)], by decide +kernel⟩,
   ⟨State.reset, by decide +kernel⟩,
   ⟨State.reset, by decide +kernel⟩,
   ⟨State.reset, by decide +kernel⟩,
   ⟨twinState 3 [] fun t => { t with owed := true }, by decide +kernel⟩,
   ⟨stOf { (twinState 4 [(TWIN.STATUS.MIRRORED, 1)]).dev with ring := { RingSt.reset with pairHb := some 0 } }, by decide +kernel⟩,
   ⟨twinState 4 [(TWIN.STATUS.MIRRORED, 1)], by decide +kernel⟩,
   ⟨twinState 2 [(TWIN.STATUS.LINK_UP, 0)], by decide +kernel⟩,
   ⟨State.reset, by decide +kernel⟩,
   ⟨State.reset, by decide +kernel⟩,
   ⟨State.reset, by decide +kernel⟩⟩

theorem wit_StandbyFollowsItsActive :
    (∃ (s : State), s.dev.up = true ∧ s.dev.on TWIN.CTL.EN = false) ∧
    (∃ (s : State), s.dev.up = true ∧ s.dev.on TWIN.CTL.EN = true ∧ s.dev.rd TWIN.STATUS.STATE = 5 ∧ s.dev.on TWIN.STATUS.LINK_UP =
      true) ∧
    (∃ (s : State) (tb : Nat), s.dev.up = true ∧ s.dev.on TWIN.CTL.EN = true ∧ (s.dev.rd TWIN.STATUS.STATE = 4 ∨ s.dev.rd
      TWIN.STATUS.STATE = 2) ∧ 128 < ((tb : Int) + s.dev.rd TWIN.LINK_DLY.DLY - s.dev.now : Int).natAbs) ∧
    (∃ (s : State) (tb : Nat), s.dev.up = true ∧ s.dev.on TWIN.CTL.EN = true ∧ (s.dev.rd TWIN.STATUS.STATE = 4 ∨ s.dev.rd
      TWIN.STATUS.STATE = 2) ∧ ((tb : Int) + s.dev.rd TWIN.LINK_DLY.DLY - s.dev.now : Int).natAbs ≤ 32 ∧ s.dev.time.inBand < 63 ∧
      s.dev.on WEB.TB_CTL.LOCKED = false) ∧
    (∃ (s : State) (tb : Nat), s.dev.up = true ∧ s.dev.on TWIN.CTL.EN = true ∧ (s.dev.rd TWIN.STATUS.STATE = 4 ∨ s.dev.rd
      TWIN.STATUS.STATE = 2) ∧ ((tb : Int) + s.dev.rd TWIN.LINK_DLY.DLY - s.dev.now : Int).natAbs ≤ 32 ∧ s.dev.time.inBand = 63) ∧
    (∃ (s : State) (f : Fld), s.dev.up = true ∧ s.dev.isActive = false ∧ (pageFields (f.key / 32 / 4096)).find? (fun g => g.key ==
      f.key && g.acc == .rws) = some f) ∧
    (∃ (s : State) (f : Fld), s.dev.up = true ∧ s.dev.isActive = false ∧ (pageFields (f.key / 32 / 4096)).find? (fun g => g.key ==
      f.key && g.acc == .rws) = some f) ∧
    (∃ (s : State) (q : LineDigest) (runs : Nat) (bg : Nat) (n : Nat) (closes : Nat), (s.dev.up = true ∧ s.dev.seg.digests = [q] ∧
      digestSettled s.dev q = true ∧ s.dev.twin.digests = [] ∧ s.dev.rd TWIN.STATUS.STATE = 4) ∧ q.sums = [runs, bg, n, closes]) ∧
    (∃ (s : State) (q : LineDigest) (runs : Nat) (bg : Nat) (n : Nat) (closes : Nat), (s.dev.up = true ∧ s.dev.seg.digests = [q] ∧
      digestSettled s.dev q = true ∧ s.dev.twin.digests = [] ∧ s.dev.rd TWIN.STATUS.STATE = 2 ∧ s.dev.twin.applied = true) ∧
      q.sums = [runs, bg, n, closes]) ∧
    (∃ (s : State) (q : LineDigest) (runs : Nat) (bg : Nat) (n : Nat) (closes : Nat), (s.dev.up = true ∧ s.dev.seg.digests = [q] ∧
      digestSettled s.dev q = true ∧ s.dev.twin.digests = [] ∧ s.dev.rd TWIN.STATUS.STATE = 4) ∧ q.sums ≠ [runs, bg, n, closes]) ∧
    (∃ (s : State), s.dev.up = true ∧ s.dev.isActive = false) ∧
    (∃ (s : State) (x : MSlot), s.dev.up = true ∧ s.dev.isActive = false ∧ s.dev.mark.slots = [x]) ∧
    (∃ (s : State) (x : MSlot), s.dev.up = true ∧ s.dev.isActive = false ∧ s.dev.mark.slots = [x]) ∧
    (∃ (s : State) (target : Fin 20) (f : Fld), s.dev.up = true ∧ s.dev.isActive = false ∧ f = (if target.val < 16 then
      VALVE.FAULT.CAUSE target.val else HSG.FAULT.CAUSE (target.val - 16))) ∧
    (∃ (s : State) (target : Fin 20) (f : Fld), s.dev.up = true ∧ s.dev.isActive = false ∧ f = (if target.val < 16 then
      VALVE.FAULT.CAUSE target.val else HSG.FAULT.CAUSE (target.val - 16))) ∧
    (∃ (s : State) (first : Nat) (r : StreamRec), s.dev.up = true ∧ s.dev.isActive = false ∧ r.type ≠ 0x52 ∧ r.tagOf = none ∧
      s.dev.tags.waiting = [r] ∧ first < 2 ^ 32) ∧
    (∃ (s : State) (sseq : Nat), s.dev.up = true ∧ s.dev.isActive = false ∧ s.dev.tags.acked = none ∧ sseq < s.dev.rd TAG.SSEQ.NEXT ∧
      s.dev.rd TAG.SSEQ.NEXT < 2 ^ 32 ∧ (∀ e ∈ s.dev.tags.kept, e.1 < 2 ^ 32)) ∧
    (∃ (s : State), s.dev.up = true ∧ s.dev.isActive = false) ∧
    (∃ (s : State), s.dev.up = true ∧ s.dev.isActive = true) ∧
    (∃ (s : State) (state : Nat), s.dev.up = true ∧ s.dev.isActive = false ∧ state ≠ SS.closing ∧ state ≠ SS.failed) ∧
    (∃ (s : State), s.dev.up = true ∧ s.dev.isActive = false) ∧
    (∃ (s : State) (gs : List (Nat × Nat)) (keys : List (Nat × Nat × Nat)) (target : Fin 20) (b : Bool) (n1 : Nat) (n2 : Nat) (n3 :
      Nat) (n4 : Nat) (c : _), (s.dev.up = true ∧ s.dev.isActive = true) ∧ c ∈ [Instr.creditG gs, .twinLaunch n1 n2 n3 n4,
      .slotEnd n1 n2 n3 n4, .faultEv target n1 b, .placed n1 keys, .hostAck n1, .counts gs, .stage n1 n2 gs]) ∧
    (∃ (s : State) (gs : List (Nat × Nat)) (keys : List (Nat × Nat × Nat)) (target : Fin 20) (b : Bool) (n1 : Nat) (n2 : Nat) (n3 :
      Nat) (n4 : Nat) (c : _), (s.dev.up = true ∧ s.dev.isActive = true) ∧ c ∈ [Instr.creditG gs, .twinLaunch n1 n2 n3 n4,
      .slotEnd n1 n2 n3 n4, .faultEv target n1 b, .placed n1 keys, .hostAck n1, .counts gs, .stage n1 n2 gs]) :=
  ⟨⟨State.reset, by decide +kernel⟩,
   ⟨twinState 5 [], by decide +kernel⟩,
   ⟨twinState 4 [(WEB.TB_CTL.LOCKED, 1), (TWIN.LINK_DLY.DLY, 5)], 124, by decide +kernel⟩,
   ⟨twinState 2 [(TWIN.LINK_DLY.DLY, 5)], 27, by decide +kernel⟩,
   ⟨stOf { (twinState 4 []).dev with time := ⟨0, 0, 63⟩ }, 0, by decide +kernel⟩,
   ⟨twinState 4 [], WEB.GRID_PITCH.VAL, by decide +kernel⟩,
   ⟨stOf ((twinState 4 []).dev.updEp fun e => { e with next := [(VALVE.XW_LO.X 5, 1)] }), WEB.GRID_PITCH.VAL, by decide +kernel⟩,
   ⟨digestState 4, lineDigest, (Config.digest []).toNat, (Config.digest []).toNat, 0, (Config.digest []).toNat, by decide +kernel,
      rfl⟩,
   ⟨digestState 2 fun t => { t with applied := true }, lineDigest, (Config.digest []).toNat, (Config.digest []).toNat, 0,
      (Config.digest []).toNat, by decide +kernel, rfl⟩,
   ⟨digestState 4, lineDigest, 0, 0, 1, 0, by decide +kernel, (fun h => by simp [LineDigest.sums, lineDigest] at h)⟩,
   ⟨twinState 4 [], by decide +kernel⟩,
   ⟨withSlots (twinState 4 []) [mslot 7 .armed none], mslot 7 .armed none, by decide +kernel⟩,
   ⟨withSlots (twinState 4 [(MARK.AVAIL.UJ, 10)] fun t => { t with launches := [(7, 5), (8, 5)] }) [mslot 7 .run none], mslot 7 .run
      none, by decide +kernel⟩,
   ⟨twinState 4 [], 15, VALVE.FAULT.CAUSE 15, by decide +kernel⟩,
   ⟨twinState 4 [(HSG.FAULT.CAUSE 3, 2)], 19, HSG.FAULT.CAUSE 3, by decide +kernel⟩,
   ⟨stOf ((twinState 4 []).dev.updTags fun t => { t with waiting := [record 77] }), 2 ^ 32 - 1, record 77, by decide +kernel⟩,
   ⟨stOf ((twinState 4 [(TAG.SSEQ.NEXT, 4)]).dev.updTags fun t => { t with kept := [(2, record 76), (3, record 77)] }), 2,
      by decide +kernel⟩,
   ⟨twinState 4 [], by decide +kernel⟩,
   ⟨twinState 3 [], by decide +kernel⟩,
   ⟨stOf ((twinState 4 []).dev.updHead 1 fun h => { h with cur := some { frame with oldOfs := true } }), 3, by decide +kernel⟩,
   ⟨stOf ((twinState 4 []).dev.updHead 1 fun h => { h with cur := some { frame with oldOfs := true } }), by decide +kernel⟩,
   ⟨twinState 3 [], [(1, 2)], [], 0, true, 1, 2, 3, 4, Instr.hostAck 1, by decide +kernel, by simp⟩,
   ⟨twinState 3 [], [(1, 2)], [], 0, true, 1, 2, 3, 4, Instr.stage 1 2 [(1, 2)], by decide +kernel, by simp⟩⟩

theorem wit_ResyncAndTakeover :
    (∃ (s : State), s.dev.up = true ∧ s.dev.isActive = true ∧ s.dev.seg.cur = none) ∧
    (∃ (s : State), s.dev.up = true ∧ s.dev.isActive = true ∧ s.dev.seg.cur ≠ none) ∧
    (∃ (s : State), s.dev.up = true ∧ s.dev.isActive = false) ∧
    (∃ (s : State) (img : TwinImage), s.dev.up = true ∧ s.dev.rd TWIN.STATUS.STATE = 2 ∧ s.dev.twin.wanted = true ∧ s.dev.twin.store =
      [] ∧ s.dev.seg.cur = none ∧ img.nextSseq < 2 ^ 32) ∧
    (∃ (s : State), s.dev.up = true ∧ (s.dev.rd TWIN.STATUS.STATE ≠ 2 ∨ s.dev.twin.wanted = false)) ∧
    (∃ (s : State), s.dev.up = true ∧ (s.dev.rd TWIN.STATUS.STATE ≠ 2 ∨ s.dev.twin.wanted = false)) ∧
    (∃ (s : State), s.dev.up = true ∧ s.dev.rd TWIN.STATUS.STATE = 2 ∧ s.dev.twin.wanted = true) ∧
    (∃ (s : State), s.dev.up = true ∧ (s.dev.rd TWIN.STATUS.STATE = 2 ∨ s.dev.rd TWIN.STATUS.STATE = 4)) ∧
    (∃ (s : State), s.dev.up = true ∧ s.dev.isActive = true) ∧
    (∃ (s : State) (c : Instr) (cause : Nat), s.dev.up = true ∧ ((c = .heartbeatTimeout ∧ cause = 1 ∧ s.dev.on TWIN.CTL.EN = true ∧
      s.dev.past .twin (16000 * hbTimeout s.dev) = true ∧ (s.dev.on TWIN.CFG.STRING_HB = false ∨ pairHbFresh s.dev = false) ∧
      (s.dev.rd TWIN.STATUS.STATE = 2 ∨ s.dev.rd TWIN.STATUS.STATE = 4)) ∨ (c = .yieldMsg ∧ cause = 2 ∧ s.dev.rd TWIN.STATUS.STATE
      = 4) ∨ (c = .takeOver ∧ cause = 3 ∧ (s.dev.rd TWIN.STATUS.STATE = 2 ∨ s.dev.rd TWIN.STATUS.STATE = 4))) ∧ ¬(s.dev.on
      TWIN.STATUS.TAKE_IN = true ∧ s.dev.on TWIN.STATUS.SIDE = true ∧ s.dev.now ≤ s.dev.twin.inAt + 3200) ∧ s.dev.rd
      WEB.EPOCH_STATUS.STATE ≠ 2 ∧ s.dev.rd TWIN.MARK_UNKNOWN_CNT.CNT < 2 ^ 32) ∧
    (∃ (s : State) (c : Instr) (cause : Nat), s.dev.up = true ∧ ((c = .heartbeatTimeout ∧ cause = 1 ∧ s.dev.on TWIN.CTL.EN = true ∧
      s.dev.past .twin (16000 * hbTimeout s.dev) = true ∧ (s.dev.on TWIN.CFG.STRING_HB = false ∨ pairHbFresh s.dev = false) ∧
      (s.dev.rd TWIN.STATUS.STATE = 2 ∨ s.dev.rd TWIN.STATUS.STATE = 4)) ∨ (c = .yieldMsg ∧ cause = 2 ∧ s.dev.rd TWIN.STATUS.STATE
      = 4) ∨ (c = .takeOver ∧ cause = 3 ∧ (s.dev.rd TWIN.STATUS.STATE = 2 ∨ s.dev.rd TWIN.STATUS.STATE = 4))) ∧ ¬(s.dev.on
      TWIN.STATUS.TAKE_IN = true ∧ s.dev.on TWIN.STATUS.SIDE = true ∧ s.dev.now ≤ s.dev.twin.inAt + 3200) ∧ s.dev.rd
      WEB.EPOCH_STATUS.STATE ≠ 2 ∧ s.dev.rd TWIN.MARK_UNKNOWN_CNT.CNT < 2 ^ 32) ∧
    (∃ (s : State) (c : Instr) (cause : Nat), s.dev.up = true ∧ ((c = .heartbeatTimeout ∧ cause = 1 ∧ s.dev.on TWIN.CTL.EN = true ∧
      s.dev.past .twin (16000 * hbTimeout s.dev) = true ∧ (s.dev.on TWIN.CFG.STRING_HB = false ∨ pairHbFresh s.dev = false) ∧
      (s.dev.rd TWIN.STATUS.STATE = 2 ∨ s.dev.rd TWIN.STATUS.STATE = 4)) ∨ (c = .yieldMsg ∧ cause = 2 ∧ s.dev.rd TWIN.STATUS.STATE
      = 4) ∨ (c = .takeOver ∧ cause = 3 ∧ (s.dev.rd TWIN.STATUS.STATE = 2 ∨ s.dev.rd TWIN.STATUS.STATE = 4))) ∧ ¬(s.dev.on
      TWIN.STATUS.TAKE_IN = true ∧ s.dev.on TWIN.STATUS.SIDE = true ∧ s.dev.now ≤ s.dev.twin.inAt + 3200) ∧ s.dev.rd
      WEB.EPOCH_STATUS.STATE ≠ 2 ∧ s.dev.rd TWIN.MARK_UNKNOWN_CNT.CNT < 2 ^ 32) ∧
    (∃ (s : State), s.dev.up = true ∧ s.dev.isActive = true) ∧
    (∃ (s : State), s.dev.up = true ∧ s.dev.past .twin (16000 * hbTimeout s.dev) = false) ∧
    (∃ (s : State), s.dev.up = true ∧ s.dev.on TWIN.CFG.STRING_HB = true ∧ pairHbFresh s.dev = true) ∧
    (∃ (s : State), s.dev.up = true ∧ s.dev.rd TWIN.STATUS.STATE = 2) ∧
    (∃ (s : State), s.dev.up = true ∧ s.dev.hasStandby = true) ∧
    (∃ (s : State), s.dev.up = true ∧ s.dev.hasStandby = false) ∧
    (∃ (s : State), s.dev.up = true ∧ s.dev.hasStandby = true ∧ s.dev.pw.going = .no) :=
  ⟨⟨twinState 3 [], by decide +kernel⟩,
   ⟨stOf ((twinState 3 []).dev.updSeg fun q => { q with cur := some (segLine []) }), by decide +kernel⟩,
   ⟨twinState 4 [], by decide +kernel⟩,
   ⟨twinState 2 [] fun t => { t with wanted := true }, twinImage, by decide +kernel⟩,
   ⟨twinState 2 [], by decide +kernel⟩,
   ⟨twinState 4 [], by decide +kernel⟩,
   ⟨twinState 2 [] fun t => { t with wanted := true, store := [segLine []] }, by decide +kernel⟩,
   ⟨twinState 4 [(TWIN.STATUS.MIRRORED, 1)], by decide +kernel⟩,
   ⟨twinState 3 [], by decide +kernel⟩,
   ⟨withSlots (twinState 4 [(TWIN.STATUS.MIRRORED, 1)] fun t => { t with launches := [(7, 5)] }) [mslot 7 .run none, mslot 8 .armed
      none, mslot 9 .done none], Instr.heartbeatTimeout, 1, by decide +kernel⟩,
   ⟨stOf ((twinState 4 [(TWIN.STATUS.TAKE_IN, 1)]).dev.updSeg fun q => { q with blobs := [blob 4 id] }), Instr.yieldMsg, 2,
      by decide +kernel⟩,
   ⟨twinState 2 [], Instr.takeOver, 3, by decide +kernel⟩,
   ⟨twinState 3 [], by decide +kernel⟩,
   ⟨stOf { (twinState 4 []).dev with marks := [(.twin, 0)] }, by decide +kernel⟩,
   ⟨stOf { (twinState 4 [(TWIN.CFG.STRING_HB, 1)]).dev with ring := { RingSt.reset with pairHb := some 0 } }, by decide +kernel⟩,
   ⟨twinState 2 [], by decide +kernel⟩,
   ⟨twinState 3 [], by decide +kernel⟩,
   ⟨State.reset, by decide +kernel⟩,
   ⟨twinState 3 [], by decide +kernel⟩⟩

theorem wit_RingFormsFoldsAndForwards :
    (∃ (s : State) (out : Bool), s.dev.up = true ∧ cageDark s.dev (if out then 20 else 19) = false ∧ dormant s.dev = false ∧
      s.dev.inRing = false) ∧
    (∃ (s : State) (out : Bool), s.dev.up = true ∧ cageDark s.dev (if out then 20 else 19) = false ∧ dormant s.dev = false ∧
      s.dev.inRing = true ∧ s.dev.rd STRING.STATUS.RING_STATE = 0) ∧
    (∃ (s : State), s.dev.up = true ∧ s.dev.inRing = false) ∧
    (∃ (s : State) (r : TopoRec), s.dev.up = true ∧ s.dev.inRing = true ∧ s.dev.rd STRING.STATUS.RING_STATE = 1 ∧ r.mine = true ∧
      topoCheck s.dev none = none ∧ reachAll s.dev = true) ∧
    (∃ (s : State) (r : TopoRec), s.dev.up = true ∧ s.dev.inRing = true ∧ s.dev.rd STRING.STATUS.RING_STATE = 1 ∧ r.mine = false ∧
      r.pos = cablePos s.dev ∧ r.pos < 16 ∧ r.chain = false) ∧
    (∃ (s : State) (r : TopoRec), s.dev.up = true ∧ s.dev.inRing = true ∧ s.dev.rd STRING.STATUS.RING_STATE = 1 ∧ r.mine = false ∧
      r.pos ≠ cablePos s.dev ∧ r.chain = false ∧ s.dev.ring.closed = false) ∧
    (∃ (s : State), s.dev.up = true ∧ s.dev.inRing = true ∧ s.dev.rd STRING.STATUS.RING_STATE = 1 ∧ reachAll s.dev = true ∧ topoCheck
      s.dev none = none ∧ s.dev.past .form (s.dev.rd STRING.CFG.FORM_WAIT * oneMs) = true) ∧
    (∃ (s : State), s.dev.up = true ∧ (s.dev.inRing = false ∨ s.dev.rd STRING.STATUS.RING_STATE ≠ 1 ∨ reachAll s.dev = false ∨
      s.dev.past .form (s.dev.rd STRING.CFG.FORM_WAIT * oneMs) = false)) ∧
    (∃ (s : State), s.dev.up = true ∧ (s.dev.inRing = false ∨ s.dev.rd STRING.STATUS.RING_STATE ≠ 1 ∨ reachAll s.dev = false ∨
      s.dev.past .form (s.dev.rd STRING.CFG.FORM_WAIT * oneMs) = false)) ∧
    (∃ (s : State), s.dev.up = true ∧ s.dev.inRing = false) ∧
    (∃ (s : State), s.dev.up = true ∧ s.dev.inRing = true ∧ s.dev.rd STRING.STATUS.RING_STATE = 2 ∧ s.dev.rd STRING.CFG.SLOTS ≤ 1 ∧
      s.dev.ringSlot = 0 ∧ s.dev.isActive = true) ∧
    (∃ (s : State), s.dev.up = true ∧ s.dev.inRing = true ∧ s.dev.on STRING.STATUS.IN_UP = true ∧ s.dev.on STRING.STATUS.OUT_UP = true
      ∧ s.dev.rd STRING.STATUS.RING_STATE = 3 ∧ (∀ out, s.dev.past (.hop out) (100 * oneMs) = true ∧ s.dev.began (.measured out) =
      true)) ∧
    (∃ (s : State), s.dev.up = true ∧ (s.dev.inRing = false ∨ s.dev.on STRING.STATUS.IN_UP = false ∨ s.dev.on STRING.STATUS.OUT_UP =
      false ∨ (∃ out, s.dev.past (.hop out) (100 * oneMs) = false ∨ s.dev.began (.measured out) = false))) ∧
    (∃ (s : State), s.dev.up = true ∧ (s.dev.inRing = false ∨ s.dev.on STRING.STATUS.IN_UP = false ∨ s.dev.on STRING.STATUS.OUT_UP =
      false ∨ (∃ out, s.dev.past (.hop out) (100 * oneMs) = false ∨ s.dev.began (.measured out) = false))) ∧
    (∃ (s : State), s.dev.up = true ∧ s.dev.inRing = true) ∧
    (∃ (s : State), s.dev.up = true ∧ s.dev.inRing = true) ∧
    (∃ (s : State), s.dev.up = true ∧ s.dev.inRing = true) ∧
    (∃ (s : State) (hops : Nat) (dly : Nat) (fromOut : Bool), s.dev.up = true ∧ s.dev.inRing = true ∧ s.dev.isPuppeteer = false ∧ dly
      = s.dev.rd (if fromOut then STRING.HOP_OUT_DLY.DLY else STRING.HOP_IN_DLY.DLY) ∧ hops ≤ (slotActive s.dev 0).elim hops
      RingMod.hops ∧ (s.dev.isActive = false ∨ s.dev.slot = 0)) ∧
    (∃ (s : State) (m : RingMod), s.dev.up = true ∧ s.dev.inRing = true ∧ s.dev.rd STRING.STATUS.RING_STATE = 1 ∧ s.dev.ring.mods =
      [m]) ∧
    (∃ (s : State) (m : RingMod), s.dev.up = true ∧ s.dev.inRing = true ∧ s.dev.rd STRING.STATUS.RING_STATE = 1 ∧ s.dev.ring.mods =
      [m]) ∧
    (∃ (s : State), s.dev.up = true ∧ s.dev.inRing = true ∧ s.dev.ring.wait = []) ∧
    (∃ (s : State) (up : Bool) (m : StrMsg), s.dev.up = true ∧ s.dev.inRing = true ∧ s.dev.ring.wait = [m] ∧ m.up = up) ∧
    (∃ (s : State) (m : StrMsg), s.dev.up = true ∧ s.dev.inRing = true ∧ s.dev.ring.wait = [] ∧ m.src = cablePos s.dev) ∧
    (∃ (s : State) (m : StrMsg), s.dev.up = true ∧ s.dev.inRing = true ∧ s.dev.ring.wait = [] ∧ s.dev.ring.seen.find? (fun e => e.1 ==
      m.src) = some (m.src, m.mseq) ∧ m.mseq < 65536) ∧
    (∃ (s : State) (m : StrMsg), s.dev.up = true ∧ s.dev.inRing = true ∧ s.dev.ring.wait = [] ∧ m.src ≠ cablePos s.dev ∧
      s.dev.ring.seen = [] ∧ m.all = false ∧ m.dst ≠ s.dev.ringSlot ∧ s.dev.on (if m.up then STRING.STATUS.OUT_UP else
      STRING.STATUS.IN_UP) = false) ∧
    (∃ (s : State) (out : Bool) (answer : Bool) (fromOut : Bool) (up : Bool) (sideB : Bool) (n1 : Nat) (n2 : Nat) (n3 : Nat) (n4 :
      Nat) (ms : List StrMsg) (c : _), (s.dev.up = true ∧ s.dev.inRing = false) ∧ c ∈ [Instr.stringEcho out answer n1 n2, .pairHb,
      .timeMsg n1 n2 n3 fromOut n4, .newActive n1 sideB, .stringForward up ms]) ∧
    (∃ (s : State) (out : Bool) (answer : Bool) (fromOut : Bool) (up : Bool) (sideB : Bool) (n1 : Nat) (n2 : Nat) (n3 : Nat) (n4 :
      Nat) (ms : List StrMsg) (c : _), (s.dev.up = true ∧ s.dev.inRing = false) ∧ c ∈ [Instr.stringEcho out answer n1 n2, .pairHb,
      .timeMsg n1 n2 n3 fromOut n4, .newActive n1 sideB, .stringForward up ms]) :=
  ⟨⟨st [], true, by decide +kernel⟩,
   ⟨ringSt 0 [(STRING.CFG.SLOT, 2)] fun r => { r with mods := [ringMod 5 3], closed := true }, false, by decide +kernel⟩,
   ⟨State.reset, by decide +kernel⟩,
   ⟨ringSt 1 [(STRING.CFG.SLOTS, 2)] fun r => { r with mods := [ringMod 2 3] }, topoRec 0 true, by decide +kernel⟩,
   ⟨ringSt 1 [(STRING.CFG.SLOTS, 2)], topoRec 0 false, by decide +kernel⟩,
   ⟨ringSt 1 [(STRING.CFG.SLOTS, 3)] fun r => { r with mods := [ringMod 2 3] }, topoRec 5 false, by decide +kernel⟩,
   ⟨ringSt 1 [(STRING.CFG.SLOTS, 2)] fun r => { r with mods := [ringMod 2 3] }, by decide +kernel⟩,
   ⟨ringSt 1 [(STRING.CFG.SLOTS, 2)], by decide +kernel⟩,
   ⟨stOf
      { (ringSt 1 [(STRING.CFG.SLOTS, 2), (STRING.CFG.FORM_WAIT, 1)] fun r => { r with mods := [ringMod 2 3] }).dev with marks := [(.form, 0)] },
      by decide +kernel⟩,
   ⟨st [(STRING.STATUS.OUT_UP, 1)], by decide +kernel⟩,
   ⟨ringSt 2 [(STRING.CFG.SLOTS, 1)] fun r => { r with closed := true }, by decide +kernel⟩,
   ⟨stOf { (ringSt 3 []).dev with marks := [(.measured false, 9), (.measured true, 9)] }, by decide +kernel⟩,
   ⟨ringSt 3 [], by decide +kernel⟩,
   ⟨ringSt 3 [(STRING.STATUS.IN_UP, 0)], by decide +kernel⟩,
   ⟨ringSt 2 [], by decide +kernel⟩,
   ⟨ringSt 2 [], by decide +kernel⟩,
   ⟨ringSt 2 [], by decide +kernel⟩,
   ⟨stOf { (ringSt 2 [(TWIN.STATUS.STATE, 4), (STRING.HOP_OUT_DLY.DLY, 7)]).dev with ringSlot := 1 }, 1, 7, true, by decide +kernel⟩,
   ⟨ringSt 1 [] fun r => { r with mods := [ringMod 3 4] }, ringMod 3 4, by decide +kernel⟩,
   ⟨ringSt 1 [] fun r => { r with mods := [ringMod 3 3] }, ringMod 3 3, by decide +kernel⟩,
   ⟨ringSt 2 [], by decide +kernel⟩,
   ⟨ringSt 2 [] fun r => { r with wait := [strMsg 0] }, true, strMsg 0, by decide +kernel⟩,
   ⟨ringSt 2 [], strMsg 0, by decide +kernel⟩,
   ⟨ringSt 2 [] fun r => { r with seen := [(5, 9)] }, strMsg 5, by decide +kernel⟩,
   ⟨ringSt 2 [(STRING.STATUS.OUT_UP, 0)], strMsg 5, by decide +kernel⟩,
   ⟨State.reset, true, true, true, true, true, 1, 2, 3, 4, [strMsg 5], Instr.stringForward true [strMsg 5], by decide +kernel,
      by simp⟩,
   ⟨State.reset, true, true, true, true, true, 1, 2, 3, 4, [strMsg 5], Instr.timeMsg 1 2 3 true 4, by decide +kernel, by simp⟩⟩

/-! ## Store, profiles and flash -/

def nvsState (l : List (Fld × Nat)) (g : Nvs → Nvs) : State := stOf ((dev l).updNvs g)
def storeRun (queue : List Nat) : StoreRun := ⟨1, 5, false, 2, queue, none, 0, 9, []⟩
/-- A run of the store over `queue`. -/
def storing (queue : List Nat) (l : List (Fld × Nat)) (g : Nvs → Nvs := id) : State :=
  nvsState ([(NVS.STATUS.BUSY, 1), (NVS.STATUS.KIND, 1), (NVS.WEAR_WARN_AT.WCNT, 10)] ++ l) fun n => g { n with run := some (storeRun queue), dirty := [9] }
/-- Working array with profile 0: `n` references, their bytes, an image and the CRC, and bytes of the table flash. -/
def profMem (n : Nat) (refs img flash : List Byte) (crc : Nat) : Memory :=
  let m := Memory.store ⟨[], [], []⟩ (profBase 0) ([0x50, 1] ++ leBytes 2 img.length ++ leBytes 2 n)
  Memory.fwrite (Memory.store (Memory.store m (profBase 0 + 32) refs) (profBase 0 + 764) (leBytes 4 crc ++ img)) 0x10000 flash
/-- `List.foldl` of a CRC that evaluates each byte at once. -/
def crcFold : List Byte → Nat → Nat
  | [], c => c
  | b :: bs, c => match crc32Byte c b.toNat with
    | 0 => crcFold bs 0
    | n + 1 => crcFold bs (n + 1)
theorem crcFold_eq (l : List Byte) : ∀ c, crcFold l c = l.foldl (fun c b => crc32Byte c b.toNat) c := by
  induction l with
  | nil => intro c; rfl
  | cons b bs ih =>
    intro c
    show (match crc32Byte c b.toNat with | 0 => crcFold bs 0 | n + 1 => crcFold bs (n + 1)) = _
    split <;> rename_i h <;> simp [ih, h]
theorem crc32_of {l : List Byte} {n : Nat} (h : Nat.xor (crcFold l 0xFFFFFFFF) 0xFFFFFFFF = n) : crc32 l = n := by
  rw [← h, crcFold_eq]; rfl
theorem crc32_not {l : List Byte} {n : Nat} (h : Nat.xor (crcFold l 0xFFFFFFFF) 0xFFFFFFFF ≠ n) : crc32 l ≠ n := fun e => h (by rw [← e, crcFold_eq]; rfl)
theorem except_error {e : Except Nat (List (Nat × Nat))} {i : Nat}
    (h : (match e with | .error j => j == i | .ok _ => false) = true) : e = .error i := by cases e <;> simp_all
theorem except_ok {e : Except Nat (List (Nat × Nat))} {l : List (Nat × Nat)}
    (h : (match e with | .error _ => false | .ok k => k == l) = true) : e = .ok l := by cases e <;> simp_all
def tblRef (kind unit len crc : Nat) : List Byte := leBytes 1 kind ++ leBytes 3 unit ++ leBytes 4 0x10000 ++ leBytes 4 len ++ leBytes 4 crc
/-- A load of profile 0 in progress. -/
def loadSt (n : Nat) (refs img flash : List Byte) (l : List (Fld × Nat)) : State :=
  { (st ((PROF.STATUS.STATE, 1) :: l)) with mem := profMem n refs img flash 0 }
def profSt (l : List (Fld × Nat)) (g : Prof → Prof) : State := stOf ((dev l).updProf g)

theorem wit_StoreStartsOrWaits :
    (∃ (s : State) (pages : List Nat), s.dev.up = true ∧ s.dev.on NVS.STATUS.FROZEN = false ∧ s.dev.nvs.run = none ∧ pages = (if
      s.dev.on NVS.CTL.FULL then List.range 1024 else dirtyPages s.dev) ∧ pages ≠ []) ∧
    (∃ (s : State) (pages : List Nat), s.dev.up = true ∧ s.dev.on NVS.STATUS.FROZEN = false ∧ s.dev.nvs.run = none ∧ pages = (if
      s.dev.on NVS.CTL.FULL then List.range 1024 else dirtyPages s.dev) ∧ pages ≠ []) ∧
    (∃ (s : State) (r : StoreRun), s.dev.up = true ∧ s.dev.on NVS.STATUS.FROZEN = false ∧ s.dev.nvs.run = some r ∧ s.dev.nvs.pend =
      none) ∧
    (∃ (s : State) (r : StoreRun), s.dev.up = true ∧ s.dev.on NVS.STATUS.FROZEN = false ∧ s.dev.nvs.run = some r ∧ s.dev.nvs.pend ≠
      none) ∧
    (∃ (s : State) (r : StoreRun) (p : Nat) (full : Bool) (both : Bool) (pages : List Nat), s.dev.up = true ∧ s.dev.nvs.run = some r ∧
      r.second = none ∧ r.queue = [p] ∧ r.both = false ∧ r.held = [] ∧ s.mem.lostIn (pageAddr p) 256 = false ∧ s.dev.nvs.pend =
      some (full, both) ∧ s.dev.nvs.windup = false ∧ s.dev.pw.going = .no ∧ s.dev.on NVS.STATUS.WEAR_WARN = true ∧ pages = (if
      full then List.range 1024 else dirtyPages s.dev) ∧ pages ≠ []) :=
  ⟨⟨nvsState [] fun n => { n with dirty := [5, 7] }, [5, 7], by decide +kernel⟩,
   ⟨nvsState [(NVS.CTL.FULL, 1), (NVS.CTL.BOTH, 1), (NVS.SEQ_NEXT_LO.SEQ, 2 ^ 32 - 1)] id, List.range 1024, by decide +kernel⟩,
   ⟨storing [5] [(NVS.CTL.BOTH, 1)], storeRun [5], by decide +kernel⟩,
   ⟨storing [5] [] fun n => { n with pend := some (true, false) }, storeRun [5], by decide +kernel⟩,
   ⟨storing [5] [(NVS.STATUS.WEAR_WARN, 1), (NVS.STATUS.PENDING, 1)] fun n => { n with pend := some (false, true) }, storeRun [5], 5,
      false, true, [9], by decide +kernel⟩⟩

theorem wit_PagesAreStoredScannedAndReloaded :
    (∃ (s : State), s.dev.up = true ∧ s.dev.pw.going = .no ∧ s.dev.nvs.run = none) ∧
    (∃ (s : State) (r : StoreRun) (p : Nat) (q : Nat) (c : Nat) (wcnt : Nat) (rest : List Nat), s.dev.up = true ∧ s.dev.pw.going = .no
      ∧ s.dev.nvs.run = some r ∧ r.second = none ∧ r.queue = p :: q :: rest ∧ r.both = false ∧ r.held = [] ∧ s.mem.lostIn
      (pageAddr p) 256 = false ∧ c = (if p ∈ s.dev.nvs.winB then 0 else 1) ∧ wcnt = min 0xFFFFFFFF (copyWcnt s.mem c p + 1) ∧
      (wcnt < s.dev.rd NVS.WEAR_WARN_AT.WCNT ∨ s.dev.on NVS.STATUS.WEAR_WARN = true)) ∧
    (∃ (s : State) (r : StoreRun) (p : Nat) (q : Nat) (c : Nat) (wcnt : Nat) (rest : List Nat), s.dev.up = true ∧ s.dev.pw.going = .no
      ∧ s.dev.nvs.run = some r ∧ r.second = none ∧ r.queue = p :: q :: rest ∧ r.both = false ∧ r.held = [] ∧ s.mem.lostIn
      (pageAddr p) 256 = false ∧ c = (if p ∈ s.dev.nvs.winB then 0 else 1) ∧ wcnt = min 0xFFFFFFFF (copyWcnt s.mem c p + 1) ∧
      (wcnt < s.dev.rd NVS.WEAR_WARN_AT.WCNT ∨ s.dev.on NVS.STATUS.WEAR_WARN = true)) ∧
    (∃ (s : State) (r : StoreRun) (p : Nat) (c : Nat) (k : Nat), s.dev.up = true ∧ s.dev.pw.going = .no ∧ s.dev.nvs.run = some r ∧
      r.second = none ∧ r.queue = [p] ∧ r.both = false ∧ r.held = [] ∧ s.mem.lostIn (pageAddr p) 256 = false ∧ r.kind = 1 ∧
      s.dev.nvs.pend = none ∧ s.dev.nvs.windup = false ∧ c = (if p ∈ s.dev.nvs.winB then 0 else 1) ∧ k = s.dev.nvs.jNewest.elim 0
      (fun i => (i + 1) % 64) ∧ s.dev.on NVS.STATUS.WEAR_WARN = true) ∧
    (∃ (s : State) (r : StoreRun) (p : Nat) (c : Nat) (k : Nat), s.dev.up = true ∧ s.dev.pw.going = .no ∧ s.dev.nvs.run = some r ∧
      r.second = none ∧ r.queue = [p] ∧ r.both = false ∧ r.held = [] ∧ s.mem.lostIn (pageAddr p) 256 = false ∧ r.kind = 1 ∧
      s.dev.nvs.pend = none ∧ s.dev.nvs.windup = false ∧ c = (if p ∈ s.dev.nvs.winB then 0 else 1) ∧ k = s.dev.nvs.jNewest.elim 0
      (fun i => (i + 1) % 64) ∧ s.dev.on NVS.STATUS.WEAR_WARN = true) ∧
    (∃ (s : State) (r : StoreRun) (p : Nat) (rest : List Nat), s.dev.up = true ∧ s.dev.pw.going = .no ∧ s.dev.nvs.run = some r ∧
      r.second = none ∧ r.queue = p :: rest ∧ s.mem.lostIn (pageAddr p) 256 = true) ∧
    (∃ (s : State) (addr : Nat), s.dev.up = true ∧ waBase ≤ addr ∧ addr < waBase + 0x40000 ∧ (waReserved ((addr - waBase) / 256) =
      true ∨ s.dev.on NVS.STATUS.FROZEN = true)) ∧
    (∃ (s : State) (addr : Nat), s.dev.up = true ∧ waBase ≤ addr ∧ addr < waBase + 0x40000 ∧ (waReserved ((addr - waBase) / 256) =
      true ∨ s.dev.on NVS.STATUS.FROZEN = true)) ∧
    (∃ (s : State) (addr : Nat), (s.dev.up = true ∧ waBase ≤ addr ∧ addr < waBase + 0x40000 ∧ waReserved ((addr - waBase) / 256) =
      false ∧ s.dev.on NVS.STATUS.FROZEN = false) ∧ (∀ r : StoreRun, s.dev.nvs.run = some r → (addr - waBase) / 256 ∉ r.queue ∧ ∀
      q, r.second = some q → q.1 ≠ (addr - waBase) / 256)) ∧
    (∃ (s : State) (addr : Nat), (s.dev.up = true ∧ waBase ≤ addr ∧ addr < waBase + 0x40000 ∧ waReserved ((addr - waBase) / 256) =
      false ∧ s.dev.on NVS.STATUS.FROZEN = false) ∧ (∀ r : StoreRun, s.dev.nvs.run = some r → (addr - waBase) / 256 ∉ r.queue ∧ ∀
      q, r.second = some q → q.1 ≠ (addr - waBase) / 256)) ∧
    (∃ (s : State) (addr : Nat) (r : StoreRun), s.dev.up = true ∧ waBase ≤ addr ∧ addr < waBase + 0x40000 ∧ waReserved ((addr -
      waBase) / 256) = false ∧ s.dev.on NVS.STATUS.FROZEN = false ∧ s.dev.nvs.run = some r ∧ (addr - waBase) / 256 ∈ r.queue) ∧
    (∃ (s : State) (page : Fin 1024), s.dev.up = true ∧ (page.val < 896 ∨ 960 ≤ page.val) ∧ s.dev.nvs.evNext < 1024) ∧
    (∃ (s : State) (page : Fin 1024), s.dev.up = true ∧ (page.val < 896 ∨ 960 ≤ page.val) ∧ s.dev.nvs.evNext < 1024) ∧
    (∃ (c : _) (s : State), c ∈ [Instr.scanPassStart, .scanNow] ∧ s.dev.up = true ∧ (s.dev.on NVS.STATUS.SCAN = true ∨ c =
      .scanPassStart ∧ s.dev.past .scan (s.dev.rd NVS.SCAN_CFG.HOURS * 3600 * oneS) = false)) ∧
    (∃ (c : _) (s : State), c ∈ [Instr.scanPassStart, .scanNow] ∧ s.dev.up = true ∧ (s.dev.on NVS.STATUS.SCAN = true ∨ c =
      .scanPassStart ∧ s.dev.past .scan (s.dev.rd NVS.SCAN_CFG.HOURS * 3600 * oneS) = false)) ∧
    (∃ (c : _) (s : State), c ∈ [Instr.scanPassStart, .scanNow] ∧ s.dev.up = true ∧ s.dev.on NVS.STATUS.SCAN = false ∧ (c = .scanNow ∨
      s.dev.past .scan (s.dev.rd NVS.SCAN_CFG.HOURS * 3600 * oneS) = true)) ∧
    (∃ (s : State), s.dev.up = true ∧ (s.dev.on NVS.STATUS.SCAN = false ∨ s.dev.nvs.run ≠ none ∨ s.dev.on NVS.STATUS.FROZEN = true)) ∧
    (∃ (s : State), s.dev.up = true ∧ (s.dev.on NVS.STATUS.SCAN = false ∨ s.dev.nvs.run ≠ none ∨ s.dev.on NVS.STATUS.FROZEN = true)) ∧
    (∃ (s : State) (p : Nat), s.dev.up = true ∧ s.dev.on NVS.STATUS.SCAN = true ∧ s.dev.nvs.run = none ∧ s.dev.on NVS.STATUS.FROZEN =
      false ∧ s.dev.rd NVS.SCAN_POS.PAGE = p ∧ p < 1023) ∧
    (∃ (s : State) (p : Nat) (weak : Nat), s.dev.up = true ∧ s.dev.on NVS.STATUS.SCAN = true ∧ s.dev.nvs.run = none ∧ s.dev.on
      NVS.STATUS.FROZEN = false ∧ s.dev.rd NVS.SCAN_POS.PAGE = p ∧ p < 1023 ∧ 0 < weak) ∧
    (∃ (s : State), s.dev.up = true ∧ s.dev.on NVS.STATUS.FROZEN = false ∧ s.dev.nvs.run = none ∧ s.dev.pw.seconds < 3599) :=
  ⟨⟨State.reset, by decide +kernel⟩,
   ⟨storing [5, 6] [], storeRun [5, 6], 5, 6, 1, 1, [], by decide +kernel⟩,
   
      ⟨{ (storing [5, 6] [(NVS.STATUS.WEAR_WARN, 1), (NVS.WEAR_MAX.WCNT, 20)] fun n => { n with winB := [5] }) with mem := Memory.store ⟨[], [], []⟩ (pageAddr 5) [1, 2] },
      storeRun [5, 6], 5, 6, 0, 1, [], by decide +kernel⟩,
   ⟨storing [5] [(NVS.STATUS.WEAR_WARN, 1)] fun n => { n with jNewest := some 63 }, storeRun [5], 5, 1, 0, by decide +kernel⟩,
   ⟨storing [5] [(NVS.STATUS.WEAR_WARN, 1)] fun n => { n with winB := [5] }, storeRun [5], 5, 0, 0, by decide +kernel⟩,
   ⟨{ (storing [5, 6] []) with mem := Memory.flip ⟨[], [], []⟩ (pageAddr 5) 3 }, storeRun [5, 6], 5, [6], by decide +kernel⟩,
   ⟨State.reset, pageAddr 832, by decide +kernel⟩,
   ⟨st [(NVS.STATUS.FROZEN, 1)], waBase + 0x3FFFC, by decide +kernel⟩,
   ⟨storing [5] [], waBase + 0x3FFFC, by decide +kernel, (fun r h => by cases h; exact ⟨by decide +kernel, fun q h => by cases h⟩)⟩,
   ⟨State.reset, waBase, by decide +kernel, (fun r h => by cases h)⟩,
   ⟨storing [5, 6] [], pageAddr 6, storeRun [5, 6], by decide +kernel⟩,
   ⟨{ (nvsState [] fun n => { n with dirty := [5] }) with mem := Memory.store ⟨[], [], []⟩ (pageAddr 5) [1, 2] }, 5,
      by decide +kernel⟩,
   ⟨nvsState [] fun n => { n with winB := [1023], evNext := 1023 }, 1023, by decide +kernel⟩,
   ⟨Instr.scanNow, st [(NVS.STATUS.SCAN, 1)], by simp, by decide +kernel⟩,
   ⟨Instr.scanPassStart, stOf { (st [(NVS.SCAN_CFG.HOURS, 1)]).dev with marks := [(.scan, 0)] }, by simp, by decide +kernel⟩,
   ⟨Instr.scanPassStart, st [(NVS.SCAN_POS.PAGE, 5)], by simp, by decide +kernel⟩,
   ⟨State.reset, by decide +kernel⟩,
   ⟨storing [5] [(NVS.STATUS.SCAN, 1)], by decide +kernel⟩,
   ⟨st [(NVS.STATUS.SCAN, 1), (NVS.WEAK_CNT.CNT, 2 ^ 32 - 1), (NVS.SCAN_POS.PAGE, 1022)], 1022, by decide +kernel⟩,
   ⟨st [(NVS.STATUS.SCAN, 1), (NVS.WEAK_CNT.CNT, 2 ^ 32 - 1), (NVS.SCAN_POS.PAGE, 1022)], 1022, 3, by decide +kernel⟩,
   ⟨st [(AGE.POH.HOURS, 7)], by decide +kernel⟩⟩

theorem wit_ProfilesLoadAndFlashWorks :
    (∃ (s : State) (k : Nat), (s.dev.up = true ∧ s.dev.rd PROF.STATUS.STATE ≠ 1 ∧ k = (if s.dev.on PROF.CTL.USE_PINS then s.dev.rd
      PROF.STATUS.PINS else s.dev.rd PROF.CTL.SEL) ∧ headerOk s.mem k = true) ∧ headerCrcOk s.mem k = true) ∧
    (∃ (s : State) (k : Nat), s.dev.up = true ∧ s.dev.rd PROF.STATUS.STATE ≠ 1 ∧ k = (if s.dev.on PROF.CTL.USE_PINS then s.dev.rd
      PROF.STATUS.PINS else s.dev.rd PROF.CTL.SEL) ∧ headerOk s.mem k = false) ∧
    (∃ (s : State) (k : Nat), (s.dev.up = true ∧ s.dev.rd PROF.STATUS.STATE ≠ 1 ∧ k = (if s.dev.on PROF.CTL.USE_PINS then s.dev.rd
      PROF.STATUS.PINS else s.dev.rd PROF.CTL.SEL) ∧ headerOk s.mem k = true) ∧ headerCrcOk s.mem k = false) ∧
    (∃ (s : State), s.dev.up = true ∧ s.dev.rd PROF.STATUS.STATE = 1) ∧
    (∃ (s : State), s.dev.up = true ∧ s.dev.rd PROF.STATUS.STATE ≠ 1) ∧
    (∃ (s : State) (q : TblRef), (s.dev.up = true ∧ s.dev.pw.booting = false ∧ curRef s.mem s.dev = some q ∧ q.kind ≠ 2 ∧ refOk s.mem
      q = true ∧ s.dev.on (bankBusyOf q.kind q.unit) = false) ∧ crc32 (s.mem.ftake q.ofs q.len) = q.crc) ∧
    (∃ (s : State) (q : TblRef), (s.dev.up = true ∧ s.dev.pw.booting = false ∧ curRef s.mem s.dev = some q ∧ q.kind ≠ 2 ∧ refOk s.mem
      q = true ∧ s.dev.on (bankBusyOf q.kind q.unit) = false) ∧ crc32 (s.mem.ftake q.ofs q.len) ≠ q.crc) ∧
    (∃ (s : State) (q : TblRef), s.dev.up = true ∧ s.dev.pw.booting = false ∧ curRef s.mem s.dev = some q ∧ q.kind ≠ 2 ∧ refOk s.mem q
      = true ∧ s.dev.on (bankBusyOf q.kind q.unit) = true) ∧
    (∃ (s : State) (q : TblRef) (bank : Nat), s.dev.up = true ∧ s.dev.pw.booting = false ∧ curRef s.mem s.dev = some q ∧ q.kind = 2 ∧
      bank = 1 - s.dev.rd (THERM.CTL.BANK q.unit) ∧ s.dev.on MEM.STATUS.DEGRADED = true) ∧
    (∃ (s : State) (q : TblRef) (bank : Nat), s.dev.up = true ∧ s.dev.pw.booting = false ∧ curRef s.mem s.dev = some q ∧ q.kind = 2 ∧
      bank = 1 - s.dev.rd (THERM.CTL.BANK q.unit) ∧ s.dev.on MEM.STATUS.DEGRADED = false ∧ refOk s.mem q = true ∧ s.dev.on
      (THERM.TBL_STAT.BANK_BUSY q.unit) = false ∧ s.dev.on (THERM.TBL_STAT.VBUSY q.unit) = false) ∧
    (∃ (s : State) (q : TblRef) (bank : Nat), s.dev.up = true ∧ s.dev.pw.booting = false ∧ curRef s.mem s.dev = some q ∧ q.kind = 2 ∧
      bank = 1 - s.dev.rd (THERM.CTL.BANK q.unit) ∧ s.dev.on MEM.STATUS.DEGRADED = false ∧ refOk s.mem q = true ∧ s.dev.on
      (THERM.TBL_STAT.BANK_BUSY q.unit) = false ∧ s.dev.on (THERM.TBL_STAT.VBUSY q.unit) = false) ∧
    (∃ (s : State) (i : Nat), (s.dev.up = true ∧ s.dev.pw.booting = false ∧ s.dev.rd PROF.STATUS.STATE = 1 ∧ s.dev.prof.verifying =
      false ∧ profRefs s.mem s.dev.prof.k ≤ s.dev.prof.next) ∧ imageParse (wordsAt s.mem (profBase s.dev.prof.k + 768) (profImgLen
      s.mem s.dev.prof.k)) ((wordsAt s.mem (profBase s.dev.prof.k + 768) (profImgLen s.mem s.dev.prof.k)).length + 1) 0 [] =
      .error i) ∧
    (∃ (s : State) (ws : List (Nat × Nat)) (y : DM), (s.dev.up = true ∧ s.dev.pw.booting = false ∧ s.dev.rd PROF.STATUS.STATE = 1 ∧
      s.dev.prof.verifying = false ∧ profRefs s.mem s.dev.prof.k ≤ s.dev.prof.next ∧ s.dev.prof.filled = []) ∧ imageParse (wordsAt
      s.mem (profBase s.dev.prof.k + 768) (profImgLen s.mem s.dev.prof.k)) ((wordsAt s.mem (profBase s.dev.prof.k + 768)
      (profImgLen s.mem s.dev.prof.k)).length + 1) 0 [] = .ok ws ∧ y = imageWrite ws (s.dev, s.mem) ∧ beforeEpochs y.1 = false ∧
      y.1.on PROF.CTL.ARM = false ∧ y.1.prof = s.dev.prof ∧ y.1.pw.booting = false) ∧
    (∃ (q : _) (s : State) (src : Nat) (dst : Nat) (len : Nat), q ∈ [(Instr.flashProg, 1), (Instr.flashErase, 2), (Instr.flashRead,
      3)] ∧ s.dev.up = true ∧ src = s.dev.rd2 PROF.FL_SRC_LO.ADDR PROF.FL_SRC_HI.ADDR ∧ dst = s.dev.rd PROF.FL_DST.OFS ∧ len =
      s.dev.rd PROF.FL_LEN.BYTES ∧ s.dev.on PROF.FL_STAT.BUSY = true) ∧
    (∃ (q : _) (s : State) (src : Nat) (dst : Nat) (len : Nat), q ∈ [(Instr.flashProg, 1), (Instr.flashErase, 2), (Instr.flashRead,
      3)] ∧ s.dev.up = true ∧ src = s.dev.rd2 PROF.FL_SRC_LO.ADDR PROF.FL_SRC_HI.ADDR ∧ dst = s.dev.rd PROF.FL_DST.OFS ∧ len =
      s.dev.rd PROF.FL_LEN.BYTES ∧ s.dev.on PROF.FL_STAT.BUSY = false ∧ flashCause (s.dev, s.mem) q.2 src dst len = none) ∧
    (∃ (q : _) (s : State) (src : Nat) (dst : Nat) (len : Nat), q ∈ [(Instr.flashProg, 1), (Instr.flashErase, 2), (Instr.flashRead,
      3)] ∧ s.dev.up = true ∧ src = s.dev.rd2 PROF.FL_SRC_LO.ADDR PROF.FL_SRC_HI.ADDR ∧ dst = s.dev.rd PROF.FL_DST.OFS ∧ len =
      s.dev.rd PROF.FL_LEN.BYTES ∧ s.dev.on PROF.FL_STAT.BUSY = false ∧ flashCause (s.dev, s.mem) q.2 src dst len = none) ∧
    (∃ (q : _) (s : State) (src : Nat) (dst : Nat) (len : Nat) (c : Nat), q ∈ [(Instr.flashProg, 1), (Instr.flashErase, 2),
      (Instr.flashRead, 3)] ∧ s.dev.up = true ∧ src = s.dev.rd2 PROF.FL_SRC_LO.ADDR PROF.FL_SRC_HI.ADDR ∧ dst = s.dev.rd
      PROF.FL_DST.OFS ∧ len = s.dev.rd PROF.FL_LEN.BYTES ∧ c < 16 ∧ s.dev.on PROF.FL_STAT.BUSY = false ∧ flashCause (s.dev, s.mem)
      q.2 src dst len = some c) ∧
    (∃ (q : _) (s : State) (src : Nat) (dst : Nat) (len : Nat) (c : Nat), q ∈ [(Instr.flashProg, 1), (Instr.flashErase, 2),
      (Instr.flashRead, 3)] ∧ s.dev.up = true ∧ src = s.dev.rd2 PROF.FL_SRC_LO.ADDR PROF.FL_SRC_HI.ADDR ∧ dst = s.dev.rd
      PROF.FL_DST.OFS ∧ len = s.dev.rd PROF.FL_LEN.BYTES ∧ c < 16 ∧ s.dev.on PROF.FL_STAT.BUSY = false ∧ flashCause (s.dev, s.mem)
      q.2 src dst len = some c) ∧
    (∃ (s : State), s.dev.up = true ∧ s.dev.on PROF.FL_STAT.BUSY = false) ∧
    (∃ (s : State), s.dev.up = true ∧ s.dev.on PROF.FL_STAT.BUSY = true ∧ s.dev.prof.flash = 2) ∧
    (∃ (s : State), s.dev.up = true ∧ s.dev.on PROF.FL_STAT.BUSY = true ∧ s.dev.prof.flash = 1 ∧ 0x413000000 ≤ s.dev.prof.flSrc ∧
      s.Sound) ∧
    (∃ (s : State), s.dev.up = true ∧ s.dev.on PROF.FL_STAT.BUSY = true ∧ s.dev.prof.flash = 1 ∧ 0x413000000 ≤ s.dev.prof.flSrc ∧
      s.Sound) ∧
    (∃ (s : State), s.dev.up = true ∧ s.dev.on PROF.FL_STAT.BUSY = true ∧ s.dev.prof.flash = 3 ∧ 0x413000000 ≤ s.dev.prof.flSrc ∧
      s.Sound) :=
  ⟨⟨{ (st [(PROF.STATUS.ERR, 3)]) with mem := profMem 0 [] (leBytes 4 0) [] 0x46CF15B4 }, 0, by decide +kernel,
      beq_iff_eq.mpr (crc32_of (by decide +kernel))⟩,
   ⟨st [(PROF.CTL.SEL, 7)], 7, by decide +kernel⟩,
   ⟨{ (st [(PROF.CTL.USE_PINS, 1)]) with mem := profMem 0 [] (leBytes 4 0) [] 0x46CF15B5 }, 0, by decide +kernel,
      beq_eq_false_iff_ne.mpr (crc32_not (by decide +kernel))⟩,
   ⟨st [(PROF.STATUS.STATE, 1)], by decide +kernel⟩,
   ⟨State.reset, by decide +kernel⟩,
   ⟨loadSt 1 (tblRef 4 15 1024 0xB83AFFF4) (leBytes 4 0) [] [], ⟨4, 15, 0x10000, 1024, 0xB83AFFF4⟩, by decide +kernel,
      crc32_of (by decide +kernel)⟩,
   ⟨loadSt 1 (tblRef 4 15 1024 7) (leBytes 4 0) [] [], ⟨4, 15, 0x10000, 1024, 7⟩, by decide +kernel, crc32_not (by decide +kernel)⟩,
   ⟨loadSt 1 (tblRef 4 15 1024 7) (leBytes 4 0) [] [(VALVE.TBL_STAT.BANK_BUSY 15, 1)], ⟨4, 15, 0x10000, 1024, 7⟩, by decide +kernel⟩,
   ⟨loadSt 1 (tblRef 2 1 1024 7) (leBytes 4 0) [] [(MEM.STATUS.DEGRADED, 1)], ⟨2, 1, 0x10000, 1024, 7⟩, 1, by decide +kernel⟩,
   ⟨loadSt 1 (tblRef 2 1 0x4000 0xA90F1D63) (leBytes 4 0) [0, 0, 0, 0, 0, 0] [], ⟨2, 1, 0x10000, 0x4000, 0xA90F1D63⟩, 1,
      by decide +kernel⟩,
   ⟨loadSt 1 (tblRef 2 1 0x4000 0xA90F1D62) (leBytes 4 0) [0, 0, 0, 0, 0, 0] [], ⟨2, 1, 0x10000, 0x4000, 0xA90F1D62⟩, 1,
      by decide +kernel⟩,
   ⟨loadSt 0 [] (leBytes 4 0 ++ leBytes 4 5) [] [], 1, by decide +kernel, except_error (by decide +kernel)⟩,
   ⟨loadSt 0 [] (leBytes 4 (2 ^ 24 + FAB.TIMEOUT_US.US.addr) ++ leBytes 4 5 ++ leBytes 4 0) [] [(WEB.EPOCH_ID.LIVE_ID, 1)],
      [(FAB.TIMEOUT_US.US.addr, 5)], imageWrite [(FAB.TIMEOUT_US.US.addr, 5)] ((loadSt 0 [] (leBytes 4 (2 ^ 24 +
      FAB.TIMEOUT_US.US.addr) ++ leBytes 4 5 ++ leBytes 4 0) [] [(WEB.EPOCH_ID.LIVE_ID, 1)]).dev, (loadSt 0 [] (leBytes 4 (2 ^ 24
      + FAB.TIMEOUT_US.US.addr) ++ leBytes 4 5 ++ leBytes 4 0) [] [(WEB.EPOCH_ID.LIVE_ID, 1)]).mem), by decide +kernel,
      except_ok (by decide +kernel), rfl, by decide +kernel⟩,
   ⟨(Instr.flashErase, 2), st [(PROF.FL_STAT.BUSY, 1)], 0, 0, 0, by simp, by decide +kernel⟩,
   ⟨(Instr.flashProg, 1), st [(PROF.FL_DST.OFS, 0xFFFFFF00), (PROF.FL_LEN.BYTES, 256), (PROF.FL_SRC_HI.ADDR, 4)], 0x400000000,
      0xFFFFFF00, 256, by simp, by decide +kernel⟩,
   ⟨(Instr.flashErase, 2), st [(PROF.FL_DST.OFS, 65536)], 0, 65536, 0, by simp, by decide +kernel⟩,
   ⟨(Instr.flashRead, 3), st [(PROF.FL_DST.OFS, 0xFFFFFF01), (PROF.FL_LEN.BYTES, 256), (PROF.FL_SRC_HI.ADDR, 4)], 0x400000000,
      0xFFFFFF01, 256, 5, by simp, by decide +kernel⟩,
   ⟨(Instr.flashProg, 1), st [(PROF.FL_DST.OFS, 0xFFFFFF01), (PROF.FL_LEN.BYTES, 256), (PROF.FL_SRC_HI.ADDR, 4)], 0x400000000,
      0xFFFFFF01, 256, 1, by simp, by decide +kernel⟩,
   ⟨State.reset, by decide +kernel⟩,
   
      ⟨{ (profSt [(PROF.FL_STAT.BUSY, 1)] fun p => { p with flash := 2, flDst := 65536 }) with mem := Memory.fwrite (Memory.fwrite ⟨[], [], []⟩ 65535 [1, 2]) 131071 [3, 4] },
      by decide +kernel⟩,
   
      ⟨{ (profSt [(PROF.FL_STAT.BUSY, 1)] fun p => { p with flash := 1, flSrc := 0x413000000, flDst := 65536, flLen := 256 }) with mem := Memory.store ⟨[], [], []⟩ 0x413000000 [1, 2] },
      by decide +kernel⟩,
   
      ⟨{ (profSt [(PROF.FL_STAT.BUSY, 1)] fun p => { p with flash := 1, flSrc := 0x413000000, flDst := 65536, flLen := 256 }) with mem := Memory.store ⟨[], [], []⟩ 0x4130000FF [1] },
      by decide +kernel⟩,
   
      ⟨{ (profSt [(PROF.FL_STAT.BUSY, 1)] fun p => { p with flash := 3, flSrc := 0x413000001, flDst := 65536, flLen := 3 }) with mem := Memory.fwrite ⟨[], [], []⟩ 65535 [1, 2] },
      by decide +kernel⟩⟩

/-! ## Precision converters -/

/-- A conversion of entry 3 by MUXP and KIND. -/
def conv (kind : ConvKind) (muxp kindNo : Nat) : Conv := ⟨kind, 3, muxp, 2 * kindNo, 2 ^ 24, 5, 10, 2 ^ 24, 7, false, 0⟩
/-- Converter 1 at the instant at which such a conversion from time 0 ends. -/
def padcSt (l : List (Fld × Nat)) (g : Padc → Padc) : State :=
  stOf { (dev ((PADC.SEQ_CTL.RUN 1, 0) :: l)).updPadc 1 g with time := ⟨85333, 0, 0⟩ }
/-- Converter 1 with `c` running. -/
def converting (c : Conv) (l : List (Fld × Nat)) : State := padcSt ((PADC.STATUS.RUNNING 1, 1) :: l) fun p => { p with run := some c }
def calStep (full : Bool) (left : Nat) (sum : Int) (abort : Bool) : CalStep := ⟨full, 1, 1000000, left, sum, conv .cal 5 1, abort⟩
def stepping (s : CalStep) (l : List (Fld × Nat)) : State :=
  padcSt ([(PADC.STATUS.RUNNING 1, 1), (PADC.CAL_STAT.BUSY 1, 1), (PADC.STATUS.SUSPENDED 1, 1)] ++ l)
    fun p => { p with run := some (conv .cal 5 1), cal := some s }

theorem wit_ConversionsGiveTheirResults :
    (∃ (s : State) (n : Fin 2), s.dev.up = true ∧ (s.dev.padc[n].run = none ∨ (∃ c, s.dev.padc[n].run = some c ∧ s.dev.now < c.since +
      c.time))) ∧
    (∃ (s : State) (n : Fin 2), s.dev.up = true ∧ (s.dev.padc[n].run = none ∨ (∃ c, s.dev.padc[n].run = some c ∧ s.dev.now < c.since +
      c.time))) ∧
    (∃ (s : State) (n : Fin 2) (x : Int) (raw : Int) (c1 : Int) (c2 : Int) (v : Int) (res : Int) (c : Conv), (s.dev.up = true ∧
      s.dev.padc[n].run = some c ∧ c.since + c.time ≤ s.dev.now ∧ c.kind = .seq ∧ c.entry < 16 ∧ c.muxp ≠ 21 ∧ c.intTemp = false ∧
      s.dev.on (PADC.SEQ_CTL.RUN n) = false ∧ s.dev.on (PADC.INJ_STAT.PENDING n) = false ∧ s.dev.padc[n].cal = none ∧
      s.dev.padc[n].calWait = none ∧ raw = clampI (-8388607) 8388607 x ∧ c1 = sar ((raw - c.ofs) * c.gainc + 2 ^ 23) 24 ∧ c2 = sar
      (sat24 c1 * s.dev.rd (PADC.REF_CORR.RC n) + 2 ^ 23) 24) ∧ v = sat24 c2 * 15625 / (64 * c.gain) ∧ (c.muxp = 24 ∧ res = v ∨
      c.muxp = 26 ∧ res = 4 * v ∨ 28 ≤ c.muxp ∧ res = 16 * v ∨ c.muxp ≠ 24 ∧ c.muxp ≠ 26 ∧ c.muxp < 28 ∧ (c.kindNo = 0 ∧ res =
      sat24 c2 ∨ (c.kindNo = 1 ∨ 5 ≤ c.kindNo) ∧ res = v ∨ c.kindNo = 2 ∧ res = c.lofs + sar (v * c.slope + 2 ^ 23) 24))) ∧
    (∃ (s : State) (n : Fin 2) (x : Int) (raw : Int) (c1 : Int) (c2 : Int) (v : Int) (res : Int) (c : Conv), (s.dev.up = true ∧
      s.dev.padc[n].run = some c ∧ c.since + c.time ≤ s.dev.now ∧ c.kind = .seq ∧ c.entry < 16 ∧ c.muxp ≠ 21 ∧ c.intTemp = false ∧
      s.dev.on (PADC.SEQ_CTL.RUN n) = false ∧ s.dev.on (PADC.INJ_STAT.PENDING n) = false ∧ s.dev.padc[n].cal = none ∧
      s.dev.padc[n].calWait = none ∧ raw = clampI (-8388607) 8388607 x ∧ c1 = sar ((raw - c.ofs) * c.gainc + 2 ^ 23) 24 ∧ c2 = sar
      (sat24 c1 * s.dev.rd (PADC.REF_CORR.RC n) + 2 ^ 23) 24) ∧ v = sat24 c2 * 15625 / (64 * c.gain) ∧ (c.muxp = 24 ∧ res = v ∨
      c.muxp = 26 ∧ res = 4 * v ∨ 28 ≤ c.muxp ∧ res = 16 * v ∨ c.muxp ≠ 24 ∧ c.muxp ≠ 26 ∧ c.muxp < 28 ∧ (c.kindNo = 0 ∧ res =
      sat24 c2 ∨ (c.kindNo = 1 ∨ 5 ≤ c.kindNo) ∧ res = v ∨ c.kindNo = 2 ∧ res = c.lofs + sar (v * c.slope + 2 ^ 23) 24))) ∧
    (∃ (s : State) (n : Fin 2) (x : Int) (raw : Int) (c1 : Int) (c2 : Int) (v : Int) (res : Int) (c : Conv), (s.dev.up = true ∧
      s.dev.padc[n].run = some c ∧ c.since + c.time ≤ s.dev.now ∧ c.kind = .seq ∧ c.entry < 16 ∧ c.muxp ≠ 21 ∧ c.intTemp = false ∧
      s.dev.on (PADC.SEQ_CTL.RUN n) = false ∧ s.dev.on (PADC.INJ_STAT.PENDING n) = false ∧ s.dev.padc[n].cal = none ∧
      s.dev.padc[n].calWait = none ∧ raw = clampI (-8388607) 8388607 x ∧ c1 = sar ((raw - c.ofs) * c.gainc + 2 ^ 23) 24 ∧ c2 = sar
      (sat24 c1 * s.dev.rd (PADC.REF_CORR.RC n) + 2 ^ 23) 24) ∧ v = sat24 c2 * 15625 / (64 * c.gain) ∧ (c.muxp = 24 ∧ res = v ∨
      c.muxp = 26 ∧ res = 4 * v ∨ 28 ≤ c.muxp ∧ res = 16 * v ∨ c.muxp ≠ 24 ∧ c.muxp ≠ 26 ∧ c.muxp < 28 ∧ (c.kindNo = 0 ∧ res =
      sat24 c2 ∨ (c.kindNo = 1 ∨ 5 ≤ c.kindNo) ∧ res = v ∨ c.kindNo = 2 ∧ res = c.lofs + sar (v * c.slope + 2 ^ 23) 24))) ∧
    (∃ (s : State) (n : Fin 2) (x : Int) (raw : Int) (c1 : Int) (c2 : Int) (v : Int) (res : Int) (c : Conv), (s.dev.up = true ∧
      s.dev.padc[n].run = some c ∧ c.since + c.time ≤ s.dev.now ∧ c.kind = .seq ∧ c.entry < 16 ∧ c.muxp ≠ 21 ∧ c.intTemp = false ∧
      s.dev.on (PADC.SEQ_CTL.RUN n) = false ∧ s.dev.on (PADC.INJ_STAT.PENDING n) = false ∧ s.dev.padc[n].cal = none ∧
      s.dev.padc[n].calWait = none ∧ raw = clampI (-8388607) 8388607 x ∧ c1 = sar ((raw - c.ofs) * c.gainc + 2 ^ 23) 24 ∧ c2 = sar
      (sat24 c1 * s.dev.rd (PADC.REF_CORR.RC n) + 2 ^ 23) 24) ∧ v = sat24 c2 * 15625 / (64 * c.gain) ∧ (c.muxp = 24 ∧ res = v ∨
      c.muxp = 26 ∧ res = 4 * v ∨ 28 ≤ c.muxp ∧ res = 16 * v ∨ c.muxp ≠ 24 ∧ c.muxp ≠ 26 ∧ c.muxp < 28 ∧ (c.kindNo = 0 ∧ res =
      sat24 c2 ∨ (c.kindNo = 1 ∨ 5 ≤ c.kindNo) ∧ res = v ∨ c.kindNo = 2 ∧ res = c.lofs + sar (v * c.slope + 2 ^ 23) 24))) ∧
    (∃ (s : State) (n : Fin 2) (x : Int) (raw : Int) (c1 : Int) (c2 : Int) (v : Int) (res : Int) (c : Conv), (s.dev.up = true ∧
      s.dev.padc[n].run = some c ∧ c.since + c.time ≤ s.dev.now ∧ c.kind = .seq ∧ c.entry < 16 ∧ c.muxp ≠ 21 ∧ c.intTemp = false ∧
      s.dev.on (PADC.SEQ_CTL.RUN n) = false ∧ s.dev.on (PADC.INJ_STAT.PENDING n) = false ∧ s.dev.padc[n].cal = none ∧
      s.dev.padc[n].calWait = none ∧ raw = clampI (-8388607) 8388607 x ∧ c1 = sar ((raw - c.ofs) * c.gainc + 2 ^ 23) 24 ∧ c2 = sar
      (sat24 c1 * s.dev.rd (PADC.REF_CORR.RC n) + 2 ^ 23) 24) ∧ v = sat24 c2 * 15625 / (64 * c.gain) ∧ (c.muxp = 24 ∧ res = v ∨
      c.muxp = 26 ∧ res = 4 * v ∨ 28 ≤ c.muxp ∧ res = 16 * v ∨ c.muxp ≠ 24 ∧ c.muxp ≠ 26 ∧ c.muxp < 28 ∧ (c.kindNo = 0 ∧ res =
      sat24 c2 ∨ (c.kindNo = 1 ∨ 5 ≤ c.kindNo) ∧ res = v ∨ c.kindNo = 2 ∧ res = c.lofs + sar (v * c.slope + 2 ^ 23) 24))) ∧
    (∃ (s : State) (n : Fin 2) (x : Int) (raw : Int) (c1 : Int) (c2 : Int) (v : Int) (res : Int) (c : Conv), (s.dev.up = true ∧
      s.dev.padc[n].run = some c ∧ c.since + c.time ≤ s.dev.now ∧ c.kind = .seq ∧ c.entry < 16 ∧ c.muxp ≠ 21 ∧ c.intTemp = false ∧
      s.dev.on (PADC.SEQ_CTL.RUN n) = false ∧ s.dev.on (PADC.INJ_STAT.PENDING n) = false ∧ s.dev.padc[n].cal = none ∧
      s.dev.padc[n].calWait = none ∧ raw = clampI (-8388607) 8388607 x ∧ c1 = sar ((raw - c.ofs) * c.gainc + 2 ^ 23) 24 ∧ c2 = sar
      (sat24 c1 * s.dev.rd (PADC.REF_CORR.RC n) + 2 ^ 23) 24) ∧ v = sat24 c2 * 15625 / (64 * c.gain) ∧ (c.muxp = 24 ∧ res = v ∨
      c.muxp = 26 ∧ res = 4 * v ∨ 28 ≤ c.muxp ∧ res = 16 * v ∨ c.muxp ≠ 24 ∧ c.muxp ≠ 26 ∧ c.muxp < 28 ∧ (c.kindNo = 0 ∧ res =
      sat24 c2 ∨ (c.kindNo = 1 ∨ 5 ≤ c.kindNo) ∧ res = v ∨ c.kindNo = 2 ∧ res = c.lofs + sar (v * c.slope + 2 ^ 23) 24))) ∧
    (∃ (s : State) (n : Fin 2) (c : Conv), s.dev.up = true ∧ s.dev.padc[n].run = some c ∧ c.kind = .seq ∧ c.since + c.time ≤ s.dev.now
      ∧ c.entry < 16 ∧ c.muxp < 21 ∧ c.intTemp = false ∧ s.dev.on (PADC.SEQ_CTL.RUN n) = false ∧ s.dev.on (PADC.INJ_STAT.PENDING
      n) = false ∧ s.dev.padc[n].cal = none ∧ s.dev.padc[n].calWait = none ∧ c.kindNo = 3) ∧
    (∃ (s : State) (n : Fin 2) (c : Conv), s.dev.up = true ∧ s.dev.padc[n].run = some c ∧ c.kind = .seq ∧ c.since + c.time ≤ s.dev.now
      ∧ c.entry < 16 ∧ c.muxp < 21 ∧ c.intTemp = false ∧ s.dev.on (PADC.SEQ_CTL.RUN n) = false ∧ s.dev.on (PADC.INJ_STAT.PENDING
      n) = false ∧ s.dev.padc[n].cal = none ∧ s.dev.padc[n].calWait = none ∧ c.kindNo = 4) ∧
    (∃ (s : State) (n : Fin 2) (c : Conv), s.dev.up = true ∧ s.dev.padc[n].run = some c ∧ c.kind = .seq ∧ c.since + c.time ≤ s.dev.now
      ∧ c.entry < 16 ∧ c.muxp < 21 ∧ c.intTemp = false ∧ s.dev.on (PADC.SEQ_CTL.RUN n) = false ∧ s.dev.on (PADC.INJ_STAT.PENDING
      n) = false ∧ s.dev.padc[n].cal = none ∧ s.dev.padc[n].calWait = none ∧ c.kindNo = 4) ∧
    (∃ (s : State) (n : Fin 2) (o : Fin 2) (x : Int) (c1 : Int) (c2 : Int) (v : Int) (w : Int) (t : Nat) (need : Nat) (miss : Nat) (c
      : Conv), (s.dev.up = true ∧ o ≠ n ∧ s.dev.padc[n].run = some c ∧ c.since + c.time ≤ s.dev.now ∧ c.kind = .seq ∧ c.entry < 16
      ∧ c.muxp = 21 ∧ c.kindNo = 1 ∧ c.intTemp = false ∧ s.dev.on (PADC.SEQ_CTL.RUN n) = false ∧ s.dev.on (PADC.INJ_STAT.PENDING
      n) = false ∧ s.dev.padc[n].cal = none ∧ s.dev.padc[n].calWait = none ∧ c1 = sar ((clampI (-8388607) 8388607 x - c.ofs) *
      c.gainc + 2 ^ 23) 24 ∧ c2 = sar (sat24 c1 * s.dev.rd (PADC.REF_CORR.RC n) + 2 ^ 23) 24) ∧ v = sat24 c2 * 15625 / (64 *
      c.gain) ∧ s.dev.padc[o].chk = some (w, t) ∧ s.dev.now - t ≤ 16000000 * s.dev.rd (PADC.CHK_CFG.AGE 0) ∧ need = max 1
      (s.dev.rd (PADC.CHK_CFG.N 0)) ∧ miss = s.dev.padc[(0 : Fin 2)].miss + 1) ∧
    (∃ (s : State) (n : Fin 2) (o : Fin 2) (x : Int) (c1 : Int) (c2 : Int) (v : Int) (w : Int) (t : Nat) (need : Nat) (miss : Nat) (c
      : Conv), (s.dev.up = true ∧ o ≠ n ∧ s.dev.padc[n].run = some c ∧ c.since + c.time ≤ s.dev.now ∧ c.kind = .seq ∧ c.entry < 16
      ∧ c.muxp = 21 ∧ c.kindNo = 1 ∧ c.intTemp = false ∧ s.dev.on (PADC.SEQ_CTL.RUN n) = false ∧ s.dev.on (PADC.INJ_STAT.PENDING
      n) = false ∧ s.dev.padc[n].cal = none ∧ s.dev.padc[n].calWait = none ∧ c1 = sar ((clampI (-8388607) 8388607 x - c.ofs) *
      c.gainc + 2 ^ 23) 24 ∧ c2 = sar (sat24 c1 * s.dev.rd (PADC.REF_CORR.RC n) + 2 ^ 23) 24) ∧ v = sat24 c2 * 15625 / (64 *
      c.gain) ∧ s.dev.padc[o].chk = some (w, t) ∧ s.dev.now - t ≤ 16000000 * s.dev.rd (PADC.CHK_CFG.AGE 0) ∧ need = max 1
      (s.dev.rd (PADC.CHK_CFG.N 0)) ∧ miss = s.dev.padc[(0 : Fin 2)].miss + 1) ∧
    (∃ (s : State) (n : Fin 2) (c : Conv), s.dev.up = true ∧ s.dev.padc[n].run = some c) ∧
    (∃ (s : State) (n : Fin 2), s.dev.up = true ∧ s.dev.padc[n].run = none ∧ s.dev.on (PADC.INJ_STAT.PENDING n) = false ∧
      s.dev.padc[n].cal = none ∧ s.dev.padc[n].calWait = none) ∧
    (∃ (s : State) (n : Fin 2) (e : Nat), s.dev.up = true ∧ s.dev.padc[n].run = none ∧ s.dev.on (PADC.INJ_STAT.PENDING n) = false ∧
      s.dev.padc[n].cal = none ∧ s.dev.padc[n].calWait = none ∧ s.dev.padc[n].next = e ∧ dormant s.dev = false ∧ e < s.dev.rd
      (PADC.SEQ_CTL.LEN n) ∧ e < 16 ∧ s.dev.on (PADC.CFG1.EN n e) = true ∧ s.dev.rd (PADC.PASS.VAL n) % 2 ^ s.dev.rd
      (PADC.CFG1.SKIP n e) = 0) ∧
    (∃ (s : State) (n : Fin 2), s.dev.up = true ∧ s.dev.padc[n].run = none ∧ s.dev.on (PADC.INJ_STAT.PENDING n) = false ∧
      s.dev.padc[n].cal = none ∧ s.dev.padc[n].calWait = none ∧ s.dev.padc[n].next = s.dev.rd (PADC.SEQ_CTL.LEN n) ∧ dormant s.dev
      = false ∧ 0 < s.dev.rd (PADC.SEQ_CTL.LEN n) ∧ s.dev.on (PADC.CFG1.EN n 0) = true ∧ (s.dev.rd (PADC.PASS.VAL n) + 1) % 2 ^
      s.dev.rd (PADC.CFG1.SKIP n 0) = 0) :=
  ⟨⟨State.reset, 1, by decide +kernel⟩,
   ⟨stOf { (converting (conv .seq 5 1) []).dev with time := ⟨85332, 0, 0⟩ }, 1, by decide +kernel,
      .inr ⟨conv .seq 5 1, by decide +kernel⟩⟩,
   ⟨converting (conv .seq 5 1) [], 1, 1000000, 1000000, 999990, 999990, 244138183, 244138183, conv .seq 5 1, by decide +kernel, rfl,
      by decide +kernel⟩,
   ⟨converting (conv .seq 28 1) [(PADC.STATUS.SUSPECT 1, 1)], 1, -9000000, -8388607, -8388617, -8388608, -2048000000, -32768000000,
      conv .seq 28 1, by decide +kernel, rfl, by decide +kernel⟩,
   ⟨converting (conv .seq 5 2) [], 1, 1000000, 1000000, 999990, 999990, 244138183, 244138188, conv .seq 5 2, by decide +kernel, rfl,
      by decide +kernel⟩,
   ⟨converting (conv .seq 24 1) [], 1, 10, 10, 0, 0, 0, 0, conv .seq 24 1, by decide +kernel, rfl, by decide +kernel⟩,
   ⟨converting (conv .seq 5 0) [], 1, 11, 11, 1, 1, 244, 1, conv .seq 5 0, by decide +kernel, rfl, by decide +kernel⟩,
   ⟨converting (conv .seq 26 1) [], 1, 11, 11, 1, 1, 244, 976, conv .seq 26 1, by decide +kernel, rfl, by decide +kernel⟩,
   ⟨converting (conv .seq 5 3) [], 1, conv .seq 5 3, by decide +kernel⟩,
   ⟨stOf { (converting (conv .seq 5 4) []).dev with time := ⟨16000000001, 0, 0⟩ }, 1, conv .seq 5 4, by decide +kernel⟩,
   ⟨converting (conv .seq 5 4) [], 1, conv .seq 5 4, by decide +kernel⟩,
   ⟨stOf ((converting (conv .seq 21 1) [(PADC.CHK_TOL.NV 0, 100)]).dev.updPadc 0 fun p => { p with chk := some (144, 0) }), 1, 0, 11,
      1, 1, 244, 144, 0, max 1 ((dev []).rd (PADC.CHK_CFG.N 0)), 1, conv .seq 21 1, by decide +kernel, rfl, by decide +kernel⟩,
   ⟨stOf ((converting (conv .seq 21 1) [(PADC.CHK_TOL.NV 0, 100), (PADC.CHK_CFG.N 0, 1)]).dev.updPadc 0 fun p =>
      { p with chk := some (345, 0) }), 1, 0, 11, 1, 1, 244, 345, 0, 1, 1, conv .seq 21 1, by decide +kernel, rfl,
      by decide +kernel⟩,
   ⟨converting (conv .seq 5 1) [(PADC.SEQ_CTL.RUN 1, 1)], 1, conv .seq 5 1, by decide +kernel⟩,
   ⟨State.reset, 0, by decide +kernel⟩,
   ⟨padcSt [(PADC.SEQ_CTL.LEN 1, 16), (PADC.CFG1.EN 1 15, 1), (PADC.PASS.VAL 1, 8), (PADC.CFG1.SKIP 1 15, 3), (PADC.CFG1.EXC 1 15,
      2)] fun p => { p with next := 15 }, 1, 15, by decide +kernel⟩,
   ⟨padcSt [(PADC.SEQ_CTL.LEN 1, 1), (PADC.CFG1.EN 1 0, 1), (PADC.PASS.VAL 1, 2 ^ 32 - 1), (PADC.CFG1.SKIP 1 0, 7)] fun p =>
      { p with next := 1 }, 1, by decide +kernel⟩⟩

theorem wit_InjectionsAndCalibrationSteps :
    (∃ (q : Instr × Fin 2) (s : State) (n : Fin 2), ((∃ n, q = (.injGo n, n)) ∨ (∃ n io falling, q = (.injEdge n io falling, n))) ∧
      (s.dev.up = true ∧ n = q.2) ∧ (∀ io falling, q.1 = .injEdge n io falling → s.dev.rd (PADC.INJ_CTL.SRC n) = 1 ∧ s.dev.rd
      (PADC.INJ_CTL.IO n) = io.val ∧ s.dev.on (PADC.INJ_CTL.EDGE n) = falling) ∧ (s.dev.on (PADC.INJ_STAT.PENDING n) = true ∨ (∃
      c, s.dev.padc[n].run = some c ∧ c.kind = .inj))) ∧
    (∃ (q : Instr × Fin 2) (s : State) (n : Fin 2), ((∃ n, q = (.injGo n, n)) ∨ (∃ n io falling, q = (.injEdge n io falling, n))) ∧
      (s.dev.up = true ∧ n = q.2) ∧ (∀ io falling, q.1 = .injEdge n io falling → s.dev.rd (PADC.INJ_CTL.SRC n) = 1 ∧ s.dev.rd
      (PADC.INJ_CTL.IO n) = io.val ∧ s.dev.on (PADC.INJ_CTL.EDGE n) = falling) ∧ (s.dev.on (PADC.INJ_STAT.PENDING n) = true ∨ (∃
      c, s.dev.padc[n].run = some c ∧ c.kind = .inj))) ∧
    (∃ (q : Instr × Fin 2) (s : State) (n : Fin 2) (c : Conv), ((∃ n, q = (.injGo n, n)) ∨ (∃ n io falling, q = (.injEdge n io
      falling, n))) ∧ (s.dev.up = true ∧ n = q.2) ∧ (∀ io falling, q.1 = .injEdge n io falling → s.dev.rd (PADC.INJ_CTL.SRC n) = 1
      ∧ s.dev.rd (PADC.INJ_CTL.IO n) = io.val ∧ s.dev.on (PADC.INJ_CTL.EDGE n) = falling) ∧ s.dev.on (PADC.INJ_STAT.PENDING n) =
      false ∧ s.dev.padc[n].run = some c ∧ c.kind ≠ .inj) ∧
    (∃ (q : Instr × Fin 2) (s : State) (n : Fin 2), ((∃ n, q = (.injGo n, n)) ∨ (∃ n io falling, q = (.injEdge n io falling, n))) ∧
      (s.dev.up = true ∧ n = q.2) ∧ (∀ io falling, q.1 = .injEdge n io falling → s.dev.rd (PADC.INJ_CTL.SRC n) = 1 ∧ s.dev.rd
      (PADC.INJ_CTL.IO n) = io.val ∧ s.dev.on (PADC.INJ_CTL.EDGE n) = falling) ∧ s.dev.on (PADC.INJ_STAT.PENDING n) = false ∧
      s.dev.padc[n].run = none ∧ dormant s.dev = false) ∧
    (∃ (s : State) (n : Fin 2) (io : Fin 8) (falling : Bool), s.dev.up = true ∧ (s.dev.rd (PADC.INJ_CTL.SRC n) ≠ 1 ∨ s.dev.rd
      (PADC.INJ_CTL.IO n) ≠ io.val ∨ s.dev.on (PADC.INJ_CTL.EDGE n) ≠ falling)) ∧
    (∃ (s : State) (n : Fin 2) (c : Conv), s.dev.up = true ∧ s.dev.padc[n].run = some c ∧ c.entry < 16 ∧ c.since + c.time ≤ s.dev.now
      ∧ dormant s.dev = false ∧ c.kind = .seq ∧ c.muxp ≠ 21 ∧ s.dev.on (PADC.INJ_STAT.PENDING n) = true) ∧
    (∃ (s : State) (n : Fin 2) (x : Int) (c1 : Int) (c2 : Int) (c : Conv), s.dev.up = true ∧ s.dev.padc[n].run = some c ∧ c.entry < 16
      ∧ c.since + c.time ≤ s.dev.now ∧ c.kind = .inj ∧ c.muxp < 21 ∧ c.intTemp = false ∧ c.kindNo = 1 ∧ s.dev.on (PADC.SEQ_CTL.RUN
      n) = false ∧ s.dev.on (PADC.INJ_STAT.PENDING n) = false ∧ s.dev.padc[n].cal = none ∧ s.dev.padc[n].calWait = none ∧ c1 = sar
      ((clampI (-8388607) 8388607 x - c.ofs) * c.gainc + 2 ^ 23) 24 ∧ c2 = sar (sat24 c1 * s.dev.rd (PADC.REF_CORR.RC n) + 2 ^ 23)
      24) ∧
    (∃ (q : Bool × (Fin 2 → Instr)) (s : State) (n : Fin 2), (q = (false, .calZero) ∨ q = (true, .calFullScale)) ∧ s.dev.up = true ∧
      (s.dev.on (PADC.CAL_STAT.PENDING n) = true ∨ s.dev.on (PADC.CAL_STAT.BUSY n) = true)) ∧
    (∃ (q : Bool × (Fin 2 → Instr)) (s : State) (n : Fin 2) (c : Conv), (q = (false, .calZero) ∨ q = (true, .calFullScale)) ∧ s.dev.up
      = true ∧ s.dev.on (PADC.CAL_STAT.PENDING n) = false ∧ s.dev.on (PADC.CAL_STAT.BUSY n) = false ∧ s.dev.padc[n].run = some c) ∧
    (∃ (q : Bool × (Fin 2 → Instr)) (s : State) (n : Fin 2) (c : Conv), (q = (false, .calZero) ∨ q = (true, .calFullScale)) ∧ s.dev.up
      = true ∧ s.dev.on (PADC.CAL_STAT.PENDING n) = false ∧ s.dev.on (PADC.CAL_STAT.BUSY n) = false ∧ c = entryConv s.dev n .cal
      (s.dev.rd (PADC.CAL_CTL.ENTRY n)) ∧ s.dev.padc[n].run = none ∧ dormant s.dev = false ∧ s.dev.on (PADC.INJ_STAT.PENDING n) =
      false ∧ s.dev.padc[n].cal = none ∧ c.internal = false) ∧
    (∃ (q : Bool × (Fin 2 → Instr)) (s : State) (n : Fin 2) (c : Conv), (q = (false, .calZero) ∨ q = (true, .calFullScale)) ∧ s.dev.up
      = true ∧ s.dev.on (PADC.CAL_STAT.PENDING n) = false ∧ s.dev.on (PADC.CAL_STAT.BUSY n) = false ∧ c = entryConv s.dev n .cal
      (s.dev.rd (PADC.CAL_CTL.ENTRY n)) ∧ s.dev.padc[n].run = none ∧ dormant s.dev = false ∧ s.dev.on (PADC.INJ_STAT.PENDING n) =
      false ∧ s.dev.padc[n].cal = none ∧ c.internal = true ∧ s.dev.on (PADC.SEQ_CTL.RUN n) = false) ∧
    (∃ (s : State) (n : Fin 2) (x : Int) (f : Int) (z : Int) (t : Int) (t' : Int) (g : Int) (c : Conv) (st : CalStep), s.dev.up = true
      ∧ s.dev.padc[n].run = some c ∧ c.since + c.time ≤ s.dev.now ∧ c.kind = .cal ∧ c.entry < 16 ∧ c.muxp < 21 ∧ c.intTemp = false
      ∧ s.dev.padc[n].cal = some st ∧ st.conv = c ∧ s.dev.on (PADC.SEQ_CTL.RUN n) = false ∧ s.dev.on (PADC.INJ_STAT.PENDING n) =
      false ∧ s.dev.padc[n].calWait = none ∧ f = (st.sum + clampI (-8388607) 8388607 x + 2 ^ st.avg / 2) / 2 ^ st.avg ∧ z = (if
      s.dev.on (PADC.CAL_STAT.ZERO_HELD n) then s.dev.rdS (PADC.CAL_Z.Z n) else c.ofs) ∧ t = (st.target * 64 * c.gain + 7812) /
      15625 ∧ s.dev.on (PADC.REF_CORR.RC n) = true ∧ t' = (t * 2 ^ 24 + s.dev.rd (PADC.REF_CORR.RC n) / 2) / s.dev.rd
      (PADC.REF_CORR.RC n) ∧ (f ≠ z → g = (t' * 2 ^ 24 + (f - z) / 2).fdiv (f - z))) ∧
    (∃ (s : State) (n : Fin 2) (x : Int) (f : Int) (z : Int) (t : Int) (t' : Int) (g : Int) (c : Conv) (st : CalStep), s.dev.up = true
      ∧ s.dev.padc[n].run = some c ∧ c.since + c.time ≤ s.dev.now ∧ c.kind = .cal ∧ c.entry < 16 ∧ c.muxp < 21 ∧ c.intTemp = false
      ∧ s.dev.padc[n].cal = some st ∧ st.conv = c ∧ s.dev.on (PADC.SEQ_CTL.RUN n) = false ∧ s.dev.on (PADC.INJ_STAT.PENDING n) =
      false ∧ s.dev.padc[n].calWait = none ∧ f = (st.sum + clampI (-8388607) 8388607 x + 2 ^ st.avg / 2) / 2 ^ st.avg ∧ z = (if
      s.dev.on (PADC.CAL_STAT.ZERO_HELD n) then s.dev.rdS (PADC.CAL_Z.Z n) else c.ofs) ∧ t = (st.target * 64 * c.gain + 7812) /
      15625 ∧ s.dev.on (PADC.REF_CORR.RC n) = true ∧ t' = (t * 2 ^ 24 + s.dev.rd (PADC.REF_CORR.RC n) / 2) / s.dev.rd
      (PADC.REF_CORR.RC n) ∧ (f ≠ z → g = (t' * 2 ^ 24 + (f - z) / 2).fdiv (f - z))) ∧
    (∃ (s : State) (n : Fin 2) (x : Int) (f : Int) (z : Int) (t : Int) (t' : Int) (g : Int) (c : Conv) (st : CalStep), s.dev.up = true
      ∧ s.dev.padc[n].run = some c ∧ c.since + c.time ≤ s.dev.now ∧ c.kind = .cal ∧ c.entry < 16 ∧ c.muxp < 21 ∧ c.intTemp = false
      ∧ s.dev.padc[n].cal = some st ∧ st.conv = c ∧ s.dev.on (PADC.SEQ_CTL.RUN n) = false ∧ s.dev.on (PADC.INJ_STAT.PENDING n) =
      false ∧ s.dev.padc[n].calWait = none ∧ f = (st.sum + clampI (-8388607) 8388607 x + 2 ^ st.avg / 2) / 2 ^ st.avg ∧ z = (if
      s.dev.on (PADC.CAL_STAT.ZERO_HELD n) then s.dev.rdS (PADC.CAL_Z.Z n) else c.ofs) ∧ t = (st.target * 64 * c.gain + 7812) /
      15625 ∧ s.dev.on (PADC.REF_CORR.RC n) = true ∧ t' = (t * 2 ^ 24 + s.dev.rd (PADC.REF_CORR.RC n) / 2) / s.dev.rd
      (PADC.REF_CORR.RC n) ∧ (f ≠ z → g = (t' * 2 ^ 24 + (f - z) / 2).fdiv (f - z))) ∧
    (∃ (s : State) (n : Fin 2) (x : Int) (f : Int) (z : Int) (t : Int) (t' : Int) (g : Int) (c : Conv) (st : CalStep), s.dev.up = true
      ∧ s.dev.padc[n].run = some c ∧ c.since + c.time ≤ s.dev.now ∧ c.kind = .cal ∧ c.entry < 16 ∧ c.muxp < 21 ∧ c.intTemp = false
      ∧ s.dev.padc[n].cal = some st ∧ st.conv = c ∧ s.dev.on (PADC.SEQ_CTL.RUN n) = false ∧ s.dev.on (PADC.INJ_STAT.PENDING n) =
      false ∧ s.dev.padc[n].calWait = none ∧ f = (st.sum + clampI (-8388607) 8388607 x + 2 ^ st.avg / 2) / 2 ^ st.avg ∧ z = (if
      s.dev.on (PADC.CAL_STAT.ZERO_HELD n) then s.dev.rdS (PADC.CAL_Z.Z n) else c.ofs) ∧ t = (st.target * 64 * c.gain + 7812) /
      15625 ∧ s.dev.on (PADC.REF_CORR.RC n) = true ∧ t' = (t * 2 ^ 24 + s.dev.rd (PADC.REF_CORR.RC n) / 2) / s.dev.rd
      (PADC.REF_CORR.RC n) ∧ (f ≠ z → g = (t' * 2 ^ 24 + (f - z) / 2).fdiv (f - z))) ∧
    (∃ (s : State) (n : Fin 2) (x : Int) (f : Int) (z : Int) (t : Int) (t' : Int) (g : Int) (c : Conv) (st : CalStep), s.dev.up = true
      ∧ s.dev.padc[n].run = some c ∧ c.since + c.time ≤ s.dev.now ∧ c.kind = .cal ∧ c.entry < 16 ∧ c.muxp < 21 ∧ c.intTemp = false
      ∧ s.dev.padc[n].cal = some st ∧ st.conv = c ∧ s.dev.on (PADC.SEQ_CTL.RUN n) = false ∧ s.dev.on (PADC.INJ_STAT.PENDING n) =
      false ∧ s.dev.padc[n].calWait = none ∧ f = (st.sum + clampI (-8388607) 8388607 x + 2 ^ st.avg / 2) / 2 ^ st.avg ∧ z = (if
      s.dev.on (PADC.CAL_STAT.ZERO_HELD n) then s.dev.rdS (PADC.CAL_Z.Z n) else c.ofs) ∧ t = (st.target * 64 * c.gain + 7812) /
      15625 ∧ s.dev.on (PADC.REF_CORR.RC n) = true ∧ t' = (t * 2 ^ 24 + s.dev.rd (PADC.REF_CORR.RC n) / 2) / s.dev.rd
      (PADC.REF_CORR.RC n) ∧ (f ≠ z → g = (t' * 2 ^ 24 + (f - z) / 2).fdiv (f - z))) ∧
    (∃ (s : State) (n : Fin 2) (st : CalStep), s.dev.up = true ∧ s.dev.padc[n].cal = some st) ∧
    (∃ (s : State) (n : Fin 2), s.dev.up = true ∧ s.dev.padc[n].cal = none ∧ s.dev.padc[n].calWait = none) ∧
    (∃ (s : State) (n : Fin 2), s.dev.up = true ∧ s.dev.padc[n].cal = none ∧ s.dev.padc[n].calWait ≠ none) :=
  ⟨⟨(.injGo 1, 1), st [(PADC.INJ_STAT.PENDING 1, 1)], 1, .inl ⟨1, rfl⟩, by decide +kernel, (fun io f h => by cases h),
      .inl (by decide +kernel)⟩,
   ⟨(.injEdge 1 5 true, 1), converting (conv .inj 5 1) [(PADC.INJ_CTL.SRC 1, 1), (PADC.INJ_CTL.IO 1, 5), (PADC.INJ_CTL.EDGE 1, 1)],
      1, .inr ⟨1, 5, true, rfl⟩, by decide +kernel, (fun io f h => by cases h; decide +kernel),
      .inr ⟨conv .inj 5 1, by decide +kernel, rfl⟩⟩,
   ⟨(.injGo 1, 1), converting (conv .seq 5 1) [], 1, conv .seq 5 1, .inl ⟨1, rfl⟩, by decide +kernel, (fun io f h => by cases h),
      by decide +kernel⟩,
   ⟨(.injEdge 0 7 false, 0), st [(PADC.INJ_CTL.SRC 0, 1), (PADC.INJ_CTL.IO 0, 7), (PADC.INJ_CTL.COEF 0, 15), (PADC.OFS.VAL 0 15, 9)],
      0, .inr ⟨0, 7, false, rfl⟩, by decide +kernel, (fun io f h => by cases h; decide +kernel), by decide +kernel⟩,
   ⟨st [(PADC.INJ_CTL.SRC 1, 1), (PADC.INJ_CTL.IO 1, 5)], 1, 5, true, by decide +kernel⟩,
   ⟨stOf { (converting (conv .seq 5 1) [(PADC.INJ_STAT.PENDING 1, 1)]).dev with time := ⟨96000, 0, 0⟩ }, 1, conv .seq 5 1,
      by decide +kernel⟩,
   ⟨converting (conv .inj 5 1) [], 1, 11, 1, 1, conv .inj 5 1, by decide +kernel⟩,
   ⟨(true, .calFullScale), st [(PADC.CAL_STAT.BUSY 1, 1)], 1, .inr rfl, by decide +kernel⟩,
   ⟨(true, .calFullScale), converting (conv .seq 5 1) [(PADC.CAL_STAT.ERR 1, 3)], 1, conv .seq 5 1, .inr rfl, by decide +kernel⟩,
   ⟨(false, .calZero), st [(PADC.CAL_CTL.ENTRY 1, 3), (PADC.CFG0.MUXP 1 3, 23)], 1, entryConv (dev [(PADC.CAL_CTL.ENTRY 1, 3),
      (PADC.CFG0.MUXP 1 3, 23)]) 1 .cal 3, .inl rfl, by decide +kernel⟩,
   ⟨(false, .calZero), st [(PADC.SEQ_CTL.RUN 1, 0), (PADC.CAL_CTL.ENTRY 1, 3), (PADC.CFG0.MUXP 1 3, 24)], 1, entryConv (dev
      [(PADC.SEQ_CTL.RUN 1, 0), (PADC.CAL_CTL.ENTRY 1, 3), (PADC.CFG0.MUXP 1 3, 24)]) 1 .cal 3, .inl rfl, by decide +kernel⟩,
   ⟨stepping (calStep false 1 1000 false) [], 1, 1001, 1001, 10, 4096, 4096, (4096 * 2 ^ 24 + (1001 - 10) / 2) / (1001 - 10), conv
      .cal 5 1, calStep false 1 1000 false, by decide +kernel⟩,
   ⟨stepping (calStep true 1 4000 false) [], 1, 4001, 4001, 10, 4096, 4096, (4096 * 2 ^ 24 + (4001 - 10) / 2) / (4001 - 10), conv
      .cal 5 1, calStep true 1 4000 false, by decide +kernel⟩,
   ⟨stepping (calStep true 1 9 false) [], 1, 10, 10, 10, 4096, 4096, 0, conv .cal 5 1, calStep true 1 9 false, by decide +kernel⟩,
   ⟨stepping (calStep true 1 4000 true) [], 1, 4001, 4001, 10, 4096, 4096, (4096 * 2 ^ 24 + (4001 - 10) / 2) / (4001 - 10), conv .cal
      5 1, calStep true 1 4000 true, by decide +kernel⟩,
   ⟨stepping (calStep true 1 4000 false) [], 1, 4001, 4001, 10, 4096, 4096, (4096 * 2 ^ 24 + (4001 - 10) / 2) / (4001 - 10), conv
      .cal 5 1, calStep true 1 4000 false, by decide +kernel⟩,
   ⟨stepping (calStep true 1 4000 false) [], 1, calStep true 1 4000 false, by decide +kernel⟩,
   ⟨State.reset, 1, by decide +kernel⟩,
   ⟨padcSt [(PADC.CAL_STAT.PENDING 1, 1)] fun p => { p with calWait := some true }, 1, by decide +kernel⟩⟩

/-! ## Temperature and ageing -/

/-- The thresholds at die level 1 and board level 1 as given. -/
def thrState (l : List (Fld × Nat)) (a b : ThrCond) : State :=
  stOf ((dev l).updTemp fun t => { t with thr := (t.thr.set 1 ⟨a, ⟨false, 0, 0⟩, a.on⟩).set 4 ⟨b, ⟨false, 0, 0⟩, b.on⟩ })
def goingState (g : GoingDown) : State := stOf (Dev.reset.updPw fun p => { p with going := g })
/-- Ageing ledger tracks: kind, unit, N, BASE, CUR, SPREAD. -/
def trackMem (l : List (Nat × Nat × Nat × Nat × Nat × Nat)) : Memory :=
  l.foldl (fun m q => Memory.store m (trackAddr q.1 q.2.1) (leBytes 2 0 ++ leBytes 2 q.2.2.1 ++ leBytes 4 q.2.2.2.1 ++ leBytes 4 q.2.2.2.2.1 ++ leBytes 4 q.2.2.2.2.2)) ⟨[], [], []⟩
def measure : PowerMeas := ⟨0, 0, 0, 0, []⟩

theorem wit_SamplesCountThresholdsAndThrottle :
    (∃ (s : State) (T : Int) (meas : PowerMeas), s.dev.up = true ∧ -2147483648 ≤ T ∧ T < 2147483648 ∧ s.dev.rd THM.SITE_BAD.MASK = 0 ∧
      meas.pLogic = 0 ∧ (∀ k : Fin 6, s.dev.rd (THM.RATE_CFG.MODE (k / 3) (k % 3)) = 0) ∧ s.dev.pw.going = .no ∧ s.dev.on
      NVS.STATUS.FROZEN = false) ∧
    (∃ (s : State) (T : Int) (meas : PowerMeas), s.dev.up = true ∧ -2147483648 ≤ T ∧ T < 2147483648 ∧ s.dev.rd THM.SITE_BAD.MASK = 0 ∧
      meas.pLogic = 0 ∧ (∀ k : Fin 6, s.dev.rd (THM.RATE_CFG.MODE (k / 3) (k % 3)) = 0) ∧ s.dev.pw.going = .no ∧ s.dev.on
      NVS.STATUS.FROZEN = false) ∧
    (∃ (s : State) (T : Int) (meas : PowerMeas), s.dev.up = true ∧ -2147483648 ≤ T ∧ T < 2147483648 ∧ s.dev.rd THM.SITE_BAD.MASK = 0 ∧
      meas.pLogic = 0 ∧ (∀ k : Fin 6, s.dev.rd (THM.RATE_CFG.MODE (k / 3) (k % 3)) = 0) ∧ s.dev.pw.going = .no ∧ s.dev.on
      NVS.STATUS.FROZEN = false) ∧
    (∃ (s : State) (T : Int) (meas : PowerMeas), s.dev.up = true ∧ -2147483648 ≤ T ∧ T < 2147483648 ∧ s.dev.rd THM.SITE_BAD.MASK = 0 ∧
      meas.pLogic = 0 ∧ (∀ k : Fin 6, s.dev.rd (THM.RATE_CFG.MODE (k / 3) (k % 3)) = 0) ∧ s.dev.pw.going = .no ∧ s.dev.on
      NVS.STATUS.FROZEN = false) ∧
    (∃ (s : State) (T : Int) (U : Int) (meas : PowerMeas), s.dev.up = true ∧ -2147483648 ≤ T ∧ T < 2147483648 ∧ -2147483648 ≤ U ∧ U <
      2147483648 ∧ s.dev.rd THM.SITE_BAD.MASK = 0 ∧ meas.pLogic = 0 ∧ s.dev.pw.going = .no ∧ s.dev.on NVS.STATUS.FROZEN = false) ∧
    (∃ (s : State) (T : Int) (U : Int) (meas : PowerMeas), s.dev.up = true ∧ -2147483648 ≤ T ∧ T < 2147483648 ∧ -2147483648 ≤ U ∧ U <
      2147483648 ∧ s.dev.rd THM.SITE_BAD.MASK = 0 ∧ meas.pLogic = 0 ∧ s.dev.pw.going = .no ∧ s.dev.on NVS.STATUS.FROZEN = false) ∧
    (∃ (s : State) (T : Int) (meas : PowerMeas), s.dev.up = true ∧ -2147483648 ≤ T ∧ T < 2147483648 ∧ s.dev.rd THM.SITE_BAD.MASK =
      0xF0000 ∧ meas.pLogic = 0 ∧ s.dev.pw.going = .no ∧ s.dev.on NVS.STATUS.FROZEN = false) ∧
    (∃ (s : State) (n : Nat), s.dev.up = true ∧ s.dev.rd THM.STATUS.STEP = n ∧ (s.dev.temp.throttle = true ∧ 3 ≤ n ∨
      s.dev.temp.throttle = false ∧ n = 0 ∨ s.dev.past .throttle (s.dev.rd THM.THR_CFG.STEP_MS * oneMs) = false)) ∧
    (∃ (s : State) (n : Nat), s.dev.up = true ∧ s.dev.rd THM.STATUS.STEP = n ∧ (s.dev.temp.throttle = true ∧ 3 ≤ n ∨
      s.dev.temp.throttle = false ∧ n = 0 ∨ s.dev.past .throttle (s.dev.rd THM.THR_CFG.STEP_MS * oneMs) = false)) ∧
    (∃ (s : State) (n : Nat), s.dev.up = true ∧ s.dev.rd THM.STATUS.STEP = n ∧ (s.dev.temp.throttle = true ∧ 3 ≤ n ∨
      s.dev.temp.throttle = false ∧ n = 0 ∨ s.dev.past .throttle (s.dev.rd THM.THR_CFG.STEP_MS * oneMs) = false)) ∧
    (∃ (s : State) (n : Nat) (m : Nat), s.dev.up = true ∧ s.dev.rd THM.STATUS.STEP = n ∧ s.dev.past .throttle (s.dev.rd
      THM.THR_CFG.STEP_MS * oneMs) = true ∧ (s.dev.temp.throttle = true ∧ n < 3 ∧ m = n + 1 ∨ s.dev.temp.throttle = false ∧ 0 < n
      ∧ n ≤ 3 ∧ m = n - 1)) ∧
    (∃ (s : State) (n : Nat) (m : Nat), s.dev.up = true ∧ s.dev.rd THM.STATUS.STEP = n ∧ s.dev.past .throttle (s.dev.rd
      THM.THR_CFG.STEP_MS * oneMs) = true ∧ (s.dev.temp.throttle = true ∧ n < 3 ∧ m = n + 1 ∨ s.dev.temp.throttle = false ∧ 0 < n
      ∧ n ≤ 3 ∧ m = n - 1)) ∧
    (∃ (s : State) (n : Nat) (m : Nat), s.dev.up = true ∧ s.dev.rd THM.STATUS.STEP = n ∧ s.dev.past .throttle (s.dev.rd
      THM.THR_CFG.STEP_MS * oneMs) = true ∧ (s.dev.temp.throttle = true ∧ n < 3 ∧ m = n + 1 ∨ s.dev.temp.throttle = false ∧ 0 < n
      ∧ n ≤ 3 ∧ m = n - 1)) :=
  ⟨⟨thrState [] ⟨false, 0, 0⟩ ⟨true, 0, 3⟩, 1500000, measure, by decide +kernel⟩,
   ⟨thrState [(THM.LEVEL_CFG.DWELL 0 1, 1), (THM.LEVEL_CFG.LEVEL 0 1, 16), (THM.LEVEL_CFG.LEVEL 1 1, 16), (THM.LEVEL_CFG.HYST 1 1,
      16), (THM.LEVEL_CFG.DWELL 1 1, 0)] ⟨false, 0, 0⟩ ⟨true, 0, 0⟩, 65536, measure, by decide +kernel⟩,
   ⟨State.reset, -2147483648, measure, by decide +kernel⟩,
   ⟨State.reset, 2147483647, measure, by decide +kernel⟩,
   ⟨State.reset, 1000000, 2147483647, measure, by decide +kernel⟩,
   ⟨State.reset, 1000000, -5, measure, by decide +kernel⟩,
   ⟨st [(THM.SITE_BAD.MASK, 0xF0000)], 1000000, measure, by decide +kernel⟩,
   ⟨stOf ((dev [(THM.STATUS.STEP, 3)]).updTemp fun t => { t with throttle := true }), 3, by decide +kernel⟩,
   ⟨State.reset, 0, by decide +kernel⟩,
   ⟨stOf
      { ((dev [(THM.STATUS.STEP, 1), (THM.THR_CFG.STEP_MS, 1)]).updTemp fun t => { t with throttle := true }) with time := ⟨16000004, 0, 0⟩, marks := [(.throttle, 5)] },
      1, by decide +kernel⟩,
   ⟨stOf
      { ((dev [(THM.STATUS.STEP, 2), (PIPE.DECIM.N 0, 7), (THM.THR_CFG.STEP_MS, 1)]).updTemp fun t => { t with throttle := true }) with time := ⟨16000005, 0, 0⟩, marks := [(.throttle, 5)] },
      2, 3, by decide +kernel⟩,
   ⟨st [(THM.STATUS.STEP, 3), (PIPE.DECIM.N 0, 7)], 3, 2, by decide +kernel⟩,
   ⟨st [(THM.STATUS.STEP, 1), (ZCTL.STATUS.JOB_PAUSE, 1), (MEM.STATUS.SCRUB_PAUSED, 1)], 1, 0, by decide +kernel⟩⟩

theorem wit_ShutdownCompensationAndReplan :
    (∃ (s : State), s.dev.up = true ∧ (∀ i, s.dev.pw.going ≠ .yielding i)) ∧
    (∃ (s : State), s.dev.up = true ∧ s.dev.pw.going = .yielding none ∧ s.dev.on NVS.STATUS.FROZEN = false) ∧
    (∃ (s : State) (info : StartInfo), s.dev.up = true ∧ s.dev.pw.going = .yielding (some info)) ∧
    (∃ (s : State), s.dev.up = true) ∧
    (∃ (s : State), s.dev.up = true ∧ s.dev.on NVS.STATUS.FROZEN = false) ∧
    (∃ (s : State) (cur : Int) (goal : Int), (s.dev.up = true ∧ cur = s.dev.rdS THM.REF_TRIM.TRIM ∧ -2147000000 ≤ cur ∧ cur ≤
      2147000000) ∧ goal = -refDrift (s.dev.rdS (THM.EFF.T 16))) ∧
    (∃ (s : State) (dT : Int), s.dev.up = true ∧ dT = sat16 (sar (s.dev.rdS (THM.EFF.T 17) - 25 * 2 ^ 16) 6)) ∧
    (∃ (s : State), s.dev.up = true ∧ s.dev.temp.roN + 1 < 360) ∧
    (∃ (s : State), s.dev.up = true ∧ s.Sound ∧ s.dev.temp.roN = 359 ∧ s.dev.on NVS.STATUS.FROZEN = false ∧ s.dev.nvs.run = none) ∧
    (∃ (s : State), s.dev.up = true ∧ s.dev.rd AGE.POH.HOURS < s.dev.rd AGE.NEXT_PLAN.HOURS) ∧
    (∃ (c : _) (s : State) (old : Nat) (gb : Nat), c ∈ [Instr.planNow, .replan] ∧ s.dev.up = true ∧ (c = .replan → s.dev.rd
      AGE.NEXT_PLAN.HOURS ≤ s.dev.rd AGE.POH.HOURS) ∧ old = s.dev.rd AGE.VGB.MV ∧ old ≤ 40 ∧ gb = min 40 (((((List.range 16).map
      fun u => trackCur s.mem 1 u).foldl max 0) * s.dev.rd AGE.VGB.VGB_K + 999) / 1000).toNat) ∧
    (∃ (c : _) (s : State) (old : Nat) (gb : Nat), c ∈ [Instr.planNow, .replan] ∧ s.dev.up = true ∧ (c = .replan → s.dev.rd
      AGE.NEXT_PLAN.HOURS ≤ s.dev.rd AGE.POH.HOURS) ∧ old = s.dev.rd AGE.VGB.MV ∧ old ≤ 40 ∧ gb = min 40 (((((List.range 16).map
      fun u => trackCur s.mem 1 u).foldl max 0) * s.dev.rd AGE.VGB.VGB_K + 999) / 1000).toNat) :=
  ⟨⟨State.reset, by decide +kernel, (fun i h => by cases h)⟩,
   ⟨goingState (.yielding none), by decide +kernel⟩,
   ⟨goingState (.yielding (some ⟨true, 5, none, []⟩)), ⟨true, 5, none, []⟩, by decide +kernel⟩,
   ⟨State.reset, by decide +kernel⟩,
   ⟨State.reset, by decide +kernel⟩,
   ⟨st [(THM.REF_TRIM.TRIM, 1000)], 1000, -refDrift ((st [(THM.REF_TRIM.TRIM, 1000)]).dev.rdS (THM.EFF.T 16)), by decide +kernel,
      rfl⟩,
   ⟨State.reset, -25600, by decide +kernel⟩,
   ⟨stOf (Dev.reset.updTemp fun t => { t with roN := 358, ro := List.replicate 16 (-5) }), by decide +kernel⟩,
   
      ⟨{ (stOf (Dev.reset.updTemp fun t => { t with roN := 359, ro := List.replicate 16 (-500) })) with mem := trackMem [(1, 3, 7, 2, 9, 0)] },
      by decide +kernel⟩,
   ⟨st [(AGE.NEXT_PLAN.HOURS, 1)], by decide +kernel⟩,
   ⟨Instr.planNow, st [(AGE.VGB.MV, 40), (AGE.NEXT_PLAN.HOURS, 5)], 40, 0, by simp, by decide +kernel, (fun h => by cases h),
      by decide +kernel⟩,
   ⟨Instr.replan,
      { (st [(AGE.CTL.PLAN_SH, 1), (AGE.CTL.PLAN_VALVE, 1), (AGE.VGB.VGB_K, 1), (AGE.SH_CEIL.T1, 1000)]) with mem := trackMem [(1, 3, 7, 2, 30000, 0), (2, 63, 1, 5, 0, 0), (5, 1, 8, 100, 80, 0), (6, 1, 8, 50, 60, 0), (8, 15, 32, 0, 500, 10)] },
      0, 30, by simp, by decide +kernel⟩⟩

/-! ## Power, clocks and reset -/

def pwState (l : List (Fld × Nat)) (g : Power → Power) : State := stOf ((dev l).updPw g)
def start : StartInfo := ⟨true, 5, none, []⟩

theorem wit_MainsRailsAndClocks :
    (∃ (s : State), s.dev.up = true) ∧
    (∃ (s : State), s.dev.up = true) ∧
    (∃ (s : State), s.dev.up = true ∧ s.dev.on PWR.STATUS.RIDE = true) ∧
    (∃ (s : State), s.dev.up = true ∧ s.dev.on PWR.STATUS.RIDE = true) ∧
    (∃ (s : State), s.dev.up = true ∧ s.dev.on PWR.STATUS.RIDE = false) ∧
    (∃ (s : State), s.dev.up = true ∧ s.dev.on PWR.STATUS.RIDE = false) ∧
    (∃ (s : State) (t0 : Nat), s.dev.up = true ∧ s.dev.on PWR.STATUS.MAINS_OK = true ∧ s.dev.on PWR.STATUS.SHED = true ∧
      s.dev.pw.tolAt = some t0 ∧ t0 + 100 * oneMs ≤ s.dev.now ∧ 3800 ≤ s.dev.rd PWR.BULK.V) ∧
    (∃ (s : State), s.dev.up = true ∧ (s.dev.on PWR.STATUS.MAINS_OK = false ∨ s.dev.on PWR.STATUS.SHED = false ∨ s.dev.pw.tolAt = none
      ∨ (∃ t0, s.dev.pw.tolAt = some t0 ∧ s.dev.now < t0 + 100 * oneMs) ∨ s.dev.rd PWR.BULK.V < 3800)) ∧
    (∃ (s : State), s.dev.up = true ∧ (s.dev.on PWR.STATUS.MAINS_OK = false ∨ s.dev.on PWR.STATUS.SHED = false ∨ s.dev.pw.tolAt = none
      ∨ (∃ t0, s.dev.pw.tolAt = some t0 ∧ s.dev.now < t0 + 100 * oneMs) ∨ s.dev.rd PWR.BULK.V < 3800)) ∧
    (∃ (q : _) (s : State), q ∈ [(Instr.bulkLowOff, 1), (.railFault, 2)] ∧ s.dev.up = true) ∧
    (∃ (q : _) (s : State), q ∈ [(Instr.bulkLowOff, 1), (.railFault, 2)] ∧ s.dev.up = true) ∧
    (∃ (s : State), s.dev.up = true) ∧
    (∃ (s : State), s.dev.pw.held = false) ∧
    (∃ (s : State), s.dev.pw.held = true) ∧
    (∃ (s : State), s.dev.up = true) ∧
    (∃ (s : State), s.dev.up = true) ∧
    (∃ (s : State), s.dev.up = true) ∧
    (∃ (s : State), s.dev.up = true ∧ s.dev.hasStandby = true) ∧
    (∃ (s : State), s.dev.up = true ∧ s.dev.hasStandby = false) ∧
    (∃ (s : State), s.dev.up = true) ∧
    (∃ (s : State), s.dev.up = true) ∧
    (∃ (s : State), s.dev.up = true) ∧
    (∃ (s : State), s.dev.up = true) ∧
    (∃ (s : State) (khz : List Nat), s.dev.up = true ∧ khz.length = 6) ∧
    (∃ (s : State) (khz : List Nat), s.dev.up = true ∧ khz.length = 6) :=
  ⟨⟨pwState [(PWR.STATUS.RIDE, 1), (PWR.STATUS.MAINS_OK, 0)] fun p => { p with lossAt := some 0 }, by decide +kernel⟩,
   ⟨State.reset, by decide +kernel⟩,
   ⟨st [(PWR.STATUS.RIDE, 1)], by decide +kernel⟩,
   ⟨st [(PWR.STATUS.RIDE, 1)], by decide +kernel⟩,
   ⟨pwState [(PWR.STATUS.MAINS_OK, 1)] fun p => { p with started := true }, by decide +kernel⟩,
   ⟨st [(PWR.STATUS.MAINS_OK, 1)], by decide +kernel⟩,
   ⟨atTime 1600000007 (pwState [(PWR.STATUS.MAINS_OK, 1), (PWR.STATUS.SHED, 1), (PWR.BULK.V, 3800)] fun p =>
      { p with tolAt := some 7 }), 7, by decide +kernel⟩,
   ⟨st [(PWR.STATUS.SHED, 1), (PWR.STATUS.MAINS_OK, 0)], by decide +kernel⟩,
   ⟨atTime 1600000007 (pwState [(PWR.STATUS.MAINS_OK, 1), (PWR.STATUS.SHED, 1), (PWR.BULK.V, 3800)] fun p =>
      { p with tolAt := some 8 }), by decide +kernel⟩,
   ⟨(Instr.bulkLowOff, 1),
      { (st [(TWIN.STATUS.TAKE_IN, 1), (FAB.TIMEOUT_US.US, 5)]) with mem := Memory.store (Memory.store ⟨[], [], []⟩ 0x09000000 [1, 2]) 0x09080000 [3] },
      by simp, by decide +kernel⟩,
   ⟨(Instr.railFault, 2), st [(THERM.STATUS.HEAD_PRESENT 1, 1)], by simp, by decide +kernel⟩,
   ⟨State.reset, by decide +kernel⟩,
   ⟨State.reset, by decide +kernel⟩,
   ⟨pwState [] fun p => { p with down := some 10, held := true }, by decide +kernel⟩,
   ⟨State.reset, by decide +kernel⟩,
   ⟨st [(THERM.CTL.EN 1, 1), (THERM.STATUS.HEAD_PRESENT 1, 1)], by decide +kernel⟩,
   ⟨headSt HS.run [(THERM.CTL.EN 1, 1), (THERM.STATUS.HEAD_PRESENT 1, 1)] id, by decide +kernel⟩,
   ⟨twinState 3 [(TRIG.STAT.RUNNING, 1)], by decide +kernel⟩,
   ⟨State.reset, by decide +kernel⟩,
   ⟨State.reset, by decide +kernel⟩,
   ⟨portState LS.snoop [(LANE.STAT.CDR_LOCK 2 3, 1), (LANE.STAT.BLOCK_LOCK 2 3, 1)] id, by decide +kernel⟩,
   ⟨State.reset, by decide +kernel⟩,
   ⟨st [(MEM.STATUS.DEGRADED, 1)], by decide +kernel⟩,
   ⟨State.reset, [1200000, 800000, 200000, 24000, 20000, 156250], by decide +kernel⟩,
   ⟨st [(CLK.STATUS.LANE_LOCK, 0)], [1200000, 800000, 200000, 24000, 2 ^ 24, 156251], by decide +kernel⟩⟩

theorem wit_StartsAndResets :
    (∃ (s : State), s.dev.pw.down = none ∧ s.dev.pw.started = true) ∧
    (∃ (s : State) (c : Nat), s.dev.pw.down = some c ∧ s.dev.pw.held = true) ∧
    (∃ (s : State) (sec : Nat) (board : Int) (absent : Bool) (last : List Nat), last = s.dev.pw.restarts.filter (fun t => decide (sec
      < t + 3600)) ∧ (s.dev.pw.down = none ∨ s.dev.pw.held = true ∨ s.dev.pw.down = some 0 ∨ s.dev.pw.down = some 1 ∨ 70 * 16 ≤
      board ∨ (3 ≤ last.length ∧ absent = false))) ∧
    (∃ (s : State) (sec : Nat) (board : Int) (absent : Bool) (last : List Nat), last = s.dev.pw.restarts.filter (fun t => decide (sec
      < t + 3600)) ∧ (s.dev.pw.down = none ∨ s.dev.pw.held = true ∨ s.dev.pw.down = some 0 ∨ s.dev.pw.down = some 1 ∨ 70 * 16 ≤
      board ∨ (3 ≤ last.length ∧ absent = false))) ∧
    (∃ (i : Instr) (s : State) (info : StartInfo) (cause : Nat), ((i = .powerOnStart info ∧ (s.dev.pw.down = none ∧ s.dev.pw.started =
      false ∧ cause = 0 ∨ s.dev.pw.down = some cause ∧ s.dev.pw.held = false ∧ cause < 16)) ∨ (∃ (sec : Nat) (board : Int) (absent
      : Bool) (last : List Nat), i = .supervisorRestart sec board absent info ∧ last = s.dev.pw.restarts.filter (fun t => decide
      (sec < t + 3600)) ∧ s.dev.pw.down = some cause ∧ s.dev.pw.held = false ∧ 2 ≤ cause ∧ cause < 16 ∧ board < 70 * 16 ∧
      (last.length < 3 ∨ absent = true)) ∨ (s.dev.up = true ∧ (i = .watchdogExpiry info ∧ cause = 6 ∨ i = .lockstepMismatch info ∧
      cause = 7 ∨ i = .mgmtMemoryUe info ∧ cause = 8 ∨ i = .sysReset info ∧ cause = 5 ∧ s.dev.pw.going = .no ∧ s.dev.nvs.run =
      none ∧ dirtyPages s.dev = [])))) ∧
    (∃ (i : Instr) (s : State) (info : StartInfo) (cause : Nat), ((i = .powerOnStart info ∧ (s.dev.pw.down = none ∧ s.dev.pw.started =
      false ∧ cause = 0 ∨ s.dev.pw.down = some cause ∧ s.dev.pw.held = false ∧ cause < 16)) ∨ (∃ (sec : Nat) (board : Int) (absent
      : Bool) (last : List Nat), i = .supervisorRestart sec board absent info ∧ last = s.dev.pw.restarts.filter (fun t => decide
      (sec < t + 3600)) ∧ s.dev.pw.down = some cause ∧ s.dev.pw.held = false ∧ 2 ≤ cause ∧ cause < 16 ∧ board < 70 * 16 ∧
      (last.length < 3 ∨ absent = true)) ∨ (s.dev.up = true ∧ (i = .watchdogExpiry info ∧ cause = 6 ∨ i = .lockstepMismatch info ∧
      cause = 7 ∨ i = .mgmtMemoryUe info ∧ cause = 8 ∨ i = .sysReset info ∧ cause = 5 ∧ s.dev.pw.going = .no ∧ s.dev.nvs.run =
      none ∧ dirtyPages s.dev = [])))) ∧
    (∃ (i : Instr) (s : State) (info : StartInfo) (cause : Nat), ((i = .powerOnStart info ∧ (s.dev.pw.down = none ∧ s.dev.pw.started =
      false ∧ cause = 0 ∨ s.dev.pw.down = some cause ∧ s.dev.pw.held = false ∧ cause < 16)) ∨ (∃ (sec : Nat) (board : Int) (absent
      : Bool) (last : List Nat), i = .supervisorRestart sec board absent info ∧ last = s.dev.pw.restarts.filter (fun t => decide
      (sec < t + 3600)) ∧ s.dev.pw.down = some cause ∧ s.dev.pw.held = false ∧ 2 ≤ cause ∧ cause < 16 ∧ board < 70 * 16 ∧
      (last.length < 3 ∨ absent = true)) ∨ (s.dev.up = true ∧ (i = .watchdogExpiry info ∧ cause = 6 ∨ i = .lockstepMismatch info ∧
      cause = 7 ∨ i = .mgmtMemoryUe info ∧ cause = 8 ∨ i = .sysReset info ∧ cause = 5 ∧ s.dev.pw.going = .no ∧ s.dev.nvs.run =
      none ∧ dirtyPages s.dev = [])))) ∧
    (∃ (i : Instr) (s : State) (info : StartInfo) (cause : Nat), ((i = .powerOnStart info ∧ (s.dev.pw.down = none ∧ s.dev.pw.started =
      false ∧ cause = 0 ∨ s.dev.pw.down = some cause ∧ s.dev.pw.held = false ∧ cause < 16)) ∨ (∃ (sec : Nat) (board : Int) (absent
      : Bool) (last : List Nat), i = .supervisorRestart sec board absent info ∧ last = s.dev.pw.restarts.filter (fun t => decide
      (sec < t + 3600)) ∧ s.dev.pw.down = some cause ∧ s.dev.pw.held = false ∧ 2 ≤ cause ∧ cause < 16 ∧ board < 70 * 16 ∧
      (last.length < 3 ∨ absent = true)) ∨ (s.dev.up = true ∧ (i = .watchdogExpiry info ∧ cause = 6 ∨ i = .lockstepMismatch info ∧
      cause = 7 ∨ i = .mgmtMemoryUe info ∧ cause = 8 ∨ i = .sysReset info ∧ cause = 5 ∧ s.dev.pw.going = .no ∧ s.dev.nvs.run =
      none ∧ dirtyPages s.dev = [])))) ∧
    (∃ (i : Instr) (s : State) (info : StartInfo) (cause : Nat), ((i = .powerOnStart info ∧ (s.dev.pw.down = none ∧ s.dev.pw.started =
      false ∧ cause = 0 ∨ s.dev.pw.down = some cause ∧ s.dev.pw.held = false ∧ cause < 16)) ∨ (∃ (sec : Nat) (board : Int) (absent
      : Bool) (last : List Nat), i = .supervisorRestart sec board absent info ∧ last = s.dev.pw.restarts.filter (fun t => decide
      (sec < t + 3600)) ∧ s.dev.pw.down = some cause ∧ s.dev.pw.held = false ∧ 2 ≤ cause ∧ cause < 16 ∧ board < 70 * 16 ∧
      (last.length < 3 ∨ absent = true)) ∨ (s.dev.up = true ∧ (i = .watchdogExpiry info ∧ cause = 6 ∨ i = .lockstepMismatch info ∧
      cause = 7 ∨ i = .mgmtMemoryUe info ∧ cause = 8 ∨ i = .sysReset info ∧ cause = 5 ∧ s.dev.pw.going = .no ∧ s.dev.nvs.run =
      none ∧ dirtyPages s.dev = [])))) ∧
    (∃ (i : Instr) (s : State) (info : StartInfo) (cause : Nat), ((i = .powerOnStart info ∧ (s.dev.pw.down = none ∧ s.dev.pw.started =
      false ∧ cause = 0 ∨ s.dev.pw.down = some cause ∧ s.dev.pw.held = false ∧ cause < 16)) ∨ (∃ (sec : Nat) (board : Int) (absent
      : Bool) (last : List Nat), i = .supervisorRestart sec board absent info ∧ last = s.dev.pw.restarts.filter (fun t => decide
      (sec < t + 3600)) ∧ s.dev.pw.down = some cause ∧ s.dev.pw.held = false ∧ 2 ≤ cause ∧ cause < 16 ∧ board < 70 * 16 ∧
      (last.length < 3 ∨ absent = true)) ∨ (s.dev.up = true ∧ (i = .watchdogExpiry info ∧ cause = 6 ∨ i = .lockstepMismatch info ∧
      cause = 7 ∨ i = .mgmtMemoryUe info ∧ cause = 8 ∨ i = .sysReset info ∧ cause = 5 ∧ s.dev.pw.going = .no ∧ s.dev.nvs.run =
      none ∧ dirtyPages s.dev = [])))) ∧
    (∃ (i : Instr) (s : State) (info : StartInfo) (cause : Nat), ((i = .powerOnStart info ∧ (s.dev.pw.down = none ∧ s.dev.pw.started =
      false ∧ cause = 0 ∨ s.dev.pw.down = some cause ∧ s.dev.pw.held = false ∧ cause < 16)) ∨ (∃ (sec : Nat) (board : Int) (absent
      : Bool) (last : List Nat), i = .supervisorRestart sec board absent info ∧ last = s.dev.pw.restarts.filter (fun t => decide
      (sec < t + 3600)) ∧ s.dev.pw.down = some cause ∧ s.dev.pw.held = false ∧ 2 ≤ cause ∧ cause < 16 ∧ board < 70 * 16 ∧
      (last.length < 3 ∨ absent = true)) ∨ (s.dev.up = true ∧ (i = .watchdogExpiry info ∧ cause = 6 ∨ i = .lockstepMismatch info ∧
      cause = 7 ∨ i = .mgmtMemoryUe info ∧ cause = 8 ∨ i = .sysReset info ∧ cause = 5 ∧ s.dev.pw.going = .no ∧ s.dev.nvs.run =
      none ∧ dirtyPages s.dev = [])))) ∧
    (∃ (s : State), s.dev.up = true ∧ s.dev.pw.going ≠ .no) ∧
    (∃ (s : State) (r : StoreRun), s.dev.up = true ∧ s.dev.pw.going = .no ∧ s.dev.nvs.run = some r) ∧
    (∃ (s : State), s.dev.up = true ∧ s.dev.pw.going = .no ∧ s.dev.nvs.run = none ∧ dirtyPages s.dev ≠ []) ∧
    (∃ (s : State), s.dev.up = true) :=
  ⟨⟨pwState [] fun p => { p with started := true }, by decide +kernel⟩,
   ⟨pwState [] fun p => { p with down := some 10, held := true }, 10, by decide +kernel⟩,
   ⟨pwState [] fun p => { p with down := some 4, restarts := [1000, 2000, 3000] }, 4599, 0, false, [1000, 2000, 3000],
      by decide +kernel⟩,
   ⟨pwState [] fun p => { p with down := some 4 }, 4599, 1120, true, [], by decide +kernel⟩,
   ⟨Instr.powerOnStart start, State.reset, start, 0, .inl ⟨rfl, .inl (by decide +kernel)⟩⟩,
   ⟨Instr.powerOnStart start, pwState [] fun p => { p with down := some 1 }, start, 1, .inl ⟨rfl, .inr (by decide +kernel)⟩⟩,
   ⟨Instr.supervisorRestart 4600 1119 false start, pwState [] fun p => { p with down := some 2, restarts := [1000, 2000, 3000] },
      start, 2, .inr (.inl ⟨4600, 1119, false, [2000, 3000], by decide +kernel⟩)⟩,
   ⟨Instr.mgmtMemoryUe start, State.reset, start, 8, .inr (.inr (by decide +kernel))⟩,
   ⟨Instr.sysReset start, State.reset, start, 5, .inr (.inr (by decide +kernel))⟩,
   ⟨Instr.watchdogExpiry start, State.reset, start, 6, .inr (.inr (by decide +kernel))⟩,
   ⟨Instr.lockstepMismatch start, State.reset, start, 7, .inr (.inr (by decide +kernel))⟩,
   ⟨goingState (.windup 3), by decide +kernel⟩,
   ⟨storing [5] [], storeRun [5], by decide +kernel⟩,
   ⟨nvsState [] fun n => { n with dirty := [5] }, by decide +kernel⟩,
   ⟨State.reset, by decide +kernel⟩⟩

theorem wit_UnitResetsAndLowPower :
    (∃ (s : State) (kind : Fin 4) (b : Nat) (f : Fld) (mask : Word32), s.dev.up = true ∧ f = unitFld kind ∧ b < f.width ∧ mask.toNat %
      2 ^ f.width = s.dev.rd f) ∧
    (∃ (s : State) (kind : Fin 4) (b : Nat) (f : Fld) (mask : Word32), s.dev.up = true ∧ f = unitFld kind ∧ b < f.width ∧ bitOf
      (s.dev.rd f) b = false ∧ (∀ k < f.width, bitOf mask.toNat k = (bitOf (s.dev.rd f) k || k == b)) ∧ unitUsed s.dev kind b =
      true) ∧
    (∃ (s : State) (kind : Fin 4) (b : Nat) (f : Fld) (mask : Word32), s.dev.up = true ∧ f = unitFld kind ∧ b < f.width ∧ bitOf
      (s.dev.rd f) b = false ∧ (∀ k < f.width, bitOf mask.toNat k = (bitOf (s.dev.rd f) k || k == b)) ∧ unitUsed s.dev kind b =
      false ∧ s.dev.rd f < 2 ^ f.width) ∧
    (∃ (s : State) (kind : Fin 4) (b : Nat) (f : Fld) (mask : Word32), s.dev.up = true ∧ f = unitFld kind ∧ b < f.width ∧ bitOf
      (s.dev.rd f) b = false ∧ (∀ k < f.width, bitOf mask.toNat k = (bitOf (s.dev.rd f) k || k == b)) ∧ unitUsed s.dev kind b =
      false ∧ s.dev.rd f < 2 ^ f.width) ∧
    (∃ (s : State) (kind : Fin 4) (b : Nat) (f : Fld) (mask : Word32), s.dev.up = true ∧ f = unitFld kind ∧ b < f.width ∧ bitOf
      (s.dev.rd f) b = false ∧ (∀ k < f.width, bitOf mask.toNat k = (bitOf (s.dev.rd f) k || k == b)) ∧ unitUsed s.dev kind b =
      false ∧ s.dev.rd f < 2 ^ f.width) ∧
    (∃ (s : State) (kind : Fin 4) (b : Nat) (f : Fld) (mask : Word32), s.dev.up = true ∧ f = unitFld kind ∧ b < f.width ∧ bitOf
      (s.dev.rd f) b = true ∧ s.dev.rd f < 2 ^ f.width ∧ (∀ k < f.width, bitOf mask.toNat k = (bitOf (s.dev.rd f) k && k != b))) ∧
    (∃ (s : State) (lp : Fin 4) (want : Nat), s.dev.up = true ∧ want = (if lp = 3 then 0 else lp.val) ∧ want = s.dev.rd PWR.STATUS.LP) ∧
    (∃ (s : State) (lp : Fin 4) (want : Nat), s.dev.up = true ∧ want = (if lp = 3 then 0 else lp.val) ∧ want ≠ s.dev.rd PWR.STATUS.LP
      ∧ want ≠ 0 ∧ (s.dev.on TRIG.STAT.RUNNING = true ∨ s.dev.arch.jobs ≠ [])) ∧
    (∃ (s : State) (lp : Fin 4) (want : Nat), s.dev.up = true ∧ want = (if lp = 3 then 0 else lp.val) ∧ want ≠ s.dev.rd PWR.STATUS.LP
      ∧ want ≠ 0 ∧ (s.dev.on TRIG.STAT.RUNNING = true ∨ s.dev.arch.jobs ≠ [])) ∧
    (∃ (s : State) (lp : Fin 4) (want : Nat), s.dev.up = true ∧ want = (if lp = 3 then 0 else lp.val) ∧ want ≠ s.dev.rd PWR.STATUS.LP
      ∧ (want = 0 ∨ s.dev.on TRIG.STAT.RUNNING = false ∧ s.dev.arch.jobs = [])) ∧
    (∃ (s : State) (lp : Fin 4) (want : Nat), s.dev.up = true ∧ want = (if lp = 3 then 0 else lp.val) ∧ want ≠ s.dev.rd PWR.STATUS.LP
      ∧ (want = 0 ∨ s.dev.on TRIG.STAT.RUNNING = false ∧ s.dev.arch.jobs = [])) ∧
    (∃ (s : State) (lp : Fin 4) (want : Nat), s.dev.up = true ∧ want = (if lp = 3 then 0 else lp.val) ∧ want ≠ s.dev.rd PWR.STATUS.LP
      ∧ (want = 0 ∨ s.dev.on TRIG.STAT.RUNNING = false ∧ s.dev.arch.jobs = [])) ∧
    (∃ (s : State) (lp : Fin 4) (want : Nat), s.dev.up = true ∧ want = (if lp = 3 then 0 else lp.val) ∧ want ≠ s.dev.rd PWR.STATUS.LP
      ∧ (want = 0 ∨ s.dev.on TRIG.STAT.RUNNING = false ∧ s.dev.arch.jobs = [])) ∧
    (∃ (s : State) (lp : Fin 4) (want : Nat), s.dev.up = true ∧ want = (if lp = 3 then 0 else lp.val) ∧ want ≠ s.dev.rd PWR.STATUS.LP
      ∧ (want = 0 ∨ s.dev.on TRIG.STAT.RUNNING = false ∧ s.dev.arch.jobs = [])) ∧
    (∃ (s : State) (io : Fin 8) (falling : Bool), s.dev.up = true ∧ (s.dev.rd PWR.STATUS.LP = 0 ∨ s.dev.on PWR.WAKE.EN = false ∨
      s.dev.rd PWR.WAKE.IO ≠ io.val ∨ s.dev.on PWR.WAKE.EDGE ≠ falling)) ∧
    (∃ (s : State) (io : Fin 8) (falling : Bool), s.dev.up = true ∧ s.dev.rd PWR.STATUS.LP ≠ 0 ∧ s.dev.on PWR.WAKE.EN = true ∧
      s.dev.rd PWR.WAKE.IO = io.val ∧ s.dev.on PWR.WAKE.EDGE = falling) :=
  ⟨⟨st [(RST.UNIT_HEAD.MASK, 2)], 2, 1, RST.UNIT_HEAD.MASK, 2, by decide +kernel⟩,
   ⟨st [(PORT.LINK_CFG.EN 15, 1)], 0, 15, RST.UNIT_PORT.MASK, 0x8000, by decide +kernel⟩,
   ⟨st [(RST.UNIT_PORT.MASK, 1), (PORT.CREDIT_G.G 15, 7)], 0, 15, RST.UNIT_PORT.MASK, 0x8001, by decide +kernel⟩,
   ⟨st [(THERM.STATUS.HEAD_PRESENT 1, 1), (THERM.U_MIN.U 1, 9)], 2, 1, RST.UNIT_HEAD.MASK, 2, by decide +kernel⟩,
   ⟨st [(ZCTL.STREAM_MASK.MASK, 0)], 3, 31, RST.UNIT_Z.MASK, 0x80000000, by decide +kernel⟩,
   ⟨st [(RST.UNIT_PIPE.MASK, 0x81)], 1, 7, RST.UNIT_PIPE.MASK, 1, by decide +kernel⟩,
   ⟨State.reset, 3, 0, by decide +kernel⟩,
   ⟨st [(TRIG.STAT.RUNNING, 1)], 2, 2, by decide +kernel⟩,
   ⟨archState [] fun a => { a with jobs := [job 1] }, 1, 1, by decide +kernel⟩,
   ⟨{ (st [(MEM.STATUS.HBM_READY, 1), (HOST.SESS_STAT.STATE 1, 1)]) with mem := Memory.store ⟨[], [], []⟩ 0x400000000 [1] }, 2, 2,
      by decide +kernel⟩,
   ⟨st [(PWR.STATUS.LP, 1)], 0, 0, by decide +kernel⟩,
   ⟨State.reset, 1, 1, by decide +kernel⟩,
   ⟨st [(PWR.STATUS.LP, 2)], 1, 1, by decide +kernel⟩,
   ⟨st [(PWR.STATUS.LP, 1)], 2, 2, by decide +kernel⟩,
   ⟨State.reset, 3, false, by decide +kernel⟩,
   ⟨st [(PWR.STATUS.LP, 2), (PWR.CTL.LP, 2), (PWR.WAKE.EN, 1), (PWR.WAKE.IO, 7), (PWR.WAKE.EDGE, 1)], 7, true, by decide +kernel⟩⟩

/-! ## Registers and cages -/

def cageSt (l : List Cage) (x : List (Fld × Nat)) : State := stOf ((dev x).updPw fun p => { p with cages := l })

theorem wit_RegistersLocksAndCages :
    (∃ (s : State) (page : Nat), s.dev.up = true ∧ pageExists page = true) ∧
    (∃ (s : State) (page : Nat), s.dev.up = true ∧ pageExists page = false) ∧
    (∃ (s : State) (page : Nat), s.dev.up = true ∧ pageExists page = true) ∧
    (∃ (s : State) (who : Option (Fin 4)) (addr : Nat) (a : Nat), s.dev.up = true ∧ a = addr / 4 * 4 ∧ a < 0x01000000 ∧ (∀ h ∈
      s.dev.integ.half, h.1 ≠ requester who) ∧ pageExists (a / 4096) = false) ∧
    (∃ (s : State) (who : Option (Fin 4)) (addr : Nat) (a : Nat), (s.dev.up = true ∧ a = addr / 4 * 4 ∧ a < 0x01000000 ∧ (∀ h ∈
      s.dev.integ.half, h.1 ≠ requester who)) ∧ s.dev.PlainWord (requester who) a) ∧
    (∃ (s : State) (who : Option (Fin 4)) (addr : Nat) (a : Nat), s.dev.up = true ∧ a = addr / 4 * 4 ∧ a < 0x01000000 ∧ (∀ h ∈
      s.dev.integ.half, h.1 ≠ requester who) ∧ pageExists (a / 4096) = true ∧ pageHeld s.dev (a / 4096) = false ∧ logWord s.dev a
      = none ∧ lockGroup a ≠ [] ∧ (∀ c < 4, a ≠ (ENC.L_SPEED.VAL c).addr) ∧ (∀ l ∈ s.dev.locks, ¬ (l.who = requester who ∧ l.addr
      = a))) ∧
    (∃ (s : State), s.dev.up = true) ∧
    (∃ (s : State) (who : Option (Fin 4)) (addr : Nat) (a : Nat), s.dev.up = true ∧ a = addr / 4 * 4 ∧ a < 0x01000000 ∧ (∀ h ∈
      s.dev.integ.half, h.1 ≠ requester who) ∧ pageExists (a / 4096) = false) ∧
    (∃ (s : State) (who : Option (Fin 4)) (addr : Nat) (a : Nat), s.dev.up = true ∧ a = addr / 4 * 4 ∧ a < 0x01000000 ∧ (∀ h ∈
      s.dev.integ.half, h.1 ≠ requester who) ∧ pageExists (a / 4096) = true ∧ pageHeld s.dev (a / 4096) = true) ∧
    (∃ (s : State) (who : Option (Fin 4)) (addr : Nat) (a : Nat), s.dev.up = true ∧ a = addr / 4 * 4 ∧ a < 0x01000000 ∧ (∀ h ∈
      s.dev.integ.half, h.1 ≠ requester who) ∧ a = SYS.SCRATCH.DATA.addr) ∧
    (∃ (s : State) (who : Option (Fin 4)) (addr : Nat) (a : Nat) (p : Nat), s.dev.up = true ∧ a = addr / 4 * 4 ∧ a < 0x01000000 ∧ (∀ h
      ∈ s.dev.integ.half, h.1 ≠ requester who) ∧ pageExists p = true ∧ p ≠ Page.ZCTL ∧ pageHeld s.dev p = false ∧ a = (Com.IRQ_RAW
      p).addr) ∧
    (∃ (s : State) (who : Option (Fin 4)) (addr : Nat) (a : Nat) (n : Fin 2) (e : Fin 16), s.dev.up = true ∧ a = addr / 4 * 4 ∧ a <
      0x01000000 ∧ (∀ h ∈ s.dev.integ.half, h.1 ≠ requester who) ∧ a = (PADC.CFG0.MUXP n e).addr) ∧
    (∃ (s : State), s.dev.up = true) ∧
    (∃ (s : State), s.dev.up = true) ∧
    (∃ (s : State) (cage : Fin 21), s.dev.up = true ∧ (∀ c ∈ s.dev.pw.cages, c.cage ≠ cage)) ∧
    (∃ (s : State) (cage : Fin 21), s.dev.up = true ∧ (∃ c ∈ s.dev.pw.cages, c.cage = cage)) ∧
    (∃ (s : State) (f : CageFlags) (c : Cage), s.dev.up = true ∧ s.dev.pw.cages = [c] ∧ f.cage ≠ c.cage) ∧
    (∃ (s : State) (f : CageFlags) (c : Cage), s.dev.up = true ∧ s.dev.pw.cages = [c] ∧ f.cage = c.cage) ∧
    (∃ (s : State) (f : CageFlags) (c : Cage), s.dev.up = true ∧ s.dev.pw.cages = [c] ∧ f.cage = c.cage) :=
  ⟨⟨st [(Com.IRQ_RAW Page.MGMT, 0x0F)], Page.MGMT, by decide +kernel⟩,
   ⟨State.reset, 0x3FFFF, by decide +kernel⟩,
   ⟨st [(Com.ERR_CNT Page.MGMT, 7)], Page.MGMT, by decide +kernel⟩,
   ⟨State.reset, some 2, 0xFFF002, 0xFFF000, by decide +kernel⟩,
   ⟨State.reset, none, FAB.TIMEOUT_US.US.addr + 3, FAB.TIMEOUT_US.US.addr, by decide +kernel,
      (by unfold Dev.PlainWord; decide +kernel)⟩,
   ⟨stOf { (dev [(WEB.TB_1.VAL, 7)]) with locks := [⟨.session 2, WEB.TB_0.VAL.addr, WEB.TB_1.VAL.addr, 5, 0⟩] }, none,
      WEB.TB_0.VAL.addr + 1, WEB.TB_0.VAL.addr, by decide +kernel⟩,
   ⟨stOf
      { Dev.reset with time := ⟨16000000, 0, 0⟩, locks := [⟨.session 2, 4096, 4100, 5, 0⟩, ⟨.session 2, 4096, 4104, 5, 1⟩, ⟨.spi, 4096, 4100, 5, 0⟩] },
      by decide +kernel⟩,
   ⟨State.reset, some 2, 0xFFF002, 0xFFF000, by decide +kernel⟩,
   ⟨st [(RST.UNIT_PORT.MASK, 0x8000)], none, PORT.LINK_CFG.EN 15 |>.addr, (PORT.LINK_CFG.EN 15).addr, by decide +kernel⟩,
   ⟨State.reset, none, SYS.SCRATCH.DATA.addr, SYS.SCRATCH.DATA.addr, by decide +kernel⟩,
   ⟨st [(Com.IRQ_RAW Page.MGMT, 0x0F)], some 0, (Com.IRQ_RAW Page.MGMT).addr, (Com.IRQ_RAW Page.MGMT).addr, Page.MGMT,
      by decide +kernel⟩,
   ⟨State.reset, some 0, (PADC.CFG0.MUXP 1 15).addr, (PADC.CFG0.MUXP 1 15).addr, 1, 15, by decide +kernel⟩,
   ⟨nvsState [] fun n => { n with evNext := 1023 }, by decide +kernel⟩,
   ⟨cageSt [⟨20, 3, true⟩, ⟨5, 0, false⟩] [(NVS.STATUS.FROZEN, 1)], by decide +kernel⟩,
   ⟨cageSt [⟨20, 3, true⟩] [], 5, by decide +kernel⟩,
   ⟨cageSt [⟨20, 3, true⟩, ⟨5, 0, false⟩] [], 20, by decide +kernel⟩,
   ⟨cageSt [⟨20, 3, true⟩] [], ⟨5, 31, 0⟩, ⟨20, 3, true⟩, by decide +kernel⟩,
   ⟨cageSt [⟨20, 15, true⟩] [], ⟨20, 31, 0⟩, ⟨20, 15, true⟩, by decide +kernel⟩,
   ⟨cageSt [⟨20, 31, true⟩] [], ⟨20, 3, 0⟩, ⟨20, 31, true⟩, by decide +kernel⟩⟩

end Sys2Proof.Tests
end

section
/-! SUPPORT. What every proof of a command uses: how a command's meaning becomes a statement about it, and how "these registers and no
others" is carried through a chain of register operations. -/

namespace Sys2Proof.Machine

/-! ## From a meaning to a statement about the command -/

theorem gives_of_onDev {c : Instr} {s : State} {g : Dev → Dev} {P : Dev → Prop} (h : exec c s = s.onDev g) (hup : s.dev.up = true)
    (hP : P (g s.dev)) : Gives c s P :=
  ⟨g s.dev, by rw [h, State.onDev, if_pos hup], hP⟩

theorem completes_of_onBoth {c : Instr} {s : State} {g : Dev × Memory → Dev × Memory} {P : State → Prop}
    (h : exec c s = s.onBoth g) (hup : s.dev.up = true)
    (hP : P { s with dev := (g (s.dev, s.mem)).1, mem := (g (s.dev, s.mem)).2 }) : Completes c s P :=
  ⟨{ s with dev := (g (s.dev, s.mem)).1, mem := (g (s.dev, s.mem)).2 }, by rw [h, State.onBoth, State.onAny, if_pos hup], rfl, hP⟩

theorem gives_of_onBoth {c : Instr} {s : State} {g : Dev × Memory → Dev × Memory} {P : Dev → Prop} (h : exec c s = s.onBoth g)
    (hup : s.dev.up = true) (hm : (g (s.dev, s.mem)).2 = s.mem) (hP : P (g (s.dev, s.mem)).1) : Gives c s P :=
  ⟨_, by rw [h, State.onBoth, State.onAny, if_pos hup, hm], hP⟩

/-! ## Reading after a register operation -/

theorem Dev.rd_of_regs_eq {d e : Dev} (h : e.regs = d.regs) (f : Fld) : e.rd f = d.rd f := by rw [Dev.rd, Dev.rd, h]

/-- A field of a device written out reads in its register file: with `Dev.get_regs`, a change of anything but the registers is seen
through. -/
@[simp] theorem Dev.rd_mk (regs : RegFile) (time gen ep snap locks marks enc ports pipes corr zeroX freeCtr out ringSlot errLog nvs integ
    stitch heads padcTimes tags mark valves seg arch host padc temp pw prof twin ring spi) (f : Fld) :
    (Dev.mk regs time gen ep snap locks marks enc ports pipes corr zeroX freeCtr out ringSlot errLog nvs integ stitch heads padcTimes tags
      mark valves seg arch host padc temp pw prof twin ring spi).rd f = regs.get f.key f.reset := rfl

@[simp] theorem Dev.get_regs (d : Dev) (f : Fld) : d.regs.get f.key f.reset = d.rd f := rfl

theorem Dev.rd_inc_same (d : Dev) (f : Fld) : (d.inc f).rd f = min (d.rd f + 1) (2 ^ f.width - 1) := Dev.rd_addCnt_same d f 1

/-! ## Frames: which keys of the register file may have changed -/

/-- From `d` to `e` every field whose key lies outside `S` reads as before: `Dev.KeepsRegs` and `Dev.KeepsPages` are of this form. -/
def Dev.KeepsKeys (d e : Dev) (S : Nat → Prop) : Prop := ∀ f : Fld, ¬ S f.key → e.rd f = d.rd f

theorem Dev.keepsRegs_iff {d e : Dev} {fs : List Fld} : d.KeepsRegs e fs ↔ d.KeepsKeys e (· ∈ fs.map Fld.key) := Iff.rfl

theorem Dev.keepsPages_iff {d e : Dev} {ps : List Nat} : d.KeepsPages e ps ↔ d.KeepsKeys e (· / 131072 ∈ ps) := Iff.rfl

namespace Dev.KeepsKeys
variable {d e : Dev} {S T : Nat → Prop}

theorem refl (d : Dev) (S : Nat → Prop) : d.KeepsKeys d S := fun _ _ => rfl

theorem trans {e' : Dev} (h : d.KeepsKeys e S) (h' : e.KeepsKeys e' S) : d.KeepsKeys e' S :=
  fun f hf => (h' f hf).trans (h f hf)

theorem mono (h : d.KeepsKeys e S) (hST : ∀ k, S k → T k) : d.KeepsKeys e T := fun f hf => h f fun hs => hf (hST _ hs)

/-- A change of anything but the registers. -/
theorem of_regs {e' : Dev} (h : d.KeepsKeys e S) (hr : e'.regs = e.regs) : d.KeepsKeys e' S :=
  fun f hf => (rd_of_regs_eq hr f).trans (h f hf)

theorem wr (h : d.KeepsKeys e S) {f : Fld} (hS : S f.key) (v : Nat) : d.KeepsKeys (e.wr f v) S :=
  fun g hg => (rd_wr_other e f g v fun hk => hg (hk ▸ hS)).trans (h g hg)

theorem wrB (h : d.KeepsKeys e S) {f : Fld} (hS : S f.key) (b : Bool) : d.KeepsKeys (e.wrB f b) S := h.wr hS _

theorem wrS (h : d.KeepsKeys e S) {f : Fld} (hS : S f.key) (x : Int) : d.KeepsKeys (e.wrS f x) S := h.wr hS _

theorem wrSat (h : d.KeepsKeys e S) {f : Fld} (hS : S f.key) (v : Nat) : d.KeepsKeys (e.wrSat f v) S := h.wr hS _

theorem inc (h : d.KeepsKeys e S) {f : Fld} (hS : S f.key) : d.KeepsKeys (e.inc f) S := h.wr hS _

theorem wr2 (h : d.KeepsKeys e S) {lo hi : Fld} (hlo : S lo.key) (hhi : S hi.key) (v : Nat) : d.KeepsKeys (e.wr2 lo hi v) S :=
  (h.wr hlo _).wr hhi _

theorem wr2S (h : d.KeepsKeys e S) {lo hi : Fld} (hlo : S lo.key) (hhi : S hi.key) (x : Int) : d.KeepsKeys (e.wr2S lo hi x) S :=
  h.wr2 hlo hhi _

theorem irq (h : d.KeepsKeys e S) {p : Nat} (h1 : S (Com.IRQ_RAW p).key) (h2 : S (Com.ERR_CNT p).key) (b : Nat) :
    d.KeepsKeys (e.irq p b) S :=
  fun g hg => (rd_irq_other e p b g (fun hk => hg (hk ▸ h1)) fun hk => hg (hk ▸ h2)).trans (h g hg)

theorem ite (h : d.KeepsKeys e S) {e' : Dev} (h' : d.KeepsKeys e' S) (c : Prop) [Decidable c] :
    d.KeepsKeys (if c then e else e') S := by
  split
  · exact h
  · exact h'

theorem foldl {α : Type} {g : Dev → α → Dev} (hg : ∀ (e : Dev) (a : α), e.KeepsKeys (g e a) S) (l : List α) (h : d.KeepsKeys e S) :
    d.KeepsKeys (l.foldl g e) S := by
  induction l generalizing e with
  | nil => exact h
  | cons a l ih => exact ih (h.trans (hg e a))

end Dev.KeepsKeys

end Sys2Proof.Machine
end

section
/-! SUPPORT. The timebase (R11 to R13) and the requests of a snapshot (R30). -/

namespace Sys2Proof.Machine

/-! ## The timebase -/

theorem timeRate_bounds (d : Dev) : -13107200 ≤ timeRate d ∧ timeRate d ≤ 13107200 := by
  simp only [timeRate, clampI, ppmLimit]
  omega

/-- The accumulator and the timebase together advance by exactly the trimmed addend. -/
theorem timebaseTick_exact (d : Dev) :
    65536000000 * ((timebaseTick d).time.tb : Int) + (timebaseTick d).time.acc =
      65536000000 * (d.time.tb : Int) + d.time.acc + 20 * (65536000000 + timeRate d) ∧
    (timebaseTick d).time.acc < 65536000000 ∧ d.time.tb ≤ (timebaseTick d).time.tb := by
  have hr := timeRate_bounds d
  simp only [timebaseTick]
  omega

theorem tbStep_accepted {d : Dev} {x : Nat} (hg : genRuns d = false) (hx : (d.time.tb : Int) + 16 * d.rdS WEB.TB_STEP.STEP_NS = x)
    (hlt : x < 2 ^ 68) : tbStep d = { d with time := { d.time with tb := x } } := by
  have hno : ¬ (genRuns d = true ∨ (x : Int) < 0 ∨ (2 ^ 68 : Int) ≤ x) := by
    simp only [hg, Bool.false_eq_true, false_or]
    omega
  simp only [tbStep, hx, if_neg hno, Int.toNat_natCast]

theorem tbStep_refused {d : Dev}
    (h : genRuns d = true ∨ (d.time.tb : Int) + 16 * d.rdS WEB.TB_STEP.STEP_NS < 0 ∨
      (2 ^ 68 : Int) ≤ (d.time.tb : Int) + 16 * d.rdS WEB.TB_STEP.STEP_NS) : tbStep d = d.wr WEB.TB_CTL.STEP_REFUSED 1 := by
  simp only [tbStep, if_pos h]

/-- Settles O6: the tick in exact arithmetic, the step in both of its forms, holdover. -/
theorem timebaseTicksAndSteps : Obligations.TimebaseTicksAndSteps := by
  refine ⟨fun s hup => gives_of_onDev rfl hup ?_, fun s x hup hg hx hlt => gives_of_onDev rfl hup (tbStep_accepted hg hx hlt),
    fun s hup h => gives_of_onDev rfl hup ?_, fun s hup => gives_of_onDev rfl hup ?_⟩
  · obtain ⟨hsum, hacc, hle⟩ := timebaseTick_exact s.dev
    exact ⟨hsum, hacc, hle, rfl⟩
  · rw [tbStep_refused h]
    exact ⟨by simp [WEB.TB_CTL.STEP_REFUSED, fld], rfl, (Dev.KeepsKeys.refl _ _).wr (by simp) _⟩
  · refine ⟨?_, ?_, rfl, fun f hf => ?_⟩
    · simp [tbHoldover]
    · simp [tbHoldover, Dev.rd_wr_other _ _ _ _ (show WEB.TB_RATE.RATE.key ≠ WEB.TB_CTL.LOCKED.key by decide)]
    · simp [tbHoldover, Dev.rd_wr_other _ _ _ _ (show f.key ≠ WEB.TB_CTL.LOCKED.key by simpa using hf)]

/-! ## Snapshot requests -/

/-- A request for the registers: PENDING, not VALID, its line, and no copy yet. -/
theorem snapAsk_spec (d : Dev) (next : Bool) (line : Nat) :
    (snapAsk d next line).rd WEB.SNAP_STATUS.PENDING = 1 ∧ (snapAsk d next line).rd WEB.SNAP_STATUS.VALID = 0 ∧
    (snapAsk d next line).snap.nextLine = next ∧ (snapAsk d next line).snap.target = line ∧
    d.KeepsRegs (snapAsk d next line) [WEB.SNAP_STATUS.PENDING, WEB.SNAP_STATUS.VALID] := by
  have hk : WEB.SNAP_STATUS.PENDING.key ≠ WEB.SNAP_STATUS.VALID.key := by decide
  refine ⟨?_, ?_, rfl, rfl, ?_⟩
  · simp [snapAsk, Dev.rd_wr_other _ _ _ _ hk, show WEB.SNAP_STATUS.PENDING.width = 1 from rfl]
  · simp [snapAsk]
  · exact (((Dev.KeepsKeys.refl d _).wr (f := WEB.SNAP_STATUS.PENDING) (by simp) 1).wr (f := WEB.SNAP_STATUS.VALID) (by simp) 0).of_regs rfl

theorem snapDrop_spec (d : Dev) :
    (snapDrop d).rd WEB.SNAP_STATUS.PENDING = 0 ∧ (snapDrop d).rd WEB.SNAP_STATUS.VALID = 0 ∧ (snapDrop d).snap.copy = [] ∧
    (snapDrop d).snap.jobs = d.snap.jobs ∧ d.KeepsRegs (snapDrop d) [WEB.SNAP_STATUS.PENDING, WEB.SNAP_STATUS.VALID] := by
  have hk : WEB.SNAP_STATUS.VALID.key ≠ WEB.SNAP_STATUS.PENDING.key := by decide
  refine ⟨?_, ?_, rfl, rfl, ?_⟩
  · simp [snapDrop]
  · simp [snapDrop, Dev.rd_wr_other _ _ _ _ hk]
  · exact (((Dev.KeepsKeys.refl d _).wr (f := WEB.SNAP_STATUS.VALID) (by simp) 0).wr (f := WEB.SNAP_STATUS.PENDING) (by simp) 0).of_regs rfl

/-- With no read-out running and without RING, a request of the registers is made at once. -/
theorem snapRequest_idle {d : Dev} (next : Bool) (line : Nat) (hj : d.snap.jobs = []) : snapRequest d next line false = snapAsk d next line := by
  simp [snapRequest, snapStart, hj]

/-- A message to the standby changes nothing but what was sent. -/
theorem Dev.toStandby_eq (d : Dev) (k : MsgKind) (args : List Int) : d.toStandby k args = { d with out := (d.toStandby k args).out } := by
  unfold Dev.toStandby
  split <;> rfl

/-- Settles O10: the three requests, and the release. -/
theorem snapshotsAreRequested : Obligations.SnapshotsAreRequested := by
  refine ⟨fun s hup hj hr => gives_of_onDev rfl hup ?_, fun s hup hj hr => gives_of_onDev rfl hup ?_,
    fun s target hup => gives_of_onDev (g := fun d => (snapAsk d false target).toStandby .snap [(target : Int)]) rfl hup ?_,
    fun s hup => gives_of_onDev rfl hup (snapDrop_spec s.dev)⟩
  · rw [snapReq, hr, snapRequest_idle _ _ hj]
    exact snapAsk_spec _ _ _
  · rw [snapNext, hr, snapRequest_idle _ _ hj]
    obtain ⟨hp, hv, hn, -, hk⟩ := snapAsk_spec s.dev true 0
    exact ⟨hp, hv, hn, hk⟩
  · rw [Dev.toStandby_eq]
    exact snapAsk_spec s.dev false target

end Sys2Proof.Machine
end


section
/-! SUPPORT. What issuing a trigger leaves as it was: the cameras, pipelines, the stitch stage, snapshots and latches take the trigger
without touching the generator, its channels or its mode. -/

namespace Sys2Proof.Machine

/-- The keys other than those of WLN's low word and of the generator's mode. -/
abbrev trigKey (k : Nat) : Prop := k ≠ WEB.WLN_LO.WLN.key ∧ k ≠ TRIG.CTL.MODE.key

/-- A field above the TRIG page. -/
theorem trigKey_of_above {f : Fld} (h : 0x19000 ≤ f.addr) : trigKey f.key := by
  simp only [trigKey, Fld.key, WEB.WLN_LO.WLN, TRIG.CTL.MODE, fld]
  omega

/-- From `d` to `e` the generator, the channels, WLN's low word and the generator's mode stayed. -/
structure Dev.TrigKept (d e : Dev) : Prop where
  gen : e.gen = d.gen
  enc : e.enc = d.enc
  regs : d.KeepsKeys e trigKey

namespace Dev.TrigKept
variable {d e : Dev}

theorem refl (d : Dev) : d.TrigKept d := ⟨rfl, rfl, .refl _ _⟩

theorem trans {e' : Dev} (h : d.TrigKept e) (h' : e.TrigKept e') : d.TrigKept e' :=
  ⟨h'.gen.trans h.gen, h'.enc.trans h.enc, h.regs.trans h'.regs⟩

/-- A change of anything but the registers, the generator and the channels. -/
theorem of_eq {e' : Dev} (h : d.TrigKept e) (hr : e'.regs = e.regs) (hg : e'.gen = e.gen) (he : e'.enc = e.enc) : d.TrigKept e' :=
  ⟨hg.trans h.gen, he.trans h.enc, h.regs.of_regs hr⟩

theorem wr (h : d.TrigKept e) {f : Fld} (hf : trigKey f.key) (v : Nat) : d.TrigKept (e.wr f v) := ⟨h.gen, h.enc, h.regs.wr hf v⟩

theorem inc (h : d.TrigKept e) {f : Fld} (hf : trigKey f.key) : d.TrigKept (e.inc f) := h.wr hf _

theorem irq (h : d.TrigKept e) {p : Nat} (hp : 0x19 ≤ p) (b : Nat) : d.TrigKept (e.irq p b) :=
  ⟨(irq_gen e p b).trans h.gen, (irq_enc e p b).trans h.enc,
    h.regs.irq (trigKey_of_above (by simp only [Com.IRQ_RAW, fld]; omega)) (trigKey_of_above (by simp only [Com.ERR_CNT, fld]; omega)) b⟩

theorem emit (h : d.TrigKept e) (o : Out) : d.TrigKept (e.emit o) := h.of_eq rfl rfl rfl

theorem updPort (h : d.TrigKept e) (p : Fin 16) (g : Port → Port) : d.TrigKept (e.updPort p g) := h.of_eq rfl rfl rfl

theorem ite (c : Prop) [Decidable c] {e' : Dev} (h : d.TrigKept e) (h' : d.TrigKept e') : d.TrigKept (if c then e else e') := by
  split
  · exact h
  · exact h'

theorem foldl {α : Type} {g : Dev → α → Dev} (hg : ∀ (e : Dev) (a : α), e.TrigKept (g e a)) (l : List α) (h : d.TrigKept e) :
    d.TrigKept (l.foldl g e) := by
  induction l generalizing e with
  | nil => exact h
  | cons a l ih => exact ih (h.trans (hg e a))

theorem toRing (h : d.TrigKept e) (k : MsgKind) (args : List Int) : d.TrigKept (e.toRing k args) := .ite _ (h.emit _) h

theorem toStandby (h : d.TrigKept e) (k : MsgKind) (args : List Int) : d.TrigKept (e.toStandby k args) := .ite _ (h.emit _) h

/-! ### Snapshots -/

theorem snapAsk (h : d.TrigKept e) (next : Bool) (s : Nat) : d.TrigKept (snapAsk e next s) :=
  ((h.wr (f := WEB.SNAP_STATUS.PENDING) (by decide) 1).wr (f := WEB.SNAP_STATUS.VALID) (by decide) 0).of_eq rfl rfl rfl

theorem snapDrop (h : d.TrigKept e) : d.TrigKept (snapDrop e) :=
  ((h.wr (f := WEB.SNAP_STATUS.VALID) (by decide) 0).wr (f := WEB.SNAP_STATUS.PENDING) (by decide) 0).of_eq rfl rfl rfl

theorem snapStart (h : d.TrigKept e) (next : Bool) (s : Nat) (ring : Bool) : d.TrigKept (snapStart e next s ring) :=
  .ite _ (h.snapAsk _ _) (.ite _ h (.ite _ (h.snapAsk _ _) (((h.snapAsk _ _).toRing _ _).toStandby _ _)))

theorem snapNextJob (js : List SnapJob) (h : d.TrigKept e) : d.TrigKept (snapNextJob js e) := by
  induction js generalizing e with
  | nil => exact h.of_eq rfl rfl rfl
  | cons j rest ih =>
    rw [Machine.snapNextJob]
    have hjobs (js : List SnapJob) : d.TrigKept { e with snap := { e.snap with jobs := js } } := h.of_eq rfl rfl rfl
    exact .ite _ ((hjobs _).snapStart _ _ _) (ih ((hjobs _).snapStart _ _ _))

theorem answer (h : d.TrigKept e) (port j seq : Nat) (fs : List (Nat × List Nat)) : d.TrigKept (answer e port j seq fs) := by
  have hframe (e : Dev) (f : Nat × List Nat) : e.TrigKept (sendFrame (arpUse e port j) port f.1 (e.rd (HOST.SESS_ID.ID j) :: seq :: f.2)) := by
    have harp : e.TrigKept (arpUse e port j) := (refl e).of_eq rfl rfl rfl
    exact (harp.emit _).inc (by split <;> decide)
  exact (h.foldl hframe fs).of_eq rfl rfl rfl

theorem snapAnswer (h : d.TrigKept e) : d.TrigKept (snapAnswer e) := by
  unfold Machine.snapAnswer
  split
  · exact h
  · split
    · exact h
    · split
      · exact h
      · exact snapNextJob _ (.ite _ (h.answer _ _ _ _).snapDrop (h.answer _ _ _ _))

theorem snapReach (h : d.TrigKept e) (p w : Nat) (fs : List Fld) : d.TrigKept (e.snapReach p w fs) :=
  .ite _ (snapAnswer (h.of_eq rfl rfl rfl)) h

theorem snapTake (h : d.TrigKept e) (w : Nat) : d.TrigKept (snapTake e w) := by
  unfold Machine.snapTake
  split
  · exact snapAnswer ((((h.wr (f := WEB.SNAP_STATUS.PENDING) (by decide) _).wr (f := WEB.SNAP_STATUS.VALID) (by decide) _).wr
      (f := WEB.SNAP_STATUS.EPOCH_ID) (by decide) _).of_eq rfl rfl rfl)
  · split
    · have hn : d.TrigKept { e with snap := { e.snap with nextLine := false, target := w + 1 } } := h.of_eq rfl rfl rfl
      exact .ite _ ((hn.toRing _ _).toStandby _ _) hn
    · exact h

/-! ### Camera ports -/

theorem updLine (h : d.TrigKept e) (p : Fin 16) (w : Nat) (g : PLine → PLine) : d.TrigKept (updLine e p w g) := h.updPort _ _

theorem releaseBlocks (h : d.TrigKept e) (p : Fin 16) (w : Nat) : d.TrigKept (releaseBlocks e p w) := by
  unfold Machine.releaseBlocks
  exact (h.wr (f := PORT.BUF_USED.B p) (trigKey_of_above (by simp only [PORT.BUF_USED.B, fld]; omega)) _).updLine _ _ _

theorem releaseLine (h : d.TrigKept e) (p : Fin 16) (w : Nat) : d.TrigKept (releaseLine e p w) := by
  unfold Machine.releaseLine
  exact (h.wr (f := PORT.BUF_USED.B p) (trigKey_of_above (by simp only [PORT.BUF_USED.B, fld]; omega)) _).updPort _ _

theorem closeLine (h : d.TrigKept e) (p : Fin 16) (w : Nat) (flags : List Nat) : d.TrigKept (closeLine e p w flags) := by
  have hformat : trigKey (PORT.FORMAT_CNT.CNT p).key := trigKey_of_above (by simp only [PORT.FORMAT_CNT.CNT, fld]; omega)
  have hmissing : trigKey (PORT.MISSING_CNT.CNT p).key := trigKey_of_above (by simp only [PORT.MISSING_CNT.CNT, fld]; omega)
  have hflagged : trigKey (PORT.LINES_FLAGGED.CNT p).key := trigKey_of_above (by simp only [PORT.LINES_FLAGGED.CNT, fld]; omega)
  have hok : trigKey (PORT.LINES_OK.CNT p).key := trigKey_of_above (by simp only [PORT.LINES_OK.CNT, fld]; omega)
  have hpage : 0x19 ≤ Page.PORT p := by simp only [Page.PORT]; omega
  unfold Machine.closeLine
  split
  · exact h
  · split
    · exact h
    · extract_lets len missing short fl0 fl d0 d1 d2 d3 d4 d5 d6 d7
      have h0 : d.TrigKept d0 := h.snapReach _ _ _
      have h2 : d.TrigKept d2 := (h0.updLine _ _ _).updPort _ _
      have h3 : d.TrigKept d3 := .ite _ ((h2.releaseBlocks _ _).inc hmissing) h2
      have h4 : d.TrigKept d4 := .ite _ (h3.inc hformat) h3
      have h5 : d.TrigKept d5 := .ite _ (h4.inc hformat) h4
      have h6 : d.TrigKept d6 := .ite _ ((h5.inc hflagged).irq hpage _) (h5.inc hok)
      have h7 : d.TrigKept d7 := .ite _ (h6.inc (by decide)) h6
      exact .ite _ (.ite _ (h6.releaseBlocks _ _) h6) (h7.releaseLine _ _)

theorem portTrigger (h : d.TrigKept e) (p : Fin 16) (t : TrigRec) : d.TrigKept (portTrigger e p t) := by
  unfold Machine.portTrigger
  extract_lets st l d1 openL
  have h1 : d.TrigKept d1 := h.updPort _ _
  refine .ite _ (h1.closeLine _ _ _) (.ite _ (h1.closeLine _ _ _) ?_)
  split
  · exact .ite _ (h1.closeLine _ _ _) h1
  · exact h1

theorem settingsSend (h : d.TrigKept e) (p : Fin 16) (w : Nat) : d.TrigKept (settingsSend e p w) := by
  unfold Machine.settingsSend
  split
  · exact h
  · exact .ite _ h (.ite _ (h.foldl (fun e g => by exact of_eq (.refl e) rfl rfl rfl) _) (h.of_eq rfl rfl rfl))

/-! ### The stitch stage, the latches and the standby -/

theorem sendStrips (h : d.TrigKept e) (v : View) (w : Nat) : d.TrigKept (sendStrips e v w) :=
  .ite _ (.emit (.ite _ (h.emit _) h) _) (.ite _ (h.emit _) h)

theorem stripSweep (h : d.TrigKept e) : d.TrigKept (stripSweep e) :=
  h.foldl (fun e o => by exact .ite _ (.refl e) (((refl e).sendStrips (e.cfg o.trig.epoch) o.trig.wln).of_eq rfl rfl rfl)) _

theorem stitchTrigger (h : d.TrigKept e) (t : TrigRec) : d.TrigKept (stitchTrigger e t) := stripSweep (h.of_eq rfl rfl rfl)

end Dev.TrigKept

end Sys2Proof.Machine
end


section
/-! SUPPORT. The trigger generator (R16, R18, R19): what issuing one trigger does to it. -/

namespace Sys2Proof.Machine

/-- No field of an encoder channel is WLN's low word or the generator's mode. -/
theorem trigKey_enc (n : Fin 4) {f : Fld} (hf : f ∈ ENC.fields1 n) : trigKey f.key := by
  have hall : ∀ n : Fin 4, ∀ f ∈ ENC.fields1 n, trigKey f.key := by decide +kernel
  exact hall n f hf

namespace Dev.TrigKept
variable {d e : Dev}

theorem latchSet (h : d.TrigKept e) (n : Fin 4) (t : Nat) : d.TrigKept (latchSet e n t) := by
  have henc {f : Fld} (hf : f ∈ ENC.fields1 n) : trigKey f.key := trigKey_enc n hf
  unfold Machine.latchSet
  extract_lets c d1 d2 d3 d4
  have h1 : d.TrigKept d1 := .ite _ (h.wr (henc (by simp [ENC.fields1])) _) h
  have h2 : d.TrigKept d2 := ((((h1.wr (henc (by simp [ENC.fields1])) _).wr (henc (by simp [ENC.fields1])) _).wr
    (henc (by simp [ENC.fields1])) _).wr (henc (by simp [ENC.fields1])) _)
  have h3 : d.TrigKept d3 := ((h2.wr (henc (by simp [ENC.fields1])) _).wr (henc (by simp [ENC.fields1])) _).wr (henc (by simp [ENC.fields1])) _
  have h4 : d.TrigKept d4 := ((h3.wr (henc (by simp [ENC.fields1])) _).wr (henc (by simp [ENC.fields1])) _).wr (henc (by simp [ENC.fields1])) _
  exact (h4.wr (henc (by simp [ENC.fields1])) _).wr (henc (by simp [ENC.fields1])) _

theorem tellStandby (h : d.TrigKept e) (t : TrigRec) : d.TrigKept (tellStandby e t) := by
  unfold Machine.tellStandby
  extract_lets gs d1
  have h1 : d.TrigKept d1 := .ite _ h (h.toStandby _ _)
  exact .ite _ h (.ite _ (h1.toStandby _ _) h1)

end Dev.TrigKept

/-! ## The three parts of issuing a trigger -/

/-- A failover switch that waits for this line is made (R50). -/
def issueSwitch (d : Dev) (t : TrigRec) : Dev :=
  if t.skipped then d else
    match d.gen.foSwitch with
    | some (v, cause) => if v ≤ t.wln then foSwitchNow d cause false else d
    | none => d

/-- The greatest WLN issued and the instant of the last trigger are the line's own. -/
def issueNote (d : Dev) (t : TrigRec) : Dev :=
  { d with gen := { d.gen with
      maxWln := some t.wln
      last := if t.skipped then d.gen.last else some t.time
      posIssue := d.gen.pos
      recent := (t :: d.gen.recent).take 64 } }

/-- The line's stamp is compared with a LINE that came before it. -/
def issueCompare (d : Dev) (t : TrigRec) : Dev :=
  let d := match d.gen.expected.find? fun e => e.1 == t.wln with
    | some (_, pos) => divergeCheck d t.pos pos
    | none => d
  { d with gen := { d.gen with expected := d.gen.expected.filter fun e => decide (t.wln < e.1) } }

/-- The first line after a failover is shown. -/
def issueMarkFo (d : Dev) (t : TrigRec) : Dev :=
  if d.gen.foMark then
    let d1 := d.wr2 (ENC.FO_WLN_LO.FO_WLN (trigSrc d)) (ENC.FO_WLN_HI.FO_WLN (trigSrc d)) t.wln
    { d1 with gen := { d1.gen with foMark := false } }
  else d

/-- So is the first line after a takeover. -/
def issueMark (d : Dev) (t : TrigRec) : Dev :=
  let d := issueMarkFo d t
  if d.gen.takeMark then
    let d1 := d.wr2 TWIN.TAKE_WLN_LO.WLN TWIN.TAKE_WLN_HI.WLN t.wln
    { d1 with gen := { d1.gen with takeMark := false } }
  else d

/-- The trigger goes to everything that waits for it: latches, pipelines, the stitch stage, ports, the ring, the standby. -/
def issueSend (d : Dev) (t : TrigRec) : Dev :=
  let d := if t.skipped then d else
    allEnc.foldl (fun (d : Dev) (n : Fin 4) => if d.rd (ENC.LATCH_CTL.SRC n) = 3 then latchSet d n t.time else d) d
  let d := allPipes.foldl (fun d l => d.updPipe l fun q => { q with trigQ := q.trigQ ++ [t] }) d
  let d := stitchTrigger d t
  let d := allPorts.foldl (fun (d : Dev) (p : Fin 16) =>
    if d.on (PORT.LINK_CFG.EN p) || (routeOf d t.epoch p).isSome then portTrigger d p t else d) d
  let d := if t.skipped then d else allPorts.foldl (fun (d : Dev) (p : Fin 16) => settingsSend d p t.wln) d
  let d := if d.isPuppeteer then (d.toRing .line [(t.wln : Int), (posStamp t.pos : Int)]).toStandby .line [(t.wln : Int), (posStamp t.pos : Int)]
    else d
  let d := tellStandby d t
  allPorts.foldl (fun (d : Dev) (p : Fin 16) =>
    if homing d p == 1 && linkState d p == LS.active && d.hasTaken && !d.on (PORT.LINK_STAT.PRIMARY p) then sendRole d p else d) d

/-- What stands in the books once the line is noted. -/
def issueBooks (d : Dev) (t : TrigRec) : Dev :=
  issueMark (issueCompare (issueNote ((snapTake d t.wln).wr2 WEB.WLN_LO.WLN WEB.WLN_HI.WLN t.wln) t) t) t

theorem issueTrig_eq (d : Dev) (t : TrigRec) :
    issueTrig d t =
      if t.skipped then issueSend (issueBooks (issueSwitch d t) t) t
      else slewTick (issueSend (issueBooks (issueSwitch d t) t) t) t.wln := rfl

theorem issueSend_kept (d : Dev) (t : TrigRec) : d.TrigKept (issueSend d t) := by
  unfold issueSend
  extract_lets d1 d2 d3 d4 d5 d6 d7
  have h1 : d.TrigKept d1 := .ite _ (.refl d) (.foldl (fun e n => .ite _ (.latchSet (.refl e) _ _) (.refl e)) _ (.refl d))
  have h2 : d.TrigKept d2 := .foldl (fun e l => by exact Dev.TrigKept.of_eq (.refl e) rfl rfl rfl) _ h1
  have h3 : d.TrigKept d3 := h2.stitchTrigger t
  have h4 : d.TrigKept d4 := .foldl (fun e p => .ite _ (.portTrigger (.refl e) _ _) (.refl e)) _ h3
  have h5 : d.TrigKept d5 := .ite _ h4 (.foldl (fun e p => .settingsSend (.refl e) _ _) _ h4)
  have h6 : d.TrigKept d6 := .ite _ ((h5.toRing _ _).toStandby _ _) h5
  have h7 : d.TrigKept d7 := h6.tellStandby t
  exact .foldl (fun e p => .ite _ (.emit (.refl e) _) (.refl e)) _ h7

end Sys2Proof.Machine
end


section
namespace Sys2Proof.Machine

/-! ## What failover, comparison and index slew leave of the generator -/

/-- The part of the generator that neither a failover, nor R21's comparison, nor an index slew moves. -/
def TrigGen.core (g : TrigGen) : (Nat × Nat × Option Nat × Option Nat) × Option TrigRec × List TrigRec × Int × Int :=
  ((g.nextWln, g.t, g.maxWln, g.last), g.held, g.skipped, g.n, g.h)

/-- From `d` to `e` that part, WLN's low word and the generator's mode stayed. -/
structure Dev.CoreKept (d e : Dev) : Prop where
  core : e.gen.core = d.gen.core
  regs : d.KeepsKeys e trigKey

theorem Dev.TrigKept.coreKept {d e : Dev} (h : d.TrigKept e) : d.CoreKept e := ⟨by rw [h.gen], h.regs⟩

namespace Dev.CoreKept
variable {d e : Dev}

theorem refl (d : Dev) : d.CoreKept d := ⟨rfl, .refl _ _⟩

theorem trans {e' : Dev} (h : d.CoreKept e) (h' : e.CoreKept e') : d.CoreKept e' := ⟨h'.core.trans h.core, h.regs.trans h'.regs⟩

theorem of_eq {e' : Dev} (h : d.CoreKept e) (hr : e'.regs = e.regs) (hc : e'.gen.core = e.gen.core) : d.CoreKept e' :=
  ⟨hc.trans h.core, h.regs.of_regs hr⟩

theorem foldl {α : Type} {g : Dev → α → Dev} (hg : ∀ (e : Dev) (a : α), e.CoreKept (g e a)) (l : List α) (h : d.CoreKept e) :
    d.CoreKept (l.foldl g e) := by
  induction l generalizing e with
  | nil => exact h
  | cons a l ih => exact ih (h.trans (hg e a))

end Dev.CoreKept

theorem Dev.TrigKept.posShow {d e : Dev} (h : d.TrigKept e) : d.TrigKept (posShow e) := by
  have hregs := ((h.wr (f := WEB.POS_LO.POS) (by decide) (ofSigned (32 + WEB.POS_HI.POS.width) (sar e.gen.pos 24))).wr
    (f := WEB.POS_HI.POS) (by decide) (ofSigned (32 + WEB.POS_HI.POS.width) (sar e.gen.pos 24) / 2 ^ 32)).wr
    (f := TRIG.NEXT_FRAC.FRAC) (by decide) (ofSigned TRIG.NEXT_FRAC.FRAC.width e.gen.n)
  exact hregs.of_eq rfl rfl rfl

theorem Dev.TrigKept.encShow {d e : Dev} (h : d.TrigKept e) (n : Fin 4) : d.TrigKept (encShow e n) := by
  have henc {f : Fld} (hf : f ∈ ENC.fields1 n) : trigKey f.key := trigKey_enc n hf
  unfold Machine.encShow
  extract_lets c d1 d2
  have h1 : d.TrigKept d1 := (((h.wr (henc (by simp [ENC.fields1])) _).wr (henc (by simp [ENC.fields1])) _).wr
    (henc (by simp [ENC.fields1])) _).wr (henc (by simp [ENC.fields1])) _
  have h2 : d.TrigKept d2 := ((h1.wr (henc (by simp [ENC.fields1])) _).wr (henc (by simp [ENC.fields1])) _).wr
    (henc (by simp [ENC.fields1])) _
  exact (h2.wr (henc (by simp [ENC.fields1])) _).wr (henc (by simp [ENC.fields1])) _

theorem addCorr_coreKept (d : Dev) (n : Fin 4) (x : Int) : d.CoreKept (addCorr d n x) := by
  unfold addCorr
  extract_lets d1
  have h0 : d.CoreKept (d.updEnc n fun c => { c with pos := c.pos + x }) := .of_eq (.refl d) rfl rfl
  have h1 : d.CoreKept d1 := h0.trans ((Dev.TrigKept.refl _).encShow n).coreKept
  have h2 : d.CoreKept { d1 with gen := { d1.gen with pos := d1.gen.pos + x, srcPosAtLast := d1.gen.srcPosAtLast + x } } :=
    .of_eq h1 rfl rfl
  split
  · exact h2.trans (Dev.TrigKept.refl _).posShow.coreKept
  · exact h1

theorem slewLoad_trigKept (w : Nat) (d : Dev) (n : Fin 4) (s : Slew) : d.TrigKept (slewLoad w d n s).1 := by
  unfold slewLoad
  split
  · exact .refl d
  · exact ((Dev.TrigKept.refl d).wr (trigKey_enc n (by simp [ENC.fields1])) _).wr (trigKey_enc n (by simp [ENC.fields1])) _

theorem slewOne_coreKept (w : Nat) (d : Dev) (n : Fin 4) : d.CoreKept (slewOne w d n) := by
  have henc {f : Fld} (hf : f ∈ ENC.fields1 n) : trigKey f.key := trigKey_enc n hf
  unfold slewOne
  split
  · exact .refl d
  · rename_i s0 _
    split
    · exact .refl d
    · have h0 := (slewLoad_trigKept w d n s0).coreKept
      generalize slewLoad w d n s0 = r at h0 ⊢
      obtain ⟨d0, s⟩ := r
      simp -zeta only
      extract_lets d1 d2 again d3
      have h1 : d.CoreKept d1 := h0.trans (addCorr_coreKept d0 n _)
      have h2 : d.CoreKept d2 := h1.trans
        (((Dev.TrigKept.refl d1).wr (henc (by simp [ENC.fields1])) _).wr (henc (by simp [ENC.fields1])) _).coreKept
      have h3 : d.CoreKept d3 := h2.trans
        (((Dev.TrigKept.refl d2).wr (henc (by simp [ENC.fields1])) _).wr (henc (by simp [ENC.fields1])) _).coreKept
      have h4 : d.CoreKept (d3.updEnc n fun c =>
          { c with ofs := c.ofs + s.d, slew := again.map fun x => ⟨x, none, 0, 0, 0, 0⟩, nextCorr := none }) := .of_eq h3 rfl rfl
      split
      · exact h4.trans ((Dev.TrigKept.refl _).encShow n).coreKept
      · exact .of_eq h2 rfl rfl

theorem slewTick_coreKept (d : Dev) (w : Nat) : d.CoreKept (slewTick d w) := .foldl (slewOne_coreKept w) _ (.refl d)

theorem slewOne_of_none {d : Dev} {n : Fin 4} (h : d.enc[n].slew = none) (w : Nat) : slewOne w d n = d := by
  unfold slewOne
  rw [h]

/-- Without a correction under way no line carries an increment. -/
theorem slewTick_of_none {d : Dev} (h : ∀ n : Fin 4, d.enc[n].slew = none) (w : Nat) : slewTick d w = d := by
  unfold slewTick
  generalize allEnc = l
  induction l with
  | nil => rfl
  | cons n l ih => rw [List.foldl_cons, slewOne_of_none (h n), ih]

theorem foSwitchNow_coreKept (d : Dev) (cause : Nat) (loc : Bool) : d.CoreKept (foSwitchNow d cause loc) := by
  unfold foSwitchNow
  extract_lets s b pos d1
  have h1 : d.TrigKept d1 := (((Dev.TrigKept.refl d).wr (trigKey_enc s (by simp [ENC.fields1])) _).wr
    (trigKey_enc s (by simp [ENC.fields1])) _).wr (trigKey_enc s (by simp [ENC.fields1])) _
  have h2 : d.CoreKept { d1 with gen := { d1.gen with pos := pos, fo := some b, foMark := true, foSwitch := none } } :=
    .of_eq h1.coreKept rfl rfl
  exact h2.trans (Dev.TrigKept.refl _).posShow.coreKept

theorem divergeCheck_coreKept (d : Dev) (own : Int) (pos : Nat) : d.CoreKept (divergeCheck d own pos) := by
  unfold divergeCheck
  extract_lets diff d1
  split
  · exact .of_eq ((Dev.TrigKept.refl d).wr (f := TRIG.STAT.DIVERGE) (by decide) 1).coreKept rfl rfl
  · exact .refl d

/-! ## One trigger issued -/

theorem issueSwitch_coreKept (d : Dev) (t : TrigRec) : d.CoreKept (issueSwitch d t) := by
  unfold issueSwitch
  split
  · exact .refl d
  · split
    · split
      · exact foSwitchNow_coreKept _ _ _
      · exact .refl d
    · exact .refl d

theorem issueCompare_coreKept (d : Dev) (t : TrigRec) : d.CoreKept (issueCompare d t) := by
  unfold issueCompare
  extract_lets d1
  refine .of_eq (e := d1) ?_ rfl rfl
  simp only [d1]
  split
  · exact divergeCheck_coreKept _ _ _
  · exact .refl d

theorem issueMark_coreKept (d : Dev) (t : TrigRec) : d.CoreKept (issueMark d t) := by
  have hshow : d.CoreKept (issueMarkFo d t) := by
    unfold issueMarkFo
    split
    · exact .of_eq (((Dev.TrigKept.refl d).wr (trigKey_enc (trigSrc d) (by simp [ENC.fields1])) _).wr
        (trigKey_enc (trigSrc d) (by simp [ENC.fields1])) _).coreKept rfl rfl
    · exact .refl d
  unfold issueMark
  extract_lets d1
  split
  · exact hshow.trans (.of_eq (((Dev.TrigKept.refl _).wr (f := TWIN.TAKE_WLN_LO.WLN) (by decide) _).wr
      (f := TWIN.TAKE_WLN_HI.WLN) (by decide) _).coreKept rfl rfl)
  · exact hshow

end Sys2Proof.Machine
end


section
namespace Sys2Proof.Machine

/-- What the generator's core becomes with the line issued: its WLN is the greatest issued and, unless it was skipped, its instant the
last one. -/
def TrigGen.noted (g : TrigGen) (t : TrigRec) : TrigGen :=
  { g with maxWln := some t.wln, last := if t.skipped then g.last else some t.time }

theorem TrigGen.core_noted {g g' : TrigGen} (h : g.core = g'.core) (t : TrigRec) : (g.noted t).core = (g'.noted t).core := by
  simp only [TrigGen.core, TrigGen.noted, Prod.mk.injEq] at h ⊢
  obtain ⟨⟨hw, ht, -, hl⟩, hh, hs, hn, hhh⟩ := h
  exact ⟨⟨hw, ht, trivial, by rw [hl]⟩, hh, hs, hn, hhh⟩

theorem issueBooks_spec (d : Dev) (t : TrigRec) :
    (issueBooks d t).gen.core = (d.gen.noted t).core ∧ (issueBooks d t).rd WEB.WLN_LO.WLN = t.wln % 2 ^ 32 ∧
    (issueBooks d t).rd TRIG.CTL.MODE = d.rd TRIG.CTL.MODE := by
  have hsnap : d.TrigKept (snapTake d t.wln) := (Dev.TrigKept.refl d).snapTake _
  let noted := issueNote ((snapTake d t.wln).wr2 WEB.WLN_LO.WLN WEB.WLN_HI.WLN t.wln) t
  have hafter : noted.CoreKept (issueBooks d t) := (issueCompare_coreKept noted t).trans (issueMark_coreKept _ t)
  have hlo : noted.rd WEB.WLN_LO.WLN = t.wln % 2 ^ 32 :=
    (Dev.rd_wr_other (_ : Dev) WEB.WLN_HI.WLN WEB.WLN_LO.WLN _ (by decide)).trans (Dev.rd_wr_same _ _ _)
  have hmode : noted.rd TRIG.CTL.MODE = d.rd TRIG.CTL.MODE :=
    ((Dev.rd_wr_other (_ : Dev) WEB.WLN_HI.WLN TRIG.CTL.MODE _ (by decide)).trans
      (Dev.rd_wr_other (_ : Dev) WEB.WLN_LO.WLN TRIG.CTL.MODE _ (by decide))).trans (hsnap.regs _ (by decide))
  have hcore : noted.gen.core = (d.gen.noted t).core := TrigGen.core_noted (by rw [← hsnap.gen]; rfl) t
  exact ⟨hafter.core.trans hcore, (hafter.regs _ (by decide)).trans hlo, (hafter.regs _ (by decide)).trans hmode⟩

/-- Issuing a line: it is the last one noted; WLN shows it, and nothing else of the generator's core changes. -/
theorem issueTrig_spec (d : Dev) (t : TrigRec) :
    (issueTrig d t).gen.core = (d.gen.noted t).core ∧ (issueTrig d t).rd WEB.WLN_LO.WLN = t.wln % 2 ^ 32 ∧
    (issueTrig d t).rd TRIG.CTL.MODE = d.rd TRIG.CTL.MODE := by
  have hswitch := issueSwitch_coreKept d t
  obtain ⟨hcore, hlo, hmode⟩ := issueBooks_spec (issueSwitch d t) t
  have hsend := (issueSend_kept (issueBooks (issueSwitch d t) t) t).coreKept
  have hafter : (issueBooks (issueSwitch d t) t).CoreKept (issueTrig d t) := by
    rw [issueTrig_eq]
    split
    · exact hsend
    · exact hsend.trans (slewTick_coreKept _ _)
  exact ⟨hafter.core.trans (hcore.trans (TrigGen.core_noted hswitch.core t)), (hafter.regs _ (by decide)).trans hlo,
    (hafter.regs _ (by decide)).trans (hmode.trans (hswitch.regs _ (by decide)))⟩

/-- From `d` to `e` the position and the channels stayed. -/
def Dev.PosKept (d e : Dev) : Prop := e.gen.pos = d.gen.pos ∧ e.enc = d.enc

theorem Dev.PosKept.trans {d e e' : Dev} (h : d.PosKept e) (h' : e.PosKept e') : d.PosKept e' := ⟨h'.1.trans h.1, h'.2.trans h.2⟩

theorem divergeCheck_pos (d : Dev) (own : Int) (p : Nat) : d.PosKept (divergeCheck d own p) := by
  unfold divergeCheck
  extract_lets
  split <;> exact ⟨rfl, rfl⟩

theorem issueCompare_pos (d : Dev) (t : TrigRec) : d.PosKept (issueCompare d t) := by
  unfold issueCompare
  extract_lets d1
  have h1 : d.PosKept d1 := by
    simp only [d1]
    split
    · exact divergeCheck_pos _ _ _
    · exact ⟨rfl, rfl⟩
  exact h1.trans ⟨rfl, rfl⟩

theorem issueMark_pos (d : Dev) (t : TrigRec) : d.PosKept (issueMark d t) := by
  have hfo : d.PosKept (issueMarkFo d t) := by
    unfold issueMarkFo
    split <;> exact ⟨rfl, rfl⟩
  unfold issueMark
  extract_lets d1
  split
  · exact hfo.trans ⟨rfl, rfl⟩
  · exact hfo

/-- The books of a line leave the position and the channels. -/
theorem issueBooks_pos (d : Dev) (t : TrigRec) : d.PosKept (issueBooks d t) := by
  have hsnap : d.TrigKept (snapTake d t.wln) := (Dev.TrigKept.refl d).snapTake _
  have hnote : d.PosKept (issueNote ((snapTake d t.wln).wr2 WEB.WLN_LO.WLN WEB.WLN_HI.WLN t.wln) t) :=
    Dev.PosKept.trans (e := snapTake d t.wln) ⟨congrArg TrigGen.pos hsnap.gen, hsnap.enc⟩ ⟨rfl, rfl⟩
  exact hnote.trans ((issueCompare_pos _ t).trans (issueMark_pos _ t))

/-- A line that brings no switch and no increment leaves the position. -/
theorem issueTrig_pos {d : Dev} {t : TrigRec} (h : t.skipped = true ∨ (d.gen.foSwitch = none ∧ ∀ n : Fin 4, d.enc[n].slew = none)) :
    (issueTrig d t).gen.pos = d.gen.pos := by
  have hswitch : issueSwitch d t = d := by
    unfold issueSwitch
    split
    · rfl
    · rw [(h.resolve_left ‹_›).1]
  obtain ⟨hpos, henc⟩ := issueBooks_pos d t
  have hsend := issueSend_kept (issueBooks d t) t
  rw [issueTrig_eq, hswitch]
  split
  · rw [hsend.gen, hpos]
  · have hnone : ∀ n : Fin 4, (issueSend (issueBooks d t) t).enc[n].slew = none := by
      rw [hsend.enc, henc]
      exact (h.resolve_left ‹_›).2
    rw [slewTick_of_none hnone, hsend.gen, hpos]

/-- The skipped lines that follow a held one are issued in their order: the last is the greatest WLN, and nothing else moves. -/
theorem foldl_issueTrig_skipped {ts : List TrigRec} (hts : ∀ t ∈ ts, t.skipped = true) (d : Dev) :
    (ts.foldl issueTrig d).gen.core = ({ d.gen with maxWln := ts.getLast?.elim d.gen.maxWln fun t => some t.wln }).core ∧
    (ts.foldl issueTrig d).rd TRIG.CTL.MODE = d.rd TRIG.CTL.MODE ∧ (ts.foldl issueTrig d).gen.pos = d.gen.pos := by
  induction ts generalizing d with
  | nil => exact ⟨rfl, rfl, rfl⟩
  | cons t ts ih =>
    have ht : t.skipped = true := hts t (by simp)
    obtain ⟨hcore, -, hmode⟩ := issueTrig_spec d t
    obtain ⟨icore, imode, ipos⟩ := ih (fun u hu => hts u (by simp [hu])) (issueTrig d t)
    refine ⟨?_, imode.trans hmode, ipos.trans (issueTrig_pos (.inl ht))⟩
    rw [List.foldl_cons, icore]
    simp only [TrigGen.core, TrigGen.noted, ht, if_true, Prod.mk.injEq] at hcore ⊢
    obtain ⟨⟨hw, hT, hm, hl⟩, hh, hs, hn, hhh⟩ := hcore
    refine ⟨⟨hw, hT, ?_, hl⟩, hh, hs, hn, hhh⟩
    rw [hm]
    cases ts with
    | nil => rfl
    | cons u us => simp [List.getLast?_eq_some_getLast]

/-! ## A trigger falls due -/

/-- The record of the trigger that falls due at an instant. -/
def dueRec (d : Dev) (time : Nat) : TrigRec :=
  ⟨d.gen.nextWln, d.gen.pos, time, lineEpoch d d.gen.nextWln, false, d.gen.diverged,
    d.rd WEB.EPOCH_STATUS.STATE == 4 || d.ep.doubt ||
      (d.rd WEB.EPOCH_STATUS.STATE == 2 && !d.isPuppeteer && decide (d.ep.target ≤ d.gen.nextWln))⟩

/-- One WLN is consumed. -/
def consumeWln (d : Dev) : Dev := { d with gen := { d.gen with nextWln := d.gen.nextWln + 1 } }

/-- While another trigger is held back the line is skipped and counted. -/
def skipDue (d : Dev) (time : Nat) : Dev :=
  let d1 := (consumeWln d).inc TRIG.SKIP_CNT.VAL
  { d1 with gen := { d1.gen with skipped := d1.gen.skipped ++ [{ dueRec d time with skipped := true }] } }

/-- Too soon after the last one the line is held back. -/
def holdDue (d : Dev) (time : Nat) : Dev :=
  let d1 := (consumeWln d).wr TRIG.STAT.OVERSPEED 1
  { d1 with gen := { d1.gen with held := some (dueRec d time) } }

theorem dueTrig_eq (d : Dev) (time : Nat) :
    dueTrig d time =
      if d.gen.held.isSome then slewTick (skipDue d time) d.gen.nextWln
      else if d.gen.last.elim false fun u => decide (time < u + 16 * d.rd TRIG.MIN_PERIOD.VAL) then holdDue d time
      else issueTrig (consumeWln d) (dueRec d time) := by
  unfold dueTrig
  extract_lets w inDoubt t _ e d1
  refine if_congr Iff.rfl ?_ (if_congr Iff.rfl ?_ ?_)
  · rfl
  · rfl
  · rfl

theorem dueTrig_skip {d : Dev} {h : TrigRec} (hh : d.gen.held = some h) (hsl : ∀ n : Fin 4, d.enc[n].slew = none) (time : Nat) :
    dueTrig d time = skipDue d time := by
  have henc : (skipDue d time).enc = d.enc := rfl
  have hnone : ∀ n : Fin 4, (skipDue d time).enc[n].slew = none := by
    rw [henc]
    exact hsl
  rw [dueTrig_eq, hh, Option.isSome_some, if_pos rfl, slewTick_of_none hnone]

theorem dueTrig_hold {d : Dev} {u time : Nat} (hh : d.gen.held = none) (hu : d.gen.last = some u)
    (ht : time < u + 16 * d.rd TRIG.MIN_PERIOD.VAL) : dueTrig d time = holdDue d time := by
  simp [dueTrig_eq, hh, hu, ht]

theorem dueTrig_issue {d : Dev} {time : Nat} (hh : d.gen.held = none)
    (ht : (d.gen.last.elim true fun u => decide (u + 16 * d.rd TRIG.MIN_PERIOD.VAL ≤ time)) = true) :
    dueTrig d time = issueTrig (consumeWln d) (dueRec d time) := by
  cases hl : d.gen.last with
  | none => simp [dueTrig_eq, hh, hl]
  | some u =>
    have hu : u + 16 * d.rd TRIG.MIN_PERIOD.VAL ≤ time := by simpa [hl] using ht
    simp [dueTrig_eq, hh, hl, Nat.not_lt.2 hu]

end Sys2Proof.Machine
end


section
/-! SUPPORT. Due triggers, the release of a held one, and LINE (R16, R18, R19, R21, R41, R51); the statement about them. -/

namespace Sys2Proof.Machine

/-! ## The position shown and the failover switch -/

/-- The fields by which `posShow` shows the position. -/
def posFields : List Fld := [WEB.POS_LO.POS, WEB.POS_HI.POS, TRIG.NEXT_FRAC.FRAC]

theorem posShow_keepsRegs (d : Dev) : d.KeepsRegs (posShow d) posFields := by
  have hregs : d.KeepsKeys ((d.wr2S WEB.POS_LO.POS WEB.POS_HI.POS (sar d.gen.pos 24)).wrS TRIG.NEXT_FRAC.FRAC d.gen.n)
      (· ∈ posFields.map Fld.key) :=
    ((Dev.KeepsKeys.refl d _).wr2S (by simp [posFields]) (by simp [posFields]) _).wrS (by simp [posFields]) _
  exact hregs.of_regs rfl

/-- Showing the position leaves every field of the channels. -/
theorem posShow_rd_enc (d : Dev) (n : Fin 4) {f : Fld} (hf : f ∈ ENC.fields1 n) : (posShow d).rd f = d.rd f := by
  have hall : ∀ n : Fin 4, ∀ f ∈ ENC.fields1 n, f.key ∉ posFields.map Fld.key := by decide +kernel
  exact posShow_keepsRegs d f (hall n f hf)

theorem foSwitchNow_rd (d : Dev) (cause : Nat) (loc : Bool) :
    (foSwitchNow d cause loc).rd (ENC.FO_STAT.ACTIVE (trigSrc d)) = 1 ∧
    (foSwitchNow d cause loc).rd (ENC.FO_STAT.CAUSE (trigSrc d)) = cause % 2 ^ (ENC.FO_STAT.CAUSE (trigSrc d)).width ∧
    (foSwitchNow d cause loc).rd (ENC.FO_STAT.LOCAL (trigSrc d)) = b2n loc := by
  unfold foSwitchNow
  extract_lets s b pos d1
  have hac : ∀ n : Fin 4, (ENC.FO_STAT.ACTIVE n).key ≠ (ENC.FO_STAT.CAUSE n).key := by decide
  have hal : ∀ n : Fin 4, (ENC.FO_STAT.ACTIVE n).key ≠ (ENC.FO_STAT.LOCAL n).key := by decide
  have hcl : ∀ n : Fin 4, (ENC.FO_STAT.CAUSE n).key ≠ (ENC.FO_STAT.LOCAL n).key := by decide
  refine ⟨?_, ?_, ?_⟩
  · rw [posShow_rd_enc _ s (by simp [s, ENC.fields1])]
    simp [d1, Dev.wrB, Dev.rd_wr_other _ _ _ _ (hac s), Dev.rd_wr_other _ _ _ _ (hal s), s,
      show (ENC.FO_STAT.ACTIVE (trigSrc d)).width = 1 from rfl]
  · rw [posShow_rd_enc _ s (by simp [s, ENC.fields1])]
    simp [d1, Dev.wrB, Dev.rd_wr_other _ _ _ _ (hcl s), s]
  · rw [posShow_rd_enc _ s (by simp [s, ENC.fields1])]
    cases loc <;> simp [d1, Dev.wrB, b2n, s, show (ENC.FO_STAT.LOCAL (trigSrc d)).width = 1 from rfl]

/-! ## Crossings -/

/-- A position that crosses no further multiple of PITCH, or a generator that is not in Encoder mode: H alone may follow. -/
theorem cross_quiet {d : Dev} (h : trigMode d ≠ 1 ∨ max d.gen.h d.gen.pos < d.gen.n) (time : Nat) :
    ∃ x, cross d time = posShow { d with gen := { d.gen with h := x } } := by
  unfold cross
  extract_lets fuel
  cases fuel with
  | zero => exact ⟨d.gen.h, rfl⟩
  | succ f =>
    refine ⟨max d.gen.h d.gen.pos, ?_⟩
    have hno : ¬ (trigMode d = 1 ∧ d.on TRIG.STAT.RUNNING = true ∧ d.gen.n ≤ max d.gen.h d.gen.pos ∧ epochDue d = false) := by
      rintro ⟨hmode, -, hn, -⟩
      exact h.elim (fun hm => hm hmode) fun hlt => absurd hn (Int.not_le.2 hlt)
    rw [crossLoop]
    exact congrArg posShow (if_neg hno)

/-! ## Free-run -/

/-- The device with T moved on by the Free-run period. -/
def freeRunNext (d : Dev) : Dev := { d with gen := { d.gen with t := d.gen.t + freePeriod d } }

theorem freeRunTrigger_due {d : Dev} (hm : trigMode d = 2) (hp : freePeriod d ≠ 0) (hr : d.on TRIG.STAT.RUNNING = true)
    (he : epochDue d = false) (ht : d.gen.t ≤ d.now) : freeRunTrigger d = dueTrig (freeRunNext d) d.gen.t :=
  if_pos ⟨hm, hp, hr, he, ht⟩

theorem freeRunTrigger_early {d : Dev} (ht : d.now < d.gen.t) : freeRunTrigger d = d :=
  if_neg fun h => absurd h.2.2.2.2 (Nat.not_le.2 ht)

/-! ## The release of a held trigger -/

/-- The held line and the skipped ones behind it, issued. -/
def issueHeld (d : Dev) (h : TrigRec) (time : Nat) : Dev :=
  d.gen.skipped.foldl issueTrig (issueTrig { d with gen := { d.gen with held := none, skipped := [] } } { h with time := time })

theorem holdbackRelease_due {d : Dev} {h : TrigRec} {u : Nat} (hh : d.gen.held = some h) (hu : d.gen.last = some u)
    (ht : u + 16 * d.rd TRIG.MIN_PERIOD.VAL ≤ d.now) :
    holdbackRelease d =
      let time := u + 16 * d.rd TRIG.MIN_PERIOD.VAL
      let d2 := issueHeld d h time
      if trigMode d2 = 1 then cross d2 time else d2 := by
  have htime : (d.gen.last.elim h.time fun u => u + 16 * d.rd TRIG.MIN_PERIOD.VAL) = u + 16 * d.rd TRIG.MIN_PERIOD.VAL := by
    rw [hu, Option.elim_some]
  unfold holdbackRelease
  rw [hh]
  simp -zeta only [htime]
  exact if_neg (Nat.not_lt.2 ht)

theorem issueHeld_spec {d : Dev} {h : TrigRec} (hs : h.skipped = false) (hsk : ∀ k ∈ d.gen.skipped, k.skipped = true) (time : Nat) :
    (issueHeld d h time).gen.core =
      ({ d.gen with held := none, skipped := [], maxWln := some (d.gen.skipped.getLast?.getD h).wln, last := some time }).core ∧
    (issueHeld d h time).rd TRIG.CTL.MODE = d.rd TRIG.CTL.MODE ∧
    ((d.gen.foSwitch = none ∧ ∀ n : Fin 4, d.enc[n].slew = none) → (issueHeld d h time).gen.pos = d.gen.pos) := by
  obtain ⟨fcore, fmode, fpos⟩ := foldl_issueTrig_skipped hsk
    (issueTrig { d with gen := { d.gen with held := none, skipped := [] } } { h with time := time })
  obtain ⟨icore, -, imode⟩ := issueTrig_spec { d with gen := { d.gen with held := none, skipped := [] } } { h with time := time }
  refine ⟨?_, fmode.trans imode, fun hq => fpos.trans (issueTrig_pos (.inr hq))⟩
  rw [issueHeld, fcore]
  simp only [TrigGen.core, TrigGen.noted, hs, Bool.false_eq_true, if_false, Prod.mk.injEq] at icore ⊢
  obtain ⟨⟨iw, iT, im, il⟩, ih, is, iN, iH⟩ := icore
  refine ⟨⟨iw, iT, ?_, il⟩, ih, is, iN, iH⟩
  rw [im]
  cases d.gen.skipped.getLast? <;> rfl

/-- The whole release: nothing is held any more, and no further multiple of PITCH is crossed under these hypotheses. -/
theorem holdbackRelease_core {d : Dev} {h : TrigRec} {u : Nat} (hh : d.gen.held = some h) (hu : d.gen.last = some u)
    (ht : u + 16 * d.rd TRIG.MIN_PERIOD.VAL ≤ d.now) (hs : h.skipped = false) (hsk : ∀ k ∈ d.gen.skipped, k.skipped = true)
    (hq : trigMode d ≠ 1 ∨ (d.gen.foSwitch = none ∧ (∀ n : Fin 4, d.enc[n].slew = none) ∧ max d.gen.h d.gen.pos < d.gen.n)) :
    (holdbackRelease d).gen.held = none ∧ (holdbackRelease d).gen.skipped = [] ∧ (holdbackRelease d).gen.nextWln = d.gen.nextWln ∧
    (holdbackRelease d).gen.maxWln = some (d.gen.skipped.getLast?.getD h).wln ∧
    (holdbackRelease d).gen.last = some (u + 16 * d.rd TRIG.MIN_PERIOD.VAL) := by
  rw [holdbackRelease_due hh hu ht]
  extract_lets time d2
  obtain ⟨hcore, hmode, hpos⟩ := issueHeld_spec hs hsk time
  have hm : trigMode d2 = trigMode d := by unfold trigMode; rw [show d2.rd TRIG.CTL.MODE = d.rd TRIG.CTL.MODE from hmode]
  simp only [TrigGen.core, Prod.mk.injEq] at hcore
  obtain ⟨⟨hw, -, hmax, hlast⟩, hheld, hskip, hn, hH⟩ := hcore
  have hquiet : trigMode d2 ≠ 1 ∨ max d2.gen.h d2.gen.pos < d2.gen.n := by
    rcases hq with hq | ⟨hfo, hsl, hlt⟩
    · exact .inl (hm ▸ hq)
    · refine .inr ?_
      rw [show d2.gen.h = d.gen.h from hH, show d2.gen.pos = d.gen.pos from hpos ⟨hfo, hsl⟩, show d2.gen.n = d.gen.n from hn]
      exact hlt
  split
  · obtain ⟨x, hx⟩ := cross_quiet hquiet time
    rw [hx]
    exact ⟨hheld, hskip, hw, hmax, hlast⟩
  · exact ⟨hheld, hskip, hw, hmax, hlast⟩

/-! ## LINE -/

/-- The stamp of a line whose trigger is still to come, kept for it. -/
def lineExpect (d : Dev) (w pos : Nat) : Dev :=
  { d with gen := { d.gen with expected := ((w, pos % 2 ^ 48) :: d.gen.expected).take 64 } }

/-- A correction taken over, PENDING from the line it begins with. -/
def lineCorr (d : Dev) (c : LineCorr) : Dev :=
  (d.wr (ENC.INDEX_STAT.PENDING c.ch) 1).updEnc c.ch fun q => { q with slew := some ⟨c.d, some c.first, max 1 c.s, 0, 0, 0⟩ }

theorem indexMissing_spec (d : Dev) (ch : Fin 4) :
    (indexMissing d ch).gen = d.gen ∧ (indexMissing d ch).enc[ch].slew = d.enc[ch].slew ∧
    d.KeepsRegs (indexMissing d ch) [ENC.INDEX_STAT.MISSING ch] := by
  unfold indexMissing
  extract_lets c per gone
  split
  · refine ⟨rfl, ?_, ((Dev.KeepsKeys.refl d _).wr (f := ENC.INDEX_STAT.MISSING ch) (by simp) 1).of_regs rfl⟩
    simp [Dev.updEnc]
  · exact ⟨rfl, rfl, Dev.KeepsKeys.refl _ _⟩

theorem line_puppeteer {d : Dev} (h : d.isPuppeteer = true) (w pos : Nat) (corr : Option LineCorr) (sw : Option (Nat × Nat)) :
    line w pos corr sw d = d := if_pos h

theorem line_compare {d : Dev} {t : TrigRec} {w : Nat} (h : d.isPuppeteer = false)
    (hf : d.gen.recent.find? (fun t => t.wln == w) = some t) (pos : Nat) : line w pos none none d = divergeCheck d t.pos pos := by
  simp only [line, h, Bool.false_eq_true, if_false, hf]

theorem line_early {d : Dev} {w : Nat} (h : d.isPuppeteer = false) (hf : d.gen.recent.find? (fun t => t.wln == w) = none)
    (hfo : d.gen.fo = none) (pos : Nat) (sw : Option (Nat × Nat))
    (hsw : (sw.elim true fun v => d.gen.maxWln.elim true fun m => decide (m < v.1)) = true) :
    line w pos none sw d = { d with gen := { d.gen with
      expected := ((w, pos % 2 ^ 48) :: d.gen.expected).take 64, foSwitch := sw.elim d.gen.foSwitch some } } := by
  cases sw with
  | none => simp only [line, h, Bool.false_eq_true, if_false, hf]; rfl
  | some v =>
    obtain ⟨v, cause⟩ := v
    have hno : (d.gen.maxWln.elim false fun m => decide (v ≤ m)) = false := by
      cases hm : d.gen.maxWln with
      | none => rfl
      | some m => simpa [hm] using hsw
    simp only [line, h, Bool.false_eq_true, if_false, hf, hfo, Option.isSome_none, hno]
    rfl

theorem line_switchNow {d : Dev} {w v m : Nat} (h : d.isPuppeteer = false) (hf : d.gen.recent.find? (fun t => t.wln == w) = none)
    (hfo : d.gen.fo = none) (hm : d.gen.maxWln = some m) (hv : v ≤ m) (pos cause : Nat) :
    line w pos none (some (v, cause)) d = cross (foSwitchNow (lineExpect d w pos) cause false) d.now := by
  have hno : ¬ (lineExpect d w pos).gen.fo.isSome = true := by simp [lineExpect, hfo]
  have hyes : ((lineExpect d w pos).gen.maxWln.elim false fun m => decide (v ≤ m)) = true := by simp [lineExpect, hm, hv]
  unfold line
  rw [if_neg (by simp [h]), hf]
  exact (if_neg hno).trans (if_pos hyes)

theorem line_corr {d : Dev} {w : Nat} {c : LineCorr} (h : d.isPuppeteer = false)
    (hf : d.gen.recent.find? (fun t => t.wln == w) = none) (hc : d.gen.nextWln ≤ c.first) (pos : Nat) :
    line w pos (some c) none d = cross (indexMissing (lineCorr (lineExpect d w pos) c) c.ch) d.now := by
  have hpast : (List.range ((lineCorr (lineExpect d w pos) c).gen.nextWln - c.first)) = [] := by
    rw [show (lineCorr (lineExpect d w pos) c).gen.nextWln = d.gen.nextWln from rfl, Nat.sub_eq_zero_of_le hc]
    rfl
  simp only [line, h, Bool.false_eq_true, if_false, hf]
  change cross ((((List.range ((lineCorr (lineExpect d w pos) c).gen.nextWln - c.first)).map (c.first + ·)).filter _).foldl _ _) _ = _
  rw [hpast]
  rfl

end Sys2Proof.Machine
end


section
namespace Sys2Proof.Machine

/-! ## The statement -/

theorem holdDue_regs (d : Dev) (time : Nat) :
    (holdDue d time).rd TRIG.STAT.OVERSPEED = 1 ∧ d.KeepsRegs (holdDue d time) [TRIG.STAT.OVERSPEED] := by
  refine ⟨?_, ((Dev.KeepsKeys.refl (consumeWln d) _).wr (f := TRIG.STAT.OVERSPEED) (by simp) 1).of_regs rfl⟩
  simp [holdDue, show TRIG.STAT.OVERSPEED.width = 1 from rfl]

theorem skipDue_regs (d : Dev) (time : Nat) :
    d.Counted (skipDue d time) TRIG.SKIP_CNT.VAL ∧ d.KeepsRegs (skipDue d time) [TRIG.SKIP_CNT.VAL] :=
  ⟨Dev.rd_inc_same (consumeWln d) TRIG.SKIP_CNT.VAL,
    ((Dev.KeepsKeys.refl (consumeWln d) _).inc (f := TRIG.SKIP_CNT.VAL) (by simp)).of_regs rfl⟩

/-- A free-run line that is neither too soon nor behind a held one is issued at T. -/
theorem freeRunTrigger_issues {d : Dev} (hm : trigMode d = 2) (hp : freePeriod d ≠ 0) (hr : d.on TRIG.STAT.RUNNING = true)
    (he : epochDue d = false) (ht : d.gen.t ≤ d.now) (hh : d.gen.held = none)
    (hl : (d.gen.last.elim true fun u => decide (u + 16 * d.rd TRIG.MIN_PERIOD.VAL ≤ d.gen.t)) = true) :
    (freeRunTrigger d).gen.maxWln = some d.gen.nextWln ∧ (freeRunTrigger d).gen.nextWln = d.gen.nextWln + 1 ∧
    (freeRunTrigger d).gen.last = some d.gen.t ∧ (freeRunTrigger d).gen.t = d.gen.t + freePeriod d ∧
    (freeRunTrigger d).rd WEB.WLN_LO.WLN = d.gen.nextWln % 2 ^ 32 := by
  rw [freeRunTrigger_due hm hp hr he ht, dueTrig_issue (d := freeRunNext d) hh hl]
  obtain ⟨hcore, hlo, -⟩ := issueTrig_spec (consumeWln (freeRunNext d)) (dueRec (freeRunNext d) d.gen.t)
  simp only [TrigGen.core, Prod.mk.injEq] at hcore
  obtain ⟨⟨hw, hT, hmax, hlast⟩, -⟩ := hcore
  exact ⟨hmax, hw, hlast, hT, hlo⟩

/-- R21's comparison: more than one count apart is shown. -/
theorem divergeCheck_far {d : Dev} {own : Int} {pos : Nat}
    (h : (encScale d (drivingCh d)).natAbs < (toSigned 48 (ofSigned 48 ((posStamp own : Int) - pos))).natAbs * 2 ^ 24) :
    (divergeCheck d own pos).rd TRIG.STAT.DIVERGE = 1 ∧ (divergeCheck d own pos).gen.diverged = true ∧
    d.KeepsRegs (divergeCheck d own pos) [TRIG.STAT.DIVERGE] := by
  rw [divergeCheck, if_pos h]
  refine ⟨?_, rfl, ((Dev.KeepsKeys.refl d _).wr (f := TRIG.STAT.DIVERGE) (by simp) 1).of_regs rfl⟩
  simp [show TRIG.STAT.DIVERGE.width = 1 from rfl]

/-- A switch whose line has been issued is made at once. -/
theorem line_switchNow_spec {d : Dev} {w v m : Nat} (h : d.isPuppeteer = false) (hmode : trigMode d ≠ 1)
    (hf : d.gen.recent.find? (fun t => t.wln == w) = none) (hfo : d.gen.fo = none) (hm : d.gen.maxWln = some m) (hv : v ≤ m)
    (pos cause : Nat) :
    (line w pos none (some (v, cause)) d).rd (ENC.FO_STAT.ACTIVE (trigSrc d)) = 1 ∧
    (line w pos none (some (v, cause)) d).rd (ENC.FO_STAT.CAUSE (trigSrc d)) = cause % 2 ^ (ENC.FO_STAT.CAUSE (trigSrc d)).width ∧
    (line w pos none (some (v, cause)) d).rd (ENC.FO_STAT.LOCAL (trigSrc d)) = 0 ∧
    (line w pos none (some (v, cause)) d).gen.fo = some (Fin.ofNat 4 (d.rd (ENC.FO_CFG.BACKUP (trigSrc d)))) ∧
    (line w pos none (some (v, cause)) d).gen.foSwitch = none ∧ (line w pos none (some (v, cause)) d).gen.maxWln = some m := by
  have hsw := foSwitchNow_coreKept (lineExpect d w pos) cause false
  have hquiet : trigMode (foSwitchNow (lineExpect d w pos) cause false) ≠ 1 := by
    unfold trigMode
    rw [hsw.regs TRIG.CTL.MODE (by decide)]
    exact hmode
  obtain ⟨hact, hcause, hloc⟩ := foSwitchNow_rd (lineExpect d w pos) cause false
  rw [line_switchNow h hf hfo hm hv]
  obtain ⟨x, hx⟩ := cross_quiet (.inl hquiet) d.now
  rw [hx]
  refine ⟨?_, ?_, ?_, rfl, rfl, hm⟩
  · rw [posShow_rd_enc _ (trigSrc d) (by simp [ENC.fields1])]
    exact hact
  · rw [posShow_rd_enc _ (trigSrc d) (by simp [ENC.fields1])]
    exact hcause
  · rw [posShow_rd_enc _ (trigSrc d) (by simp [ENC.fields1])]
    exact hloc

/-- A correction that begins with a line still to come waits for it. -/
theorem line_corr_spec {d : Dev} {w : Nat} {c : LineCorr} (h : d.isPuppeteer = false) (hmode : trigMode d ≠ 1)
    (hf : d.gen.recent.find? (fun t => t.wln == w) = none) (hc : d.gen.nextWln ≤ c.first) (pos : Nat) :
    (line w pos (some c) none d).rd (ENC.INDEX_STAT.PENDING c.ch) = 1 ∧
    (line w pos (some c) none d).enc[c.ch].slew = some ⟨c.d, some c.first, max 1 c.s, 0, 0, 0⟩ ∧
    (line w pos (some c) none d).gen.nextWln = d.gen.nextWln ∧ (line w pos (some c) none d).gen.pos = d.gen.pos ∧
    (line w pos (some c) none d).gen.expected = ((w, pos % 2 ^ 48) :: d.gen.expected).take 64 := by
  obtain ⟨hgen, hslew, hkeep⟩ := indexMissing_spec (lineCorr (lineExpect d w pos) c) c.ch
  have hkeys : ∀ n : Fin 4, (ENC.INDEX_STAT.PENDING n).key ≠ (ENC.INDEX_STAT.MISSING n).key := by decide
  have hmk : ∀ n : Fin 4, TRIG.CTL.MODE.key ≠ (ENC.INDEX_STAT.MISSING n).key ∧ TRIG.CTL.MODE.key ≠ (ENC.INDEX_STAT.PENDING n).key := by
    decide
  have hquiet : trigMode (indexMissing (lineCorr (lineExpect d w pos) c) c.ch) ≠ 1 := by
    unfold trigMode
    rw [hkeep TRIG.CTL.MODE (by simpa using (hmk c.ch).1),
      show (lineCorr (lineExpect d w pos) c).rd TRIG.CTL.MODE = d.rd TRIG.CTL.MODE from
        Dev.rd_wr_other (lineExpect d w pos) (ENC.INDEX_STAT.PENDING c.ch) _ 1 (hmk c.ch).2]
    exact hmode
  rw [line_corr h hf hc]
  obtain ⟨x, hx⟩ := cross_quiet (.inl hquiet) d.now
  rw [hx]
  refine ⟨?_, ?_, ?_, ?_, ?_⟩
  · rw [posShow_rd_enc _ c.ch (by simp [ENC.fields1])]
    exact (hkeep _ (by simpa using hkeys c.ch)).trans (Dev.rd_wr_same (lineExpect d w pos) (ENC.INDEX_STAT.PENDING c.ch) 1)
  · refine hslew.trans ?_
    simp [lineCorr, Dev.updEnc]
  · exact (congrArg TrigGen.nextWln hgen :)
  · exact (congrArg TrigGen.pos hgen :)
  · exact (congrArg TrigGen.expected hgen :)

/-- Settles O11: Free-run held, skipped and issued; the release of the held line; LINE against the own trigger. -/
theorem triggersAreIssuedHeldOrSkipped : Obligations.TriggersAreIssuedHeldOrSkipped := by
  refine ⟨fun s u hup hm hp hr he ht hh hu hlt => gives_of_onDev rfl hup ?_,
    fun s h hup hm hp hr he ht hh hsl => gives_of_onDev rfl hup ?_,
    fun s hup hm hp hr he ht hh hl => gives_of_onDev rfl hup (freeRunTrigger_issues hm hp hr he ht hh hl),
    fun s hup ht => gives_of_onDev rfl hup (freeRunTrigger_early ht),
    fun s hup hh => gives_of_onDev rfl hup ?_,
    fun s h u hup hh hu hlt => gives_of_onDev rfl hup ?_,
    fun s h u hup hh hu ht hs hsk hq => gives_of_onDev rfl hup (holdbackRelease_core hh hu ht hs hsk hq),
    fun s w pos t hup hnp hf hfar => gives_of_onDev (g := line w pos none none) rfl hup ?_,
    fun s w pos t hup hnp hf hnear => gives_of_onDev (g := line w pos none none) rfl hup ?_,
    fun s w pos sw hup hnp hf hfo hsw => gives_of_onDev (g := line w pos none sw) rfl hup (line_early hnp hf hfo pos sw hsw),
    fun s w pos v cause m hup hnp hmode hf hfo hm hv => gives_of_onDev (g := line w pos none (some (v, cause))) rfl hup
      (line_switchNow_spec hnp hmode hf hfo hm hv pos cause),
    fun s w pos c hup hnp hmode hf hc => gives_of_onDev (g := line w pos (some c) none) rfl hup (line_corr_spec hnp hmode hf hc pos),
    fun s w pos corr sw hup hnp => gives_of_onDev (g := line w pos corr sw) rfl hup (line_puppeteer hnp w pos corr sw)⟩
  · rw [freeRunTrigger_due hm hp hr he ht, dueTrig_hold (d := freeRunNext s.dev) hh hu hlt]
    obtain ⟨hover, hkeep⟩ := holdDue_regs (freeRunNext s.dev) s.dev.gen.t
    exact ⟨hover, hkeep, rfl, rfl, rfl, rfl⟩
  · rw [freeRunTrigger_due hm hp hr he ht, dueTrig_skip (d := freeRunNext s.dev) hh hsl]
    obtain ⟨hcnt, hkeep⟩ := skipDue_regs (freeRunNext s.dev) s.dev.gen.t
    exact ⟨hcnt, hkeep, rfl, rfl, hh, by simp [skipDue, dueRec, consumeWln, freeRunNext]⟩
  · rw [holdbackRelease, hh]
  · have hlt' : s.dev.now < s.dev.gen.last.elim h.time fun u => u + 16 * s.dev.rd TRIG.MIN_PERIOD.VAL := by rw [hu]; exact hlt
    rw [holdbackRelease, hh]
    exact if_pos hlt'
  · rw [line_compare hnp hf]
    exact divergeCheck_far hfar
  · rw [line_compare hnp hf, divergeCheck, if_neg (Nat.not_lt.2 hnear)]

end Sys2Proof.Machine
end

section
/-! SUPPORT. Interrupts (R438, R439): an event sets its bit, a clear clears the bits of its mask, and nothing but IRQ_RAW and ERR_CNT of
the page changes. -/

namespace Sys2Proof.Machine

/-! ## Bits -/

theorem bitOf_eq_testBit (v k : Nat) : bitOf v k = v.testBit k := by
  rw [bitOf, Nat.testBit_eq_decide_div_mod_eq, ← Bool.beq_eq_decide_eq]

theorem bitOf_mod_two_pow {v n b : Nat} (h : b < n) : bitOf (v % 2 ^ n) b = bitOf v b := by
  simp [bitOf_eq_testBit, h]

theorem testBit_add_two_pow {v k : Nat} (h : v.testBit k = false) (b : Nat) :
    (v + 2 ^ k).testBit b = (decide (b = k) || v.testBit b) := by
  induction k generalizing v b with
  | zero =>
    have h0 : v % 2 = 0 := by simpa using h
    cases b with
    | zero => simp [Nat.add_mod, h0]
    | succ b =>
      have hdiv : (v + 1) / 2 = v / 2 := by omega
      simp [Nat.testBit_succ, hdiv]
  | succ k ih =>
    have hmod : (v + 2 ^ (k + 1)) % 2 = v % 2 := by omega
    have hdiv : (v + 2 ^ (k + 1)) / 2 = v / 2 + 2 ^ k := by omega
    cases b with
    | zero => simp [hmod]
    | succ b => simp [Nat.testBit_succ, hdiv, ih (v := v / 2) (by simpa [Nat.testBit_succ] using h)]

theorem bitOf_setBit (v k b : Nat) : bitOf (setBit v k) b = (decide (b = k) || bitOf v b) := by
  unfold setBit
  split
  · by_cases hb : b = k <;> simp_all
  · simp_all [bitOf_eq_testBit, testBit_add_two_pow]

/-- A value less the bits of a mask: what writing 1 to clear leaves. -/
theorem bitOf_sub_land (v m b : Nat) : bitOf (v - Nat.land v m) b = (bitOf v b && !bitOf m b) := by
  change bitOf (v - (v &&& m)) b = _
  simp only [bitOf_eq_testBit]
  induction b generalizing v m with
  | zero =>
    have hle : v &&& m ≤ v := Nat.and_le_left
    have hbit := Nat.and_mod_two_eq_one (a := v) (b := m)
    have hodd : (v - (v &&& m)) % 2 = 1 ↔ v % 2 = 1 ∧ ¬ m % 2 = 1 := by
      generalize v &&& m = x at *
      omega
    simp only [Nat.testBit_zero, hodd, Bool.decide_and, decide_not]
  | succ b ih =>
    have hle : v &&& m ≤ v := Nat.and_le_left
    have hbit := Nat.and_mod_two_eq_one (a := v) (b := m)
    have hdiv := Nat.and_div_two (a := v) (b := m)
    have hhalf : (v - (v &&& m)) / 2 = v / 2 - (v / 2 &&& m / 2) := by
      rw [← hdiv]
      clear hdiv
      generalize v &&& m = x at *
      omega
    simp only [Nat.testBit_succ, hhalf, ih]

/-! ## Changes of registers alone -/

/-- From `d` to `e` only registers changed, and of them only such whose keys lie in `S`: `Dev.OnlyRegs` is of this form. -/
def Dev.OnlyKeys (d e : Dev) (S : Nat → Prop) : Prop := e = { d with regs := e.regs } ∧ d.KeepsKeys e S

theorem Dev.onlyRegs_iff {d e : Dev} {fs : List Fld} : d.OnlyRegs e fs ↔ d.OnlyKeys e (· ∈ fs.map Fld.key) := Iff.rfl

namespace Dev.OnlyKeys
variable {d e : Dev} {S : Nat → Prop}

theorem refl (d : Dev) (S : Nat → Prop) : d.OnlyKeys d S := ⟨rfl, .refl _ _⟩

theorem trans {e' : Dev} (h : d.OnlyKeys e S) (h' : e.OnlyKeys e' S) : d.OnlyKeys e' S := by
  obtain ⟨he, hk⟩ := h
  obtain ⟨he', hk'⟩ := h'
  exact ⟨by rw [he', he], hk.trans hk'⟩

theorem wr (h : d.OnlyKeys e S) {f : Fld} (hS : S f.key) (v : Nat) : d.OnlyKeys (e.wr f v) S :=
  h.trans ⟨rfl, (KeepsKeys.refl e S).wr hS v⟩

theorem inc (h : d.OnlyKeys e S) {f : Fld} (hS : S f.key) : d.OnlyKeys (e.inc f) S := h.wr hS _

theorem irq (h : d.OnlyKeys e S) {p : Nat} (h1 : S (Com.IRQ_RAW p).key) (h2 : S (Com.ERR_CNT p).key) (b : Nat) :
    d.OnlyKeys (e.irq p b) S := by
  refine h.trans ⟨?_, (KeepsKeys.refl e S).irq h1 h2 b⟩
  unfold Dev.irq
  split
  · split <;> rfl
  · rfl

theorem irqIf (h : d.OnlyKeys e S) {p : Nat} (h1 : S (Com.IRQ_RAW p).key) (h2 : S (Com.ERR_CNT p).key) (c : Bool) (b : Nat) :
    d.OnlyKeys (e.irqIf c p b) S := by
  unfold Dev.irqIf
  split
  · exact h.irq h1 h2 b
  · exact h

theorem foldl {α : Type} {g : Dev → α → Dev} (hg : ∀ (e : Dev) (a : α), e.OnlyKeys (g e a) S) (l : List α) (h : d.OnlyKeys e S) :
    d.OnlyKeys (l.foldl g e) S := by
  induction l generalizing e with
  | nil => exact h
  | cons a l ih => exact ih (h.trans (hg e a))

end Dev.OnlyKeys

/-! ## Events -/

theorem Com.IRQ_RAW_key_ne_ERR_CNT (p : Nat) : (Com.IRQ_RAW p).key ≠ (Com.ERR_CNT p).key := by
  simp only [Fld.key, Com.IRQ_RAW, Com.ERR_CNT, fld]
  omega

theorem Dev.rd_irq_raw (d : Dev) (p b : Nat) :
    (d.irq p b).rd (Com.IRQ_RAW p) = setBit (d.rd (Com.IRQ_RAW p)) b % 2 ^ 8 := by
  have hne := Com.IRQ_RAW_key_ne_ERR_CNT p
  unfold Dev.irq
  split
  · split
    · rw [Dev.inc, Dev.rd_addCnt_other _ _ _ _ hne, Dev.rd_wr_same]; rfl
    · exact Dev.rd_wr_same _ _ _
  · exact Dev.rd_wr_same _ _ _

/-- After event `b` its bit of IRQ_RAW is set, and every other as before. -/
theorem Dev.bitOf_irq (d : Dev) (p b : Nat) {c : Nat} (hc : c < 8) :
    bitOf ((d.irq p b).rd (Com.IRQ_RAW p)) c = (decide (c = b) || bitOf (d.rd (Com.IRQ_RAW p)) c) := by
  rw [Dev.rd_irq_raw, bitOf_mod_two_pow hc, bitOf_setBit]

theorem Dev.bitOf_irqIf (d : Dev) (a : Bool) (p b : Nat) {c : Nat} (hc : c < 8) :
    bitOf ((d.irqIf a p b).rd (Com.IRQ_RAW p)) c = ((decide (c = b) && a) || bitOf (d.rd (Com.IRQ_RAW p)) c) := by
  cases a with
  | false => simp [Dev.irqIf]
  | true => simp [Dev.irqIf, Dev.bitOf_irq _ _ _ hc]

/-- Events that fall together: each sets its bit. -/
theorem bitOf_foldl_irqIf (again : Nat) (p : Nat) {c : Nat} (hc : c < 8) (l : List Nat) (d : Dev) :
    bitOf ((l.foldl (fun d b => d.irqIf (bitOf again b) p b) d).rd (Com.IRQ_RAW p)) c =
      ((decide (c ∈ l) && bitOf again c) || bitOf (d.rd (Com.IRQ_RAW p)) c) := by
  induction l generalizing d with
  | nil => simp
  | cons b l ih =>
    rw [List.foldl_cons, ih, Dev.bitOf_irqIf _ _ _ _ hc]
    by_cases hb : c = b
    · subst hb
      cases bitOf again c <;> simp
    · simp [hb]

/-- A written word clears the bits that it has set. -/
theorem Dev.bitOf_clear (d : Dev) (p m : Nat) {c : Nat} (hc : c < 8) :
    bitOf ((d.wr (Com.IRQ_RAW p) (d.rd (Com.IRQ_RAW p) - Nat.land (d.rd (Com.IRQ_RAW p)) m)).rd (Com.IRQ_RAW p)) c =
      (bitOf (d.rd (Com.IRQ_RAW p)) c && !bitOf m c) := by
  rw [Dev.rd_wr_same, show (Com.IRQ_RAW p).width = 8 from rfl, bitOf_mod_two_pow hc, bitOf_sub_land]

theorem unmapped_spec (d : Dev) :
    (unmapped d).rd SYS.STATUS.UNMAPPED = 1 ∧ bitOf ((unmapped d).rd (Com.IRQ_RAW Page.SYS)) SYS.irq.UNMAPPED = true ∧
    d.OnlyRegs (unmapped d) [SYS.STATUS.UNMAPPED, Com.IRQ_RAW Page.SYS, Com.ERR_CNT Page.SYS] := by
  refine ⟨?_, ?_, ?_⟩
  · rw [unmapped, Dev.rd_irq_other _ _ _ _ (by decide) (by decide), Dev.rd_wr_same]
    rfl
  · rw [unmapped, Dev.bitOf_irq _ _ _ (by decide)]
    rfl
  · exact ((Dev.OnlyKeys.refl d _).wr (f := SYS.STATUS.UNMAPPED) (by simp) 1).irq (by simp) (by simp) _

theorem wrDrop_spec (d : Dev) :
    (wrDrop d).rd MGMT.STATUS.WR_DROP = 1 ∧ d.Counted (wrDrop d) MGMT.WR_DROP_CNT.CNT ∧
    d.OnlyRegs (wrDrop d) [MGMT.STATUS.WR_DROP, MGMT.WR_DROP_CNT.CNT, Com.IRQ_RAW Page.MGMT, Com.ERR_CNT Page.MGMT] := by
  refine ⟨?_, ?_, ?_⟩
  · rw [wrDrop, Dev.rd_irq_other _ _ _ _ (by decide) (by decide), Dev.inc, Dev.rd_addCnt_other _ _ _ _ (by decide), Dev.rd_wr_same]
    rfl
  · rw [Dev.Counted, wrDrop, Dev.rd_irq_other _ _ _ _ (by decide) (by decide), Dev.rd_inc_same,
      Dev.rd_wr_other _ _ _ _ (by decide)]
  · exact (((Dev.OnlyKeys.refl d _).wr (f := MGMT.STATUS.WR_DROP) (by simp) 1).inc (f := MGMT.WR_DROP_CNT.CNT) (by simp)).irq
      (by simp) (by simp) _

/-- IRQ_CLEAR of an existing page. -/
theorem irqClear_spec (d : Dev) {page : Nat} (mask again : BitVec 8) (hp : pageExists page = true) :
    (∀ b < 8, bitOf ((irqClear page mask.toNat again.toNat d).rd (Com.IRQ_RAW page)) b =
      (again.getLsbD b || (bitOf (d.rd (Com.IRQ_RAW page)) b && !mask.getLsbD b))) ∧
    d.OnlyRegs (irqClear page mask.toNat again.toNat d) [Com.IRQ_RAW page, Com.ERR_CNT page] := by
  have heq : irqClear page mask.toNat again.toNat d = (List.range 8).foldl (fun d b => d.irqIf (bitOf again.toNat b) page b)
      (d.wr (Com.IRQ_RAW page) (d.rd (Com.IRQ_RAW page) - Nat.land (d.rd (Com.IRQ_RAW page)) mask.toNat)) := by
    simp [irqClear, hp]
  rw [heq]
  refine ⟨fun b hb => ?_, ?_⟩
  · rw [bitOf_foldl_irqIf _ _ hb, Dev.bitOf_clear _ _ _ hb, bitOf_eq_testBit again.toNat, bitOf_eq_testBit mask.toNat]
    simp [hb, BitVec.getLsbD]
  · exact ((Dev.OnlyKeys.refl d _).wr (by simp) _).foldl
      (fun e b => (Dev.OnlyKeys.refl e _).irqIf (by simp) (by simp) _ b) _

theorem irqClear_unmapped (d : Dev) {page : Nat} (mask again : Nat) (hp : pageExists page = false) :
    irqClear page mask again d = unmapped d := by
  simp [irqClear, hp]

theorem errClr_spec (d : Dev) {page : Nat} (hp : pageExists page = true) :
    (errClr page d).rd (Com.ERR_CNT page) = 0 ∧ d.OnlyRegs (errClr page d) [Com.ERR_CNT page] := by
  rw [errClr, if_pos hp]
  exact ⟨by simp, (Dev.OnlyKeys.refl d _).wr (by simp) 0⟩

end Sys2Proof.Machine
end

section
/-! SUPPORT. A requester's read and write of one word of a register page (R29, R436, R440): which word takes which way. -/

namespace Sys2Proof.Machine

/-! ## The half that waits, and the words -/

theorem flushHalf_none {who : Requester} {x : Dev × Memory} (h : ∀ q ∈ x.1.integ.half, q.1 ≠ who) : flushHalf who x = x := by
  have hnone : x.1.integ.half.find? (fun q => q.1 == who) = none := List.find?_eq_none.2 fun q hq => by simpa using h q hq
  simp only [flushHalf, hnone]

theorem wordRead_page {who : Requester} {a : Nat} {x : Dev × Memory} (ha : a < 0x01000000) (h : ∀ q ∈ x.1.integ.half, q.1 ≠ who) :
    (wordRead who a x).2 = ((pageRead who a x.1).2, x.2) := by
  rw [wordRead, flushHalf_none h, if_pos ha]

theorem regWrite_page {who : Requester} {addr v : Nat} {x : Dev × Memory} (ha : addr / 4 * 4 < 0x01000000)
    (h : ∀ q ∈ x.1.integ.half, q.1 ≠ who) :
    regWrite who addr v x = pageWrite' (addr / 4 * 4) v (wordActions (addr / 4 * 4) v) x := by
  rw [regWrite, flushHalf_none h, if_pos ha]

/-! ## Reads -/

theorem pageRead_unmapped (who : Requester) {a : Nat} (d : Dev) (h : pageExists (a / 4096) = false) : (pageRead who a d).2 = unmapped d := by
  simp [pageRead, h]

/-- No word behind whose read VALID of a latch clears. -/
theorem foldl_latchValid {a : Nat} (h : ∀ c < 4, a ≠ (ENC.L_SPEED.VAL c).addr) (d : Dev) :
    (List.range 4).foldl (fun (d : Dev) n => if a = (ENC.L_SPEED.VAL n).addr then d.wr (ENC.LATCH_STAT.VALID n) 0 else d) d = d := by
  simp [List.range_succ, h 0 (by omega), h 1 (by omega), h 2 (by omega), h 3 (by omega)]

/-- A read that is neither of a latch nor of the error log does to the device what its locks do. -/
theorem pageRead_locks (who : Requester) {a : Nat} {d : Dev} (hp : pageExists (a / 4096) = true) (hh : pageHeld d (a / 4096) = false)
    (hl : ∀ c < 4, a ≠ (ENC.L_SPEED.VAL c).addr) (hlog : ∀ e : Dev, logWord e a = none) :
    (pageRead who a d).2 = (lockRead who regWord a d).2 := by
  simp [pageRead, hp, hh, foldl_latchValid hl, hlog]

/-- Which words show the error log does not depend on what it holds. -/
theorem logWord_none {a : Nat} {d : Dev} (h : logWord d a = none) (e : Dev) : logWord e a = none := by
  have hno : ¬ (a / 4096 = Page.MEM ∧ 0x800 ≤ a % 4096) := fun hc => by simp [logWord, hc] at h
  simp [logWord, hno]

theorem lockRead_free {who : Requester} {live : Dev → Nat → Nat} {a : Nat} {d : Dev} (hg : lockGroup a = [])
    (hl : ∀ l ∈ d.locks, l.who ≠ who) : (lockRead who live a d).2 = d := by
  have hnone : d.locks.find? (fun l => l.who == who && l.addr == a) = none := List.find?_eq_none.2 fun l h => by simp [hl l h]
  simp [lockRead, hnone, hg]

/-- The locks that a read of a locking word leaves: those of its group in place of its own older ones. -/
def locksAfter (who : Requester) (live : Dev → Nat → Nat) (a : Nat) (d : Dev) : List Lock :=
  ((lockGroup a).map fun b => ⟨who, a, b, live d b, d.now⟩) ++ d.locks.filter fun q => !(q.who == who && q.locker == a)

theorem lockRead_sets {who : Requester} {live : Dev → Nat → Nat} {a : Nat} {d : Dev} (hg : lockGroup a ≠ [])
    (hl : ∀ l ∈ d.locks, ¬ (l.who = who ∧ l.addr = a)) :
    (lockRead who live a d).2 = { d with locks := locksAfter who live a d } := by
  have hnone : d.locks.find? (fun l => l.who == who && l.addr == a) = none := List.find?_eq_none.2 fun l h => by simpa using hl l h
  simp [lockRead, hnone, hg, locksAfter]

theorem mem_locksAfter {who : Requester} {live : Dev → Nat → Nat} {a : Nat} {d : Dev} {l : Lock} :
    l ∈ locksAfter who live a d ↔
      (∃ b ∈ lockGroup a, l = ⟨who, a, b, live d b, d.now⟩) ∨ (l ∈ d.locks ∧ ¬ (l.who = who ∧ l.locker = a)) := by
  simp only [locksAfter, List.mem_append, List.mem_map, List.mem_filter, Bool.not_eq_true', Bool.and_eq_false_iff, beq_eq_false_iff_ne,
    not_and_or, eq_comm (a := l)]

theorem mem_lockExpiry {who : Requester} {locker : Nat} {d : Dev} {l : Lock} :
    l ∈ (lockExpiry who locker d).locks ↔ l ∈ d.locks ∧ ¬ (l.who = who ∧ l.locker = locker ∧ l.since + oneMs ≤ d.now) := by
  simp only [lockExpiry, List.mem_filter, Bool.not_eq_true', Bool.and_eq_false_iff, beq_eq_false_iff_ne, decide_eq_false_iff_not,
    not_and_or, or_assoc]

/-! ## Writes -/

theorem pageWrite_unmapped {a : Nat} (v : Nat) (act : Dev × Memory → Dev × Memory) (x : Dev × Memory)
    (h : pageExists (a / 4096) = false) : pageWrite' a v act x = (unmapped x.1, x.2) := by
  simp [pageWrite', h]

theorem pageWrite_held {a : Nat} (v : Nat) (act : Dev × Memory → Dev × Memory) {x : Dev × Memory}
    (hp : pageExists (a / 4096) = true) (hh : pageHeld x.1 (a / 4096) = true) : pageWrite' a v act x = (wrDrop x.1, x.2) := by
  simp [pageWrite', hp, hh]

/-- A word without an action and whose fields have no effect of their own: its plain fields are written. -/
theorem pageWrite_plain {a v : Nat} {act : Dev × Memory → Dev × Memory} {x : Dev × Memory}
    (hp : pageExists (a / 4096) = true) (hh : pageHeld x.1 (a / 4096) = false) (hs : sharedB a = false) (ht : deadTxEq a = false)
    (he : wordEffect a v x.1 (plainWrite (effectFields a) a v x.1, x.2) = (plainWrite (effectFields a) a v x.1, x.2))
    (hact : ∀ y, act y = y) : pageWrite' a v act x = (plainWrite (effectFields a) a v x.1, x.2) := by
  simp [pageWrite', hp, hh, fieldsWrite, hs, ht, he, hact]

/-- The actions of the page a word stands in. -/
def ownActions (a v : Nat) : List Action :=
  match pageKind (a / 4096) with
  | some k => pageActions k.type (a / 4096 - k.first) v
  | none => []

theorem foldl_actions_none {a v : Nat} {l : List Action} (h : ∀ q ∈ l, q.1.addr ≠ a) (x : Dev × Memory) :
    l.foldl (fun x (q : Action) => if q.1.addr = a ∧ q.1.of v ≠ 0 then q.2 x else x) x = x := by
  induction l with
  | nil => rfl
  | cons q l ih =>
    rw [List.foldl_cons, if_neg fun hc => h q (by simp) hc.1]
    exact ih fun r hr => h r (by simp [hr])

/-- A word that holds no W1S field does nothing but take its plain fields. -/
theorem wordActions_none {a : Nat} (v : Nat) (h8 : a % 4096 ≠ 8) (h1c : a % 4096 ≠ 0x1C) (h : ∀ q ∈ ownActions a v, q.1.addr ≠ a)
    (x : Dev × Memory) : wordActions a v x = x := by
  refine foldl_actions_none (l := _ :: _ :: ownActions a v) (fun q hq => ?_) x
  rcases List.mem_cons.1 hq with rfl | hq
  · simp only [fld]; omega
  · rcases List.mem_cons.1 hq with rfl | hq
    · simp only [fld]; omega
    · exact h q hq

end Sys2Proof.Machine
end

section
/-! SUPPORT. Three kinds of register word written (R22, R438): a plain one, IRQ_RAW of a page, and a staged one of a converter's entry. -/

namespace Sys2Proof.Machine

/-! ## IRQ_RAW -/

theorem mem_pageList {p : Nat} (h : pageExists p = true) : p ∈ pageList := by
  obtain ⟨k, hk⟩ := Option.isSome_iff_exists.1 h
  have hr := List.find?_some hk
  simp only [decide_eq_true_eq] at hr
  refine List.mem_flatMap.2 ⟨k, List.mem_of_find?_eq_some hk, List.mem_map.2 ⟨p - k.first, ?_, ?_⟩⟩
  · exact List.mem_range.2 (by omega)
  · omega

theorem wordFields_irqRaw {p : Nat} (h : pageExists p = true) : wordFields (Com.IRQ_RAW p).addr = [Com.IRQ_RAW p] := by
  have hall : ∀ p ∈ pageList, wordFields (Com.IRQ_RAW p).addr = [Com.IRQ_RAW p] := by decide +kernel
  exact hall p (mem_pageList h)

/-- The actions stand in the words of the page's own table, above the common ones. -/
theorem pageActions_offset (type n v : Nat) : ∀ q ∈ pageActions type n v, 0x40 ≤ q.1.addr % 4096 := by
  unfold pageActions
  extract_lets p h
  split
  case h_1 => split <;> simp [RST.CTL.INSP, RST.CTL.SYS, fld]
  all_goals simp [AGE.CTL.PLAN_NOW, NVS.CTL.STORE, NVS.CTL.SCAN_NOW, PROF.CTL.LOAD, PROF.FL_CTL.PROG,
    PROF.FL_CTL.ERASE, PROF.FL_CTL.READ, MGMT.MST_CTL.GO, MEM.CTL.DEGRADE, MEM.CTL.RECOVER, FAB.CLEAR.FREE_MIN,
    WEB.TB_CTL.STEP, WEB.EPOCH_CTL.CANCEL, WEB.EPOCH_CTL.ARM, WEB.SNAP_CTL.REQ, WEB.SNAP_CTL.NEXT, WEB.SNAP_CTL.RELEASE,
    ENC.LATCH_CTL.SW, PORT.LINK_CFG.RETRAIN, PORT.CR_CTL.GO, PIPE.CLEAR.IL_WAIT_MAX, PIPE.CLEAR.MR_RES_MAX, STAT.SET_REQ.GO,
    THERM.CTL.RESTART, THERM.CTL.SH_NOW, THERM.CTL.CLR_DYN, THERM.TBL_CTL.VERIFY0, THERM.TBL_CTL.VERIFY1, STITCH.CAL_CTL.GO,
    SEG.CTL.RESTART, SEG.CLEAR.FREE_MIN, TAG.CLEAR.HQ_MAX, TAG.CLEAR.LAT_MAX, HSG.FAULT.CLR, HSG.CLEAR.WAIT_MAX,
    VALVE.FAULT.CLR, VALVE.CMD.RUN, VALVE.CMD.STOP, ZCTL.JOB_CTL.ABORT, Z.CTL.CLR_FAULT, TWIN.CTL.SWITCH, TWIN.CTL.TAKE,
    TWIN.CTL.RESYNC, PADC.INJ_CTL.GO, PADC.CAL_CTL.GO, PADC.CAL_CTL.ABORT, fld]
  omega

theorem ownActions_irqRaw {p : Nat} (v : Nat) : ∀ q ∈ ownActions (Com.IRQ_RAW p).addr v, q.1.addr ≠ (Com.IRQ_RAW p).addr := by
  intro q hq heq
  have hoff : 0x40 ≤ q.1.addr % 4096 := by
    unfold ownActions at hq
    split at hq
    · exact pageActions_offset _ _ _ q hq
    · cases hq
  rw [heq] at hoff
  simp only [Com.IRQ_RAW, fld] at hoff
  omega

theorem hostWrite_irqRaw {p : Nat} {old d : Dev} (hr : d.rd HOST.PTP_CFG.ROLE = old.rd HOST.PTP_CFG.ROLE)
    (hd : d.rd HOST.PTP_CFG.DOMAIN = old.rd HOST.PTP_CFG.DOMAIN) : hostWrite (Com.IRQ_RAW p).addr old d = d := by
  have h1 : ¬ ((Com.IRQ_RAW p).addr = HOST.IP_HA.IP.addr ∨ (Com.IRQ_RAW p).addr = HOST.IP_HB.IP.addr ∨
      (Com.IRQ_RAW p).addr = HOST.UDP.THP_PORT.addr) := by
    simp only [Com.IRQ_RAW, HOST.IP_HA.IP, HOST.IP_HB.IP, HOST.UDP.THP_PORT, fld]; omega
  have h2 : ¬ (Com.IRQ_RAW p).addr = HOST.CTL.HA_EN.addr := by
    simp only [Com.IRQ_RAW, HOST.CTL.HA_EN, fld]; omega
  rw [hostWrite, if_neg h1, if_neg h2, if_neg]
  simp [hr, hd]

/-- The words whose write has an effect of its own stand above the common ones; ZCTL forms its shown fields anew at every write. -/
theorem wordEffect_irqRaw {p : Nat} (v : Nat) (he : pageExists p = true) (hp : p ≠ Page.ZCTL) {old d : Dev} (m : Memory)
    (hr : d.rd HOST.PTP_CFG.ROLE = old.rd HOST.PTP_CFG.ROLE) (hd : d.rd HOST.PTP_CFG.DOMAIN = old.rd HOST.PTP_CFG.DOMAIN) :
    wordEffect (Com.IRQ_RAW p).addr v old (d, m) = (d, m) := by
  have hoff : (Com.IRQ_RAW p).addr % 4096 = 16 := by simp only [Com.IRQ_RAW, fld]; omega
  have hpage : (Com.IRQ_RAW p).addr / 4096 = p := by simp only [Com.IRQ_RAW, fld]; omega
  have hne : ∀ f : Fld, f.addr % 4096 ≠ 16 → (Com.IRQ_RAW p).addr ≠ f.addr := fun f hf h => hf (h ▸ hoff)
  have hz : (pageKind p).elim 0 PageKind.type = 0x50 → p = Page.ZCTL := by
    have hall : ∀ p ∈ pageList, (pageKind p).elim 0 PageKind.type = 0x50 → p = Page.ZCTL := by decide +kernel
    exact hall p (mem_pageList he)
  have hunit : (List.range 4).find? (fun k => (Com.IRQ_RAW p).addr == (unitFld k).addr) = none :=
    List.find?_eq_none.2 fun k hk => by
      have hall : ∀ k ∈ List.range 4, (unitFld k).addr % 4096 ≠ 16 := by decide
      simpa using hne _ (hall k hk)
  have hctle (n : Nat) : (List.range 4).find? (fun k => (Com.IRQ_RAW p).addr == (LANE.RX_EQ.CTLE n k).addr) = none :=
    List.find?_eq_none.2 fun k hk => by
      have hk' : k < 4 := List.mem_range.1 hk
      have := hne (LANE.RX_EQ.CTLE n k) (by simp only [LANE.RX_EQ.CTLE, fld]; omega)
      simpa using this
  rw [wordEffect]
  dsimp -zeta only
  extract_lets n
  rw [hpage]
  split
  · exact if_neg (hne PWR.CTL.LP (by decide))
  · rw [hunit]
  · exact if_neg (hne WEB.TB_RATE.RATE (by decide))
  · exact if_neg (hne (ENC.FO_CFG.EN _) (by simp only [ENC.FO_CFG.EN, fld]; omega))
  · exact if_neg (hne (PORT.LINK_CFG.EN _) (by simp only [PORT.LINK_CFG.EN, fld]; omega))
  · rw [if_neg (hne (LANE.TX_EQ.POST _ _) (by simp only [LANE.TX_EQ.POST, fld]; omega)), hctle]
  · exact if_neg (hne SEG.MIN_FREE.N (by decide))
  · exact if_neg (hne (THERM.CTL.EN _) (by simp only [THERM.CTL.EN, fld]; omega))
  case h_9 heq => exact absurd (hz heq) hp
  · rw [hostWrite_irqRaw hr hd]
  · exact if_neg (hne TWIN.CTL.EN (by decide))
  · exact if_neg (hne STRING.CFG.EN (by decide))
  · exact if_neg (hne (PADC.SEQ_CTL.RUN _) (by simp only [PADC.SEQ_CTL.RUN, fld]; omega))
  · rfl

theorem wordHead_irqRaw (p : Nat) : (Com.IRQ_RAW p).addr / 4096 = p ∧ sharedB (Com.IRQ_RAW p).addr = false ∧
    deadTxEq (Com.IRQ_RAW p).addr = false := by
  refine ⟨?_, ?_, ?_⟩
  · simp only [Com.IRQ_RAW, fld]; omega
  · exact decide_eq_false (by simp only [Com.IRQ_RAW, fld]; omega)
  · have : ¬ (0x60 ≤ (Com.IRQ_RAW p).addr % 4096 ∧ (Com.IRQ_RAW p).addr % 4096 < 0xC0) := by simp only [Com.IRQ_RAW, fld]; omega
    simp [deadTxEq, this]

/-- A write of IRQ_RAW clears the bits it has set (W1C). -/
theorem plainWrite_irqRaw {p : Nat} (v : Nat) (he : pageExists p = true) (d : Dev) :
    plainWrite (effectFields (Com.IRQ_RAW p).addr) (Com.IRQ_RAW p).addr v d =
      d.wr (Com.IRQ_RAW p) (d.rd (Com.IRQ_RAW p) - Nat.land (d.rd (Com.IRQ_RAW p)) (bitsOf v 0 8)) := by
  have hskip : (effectFields (Com.IRQ_RAW p).addr).any (fun g => g.key == (Com.IRQ_RAW p).key) = false := by
    have hall : ∀ p ∈ pageList, (effectFields (Com.IRQ_RAW p).addr).any (fun g => g.key == (Com.IRQ_RAW p).key) = false := by
      decide +kernel
    exact hall p (mem_pageList he)
  simp only [plainWrite, wordFields_irqRaw he, List.filter_cons, hskip, Bool.not_false, if_true, List.filter_nil, List.foldl_cons,
    List.foldl_nil]
  rfl

theorem pageWrite_irqRaw {p : Nat} (v : Nat) (he : pageExists p = true) (hp : p ≠ Page.ZCTL) {x : Dev × Memory}
    (hh : pageHeld x.1 p = false) :
    pageWrite' (Com.IRQ_RAW p).addr v (wordActions (Com.IRQ_RAW p).addr v) x =
      (x.1.wr (Com.IRQ_RAW p) (x.1.rd (Com.IRQ_RAW p) - Nat.land (x.1.rd (Com.IRQ_RAW p)) (bitsOf v 0 8)), x.2) := by
  obtain ⟨hpage, hs, ht⟩ := wordHead_irqRaw p
  have hoff : (Com.IRQ_RAW p).addr % 4096 = 16 := by simp only [Com.IRQ_RAW, fld]; omega
  rw [pageWrite_plain (by rw [hpage, he]) (by rw [hpage, hh]) hs ht ?_
    (wordActions_none v (by omega) (by omega) (ownActions_irqRaw v)), plainWrite_irqRaw v he]
  refine wordEffect_irqRaw v he hp _ ?_ ?_ <;> rw [plainWrite_irqRaw v he] <;> refine Dev.rd_wr_other _ _ _ _ ?_ <;>
    simp only [Fld.key, HOST.PTP_CFG.ROLE, HOST.PTP_CFG.DOMAIN, Com.IRQ_RAW, fld] <;> omega

/-! ## A plain word -/

theorem pageWrite_scratch (v : Nat) (x : Dev × Memory) :
    pageWrite' SYS.SCRATCH.DATA.addr v (wordActions SYS.SCRATCH.DATA.addr v) x = (x.1.wr SYS.SCRATCH.DATA (bitsOf v 0 32), x.2) := by
  have hfields : wordFields SYS.SCRATCH.DATA.addr = [SYS.SCRATCH.DATA] := by decide +kernel
  have hvalue (d : Dev) (u : Nat) (hu : u < 2 ^ 32) : rwValue d SYS.SCRATCH.DATA u = u := by
    have hclamp : SYS.SCRATCH.DATA.clamp u = u := by
      simp only [Fld.clamp, clampN, SYS.SCRATCH.DATA, fld]
      omega
    exact hclamp
  have hplain : plainWrite (effectFields SYS.SCRATCH.DATA.addr) SYS.SCRATCH.DATA.addr v x.1 =
      x.1.wr SYS.SCRATCH.DATA (bitsOf v 0 32) := by
    have hskip : (effectFields SYS.SCRATCH.DATA.addr).any (fun g => g.key == SYS.SCRATCH.DATA.key) = false := by decide
    simp only [plainWrite, hfields, List.filter_cons, hskip, Bool.not_false, if_true, List.filter_nil, List.foldl_cons, List.foldl_nil]
    exact congrArg (x.1.wr SYS.SCRATCH.DATA) (hvalue x.1 (bitsOf v 0 32) (Nat.mod_lt _ (by decide)))
  rw [pageWrite_plain (by decide) rfl (by decide) (by decide) rfl
    (wordActions_none v (by decide) (by decide) fun q hq => by cases hq), hplain]

/-! ## The configuration word of a converter's entry -/

/-- The fields of CFG0 of entry `e` of converter `n`. -/
def cfg0Fields (n : Fin 2) (e : Fin 16) : List Fld :=
  [PADC.CFG0.MUXP n e, PADC.CFG0.MUXN n e, PADC.CFG0.GAIN n e, PADC.CFG0.ORDER n e, PADC.CFG0.DEC n e, PADC.CFG0.NOTCH n e,
    PADC.CFG0.TSAMP n e]

/-- What a write of some fields stages. -/
def stageWord (l : List Fld) (v : Nat) (d : Dev) : Dev := l.foldl (fun d f => d.stageWrite f (bitsOf v f.lo f.width)) d

theorem plainWrite_cfg0 (n : Fin 2) (e : Fin 16) (v : Nat) (d : Dev) :
    plainWrite (effectFields (PADC.CFG0.MUXP n e).addr) (PADC.CFG0.MUXP n e).addr v d = stageWord (cfg0Fields n e) v d := by
  have hall : ∀ (n : Fin 2) (e : Fin 16), ((wordFields (PADC.CFG0.MUXP n e).addr).filter fun f =>
      !((effectFields (PADC.CFG0.MUXP n e).addr).any fun g => g.key == f.key)) = cfg0Fields n e := by decide +kernel
  have hrws : ∀ (n : Fin 2) (e : Fin 16), ∀ f ∈ cfg0Fields n e, f.acc = .rws ∧ f.key ≠ ZCTL.ARCH_GEOM.STRIPE_W.key := by decide
  rw [plainWrite, hall]
  refine List.foldl_ext _ _ _ fun d f hf => ?_
  obtain ⟨hacc, hkey⟩ := hrws n e f hf
  simp [fieldWrite, hacc, hkey]

theorem cfg0_page (n : Fin 2) (e : Fin 16) : (PADC.CFG0.MUXP n e).addr / 4096 = 0xC0 + n := by
  have hall : ∀ (n : Fin 2) (e : Fin 16), (PADC.CFG0.MUXP n e).addr / 4096 = 0xC0 + n := by decide
  exact hall n e

theorem cfg0_offset (n : Fin 2) (e : Fin 16) : 0x100 ≤ (PADC.CFG0.MUXP n e).addr % 4096 := by
  have hall : ∀ (n : Fin 2) (e : Fin 16), 0x100 ≤ (PADC.CFG0.MUXP n e).addr % 4096 := by decide
  exact hall n e

theorem pageKind_padc (n : Fin 2) : pageKind (0xC0 + n) = some ⟨0xC0, 2, 0x68, true, false, false, 6, 0x38⟩ := by
  have hall : ∀ n : Fin 2, pageKind (0xC0 + n) = some ⟨0xC0, 2, 0x68, true, false, false, 6, 0x38⟩ := by decide
  exact hall n

theorem ownActions_cfg0 (n : Fin 2) (e : Fin 16) (v : Nat) :
    ∀ q ∈ ownActions (PADC.CFG0.MUXP n e).addr v, q.1.addr ≠ (PADC.CFG0.MUXP n e).addr := by
  rw [ownActions, cfg0_page, pageKind_padc]
  have hoff := cfg0_offset n e
  intro q hq heq
  rw [← heq] at hoff
  simp only [pageActions, List.mem_cons, List.not_mem_nil, or_false] at hq
  rcases hq with rfl | rfl | rfl
  · simp only [PADC.INJ_CTL.GO, fld] at hoff; omega
  · simp only [PADC.CAL_CTL.GO, fld] at hoff; omega
  · simp only [PADC.CAL_CTL.ABORT, fld] at hoff; omega

theorem wordEffect_cfg0 (n : Fin 2) (e : Fin 16) (v : Nat) (old d : Dev) (m : Memory) :
    wordEffect (PADC.CFG0.MUXP n e).addr v old (d, m) = (d, m) := by
  have hoff := cfg0_offset n e
  rw [wordEffect]
  dsimp -zeta only
  rw [cfg0_page, pageKind_padc]
  refine if_neg fun h => ?_
  rw [h] at hoff
  simp only [PADC.SEQ_CTL.RUN, fld] at hoff
  omega

theorem pageWrite_cfg0 (n : Fin 2) (e : Fin 16) (v : Nat) (x : Dev × Memory) :
    pageWrite' (PADC.CFG0.MUXP n e).addr v (wordActions (PADC.CFG0.MUXP n e).addr v) x = (stageWord (cfg0Fields n e) v x.1, x.2) := by
  have hoff := cfg0_offset n e
  have hpage := cfg0_page n e
  have hplain : ∀ (n : Fin 2) (e : Fin 16), sharedB (PADC.CFG0.MUXP n e).addr = false ∧ deadTxEq (PADC.CFG0.MUXP n e).addr = false := by
    decide
  have hheld : pageHeld x.1 (0xC0 + n) = false := by
    unfold pageHeld
    repeat rw [if_neg (by omega)]
  have hexists : pageExists (0xC0 + n) = true := by rw [pageExists, pageKind_padc]; rfl
  rw [pageWrite_plain (by rw [hpage, hexists]) (by rw [hpage, hheld]) (hplain n e).1 (hplain n e).2 (wordEffect_cfg0 _ _ _ _ _ _)
    (wordActions_none v (by omega) (by omega) (ownActions_cfg0 n e v)), plainWrite_cfg0]

/-! ## What a staged word reads as -/

theorem stagedVal_stageWrite (d b : Dev) (f g : Fld) (v : Nat) :
    stagedVal b (d.stageWrite f v).ep.next g = if g.key = f.key then f.clamp (v % 2 ^ f.width) else stagedVal b d.ep.next g := by
  by_cases hk : g.key = f.key
  · simp [stagedVal, Dev.stageWrite, stagePut, hk]
  · have hkf : (f.key == g.key) = false := by simpa using Ne.symm hk
    have hfind : (d.ep.next.filter fun q => q.1.key != f.key).find? (fun q => q.1.key == g.key) =
        d.ep.next.find? fun q => q.1.key == g.key := by
      rw [List.find?_filter]
      congr 1
      funext q
      by_cases hq : q.1.key = g.key <;> simp [hq, hk]
    simp only [stagedVal, Dev.stageWrite, stagePut, List.find?_cons, hkf, hfind, if_neg hk]

theorem stageWord_cons (f : Fld) (l : List Fld) (v : Nat) (d : Dev) :
    stageWord (f :: l) v d = stageWord l v (d.stageWrite f (bitsOf v f.lo f.width)) := rfl

/-- Staging changes nothing but the next set. -/
theorem stageWord_eq (l : List Fld) (v : Nat) (d : Dev) :
    stageWord l v d = { d with ep := { d.ep with next := (stageWord l v d).ep.next } } := by
  induction l generalizing d with
  | nil => rfl
  | cons f l ih =>
    rw [stageWord_cons, ih]
    rfl

theorem stagedVal_stageWord_other {l : List Fld} {g : Fld} (h : ∀ f ∈ l, g.key ≠ f.key) (v : Nat) (b d : Dev) :
    stagedVal b (stageWord l v d).ep.next g = stagedVal b d.ep.next g := by
  induction l generalizing d with
  | nil => rfl
  | cons f l ih =>
    rw [stageWord_cons, ih fun q hq => h q (by simp [hq]), stagedVal_stageWrite, if_neg (h f (by simp))]

/-- A field staged without a clamp of its own takes its bits of the word. -/
theorem stagedVal_stageWord {l : List Fld} (hl : l.Pairwise fun f g => f.key ≠ g.key)
    (hc : ∀ f ∈ l, f.cmin = 0 ∧ f.cmax = 2 ^ f.width - 1) (v : Nat) (b d : Dev) : ∀ f ∈ l, stagedVal b (stageWord l v d).ep.next f = bitsOf v f.lo f.width := by
  induction l generalizing d with
  | nil => simp
  | cons f l ih =>
    obtain ⟨hf, hl⟩ := List.pairwise_cons.1 hl
    intro g hg
    rw [stageWord_cons]
    rcases List.mem_cons.1 hg with rfl | hg
    · obtain ⟨hmin, hmax⟩ := hc g (by simp)
      have hlt : v / 2 ^ g.lo % 2 ^ g.width < 2 ^ g.width := Nat.mod_lt _ (Nat.two_pow_pos _)
      rw [stagedVal_stageWord_other hf, stagedVal_stageWrite, if_pos rfl, Fld.clamp, clampN, hmin, hmax, bitsOf, Nat.mod_mod]
      omega
    · exact ih hl (fun q hq => hc q (by simp [hq])) _ g hg

theorem cfg0Fields_facts (n : Fin 2) (e : Fin 16) : (cfg0Fields n e).Pairwise (fun f g => f.key ≠ g.key) ∧
    ∀ f ∈ cfg0Fields n e, f.addr = (PADC.CFG0.MUXP n e).addr ∧ f.lo < 32 ∧ f.cmin = 0 ∧ f.cmax = 2 ^ f.width - 1 := by
  have hall : ∀ (n : Fin 2) (e : Fin 16), (cfg0Fields n e).Pairwise (fun f g => f.key ≠ g.key) ∧
      ∀ f ∈ cfg0Fields n e, f.addr = (PADC.CFG0.MUXP n e).addr ∧ f.lo < 32 ∧ f.cmin = 0 ∧ f.cmax = 2 ^ f.width - 1 := by decide
  exact hall n e

/-- The word of CFG0 written: its seven fields staged, every other staged or live value as before. -/
theorem stageWord_cfg0 (n : Fin 2) (e : Fin 16) (v : Nat) (d : Dev) :
    (∀ f ∈ cfg0Fields n e, stagedVal (stageWord (cfg0Fields n e) v d) (stageWord (cfg0Fields n e) v d).ep.next f =
      bitsOf v f.lo f.width) ∧
    (∀ f : Fld, f.addr ≠ (PADC.CFG0.MUXP n e).addr → f.lo < 32 →
      stagedVal (stageWord (cfg0Fields n e) v d) (stageWord (cfg0Fields n e) v d).ep.next f = stagedVal d d.ep.next f) ∧
    (stageWord (cfg0Fields n e) v d).regs = d.regs := by
  obtain ⟨hpair, hfields⟩ := cfg0Fields_facts n e
  have hregs : (stageWord (cfg0Fields n e) v d).regs = d.regs := by rw [stageWord_eq]
  refine ⟨stagedVal_stageWord hpair (fun f hf => (hfields f hf).2.2) v _ d, fun f hf hlo => ?_, hregs⟩
  rw [stagedVal_stageWord_other fun g hg => ?_]
  · simp only [stagedVal, Dev.rd, hregs]
  · obtain ⟨haddr, hlo', -⟩ := hfields g hg
    simp only [Fld.key]
    omega

end Sys2Proof.Machine
end

section
/-! SUPPORT. Cages (R447) and what an entry of the event log does to the working array (R350). -/

namespace Sys2Proof.Machine

/-! ## Memory stored -/

theorem Memory.write_flash (m : Memory) (a : Nat) (bs : List Byte) : (m.write a bs).flash = m.flash := by
  induction bs generalizing m a with
  | nil => rfl
  | cons b bs ih => rw [Memory.write, ih]; rfl

/-- Bytes stored: they and no others. -/
theorem Memory.stored_store (m : Memory) (a : Nat) (bs : List Byte) : m.Stored (m.store a bs) a bs := by
  refine ⟨fun k hk => ?_, fun b hb => ?_, Memory.write_flash m a bs⟩
  · rw [Memory.byte_store, if_pos (by omega), Nat.add_sub_cancel_left]
  · rw [Memory.byte_store, if_neg (by omega)]

theorem leBytes_length (n v : Nat) : (leBytes n v).length = n := by
  induction n generalizing v with
  | zero => rfl
  | succ n ih => rw [leBytes, List.length_cons, ih]

/-! ## The working array -/

/-- From `d` to `e` what a write of the working array leaves: the cages, the place of the next event, and every register but DIRTY and
WR_WAIT_CNT. -/
structure Dev.ArrayKept (d e : Dev) : Prop where
  pw : e.pw = d.pw
  evNext : e.nvs.evNext = d.nvs.evNext
  regs : d.KeepsRegs e [NVS.DIRTY.N, NVS.WR_WAIT_CNT.CNT]

theorem markDirty_kept (d : Dev) (page : Nat) : d.ArrayKept (markDirty d page) :=
  ⟨rfl, rfl, ((Dev.KeepsKeys.refl d _).of_regs (e' := { d with nvs := _ }) rfl).wr (f := NVS.DIRTY.N) (by simp) _⟩

theorem waWrite_kept (x : Dev × Memory) (a : Nat) (bs : List Byte) : x.1.ArrayKept (waWrite x a bs).1 := by
  obtain ⟨d, m⟩ := x
  have hwait (r : Option StoreRun) : d.ArrayKept (({ d with nvs := { d.nvs with run := r } }).inc NVS.WR_WAIT_CNT.CNT) :=
    ⟨rfl, rfl, ((Dev.KeepsKeys.refl d _).of_regs rfl).inc (f := NVS.WR_WAIT_CNT.CNT) (by simp)⟩
  rw [waWrite]
  extract_lets page
  split
  · split
    · exact hwait _
    · split
      · exact hwait _
      · exact markDirty_kept _ _
  · exact markDirty_kept _ _

theorem waWrite_idle {x : Dev × Memory} (h : x.1.nvs.run = none) (a : Nat) (bs : List Byte) : (waWrite x a bs).2 = x.2.store a bs := by
  simp [waWrite, h]

/-! ## The event log -/

/-- The bytes of an entry: TIME ns, CODE, ARG, VALUE. -/
def evBytes (d : Dev) (e : Ev) (arg value : Nat) : List Byte :=
  leBytes 8 d.nowNs ++ leBytes 2 (Config.eventCode e.ctorIdx).toNat ++ leBytes 2 (evArg e arg value) ++ leBytes 4 (evValue e arg value)

theorem evBytes_length (d : Dev) (e : Ev) (arg value : Nat) : (evBytes d e arg value).length = 16 := by
  simp [evBytes, leBytes_length]

/-- The place of the next entry. -/
def evAddr (d : Dev) : Nat := waBase + 0x38000 + 16 * d.nvs.evNext

/-- An entry covers two words whole. -/
theorem partEnds_event (k : Nat) : partEnds (waBase + 0x38000 + 16 * k) 16 = [] := by
  have h1 : (waBase + 0x38000 + 16 * k) / 8 * 8 = waBase + 0x38000 + 16 * k := by simp only [waBase]; omega
  have h2 : (waBase + 0x38000 + 16 * k + 16 - 1) / 8 * 8 = waBase + 0x38000 + 16 * k + 8 := by simp only [waBase]; omega
  rw [partEnds, if_neg (by decide), h1, h2, List.filter_eq_nil_iff]
  intro w hw
  have hw' := List.mem_eraseDups.1 hw
  simp only [List.mem_cons, List.not_mem_nil, or_false] at hw'
  simp only [decide_eq_true_eq]
  omega

/-- While the array is not frozen an entry is written at once, whatever the check bytes say: it covers no word in part. -/
theorem evLog_awake {x : Dev × Memory} (h : x.1.on NVS.STATUS.FROZEN = false) (e : Ev) (arg value : Nat) :
    evLog x e arg value =
      ({ (waWrite x (evAddr x.1) (evBytes x.1 e arg value)).1 with
        nvs := { (waWrite x (evAddr x.1) (evBytes x.1 e arg value)).1.nvs with evNext := (x.1.nvs.evNext + 1) % 1024 } },
        (waWrite x (evAddr x.1) (evBytes x.1 e arg value)).2) := by
  have hends : partEnds (evAddr x.1) (evBytes x.1 e arg value).length = [] := by rw [evBytes_length, evAddr, partEnds_event]
  have hcore : coreWrite x (evAddr x.1) (evBytes x.1 e arg value) = waWrite x (evAddr x.1) (evBytes x.1 e arg value) := by
    rw [coreWrite, h, if_neg Bool.false_ne_true, hends]
    simp
  unfold evAddr evBytes at hcore
  simp only [evLog, h, Bool.false_eq_true, if_false, hcore]
  rfl

theorem evLog_frozen {x : Dev × Memory} (h : x.1.on NVS.STATUS.FROZEN = true) (e : Ev) (arg value : Nat) : evLog x e arg value = x := by
  simp [evLog, h]

/-- What every entry leaves: the cages and the registers but two. -/
theorem evLog_kept (x : Dev × Memory) (e : Ev) (arg value : Nat) :
    (evLog x e arg value).1.pw = x.1.pw ∧ x.1.KeepsRegs (evLog x e arg value).1 [NVS.DIRTY.N, NVS.WR_WAIT_CNT.CNT] := by
  by_cases h : x.1.on NVS.STATUS.FROZEN = true
  · rw [evLog_frozen h]
    exact ⟨rfl, Dev.KeepsKeys.refl _ _⟩
  · rw [evLog_awake (by simpa using h)]
    obtain ⟨hpw, -, hregs⟩ := waWrite_kept x (evAddr x.1) (evBytes x.1 e arg value)
    exact ⟨hpw, Dev.KeepsKeys.of_regs hregs rfl⟩

theorem evLog_evNext {x : Dev × Memory} (h : x.1.on NVS.STATUS.FROZEN = false) (e : Ev) (arg value : Nat) :
    (evLog x e arg value).1.nvs.evNext = (x.1.nvs.evNext + 1) % 1024 := by
  rw [evLog_awake h]

theorem evLog_stored {x : Dev × Memory} (h : x.1.on NVS.STATUS.FROZEN = false) (hr : x.1.nvs.run = none) (e : Ev) (arg value : Nat) :
    x.2.Stored (evLog x e arg value).2 (evAddr x.1) (evBytes x.1 e arg value) := by
  rw [evLog_awake h, waWrite_idle hr]
  exact Memory.stored_store _ _ _

end Sys2Proof.Machine
end

section
/-! SUPPORT. The cages' commands (R447), and registers, locks and cages together. -/

namespace Sys2Proof.Machine

/-! ## Cages -/

/-- The books with a module put into its cage. -/
def withCage (d : Dev) (c : Cage) : Dev := d.updPw fun p => { p with cages := c :: p.cages.filter fun q => q.cage != c.cage }

theorem cageInsert_eq (cage : Fin 21) (ident media cls : Nat) (x : Dev × Memory) : cageInsert cage ident media cls x =
    evLog (withCage x.1 ⟨cage, 0, decide (3 < cls)⟩, x.2) .cageIn cage (ident + 256 * media) := rfl

theorem mem_withCage {d : Dev} {c q : Cage} (h : q.cage ≠ c.cage) : q ∈ (withCage d c).pw.cages ↔ q ∈ d.pw.cages := by
  have hne : q ≠ c := fun hq => h (hq ▸ rfl)
  simp [withCage, Dev.updPw, List.mem_filter, h, hne]

theorem cageDark_withCage (d : Dev) (c : Cage) : cageDark (withCage d c) c.cage = c.lowPower := by
  simp only [cageDark, withCage, Dev.updPw, List.any_cons, beq_self_eq_true, Bool.true_and, Bool.or_eq_left_iff_imp]
  intro h
  obtain ⟨q, hq, hc⟩ := List.any_eq_true.1 h
  simp [List.mem_filter] at hq hc
  omega

theorem cageDark_of_pw {d e : Dev} (h : e.pw = d.pw) (n : Nat) : cageDark e n = cageDark d n := by rw [cageDark, cageDark, h]

/-- The books with a module taken out of its cage. -/
def withoutCage (d : Dev) (cage : Fin 21) : Dev := d.updPw fun p => { p with cages := p.cages.filter fun q => q.cage != cage }

theorem cageRemove_empty {cage : Fin 21} {x : Dev × Memory} (h : ∀ c ∈ x.1.pw.cages, c.cage ≠ cage) : cageRemove cage x = x := by
  have hno : (x.1.pw.cages.any fun c => c.cage == cage) = false := by simpa using h
  rw [cageRemove, hno, if_neg Bool.false_ne_true]

theorem cageRemove_eq {cage : Fin 21} {x : Dev × Memory} (h : ∃ c ∈ x.1.pw.cages, c.cage = cage) :
    cageRemove cage x = evLog (withoutCage x.1 cage, x.2) .cageOut cage 0 := by
  have hany : (x.1.pw.cages.any fun c => c.cage == cage) = true := by simpa using h
  rw [cageRemove, if_pos hany]
  rfl

theorem mem_withoutCage {d : Dev} {cage : Fin 21} {c : Cage} : c ∈ (withoutCage d cage).pw.cages ↔ c ∈ d.pw.cages ∧ c.cage ≠ cage := by
  simp [withoutCage, Dev.updPw, List.mem_filter]

/-- The one booked module's flags as polled. -/
def withFlags (d : Dev) (c : Cage) (f : CageFlags) : Dev := d.updPw fun p => { p with cages := [{ c with alarms := f.alarms }] }

theorem cageFlags_other {x : Dev × Memory} {f : CageFlags} {c : Cage} (hc : x.1.pw.cages = [c]) (h : f.cage ≠ c.cage) :
    cagePoll [f] x = x := by
  simp [cagePoll, cageFlags, hc, Ne.symm h]

/-- An alarm rises. -/
def alarmRises (f : CageFlags) (c : Cage) : Bool := (List.range 5).any fun b => bitOf f.alarms b && !bitOf c.alarms b

theorem alarmRises_iff {f : CageFlags} {c : Cage} :
    alarmRises f c = true ↔ ∃ b < 5, bitOf f.alarms b = true ∧ bitOf c.alarms b = false := by
  simp [alarmRises]

theorem cagePoll_own {x : Dev × Memory} {f : CageFlags} {c : Cage} (hc : x.1.pw.cages = [c]) (h : f.cage = c.cage) :
    cagePoll [f] x = if alarmRises f c then evLog (withFlags x.1 c f, x.2) .cageAlarm f.cage f.value else (withFlags x.1 c f, x.2) := by
  simp [cagePoll, cageFlags, hc, h, alarmRises, withFlags, Dev.updPw]

theorem evBytes_withCage (d : Dev) (c : Cage) (e : Ev) (arg value : Nat) :
    evBytes (withCage d c) e arg value = evBytes d e arg value := rfl

theorem cageInsert_spec (s : State) (cage : Fin 21) (ident media cls : Nat) :
    let y := cageInsert cage ident media cls (s.dev, s.mem)
    (⟨cage, 0, decide (3 < cls)⟩ : Cage) ∈ y.1.pw.cages ∧ (∀ c : Cage, c.cage ≠ cage → (c ∈ y.1.pw.cages ↔ c ∈ s.dev.pw.cages)) ∧
    cageDark y.1 cage = decide (3 < cls) ∧ (s.dev.on NVS.STATUS.FROZEN = true → y.2 = s.mem) ∧
    (s.dev.on NVS.STATUS.FROZEN = false → s.dev.nvs.run = none → s.Sound → s.dev.nvs.evNext < 1024 →
      s.mem.Stored y.2 (evAddr s.dev) (evBytes s.dev .cageIn cage (ident + 256 * media)) ∧
        y.1.nvs.evNext = (s.dev.nvs.evNext + 1) % 1024) ∧
    s.dev.KeepsRegs y.1 [NVS.DIRTY.N, NVS.WR_WAIT_CNT.CNT] := by
  intro y
  obtain ⟨hpw, hregs⟩ := evLog_kept (withCage s.dev ⟨cage, 0, decide (3 < cls)⟩, s.mem) .cageIn cage (ident + 256 * media)
  rw [show y = _ from cageInsert_eq cage ident media cls (s.dev, s.mem)]
  refine ⟨?_, fun c hc => ?_, ?_, fun hf => ?_, fun hf hr _ _ => ⟨?_, ?_⟩, ((Dev.KeepsKeys.refl s.dev _).of_regs rfl).trans hregs⟩
  · rw [hpw]
    simp [withCage, Dev.updPw]
  · rw [hpw]
    exact mem_withCage hc
  · rw [cageDark_of_pw hpw, cageDark_withCage]
  · rw [evLog_frozen hf]
  · have hstored := evLog_stored (x := (withCage s.dev ⟨cage, 0, decide (3 < cls)⟩, s.mem)) hf hr .cageIn cage (ident + 256 * media)
    rw [evBytes_withCage] at hstored
    exact hstored
  · exact evLog_evNext (x := (withCage s.dev ⟨cage, 0, decide (3 < cls)⟩, s.mem)) hf _ _ _

theorem cageRemove_spec {s : State} {cage : Fin 21} (h : ∃ c ∈ s.dev.pw.cages, c.cage = cage) :
    let y := cageRemove cage (s.dev, s.mem)
    (∀ c : Cage, c ∈ y.1.pw.cages ↔ c ∈ s.dev.pw.cages ∧ c.cage ≠ cage) ∧
    (s.dev.on NVS.STATUS.FROZEN = false → y.1.nvs.evNext = (s.dev.nvs.evNext + 1) % 1024) ∧
    s.dev.KeepsRegs y.1 [NVS.DIRTY.N, NVS.WR_WAIT_CNT.CNT] := by
  intro y
  have hy : y = evLog (withoutCage s.dev cage, s.mem) .cageOut cage 0 := cageRemove_eq h
  obtain ⟨hpw, hregs⟩ := evLog_kept (withoutCage s.dev cage, s.mem) .cageOut cage 0
  rw [hy]
  refine ⟨fun c => ?_, fun hf => evLog_evNext (x := (withoutCage s.dev cage, s.mem)) hf _ _ _,
    ((Dev.KeepsKeys.refl s.dev _).of_regs rfl).trans hregs⟩
  rw [hpw]
  exact mem_withoutCage

theorem cagePoll_spec {s : State} {f : CageFlags} {c : Cage} (hc : s.dev.pw.cages = [c]) (h : f.cage = c.cage) :
    let y := cagePoll [f] (s.dev, s.mem)
    y.1.pw.cages = [{ c with alarms := f.alarms }] ∧
    ((∀ b < 5, bitOf f.alarms b = true → bitOf c.alarms b = true) → y.2 = s.mem ∧ y.1.regs = s.dev.regs) ∧
    ((∃ b < 5, bitOf f.alarms b = true ∧ bitOf c.alarms b = false) → s.dev.on NVS.STATUS.FROZEN = false →
      y.1.nvs.evNext = (s.dev.nvs.evNext + 1) % 1024) := by
  intro y
  have hy : y = if alarmRises f c then evLog (withFlags s.dev c f, s.mem) .cageAlarm f.cage f.value else (withFlags s.dev c f, s.mem) :=
    cagePoll_own hc h
  refine ⟨?_, fun hquiet => ?_, fun hrise hf => ?_⟩
  · obtain ⟨hpw, -⟩ := evLog_kept (withFlags s.dev c f, s.mem) .cageAlarm f.cage f.value
    rw [hy]
    split
    · rw [hpw]; rfl
    · rfl
  · have hno : alarmRises f c = false := by
      rw [← Bool.not_eq_true, alarmRises_iff]
      rintro ⟨b, hb, hset, hclear⟩
      exact absurd (hquiet b hb hset) (by simp [hclear])
    rw [hy, hno]
    exact ⟨rfl, rfl⟩
  · rw [hy, if_pos (alarmRises_iff.2 hrise)]
    exact evLog_evNext (x := (withFlags s.dev c f, s.mem)) hf _ _ _

/-! ## Registers, locks and cages -/

/-- A locking word read: its group is held for the requester, and every other lock stays. -/
theorem pageRead_sets {who : Requester} {a : Nat} {d : Dev} (hp : pageExists (a / 4096) = true) (hh : pageHeld d (a / 4096) = false)
    (hlog : logWord d a = none) (hg : lockGroup a ≠ []) (hl : ∀ c < 4, a ≠ (ENC.L_SPEED.VAL c).addr)
    (hk : ∀ l ∈ d.locks, ¬ (l.who = who ∧ l.addr = a)) :
    (∀ b ∈ lockGroup a, ⟨who, a, b, regWord d b, d.now⟩ ∈ (pageRead who a d).2.locks) ∧
    (∀ l : Lock, l.who ≠ who ∨ l.locker ≠ a → (l ∈ (pageRead who a d).2.locks ↔ l ∈ d.locks)) ∧
    (∀ l ∈ (pageRead who a d).2.locks, l.who = who → l.locker = a → l.addr ∈ lockGroup a ∧ l.value = regWord d l.addr) ∧
    (pageRead who a d).2 = { d with locks := (pageRead who a d).2.locks } := by
  rw [pageRead_locks who hp hh hl (logWord_none hlog), lockRead_sets hg hk]
  refine ⟨fun b hb => mem_locksAfter.2 (.inl ⟨b, hb, rfl⟩), fun l hl => ?_, fun l hl hw ha => ?_, rfl⟩
  · rw [mem_locksAfter]
    constructor
    · rintro (⟨b, -, rfl⟩ | ⟨hmem, -⟩)
      · simp at hl
      · exact hmem
    · exact fun hmem => .inr ⟨hmem, fun ⟨hw, ha⟩ => hl.elim (· hw) (· ha)⟩
  · rcases mem_locksAfter.1 hl with ⟨b, hb, rfl⟩ | ⟨-, hno⟩
    · exact ⟨hb, rfl⟩
    · exact absurd ⟨hw, ha⟩ hno

/-- A locking read and a register write of a page's word, as one step of the device. -/
theorem gives_lockingRead {s : State} {who : Option (Fin 4)} {addr a : Nat} {P : Dev → Prop} (hup : s.dev.up = true)
    (ha : a = addr / 4 * 4) (hlt : a < 0x01000000) (hh : ∀ h ∈ s.dev.integ.half, h.1 ≠ requester who)
    (hP : P (pageRead (requester who) a s.dev).2) : Gives (.lockingRead who addr) s P := by
  have hread := wordRead_page (x := (s.dev, s.mem)) hlt hh
  rw [ha] at hread hP
  refine gives_of_onBoth (g := fun x => (wordRead (requester who) (addr / 4 * 4) x).2) rfl hup ?_ ?_
  · rw [hread]
  · rw [hread]; exact hP

theorem gives_registerWrite {s : State} {who : Option (Fin 4)} {addr a : Nat} {w : Word32} {d : Dev} {P : Dev → Prop}
    (hup : s.dev.up = true) (ha : a = addr / 4 * 4) (hlt : a < 0x01000000) (hh : ∀ h ∈ s.dev.integ.half, h.1 ≠ requester who)
    (hw : pageWrite' a w.toNat (wordActions a w.toNat) (s.dev, s.mem) = (d, s.mem)) (hP : P d) :
    Gives (.registerWrite who addr w) s P := by
  have hwrite : regWrite (requester who) addr w.toNat (s.dev, s.mem) = (d, s.mem) := by
    rw [regWrite_page (by omega) hh, ← ha, hw]
  refine gives_of_onBoth (g := regWrite (requester who) addr w.toNat) rfl hup ?_ ?_
  · rw [hwrite]
  · rw [hwrite]; exact hP

/-- Settles O60: interrupt clears, locks, the forms of a written word by its address, and the cages. -/
theorem registersLocksAndCages : Obligations.RegistersLocksAndCages := by
  refine ⟨fun s page mask again hup => ⟨fun hp => ?_, fun hp => ?_⟩,
    fun s page hup hp => gives_of_onDev (g := errClr page) rfl hup (errClr_spec _ hp),
    fun s who addr a hup ha hlt hh => ⟨fun hp => ?_, fun hplain => ?_, fun hp hheld hlog hg hsp hk => ?_⟩,
    fun s who locker hup => gives_of_onDev (g := lockExpiry (requester who) locker) rfl hup ⟨fun l => mem_lockExpiry, rfl⟩,
    fun s who addr a w hup ha hlt hh => ⟨fun hp => ?_, fun hp hheld => ?_, fun hsc => ?_, fun p he hz hheld hirq => ?_, fun n e hcfg => ?_⟩,
    fun s cage ident media cls hup => ?_, fun s cage hup => ⟨fun hno => ?_, fun hin => ?_⟩,
    fun s f c hup hc => ⟨fun hne => ?_, fun heq => ?_⟩⟩
  · exact gives_of_onDev (g := irqClear page mask.toNat again.toNat) rfl hup (irqClear_spec _ mask again hp)
  · refine gives_of_onDev (g := irqClear page mask.toNat again.toNat) rfl hup ?_
    rw [irqClear_unmapped _ _ _ hp]
    obtain ⟨hu, -, honly⟩ := unmapped_spec s.dev
    exact ⟨hu, honly⟩
  · refine gives_lockingRead hup ha hlt hh ?_
    rw [pageRead_unmapped _ _ hp]
    obtain ⟨hu, -, honly⟩ := unmapped_spec s.dev
    exact ⟨hu, honly⟩
  · obtain ⟨hp, hheld, hg, hlog, hsp, hk, -⟩ := hplain
    refine gives_lockingRead hup ha hlt hh ?_
    rw [pageRead_locks _ hp hheld hsp (logWord_none hlog), lockRead_free hg hk]
  · exact gives_lockingRead hup ha hlt hh (pageRead_sets hp hheld hlog hg hsp hk)
  · exact gives_registerWrite hup ha hlt hh (pageWrite_unmapped _ _ _ hp) (unmapped_spec s.dev)
  · exact gives_registerWrite hup ha hlt hh (pageWrite_held _ _ hp hheld) (wrDrop_spec s.dev)
  · subst hsc
    refine gives_registerWrite hup ha hlt hh (pageWrite_scratch _ _) ⟨?_, (Dev.OnlyKeys.refl s.dev _).wr (by simp) _⟩
    rw [Dev.rd_wr_same, show SYS.SCRATCH.DATA.width = 32 from rfl, bitsOf, Nat.mod_mod, Nat.pow_zero, Nat.div_one,
      Nat.mod_eq_of_lt w.isLt]
  · subst hirq
    refine gives_registerWrite hup ha hlt hh (pageWrite_irqRaw _ he hz hheld) ⟨fun b hb => ?_, (Dev.OnlyKeys.refl s.dev _).wr (by simp) _⟩
    rw [Dev.bitOf_clear _ _ _ hb, bitsOf, Nat.pow_zero, Nat.div_one, bitOf_mod_two_pow hb, bitOf_eq_testBit w.toNat]
    rfl
  · subst hcfg
    obtain ⟨hown, hother, hregs⟩ := stageWord_cfg0 n e w.toNat s.dev
    exact gives_registerWrite hup ha hlt hh (pageWrite_cfg0 _ _ _ _) ⟨hown, hother, hregs, stageWord_eq _ _ _⟩
  · exact completes_of_onBoth (g := cageInsert cage ident media cls) rfl hup (cageInsert_spec s cage ident media cls)
  · refine gives_of_onBoth (g := cageRemove cage) rfl hup ?_ ?_ <;> rw [cageRemove_empty hno]
  · exact completes_of_onBoth (g := cageRemove cage) rfl hup (cageRemove_spec hin)
  · refine gives_of_onBoth (g := cagePoll [f]) rfl hup ?_ ?_ <;> rw [cageFlags_other hc hne]
  · exact completes_of_onBoth (g := cagePoll [f]) rfl hup (cagePoll_spec hc heq)

end Sys2Proof.Machine
end

section
/-! SUPPORT. Messages from the twin (R329, R330): who heeds them, and HEART and DIGEST on a module that follows. -/

namespace Sys2Proof.Machine

/-! ## A message from the twin -/

/-- A message notes a sign of life before it acts; what it then does is said for every list of intervals measured. -/
theorem gives_fromTwin {c : Instr} {s : State} {g : Dev → Dev} {P : Dev → Prop} (h : exec c s = s.fromTwin g) (hup : s.dev.up = true)
    (hP : ∀ marks, P (g { s.dev with marks := marks })) : Gives c s P := by
  refine gives_of_onDev h hup ?_
  have hcase : P (g (if follows s.dev then s.dev.start .twin else s.dev)) := by
    split
    · exact hP _
    · exact hP s.dev.marks
  exact hcase

theorem not_follows_of_active {d : Dev} (h : d.isActive = true) : follows d = false := by
  have hstate : d.rd TWIN.STATUS.STATE = 3 ∨ d.rd TWIN.STATUS.STATE = 0 := by simpa [Dev.isActive] using h
  rcases hstate with hs | hs <;> simp [follows, pairState, hs]

/-- On an active module no sign of life is noted. -/
theorem gives_fromTwin_active {c : Instr} {s : State} {g : Dev → Dev} {P : Dev → Prop} (h : exec c s = s.fromTwin g)
    (hup : s.dev.up = true) (ha : s.dev.isActive = true) (hP : P (g s.dev)) : Gives c s P := by
  refine gives_of_onDev h hup ?_
  have hcase : P (g (if follows s.dev then s.dev.start .twin else s.dev)) := by
    rw [not_follows_of_active ha]
    exact hP
  exact hcase

theorem follows_of_state {d : Dev} (h : d.rd TWIN.STATUS.STATE = 4 ∨ d.rd TWIN.STATUS.STATE = 2) : follows d = true := by
  rcases h with hs | hs <;> simp [follows, pairState, hs]

theorem not_active_of_state {d : Dev} (h : d.rd TWIN.STATUS.STATE = 4 ∨ d.rd TWIN.STATUS.STATE = 2) : d.isActive = false := by
  rcases h with hs | hs <;> simp [Dev.isActive, hs]

/-- SYNCING entered: nothing is mirrored, an image is wanted. -/
theorem enterSyncing_spec (d : Dev) :
    (enterSyncing d).rd TWIN.STATUS.STATE = 2 ∧ (enterSyncing d).rd TWIN.STATUS.MIRRORED = 0 ∧ (enterSyncing d).twin.wanted = true ∧
    (enterSyncing d).twin.hbm = d.twin.hbm ∧ (enterSyncing d).twin.step = d.twin.step ∧
    d.KeepsRegs (enterSyncing d) [TWIN.STATUS.STATE, TWIN.STATUS.MIRRORED] := by
  have hregs : (enterSyncing d).regs = ((d.wr TWIN.STATUS.STATE 2).wr TWIN.STATUS.MIRRORED 0).regs := rfl
  refine ⟨?_, ?_, rfl, rfl, rfl, Dev.KeepsKeys.of_regs ?_ hregs⟩
  · rw [Dev.rd_of_regs_eq hregs, Dev.rd_wr_other _ _ _ _ (by decide), Dev.rd_wr_same]
    rfl
  · rw [Dev.rd_of_regs_eq hregs, Dev.rd_wr_same]
    rfl
  · exact ((Dev.KeepsKeys.refl d _).wr (f := TWIN.STATUS.STATE) (by simp) 2).wr (f := TWIN.STATUS.MIRRORED) (by simp) 0

/-! ## One comparison with the active's timebase (R13) -/

/-- The device with its count of comparisons in band at `n`. -/
def Dev.band (d : Dev) (n : Nat) : Dev := { d with time := { d.time with inBand := n } }

/-- The discipline's own step: a rate within ±200 ppm while LOCKED. -/
def Dev.disciplined (d : Dev) : Dev :=
  if d.on WEB.TB_CTL.LOCKED then
    (d.free 25).2.wrS WEB.TB_RATE.RATE (clampI (-ppmLimit) ppmLimit (((d.free 25).1 : Int) - 2 ^ 24))
  else d

theorem timeCompare_far {off : Int} (h : 128 < off.natAbs) (d : Dev) : timeCompare off d = (d.band 0).wr WEB.TB_CTL.LOCKED 0 := by
  have hband : ¬ off.natAbs ≤ 32 := by omega
  simp only [timeCompare, h, hband, if_true, if_false]
  rfl

theorem timeCompare_near {off : Int} (h : off.natAbs ≤ 32) (d : Dev) :
    timeCompare off d = (if min (d.time.inBand + 1) 64 = 64 then (d.band (min (d.time.inBand + 1) 64)).wr WEB.TB_CTL.LOCKED 1
      else d.band (min (d.time.inBand + 1) 64)).disciplined := by
  have hfar : ¬ 128 < off.natAbs := by omega
  simp only [timeCompare, h, hfar, if_true, if_false]
  rfl

/-- In band, but too few times and not locked: the comparison is counted and no more. -/
theorem timeCompare_counts {off : Int} (h : off.natAbs ≤ 32) {d : Dev} (hn : d.time.inBand < 63) (hl : d.on WEB.TB_CTL.LOCKED = false) :
    timeCompare off d = d.band (d.time.inBand + 1) := by
  have hmin : min (d.time.inBand + 1) 64 = d.time.inBand + 1 := Nat.min_eq_left (by omega)
  have hne : d.time.inBand + 1 ≠ 64 := by omega
  have hl' : (d.band (d.time.inBand + 1)).on WEB.TB_CTL.LOCKED = false := hl
  rw [timeCompare_near h, hmin, if_neg hne, Dev.disciplined, hl', if_neg Bool.false_ne_true]

/-- The 64th comparison in band locks; the discipline then sets the rate. -/
theorem timeCompare_locks {off : Int} (h : off.natAbs ≤ 32) {d : Dev} (hn : d.time.inBand = 63) :
    (timeCompare off d).rd WEB.TB_CTL.LOCKED = 1 ∧ (timeCompare off d).twin = d.twin ∧
    d.KeepsRegs (timeCompare off d) [WEB.TB_CTL.LOCKED, WEB.TB_RATE.RATE] := by
  have hrd : ((d.band 64).wr WEB.TB_CTL.LOCKED 1).rd WEB.TB_CTL.LOCKED = 1 := Dev.rd_wr_same _ _ _
  have hon : ((d.band 64).wr WEB.TB_CTL.LOCKED 1).on WEB.TB_CTL.LOCKED = true := by
    rw [Dev.on, hrd]
    rfl
  have hkeep : d.KeepsRegs ((d.band 64).wr WEB.TB_CTL.LOCKED 1) [WEB.TB_CTL.LOCKED, WEB.TB_RATE.RATE] :=
    ((Dev.KeepsKeys.refl d _).of_regs rfl).wr (f := WEB.TB_CTL.LOCKED) (by simp) 1
  rw [timeCompare_near h, hn, show min (63 + 1) 64 = 64 from rfl, if_pos rfl, Dev.disciplined, if_pos hon]
  exact ⟨(Dev.rd_wr_other _ _ _ _ (by decide)).trans hrd, rfl,
    (Dev.KeepsKeys.of_regs hkeep rfl).wrS (f := WEB.TB_RATE.RATE) (by simp) _⟩

/-! ## HEART -/

theorem heart_follows {d : Dev} (hen : d.on TWIN.CTL.EN = true) (hf : follows d = true) (tb step : Nat) (hbm : Bool) : heart tb hbm step d =
    timeCompare ((tb : Int) + d.rd TWIN.LINK_DLY.DLY - d.now) (d.updTwin fun t => { t with hbm := hbm, step := step }) := by
  simp [heart, hen, hf]

theorem heart_off {d : Dev} (hen : d.on TWIN.CTL.EN = false) (tb step : Nat) (hbm : Bool) : heart tb hbm step d = d := by
  simp [heart, hen]

/-- A FENCED module with its link up starts over in SYNCING. -/
theorem heart_fenced {d : Dev} (hen : d.on TWIN.CTL.EN = true) (hs : d.rd TWIN.STATUS.STATE = 5) (hl : d.on TWIN.STATUS.LINK_UP = true)
    (tb step : Nat) (hbm : Bool) : heart tb hbm step d = enterSyncing (d.updTwin fun t => { t with hbm := hbm, step := step }) := by
  simp [heart, hen, follows, pairState, hs, hl]

/-! ## DIGEST -/

/-- The device with its one settled line and the digest received for it taken. -/
def digestTaken (d : Dev) : Dev := { d with seg := { d.seg with digests := [] }, twin := { d.twin with digests := [] } }

/-- One line settled on a module that follows, of which a digest has been received. -/
theorem digest_follows {d : Dev} {q : LineDigest} {runs bg n closes : Nat} (hs : d.rd TWIN.STATUS.STATE = 4 ∨ d.rd TWIN.STATUS.STATE = 2)
    (hq : d.seg.digests = [q]) (hsettled : digestSettled d q = true) (hnone : d.twin.digests = []) :
    digest q.wln runs bg n closes d = digestCompare (digestTaken d) q.wln ([runs, bg, n, closes] == q.sums) := by
  have hset (t : TwinSt) : digestSettled { d with twin := t } q = true := hsettled
  have hact (t : TwinSt) : ({ d with twin := t } : Dev).isActive = false := not_active_of_state (d := { d with twin := t }) hs
  simp [digest, follows_of_state hs, digestSettle, digestTaken, Dev.updTwin, hq, hnone, digestOne, hset, hact]

end Sys2Proof.Machine
end

section
/-! SUPPORT. What a DIGEST's comparison and a STAGE leave on a standby (R331, R443). -/

namespace Sys2Proof.Machine

/-! ## The comparison -/

/-- A register pair reads as last written, each half at its width. -/
theorem Dev.rd2_wr2 (d : Dev) {lo hi : Fld} (hk : lo.key ≠ hi.key) (v : Nat) :
    (d.wr2 lo hi v).rd2 lo hi = v % 2 ^ lo.width + 2 ^ 32 * (v / 2 ^ 32 % 2 ^ hi.width) := by
  rw [Dev.rd2, Dev.wr2, Dev.rd_wr_same, Dev.rd_wr_other _ _ _ _ hk, Dev.rd_wr_same]

theorem digestCompare_same_standby {d : Dev} (h : d.rd TWIN.STATUS.STATE = 4) (w : Nat) :
    digestCompare d w true = d.wr2 TWIN.VER_WLN_LO.WLN TWIN.VER_WLN_HI.WLN w := by
  simp [digestCompare, h]

theorem digestCompare_same_syncing {d : Dev} (h : d.rd TWIN.STATUS.STATE = 2) (ha : d.twin.applied = true) (w : Nat) :
    digestCompare d w true = sayHello ((((setPair (d.wr2 TWIN.VER_WLN_LO.WLN TWIN.VER_WLN_HI.WLN w) 4).wr TWIN.STATUS.MIRRORED 1).inc
      TWIN.RESYNC_CNT.CNT).irq Page.TWIN TWIN.irq.MIRRORED) := by
  simp [digestCompare, h, ha]

theorem digestCompare_differs {d : Dev} (h : d.rd TWIN.STATUS.STATE = 4) (w : Nat) :
    digestCompare d w false = enterSyncing ((d.inc TWIN.DIFF_CNT.CNT).irq Page.TWIN TWIN.irq.DIFF) := by
  simp [digestCompare, h]

/-- A digest verified on a standby: VER_WLN names its line. -/
theorem verified_spec (d : Dev) (w : Nat) :
    (d.wr2 TWIN.VER_WLN_LO.WLN TWIN.VER_WLN_HI.WLN w).rd2 TWIN.VER_WLN_LO.WLN TWIN.VER_WLN_HI.WLN = w % 2 ^ 48 ∧
    (d.wr2 TWIN.VER_WLN_LO.WLN TWIN.VER_WLN_HI.WLN w).rd TWIN.STATUS.STATE = d.rd TWIN.STATUS.STATE ∧
    d.KeepsRegs (d.wr2 TWIN.VER_WLN_LO.WLN TWIN.VER_WLN_HI.WLN w) [TWIN.VER_WLN_LO.WLN, TWIN.VER_WLN_HI.WLN] := by
  refine ⟨?_, ?_, (Dev.KeepsKeys.refl d _).wr2 (by simp) (by simp) w⟩
  · rw [Dev.rd2_wr2 _ (by decide), show TWIN.VER_WLN_LO.WLN.width = 32 from rfl, show TWIN.VER_WLN_HI.WLN.width = 16 from rfl]
    omega
  · rw [Dev.wr2, Dev.rd_wr_other _ _ _ _ (by decide), Dev.rd_wr_other _ _ _ _ (by decide)]

/-- SYNCING ends: the standby mirrors its active. -/
theorem mirrored_spec (d : Dev) (w : Nat) :
    let e := sayHello ((((setPair (d.wr2 TWIN.VER_WLN_LO.WLN TWIN.VER_WLN_HI.WLN w) 4).wr TWIN.STATUS.MIRRORED 1).inc
      TWIN.RESYNC_CNT.CNT).irq Page.TWIN TWIN.irq.MIRRORED)
    e.rd TWIN.STATUS.STATE = 4 ∧ e.rd TWIN.STATUS.MIRRORED = 1 ∧ d.Counted e TWIN.RESYNC_CNT.CNT ∧
    bitOf (e.rd (Com.IRQ_RAW Page.TWIN)) TWIN.irq.MIRRORED = true ∧ d.KeepsPages e [Page.TWIN] := by
  intro e
  have hregs : e.regs = ((((((d.wr TWIN.VER_WLN_LO.WLN w).wr TWIN.VER_WLN_HI.WLN (w / 2 ^ 32)).wr TWIN.STATUS.STATE 4).wr
      TWIN.STATUS.MIRRORED 1).inc TWIN.RESYNC_CNT.CNT).irq Page.TWIN TWIN.irq.MIRRORED).regs := rfl
  have hkeep : d.KeepsKeys e (· / 131072 ∈ [Page.TWIN]) := Dev.KeepsKeys.of_regs
    (((((((Dev.KeepsKeys.refl d _).wr (by decide) _).wr (by decide) _).wr (by decide) _).wr (by decide) _).inc (by decide)).irq
      (by decide) (by decide) _) hregs
  refine ⟨?_, ?_, ?_, ?_, hkeep⟩
  · rw [Dev.rd_of_regs_eq hregs, Dev.rd_irq_other _ _ _ _ (by decide) (by decide), Dev.inc, Dev.rd_addCnt_other _ _ _ _ (by decide),
      Dev.rd_wr_other _ _ _ _ (by decide), Dev.rd_wr_same]
    rfl
  · rw [Dev.rd_of_regs_eq hregs, Dev.rd_irq_other _ _ _ _ (by decide) (by decide), Dev.inc, Dev.rd_addCnt_other _ _ _ _ (by decide),
      Dev.rd_wr_same]
    rfl
  · rw [Dev.Counted, Dev.rd_of_regs_eq hregs, Dev.rd_irq_other _ _ _ _ (by decide) (by decide), Dev.rd_inc_same,
      Dev.rd_wr_other _ _ _ _ (by decide), Dev.rd_wr_other _ _ _ _ (by decide), Dev.rd_wr_other _ _ _ _ (by decide),
      Dev.rd_wr_other _ _ _ _ (by decide)]
  · rw [Dev.rd_of_regs_eq hregs, Dev.bitOf_irq _ _ _ (by decide)]
    rfl

/-- A digest that differs starts resynchronization. -/
theorem differs_spec (d : Dev) :
    let e := enterSyncing ((d.inc TWIN.DIFF_CNT.CNT).irq Page.TWIN TWIN.irq.DIFF)
    e.rd TWIN.STATUS.STATE = 2 ∧ e.rd TWIN.STATUS.MIRRORED = 0 ∧ d.Counted e TWIN.DIFF_CNT.CNT ∧
    bitOf (e.rd (Com.IRQ_RAW Page.TWIN)) TWIN.irq.DIFF = true ∧ e.twin.wanted = true ∧ d.KeepsPages e [Page.TWIN] := by
  intro e
  obtain ⟨hstate, hmirrored, hwanted, -, -, hkeep⟩ := enterSyncing_spec ((d.inc TWIN.DIFF_CNT.CNT).irq Page.TWIN TWIN.irq.DIFF)
  have hdiff : d.KeepsKeys ((d.inc TWIN.DIFF_CNT.CNT).irq Page.TWIN TWIN.irq.DIFF) (· / 131072 ∈ [Page.TWIN]) :=
    ((Dev.KeepsKeys.refl d _).inc (by decide)).irq (by decide) (by decide) _
  refine ⟨hstate, hmirrored, ?_, ?_, hwanted, hdiff.trans (Dev.KeepsKeys.mono hkeep ?_)⟩
  · rw [Dev.Counted, hkeep TWIN.DIFF_CNT.CNT (by decide), Dev.rd_irq_other _ _ _ _ (by decide) (by decide), Dev.rd_inc_same]
  · rw [hkeep (Com.IRQ_RAW Page.TWIN) (by decide), Dev.bitOf_irq _ _ _ (by decide)]
    rfl
  · intro k hk
    simp only [List.map_cons, List.map_nil, List.mem_cons, List.not_mem_nil, or_false] at hk
    rcases hk with rfl | rfl <;> decide

/-! ## STAGE -/

/-- The epoch as STAGE leaves it: the received set frozen, every staged write gone. -/
def stagedEpoch (e id : Nat) (l : List (Fld × Nat)) (now : Nat) (p : Epoch) : Epoch :=
  { p with target := e, id := id, applyAt := none, ready := [], checkCause := none, refused := none, geomWait := false,
           stbyWait := false, kept := false, next := [], frozen := some l, since := now }

/-- A staged write that the received set does not hold. -/
def stageLost (d : Dev) (l : List (Fld × Nat)) : Bool := d.ep.next.any fun q => !l.any fun r => r.1.key == q.1.key && r.2 == q.2

/-- The device with a received set of one field, STAGE_ACK not yet sent. -/
def staged (e id : Nat) (l : List (Fld × Nat)) (d : Dev) : Dev :=
  ((d.updEp (stagedEpoch e id l d.now)).wr WEB.EPOCH_ID.ARMED_ID id).wr WEB.EPOCH_STATUS.STATE 2

theorem stageIn_one {d : Dev} (ha : d.isActive = false) (e id v : Nat) {f : Fld}
    (hf : (pageFields (f.key / 32 / 4096)).find? (fun g => g.key == f.key && g.acc == .rws) = some f) :
    stageIn e id [(f.key, v)] d =
      (if stageLost d [(f, v % 2 ^ f.width)] then
        ((staged e id [(f, v % 2 ^ f.width)] d).wr SYS.STATUS.STBY_STAGE_LOST 1).irq Page.SYS SYS.irq.STBY_STAGE_LOST
      else staged e id [(f, v % 2 ^ f.width)] d).emit (.twin .stageAck [(id : Int)]) := by
  simp only [stageIn, ha, Bool.false_eq_true, if_false, List.filterMap_cons, hf, Option.map_some, List.filterMap_nil]
  rfl

theorem staged_keeps (e id : Nat) (l : List (Fld × Nat)) (d : Dev) :
    d.KeepsRegs (staged e id l d) [WEB.EPOCH_STATUS.STATE, WEB.EPOCH_ID.ARMED_ID] :=
  ((Dev.KeepsKeys.of_regs (.refl d _) rfl).wr (f := WEB.EPOCH_ID.ARMED_ID) (by simp) id).wr (f := WEB.EPOCH_STATUS.STATE) (by simp) 2

theorem staged_lost_other (e id : Nat) (l : List (Fld × Nat)) (d : Dev) {f : Fld} (h1 : f.key ≠ WEB.EPOCH_STATUS.STATE.key)
    (h2 : f.key ≠ WEB.EPOCH_ID.ARMED_ID.key) : (staged e id l d).rd f = d.rd f :=
  staged_keeps e id l d f (by simp [h1, h2])

/-- STAGE of one field on a standby. -/
theorem stageIn_spec {d : Dev} (ha : d.isActive = false) (e id v : Nat) {f : Fld}
    (hf : (pageFields (f.key / 32 / 4096)).find? (fun g => g.key == f.key && g.acc == .rws) = some f) :
    let y := stageIn e id [(f.key, v)] d
    y.ep.frozen = some [(f, v % 2 ^ f.width)] ∧ y.ep.next = [] ∧ y.ep.target = e ∧ y.ep.id = id ∧ y.rd WEB.EPOCH_STATUS.STATE = 2 ∧
    y.rd WEB.EPOCH_ID.ARMED_ID = id % 65536 ∧ y.out = .twin .stageAck [(id : Int)] :: d.out ∧
    ((∃ q ∈ d.ep.next, q.1.key ≠ f.key) → y.rd SYS.STATUS.STBY_STAGE_LOST = 1) ∧
    (d.ep.next = [] → y.rd SYS.STATUS.STBY_STAGE_LOST = d.rd SYS.STATUS.STBY_STAGE_LOST) ∧
    d.KeepsRegs y [WEB.EPOCH_STATUS.STATE, WEB.EPOCH_ID.ARMED_ID, SYS.STATUS.STBY_STAGE_LOST, Com.IRQ_RAW Page.SYS,
      Com.ERR_CNT Page.SYS] := by
  intro y
  have hy : y = _ := stageIn_one ha e id v hf
  clear_value y
  subst hy
  generalize hl : [(f, v % 2 ^ f.width)] = l
  have hstate : (staged e id l d).rd WEB.EPOCH_STATUS.STATE = 2 := Dev.rd_wr_same _ _ _
  have harmed : (staged e id l d).rd WEB.EPOCH_ID.ARMED_ID = id % 65536 :=
    (Dev.rd_wr_other _ _ _ _ (by decide)).trans (Dev.rd_wr_same _ _ _)
  have hkept : d.KeepsKeys (staged e id l d) (· ∈ [WEB.EPOCH_STATUS.STATE, WEB.EPOCH_ID.ARMED_ID, SYS.STATUS.STBY_STAGE_LOST,
      Com.IRQ_RAW Page.SYS, Com.ERR_CNT Page.SYS].map Fld.key) :=
    Dev.KeepsKeys.mono (staged_keeps e id l d) fun k hk => by
      simp only [List.map_cons, List.map_nil, List.mem_cons, List.not_mem_nil, or_false] at hk ⊢
      tauto
  by_cases hlost : stageLost d l = true
  · rw [if_pos hlost]
    have hsame {g : Fld} (h1 : g.key ≠ SYS.STATUS.STBY_STAGE_LOST.key) (h2 : g.key ≠ (Com.IRQ_RAW Page.SYS).key)
        (h3 : g.key ≠ (Com.ERR_CNT Page.SYS).key) : ((((staged e id l d).wr SYS.STATUS.STBY_STAGE_LOST 1).irq Page.SYS
        SYS.irq.STBY_STAGE_LOST).emit (.twin .stageAck [(id : Int)])).rd g = (staged e id l d).rd g :=
      (Dev.rd_irq_other _ _ _ _ h2 h3).trans (Dev.rd_wr_other _ _ _ _ h1)
    refine ⟨by simp; rfl, by simp; rfl, by simp; rfl, by simp; rfl, ?_, ?_, by simp; rfl, fun _ => ?_, fun hnil => ?_, ?_⟩
    · rw [hsame (by decide) (by decide) (by decide), hstate]
    · rw [hsame (by decide) (by decide) (by decide), harmed]
    · exact (Dev.rd_irq_other _ _ _ _ (by decide) (by decide)).trans (Dev.rd_wr_same _ _ _)
    · simp [stageLost, hnil] at hlost
    · exact Dev.KeepsKeys.of_regs ((hkept.wr (f := SYS.STATUS.STBY_STAGE_LOST) (by simp) 1).irq (by simp) (by simp) _) rfl
  · rw [if_neg hlost]
    refine ⟨rfl, rfl, rfl, rfl, hstate, harmed, rfl, fun ⟨q, hq, hne⟩ => ?_, fun _ => ?_, Dev.KeepsKeys.of_regs hkept rfl⟩
    · refine absurd (List.any_eq_true.2 ⟨q, hq, ?_⟩) hlost
      simp [← hl, Ne.symm hne]
    · exact staged_lost_other e id l d (by decide) (by decide)

end Sys2Proof.Machine
end

section
/-! SUPPORT. What a standby takes of the marker's, the valves' and the tag stream's messages (R247, R304, R330, R332). -/

namespace Sys2Proof.Machine

/-! ## CREDIT_G, FAULT_EV, COUNTS -/

theorem creditG_one {d : Dev} (ha : d.isActive = false) (p : Fin 16) (g : Nat) :
    creditG [(p.val, g)] d = d.updPort p fun q => { q with snoopG := g } := by
  simp [creditG, ha, p.isLt]

theorem faultEv_standby {d : Dev} (ha : d.isActive = false) (target : Fin 20) (cause : Nat) (latched : Bool) :
    faultEv target cause latched d = d.wr (if target.val < 16 then VALVE.FAULT.CAUSE target.val else HSG.FAULT.CAUSE (target.val - 16))
      (if latched then cause else 0) := by
  simp [faultEv, ha]

theorem countsMsg_one {d : Dev} (ha : d.isActive = false) (k v : Nat) :
    countsMsg [(k, v)] d = d.updTwin fun t => { t with mirror := RegFile.set t.mirror k v 0 } := by
  simp [countsMsg, ha]

/-! ## The slots -/

theorem Dev.rd_updTwin (d : Dev) (g : TwinSt → TwinSt) (f : Fld) : (d.updTwin g).rd f = d.rd f := rfl

theorem slotShow_keeps (d : Dev) : d.KeepsKeys (slotShow d) (· / 131072 ∈ [Page.MARK]) :=
  ((((Dev.KeepsKeys.refl d _).wr (f := MARK.SLOT_STAT0.FREE) (by decide) _).wrSat (f := MARK.SLOT_STAT0.ARMED) (by decide) _).wrSat
    (f := MARK.SLOT_STAT1.RUN) (by decide) _).wrSat (f := MARK.SLOT_STAT1.DONE) (by decide) _

theorem slotShow_rd (d : Dev) {f : Fld} (h : f.key ∉ [MARK.SLOT_STAT0.FREE, MARK.SLOT_STAT0.ARMED, MARK.SLOT_STAT1.RUN,
    MARK.SLOT_STAT1.DONE].map Fld.key) : (slotShow d).rd f = d.rd f :=
  ((((Dev.KeepsKeys.refl d _).wr (f := MARK.SLOT_STAT0.FREE) (by simp) _).wrSat (f := MARK.SLOT_STAT0.ARMED) (by simp) _).wrSat
    (f := MARK.SLOT_STAT1.RUN) (by simp) _).wrSat (f := MARK.SLOT_STAT1.DONE) (by simp) _ f h

theorem slotShow_run (d : Dev) :
    (slotShow d).rd MARK.SLOT_STAT1.RUN = min (d.mark.slots.filter fun s => s.state == .run).length 31 := by
  rw [slotShow, Dev.wrSat, Dev.rd_wr_other _ _ _ _ (by decide), Dev.wrSat, Dev.rd_wr_same, show MARK.SLOT_STAT1.RUN.width = 5 from rfl]
  dsimp only
  omega

/-- The device with its one slot as given. -/
def withSlot (x : MSlot) (d : Dev) : Dev := slotShow (d.updMark fun m => { m with slots := [x] })

theorem updMSlot_one {d : Dev} {x : MSlot} (hx : d.mark.slots = [x]) (g : MSlot → MSlot) : d.updMSlot x.idx g = withSlot (g x) d := by
  simp [Dev.updMSlot, Dev.updMSlots, Dev.updMark, hx, withSlot]

theorem withSlot_rd (x : MSlot) (d : Dev) {f : Fld} (h : f.key ∉ [MARK.SLOT_STAT0.FREE, MARK.SLOT_STAT0.ARMED, MARK.SLOT_STAT1.RUN,
    MARK.SLOT_STAT1.DONE].map Fld.key) : (withSlot x d).rd f = d.rd f :=
  slotShow_rd (d.updMark fun m => { m with slots := [x] }) h

theorem withSlot_keeps (x : MSlot) (d : Dev) : d.KeepsKeys (withSlot x d) (· / 131072 ∈ [Page.MARK]) := by
  have hmark : d.KeepsKeys (d.updMark fun m => { m with slots := [x] }) (· / 131072 ∈ [Page.MARK]) := .of_regs (.refl d _) rfl
  exact hmark.trans (slotShow_keeps _)

theorem withSlot_run (x : MSlot) (d : Dev) (h : x.state = .run) : (withSlot x d).rd MARK.SLOT_STAT1.RUN = 1 := by
  rw [withSlot, slotShow_run]
  simp [Dev.updMark, h]

theorem twinLaunch_spec {d : Dev} (ha : d.isActive = false) {x : MSlot} (hx : d.mark.slots = [x]) (firePos fireT energy : Nat) :
    let y := twinLaunch x.idx firePos fireT energy d
    y.mark.slots = [{ x with state := .run, valve := x.ch, firePos := firePos, fireT := fireT }] ∧
    (x.idx, energy) ∈ y.twin.launches ∧ y.rd MARK.SLOT_STAT1.RUN = 1 ∧ y.out = d.out ∧ d.KeepsPages y [Page.MARK] := by
  intro y
  let x' : MSlot := { x with state := .run, valve := x.ch, firePos := firePos, fireT := fireT }
  have hy : y = (withSlot x' d).updTwin fun t => { t with launches := (x.idx, energy) :: t.launches.filter fun l => l.1 != x.idx } := by
    simp only [y, twinLaunch, ha, Bool.false_eq_true, if_false, updMSlot_one hx, x']
  rw [hy]
  refine ⟨rfl, List.mem_cons_self, ?_, rfl, (withSlot_keeps x' d).of_regs rfl⟩
  rw [Dev.rd_updTwin, withSlot_run x' d rfl]

/-! ## The ledger -/

theorem availPut_spec (d : Dev) (v : Int) :
    (availPut d v).rd MARK.AVAIL.UJ = ofSigned 32 v ∧
    (availPut d v).rd2 MARK.SPENT_LO.SPENT MARK.SPENT_HI.SPENT = d.rd2 MARK.SPENT_LO.SPENT MARK.SPENT_HI.SPENT ∧
    d.KeepsKeys (availPut d v) (· / 131072 ∈ [Page.MARK]) ∧ (availPut d v) = { d with regs := (availPut d v).regs } := by
  have honly : d.OnlyKeys (availPut d v) (· ∈ [MARK.AVAIL.UJ, Com.IRQ_RAW Page.MARK, Com.ERR_CNT Page.MARK].map Fld.key) :=
    ((Dev.OnlyKeys.refl d _).wr (f := MARK.AVAIL.UJ) (by simp) _).irqIf (by simp) (by simp) _ _
  obtain ⟨heq, hkeep⟩ := honly
  refine ⟨?_, ?_, hkeep.mono fun k hk => ?_, heq⟩
  · have hlt : ofSigned 32 v < 2 ^ 32 := by
      rw [ofSigned]
      omega
    have hwr : (d.wrS MARK.AVAIL.UJ v).rd MARK.AVAIL.UJ = ofSigned 32 v := (Dev.rd_wr_same _ _ _).trans (Nat.mod_eq_of_lt hlt)
    rw [availPut, Dev.irqIf]
    split
    · rw [Dev.rd_irq_other _ _ _ _ (by decide) (by decide), hwr]
    · exact hwr
  · rw [Dev.rd2, Dev.rd2, hkeep MARK.SPENT_LO.SPENT (by decide), hkeep MARK.SPENT_HI.SPENT (by decide)]
  · simp only [List.map_cons, List.map_nil, List.mem_cons, List.not_mem_nil, or_false] at hk
    rcases hk with rfl | rfl | rfl <;> decide

/-- The slot ended and its reservation gone, before the ledger. -/
def slotEnded (x : MSlot) (result dipT : Nat) (d : Dev) : Dev :=
  (withSlot { x with state := .done, result := result, dipT := dipT } d).updTwin fun t =>
    { t with launches := t.launches.filter fun l => l.1 != x.idx }

theorem slotEnded_rd (x : MSlot) (result dipT : Nat) (d : Dev) {f : Fld} (h : f.key ∉ [MARK.SLOT_STAT0.FREE, MARK.SLOT_STAT0.ARMED,
    MARK.SLOT_STAT1.RUN, MARK.SLOT_STAT1.DONE].map Fld.key) : (slotEnded x result dipT d).rd f = d.rd f :=
  withSlot_rd { x with state := .done, result := result, dipT := dipT } d h

theorem slotEnded_keeps (x : MSlot) (result dipT : Nat) (d : Dev) :
    d.KeepsKeys (slotEnded x result dipT d) (· / 131072 ∈ [Page.MARK]) :=
  (withSlot_keeps { x with state := .done, result := result, dipT := dipT } d).of_regs rfl

theorem slotEnded_launches (x : MSlot) (result dipT : Nat) (d : Dev) : ∀ l ∈ (slotEnded x result dipT d).twin.launches, l.1 ≠ x.idx := by
  simp [slotEnded, Dev.updTwin, List.mem_filter]

/-- Energy that leaves the ledger: AVAIL falls and SPENT rises by it. -/
theorem ledgerSpend_spec (d : Dev) (spent : Nat) :
    let e := addTotal (availPut d (d.rdS MARK.AVAIL.UJ - spent)) MARK.SPENT_LO.SPENT MARK.SPENT_HI.SPENT spent
    e.rd MARK.AVAIL.UJ = ofSigned 32 (d.rdS MARK.AVAIL.UJ - spent) ∧
    e.rd2 MARK.SPENT_LO.SPENT MARK.SPENT_HI.SPENT = (d.rd2 MARK.SPENT_LO.SPENT MARK.SPENT_HI.SPENT + spent) % 2 ^ 64 ∧
    d.KeepsKeys e (· / 131072 ∈ [Page.MARK]) ∧ e = { d with regs := e.regs } := by
  intro e
  obtain ⟨havail, hspent, hkeep, heq⟩ := availPut_spec d (d.rdS MARK.AVAIL.UJ - spent)
  have he : e = (availPut d (d.rdS MARK.AVAIL.UJ - spent)).wr2 MARK.SPENT_LO.SPENT MARK.SPENT_HI.SPENT
      (d.rd2 MARK.SPENT_LO.SPENT MARK.SPENT_HI.SPENT + spent) := by rw [← hspent]; rfl
  rw [he]
  refine ⟨?_, ?_, hkeep.wr2 (by decide) (by decide) _, ?_⟩
  · rw [Dev.wr2, Dev.rd_wr_other _ _ _ _ (by decide), Dev.rd_wr_other _ _ _ _ (by decide), havail]
  · rw [Dev.rd2_wr2 _ (by decide), show MARK.SPENT_LO.SPENT.width = 32 from rfl, show MARK.SPENT_HI.SPENT.width = 32 from rfl]
    omega
  · rw [heq]
    rfl

theorem slotEnd_spec {d : Dev} (ha : d.isActive = false) {x : MSlot} (hx : d.mark.slots = [x]) (result dipT spent : Nat) :
    let y := slotEnd x.idx result dipT spent d
    y.mark.slots = [{ x with state := .done, result := result, dipT := dipT }] ∧ (∀ l ∈ y.twin.launches, l.1 ≠ x.idx) ∧
    y.rd MARK.AVAIL.UJ = ofSigned MARK.AVAIL.UJ.width (d.rdS MARK.AVAIL.UJ - spent) ∧
    y.rd2 MARK.SPENT_LO.SPENT MARK.SPENT_HI.SPENT = (d.rd2 MARK.SPENT_LO.SPENT MARK.SPENT_HI.SPENT + spent) % 2 ^ 64 ∧
    y.out = .twin .slotAck [(x.idx : Int)] :: d.out ∧ d.KeepsPages y [Page.MARK] := by
  intro y
  have hy : y = (addTotal (availPut (slotEnded x result dipT d) ((slotEnded x result dipT d).rdS MARK.AVAIL.UJ - spent))
      MARK.SPENT_LO.SPENT MARK.SPENT_HI.SPENT spent).emit (.twin .slotAck [(x.idx : Int)]) := by
    simp only [y, slotEnd, ha, Bool.false_eq_true, if_false, updMSlot_one hx]
    rfl
  have hold : (slotEnded x result dipT d).rdS MARK.AVAIL.UJ = d.rdS MARK.AVAIL.UJ := by
    rw [Dev.rdS, Dev.rdS, slotEnded_rd _ _ _ _ (by decide)]
  have hold2 : (slotEnded x result dipT d).rd2 MARK.SPENT_LO.SPENT MARK.SPENT_HI.SPENT =
      d.rd2 MARK.SPENT_LO.SPENT MARK.SPENT_HI.SPENT := by
    rw [Dev.rd2, Dev.rd2, slotEnded_rd _ _ _ _ (by decide), slotEnded_rd _ _ _ _ (by decide)]
  obtain ⟨havail, hspent, hkeep, heq⟩ := ledgerSpend_spec (slotEnded x result dipT d) spent
  rw [hold] at havail heq hkeep hspent hy
  rw [hold2] at hspent
  generalize addTotal (availPut (slotEnded x result dipT d) (d.rdS MARK.AVAIL.UJ - spent)) MARK.SPENT_LO.SPENT MARK.SPENT_HI.SPENT
    spent = e at *
  rw [hy]
  refine ⟨?_, ?_, havail, hspent, ?_, Dev.KeepsKeys.of_regs ((slotEnded_keeps x result dipT d).trans hkeep) rfl⟩
  · rw [heq]
    rfl
  · rw [heq]
    exact slotEnded_launches x result dipT d
  · rw [heq]
    rfl

end Sys2Proof.Machine
end

section
/-! SUPPORT. What a standby takes of the tag stream's and the heads' messages (R159, R304, R332). -/

namespace Sys2Proof.Machine

/-! ## PLACED and HOST_ACK -/

theorem hqShow_only (d : Dev) : d.OnlyRegs (hqShow d) [TAG.HQ_DEPTH.N, TAG.HQ_MAX.N] := by
  have hdepth : d.OnlyKeys (d.wrSat TAG.HQ_DEPTH.N d.tags.waiting.length) (· ∈ [TAG.HQ_DEPTH.N, TAG.HQ_MAX.N].map Fld.key) :=
    (Dev.OnlyKeys.refl d _).wr (by simp) _
  unfold hqShow
  extract_lets n d1
  split
  · exact hdepth.wr (by simp) _
  · exact hdepth

theorem hqShow_tags (d : Dev) : (hqShow d).tags = d.tags := by rw [(hqShow_only d).1]

/-- HQ's depth stands on the TAG page. -/
theorem hqShow_keeps (d : Dev) : d.KeepsKeys (hqShow d) (· / 131072 ∈ [Page.TAG]) :=
  Dev.KeepsKeys.mono (hqShow_only d).2 fun k hk => by
    simp only [List.map_cons, List.map_nil, List.mem_cons, List.not_mem_nil, or_false] at hk
    rcases hk with rfl | rfl <;> decide

/-- The one waiting record takes its SSEQ, `n`, and is kept under it. -/
def placedUnder (d : Dev) (r : StreamRec) (n : Nat) : Dev :=
  hqShow (((d.updTags fun t => { t with waiting := [] }).wr TAG.SSEQ.NEXT (n + 1)).updTags fun t =>
    { t with kept := t.kept ++ [(n, { r with words := r.words.set 1 n })] })

theorem placeRec_one {d : Dev} {r : StreamRec} (hw : d.tags.waiting = [r]) : placeRec d r =
    (placedUnder d r (d.rd TAG.SSEQ.NEXT)).toStandby .placed [(r.type : Int), (r.blob : Int), (r.close : Int), (d.rd TAG.SSEQ.NEXT : Int)] := by
  simp [placeRec, passSseq, placedUnder, Dev.updTags, hw]

theorem placedUnder_spec (d : Dev) (r : StreamRec) (n : Nat) :
    (placedUnder d r n).tags.waiting = [] ∧
    (placedUnder d r n).tags.kept = d.tags.kept ++ [(n, { r with words := r.words.set 1 n })] ∧
    (placedUnder d r n).rd TAG.SSEQ.NEXT = (n + 1) % 2 ^ 32 ∧ (placedUnder d r n).mark = d.mark ∧
    d.KeepsKeys (placedUnder d r n) (· / 131072 ∈ [Page.TAG]) := by
  obtain ⟨heq, hkeep⟩ := hqShow_only (((d.updTags fun t => { t with waiting := [] }).wr TAG.SSEQ.NEXT (n + 1)).updTags fun t =>
    { t with kept := t.kept ++ [(n, { r with words := r.words.set 1 n })] })
  have hsseq : d.KeepsKeys (((d.updTags fun t => { t with waiting := [] }).wr TAG.SSEQ.NEXT (n + 1)).updTags fun t =>
      { t with kept := t.kept ++ [(n, { r with words := r.words.set 1 n })] }) (· / 131072 ∈ [Page.TAG]) :=
    (((Dev.KeepsKeys.refl d _).of_regs (e' := d.updTags fun t => { t with waiting := [] }) rfl).wr (by decide) _).of_regs rfl
  refine ⟨?_, ?_, ?_, ?_, hsseq.trans (hqShow_keeps _)⟩
  · rw [placedUnder, heq]; rfl
  · rw [placedUnder, heq]; rfl
  · rw [placedUnder, hkeep TAG.SSEQ.NEXT (by decide)]
    exact Dev.rd_wr_same _ _ _
  · rw [placedUnder, heq]; rfl

theorem placed_one {d : Dev} (ha : d.isActive = false) {r : StreamRec} (ht : r.type ≠ 0x52) (hw : d.tags.waiting = [r]) (first : Nat) :
    placed first [(r.type, r.blob, r.close)] d = placeRec (d.wr TAG.SSEQ.NEXT first) r := by
  have htype : (r.type == 0x52) = false := by simpa using ht
  have hnone : d.mark.slots.find? (fun s => r.type == 0x52 && s.state == .done && s.blob == r.blob && s.close == r.close) = none := by
    simp [htype]
  simp [placed, ha, placedOne, hnone, hw]

theorem placed_spec {d : Dev} (ha : d.isActive = false) {r : StreamRec} (ht : r.type ≠ 0x52) (hw : d.tags.waiting = [r]) {first : Nat}
    (hf : first < 2 ^ 32) :
    let y := placed first [(r.type, r.blob, r.close)] d
    y.tags.waiting = [] ∧ y.tags.kept = d.tags.kept ++ [(first, { r with words := r.words.set 1 first })] ∧
    y.rd TAG.SSEQ.NEXT = (first + 1) % 2 ^ 32 ∧ y.mark = d.mark ∧ d.KeepsPages y [Page.TAG] := by
  intro y
  have hn : (d.wr TAG.SSEQ.NEXT first).rd TAG.SSEQ.NEXT = first := by rw [Dev.rd_wr_same]; exact Nat.mod_eq_of_lt hf
  have hy : y = _ := (placed_one ha ht hw first).trans (placeRec_one (d := d.wr TAG.SSEQ.NEXT first) hw)
  rw [hn, Dev.toStandby_eq] at hy
  obtain ⟨hwait, hkept, hsseq, hmark, hkeep⟩ := placedUnder_spec (d.wr TAG.SSEQ.NEXT first) r first
  have hwr : d.KeepsKeys (d.wr TAG.SSEQ.NEXT first) (· / 131072 ∈ [Page.TAG]) := (Dev.KeepsKeys.refl d _).wr (by decide) _
  rw [hy]
  exact ⟨hwait, hkept, hsseq, hmark, (hwr.trans hkeep).of_regs rfl⟩

/-- A first acknowledgement, of a record that has been placed. -/
theorem ackUpTo_first {d : Dev} {sseq : Nat} (ha : d.tags.acked = none) (hs : sseq < d.rd TAG.SSEQ.NEXT)
    (hn : d.rd TAG.SSEQ.NEXT < 2 ^ 32) (hk : ∀ e ∈ d.tags.kept, e.1 < 2 ^ 32) :
    (ackUpTo d sseq).tags.kept = d.tags.kept.filter (fun e => decide (sseq < e.1)) ∧ (ackUpTo d sseq).tags.acked = some sseq ∧
    (ackUpTo d sseq).regs = d.regs := by
  have hbase {v : Nat} (hv : v < 2 ^ 32) : (v + 2 ^ 33 - (2 ^ 32 - 1 + 1)) % 2 ^ 32 = v := by omega
  have hnot : ¬ d.rd TAG.SSEQ.NEXT ≤ sseq := by omega
  simp only [ackUpTo, ha, Option.elim_none, hbase hn, hbase (show sseq < 2 ^ 32 by omega), if_neg hnot]
  refine ⟨List.filter_congr fun e he => ?_, rfl, rfl⟩
  rw [hbase (hk e he), ← decide_not]
  exact decide_eq_decide.2 Nat.not_le

theorem hostAck_spec {d : Dev} (hst : d.isActive = false) {sseq : Nat} (ha : d.tags.acked = none) (hs : sseq < d.rd TAG.SSEQ.NEXT)
    (hn : d.rd TAG.SSEQ.NEXT < 2 ^ 32) (hk : ∀ e ∈ d.tags.kept, e.1 < 2 ^ 32) :
    (hostAck sseq d).tags.kept = d.tags.kept.filter (fun e => decide (sseq < e.1)) ∧ (hostAck sseq d).tags.acked = some sseq ∧
    d.KeepsPages (hostAck sseq d) [Page.TAG] := by
  have hy : hostAck sseq d = hqShow (ackUpTo d sseq) := by simp [hostAck, hst]
  obtain ⟨hkept, hacked, hregs⟩ := ackUpTo_first ha hs hn hk
  have hkeep : d.KeepsKeys (hqShow (ackUpTo d sseq)) (· / 131072 ∈ [Page.TAG]) :=
    (Dev.KeepsKeys.of_regs (.refl d _) hregs).trans (hqShow_keeps _)
  rw [hy, hqShow_tags]
  exact ⟨hkept, hacked, hkeep⟩

/-! ## CAPTURE -/

/-- The frame in progress with the flags that the active sends. -/
def shownHead (sh cap chk : Bool) (state : Nat) (run : CaptureRun) (h : Head) : Head :=
  { h with cur := h.cur.map fun f => { f with shutter := sh, capture := cap, check := chk }
           left := run.left, retried := run.retried, again := run.again, req := if state = SS.opened ∨ state = SS.failed then h.req else none }

/-- The shutter's state and cause as sent, and the head's frames. -/
def shownShutter (n : Fin 2) (sh cap chk : Bool) (state : Nat) (run : CaptureRun) (d : Dev) : Dev :=
  ((d.wr (THERM.SH_STAT.STATE n) state).wr (THERM.SH_STAT.CAUSE n) run.cause).updHead n (shownHead sh cap chk state run)

theorem captureMsg_active {d : Dev} (ha : d.isActive = true) (n : Fin 2) (sh cap chk : Bool) (state : Nat) (run : CaptureRun) :
    captureMsg n sh cap chk state run.cause run.left run.retried run.again d = d := by
  simp [captureMsg, Dev.isStandby, ha]

/-- A frame that neither captures nor checks, with the shutter neither closing nor failed. -/
theorem captureMsg_plain {d : Dev} (ha : d.isActive = false) (n : Fin 2) (sh : Bool) {state : Nat} (hc : state ≠ SS.closing)
    (hf : state ≠ SS.failed) (run : CaptureRun) :
    captureMsg n sh false false state run.cause run.left run.retried run.again d = shownShutter n sh false false state run d := by
  unfold shownShutter shownHead
  simp [captureMsg, Dev.isStandby, ha, hc, hf]

theorem updHead_heads (d : Dev) (n : Fin 2) (g : Head → Head) : (d.updHead n g).heads[n] = g d.heads[n] := by
  simp [Dev.updHead]

theorem updHead_heads_other (d : Dev) {n k : Fin 2} (h : k ≠ n) (g : Head → Head) : (d.updHead n g).heads[k] = d.heads[k] := by
  have hk : n.val ≠ k.val := fun hv => h (Fin.ext hv.symm)
  simp [Dev.updHead, hk]

theorem shownShutter_spec (d : Dev) (n : Fin 2) (sh cap chk : Bool) (state : Nat) (run : CaptureRun) :
    let y := shownShutter n sh cap chk state run d
    y.rd (THERM.SH_STAT.STATE n) = state % 2 ^ (THERM.SH_STAT.STATE n).width ∧
    y.rd (THERM.SH_STAT.CAUSE n) = run.cause % 2 ^ (THERM.SH_STAT.CAUSE n).width ∧ y.heads[n] = shownHead sh cap chk state run d.heads[n] ∧
    d.KeepsRegs y [THERM.SH_STAT.STATE n, THERM.SH_STAT.CAUSE n] ∧ ∀ k : Fin 2, k ≠ n → y.heads[k] = d.heads[k] := by
  intro y
  have hregs : y.regs = ((d.wr (THERM.SH_STAT.STATE n) state).wr (THERM.SH_STAT.CAUSE n) run.cause).regs := rfl
  have hne : ∀ n : Fin 2, (THERM.SH_STAT.STATE n).key ≠ (THERM.SH_STAT.CAUSE n).key := by decide
  refine ⟨?_, ?_, updHead_heads _ _ _, ?_, fun k hk => updHead_heads_other _ hk _⟩
  · rw [Dev.rd_of_regs_eq hregs, Dev.rd_wr_other _ _ _ _ (hne n), Dev.rd_wr_same]
  · rw [Dev.rd_of_regs_eq hregs, Dev.rd_wr_same]
  · exact Dev.KeepsKeys.of_regs (((Dev.KeepsKeys.refl d _).wr (by simp) _).wr (by simp) _) hregs

/-- The frame in progress, if there is one, is a check frame. -/
def checksNow (n : Fin 2) (d : Dev) : Prop := ∀ f, d.heads[n].cur = some f → f.check = true

/-- What leaves the frame in progress as it was leaves it a check frame. -/
theorem checksNow_updHead {n : Fin 2} {d : Dev} (h : checksNow n d) {g : Head → Head} (hg : ∀ q, (g q).cur = q.cur) :
    checksNow n (d.updHead n g) := by
  intro f hf
  rw [updHead_heads, hg] at hf
  exact h f hf

theorem checksNow_shown (n : Fin 2) (d : Dev) {g : Head → Head} {h : FrameInfo → FrameInfo}
    (hg : (g d.heads[n]).cur = d.heads[n].cur.map h) (hh : ∀ q, (h q).check = true) : checksNow n (d.updHead n g) := by
  intro f hf
  rw [updHead_heads, hg] at hf
  obtain ⟨q, -, rfl⟩ := Option.map_eq_some_iff.1 hf
  exact hh q

/-- The old offsets have ended, and the frame in progress is a check frame with the new ones. -/
def offsetsEnded (n : Fin 2) (d : Dev) : Prop :=
  d.heads[n].old = none ∧ d.heads[n].done = false ∧ ∀ f, d.heads[n].cur = some f → f.oldOfs = false ∧ f.check = true

theorem offsetsEnded_updHead {n : Fin 2} {d : Dev} (h : checksNow n d) {g : Head → Head} {k : FrameInfo → FrameInfo}
    (hold : ∀ q, (g q).old = none) (hdone : ∀ q, (g q).done = false) (hcur : ∀ q, (g q).cur = q.cur.map k)
    (hofs : ∀ f, (k f).oldOfs = false) (hcheck : ∀ f, (k f).check = f.check) : offsetsEnded n (d.updHead n g) := by
  refine ⟨?_, ?_, fun f hf => ?_⟩
  · rw [updHead_heads, hold]
  · rw [updHead_heads, hdone]
  · rw [updHead_heads, hcur] at hf
    obtain ⟨q, hq, rfl⟩ := Option.map_eq_some_iff.1 hf
    exact ⟨hofs q, (hcheck q).trans (h q hq)⟩

/-- A check frame ends the offsets in use until the shutter has opened. -/
theorem captureMsg_check {d : Dev} (ha : d.isActive = false) (n : Fin 2) (sh cap : Bool) (state : Nat) (run : CaptureRun) :
    offsetsEnded n (captureMsg n sh cap true state run.cause run.left run.retried run.again d) := by
  have hst : ¬ (!d.isStandby) = true := by simp [Dev.isStandby, ha]
  rw [captureMsg, if_neg hst]
  extract_lets was first d0 d1 d2 d3 dT
  have h1 : checksNow n d1 := checksNow_shown n _ rfl fun _ => rfl
  have h2 : checksNow n d2 := by
    simp only [d2]
    split
    · exact checksNow_updHead h1 fun _ => rfl
    · exact h1
  have h3 : checksNow n d3 := by
    simp only [d3]
    split
    · exact checksNow_updHead h2 fun _ => rfl
    · exact h2
  rw [if_pos rfl]
  exact offsetsEnded_updHead (d := d3.wrS _ _) h3 (fun _ => rfl) (fun _ => rfl) (fun _ => rfl) (fun _ => rfl) fun _ => rfl

end Sys2Proof.Machine
end

section
/-! SUPPORT. The standby and its active: every message of Table 15.3 together. -/

namespace Sys2Proof.Machine

/-- HEART on a module of a pair, by its state. -/
theorem heart_spec {d : Dev} (hen : d.on TWIN.CTL.EN = true) (hs : d.rd TWIN.STATUS.STATE = 4 ∨ d.rd TWIN.STATUS.STATE = 2) (tb step : Nat)
    (hbm : Bool) {off : Int} (hoff : off = (tb : Int) + d.rd TWIN.LINK_DLY.DLY - d.now) :
    (128 < off.natAbs → (heart tb hbm step d).rd WEB.TB_CTL.LOCKED = 0 ∧ (heart tb hbm step d).time.inBand = 0 ∧
      (heart tb hbm step d).twin.hbm = hbm ∧ (heart tb hbm step d).twin.step = step ∧
      d.KeepsRegs (heart tb hbm step d) [WEB.TB_CTL.LOCKED]) ∧
    (off.natAbs ≤ 32 → d.time.inBand < 63 → d.on WEB.TB_CTL.LOCKED = false →
      (heart tb hbm step d).time.inBand = d.time.inBand + 1 ∧ (heart tb hbm step d).twin.hbm = hbm ∧
      (heart tb hbm step d).twin.step = step ∧ (heart tb hbm step d).regs = d.regs) ∧
    (off.natAbs ≤ 32 → d.time.inBand = 63 → (heart tb hbm step d).rd WEB.TB_CTL.LOCKED = 1 ∧
      d.KeepsRegs (heart tb hbm step d) [WEB.TB_CTL.LOCKED, WEB.TB_RATE.RATE]) := by
  rw [heart_follows hen (follows_of_state hs), ← hoff]
  generalize he : (d.updTwin fun t => { t with hbm := hbm, step := step }) = e
  have hregs : e.regs = d.regs := by rw [← he]; rfl
  have htime : e.time = d.time := by rw [← he]; rfl
  have hhbm : e.twin.hbm = hbm := by rw [← he]; rfl
  have hstep : e.twin.step = step := by rw [← he]; rfl
  have hkeep {S : Nat → Prop} : d.KeepsKeys e S := .of_regs (.refl d S) hregs
  refine ⟨fun hfar => ?_, fun hnear hn hl => ?_, fun hnear hn => ?_⟩
  · rw [timeCompare_far hfar]
    exact ⟨Dev.rd_wr_same _ _ _, rfl, hhbm, hstep, (Dev.KeepsKeys.of_regs hkeep rfl).wr (f := WEB.TB_CTL.LOCKED) (by simp) 0⟩
  · have hl' : e.on WEB.TB_CTL.LOCKED = false := by rw [← he]; exact hl
    rw [timeCompare_counts hnear (by rw [htime]; exact hn) hl']
    exact ⟨congrArg (fun t => t.inBand + 1) htime, hhbm, hstep, hregs⟩
  · obtain ⟨hlocked, -, hkept⟩ := timeCompare_locks hnear (d := e) (by rw [htime, hn])
    exact ⟨hlocked, hkeep.trans hkept⟩

/-- DIGEST against the one settled line of a module that follows. -/
theorem digest_spec {d : Dev} {q : LineDigest} {runs bg n closes : Nat} (hq : d.seg.digests = [q]) (hsettled : digestSettled d q = true)
    (hnone : d.twin.digests = []) :
    (d.rd TWIN.STATUS.STATE = 4 → q.sums = [runs, bg, n, closes] →
      (digest q.wln runs bg n closes d).rd2 TWIN.VER_WLN_LO.WLN TWIN.VER_WLN_HI.WLN = q.wln % 2 ^ 48 ∧
      (digest q.wln runs bg n closes d).rd TWIN.STATUS.STATE = 4 ∧ (digest q.wln runs bg n closes d).seg.digests = [] ∧
      d.KeepsRegs (digest q.wln runs bg n closes d) [TWIN.VER_WLN_LO.WLN, TWIN.VER_WLN_HI.WLN]) ∧
    (d.rd TWIN.STATUS.STATE = 2 → d.twin.applied = true → q.sums = [runs, bg, n, closes] →
      (digest q.wln runs bg n closes d).rd TWIN.STATUS.STATE = 4 ∧ (digest q.wln runs bg n closes d).rd TWIN.STATUS.MIRRORED = 1 ∧
      d.Counted (digest q.wln runs bg n closes d) TWIN.RESYNC_CNT.CNT ∧
      bitOf ((digest q.wln runs bg n closes d).rd (Com.IRQ_RAW Page.TWIN)) TWIN.irq.MIRRORED = true ∧
      d.KeepsPages (digest q.wln runs bg n closes d) [Page.TWIN]) ∧
    (d.rd TWIN.STATUS.STATE = 4 → q.sums ≠ [runs, bg, n, closes] →
      (digest q.wln runs bg n closes d).rd TWIN.STATUS.STATE = 2 ∧ (digest q.wln runs bg n closes d).rd TWIN.STATUS.MIRRORED = 0 ∧
      d.Counted (digest q.wln runs bg n closes d) TWIN.DIFF_CNT.CNT ∧
      bitOf ((digest q.wln runs bg n closes d).rd (Com.IRQ_RAW Page.TWIN)) TWIN.irq.DIFF = true ∧
      (digest q.wln runs bg n closes d).twin.wanted = true ∧ d.KeepsPages (digest q.wln runs bg n closes d) [Page.TWIN]) := by
  refine ⟨fun hs hsame => ?_, fun hs happ hsame => ?_, fun hs hdiff => ?_⟩
  · rw [digest_follows (.inl hs) hq hsettled hnone, ← hsame, beq_self_eq_true, digestCompare_same_standby (d := digestTaken d) hs]
    obtain ⟨hver, hstate, hkeep⟩ := verified_spec (digestTaken d) q.wln
    exact ⟨hver, hstate.trans hs, rfl, hkeep⟩
  · rw [digest_follows (.inr hs) hq hsettled hnone, ← hsame, beq_self_eq_true, digestCompare_same_syncing (d := digestTaken d) hs happ]
    exact mirrored_spec (digestTaken d) q.wln
  · rw [digest_follows (.inl hs) hq hsettled hnone, beq_eq_false_iff_ne.2 (Ne.symm hdiff), digestCompare_differs (d := digestTaken d) hs]
    exact differs_spec (digestTaken d)

/-- An active module heeds none of the messages that its standby takes. -/
theorem active_ignores {s : State} (hup : s.dev.up = true) (ha : s.dev.isActive = true) (gs : List (Nat × Nat))
    (keys : List (Nat × Nat × Nat)) (target : Fin 20) (b : Bool) (n1 n2 n3 n4 : Nat) :
    ∀ c ∈ [Instr.creditG gs, .twinLaunch n1 n2 n3 n4, .slotEnd n1 n2 n3 n4, .faultEv target n1 b, .placed n1 keys, .hostAck n1,
      .counts gs, .stage n1 n2 gs], Gives c s fun d => d = s.dev := by
  intro c hc
  simp only [List.mem_cons, List.not_mem_nil, or_false] at hc
  rcases hc with rfl | rfl | rfl | rfl | rfl | rfl | rfl | rfl
  · exact gives_fromTwin_active (g := creditG gs) rfl hup ha (by simp [creditG, ha])
  · exact gives_fromTwin_active (g := twinLaunch n1 n2 n3 n4) rfl hup ha (by simp [twinLaunch, ha])
  · exact gives_fromTwin_active (g := slotEnd n1 n2 n3 n4) rfl hup ha (by simp [slotEnd, ha])
  · exact gives_fromTwin_active (g := faultEv target n1 b) rfl hup ha (by simp [faultEv, ha])
  · exact gives_fromTwin_active (g := placed n1 keys) rfl hup ha (by simp [placed, ha])
  · exact gives_fromTwin_active (g := hostAck n1) rfl hup ha (by simp [hostAck, ha])
  · exact gives_fromTwin_active (g := countsMsg gs) rfl hup ha (by simp [countsMsg, ha])
  · exact gives_fromTwin_active (g := stageIn n1 n2 gs) rfl hup ha (by simp [stageIn, ha])

/-- Settles O47: message by message, each from its meaning on a standby. -/
theorem standbyFollowsItsActive : Obligations.StandbyFollowsItsActive := by
  refine ⟨fun s tb wln step hbm hup => ⟨fun hen => ?_, fun hen hs hl => ?_, fun hen hs => ⟨fun hfar => ?_, fun hnear hn hl => ?_,
      fun hnear hn => ?_⟩⟩,
    fun s e id f v hup ha hf => ?_, fun s q runs bg n closes hup hq hsettled hnone => ⟨fun hs hsame => ?_, fun hs happ hsame => ?_,
      fun hs hdiff => ?_⟩,
    fun s p g hup ha => ?_, fun s x firePos fireT energy hup ha hx => ?_, fun s x result dipT spent hup ha hx => ?_,
    fun s target cause latched f hup ha hf => ?_, fun s first r hup ha ht htag hw hlt => ?_, fun s sseq hup ha hack hs hn hk => ?_,
    fun s k v hup ha => ?_, fun s n sh cap chk state run hup => ⟨fun ha => ?_, fun ha hc hf => ?_, fun ha => ?_⟩,
    fun s gs keys target b n1 n2 n3 n4 hup ha => active_ignores hup ha gs keys target b n1 n2 n3 n4⟩
  · refine gives_fromTwin (g := heart tb hbm step) rfl hup fun m => ?_
    rw [heart_off (d := { s.dev with marks := m }) hen]
  · refine gives_fromTwin (g := heart tb hbm step) rfl hup fun m => ?_
    rw [heart_fenced (d := { s.dev with marks := m }) hen hs hl]
    obtain ⟨hstate, -, hwanted, hhbm, hstep, hkeep⟩ :=
      enterSyncing_spec (({ s.dev with marks := m } : Dev).updTwin fun t => { t with hbm := hbm, step := step })
    exact ⟨hstate, hwanted, hhbm, hstep, hkeep⟩
  · exact gives_fromTwin (g := heart tb hbm step) rfl hup fun m =>
      (heart_spec (d := { s.dev with marks := m }) hen hs tb step hbm rfl).1 hfar
  · exact gives_fromTwin (g := heart tb hbm step) rfl hup fun m =>
      (heart_spec (d := { s.dev with marks := m }) hen hs tb step hbm rfl).2.1 hnear hn hl
  · exact gives_fromTwin (g := heart tb hbm step) rfl hup fun m =>
      (heart_spec (d := { s.dev with marks := m }) hen hs tb step hbm rfl).2.2 hnear hn
  · exact gives_fromTwin (g := stageIn e id [(f.key, v)]) rfl hup fun m => stageIn_spec (d := { s.dev with marks := m }) ha e id v hf
  · exact gives_fromTwin (g := digest q.wln runs bg n closes) rfl hup fun m =>
      (digest_spec (d := { s.dev with marks := m }) hq hsettled hnone).1 hs hsame
  · exact gives_fromTwin (g := digest q.wln runs bg n closes) rfl hup fun m =>
      (digest_spec (d := { s.dev with marks := m }) hq hsettled hnone).2.1 hs happ hsame
  · exact gives_fromTwin (g := digest q.wln runs bg n closes) rfl hup fun m =>
      (digest_spec (d := { s.dev with marks := m }) hq hsettled hnone).2.2 hs hdiff
  · refine gives_fromTwin (g := creditG [(p.val, g)]) rfl hup fun m => ?_
    rw [creditG_one (d := { s.dev with marks := m }) ha]
    refine ⟨by simp [Dev.updPort], rfl, fun q hq => ?_⟩
    have hpq : p.val ≠ q.val := fun hv => hq (Fin.ext hv.symm)
    simp [Dev.updPort, hpq]
  · exact gives_fromTwin (g := twinLaunch x.idx firePos fireT energy) rfl hup fun m =>
      twinLaunch_spec (d := { s.dev with marks := m }) ha hx firePos fireT energy
  · exact gives_fromTwin (g := slotEnd x.idx result dipT spent) rfl hup fun m =>
      slotEnd_spec (d := { s.dev with marks := m }) ha hx result dipT spent
  · refine gives_fromTwin (g := faultEv target cause latched) rfl hup fun m => ?_
    rw [faultEv_standby (d := { s.dev with marks := m }) ha, ← hf]
    refine ⟨?_, rfl, ?_⟩
    · rw [Dev.rd_wr_same]
      cases latched <;> simp
    · exact (Dev.KeepsKeys.refl s.dev _).wr (f := f) (by simp) _
  · exact gives_fromTwin (g := placed first [(r.type, r.blob, r.close)]) rfl hup fun m =>
      placed_spec (d := { s.dev with marks := m }) ha ht hw hlt
  · exact gives_fromTwin (g := hostAck sseq) rfl hup fun m => hostAck_spec (d := { s.dev with marks := m }) ha hack hs hn hk
  · refine gives_fromTwin (g := countsMsg [(k, v)]) rfl hup fun m => ?_
    rw [countsMsg_one (d := { s.dev with marks := m }) ha]
    refine ⟨?_, fun j hj => ?_, rfl⟩
    · simp only [Dev.updTwin, RegFile.get_set, if_true]
      split <;> simp_all
    · simp [Dev.updTwin, RegFile.get_set, hj]
  · exact gives_fromTwin_active (g := captureMsg n sh cap chk state run.cause run.left run.retried run.again) rfl hup ha
      (captureMsg_active ha n sh cap chk state run)
  · refine gives_fromTwin (g := captureMsg n sh false false state run.cause run.left run.retried run.again) rfl hup fun m => ?_
    rw [captureMsg_plain (d := { s.dev with marks := m }) ha n sh hc hf run]
    obtain ⟨hstate, hcause, hhead, hkeep, hother⟩ := shownShutter_spec { s.dev with marks := m } n sh false false state run
    refine ⟨hstate, hcause, ?_, ?_, ?_, ?_, hkeep, hother⟩ <;> rw [hhead] <;> rfl
  · exact gives_fromTwin (g := captureMsg n sh cap true state run.cause run.left run.retried run.again) rfl hup fun m =>
      captureMsg_check (d := { s.dev with marks := m }) ha n sh cap state run

end Sys2Proof.Machine
end

section
/-! SUPPORT. Encoder channels (R35 to R37): what a count of a channel beside the trigger source changes, and what it leaves. -/

namespace Sys2Proof.Machine

/-- A command that acts outside Dormant, given a module that is awake. -/
theorem gives_awake {c : Instr} {s : State} {g : Dev → Dev} {P : Dev → Prop} (h : exec c s = s.onDev (unlessDormant g))
    (hup : s.dev.up = true) (hawake : dormant s.dev = false) (hP : P (g s.dev)) : Gives c s P :=
  gives_of_onDev h hup (by rw [unlessDormant, if_neg (by simp [hawake])]; exact hP)

/-! ## A channel's own record -/

@[simp] theorem Dev.updEnc_enc_same (d : Dev) (n : Fin 4) (g : EncCh → EncCh) : (d.updEnc n g).enc[n] = g d.enc[n] := by
  simp [Dev.updEnc]

theorem Dev.updEnc_enc_other (d : Dev) {n k : Fin 4} (h : k ≠ n) (g : EncCh → EncCh) : (d.updEnc n g).enc[k] = d.enc[k] := by
  have hk : n.val ≠ k.val := fun hv => h (Fin.ext hv.symm)
  simp [Dev.updEnc, hk]

@[simp] theorem Dev.rd_updEnc (d : Dev) (n : Fin 4) (g : EncCh → EncCh) (f : Fld) : (d.updEnc n g).rd f = d.rd f := rfl

@[simp] theorem encShow_enc (d : Dev) (n : Fin 4) : (encShow d n).enc = d.enc := rfl

/-- What counting is about in a channel: its levels, the raw and the filtered count, the declared direction and the position. -/
def EncCh.tally (c : EncCh) : (Bool × Bool) × Int × Int × Bool × Int := ((c.a, c.b), c.c, c.f, c.rev, c.pos)

/-- One raw count: the band gives the filtered count, which moves the position by `scale` each (R36, R37). -/
def EncCh.count (c : EncCh) (step scale : Int) : EncCh :=
  let band := bandStep (c.c + step) c.f c.rev
  { c with c := c.c + step, f := band.1, rev := band.2.1, pos := c.pos + (band.1 - c.f) * scale }

theorem EncCh.tally_count {x y : EncCh} (h : x.tally = y.tally) (step scale : Int) :
    (x.count step scale).tally = (y.count step scale).tally := by
  simp only [EncCh.tally, Prod.mk.injEq] at h
  obtain ⟨⟨ha, hb⟩, hc, hf, hrev, hpos⟩ := h
  simp only [EncCh.tally, EncCh.count, ha, hb, hc, hf, hrev, hpos]

/-! ## The frame of a count -/

/-- The fields in which counts of a channel show: counts, position, direction and offset, MISSING, standstill and speed. -/
def countFields (n : Fin 4) : List Fld :=
  [ENC.CNT_LO.CNT n, ENC.CNT_HI.CNT n, ENC.FCNT_LO.FCNT n, ENC.FCNT_HI.FCNT n, ENC.CH_POS_LO.CH_POS n, ENC.CH_POS_HI.CH_POS n,
    ENC.CH_STAT.DIR n, ENC.OFS_LO.OFS n, ENC.OFS_HI.OFS n, ENC.INDEX_STAT.MISSING n, ENC.CH_STAT.STANDSTILL n,
    ENC.CH_STAT.SPEED_VALID n]

/-- From `d` to `e` the generator, the other channels and every field but those of `countFields` stayed. -/
structure Dev.CountKept (d e : Dev) (ch : Fin 4) : Prop where
  gen : e.gen = d.gen
  other : ∀ n : Fin 4, n ≠ ch → e.enc[n] = d.enc[n]
  regs : d.KeepsRegs e (countFields ch)

namespace Dev.CountKept
variable {d e : Dev} {ch : Fin 4}

theorem refl (d : Dev) (ch : Fin 4) : d.CountKept d ch := ⟨rfl, fun _ _ => rfl, KeepsKeys.refl _ _⟩

theorem trans {e' : Dev} (h : d.CountKept e ch) (h' : e.CountKept e' ch) : d.CountKept e' ch :=
  ⟨h'.gen.trans h.gen, fun n hn => (h'.other n hn).trans (h.other n hn), KeepsKeys.trans h.regs h'.regs⟩

theorem wr (h : d.CountKept e ch) {f : Fld} (hf : f ∈ countFields ch) (v : Nat) : d.CountKept (e.wr f v) ch :=
  ⟨h.gen, h.other, KeepsKeys.wr h.regs (List.mem_map_of_mem hf) v⟩

theorem wr2S (h : d.CountKept e ch) {lo hi : Fld} (hlo : lo ∈ countFields ch) (hhi : hi ∈ countFields ch) (x : Int) :
    d.CountKept (e.wr2S lo hi x) ch :=
  (h.wr hlo _).wr hhi _

theorem updEnc (h : d.CountKept e ch) (g : EncCh → EncCh) : d.CountKept (e.updEnc ch g) ch :=
  ⟨h.gen, fun n hn => (updEnc_enc_other e hn g).trans (h.other n hn), KeepsKeys.of_regs h.regs rfl⟩

theorem encShow (h : d.CountKept e ch) : d.CountKept (encShow e ch) ch := by
  have hcounts := (h.wr2S (lo := ENC.CNT_LO.CNT ch) (hi := ENC.CNT_HI.CNT ch) (by simp [countFields]) (by simp [countFields]) e.enc[ch].c).wr2S
    (lo := ENC.FCNT_LO.FCNT ch) (hi := ENC.FCNT_HI.FCNT ch) (by simp [countFields]) (by simp [countFields]) e.enc[ch].f
  have hpos := (hcounts.wr2S (lo := ENC.CH_POS_LO.CH_POS ch) (hi := ENC.CH_POS_HI.CH_POS ch) (by simp [countFields]) (by simp [countFields])
    (sar e.enc[ch].pos 24)).wr (f := ENC.CH_STAT.DIR ch) (by simp [countFields]) (b2n e.enc[ch].rev)
  exact hpos.wr2S (lo := ENC.OFS_LO.OFS ch) (hi := ENC.OFS_HI.OFS ch) (by simp [countFields]) (by simp [countFields]) e.enc[ch].ofs

theorem indexMissing (h : d.CountKept e ch) : d.CountKept (indexMissing e ch) ch := by
  unfold Machine.indexMissing
  extract_lets c per gone
  split
  · exact (h.wr (f := ENC.INDEX_STAT.MISSING ch) (by simp [countFields]) 1).updEnc _
  · exact h

theorem speedStep (h : d.CountKept e ch) (n t : Nat) (fresh : Bool) : d.CountKept (speedStep e ch n t fresh) ch :=
  (h.updEnc _).wr (f := ENC.CH_STAT.SPEED_VALID ch) (by simp [countFields]) _

/-! ### What a count leaves readable -/

theorem trigSrc_eq (h : d.CountKept e ch) : trigSrc e = trigSrc d := by
  have hkey : ∀ n : Fin 4, TRIG.CTL.SRC.key ∉ (countFields n).map Fld.key := by decide
  rw [trigSrc, trigSrc, h.regs _ (hkey ch)]

theorem drivingCh_eq (h : d.CountKept e ch) : drivingCh e = drivingCh d := by
  rw [drivingCh, drivingCh, h.gen, h.trigSrc_eq]

theorem encScale_eq (h : d.CountKept e ch) (n : Fin 4) : encScale e n = encScale d n := by
  have hkey : ∀ n k : Fin 4, (ENC.SCALE_LO.SCALE k).key ∉ (countFields n).map Fld.key ∧
      (ENC.SCALE_HI.SCALE k).key ∉ (countFields n).map Fld.key := by decide +kernel
  rw [encScale, encScale, Dev.rd2, Dev.rd2, h.regs _ (hkey ch n).1, h.regs _ (hkey ch n).2]

theorem failoverOn_eq (h : d.CountKept e ch) (n : Fin 4) : e.on (ENC.FO_CFG.EN n) = d.on (ENC.FO_CFG.EN n) := by
  have hkey : ∀ n k : Fin 4, (ENC.FO_CFG.EN k).key ∉ (countFields n).map Fld.key := by decide +kernel
  rw [Dev.on, Dev.on, h.regs _ (hkey ch n)]

/-- The fields of a count are fields of the channel's page. -/
theorem keepsPage (h : d.CountKept e ch) : d.KeepsRegs e (ENC.fields ch) :=
  KeepsKeys.mono h.regs fun _ hk => List.map_subset Fld.key (by simp [countFields, ENC.fields, ENC.fields1]) hk

end Dev.CountKept

/-! ## One raw count -/

theorem indexMissing_tally (d : Dev) (ch : Fin 4) : (indexMissing d ch).enc[ch].tally = d.enc[ch].tally := by
  unfold indexMissing
  extract_lets c per gone
  split
  · rw [Dev.updEnc_enc_same]
    rfl
  · rfl

theorem speedStep_tally (d : Dev) (ch : Fin 4) (n t : Nat) (fresh : Bool) : (speedStep d ch n t fresh).enc[ch].tally = d.enc[ch].tally := by
  unfold speedStep
  extract_lets
  rw [Dev.wrB, Dev.wr_enc, Dev.updEnc_enc_same]
  rfl

/-- A channel after one raw count, shown in its registers. -/
def countShown (d : Dev) (ch : Fin 4) (step : Int) : Dev := encShow (d.updEnc ch fun c => c.count step (encScale d ch)) ch

theorem countShown_kept (d : Dev) (ch : Fin 4) (step : Int) : d.CountKept (countShown d ch step) ch := ((Dev.CountKept.refl d ch).updEnc _).encShow

theorem countShown_enc (d : Dev) (ch : Fin 4) (step : Int) : (countShown d ch step).enc[ch] = d.enc[ch].count step (encScale d ch) :=
  by rw [countShown, encShow_enc, Dev.updEnc_enc_same]

/-- What a filtered count that moved the channel by `delta` does beyond it: the web position and the triggers of the driving channel,
the marks of the trigger source. -/
def countPassed (ch : Fin 4) (delta : Int) (t dly : Nat) (d : Dev) : Dev :=
  let d1 := if drivingCh d = ch then { d with gen := { d.gen with pos := d.gen.pos + delta } } else d
  let d2 := if trigSrc d1 = ch then sourceMark d1 else d1
  if drivingCh d = ch then cross (frameLog d2 t) (t + dly) else d2

theorem countPassed_beside {d : Dev} {ch : Fin 4} (hdrive : ch ≠ drivingCh d) (hsrc : ch ≠ trigSrc d) (delta : Int) (t dly : Nat) :
    countPassed ch delta t dly d = d := by
  simp only [countPassed, if_neg hdrive.symm, if_neg hsrc.symm]

theorem rawCount_eq (d : Dev) (ch : Fin 4) (step : Int) (t : Nat) :
    (rawCount d ch step t).1 =
      if (d.enc[ch].count step (encScale d ch)).f = d.enc[ch].f then countShown d ch step
      else countPassed ch (((d.enc[ch].count step (encScale d ch)).f - d.enc[ch].f) * encScale d ch) t (d.rd TRIG.RING_DLY.VAL)
        (indexMissing (countShown d ch step) ch) := by
  unfold rawCount
  split
  next h => exact congrArg Prod.fst (if_pos h)
  next h => exact congrArg Prod.fst (if_neg h)

/-- One raw count of a channel that neither drives the web nor is the trigger source. -/
theorem rawCount_beside {d : Dev} {ch : Fin 4} (hdrive : ch ≠ drivingCh d) (hsrc : ch ≠ trigSrc d) (step : Int) (t : Nat) :
    d.CountKept (rawCount d ch step t).1 ch ∧
      (rawCount d ch step t).1.enc[ch].tally = (d.enc[ch].count step (encScale d ch)).tally := by
  have hshown := countShown_kept d ch step
  have hkept := hshown.indexMissing
  rw [rawCount_eq]
  split
  · exact ⟨hshown, by rw [countShown_enc]⟩
  · rw [countPassed_beside (by rwa [hkept.drivingCh_eq]) (by rwa [hkept.trigSrc_eq]), indexMissing_tally, countShown_enc]
    exact ⟨hkept, rfl⟩

/-! ## The counts of one stamp -/

theorem stallCheck_off {d : Dev} (h : d.on (ENC.FO_CFG.EN (trigSrc d)) = false) (t : Nat) : stallCheck d t = d := by
  have hcause : foCause d (trigSrc d) 3 t = d := if_pos (by simp [h])
  unfold stallCheck
  extract_lets s b adv
  split
  · exact hcause
  · rfl

/-- A count of a channel beside the trigger source, no failover enabled: the speed is formed, then CNT moves. -/
theorem counts_beside {d : Dev} {ch : Fin 4} (hdrive : ch ≠ drivingCh d) (hsrc : ch ≠ trigSrc d)
    (hfo : d.on (ENC.FO_CFG.EN (trigSrc d)) = false) (step : Int) (t : Nat) :
    d.CountKept (counts d ch step 1 t) ch ∧ (counts d ch step 1 t).enc[ch].tally = (d.enc[ch].count step (encScale d ch)).tally := by
  unfold counts
  generalize bandMany step 1 d.enc[ch].c d.enc[ch].f d.enc[ch].rev = b
  obtain ⟨moved, turned⟩ := b
  simp -zeta only
  split
  · extract_lets d1
    have h1 : d.CountKept d1 ch := (Dev.CountKept.refl d ch).speedStep _ _ _
    have h2 : d.CountKept (d1.wr (ENC.CH_STAT.STANDSTILL ch) 0) ch := h1.wr (by simp [countFields]) 0
    have htally : (d1.wr (ENC.CH_STAT.STANDSTILL ch) 0).enc[ch].tally = d.enc[ch].tally := speedStep_tally d ch _ _ _
    obtain ⟨hkept, hcount⟩ := rawCount_beside (d := d1.wr (ENC.CH_STAT.STANDSTILL ch) 0) (by rwa [h2.drivingCh_eq])
      (by rwa [h2.trigSrc_eq]) step t
    have h3 := h2.trans hkept
    have hstall : stallCheck (countMany ch step t 1 (d1.wr (ENC.CH_STAT.STANDSTILL ch) 0)) t =
        (rawCount (d1.wr (ENC.CH_STAT.STANDSTILL ch) 0) ch step t).1 :=
      stallCheck_off (by rw [countMany, countMany, h3.failoverOn_eq, h3.trigSrc_eq, hfo]) t
    rw [hstall, countsDue, if_neg (by rw [h3.drivingCh_eq]; exact hdrive.symm), hcount, h2.encScale_eq]
    exact ⟨h3, EncCh.tally_count htally _ _⟩
  · exact rawCount_beside hdrive hsrc step t

end Sys2Proof.Machine
end

section
/-! SUPPORT. Encoder and Hall edges (R35, R36, R43). -/

namespace Sys2Proof.Machine

/-! ## What an edge is -/

/-- A channel with the accepted levels taken. -/
def levelsTaken (d : Dev) (ch : Fin 4) (a b : Bool) : Dev := d.updEnc ch fun x => { x with a := a, b := b }

theorem levelsTaken_kept (d : Dev) (ch : Fin 4) (a b : Bool) : d.CountKept (levelsTaken d ch a b) ch := (Dev.CountKept.refl d ch).updEnc _

theorem levelsTaken_enc (d : Dev) (ch : Fin 4) (a b : Bool) : (levelsTaken d ch a b).enc[ch] = { d.enc[ch] with a := a, b := b } :=
  Dev.updEnc_enc_same d ch _

/-- In x4 decoding a change of one level is one count, forward when A leads B (R35). -/
theorem encoderEdge_x4 {d : Dev} {ch : Fin 4} {a b : Bool} (hmode : d.rd (ENC.CFG.MODE ch) = 1) (hdec : d.rd (ENC.CFG.DECODE ch) = 2)
    (hone : ((a != d.enc[ch].a) != (b != d.enc[ch].b)) = true) (delay : Nat) :
    encoderEdge ch a b delay d =
      counts (levelsTaken d ch a b) ch (if (a != d.enc[ch].a) = (a != b) then 1 else -1) 1 (d.now - delay) := by
  have hm : ¬ encMode d ch ≠ 1 := not_not.2 hmode
  unfold encoderEdge
  rw [if_neg hm, hdec]
  generalize d.enc[ch].a = a0 at hone ⊢
  generalize d.enc[ch].b = b0 at hone ⊢
  cases ha : a != a0 with
  | true =>
    have hb : (b != b0) = false := by simpa [ha] using hone
    simp only [hb, Bool.and_false, Bool.false_eq_true, if_false, if_true, levelsTaken, eq_comm (a := true)]
  | false =>
    have hb : (b != b0) = true := by simpa [ha] using hone
    have hdir : (false = (a != b)) ↔ (a == b) = true := by cases a <;> cases b <;> decide
    simp only [hb, Bool.false_and, Bool.false_eq_true, if_false, if_true, levelsTaken, hdir]

/-- No failover cause arises on a channel that is not the trigger source (R49). -/
theorem foCause_beside {d : Dev} {n : Fin 4} (h : n ≠ trigSrc d) (cause t : Nat) : foCause d n cause t = d := if_pos (.inl h)

/-- A channel after a sample at `t` in which both levels changed: QUAD_ERR, one more in QERR_CNT, and the levels taken. -/
def quadErred (d : Dev) (ch : Fin 4) (t : Nat) : Dev :=
  (((levelsTaken d ch (!d.enc[ch].a) (!d.enc[ch].b)).wr (ENC.CH_STAT.QUAD_ERR ch) 1).inc (ENC.QERR_CNT.VAL ch)).updEnc ch
    fun x => { x with qerrTimes := t :: x.qerrTimes.filter fun u => decide (t < u + 16000000) }

theorem quadErred_keeps (d : Dev) (ch : Fin 4) (t : Nat) : d.KeepsRegs (quadErred d ch t) [ENC.CH_STAT.QUAD_ERR ch, ENC.QERR_CNT.VAL ch] :=
  (((Dev.KeepsKeys.refl d _).wr (f := ENC.CH_STAT.QUAD_ERR ch) (by simp) 1).inc (f := ENC.QERR_CNT.VAL ch) (by simp)).of_regs rfl

theorem quadErred_enc (d : Dev) (ch : Fin 4) (t : Nat) : (quadErred d ch t).enc[ch].tally =
    ((!d.enc[ch].a, !d.enc[ch].b), d.enc[ch].c, d.enc[ch].f, d.enc[ch].rev, d.enc[ch].pos) := by
  have hlevels := levelsTaken_enc d ch (!d.enc[ch].a) (!d.enc[ch].b)
  rw [quadErred, Dev.updEnc_enc_same]
  exact congrArg EncCh.tally hlevels

theorem encoderEdge_both {d : Dev} {ch : Fin 4} (hmode : d.rd (ENC.CFG.MODE ch) = 1) (hsrc : ch ≠ trigSrc d) (delay : Nat) :
    encoderEdge ch (!d.enc[ch].a) (!d.enc[ch].b) delay d = quadErred d ch (d.now - delay) := by
  have hm : ¬ encMode d ch ≠ 1 := not_not.2 hmode
  have hkey : ∀ n : Fin 4, TRIG.CTL.SRC.key ∉ [ENC.CH_STAT.QUAD_ERR n, ENC.QERR_CNT.VAL n].map Fld.key := by decide
  have hbeside : ch ≠ trigSrc (quadErred d ch (d.now - delay)) := by
    rwa [trigSrc, quadErred_keeps d ch _ _ (hkey ch)]
  unfold encoderEdge
  rw [if_neg hm]
  refine (if_pos (by simp)).trans ?_
  exact (ite_congr rfl (fun _ => foCause_beside hbeside 2 _) fun _ => rfl).trans (ite_self _)

/-- A Hall edge is one count, in the direction of HALL_DIR (R43). -/
theorem hallEdge_eq {d : Dev} {ch : Fin 4} (hmode : d.rd (ENC.CFG.MODE ch) = 3) (aux : Bool) (delay : Nat) :
    hallEdge ch aux delay d =
      counts d ch (if d.rd (ENC.CFG.HALL_DIR ch) = 1 ∨ (d.rd (ENC.CFG.HALL_DIR ch) = 2 ∧ aux = true) then -1 else 1) 1 (d.now - delay) := by
  have hm : ¬ encMode d ch ≠ 3 := not_not.2 hmode
  unfold hallEdge
  rw [if_neg hm]
  split
  next h => simp [h]
  next h => simp [h]
  next h1 h2 => rw [if_neg (not_or.2 ⟨h1, fun h => h2 h.1⟩)]; rfl

/-! ## The statement -/

/-- What the tally of a channel after a count says, field by field. -/
theorem EncCh.eq_count_of_tally {c x : EncCh} {step scale : Int} (h : x.tally = (c.count step scale).tally) :
    x.c = c.c + step ∧ x.f = (bandStep x.c c.f c.rev).1 ∧ x.rev = (bandStep x.c c.f c.rev).2.1 ∧ x.pos = c.pos + (x.f - c.f) * scale ∧
    x.a = c.a ∧ x.b = c.b := by
  simp only [EncCh.tally, Prod.mk.injEq] at h
  obtain ⟨⟨ha, hb⟩, hc, hf, hrev, hpos⟩ := h
  rw [hc, hf, hrev, hpos]
  exact ⟨rfl, rfl, rfl, rfl, ha, hb⟩

/-- Settles O12: a change of one level and a Hall edge are one raw count, a change of both is none. -/
theorem edgesMakeCounts : Obligations.EdgesMakeCounts := by
  refine ⟨fun s ch a b delay hup hawake hmode hdec hsrc hdrive hfo hone => gives_awake rfl hup hawake ?_,
    fun s ch delay hup hawake hmode hsrc => gives_awake rfl hup hawake ?_,
    fun s ch aux delay hup hawake hmode hsrc hdrive hfo => gives_awake rfl hup hawake ?_⟩
  · have htaken := levelsTaken_kept s.dev ch a b
    obtain ⟨hkept, htally⟩ := counts_beside (by rwa [htaken.drivingCh_eq]) (by rwa [htaken.trigSrc_eq])
      (by rwa [htaken.failoverOn_eq, htaken.trigSrc_eq]) (if (a != s.dev.enc[ch].a) = (a != b) then 1 else -1) (s.dev.now - delay)
    rw [levelsTaken_enc, htaken.encScale_eq] at htally
    obtain ⟨hc, hf, hrev, hpos, ha, hb⟩ := EncCh.eq_count_of_tally htally
    have hall := htaken.trans hkept
    rw [encoderEdge_x4 hmode hdec hone]
    exact ⟨hc, hf, hrev, hpos, ha, hb, hall.gen, hall.keepsPage, hall.other⟩
  · have htally := quadErred_enc s.dev ch (s.dev.now - delay)
    simp only [EncCh.tally, Prod.mk.injEq] at htally
    obtain ⟨⟨ha, hb⟩, hc, hf, -, hpos⟩ := htally
    have hkey : ∀ n : Fin 4, (ENC.CH_STAT.QUAD_ERR n).key ≠ (ENC.QERR_CNT.VAL n).key := by decide
    rw [encoderEdge_both hmode hsrc]
    refine ⟨?_, ?_, hc, hf, hpos, ha, hb, quadErred_keeps _ _ _⟩
    · rw [quadErred, Dev.rd_updEnc, Dev.inc, Dev.rd_addCnt_other _ _ _ _ (hkey ch), Dev.rd_wr_same]
      rfl
    · rw [Dev.Counted, quadErred, Dev.rd_updEnc, Dev.rd_inc_same, Dev.rd_wr_other _ _ _ _ (hkey ch).symm]
      rfl
  · obtain ⟨hkept, htally⟩ := counts_beside hdrive hsrc hfo
      (if s.dev.rd (ENC.CFG.HALL_DIR ch) = 1 ∨ (s.dev.rd (ENC.CFG.HALL_DIR ch) = 2 ∧ aux = true) then -1 else 1) (s.dev.now - delay)
    obtain ⟨hc, hf, -, hpos, -, -⟩ := EncCh.eq_count_of_tally htally
    rw [hallEdge_eq hmode]
    exact ⟨hc, hf, hpos, hkept.gen, hkept.keepsPage, hkept.other⟩

end Sys2Proof.Machine
end

section
/-! SUPPORT. Index events (R38, R39) and SSI readings (R42, R453). -/

namespace Sys2Proof.Machine

/-! ## The index -/

/-- The reference index loads OFS (R38). -/
theorem indexEvent_reference {d : Dev} {ch : Fin 4} (hmode : d.rd (ENC.CFG.MODE ch) = 1) (hgate : indexGate d ch = true)
    (hlatch : d.rd (ENC.LATCH_CTL.SRC ch) ≠ 1) (hper : d.rd (ENC.INDEX_PERIOD.PERIOD ch) ≠ 0) (hdue : d.enc[ch].refDue = true) (delay : Nat) :
    indexEvent ch delay d = encShow (d.updEnc ch fun c => { c with
      ofs := (d.rd (ENC.INDEX_PHASE.PHASE ch) : Int) - c.f - d.enc[ch].pendingCorr, refDue := false
      lastIndex := (d.rd (ENC.INDEX_PHASE.PHASE ch) : Int) }) ch := by
  have hm : ¬ (encMode d ch ≠ 1 ∨ indexGate d ch = false) := by simp [encMode, hmode, hgate]
  simp only [indexEvent, if_neg hm, if_neg hlatch, if_neg hper, hdue, if_true]

/-- The signed difference that a later index event forms (R38). -/
def indexError (d : Dev) (ch : Fin 4) : Int :=
  indexDiff d.enc[ch].corrected (d.rd (ENC.INDEX_PHASE.PHASE ch)) (d.rd (ENC.INDEX_PERIOD.PERIOD ch))

/-- What every later index event shows: the difference, and one event more. -/
def indexNoted (d : Dev) (ch : Fin 4) : Dev :=
  ((d.wrS (ENC.INDEX_ERR.D ch) (indexError d ch)).wr (ENC.INDEX_STAT.COUNT ch) (d.rd (ENC.INDEX_STAT.COUNT ch) + 1)).updEnc ch
    fun c => { c with lastIndex := c.corrected }

/-- In Report mode a later index event is shown, with MISMATCH when the difference is not 0 (Table 2.2). -/
theorem indexEvent_report {d : Dev} {ch : Fin 4} (hmode : d.rd (ENC.CFG.MODE ch) = 1) (hgate : indexGate d ch = true)
    (hlatch : d.rd (ENC.LATCH_CTL.SRC ch) ≠ 1) (hper : d.rd (ENC.INDEX_PERIOD.PERIOD ch) ≠ 0) (hdue : d.enc[ch].refDue = false)
    (hreport : d.rd (ENC.INDEX_CFG.MODE ch) = 1) (delay : Nat) :
    indexEvent ch delay d =
      if indexError d ch = 0 then indexNoted d ch else (indexNoted d ch).wr (ENC.INDEX_STAT.MISMATCH ch) 1 := by
  have hm : ¬ (encMode d ch ≠ 1 ∨ indexGate d ch = false) := by simp [encMode, hmode, hgate]
  simp only [indexEvent, if_neg hm, if_neg hlatch, if_neg hper, hdue, hreport, Bool.false_eq_true, if_false]
  exact ite_congr (by simp [indexError]) (fun _ => rfl) fun _ => rfl

theorem indexNoted_enc (d : Dev) (ch : Fin 4) : (indexNoted d ch).enc[ch] = { d.enc[ch] with lastIndex := d.enc[ch].corrected } :=
  Dev.updEnc_enc_same _ ch _

theorem indexNoted_keeps (d : Dev) (ch : Fin 4) : d.KeepsRegs (indexNoted d ch) [ENC.INDEX_ERR.D ch, ENC.INDEX_STAT.COUNT ch] :=
  (((Dev.KeepsKeys.refl d _).wrS (f := ENC.INDEX_ERR.D ch) (by simp) _).wr (f := ENC.INDEX_STAT.COUNT ch) (by simp) _).of_regs rfl

theorem indexNoted_rd (d : Dev) (ch : Fin 4) :
    (indexNoted d ch).rd (ENC.INDEX_ERR.D ch) =
      ofSigned (ENC.INDEX_ERR.D ch).width (indexError d ch) % 2 ^ (ENC.INDEX_ERR.D ch).width ∧
    (indexNoted d ch).rd (ENC.INDEX_STAT.COUNT ch) = (d.rd (ENC.INDEX_STAT.COUNT ch) + 1) % 2 ^ (ENC.INDEX_STAT.COUNT ch).width := by
  have hkey : ∀ n : Fin 4, (ENC.INDEX_ERR.D n).key ≠ (ENC.INDEX_STAT.COUNT n).key := by decide
  refine ⟨?_, ?_⟩
  · rw [indexNoted, Dev.rd_updEnc, Dev.rd_wr_other _ _ _ _ (hkey ch), Dev.wrS, Dev.rd_wr_same]
  · rw [indexNoted, Dev.rd_updEnc, Dev.rd_wr_same]

theorem indexEvent_report_spec {d : Dev} {ch : Fin 4} (hmode : d.rd (ENC.CFG.MODE ch) = 1) (hgate : indexGate d ch = true)
    (hlatch : d.rd (ENC.LATCH_CTL.SRC ch) ≠ 1) (hper : d.rd (ENC.INDEX_PERIOD.PERIOD ch) ≠ 0) (hdue : d.enc[ch].refDue = false)
    (hreport : d.rd (ENC.INDEX_CFG.MODE ch) = 1) (delay : Nat) :
    (indexEvent ch delay d).rd (ENC.INDEX_ERR.D ch) =
      ofSigned (ENC.INDEX_ERR.D ch).width (indexError d ch) % 2 ^ (ENC.INDEX_ERR.D ch).width ∧
    (indexEvent ch delay d).rd (ENC.INDEX_STAT.COUNT ch) =
      (d.rd (ENC.INDEX_STAT.COUNT ch) + 1) % 2 ^ (ENC.INDEX_STAT.COUNT ch).width ∧
    (indexError d ch ≠ 0 → (indexEvent ch delay d).rd (ENC.INDEX_STAT.MISMATCH ch) = 1) ∧
    (indexEvent ch delay d).enc[ch].ofs = d.enc[ch].ofs ∧ (indexEvent ch delay d).enc[ch].slew = d.enc[ch].slew ∧
    (indexEvent ch delay d).enc[ch].pos = d.enc[ch].pos ∧ (indexEvent ch delay d).gen = d.gen ∧
    d.KeepsRegs (indexEvent ch delay d) [ENC.INDEX_ERR.D ch, ENC.INDEX_STAT.COUNT ch, ENC.INDEX_STAT.MISMATCH ch] := by
  have hkeys : ∀ n : Fin 4, (ENC.INDEX_ERR.D n).key ≠ (ENC.INDEX_STAT.MISMATCH n).key ∧
      (ENC.INDEX_STAT.COUNT n).key ≠ (ENC.INDEX_STAT.MISMATCH n).key := by decide
  obtain ⟨hd, hc⟩ := hkeys ch
  obtain ⟨herr, hcount⟩ := indexNoted_rd d ch
  have hkeep : d.KeepsKeys (indexNoted d ch)
      (· ∈ [ENC.INDEX_ERR.D ch, ENC.INDEX_STAT.COUNT ch, ENC.INDEX_STAT.MISMATCH ch].map Fld.key) :=
    (Dev.keepsRegs_iff.1 (indexNoted_keeps d ch)).mono (by simp +contextual [or_imp])
  rw [indexEvent_report hmode hgate hlatch hper hdue hreport]
  by_cases hx : indexError d ch = 0
  · rw [if_pos hx, indexNoted_enc]
    exact ⟨herr, hcount, fun hne => absurd hx hne, rfl, rfl, rfl, rfl, hkeep⟩
  · rw [if_neg hx, Dev.wr_enc, indexNoted_enc, Dev.rd_wr_other _ _ _ _ hd, Dev.rd_wr_other _ _ _ _ hc]
    exact ⟨herr, hcount, fun _ => Dev.rd_wr_same _ _ _, rfl, rfl, rfl, rfl,
      hkeep.wr (f := ENC.INDEX_STAT.MISMATCH ch) (by simp) 1⟩

/-! ## SSI -/

/-- The clock edges of a reading (R42): BITS + 1, and one more with parity. -/
def ssiEdges (d : Dev) (ch : Fin 4) : Nat :=
  d.rd (ENC.SSI_CFG.BITS ch) + (if d.rd (ENC.SSI_CFG.PAR ch) = 1 ∨ d.rd (ENC.SSI_CFG.PAR ch) = 2 then 2 else 1)

theorem ssiReadStart_due {d : Dev} {ch : Fin 4} (hmode : d.rd (ENC.CFG.MODE ch) = 2) (hactive : d.isStandby = false)
    (hdue : d.enc[ch].ssiNext ≤ d.now) :
    ssiReadStart ch d = (d.emit (.ssiClock ch.val (ssiEdges d ch))).updEnc ch fun c => { c with
      ssiBusy := true
      ssiNext := d.now + max (16 * d.rd (ENC.SSI_PERIOD.PERIOD ch)) (ssiFrame d ch + 16000 * d.rd (ENC.SSI_CFG.MONO ch)) } := by
  have hgo : ¬ (encMode d ch ≠ 2 ∨ d.isStandby = true ∨ d.now < d.enc[ch].ssiNext) :=
    not_or.2 ⟨not_not.2 hmode, not_or.2 ⟨by simp [hactive], Nat.not_lt.2 hdue⟩⟩
  unfold ssiReadStart
  exact if_neg hgo

/-- The value of a reading: the frame's data at its width, out of Gray code where the encoder sends it (R42). -/
def ssiValue (d : Dev) (ch : Fin 4) (raw : Nat) : Nat :=
  if d.on (ENC.SSI_CFG.GRAY ch) then grayToBin (d.rd (ENC.SSI_CFG.BITS ch)) (raw % 2 ^ d.rd (ENC.SSI_CFG.BITS ch))
  else raw % 2 ^ d.rd (ENC.SSI_CFG.BITS ch)

/-- A reading that has come in: shown in SSI_RAW, and none under way. -/
def ssiShown (d : Dev) (ch : Fin 4) (raw : Nat) : Dev :=
  (d.wr (ENC.SSI_RAW.RAW ch) (ssiValue d ch raw)).updEnc ch fun c => { c with ssiBusy := false }

/-- A reading accepted as the previous value. -/
def ssiTaken (d : Dev) (ch : Fin 4) (raw : Nat) : Dev :=
  (ssiShown d ch raw).updEnc ch fun c => { c with ssiPrev := some (ssiValue d ch raw), ssiBad := 0 }

theorem ssiShown_enc (d : Dev) (ch : Fin 4) (raw : Nat) : (ssiShown d ch raw).enc[ch] = { d.enc[ch] with ssiBusy := false } :=
  Dev.updEnc_enc_same _ ch _

theorem ssiShown_keeps (d : Dev) (ch : Fin 4) (raw : Nat) : d.KeepsRegs (ssiShown d ch raw) [ENC.SSI_RAW.RAW ch] :=
  ((Dev.KeepsKeys.refl d _).wr (f := ENC.SSI_RAW.RAW ch) (by simp) _).of_regs rfl

theorem ssiTaken_enc (d : Dev) (ch : Fin 4) (raw : Nat) :
    (ssiTaken d ch raw).enc[ch] = { d.enc[ch] with ssiBusy := false, ssiPrev := some (ssiValue d ch raw), ssiBad := 0 } := by
  rw [ssiTaken, Dev.updEnc_enc_same, ssiShown_enc]

theorem ssiTaken_keeps (d : Dev) (ch : Fin 4) (raw : Nat) : d.KeepsRegs (ssiTaken d ch raw) [ENC.SSI_RAW.RAW ch] :=
  Dev.KeepsKeys.of_regs (ssiShown_keeps d ch raw) rfl

theorem ssiReading_busy {d : Dev} {ch : Fin 4} (hmode : d.rd (ENC.CFG.MODE ch) = 2) (raw : Nat) (pb : Bool) (delay : Nat) :
    ssiReading ch true raw pb delay d = ssiDiscard (ssiShown d ch raw) ch (d.now - delay) := by
  have hm : ¬ encMode d ch ≠ 2 := not_not.2 hmode
  unfold ssiReading
  exact (if_neg hm).trans (if_pos rfl)

/-- A discarded reading of a channel that is not the trigger source is counted, and that is all (R42). -/
theorem ssiDiscard_beside {d : Dev} {ch : Fin 4} (hsrc : ch ≠ trigSrc d) (t : Nat) :
    ssiDiscard d ch t = (d.inc (ENC.SSI_ERR_CNT.VAL ch)).updEnc ch fun c => { c with ssiBad := c.ssiBad + 1 } := by
  have hkey : ∀ n : Fin 4, TRIG.CTL.SRC.key ≠ (ENC.SSI_ERR_CNT.VAL n).key := by decide
  have hbeside : ch ≠ trigSrc ((d.inc (ENC.SSI_ERR_CNT.VAL ch)).updEnc ch fun c => { c with ssiBad := c.ssiBad + 1 }) := by
    rwa [trigSrc, Dev.rd_updEnc, Dev.inc, Dev.rd_addCnt_other _ _ _ _ (hkey ch)]
  unfold ssiDiscard
  exact (ite_congr rfl (fun _ => foCause_beside hbeside 4 _) fun _ => rfl).trans (ite_self _)

theorem ssiReading_busy_spec {d : Dev} {ch : Fin 4} (hmode : d.rd (ENC.CFG.MODE ch) = 2) (hsrc : ch ≠ trigSrc d) (raw : Nat) (pb : Bool)
    (delay : Nat) :
    d.Counted (ssiReading ch true raw pb delay d) (ENC.SSI_ERR_CNT.VAL ch) ∧
    (ssiReading ch true raw pb delay d).enc[ch].ssiPrev = d.enc[ch].ssiPrev ∧
    (ssiReading ch true raw pb delay d).enc[ch].c = d.enc[ch].c ∧ (ssiReading ch true raw pb delay d).enc[ch].pos = d.enc[ch].pos ∧
    d.KeepsRegs (ssiReading ch true raw pb delay d) [ENC.SSI_RAW.RAW ch, ENC.SSI_ERR_CNT.VAL ch] := by
  have hkeys : ∀ n : Fin 4, TRIG.CTL.SRC.key ∉ [ENC.SSI_RAW.RAW n].map Fld.key ∧
      (ENC.SSI_ERR_CNT.VAL n).key ∉ [ENC.SSI_RAW.RAW n].map Fld.key := by decide
  have hshown := ssiShown_keeps d ch raw
  have hbeside : ch ≠ trigSrc (ssiShown d ch raw) := by rwa [trigSrc, hshown _ (hkeys ch).1]
  have henc : ((ssiShown d ch raw).inc (ENC.SSI_ERR_CNT.VAL ch)).enc[ch] = { d.enc[ch] with ssiBusy := false } := ssiShown_enc d ch raw
  rw [ssiReading_busy hmode, ssiDiscard_beside hbeside, Dev.updEnc_enc_same, henc]
  refine ⟨?_, rfl, rfl, rfl, ?_⟩
  · rw [Dev.Counted, Dev.rd_updEnc, Dev.rd_inc_same, hshown _ (hkeys ch).2]
  · exact Dev.KeepsKeys.of_regs (((Dev.keepsRegs_iff.1 hshown).mono (by simp +contextual)).inc (f := ENC.SSI_ERR_CNT.VAL ch) (by simp)) rfl

/-- A good reading with no previous value to count against is taken; after three discarded ones it sets SSI_RESYNC too (R42). -/
theorem ssiReading_good {d : Dev} {ch : Fin 4} (hmode : d.rd (ENC.CFG.MODE ch) = 2) (hpar : d.rd (ENC.SSI_CFG.PAR ch) = 0) (raw : Nat)
    (pb : Bool) (delay : Nat) (h : 3 ≤ d.enc[ch].ssiBad ∨ d.enc[ch].ssiPrev = none) :
    ssiReading ch false raw pb delay d =
      if 3 ≤ d.enc[ch].ssiBad then (ssiTaken d ch raw).wr (ENC.CH_STAT.SSI_RESYNC ch) 1 else ssiTaken d ch raw := by
  have hm : ¬ encMode d ch ≠ 2 := not_not.2 hmode
  have hbad : (ssiShown d ch raw).enc[ch].ssiBad = d.enc[ch].ssiBad := by rw [ssiShown_enc]
  unfold ssiReading
  refine (if_neg hm).trans ((if_neg (by simp [hpar])).trans ?_)
  refine ite_congr (congrArg (3 ≤ ·) hbad) (fun _ => rfl) fun hlt => ?_
  have hprev : (ssiShown d ch raw).enc[ch].ssiPrev = none := by rw [ssiShown_enc]; exact h.resolve_left hlt
  split
  next => rfl
  next old hold => exact absurd (hprev.symm.trans hold) nofun

/-- On a standby the first received clock edge opens a reading of the frame (R453). -/
theorem ssiClockEdge_standby {d : Dev} {ch : Fin 4} (hmode : d.rd (ENC.CFG.MODE ch) = 2) (hstandby : d.isStandby = true) :
    ssiClockEdge ch d = d.updEnc ch fun c => { c with ssiBusy := true, ssiNext := d.now } :=
  if_neg (not_or.2 ⟨not_not.2 hmode, by simp [hstandby]⟩)

/-! ## The statement -/

/-- Settles O13: the reference index and Report mode; an SSI reading opened, discarded, taken first, taken again, and heard. -/
theorem indexAndSsiReadings : Obligations.IndexAndSsiReadings := by
  refine ⟨fun s ch delay hup hawake hmode hgate hlatch hper hdue => gives_awake rfl hup hawake ?_,
    fun s ch delay hup hawake hmode hgate hlatch hper hdue hreport => gives_awake rfl hup hawake ?_,
    fun s ch hup hawake hmode hactive hdue => gives_awake rfl hup hawake ?_,
    fun s ch raw pb delay hup hawake hmode hsrc => gives_awake rfl hup hawake ?_,
    fun s ch raw pb delay hup hawake hmode hpar hgray hprev hbad => gives_awake rfl hup hawake ?_,
    fun s ch raw pb delay hup hawake hmode hpar hbad => gives_awake rfl hup hawake ?_,
    fun s ch hup hawake hmode hstandby => gives_awake rfl hup hawake ?_⟩
  · have hkept (g : EncCh → EncCh) : s.dev.CountKept (encShow (s.dev.updEnc ch g) ch) ch := ((Dev.CountKept.refl s.dev ch).updEnc g).encShow
    rw [indexEvent_reference hmode hgate hlatch hper hdue, encShow_enc, Dev.updEnc_enc_same]
    refine ⟨?_, rfl, rfl, rfl, rfl, (hkept _).keepsPage⟩
    simp only [EncCh.pendingCorr]
    omega
  · exact indexEvent_report_spec hmode hgate hlatch hper hdue hreport delay
  · rw [ssiReadStart_due hmode hactive hdue, Dev.updEnc_enc_same]
    exact ⟨rfl, rfl, Nat.add_le_add_left (le_max_of_le_right (Nat.le_add_left _ _)) _, rfl⟩
  · exact ssiReading_busy_spec hmode hsrc raw pb delay
  · have hgood : ssiReading ch false raw pb delay s.dev = ssiTaken s.dev ch raw := by
      rw [ssiReading_good hmode hpar raw pb delay (.inr hprev), if_neg (Nat.not_le.2 hbad)]
    have hvalue : ssiValue s.dev ch raw = raw % 2 ^ s.dev.rd (ENC.SSI_CFG.BITS ch) := if_neg (by simp [Dev.on, hgray])
    rw [hgood, ssiTaken_enc, hvalue]
    exact ⟨rfl, rfl, rfl, rfl, ssiTaken_keeps _ _ _⟩
  · rw [ssiReading_good hmode hpar raw pb delay (.inl hbad), if_pos hbad, Dev.wr_enc, ssiTaken_enc]
    exact ⟨Dev.rd_wr_same _ _ _, rfl, rfl, rfl,
      ((Dev.keepsRegs_iff.1 (ssiTaken_keeps s.dev ch raw)).mono (by simp +contextual)).wr (f := ENC.CH_STAT.SSI_RESYNC ch) (by simp) 1⟩
  · rw [ssiClockEdge_standby hmode hstandby, Dev.updEnc_enc_same]
    exact ⟨rfl, rfl, rfl⟩

end Sys2Proof.Machine
end

section
/-! SUPPORT. Camera ports: what is left by an operation on one port, and the port's own record. -/

namespace Sys2Proof.Machine

/-! ## Reading through an operation -/

@[simp] theorem Dev.rd_emit (d : Dev) (o : Out) (f : Fld) : (d.emit o).rd f = d.rd f := rfl

@[simp] theorem Dev.rd_updPort (d : Dev) (p : Fin 16) (g : Port → Port) (f : Fld) : (d.updPort p g).rd f = d.rd f := rfl

/-- A value that the field has room for is read as written. -/
theorem Dev.rd_wr_fits (d : Dev) {f : Fld} {v : Nat} (h : v < 2 ^ f.width) : (d.wr f v).rd f = v := by
  rw [Dev.rd_wr_same, Nat.mod_eq_of_lt h]

theorem Dev.rd_inc_other (d : Dev) {f g : Fld} (hk : g.key ≠ f.key) : (d.inc f).rd g = d.rd g := Dev.rd_addCnt_other d f g 1 hk

theorem Dev.updPort_ports_same (d : Dev) (p : Fin 16) (g : Port → Port) : (d.updPort p g).ports[p] = g d.ports[p] := by
  simp [Dev.updPort]

theorem Dev.updPort_ports_other (d : Dev) {p q : Fin 16} (h : q ≠ p) (g : Port → Port) : (d.updPort p g).ports[q] = d.ports[q] := by
  have hq : p.val ≠ q.val := fun hv => h (Fin.ext hv.symm)
  simp [Dev.updPort, hq]

/-- A fold over a list whose elements each keep within `S`. -/
theorem Dev.OnlyKeys.foldl_mem {α : Type} {S : Nat → Prop} {g : Dev → α → Dev} {l : List α}
    (hg : ∀ (e : Dev), ∀ a ∈ l, e.OnlyKeys (g e a) S)
    {d e : Dev} (h : d.OnlyKeys e S) : d.OnlyKeys (l.foldl g e) S := by
  induction l generalizing e with
  | nil => exact h
  | cons a l ih => exact ih (fun e b hb => hg e b (.tail _ hb)) (h.trans (hg e a (.head _)))

/-! ## The frame of a port -/

/-- From `d` to `e` only the record of port `p`, what the module has sent, and registers whose keys lie in `S` changed. -/
structure Dev.PortKept (d e : Dev) (p : Fin 16) (S : Nat → Prop) : Prop where
  rest : e = { d with regs := e.regs, ports := e.ports, out := e.out }
  others : ∀ q : Fin 16, q ≠ p → e.ports[q] = d.ports[q]
  regs : d.KeepsKeys e S

/-- The keys of a port's two pages. -/
abbrev portKey (p : Fin 16) (k : Nat) : Prop := k / 131072 ∈ [Page.PORT p, Page.LANE p]

theorem Dev.onlyPort_iff {d e : Dev} {p : Fin 16} : d.OnlyPort e p ↔ d.PortKept e p (portKey p) :=
  ⟨fun ⟨hrest, hothers, hregs⟩ => ⟨hrest, hothers, hregs⟩, fun ⟨hrest, hothers, hregs⟩ => ⟨hrest, hothers, hregs⟩⟩

namespace Dev.PortKept
variable {d e : Dev} {p : Fin 16} {S T : Nat → Prop}

theorem refl (d : Dev) (p : Fin 16) (S : Nat → Prop) : d.PortKept d p S := ⟨rfl, fun _ _ => rfl, .refl _ _⟩

theorem trans {e' : Dev} (h : d.PortKept e p S) (h' : e.PortKept e' p S) : d.PortKept e' p S :=
  ⟨by rw [h'.rest, h.rest], fun q hq => (h'.others q hq).trans (h.others q hq), h.regs.trans h'.regs⟩

theorem mono (h : d.PortKept e p S) (hST : ∀ k, S k → T k) : d.PortKept e p T := ⟨h.rest, h.others, h.regs.mono hST⟩

/-- A change of registers alone. -/
theorem of_onlyKeys (h : d.OnlyKeys e S) : d.PortKept e p S := by
  obtain ⟨hrest, hregs⟩ := h
  exact ⟨by rw [hrest], fun q _ => by rw [hrest], hregs⟩

theorem wr (h : d.PortKept e p S) {f : Fld} (hf : S f.key) (v : Nat) : d.PortKept (e.wr f v) p S :=
  h.trans (of_onlyKeys ((OnlyKeys.refl e S).wr hf v))

theorem inc (h : d.PortKept e p S) {f : Fld} (hf : S f.key) : d.PortKept (e.inc f) p S := h.wr hf _

theorem irq (h : d.PortKept e p S) {n : Nat} (h1 : S (Com.IRQ_RAW n).key) (h2 : S (Com.ERR_CNT n).key) (b : Nat) :
    d.PortKept (e.irq n b) p S :=
  h.trans (of_onlyKeys ((OnlyKeys.refl e S).irq h1 h2 b))

theorem emit (h : d.PortKept e p S) (o : Out) : d.PortKept (e.emit o) p S :=
  h.trans ⟨rfl, fun _ _ => rfl, (KeepsKeys.refl e S).of_regs rfl⟩

theorem updPort (h : d.PortKept e p S) (g : Port → Port) : d.PortKept (e.updPort p g) p S :=
  h.trans ⟨rfl, fun _ hq => updPort_ports_other e hq g, (KeepsKeys.refl e S).of_regs rfl⟩

theorem ite (c : Prop) [Decidable c] {e' : Dev} (h : d.PortKept e p S) (h' : d.PortKept e' p S) : d.PortKept (if c then e else e') p S := by
  split
  · exact h
  · exact h'

/-- A change within registers of the port's pages is one within the pages. -/
theorem onlyPort {fs : List Fld} (h : d.PortKept e p (· ∈ fs.map Fld.key)) (hfs : ∀ f ∈ fs, portKey p f.key) : d.OnlyPort e p :=
  onlyPort_iff.2 (h.mono fun k hk => by
    obtain ⟨f, hf, rfl⟩ := List.mem_map.1 hk
    exact hfs f hf)

end Dev.PortKept

/-! ## Training steps shared by several commands -/

/-- Back in ACQUIRE: only four fields of LINK_STAT change. -/
theorem toAcquire_rd_other (d : Dev) (p : Fin 16) {f : Fld}
    (h : f.key ∉ [PORT.LINK_STAT.STATE p, PORT.LINK_STAT.RATE p, PORT.LINK_STAT.LANES p, PORT.LINK_STAT.VER p].map Fld.key) :
    (toAcquire d p).rd f = d.rd f := by
  simp only [List.map_cons, List.map_nil, List.mem_cons, List.not_mem_nil, or_false, not_or] at h
  simp [toAcquire, Dev.rd_wr_other, h]

@[simp] theorem toAcquire_state (d : Dev) (p : Fin 16) : linkState (toAcquire d p) p = 1 := by
  simp (disch := clear * -; decide +revert) only [linkState, toAcquire, LS.acquire, Dev.rd_updPort, Dev.rd_wr_other, Dev.rd_wr_fits]

theorem toAcquire_excl (d : Dev) (p : Fin 16) : (toAcquire d p).ports[p].excl = d.ports[p].excl := by
  rw [toAcquire, Dev.updPort_ports_same]
  rfl

@[simp] theorem toAcquire_out (d : Dev) (p : Fin 16) : (toAcquire d p).out = d.out := rfl

theorem toAcquire_onlyPort (d : Dev) (p : Fin 16) : d.PortKept (toAcquire d p) p (portKey p) := by
  unfold toAcquire
  apply_rules [Dev.PortKept.updPort, Dev.PortKept.wr, Dev.PortKept.refl] <;> decide +revert

/-! ## Credits and messages -/

theorem receive_only (d : Dev) (p : Fin 16) (n : Nat) : d.OnlyRegs (receive d p n).2 [PORT.CREDIT_R.R p] := by
  have hcount : d.OnlyRegs (countBlocks d p (packetBlocks n)) [PORT.CREDIT_R.R p] := (Dev.OnlyKeys.refl d _).wr (f := PORT.CREDIT_R.R p) (by simp) _
  unfold receive
  split
  · exact hcount
  · split
    · exact hcount
    · exact Dev.OnlyKeys.refl d _

/-- A link message changes the book alone. -/
theorem receiveMsg_only (d : Dev) (p : Fin 16) (n : Nat) : d.OnlyRegs (receiveMsg d p n) [PORT.CREDIT_R.R p] := receive_only d p _

/-- Outside ACTIVE and SNOOP a link message leaves no trace in the book. -/
theorem receiveMsg_idle {d : Dev} {p : Fin 16} (h5 : linkState d p ≠ 5) (h7 : linkState d p ≠ 7) (n : Nat) : receiveMsg d p n = d := by
  simp [receiveMsg, receive, LS.active, LS.snoop, h5, h7]

theorem restartCredits_spec (d : Dev) (p : Fin 16) : (restartCredits d p).rd (PORT.CREDIT_R.R p) = 0 ∧
    d.OnlyRegs (restartCredits d p) [PORT.CREDIT_G.G p, PORT.CREDIT_R.R p] := by
  refine ⟨?_, ?_⟩
  · simp (disch := clear * -; decide +revert) only [restartCredits, Dev.rd_wr_other, Dev.rd_wr_fits]
  · unfold restartCredits
    exact Dev.onlyRegs_iff.2 (.wr (.wr (.wr (.refl d _) (by simp) _) (by simp) _) (by simp) _)

/-- With no line held the whole grant of 2,048 credits is given again. -/
theorem restartCredits_empty {d : Dev} {p : Fin 16} (h : d.rd (PORT.BUF_USED.B p) = 0) : (restartCredits d p).rd (PORT.CREDIT_G.G p) = 2048 := by
  simp (disch := clear * -; decide +revert) only [restartCredits, h, Dev.rd_wr_fits]

/-! ## Failed attempts -/

/-- A failed attempt is counted, and the port starts again. -/
theorem failedAttempt_spec (d : Dev) (p : Fin 16) : linkState (failedAttempt d p) p = 1 ∧
    d.Counted (failedAttempt d p) (PORT.LINK_STAT.ATTEMPTS p) ∧ d.OnlyPort (failedAttempt d p) p := by
  have hkept : d.PortKept (d.wrSat (PORT.LINK_STAT.ATTEMPTS p) (d.rd (PORT.LINK_STAT.ATTEMPTS p) + 1)) p (portKey p) :=
    (Dev.PortKept.refl d p _).wr (by decide +revert) _
  unfold failedAttempt
  extract_lets d1 d2
  have hrd : d2.rd (PORT.LINK_STAT.ATTEMPTS p) = d1.rd (PORT.LINK_STAT.ATTEMPTS p) ∧ d.PortKept d2 p (portKey p) := by
    unfold d2
    split
    · exact ⟨rfl, hkept⟩
    · exact ⟨rfl, hkept.updPort _⟩
  refine ⟨toAcquire_state d2 p, ?_, Dev.onlyPort_iff.2 (hrd.2.trans (toAcquire_onlyPort d2 p))⟩
  rw [Dev.Counted, toAcquire_rd_other d2 p (by clear * -; decide +revert), hrd.1]
  exact Dev.rd_inc_same d _

/-! ## Leaving ACTIVE -/

/-- With no line of the port, none is closed. -/
theorem closeAll_empty {d : Dev} {p : Fin 16} (h : d.ports[p].lines = []) (flags : List Nat) : closeAll d p flags = d := by
  simp [closeAll, Dev.lines, h, -Fin.getElem_fin]

end Sys2Proof.Machine
end

section
/-! SUPPORT. Training (Table 3.4, R62, R64): each command of the training states. -/

namespace Sys2Proof.Machine

/-! ## Enabling, disabling, retraining -/

theorem portEnable_lights {d : Dev} {p : Fin 16} (h0 : linkState d p = 0) (hh : homing d p ≠ 2) :
    linkState (portEnable p d) p = 1 ∧ (portEnable p d).rd (PORT.LINK_CFG.EN p) = 1 ∧ (portEnable p d).rd (PORT.LINK_STAT.RATE p) = 0 ∧
    (portEnable p d).rd (PORT.LINK_STAT.LANES p) = 0 ∧ (portEnable p d).out = .camTx p.val true :: d.out ∧ d.OnlyPort (portEnable p d) p := by
  have heq : portEnable p d = toAcquire ((d.wr (PORT.LINK_CFG.EN p) 1).emit (.camTx p.val true)) p := by
    simp [portEnable, h0, hh, LS.disabled]
  rw [heq]
  refine ⟨toAcquire_state _ _, ?_, ?_, ?_, rfl, Dev.onlyPort_iff.2 (.trans (.emit (.wr (.refl d p _) ?_ _) _) (toAcquire_onlyPort _ _))⟩
  · rw [toAcquire_rd_other _ _ (by clear * -; decide +revert), Dev.rd_emit, Dev.rd_wr_same]
    rfl
  · simp (disch := clear * -; decide +revert) only [toAcquire, Dev.rd_updPort, Dev.rd_wr_other, Dev.rd_wr_fits]
  · simp (disch := clear * -; decide +revert) only [toAcquire, Dev.rd_updPort, Dev.rd_wr_other, Dev.rd_wr_fits]
  · clear * -; decide +revert

/-- A splitter port of a standby listens only (R79). -/
theorem portEnable_snoops {d : Dev} {p : Fin 16} (h0 : linkState d p = 0) (hh : d.rd (PORT.LINK_CFG.HOMING p) = 2) (hs : d.isStandby = true) :
    linkState (portEnable p d) p = 7 ∧ (portEnable p d).rd (PORT.LINK_CFG.EN p) = 1 ∧ (portEnable p d).out = d.out ∧
    d.OnlyPort (portEnable p d) p := by
  have heq : portEnable p d = (d.wr (PORT.LINK_CFG.EN p) 1).wr (PORT.LINK_STAT.STATE p) 7 := by
    simp [portEnable, h0, homing, hh, hs, LS.disabled, LS.snoop]
  rw [heq]
  refine ⟨Dev.rd_wr_fits _ (by clear * -; decide +revert), ?_, rfl, Dev.onlyPort_iff.2 (.wr (.wr (.refl d p _) ?_ _) ?_ _)⟩
  · simp (disch := clear * -; decide +revert) only [Dev.rd_wr_other, Dev.rd_wr_fits]
  all_goals clear * -; decide +revert

theorem portDisable_dark {d : Dev} {p : Fin 16} (h1 : 1 ≤ linkState d p) (h5 : linkState d p ≠ 5) (hl : d.ports[p].lines = []) :
    linkState (portDisable p d) p = 0 ∧ (portDisable p d).rd (PORT.LINK_CFG.EN p) = 0 ∧ (portDisable p d).out = .camTx p.val false :: d.out ∧
    d.OnlyPort (portDisable p d) p := by
  have heq : portDisable p d = (toAcquire ((d.wr (PORT.LINK_CFG.EN p) 0).emit (.camTx p.val false)) p).wr (PORT.LINK_STAT.STATE p) 0 := by
    have hclose := closeAll_empty (d := (d.wr (PORT.LINK_CFG.EN p) 0).emit (.camTx p.val false)) hl [PF.missing, PF.linkDown]
    simp [portDisable, LS.disabled, LS.active, h5, Nat.ne_of_gt h1, hclose]
  rw [heq]
  refine ⟨Dev.rd_wr_fits _ (by clear * -; decide +revert), ?_, rfl,
    Dev.onlyPort_iff.2 (.wr (.trans (.emit (.wr (.refl d p _) ?_ _) _) (toAcquire_onlyPort _ _)) ?_ _)⟩
  · rw [Dev.rd_wr_other _ _ _ _ (by clear * -; decide +revert), toAcquire_rd_other _ _ (by clear * -; decide +revert), Dev.rd_emit, Dev.rd_wr_same]
    rfl
  all_goals clear * -; decide +revert

theorem retrain_restarts {d : Dev} {p : Fin 16} (he : d.on (PORT.LINK_CFG.EN p) = true)
    (h : linkState d p = 2 ∨ linkState d p = 3 ∨ linkState d p = 4) :
    linkState (retrain p d) p = 1 ∧ (retrain p d).ports[p].chosen = none ∧ (retrain p d).out = d.out ∧ d.OnlyPort (retrain p d) p := by
  have heq : retrain p d = toAcquire d p := by
    rcases h with h | h | h <;> simp [retrain, he, h, LS.disabled, LS.snoop, LS.active, LS.failed]
  rw [heq]
  exact ⟨toAcquire_state _ _, by rw [toAcquire, Dev.updPort_ports_same], rfl, Dev.onlyPort_iff.2 (toAcquire_onlyPort _ _)⟩

theorem retrain_disabled {d : Dev} {p : Fin 16} (h : linkState d p = 0) : retrain p d = d := by simp [retrain, h, LS.disabled]

/-! ## Capabilities -/

theorem blockLockGained_hello {d : Dev} {p : Fin 16} (h : linkState d p = 1) :
    linkState (blockLockGained p 0 d) p = 2 ∧ (blockLockGained p 0 d).rd (LANE.STAT.BLOCK_LOCK p 0) = 1 ∧
    (blockLockGained p 0 d).ports[p].hellos = 0 ∧
    (blockLockGained p 0 d).out = .cam p.val .hello [3, 15, 7, 0, 32768, 0, 0, 0, 0, 0, 0] :: d.out ∧
    d.OnlyPort (blockLockGained p 0 d) p := by
  have heq : blockLockGained p 0 d = (sendHello ((((d.wr (LANE.STAT.BLOCK_LOCK p 0) 1).wr (LANE.STAT.CDR_LOCK p 0) 1).wr
      (LANE.STAT.LOS p 0) 0).wr (PORT.LINK_STAT.STATE p) 2) p).updPort p fun q => { q with hellos := 0 } := by
    simp [blockLockGained, h, LS.acquire, LS.caps]
  rw [heq]
  refine ⟨?_, ?_, by rw [Dev.updPort_ports_same], rfl, Dev.onlyPort_iff.2 (.updPort (.emit (.wr (.wr (.wr (.wr (.refl d p _) ?_ _) ?_ _) ?_ _) ?_ _) _) _)⟩
  · simp (disch := clear * -; decide +revert) only [linkState, sendHello, Dev.rd_updPort, Dev.rd_emit, Dev.rd_wr_fits]
  · simp (disch := clear * -; decide +revert) only [sendHello, Dev.rd_updPort, Dev.rd_emit, Dev.rd_wr_other, Dev.rd_wr_fits]
  all_goals clear * -; decide +revert

theorem capsTimeout_resends {d : Dev} {p : Fin 16} (h : linkState d p = 2) (hn : d.ports[p].hellos < 4) :
    linkState (capsTimeout p d) p = 2 ∧ (capsTimeout p d).ports[p].hellos = d.ports[p].hellos + 1 ∧
    (capsTimeout p d).out = .cam p.val .hello [3, 15, 7, 0, 32768, 0, 0, 0, 0, 0, 0] :: d.out ∧ d.OnlyPort (capsTimeout p d) p := by
  have heq : capsTimeout p d = (sendHello d p).updPort p fun q => { q with hellos := q.hellos + 1 } := by
    simp [capsTimeout, h, hn, LS.caps, -Fin.getElem_fin]
  rw [heq]
  exact ⟨h, by rw [Dev.updPort_ports_same]; rfl, rfl, Dev.onlyPort_iff.2 (.updPort (.emit (.refl d p _) _) _)⟩

theorem capsTimeout_restarts {d : Dev} {p : Fin 16} (h : linkState d p = 2) (hn : 4 ≤ d.ports[p].hellos) :
    linkState (capsTimeout p d) p = 1 ∧ (capsTimeout p d).out = d.out ∧ d.OnlyPort (capsTimeout p d) p := by
  have heq : capsTimeout p d = toAcquire d p := by simp [capsTimeout, h, Nat.not_lt.2 hn, LS.caps, -Fin.getElem_fin]
  rw [heq]
  exact ⟨toAcquire_state _ _, rfl, Dev.onlyPort_iff.2 (toAcquire_onlyPort _ _)⟩

/-- The fields that a camera's HELLO fills. -/
def capFields (p : Fin 16) : List Fld :=
  [PORT.CAM_CAP0.MAX_VER p, PORT.CAM_CAP0.RATE_MASK p, PORT.CAM_CAP0.LANE_MASK p, PORT.CAM_CAP0.FLAGS p, PORT.CAM_CAP0.MAX_LINE p,
    PORT.CAM_CAP1.SET_DELAY p, PORT.CAM_CAP1.TRIG_LAT p, PORT.CAM_ID.ID p 0, PORT.CAM_ID.ID p 1, PORT.CAM_ID.ID p 2, PORT.CAM_ID.ID p 3]

theorem storeCaps_only (d : Dev) (p : Fin 16) (c : CamCaps) : d.OnlyRegs (storeCaps d p c) (capFields p) := by
  unfold storeCaps
  exact Dev.onlyRegs_iff.2 (.wr (.wr (.wr (.wr (.wr (.wr (.wr (.wr (.wr (.wr (.wr (.refl d _) (by simp [capFields]) _) (by simp [capFields]) _)
    (by simp [capFields]) _) (by simp [capFields]) _) (by simp [capFields]) _) (by simp [capFields]) _) (by simp [capFields]) _)
    (by simp [capFields]) _) (by simp [capFields]) _) (by simp [capFields]) _) (by simp [capFields]) _)

theorem storeCaps_rd (d : Dev) (p : Fin 16) (c : CamCaps) : (storeCaps d p c).rd (PORT.CAM_CAP0.MAX_VER p) = c.maxVer % 4 ∧
    (storeCaps d p c).rd (PORT.CAM_CAP0.RATE_MASK p) = c.rateMask % 16 ∧ (storeCaps d p c).rd (PORT.CAM_CAP0.LANE_MASK p) = c.laneMask % 8 := by
  refine ⟨?_, ?_, ?_⟩ <;>
    simp (disch := clear * -; decide +revert) only [storeCaps, List.range, List.range.loop, List.foldl, Dev.rd_wr_other, Dev.rd_wr_same] <;> rfl

theorem storeCaps_onlyPort (d : Dev) (p : Fin 16) (c : CamCaps) : d.OnlyPort (storeCaps d p c) p :=
  Dev.PortKept.onlyPort (.of_onlyKeys (Dev.onlyRegs_iff.1 (storeCaps_only d p c))) (by clear * -; decide +revert)

/-- The choice sent and taken, before it is accepted. -/
def chosenAs (d : Dev) (p : Fin 16) (ver rate lanes : Nat) : Dev :=
  ((((d.emit (.cam p.val .choose [ver, rate, lanes, 2048])).updPort p fun q =>
    { q with chosen := some (ver, rate, lanes), accepted := false }).wr (PORT.LINK_STAT.STATE p) LS.switch).wr (PORT.LINK_STAT.VER p) ver).wr
      (PORT.LINK_STAT.FAIL_CAUSE p) 0

/-- With every capability on both sides the highest of each is chosen (R64). -/
theorem choose_best {d : Dev} {p : Fin 16} (hhome : d.rd (PORT.LINK_CFG.HOMING p) = 0) (hver : d.rd (PORT.LINK_CFG.VER_MAX p) = 3)
    (hrate : d.rd (PORT.LINK_CFG.RATE_MAX p) = 3) (hlane : d.rd (PORT.LINK_CFG.LANE_MAX p) = 2) (hexcl : d.ports[p].excl = [])
    (hmax : d.rd (PORT.CAM_CAP0.MAX_VER p) = 3) (hrates : d.rd (PORT.CAM_CAP0.RATE_MASK p) = 15)
    (hlanes : d.rd (PORT.CAM_CAP0.LANE_MASK p) = 7) : choose d p = chosenAs d p 3 3 2 := by
  have hoffer : highest 4 (fun r => bitOf 15 r && decide (r ≤ min 3 3) && decide (min 3 (min 3 (max 1 3)) ≠ 0) &&
      (decide (2 ≤ min 3 (min 3 (max 1 3))) || decide (r ≤ 1))) = some 3 := by decide
  have hfree : highest 4 (fun r => (bitOf 15 r && decide (r ≤ min 3 3) && decide (min 3 (min 3 (max 1 3)) ≠ 0) &&
      (decide (2 ≤ min 3 (min 3 (max 1 3))) || decide (r ≤ 1))) && !([] : List Nat).contains r) = some 3 := by decide
  have hwide : highest 3 (fun l => bitOf 7 l && decide (l ≤ min 2 2)) = some 2 := by decide
  simp only [choose, homing, hhome, hver, hrate, hlane, hexcl, hmax, hrates, hlanes, hoffer, hfree, hwide]
  rfl

/-- A camera without a lane count to offer (R64). -/
theorem choose_no_lanes {d : Dev} {p : Fin 16} (h : d.rd (PORT.CAM_CAP0.LANE_MASK p) = 0) : choose d p = enterFailed d p 1 := by
  have hnone (m : Nat) : highest 3 (fun l => bitOf 0 l && decide (l ≤ m)) = none := by simp [highest, bitOf]
  simp only [choose, h, hnone]
  split
  · rfl
  · rfl
  · next hl => exact absurd hl nofun

theorem enterFailed_spec (d : Dev) (p : Fin 16) {cause : Nat} (hc : cause < 4) : linkState (enterFailed d p cause) p = 6 ∧
    (enterFailed d p cause).rd (PORT.LINK_STAT.FAIL_CAUSE p) = cause ∧ (enterFailed d p cause).ports[p].excl = [] ∧
    d.OnlyPort (enterFailed d p cause) p := by
  refine ⟨?_, ?_, by rw [enterFailed, Dev.updPort_ports_same], ?_⟩
  · simp (disch := clear * -; decide +revert) only [linkState, enterFailed, LS.failed, Dev.rd_updPort, Dev.rd_irq_other, Dev.rd_wr_other,
      Dev.rd_wr_fits]
  · simp (disch := clear * -; decide +revert) only [enterFailed, Dev.rd_updPort, Dev.rd_irq_other, Dev.rd_wr_same]
    exact Nat.mod_eq_of_lt hc
  · unfold enterFailed
    refine Dev.onlyPort_iff.2 (.updPort (.irq (.wr (.wr (.refl d p _) ?_ _) ?_ _) ?_ ?_ _) _) <;> clear * - <;> decide +revert

theorem camHello_chooses {d : Dev} {p : Fin 16} {c : CamCaps} (h : linkState d p = 2) (hhome : d.rd (PORT.LINK_CFG.HOMING p) = 0)
    (hver : d.rd (PORT.LINK_CFG.VER_MAX p) = 3) (hrate : d.rd (PORT.LINK_CFG.RATE_MAX p) = 3) (hlane : d.rd (PORT.LINK_CFG.LANE_MAX p) = 2)
    (hexcl : d.ports[p].excl = []) (hmax : c.maxVer = 3) (hrates : c.rateMask = 15) (hlanes : c.laneMask = 7) :
    linkState (camHello p c d) p = 3 ∧ (camHello p c d).rd (PORT.LINK_STAT.VER p) = 3 ∧
    (camHello p c d).ports[p].chosen = some (3, 3, 2) ∧ (camHello p c d).out = .cam p.val .choose [3, 3, 2, 2048] :: d.out ∧
    (camHello p c d).rd (PORT.CAM_CAP0.RATE_MASK p) = 15 ∧ d.OnlyPort (camHello p c d) p := by
  obtain ⟨hrest, hkeep⟩ := storeCaps_only d p c
  obtain ⟨hmax', hrates', hlanes'⟩ := storeCaps_rd d p c
  have heq : camHello p c d = chosenAs (storeCaps d p c) p 3 3 2 := by
    rw [camHello, receiveMsg_idle (by omega) (by omega), h]
    exact choose_best ((hkeep _ (by clear * -; decide +revert)).trans hhome) ((hkeep _ (by clear * -; decide +revert)).trans hver)
      ((hkeep _ (by clear * -; decide +revert)).trans hrate) ((hkeep _ (by clear * -; decide +revert)).trans hlane)
      (by rw [hrest]; exact hexcl) (by rw [hmax', hmax]) (by rw [hrates', hrates]) (by rw [hlanes', hlanes])
  rw [heq]
  refine ⟨?_, ?_, by rw [chosenAs, Dev.wr_ports, Dev.wr_ports, Dev.wr_ports, Dev.updPort_ports_same], ?_, ?_, ?_⟩
  · simp (disch := clear * -; decide +revert) only [linkState, chosenAs, LS.switch, Dev.rd_wr_other, Dev.rd_wr_fits]
  · simp (disch := clear * -; decide +revert) only [chosenAs, Dev.rd_wr_other, Dev.rd_wr_fits]
  · rw [chosenAs, hrest]
    rfl
  · simp (disch := clear * -; decide +revert) only [chosenAs, Dev.rd_wr_other, Dev.rd_updPort, Dev.rd_emit, hrates', hrates]
  · refine Dev.onlyPort_iff.2 (.wr (.wr (.wr (.updPort (.emit (Dev.onlyPort_iff.1 (storeCaps_onlyPort d p c)) _) _) ?_ _) ?_ _) ?_ _) <;>
      clear * - <;> decide +revert

theorem camHello_no_lanes {d : Dev} {p : Fin 16} {c : CamCaps} (h : linkState d p = 2) (hlanes : c.laneMask = 0) :
    linkState (camHello p c d) p = 6 ∧ (camHello p c d).rd (PORT.LINK_STAT.FAIL_CAUSE p) = 1 ∧ (camHello p c d).ports[p].excl = [] ∧
    d.OnlyPort (camHello p c d) p := by
  have hmask : (storeCaps d p c).rd (PORT.CAM_CAP0.LANE_MASK p) = 0 := by rw [(storeCaps_rd d p c).2.2, hlanes]
  have heq : camHello p c d = enterFailed (storeCaps d p c) p 1 := by
    rw [camHello, receiveMsg_idle (by omega) (by omega), h]
    exact choose_no_lanes hmask
  rw [heq]
  obtain ⟨hstate, hcause, hexcl, hkept⟩ := enterFailed_spec (storeCaps d p c) p (cause := 1) (by decide)
  exact ⟨hstate, hcause, hexcl, Dev.onlyPort_iff.2 ((Dev.onlyPort_iff.1 (storeCaps_onlyPort d p c)).trans (Dev.onlyPort_iff.1 hkept))⟩

/-! ## The switch -/

theorem accept_taken {d : Dev} {p : Fin 16} {ver rate lanes : Nat} (h : linkState d p = 3) (hc : d.ports[p].chosen = some (ver, rate, lanes)) :
    linkState (accept p ver rate lanes 2048 d) p = 3 ∧ (accept p ver rate lanes 2048 d).ports[p].accepted = true ∧
    (accept p ver rate lanes 2048 d).out = .camIdle p.val 256 :: d.out ∧ d.OnlyPort (accept p ver rate lanes 2048 d) p := by
  have heq : accept p ver rate lanes 2048 d = (d.emit (.camIdle p.val 256)).updPort p fun q => { q with accepted := true } := by
    rw [accept, receiveMsg_idle (by omega) (by omega), h, hc]
    simp [LS.switch]
  rw [heq]
  exact ⟨h, by rw [Dev.updPort_ports_same], rfl, Dev.onlyPort_iff.2 (.updPort (.emit (.refl d p _) _) _)⟩

theorem accept_differs {d : Dev} {p : Fin 16} {ver rate lanes : Nat} (h : linkState d p = 3) (hc : d.ports[p].chosen ≠ some (ver, rate, lanes))
    (credits : Nat) : accept p ver rate lanes credits d = failedAttempt d p := by
  rw [accept, receiveMsg_idle (by omega) (by omega), h, beq_eq_false_iff_ne.2 hc]
  rfl

/-- One lane as it begins to lock again at the new rate. -/
def laneRelocked (p : Fin 16) (d : Dev) (k : Nat) : Dev :=
  ctleStart p k (((d.wr (LANE.STAT.BLOCK_LOCK p k) 0).wr (LANE.STAT.ALIGNED p k) 0).wr (LANE.EYE.VALID p k) 0)

/-- Only registers of the lanes' page change. -/
theorem laneRelocked_only (p : Fin 16) (d : Dev) {k : Nat} (hk : k < 4) : d.OnlyKeys (laneRelocked p d k) (· / 131072 = Page.LANE p) := by
  have hpage : ∀ q : Fin 16, ∀ j < 4, (LANE.STAT.BLOCK_LOCK q j).key / 131072 = Page.LANE q ∧
      (LANE.STAT.ALIGNED q j).key / 131072 = Page.LANE q ∧
      (LANE.EYE.VALID q j).key / 131072 = Page.LANE q ∧ (LANE.RX_EQ.CTLE q j).key / 131072 = Page.LANE q := by decide
  obtain ⟨hlock, haligned, hvalid, hctle⟩ := hpage p k hk
  have hlane := (((Dev.OnlyKeys.refl d (· / 131072 = Page.LANE p)).wr hlock 0).wr haligned 0).wr hvalid 0
  unfold laneRelocked ctleStart
  extract_lets u warned f
  split
  · exact hlane.wr hctle _
  · exact hlane

/-- The chosen rate and lanes taken over, every active lane locking again (Table 3.4). -/
def switched (p : Fin 16) (d : Dev) (rate lanes : Nat) : Dev :=
  (List.range (2 ^ lanes)).foldl (laneRelocked p)
    (((d.wr (PORT.LINK_STAT.STATE p) LS.equalize).wr (PORT.LINK_STAT.RATE p) rate).wr (PORT.LINK_STAT.LANES p) lanes)

theorem switched_spec (p : Fin 16) (d : Dev) {rate lanes : Nat} (hr : rate < 4) (hl : lanes < 3) :
    linkState (switched p d rate lanes) p = 4 ∧ (switched p d rate lanes).rd (PORT.LINK_STAT.RATE p) = rate ∧
    (switched p d rate lanes).rd (PORT.LINK_STAT.LANES p) = lanes ∧ d.OnlyKeys (switched p d rate lanes) (portKey p) := by
  unfold switched
  set d1 := ((d.wr (PORT.LINK_STAT.STATE p) LS.equalize).wr (PORT.LINK_STAT.RATE p) rate).wr (PORT.LINK_STAT.LANES p) lanes with hd1
  have hsize : 2 ^ lanes ≤ 4 := Nat.pow_le_pow_right (n := 2) (by decide) (Nat.le_of_lt_succ hl)
  have hlanes : d1.OnlyKeys ((List.range (2 ^ lanes)).foldl (laneRelocked p) d1) (· / 131072 = Page.LANE p) :=
    .foldl_mem (fun e k hk => laneRelocked_only p e ((List.mem_range.1 hk).trans_le hsize)) (.refl _ _)
  have hstart : d.OnlyKeys d1 (portKey p) := by
    rw [hd1]
    refine .wr (.wr (.wr (.refl d _) ?_ _) ?_ _) ?_ _ <;> clear * - <;> decide +revert
  have hmono (k : Nat) (hk : k / 131072 = Page.LANE p) : portKey p k := by simp [portKey, hk]
  refine ⟨?_, ?_, ?_, hstart.trans ⟨hlanes.1, hlanes.2.mono hmono⟩⟩
  · rw [linkState, hlanes.2 _ (by clear * -; decide +revert), hd1]
    simp (disch := clear * -; decide +revert) only [LS.equalize, Dev.rd_wr_other, Dev.rd_wr_fits]
  · rw [hlanes.2 _ (by clear * -; decide +revert), hd1, Dev.rd_wr_other _ _ _ _ (by clear * -; decide +revert)]
    exact Dev.rd_wr_fits _ (hr.trans (by clear * -; decide +revert))
  · rw [hlanes.2 _ (by clear * -; decide +revert), hd1]
    exact Dev.rd_wr_fits _ (hl.trans (by clear * -; decide +revert))

theorem rateSwitch_equalizes {d : Dev} {p : Fin 16} {ver rate lanes : Nat} (h : linkState d p = 3) (ha : d.ports[p].accepted = true)
    (hc : d.ports[p].chosen = some (ver, rate, lanes)) (hr : rate < 4) (hl : lanes < 3) :
    linkState (rateSwitch p d) p = 4 ∧ (rateSwitch p d).rd (PORT.LINK_STAT.RATE p) = rate ∧
    (rateSwitch p d).rd (PORT.LINK_STAT.LANES p) = lanes ∧ (rateSwitch p d).ports[p].readySent = true ∧
    (rateSwitch p d).ports[p].readyGot = false ∧ (rateSwitch p d).out = .cam p.val .ready [] :: d.out ∧ d.OnlyPort (rateSwitch p d) p := by
  have heq : rateSwitch p d = ((switched p d rate lanes).emit (.cam p.val .ready [])).updPort p fun q =>
      { q with readySent := true, readyGot := false, eyeGot := false, ctleDone := false } := by
    simp only [rateSwitch, hc, h, ha]
    rfl
  obtain ⟨hstate, hrate, hlanes, hkept⟩ := switched_spec p d hr hl
  rw [heq, Dev.updPort_ports_same]
  refine ⟨hstate, hrate, hlanes, rfl, rfl, ?_, Dev.onlyPort_iff.2 (.updPort (.emit (.of_onlyKeys hkept) _) _)⟩
  rw [Dev.updPort_out, Dev.emit_out, hkept.1]

theorem switchTimeout_fails {d : Dev} {p : Fin 16} (h : linkState d p = 3) (ha : d.ports[p].accepted = false) :
    switchTimeout p d = failedAttempt d p := by
  simp [switchTimeout, h, ha, LS.switch, -Fin.getElem_fin]

/-! ## Equalization, ACTIVE and FAILED -/

theorem camReady_noted {d : Dev} {p : Fin 16} (h : linkState d p = 4) : (camReady p d).ports[p].readyGot = true ∧
    (camReady p d).regs = d.regs ∧ (camReady p d).out = d.out ∧ d.OnlyPort (camReady p d) p := by
  have heq : camReady p d = d.updPort p fun q => { q with readyGot := true } := by
    rw [camReady, receiveMsg_idle (by omega) (by omega), h]
    rfl
  rw [heq]
  exact ⟨by rw [Dev.updPort_ports_same], rfl, rfl, Dev.onlyPort_iff.2 (.updPort (.refl d p _) _)⟩

/-- The port in ACTIVE with its book restarted. -/
def activated (d : Dev) (p : Fin 16) : Dev :=
  restartCredits (((d.wr (PORT.LINK_STAT.STATE p) LS.active).wr (PORT.LINK_STAT.ATTEMPTS p) 0).wr (PORT.LINK_STAT.FAIL_CAUSE p) 0) p

theorem activated_spec {d : Dev} {p : Fin 16} (hb : d.rd (PORT.BUF_USED.B p) = 0) :
    linkState (activated d p) p = 5 ∧ (activated d p).rd (PORT.CREDIT_G.G p) = 2048 ∧ (activated d p).rd (PORT.CREDIT_R.R p) = 0 ∧
    d.OnlyKeys (activated d p) (portKey p) := by
  unfold activated
  set d1 := ((d.wr (PORT.LINK_STAT.STATE p) LS.active).wr (PORT.LINK_STAT.ATTEMPTS p) 0).wr (PORT.LINK_STAT.FAIL_CAUSE p) 0 with hd1
  obtain ⟨hr, hrest, hkeep⟩ := restartCredits_spec d1 p
  have hstart : d.OnlyKeys d1 (portKey p) := by
    refine .wr (.wr (.wr (.refl d _) ?_ _) ?_ _) ?_ _ <;> clear * - <;> decide +revert
  have hbook : d1.KeepsKeys (restartCredits d1 p) (portKey p) := Dev.KeepsKeys.mono hkeep (by clear * -; simp; decide +revert)
  refine ⟨?_, restartCredits_empty ?_, hr, hstart.trans ⟨hrest, hbook⟩⟩
  · rw [linkState, hkeep _ (by clear * -; decide +revert), hd1]
    simp (disch := clear * -; decide +revert) only [LS.active, Dev.rd_wr_other, Dev.rd_wr_fits]
  · simp (disch := clear * -; decide +revert) only [hd1, Dev.rd_wr_other, hb]

theorem linkActive_enters {d : Dev} {p : Fin 16} (h : linkState d p = 4) (he : equalized d p = true) (hb : d.rd (PORT.BUF_USED.B p) = 0)
    (hh : d.rd (PORT.LINK_CFG.HOMING p) = 0) :
    linkState (linkActive p d) p = 5 ∧ (linkActive p d).rd (PORT.CREDIT_G.G p) = 2048 ∧ (linkActive p d).rd (PORT.CREDIT_R.R p) = 0 ∧
    (linkActive p d).out = .credit p.val 2048 :: d.out ∧ (linkActive p d).ports[p].excl = [] ∧ d.OnlyPort (linkActive p d) p := by
  obtain ⟨hstate, hg, hr, hkept⟩ := activated_spec (p := p) hb
  have hsingle : ¬ (homing d p == 1) = true := by simp [homing, hh]
  have heq : linkActive p d = ((sendCredit (activated d p) p).irq (Page.PORT p) PORT.irq.LINK_UP).updPort p fun q =>
      { q with excl := [], fails := [0, 0, 0, 0] } := by
    unfold linkActive
    rw [if_pos (by rw [h, he]; rfl)]
    exact congrArg (fun e : Dev => (e.irq (Page.PORT p) PORT.irq.LINK_UP).updPort p fun q => { q with excl := [], fails := [0, 0, 0, 0] })
      (if_neg hsingle)
  have hquiet : ∀ q : Fin 16, ∀ f ∈ [PORT.LINK_STAT.STATE q, PORT.CREDIT_G.G q, PORT.CREDIT_R.R q],
      f.key ≠ (Com.IRQ_RAW (Page.PORT q)).key ∧ f.key ≠ (Com.ERR_CNT (Page.PORT q)).key := by decide
  have hrd : ∀ f ∈ [PORT.LINK_STAT.STATE p, PORT.CREDIT_G.G p, PORT.CREDIT_R.R p], (linkActive p d).rd f = (activated d p).rd f := by
    intro f hf
    rw [heq, Dev.rd_updPort, Dev.rd_irq_other _ _ _ _ (hquiet p f hf).1 (hquiet p f hf).2]
    rfl
  refine ⟨(hrd _ (by simp)).trans hstate, (hrd _ (by simp)).trans hg, (hrd _ (by simp)).trans hr, ?_, by rw [heq, Dev.updPort_ports_same], ?_⟩
  · rw [heq, Dev.updPort_out, Dev.irq_out, sendCredit, Dev.updPort_out, Dev.emit_out, hg, hkept.1]
  · rw [heq]
    refine Dev.onlyPort_iff.2 (.updPort (.irq (.updPort (.emit (.of_onlyKeys hkept) _) _) ?_ ?_ _) _) <;> clear * - <;> decide +revert

theorem failedRetry_restarts {d : Dev} {p : Fin 16} (h : linkState d p = 6) :
    linkState (failedRetry p d) p = 1 ∧ (failedRetry p d).ports[p].excl = [] ∧ d.OnlyPort (failedRetry p d) p := by
  have heq : failedRetry p d = toAcquire (d.updPort p fun q => { q with excl := [], fails := [0, 0, 0, 0] }) p := by
    simp [failedRetry, h, LS.failed]
  rw [heq]
  exact ⟨toAcquire_state _ _, by rw [toAcquire_excl, Dev.updPort_ports_same],
    Dev.onlyPort_iff.2 (.trans (.updPort (.refl d p _) _) (toAcquire_onlyPort _ _))⟩

/-! ## The statement -/

/-- Settles O15: each command of training in the states of Table 3.4. -/
theorem trainingWalksItsStates : Obligations.TrainingWalksItsStates := by
  refine ⟨fun s p hup h0 hh => gives_of_onDev rfl hup (portEnable_lights h0 hh),
    fun s p hup h0 hh hs => gives_of_onDev rfl hup (portEnable_snoops h0 hh hs),
    fun s p hup h1 h5 hl => gives_of_onDev rfl hup (portDisable_dark h1 h5 hl),
    fun s p hup he h => gives_of_onDev rfl hup (retrain_restarts he h),
    fun s p hup h => gives_of_onDev rfl hup (retrain_disabled h),
    fun s p hup hcage h => gives_of_onDev (g := fun d => if cageDark d p then d else blockLockGained p 0 d) rfl hup
      (by rw [if_neg (by simp [hcage])]; exact blockLockGained_hello h),
    fun s p hup h hn => gives_of_onDev rfl hup (capsTimeout_resends h hn),
    fun s p hup h hn => gives_of_onDev rfl hup (capsTimeout_restarts h hn),
    fun s p c hup h hhome hver hrate hlane hexcl hmax hrates hlanes =>
      gives_of_onDev rfl hup (camHello_chooses h hhome hver hrate hlane hexcl hmax hrates hlanes),
    fun s p c hup h hlanes => gives_of_onDev rfl hup (camHello_no_lanes h hlanes),
    fun s p ver rate lanes hup h hc => gives_of_onDev rfl hup (accept_taken h hc),
    fun s p ver rate lanes credits hup h hc =>
      gives_of_onDev (g := accept p ver rate lanes credits) rfl hup (by rw [accept_differs h hc]; exact failedAttempt_spec s.dev p),
    fun s p ver rate lanes hup h ha hc hr hl => gives_of_onDev rfl hup (rateSwitch_equalizes h ha hc hr hl),
    fun s p hup h ha => gives_of_onDev (g := switchTimeout p) rfl hup (by rw [switchTimeout_fails h ha]; exact failedAttempt_spec s.dev p),
    fun s p hup h => gives_of_onDev rfl hup (camReady_noted h),
    fun s p hup h he hb hh => gives_of_onDev rfl hup (linkActive_enters h he hb hh),
    fun s p hup h =>
      gives_of_onDev (g := equalizeTimeout p) rfl hup (by rw [equalizeTimeout, if_pos (by rw [h]; rfl)]; exact failedAttempt_spec s.dev p),
    fun s p hup h => gives_of_onDev rfl hup (failedRetry_restarts h)⟩

end Sys2Proof.Machine
end

section
/-! SUPPORT. The lines of a port, and the backchannel (R74 to R78): triggers, settings and camera registers. -/

namespace Sys2Proof.Machine

/-! ## Lines -/

theorem lines_updPort (d : Dev) (p : Fin 16) (g : Port → Port) : (d.updPort p g).lines p = (g d.ports[p]).lines := by
  rw [Dev.lines, Dev.updPort_ports_same]

theorem lines_of_ports {d e : Dev} (h : e.ports = d.ports) (p : Fin 16) : e.lines p = d.lines p := by rw [Dev.lines, Dev.lines, h]

theorem lines_updLine (d : Dev) (p : Fin 16) (w : Nat) (g : PLine → PLine) :
    (updLine d p w g).lines p = (d.lines p).map fun l => if l.trig.wln == w then g l else l := by
  rw [updLine, lines_updPort]
  rfl

/-- What the rewriting of line `w` makes of every line with that WLN. -/
theorem updLine_forall {d : Dev} {p : Fin 16} {w : Nat} {g : PLine → PLine} {Q P : PLine → Prop}
    (hQ : ∀ y ∈ d.lines p, y.trig.wln = w → Q y) (hP : ∀ y, Q y → P (g y)) :
    ∀ x ∈ (updLine d p w g).lines p, x.trig.wln = w → P x := by
  intro x hx hw
  rw [lines_updLine, List.mem_map] at hx
  obtain ⟨y, hy, rfl⟩ := hx
  by_cases hyw : y.trig.wln = w
  · rw [if_pos (by simpa using hyw)]
    exact hP y (hQ y hy hyw)
  · rw [if_neg (by simpa using hyw)] at hw
    exact absurd hw hyw

/-! ## Triggers -/

/-- With no older trigger unsent none is abandoned. -/
theorem abandonBefore_only {d : Dev} {p : Fin 16} {l : PLine} (h : unsent d p = [l]) : abandonBefore d p l.trig.wln = d := by
  simp [abandonBefore, h]

/-- Line `w` taken as sent, and the boundary as used. -/
def triggerSent (d : Dev) (p : Fin 16) (w b : Nat) (late : Bool) : Dev :=
  (updLine d p w fun l => { l with sent := true, sendLate := late, target := if late then b else l.target }).updPort p fun q =>
    { q with boundary := some b }

theorem triggerSent_kept (d : Dev) (p : Fin 16) (w b : Nat) (late : Bool) (S : Nat → Prop) : d.PortKept (triggerSent d p w b late) p S :=
  .updPort (.updPort (.refl d p S) _) _

theorem triggerSent_lines (d : Dev) (p : Fin 16) (w b : Nat) (late : Bool) :
    ∀ x ∈ (triggerSent d p w b late).lines p, x.trig.wln = w → x.sent = true := by
  rw [triggerSent, lines_updPort]
  exact updLine_forall (Q := fun _ => True) (fun _ _ _ => trivial) (fun _ _ => rfl)

theorem triggerSent_boundary (d : Dev) (p : Fin 16) (w b : Nat) (late : Bool) : (triggerSent d p w b late).ports[p].boundary = some b := by
  rw [triggerSent, Dev.updPort_ports_same]

theorem sendTrigger_intime (d : Dev) (p : Fin 16) (w b offset : Nat) :
    (sendTrigger d p w b offset false).out = .trigger p.val (w % 2 ^ 32) offset false (d.on (PORT.LINK_STAT.PRIMARY p)) :: d.out ∧
    (sendTrigger d p w b offset false).ports[p].boundary = some b ∧
    (∀ x ∈ (sendTrigger d p w b offset false).lines p, x.trig.wln = w → x.sent = true) ∧
    (sendTrigger d p w b offset false).regs = d.regs ∧ d.OnlyPort (sendTrigger d p w b offset false) p :=
  ⟨rfl, triggerSent_boundary d p w b false, triggerSent_lines d p w b false, rfl,
    Dev.onlyPort_iff.2 ((triggerSent_kept d p w b false _).emit _)⟩

theorem sendTrigger_late (d : Dev) (p : Fin 16) (w b : Nat) :
    (sendTrigger d p w b 0 true).out = .trigger p.val (w % 2 ^ 32) 0 true (d.on (PORT.LINK_STAT.PRIMARY p)) :: d.out ∧
    (∀ x ∈ (sendTrigger d p w b 0 true).lines p, x.trig.wln = w → x.sent = true ∧ bitOf x.flags PF.trigLate = true) ∧
    d.Counted (sendTrigger d p w b 0 true) (PORT.TRIG_LATE_CNT.CNT p) ∧ d.KeepsRegs (sendTrigger d p w b 0 true) [PORT.TRIG_LATE_CNT.CNT p] ∧
    d.OnlyPort (sendTrigger d p w b 0 true) p := by
  have hkept : d.PortKept (sendTrigger d p w b 0 true) p (· ∈ [PORT.TRIG_LATE_CNT.CNT p].map Fld.key) :=
    .emit (.inc (.updPort (triggerSent_kept d p w b true _) _) (f := PORT.TRIG_LATE_CNT.CNT p) (by simp)) _
  refine ⟨rfl, ?_, Dev.rd_inc_same _ _, hkept.regs, hkept.onlyPort (by clear * -; decide +revert)⟩
  have hflag : ∀ y : PLine, y.sent = true → y.sent = true ∧ bitOf (setBit y.flags PF.trigLate) PF.trigLate = true := fun y hy =>
    ⟨hy, by simp [bitOf_setBit]⟩
  exact updLine_forall (triggerSent_lines d p w b true) hflag

theorem triggerBlockSend_sends {d : Dev} {p : Fin 16} {b : Nat} {l : PLine} (h : linkState d p = 5) (hb : d.ports[p].boundary ≠ some b)
    (hr : d.ports[p].relock ≤ b) (hu : unsent d p = [l]) (hle : b ≤ l.target)
    (hlt : (l.target - b) * 100 < blockTime100 (d.rd (PORT.LINK_STAT.RATE p))) :
    triggerBlockSend p b d = sendTrigger d p l.trig.wln b (l.target - b) false := by
  simp [triggerBlockSend, h, hb, Nat.not_lt.2 hr, hu, hle, hlt, abandonBefore_only hu, LS.active, -Fin.getElem_fin]

theorem triggerLate_sends {d : Dev} {p : Fin 16} {b : Nat} {l : PLine} (h : linkState d p = 5) (hb : d.ports[p].boundary ≠ some b)
    (hr : d.ports[p].relock ≤ b) (hu : unsent d p = [l]) (hlt : l.target < b) : triggerLate p b d = sendTrigger d p l.trig.wln b 0 true := by
  simp [triggerLate, h, hb, Nat.not_lt.2 hr, hu, hlt, abandonBefore_only hu, LS.active, -Fin.getElem_fin]

theorem triggerBlockSend_taken {d : Dev} {p : Fin 16} {b : Nat} (hb : d.ports[p].boundary = some b) : triggerBlockSend p b d = d := by
  simp [triggerBlockSend, hb, -Fin.getElem_fin]

theorem triggerLate_taken {d : Dev} {p : Fin 16} {b : Nat} (hb : d.ports[p].boundary = some b) : triggerLate p b d = d := by
  simp [triggerLate, hb, -Fin.getElem_fin]

/-! ## Settings -/

@[simp] theorem Dev.rd_updCorr (d : Dev) (p : Fin 16) (g : Corr → Corr) (f : Fld) : (d.updCorr p g).rd f = d.rd f := rfl

/-- The keys of a port's page and of its STAT page. -/
abbrev settingsKey (p : Fin 16) (k : Nat) : Prop := k / 131072 ∈ [Page.PORT p, Page.STAT (statPage p)]

theorem receiveMsg_keepsPages (d : Dev) (p : Fin 16) (n : Nat) : d.KeepsKeys (receiveMsg d p n) (settingsKey p) :=
  Dev.KeepsKeys.mono (receiveMsg_only d p n).2 (by clear * -; simp; decide +revert)

theorem receiveMsg_ports (d : Dev) (p : Fin 16) (n : Nat) : (receiveMsg d p n).ports = d.ports := by rw [(receiveMsg_only d p n).1]

theorem settingsDone_spec (d : Dev) (p : Fin 16) : (settingsDone d p).rd (STAT.SET_STAT.SENT (statPage p) (statBank p)) = 1 ∧
    (settingsDone d p).rd (STAT.SET_STAT.BUSY (statPage p) (statBank p)) = 0 ∧ (settingsDone d p).ports[p].set = none ∧
    d.KeepsKeys (settingsDone d p) (settingsKey p) := by
  refine ⟨?_, ?_, ?_, ?_⟩
  · simp (disch := clear * -; decide +revert) only [settingsDone, Dev.rd_updPort, Dev.rd_updCorr, Dev.rd_irq_other, Dev.rd_wr_other, Dev.rd_wr_fits]
  · simp (disch := clear * -; decide +revert) only [settingsDone, Dev.rd_updPort, Dev.rd_updCorr, Dev.rd_irq_other, Dev.rd_wr_fits]
  · rw [settingsDone, Dev.updPort_ports_same]
  · refine .of_regs (.irq (.wr (.wr (.refl d _) ?_ _) ?_ _) ?_ ?_ _) rfl <;> clear * - <;> decide +revert

theorem settingsFail_spec (d : Dev) (p : Fin 16) : (settingsFail d p).rd (STAT.SET_STAT.FAIL (statPage p) (statBank p)) = 1 ∧
    (settingsFail d p).rd (STAT.SET_STAT.BUSY (statPage p) (statBank p)) = 0 ∧ d.Counted (settingsFail d p) (PORT.SET_FAIL_CNT.CNT p) ∧
    (settingsFail d p).ports[p].set = none ∧ d.KeepsKeys (settingsFail d p) (settingsKey p) := by
  refine ⟨?_, ?_, ?_, ?_, ?_⟩
  · simp (disch := clear * -; decide +revert) only [settingsFail, Dev.rd_updPort, Dev.rd_irq_other, Dev.rd_inc_other, Dev.rd_wr_other, Dev.rd_wr_fits]
  · simp (disch := clear * -; decide +revert) only [settingsFail, Dev.rd_updPort, Dev.rd_irq_other, Dev.rd_inc_other, Dev.rd_wr_fits]
  · simp (disch := clear * -; decide +revert) only [Dev.Counted, settingsFail, Dev.rd_updPort, Dev.rd_irq_other, Dev.rd_inc_same, Dev.rd_wr_other]
  · rw [settingsFail, Dev.updPort_ports_same]
  · refine .of_regs (.irq (.inc (.irq (.wr (.wr (.refl d _) ?_ _) ?_ _) ?_ ?_ _) ?_) ?_ ?_ _) rfl <;> clear * - <;> decide +revert

/-- An answer to the settings request that was sent ends it, by its status. -/
theorem setAck_ends {d : Dev} {p : Fin 16} {r : SetReq} (hs : d.ports[p].set = some r) (hsent : r.sent = true)
    (hv : d.rd (PORT.LINK_STAT.VER p) ≠ 1) (status : Nat) :
    setAck p r.id status d = if status == 0 then settingsDone (receiveMsg d p 3) p else settingsFail (receiveMsg d p 3) p := by
  have hver : (receiveMsg d p 3).rd (PORT.LINK_STAT.VER p) ≠ 1 := by
    rwa [(receiveMsg_only d p 3).2 _ (by clear * -; decide +revert)]
  simp [setAck, receiveMsg_ports, hs, hsent, hver, -Fin.getElem_fin]

/-- The first silence: the request leaves once more with its tag (R76). -/
theorem settingsRetry_first {d : Dev} {p : Fin 16} {tag : Nat} {r : SetReq} (hs : d.ports[p].set = some r)
    (hv : d.rd (PORT.LINK_STAT.VER p) ≠ 1) (hw : r.waiting = [(tag, false)]) :
    (settingsRetry p tag d).out =
      .cam p.val .settings ([tag, r.id, r.w, r.entries.length] ++ r.entries.flatMap fun e => [e.1, e.2]) :: d.out ∧
    (settingsRetry p tag d).ports[p].set = some { r with waiting := [(tag, true)] } ∧ (settingsRetry p tag d).regs = d.regs ∧
    d.OnlyPort (settingsRetry p tag d) p := by
  have heq : settingsRetry p tag d = (sendSettings d p tag r).updPort p fun q => { q with set := q.set.map fun x =>
      { x with waiting := x.waiting.map fun y => if y.1 == tag then (tag, true) else y } } := by
    simp [settingsRetry, hs, hw, hv, -Fin.getElem_fin]
  rw [heq, Dev.updPort_ports_same]
  refine ⟨rfl, ?_, rfl, Dev.onlyPort_iff.2 (.updPort (.emit (.refl d p _) _) _)⟩
  simp [sendSettings, hs, hw, -Fin.getElem_fin]

theorem settingsRetry_second {d : Dev} {p : Fin 16} {tag : Nat} {r : SetReq} (hs : d.ports[p].set = some r) (hw : r.waiting = [(tag, true)]) :
    settingsRetry p tag d = settingsFail d p := by
  simp [settingsRetry, hs, hw, -Fin.getElem_fin]

/-! ## Camera registers -/

theorem crGo_reads {d : Dev} {p : Fin 16} (hb : d.on (PORT.CR_STAT.BUSY p) = false) (hw : d.on (PORT.CR_CTL.WRITE p) = false) :
    (crGo p d).rd (PORT.CR_STAT.BUSY p) = 1 ∧ (crGo p d).ports[p].crTag = some (d.ports[p].tag, false) ∧
    (crGo p d).out = .cam p.val .regRd [d.ports[p].tag, d.rd (PORT.CR_ADDR.ADDR p), 1] :: d.out ∧
    d.KeepsRegs (crGo p d) [PORT.CR_STAT.BUSY p] ∧ d.OnlyPort (crGo p d) p := by
  have heq : crGo p d = (((d.updPort p fun q => { q with tag := (q.tag + 1) % 256 }).emit
      (.cam p.val .regRd [d.ports[p].tag, d.rd (PORT.CR_ADDR.ADDR p), 1])).wr (PORT.CR_STAT.BUSY p) 1).updPort p fun q =>
        { q with crTag := some (d.ports[p].tag, false) } := by
    simp [crGo, hb, hw, nextTag, -Fin.getElem_fin]
  rw [heq, Dev.updPort_ports_same]
  have hkept := (((Dev.PortKept.refl d p (· ∈ [PORT.CR_STAT.BUSY p].map Fld.key)).updPort fun q => { q with tag := (q.tag + 1) % 256 }).emit
    (.cam p.val .regRd [d.ports[p].tag, d.rd (PORT.CR_ADDR.ADDR p), 1])).wr (f := PORT.CR_STAT.BUSY p) (by simp) 1
  refine ⟨?_, rfl, rfl, (hkept.updPort _).regs, (hkept.updPort _).onlyPort ?_⟩
  · rw [Dev.rd_updPort]
    exact Dev.rd_wr_fits _ (by clear * -; decide +revert)
  · clear * -; decide +revert

theorem crGo_busy {d : Dev} {p : Fin 16} (hb : d.on (PORT.CR_STAT.BUSY p) = true) : crGo p d = d := by simp [crGo, hb]

theorem crEnd_spec (d : Dev) (p : Fin 16) : (crEnd d p).rd (PORT.CR_STAT.BUSY p) = 0 ∧ (crEnd d p).rd (PORT.CR_STAT.DONE p) = 1 ∧
    (crEnd d p).ports[p].crTag = none ∧ d.PortKept (crEnd d p) p (portKey p) := by
  refine ⟨?_, ?_, ?_, ?_⟩
  · simp (disch := clear * -; decide +revert) only [crEnd, Dev.rd_updPort, Dev.rd_irq_other, Dev.rd_wr_other, Dev.rd_wr_fits]
  · simp (disch := clear * -; decide +revert) only [crEnd, Dev.rd_updPort, Dev.rd_irq_other, Dev.rd_wr_fits]
  · rw [crEnd, Dev.updPort_ports_same]
  · refine .updPort (.irq (.wr (.wr (.refl d p _) ?_ _) ?_ _) ?_ ?_ _) _ <;> clear * - <;> decide +revert

theorem crEnd_rd_other (d : Dev) (p : Fin 16) {f : Fld}
    (h : f.key ∉ [PORT.CR_STAT.BUSY p, PORT.CR_STAT.DONE p, Com.IRQ_RAW (Page.PORT p), Com.ERR_CNT (Page.PORT p)].map Fld.key) :
    (crEnd d p).rd f = d.rd f := by
  simp only [List.map_cons, List.map_nil, List.mem_cons, List.not_mem_nil, or_false, not_or] at h
  simp [crEnd, Dev.rd_irq_other, Dev.rd_wr_other, h]

theorem receiveMsg_kept (d : Dev) (p : Fin 16) (n : Nat) : d.PortKept (receiveMsg d p n) p (portKey p) :=
  Dev.PortKept.mono (.of_onlyKeys (Dev.onlyRegs_iff.1 (receiveMsg_only d p n))) (by clear * -; simp; decide +revert)

theorem regData_ends {d : Dev} {p : Fin 16} {tag : Nat} (h : d.ports[p].crTag = some (tag, false)) (value : Nat) :
    (regData p tag value d).rd (PORT.CR_DATA.DATA p) = value % 2 ^ 32 ∧ (regData p tag value d).rd (PORT.CR_STAT.BUSY p) = 0 ∧
    (regData p tag value d).rd (PORT.CR_STAT.DONE p) = 1 ∧ (regData p tag value d).ports[p].crTag = none ∧
    d.OnlyPort (regData p tag value d) p := by
  have heq : regData p tag value d = crEnd ((receiveMsg d p 7).wr (PORT.CR_DATA.DATA p) value) p := by
    simp [regData, receiveMsg_ports, h, -Fin.getElem_fin]
  obtain ⟨hbusy, hdone, htag, hkept⟩ := crEnd_spec ((receiveMsg d p 7).wr (PORT.CR_DATA.DATA p) value) p
  rw [heq]
  refine ⟨?_, hbusy, hdone, htag, Dev.onlyPort_iff.2 (.trans (.wr (receiveMsg_kept d p 7) ?_ _) hkept)⟩
  · rw [crEnd_rd_other _ _ (by clear * -; decide +revert), Dev.rd_wr_same]
    rfl
  · clear * -; decide +revert

theorem regAck_ends {d : Dev} {p : Fin 16} {tag : Nat} (h : d.ports[p].crTag = some (tag, true)) :
    (regAck p tag d).rd (PORT.CR_STAT.BUSY p) = 0 ∧ (regAck p tag d).rd (PORT.CR_STAT.DONE p) = 1 ∧ (regAck p tag d).ports[p].crTag = none ∧
    d.OnlyPort (regAck p tag d) p := by
  have heq : regAck p tag d = crEnd (receiveMsg d p 0) p := by simp [regAck, receiveMsg_ports, h, -Fin.getElem_fin]
  obtain ⟨hbusy, hdone, htag, hkept⟩ := crEnd_spec (receiveMsg d p 0) p
  rw [heq]
  exact ⟨hbusy, hdone, htag, Dev.onlyPort_iff.2 ((receiveMsg_kept d p 0).trans hkept)⟩

theorem regNak_ends {d : Dev} {p : Fin 16} {tag : Nat} {w : Bool} (h : d.ports[p].crTag = some (tag, w)) (cause : Nat) :
    (regNak p tag cause d).rd (PORT.CR_STAT.NAK p) = 1 ∧ (regNak p tag cause d).rd (PORT.CR_STAT.NAK_CAUSE p) = cause % 256 ∧
    (regNak p tag cause d).rd (PORT.CR_STAT.BUSY p) = 0 ∧ (regNak p tag cause d).ports[p].crTag = none ∧
    d.OnlyPort (regNak p tag cause d) p := by
  let d1 := ((receiveMsg d p 1).wr (PORT.CR_STAT.NAK p) 1).wr (PORT.CR_STAT.NAK_CAUSE p) cause
  have heq : regNak p tag cause d = crEnd d1 p := by simp [regNak, receiveMsg_ports, h, d1, -Fin.getElem_fin]
  obtain ⟨hbusy, -, htag, hkept⟩ := crEnd_spec d1 p
  rw [heq]
  refine ⟨?_, ?_, hbusy, htag, Dev.onlyPort_iff.2 (.trans (.wr (.wr (receiveMsg_kept d p 1) ?_ _) ?_ _) hkept)⟩
  · rw [crEnd_rd_other _ _ (by clear * -; decide +revert), Dev.rd_wr_other _ _ _ _ (by clear * -; decide +revert)]
    exact Dev.rd_wr_fits _ (by clear * -; decide +revert)
  · rw [crEnd_rd_other _ _ (by clear * -; decide +revert), Dev.rd_wr_same]
    rfl
  all_goals clear * -; decide +revert

theorem crTimeout_ends {d : Dev} {p : Fin 16} (h : d.on (PORT.CR_STAT.BUSY p) = true) :
    (crTimeout p d).rd (PORT.CR_STAT.TIMEOUT p) = 1 ∧ (crTimeout p d).rd (PORT.CR_STAT.BUSY p) = 0 ∧
    (crTimeout p d).rd (PORT.CR_STAT.DONE p) = 1 ∧ (crTimeout p d).ports[p].crTag = none ∧ d.OnlyPort (crTimeout p d) p := by
  have heq : crTimeout p d = crEnd (d.wr (PORT.CR_STAT.TIMEOUT p) 1) p := by simp [crTimeout, h]
  obtain ⟨hbusy, hdone, htag, hkept⟩ := crEnd_spec (d.wr (PORT.CR_STAT.TIMEOUT p) 1) p
  rw [heq]
  refine ⟨?_, hbusy, hdone, htag, Dev.onlyPort_iff.2 (.trans (.wr (.refl d p _) ?_ _) hkept)⟩
  · rw [crEnd_rd_other _ _ (by clear * -; decide +revert)]
    exact Dev.rd_wr_fits _ (by clear * -; decide +revert)
  · clear * -; decide +revert

/-- ROLE_ACK shows the role (R78). -/
theorem roleAck_shows (d : Dev) (p : Fin 16) (role : Nat) : (roleAck p role d).rd (PORT.LINK_STAT.PRIMARY p) = b2n (role == 1) ∧
    d.OnlyRegs (roleAck p role d) [PORT.LINK_STAT.PRIMARY p, PORT.CREDIT_R.R p] := by
  have hbook : d.OnlyKeys (receiveMsg d p 7) (· ∈ [PORT.LINK_STAT.PRIMARY p, PORT.CREDIT_R.R p].map Fld.key) := by
    obtain ⟨hrest, hkeep⟩ := receiveMsg_only d p 7
    exact ⟨hrest, Dev.KeepsKeys.mono hkeep (by simp +contextual)⟩
  refine ⟨?_, Dev.onlyRegs_iff.2 (hbook.wr (f := PORT.LINK_STAT.PRIMARY p) (by simp) _)⟩
  rw [roleAck, Dev.wrB]
  cases role == 1 <;> exact Dev.rd_wr_fits _ (by clear * -; decide +revert)

/-! ## The statement -/

/-- Settles O18: triggers sent in time, late and not at all; settings answered and retried; camera registers; the role. -/
theorem backchannelMessages : Obligations.BackchannelMessages := by
  refine ⟨fun s p b l hup h hb hr hu hle hlt => gives_of_onDev (g := triggerBlockSend p b) rfl hup ?_,
    fun s p b l hup h hb hr hu hlt => gives_of_onDev (g := triggerLate p b) rfl hup ?_,
    fun s p b hup hb => ⟨gives_of_onDev rfl hup (triggerBlockSend_taken hb), gives_of_onDev rfl hup (triggerLate_taken hb)⟩,
    fun s p r hup hs hsent hv => gives_of_onDev (g := setAck p r.id 0) rfl hup ?_,
    fun s p r status hup hs hsent hv hne => gives_of_onDev (g := setAck p r.id status) rfl hup ?_,
    fun s p tag r hup hs hv hw => gives_of_onDev rfl hup (settingsRetry_first hs hv hw),
    fun s p tag r hup hs hw => gives_of_onDev (g := settingsRetry p tag) rfl hup ?_,
    fun s p hup hb hw => gives_of_onDev rfl hup (crGo_reads hb hw),
    fun s p hup hb => gives_of_onDev rfl hup (crGo_busy hb),
    fun s p tag value hup h => gives_of_onDev rfl hup (regData_ends h value),
    fun s p tag hup h => gives_of_onDev rfl hup (regAck_ends h),
    fun s p tag cause w hup h => gives_of_onDev rfl hup (regNak_ends h cause),
    fun s p hup h => gives_of_onDev rfl hup (crTimeout_ends h),
    fun s p role from_ hup => gives_of_onDev rfl hup (roleAck_shows s.dev p role)⟩
  · rw [triggerBlockSend_sends h hb hr hu hle hlt]
    exact sendTrigger_intime s.dev p _ _ _
  · rw [triggerLate_sends h hb hr hu hlt]
    exact sendTrigger_late s.dev p _ _
  · obtain ⟨hs1, hb0, hnone, hkeep⟩ := settingsDone_spec (receiveMsg s.dev p 3) p
    rw [setAck_ends hs hsent hv, if_pos (by simp)]
    exact ⟨hs1, hb0, hnone, (receiveMsg_keepsPages s.dev p 3).trans hkeep⟩
  · obtain ⟨hf1, hb0, hcount, hnone, hkeep⟩ := settingsFail_spec (receiveMsg s.dev p 3) p
    rw [setAck_ends hs hsent hv, if_neg (by simpa using hne)]
    refine ⟨hf1, hb0, ?_, hnone, (receiveMsg_keepsPages s.dev p 3).trans hkeep⟩
    rwa [Dev.Counted, (receiveMsg_only s.dev p 3).2 _ (by clear * -; decide +revert)] at hcount
  · obtain ⟨-, -, hcount, hnone, hkeep⟩ := settingsFail_spec s.dev p
    rw [settingsRetry_second hs hw]
    exact ⟨hnone, hcount, hkeep⟩

end Sys2Proof.Machine
end

section
/-! SUPPORT. Lanes, error counters and the credit book (R54 to R61, R66 to R73). -/

namespace Sys2Proof.Machine

/-! ## Lanes -/

theorem dropIfActive_idle {d : Dev} {p : Fin 16} (h : linkState d p ≠ 5) (k : Nat) : dropIfActive d p k = d := by
  simp [dropIfActive, LS.active, h]

theorem dropIfActive_drops {d : Dev} {p : Fin 16} {k : Nat} (h : linkState d p = 5) (hk : k < activeLanes d p) :
    dropIfActive d p k = toAcquire (leaveActive d p) p := by
  simp [dropIfActive, LS.active, h, hk]

theorem laneLos_idle {d : Dev} {p : Fin 16} {k : Fin 4} (h : linkState d p ≠ 5) (hlos : d.on (LANE.STAT.LOS p k) = false) :
    (laneLos p k d).rd (LANE.STAT.LOS p k) = 1 ∧ d.Counted (laneLos p k d) (LANE.LOS_CNT.CNT p k) ∧
    d.OnlyRegs (laneLos p k d) [LANE.STAT.LOS p k, LANE.LOS_CNT.CNT p k] := by
  have hstate : linkState ((d.inc (LANE.LOS_CNT.CNT p k)).wr (LANE.STAT.LOS p k) 1) p ≠ 5 := by
    simpa (disch := clear * -; decide +revert) only [linkState, Dev.rd_wr_other, Dev.rd_inc_other] using h
  have heq : laneLos p k d = (d.inc (LANE.LOS_CNT.CNT p k)).wr (LANE.STAT.LOS p k) 1 := by
    rw [laneLos, if_neg (by simp [hlos])]
    exact dropIfActive_idle hstate k
  rw [heq]
  refine ⟨Dev.rd_wr_fits _ (by clear * -; decide +revert), ?_,
    Dev.onlyRegs_iff.2 (.wr (.inc (.refl d _) (f := LANE.LOS_CNT.CNT p k) (by simp)) (by simp) _)⟩
  rw [Dev.Counted, Dev.rd_wr_other _ _ _ _ (by clear * -; decide +revert), Dev.rd_inc_same]

/-- With no line held, leaving ACTIVE restarts the book and counts the exit (R73). -/
theorem leaveActive_empty {d : Dev} {p : Fin 16} (hl : d.ports[p].lines = []) :
    (leaveActive d p).rd (PORT.CREDIT_R.R p) = 0 ∧ d.Counted (leaveActive d p) (PORT.LINK_DOWN_CNT.CNT p) ∧
    d.OnlyKeys (leaveActive d p) (portKey p) := by
  obtain ⟨hr, hrest, hkeep⟩ := restartCredits_spec d p
  have hbook : d.OnlyKeys (restartCredits d p) (portKey p) := ⟨hrest, Dev.KeepsKeys.mono hkeep (by clear * -; simp; decide +revert)⟩
  rw [leaveActive, closeAll_empty hl]
  refine ⟨?_, ?_, .irq (.inc hbook ?_) ?_ ?_ _⟩
  · simp (disch := clear * -; decide +revert) only [Dev.rd_irq_other, Dev.rd_inc_other, hr]
  · simp (disch := clear * -; decide +revert) only [Dev.Counted, Dev.rd_irq_other, Dev.rd_inc_same]
    rw [hkeep _ (by clear * -; decide +revert)]
  all_goals clear * -; decide +revert

/-- LOS as it is counted and set. -/
def losSet (p : Fin 16) (k : Fin 4) (d : Dev) : Dev :=
  (if d.on (LANE.STAT.LOS p k) then d else d.inc (LANE.LOS_CNT.CNT p k)).wr (LANE.STAT.LOS p k) 1

theorem losSet_only (p : Fin 16) (k : Fin 4) (d : Dev) : d.OnlyRegs (losSet p k d) [LANE.STAT.LOS p k, LANE.LOS_CNT.CNT p k] := by
  unfold losSet
  refine Dev.onlyRegs_iff.2 (.wr ?_ (by simp) _)
  split
  · exact .refl d _
  · exact .inc (.refl d _) (by simp)

theorem laneLos_drops {d : Dev} {p : Fin 16} {k : Fin 4} (h : linkState d p = 5) (hk : k.val < activeLanes d p) (hl : d.ports[p].lines = []) :
    linkState (laneLos p k d) p = 1 ∧ d.Counted (laneLos p k d) (PORT.LINK_DOWN_CNT.CNT p) ∧ (laneLos p k d).rd (PORT.CREDIT_R.R p) = 0 ∧
    d.OnlyPort (laneLos p k d) p := by
  obtain ⟨hrest, hkeep⟩ := losSet_only p k d
  have heq : laneLos p k d = toAcquire (leaveActive (losSet p k d) p) p :=
    dropIfActive_drops (d := losSet p k d) ((hkeep _ (by clear * -; decide +revert)).trans h)
      (by rwa [activeLanes, hkeep _ (by clear * -; decide +revert)])
  have hlos : d.PortKept (losSet p k d) p (portKey p) :=
    .of_onlyKeys ⟨hrest, Dev.KeepsKeys.mono hkeep (by clear * -; simp; decide +revert)⟩
  obtain ⟨hr, hcount, hleft⟩ := leaveActive_empty (d := losSet p k d) (p := p) (by rw [hrest]; exact hl)
  rw [heq]
  refine ⟨toAcquire_state _ _, ?_, ?_, Dev.onlyPort_iff.2 ((hlos.trans (.of_onlyKeys hleft)).trans (toAcquire_onlyPort _ _))⟩
  · rw [Dev.Counted, toAcquire_rd_other _ _ (by clear * -; decide +revert), hcount, hkeep _ (by clear * -; decide +revert)]
  · rw [toAcquire_rd_other _ _ (by clear * -; decide +revert), hr]

theorem blockLockLost_idle {d : Dev} {p : Fin 16} {k : Fin 4} (h : linkState d p ≠ 5) (cdr : Bool) :
    (blockLockLost p k cdr d).rd (LANE.STAT.BLOCK_LOCK p k) = 0 ∧ (blockLockLost p k cdr d).rd (LANE.STAT.ALIGNED p k) = 0 ∧
    (cdr = true → (blockLockLost p k cdr d).rd (LANE.STAT.CDR_LOCK p k) = 0) ∧
    d.OnlyRegs (blockLockLost p k cdr d) [LANE.STAT.BLOCK_LOCK p k, LANE.STAT.ALIGNED p k, LANE.STAT.CDR_LOCK p k] := by
  let d1 := (d.wr (LANE.STAT.BLOCK_LOCK p k) 0).wr (LANE.STAT.ALIGNED p k) 0
  have hlost : d.OnlyRegs d1 [LANE.STAT.BLOCK_LOCK p k, LANE.STAT.ALIGNED p k, LANE.STAT.CDR_LOCK p k] :=
    Dev.onlyRegs_iff.2 (.wr (.wr (.refl d _) (f := LANE.STAT.BLOCK_LOCK p k) (by simp) _) (by simp) _)
  have hstate {e : Dev} (he : d.OnlyRegs e [LANE.STAT.BLOCK_LOCK p k, LANE.STAT.ALIGNED p k, LANE.STAT.CDR_LOCK p k]) : linkState e p ≠ 5 := by
    rwa [linkState, he.2 _ (by clear * -; decide +revert)]
  have hlock : d1.rd (LANE.STAT.BLOCK_LOCK p k) = 0 ∧ d1.rd (LANE.STAT.ALIGNED p k) = 0 := by
    refine ⟨?_, Dev.rd_wr_fits _ (by clear * -; decide +revert)⟩
    simp (disch := clear * -; decide +revert) only [d1, Dev.rd_wr_other, Dev.rd_wr_fits]
  cases cdr with
  | false =>
    have heq : blockLockLost p k false d = d1 := dropIfActive_idle (hstate hlost) k
    rw [heq]
    exact ⟨hlock.1, hlock.2, nofun, hlost⟩
  | true =>
    have hcdr : d.OnlyRegs (d1.wr (LANE.STAT.CDR_LOCK p k) 0) [LANE.STAT.BLOCK_LOCK p k, LANE.STAT.ALIGNED p k, LANE.STAT.CDR_LOCK p k] :=
      Dev.onlyRegs_iff.2 (.wr hlost (by simp) _)
    have heq : blockLockLost p k true d = d1.wr (LANE.STAT.CDR_LOCK p k) 0 := dropIfActive_idle (hstate hcdr) k
    rw [heq]
    refine ⟨?_, ?_, fun _ => Dev.rd_wr_fits _ (by clear * -; decide +revert), hcdr⟩
    · rw [Dev.rd_wr_other _ _ _ _ (by clear * -; decide +revert), hlock.1]
    · rw [Dev.rd_wr_other _ _ _ _ (by clear * -; decide +revert), hlock.2]

/-! ## Deskew -/

theorem deskew_keys : ∀ q : Fin 16, ∀ j < 4, (LANE.STAT.ALIGNED q j).key / 131072 = Page.LANE q ∧
    (LANE.STAT.SKEW q j).key / 131072 = Page.LANE q ∧
    (LANE.STAT.ALIGNED q j).key ≠ (LANE.STAT.SKEW q j).key ∧
    ∀ k < 4, k ≠ j → (LANE.STAT.ALIGNED q k).key ≠ (LANE.STAT.ALIGNED q j).key ∧
      (LANE.STAT.ALIGNED q k).key ≠ (LANE.STAT.SKEW q j).key := by
  decide

theorem deskew_only (p : Fin 16) (skews : List Nat) (d : Dev) {k : Nat} (hk : k < 4) :
    d.OnlyKeys (deskew p skews d k) (· / 131072 = Page.LANE p) := by
  obtain ⟨haligned, hskew, -, -⟩ := deskew_keys p k hk
  unfold deskew
  extract_lets s
  split
  · exact .wr (.wr (.refl d _) haligned _) hskew _
  · exact .wr (.refl d _) haligned _

/-- A lane is aligned exactly when its skew is within 32 blocks (R60). -/
theorem deskew_aligned (p : Fin 16) (skews : List Nat) (d : Dev) {k : Nat} (hk : k < 4) :
    (deskew p skews d k).rd (LANE.STAT.ALIGNED p k) = if skews.getD k 0 ≤ 32 then 1 else 0 := by
  obtain ⟨-, -, hne, -⟩ := deskew_keys p k hk
  unfold deskew
  extract_lets s
  split
  · rw [Dev.rd_wr_other _ _ _ _ hne]
    exact Dev.rd_wr_same _ _ _
  · exact Dev.rd_wr_same _ _ _

theorem deskew_aligned_other (p : Fin 16) (skews : List Nat) (d : Dev) {j k : Nat} (hj : j < 4) (hk : k < 4) (hkj : k ≠ j) :
    (deskew p skews d j).rd (LANE.STAT.ALIGNED p k) = d.rd (LANE.STAT.ALIGNED p k) := by
  obtain ⟨-, -, -, hother⟩ := deskew_keys p j hj
  obtain ⟨haligned, hskew⟩ := hother k hk hkj
  unfold deskew
  extract_lets s
  split
  · rw [Dev.rd_wr_other _ _ _ _ hskew, Dev.rd_wr_other _ _ _ _ haligned]
  · rw [Dev.rd_wr_other _ _ _ _ haligned]

theorem deskewed_only (p : Fin 16) (skews : List Nat) (d : Dev) {n : Nat} (hn : n ≤ 4) :
    d.OnlyKeys ((List.range n).foldl (deskew p skews) d) (· / 131072 = Page.LANE p) :=
  .foldl_mem (fun e _ hk => deskew_only p skews e ((List.mem_range.1 hk).trans_le hn)) (.refl d _)

theorem deskewed_aligned (p : Fin 16) (skews : List Nat) (d : Dev) {n : Nat} (hn : n ≤ 4) :
    ∀ k < n, ((List.range n).foldl (deskew p skews) d).rd (LANE.STAT.ALIGNED p k) = if skews.getD k 0 ≤ 32 then 1 else 0 := by
  induction n with
  | zero => exact fun k hk => absurd hk (Nat.not_lt_zero k)
  | succ n ih =>
    intro k hk
    rw [List.range_succ, List.foldl_append, List.foldl_cons, List.foldl_nil]
    by_cases hkn : k = n
    · rw [hkn, deskew_aligned p skews _ (by omega)]
    · rw [deskew_aligned_other p skews _ (by omega) (by omega) hkn, ih (by omega) k (by omega)]

/-- R reconciled with USED, the difference counted (R73). -/
theorem align_resyncs {d : Dev} {p : Fin 16} {used : Nat} (skews : List Nat) (h : linkState d p = 5) (hn : activeLanes d p ≤ 4)
    (hu : used % 2 ^ 32 ≠ d.rd (PORT.CREDIT_R.R p)) :
    (align p used skews d).rd (PORT.CREDIT_R.R p) = used % 2 ^ 32 ∧ d.Counted (align p used skews d) (PORT.RESYNC_CNT.CNT p) ∧
    (∀ k < activeLanes d p, (align p used skews d).rd (LANE.STAT.ALIGNED p k) = if skews.getD k 0 ≤ 32 then 1 else 0) ∧
    d.OnlyPort (align p used skews d) p := by
  let d1 := (List.range (activeLanes d p)).foldl (deskew p skews) d
  have hd1 : d.OnlyKeys d1 (· / 131072 = Page.LANE p) := deskewed_only p skews d hn
  have heq : align p used skews d = ((d1.wr (PORT.CREDIT_R.R p) used).inc (PORT.RESYNC_CNT.CNT p)).irq (Page.PORT p) PORT.irq.RESYNC := by
    unfold align
    rw [if_pos (by rw [h]; rfl), if_neg (by simpa using hu)]
  have hlane : ∀ q : Fin 16, ∀ k < 4, ∀ f ∈ [PORT.CREDIT_R.R q, PORT.RESYNC_CNT.CNT q, Com.IRQ_RAW (Page.PORT q), Com.ERR_CNT (Page.PORT q)],
      (LANE.STAT.ALIGNED q k).key ≠ f.key := by decide
  rw [heq]
  refine ⟨?_, ?_, fun k hk => ?_, Dev.onlyPort_iff.2 (.irq (.inc (.wr (.of_onlyKeys ⟨hd1.1, hd1.2.mono ?_⟩) ?_ _) ?_) ?_ ?_ _)⟩
  · simp (disch := clear * -; decide +revert) only [Dev.rd_irq_other, Dev.rd_inc_other, Dev.rd_wr_same]
    rfl
  · simp (disch := clear * -; decide +revert) only [Dev.Counted, Dev.rd_irq_other, Dev.rd_inc_same, Dev.rd_wr_other]
    rw [hd1.2 _ (by clear * -; decide +revert)]
  · have hne := hlane p k (by omega)
    rw [Dev.rd_irq_other _ _ _ _ (hne _ (by simp)) (hne _ (by simp)), Dev.rd_inc_other _ (hne _ (by simp)), Dev.rd_wr_other _ _ _ _ (hne _ (by simp))]
    exact deskewed_aligned p skews d hn k hk
  · intro k hk
    simp [portKey, hk]
  all_goals clear * -; decide +revert

end Sys2Proof.Machine
end

section
/-! SUPPORT. Eyes (R54, R57, R65): the pre-emphasis of EYE_REPORT, the measurement and its two tracks of the ageing ledger. -/

namespace Sys2Proof.Machine

/-! ## EYE_REPORT -/

theorem txPost_sum {pre : Nat} (h : pre < 16) (post : Nat) : pre + txPost pre post ≤ 32 ∧ txPost pre post ≤ post := by
  simp only [txPost]
  omega

theorem eyeReport_adapts {d : Dev} {p : Fin 16} (h : linkState d p = 4) (ha : adaptsTx d p = true) (height width : Nat) :
    (eyeReport p height width d).rd (LANE.TX_EQ.PRE p 0) + (eyeReport p height width d).rd (LANE.TX_EQ.POST p 0) ≤ 32 ∧
    (eyeReport p height width d).ports[p].eyeGot = true ∧
    d.KeepsRegs (eyeReport p height width d) [LANE.TX_EQ.PRE p 0, LANE.TX_EQ.POST p 0] := by
  let d2 : Dev := ((d.free 4).2.free 5).2
  have hpre : (d.free 4).1 < 2 ^ 4 := Nat.mod_lt _ (by decide)
  have hpost : ((d.free 4).2.free 5).1 < 2 ^ 5 := Nat.mod_lt _ (by decide)
  obtain ⟨hsum, hle⟩ := txPost_sum hpre ((d.free 4).2.free 5).1
  have heq : eyeReport p height width d = ((d2.wr (LANE.TX_EQ.PRE p 0) (d.free 4).1).wr (LANE.TX_EQ.POST p 0)
      (txPost (d.free 4).1 ((d.free 4).2.free 5).1)).updPort p fun q => { q with eyeGot := true } := by
    unfold eyeReport
    rw [receiveMsg_idle (by omega) (by omega), if_pos (by rw [h, ha]; rfl)]
  rw [heq, Dev.updPort_ports_same]
  have hfree : d.KeepsKeys d2 (· ∈ [LANE.TX_EQ.PRE p 0, LANE.TX_EQ.POST p 0].map Fld.key) := .of_regs (.refl d _) rfl
  refine ⟨?_, rfl, Dev.KeepsKeys.of_regs (.wr (.wr hfree (f := LANE.TX_EQ.PRE p 0) (by simp) _) (f := LANE.TX_EQ.POST p 0) (by simp) _) rfl⟩
  rw [Dev.rd_updPort, Dev.rd_updPort, Dev.rd_wr_other _ _ _ _ (by clear * -; decide +revert), Dev.rd_wr_fits _ hpre,
    Dev.rd_wr_fits _ (hle.trans_lt hpost)]
  exact hsum

/-! ## EYE_MEASURE -/

theorem b2n_not_and {a b : Prop} [Decidable a] [Decidable b] : b2n (!(decide a && decide b)) = 1 ↔ ¬a ∨ ¬b := by
  by_cases ha : a
  · by_cases hb : b <;> simp [ha, hb, b2n]
  · simp [ha, b2n]

theorem eyeMeasured_shows {d : Dev} {p : Fin 16} (k : Fin 4) (h : linkState d p = 5) (height volts : Nat) :
    (eyeMeasured p k height volts d).rd (LANE.EYE.H p k) = min height 255 ∧
    (eyeMeasured p k height volts d).rd (LANE.EYE.V p k) = min (volts / 4 * 4) 4095 ∧
    ((eyeMeasured p k height volts d).rd (LANE.STAT.EYE_LOW p k) = 1 ↔
      min height 255 < d.rd (LANE.EYE_MIN.H_MIN p k) ∨ min (volts / 4 * 4) 4095 < d.rd (LANE.EYE_MIN.V_MIN p k)) ∧
    eyeMeasured p k height volts d =
      { d with regs := (eyeMeasured p k height volts d).regs, marks := (eyeMeasured p k height volts d).marks } ∧
    d.KeepsRegs (eyeMeasured p k height volts d) [LANE.EYE.H p k, LANE.EYE.V p k, LANE.EYE.VALID p k, LANE.STAT.EYE_LOW p k] := by
  let d0 := d.start (.eye (4 * p.val + k.val))
  let d1 := ((d0.wrSat (LANE.EYE.H p k) height).wrSat (LANE.EYE.V p k) (volts / 4 * 4)).wr (LANE.EYE.VALID p k) 1
  have hd1 : d0.OnlyKeys d1 (· ∈ [LANE.EYE.H p k, LANE.EYE.V p k, LANE.EYE.VALID p k, LANE.STAT.EYE_LOW p k].map Fld.key) :=
    .wr (.wr (.wr (.refl d0 _) (by simp) _) (by simp) _) (by simp) _
  have heq : eyeMeasured p k height volts d = d1.wrB (LANE.STAT.EYE_LOW p k) (!eyePasses d1 p k) := by
    have hno : ¬ (linkState d0 p == LS.equalize && !d0.ports[p].ctleDone) = true := by
      rw [show linkState d0 p = 5 from h]
      simp [LS.equalize]
    unfold eyeMeasured eyeTake
    rw [if_neg hno]
    exact if_pos (by rw [show linkState (d.start (.eye (4 * p.val + k.val))) p = 5 from h]; rfl)
  have hlow (b : Bool) : (d1.wrB (LANE.STAT.EYE_LOW p k) b).rd (LANE.STAT.EYE_LOW p k) = b2n b := by
    rw [Dev.wrB]
    cases b <;> exact Dev.rd_wr_fits _ (by clear * -; decide +revert)
  have hheight : d1.rd (LANE.EYE.H p k) = min height 255 := by
    simp (disch := clear * -; decide +revert) only [d1, Dev.wrSat, Dev.rd_wr_other]
    exact Dev.rd_wr_fits _ (Nat.lt_succ_of_le (min_le_right _ _))
  have hvolts : d1.rd (LANE.EYE.V p k) = min (volts / 4 * 4) 4095 := by
    simp (disch := clear * -; decide +revert) only [d1, Dev.wrSat, Dev.rd_wr_other]
    exact Dev.rd_wr_fits _ (Nat.lt_succ_of_le (min_le_right _ _))
  have hvalid : d1.rd (LANE.EYE.VALID p k) = 1 := Dev.rd_wr_fits _ (by clear * -; decide +revert)
  have hmins : d1.rd (LANE.EYE_MIN.H_MIN p k) = d.rd (LANE.EYE_MIN.H_MIN p k) ∧ d1.rd (LANE.EYE_MIN.V_MIN p k) = d.rd (LANE.EYE_MIN.V_MIN p k) :=
    ⟨hd1.2 _ (by clear * -; decide +revert), hd1.2 _ (by clear * -; decide +revert)⟩
  have hpass : eyePasses d1 p k =
      (decide (d.rd (LANE.EYE_MIN.H_MIN p k) ≤ min height 255) && decide (d.rd (LANE.EYE_MIN.V_MIN p k) ≤ min (volts / 4 * 4) 4095)) := by
    rw [eyePasses, hheight, hvolts, hmins.1, hmins.2, Dev.on, hvalid]
    rfl
  rw [heq]
  refine ⟨?_, ?_, ?_, rfl, Dev.KeepsKeys.wr (Dev.KeepsKeys.of_regs (.refl d _) rfl |>.trans hd1.2) (f := LANE.STAT.EYE_LOW p k) (by simp) _⟩
  · rw [Dev.wrB, Dev.rd_wr_other _ _ _ _ (by clear * -; decide +revert), hheight]
  · rw [Dev.wrB, Dev.rd_wr_other _ _ _ _ (by clear * -; decide +revert), hvolts]
  · rw [hlow, hpass, ← Nat.not_le, ← Nat.not_le]
    exact b2n_not_and

/-! ## The two tracks -/

/-- From `d` to `e` a write of the working array changes registers and the store's own record alone. -/
theorem waWrite_rest (x : Dev × Memory) (a : Nat) (bs : List Byte) :
    (waWrite x a bs).1 = { x.1 with regs := (waWrite x a bs).1.regs, nvs := (waWrite x a bs).1.nvs } := by
  obtain ⟨d, m⟩ := x
  rw [waWrite]
  extract_lets page
  split
  · split
    · rfl
    · split <;> rfl
  · rfl

/-- A write of the working array is made at once or held back. -/
theorem waWrite_mem (x : Dev × Memory) (a : Nat) (bs : List Byte) : (waWrite x a bs).2 = x.2 ∨ (waWrite x a bs).2 = x.2.store a bs := by
  obtain ⟨d, m⟩ := x
  rw [waWrite]
  extract_lets page
  split
  · split
    · exact .inl rfl
    · split
      · exact .inl rfl
      · exact .inr rfl
  · exact .inr rfl

/-- What a core write of 32 bytes on a track's place leaves: the device but for two registers and the store's record, and the memory
outside the track. -/
structure TrackKept (x y : Dev × Memory) (a : Nat) : Prop where
  rest : y.1 = { x.1 with regs := y.1.regs, nvs := y.1.nvs }
  regs : x.1.KeepsRegs y.1 [NVS.DIRTY.N, NVS.WR_WAIT_CNT.CNT]
  bytes : ∀ b, b < a ∨ a + 32 ≤ b → y.2.byte b = x.2.byte b
  flash : y.2.flash = x.2.flash

/-- A track covers four words whole. -/
theorem partEnds_track (kind unit : Nat) : partEnds (trackAddr kind unit) 32 = [] := by
  have h1 : trackAddr kind unit / 8 * 8 = trackAddr kind unit := by simp only [trackAddr, waBase]; omega
  have h2 : (trackAddr kind unit + 32 - 1) / 8 * 8 = trackAddr kind unit + 24 := by simp only [trackAddr, waBase]; omega
  rw [partEnds, if_neg (by decide), h1, h2, List.filter_eq_nil_iff]
  intro w hw
  have hw' := List.mem_eraseDups.1 hw
  simp only [List.mem_cons, List.not_mem_nil, or_false] at hw'
  simp only [decide_eq_true_eq]
  omega

theorem coreWrite_track {bs : List Byte} (hbs : bs.length = 32) (x : Dev × Memory) (kind unit : Nat) :
    TrackKept x (coreWrite x (trackAddr kind unit) bs) (trackAddr kind unit) := by
  have hcore : coreWrite x (trackAddr kind unit) bs = x ∨ coreWrite x (trackAddr kind unit) bs = waWrite x (trackAddr kind unit) bs := by
    rw [coreWrite, hbs, partEnds_track]
    by_cases hf : x.1.on NVS.STATUS.FROZEN = true <;> simp [hf]
  rcases hcore with hcore | hcore <;> rw [hcore]
  · exact ⟨rfl, Dev.KeepsKeys.refl _ _, fun _ _ => rfl, rfl⟩
  · obtain ⟨-, -, hregs⟩ := waWrite_kept x (trackAddr kind unit) bs
    obtain ⟨-, hbytes, hflash⟩ := Memory.stored_store x.2 (trackAddr kind unit) bs
    rw [hbs] at hbytes
    rcases waWrite_mem x (trackAddr kind unit) bs with hm | hm
    · exact ⟨waWrite_rest _ _ _, hregs, fun _ _ => by rw [hm], by rw [hm]⟩
    · exact ⟨waWrite_rest _ _ _, hregs, fun b hb => by rw [hm, hbytes b hb], by rw [hm, hflash]⟩

theorem ledgerEnter_track (x : Dev × Memory) (kind unit : Nat) (v : Int) : TrackKept x (ledgerEnter x kind unit v) (trackAddr kind unit) := by
  unfold ledgerEnter
  extract_lets m a poh n i32 head base cur spread wst
  split <;> exact coreWrite_track (by simp [i32, head, leBytes_length]) x kind unit

end Sys2Proof.Machine
end

section
/-! SUPPORT. What arrives on a port: the ageing ledger's eye, the error counters and the credit book (R57, R66 to R73). -/

namespace Sys2Proof.Machine

theorem eyeLedger_enters {d : Dev} {m : Memory} {p : Fin 16} {k : Fin 4} (h : linkState d p = 5)
    (hdue : d.past (.eye (4 * p.val + k.val)) (d.rd (LANE.EYE_PERIOD.PERIOD p) * oneMs) = true) (height volts : Nat) {y : Dev × Memory}
    (hy : y = eyeLedger p k height volts (d, m)) :
    y.1.rd (LANE.EYE.H p k) = min height 255 ∧ y.1.rd (LANE.EYE.V p k) = min (volts / 4 * 4) 4095 ∧
    (y.1.rd (LANE.STAT.EYE_LOW p k) = 1 ↔
      min height 255 < d.rd (LANE.EYE_MIN.H_MIN p k) ∨ min (volts / 4 * 4) 4095 < d.rd (LANE.EYE_MIN.V_MIN p k)) ∧
    linkState y.1 p = 5 ∧ y.1 = { d with regs := y.1.regs, nvs := y.1.nvs, marks := y.1.marks } ∧
    d.KeepsRegs y.1 [LANE.EYE.H p k, LANE.EYE.V p k, LANE.EYE.VALID p k, LANE.STAT.EYE_LOW p k, NVS.DIRTY.N, NVS.WR_WAIT_CNT.CNT] ∧
    (∀ a, (a < trackAddr 2 (4 * p + k) ∨ trackAddr 2 (4 * p + k) + 32 ≤ a) →
      (a < trackAddr 3 (4 * p + k) ∨ trackAddr 3 (4 * p + k) + 32 ≤ a) → y.2.byte a = m.byte a) ∧ y.2.flash = m.flash := by
  obtain ⟨hh, hv, hlow, hrest, hkeep⟩ := eyeMeasured_shows k h height volts
  let x1 := ledgerEnter (eyeMeasured p k height volts d, m) 2 (4 * p.val + k.val) height
  have h1 : TrackKept (eyeMeasured p k height volts d, m) x1 (trackAddr 2 (4 * p + k)) := ledgerEnter_track _ _ _ _
  have h2 : TrackKept x1 y (trackAddr 3 (4 * p + k)) := by
    have heq : y = ledgerEnter x1 3 (4 * p.val + k.val) ((volts / 4 * 4 : Nat) : Int) := by
      rw [hy, eyeLedger]
      exact if_pos (by rw [eyeDue, hdue, Bool.or_true])
    exact heq ▸ ledgerEnter_track _ _ _ _
  have hnvs : (eyeMeasured p k height volts d).KeepsRegs y.1 [NVS.DIRTY.N, NVS.WR_WAIT_CNT.CNT] := Dev.KeepsKeys.trans h1.regs h2.regs
  have hall : d.KeepsRegs y.1 [LANE.EYE.H p k, LANE.EYE.V p k, LANE.EYE.VALID p k, LANE.STAT.EYE_LOW p k, NVS.DIRTY.N, NVS.WR_WAIT_CNT.CNT] :=
    Dev.KeepsKeys.trans (Dev.KeepsKeys.mono hkeep (by simp)) (Dev.KeepsKeys.mono hnvs (by simp))
  refine ⟨?_, ?_, ?_, ?_, ?_, hall, fun a ha2 ha3 => (h2.bytes a ha3).trans (h1.bytes a ha2), h2.flash.trans h1.flash⟩
  · rw [hnvs _ (by clear * -; decide +revert), hh]
  · rw [hnvs _ (by clear * -; decide +revert), hv]
  · rw [hnvs _ (by clear * -; decide +revert), hlow]
  · rw [linkState, hall _ (by clear * -; decide +revert)]
    exact h
  · rw [h2.rest, h1.rest, hrest]

/-- A link message counts and its blocks stay in the book. -/
theorem linkMsgDiscard_counts (p : Fin 16) (n : Nat) (d : Dev) : d.Counted (linkMsgDiscard p n d) (PORT.MSG_ERR_CNT.CNT p) ∧
    d.OnlyRegs (linkMsgDiscard p n d) [PORT.MSG_ERR_CNT.CNT p, PORT.CREDIT_R.R p] := by
  obtain ⟨hrest, hkeep⟩ := receive_only d p n
  refine ⟨?_, Dev.onlyRegs_iff.2 (.inc ⟨hrest, Dev.KeepsKeys.mono hkeep (by simp)⟩ (by simp))⟩
  rw [Dev.Counted, linkMsgDiscard, Dev.rd_inc_same, hkeep _ (by clear * -; decide +revert)]

/-! ## Packets -/

/-- A flawless packet within the credit is taken: its blocks are in the book, and nothing else happens. -/
theorem packetIn_kept {d : Dev} {p : Fin 16} {n : Nat} (h : (receive d p n).1 = true) (own : Option Nat) (image : Bool) :
    packetIn d p n false true own image = (true, (receive d p n).2) := by
  simp [packetIn, countCorrected, h]

theorem receive_counts {d : Dev} {p : Fin 16} (h : receiving d p = true) (n : Nat) : (receive d p n).2 = countBlocks d p (packetBlocks n) := by
  simp only [receiving, Bool.or_eq_true] at h
  unfold receive
  split
  · rfl
  · rw [if_pos (h.resolve_left ‹_›)]

theorem countBlocks_only (d : Dev) (p : Fin 16) (n : Nat) : d.OnlyRegs (countBlocks d p n) [PORT.CREDIT_R.R p] :=
  Dev.onlyRegs_iff.2 (.wr (.refl d _) (f := PORT.CREDIT_R.R p) (by simp) _)

theorem countBlocks_book (d : Dev) (p : Fin 16) (n : Nat) :
    (countBlocks d p n).rd (PORT.CREDIT_R.R p) = (d.rd (PORT.CREDIT_R.R p) + n) % 2 ^ 32 := Dev.rd_wr_same _ _ _

/-- A packet of a type that is no row of Table 3.6 counts. -/
theorem dtError_counts {d : Dev} {p : Fin 16} {dt n : Nat} (h : receiving d p = true) (hk : (receive d p (if dt < 16 then 4 else 6 + n)).1 = true)
    (hdt : ¬(dt = 2 ∨ dt = 3 ∨ (8 ≤ dt ∧ dt < 16))) : d.Counted (dtError p dt n true false d) (PORT.DT_ERR_CNT.CNT p) ∧
    d.OnlyRegs (dtError p dt n true false d) [PORT.DT_ERR_CNT.CNT p, PORT.CREDIT_R.R p] := by
  obtain ⟨hrest, hkeep⟩ := receive_only d p (if dt < 16 then 4 else 6 + n)
  have heq : dtError p dt n true false d = (receive d p (if dt < 16 then 4 else 6 + n)).2.inc (PORT.DT_ERR_CNT.CNT p) := by
    simp only [dtError, h, Bool.not_true, Bool.or_true, decide_eq_true_eq, packetIn_kept hk, if_neg hdt]
    rfl
  rw [heq]
  refine ⟨?_, Dev.onlyRegs_iff.2 (.inc ⟨hrest, Dev.KeepsKeys.mono hkeep (by simp)⟩ (by simp))⟩
  rw [Dev.Counted, Dev.rd_inc_same, hkeep _ (by clear * -; decide +revert)]

/-- Line Start, Line End and the generic short packets are in the book and nowhere else. -/
theorem dtError_ignores {d : Dev} {p : Fin 16} {dt : Nat} (h : receiving d p = true) (hk : (receive d p 4).1 = true)
    (hdt : dt = 2 ∨ dt = 3 ∨ (8 ≤ dt ∧ dt < 16)) (n : Nat) : dtError p dt n true false d = countBlocks d p 2 := by
  have hshort : dt < 16 := by omega
  simp only [dtError, h, Bool.not_true, Bool.or_true, decide_eq_true_eq, if_pos hshort, packetIn_kept hk, if_pos hdt]
  exact receive_counts h 4

/-- The open line, when there is one, takes a flag. -/
def flagCur (d : Dev) (p : Fin 16) (b : Nat) (e : Dev) : Dev :=
  match d.ports[p].cur with
  | some w => flagLine e p w b
  | none => e

@[simp] theorem rd_flagCur (d : Dev) (p : Fin 16) (b : Nat) (e : Dev) (f : Fld) : (flagCur d p b e).rd f = e.rd f := by
  unfold flagCur
  split <;> rfl

theorem flagCur_kept {d e c : Dev} {p : Fin 16} {S : Nat → Prop} (h : d.PortKept e p S) (b : Nat) : d.PortKept (flagCur c p b e) p S := by
  unfold flagCur
  split
  · rw [flagLine, updLine]
    exact h.updPort _
  · exact h

theorem invalidSyncHeader_counts (p : Fin 16) (k : Fin 4) (d : Dev) :
    d.Counted (invalidSyncHeader p k d) (LANE.BLK_ERR_CNT.CNT p k) ∧ d.KeepsRegs (invalidSyncHeader p k d) [LANE.BLK_ERR_CNT.CNT p k] ∧
    d.OnlyPort (invalidSyncHeader p k d) p := by
  have heq : invalidSyncHeader p k d = flagCur d p PF.hdrErr (d.inc (LANE.BLK_ERR_CNT.CNT p k)) := rfl
  have hkept : d.PortKept (invalidSyncHeader p k d) p (· ∈ [LANE.BLK_ERR_CNT.CNT p k].map Fld.key) :=
    heq ▸ flagCur_kept (.inc (.refl d p _) (f := LANE.BLK_ERR_CNT.CNT p k) (by simp)) _
  refine ⟨?_, hkept.regs, hkept.onlyPort (by clear * -; decide +revert)⟩
  rw [heq, Dev.Counted, rd_flagCur, Dev.rd_inc_same]

theorem headerEccError_counts {d : Dev} {p : Fin 16} (h : receiving d p = true) (n : Nat) :
    d.Counted (headerEccError p n d) (PORT.HDR_ERR_CNT.CNT p) ∧
    (headerEccError p n d).rd (PORT.CREDIT_R.R p) = (d.rd (PORT.CREDIT_R.R p) + n) % 2 ^ 32 ∧
    d.KeepsRegs (headerEccError p n d) [PORT.HDR_ERR_CNT.CNT p, PORT.CREDIT_R.R p] ∧ d.OnlyPort (headerEccError p n d) p := by
  obtain ⟨hrest, hkeep⟩ := countBlocks_only d p n
  have heq : headerEccError p n d = flagCur d p PF.hdrErr ((countBlocks d p n).inc (PORT.HDR_ERR_CNT.CNT p)) := by
    rw [headerEccError, if_pos h]
    rfl
  have hbook : d.PortKept (countBlocks d p n) p (· ∈ [PORT.HDR_ERR_CNT.CNT p, PORT.CREDIT_R.R p].map Fld.key) :=
    .of_onlyKeys ⟨hrest, Dev.KeepsKeys.mono hkeep (by simp)⟩
  have hkept : d.PortKept (headerEccError p n d) p (· ∈ [PORT.HDR_ERR_CNT.CNT p, PORT.CREDIT_R.R p].map Fld.key) :=
    heq ▸ flagCur_kept (hbook.inc (f := PORT.HDR_ERR_CNT.CNT p) (by simp)) _
  refine ⟨?_, ?_, hkept.regs, hkept.onlyPort (by clear * -; decide +revert)⟩
  · rw [heq, Dev.Counted, rd_flagCur, Dev.rd_inc_same, hkeep _ (by clear * -; decide +revert)]
  · rw [heq, rd_flagCur, Dev.rd_inc_other _ (by clear * -; decide +revert), countBlocks_book]

/-! ## Credits -/

theorem sendCredit_out (d : Dev) (p : Fin 16) : (sendCredit d p).out = .credit p.val (d.rd (PORT.CREDIT_G.G p) % 65536) :: d.out := rfl

theorem sendCredit_kept {d e : Dev} {p : Fin 16} {S : Nat → Prop} (h : d.PortKept e p S) : d.PortKept (sendCredit e p) p S := by
  rw [sendCredit]
  exact (h.emit _).updPort _

theorem creditGUpdate_raises {d : Dev} {p : Fin 16} {spare : Nat} (h : linkState d p ≠ 7)
    (hspare : 65536 - (d.rd (PORT.BUF_USED.B p) : Int) - grantLeft d p = spare) (hfits : d.rd (PORT.CREDIT_G.G p) + spare / 32 < 2 ^ 32) :
    (creditGUpdate p d).rd (PORT.CREDIT_G.G p) = d.rd (PORT.CREDIT_G.G p) + spare / 32 ∧
    ((creditGUpdate p d).out = .credit p.val ((creditGUpdate p d).rd (PORT.CREDIT_G.G p) % 65536) :: d.out ↔
      linkState d p = 5 ∧ d.ports[p].lastG + 16 ≤ (creditGUpdate p d).rd (PORT.CREDIT_G.G p)) ∧
    d.KeepsRegs (creditGUpdate p d) [PORT.CREDIT_G.G p] ∧ d.OnlyPort (creditGUpdate p d) p := by
  let d1 := d.wr (PORT.CREDIT_G.G p) (d.rd (PORT.CREDIT_G.G p) + spare / 32)
  have hd1 : d.PortKept d1 p (· ∈ [PORT.CREDIT_G.G p].map Fld.key) := .wr (.refl d p _) (f := PORT.CREDIT_G.G p) (by simp) _
  have hg : d1.rd (PORT.CREDIT_G.G p) = d.rd (PORT.CREDIT_G.G p) + spare / 32 := Dev.rd_wr_fits _ hfits
  have heq : creditGUpdate p d = if linkState d p = 5 ∧ d.ports[p].lastG + 16 ≤ d1.rd (PORT.CREDIT_G.G p) then sendCredit d1 p else d1 := by
    have hwhole : ((spare : Int) / 32).toNat = spare / 32 := by omega
    rw [creditGUpdate, if_neg (by simpa [LS.snoop] using h), hspare]
    simp only [hwhole, Bool.and_eq_true, decide_eq_true_eq, beq_iff_eq, LS.active, d1]
  rw [heq]
  by_cases hsend : linkState d p = 5 ∧ d.ports[p].lastG + 16 ≤ d1.rd (PORT.CREDIT_G.G p)
  · rw [if_pos hsend]
    have hkept : d.PortKept (sendCredit d1 p) p (· ∈ [PORT.CREDIT_G.G p].map Fld.key) := sendCredit_kept hd1
    exact ⟨hg, ⟨fun _ => hsend, fun _ => sendCredit_out d1 p⟩, hkept.regs, hkept.onlyPort (by clear * -; decide +revert)⟩
  · rw [if_neg hsend]
    refine ⟨hg, ⟨fun hout => ?_, fun hs => absurd hs hsend⟩, hd1.regs, hd1.onlyPort (by clear * -; decide +revert)⟩
    exact absurd (congrArg List.length hout) (by simp [d1, Dev.wr])

theorem creditGUpdate_snoop {d : Dev} {p : Fin 16} (h : linkState d p = 7) : creditGUpdate p d = d := by
  rw [creditGUpdate, if_pos (by rw [h]; rfl)]

theorem creditSend_sends {d : Dev} {p : Fin 16} (h : linkState d p = 5) :
    (creditSend p d).out = .credit p.val (d.rd (PORT.CREDIT_G.G p) % 65536) :: d.out ∧ (creditSend p d).regs = d.regs ∧
    (creditSend p d).ports[p].lastG = d.rd (PORT.CREDIT_G.G p) ∧ d.OnlyPort (creditSend p d) p := by
  have heq : creditSend p d = sendCredit d p := by rw [creditSend, if_pos (by rw [h]; rfl)]
  rw [heq]
  refine ⟨rfl, rfl, ?_, Dev.onlyPort_iff.2 (sendCredit_kept (.refl d p _))⟩
  rw [sendCredit, Dev.updPort_ports_same]

/-- Settles O16. A lane's event is counted before the link may drop; what arrives on a port is entered in the book by `receive` or
`countBlocks`, and each error has its counter; EYE_MEASURE writes the two tracks of the ageing ledger (`TrackKept`). -/
theorem lanesErrorsAndCredits : Obligations.LanesErrorsAndCredits := by
  refine ⟨?_, ?_, ?_, ?_, ?_, ?_, ?_, ?_, ?_, ?_, ?_, ?_, ?_, ?_⟩
  · exact fun s p k hup h hlos => gives_of_onDev rfl hup (laneLos_idle h hlos)
  · exact fun s p k hup h hk hl => gives_of_onDev rfl hup (laneLos_drops h hk hl)
  · exact fun s p k cdr hup h => gives_of_onDev rfl hup (blockLockLost_idle h cdr)
  · exact fun s p used skews hup h hn hu => gives_of_onDev rfl hup (align_resyncs skews h hn hu)
  · exact fun s p height volts hup h ha => gives_of_onDev rfl hup (eyeReport_adapts h ha height volts)
  · exact fun s p k height volts hup h hdue =>
      completes_of_onBoth (g := eyeLedger p k height volts) rfl hup (eyeLedger_enters h hdue height volts rfl)
  · exact fun s p n hup => gives_of_onDev rfl hup (linkMsgDiscard_counts p n s.dev)
  · exact fun s p dt n hup h hk hdt => gives_of_onDev rfl hup (dtError_counts h hk hdt)
  · intro s p dt n hup h hk hdt
    refine gives_of_onDev (g := dtError p dt n true false) rfl hup ?_
    rw [dtError_ignores h hk hdt]
    exact ⟨countBlocks_book _ _ _, countBlocks_only _ _ _⟩
  · exact fun s p k hup => gives_of_onDev rfl hup (invalidSyncHeader_counts p k s.dev)
  · exact fun s p n hup h => gives_of_onDev rfl hup (headerEccError_counts h n)
  · exact fun s p spare hup h hspare hfits => gives_of_onDev rfl hup (creditGUpdate_raises h hspare hfits)
  · exact fun s p hup h => gives_of_onDev rfl hup (creditGUpdate_snoop h)
  · exact fun s p hup h => gives_of_onDev rfl hup (creditSend_sends h)

end Sys2Proof.Machine
end

section
/-! SUPPORT. A snapshot that a line's first data completes (R30, R302): what it leaves. -/

namespace Sys2Proof.Machine

/-- From `d` to `e` only the snapshot, the sessions, what the module has sent, and registers of the pages WEB and HOST changed. -/
structure Dev.SnapKept (d e : Dev) : Prop where
  rest : e = { d with regs := e.regs, snap := e.snap, host := e.host, out := e.out }
  regs : d.KeepsKeys e (· / 131072 ∈ [Page.WEB, Page.HOST])

namespace Dev.SnapKept
variable {d e : Dev}

theorem refl (d : Dev) : d.SnapKept d := ⟨rfl, .refl _ _⟩

theorem trans {e' : Dev} (h : d.SnapKept e) (h' : e.SnapKept e') : d.SnapKept e' := ⟨by rw [h'.rest, h.rest], h.regs.trans h'.regs⟩

theorem wr (h : d.SnapKept e) {f : Fld} (hf : f.key / 131072 ∈ [Page.WEB, Page.HOST]) (v : Nat) : d.SnapKept (e.wr f v) :=
  h.trans ⟨rfl, (KeepsKeys.refl e _).wr hf v⟩

theorem updSnap (h : d.SnapKept e) (s : Snap) : d.SnapKept { e with snap := s } := h.trans ⟨rfl, (KeepsKeys.refl e _).of_regs rfl⟩

theorem updHost (h : d.SnapKept e) (s : HostSt) : d.SnapKept { e with host := s } := h.trans ⟨rfl, (KeepsKeys.refl e _).of_regs rfl⟩

theorem emit (h : d.SnapKept e) (o : Out) : d.SnapKept (e.emit o) := h.trans ⟨rfl, (KeepsKeys.refl e _).of_regs rfl⟩

theorem ite (c : Prop) [Decidable c] {e' : Dev} (h : d.SnapKept e) (h' : d.SnapKept e') : d.SnapKept (if c then e else e') := by
  split
  · exact h
  · exact h'

theorem snapAsk (h : d.SnapKept e) (next : Bool) (s : Nat) : d.SnapKept (snapAsk e next s) :=
  ((h.wr (f := WEB.SNAP_STATUS.PENDING) (by decide) 1).wr (f := WEB.SNAP_STATUS.VALID) (by decide) 0).updSnap _

theorem snapDrop (h : d.SnapKept e) : d.SnapKept (snapDrop e) :=
  ((h.wr (f := WEB.SNAP_STATUS.VALID) (by decide) 0).wr (f := WEB.SNAP_STATUS.PENDING) (by decide) 0).updSnap _

theorem toRing (h : d.SnapKept e) (k : MsgKind) (args : List Int) : d.SnapKept (e.toRing k args) := .ite _ (h.emit _) h

theorem toStandby (h : d.SnapKept e) (k : MsgKind) (args : List Int) : d.SnapKept (e.toStandby k args) := .ite _ (h.emit _) h

theorem snapStart (h : d.SnapKept e) (next : Bool) (s : Nat) (ring : Bool) : d.SnapKept (snapStart e next s ring) :=
  .ite _ (h.snapAsk _ _) (.ite _ h (.ite _ (h.snapAsk _ _) (((h.snapAsk _ _).toRing _ _).toStandby _ _)))

theorem snapNextJob (js : List SnapJob) (h : d.SnapKept e) : d.SnapKept (snapNextJob js e) := by
  induction js generalizing e with
  | nil => exact h.updSnap _
  | cons j rest ih =>
    rw [Machine.snapNextJob]
    exact .ite _ ((h.updSnap _).snapStart _ _ _) (ih ((h.updSnap _).snapStart _ _ _))

theorem answer (h : d.SnapKept e) (port j seq : Nat) (fs : List (Nat × List Nat)) : d.SnapKept (answer e port j seq fs) := by
  have hframes : d.SnapKept (fs.foldl (fun d f => sendFrame (arpUse d port j) port f.1 (d.rd (HOST.SESS_ID.ID j) :: seq :: f.2)) e) := by
    induction fs generalizing e with
    | nil => exact h
    | cons f fs ih => exact ih (((h.updHost _).emit _).wr (by split <;> decide) _)
  exact hframes.updHost _

theorem snapAnswer (h : d.SnapKept e) : d.SnapKept (snapAnswer e) := by
  unfold Machine.snapAnswer
  split
  · exact h
  · split
    · exact h
    · split
      · exact h
      · exact snapNextJob _ (.ite _ (h.answer _ _ _ _).snapDrop (h.answer _ _ _ _))

theorem snapReach (h : d.SnapKept e) (p w : Nat) (fs : List Fld) : d.SnapKept (e.snapReach p w fs) :=
  .ite _ (snapAnswer ((h.updSnap _).updSnap _)) h

theorem ports_eq (h : d.SnapKept e) : e.ports = d.ports := by rw [h.rest]

theorem pipes_eq (h : d.SnapKept e) : e.pipes = d.pipes := by rw [h.rest]

theorem gen_eq (h : d.SnapKept e) : e.gen = d.gen := by rw [h.rest]

end Dev.SnapKept

end Sys2Proof.Machine
end

section
/-! SUPPORT. A line among the lines of its port (R67, R84): how it is found, rewritten, closed and forgotten. -/

namespace Sys2Proof.Machine

/-! ## Finding a line -/

theorem findLine_of_lines {d e : Dev} {p : Fin 16} (h : e.lines p = d.lines p) (w : Nat) : findLine e p w = findLine d p w := by
  rw [findLine, findLine, h]

theorem findLine_wln {d : Dev} {p : Fin 16} {w : Nat} {l : PLine} (h : findLine d p w = some l) : l.trig.wln = w := by
  simpa using List.find?_some h

/-- A line rewritten under its own trigger is found where it stood. -/
theorem findLine_updLine {g : PLine → PLine} (hg : ∀ l, (g l).trig = l.trig) (d : Dev) (p : Fin 16) (w w' : Nat) :
    findLine (updLine d p w g) p w' = (findLine d p w').map fun l => if l.trig.wln == w then g l else l := by
  have hwln : (fun l : PLine => l.trig.wln == w') ∘ (fun l => if l.trig.wln == w then g l else l) = fun l => l.trig.wln == w' := by
    funext l
    dsimp only [Function.comp]
    split
    · rw [hg]
    · rfl
  rw [findLine, lines_updLine, List.find?_map, hwln]
  rfl

theorem findLine_updLine_same {g : PLine → PLine} (hg : ∀ l, (g l).trig = l.trig) (d : Dev) (p : Fin 16) (w : Nat) :
    findLine (updLine d p w g) p w = (findLine d p w).map g := by
  rw [findLine_updLine hg]
  cases hl : findLine d p w with
  | none => rfl
  | some l => simp [findLine_wln hl]

theorem findLine_updLine_other {g : PLine → PLine} (hg : ∀ l, (g l).trig = l.trig) (d : Dev) (p : Fin 16) {w w' : Nat} (hw : w' ≠ w) :
    findLine (updLine d p w g) p w' = findLine d p w' := by
  rw [findLine_updLine hg]
  cases hl : findLine d p w' with
  | none => rfl
  | some l => simp [findLine_wln hl, hw]

theorem findLine_holdBlocks (d : Dev) (p : Fin 16) (w n : Nat) :
    findLine (holdBlocks d p w n) p w = (findLine d p w).map fun l => { l with blocks := l.blocks + packetBlocks n } :=
  findLine_updLine_same (g := fun l => { l with blocks := l.blocks + packetBlocks n }) (fun _ => rfl) d p w

/-! ## After a line has closed -/

/-- From `d` to `e`, in the records of port `p`, other lines than `w` are found as before, a closed line stays closed and no line opens;
registers outside `S` are kept. -/
structure Dev.LineKept (d e : Dev) (p : Fin 16) (w : Nat) (S : Nat → Prop) : Prop where
  pipes : e.pipes = d.pipes
  others : ∀ w' ≠ w, findLine e p w' = findLine d p w'
  closed : (∀ x ∈ d.lines p, x.trig.wln = w → x.closed.isSome = true) → ∀ x ∈ e.lines p, x.trig.wln = w → x.closed.isSome = true
  cur : d.ports[p].cur ≠ some w → e.ports[p].cur ≠ some w
  regs : d.KeepsKeys e S

namespace Dev.LineKept
variable {d e : Dev} {p : Fin 16} {w : Nat} {S : Nat → Prop}

theorem refl (d : Dev) (p : Fin 16) (w : Nat) (S : Nat → Prop) : d.LineKept d p w S := ⟨rfl, fun _ _ => rfl, id, id, .refl _ _⟩

theorem trans {e' : Dev} (h : d.LineKept e p w S) (h' : e.LineKept e' p w S) : d.LineKept e' p w S :=
  ⟨h'.pipes.trans h.pipes, fun w' hw => (h'.others w' hw).trans (h.others w' hw), h'.closed ∘ h.closed, h'.cur ∘ h.cur, h.regs.trans h'.regs⟩

/-- A change of registers alone. -/
theorem of_onlyKeys (h : d.OnlyKeys e S) : d.LineKept e p w S := by
  obtain ⟨hrest, hregs⟩ := h
  exact ⟨by rw [hrest], fun _ _ => by rw [hrest]; rfl, fun hc => by rw [hrest]; exact hc, fun hc => by rw [hrest]; exact hc, hregs⟩

theorem inc (h : d.LineKept e p w S) {f : Fld} (hf : S f.key) : d.LineKept (e.inc f) p w S := h.trans (of_onlyKeys ((OnlyKeys.refl e S).inc hf))

theorem irq (h : d.LineKept e p w S) {n : Nat} (h1 : S (Com.IRQ_RAW n).key) (h2 : S (Com.ERR_CNT n).key) (b : Nat) :
    d.LineKept (e.irq n b) p w S :=
  h.trans (of_onlyKeys ((OnlyKeys.refl e S).irq h1 h2 b))

theorem ite (c : Prop) [Decidable c] {e' : Dev} (h : d.LineKept e p w S) (h' : d.LineKept e' p w S) :
    d.LineKept (if c then e else e') p w S := by
  split
  · exact h
  · exact h'

theorem releaseBlocks (h : d.LineKept e p w S) (hS : S (PORT.BUF_USED.B p).key) : d.LineKept (releaseBlocks e p w) p w S := by
  refine h.trans ⟨rfl, fun w' hw => findLine_updLine_other (g := fun l => { l with blocks := 0 }) (fun _ => rfl) _ p hw,
    fun hc => updLine_forall hc fun _ => id, fun hc => ?_, (KeepsKeys.refl e S).wr hS _⟩
  rw [Machine.releaseBlocks, updLine, updPort_ports_same]
  exact hc

/-- A line that the port forgets is not found open either. -/
theorem releaseLine (h : d.LineKept e p w S) (hS : S (PORT.BUF_USED.B p).key) : d.LineKept (releaseLine e p w) p w S := by
  have hlines : (Machine.releaseLine e p w).lines p = (e.lines p).filter fun l => l.trig.wln != w := by
    rw [Machine.releaseLine, lines_updPort]
    rfl
  refine h.trans ⟨rfl, fun w' hw => ?_, fun hc x hx => hc x ?_, fun hc => ?_, (KeepsKeys.refl e S).wr hS _⟩
  · have hfound : (fun l : PLine => decide ((l.trig.wln != w) = true ∧ (l.trig.wln == w') = true)) = fun l => l.trig.wln == w' := by
      funext l
      by_cases hl : l.trig.wln = w'
      · simp [hl, hw]
      · simp [hl]
    rw [findLine, hlines, List.find?_filter, hfound]
    rfl
  · rw [hlines] at hx
    exact (List.mem_filter.1 hx).1
  · rw [Machine.releaseLine, updPort_ports_same]
    dsimp only
    split
    · exact nofun
    · exact hc

end Dev.LineKept

/-! ## LINE_CLOSE -/

/-- Of what LINE_CLOSE may write once a MISSING line is counted, nothing is that counter. -/
theorem uncounted_key (p : Fin 16) : ∀ f ∈ [PORT.BUF_USED.B p, PORT.FORMAT_CNT.CNT p, PORT.LINES_FLAGGED.CNT p, PORT.LINES_OK.CNT p,
    Com.IRQ_RAW (Page.PORT p), Com.ERR_CNT (Page.PORT p), PIPE.UNROUTED_CNT.CNT 0], f.key ≠ (PORT.MISSING_CNT.CNT p).key := by
  decide +revert

/-- An open line that closes: it stands open no longer, it is not the line in progress, and it is counted when it is MISSING. -/
theorem closeLine_closes {d : Dev} {p : Fin 16} {w : Nat} {l : PLine} (hl : findLine d p w = some l) (hopen : l.closed = none)
    (flags : List Nat) :
    (∀ x ∈ (closeLine d p w flags).lines p, x.trig.wln = w → x.closed.isSome = true) ∧ (closeLine d p w flags).ports[p].cur ≠ some w ∧
    (flags.contains PF.missing = true → d.Counted (closeLine d p w flags) (PORT.MISSING_CNT.CNT p)) ∧
    (closeLine d p w flags).pipes = d.pipes ∧ ∀ w' ≠ w, findLine (closeLine d p w flags) p w' = findLine d p w' := by
  have hkey := uncounted_key p
  generalize he : closeLine d p w flags = e
  rw [closeLine, hl] at he
  dsimp -zeta only at he
  rw [if_neg (by simp [hopen])] at he
  extract_lets len missing short fl0 fl d0 d1 d2 d3 d4 d5 d6 d7 at he
  subst he
  have h0 : d.SnapKept d0 := (Dev.SnapKept.refl d).snapReach _ _ _
  have hlines0 : d0.lines p = d.lines p := lines_of_ports h0.ports_eq p
  have hlines2 : d2.lines p = d1.lines p := lines_updPort _ _ _
  have hclosed : ∀ x ∈ d2.lines p, x.trig.wln = w → x.closed.isSome = true := by
    rw [hlines2]
    exact updLine_forall (Q := fun _ => True) (fun _ _ _ => trivial) (fun _ _ => rfl)
  have hcur : d2.ports[p].cur ≠ some w := by
    rw [Dev.updPort_ports_same]
    dsimp only
    split
    · exact nofun
    next hne => simpa using hne
  have hothers : ∀ w' ≠ w, findLine d2 p w' = findLine d p w' := by
    intro w' hw
    rw [findLine_of_lines hlines2, findLine_updLine_other _ d0 p hw, findLine_of_lines hlines0]
    exact fun _ => rfl
  have h3 : d2.LineKept d3 p w fun _ => True := .ite _ (((Dev.LineKept.refl d2 p w _).releaseBlocks trivial).inc trivial) (.refl _ _ _ _)
  have hcount : flags.contains PF.missing = true → d.Counted d3 (PORT.MISSING_CNT.CNT p) := by
    intro hm
    have hd3 : d3 = (releaseBlocks d2 p w).inc (PORT.MISSING_CNT.CNT p) := if_pos hm
    have hreads : (releaseBlocks d2 p w).rd (PORT.MISSING_CNT.CNT p) = d0.rd (PORT.MISSING_CNT.CNT p) :=
      Dev.rd_wr_other _ _ _ _ (hkey _ (by simp)).symm
    rw [Dev.Counted, hd3, Dev.rd_inc_same, hreads, h0.regs _ (by clear * -; decide +revert)]
  have h4 : d3.LineKept d4 p w (· ≠ (PORT.MISSING_CNT.CNT p).key) :=
    .ite _ ((Dev.LineKept.refl d3 p w _).inc (hkey _ (by simp))) (.refl _ _ _ _)
  have h5 : d3.LineKept d5 p w (· ≠ (PORT.MISSING_CNT.CNT p).key) := .ite _ (h4.inc (hkey _ (by simp))) h4
  have h6 : d3.LineKept d6 p w (· ≠ (PORT.MISSING_CNT.CNT p).key) :=
    .ite _ ((h5.inc (hkey _ (by simp))).irq (hkey _ (by simp)) (hkey _ (by simp)) _) (h5.inc (hkey _ (by simp)))
  have h7 : d3.LineKept d7 p w (· ≠ (PORT.MISSING_CNT.CNT p).key) := .ite _ (h6.inc (hkey _ (by simp))) h6
  have hend := Dev.LineKept.ite (lineExpected d6 p w = true) (.ite (lineTaken d6 p w = true) (h6.releaseBlocks (hkey _ (by simp))) h6)
    (h7.releaseLine (hkey _ (by simp)))
  refine ⟨hend.closed (h3.closed hclosed), hend.cur (h3.cur hcur), fun hm => ?_, ?_, fun w' hw => ?_⟩
  · rw [Dev.Counted, hend.regs _ (by simp), hcount hm]
  · rw [hend.pipes, h3.pipes, show d2.pipes = d0.pipes from rfl, h0.pipes_eq]
  · rw [hend.others w' hw, h3.others w' hw, hothers w' hw]

/-- Closing a line, open or not, leaves the pipelines and every other line. -/
theorem closeLine_others (d : Dev) (p : Fin 16) (w : Nat) (flags : List Nat) :
    (closeLine d p w flags).pipes = d.pipes ∧ ∀ w' ≠ w, findLine (closeLine d p w flags) p w' = findLine d p w' := by
  cases hl : findLine d p w with
  | none => simp [closeLine, hl]
  | some l =>
    cases hc : l.closed with
    | none =>
      obtain ⟨-, -, -, hpipes, hothers⟩ := closeLine_closes hl hc flags
      exact ⟨hpipes, hothers⟩
    | some t => simp [closeLine, hl, hc]

end Sys2Proof.Machine
end

section
/-! SUPPORT. Packets (R66 to R70, R305): what an arriving packet makes of its line, on an ACTIVE port and within the credit. -/

namespace Sys2Proof.Machine

theorem receiving_of_active {d : Dev} {p : Fin 16} (h : linkState d p = 5) : receiving d p = true := by
  rw [receiving, h]
  rfl

/-- A packet within the credit, flawless: its blocks are in the book. -/
theorem packetIn_active {d : Dev} {p : Fin 16} {n : Nat} (h : linkState d p = 5) (hk : (receive d p n).1 = true) (own : Option Nat) (image : Bool) :
    packetIn d p n false true own image = (true, countBlocks d p (packetBlocks n)) := by
  rw [packetIn_kept hk, receive_counts (receiving_of_active h)]

theorem countBlocks_trigKept (d : Dev) (p : Fin 16) (n : Nat) : d.TrigKept (countBlocks d p n) :=
  (Dev.TrigKept.refl d).wr (f := PORT.CREDIT_R.R p) (trigKey_of_above (by simp only [PORT.CREDIT_R.R, fld]; omega)) _

theorem holdBlocks_trigKept {d e : Dev} (h : d.TrigKept e) (p : Fin 16) (w n : Nat) : d.TrigKept (holdBlocks e p w n) := by
  unfold holdBlocks
  exact (h.updLine _ _ _).wr (f := PORT.BUF_USED.B p) (trigKey_of_above (by simp only [PORT.BUF_USED.B, fld]; omega)) _

/-! ## Frame Start -/

/-- Closing a list of other lines leaves the pipelines, the generator and line `w`. -/
theorem closed_others (p : Fin 16) {w : Nat} (g : PLine → List Nat) {ls : List PLine} (hls : ∀ x ∈ ls, x.trig.wln ≠ w) (d : Dev) :
    (ls.foldl (fun d x => closeLine d p x.trig.wln (g x)) d).pipes = d.pipes ∧
    (ls.foldl (fun d x => closeLine d p x.trig.wln (g x)) d).gen = d.gen ∧
    findLine (ls.foldl (fun d x => closeLine d p x.trig.wln (g x)) d) p w = findLine d p w := by
  induction ls generalizing d with
  | nil => exact ⟨rfl, rfl, rfl⟩
  | cons x xs ih =>
    obtain ⟨hpipes, hgen, hfind⟩ := ih (fun y hy => hls y (.tail _ hy)) (closeLine d p x.trig.wln (g x))
    obtain ⟨hpipes', hothers⟩ := closeLine_others d p x.trig.wln (g x)
    exact ⟨hpipes.trans hpipes', hgen.trans ((Dev.TrigKept.refl d).closeLine _ _ _).gen, hfind.trans (hothers w (hls x (.head _)).symm)⟩

/-- What a Frame Start makes of the line it opens, once the earlier ones are closed. -/
def lineOpened (d : Dev) (p : Fin 16) (w : Nat) : Dev :=
  (holdBlocks ((updLine d p w fun x => { x with fs := true }).snapReach (Page.PORT p) w (PORT.fields p)) p w 4).updPort p
    fun q => { q with cur := some w, dropToFs := false }

theorem lineOpened_spec {d : Dev} {p : Fin 16} {w : Nat} {l : PLine} (hl : findLine d p w = some l) :
    (lineOpened d p w).ports[p].cur = some w ∧ (lineOpened d p w).ports[p].dropToFs = false ∧
    (findLine (lineOpened d p w) p w).map PLine.fs = some true ∧ (lineOpened d p w).pipes = d.pipes ∧ (lineOpened d p w).gen = d.gen := by
  let d1 := updLine d p w fun x => { x with fs := true }
  have hsnap : d1.SnapKept (d1.snapReach (Page.PORT p) w (PORT.fields p)) := (Dev.SnapKept.refl d1).snapReach _ _ _
  have hfind1 : findLine d1 p w = some { l with fs := true } := by
    rw [findLine_updLine_same, hl]
    · rfl
    · exact fun _ => rfl
  have hfind : findLine (d1.snapReach (Page.PORT p) w (PORT.fields p)) p w = some { l with fs := true } := by
    rw [findLine_of_lines (lines_of_ports hsnap.ports_eq p), hfind1]
  refine ⟨?_, ?_, ?_, ?_, ?_⟩
  · rw [lineOpened, Dev.updPort_ports_same]
  · rw [lineOpened, Dev.updPort_ports_same]
  · rw [lineOpened, findLine_of_lines (lines_updPort _ _ _), findLine_holdBlocks, hfind]
    rfl
  · exact hsnap.pipes_eq
  · exact hsnap.gen_eq

theorem frameStart_opens {d : Dev} {p : Fin 16} {vc data : Nat} {l : PLine} (h : linkState d p = 5) (hvc : onImage d p vc = true)
    (hk : (receive d p 4).1 = true) (hl : startsLine d p data = some l) :
    (frameStart p vc data false d).ports[p].cur = some l.trig.wln ∧ (frameStart p vc data false d).ports[p].dropToFs = false ∧
    (findLine (frameStart p vc data false d) p l.trig.wln).map PLine.fs = some true ∧ (frameStart p vc data false d).pipes = d.pipes ∧
    (frameStart p vc data false d).gen = d.gen := by
  let d1 := countBlocks d p (packetBlocks 4)
  let earlier := (d1.lines p).filter fun x => x.closed.isNone && decide (x.trig.wln < l.trig.wln)
  let d2 := earlier.foldl (fun d x => closeLine d p x.trig.wln [if x.fs then PF.feMissing else PF.missing]) d1
  have hstart : startsLine d1 p data = some l := hl
  have heq : frameStart p vc data false d = lineOpened d2 p l.trig.wln := by
    simp only [frameStart, receiving_of_active h, hvc, packetIn_active h hk]
    rw [if_neg (by simp), if_neg (by simp), hstart]
    rfl
  have hearlier : ∀ x ∈ earlier, x.trig.wln ≠ l.trig.wln := by
    intro x hx
    have hx' := (List.mem_filter.1 hx).2
    simp only [Bool.and_eq_true, decide_eq_true_eq] at hx'
    exact hx'.2.ne
  obtain ⟨hpipes, hgen, hfind⟩ := closed_others p (fun x => [if x.fs then PF.feMissing else PF.missing]) hearlier d1
  obtain ⟨x, hx⟩ : ∃ x, findLine d1 p l.trig.wln = some x :=
    Option.isSome_iff_exists.1 (List.find?_isSome.2 ⟨l, List.mem_of_find?_eq_some hl, beq_self_eq_true _⟩)
  obtain ⟨hcur, hdrop, hfs, hpipes', hgen'⟩ := lineOpened_spec (hfind.trans hx)
  rw [heq]
  exact ⟨hcur, hdrop, hfs, hpipes'.trans hpipes, hgen'.trans hgen⟩

theorem formatError_spec (d : Dev) (p : Fin 16) : d.Counted (formatError d p) (PORT.FORMAT_CNT.CNT p) ∧
    d.PortKept (formatError d p) p (· ∈ [PORT.FORMAT_CNT.CNT p, PORT.CREDIT_R.R p].map Fld.key) := by
  have heq : formatError d p = flagCur d p PF.format (d.inc (PORT.FORMAT_CNT.CNT p)) := rfl
  rw [heq]
  exact ⟨(rd_flagCur _ _ _ _ _).trans (Dev.rd_inc_same _ _), flagCur_kept (.inc (.refl d p _) (f := PORT.FORMAT_CNT.CNT p) (by simp)) _⟩

theorem frameStart_unmatched {d : Dev} {p : Fin 16} {vc data : Nat} (h : linkState d p = 5) (hvc : onImage d p vc = true)
    (hk : (receive d p 4).1 = true) (hl : startsLine d p data = none) :
    d.Counted (frameStart p vc data false d) (PORT.FORMAT_CNT.CNT p) ∧ (frameStart p vc data false d).ports[p].dropToFs = true ∧
    d.KeepsRegs (frameStart p vc data false d) [PORT.FORMAT_CNT.CNT p, PORT.CREDIT_R.R p] ∧ d.OnlyPort (frameStart p vc data false d) p := by
  let d1 := countBlocks d p (packetBlocks 4)
  obtain ⟨hrest, hkeep⟩ := countBlocks_only d p (packetBlocks 4)
  obtain ⟨hcount, hformat⟩ := formatError_spec d1 p
  have hbook : d.PortKept d1 p (· ∈ [PORT.FORMAT_CNT.CNT p, PORT.CREDIT_R.R p].map Fld.key) :=
    .of_onlyKeys ⟨hrest, Dev.KeepsKeys.mono hkeep (by simp)⟩
  have hstart : startsLine d1 p data = none := hl
  have heq : frameStart p vc data false d = (formatError d1 p).updPort p fun q => { q with dropToFs := true } := by
    simp only [frameStart, receiving_of_active h, hvc, packetIn_active h hk]
    rw [if_neg (by simp), if_neg (by simp), hstart]
  have hkept := (hbook.trans hformat).updPort fun q => { q with dropToFs := true }
  rw [heq]
  refine ⟨?_, ?_, hkept.regs, hkept.onlyPort (by clear * -; decide +revert)⟩
  · rw [Dev.Counted, Dev.rd_updPort, hcount, hkeep _ (by clear * -; decide +revert)]
  · rw [Dev.updPort_ports_same]

/-! ## Data of the open line -/

/-- A flawless packet of line `w`: its blocks are in the book and hold the buffer. -/
def taken (d : Dev) (p : Fin 16) (w n : Nat) : Dev := holdBlocks (countBlocks d p (packetBlocks n)) p w n

theorem taken_kept (d : Dev) (p : Fin 16) (w n : Nat) : d.PortKept (taken d p w n) p (· ∈ [PORT.CREDIT_R.R p, PORT.BUF_USED.B p].map Fld.key) := by
  unfold taken holdBlocks updLine countBlocks
  exact .wr (.updPort (.wr (.refl d p _) (f := PORT.CREDIT_R.R p) (by simp) _) _) (f := PORT.BUF_USED.B p) (by simp) _

theorem findLine_taken (d : Dev) (p : Fin 16) (w n : Nat) :
    findLine (taken d p w n) p w = (findLine d p w).map fun l => { l with blocks := l.blocks + packetBlocks n } := findLine_holdBlocks _ _ _ _

/-- A line's rewriting on top of a taken packet: the two registers, and nothing outside the port. -/
theorem updLine_taken_kept (d : Dev) (p : Fin 16) (w n : Nat) (g : PLine → PLine) :
    d.KeepsRegs (updLine (taken d p w n) p w g) [PORT.CREDIT_R.R p, PORT.BUF_USED.B p] ∧ d.OnlyPort (updLine (taken d p w n) p w g) p := by
  have hkept := (taken_kept d p w n).updPort fun q => { q with lines := q.lines.map fun l => if l.trig.wln == w then g l else l }
  exact ⟨hkept.regs, hkept.onlyPort (by clear * -; decide +revert)⟩

theorem embeddedData_sets {d : Dev} {p : Fin 16} {vc : Nat} {bytes : List Byte} {w : Nat} {l : PLine} (h : linkState d p = 5)
    (hvc : onImage d p vc = true) (hdrop : d.ports[p].dropToFs = false) (hcur : d.ports[p].cur = some w) (hl : findLine d p w = some l)
    (hhead : l.headAt = none) (hn : 8 ≤ bytes.length) (hk : (receive d p (6 + bytes.length)).1 = true) :
    (findLine (embeddedData p vc bytes true false d) p w).map (fun l => (l.setId, l.expo, l.gain)) =
      some (ofLeBytes (bytes.take 2), some (ofLeBytes ((bytes.drop 2).take 4)), some (ofLeBytes ((bytes.drop 6).take 2))) ∧
    d.KeepsRegs (embeddedData p vc bytes true false d) [PORT.CREDIT_R.R p, PORT.BUF_USED.B p] ∧
    d.OnlyPort (embeddedData p vc bytes true false d) p := by
  have hcur' : (countBlocks d p (packetBlocks (6 + bytes.length))).ports[p].cur = some w := hcur
  have heq : embeddedData p vc bytes true false d = updLine (taken d p w (6 + bytes.length)) p w fun l =>
      if l.headAt.isSome || decide (bytes.length < 8) then { l with headAt := l.headAt.orElse fun _ => some d.now }
      else { l with setId := ofLeBytes (bytes.take 2), expo := some (ofLeBytes ((bytes.drop 2).take 4))
                    gain := some (ofLeBytes ((bytes.drop 6).take 2)), headAt := some d.now } := by
    simp only [embeddedData, receiving_of_active h, hvc, hdrop, packetIn_active h hk]
    rw [if_neg (by simp), if_neg (by simp), hcur']
    rfl
  rw [heq]
  refine ⟨?_, updLine_taken_kept _ _ _ _ _⟩
  rw [findLine_updLine_same, findLine_taken, hl]
  · simp [hhead, Nat.not_lt.2 hn]
  · intro l
    split <;> rfl

theorem rawPacket_appends {d : Dev} {p : Fin 16} {vc dt : Nat} {bytes : List Byte} {w : Nat} {l : PLine} (h : linkState d p = 5)
    (hvc : onImage d p vc = true) (hdrop : d.ports[p].dropToFs = false) (hcur : d.ports[p].cur = some w) (hl : findLine d p w = some l)
    (hdt : dt = d.cfg (packetEpoch d p) (PORT.STREAM_CFG.DT_EXP p)) (hgroup : bytes.length % (rawGroup dt).1 = 0)
    (hk : (receive d p (6 + bytes.length)).1 = true)
    (hlen : l.pix.length + (unpackRaw dt bytes.length (bytes.map BitVec.toNat)).length ≤ d.cfg l.trig.epoch (PORT.LINE_LEN.LEN p)) :
    (findLine (rawPacket p vc dt bytes true false d) p w).map PLine.pix = some (l.pix ++ unpackRaw dt bytes.length (bytes.map BitVec.toNat)) ∧
    (findLine (rawPacket p vc dt bytes true false d) p w).map PLine.blocks = some (l.blocks + packetBlocks (6 + bytes.length)) ∧
    d.KeepsRegs (rawPacket p vc dt bytes true false d) [PORT.CREDIT_R.R p, PORT.BUF_USED.B p] ∧
    d.OnlyPort (rawPacket p vc dt bytes true false d) p := by
  generalize hpx : l.pix ++ unpackRaw dt bytes.length (bytes.map BitVec.toNat) = px
  generalize hmax : d.cfg l.trig.epoch (PORT.LINE_LEN.LEN p) = len at hlen
  have hfits : px.length ≤ len := by
    rw [← hpx, List.length_append]
    exact hlen
  have hopen : (countBlocks d p (packetBlocks (6 + bytes.length))).ports[p].cur.bind
      (findLine (countBlocks d p (packetBlocks (6 + bytes.length))) p) = some l :=
    (congrArg (Option.bind · (findLine d p)) hcur).trans hl
  have heq : rawPacket p vc dt bytes true false d = updLine (taken d p w (6 + bytes.length)) p w fun x =>
      { x with pix := px.take len, headAt := x.headAt.orElse (fun _ => some d.now), marks := (min len px.length, d.now) :: x.marks } := by
    simp only [rawPacket, receiving_of_active h, hvc, hdrop, packetIn_active h hk]
    rw [if_neg (by simp), if_neg (by simp), if_neg (by simp [hdt]), hopen]
    simp only [hgroup, findLine_wln hl, hpx, hmax, decide_eq_false (Nat.not_lt.2 hfits), Bool.false_and]
    rfl
  have hfind : findLine (rawPacket p vc dt bytes true false d) p w = some
      { l with pix := px.take len, headAt := l.headAt.orElse (fun _ => some d.now), marks := (min len px.length, d.now) :: l.marks
               blocks := l.blocks + packetBlocks (6 + bytes.length) } := by
    rw [heq, findLine_updLine_same, findLine_taken, hl]
    · rfl
    · exact fun _ => rfl
  rw [hfind]
  refine ⟨?_, rfl, heq ▸ updLine_taken_kept _ _ _ _ _⟩
  rw [Option.map_some, List.take_of_length_le hfits]

/-! ## The end of a line -/

theorem frameEnd_closes {d : Dev} {p : Fin 16} {vc data : Nat} {l : PLine} (h : linkState d p = 5) (hvc : onImage d p vc = true)
    (hdrop : d.ports[p].dropToFs = false) (hk : (receive d p 4).1 = true)
    (hl : (d.lines p).find? (fun l => l.closed.isNone && l.fs && l.trig.wln % 65536 == data) = some l)
    (hfind : findLine d p l.trig.wln = some l) :
    (∀ x ∈ (frameEnd p vc data false d).lines p, x.trig.wln = l.trig.wln → x.closed.isSome = true) ∧
    (frameEnd p vc data false d).ports[p].cur ≠ some l.trig.wln ∧ (frameEnd p vc data false d).pipes = d.pipes ∧
    (frameEnd p vc data false d).gen = d.gen := by
  have hopen : l.closed = none := by
    have hp := List.find?_some hl
    simp only [Bool.and_eq_true, Option.isNone_iff_eq_none] at hp
    exact hp.1.1
  have hl' : ((countBlocks d p (packetBlocks 4)).lines p).find? (fun l => l.closed.isNone && l.fs && l.trig.wln % 65536 == data) = some l := hl
  have heq : frameEnd p vc data false d = closeLine (taken d p l.trig.wln 4) p l.trig.wln [] := by
    simp only [frameEnd, receiving_of_active h, hvc, hdrop, packetIn_active h hk]
    rw [if_neg (by simp), if_neg (by simp), hl']
    rfl
  have htaken : findLine (taken d p l.trig.wln 4) p l.trig.wln = some { l with blocks := l.blocks + packetBlocks 4 } := by
    rw [findLine_taken, hfind]
    rfl
  obtain ⟨hclosed, hcur, -, hpipes, -⟩ := closeLine_closes htaken hopen []
  rw [heq]
  exact ⟨hclosed, hcur, hpipes, ((holdBlocks_trigKept (countBlocks_trigKept d p _) p _ _).closeLine _ _ _).gen⟩

theorem lineTimeout_missing {d : Dev} {p : Fin 16} {w : Nat} {l : PLine} (hl : findLine d p w = some l) (hopen : l.closed = none)
    (hfs : l.fs = false) (hdue : l.trig.time + d.rd (PORT.LINE_TIMEOUT.TIME p) * 16000 ≤ d.now) :
    (∀ x ∈ (lineTimeout p w d).lines p, x.trig.wln = w → x.closed.isSome = true) ∧ d.Counted (lineTimeout p w d) (PORT.MISSING_CNT.CNT p) ∧
    (lineTimeout p w d).pipes = d.pipes ∧ (lineTimeout p w d).gen = d.gen := by
  have heq : lineTimeout p w d = closeLine d p w [PF.missing] := by
    simp only [lineTimeout, hl, hfs]
    exact if_neg (Nat.not_lt.2 hdue)
  obtain ⟨hclosed, -, hcount, hpipes, -⟩ := closeLine_closes hl hopen [PF.missing]
  rw [heq]
  exact ⟨hclosed, hcount (by decide), hpipes, ((Dev.TrigKept.refl d).closeLine _ _ _).gen⟩

/-! ## Side streams -/

theorem sideStreamPacket_joins {d : Dev} {p vc : Fin 16} {dt : Nat} {bytes : List Byte} {w : Nat} (h : linkState d p = 5) (hlow : 0x30 ≤ dt)
    (hhigh : dt ≤ 0x37) (hen : bitOf (d.cfg (packetEpoch d p) (PORT.STREAM_CFG.SIDE_VC_EN p)) vc = true) (hs : d.isStandby = false)
    (hcur : d.ports[p].cur = some w) (hk : (receive d p (6 + bytes.length)).1 = true) :
    ∃ r, (sideStreamPacket p vc dt bytes true false d).arch.recs = d.arch.recs ++ [r] ∧ r.cseq = none ∧
      r.bytes = [0x158 + 65536 * p.val + 2 ^ 20 * vc.val, bytes.length, w % 2 ^ 32, w / 2 ^ 32].flatMap (leBytes 4) ++ bytes ++
        List.replicate ((4 - bytes.length % 4) % 4) (0 : Byte) ∧
      (sideStreamPacket p vc dt bytes true false d).ports = d.ports ∧ (sideStreamPacket p vc dt bytes true false d).gen = d.gen := by
  let d1 := countBlocks d p (packetBlocks (6 + bytes.length))
  let r : ArchRec := ⟨none, [0x158 + 65536 * p.val + 2 ^ 20 * vc.val, bytes.length, w % 2 ^ 32, w / 2 ^ 32].flatMap (leBytes 4) ++ bytes ++
    List.replicate ((4 - bytes.length % 4) % 4) (0 : Byte), 0, 0, none⟩
  have hcur' : d1.ports[p].cur = some w := hcur
  have hs' : d1.isStandby = false := by
    rw [Dev.isStandby, Dev.isActive, (countBlocks_only d p _).2 _ (by clear * -; decide +revert)]
    exact hs
  have heq : sideStreamPacket p vc dt bytes true false d = setCredit (archPut d1 r) (d1.arch.credit - ((6 + bytes.length : Nat) : Int)) := by
    simp only [sideStreamPacket, receiving_of_active h, packetIn_active h hk, hen]
    rw [if_neg (by simp; omega), if_neg (by simp [hs', d1]), hcur']
  rw [heq]
  exact ⟨{ r with port := archPort d1 }, rfl, rfl, rfl, rfl, rfl⟩

/-- Settles O17. A packet within the credit enters the book (`packetIn_active`) and then acts on its line alone; a line closes by
`closeLine_closes`, after which nothing reopens it. -/
theorem packetsFillLines : Obligations.PacketsFillLines := by
  refine ⟨?_, ?_, ?_, ?_, ?_, ?_, ?_⟩
  · exact fun s p vc data l hup h hvc hk hl => gives_of_onDev rfl hup (frameStart_opens h hvc hk hl)
  · exact fun s p vc data hup h hvc hk hl => gives_of_onDev rfl hup (frameStart_unmatched h hvc hk hl)
  · exact fun s p vc bytes w l hup h hvc hdrop hcur hl hhead hn hk =>
      gives_of_onDev rfl hup (embeddedData_sets h hvc hdrop hcur hl hhead hn hk)
  · exact fun s p vc dt bytes w l hup h hvc hdrop hcur hl hdt hgroup hk hlen =>
      gives_of_onDev rfl hup (rawPacket_appends h hvc hdrop hcur hl hdt hgroup hk hlen)
  · exact fun s p vc data l hup h hvc hdrop hk hl hfind => gives_of_onDev rfl hup (frameEnd_closes h hvc hdrop hk hl hfind)
  · exact fun s p w l hup hl hopen hfs hdue => gives_of_onDev rfl hup (lineTimeout_missing hl hopen hfs hdue)
  · exact fun s p vc dt bytes w hup h hlow hhigh hen hs hcur hk => gives_of_onDev rfl hup (sideStreamPacket_joins h hlow hhigh hen hs hcur hk)

end Sys2Proof.Machine
end

section
/-! SUPPORT. Line pipelines (R92 to R94, R101, R103, R105): a pipeline's own record, what a configuration set reads as after a change of
registers, triggers at the pipelines, and reservations. -/

namespace Sys2Proof.Machine

/-! ## A pipeline's own record -/

@[simp] theorem Dev.rd_updPipe (d : Dev) (l : Fin 8) (g : Pipe → Pipe) (f : Fld) : (d.updPipe l g).rd f = d.rd f := rfl

theorem Dev.updPipe_pipes_same (d : Dev) (l : Fin 8) (g : Pipe → Pipe) : (d.updPipe l g).pipes[l] = g d.pipes[l] := by
  simp [Dev.updPipe]

theorem Dev.updPipe_pipes_other (d : Dev) {l k : Fin 8} (h : k ≠ l) (g : Pipe → Pipe) : (d.updPipe l g).pipes[k] = d.pipes[k] := by
  have hk : l.val ≠ k.val := fun hv => h (Fin.ext hv.symm)
  simp [Dev.updPipe, hk]

/-! ## Configuration sets -/

/-- A field reads under a set as before when neither it nor the epoch's state was written and the sets stayed. -/
theorem Dev.KeepsKeys.cfg {d e : Dev} {S : Nat → Prop} (h : d.KeepsKeys e S) (hep : e.ep = d.ep)
    (hstate : ¬ S WEB.EPOCH_STATUS.STATE.key) (epoch : Nat) {f : Fld} (hf : ¬ S f.key) : e.cfg epoch f = d.cfg epoch f := by
  simp only [Dev.cfg, stagedVal, hep, h f hf, h _ hstate]

theorem Dev.cfg_of_regs {d e : Dev} (hep : e.ep = d.ep) (hr : e.regs = d.regs) (epoch : Nat) : e.cfg epoch = d.cfg epoch := by
  funext f
  exact ((Dev.KeepsKeys.refl d fun _ => False).of_regs hr).cfg hep (by simp) epoch (by simp)

/-! ## Frames of listed fields -/

theorem Dev.KeepsRegs.subset {d e : Dev} {fs gs : List Fld} (h : d.KeepsRegs e fs) (hs : fs ⊆ gs) : d.KeepsRegs e gs :=
  Dev.KeepsKeys.mono h fun _ hk => List.map_subset _ hs hk

theorem Dev.KeepsRegs.trans {d e e' : Dev} {fs : List Fld} (h : d.KeepsRegs e fs) (h' : e.KeepsRegs e' fs) : d.KeepsRegs e' fs :=
  Dev.KeepsKeys.trans h h'

theorem Dev.KeepsRegs.keepsPages {d e : Dev} {fs : List Fld} {ps : List Nat} (h : d.KeepsRegs e fs)
    (hp : ∀ f ∈ fs, f.key / 131072 ∈ ps) : d.KeepsPages e ps :=
  Dev.keepsPages_iff.2 <| Dev.KeepsKeys.mono h fun k hk => by
    obtain ⟨f, hf, rfl⟩ := List.mem_map.1 hk
    exact hp f hf

/-! ## Routes -/

/-- The fields that give a pipeline its routes. -/
def routeFields (l : Fin 8) : List Fld :=
  [PIPE.ROUTE_IL.A_EN l, PIPE.ROUTE_IL.A_PORT l, PIPE.ROUTE_IL.B_EN l, PIPE.ROUTE_IL.B_PORT l, PIPE.ROUTE_MR.MR_MASK l]

theorem routeOf_congr {d e : Dev} {epoch : Nat} (h : ∀ l : Fin 8, ∀ f ∈ routeFields l, e.cfg epoch f = d.cfg epoch f) (p : Fin 16) :
    routeOf e epoch p = routeOf d epoch p := by
  simp only [routeFields, List.forall_mem_cons, List.not_mem_nil, false_implies, implies_true, and_true] at h
  unfold routeOf
  congr 1
  funext l
  obtain ⟨haen, haport, hben, hbport, hmask⟩ := h l
  rw [haen, haport, hben, hbport, hmask]

theorem routed_congr {d e : Dev} {epoch : Nat} (h : ∀ l : Fin 8, ∀ f ∈ routeFields l, e.cfg epoch f = d.cfg epoch f) (l : Fin 8) :
    routed e epoch l = routed d epoch l := by
  unfold routed
  congr 1
  funext p
  rw [routeOf_congr h]

/-! ## Triggers at the pipelines -/

/-- The registers in which a pipeline shows what a trigger finds there. -/
def overloadFields (l : Fin 8) : List Fld :=
  [PIPE.STATUS.OVERLOAD l, PIPE.OVERLOAD_CNT.CNT l, PIPE.MR_LATE_CNT.CNT l, Com.IRQ_RAW (Page.PIPE l), Com.ERR_CNT (Page.PIPE l)]

/-- The registers that a trigger may write at a pipeline. -/
def triggerFields (l : Fin 8) : List Fld := PIPE.LINES_IN.CNT l :: overloadFields l

theorem linesIn_ne_overload (l : Fin 8) : (PIPE.LINES_IN.CNT l).key ∉ (overloadFields l).map Fld.key := by decide +revert

theorem linesIn_ne_trigger {k l : Fin 8} (h : k ≠ l) : (PIPE.LINES_IN.CNT k).key ∉ (triggerFields l).map Fld.key := by decide +revert

theorem route_ne_trigger (k l : Fin 8) : ∀ f ∈ routeFields k, f.key ∉ (triggerFields l).map Fld.key := by decide +revert

theorem state_ne_trigger (l : Fin 8) : WEB.EPOCH_STATUS.STATE.key ∉ (triggerFields l).map Fld.key := by decide +revert

/-- From `d` to `e` registers and the pipelines' records alone changed. -/
def Dev.PipesOnly (d e : Dev) : Prop := e = { d with regs := e.regs, pipes := e.pipes }

theorem Dev.PipesOnly.trans {d e e' : Dev} (h : d.PipesOnly e) (h' : e.PipesOnly e') : d.PipesOnly e' := by
  rw [Dev.PipesOnly] at h h' ⊢
  rw [h', h]

/-- From `d` to `e` only the record of pipeline `l` and the registers that a trigger may write there changed. -/
structure Dev.PipeTrigKept (d e : Dev) (l : Fin 8) : Prop where
  rest : d.PipesOnly e
  others : ∀ k : Fin 8, k ≠ l → e.pipes[k] = d.pipes[k]
  regs : d.KeepsRegs e (triggerFields l)

theorem Dev.PipeTrigKept.routed {d e : Dev} {l : Fin 8} (h : d.PipeTrigKept e l) (epoch : Nat) (k : Fin 8) :
    routed e epoch k = routed d epoch k :=
  routed_congr (fun j f hf => Dev.KeepsKeys.cfg h.regs (by rw [h.rest]) (state_ne_trigger l) epoch (route_ne_trigger j l f hf)) k

/-- Pipeline `l` has taken its next trigger: the line's routed ports are counted and wait for their reservations. -/
def triggerTaken (d e : Dev) (l : Fin 8) : Prop :=
  e.pipes[l].trigQ = d.pipes[l].trigQ.tail ∧
  e.pipes[l].resQ = d.pipes[l].resQ ++
    (d.pipes[l].trigQ.head?.elim [] fun t => (routed d t.epoch l).map fun r => (r.1.val, t)) ∧
  e.rd (PIPE.LINES_IN.CNT l) = d.pipes[l].trigQ.head?.elim (d.rd (PIPE.LINES_IN.CNT l)) fun t =>
    min (d.rd (PIPE.LINES_IN.CNT l) + (routed d t.epoch l).length) (2 ^ 32 - 1)

theorem snapReach_settled {d : Dev} (h : d.snap.wait = []) (p w : Nat) (fs : List Fld) : d.snapReach p w fs = d := by
  simp [Dev.snapReach, h]

theorem pipeTrigger_idle {d : Dev} {l : Fin 8} (hq : d.pipes[l].trigQ = []) : pipeTrigger d l = d := by
  simp only [pipeTrigger, hq]

/-- One pipeline sees a trigger: with the counters and the load shown (`OnlyKeys`), its record is rewritten. -/
theorem pipeTrigger_takes {d : Dev} (hs : d.snap.wait = []) (l : Fin 8) :
    triggerTaken d (pipeTrigger d l) l ∧ d.PipeTrigKept (pipeTrigger d l) l := by
  cases hq : d.pipes[l].trigQ with
  | nil =>
    rw [pipeTrigger_idle hq]
    exact ⟨⟨by simp only [hq, List.tail_nil], by simp only [hq, List.head?_nil, Option.elim_none, List.append_nil],
      by simp only [hq, List.head?_nil, Option.elim_none]⟩, rfl, fun _ _ => rfl, Dev.KeepsKeys.refl _ _⟩
  | cons t rest =>
    generalize he : pipeTrigger d l = e
    rw [pipeTrigger, hq] at he
    simp -zeta only [snapReach_settled hs] at he
    extract_lets d0 rs q isOver d1 dshown d2 isLate late d3 d4 at he
    have h1 : d1.rd (PIPE.LINES_IN.CNT l) = min (d.rd (PIPE.LINES_IN.CNT l) + (routed d t.epoch l).length) (2 ^ 32 - 1) :=
      Dev.rd_addCnt_same _ _ _
    have hirq (e' : Dev) (f : Fld) (hf : f ∈ overloadFields l) (b : Nat) :
        e'.OnlyKeys ((e'.inc f).irq (Page.PIPE l) b) (· ∈ (overloadFields l).map Fld.key) :=
      ((Dev.OnlyKeys.refl e' _).inc (List.mem_map_of_mem hf)).irq (by simp [overloadFields]) (by simp [overloadFields]) b
    have h2 : d1.OnlyKeys d2 (· ∈ (overloadFields l).map Fld.key) := by
      have hshow := (Dev.OnlyKeys.refl d1 (· ∈ (overloadFields l).map Fld.key)).wr (f := PIPE.STATUS.OVERLOAD l)
        (by simp [overloadFields]) (b2n isOver)
      simp only [d2]
      split
      · exact .refl _ _
      · split
        · exact hshow.trans (hirq _ _ (by simp [overloadFields]) _)
        · exact hshow
    have h3 : d1.OnlyKeys d3 (· ∈ (overloadFields l).map Fld.key) := h2.foldl (fun e' _ => hirq e' _ (by simp [overloadFields]) _) _
    have hrest : d3 = { d with regs := d3.regs } := h3.1
    have hcnt : d3.rd (PIPE.LINES_IN.CNT l) = d1.rd (PIPE.LINES_IN.CNT l) := h3.2 _ (linesIn_ne_overload l)
    have hregs : d.KeepsRegs d3 (triggerFields l) :=
      ((Dev.KeepsKeys.refl d _).wr (f := PIPE.LINES_IN.CNT l) (by simp [triggerFields]) _).trans
        (Dev.KeepsRegs.subset h3.2 (List.subset_cons_self _ _))
    have hpipes : d3.pipes = d.pipes := by rw [hrest]
    subst he
    refine ⟨⟨?_, ?_, ?_⟩, ?_, fun k hk => ?_, Dev.KeepsKeys.of_regs hregs rfl⟩
    · simp only [hq, Dev.updPipe_pipes_same, List.tail_cons]
    · simp only [hq, d4, updSlots, Dev.updPipe_pipes_same, hpipes, List.head?_cons, Option.elim_some]
      rfl
    · simp only [hq, d4, updSlots, Dev.rd_updPipe, List.head?_cons, Option.elim_some]
      exact hcnt.trans h1
    · have honly : d.PipesOnly d3 := by
        rw [Dev.PipesOnly, hrest]
      exact honly.trans (e := d3) rfl
    · simp only [Dev.updPipe_pipes_other _ hk, d4, updSlots, hpipes]

/-- All the pipelines of a list without repeats see a trigger: each takes its own, the others wait. -/
theorem pipeTriggers_take (ls : List (Fin 8)) (hls : ls.Nodup) {d : Dev} (hs : d.snap.wait = []) :
    (∀ l ∈ ls, triggerTaken d (ls.foldl pipeTrigger d) l) ∧ d.PipesOnly (ls.foldl pipeTrigger d) ∧
    ∀ k ∉ ls, (ls.foldl pipeTrigger d).pipes[k] = d.pipes[k] ∧
      (ls.foldl pipeTrigger d).rd (PIPE.LINES_IN.CNT k) = d.rd (PIPE.LINES_IN.CNT k) := by
  induction ls generalizing d with
  | nil => exact ⟨nofun, rfl, fun _ _ => ⟨rfl, rfl⟩⟩
  | cons l ls ih =>
    obtain ⟨hl, hls⟩ := List.nodup_cons.1 hls
    obtain ⟨⟨htrig, hres, hcnt⟩, hkept⟩ := pipeTrigger_takes hs l
    have hsnap : (pipeTrigger d l).snap.wait = [] := by rw [hkept.rest]; exact hs
    obtain ⟨htaken, hrest, hothers⟩ := ih hls hsnap
    rw [List.foldl_cons]
    refine ⟨fun k hk => ?_, ?_, fun k hk => ?_⟩
    · by_cases hkl : k = l
      · subst hkl
        obtain ⟨hp, hc⟩ := hothers k hl
        exact ⟨by rw [hp, htrig], by rw [hp, hres], by rw [hc, hcnt]⟩
      · have hk' := htaken k ((List.mem_cons.1 hk).resolve_left hkl)
        simpa only [triggerTaken, hkept.others k hkl, hkept.routed, hkept.regs _ (linesIn_ne_trigger hkl)] using hk'
    · exact hkept.rest.trans hrest
    · obtain ⟨hkl, hk⟩ := not_or.1 (mt List.mem_cons.2 hk)
      obtain ⟨hp, hc⟩ := hothers k hk
      exact ⟨hp.trans (hkept.others k hkl), hc.trans (hkept.regs _ (linesIn_ne_trigger hkl))⟩

theorem triggerAtPipeline_takes {d : Dev} (hs : d.snap.wait = []) (l : Fin 8) :
    triggerTaken d (triggerAtPipeline d) l ∧ (triggerAtPipeline d).ports = d.ports ∧ (triggerAtPipeline d).gen = d.gen := by
  have hl : l ∈ allPipes := List.mem_finRange l
  obtain ⟨htaken, hrest, -⟩ := pipeTriggers_take allPipes (List.nodup_finRange 8) hs
  rw [triggerAtPipeline]
  generalize allPipes.foldl pipeTrigger d = e at htaken hrest ⊢
  exact ⟨htaken l hl, by rw [hrest], by rw [hrest]⟩

end Sys2Proof.Machine
end

section
/-! SUPPORT. Reservations and notices (R94, R98, R101, R103): a line that takes a slot, one that finds none, and a notice passed on. -/

namespace Sys2Proof.Machine

/-! ## SLOT_RESERVE -/

/-- What R94 and R101 ask before the book is looked at: an in-line line, or a memory-routed one that is neither decimated nor beyond
MRQ_MAX while the pipeline is not degraded. -/
def slotAsked (d : Dev) (l : Fin 8) (t : TrigRec) (c : Ctx) : Prop :=
  c = .m → d.on (PIPE.STATUS.DEGRADED l) = false ∧ d.rd (PIPE.DECIM.N l) ≤ 1 ∧
    (d.pipes[l].slots.filter fun q => q.ctx == Ctx.m && q.state == SlotState.wait).length < d.cfg t.epoch (PIPE.ARB.MRQ_MAX l)

/-- The slot that waits for such a line. -/
def reservedSlot (d : Dev) (p : Fin 16) (t : TrigRec) (c : Ctx) : Slot where
  port := p.val
  trig := t
  ctx := c
  state := .wait
  item := 0
  landed := none
  trigsSince := 0
  fetched := 0
  poison := []
  cls := .process
  pipeFlags := if c = .m then 4 else 0
  yOk := 0
  portFlags := 0
  setId := 0xFFFF
  tailIn := false
  lateSeen := false
  residence := 0
  phase := (findLine d p t.wln).bind PLine.phase
  proc := none

/-- The reservation leaves the queue. -/
def resTaken (d : Dev) (l : Fin 8) (rest : List (Nat × TrigRec)) : Dev := d.updPipe l fun q => { q with resQ := rest }

theorem slotReserve_asked {d : Dev} {l : Fin 8} {p : Fin 16} {t : TrigRec} {rest : List (Nat × TrigRec)} {c : Ctx}
    (hq : d.pipes[l].resQ = (p.val, t) :: rest) (hr : routeOf d t.epoch p = some (l, c)) (hc : slotAsked d l t c) :
    slotReserve l d = if 64 ≤ d.pipes[l].slots.length then
        ((refuseSlot (resTaken d l rest) l p t (c == .m) QF.dropped).inc (PIPE.SLOT_FULL_CNT.CNT l)).irq (Page.PIPE l) PIPE.irq.SLOT_FULL
      else updSlots (resTaken d l rest) l fun ss => ss ++ [reservedSlot d p t c] := by
  have hcfg : (resTaken d l rest).cfg t.epoch = d.cfg t.epoch := Dev.cfg_of_regs rfl rfl _
  have hroute : routeOf (resTaken d l rest) t.epoch p = some (l, c) := (routeOf_congr (fun _ f _ => congrFun hcfg f) p).trans hr
  have hslots : (resTaken d l rest).pipes[l].slots = d.pipes[l].slots := by
    rw [resTaken, Dev.updPipe_pipes_same]
  unfold slotReserve
  rw [hq]
  dsimp -zeta only
  rw [Fin.ofNat_val_eq_self]
  extract_lets p0 d0 ctx mr gone n waiting slot
  have hd0 : d0 = resTaken d l rest := rfl
  have hctx : ctx = c := by simp only [ctx, hd0, p0, hroute, Option.elim_some]
  have hw : waiting = (d.pipes[l].slots.filter fun q => q.ctx == Ctx.m && q.state == SlotState.wait).length := by
    simp only [waiting, hd0, hslots]
  have hgone : gone = false := by
    by_cases hm : c = .m
    · have hdeg : d0.on (PIPE.STATUS.DEGRADED l) = false := (hc hm).1
      simp [gone, hdeg]
    · simp [gone, mr, hctx, hm]
  have hslot : slot = reservedSlot d p t c := by
    simp [slot, hgone, mr, hctx, reservedSlot]
    rfl
  have hdecim : (mr && !gone && decide (1 < n) && t.wln % n != 0) = false := by
    by_cases hm : c = .m
    · have hn : ¬ 1 < n := Nat.not_lt.2 (hc hm).2.1
      simp [hn]
    · simp [mr, hctx, hm]
  have hmrq : (mr && !gone && decide (d0.cfg t.epoch (PIPE.ARB.MRQ_MAX l) ≤ waiting)) = false := by
    by_cases hm : c = .m
    · have hfree : ¬ d0.cfg t.epoch (PIPE.ARB.MRQ_MAX l) ≤ waiting := by
        rw [hw, hd0, hcfg]
        exact Nat.not_le.2 (hc hm).2.2
      simp [hfree]
    · simp [mr, hctx, hm]
  rw [if_neg (by simp only [hdecim, Bool.false_eq_true, not_false_eq_true]), if_neg (by simp only [hmrq, Bool.false_eq_true, not_false_eq_true]),
    hd0, hslots, hslot]
  simp only [mr, hctx, p0]

/-- What a clearing of BANK_BUSY leaves: all but that register and the port's correction record. -/
theorem bankBusyClear_rest (d : Dev) (p : Fin 16) :
    bankBusyClear d p = { d with regs := (bankBusyClear d p).regs, corr := (bankBusyClear d p).corr } ∧
    d.KeepsRegs (bankBusyClear d p) [STAT.TBL_STAT.BANK_BUSY (statPage p) (statBank p)] := by
  unfold bankBusyClear
  split
  · exact ⟨rfl, Dev.KeepsKeys.refl _ _⟩
  · split
    · exact ⟨rfl, Dev.KeepsKeys.refl _ _⟩
    · exact ⟨rfl, ((Dev.KeepsKeys.refl d _).wr (f := STAT.TBL_STAT.BANK_BUSY (statPage p) (statBank p)) (by simp) 0).of_regs rfl⟩

/-- The notice by which a line without a slot leaves. -/
def refusedLine (l : Fin 8) (p : Fin 16) (t : TrigRec) (mr : Bool) (flag : Nat) : OutLine where
  trig := t
  port := p.val
  pipe := l.val
  epoch := t.epoch
  setId := 0xFFFF
  portFlags := 0
  pipeFlags := 1 + (if mr then 4 else 0) + 2 ^ flag
  residence := 0
  y := []

/-- A line that holds no slot leaves a notice behind and counts in LINES_VOID; its port may be freed of it. -/
theorem refuseSlot_spec (d : Dev) (l : Fin 8) (p : Fin 16) (t : TrigRec) (mr : Bool) (flag : Nat) :
    (refuseSlot d l p t mr flag).pipes = (d.updPipe l fun q => { q with notices := q.notices ++ [refusedLine l p t mr flag] }).pipes ∧
    d.Counted (refuseSlot d l p t mr flag) (PIPE.LINES_VOID.CNT l) ∧
    d.KeepsRegs (refuseSlot d l p t mr flag)
      [PIPE.LINES_VOID.CNT l, PORT.BUF_USED.B p, STAT.TBL_STAT.BANK_BUSY (statPage p) (statBank p)] := by
  have hkey : (PIPE.LINES_VOID.CNT l).key ∉ [PORT.BUF_USED.B p, STAT.TBL_STAT.BANK_BUSY (statPage p) (statBank p)].map Fld.key := by
    decide +revert
  unfold refuseSlot
  extract_lets o d1
  generalize hd2 : (if (findLine d1 p t.wln).elim false (fun x => x.closed.isSome) = true then releaseBlocks d1 p t.wln else d1) = d2
  have h2 : d2.pipes = d1.pipes ∧ d1.KeepsRegs d2 [PORT.BUF_USED.B p] := by
    subst hd2
    split
    · exact ⟨rfl, ((Dev.KeepsKeys.refl d1 _).wr (f := PORT.BUF_USED.B p) (by simp) _).of_regs rfl⟩
    · exact ⟨rfl, Dev.KeepsKeys.refl _ _⟩
  obtain ⟨hrest, hbank⟩ := bankBusyClear_rest d2 p
  have hafter : d1.KeepsRegs (bankBusyClear d2 p) [PORT.BUF_USED.B p, STAT.TBL_STAT.BANK_BUSY (statPage p) (statBank p)] :=
    (h2.2.subset (List.cons_subset_cons _ (List.nil_subset _))).trans (hbank.subset (List.subset_cons_self _ _))
  refine ⟨?_, ?_, ?_⟩
  · rw [hrest]
    exact h2.1
  · rw [Dev.Counted, hafter _ hkey]
    exact Dev.rd_inc_same _ _
  · exact (((Dev.KeepsKeys.refl d _).inc (f := PIPE.LINES_VOID.CNT l) (by simp)).of_regs rfl).trans
      (hafter.subset (List.subset_cons_self _ _))

/-- With a slot free the line takes it, and no register shows anything yet. -/
theorem slotReserve_free {d : Dev} {l : Fin 8} {p : Fin 16} {t : TrigRec} {rest : List (Nat × TrigRec)} {c : Ctx}
    (hq : d.pipes[l].resQ = (p.val, t) :: rest) (hr : routeOf d t.epoch p = some (l, c)) (hc : slotAsked d l t c)
    (hfree : d.pipes[l].slots.length < 64) :
    (slotReserve l d).pipes[l].resQ = rest ∧ (slotReserve l d).regs = d.regs ∧
    (slotReserve l d).pipes[l].slots = d.pipes[l].slots ++ [reservedSlot d p t c] ∧
    ∀ k : Fin 8, k ≠ l → (slotReserve l d).pipes[k] = d.pipes[k] := by
  rw [slotReserve_asked hq hr hc, if_neg (Nat.not_le.2 hfree)]
  refine ⟨?_, rfl, ?_, fun k hk => ?_⟩
  · rw [updSlots, Dev.updPipe_pipes_same, resTaken, Dev.updPipe_pipes_same]
  · rw [updSlots, Dev.updPipe_pipes_same, resTaken, Dev.updPipe_pipes_same]
  · rw [updSlots, Dev.updPipe_pipes_other _ hk, resTaken, Dev.updPipe_pipes_other _ hk]

/-- With 64 slots held the line becomes a VOID notice with DROPPED. -/
theorem slotReserve_full {d : Dev} {l : Fin 8} {p : Fin 16} {t : TrigRec} {rest : List (Nat × TrigRec)} {c : Ctx}
    (hq : d.pipes[l].resQ = (p.val, t) :: rest) (hr : routeOf d t.epoch p = some (l, c)) (hc : slotAsked d l t c)
    (hfull : 64 ≤ d.pipes[l].slots.length) :
    (slotReserve l d).pipes[l].slots = d.pipes[l].slots ∧ d.Counted (slotReserve l d) (PIPE.SLOT_FULL_CNT.CNT l) ∧
    d.Counted (slotReserve l d) (PIPE.LINES_VOID.CNT l) ∧
    (∃ o, (slotReserve l d).pipes[l].notices = d.pipes[l].notices ++ [o] ∧ o.port = p.val ∧ o.trig = t ∧
      bitOf o.pipeFlags QF.void = true ∧ bitOf o.pipeFlags QF.dropped = true) ∧
    d.KeepsPages (slotReserve l d) [Page.PIPE l, Page.PORT p, Page.STAT (statPage p)] := by
  rw [slotReserve_asked hq hr hc, if_pos hfull]
  obtain ⟨hpipes, hvoid, hkeep⟩ := refuseSlot_spec (resTaken d l rest) l p t (c == .m) QF.dropped
  generalize refuseSlot (resTaken d l rest) l p t (c == .m) QF.dropped = e at hpipes hvoid hkeep ⊢
  have honly : e.OnlyRegs ((e.inc (PIPE.SLOT_FULL_CNT.CNT l)).irq (Page.PIPE l) PIPE.irq.SLOT_FULL)
      [PIPE.SLOT_FULL_CNT.CNT l, Com.IRQ_RAW (Page.PIPE l), Com.ERR_CNT (Page.PIPE l)] :=
    ((Dev.OnlyKeys.refl e _).inc (f := PIPE.SLOT_FULL_CNT.CNT l) (by simp)).irq (by simp) (by simp) _
  obtain ⟨hrest, hregs⟩ := honly
  have hpipes' : ((e.inc (PIPE.SLOT_FULL_CNT.CNT l)).irq (Page.PIPE l) PIPE.irq.SLOT_FULL).pipes = e.pipes := by rw [hrest]
  refine ⟨?_, ?_, ?_, ?_, ?_⟩
  · rw [hpipes', hpipes, Dev.updPipe_pipes_same, resTaken, Dev.updPipe_pipes_same]
  · have hraw : (PIPE.SLOT_FULL_CNT.CNT l).key ≠ (Com.IRQ_RAW (Page.PIPE l)).key := by clear * -; decide +revert
    have herr : (PIPE.SLOT_FULL_CNT.CNT l).key ≠ (Com.ERR_CNT (Page.PIPE l)).key := by clear * -; decide +revert
    rw [Dev.Counted, Dev.rd_irq_other _ _ _ _ hraw herr, Dev.rd_inc_same, hkeep _ (by clear * -; decide +revert)]
    rfl
  · rw [Dev.Counted, hregs _ (by clear * -; decide +revert)]
    exact hvoid
  · refine ⟨refusedLine l p t (c == .m) QF.dropped, ?_, rfl, rfl, ?_⟩
    · rw [hpipes', hpipes, Dev.updPipe_pipes_same, resTaken, Dev.updPipe_pipes_same]
    · change bitOf (1 + (if c == .m then 4 else 0) + 2 ^ QF.dropped) _ = true ∧ bitOf (1 + (if c == .m then 4 else 0) + 2 ^ QF.dropped) _ = true
      generalize (c == .m) = mr
      decide +revert
  · have hall : d.KeepsRegs ((e.inc (PIPE.SLOT_FULL_CNT.CNT l)).irq (Page.PIPE l) PIPE.irq.SLOT_FULL) ([PIPE.LINES_VOID.CNT l,
        PORT.BUF_USED.B p, STAT.TBL_STAT.BANK_BUSY (statPage p) (statBank p)] ++ [PIPE.SLOT_FULL_CNT.CNT l, Com.IRQ_RAW (Page.PIPE l),
        Com.ERR_CNT (Page.PIPE l)]) :=
      (Dev.KeepsRegs.subset hkeep (List.subset_append_left _ _)).trans (Dev.KeepsRegs.subset hregs (List.subset_append_right _ _))
    exact hall.keepsPages (by clear * -; decide +revert)

/-! ## VOID_NOTICE -/

/-- From `d` to `e` registers and the correction records alone changed. -/
def Dev.CorrOnly (d e : Dev) : Prop := e = { d with regs := e.regs, corr := e.corr }

theorem Dev.CorrOnly.trans {d e e' : Dev} (h : d.CorrOnly e) (h' : e.CorrOnly e') : d.CorrOnly e' := by
  rw [Dev.CorrOnly] at h h' ⊢
  rw [h', h]

/-- The statistics step at a line's end: its block may close, and the line enters the block. -/
theorem statLine_corrOnly (d : Dev) (p : Fin 16) (t : TrigRec) (pipe : Nat) (cls : LineClass) (portFlags : Nat) (ph : Option (Nat × Nat))
    (pr : Option Proc) : d.CorrOnly (statLine d p t pipe cls portFlags ph pr) := by
  generalize he : statLine d p t pipe cls portFlags ph pr = e
  rw [statLine] at he
  generalize blockOf d t.epoch t.wln = place at he
  obtain ⟨num, idx⟩ := place
  dsimp -zeta only at he
  extract_lets d0 b0 b1 b2 d1 len live at he
  have h0 : d.CorrOnly d0 := by
    simp only [d0]
    split
    · split <;> rfl
    · rfl
  have h1 : d0.CorrOnly d1 := rfl
  have hend : d1.CorrOnly e := by
    subst he
    split
    · rfl
    · split <;> rfl
  exact (h0.trans h1).trans hend

theorem releaseLine_lastOut (d : Dev) (p : Fin 16) (w : Nat) : (releaseLine d p w).ports[p].lastOut = d.ports[p].lastOut := by
  rw [releaseLine, Dev.updPort_ports_same]
  rfl

/-- A notice that no earlier line of its port holds back is passed on, and the port notes the line as its last. -/
theorem voidNotice_passes {d : Dev} {l : Fin 8} {p : Fin 16} {w : Nat} {o : OutLine}
    (ho : d.pipes[l].notices.find? (fun o => o.port == p.val && o.trig.wln == w) = some o) (hh : heldBack d p w none = false) :
    (voidNotice l p w d).ports[p].lastOut = some w ∧
    (∀ x ∈ (voidNotice l p w d).pipes[l].notices, ¬ (x.port = p.val ∧ x.trig.wln = w)) ∧
    ∃ x ∈ (voidNotice l p w d).pipes[l].passed, x.trig = o.trig ∧ x.port = p.val := by
  have hport : o.port = p.val := by
    have := List.find?_some ho
    simp only [Bool.and_eq_true, beq_iff_eq] at this
    exact this.1
  generalize he : voidNotice l p w d = e
  rw [voidNotice, ho] at he
  simp -zeta only [hh, Bool.false_eq_true, if_false] at he
  extract_lets ln fl d0 d1 d2 d3 at he
  have hpipes : d3.pipes = d1.pipes := by
    rw [show d3.pipes = d2.pipes from rfl, show d2 = _ from statLine_corrOnly _ _ _ _ _ _ _ _]
    rfl
  have hlast : d3.ports[p].lastOut = some w := by
    rw [show d3 = d2.updPort p _ from rfl, Dev.updPort_ports_same]
  have hend : e.ports[p].lastOut = some w ∧ e.pipes = d1.pipes := by
    subst he
    split
    · exact ⟨(releaseLine_lastOut _ _ _).trans hlast, hpipes⟩
    · exact ⟨hlast, hpipes⟩
  obtain ⟨hlast, hp⟩ := hend
  refine ⟨hlast, ?_, ?_⟩
  · rw [hp, show d1 = d0.updPipe l _ from rfl, Dev.updPipe_pipes_same]
    intro x hx
    exact not_and_or.2 (by simpa using (List.mem_filter.1 hx).2)
  · rw [hp, show d1 = d0.updPipe l _ from rfl, Dev.updPipe_pipes_same]
    exact ⟨_, List.mem_append_right _ (List.mem_singleton_self _), rfl, hport⟩

/-! ## The statement -/

/-- Settles O19: triggers at all the pipelines, a slot taken, none free, and a notice passed on. -/
theorem triggersReserveSlots : Obligations.TriggersReserveSlots := by
  refine ⟨fun s hup hs => gives_of_onDev rfl hup fun l => ?_, fun s l p t rest c hup hq hr hc hfree => gives_of_onDev rfl hup ?_,
    fun s l p t rest c hup hq hr hc hfull => gives_of_onDev rfl hup (slotReserve_full hq hr hc hfull),
    fun s l p w o hup ho hh => gives_of_onDev rfl hup (voidNotice_passes ho hh)⟩
  · obtain ⟨⟨htrig, hres, hcnt⟩, hports, hgen⟩ := triggerAtPipeline_takes hs l
    exact ⟨htrig, hres, hcnt, hports, hgen⟩
  · obtain ⟨hres, hregs, hslots, hothers⟩ := slotReserve_free hq hr hc hfree
    exact ⟨hres, hregs, ⟨_, hslots, rfl, rfl, rfl, rfl, rfl, rfl, rfl⟩, hothers⟩

end Sys2Proof.Machine
end

section
/-! SUPPORT. ITEM_GRANT of a head (R88) is the line's first data at its statistics bank, and may be what a snapshot's read-out waits for
(R30, R302). -/

namespace Sys2Proof.Machine

/-! ## A grant that answers a read-out -/

/-- Line 9 of a port, whose head has arrived. -/
def headLine : PLine where
  trig := ⟨9, 0, 0, 0, false, false, false⟩
  target := 0
  sent := true
  sendLate := false
  fs := false
  closed := none
  flags := 0
  setId := 0
  expo := none
  gain := none
  headAt := some 5
  pix := []
  marks := []
  blocks := 0
  phase := none

/-- The slot reserved for that line of port 2 as IL A. -/
def headSlot : Slot where
  port := 2
  trig := headLine.trig
  ctx := .a
  state := .wait
  item := 0
  landed := none
  trigsSince := 0
  fetched := 0
  poison := []
  cls := .process
  pipeFlags := 0
  yOk := 0
  portFlags := 0
  setId := 0xFFFF
  tailIn := false
  lateSeen := false
  residence := 0
  phase := none
  proc := none

/-- The snapshot of line 9: every page is copied but the statistics bank of port 2, and a read-out of one word of the first page waits
for it. -/
def lastPageWaits : Snap where
  nextLine := false
  target := 9
  wait := [statKey 2]
  copy := []
  jobs := [⟨some (0, 7), false, 9, false, false, [(0, 1)]⟩]

/-- Port 2 is IL A of pipeline 0, the head of its line 9 is ready there, and the snapshot of line 9 waits for the line. -/
def headBeforeSnapshot : Dev :=
  let d := ((Dev.reset.wr (PIPE.ROUTE_IL.A_EN 0) 1).wr (PIPE.ROUTE_IL.A_PORT 0) 2).wr WEB.SNAP_STATUS.VALID 1
  let d := (d.updPort 2 fun q => { q with lines := [headLine] }).updPipe 0 fun q => { q with slots := [headSlot] }
  { d with snap := lastPageWaits }

theorem headBeforeSnapshot_ready : ctxSlot headBeforeSnapshot 0 .a = some headSlot ∧ ctxSlot headBeforeSnapshot 0 .b = none := by
  decide +kernel

/-- The head's grant completes the snapshot, so the answer to the read-out leaves. -/
theorem itemGrant_answers_snapshot : (itemGrant 0 (headBeforeSnapshot, State.reset.mem)).1.out.length = 1 := by
  decide +kernel

/-- Refutes O20: from sound memory the grant of a head sends something, where the head is the first data that a read-out of the
registers still waits for (R30, R302); the statement has nothing sent by any such grant. -/
theorem not_itemsAreGrantedAndLinesLeave : ¬ Obligations.ItemsAreGrantedAndLinesLeave := by
  intro h
  obtain ⟨hgrant, -⟩ := h
  obtain ⟨ha, hb⟩ := headBeforeSnapshot_ready
  obtain ⟨d, hexec, -, -, -, -, hout, -⟩ :=
    hgrant { State.reset with dev := headBeforeSnapshot } 0 headSlot .a .b rfl ⟨rfl, rfl⟩ (.inl ⟨rfl, rfl⟩) ha hb rfl
  have hd : (itemGrant 0 (headBeforeSnapshot, State.reset.mem)).1 = d := congrArg State.dev (Host.Outcome.next.inj hexec)
  have hsent := itemGrant_answers_snapshot
  rw [hd, hout] at hsent
  exact absurd hsent (by decide)

end Sys2Proof.Machine
end

section
/-! SUPPORT. What a web line's chain reads of its configuration set (R164 to R168, R178): two views that agree on the stitch fields give the
same covers, columns, chain and segments. -/

namespace Sys2Proof.Machine

/-! ## Sorting under two orders -/

theorem mem_insertBy {α : Type} {le : α → α → Bool} {a x : α} {l : List α} (h : x ∈ insertBy le a l) : x = a ∨ x ∈ l := by
  induction l with
  | nil => exact List.mem_cons.1 h
  | cons b l ih =>
    unfold insertBy at h
    split at h
    · exact List.mem_cons.1 h
    · rcases List.mem_cons.1 h with hb | hl
      · exact .inr (hb ▸ List.mem_cons_self)
      · exact (ih hl).imp_right (List.mem_cons_of_mem b)

theorem mem_sortBy {α : Type} {le : α → α → Bool} {x : α} {l : List α} (h : x ∈ sortBy le l) : x ∈ l := by
  induction l with
  | nil => exact h
  | cons a l ih => exact List.mem_cons.2 ((mem_insertBy h).imp_right ih)

theorem insertBy_congr {α : Type} {le le' : α → α → Bool} {a : α} {l : List α} (h : ∀ b ∈ l, le a b = le' a b) :
    insertBy le a l = insertBy le' a l := by
  induction l with
  | nil => rfl
  | cons b l ih =>
    rw [insertBy, insertBy, h b List.mem_cons_self, ih fun c hc => h c (List.mem_cons_of_mem b hc)]

theorem sortBy_congr {α : Type} {le le' : α → α → Bool} {l : List α} (h : ∀ a ∈ l, ∀ b ∈ l, le a b = le' a b) : sortBy le l = sortBy le' l := by
  induction l with
  | nil => rfl
  | cons a l ih =>
    have hl : sortBy le l = sortBy le' l := ih fun b hb c hc => h b (.tail a hb) c (.tail a hc)
    change insertBy le a (sortBy le l) = insertBy le' a (sortBy le' l)
    rw [hl]
    exact insertBy_congr fun b hb => h a List.mem_cons_self b (.tail a (mem_sortBy hb))

/-! ## Views that agree -/

/-- Two views that agree on every field a web line is formed by. -/
structure View.SameStitch (v v' : View) : Prop where
  own : ∀ f ∈ STITCH.fields1, v f = v' f
  port : ∀ p < 16, ∀ f ∈ PORT.LINE_LEN.LEN p :: STITCH.fields2 p, v f = v' f

/-- Such are the views of a set before and after a change of other registers. -/
theorem Dev.KeepsRegs.sameStitch {d e : Dev} {fs : List Fld} (h : d.KeepsRegs e fs) (hep : e.ep = d.ep) (epoch : Nat)
    (hstate : WEB.EPOCH_STATUS.STATE.key ∉ fs.map Fld.key) (hown : ∀ f ∈ STITCH.fields1, f.key ∉ fs.map Fld.key)
    (hport : ∀ p < 16, ∀ f ∈ PORT.LINE_LEN.LEN p :: STITCH.fields2 p, f.key ∉ fs.map Fld.key) :
    View.SameStitch (e.cfg epoch) (d.cfg epoch) :=
  ⟨fun f hf => Dev.KeepsKeys.cfg h hep hstate epoch (hown f hf), fun p hp f hf => Dev.KeepsKeys.cfg h hep hstate epoch (hport p hp f hf)⟩

theorem chainPorts_lt {v : View} {p : Nat} (hp : p ∈ chainPorts v) : p < 16 :=
  List.mem_range.1 (List.mem_filter.1 (mem_sortBy hp)).1

namespace View.SameStitch
variable {v v' : View} (h : v.SameStitch v') {p : Nat} (hp : p < 16)
include h

theorem edge : v STITCH.EDGE.VAL = v' STITCH.EDGE.VAL := h.own _ (by simp [STITCH.fields1])

theorem colFirst : colFirst v = colFirst v' := by
  simp only [Machine.colFirst, View.i32, h.own STITCH.COL_FIRST.COL (by simp [STITCH.fields1])]

theorem colCount : colCount v = colCount v' := h.own _ (by simp [STITCH.fields1])

theorem colLast : colLast v = colLast v' := by rw [Machine.colLast, Machine.colLast, h.colFirst, h.colCount]

include hp

theorem stagger : v (STITCH.STAGGER.D p) = v' (STITCH.STAGGER.D p) := h.port p hp _ (by simp [STITCH.fields2])

theorem seamX (i : Nat) : seamX v p i = seamX v' p i := by
  simp only [Machine.seamX, View.i32, h.port p hp (STITCH.C0_LO.C0 p) (by simp [STITCH.fields2]),
    h.port p hp (STITCH.C0_HI.C0 p) (by simp [STITCH.fields2]), h.port p hp (STITCH.C1.C p) (by simp [STITCH.fields2]),
    h.port p hp (STITCH.C2.C p) (by simp [STITCH.fields2]), h.port p hp (STITCH.C3.C p) (by simp [STITCH.fields2])]

theorem pixRange : pixRange v p = pixRange v' p := by
  simp only [Machine.pixRange, h.port p hp (STITCH.PIX_RANGE.FIRST p) (by simp [STITCH.fields2]),
    h.port p hp (STITCH.PIX_RANGE.LAST p) (by simp [STITCH.fields2]), h.port p hp (PORT.LINE_LEN.LEN p) (by simp)]

theorem cover : cover v p = cover v' p := by simp only [Machine.cover, h.pixRange hp, h.seamX hp]

theorem stage8 (y : List Nat) (st : Nat) : stage8 v p y st = stage8 v' p y st := by
  simp only [Machine.stage8, h.pixRange hp, h.seamX hp, h.colFirst, h.colLast, h.edge]

theorem portLink (seg : Option Seg) : portLink v seg p = portLink v' seg p := by
  simp only [Machine.portLink, View.i32, h.cover hp, h.port p hp (STITCH.CFG.RULE p) (by simp [STITCH.fields2]),
    h.port p hp (STITCH.CFG.F p) (by simp [STITCH.fields2]), h.port p hp (STITCH.SEAM_X.COL p) (by simp [STITCH.fields2])]

omit hp

theorem chainPorts : chainPorts v = chainPorts v' := by
  have hen : (List.range 16).filter (fun p => v (STITCH.CFG.EN p) != 0) = (List.range 16).filter fun p => v' (STITCH.CFG.EN p) != 0 :=
    List.filter_congr fun p hp => by rw [h.port p (List.mem_range.1 hp) _ (by simp [STITCH.fields2])]
  rw [Machine.chainPorts, Machine.chainPorts, ← hen]
  refine sortBy_congr fun p hp q hq => ?_
  rw [h.cover (List.mem_range.1 (List.mem_filter.1 hp).1), h.cover (List.mem_range.1 (List.mem_filter.1 hq).1)]

theorem chain (seg : Nat → Option Seg) : chain v seg = chain v' seg := by
  have hports : (Machine.chainPorts v').map (fun p => Machine.portLink v (seg p) p) =
      (Machine.chainPorts v').map fun p => Machine.portLink v' (seg p) p :=
    List.map_congr_left fun p hp => h.portLink (chainPorts_lt hp) _
  simp only [Machine.chain, h.chainPorts, hports, ringHalf, h.colFirst, h.colLast, h.edge,
    h.own STITCH.RSEAM_LO.EN (by simp [STITCH.fields1]), h.own STITCH.RSEAM_HI.EN (by simp [STITCH.fields1]),
    h.own STITCH.RSEAM_LO.RULE (by simp [STITCH.fields1]), h.own STITCH.RSEAM_HI.RULE (by simp [STITCH.fields1]),
    h.own STITCH.RSEAM_LO.F (by simp [STITCH.fields1]), h.own STITCH.RSEAM_HI.F (by simp [STITCH.fields1])]

/-! ### Segments -/

variable {d e : Dev} (hs : e.stitch = d.stitch) (hd : e.on STITCH.STATUS.DEGRADED = d.on STITCH.STATUS.DEGRADED)
include hs hd

theorem withheld (hp : p < 16) (w : Nat) : withheld e v p w = withheld d v' p w := by
  simp only [Machine.withheld, h.stagger hp, hs, hd]

theorem segFor (w : Nat) : segFor e v w = segFor d v' w := by
  funext p
  unfold Machine.segFor
  by_cases hp : p < 16
  · simp only [if_pos hp, h.withheld hs hd hp, h.stagger hp, hs]
  · simp only [if_neg hp, hs]

theorem outstanding (w : Nat) : outstanding e v w = outstanding d v' w := by
  rw [Machine.outstanding, Machine.outstanding, h.chainPorts, h.segFor hs hd]
  exact List.filter_congr fun p hp => by rw [h.withheld hs hd (chainPorts_lt hp)]

theorem stripsDue (w : Nat) : stripsDue e v w = stripsDue d v' w := by
  simp only [Machine.stripsDue, h.segFor hs hd, h.own STITCH.RSEAM_LO.EN (by simp [STITCH.fields1]),
    h.own STITCH.RSEAM_HI.EN (by simp [STITCH.fields1])]

end View.SameStitch

end Sys2Proof.Machine
end

section
/-! SUPPORT. Segments, strips and deadlines (R103, R171, R172, R178), emission (R170, R174) and calibration (R180). -/

namespace Sys2Proof.Machine

/-! ## The stitch stage's own messages -/

/-- From `d` to `e` only the waiting web lines and what the module has sent changed. -/
def Dev.StripsOnly (d e : Dev) : Prop := e = { d with stitch := { d.stitch with waiting := e.stitch.waiting }, out := e.out }

theorem Dev.StripsOnly.trans {d e e' : Dev} (h : d.StripsOnly e) (h' : e.StripsOnly e') : d.StripsOnly e' := by
  rw [Dev.StripsOnly] at h h' ⊢
  rw [h', h]

/-- Strips are messages alone. -/
theorem sendStrips_out (d : Dev) (v : View) (w : Nat) : sendStrips d v w = { d with out := (sendStrips d v w).out } := by
  unfold sendStrips
  extract_lets e cells ps d1
  have h1 : d1 = { d with out := d1.out } := by
    simp only [d1]
    split <;> rfl
  split
  · rw [h1]
    rfl
  · exact h1

theorem stripSweep_only (d : Dev) : d.StripsOnly (stripSweep d) := by
  have hfold (l : List OpenWeb) (e : Dev) : e.StripsOnly (l.foldl (fun d o =>
      let v := d.cfg o.trig.epoch
      if o.stripsSent || !(outstanding d v o.trig.wln).isEmpty then d
      else (sendStrips d v o.trig.wln).updStitch fun s =>
        { s with waiting := s.waiting.map fun x => if x.trig.wln == o.trig.wln then { x with stripsSent := true } else x }) e) := by
    induction l generalizing e with
    | nil => rfl
    | cons o l ih =>
      refine Dev.StripsOnly.trans ?_ (ih _)
      dsimp only
      split
      · rfl
      · rw [sendStrips_out]
        rfl
  exact hfold _ d

/-! ## SEGMENT_ACCEPT -/

/-- Beside a measurement a line is no calibration line. -/
theorem calLine_beside {x : DM} {o : OutLine} (h : ∀ c ∈ x.1.stitch.cal, c.port ≠ o.port) : calLine x o = x := by
  have hnone : (x.1.stitch.cal.find? fun c => c.port == o.port) = none := List.find?_eq_none.2 fun c hc => by simpa using h c hc
  unfold calLine
  simp only [hnone]

/-- The segment that a pipeline line makes outside degraded mode. -/
def segOf (d : Dev) (o : OutLine) : Seg :=
  ⟨o.port, o.trig.wln, bitOf o.pipeFlags QF.void, bitOf o.pipeFlags QF.suspect,
    if bitOf o.pipeFlags QF.void then [] else stage8 (d.cfg o.epoch) o.port o.y (b2n (bitOf o.pipeFlags QF.suspect))⟩

theorem acceptLine_released {d : Dev} {o : OutLine} (hcal : ∀ c ∈ d.stitch.cal, c.port ≠ o.port)
    (hr : released d (o.trig.wln + d.cfg o.epoch (STITCH.STAGGER.D o.port)) = true) (m : Memory) : acceptLine (d, m) o = (d, m) := by
  unfold acceptLine
  simp only [calLine_beside (x := (d, m)) hcal, ite_self, hr, Bool.true_or, if_true]

theorem acceptLine_taken {d : Dev} {o : OutLine} (hcal : ∀ c ∈ d.stitch.cal, c.port ≠ o.port)
    (hr : released d (o.trig.wln + d.cfg o.epoch (STITCH.STAGGER.D o.port)) = false) (hen : d.cfg o.epoch (STITCH.CFG.EN o.port) ≠ 0)
    (hdeep : d.on STITCH.STATUS.DEGRADED = false ∨ d.cfg o.epoch (STITCH.STAGGER.D o.port) ≤ 16) (m : Memory) :
    acceptLine (d, m) o = (stripSweep (d.updStitch fun q => { q with segs := q.segs ++ [segOf d o] }), m) := by
  have hkeep : (if d.on STITCH.STATUS.DEGRADED = true then (segOf d o).loseDeep d o.epoch else segOf d o) = segOf d o := by
    have hlose : ¬ (d.on STITCH.STATUS.DEGRADED = true ∧ 16 < d.cfg o.epoch (STITCH.STAGGER.D o.port)) := by
      rintro ⟨hon, hlt⟩
      rcases hdeep with h | h
      · simp [h] at hon
      · omega
    split
    next hon => exact if_neg fun h => hlose ⟨hon, h.2⟩
    · rfl
  unfold acceptLine
  simp only [calLine_beside (x := (d, m)) hcal, ite_self, hr, Bool.false_or, beq_iff_eq, hen, if_false]
  exact congrArg (fun s => (stripSweep (d.updStitch fun q => { q with segs := q.segs ++ [s] }), m)) hkeep

/-- A DONE slot freed and counted. -/
def slotFreed (d : Dev) (l : Fin 8) (p w : Nat) : Dev :=
  (updSlots d l (List.filter fun q => !(q.port == p && q.trig.wln == w))).inc (PIPE.LINES_OUT.CNT l)

theorem segmentAccept_done {d : Dev} {l : Fin 8} {p : Fin 16} {w : Nat} {x : Slot}
    (hx : d.pipes[l].slots.find? (fun q => q.port == p.val && q.trig.wln == w && q.state == SlotState.done) = some x) (m : Memory) :
    segmentAccept l p w (d, m) = acceptLine (slotFreed d l p w, m) (slotOut l x) ∧ x.port = p.val ∧ x.trig.wln = w := by
  have hx' := List.find?_some hx
  simp only [Bool.and_eq_true, beq_iff_eq] at hx'
  obtain ⟨⟨hport, hwln⟩, -⟩ := hx'
  refine ⟨?_, hport, hwln⟩
  unfold segmentAccept
  simp only [hx]
  rfl

theorem slotFreed_spec (d : Dev) (l : Fin 8) (p w : Nat) :
    (∀ q ∈ (slotFreed d l p w).pipes[l].slots, ¬ (q.port = p ∧ q.trig.wln = w)) ∧
    d.Counted (slotFreed d l p w) (PIPE.LINES_OUT.CNT l) ∧ d.KeepsRegs (slotFreed d l p w) [PIPE.LINES_OUT.CNT l] ∧
    (slotFreed d l p w).stitch = d.stitch ∧ (slotFreed d l p w).out = d.out := by
  refine ⟨fun q hq => ?_, Dev.rd_inc_same _ _, ?_, rfl, rfl⟩
  · rw [slotFreed, show ∀ (e : Dev) f, (e.inc f).pipes = e.pipes from fun _ _ => rfl, updSlots, Dev.updPipe_pipes_same] at hq
    exact not_and_or.2 (by simpa using (List.mem_filter.1 hq).2)
  · exact ((Dev.KeepsKeys.refl d _).of_regs (e' := updSlots d l _) rfl).inc (f := PIPE.LINES_OUT.CNT l) (by simp)

theorem slotFreed_view (d : Dev) (l : Fin 8) (p w epoch : Nat) : View.SameStitch ((slotFreed d l p w).cfg epoch) (d.cfg epoch) :=
  Dev.KeepsRegs.sameStitch (slotFreed_spec d l p w).2.2.1 rfl epoch (by clear * -; decide +revert) (by clear * -; decide +revert)
    (by clear * -; decide +revert)

theorem segmentAccept_discards {d : Dev} {l : Fin 8} {p : Fin 16} {w : Nat} {x : Slot}
    (hx : d.pipes[l].slots.find? (fun q => q.port == p.val && q.trig.wln == w && q.state == SlotState.done) = some x)
    (hcal : ∀ c ∈ d.stitch.cal, c.port ≠ p.val) (hr : released d (w + d.cfg x.trig.epoch (STITCH.STAGGER.D p)) = true) (m : Memory) :
    segmentAccept l p w (d, m) = (slotFreed d l p w, m) := by
  obtain ⟨heq, hport, hwln⟩ := segmentAccept_done hx m
  have hstagger := (slotFreed_view d l p w x.trig.epoch).stagger p.isLt
  rw [heq]
  refine acceptLine_released ?_ ?_ m
  · rw [show (slotOut l x).port = p.val from hport]
    exact hcal
  · rw [show (slotOut l x).port = p.val from hport, show (slotOut l x).trig.wln = w from hwln, show (slotOut l x).epoch = x.trig.epoch from rfl,
      hstagger]
    exact hr

theorem segmentAccept_takes {d : Dev} {l : Fin 8} {p : Fin 16} {w : Nat} {x : Slot}
    (hx : d.pipes[l].slots.find? (fun q => q.port == p.val && q.trig.wln == w && q.state == SlotState.done) = some x)
    (hcal : ∀ c ∈ d.stitch.cal, c.port ≠ p.val) (hen : d.cfg x.trig.epoch (STITCH.CFG.EN p) ≠ 0)
    (hdeep : d.on STITCH.STATUS.DEGRADED = false ∨ d.cfg x.trig.epoch (STITCH.STAGGER.D p) ≤ 16)
    (hr : released d (w + d.cfg x.trig.epoch (STITCH.STAGGER.D p)) = false) (m : Memory) :
    (segmentAccept l p w (d, m)).2 = m ∧
    (slotFreed d l p w).KeepsRegs (segmentAccept l p w (d, m)).1 [] ∧ (segmentAccept l p w (d, m)).1.pipes = (slotFreed d l p w).pipes ∧
    (segmentAccept l p w (d, m)).1.stitch.segs = d.stitch.segs ++ [segOf d (slotOut l x)] := by
  obtain ⟨heq, hport, hwln⟩ := segmentAccept_done hx m
  have hview := slotFreed_view d l p w x.trig.epoch
  have hport' : (slotOut l x).port = p.val := hport
  have hseg : segOf (slotFreed d l p w) (slotOut l x) = segOf d (slotOut l x) := by
    rw [segOf, segOf, hport', show (slotOut l x).epoch = x.trig.epoch from rfl, hview.stage8 p.isLt]
  have hdeg : (slotFreed d l p w).on STITCH.STATUS.DEGRADED = d.on STITCH.STATUS.DEGRADED := by
    rw [Dev.on, Dev.on, (slotFreed_spec d l p w).2.2.1 _ (by clear * -; decide +revert)]
  have htaken : acceptLine (slotFreed d l p w, m) (slotOut l x) = (stripSweep ((slotFreed d l p w).updStitch fun q =>
      { q with segs := q.segs ++ [segOf (slotFreed d l p w) (slotOut l x)] }), m) := by
    refine acceptLine_taken ?_ ?_ ?_ ?_ m
    · rw [hport']
      exact hcal
    · rw [hport', show (slotOut l x).trig.wln = w from hwln, show (slotOut l x).epoch = x.trig.epoch from rfl, hview.stagger p.isLt]
      exact hr
    · rw [hport', show (slotOut l x).epoch = x.trig.epoch from rfl, hview.port p p.isLt _ (by simp [STITCH.fields2])]
      exact hen
    · rw [hport', show (slotOut l x).epoch = x.trig.epoch from rfl, hview.stagger p.isLt, hdeg]
      exact hdeep
  rw [heq, htaken, hseg]
  generalize he : (slotFreed d l p w).updStitch (fun q => { q with segs := q.segs ++ [segOf d (slotOut l x)] }) = e
  have hsweep := stripSweep_only e
  rw [Dev.StripsOnly] at hsweep
  refine ⟨rfl, ?_, ?_, ?_⟩
  · exact (Dev.KeepsKeys.refl _ _).of_regs (by rw [hsweep, ← he]; rfl)
  · rw [hsweep, ← he]
    rfl
  · rw [hsweep, ← he]
    rfl

/-! ## STRIP and DEADLINE_US -/

theorem strip_released {d : Dev} {w : Nat} (hr : released d w = true) (upper : Bool) (cols : List (Int × Nat × Nat)) :
    strip upper w cols d = d := if_pos hr

theorem strip_added {d : Dev} {w : Nat} (hr : released d w = false) (upper : Bool) (cols : List (Int × Nat × Nat)) :
    strip upper w cols d = d.updStitch fun s => { s with segs := s.segs ++ [⟨if upper then 17 else 16, w, false, false, cols⟩] } :=
  if_neg (by simp [hr])

theorem deadlineUs_forces (d : Dev) (w : Nat) :
    (∀ o ∈ (deadlineUs w d).stitch.waiting, o.trig.wln = w →
      o.trig.time + 16000 * d.cfg o.trig.epoch STITCH.DEADLINE_US.US ≤ d.now → o.forced = true) ∧
    (deadlineUs w d).stitch.waiting.map OpenWeb.trig = d.stitch.waiting.map OpenWeb.trig := by
  simp only [deadlineUs, Dev.updStitch_stitch, List.map_map]
  refine ⟨fun o ho hw hdue => ?_, List.map_congr_left fun o _ => ?_⟩
  · obtain ⟨x, -, rfl⟩ := List.mem_map.1 ho
    split
    · rfl
    next hx =>
      rw [if_neg hx] at hw hdue
      simp [hw, hdue] at hx
  · simp only [Function.comp]
    split <;> rfl

/-! ## STITCH_EMIT -/

theorem stitchEmit_waits {d : Dev} (h : d.now < d.stitch.busyUntil) : stitchEmit d = d := by
  unfold stitchEmit
  split
  · rfl
  · exact if_pos h

/-- A HOLE column of a line takes the fill, every other column stays. -/
theorem fillLine_cells (d : Dev) (g : WebLine) {k : Nat} {c : Nat × Nat} (h : g.cells[k]? = some c) :
    (fillLine d g).cells[k]? = some (if c.2 = 2 then (fillVal d (d.cfg g.epoch) (g.colFirst + k), 2) else c) := by
  have hk : (List.range g.cells.length)[k]? = some k := List.getElem?_range (List.getElem?_eq_some_iff.1 h).1
  have hz : (g.cells.zip (List.range g.cells.length))[k]? = some (c, k) := List.getElem?_zip_eq_some.2 ⟨h, hk⟩
  rw [fillLine, List.getElem?_map, hz]
  rfl

theorem stitchEmit_emits {d : Dev} {g : WebLine} {rest : List WebLine} (ho : d.stitch.out = g :: rest) (hb : d.stitch.busyUntil ≤ d.now) :
    stitchEmit d = d.updStitch fun s =>
      { s with out := rest, busyUntil := d.now + stitchLoad g.cells.length * 40 / 3
               toSeg := s.toSeg ++ [fillLine d g], toArc := s.toArc ++ [fillLine d g], last := lastEmitted s.last g } := by
  unfold stitchEmit
  rw [ho]
  exact if_neg (Nat.not_lt.2 hb)

/-! ## CAL_GO -/

theorem calGo_busy {d : Dev} (h : d.on STITCH.CAL_STAT.BUSY = true) : calGo d = d := if_pos (.inl h)

/-- The ports that a GO measures. -/
def calPorts (d : Dev) : List Nat := (List.range 16).filter fun p => bitOf (d.rd STITCH.CAL_PORTS.MASK) p

theorem calGo_starts {d : Dev} (hb : d.on STITCH.CAL_STAT.BUSY = false) (hm : d.rd STITCH.CAL_CTL.MODE = 1 ∨ d.rd STITCH.CAL_CTL.MODE = 2)
    (hp : ∃ p < 16, bitOf (d.rd STITCH.CAL_PORTS.MASK) p = true) :
    calGo d = (d.updStitch fun s => { s with calMode := d.rd STITCH.CAL_CTL.MODE, cal := (calPorts d).map fun p =>
      ⟨p, d.rd STITCH.CAL_CTL.LINES, [], 0, none⟩ }).wr STITCH.CAL_STAT.BUSY 1 := by
  have hgo : ¬ (d.on STITCH.CAL_STAT.BUSY = true ∨ (d.rd STITCH.CAL_CTL.MODE ≠ 1 ∧ d.rd STITCH.CAL_CTL.MODE ≠ 2)) := by
    rintro (h | ⟨h1, h2⟩)
    · simp [hb] at h
    · exact hm.elim h1 h2
  have hsome : ¬ (calPorts d).isEmpty = true := by
    obtain ⟨p, hp, hbit⟩ := hp
    rw [List.isEmpty_iff]
    exact List.ne_nil_of_mem (List.mem_filter.2 ⟨List.mem_range.2 hp, hbit⟩)
  unfold calGo
  exact (if_neg hgo).trans (if_neg hsome)

theorem calGo_measures {d : Dev} (hb : d.on STITCH.CAL_STAT.BUSY = false) (hm : d.rd STITCH.CAL_CTL.MODE = 1 ∨ d.rd STITCH.CAL_CTL.MODE = 2)
    (hp : ∃ p < 16, bitOf (d.rd STITCH.CAL_PORTS.MASK) p = true) :
    (calGo d).rd STITCH.CAL_STAT.BUSY = 1 ∧ (calGo d).stitch.calMode = d.rd STITCH.CAL_CTL.MODE ∧
    (∀ p < 16, (∃ c ∈ (calGo d).stitch.cal, c.port = p ∧ c.left = d.rd STITCH.CAL_CTL.LINES) ↔
      bitOf (d.rd STITCH.CAL_PORTS.MASK) p = true) ∧ d.KeepsRegs (calGo d) [STITCH.CAL_STAT.BUSY] := by
  rw [calGo_starts hb hm hp]
  refine ⟨Dev.rd_wr_same _ _ _, rfl, fun p hp => ?_, ?_⟩
  · simp [calPorts, hp]
  · exact ((Dev.KeepsKeys.refl d _).of_regs (e' := d.updStitch _) rfl).wr (f := STITCH.CAL_STAT.BUSY) (by simp) 1

end Sys2Proof.Machine
end

section
/-! SUPPORT. The release of a web line (R171, R173 to R176, R179): what a snapshot and the seams leave, and the line that goes. -/

namespace Sys2Proof.Machine

/-! ## Registers that a snapshot may write -/

/-- The registers in which a snapshot shows itself, and the counters of the frames by which a read-out is answered. -/
def snapFields : List Fld := [WEB.SNAP_STATUS.PENDING, WEB.SNAP_STATUS.VALID, HOST.TX_FRAMES_HA.CNT, HOST.TX_FRAMES_HB.CNT]

namespace Dev.KeepsRegs
variable {d e : Dev}

theorem snapAsk (h : d.KeepsRegs e snapFields) (next : Bool) (s : Nat) : d.KeepsRegs (snapAsk e next s) snapFields :=
  h.trans ((snapAsk_spec e next s).2.2.2.2.subset (by simp [snapFields]))

theorem snapDrop (h : d.KeepsRegs e snapFields) : d.KeepsRegs (snapDrop e) snapFields :=
  h.trans ((snapDrop_spec e).2.2.2.2.subset (by simp [snapFields]))

theorem snapStart (h : d.KeepsRegs e snapFields) (next : Bool) (s : Nat) (ring : Bool) : d.KeepsRegs (snapStart e next s ring) snapFields := by
  have hto : ∀ (e' : Dev) k args, (e'.toRing k args).regs = e'.regs ∧ (e'.toStandby k args).regs = e'.regs := fun e' k args =>
    ⟨by unfold Dev.toRing; split <;> rfl, by unfold Dev.toStandby; split <;> rfl⟩
  unfold Machine.snapStart
  split
  · exact h.snapAsk _ _
  · split
    · exact h
    · split
      · exact h.snapAsk _ _
      · exact KeepsKeys.of_regs (h.snapAsk false s) ((hto _ _ _).2.trans (hto _ _ _).1)

theorem snapNextJob (js : List SnapJob) (h : d.KeepsRegs e snapFields) : d.KeepsRegs (snapNextJob js e) snapFields := by
  induction js generalizing e with
  | nil => exact KeepsKeys.of_regs h rfl
  | cons j rest ih =>
    have hstart (jobs : List SnapJob) :
        d.KeepsRegs (Machine.snapStart { e with snap := { e.snap with jobs := jobs } } j.next j.target j.ring) snapFields :=
      snapStart (e := { e with snap := { e.snap with jobs := jobs } }) (KeepsKeys.of_regs h rfl) _ _ _
    rw [Machine.snapNextJob]
    split
    · exact hstart _
    · exact ih (hstart _)

theorem answer (h : d.KeepsRegs e snapFields) (port j seq : Nat) (fs : List (Nat × List Nat)) :
    d.KeepsRegs (answer e port j seq fs) snapFields := by
  refine KeepsKeys.of_regs (KeepsKeys.foldl (fun e' f => ?_) fs h) rfl
  refine ((KeepsKeys.refl e' _).of_regs (e' := (arpUse e' port j).emit _) rfl).inc ?_
  split <;> simp [snapFields]

theorem snapAnswer (h : d.KeepsRegs e snapFields) : d.KeepsRegs (snapAnswer e) snapFields := by
  unfold Machine.snapAnswer
  split
  · exact h
  · split
    · exact h
    · split
      · exact h
      · refine snapNextJob _ ?_
        split
        · exact (h.answer _ _ _ _).snapDrop
        · exact h.answer _ _ _ _

theorem snapReach (h : d.KeepsRegs e snapFields) (p w : Nat) (fs : List Fld) : d.KeepsRegs (e.snapReach p w fs) snapFields := by
  unfold Dev.snapReach
  split
  · exact snapAnswer (KeepsKeys.of_regs h rfl)
  · exact h

end Dev.KeepsRegs

theorem snapReach_stitch (d : Dev) (p w : Nat) (fs : List Fld) : (d.snapReach p w fs).stitch = d.stitch := by
  rw [((Dev.SnapKept.refl d).snapReach p w fs).rest]

/-- The views of a set before and after a snapshot's step form the same web line. -/
theorem snapReach_sameStitch (d : Dev) (p w epoch : Nat) (fs : List Fld) : View.SameStitch ((d.snapReach p w fs).cfg epoch) (d.cfg epoch) :=
  Dev.KeepsRegs.sameStitch (Dev.KeepsRegs.snapReach (Dev.KeepsKeys.refl d _) p w fs) (by rw [((Dev.SnapKept.refl d).snapReach p w fs).rest])
    epoch (by decide) (by decide) (by decide)

/-! ## What is done beside the line's own counts -/

/-- The keys other than those of the two counts of a line that is put out. -/
def besideCounts (k : Nat) : Prop := k ≠ STITCH.LINES_OUT.CNT.key ∧ k ≠ STITCH.OVERLOAD_CNT.CNT.key

theorem not_besideCounts_linesOut : ¬ besideCounts STITCH.LINES_OUT.CNT.key := fun h => h.1 rfl

theorem not_besideCounts_overload : ¬ besideCounts STITCH.OVERLOAD_CNT.CNT.key := fun h => h.2 rfl

/-- From `d` to `e` nothing of the stitch stage but the seams' sums changed, the time stands, and the two counts read as before. -/
structure Dev.SeamKept (d e : Dev) : Prop where
  stitch : e.stitch = { d.stitch with seams := e.stitch.seams }
  time : e.time = d.time
  regs : d.KeepsKeys e besideCounts

namespace Dev.SeamKept
variable {d e : Dev}

theorem refl (d : Dev) : d.SeamKept d := ⟨rfl, rfl, .refl _ _⟩

theorem trans {e' : Dev} (h : d.SeamKept e) (h' : e.SeamKept e') : d.SeamKept e' :=
  ⟨by rw [h'.stitch, h.stitch], h'.time.trans h.time, h.regs.trans h'.regs⟩

/-- Where the stitch stage stands as it was. -/
theorem of_stitch (hs : e.stitch = d.stitch) (ht : e.time = d.time) (hr : d.KeepsKeys e besideCounts) : d.SeamKept e := ⟨by rw [hs], ht, hr⟩

theorem updSeams (d : Dev) (g : Stitch → List SeamSum) : d.SeamKept (d.updStitch fun q => { q with seams := g q }) :=
  ⟨rfl, rfl, (KeepsKeys.refl d _).of_regs rfl⟩

theorem snapReach (d : Dev) (p w : Nat) (fs : List Fld) : d.SeamKept (d.snapReach p w fs) := by
  have h := (SnapKept.refl d).snapReach p w fs
  refine .of_stitch (snapReach_stitch d p w fs) (by rw [h.rest]) (KeepsKeys.mono (KeepsRegs.snapReach (KeepsKeys.refl d _) p w fs) ?_)
  exact fun k hk => ⟨fun h => absurd (h ▸ hk) (by decide), fun h => absurd (h ▸ hk) (by decide)⟩

end Dev.SeamKept

theorem besideCounts_mean (p : Nat) : besideCounts (STITCH.SEAM_DIFF.MEAN p).key ∧ besideCounts (STITCH.SEAM_DIFF.N p).key := by
  simp only [besideCounts, Fld.key, STITCH.SEAM_DIFF.MEAN, STITCH.SEAM_DIFF.N, STITCH.LINES_OUT.CNT, STITCH.OVERLOAD_CNT.CNT, fld]
  omega

theorem loadSeam_kept (x : DM) (s : SeamSum) : x.1.SeamKept (loadSeam x s).1 := by
  unfold loadSeam
  extract_lets mean d1 y
  have hshown : x.1.KeepsKeys d1 besideCounts :=
    ((Dev.KeepsKeys.refl x.1 _).wr (besideCounts_mean s.port).1 mean).wrSat (besideCounts_mean s.port).2 s.n
  have h1 : x.1.SeamKept d1 := .of_stitch rfl rfl hshown
  have h2 : d1.SeamKept y.1 := .updSeams d1 fun q => q.seams.filter fun z => z.port != s.port
  have hy : x.1.SeamKept y.1 := h1.trans h2
  split
  · exact hy
  · have htrack := ledgerEnter_track y 9 s.port mean
    refine hy.trans (.of_stitch (by rw [htrack.rest]) (by rw [htrack.rest]) (Dev.KeepsKeys.mono htrack.regs fun k hk => ?_))
    exact ⟨fun h => absurd (h ▸ hk) (by decide), fun h => absurd (h ▸ hk) (by decide)⟩

theorem loadSeams_kept (l : List SeamSum) (x : DM) : x.1.SeamKept (l.foldl loadSeam x).1 := by
  induction l generalizing x with
  | nil => exact .refl _
  | cons s l ih => exact (loadSeam_kept x s).trans (ih _)

theorem seamUpdate_kept (x : DM) (v : View) (epoch w : Nat) (ch : List Link) : x.1.SeamKept (seamUpdate x v epoch w ch).1 := by
  unfold seamUpdate
  extract_lets idx key x1 d
  have hsum : x1.1.SeamKept d := by
    have hfold (l : List (Link × Link)) (g : Dev → Link × Link → Dev) (hg : ∀ (e : Dev) q, e.SeamKept (g e q)) (e : Dev) :
        e.SeamKept (l.foldl g e) := by
      induction l generalizing e with
      | nil => exact .refl _
      | cons q l ih => exact (hg e q).trans (ih _)
    refine hfold _ _ (fun e q => ?_) _
    dsimp only
    split
    · exact .refl _
    · exact .updSeams e _
  have hd : x.1.SeamKept d := (loadSeams_kept _ x).trans hsum
  split
  · exact hd.trans (loadSeams_kept _ (d, x1.2))
  · exact hd

/-! ## The line that goes -/

theorem Dev.OnlyKeys.ite {d e e' : Dev} {S : Nat → Prop} (c : Prop) [Decidable c] (h : d.OnlyKeys e S) (h' : d.OnlyKeys e' S) :
    d.OnlyKeys (if c then e else e') S := by
  split
  · exact h
  · exact h'

/-- What a line's own flags count beside LINES_OUT and OVERLOAD_CNT. -/
def flagFields : List Fld :=
  [STITCH.HOLE_LINES.CNT, STITCH.SKIPPED_CNT.CNT, STITCH.RECONF_CNT.CNT, Com.IRQ_RAW Page.STITCH, Com.ERR_CNT Page.STITCH]

theorem putOut_spec (d : Dev) {v : View} (hn : colCount v ≠ 0) (g : WebLine) :
    (putOut d v g).stitch.waiting = d.stitch.waiting.drop 1 ∧ (putOut d v g).stitch.lastRel = some g.wln ∧
    (putOut d v g).stitch.out = d.stitch.out ++ [g] ∧ d.Counted (putOut d v g) STITCH.LINES_OUT.CNT ∧
    (d.stitch.out ≠ [] ∨ d.now < d.stitch.busyUntil → d.Counted (putOut d v g) STITCH.OVERLOAD_CNT.CNT) := by
  generalize he : putOut d v g = e
  unfold putOut at he
  extract_lets waits d1 d2 d3 d4 d5 at he
  have h1 : d1 = (d.inc STITCH.LINES_OUT.CNT).updStitch fun s => { s with out := s.out ++ [g] } := if_neg hn
  have hflags : d2.OnlyKeys d5 (· ∈ flagFields.map Fld.key) := by
    have h3 : d2.OnlyKeys d3 (· ∈ flagFields.map Fld.key) := .ite _ ((Dev.OnlyKeys.refl d2 _).inc (by simp [flagFields])) (.refl _ _)
    have h4 : d3.OnlyKeys d4 (· ∈ flagFields.map Fld.key) :=
      .ite _ (((Dev.OnlyKeys.refl d3 _).inc (by simp [flagFields])).irq (by simp [flagFields]) (by simp [flagFields]) _) (.refl _ _)
    have h5 : d4.OnlyKeys d5 (· ∈ flagFields.map Fld.key) := .ite _ ((Dev.OnlyKeys.refl d4 _).inc (by simp [flagFields])) (.refl _ _)
    exact (h3.trans h4).trans h5
  have hload : d1.OnlyRegs d2 [STITCH.OVERLOAD_CNT.CNT, Com.IRQ_RAW Page.STITCH, Com.ERR_CNT Page.STITCH] := by
    exact Dev.OnlyKeys.ite _ (((Dev.OnlyKeys.refl d1 _).inc (by simp)).irq (by simp) (by simp) _) (.refl _ _)
  have hstitch : d5.stitch = d1.stitch := by rw [hflags.1, hload.1]
  subst he
  refine ⟨?_, rfl, ?_, ?_, fun hwaits => ?_⟩
  · rw [Dev.updStitch_stitch, hstitch, h1]
    rfl
  · rw [Dev.updStitch_stitch, hstitch, h1]
    rfl
  · rw [Dev.Counted]
    calc d5.rd STITCH.LINES_OUT.CNT
      _ = d2.rd STITCH.LINES_OUT.CNT := hflags.2 _ (by decide)
      _ = d1.rd STITCH.LINES_OUT.CNT := hload.2 _ (by decide)
      _ = (d.inc STITCH.LINES_OUT.CNT).rd STITCH.LINES_OUT.CNT := by rw [h1]; rfl
      _ = _ := Dev.rd_inc_same _ _
  · have h2 : d2 = (d1.inc STITCH.OVERLOAD_CNT.CNT).irq Page.STITCH STITCH.irq.OVERLOAD :=
      if_pos ⟨hn, by simpa [waits] using hwaits⟩
    rw [Dev.Counted]
    calc d5.rd STITCH.OVERLOAD_CNT.CNT
      _ = d2.rd STITCH.OVERLOAD_CNT.CNT := hflags.2 _ (by decide)
      _ = (d1.inc STITCH.OVERLOAD_CNT.CNT).rd STITCH.OVERLOAD_CNT.CNT := by
        rw [h2, Dev.rd_irq_other _ _ _ _ (by decide) (by decide)]
      _ = min (d1.rd STITCH.OVERLOAD_CNT.CNT + 1) _ := Dev.rd_inc_same _ _
      _ = min ((d.inc STITCH.LINES_OUT.CNT).rd STITCH.OVERLOAD_CNT.CNT + 1) _ := by rw [h1]; rfl
      _ = min (d.rd STITCH.OVERLOAD_CNT.CNT + 1) _ := by
        rw [(Dev.KeepsKeys.refl d (· = STITCH.LINES_OUT.CNT.key)).inc (f := STITCH.LINES_OUT.CNT) rfl STITCH.OVERLOAD_CNT.CNT (by decide)]

/-- The cells of a web line: one for each column, formed by the members that cover it, or a HOLE. -/
def webCells (v : View) (seg : Nat → Option Seg) : List (Nat × Nat) :=
  (List.range (colCount v)).map fun (k : Nat) => (formCol (chain v seg) (colFirst v + k)).getD (0, 2)

theorem webCells_length (v : View) (seg : Nat → Option Seg) : (webCells v seg).length = colCount v := by simp [webCells]

theorem webCells_at {v : View} {k : Nat} (hk : k < colCount v) (seg : Nat → Option Seg) :
    (webCells v seg)[k]? = some ((formCol (chain v seg) (colFirst v + k)).getD (0, 2)) := by
  simp [webCells, hk]

theorem View.SameStitch.webCells {v v' : View} (h : v.SameStitch v') (seg : Nat → Option Seg) : webCells v seg = webCells v' seg := by
  simp only [Machine.webCells, h.chain, h.colFirst, h.colCount]

/-- Flags without LATE_SEG show none, whether HOLES is set or not. -/
theorem webLine_not_late {t : TrigRec} {v : View} {flags : Nat} (h : flags / 2 % 2 = 0) (present suspect remote : Nat)
    (cells : List (Nat × Nat)) : bitOf (webLine t v flags present suspect remote cells).flags WF.late = false := by
  have hlate : bitOf flags WF.late = false := by simp [bitOf, WF.late, h]
  unfold webLine
  dsimp only
  split
  · rw [bitOf_setBit, hlate]
    rfl
  · exact hlate

/-- A complete line is put out as its chain forms it, after a step that touches only what stands beside it. -/
theorem releaseWeb_complete {x : DM} {o : OpenWeb} {v : View} (hv : v = x.1.cfg o.trig.epoch)
    (hports : outstanding x.1 v o.trig.wln = []) (hstrips : stripsDue x.1 v o.trig.wln = []) :
    ∃ (e : Dev) (v' : View) (g : WebLine), (releaseWeb x o).1 = putOut e v' g ∧ x.1.SeamKept e ∧ colCount v' = colCount v ∧
      g.wln = o.trig.wln ∧ g.epoch = o.trig.epoch ∧ g.colFirst = colFirst v ∧ bitOf g.flags WF.late = false ∧
      g.cells = webCells v (segFor x.1 v o.trig.wln) := by
  subst hv
  generalize hr : releaseWeb x o = r
  unfold releaseWeb at hr
  extract_lets w d0 v' d late strips ch n cells used rec16 recon flags d1 d2 y at hr
  have hview : View.SameStitch v' (x.1.cfg o.trig.epoch) := snapReach_sameStitch _ _ _ _ _
  have hsnap : x.1.SeamKept d0 := .snapReach _ _ _ _
  have hd : d = { d0 with out := d.out } := by
    simp only [d]
    split
    · rfl
    · exact sendStrips_out _ _ _
  have hstitch : d.stitch = x.1.stitch := by
    rw [hd]
    exact snapReach_stitch _ _ _ _
  have hdeg : d.on STITCH.STATUS.DEGRADED = x.1.on STITCH.STATUS.DEGRADED := by
    rw [hd]
    exact congrArg (· != 0) (((Dev.SnapKept.refl x.1).snapReach Page.STITCH w STITCH.fields).regs _ (by decide))
  have hlate : late = [] := (hview.outstanding hstitch hdeg w).trans hports
  have hnone : strips = [] := (hview.stripsDue hstitch hdeg w).trans hstrips
  have hd2 : d2 = d := by simp only [d2, d1, hlate, hnone, List.foldl_nil]
  have hflags : flags / 2 % 2 = 0 := by
    have hskip : b2n o.trig.skipped ≤ 1 := by cases o.trig.skipped <;> decide
    simp only [flags, hlate, hnone, List.isEmpty_nil, Bool.not_true, show b2n false = 0 from rfl]
    omega
  subst hr
  refine ⟨y.1, v', _, rfl, ?_, hview.colCount, rfl, rfl, hview.colFirst, webLine_not_late hflags _ _ _ _, ?_⟩
  · have hseam : d2.SeamKept y.1 := seamUpdate_kept (d2, x.2) v' o.trig.epoch w ch
    have hsent : d0.SeamKept d := by
      rw [hd]
      exact .of_stitch rfl rfl ((Dev.KeepsKeys.refl d0 _).of_regs rfl)
    exact (hsnap.trans hsent).trans (hd2 ▸ hseam)
  · exact (congrArg (webCells v') (hview.segFor hstitch hdeg w)).trans (hview.webCells _)

theorem webLineRelease_waits {x : DM} {o : OpenWeb} {rest : List OpenWeb} (hw : x.1.stitch.waiting = o :: rest) (hf : o.forced = false)
    (hports : outstanding x.1 (x.1.cfg o.trig.epoch) o.trig.wln ≠ [])
    (hline : ∀ m, x.1.gen.maxWln = some m → m < o.trig.wln + x.1.cfg o.trig.epoch STITCH.CTL.DEADLINE_LINES) : webLineRelease x = x := by
  have hpassed : (x.1.gen.maxWln.elim false fun m => decide (o.trig.wln + x.1.cfg o.trig.epoch STITCH.CTL.DEADLINE_LINES ≤ m)) = false := by
    cases hm : x.1.gen.maxWln with
    | none => rfl
    | some m => simpa using hline m hm
  have hopen : (outstanding x.1 (x.1.cfg o.trig.epoch) o.trig.wln).isEmpty = false := by simpa using hports
  unfold webLineRelease
  rw [hw]
  exact if_neg (by simp only [hpassed, hopen, hf, Bool.false_and, Bool.or_self, Bool.false_eq_true, not_false_eq_true])

theorem webLineRelease_complete {x : DM} {o : OpenWeb} {rest : List OpenWeb} (hw : x.1.stitch.waiting = o :: rest)
    (hports : outstanding x.1 (x.1.cfg o.trig.epoch) o.trig.wln = []) (hstrips : stripsDue x.1 (x.1.cfg o.trig.epoch) o.trig.wln = []) :
    webLineRelease x = releaseWeb x o := by
  unfold webLineRelease
  rw [hw]
  exact if_pos (by simp only [hports, hstrips, List.isEmpty_nil, Bool.and_self, Bool.true_or])

/-- A complete line leaves the waiting ones with a cell for each column, counted, and once more where the line before it has not left. -/
theorem webLineRelease_releases {x : DM} {o : OpenWeb} {rest : List OpenWeb} {v : View} (hw : x.1.stitch.waiting = o :: rest)
    (hv : v = x.1.cfg o.trig.epoch) (hports : outstanding x.1 v o.trig.wln = []) (hstrips : stripsDue x.1 v o.trig.wln = [])
    (hn : colCount v ≠ 0) :
    (webLineRelease x).1.stitch.waiting = rest ∧ (webLineRelease x).1.stitch.lastRel = some o.trig.wln ∧
    x.1.Counted (webLineRelease x).1 STITCH.LINES_OUT.CNT ∧
    (x.1.stitch.out ≠ [] ∨ x.1.now < x.1.stitch.busyUntil → x.1.Counted (webLineRelease x).1 STITCH.OVERLOAD_CNT.CNT) ∧
    ∃ g, (webLineRelease x).1.stitch.out = x.1.stitch.out ++ [g] ∧ g.wln = o.trig.wln ∧ g.epoch = o.trig.epoch ∧
      g.colFirst = colFirst v ∧ bitOf g.flags WF.late = false ∧ g.cells = webCells v (segFor x.1 v o.trig.wln) := by
  obtain ⟨e, v', g, hput, hkept, hcount, hwln, hepoch, hfirst, hlate, hcells⟩ := releaseWeb_complete hv hports hstrips
  obtain ⟨hwait, hrel, hout, hlines, hover⟩ := putOut_spec e (hcount.trans_ne hn) g
  rw [webLineRelease_complete hw (hv ▸ hports) (hv ▸ hstrips), hput]
  refine ⟨?_, ?_, ?_, fun hbusy => ?_, g, ?_, hwln, hepoch, hfirst, hlate, hcells⟩
  · rw [hwait, hkept.stitch, hw]
    rfl
  · rw [hrel, hwln]
  · rw [Dev.Counted, ← hkept.regs _ not_besideCounts_linesOut]
    exact hlines
  · rw [Dev.Counted, ← hkept.regs _ not_besideCounts_overload]
    refine hover ?_
    rw [hkept.stitch, Dev.now, hkept.time]
    exact hbusy
  · rw [hout, hkept.stitch]

/-! ## The statement -/

/-- Settles O25: segments and strips taken or discarded, the deadline, the release and the emission of a web line, and calibration. -/
theorem webLinesAreStitched : Obligations.WebLinesAreStitched := by
  refine ⟨?_, ?_, fun s upper w cols hup hr => gives_of_onDev rfl hup (strip_added hr upper cols),
    fun s upper w cols hup hr => gives_of_onDev rfl hup (strip_released hr upper cols), fun s w hup => gives_of_onDev rfl hup ?_,
    fun s o rest hup hw hf hports hline => ?_, fun s o rest v hup hw hv hports hstrips hn => completes_of_onBoth rfl hup ?_,
    fun s g rest hup ho hb => gives_of_onDev rfl hup ?_, fun s g rest hup _ hb => gives_of_onDev rfl hup (stitchEmit_waits hb),
    fun s hup hb => gives_of_onDev rfl hup (calGo_busy hb), fun s hup hb hm hp => gives_of_onDev rfl hup (calGo_measures hb hm hp)⟩
  · intro s l p w x hup hx hcal _ hen hdeep hr
    obtain ⟨hfree, hcnt, hkeep, -, -⟩ := slotFreed_spec s.dev l p w
    obtain ⟨hmem, hregs, hpipes, hsegs⟩ := segmentAccept_takes hx hcal hen hdeep hr s.mem
    obtain ⟨-, hport, hwln⟩ := segmentAccept_done hx s.mem
    refine gives_of_onBoth rfl hup hmem ⟨?_, ⟨_, hsegs, hport, hwln, rfl, rfl, ?_⟩, ?_, ?_⟩
    · rw [hpipes]
      exact hfree
    · rw [segOf, show (slotOut l x).port = p.val from hport]
      rfl
    · rw [Dev.Counted, hregs _ (by simp)]
      exact hcnt
    · exact hkeep.trans (hregs.subset (List.nil_subset _))
  · intro s l p w x hup hx hcal hr
    obtain ⟨hfree, hcnt, hkeep, hstitch, hout⟩ := slotFreed_spec s.dev l p w
    have heq := segmentAccept_discards hx hcal hr s.mem
    refine gives_of_onBoth rfl hup (congrArg Prod.snd heq) ?_
    rw [heq]
    exact ⟨hfree, hstitch, hout, hcnt, hkeep⟩
  · obtain ⟨hforced, htrigs⟩ := deadlineUs_forces s.dev w
    exact ⟨hforced, htrigs, rfl⟩
  · have heq := webLineRelease_waits (x := (s.dev, s.mem)) hw hf hports hline
    exact gives_of_onBoth rfl hup (congrArg Prod.snd heq) (congrArg Prod.fst heq)
  · obtain ⟨hwait, hrel, hlines, hover, g, hout, hwln, hepoch, hfirst, hlate, hcells⟩ :=
      webLineRelease_releases (x := (s.dev, s.mem)) hw hv hports hstrips hn
    refine ⟨hwait, hrel, hlines, hover, g, hout, hwln, hepoch, hfirst, hlate, ?_, fun k hk => ?_⟩
    · rw [hcells]
      exact webCells_length _ _
    · rw [hcells]
      exact webCells_at hk _
  · rw [stitchEmit_emits ho hb]
    exact ⟨⟨fillLine s.dev g, by simp [fillLine], rfl, fun k c hk => fillLine_cells s.dev g hk, rfl, rfl⟩, rfl, rfl, rfl⟩

end Sys2Proof.Machine
end

section
/-! SUPPORT. Pixel correction: block records (R127), learned flicker gains (R123), mains crossings (R122), settings requests (R128) and
table writes (R119, R121). -/

namespace Sys2Proof.Machine

/-! ## A port's own correction record -/

theorem Dev.updCorr_corr_same (d : Dev) (p : Fin 16) (g : Corr → Corr) : (d.updCorr p g).corr[p] = g d.corr[p] := by
  simp [Dev.updCorr]

theorem Dev.updCorr_corr_other (d : Dev) {p q : Fin 16} (h : q ≠ p) (g : Corr → Corr) : (d.updCorr p g).corr[q] = d.corr[q] := by
  have hq : p.val ≠ q.val := fun hv => h (Fin.ext hv.symm)
  simp [Dev.updCorr, hq]

/-- A pair of a whole word and a higher half reads as last written, at their joint width. -/
theorem Dev.rd2_wr2_word (d : Dev) {lo hi : Fld} (hk : lo.key ≠ hi.key) (hlo : lo.width = 32) (v : Nat) :
    (d.wr2 lo hi v).rd2 lo hi = v % 2 ^ (32 + hi.width) := by
  rw [Dev.rd2_wr2 d hk, hlo, Nat.pow_add, Nat.mod_mul]

/-! ## Block records -/

/-- A block's record sent and counted, and the block off its queue. -/
def blockSent (d : Dev) (p : Fin 16) (rest : List BlockAcc) (bytes : List Byte) : Dev :=
  (((d.updCorr p fun c => { c with closed := rest }).emit (.record 0x53 bytes)).inc (STAT.REC_CNT.CNT (statPage p) (statBank p))).irq
    (Page.STAT (statPage p)) (4 * statBank p)

theorem statRecord_sends {d : Dev} {p : Fin 16} {b : BlockAcc} {rest : List BlockAcc} (hc : d.corr[p].closed = b :: rest)
    (hen : d.cfg b.epoch (STAT.CORR_CTL.STAT_EN (statPage p) (statBank p)) ≠ 0) (m : Memory) :
    statRecord p (d, m) = (blockSent d p rest ((recordWords d p b).flatMap (leBytes 4)),
      m.store (0x01000000 + 0x80000 * p.val + 0x30000) ((recordWords d p b).flatMap (leBytes 4))) := by
  simp [statRecord, blockSent, hc, hen, -Fin.getElem_fin]

theorem blockSent_spec (d : Dev) (p : Fin 16) (rest : List BlockAcc) (bytes : List Byte) :
    (blockSent d p rest bytes).out = .record 0x53 bytes :: d.out ∧ (blockSent d p rest bytes).corr[p].closed = rest ∧
    d.Counted (blockSent d p rest bytes) (STAT.REC_CNT.CNT (statPage p) (statBank p)) ∧
    d.KeepsPages (blockSent d p rest bytes) [Page.STAT (statPage p)] := by
  refine ⟨?_, ?_, ?_, ?_⟩
  · simp [blockSent]
  · rw [blockSent, Dev.irq_corr, Dev.inc_corr, Dev.emit_corr, Dev.updCorr_corr_same]
  · rw [Dev.Counted, blockSent, Dev.rd_irq_other _ _ _ _ (by clear * -; decide +revert) (by clear * -; decide +revert)]
    exact Dev.rd_inc_same _ _
  · have hsent : d.KeepsKeys ((d.updCorr p fun c => { c with closed := rest }).emit (.record 0x53 bytes))
        (· / 131072 ∈ [Page.STAT (statPage p)]) := .of_regs (.refl d _) rfl
    exact (hsent.inc (by clear * -; decide +revert)).irq (by clear * -; decide +revert) (by clear * -; decide +revert) _

/-! ## Learned flicker gains -/

theorem flickerUpdate_skips {d : Dev} {p : Fin 16} {b : BlockAcc} {rest : List BlockAcc} (hw : d.corr[p].flkWait = b :: rest)
    (hmode : d.cfg b.epoch (STAT.FLK_CTL.MODE (statPage p) (statBank p)) = 0 ∨
      d.cfg b.epoch (STAT.FLK_CTL.MODE (statPage p) (statBank p)) = 3) :
    flickerUpdate p d = d.updCorr p fun c => { c with flkWait := rest } := by
  simp [flickerUpdate, hw, hmode, -Fin.getElem_fin]

/-- In a learning mode a set of gains, as long as the list of bins and of the gains before, joins the three newest. -/
theorem flickerUpdate_learns {d : Dev} {p : Fin 16} {b : BlockAcc} {rest : List BlockAcc} (hw : d.corr[p].flkWait = b :: rest)
    (h0 : d.cfg b.epoch (STAT.FLK_CTL.MODE (statPage p) (statBank p)) ≠ 0)
    (h3 : d.cfg b.epoch (STAT.FLK_CTL.MODE (statPage p) (statBank p)) ≠ 3) :
    ∃ h : List Nat, h.length = min (learnedGains d p).length b.bins.length ∧
      flickerUpdate p d = (d.updCorr p fun c => { c with flkWait := rest }).updCorr p fun c =>
        { c with hSets := ⟨b.first + b.lines, blockAfter d (b.first + b.lines) (d.cfg b.epoch WEB.BLOCK_LEN.VAL), h⟩ :: c.hSets.take 3 } := by
  have hlearns : ¬ ((d.cfg b.epoch (STAT.FLK_CTL.MODE (statPage p) (statBank p)) == 0 ||
      d.cfg b.epoch (STAT.FLK_CTL.MODE (statPage p) (statBank p)) == 3) = true) := by simp [h0, h3]
  unfold flickerUpdate
  simp only [hw, if_neg hlearns]
  exact ⟨_, by rw [List.length_map, List.length_zip], rfl⟩

/-! ## Mains crossings -/

/-- Before nine crossings there are no eight intervals, so there is no period (R122). -/
theorem mainsPhase_few {d : Dev} (h : d.zeroX.length < 9) (t : Nat) : mainsPhase d t = none := by
  unfold mainsPhase
  split
  · rfl
  · exact if_neg fun hall => absurd hall.1 (Nat.not_le.2 h)

theorem mainsZeroCrossing_few {d : Dev} (h : d.zeroX.length < 8) (delay : Nat) :
    mainsZeroCrossing delay d = ({ d with zeroX := (d.now - delay) / 16 :: d.zeroX }.wr2 PWR.ZC_T_LO.T PWR.ZC_T_HI.T
      ((d.now - delay) / 16)).wr PWR.MAINS_PERIOD.NS 0 := by
  have htake : ((d.now - delay) / 16 :: d.zeroX).take 9 = (d.now - delay) / 16 :: d.zeroX :=
    List.take_of_length_le (by rw [List.length_cons]; omega)
  unfold mainsZeroCrossing
  extract_lets z d1 d2
  have hd1 : d1 = { d with zeroX := z :: d.zeroX } := by simp only [d1, z, htake]
  have hnone : mainsPhase d2 d.now = none := mainsPhase_few (by simp only [d2, hd1, Dev.wr2_zeroX, List.length_cons]; omega) _
  rw [hnone]
  simp only [d2, hd1, z]

theorem mainsZeroCrossing_stamps {d : Dev} (h : d.zeroX.length < 8) (delay : Nat) :
    (mainsZeroCrossing delay d).zeroX = (d.now - delay) / 16 :: d.zeroX ∧
    (mainsZeroCrossing delay d).rd2 PWR.ZC_T_LO.T PWR.ZC_T_HI.T = (d.now - delay) / 16 % 2 ^ 64 ∧
    (mainsZeroCrossing delay d).rd PWR.MAINS_PERIOD.NS = 0 ∧
    d.KeepsRegs (mainsZeroCrossing delay d) [PWR.ZC_T_LO.T, PWR.ZC_T_HI.T, PWR.MAINS_PERIOD.NS] := by
  rw [mainsZeroCrossing_few h]
  refine ⟨rfl, ?_, Dev.rd_wr_same _ _ _, ?_⟩
  · rw [Dev.rd2, Dev.rd_wr_other _ _ _ _ (by decide), Dev.rd_wr_other _ _ _ _ (by decide)]
    exact Dev.rd2_wr2_word _ (by decide) rfl _
  · exact (((Dev.KeepsKeys.refl d _).of_regs (e' := { d with zeroX := (d.now - delay) / 16 :: d.zeroX }) rfl).wr2 (lo := PWR.ZC_T_LO.T)
      (hi := PWR.ZC_T_HI.T) (by simp) (by simp) _).wr (f := PWR.MAINS_PERIOD.NS) (by simp) 0

/-! ## Settings requests -/

theorem setReqGo_busy {d : Dev} {p : Fin 16} (hb : d.on (STAT.SET_STAT.BUSY (statPage p) (statBank p)) = true) (m : Memory) :
    setReqGo p (d, m) = (d, m) := by
  simp [setReqGo, hb]

/-- Sound memory is read as it stands, and reading it leaves no trace (R276, R286). -/
theorem readRange_sound {x : DM} (hchecks : x.2.checks = []) (hgone : x.1.integ.gone = []) (a n : Nat) (r : Reader) :
    readRange x a n r = (x.2, x) := by
  simp [readRange, goneIn, hchecks, hgone]

/-- The entries of a settings request as the port's window holds them (R128). -/
def setEntries (m : Memory) (p : Fin 16) (n : Nat) : List (Nat × Nat) :=
  (List.range n).map fun k => (m.u16 (0x01000000 + 0x80000 * p.val + 0x34000 + 8 * k), m.u32 (0x01000000 + 0x80000 * p.val + 0x34000 + 8 * k + 4))

/-- A settings request for line `r.w` taken: BUSY, its line shown, its set among the known ones, and the request with its port. -/
def setTaken (d : Dev) (p : Fin 16) (r : SetReq) : Dev :=
  (((d.wr (STAT.SET_STAT.BUSY (statPage p) (statBank p)) 1).wr2 (STAT.SET_W_LO.W (statPage p) (statBank p))
    (STAT.SET_W_HI.W (statPage p) (statBank p)) r.w).updCorr p fun c =>
      { c with known := (if 4 ≤ c.known.length then c.known.drop 1 else c.known) ++
          [⟨r.id, d.rd (STAT.SET_REQ.EXPC (statPage p) (statBank p)), r.w, none⟩] }).updPort p fun q => { q with set := some r }

/-- The line of a settings request: the first of its block (R128). -/
def setLine (d : Dev) (p : Fin 16) : Nat :=
  d.rd2 WEB.BLOCK_ORIGIN_LO.BLOCK_ORIGIN WEB.BLOCK_ORIGIN_HI.BLOCK_ORIGIN +
    d.rd (STAT.SET_BLOCK.BLOCK (statPage p) (statBank p)) * d.rd WEB.BLOCK_LEN.VAL

/-- How many lines before its own a settings request has to be made (R128). -/
def setLead (d : Dev) (p : Fin 16) : Nat :=
  d.rd (PORT.CAM_CAP1.SET_DELAY p) + (if d.rd (PORT.LINK_STAT.VER p) = 1 then 0 else d.rd (PORT.SET_LEAD.LEAD p))

/-- A line that lies ahead of every line issued has not been reached. -/
theorem not_reached_of_ahead {o : Option Nat} {v : Nat} (h : (o.elim true fun x => decide (x < v)) = true) :
    (o.elim false fun x => decide (v ≤ x)) = false := by
  cases o with
  | none => rfl
  | some x => exact decide_eq_false (Nat.not_le.2 (of_decide_eq_true h))

theorem setReqGo_takes {d : Dev} {m : Memory} {p : Fin 16} (hb : d.on (STAT.SET_STAT.BUSY (statPage p) (statBank p)) = false)
    (hid : d.rd (STAT.SET_ID.ID (statPage p) (statBank p)) ≠ 0xFFFF)
    (hknown : ∀ k ∈ d.corr[p].known, k.id ≠ d.rd (STAT.SET_ID.ID (statPage p) (statBank p)))
    (h1 : 1 ≤ d.rd (STAT.SET_REQ.N (statPage p) (statBank p))) (h32 : d.rd (STAT.SET_REQ.N (statPage p) (statBank p)) ≤ 32)
    (hlead : setLead d p ≤ setLine d p) (htime : (d.gen.maxWln.elim true fun v => decide (v < setLine d p - setLead d p)) = true)
    (hchecks : m.checks = []) (hgone : d.integ.gone = []) :
    setReqGo p (d, m) = (setTaken d p ⟨d.rd (STAT.SET_ID.ID (statPage p) (statBank p)), setLine d p, setLine d p - setLead d p,
      setEntries m p (d.rd (STAT.SET_REQ.N (statPage p) (statBank p))), false, [], []⟩, m) := by
  have hgood : ¬ ((d.rd (STAT.SET_ID.ID (statPage p) (statBank p)) == 0xFFFF ||
      (d.corr[p].known.any fun k => k.id == d.rd (STAT.SET_ID.ID (statPage p) (statBank p))) ||
      d.rd (STAT.SET_REQ.N (statPage p) (statBank p)) == 0 || decide (32 < d.rd (STAT.SET_REQ.N (statPage p) (statBank p)))) = true) := by
    have hnone : (d.corr[p].known.any fun k => k.id == d.rd (STAT.SET_ID.ID (statPage p) (statBank p))) = false := by
      simpa only [List.any_eq_false, beq_iff_eq] using hknown
    rw [hnone]
    simp [hid, Nat.ne_of_gt h1, h32]
  have hintime : ¬ ((decide (setLine d p < setLead d p) ||
      d.gen.maxWln.elim false fun v => decide (setLine d p - setLead d p ≤ v)) = true) := by
    rw [not_reached_of_ahead htime, decide_eq_false (Nat.not_lt.2 hlead)]
    decide
  unfold setReqGo
  simp only [hb, Bool.false_eq_true, if_false, if_neg hgood]
  rw [readRange_sound hchecks hgone]
  simp only [beq_iff_eq]
  exact if_neg hintime

theorem setTaken_spec (d : Dev) (p : Fin 16) (r : SetReq) :
    (setTaken d p r).rd (STAT.SET_STAT.BUSY (statPage p) (statBank p)) = 1 ∧
    (setTaken d p r).rd2 (STAT.SET_W_LO.W (statPage p) (statBank p)) (STAT.SET_W_HI.W (statPage p) (statBank p)) = r.w % 2 ^ 48 ∧
    (setTaken d p r).ports[p].set = some r ∧
    d.KeepsRegs (setTaken d p r) [STAT.SET_STAT.BUSY (statPage p) (statBank p), STAT.SET_W_LO.W (statPage p) (statBank p),
      STAT.SET_W_HI.W (statPage p) (statBank p)] := by
  refine ⟨?_, ?_, ?_, ?_⟩
  · simp (disch := clear * -; decide +revert) only [setTaken, Dev.rd_updPort, Dev.rd_updCorr, Dev.wr2, Dev.rd_wr_other, Dev.rd_wr_fits]
  · exact Dev.rd2_wr2_word _ (by clear * -; decide +revert) rfl _
  · rw [setTaken, Dev.updPort_ports_same]
  · exact Dev.KeepsKeys.of_regs (((Dev.KeepsKeys.refl d _).wr (by simp) 1).wr2 (by simp) (by simp) r.w) rfl

/-! ## Table writes -/

theorem bankBase_zero (p : Nat) : bankBase p 0 = 0x01000000 + 0x80000 * p := rfl

theorem bankBase_one (p : Nat) : bankBase p 1 = 0x01000000 + 0x80000 * p + 0x40000 := rfl

/-- A whole word of a bank lies at its own address. -/
theorem bankBase_add_word (p k i : Nat) : (bankBase p k + 4 * i) / 4 * 4 = bankBase p k + 4 * i := by
  unfold bankBase
  omega

/-- An address in bank `k` of port `p`: its port, and its offset in the port's region. -/
theorem bankBase_add_split {p : Fin 16} {k o : Nat} (hk : k < 2) (ho : o < 0x40000) :
    (bankBase p k + o - 0x01000000) / 0x80000 = p.val ∧ (bankBase p k + o - 0x01000000) % 0x80000 = 0x40000 * k + o := by
  unfold bankBase
  omega

/-- A word of the slices of bank `k`: refused with WR_LIVE on the live bank and on a busy one, else stored (R119, R121). -/
theorem corrTableWrite_slices {d : Dev} {p : Fin 16} {k o : Nat} (hk : k < 2) (ho : o < 0x24000) (w : Word32) (m : Memory) :
    corrTableWrite (bankBase p k + o) w (d, m) =
      if k == d.rd (STAT.CORR_CTL.BANK (statPage p) (statBank p)) || d.on (STAT.TBL_STAT.BANK_BUSY (statPage p) (statBank p)) then
        (d.wr (STAT.TBL_STAT.WR_LIVE (statPage p) (statBank p)) 1, m)
      else (d, m.put32 ((bankBase p k + o) / 4 * 4) w.toNat) := by
  obtain ⟨hport, hoff⟩ := bankBase_add_split (p := p) hk (show o < 0x40000 by omega)
  have hin : ¬ (bankBase p k + o < 0x01000000 ∨ 16 ≤ p.val) := by
    have := p.isLt
    unfold bankBase
    omega
  obtain ⟨hbank, hslice⟩ : (0x40000 * k + o) / 0x40000 = k ∧ (0x40000 * k + o) % 0x40000 = o := by omega
  unfold corrTableWrite
  simp only [hport, hoff, if_neg hin, hbank, hslice, decide_eq_true ho, Bool.true_or, if_true]
  rfl

/-! ## The statement -/

/-- Settles O21: records, learned gains, crossings, settings requests and table writes, each in the forms named. -/
theorem statisticsAndTables : Obligations.StatisticsAndTables := by
  refine ⟨fun s p b rest hup hc hen => completes_of_onBoth rfl hup ?_, fun s p b rest hup hw hmode => gives_of_onDev rfl hup ?_,
    fun s p b rest hup hw h0 h3 hgains hbins => gives_of_onDev rfl hup ?_,
    fun s delay hup h => gives_of_onDev rfl hup (mainsZeroCrossing_stamps h delay),
    fun s p hup hb => gives_of_onBoth rfl hup (congrArg Prod.snd (setReqGo_busy hb s.mem)) (congrArg Prod.fst (setReqGo_busy hb s.mem)),
    ?_, fun s p o w hup ho hbank hbusy => completes_of_onBoth rfl hup ?_, fun s p o w hup ho hbank => ?_⟩
  · rw [statRecord_sends hc hen]
    obtain ⟨hout, hclosed, hcnt, hkeep⟩ := blockSent_spec s.dev p rest ((recordWords s.dev p b).flatMap (leBytes 4))
    exact ⟨Memory.stored_store _ _ _, hout, hclosed, hcnt, hkeep⟩
  · rw [flickerUpdate_skips hw hmode, Dev.updCorr_corr_same]
    exact ⟨rfl, rfl, rfl⟩
  · obtain ⟨h, hlen, heq⟩ := flickerUpdate_learns hw h0 h3
    rw [heq, Dev.updCorr_corr_same, Dev.updCorr_corr_same]
    refine ⟨⟨_, ?_, rfl, rfl, rfl⟩, rfl, fun q hq => ?_, rfl⟩
    · rw [hlen, hgains, hbins, Nat.min_self]
    · rw [Dev.updCorr_corr_other _ hq, Dev.updCorr_corr_other _ hq]
  · rintro s p w lead hup hb hid hknown h1 h32 rfl rfl hlead htime ⟨hchecks, hgone⟩
    have heq := setReqGo_takes hb hid hknown h1 h32 hlead htime hchecks hgone
    refine gives_of_onBoth rfl hup (congrArg Prod.snd heq) ?_
    rw [heq]
    obtain ⟨hbusy, hline, hset, hkeep⟩ := setTaken_spec s.dev p _
    exact ⟨hbusy, hline, ⟨_, hset, rfl, rfl, rfl, rfl, by simp [setEntries]⟩, hkeep⟩
  · rw [← bankBase_one, corrTableWrite_slices (by decide) (by omega), if_neg (by simp [hbank, hbusy]), bankBase_add_word]
    exact ⟨Memory.stored_store _ _ _, rfl⟩
  · have hlive : corrTableWrite (0x01000000 + 0x80000 * p.val + o) w (s.dev, s.mem) =
        (s.dev.wr (STAT.TBL_STAT.WR_LIVE (statPage p) (statBank p)) 1, s.mem) := by
      rw [← bankBase_zero, corrTableWrite_slices (by decide) ho, if_pos (by simp [hbank])]
    refine gives_of_onBoth rfl hup (congrArg Prod.snd hlive) ?_
    rw [hlive]
    exact ⟨Dev.rd_wr_fits _ (by clear * -; decide +revert), rfl, (Dev.KeepsKeys.refl s.dev _).wr (by simp) 1⟩

end Sys2Proof.Machine
end

section
/-! SUPPORT. Thermal heads (R135, R136, R146): a head's own record, and what a step at one head leaves as it was. -/

namespace Sys2Proof.Machine

/-! ## Reading through an operation -/

@[simp] theorem Dev.rd_updHead (d : Dev) (n : Fin 2) (g : Head → Head) (f : Fld) : (d.updHead n g).rd f = d.rd f := rfl

theorem Dev.KeepsKeys.isStandby {d e : Dev} {S : Nat → Prop} (h : d.KeepsKeys e S) (hS : ¬ S TWIN.STATUS.STATE.key) :
    e.isStandby = d.isStandby := by
  simp only [Dev.isStandby, Dev.isActive, h _ hS]

/-- A head's settings are those of its frame's set alone. -/
theorem headCfg_of_set {d e : Dev} {n : Fin 2} (h : e.heads[n].set = d.heads[n].set) : headCfg e n = headCfg d n := by
  funext f
  rw [headCfg, headCfg, h]

/-! ## The frame of a head -/

/-- From `d` to `e` only the record of head `n`, the valve channels, what the module has sent, and registers whose keys lie in `S`
changed. -/
structure Dev.HeadKept (d e : Dev) (n : Fin 2) (S : Nat → Prop) : Prop where
  rest : e = { d with regs := e.regs, heads := e.heads, valves := e.valves, out := e.out }
  others : ∀ k : Fin 2, k ≠ n → e.heads[k] = d.heads[k]
  regs : d.KeepsKeys e S

theorem Dev.onlyHead_iff {d e : Dev} {n : Fin 2} {fs : List Fld} : d.OnlyHead e n fs ↔ d.HeadKept e n (· ∈ fs.map Fld.key) :=
  ⟨fun ⟨hrest, hothers, hregs⟩ => ⟨hrest, hothers, hregs⟩, fun ⟨hrest, hothers, hregs⟩ => ⟨hrest, hothers, hregs⟩⟩

namespace Dev.HeadKept
variable {d e : Dev} {n : Fin 2} {S T : Nat → Prop}

theorem refl (d : Dev) (n : Fin 2) (S : Nat → Prop) : d.HeadKept d n S := ⟨rfl, fun _ _ => rfl, .refl _ _⟩

theorem trans {e' : Dev} (h : d.HeadKept e n S) (h' : e.HeadKept e' n S) : d.HeadKept e' n S :=
  ⟨by rw [h'.rest, h.rest], fun k hk => (h'.others k hk).trans (h.others k hk), h.regs.trans h'.regs⟩

theorem mono (h : d.HeadKept e n S) (hST : ∀ k, S k → T k) : d.HeadKept e n T := ⟨h.rest, h.others, h.regs.mono hST⟩

/-- A wider list of fields. -/
theorem subset {fs gs : List Fld} (h : d.HeadKept e n (· ∈ fs.map Fld.key)) (hs : fs ⊆ gs) : d.HeadKept e n (· ∈ gs.map Fld.key) :=
  h.mono fun _ hk => List.map_subset _ hs hk

/-- A change of registers alone. -/
theorem of_onlyKeys (h : d.OnlyKeys e S) : d.HeadKept e n S := by
  obtain ⟨hrest, hregs⟩ := h
  exact ⟨by rw [hrest], fun k _ => by rw [hrest], hregs⟩

theorem wr (h : d.HeadKept e n S) {f : Fld} (hf : S f.key) (v : Nat) : d.HeadKept (e.wr f v) n S :=
  h.trans (of_onlyKeys ((OnlyKeys.refl e S).wr hf v))

theorem inc (h : d.HeadKept e n S) {f : Fld} (hf : S f.key) : d.HeadKept (e.inc f) n S := h.wr hf _

theorem irq (h : d.HeadKept e n S) {p : Nat} (h1 : S (Com.IRQ_RAW p).key) (h2 : S (Com.ERR_CNT p).key) (b : Nat) :
    d.HeadKept (e.irq p b) n S :=
  h.trans (of_onlyKeys ((OnlyKeys.refl e S).irq h1 h2 b))

theorem updHead (h : d.HeadKept e n S) (g : Head → Head) : d.HeadKept (e.updHead n g) n S :=
  h.trans ⟨rfl, fun _ hk => updHead_heads_other e hk g, (KeepsKeys.refl e S).of_regs rfl⟩

theorem emit (h : d.HeadKept e n S) (o : Out) : d.HeadKept (e.emit o) n S :=
  h.trans ⟨rfl, fun _ _ => rfl, (KeepsKeys.refl e S).of_regs rfl⟩

theorem shutterRelease (h : d.HeadKept e n S) (ch : Fin 16) : d.HeadKept (shutterRelease e ch) n S :=
  h.trans ⟨rfl, fun _ _ => rfl, (KeepsKeys.refl e S).of_regs rfl⟩

theorem ite (c : Prop) [Decidable c] {e' : Dev} (h : d.HeadKept e n S) (h' : d.HeadKept e' n S) : d.HeadKept (if c then e else e') n S := by
  split
  · exact h
  · exact h'

theorem toStandby (h : d.HeadKept e n S) (k : MsgKind) (args : List Int) : d.HeadKept (e.toStandby k args) n S := .ite _ (h.emit _) h

/-- The place in the pair is shown by no register of a head. -/
theorem isStandby {fs : List Fld} (h : d.HeadKept e n (· ∈ fs.map Fld.key)) (hfs : TWIN.STATUS.STATE.key ∉ fs.map Fld.key) :
    e.isStandby = d.isStandby :=
  h.regs.isStandby hfs

theorem onlyHead {fs gs : List Fld} (h : d.HeadKept e n (· ∈ fs.map Fld.key)) (hs : fs ⊆ gs) : d.OnlyHead e n gs :=
  onlyHead_iff.2 (h.subset hs)

end Dev.HeadKept

/-! ## What the standby is told, and the shutter's valve -/

/-- Word to the standby is a message alone. -/
theorem captureTellMid_out (d : Dev) (n : Fin 2) : captureTellMid d n = { d with out := (captureTellMid d n).out } := by
  unfold captureTellMid captureTell
  split <;> rw [Dev.toStandby_eq]

theorem captureTellMid_head (d : Dev) (n : Fin 2) : (captureTellMid d n).heads[n] = d.heads[n] := by rw [captureTellMid_out]

@[simp] theorem captureTellMid_valves (d : Dev) (n : Fin 2) : (captureTellMid d n).valves = d.valves := by rw [captureTellMid_out]

@[simp] theorem rd_captureTellMid (d : Dev) (n : Fin 2) (f : Fld) : (captureTellMid d n).rd f = d.rd f := by rw [captureTellMid_out]; rfl

theorem Dev.HeadKept.captureTellMid {d e : Dev} {n : Fin 2} {S : Nat → Prop} (h : d.HeadKept e n S) :
    d.HeadKept (captureTellMid e n) n S := by
  unfold Machine.captureTellMid
  split
  · exact h.toStandby _ _
  · exact h.toStandby _ _

@[simp] theorem rd_shutterRelease (d : Dev) (ch : Fin 16) (f : Fld) : (shutterRelease d ch).rd f = d.rd f := rfl

/-! ## The bias -/

/-- The bias codes that wait at a head after one more: a standby queues none (R159). -/
theorem biasWrite_heads (d : Dev) (n : Fin 2) (code : Nat) : (biasWrite d n code).heads[n] =
    if d.isStandby then d.heads[n] else { d.heads[n] with biasQ := d.heads[n].biasQ ++ [(d.rd (THERM.BIAS.CS n), code)] } := by
  unfold biasWrite
  split
  · rfl
  · exact updHead_heads _ _ _

theorem biasWrite_biasQ {d : Dev} (h : d.isStandby = false) (n : Fin 2) (code : Nat) :
    (biasWrite d n code).heads[n].biasQ = d.heads[n].biasQ ++ [(d.rd (THERM.BIAS.CS n), code)] := by
  rw [biasWrite_heads, h]
  rfl

@[simp] theorem rd_biasWrite (d : Dev) (n : Fin 2) (code : Nat) (f : Fld) : (biasWrite d n code).rd f = d.rd f := by
  unfold biasWrite
  split <;> rfl

theorem Dev.HeadKept.biasWrite {d e : Dev} {n : Fin 2} {S : Nat → Prop} (h : d.HeadKept e n S) (code : Nat) :
    d.HeadKept (biasWrite e n code) n S := .ite _ h (h.updHead _)

/-! ## An abandoned capture -/

/-- A head's record with no capture requested or in progress. -/
def Head.captureNone (h : Head) : Head :=
  { h with req := none, retried := false, again := false, left := 0, done := false, sums := [], capN := 0, old := none }

/-- The shutter of a head shown open, its capture gone. -/
theorem abandonCapture_spec (d : Dev) (n : Fin 2) :
    (abandonCapture d n).heads[n] = d.heads[n].captureNone ∧ shState (abandonCapture d n) n = 0 ∧
    d.HeadKept (abandonCapture d n) n (· ∈ [THERM.SH_STAT.STATE n].map Fld.key) := by
  unfold abandonCapture
  extract_lets st d1 d2
  have h1 : d.HeadKept d1 n (· ∈ [THERM.SH_STAT.STATE n].map Fld.key) := .ite _ (.shutterRelease (.refl d n _) _) (.refl d n _)
  have hheads : d1.heads = d.heads := by
    unfold d1
    split <;> rfl
  have h2 : d.HeadKept d2 n (· ∈ [THERM.SH_STAT.STATE n].map Fld.key) := (h1.wr (by simp) _).updHead _
  have hhead : d2.heads[n] = d.heads[n].captureNone := by
    unfold d2
    rw [updHead_heads, Dev.wr_heads, hheads]
    rfl
  have hstate : shState d2 n = 0 := by
    rw [shState, Dev.rd_updHead]
    exact Dev.rd_wr_fits _ (by clear * -; decide +revert)
  split
  · exact ⟨hhead, hstate, h2⟩
  · exact ⟨(captureTellMid_head d2 n).trans hhead, (rd_captureTellMid d2 n _).trans hstate, h2.captureTellMid⟩

/-! ## Entry to BIAS and to FAULT -/

/-- The registers that entry to BIAS writes. -/
def biasFields (n : Fin 2) : List Fld := [THERM.STATUS.STATE n, THERM.TBL_STAT.BANK_BUSY n]

theorem enterBias_spec (d : Dev) (n : Fin 2) :
    headState (enterBias d n) n = 1 ∧ (enterBias d n).heads[n].t0 = d.now ∧ (enterBias d n).heads[n].cur = none ∧
    (enterBias d n).heads[n].settled = false ∧
    (d.isStandby = false →
      (enterBias d n).heads[n].biasQ = d.heads[n].biasQ ++ [(d.rd (THERM.BIAS.CS n), d.rd (THERM.BIAS.CODE n))]) ∧
    d.HeadKept (enterBias d n) n (· ∈ (biasFields n).map Fld.key) := by
  have hstate : d.HeadKept (d.wr (THERM.STATUS.STATE n) HS.bias) n (· ∈ (biasFields n).map Fld.key) :=
    (Dev.HeadKept.refl d n _).wr (by simp [biasFields]) _
  unfold enterBias chainEmpty
  rw [updHead_heads, Dev.wr_heads]
  refine ⟨?_, rfl, rfl, rfl, fun hactive => ?_, ((hstate.biasWrite _).wr (by simp [biasFields]) _).updHead _⟩
  · simp (disch := clear * -; decide +revert) only [headState, HS.bias, Dev.rd_updHead, rd_biasWrite, Dev.rd_wr_other, Dev.rd_wr_fits]
  · have hstandby := (hstate.isStandby (by clear * -; decide +revert)).trans hactive
    exact (biasWrite_biasQ hstandby n _).trans (by rw [Dev.wr_heads, Dev.rd_wr_other _ _ _ _ (by clear * -; decide +revert)])

/-- The registers that entry to FAULT writes. -/
def faultFields (n : Fin 2) : List Fld :=
  [THERM.STATUS.STATE n, THERM.STATUS.FAULT_CAUSE n, THERM.SH_STAT.STATE n, THERM.TBL_STAT.BANK_BUSY n, Com.IRQ_RAW (Page.THERM n),
    Com.ERR_CNT (Page.THERM n)]

theorem headFault_spec (d : Dev) (n : Fin 2) {cause : Nat} (hc : cause < 8) :
    headState (headFault d n cause) n = 4 ∧ (headFault d n cause).rd (THERM.STATUS.FAULT_CAUSE n) = cause ∧
    bitOf ((headFault d n cause).rd (Com.IRQ_RAW (Page.THERM n))) THERM.irq.FAULT = true ∧ (headFault d n cause).heads[n].cur = none ∧
    d.HeadKept (headFault d n cause) n (· ∈ (faultFields n).map Fld.key) := by
  obtain ⟨-, -, hkept⟩ := abandonCapture_spec d n
  have hw : cause < 2 ^ (THERM.STATUS.FAULT_CAUSE n).width := hc
  unfold headFault chainEmpty
  refine ⟨?_, ?_, ?_, by rw [updHead_heads], ?_⟩
  · simp (disch := clear * -; decide +revert) only [headState, HS.fault, Dev.rd_updHead, Dev.rd_wr_other, Dev.rd_irq_other, Dev.rd_wr_fits]
  · rw [Dev.rd_updHead, Dev.rd_wr_other _ _ _ _ (by clear * -; decide +revert),
      Dev.rd_irq_other _ _ _ _ (by clear * -; decide +revert) (by clear * -; decide +revert), Dev.rd_wr_fits _ hw]
  · rw [Dev.rd_updHead, Dev.rd_wr_other _ _ _ _ (by clear * -; decide +revert), Dev.bitOf_irq _ _ _ (by decide)]
    rfl
  · have hleft : d.HeadKept (abandonCapture d n) n (· ∈ (faultFields n).map Fld.key) := hkept.subset (by simp [faultFields])
    exact (((((hleft.biasWrite 0).wr (by simp [faultFields]) _).wr (by simp [faultFields]) _).irq (by simp [faultFields])
      (by simp [faultFields]) _).wr (by simp [faultFields]) _).updHead _

end Sys2Proof.Machine
end

section
/-! SUPPORT. Head states (R135, R136, R412): what each command that changes a head's state does. -/

namespace Sys2Proof.Machine

/-! ## HEAD_ENABLE and HEAD_DISABLE -/

theorem headEnable_starts {d : Dev} {n : Fin 2} (h0 : headState d n = 0) (hthere : headThere d n = true) :
    (headEnable n d).rd (THERM.CTL.EN n) = 1 ∧ headState (headEnable n d) n = 1 ∧ (headEnable n d).heads[n].t0 = d.now ∧
    (headEnable n d).heads[n].cur = none ∧ (headEnable n d).heads[n].settled = false ∧
    (d.isStandby = false →
      (headEnable n d).heads[n].biasQ = d.heads[n].biasQ ++ [(d.rd (THERM.BIAS.CS n), d.rd (THERM.BIAS.CODE n))]) ∧
    d.OnlyHead (headEnable n d) n [THERM.CTL.EN n, THERM.STATUS.STATE n, THERM.TBL_STAT.BANK_BUSY n] := by
  have heq : headEnable n d = enterBias (d.wr (THERM.CTL.EN n) 1) n := if_pos ⟨h0, hthere⟩
  obtain ⟨hstate, ht0, hcur, hsettled, hbias, hkept⟩ := enterBias_spec (d.wr (THERM.CTL.EN n) 1) n
  have hen : d.HeadKept (d.wr (THERM.CTL.EN n) 1) n (· ∈ [THERM.CTL.EN n].map Fld.key) := (Dev.HeadKept.refl d n _).wr (by simp) 1
  rw [heq]
  refine ⟨?_, hstate, ht0, hcur, hsettled, fun hactive => ?_, ?_⟩
  · rw [hkept.regs _ (by clear * -; decide +revert), Dev.rd_wr_fits _ (by clear * -; decide +revert)]
  · rw [hbias ((hen.isStandby (by clear * -; decide +revert)).trans hactive), Dev.wr_heads,
      hen.regs _ (by clear * -; decide +revert), hen.regs _ (by clear * -; decide +revert)]
  · exact ((hen.subset (by simp)).trans (hkept.subset (by simp [biasFields]))).onlyHead (List.Subset.refl _)

theorem headEnable_sets {d : Dev} {n : Fin 2} (h : headState d n ≠ 0) :
    (headEnable n d).rd (THERM.CTL.EN n) = 1 ∧ d.OnlyRegs (headEnable n d) [THERM.CTL.EN n] := by
  have heq : headEnable n d = d.wr (THERM.CTL.EN n) 1 := if_neg fun hc => h hc.1
  rw [heq]
  exact ⟨Dev.rd_wr_fits _ (by clear * -; decide +revert), (Dev.OnlyKeys.refl d _).wr (by simp) 1⟩

theorem headDisable_stops {d : Dev} {n : Fin 2} (h : headState d n ≠ 0) :
    (headDisable n d).rd (THERM.CTL.EN n) = 0 ∧ headState (headDisable n d) n = 0 ∧ shState (headDisable n d) n = 0 ∧
    (headDisable n d).heads[n].cur = none ∧ (headDisable n d).heads[n].req = none ∧ (headDisable n d).heads[n].capN = 0 ∧
    (d.isStandby = false → (headDisable n d).heads[n].biasQ = d.heads[n].biasQ ++ [(d.rd (THERM.BIAS.CS n), 0)]) ∧
    d.OnlyHead (headDisable n d) n [THERM.CTL.EN n, THERM.STATUS.STATE n, THERM.SH_STAT.STATE n, THERM.TBL_STAT.BANK_BUSY n] := by
  obtain ⟨hidle, hshut, hkept⟩ := abandonCapture_spec (d.wr (THERM.CTL.EN n) 0) n
  generalize ha : abandonCapture (d.wr (THERM.CTL.EN n) 0) n = a at hidle hshut hkept
  have hleft : d.HeadKept a n (· ∈ [THERM.CTL.EN n, THERM.SH_STAT.STATE n].map Fld.key) :=
    ((Dev.HeadKept.refl d n _).wr (by simp) 0).trans (hkept.subset (by simp))
  have hen : a.rd (THERM.CTL.EN n) = 0 := by
    rw [hkept.regs _ (by clear * -; decide +revert), Dev.rd_wr_fits _ (by clear * -; decide +revert)]
  have hhead : (biasWrite a n 0).heads[n].req = none ∧ (biasWrite a n 0).heads[n].capN = 0 := by
    rw [biasWrite_heads, hidle]
    split <;> exact ⟨rfl, rfl⟩
  have heq : headDisable n d = ((((shutterRelease (biasWrite a n 0) (Fin.ofNat 16 (d.rd (THERM.SH_CFG.VALVE n)))).wr
      (THERM.STATUS.STATE n) HS.off).wr (THERM.TBL_STAT.BANK_BUSY n) 0).updHead n fun h => { h with cur := none }) := by
    rw [← ha]
    exact if_neg h
  rw [heq, updHead_heads]
  refine ⟨?_, ?_, ?_, rfl, hhead.1, hhead.2, fun hactive => ?_, ?_⟩
  · simp (disch := clear * -; decide +revert) only [Dev.rd_updHead, Dev.rd_wr_other, rd_shutterRelease, rd_biasWrite, hen]
  · simp (disch := clear * -; decide +revert) only [headState, HS.off, Dev.rd_updHead, Dev.rd_wr_other, Dev.rd_wr_fits]
  · rw [shState] at hshut ⊢
    simp (disch := clear * -; decide +revert) only [Dev.rd_updHead, Dev.rd_wr_other, rd_shutterRelease, rd_biasWrite, hshut]
  · refine (biasWrite_biasQ ((hleft.isStandby (by clear * -; decide +revert)).trans hactive) n 0).trans ?_
    rw [hidle, hleft.regs _ (by clear * -; decide +revert)]
    rfl
  · exact ((((((hleft.subset (by simp)).biasWrite 0).shutterRelease _).wr (by simp) _).wr (by simp) _).updHead _).onlyHead
      (List.Subset.refl _)

theorem headDisable_clears {d : Dev} {n : Fin 2} (h0 : headState d n = 0) :
    (headDisable n d).rd (THERM.CTL.EN n) = 0 ∧ d.OnlyRegs (headDisable n d) [THERM.CTL.EN n] := by
  have heq : headDisable n d = d.wr (THERM.CTL.EN n) 0 := if_pos h0
  rw [heq]
  exact ⟨Dev.rd_wr_fits _ (by clear * -; decide +revert), (Dev.OnlyKeys.refl d _).wr (by simp) 0⟩

/-! ## HEAD_RESTART and the head-sense line -/

theorem headRestart_starts {d : Dev} {n : Fin 2} (h4 : headState d n = 4) (hthere : d.on (THERM.STATUS.HEAD_PRESENT n) = true) :
    headState (headRestart n d) n = 1 ∧ (headRestart n d).rd (THERM.STATUS.FAULT_CAUSE n) = 0 ∧ (headRestart n d).heads[n].t0 = d.now ∧
    n.val ∉ (headRestart n d).pw.tripped ∧
    d.KeepsRegs (headRestart n d) [THERM.STATUS.STATE n, THERM.STATUS.FAULT_CAUSE n, THERM.TBL_STAT.BANK_BUSY n] ∧
    ∀ k : Fin 2, k ≠ n → (headRestart n d).heads[k] = d.heads[k] := by
  generalize hd1 : ({ d with pw := { d.pw with tripped := d.pw.tripped.filter fun k => k != n.val } } : Dev).wr
    (THERM.STATUS.FAULT_CAUSE n) 0 = d1
  have heq : headRestart n d = enterBias d1 n := by
    rw [← hd1]
    exact if_pos ⟨h4, hthere⟩
  obtain ⟨hstate, ht0, -, -, -, hkept⟩ := enterBias_spec d1 n
  rw [heq]
  refine ⟨hstate, ?_, ?_, ?_, ?_, fun k hk => ?_⟩
  · rw [hkept.regs _ (by clear * -; decide +revert), ← hd1, Dev.rd_wr_fits _ (by clear * -; decide +revert)]
  · rw [ht0, ← hd1]
    rfl
  · rw [hkept.rest, ← hd1]
    simp
  · have hcleared : d.KeepsKeys d1 (· ∈ [THERM.STATUS.STATE n, THERM.STATUS.FAULT_CAUSE n, THERM.TBL_STAT.BANK_BUSY n].map Fld.key) := by
      rw [← hd1]
      exact ((Dev.KeepsKeys.refl d _).of_regs rfl).wr (by simp) 0
    exact hcleared.trans (hkept.subset (by simp [biasFields])).regs
  · rw [hkept.others k hk, ← hd1]
    rfl

theorem headPresentLost_faults {d : Dev} {n : Fin 2} (h0 : headState d n ≠ 0) (h4 : headState d n ≠ 4) :
    (headPresentLost n d).rd (THERM.STATUS.HEAD_PRESENT n) = 0 ∧ headState (headPresentLost n d) n = 4 ∧
    (headPresentLost n d).rd (THERM.STATUS.FAULT_CAUSE n) = 2 ∧
    bitOf ((headPresentLost n d).rd (Com.IRQ_RAW (Page.THERM n))) THERM.irq.FAULT = true ∧ (headPresentLost n d).heads[n].cur = none ∧
    d.OnlyHead (headPresentLost n d) n (THERM.STATUS.HEAD_PRESENT n :: faultFields n) := by
  have heq : headPresentLost n d = headFault (d.wr (THERM.STATUS.HEAD_PRESENT n) 0) n 2 := if_neg (not_or.2 ⟨h0, h4⟩)
  obtain ⟨hstate, hcause, hirq, hcur, hkept⟩ := headFault_spec (d.wr (THERM.STATUS.HEAD_PRESENT n) 0) n (cause := 2) (by decide)
  rw [heq]
  refine ⟨?_, hstate, hcause, hirq, hcur, ?_⟩
  · rw [hkept.regs _ (by clear * -; decide +revert), Dev.rd_wr_fits _ (by clear * -; decide +revert)]
  · exact (((Dev.HeadKept.refl d n _).wr (by simp) 0).trans (hkept.subset (List.subset_cons_self _ _))).onlyHead (List.Subset.refl _)

theorem headPresentGained_starts {d : Dev} {n : Fin 2} (h0 : headState d n = 0) (hen : d.on (THERM.CTL.EN n) = true)
    (hsupply : n.val ∉ d.pw.tripped) :
    (headPresentGained n d).rd (THERM.STATUS.HEAD_PRESENT n) = 1 ∧ headState (headPresentGained n d) n = 1 ∧
    (headPresentGained n d).heads[n].t0 = d.now ∧
    d.OnlyHead (headPresentGained n d) n [THERM.STATUS.HEAD_PRESENT n, THERM.STATUS.STATE n, THERM.TBL_STAT.BANK_BUSY n] := by
  have hpresent : (d.wr (THERM.STATUS.HEAD_PRESENT n) 1).rd (THERM.STATUS.HEAD_PRESENT n) = 1 :=
    Dev.rd_wr_fits _ (by clear * -; decide +revert)
  have hthere : headThere (d.wr (THERM.STATUS.HEAD_PRESENT n) 1) n = true := by
    simp [headThere, Dev.on, hpresent, hsupply]
  have heq : headPresentGained n d = enterBias (d.wr (THERM.STATUS.HEAD_PRESENT n) 1) n := if_pos ⟨h0, hen, hthere⟩
  obtain ⟨hstate, ht0, -, -, -, hkept⟩ := enterBias_spec (d.wr (THERM.STATUS.HEAD_PRESENT n) 1) n
  rw [heq]
  refine ⟨?_, hstate, ht0, ?_⟩
  · rw [hkept.regs _ (by clear * -; decide +revert), hpresent]
  · exact (((Dev.HeadKept.refl d n _).wr (by simp) 1).trans (hkept.subset (by simp [biasFields]))).onlyHead (List.Subset.refl _)

/-! ## BIAS_TRANSFER -/

/-- A bias code sent on its select and counted, and off its queue. -/
def biasSent (d : Dev) (n : Fin 2) (cs code : Nat) (rest : List (Nat × Nat)) : Dev :=
  ((d.spiSend cs 24 (0x300000 + code)).inc MGMT.MST_XFER_CNT.CNT).updHead n fun h => { h with biasQ := rest }

theorem biasSent_spec (d : Dev) (n : Fin 2) (cs code : Nat) (rest : List (Nat × Nat)) :
    (biasSent d n cs code rest).out = .spiOut cs 24 (0x300000 + code) (d.rd (MGMT.MST_SEL.MODE cs)) (max 3 (d.rd (MGMT.MST_SEL.DIV cs)))
      (d.rd (MGMT.MST_SEL.CSS cs)) (d.rd (MGMT.MST_SEL.CSH cs)) :: d.out ∧
    (biasSent d n cs code rest).heads[n].biasQ = rest ∧ d.Counted (biasSent d n cs code rest) MGMT.MST_XFER_CNT.CNT ∧
    d.KeepsRegs (biasSent d n cs code rest) [MGMT.MST_XFER_CNT.CNT] ∧
    ∀ k : Fin 2, k ≠ n → (biasSent d n cs code rest).heads[k] = d.heads[k] := by
  have hsent : d.HeadKept (biasSent d n cs code rest) n (· ∈ [MGMT.MST_XFER_CNT.CNT].map Fld.key) :=
    (((Dev.HeadKept.refl d n _).emit _).inc (by simp)).updHead _
  exact ⟨rfl, congrArg Head.biasQ (updHead_heads _ n _), Dev.rd_inc_same (d.spiSend cs 24 (0x300000 + code)) _, hsent.regs, hsent.others⟩

/-- Beside the transfer only the master's own record may change. -/
theorem biasTransfer_eq {d : Dev} {n : Fin 2} {cs code : Nat} {rest : List (Nat × Nat)} (hq : d.heads[n].biasQ = (cs, code) :: rest) :
    ∃ spi, biasTransfer n d = { biasSent d n cs code rest with spi := spi } := by
  unfold biasTransfer
  rw [hq]
  dsimp only
  split
  · exact ⟨_, rfl⟩
  · exact ⟨_, rfl⟩

theorem biasTransfer_idle {d : Dev} {n : Fin 2} (hq : d.heads[n].biasQ = []) : biasTransfer n d = d := by
  unfold biasTransfer
  rw [hq]

/-! ## BIAS_SETTLED -/

theorem biasSettled_waits {d : Dev} {n : Fin 2}
    (h : headState d n ≠ 1 ∨ d.now < d.heads[n].t0 + 16000000 * d.rd (THERM.BIAS.SETTLE n)) : biasSettled n d = d := if_pos h

/-- A head is marked settled: its settings and its bias reading stay. -/
theorem biasOk_settled (d : Dev) (n : Fin 2) : biasOk (d.updHead n fun h => { h with settled := true }) n = biasOk d n := by
  have hcfg : headCfg (d.updHead n fun h => { h with settled := true }) n = headCfg d n := headCfg_of_set (by rw [updHead_heads])
  unfold biasOk
  rw [hcfg]
  rfl

/-- BIAS_SETTLED of a head in BIAS, once BIAS.SETTLE has passed, turns on the bias alone. -/
theorem biasSettled_due {d : Dev} {n : Fin 2} (h1 : headState d n = 1)
    (hdue : d.heads[n].t0 + 16000000 * d.rd (THERM.BIAS.SETTLE n) ≤ d.now) :
    biasSettled n d =
      if biasOk d n then captureReq ((d.updHead n fun h => { h with settled := true }).wr (THERM.STATUS.STATE n) HS.starting) n 4
      else headFault (d.updHead n fun h => { h with settled := true }) n 1 := by
  have hnot : ¬ (headState d n ≠ HS.bias ∨ d.now < d.heads[n].t0 + 16000000 * d.rd (THERM.BIAS.SETTLE n)) :=
    not_or.2 ⟨not_not.2 h1, Nat.not_lt.2 hdue⟩
  rw [biasSettled, if_neg hnot]
  dsimp only
  rw [biasOk_settled]

/-- A request of a head whose shutter is open or failed, with no other request waiting and none that SH_INHIBIT holds: it waits. -/
theorem captureReq_waits {d : Dev} {n : Fin 2} {cause : Nat} (hsh : shState d n = 0 ∨ shState d n = 5)
    (hst : headState d n = 2 ∨ headState d n = 3) (hreq : d.heads[n].req = none)
    (hfree : ¬ ((cause = 3 ∨ cause = 1) ∧ d.on (THERM.CTL.SH_INHIBIT n) = true)) :
    ∃ g : Head → Head, captureReq d n cause = d.updHead n g ∧ g d.heads[n] = { d.heads[n] with req := some cause } := by
  refine ⟨_, (if_neg ?_).trans (if_neg hfree), ?_⟩
  · exact not_or.2 ⟨not_not.2 hsh, not_not.2 hst⟩
  · simp only [hreq]

theorem biasSettled_starts {d : Dev} {n : Fin 2} (h1 : headState d n = 1) (hok : biasOk d n = true) (hsh : shState d n = 0)
    (hdue : d.heads[n].t0 + 16000000 * d.rd (THERM.BIAS.SETTLE n) ≤ d.now) (hreq : d.heads[n].req = none) :
    headState (biasSettled n d) n = 2 ∧ (biasSettled n d).heads[n].settled = true ∧ (biasSettled n d).heads[n].req = some 4 ∧
    d.OnlyHead (biasSettled n d) n [THERM.STATUS.STATE n] := by
  generalize hd1 : (d.updHead n fun h => { h with settled := true }).wr (THERM.STATUS.STATE n) HS.starting = d1
  have hhead : d1.heads[n] = { d.heads[n] with settled := true } := by
    rw [← hd1, Dev.wr_heads, updHead_heads]
  have hstate : headState d1 n = 2 := by
    rw [← hd1]
    exact Dev.rd_wr_fits _ (by clear * -; decide +revert)
  have hshut : shState d1 n = 0 := by
    rw [← hsh, ← hd1]
    exact Dev.rd_wr_other _ _ _ _ (by clear * -; decide +revert)
  obtain ⟨g, heq, hg⟩ := captureReq_waits (cause := 4) (.inl hshut) (.inl hstate) (by rw [hhead]; exact hreq) (by simp)
  have hkept : d.HeadKept d1 n (· ∈ [THERM.STATUS.STATE n].map Fld.key) := by
    rw [← hd1]
    exact ((Dev.HeadKept.refl d n _).updHead _).wr (by simp) _
  rw [biasSettled_due h1 hdue, if_pos hok, hd1, heq, updHead_heads, hg, hhead]
  exact ⟨hstate, rfl, rfl, (hkept.updHead g).onlyHead (List.Subset.refl _)⟩

theorem biasSettled_faults {d : Dev} {n : Fin 2} (h1 : headState d n = 1) (hok : biasOk d n = false)
    (hdue : d.heads[n].t0 + 16000000 * d.rd (THERM.BIAS.SETTLE n) ≤ d.now) :
    headState (biasSettled n d) n = 4 ∧ (biasSettled n d).rd (THERM.STATUS.FAULT_CAUSE n) = 1 ∧
    bitOf ((biasSettled n d).rd (Com.IRQ_RAW (Page.THERM n))) THERM.irq.FAULT = true ∧
    d.OnlyHead (biasSettled n d) n (faultFields n) := by
  obtain ⟨hstate, hcause, hirq, -, hkept⟩ :=
    headFault_spec (d.updHead n fun h => { h with settled := true }) n (cause := 1) (by decide)
  rw [biasSettled_due h1 hdue, hok]
  exact ⟨hstate, hcause, hirq, (((Dev.HeadKept.refl d n _).updHead _).trans hkept).onlyHead (List.Subset.refl _)⟩

/-! ## The statement -/

/-- Settles O22: each command of Table 6.1 in the forms named, by the registers that entry to BIAS and to FAULT writes. -/
theorem headsChangeState : Obligations.HeadsChangeState :=
  ⟨fun _ _ hup h0 hthere => gives_of_onDev rfl hup (headEnable_starts h0 hthere),
    fun _ _ hup h => gives_of_onDev rfl hup (headEnable_sets h),
    fun _ _ hup h => gives_of_onDev rfl hup (headDisable_stops h),
    fun _ _ hup h0 => gives_of_onDev rfl hup (headDisable_clears h0),
    fun _ _ hup h4 hthere => gives_of_onDev rfl hup (headRestart_starts h4 hthere),
    fun _ _ hup h => gives_of_onDev rfl hup (headPresentLost_faults (by omega) (by omega)),
    fun _ _ hup h0 hen hsupply => gives_of_onDev rfl hup (headPresentGained_starts h0 hen hsupply),
    fun s n cs code rest hup hq => gives_of_onDev rfl hup <| by
      obtain ⟨spi, heq⟩ := biasTransfer_eq hq
      rw [heq]
      exact biasSent_spec s.dev n cs code rest,
    fun _ _ hup hq => gives_of_onDev rfl hup (biasTransfer_idle hq),
    fun _ _ hup h => gives_of_onDev rfl hup (biasSettled_waits h),
    fun _ _ hup h1 hok hsh hdue hreq => gives_of_onDev rfl hup (biasSettled_starts h1 hok hsh hdue hreq),
    fun _ _ hup h1 hok hdue => gives_of_onDev rfl hup (biasSettled_faults h1 hok hdue)⟩

end Sys2Proof.Machine
end

section
/-! SUPPORT. Shutter captures (R146, R147): requests, the dip and its miss. -/

namespace Sys2Proof.Machine

/-! ## Requests -/

/-- Outside STARTING and RUN a request is dropped. -/
theorem captureReq_dropped {d : Dev} {n : Fin 2} (h2 : headState d n ≠ 2) (h3 : headState d n ≠ 3) (cause : Nat) :
    captureReq d n cause = d :=
  if_pos (.inr (not_or.2 ⟨h2, h3⟩))

/-- A request that SH_INHIBIT holds is shown pending. -/
theorem captureReq_held {d : Dev} {n : Fin 2} {cause : Nat} (hsh : shState d n = 0 ∨ shState d n = 5)
    (hst : headState d n = 2 ∨ headState d n = 3) (hreq : d.heads[n].req = none)
    (hheld : (cause = 3 ∨ cause = 1) ∧ d.on (THERM.CTL.SH_INHIBIT n) = true) :
    ∃ g : Head → Head, captureReq d n cause = (d.wr (THERM.SH_STAT.PENDING n) 1).updHead n g ∧
      g d.heads[n] = { d.heads[n] with req := some cause } := by
  refine ⟨_, (if_neg ?_).trans (if_pos hheld), ?_⟩
  · exact not_or.2 ⟨not_not.2 hsh, not_not.2 hst⟩
  · simp only [hreq]

theorem shNow_requests {d : Dev} {n : Fin 2} (hst : headState d n = 3) (hsh : shState d n = 0) (hreq : d.heads[n].req = none) :
    (shNow n d).heads[n].req = some 3 ∧ (d.on (THERM.CTL.SH_INHIBIT n) = false → (shNow n d).regs = d.regs) ∧
    (d.on (THERM.CTL.SH_INHIBIT n) = true → (shNow n d).rd (THERM.SH_STAT.PENDING n) = 1) ∧
    d.OnlyHead (shNow n d) n [THERM.SH_STAT.PENDING n] := by
  unfold shNow
  cases hin : d.on (THERM.CTL.SH_INHIBIT n) with
  | false =>
    obtain ⟨g, heq, hg⟩ := captureReq_waits (cause := 3) (.inl hsh) (.inr hst) hreq (by simp [hin])
    rw [heq, updHead_heads, hg]
    exact ⟨rfl, fun _ => rfl, nofun, ((Dev.HeadKept.refl d n _).updHead g).onlyHead (List.Subset.refl _)⟩
  | true =>
    obtain ⟨g, heq, hg⟩ := captureReq_held (cause := 3) (.inl hsh) (.inr hst) hreq ⟨.inl rfl, hin⟩
    rw [heq, updHead_heads, Dev.wr_heads, hg, Dev.rd_updHead]
    exact ⟨rfl, nofun, fun _ => Dev.rd_wr_fits _ (by clear * -; decide +revert),
      (((Dev.HeadKept.refl d n _).wr (by simp) 1).updHead g).onlyHead (List.Subset.refl _)⟩

theorem shInhibitWrite_spec (d : Dev) (n : Fin 2) (on : Bool) :
    (shInhibitWrite n on d).rd (THERM.CTL.SH_INHIBIT n) = b2n on ∧
    (shInhibitWrite n on d).rd (THERM.SH_STAT.PENDING n) = b2n (on && (d.heads[n].req == some 3 || d.heads[n].req == some 1)) ∧
    d.OnlyRegs (shInhibitWrite n on d) [THERM.CTL.SH_INHIBIT n, THERM.SH_STAT.PENDING n] := by
  have heq : shInhibitWrite n on d = (d.wrB (THERM.CTL.SH_INHIBIT n) on).wrB (THERM.SH_STAT.PENDING n)
      (on && (d.heads[n].req == some 3 || d.heads[n].req == some 1)) := by
    unfold shInhibitWrite
    cases on with
    | false => rfl
    | true => cases hreq : d.heads[n].req <;> rfl
  have hfits (b : Bool) (f : Fld) (hf : f.width = 1) : b2n b < 2 ^ f.width := by
    rw [hf]
    cases b <;> decide
  rw [heq]
  refine ⟨?_, Dev.rd_wr_fits _ (hfits _ _ rfl), ((Dev.OnlyKeys.refl d _).wr (by simp) _).wr (by simp) _⟩
  rw [Dev.wrB, Dev.rd_wr_other _ _ _ _ (by clear * -; decide +revert)]
  exact Dev.rd_wr_fits _ (hfits _ _ rfl)

theorem captureRetry_requests {d : Dev} {n : Fin 2} (hst : headState d n = 2) (hsh : shState d n = 5) (hreq : d.heads[n].req = none)
    (hquiet : d.heads[n].quietUntil ≤ d.now) :
    (captureRetry n d).heads[n].req = some 4 ∧ d.OnlyHead (captureRetry n d) n [] := by
  obtain ⟨g, heq, hg⟩ := captureReq_waits (cause := 4) (.inr hsh) (.inl hst) hreq (by simp)
  have hdue : captureRetry n d = d.updHead n g := (if_pos ⟨hst, hsh, hquiet⟩).trans heq
  rw [hdue, updHead_heads, hg]
  exact ⟨rfl, ((Dev.HeadKept.refl d n _).updHead g).onlyHead (List.Subset.refl _)⟩

theorem clrDyn_clears (d : Dev) (n : Fin 2) :
    (clrDyn n d).rd (THERM.DYN_BP.CNT n) = 0 ∧ (clrDyn n d).heads[n].dyn = [] ∧ d.OnlyHead (clrDyn n d) n [THERM.DYN_BP.CNT n] := by
  rw [clrDyn, Dev.rd_updHead]
  exact ⟨Dev.rd_wr_fits _ (by clear * -; decide +revert), congrArg Head.dyn (updHead_heads _ n _),
    (((Dev.HeadKept.refl d n _).wr (by simp) 0).updHead _).onlyHead (List.Subset.refl _)⟩

/-! ## The dip and its miss -/

theorem shutterDip_settles {d : Dev} {n : Fin 2} (hsh : shState d n = 1) (hin : d.now ≤ dipLimit d n) :
    shState (shutterDip n d) n = 2 ∧ (shutterDip n d).heads[n].left = headCfg d n (THERM.SH_CFG.SETTLE n) ∧
    d.OnlyHead (shutterDip n d) n [THERM.SH_STAT.STATE n] := by
  have heq : shutterDip n d = captureTellMid ((d.wr (THERM.SH_STAT.STATE n) SS.settling).updHead n fun h =>
      { h with left := headCfg d n (THERM.SH_CFG.SETTLE n) }) n := if_pos ⟨hsh, hin⟩
  rw [heq, captureTellMid_head, updHead_heads, shState, rd_captureTellMid, Dev.rd_updHead]
  exact ⟨Dev.rd_wr_fits _ (by clear * -; decide +revert), rfl,
    (((Dev.HeadKept.refl d n _).wr (by simp) _).updHead _).captureTellMid.onlyHead (List.Subset.refl _)⟩

theorem shutterDip_late {d : Dev} {n : Fin 2} (h : shState d n ≠ 1 ∨ dipLimit d n < d.now) : shutterDip n d = d :=
  if_neg fun hc => h.elim (· hc.1) (Nat.not_lt.2 hc.2)

/-- A miss, once DIP_WIN has passed, turns on whether the capture is a retry. -/
theorem shutterDipTimeout_due {d : Dev} {n : Fin 2} (hsh : shState d n = 1) (hdue : dipLimit d n ≤ d.now) :
    shutterDipTimeout n d =
      let d1 := shutterRelease d (Fin.ofNat 16 (headCfg d n (THERM.SH_CFG.VALVE n)))
      if d.heads[n].retried then
        captureTellMid (((captureFailed d1 n).inc (THERM.SH_FAIL_CNT.CNT n)).irq (Page.THERM n) THERM.irq.SH_FAIL) n
      else
        captureTellMid ((d1.wr (THERM.SH_STAT.STATE n) SS.opening).updHead n fun h =>
          { h with retried := true, again := true, left := headCfg d n (THERM.SH_CFG.OPEN_FRAMES n) }) n :=
  if_neg (not_or.2 ⟨not_not.2 hsh, Nat.not_lt.2 hdue⟩)

theorem shutterRelease_released (d : Dev) (ch : Fin 16) : (shutterRelease d ch).valves[ch].released = true := by
  simp [shutterRelease, Dev.updValve]

theorem shutterDipTimeout_retries {d : Dev} {n : Fin 2} (hsh : shState d n = 1) (hfirst : d.heads[n].retried = false)
    (hdue : dipLimit d n ≤ d.now) :
    shState (shutterDipTimeout n d) n = 4 ∧ (shutterDipTimeout n d).heads[n].retried = true ∧
    (shutterDipTimeout n d).heads[n].again = true ∧
    (shutterDipTimeout n d).heads[n].left = headCfg d n (THERM.SH_CFG.OPEN_FRAMES n) ∧
    (shutterDipTimeout n d).valves[Fin.ofNat 16 (headCfg d n (THERM.SH_CFG.VALVE n))].released = true ∧
    d.OnlyHead (shutterDipTimeout n d) n [THERM.SH_STAT.STATE n] := by
  rw [shutterDipTimeout_due hsh hdue, hfirst]
  dsimp only
  rw [if_neg (by decide), captureTellMid_head, updHead_heads, shState, rd_captureTellMid, Dev.rd_updHead]
  refine ⟨Dev.rd_wr_fits _ (by clear * -; decide +revert), rfl, rfl, rfl, ?_, ?_⟩
  · simp only [captureTellMid_valves]
    exact shutterRelease_released d _
  · exact ((((Dev.HeadKept.refl d n _).shutterRelease _).wr (by simp) _).updHead _).captureTellMid.onlyHead (List.Subset.refl _)

theorem shutterDipTimeout_fails {d : Dev} {n : Fin 2} (hsh : shState d n = 1) (hagain : d.heads[n].retried = true)
    (hdue : dipLimit d n ≤ d.now) :
    shState (shutterDipTimeout n d) n = 5 ∧ d.Counted (shutterDipTimeout n d) (THERM.SH_FAIL_CNT.CNT n) ∧
    bitOf ((shutterDipTimeout n d).rd (Com.IRQ_RAW (Page.THERM n))) THERM.irq.SH_FAIL = true ∧
    (shutterDipTimeout n d).heads[n].quietUntil = d.now + 16000000000 * headCfg d n (THERM.SH_INTERVAL.MIN n) ∧
    d.OnlyHead (shutterDipTimeout n d) n
      [THERM.SH_STAT.STATE n, THERM.SH_FAIL_CNT.CNT n, Com.IRQ_RAW (Page.THERM n), Com.ERR_CNT (Page.THERM n)] := by
  rw [shutterDipTimeout_due hsh hdue, hagain]
  dsimp only
  rw [if_pos rfl]
  generalize hr : shutterRelease d (Fin.ofNat 16 (headCfg d n (THERM.SH_CFG.VALVE n))) = r
  have hrd (f : Fld) : r.rd f = d.rd f := by rw [← hr]; rfl
  have hkept : d.HeadKept r n (· ∈ [THERM.SH_STAT.STATE n, THERM.SH_FAIL_CNT.CNT n, Com.IRQ_RAW (Page.THERM n),
      Com.ERR_CNT (Page.THERM n)].map Fld.key) := by
    rw [← hr]
    exact (Dev.HeadKept.refl d n _).shutterRelease _
  refine ⟨?_, ?_, ?_, ?_, ?_⟩
  · simp (disch := clear * -; decide +revert) only [shState, captureFailed, SS.failed, rd_captureTellMid, Dev.rd_irq_other, Dev.rd_inc_other,
      Dev.rd_updHead, Dev.rd_wr_fits]
  · simp (disch := clear * -; decide +revert) only [Dev.Counted, captureFailed, rd_captureTellMid, Dev.rd_irq_other, Dev.rd_inc_same,
      Dev.rd_updHead, Dev.rd_wr_other, hrd]
  · rw [rd_captureTellMid, Dev.bitOf_irq _ _ _ (by decide)]
    rfl
  · rw [captureTellMid_head, Dev.irq_heads, Dev.inc_heads, captureFailed, updHead_heads, ← hr]
    rfl
  · exact (((((hkept.wr (by simp) _).updHead _).inc (by simp)).irq (by simp) (by simp) _).captureTellMid).onlyHead (List.Subset.refl _)

end Sys2Proof.Machine
end

section
/-! SUPPORT. Frames of a thermal head (R133, R139, R154): a frame's start under an unchanged set and map, and its end. -/

namespace Sys2Proof.Machine

/-! ## The registers of a frame's start -/

/-- The registers that FSYNC writes where no set, map or shutter changes. -/
def frameFields (n : Fin 2) : List Fld :=
  [THERM.TBL_STAT.BANK_BUSY n, THERM.U_MIN.U n, THERM.U_MAX.U n, THERM.T_FPA.T n, THERM.STATUS.FPA_STALE n, THERM.FPA_STALE_CNT.CNT n,
    Com.IRQ_RAW (Page.THERM n), Com.ERR_CNT (Page.THERM n), THERM.DRIFT.DT n]

theorem frameFields_page (n : Fin 2) : ∀ f ∈ frameFields n, f.key / 131072 ∈ [Page.THERM n] := by decide +revert

/-- From `d` to `e` only the record of head `n`, what the module has sent and registers of a frame's start changed. -/
abbrev Dev.FrameKept (d e : Dev) (n : Fin 2) : Prop := d.HeadKept e n (· ∈ (frameFields n).map Fld.key)

/-- No converter's result is one of them. -/
theorem padcResult_notin_frameFields (n : Fin 2) (conv entry : Nat) : (PADC.RES.VAL conv entry).key ∉ (frameFields n).map Fld.key := by
  intro hk
  obtain ⟨f, hf, hkey⟩ := List.mem_map.1 hk
  have hpage := frameFields_page n f hf
  rw [hkey] at hpage
  simp only [Fld.key, PADC.RES.VAL, fld, Page.THERM, List.mem_singleton] at hpage
  have := n.isLt
  omega

namespace Dev.FrameKept
variable {d e : Dev} {n : Fin 2}

theorem padcResult (h : d.FrameKept e n) (conv entry : Nat) : padcResult e conv entry = padcResult d conv entry := by
  rw [Machine.padcResult, Machine.padcResult, Dev.rdS, Dev.rdS, h.regs _ (padcResult_notin_frameFields n conv entry), h.rest]

/-- The bias monitor is judged as before where the frame's set stayed. -/
theorem biasOk (h : d.FrameKept e n) (hset : e.heads[n].set = d.heads[n].set) : biasOk e n = biasOk d n := by
  rw [Machine.biasOk, Machine.biasOk, headCfg_of_set hset, h.padcResult]

end Dev.FrameKept

/-! ## An unchanged set and map -/

theorem showU_kept (m : Memory) (d : Dev) (n : Fin 2) : d.FrameKept (showU m d n) n :=
  ((Dev.HeadKept.refl d n _).wr (by simp [frameFields]) _).wr (by simp [frameFields]) _

/-- A head's record written back as it was. -/
theorem updHead_self (d : Dev) {n : Fin 2} {g : Head → Head} (h : g d.heads[n] = d.heads[n]) : (d.updHead n g).heads[n] = d.heads[n] :=
  (updHead_heads d n g).trans h

theorem takeMap_same {m : Memory} {d : Dev} {n : Fin 2} (h : d.heads[n].mapKey = some (mapKeyOf m d n)) :
    takeMap m d n = d.updHead n fun q => { q with mapKey := some (mapKeyOf m d n) } := by
  unfold takeMap
  rw [h]
  simp

/-- Under the set and the map of the frame before, FSYNC takes neither: no restart and no capture follow. -/
theorem takeSet_same {m : Memory} {d : Dev} {n : Fin 2} (hset : d.heads[n].set = d.regs)
    (hmap : d.heads[n].mapKey = some (mapKeyOf m d n)) :
    ∃ e, takeSet m d n = ((false, false), e) ∧ e.heads[n] = d.heads[n] ∧ e.out = d.out ∧ d.FrameKept e n := by
  have hsame (fs : List Fld) : (fs.any fun f => d.heads[n].set.get f.key f.reset != d.rd f) = false := by
    rw [hset]
    simp
  have hd1 : (showU m (chainEmpty (takeMap m d n) n) n).heads[n] = d.heads[n] := by
    have hhead : (takeMap m d n).heads[n] = d.heads[n] := by
      rw [takeMap_same hmap]
      exact updHead_self d (by rw [← hmap])
    exact hhead
  have hkept : d.FrameKept (showU m (chainEmpty (takeMap m d n) n) n) n := by
    rw [takeMap_same hmap]
    exact (((Dev.HeadKept.refl d n _).updHead _).wr (by simp [frameFields]) _).trans (showU_kept m _ n)
  have hout : (showU m (chainEmpty (takeMap m d n) n) n).out = d.out := by
    rw [takeMap_same hmap]
    rfl
  refine ⟨(showU m (chainEmpty (takeMap m d n) n) n).updHead n fun h => { h with set := d.regs }, ?_, ?_, hout, hkept.updHead _⟩
  · unfold takeSet
    simp only [hsame, Bool.false_eq_true, if_false]
  · rw [updHead_heads, hd1, ← hset]

/-! ## The start of a frame -/

/-- The converter's temperature of a frame that starts at `time`, shown with its age, and the next instant (R133, R139). -/
def frameTemps (d : Dev) (n : Fin 2) (time : Nat) : Dev :=
  let c := headCfg d n
  let d := d.updHead n fun h => { h with nextF := time + 16 * c (THERM.FRAME_PERIOD.NS n), posLog := [(time, posStamp d.gen.pos)] }
  let t := padcResult d (c (THERM.TEMP_SRC.FPA_CONV n)) (c (THERM.TEMP_SRC.FPA_ENTRY n))
  let stale := decide (t.2 + 16000000 * c (THERM.TEMP_SRC.MAXAGE n) < time)
  let d := (d.wrS (THERM.T_FPA.T n) t.1).wrB (THERM.STATUS.FPA_STALE n) stale
  if stale then (d.inc (THERM.FPA_STALE_CNT.CNT n)).irq (Page.THERM n) THERM.irq.FPA_STALE else d

/-- How many frames in a row the bias has missed (R135). -/
def biasMisses (d : Dev) (n : Fin 2) : Nat := if d.heads[n].settled && !biasOk d n then d.heads[n].biasBad + 1 else 0

/-- What FSYNC shows before the shutter acts. -/
def frameShown (d : Dev) (n : Fin 2) (time : Nat) : Dev :=
  (frameTemps d n time).updHead n fun h => { h with biasBad := biasMisses (frameTemps d n time) n }

/-- A frame opened at `time` with the shutter open, of a head shown as in `d`, and its dT shown; the converters are read in `e`. -/
def frameOpened (e d : Dev) (n : Fin 2) (time : Nat) : Dev :=
  let c := headCfg e n
  let t := padcResult e (c (THERM.TEMP_SRC.FPA_CONV n)) (c (THERM.TEMP_SRC.FPA_ENTRY n))
  let tSh := padcResult e (c (THERM.TEMP_SRC.SHT_CONV n)) (c (THERM.TEMP_SRC.SHT_ENTRY n))
  let tS := match d.heads[n].old with
    | some (_, tS, _) => tS
    | none => d.rdS (THERM.T_S.T n)
  let dT := sat16 (sar (t.1 - tS) 6)
  let d := d.wrS (THERM.DRIFT.DT n) dT
  let f : FrameInfo := ⟨time, d.rd WEB.EPOCH_ID.LIVE_ID, d.rd (THERM.FRAME_CNT.CNT n), t.1, tSh.1, dT,
    decide (t.2 + 16000000 * c (THERM.TEMP_SRC.MAXAGE n) < time), false, false, false, d.heads[n].old.isSome⟩
  d.updHead n fun h => { h with cur := some f }

/-- A head's record once a frame has started at `time`: the next instant, and the position reached. -/
def Head.framed (h : Head) (next time pos : Nat) : Head := { h with nextF := next, posLog := [(time, pos)] }

theorem frameTemps_spec (d : Dev) (n : Fin 2) (time : Nat) :
    (frameTemps d n time).heads[n] =
      d.heads[n].framed (time + 16 * headCfg d n (THERM.FRAME_PERIOD.NS n)) time (posStamp d.gen.pos) ∧
    (frameTemps d n time).out = d.out ∧ d.FrameKept (frameTemps d n time) n := by
  unfold frameTemps
  extract_lets c d1 t stale d2
  have h2 : d.FrameKept d2 n := (((Dev.HeadKept.refl d n _).updHead _).wr (by simp [frameFields]) _).wr (by simp [frameFields]) _
  have hhead : d2.heads[n] = d.heads[n].framed (time + 16 * c (THERM.FRAME_PERIOD.NS n)) time (posStamp d.gen.pos) :=
    updHead_heads d n fun h => h.framed (time + 16 * c (THERM.FRAME_PERIOD.NS n)) time (posStamp d.gen.pos)
  generalize he : (if stale then (d2.inc (THERM.FPA_STALE_CNT.CNT n)).irq (Page.THERM n) THERM.irq.FPA_STALE else d2) = e
  have hrest : e.heads = d2.heads ∧ e.out = d2.out ∧ d.FrameKept e n := by
    rw [← he]
    split
    · exact ⟨by rw [Dev.irq_heads]; rfl, by rw [Dev.irq_out]; rfl,
        (h2.inc (by simp [frameFields])).irq (by simp [frameFields]) (by simp [frameFields]) _⟩
    · exact ⟨rfl, rfl, h2⟩
  obtain ⟨hheads, hout, hkept⟩ := hrest
  rw [hheads]
  exact ⟨hhead, hout, hkept⟩

/-- With the shutter open and no request the shutter stays as it is. -/
theorem shutterAtFsync_open {d : Dev} {n : Fin 2} (hsh : shState d n = 0) (hreq : d.heads[n].req = none) (asked : Bool) :
    shutterAtFsync d n asked = ((false, false, false), d) := by
  have hacts : reqActs d n = false := by
    rw [reqActs, hreq]
  unfold shutterAtFsync
  extract_lets h start openNow
  rw [hsh]
  simp only [start, hacts, Bool.false_and, Bool.false_eq_true, if_false]

theorem fsync_opens {m : Memory} {d e : Dev} {n : Fin 2} {time : Nat}
    (hgo : ¬ (headState d n = HS.off ∨ headState d n = HS.fault ∨ (!d.isStandby ∧ d.now < d.heads[n].nextF)))
    (htime : (if d.isStandby then d.now else d.heads[n].nextF) = time)
    (htake : takeSet m (if d.isStandby then d else d.emit (.headPin n.val 1 1)) n = ((false, false), e))
    (hbias : biasMisses (frameTemps e n time) n = 0) (hsh : shState (frameShown e n time) n = 0)
    (hreq : (frameShown e n time).heads[n].req = none) :
    fsync n m d = frameOpened e (frameShown e n time) n time := by
  have hshut : (if (frameShown e n time).on MEM.STATUS.DEGRADED || (frameShown e n time).isStandby then
      ((false, false, false), frameShown e n time) else shutterAtFsync (frameShown e n time) n false) =
      ((false, false, false), frameShown e n time) := by
    rw [shutterAtFsync_open hsh hreq, ite_self]
  subst htime
  unfold fsync
  extract_lets st time d0
  rw [if_neg (show ¬ (st = HS.off ∨ st = HS.fault ∨ (!d.isStandby ∧ d.now < d.heads[n].nextF)) from hgo),
    show takeSet m d0 n = ((false, false), e) from htake]
  dsimp -zeta only
  rw [if_neg Bool.false_ne_true]
  extract_lets +onlyGivenNames c d1 stale d2 d3 bad d4
  have hbad : bad = 0 := hbias
  rw [if_neg (show ¬ (3 ≤ bad ∧ (st = HS.starting ∨ st = HS.run)) by omega),
    show (if d4.on MEM.STATUS.DEGRADED || d4.isStandby then ((false, false, false), d4) else shutterAtFsync d4 n false) =
      ((false, false, false), d4) from hshut]
  rfl

theorem frameOpened_spec (e d : Dev) (n : Fin 2) (time : Nat) :
    (∃ f, (frameOpened e d n time).heads[n] = { d.heads[n] with cur := some f } ∧ f.time = time ∧ f.num = d.rd (THERM.FRAME_CNT.CNT n) ∧
      f.epoch = d.rd WEB.EPOCH_ID.LIVE_ID ∧ f.shutter = false ∧ f.capture = false ∧
      f.tFpa = (padcResult e (headCfg e n (THERM.TEMP_SRC.FPA_CONV n)) (headCfg e n (THERM.TEMP_SRC.FPA_ENTRY n))).1 ∧
      f.dT = sat16 (sar (f.tFpa - d.heads[n].old.elim (d.rdS (THERM.T_S.T n)) fun o => o.2.1) 6)) ∧
    (frameOpened e d n time).out = d.out ∧ d.FrameKept (frameOpened e d n time) n := by
  unfold frameOpened
  extract_lets c t tSh tS dT d1 f
  have hkept : d.FrameKept d1 n := (Dev.HeadKept.refl d n _).wr (by simp [frameFields]) _
  have htS : tS = d.heads[n].old.elim (d.rdS (THERM.T_S.T n)) fun o => o.2.1 := by
    unfold tS
    cases d.heads[n].old <;> rfl
  refine ⟨⟨f, updHead_heads d1 n _, rfl, hkept.regs _ (by clear * -; decide +revert), hkept.regs _ (by clear * -; decide +revert), rfl, rfl,
    rfl, ?_⟩, rfl, hkept.updHead _⟩
  rw [← htS]

theorem frameShown_spec (d : Dev) (n : Fin 2) (time : Nat) :
    (frameShown d n time).heads[n].nextF = time + 16 * headCfg d n (THERM.FRAME_PERIOD.NS n) ∧
    (frameShown d n time).heads[n].old = d.heads[n].old ∧ (frameShown d n time).heads[n].req = d.heads[n].req ∧
    (frameShown d n time).out = d.out ∧ d.FrameKept (frameShown d n time) n := by
  obtain ⟨hhead, hout, hkept⟩ := frameTemps_spec d n time
  unfold frameShown
  rw [updHead_heads, hhead]
  exact ⟨rfl, rfl, rfl, hout, hkept.updHead _⟩

/-- A head whose bias is in tolerance has missed no frame. -/
theorem biasMisses_ok {d : Dev} {n : Fin 2} (h : biasOk d n = true) : biasMisses d n = 0 := by
  rw [biasMisses, h]
  simp

theorem fsync_idle {m : Memory} {d : Dev} {n : Fin 2}
    (h : headState d n = 0 ∨ headState d n = 4 ∨ (d.isStandby = false ∧ d.now < d.heads[n].nextF)) : fsync n m d = d := by
  refine if_pos (h.imp_right (Or.imp_right fun ⟨hactive, hearly⟩ => ⟨?_, hearly⟩))
  rw [hactive]
  rfl

/-- FSYNC at the instant of the next frame: the head is in RUN, its set and map are those of the frame before, its bias is in tolerance
and its shutter is open with no request. -/
theorem fsync_frame {m : Memory} {d : Dev} {n : Fin 2} (hrun : headState d n = 3) (hset : d.heads[n].set = d.regs) (hsh : shState d n = 0)
    (hreq : d.heads[n].req = none) (hok : biasOk d n = true) (hmap : d.heads[n].mapKey = some (mapKeyOf m d n))
    (hdue : d.isStandby = true ∨ d.heads[n].nextF ≤ d.now) :
    (∃ f, (fsync n m d).heads[n].cur = some f ∧ f.time = (if d.isStandby then d.now else d.heads[n].nextF) ∧
      (fsync n m d).heads[n].nextF = f.time + 16 * headCfg d n (THERM.FRAME_PERIOD.NS n) ∧ f.num = d.rd (THERM.FRAME_CNT.CNT n) ∧
      f.epoch = d.rd WEB.EPOCH_ID.LIVE_ID ∧ f.shutter = false ∧ f.capture = false ∧
      f.tFpa = (padcResult d (d.rd (THERM.TEMP_SRC.FPA_CONV n)) (d.rd (THERM.TEMP_SRC.FPA_ENTRY n))).1 ∧
      f.dT = sat16 (sar (f.tFpa - (d.heads[n].old.elim (d.rdS (THERM.T_S.T n)) fun o => o.2.1)) 6)) ∧
    (fsync n m d).out = (if d.isStandby then d.out else .headPin n.val 1 1 :: d.out) ∧
    headState (fsync n m d) n = 3 ∧ d.KeepsPages (fsync n m d) [Page.THERM n] ∧
    ∀ k : Fin 2, k ≠ n → (fsync n m d).heads[k] = d.heads[k] := by
  generalize hd0 : (if d.isStandby then d else d.emit (.headPin n.val 1 1)) = d0
  have h0 : d0.heads = d.heads ∧ d0.regs = d.regs ∧ d0.out = (if d.isStandby then d.out else .headPin n.val 1 1 :: d.out) ∧
      mapKeyOf m d0 n = mapKeyOf m d n ∧ d.FrameKept d0 n := by
    rw [← hd0]
    split
    · exact ⟨rfl, rfl, rfl, rfl, .refl d n _⟩
    · exact ⟨rfl, rfl, rfl, rfl, .emit (.refl d n _) _⟩
  obtain ⟨hheads0, hregs0, hout0, hkey0, hkept0⟩ := h0
  obtain ⟨e, htake, hhead, hout, hkept⟩ := takeSet_same (m := m) (d := d0) (n := n) (by rw [hheads0, hset, hregs0])
    (by rw [hheads0, hmap, hkey0])
  have hhead : e.heads[n] = d.heads[n] := by rw [hhead, hheads0]
  have hkept : d.FrameKept e n := hkept0.trans hkept
  generalize htime : (if d.isStandby then d.now else d.heads[n].nextF) = time
  obtain ⟨htemps, -, hkeptT⟩ := frameTemps_spec e n time
  obtain ⟨hnext, hold, hreqS, houtS, hkeptS⟩ := frameShown_spec e n time
  have hshown : d.FrameKept (frameShown e n time) n := hkept.trans hkeptS
  have hmisses : biasMisses (frameTemps e n time) n = 0 :=
    biasMisses_ok ((Dev.FrameKept.biasOk (hkept.trans hkeptT) (by rw [htemps, hhead]; rfl)).trans hok)
  have hgo : ¬ (headState d n = HS.off ∨ headState d n = HS.fault ∨ (!d.isStandby ∧ d.now < d.heads[n].nextF)) := by
    rw [hrun]
    rintro (h | h | ⟨hactive, hearly⟩)
    · exact absurd h (by decide)
    · exact absurd h (by decide)
    · exact hdue.elim (fun hstandby => by simp [hstandby] at hactive) (Nat.not_le.2 hearly)
  have heq : fsync n m d = frameOpened e (frameShown e n time) n time :=
    fsync_opens hgo htime (by rw [hd0, htake]) hmisses ((hshown.regs _ (by clear * -; decide +revert)).trans hsh)
      (by rw [hreqS, hhead, hreq])
  obtain ⟨⟨f, hcur, hftime, hnum, hepoch, hshut, hcap, htFpa, hdT⟩, houtF, hkeptF⟩ := frameOpened_spec e (frameShown e n time) n time
  have hcfg (g : Fld) : headCfg e n g = d.rd g := by
    rw [headCfg, hhead, hset]
    rfl
  have hall : d.FrameKept (fsync n m d) n := by
    rw [heq]
    exact hshown.trans hkeptF
  refine ⟨⟨f, ?_, hftime, ?_, hnum.trans (hshown.regs _ (by clear * -; decide +revert)),
    hepoch.trans (hshown.regs _ (by clear * -; decide +revert)), hshut, hcap, ?_, ?_⟩, ?_, ?_, ?_, hall.others⟩
  · rw [heq, hcur]
  · rw [heq, hcur, hftime, ← headCfg_of_set (d := d) (e := e) (by rw [hhead])]
    exact hnext
  · rw [htFpa, hcfg, hcfg, hkept.padcResult]
  · rw [hdT, hold, hhead, Dev.rdS, hshown.regs _ (by clear * -; decide +revert)]
    rfl
  · rw [heq, houtF, houtS, hout, hout0]
  · exact (hall.regs _ (by clear * -; decide +revert)).trans hrun
  · exact Dev.KeepsRegs.keepsPages hall.regs (frameFields_page n)

/-! ## The end of a frame -/

theorem frameDone_idle {d : Dev} {n : Fin 2} (h : d.heads[n].cur = none) (samples : List Nat) (delay : Nat) (m : Memory) :
    frameDone n samples delay (d, m) = (d, m) := by
  unfold frameDone
  rw [h]

/-- A frame closed and counted, its event raised. -/
def frameClosed (d : Dev) (n : Fin 2) : Dev :=
  (((chainEmpty d n).updHead n fun h => { h with cur := none, posLog := [] }).addCnt (THERM.FRAME_CNT.CNT n) 1).irq
    (Page.THERM n) THERM.irq.FRAME

/-- What tap `k` of the head shows of a frame's samples: those at a rail, and the last. -/
def tapShown (n : Fin 2) (cols : Nat) (arr : Array Nat) (d : Dev) (k : Nat) : Dev :=
  let mine := (List.range arr.size).filter fun p => p % cols % 4 == k
  let cl := (mine.filter fun p => arr.getD p 0 == 0 || arr.getD p 0 == 65535).length
  (d.addCnt (TAPC.CLIP_CNT.CNT (4 * n.val + k)) cl).wr (TAPC.LAST.SAMPLE (4 * n.val + k)) (arr.getD (mine.getLastD 0) 0)

/-- The samples at a rail. -/
def clipCount (samples : List Nat) : Nat := ((samples.map fun v => v % 65536).filter fun v => v == 0 || v == 65535).length

/-- A frame closed, with what its taps and the head count of its samples. -/
def frameCounted (d : Dev) (n : Fin 2) (samples : List Nat) : Dev :=
  ((List.range 4).foldl (tapShown n (headCfg (frameClosed d n) n (THERM.GEOM.COLS n)) (samples.map fun v => v % 65536).toArray)
    (frameClosed d n)).addCnt (THERM.CLIP_CNT.CNT n) (clipCount samples)

/-- In degraded mode a frame is closed and counted, and goes no further. -/
theorem frameDone_degraded {d : Dev} {n : Fin 2} {f : FrameInfo} {samples : List Nat} (hcur : d.heads[n].cur = some f)
    (hdeg : (frameCounted d n samples).on (THERM.STATUS.DEGRADED n) = true) (delay : Nat) (m : Memory) :
    frameDone n samples delay (d, m) = (frameCounted d n samples, m) := by
  unfold frameDone
  rw [hcur]
  exact if_pos (.inr hdeg)

theorem tapShown_kept (n : Fin 2) (cols : Nat) (arr : Array Nat) (d : Dev) {k : Nat} (hk : k ∈ List.range 4) :
    d.OnlyKeys (tapShown n cols arr d k) (· / 131072 = Page.TAPC) := by
  have hclip : ∀ n : Fin 2, ∀ k ∈ List.range 4, (TAPC.CLIP_CNT.CNT (4 * n.val + k)).key / 131072 = Page.TAPC := by decide
  have hlast : ∀ n : Fin 2, ∀ k ∈ List.range 4, (TAPC.LAST.SAMPLE (4 * n.val + k)).key / 131072 = Page.TAPC := by decide
  exact ((Dev.OnlyKeys.refl d _).wr (hclip n k hk) _).wr (hlast n k hk) _

theorem frameCounted_spec (d : Dev) (n : Fin 2) (samples : List Nat) :
    (frameCounted d n samples).heads[n].cur = none ∧ d.Counted (frameCounted d n samples) (THERM.FRAME_CNT.CNT n) ∧
    bitOf ((frameCounted d n samples).rd (Com.IRQ_RAW (Page.THERM n))) THERM.irq.FRAME = true ∧
    (frameCounted d n samples).rd (THERM.CLIP_CNT.CNT n) = min (d.rd (THERM.CLIP_CNT.CNT n) + clipCount samples) (2 ^ 32 - 1) ∧
    (frameCounted d n samples).rd (THERM.STATUS.DEGRADED n) = d.rd (THERM.STATUS.DEGRADED n) ∧
    d.KeepsPages (frameCounted d n samples) [Page.THERM n, Page.TAPC] ∧
    ∀ k : Fin 2, k ≠ n → (frameCounted d n samples).heads[k] = d.heads[k] := by
  have hclosed : d.HeadKept (frameClosed d n) n (· ∈ [THERM.TBL_STAT.BANK_BUSY n, THERM.FRAME_CNT.CNT n, Com.IRQ_RAW (Page.THERM n),
      Com.ERR_CNT (Page.THERM n)].map Fld.key) :=
    ((((Dev.HeadKept.refl d n _).wr (by simp) 0).updHead _).inc (by simp)).irq (by simp) (by simp) _
  have hhead : (frameClosed d n).heads[n].cur = none := by
    rw [frameClosed, Dev.irq_heads, Dev.addCnt_heads, updHead_heads]
  have hcount : (frameClosed d n).rd (THERM.FRAME_CNT.CNT n) = min (d.rd (THERM.FRAME_CNT.CNT n) + 1) (2 ^ 32 - 1) := by
    rw [frameClosed, Dev.rd_irq_other _ _ _ _ (by clear * -; decide +revert) (by clear * -; decide +revert), Dev.rd_addCnt_same,
      Dev.rd_updHead, chainEmpty, Dev.rd_wr_other _ _ _ _ (by clear * -; decide +revert)]
    rfl
  have hirq : bitOf ((frameClosed d n).rd (Com.IRQ_RAW (Page.THERM n))) THERM.irq.FRAME = true := by
    rw [frameClosed, Dev.bitOf_irq _ _ _ (by decide)]
    rfl
  have htaps : (frameClosed d n).OnlyKeys _ (· / 131072 = Page.TAPC) :=
    Dev.OnlyKeys.foldl_mem (fun e k hk => tapShown_kept n (headCfg (frameClosed d n) n (THERM.GEOM.COLS n))
      (samples.map fun v => v % 65536).toArray e hk) (.refl (frameClosed d n) _)
  rw [frameCounted]
  generalize (List.range 4).foldl _ (frameClosed d n) = e at htaps
  obtain ⟨hrest, hregs⟩ := htaps
  have hheads : e.heads = (frameClosed d n).heads := by rw [hrest]
  have hkept : d.KeepsKeys e (· / 131072 ∈ [Page.THERM n, Page.TAPC]) :=
    (hclosed.regs.mono fun k hk => by
      obtain ⟨f, hf, rfl⟩ := List.mem_map.1 hk
      revert f
      clear * -
      decide +revert).trans (hregs.mono fun k hk => by simp [hk])
  rw [Dev.addCnt_heads, hheads]
  refine ⟨hhead, ?_, ?_, ?_, ?_, hkept.wrSat (by clear * -; decide +revert) _, hclosed.others⟩
  · rw [Dev.Counted, Dev.rd_addCnt_other _ _ _ _ (by clear * -; decide +revert), hregs _ (by clear * -; decide +revert), hcount]
    rfl
  · rw [Dev.rd_addCnt_other _ _ _ _ (by clear * -; decide +revert), hregs _ (by clear * -; decide +revert), hirq]
  · rw [Dev.rd_addCnt_same, hregs _ (by clear * -; decide +revert), hclosed.regs _ (by clear * -; decide +revert)]
    rfl
  · rw [Dev.rd_addCnt_other _ _ _ _ (by clear * -; decide +revert), hregs _ (by clear * -; decide +revert),
      hclosed.regs _ (by clear * -; decide +revert)]

/-- Settles O23: requests, the dip and its miss, and a frame's start and end, each in the forms named. -/
theorem capturesAndFrames : Obligations.CapturesAndFrames := by
  refine ⟨fun s n hup hst hsh hreq => gives_of_onDev rfl hup (shNow_requests hst hsh hreq),
    fun s n hup hst => gives_of_onDev rfl hup (captureReq_dropped (by omega) (by omega) 3),
    fun s n on hup => gives_of_onDev rfl hup (shInhibitWrite_spec s.dev n on),
    fun s n hup hsh hin => gives_of_onDev rfl hup (shutterDip_settles hsh hin),
    fun s n hup h => gives_of_onDev rfl hup (shutterDip_late h),
    fun s n hup hsh hfirst hdue => gives_of_onDev rfl hup (shutterDipTimeout_retries hsh hfirst hdue),
    fun s n hup hsh hagain hdue => gives_of_onDev rfl hup (shutterDipTimeout_fails hsh hagain hdue),
    fun s n hup hst hsh hreq hquiet => gives_of_onDev rfl hup (captureRetry_requests hst hsh hreq hquiet),
    fun s n hup => gives_of_onDev rfl hup (clrDyn_clears s.dev n),
    fun s n hup h => gives_of_onDev (g := fsync n s.mem) rfl hup (fsync_idle h),
    fun s n hup hrun hset hsh hreq hok hmap hdue =>
      gives_of_onDev (g := fsync n s.mem) rfl hup (fsync_frame hrun hset hsh hreq hok hmap hdue),
    fun s n samples delay hup hcur => ?_, fun s n samples delay f hup hcur hdeg => ?_⟩
  · have hidle := frameDone_idle hcur samples delay s.mem
    exact gives_of_onBoth rfl hup (congrArg Prod.snd hidle) (congrArg Prod.fst hidle)
  · obtain ⟨hclosed, hcount, hirq, hclip, hstays, hkept, hothers⟩ := frameCounted_spec s.dev n samples
    have heq := frameDone_degraded hcur (by rw [Dev.on, hstays]; exact hdeg) delay s.mem
    refine gives_of_onBoth rfl hup (congrArg Prod.snd heq) ?_
    rw [heq]
    exact ⟨hclosed, hcount, hirq, hclip, hkept, hothers⟩

end Sys2Proof.Machine
end

section
/-! SUPPORT. The web map of a thermal head (R151, R152): rows made final, and the row buffer. -/

namespace Sys2Proof.Machine

/-! ## One row made final -/

/-- A fold that puts one more entry at the end of its list at each step. -/
theorem length_foldl_append_one {α β γ : Type} {g : List β × γ → α → List β × γ}
    (hg : ∀ acc a, (g acc a).1.length = acc.1.length + 1) (l : List α) (acc : List β × γ) : (l.foldl g acc).1.length = acc.1.length + l.length := by
  induction l generalizing acc with
  | nil => rfl
  | cons a l ih =>
    rw [List.foldl_cons, ih, hg, List.length_cons]
    omega

/-- The registers that show the last final row. -/
def lastRowFields (n : Fin 2) : List Fld := [THERM.MAP_K_LO.K n, THERM.MAP_K_HI.K n]

/-- The row joins the final ones, with one cell for each column of the map, and is the last of them. -/
theorem finalRow_spec (d : Dev) (n : Fin 2) (k : Int) :
    (∃ cells, (finalRow d n k).heads[n].finals = ⟨k, cells⟩ :: d.heads[n].finals ∧
      cells.length = headCfg d n (THERM.MAP_CFG.XW_CELLS n)) ∧
    (finalRow d n k).heads[n].finalK = some k ∧ (finalRow d n k).heads[n].set = d.heads[n].set ∧
    d.HeadKept (finalRow d n k) n (· ∈ (lastRowFields n).map Fld.key) := by
  have hkept : d.HeadKept (d.wr2S (THERM.MAP_K_LO.K n) (THERM.MAP_K_HI.K n) k) n (· ∈ (lastRowFields n).map Fld.key) :=
    ((Dev.HeadKept.refl d n _).wr (by simp [lastRowFields]) _).wr (by simp [lastRowFields]) _
  unfold finalRow
  dsimp only
  rw [updHead_heads]
  refine ⟨⟨_, rfl, ?_⟩, rfl, rfl, hkept.updHead _⟩
  refine (length_foldl_append_one (fun acc ci => ?_) _ _).trans ?_
  · rw [List.length_append, List.length_singleton]
  · rw [List.length_nil, List.length_range, Nat.zero_add]

/-! ## Rows made final in order -/

/-- `cnt` rows from `first` on made final, in ascending order (R151). -/
def rowsFinal (d : Dev) (n : Fin 2) (first : Int) (cnt : Nat) : Dev :=
  (List.range cnt).foldl (fun d (k : Nat) => finalRow d n (first + k)) d

theorem rowsFinal_succ (d : Dev) (n : Fin 2) (first : Int) (cnt : Nat) :
    rowsFinal d n first (cnt + 1) = finalRow (rowsFinal d n first cnt) n (first + cnt) := by
  rw [rowsFinal, List.range_succ, List.foldl_append]
  rfl

theorem rowsFinal_kept (d : Dev) (n : Fin 2) (first : Int) (cnt : Nat) :
    (rowsFinal d n first cnt).heads[n].set = d.heads[n].set ∧
    d.HeadKept (rowsFinal d n first cnt) n (· ∈ (lastRowFields n).map Fld.key) := by
  induction cnt with
  | zero => exact ⟨rfl, .refl d n _⟩
  | succ cnt ih =>
    obtain ⟨hset, hkept⟩ := ih
    obtain ⟨-, -, hset', hkept'⟩ := finalRow_spec (rowsFinal d n first cnt) n (first + cnt)
    rw [rowsFinal_succ]
    exact ⟨hset'.trans hset, hkept.trans hkept'⟩

/-- Rows final before stay, and each of the new ones has one cell for each column of the map. -/
theorem rowsFinal_finals (d : Dev) (n : Fin 2) (first : Int) (cnt : Nat) :
    (∀ k < cnt, ∃ r ∈ (rowsFinal d n first cnt).heads[n].finals,
      r.k = first + (k : Nat) ∧ r.cells.length = headCfg d n (THERM.MAP_CFG.XW_CELLS n)) ∧
    ∀ r ∈ d.heads[n].finals, r ∈ (rowsFinal d n first cnt).heads[n].finals := by
  induction cnt with
  | zero => exact ⟨fun k hk => absurd hk (Nat.not_lt_zero k), fun r hr => hr⟩
  | succ cnt ih =>
    obtain ⟨hrows, hold⟩ := ih
    obtain ⟨⟨cells, hfinals, hlen⟩, -⟩ := finalRow_spec (rowsFinal d n first cnt) n (first + cnt)
    rw [rowsFinal_succ, hfinals]
    refine ⟨fun k hk => ?_, fun r hr => .tail _ (hold r hr)⟩
    rcases Nat.lt_succ_iff_lt_or_eq.1 hk with hlt | rfl
    · obtain ⟨r, hr, hspec⟩ := hrows k hlt
      exact ⟨r, .tail _ hr, hspec⟩
    · rw [headCfg_of_set (rowsFinal_kept d n first k).1] at hlen
      exact ⟨_, .head _, rfl, hlen⟩

theorem rowsFinal_finalK (d : Dev) (n : Fin 2) (first : Int) (cnt : Nat) :
    (rowsFinal d n first cnt).heads[n].finalK = if cnt = 0 then d.heads[n].finalK else some (first + cnt - 1) := by
  cases cnt with
  | zero => rfl
  | succ cnt =>
    obtain ⟨-, hlast, -⟩ := finalRow_spec (rowsFinal d n first cnt) n (first + cnt)
    rw [rowsFinal_succ, hlast, if_neg (Nat.succ_ne_zero cnt), Nat.cast_succ, ← add_assoc, add_sub_cancel_right]

/-! ## MAP_FINALIZE -/

theorem mapFinalize_idle {d : Dev} {n : Fin 2} (h : d.heads[n].pendL = none) : mapFinalize n d = d := by
  unfold mapFinalize
  rw [h]

theorem mapFinalize_eq {d : Dev} {n : Fin 2} {l lo z : Int} (hl : d.heads[n].pendL = some l) (hlo : d.heads[n].kLo = some lo)
    (hz : d.heads[n].finalK = some z) :
    mapFinalize n d = (rowsFinal d n (max lo (z + 1)) (min 512 (l / (max 1 (headCfg d n (THERM.CELL.AW n)) : Nat) -
      max lo (z + 1)).toNat)).updHead n fun h => { h with pendL := none } := by
  unfold mapFinalize
  rw [hl, hlo, hz, Nat.cast_max, Nat.cast_one]
  rfl

theorem mapFinalize_finals {d : Dev} {n : Fin 2} {l lo z first : Int} {cnt : Nat} (hl : d.heads[n].pendL = some l)
    (hlo : d.heads[n].kLo = some lo) (hz : d.heads[n].finalK = some z) (hfirst : first = max lo (z + 1))
    (hcnt : cnt = min 512 (l / (max 1 (headCfg d n (THERM.CELL.AW n)) : Nat) - first).toNat) :
    (mapFinalize n d).heads[n].pendL = none ∧
    (∀ k : Nat, k < cnt → ∃ r ∈ (mapFinalize n d).heads[n].finals,
      r.k = first + k ∧ r.cells.length = headCfg d n (THERM.MAP_CFG.XW_CELLS n)) ∧
    (∀ r ∈ d.heads[n].finals, r ∈ (mapFinalize n d).heads[n].finals) ∧
    (mapFinalize n d).heads[n].finalK = some (if cnt = 0 then z else first + cnt - 1) ∧
    d.OnlyHead (mapFinalize n d) n [THERM.MAP_K_LO.K n, THERM.MAP_K_HI.K n] := by
  obtain ⟨hrows, hold⟩ := rowsFinal_finals d n first cnt
  rw [mapFinalize_eq hl hlo hz, ← hfirst, ← hcnt, updHead_heads]
  refine ⟨rfl, hrows, hold, ?_, ((rowsFinal_kept d n first cnt).2.updHead _).onlyHead (List.Subset.refl _)⟩
  refine (rowsFinal_finalK d n first cnt).trans ?_
  rw [hz, apply_ite some]

/-! ## MAP_ROW_FETCH -/

theorem mapRowFetch_unready {d : Dev} {n : Fin 2} {k : Int} (h : ∀ r ∈ d.heads[n].finals, r.k ≠ k) : mapRowFetch n k d = d := by
  have hnone : (d.heads[n].finals.any fun r => r.k == k) = false := by
    simpa only [List.any_eq_false, beq_iff_eq] using h
  unfold mapRowFetch
  simp only [hnone, Bool.false_and, Bool.false_eq_true, if_false]

/-- The last entry of a list stays when all but its last 8 are dropped. -/
theorem mem_drop_of_getLast {α : Type} (l : List α) (a : α) : a ∈ (l ++ [a]).drop ((l ++ [a]).length - 8) := by
  have hle : (l ++ [a]).length - 8 ≤ l.length := by
    rw [List.length_append, List.length_singleton]
    omega
  rw [List.drop_append_of_le_length hle]
  exact List.mem_append_right _ (List.mem_singleton_self a)

theorem mapRowFetch_fetches {d : Dev} {n : Fin 2} {k : Int} (hfinal : ∃ r ∈ d.heads[n].finals, r.k = k)
    (hdeg : d.on (THERM.STATUS.DEGRADED n) = false) (hlast : d.heads[n].lastRow = some k) :
    k ∈ (mapRowFetch n k d).heads[n].buf ∧ (mapRowFetch n k d).regs = d.regs ∧ d.OnlyHead (mapRowFetch n k d) n [] := by
  have hany : (d.heads[n].finals.any fun r => r.k == k) = true := by
    simpa only [List.any_eq_true, beq_iff_eq] using hfinal
  unfold mapRowFetch
  simp only [hany, hdeg, hlast, Option.elim_some]
  split
  · rw [updHead_heads]
    refine ⟨?_, rfl, ((Dev.HeadKept.refl d n _).updHead _).onlyHead (List.Subset.refl _)⟩
    rw [hlast, List.filter_append]
    have hself : [k].filter (fun z => decide (k ≤ z)) = [k] := by simp
    simp only [Option.elim_some, hself]
    exact mem_drop_of_getLast _ k
  · next hheld =>
    have hbuf : k ∈ d.heads[n].buf := by simpa [-Fin.getElem_fin] using hheld
    exact ⟨hbuf, rfl, (Dev.HeadKept.refl d n _).onlyHead (List.Subset.refl _)⟩

end Sys2Proof.Machine
end

section
/-! SUPPORT. The NUC banks of a thermal head (R156 to R158): their checks and their writes. -/

namespace Sys2Proof.Machine

/-! ## NUC_VERIFY and NUC_VERIFY_DONE -/

theorem nucVerify_waits {d : Dev} {n bank : Fin 2} (h : bank.val ∈ d.heads[n].verify) : nucVerify n bank d = d :=
  if_pos (List.contains_iff_mem.2 h)

theorem nucVerify_queues {d : Dev} {n bank : Fin 2} (h : bank.val ∉ d.heads[n].verify) :
    (nucVerify n bank d).rd (THERM.TBL_STAT.VBUSY n) = 1 ∧ (nucVerify n bank d).heads[n].verify = d.heads[n].verify ++ [bank.val] ∧
    d.OnlyHead (nucVerify n bank d) n [THERM.TBL_STAT.VBUSY n] := by
  have heq : nucVerify n bank d = (d.wr (THERM.TBL_STAT.VBUSY n) 1).updHead n fun h => { h with verify := h.verify ++ [bank.val] } :=
    if_neg fun hc => h (List.contains_iff_mem.1 hc)
  rw [heq, updHead_heads, Dev.rd_updHead]
  exact ⟨Dev.rd_wr_fits _ (by clear * -; decide +revert), rfl,
    (((Dev.HeadKept.refl d n _).wr (by simp) 1).updHead _).onlyHead (List.Subset.refl _)⟩

/-- What holds of both holds of a bank's. -/
theorem verifiedFld_ind {P : Fld → Prop} {n : Nat} (h0 : P (THERM.TBL_STAT.VERIFIED0 n)) (h1 : P (THERM.TBL_STAT.VERIFIED1 n)) (b : Nat) :
    P (verifiedFld n b) := by
  unfold verifiedFld
  split
  · exact h0
  · exact h1

/-- The registers that the end of a bank's check writes. -/
def verifyFields (n : Fin 2) : List Fld :=
  [THERM.TBL_STAT.VBUSY n, THERM.TBL_STAT.VERIFIED0 n, THERM.TBL_STAT.VERIFIED1 n, THERM.TBL_STAT.CHK_CAUSE n, THERM.U_MIN.U n,
    THERM.U_MAX.U n, Com.IRQ_RAW (Page.THERM n), Com.ERR_CNT (Page.THERM n)]

/-- Outside a load a check's end is the bank's own affair. -/
theorem verifyDone_plain {d : Dev} {n : Fin 2} (h : d.prof.verifying = false) (m : Memory) : verifyDone n m d = nucVerifyDone n m d := by
  unfold verifyDone
  rw [h]
  split <;> rfl

theorem verifyFields_page (n : Fin 2) : ∀ f ∈ verifyFields n, f.key / 131072 ∈ [Page.THERM n] := by decide +revert

/-- The registers that tell of a check's end, whatever its verdict. -/
def tellFields (n : Fin 2) : List Fld :=
  [THERM.U_MIN.U n, THERM.U_MAX.U n, Com.IRQ_RAW (Page.THERM n), Com.ERR_CNT (Page.THERM n)]

/-- The live bank's range shown, and the interrupt. -/
def verifyTold (m : Memory) (d : Dev) (n : Fin 2) : Dev := showU m (d.irq (Page.THERM n) THERM.irq.VERIFY_DONE) n

theorem verifyTold_kept (m : Memory) (d : Dev) (n : Fin 2) : d.HeadKept (verifyTold m d n) n (· ∈ (tellFields n).map Fld.key) :=
  (((Dev.HeadKept.refl d n _).irq (by simp [tellFields]) (by simp [tellFields]) _).wr (by simp [tellFields]) _).wr (by simp [tellFields]) _

theorem verifyTold_heads (m : Memory) (d : Dev) (n : Fin 2) : (verifyTold m d n).heads = d.heads := Dev.irq_heads _ _ _

theorem verifyTold_irq (m : Memory) (d : Dev) (n : Fin 2) :
    bitOf ((verifyTold m d n).rd (Com.IRQ_RAW (Page.THERM n))) THERM.irq.VERIFY_DONE = true := by
  unfold verifyTold showU Dev.wrS
  dsimp only
  rw [Dev.rd_wr_other _ _ _ _ (by clear * -; decide +revert), Dev.rd_wr_other _ _ _ _ (by clear * -; decide +revert),
    Dev.bitOf_irq _ _ _ (by decide)]
  rfl

/-- A bank's verdict shown: its VERIFIED, or the cause (R158). -/
def bankVerdict (d : Dev) (n : Fin 2) (b : Nat) (good : Bool) : Dev :=
  if good then d.wr (verifiedFld n b) 1 else d.wr (THERM.TBL_STAT.CHK_CAUSE n) 6

theorem rd_bankVerdict_busy (d : Dev) (n : Fin 2) (b : Nat) (good : Bool) :
    (bankVerdict d n b good).rd (THERM.TBL_STAT.VBUSY n) = d.rd (THERM.TBL_STAT.VBUSY n) := by
  cases good with
  | true =>
    refine Dev.rd_wr_other _ _ _ _ (verifiedFld_ind (P := fun g => (THERM.TBL_STAT.VBUSY n).key ≠ g.key) ?_ ?_ b)
    · clear * -; decide +revert
    · clear * -; decide +revert
  | false => exact Dev.rd_wr_other _ _ _ _ (by clear * -; decide +revert)

/-- A good bank's VERIFIED reads 1. -/
theorem rd_bankVerdict_good (d : Dev) (n : Fin 2) (b : Nat) : (bankVerdict d n b true).rd (verifiedFld n b) = 1 :=
  Dev.rd_wr_fits _ (verifiedFld_ind (P := fun g => 1 < 2 ^ g.width) Nat.one_lt_two Nat.one_lt_two b)

theorem rd_bankVerdict_bad (d : Dev) (n : Fin 2) (b : Nat) : (bankVerdict d n b false).rd (THERM.TBL_STAT.CHK_CAUSE n) = 6 :=
  Dev.rd_wr_fits _ (by clear * -; decide +revert)

theorem bankVerdict_heads (d : Dev) (n : Fin 2) (b : Nat) (good : Bool) : (bankVerdict d n b good).heads = d.heads := by
  cases good <;> rfl

theorem bankVerdict_kept (d : Dev) (n : Fin 2) (b : Nat) (good : Bool) :
    d.HeadKept (bankVerdict d n b good) n (· ∈ (verifyFields n).map Fld.key) := by
  cases good with
  | true =>
    refine (Dev.HeadKept.refl d n _).wr ?_ 1
    exact verifiedFld_ind (P := fun g => g.key ∈ (verifyFields n).map Fld.key) (by simp [verifyFields]) (by simp [verifyFields]) b
  | false => exact (Dev.HeadKept.refl d n _).wr (by simp [verifyFields]) 6

theorem nucVerifyDone_eq {d : Dev} {n : Fin 2} {b : Nat} {rest : List Nat} (h : d.heads[n].verify = b :: rest) (m : Memory) :
    nucVerifyDone n m d = verifyTold m (bankVerdict ((d.wrB (THERM.TBL_STAT.VBUSY n) (!rest.isEmpty)).updHead n fun h =>
      { h with verify := rest }) n b (nucGood m (nucBase n b))) n := by
  unfold nucVerifyDone verifyTold bankVerdict
  rw [h]

theorem nucVerifyDone_spec {d : Dev} {n : Fin 2} {b : Nat} {rest : List Nat} (h : d.heads[n].verify = b :: rest) (m : Memory) :
    (nucVerifyDone n m d).rd (THERM.TBL_STAT.VBUSY n) = b2n (!rest.isEmpty) ∧ (nucVerifyDone n m d).heads[n].verify = rest ∧
    (nucGood m (nucBase n b) = true → (nucVerifyDone n m d).rd (verifiedFld n b) = 1) ∧
    (nucGood m (nucBase n b) = false → (nucVerifyDone n m d).rd (THERM.TBL_STAT.CHK_CAUSE n) = 6) ∧
    bitOf ((nucVerifyDone n m d).rd (Com.IRQ_RAW (Page.THERM n))) THERM.irq.VERIFY_DONE = true ∧
    d.HeadKept (nucVerifyDone n m d) n (· ∈ (verifyFields n).map Fld.key) := by
  rw [nucVerifyDone_eq h]
  generalize hd1 : ((d.wrB (THERM.TBL_STAT.VBUSY n) (!rest.isEmpty)).updHead n fun h => { h with verify := rest }) = d1
  have hbusy : d1.rd (THERM.TBL_STAT.VBUSY n) = b2n (!rest.isEmpty) := by
    rw [← hd1, Dev.rd_updHead]
    exact Dev.rd_wr_fits _ (by generalize (!rest.isEmpty) = more; clear * -; decide +revert)
  have hqueue : d1.heads[n].verify = rest := by rw [← hd1, updHead_heads]
  have hkept : d.HeadKept d1 n (· ∈ (verifyFields n).map Fld.key) := by
    rw [← hd1]
    exact ((Dev.HeadKept.refl d n _).wr (by simp [verifyFields]) _).updHead _
  generalize hd2 : bankVerdict d1 n b (nucGood m (nucBase n b)) = d2
  have htold := (verifyTold_kept m d2 n).regs
  refine ⟨?_, ?_, fun hgood => ?_, fun hbad => ?_, verifyTold_irq m d2 n, ?_⟩
  · rw [htold _ (by clear * -; decide +revert), ← hd2, rd_bankVerdict_busy, hbusy]
  · rw [verifyTold_heads, ← hd2, bankVerdict_heads, hqueue]
  · have hkey : (verifiedFld n b).key ∉ (tellFields n).map Fld.key :=
      verifiedFld_ind (P := fun g => g.key ∉ (tellFields n).map Fld.key) (by clear * -; decide +revert) (by clear * -; decide +revert) b
    rw [htold _ hkey, ← hd2, hgood, rd_bankVerdict_good]
  · rw [htold _ (by clear * -; decide +revert), ← hd2, hbad, rd_bankVerdict_bad]
  · rw [← hd2]
    exact (hkept.trans (bankVerdict_kept d1 n b _)).trans ((verifyTold_kept m _ n).subset (by simp [verifyFields, tellFields]))

/-- The command's own step outside a load and outside the start: nothing follows the check. -/
theorem loadStep_verifyDone {d : Dev} {n : Fin 2} {b : Nat} {rest : List Nat} (h : d.heads[n].verify = b :: rest)
    (hload : d.prof.verifying = false) (hboot : d.pw.booting = false) (m : Memory) :
    loadStep (fun x => (verifyDone n x.2 x.1, x.2)) (d, m) = (nucVerifyDone n m d, m) := by
  obtain ⟨-, -, -, -, -, hkept⟩ := nucVerifyDone_spec h m
  have hstill : (nucVerifyDone n m d).pw.booting = false := by
    rw [hkept.rest]
    exact hboot
  unfold loadStep
  simp only [verifyDone_plain hload, hstill, Bool.false_and, Bool.false_eq_true, if_false]

/-! ## NUC_TABLE_WRITE -/

/-- An address in a bank of a head: it lies in the banks' region, and gives the head and the bank. -/
theorem nucBase_add_split (n bank : Fin 2) {o : Nat} (ho : o < 0x800000) :
    ¬ (nucBase n bank + o < 0x02000000 ∨ 0x04000000 ≤ nucBase n bank + o) ∧
    (nucBase n bank + o - 0x02000000) / 0x01000000 = n.val ∧ (nucBase n bank + o) / 0x00800000 % 2 = bank.val := by
  unfold nucBase
  omega

theorem nucBase_add_word (n bank o : Nat) : (nucBase n bank + 4 * o) / 4 * 4 = nucBase n bank + 4 * o := by
  unfold nucBase
  omega

/-- A word of a bank: refused with WR_LIVE on the live bank and on a busy head, else stored and the bank no longer verified (R156). -/
theorem nucTableWrite_bank {d : Dev} (hmem : d.on MEM.STATUS.DEGRADED = false) (n bank : Fin 2) {o : Nat} (ho : o < 0x800000) (w : Word32)
    (m : Memory) : nucTableWrite (nucBase n bank + o) w (d, m) =
      if d.rd (THERM.CTL.BANK n) = bank.val ∨ d.on (THERM.TBL_STAT.BANK_BUSY n) then (d.wr (THERM.TBL_STAT.WR_LIVE n) 1, m)
      else (d.wr (verifiedFld n bank) 0, m.put32 ((nucBase n bank + o) / 4 * 4) w.toNat) := by
  obtain ⟨hin, hhead, hbank⟩ := nucBase_add_split n bank ho
  unfold nucTableWrite
  simp only [hhead, hbank, hmem, hin, or_false, Bool.false_eq_true, if_false]

theorem nucTableWrite_stores {d : Dev} (hmem : d.on MEM.STATUS.DEGRADED = false) {n bank : Fin 2} {o : Nat} (ho : o < 0x200000)
    (hlive : d.rd (THERM.CTL.BANK n) ≠ bank.val) (hbusy : d.on (THERM.TBL_STAT.BANK_BUSY n) = false) (w : Word32) (m : Memory) :
    nucTableWrite (nucBase n bank + 4 * o) w (d, m) =
      (d.wr (verifiedFld n bank) 0, m.put32 (nucBase n bank + 4 * o) w.toNat) := by
  rw [nucTableWrite_bank hmem n bank (by omega), if_neg (by simp [hlive, hbusy]), nucBase_add_word]

theorem nucTableWrite_live {d : Dev} (hmem : d.on MEM.STATUS.DEGRADED = false) {n bank : Fin 2} {o : Nat} (ho : o < 0x800000)
    (hlive : d.rd (THERM.CTL.BANK n) = bank.val) (w : Word32) (m : Memory) :
    nucTableWrite (nucBase n bank + o) w (d, m) = (d.wr (THERM.TBL_STAT.WR_LIVE n) 1, m) := by
  rw [nucTableWrite_bank hmem n bank ho, if_pos (.inl hlive)]

/-! ## The statement -/

/-- Settles O24: rows made final and fetched, and the banks' checks and writes, each in the forms named. -/
theorem mapAndNucBanks : Obligations.MapAndNucBanks := by
  refine ⟨fun s n hup h => gives_of_onDev rfl hup (mapFinalize_idle h),
    fun s n l lo z first cnt hup hl hlo hz hfirst hcnt => gives_of_onDev rfl hup (mapFinalize_finals hl hlo hz hfirst hcnt),
    fun s n k hup hfinal hdeg hlast => gives_of_onDev rfl hup (mapRowFetch_fetches hfinal hdeg hlast),
    fun s n k hup h => gives_of_onDev rfl hup (mapRowFetch_unready h),
    fun s n bank hup h => gives_of_onDev rfl hup (nucVerify_queues h),
    fun s n bank hup h => gives_of_onDev rfl hup (nucVerify_waits h),
    fun s n b rest hup hq hload hboot => ?_, fun s n bank o w hup ho hmem hlive hbusy => completes_of_onBoth rfl hup ?_,
    fun s n bank o w hup ho hmem hlive => ?_⟩
  · obtain ⟨hbusy, hqueue, hgood, hbad, hirq, hkept⟩ := nucVerifyDone_spec hq s.mem
    have heq := loadStep_verifyDone hq hload hboot s.mem
    refine gives_of_onBoth rfl hup (congrArg Prod.snd heq) ?_
    rw [heq]
    exact ⟨hbusy, hqueue, hgood, hbad, hirq, Dev.KeepsRegs.keepsPages hkept.regs (verifyFields_page n)⟩
  · rw [nucTableWrite_stores hmem ho hlive hbusy]
    exact ⟨Memory.stored_store _ _ _, Dev.rd_wr_fits _ (Nat.two_pow_pos _), rfl, (Dev.KeepsKeys.refl s.dev _).wr (by simp) 0⟩
  · have heq := nucTableWrite_live hmem ho hlive w s.mem
    refine gives_of_onBoth rfl hup (congrArg Prod.snd heq) ?_
    rw [heq]
    exact ⟨Dev.rd_wr_fits _ (by clear * -; decide +revert), rfl, (Dev.KeepsKeys.refl s.dev _).wr (by simp) 1⟩

end Sys2Proof.Machine
end

section
/-! SUPPORT. Seam groups (R203 to R205, R215): the class of a group, and its merge record on its way into the tag stream (R216 to R220). -/

namespace Sys2Proof.Machine

/-! ## Records entering the tag stream -/

/-- From `d` to `e` only the tag stream and registers of its page changed. -/
structure Dev.TagKept (d e : Dev) : Prop where
  rest : e = { d with regs := e.regs, tags := e.tags }
  regs : d.KeepsKeys e (· / 131072 ∈ [Page.TAG])

namespace Dev.TagKept
variable {d e : Dev}

theorem refl (d : Dev) : d.TagKept d := ⟨rfl, .refl _ _⟩

theorem trans {e' : Dev} (h : d.TagKept e) (h' : e.TagKept e') : d.TagKept e' := ⟨by rw [h'.rest, h.rest], h.regs.trans h'.regs⟩

theorem of_onlyKeys (h : d.OnlyKeys e (· / 131072 ∈ [Page.TAG])) : d.TagKept e := ⟨by rw [h.1], h.2⟩

theorem updTags (h : d.TagKept e) (g : TagPath → TagPath) : d.TagKept (e.updTags g) := h.trans ⟨rfl, .of_regs (.refl e _) rfl⟩

theorem passSseq (h : d.TagKept e) (r : StreamRec) : d.TagKept (passSseq e r) :=
  (h.updTags _).trans (of_onlyKeys ((OnlyKeys.refl _ _).wr (f := TAG.SSEQ.NEXT) (by decide) _))

theorem dropOldest (h : d.TagKept e) : d.TagKept (dropOldest e) := by
  have hlost : d.TagKept ((e.inc TAG.HOST_LOST_CNT.CNT).irq Page.TAG TAG.irq.HOST_LOST) :=
    h.trans (of_onlyKeys (((OnlyKeys.refl e _).inc (by decide)).irq (by decide) (by decide) _))
  unfold Machine.dropOldest
  extract_lets d1
  split
  · exact hlost.updTags _
  · exact hlost.passSseq _
  · exact hlost

theorem makeRoom (h : d.TagKept e) (n fuel : Nat) : d.TagKept (makeRoom n fuel e) := by
  induction fuel generalizing e with
  | zero => exact h
  | succ fuel ih =>
    rw [Machine.makeRoom]
    split
    · exact ih h.dropOldest
    · exact h

theorem tagPut (h : d.TagKept e) (type blob close : Nat) (words : List Nat) (tagOf : Option Nat) :
    d.TagKept (tagPut e type blob close words tagOf) := by
  unfold Machine.tagPut
  split
  · exact h
  · exact ((h.makeRoom _ _).updTags _).trans (of_onlyKeys ⟨(hqShow_only _).1, hqShow_keeps _⟩)

end Dev.TagKept

/-! ## The merge record -/

/-- The registers of page SEG that a merge record may write. -/
def mergeFields : List Fld := [SEG.MERGE_REC_CNT.CNT, SEG.MERGE_PARTIAL_CNT.CNT, Com.IRQ_RAW Page.SEG, Com.ERR_CNT Page.SEG]

/-- The keys of those registers and of page TAG. -/
def mergeKey (k : Nat) : Prop := k ∈ mergeFields.map Fld.key ∨ k / 131072 ∈ [Page.TAG]

theorem mergeKey_page {k : Nat} (h : mergeKey k) : k / 131072 ∈ [Page.SEG, Page.TAG] := by
  rcases h with hk | hk
  · exact List.mem_cons.2 (.inl ((by decide : ∀ k ∈ mergeFields.map Fld.key, k / 131072 = Page.SEG) k hk))
  · exact List.mem_cons_of_mem _ hk

/-- A merge record leaves: its group goes and no other, it is counted, and once more as PARTIAL where its group was cut short. -/
theorem emitMerge_spec (d : Dev) (g : Group) (status cls : Nat) :
    (emitMerge d g status cls).seg.groups = d.seg.groups.filter (fun q => q.members != g.members) ∧
    d.Counted (emitMerge d g status cls) SEG.MERGE_REC_CNT.CNT ∧
    (status = 3 → d.Counted (emitMerge d g status cls) SEG.MERGE_PARTIAL_CNT.CNT) ∧ d.KeepsKeys (emitMerge d g status cls) mergeKey := by
  generalize he : emitMerge d g status cls = e
  unfold emitMerge at he
  extract_lets ws close d1 d2 d3 d4 at he
  have hfield {f : Fld} (hf : f ∈ mergeFields) : mergeKey f.key := .inl (List.mem_map_of_mem hf)
  have hpartial (b : Nat) : d2.OnlyRegs ((d2.inc SEG.MERGE_PARTIAL_CNT.CNT).irq Page.SEG b)
      [SEG.MERGE_PARTIAL_CNT.CNT, Com.IRQ_RAW Page.SEG, Com.ERR_CNT Page.SEG] :=
    ((Dev.OnlyKeys.refl d2 _).inc (by simp)).irq (by simp) (by simp) _
  have h3 : d2.OnlyRegs d3 [SEG.MERGE_PARTIAL_CNT.CNT, Com.IRQ_RAW Page.SEG, Com.ERR_CNT Page.SEG] :=
    Dev.OnlyKeys.ite _ (hpartial _) (.ite _ (hpartial _) (.refl _ _))
  have h4 : d3.TagKept d4 := .of_onlyKeys (.ite _ ((Dev.OnlyKeys.refl d3 _).inc (by decide)) (.refl _ _))
  have htag : d3.TagKept e := he ▸ h4.tagPut _ _ _ _ _
  refine ⟨?_, ?_, fun hs => ?_, ?_⟩
  · rw [htag.rest, h3.1]
    rfl
  · rw [Dev.Counted, htag.regs _ (by decide), h3.2 _ (by decide)]
    exact Dev.rd_inc_same d1 _
  · have hd3 : d3 = (d2.inc SEG.MERGE_PARTIAL_CNT.CNT).irq Page.SEG SEG.irq.MERGE_PARTIAL := if_pos hs
    rw [Dev.Counted, htag.regs _ (by decide), hd3, Dev.rd_irq_other _ _ _ _ (by decide) (by decide), Dev.rd_inc_same,
      ((Dev.KeepsKeys.refl d1 (· = SEG.MERGE_REC_CNT.CNT.key)).inc rfl : d1.KeepsKeys d2 _) _ (by decide)]
    rfl
  · have h1 : d.KeepsKeys d1 mergeKey := .of_regs (.refl d _) rfl
    have h3' : d2.KeepsKeys d3 mergeKey := Dev.KeepsKeys.mono h3.2 fun k hk => .inl (List.mem_cons_of_mem _ hk)
    exact ((h1.inc (hfield (by simp [mergeFields]))).trans h3').trans (htag.regs.mono fun k hk => .inr hk)

/-- A group that left in a record is no longer held; the others are. -/
theorem emitMerge_groups (d : Dev) (g : Group) (status cls : Nat) :
    (∀ q ∈ (emitMerge d g status cls).seg.groups, q.members ≠ g.members) ∧
    ∀ q ∈ d.seg.groups, q.members ≠ g.members → q ∈ (emitMerge d g status cls).seg.groups := by
  rw [(emitMerge_spec d g status cls).1]
  exact ⟨fun q hq => by simpa using (List.mem_filter.1 hq).2, fun q hq hne => List.mem_filter.2 ⟨hq, by simpa using hne⟩⟩

/-! ## The class of a group -/

/-- On sound memory the class of a group is read without a trace but its count (R276, R286). -/
theorem groupVerdict_sound {x : DM} (hchecks : x.2.checks = []) (hgone : x.1.integ.gone = []) (g : Group) :
    (groupVerdict x g).2 = (x.1.inc CLASS.GROUP_CNT.CNT, x.2) := by
  have hread (v : Fld → Nat) (feats : List Nat) : (verdictOf x v feats).2 = x := by
    simp only [verdictOf, readRange_sound hchecks hgone]
    split <;> rfl
  unfold groupVerdict
  dsimp only
  rw [hread]

/-- The groups with the class `w` given to those of the members of `g`. -/
def classGiven (gs : List Group) (g : Group) (w : Nat) : List Group :=
  gs.map fun q => if q.members == g.members then { q with cls := some w } else q

theorem classGiven_members {gs : List Group} {g q : Group} {w : Nat} (hq : q ∈ classGiven gs g w) (hm : q.members = g.members) : q.cls = some w := by
  obtain ⟨p, -, rfl⟩ := List.mem_map.1 hq
  split at hm
  · rw [if_pos ‹_›]
  · exact absurd (beq_iff_eq.2 hm) ‹_›

theorem mem_classGiven_of_ne {gs : List Group} {g q : Group} (hq : q ∈ gs) (hm : q.members ≠ g.members) (w : Nat) : q ∈ classGiven gs g w :=
  List.mem_map.2 ⟨q, hq, if_neg (by simpa using hm)⟩

theorem groupClassify_idle {x : DM}
    (h : x.1.seg.groups.find? (fun g => g.cls.isNone && g.complete x.1.seg && g.status x.1 false != 2) = none) : groupClassify x = x := by
  simp only [groupClassify, h]

theorem groupClassify_gives {x : DM} (hchecks : x.2.checks = []) (hgone : x.1.integ.gone = []) {g : Group}
    (h : x.1.seg.groups.find? (fun g => g.cls.isNone && g.complete x.1.seg && g.status x.1 false != 2) = some g) :
    groupClassify x = ((x.1.inc CLASS.GROUP_CNT.CNT).updSeg fun s => { s with groups := classGiven s.groups g (groupVerdict x g).1 }, x.2) := by
  simp only [groupClassify, h, groupVerdict_sound hchecks hgone]
  rfl

/-! ## MERGE_RECORD and MERGE_TIMEOUT -/

theorem mergeRecord_idle {d : Dev} (h : d.seg.groups.find? (fun g => g.complete d.seg && (g.cls.isSome || g.status d false == 2)) = none) :
    mergeRecord d = d := by
  simp only [mergeRecord, h]

theorem mergeRecord_sends {d : Dev} {g : Group}
    (h : d.seg.groups.find? (fun g => g.complete d.seg && (g.cls.isSome || g.status d false == 2)) = some g) :
    mergeRecord d = emitMerge d g (g.status d false) (if g.status d false = 2 then 0 else g.cls.getD 0) := by
  simp only [mergeRecord, h]

theorem mergeTimeout_none {x : DM} {piece : Nat} (h : ∀ g ∈ x.1.seg.groups, piece ∉ g.members) : mergeTimeout piece x = x := by
  have hnone : x.1.seg.groups.find? (fun g => g.members.contains piece) = none := List.find?_eq_none.2 fun g hg => by simpa using h g hg
  simp only [mergeTimeout, hnone]

/-- An incomplete group whose own pieces have closed leaves PARTIAL once its time is over. -/
theorem mergeTimeout_sends {x : DM} (hchecks : x.2.checks = []) (hgone : x.1.integ.gone = []) {piece : Nat} {g : Group}
    (hg : x.1.seg.groups.find? (fun g => g.members.contains piece) = some g) (hclosed : g.closed ≠ []) (hpart : g.complete x.1.seg = false)
    (hown : ∀ b ∈ x.1.seg.blobs, b.id ∉ g.members) (htime : g.lastClose + 16000 * x.1.rd SEG.MERGE_TIMEOUT.US ≤ x.1.now) :
    mergeTimeout piece x = (emitMerge ((x.1.inc CLASS.GROUP_CNT.CNT).wr SEG.STATUS.HI_RX 0) g 3 (groupVerdict x g).1, x.2) := by
  have hopen : (g.members.any fun i => x.1.seg.blobs.any fun b => b.id == i) = false := by
    rw [List.any_eq_false]
    intro i hi hany
    obtain ⟨b, hb, hid⟩ := List.any_eq_true.1 hany
    exact hown b hb (beq_iff_eq.1 hid ▸ hi)
  have hempty : g.closed.isEmpty = false := by simpa using hclosed
  have hdue : decide (x.1.now < g.lastClose + 16000 * x.1.rd SEG.MERGE_TIMEOUT.US) = false := by simpa using htime
  simp only [mergeTimeout, hg, hempty, hpart, hopen, hdue, Bool.or_self, Bool.false_eq_true, if_false, groupVerdict_sound hchecks hgone]

/-! ## The statement -/

/-- Settles O29: groups classified, sent and timed out on sound memory. -/
theorem mergeRecordsLeave : Obligations.MergeRecordsLeave := by
  refine ⟨fun s g hup hsound hg => ?_, fun s hup h => ?_, fun s g hup hg => gives_of_onDev rfl hup ?_,
    fun s hup h => gives_of_onDev rfl hup (mergeRecord_idle h), fun s piece g hup hsound hg hclosed hpart hown htime => ?_,
    fun s piece hup h => ?_⟩
  · obtain ⟨hchecks, hgone⟩ := hsound
    have heq := groupClassify_gives (x := (s.dev, s.mem)) hchecks hgone hg
    refine gives_of_onBoth rfl hup (congrArg Prod.snd heq) ?_
    rw [heq]
    exact ⟨Dev.rd_inc_same s.dev _, fun q hq hm => classGiven_members hq hm, fun q hq hm => mem_classGiven_of_ne hq hm _, List.length_map _,
      ((Dev.KeepsKeys.refl s.dev _).inc (f := CLASS.GROUP_CNT.CNT) (by simp)).of_regs rfl⟩
  · have heq := groupClassify_idle (x := (s.dev, s.mem)) h
    exact gives_of_onBoth rfl hup (congrArg Prod.snd heq) (congrArg Prod.fst heq)
  · rw [mergeRecord_sends hg]
    obtain ⟨-, hcount, -, hkeep⟩ := emitMerge_spec s.dev g (g.status s.dev false) (if g.status s.dev false = 2 then 0 else g.cls.getD 0)
    obtain ⟨hgone, hothers⟩ := emitMerge_groups s.dev g (g.status s.dev false) (if g.status s.dev false = 2 then 0 else g.cls.getD 0)
    exact ⟨hgone, hothers, hcount, hkeep.mono fun _ hk => mergeKey_page hk⟩
  · obtain ⟨hchecks, hgone⟩ := hsound
    have heq := mergeTimeout_sends (x := (s.dev, s.mem)) hchecks hgone hg hclosed hpart hown htime
    refine gives_of_onBoth rfl hup (congrArg Prod.snd heq) ?_
    rw [heq]
    have hbefore : s.dev.KeepsRegs ((s.dev.inc CLASS.GROUP_CNT.CNT).wr SEG.STATUS.HI_RX 0) [CLASS.GROUP_CNT.CNT, SEG.STATUS.HI_RX] :=
      ((Dev.KeepsKeys.refl s.dev _).inc (by simp)).wr (by simp) 0
    have hzero : ((s.dev.inc CLASS.GROUP_CNT.CNT).wr SEG.STATUS.HI_RX 0).rd SEG.STATUS.HI_RX = 0 := Dev.rd_wr_same _ _ _
    generalize (s.dev.inc CLASS.GROUP_CNT.CNT).wr SEG.STATUS.HI_RX 0 = d at hbefore hzero ⊢
    obtain ⟨-, hcount, hpartial, hkeep⟩ := emitMerge_spec d g 3 (groupVerdict (s.dev, s.mem) g).1
    refine ⟨(emitMerge_groups d g 3 _).1, ?_, ?_, (hkeep _ (by unfold mergeKey; decide)).trans hzero, ?_⟩
    · rw [Dev.Counted, ← hbefore _ (by decide)]
      exact hpartial rfl
    · rw [Dev.Counted, ← hbefore _ (by decide)]
      exact hcount
    · have hpages : s.dev.KeepsPages d [Page.SEG, Page.CLASS, Page.TAG] := hbefore.keepsPages (by decide)
      exact (Dev.keepsPages_iff.1 hpages).trans (hkeep.mono fun k hk => List.Sublist.subset (by decide) (mergeKey_page hk))
  · have heq := mergeTimeout_none (x := (s.dev, s.mem)) h
    exact gives_of_onBoth rfl hup (congrArg Prod.snd heq) (congrArg Prod.fst heq)

end Sys2Proof.Machine
end

section
/-! SUPPORT. Segmentation: the blob table's registers (R198 to R200), what a snapshot copies while no read-out runs (R30), and geometry
changes that are all done (R193). -/

namespace Sys2Proof.Machine

/-! ## The registers of the blob table -/

/-- The registers in which the blob table shows itself. -/
def tableFields : List Fld :=
  [SEG.BLOB_STAT0.FREE, SEG.BLOB_STAT0.OPEN, SEG.BLOB_STAT1.CLOSED, SEG.BLOB_STAT1.HELD, SEG.FREE_MIN.N, SEG.STATUS.LOW_FREE,
    Com.IRQ_RAW Page.SEG, Com.ERR_CNT Page.SEG]

theorem tableFields_page : ∀ f ∈ tableFields, f.key / 131072 = Page.SEG := by decide

theorem segShow_only (d : Dev) : d.OnlyRegs (segShow d) tableFields := by
  have hfield {f : Fld} (hf : f ∈ tableFields) : f.key ∈ tableFields.map Fld.key := List.mem_map_of_mem hf
  unfold segShow
  extract_lets fr d1 d2 d3 low
  have h2 : d.OnlyRegs d2 tableFields :=
    ((((Dev.OnlyKeys.refl d _).wr (hfield (by simp [tableFields])) _).wr (hfield (by simp [tableFields])) _).wr
      (hfield (by simp [tableFields])) _).wr (hfield (by simp [tableFields])) _
  have h3 : d.OnlyRegs d3 tableFields := Dev.OnlyKeys.ite _ (Dev.OnlyKeys.wr h2 (hfield (by simp [tableFields])) _) h2
  exact (Dev.OnlyKeys.wr h3 (hfield (by simp [tableFields])) _).irqIf (hfield (by simp [tableFields])) (hfield (by simp [tableFields])) _ _

@[simp] theorem segShow_seg (d : Dev) : (segShow d).seg = d.seg := by rw [(segShow_only d).1]

@[simp] theorem segShow_tags (d : Dev) : (segShow d).tags = d.tags := by rw [(segShow_only d).1]

@[simp] theorem segShow_out (d : Dev) : (segShow d).out = d.out := by rw [(segShow_only d).1]

theorem segShow_keepsPages (d : Dev) {ps : List Nat} (h : Page.SEG ∈ ps) : d.KeepsPages (segShow d) ps :=
  (segShow_only d).2.keepsPages fun f hf => tableFields_page f hf ▸ h

/-! ## Copies of a snapshot -/

/-- From `d` to `e` only what a snapshot has copied changed, and no read-out runs. -/
structure Dev.CopiesOnly (d e : Dev) : Prop where
  rest : e = { d with snap := e.snap }
  jobs : e.snap.jobs = []

namespace Dev.CopiesOnly
variable {d e : Dev}

theorem refl (h : d.snap.jobs = []) : d.CopiesOnly d := ⟨rfl, h⟩

theorem snapReach (h : d.CopiesOnly e) (p w : Nat) (fs : List Fld) : d.CopiesOnly (e.snapReach p w fs) := by
  unfold Dev.snapReach
  split
  · have hjobs : (e.snapCopy (fs.filter lineCounter)).snap.jobs = [] := h.jobs
    simp only [snapAnswer, hjobs]
    exact ⟨by rw [h.rest]; rfl, rfl⟩
  · exact h

theorem ite (c : Prop) [Decidable c] {e' : Dev} (h : d.CopiesOnly e) (h' : d.CopiesOnly e') : d.CopiesOnly (if c then e else e') := by
  split
  · exact h
  · exact h'

theorem tailReach (h : d.CopiesOnly e) : d.CopiesOnly (tailReach e) := by
  unfold Machine.tailReach
  extract_lets s t cls form hand mark d1 d2 d3
  have h1 : d.CopiesOnly d1 := .ite _ ((h.snapReach _ _ _).snapReach _ _ _) h
  have h2 : d.CopiesOnly d2 := .ite _ ((h1.snapReach _ _ _).snapReach _ _ _) h1
  have h3 : d.CopiesOnly d3 := .ite _ (h2.snapReach _ _ _) h2
  exact .ite _ (h3.snapReach _ _ _) h3

theorem seg_eq (h : d.CopiesOnly e) : e.seg = d.seg := by rw [h.rest]

theorem stitch_eq (h : d.CopiesOnly e) : e.stitch = d.stitch := by rw [h.rest]

theorem cfg_eq (h : d.CopiesOnly e) (epoch : Nat) : e.cfg epoch = d.cfg epoch := cfg_of_regs (by rw [h.rest]) (by rw [h.rest]) epoch

end Dev.CopiesOnly

/-! ## Geometry changes -/

/-- A list of changes of which none is due is marked as it was. -/
theorem geoUpTo_settled {d : Dev} {w : Nat} (h : ∀ q ∈ d.seg.geo, q.2 = true ∨ w < q.1) : geoUpTo d w = d := by
  have hdue : ∀ q ∈ d.seg.geo, (!q.2 && decide (q.1 ≤ w)) = false := fun q hq => by
    rcases h q hq with hdone | hlater
    · simp [hdone]
    · simp [hlater]
  have hnone : d.seg.geo.filter (fun q => !q.2 && decide (q.1 ≤ w)) = [] := List.filter_eq_nil_iff.2 fun q hq => by simp [hdue q hq]
  have hsame : d.seg.geo.map (fun q => if (!q.2 && decide (q.1 ≤ w)) = true then (q.1, true) else q) = d.seg.geo := by
    conv_rhs => rw [← List.map_id d.seg.geo]
    exact List.map_congr_left fun q hq => if_neg (by simp [hdue q hq])
  unfold geoUpTo
  dsimp only
  rw [hnone, List.foldl_nil, Dev.updSeg, hsame]

/-- Under the set of the line before it a line leaves the open blobs without EPOCH_SPAN. -/
theorem segEpoch_same {d : Dev} {epoch : Nat} (h : ∀ w e k r, d.seg.prev = some (w, e, k, r) → e = epoch) : segEpoch d epoch = d := by
  unfold segEpoch
  split
  · rfl
  · rename_i p hp
    exact if_pos (h p.1 p.2.1 p.2.2.1 p.2.2.2 hp)

end Sys2Proof.Machine
end

section
/-! SUPPORT. The head of a web line in segmentation (R183, R187, R188): its thermal rows are looked up and its runs found. -/

namespace Sys2Proof.Machine

/-! ## Views that agree on segmentation -/

/-- Two views that agree on every field of page SEG and above. -/
def View.SameSeg (v v' : View) : Prop := ∀ f : Fld, 0x60000 ≤ f.addr → v f = v' f

namespace View.SameSeg
variable {v v' : View} (h : v.SameSeg v')
include h

theorem columnOf (bg : List SliceBg) (l : WebLine) (f i : Nat) : columnOf v bg l f i = columnOf v' bg l f i := by
  simp only [Machine.columnOf, h SEG.CTL.SUSP (by decide), h SEG.SPREAD_FLOOR.FLOOR (by decide),
    h (SEG.FAM_CTL.POL f) (by simp only [SEG.FAM_CTL.POL, fld]; omega),
    h (SEG.FAM_LO.FLOOR f) (by simp only [SEG.FAM_LO.FLOOR, fld]; omega), h (SEG.FAM_LO.K f) (by simp only [SEG.FAM_LO.K, fld]; omega),
    h (SEG.FAM_HI.FLOOR f) (by simp only [SEG.FAM_HI.FLOOR, fld]; omega), h (SEG.FAM_HI.K f) (by simp only [SEG.FAM_HI.K, fld]; omega)]

theorem famRuns (bg : List SliceBg) (l : WebLine) (f : Nat) : famRuns v bg l f = famRuns v' bg l f := by
  simp only [Machine.famRuns, h.columnOf, h SEG.CTL.SUSP (by decide), h (SEG.FAM_CTL.MIN_RUN f) (by simp only [SEG.FAM_CTL.MIN_RUN, fld]; omega)]

theorem lineRuns (bg : List SliceBg) (l : WebLine) : lineRuns v bg l = lineRuns v' bg l := by
  have hen (f : Nat) : v (SEG.FAM_CTL.EN f) = v' (SEG.FAM_CTL.EN f) := h _ (by simp only [SEG.FAM_CTL.EN, fld]; omega)
  simp only [Machine.lineRuns, hen, h.famRuns]

end View.SameSeg

/-! ## The thermal rows -/

/-- The counters of a row that is late or has expired. -/
def lookupFields (n : Fin 2) : List Fld := [THERM.EXPIRED_CNT.CNT n, THERM.LATE_CNT.CNT n]

theorem lookupFields_key (n : Fin 2) : ∀ k ∈ (lookupFields n).map Fld.key, k < 32 * 0x60000 ∧ k ≠ WEB.EPOCH_STATUS.STATE.key := by
  decide +revert

theorem thermalLookup_kept (d : Dev) (n : Fin 2) (pos : Nat) : d.HeadKept (thermalLookup d n pos).2 n (· ∈ (lookupFields n).map Fld.key) := by
  unfold thermalLookup
  extract_lets h k d1
  have h1 : d.HeadKept d1 n (· ∈ (lookupFields n).map Fld.key) := (Dev.HeadKept.refl d n _).updHead _
  have hlate := h1.inc (f := THERM.LATE_CNT.CNT n) (by simp [lookupFields])
  split
  · exact h1
  · split
    · exact h1.inc (by simp [lookupFields])
    · split
      · split
        · exact h1
        · exact hlate
      · exact hlate

/-- Both heads' rows looked up: segmentation, the stitch stage and the sets stand, and the set's fields of segmentation read as before. -/
theorem thermalLookups_kept (d : Dev) (pos : Nat) :
    let e := (thermalLookup (thermalLookup d 0 pos).2 1 pos).2
    e.seg = d.seg ∧ e.stitch = d.stitch ∧ ∀ epoch, View.SameSeg (e.cfg epoch) (d.cfg epoch) := by
  have h0 := thermalLookup_kept d 0 pos
  generalize (thermalLookup d 0 pos).2 = d0 at h0 ⊢
  have h1 := thermalLookup_kept d0 1 pos
  dsimp only
  generalize (thermalLookup d0 1 pos).2 = d1 at h1 ⊢
  have hview {d e : Dev} {n : Fin 2} (h : d.HeadKept e n (· ∈ (lookupFields n).map Fld.key)) (epoch : Nat) :
      View.SameSeg (e.cfg epoch) (d.cfg epoch) := fun f hf =>
    h.regs.cfg (by rw [h.rest]) (fun hk => (lookupFields_key n _ hk).2 rfl) epoch fun hk => by
      have hlt := (lookupFields_key n _ hk).1
      unfold Fld.key at hlt
      omega
  exact ⟨by rw [h1.rest, h0.rest], by rw [h1.rest, h0.rest], fun epoch f hf => (hview h1 epoch f hf).trans (hview h0 epoch f hf)⟩

/-! ## SEG_LINE_HEAD -/

/-- The runs a line brings under the background of the device: none with EN clear and none in warm-up (R185, R187). -/
def headRuns (d : Dev) (g : WebLine) : List SegRun :=
  if d.cfg g.epoch SEG.CTL.EN = 0 ∨ d.seg.since < d.cfg g.epoch SEG.BG.WARM then [] else lineRuns (d.cfg g.epoch) d.seg.bg g

theorem headRuns_congr {d e : Dev} (hseg : e.seg = d.seg) {g : WebLine} (hview : View.SameSeg (e.cfg g.epoch) (d.cfg g.epoch)) :
    headRuns e g = headRuns d g := by
  rw [headRuns, headRuns, hseg, hview.lineRuns, hview SEG.CTL.EN (by decide), hview SEG.BG.WARM (by decide)]

theorem segLineHead_idle {d : Dev} (h : d.stitch.toSeg = [] ∨ d.seg.cur ≠ none) : segLineHead d = d := by
  unfold segLineHead
  split
  · rename_i hl hc
    rcases h with h | h
    · exact absurd (hl.symm.trans h) nofun
    · exact absurd hc h
  · rfl

/-- The line enters with its runs, and nothing else of segmentation changes. -/
theorem segLineHead_enters {d : Dev} {g : WebLine} {rest : List WebLine} (hline : d.stitch.toSeg = g :: rest) (hcur : d.seg.cur = none)
    (hjobs : d.snap.jobs = []) (hprev : ∀ w e k r, d.seg.prev = some (w, e, k, r) → e = g.epoch)
    (hgeo : ∀ q ∈ d.seg.geo, q.2 = true ∨ g.wln < q.1) :
    ∃ q : SegLine, (segLineHead d).seg = { d.seg with cur := some q } ∧ (segLineHead d).stitch.toSeg = rest ∧ q.line = g ∧ q.taken = [] ∧
      q.runs = (headRuns d g).take 4096 := by
  generalize he : segLineHead d = e
  unfold segLineHead at he
  rw [hline, hcur] at he
  simp -zeta only at he
  rw [geoUpTo_settled (d := d.updStitch fun s => { s with toSeg := rest }) hgeo,
    segEpoch_same (d := d.updStitch fun s => { s with toSeg := rest }) hprev] at he
  extract_lets d1 d2 v runs excess d4 headRun q d5 at he
  have h1 : d1.CopiesOnly d1 := .refl hjobs
  have h2 : d1.CopiesOnly d2 := (h1.snapReach _ _ _).snapReach _ _ _
  have hseg2 : d2.seg = d.seg := h2.seg_eq
  have hstitch2 : d2.stitch = { d.stitch with toSeg := rest } := h2.stitch_eq
  have hview2 : d2.cfg g.epoch = d.cfg g.epoch := h2.cfg_eq g.epoch
  clear_value d2
  obtain ⟨hseg3, hstitch3, hview3⟩ := thermalLookups_kept d2 g.pos
  have hruns : runs = headRuns d g := by
    have hhead := headRuns_congr (hseg3.trans hseg2) (hview2 ▸ hview3 g.epoch)
    exact hhead
  have hkept : d5.seg = d.seg ∧ d5.stitch = { d.stitch with toSeg := rest } := by
    have h4 : d4.seg = d.seg ∧ d4.stitch = { d.stitch with toSeg := rest } := by
      simp only [d4]
      split
      · exact ⟨hseg3.trans hseg2, hstitch3.trans hstitch2⟩
      · rw [Dev.irq_seg, Dev.irq_stitch, Dev.addCnt_seg, Dev.addCnt_stitch]
        exact ⟨hseg3.trans hseg2, hstitch3.trans hstitch2⟩
    simp only [d5]
    split
    · rw [Dev.updTwin_seg, Dev.updTwin_stitch]
      exact h4
    · exact h4
  subst he
  refine ⟨q, ?_, ?_, rfl, rfl, ?_⟩
  · rw [Dev.updSeg_seg, hkept.1]
  · rw [Dev.updSeg_stitch, hkept.2]
  · exact congrArg (List.take 4096) hruns

end Sys2Proof.Machine
end

section
/-! SUPPORT. Runs and blobs (R188, R189, R198): a run that starts a blob, one that joins a blob and one that is dropped; restarts. -/

namespace Sys2Proof.Machine

/-! ## New blobs -/

/-- The blob a run or a continuation starts. -/
def freshBlob (d : Dev) (l : SegLine) (f : Nat) (frontier : List (Int × Int)) (flags : Nat) (pred : Option Nat) : Blob where
  id := 2 ^ 29 * d.slot + d.seg.ord % 2 ^ 29
  ord := d.seg.ord
  fam := f
  first := l.line.wln
  last := l.line.wln
  p0 := linePos l.line
  p1 := linePos l.line
  frontier := frontier
  adj := []
  next := []
  held := 0
  flags := flags
  pred := pred
  headRun := false
  taken := false
  acc := accZero

theorem newBlob_spec (d : Dev) (l : SegLine) (f : Nat) (frontier : List (Int × Int)) (flags : Nat) (pred : Option Nat) :
    (newBlob d l f frontier flags pred).seg =
      { d.seg with blobs := d.seg.blobs ++ [freshBlob d l f frontier flags pred], ord := d.seg.ord + 1 } ∧
    (newBlob d l f frontier flags pred).out = d.out ∧ d.Counted (newBlob d l f frontier flags pred) SEG.BLOBS_STARTED.CNT ∧
    d.KeepsPages (newBlob d l f frontier flags pred) [Page.SEG] := by
  unfold newBlob
  extract_lets id b
  refine ⟨segShow_seg _, segShow_out _, ?_, ?_⟩
  · rw [Dev.Counted, (segShow_only _).2 _ (by decide)]
    exact Dev.rd_inc_same d _
  · have hcount : d.KeepsKeys ((d.inc SEG.BLOBS_STARTED.CNT).updSeg fun s => { s with blobs := s.blobs ++ [b], ord := s.ord + 1 })
        (· / 131072 ∈ [Page.SEG]) := ((Dev.KeepsKeys.refl d _).inc (by decide)).of_regs rfl
    exact hcount.trans (segShow_keepsPages _ (List.mem_singleton_self _))

/-! ## Runs that join -/

/-- A blob with a run of the line taken up. -/
def withRun (d : Dev) (v : View) (l : SegLine) (r : SegRun) (b : Blob) : Blob :=
  { b with next := b.next ++ [(r.a, r.b)], held := 0, flags := Nat.lor b.flags (runFlags v r)
           acc := accAdd b.acc (runAcc d v l r (l.line.wln - b.first)) }

theorem joinRun_blobs (d : Dev) (v : View) (l : SegLine) (r : SegRun) (ord : Nat) :
    (joinRun d v l r ord).seg.blobs = d.seg.blobs.map fun b => if b.ord == ord then withRun d v l r b else b := rfl

/-- Sums added to none are themselves. -/
theorem accAdd_zero (p : BlobAcc) : accAdd accZero p = p := by
  simp [accAdd, accZero]

theorem withRun_fresh (d e : Dev) (v : View) (l : SegLine) (r : SegRun) :
    (withRun e v l r (freshBlob d l r.fam [] 0 none)).next = [(r.a, r.b)] ∧
    (withRun e v l r (freshBlob d l r.fam [] 0 none)).flags = runFlags v r ∧
    (withRun e v l r (freshBlob d l r.fam [] 0 none)).acc.runs = 1 ∧
    (withRun e v l r (freshBlob d l r.fam [] 0 none)).acc.maxRun = (r.b + 1 - r.a).toNat :=
  ⟨rfl, Nat.zero_or _, by rw [withRun, freshBlob, accAdd_zero]; rfl, by rw [withRun, freshBlob, accAdd_zero]; rfl⟩

/-- Only the blob of the ordinal named takes the run. -/
theorem joinRun_last {d : Dev} {bs : List Blob} {b : Blob} {ord : Nat} (hblobs : d.seg.blobs = bs ++ [b]) (hb : b.ord = ord)
    (hbs : ∀ x ∈ bs, x.ord < ord) (v : View) (l : SegLine) (r : SegRun) :
    (joinRun d v l r ord).seg.blobs = bs ++ [withRun d v l r b] := by
  have hsame : bs.map (fun x => if x.ord == ord then withRun d v l r x else x) = bs := by
    conv_rhs => rw [← List.map_id bs]
    exact List.map_congr_left fun x hx => if_neg (by simpa using (hbs x hx).ne)
  rw [joinRun_blobs, hblobs, List.map_append, hsame, List.map_singleton, if_pos (by simpa using hb)]

/-! ## RUN_EXTRACTED -/

/-- The first run of the line leaves the runs to come. -/
def runTaken (d : Dev) (l : SegLine) (rest : List SegRun) : Dev := d.updSeg fun s => { s with cur := some { l with runs := rest } }

section
variable {d : Dev} {l : SegLine} {r : SegRun} {rest : List SegRun} (hcur : d.seg.cur = some l) (hruns : l.runs = r :: rest)
  (hconts : d.seg.conts = [])
include hcur hruns hconts

theorem runExtracted_starts (hhit : hit d (d.cfg l.line.epoch SEG.CTL.CONN != 0) r = []) (hfree : blobsFree d ≠ 0) :
    runExtracted d = joinRun (newBlob (runTaken d l rest) l r.fam [] 0 none) (d.cfg l.line.epoch) l r d.seg.ord := by
  have hhit' : hit (runTaken d l rest) (d.cfg l.line.epoch SEG.CTL.CONN != 0) r = [] := hhit
  have hfree' : blobsFree (runTaken d l rest) ≠ 0 := hfree
  unfold runTaken at *
  simp only [runExtracted, hcur, hruns, Dev.updSeg_seg, hconts, List.filter_nil, List.foldl_nil, hhit', if_neg hfree']

theorem runExtracted_drops (hhit : hit d (d.cfg l.line.epoch SEG.CTL.CONN != 0) r = []) (hfree : blobsFree d = 0) :
    runExtracted d = dropRun (runTaken d l rest) := by
  have hhit' : hit (runTaken d l rest) (d.cfg l.line.epoch SEG.CTL.CONN != 0) r = [] := hhit
  have hfree' : blobsFree (runTaken d l rest) = 0 := hfree
  unfold runTaken at *
  simp only [runExtracted, hcur, hruns, Dev.updSeg_seg, hconts, List.filter_nil, List.foldl_nil, hhit', if_pos hfree']

theorem runExtracted_joins {b : Blob} (hhit : hit d (d.cfg l.line.epoch SEG.CTL.CONN != 0) r = [b]) :
    runExtracted d = segShow (joinRun (runTaken d l rest) (d.cfg l.line.epoch) l r b.ord) := by
  have hhit' : hit (runTaken d l rest) (d.cfg l.line.epoch SEG.CTL.CONN != 0) r = [b] := hhit
  unfold runTaken at *
  simp only [runExtracted, hcur, hruns, Dev.updSeg_seg, hconts, List.filter_nil, List.foldl_nil, hhit']

end

theorem dropRun_spec (d : Dev) :
    (dropRun d).seg = { d.seg with cur := d.seg.cur.map fun l => { l with drop := true } } ∧
    d.Counted (dropRun d) SEG.RUN_DROP_CNT.CNT ∧ bitOf ((dropRun d).rd (Com.IRQ_RAW Page.SEG)) SEG.irq.RUN_DROP = true ∧
    d.KeepsRegs (dropRun d) [SEG.RUN_DROP_CNT.CNT, Com.IRQ_RAW Page.SEG, Com.ERR_CNT Page.SEG] := by
  have honly : d.OnlyRegs ((d.inc SEG.RUN_DROP_CNT.CNT).irq Page.SEG SEG.irq.RUN_DROP)
      [SEG.RUN_DROP_CNT.CNT, Com.IRQ_RAW Page.SEG, Com.ERR_CNT Page.SEG] :=
    ((Dev.OnlyKeys.refl d _).inc (by simp)).irq (by simp) (by simp) _
  refine ⟨?_, ?_, ?_, Dev.KeepsKeys.of_regs honly.2 rfl⟩
  · rw [dropRun, Dev.updSeg_seg, honly.1]
  · exact (Dev.rd_irq_other _ _ _ _ (by decide) (by decide)).trans (Dev.rd_inc_same d _)
  · exact (Dev.bitOf_irq (d.inc SEG.RUN_DROP_CNT.CNT) _ _ (by decide)).trans (by simp)

/-! ## Restarts and FREE_MIN -/

/-- A bit reads as last written. -/
theorem Dev.rd_wrB_bit (d : Dev) {f : Fld} (hf : f.width = 1) (b : Bool) : (d.wrB f b).rd f = b2n b :=
  Dev.rd_wr_fits d (by rw [hf]; cases b <;> decide)

theorem bgRestart_spec (d : Dev) :
    (bgRestart d).seg = { d.seg with bg := [], since := 0, restart := false } ∧
    (bgRestart d).rd SEG.STATUS.WARMUP = b2n (d.rd SEG.BG.WARM != 0) ∧ d.KeepsRegs (bgRestart d) [SEG.STATUS.WARMUP] := by
  refine ⟨rfl, ?_, (Dev.KeepsKeys.of_regs (.refl d _) rfl).wr (by simp) _⟩
  exact Dev.rd_wrB_bit _ rfl _

theorem freeMinClear_spec (d : Dev) : (freeMinClear d).rd SEG.FREE_MIN.N = blobsFree d ∧ d.OnlyRegs (freeMinClear d) [SEG.FREE_MIN.N] := by
  have hfree : blobsFree d < 2 ^ SEG.FREE_MIN.N.width := by
    have hwidth : SEG.FREE_MIN.N.width = 14 := rfl
    rw [hwidth]
    unfold blobsFree
    omega
  exact ⟨Dev.rd_wr_fits d hfree, (Dev.OnlyKeys.refl d _).wr (by simp) _⟩

/-! ## The statement -/

/-- Settles O26: the head of a line, its runs one by one, restarts, and CLEAR of FREE_MIN. -/
theorem runsMakeBlobs : Obligations.RunsMakeBlobs := by
  refine ⟨fun s g rest hup hline hcur hjobs hprev hgeo => gives_of_onDev rfl hup ?_, fun s hup h => gives_of_onDev rfl hup (segLineHead_idle h),
    fun s l r rest v hup hcur hruns hconts hv hhit hfree hord => gives_of_onDev rfl hup ?_,
    fun s l r rest hup hcur hruns hconts hhit hfree => gives_of_onDev rfl hup ?_,
    fun s l r rest b hup hcur hruns hconts hhit => gives_of_onDev rfl hup ?_, fun s hup hcur => gives_of_onDev rfl hup ?_,
    fun s hup hcur => gives_of_onDev rfl hup ?_, fun s hup => gives_of_onDev rfl hup (freeMinClear_spec s.dev)⟩
  · obtain ⟨q, hseg, htoSeg, hq, htaken, hruns⟩ := segLineHead_enters hline hcur hjobs hprev hgeo
    rw [hseg]
    refine ⟨htoSeg, rfl, rfl, q, rfl, hq, htaken, ?_, fun hnone => ?_, fun hen hwarm => ?_⟩
    · rw [hruns]
      exact List.length_take_le _ _
    · rw [hruns, headRuns, if_pos hnone, List.take_nil]
    · rw [hruns, headRuns, if_neg (by omega)]
  · subst hv
    rw [runExtracted_starts hcur hruns hconts hhit hfree]
    obtain ⟨hseg, hout, hcount, hkeep⟩ := newBlob_spec (runTaken s.dev l rest) l r.fam [] 0 none
    generalize newBlob (runTaken s.dev l rest) l r.fam [] 0 none = e at hseg hout hcount hkeep ⊢
    obtain ⟨hnext, hflags, hone, hmax⟩ := withRun_fresh (runTaken s.dev l rest) e (s.dev.cfg l.line.epoch) l r
    have hblobs := joinRun_last (d := e) (by rw [hseg]) rfl hord (s.dev.cfg l.line.epoch) l r
    refine ⟨?_, ⟨_, hblobs, rfl, rfl, rfl, rfl, rfl, hnext, rfl, hflags, hone, hmax⟩, ?_, hcount, hkeep, hout⟩
    · rw [joinRun, Dev.updSeg_seg, hseg]
      rfl
    · rw [joinRun, Dev.updSeg_seg, hseg]
      rfl
  · rw [runExtracted_drops hcur hruns hconts hhit hfree]
    obtain ⟨hseg, hcount, hirq, hkeep⟩ := dropRun_spec (runTaken s.dev l rest)
    rw [hseg]
    exact ⟨rfl, rfl, hcount, hirq, hkeep⟩
  · rw [runExtracted_joins hcur hruns hconts hhit, segShow_seg, segShow_out, joinRun_blobs]
    refine ⟨rfl, ?_, fun x hx hxb => ?_, fun x hx hxb => List.mem_map.2 ⟨x, hx, if_neg (by simpa using hxb)⟩, ?_, rfl⟩
    · rw [List.map_map]
      exact List.map_congr_left fun x _ => by simp only [Function.comp_apply]; split <;> rfl
    · obtain ⟨y, -, rfl⟩ := List.mem_map.1 hx
      by_cases hy : y.ord = b.ord
      · rw [if_pos (by simpa using hy)]
        exact ⟨List.mem_append_right _ (List.mem_singleton_self _), rfl⟩
      · rw [if_neg (by simpa using hy)] at hxb
        exact absurd hxb hy
    · exact segShow_keepsPages _ (List.mem_singleton_self _)
  · obtain ⟨hseg, hwarm, hkeep⟩ := bgRestart_spec s.dev
    have heq : segRestart s.dev = bgRestart s.dev := if_pos (by rw [hcur]; rfl)
    rw [heq, hseg]
    exact ⟨rfl, rfl, rfl, hwarm, hkeep⟩
  · exact if_neg (by simpa using hcur)

end Sys2Proof.Machine
end

section
/-! SUPPORT. Seam groups (R202, R203): linking, closing and forgetting touches changes the seam's own books and nothing else, and keeps the
touches of the line. -/

namespace Sys2Proof.Machine

/-- The upper module's piece of family `f` touches the seam on line `w`. -/
def Segm.touched (s : Segm) (w f : Nat) : Prop := ∃ u ∈ s.upper, u.1 = w ∧ u.2.1 = f

/-- From `d` to `e` only the seam groups and the touches changed, and every upper touch of line `w` stands. -/
structure Dev.SeamBooks (d e : Dev) (w : Nat) : Prop where
  rest : e = { d with seg := { d.seg with groups := e.seg.groups, noGroup := e.seg.noGroup, own := e.seg.own, upper := e.seg.upper } }
  touches : ∀ f, d.seg.touched w f → e.seg.touched w f

namespace Dev.SeamBooks
variable {d e : Dev} {w : Nat}

theorem refl (d : Dev) (w : Nat) : d.SeamBooks d w := ⟨rfl, fun _ h => h⟩

theorem trans {e' : Dev} (h : d.SeamBooks e w) (h' : e.SeamBooks e' w) : d.SeamBooks e' w :=
  ⟨by rw [h'.rest, h.rest], fun f hf => h'.touches f (h.touches f hf)⟩

theorem ite (c : Prop) [Decidable c] {e' : Dev} (h : d.SeamBooks e w) (h' : d.SeamBooks e' w) : d.SeamBooks (if c then e else e') w := by
  split
  · exact h
  · exact h'

theorem foldl {α : Type} {g : Dev → α → Dev} (hg : ∀ (e : Dev) (a : α), e.SeamBooks (g e a) w) (l : List α) (h : d.SeamBooks e w) :
    d.SeamBooks (l.foldl g e) w := by
  induction l generalizing e with
  | nil => exact h
  | cons a l ih => exact ih (h.trans (hg e a))

theorem updGroups (h : d.SeamBooks e w) (g : Segm → List Group) (n : Segm → List Nat) :
    d.SeamBooks (e.updSeg fun s => { s with groups := g s, noGroup := n s }) w := h.trans ⟨rfl, fun _ hf => hf⟩

theorem ensureGroup (h : d.SeamBooks e w) (id : Nat) : d.SeamBooks (ensureGroup e id) w :=
  .ite _ h (.ite _ (h.updGroups _ _) (h.updGroups _ _))

theorem joinGroups (h : d.SeamBooks e w) (a b : Nat) : d.SeamBooks (joinGroups e a b) w := by
  unfold Machine.joinGroups
  split
  · exact .ite _ (h.updGroups _ _) (h.updGroups _ _)
  · exact h

theorem aliasGroups (h : d.SeamBooks e w) (absorbed survivor : Nat) : d.SeamBooks (aliasGroups e absorbed survivor) w := by
  unfold Machine.aliasGroups
  extract_lets ren both linked d1
  have h1 : d.SeamBooks d1 w := .ite _ (h.joinGroups _ _) h
  refine h1.trans ⟨rfl, fun f ⟨u, hu, hline, hfam⟩ => ⟨(u.1, u.2.1, ren u.2.2), List.mem_map_of_mem hu, hline, hfam⟩⟩

theorem linkSeam (h : d.SeamBooks e w) (conn : Bool) : d.SeamBooks (linkSeam e conn) w :=
  h.foldl (fun e _ => (refl e w).foldl (fun e _ => .ite _ ((refl e w).joinGroups _ _) (refl e w)) _) _

theorem pieceClosed (h : d.SeamBooks e w) (v : View) (lower : Bool) (p : Piece) : d.SeamBooks (pieceClosed e v lower p) w :=
  .ite _ ((h.ensureGroup _).updGroups _ _) ((h.ensureGroup _).updGroups _ _)

theorem groupsDone (h : d.SeamBooks e w) : d.SeamBooks (groupsDone e) w := h.trans ⟨rfl, fun _ hf => hf⟩

/-- Touches are forgotten only four lines on. -/
theorem pruneTouches (h : d.SeamBooks e w) : d.SeamBooks (pruneTouches e w) w :=
  h.trans ⟨rfl, fun _ ⟨u, hu, hline, hfam⟩ => ⟨u, List.mem_filter.2 ⟨hu, by simp [hline]⟩, hline, hfam⟩⟩

/-- The touches of a BOUND record join those known. -/
theorem touches_taken (h : d.SeamBooks e w) (l : List (Nat × Nat)) :
    d.SeamBooks (l.foldl (fun d t => (Machine.ensureGroup d t.2).updSeg fun s => { s with upper := s.upper ++ [(w, t.1, t.2)] }) e) w ∧
    ∀ x ∈ l, (l.foldl (fun d t => (Machine.ensureGroup d t.2).updSeg fun s => { s with upper := s.upper ++ [(w, t.1, t.2)] }) e).seg.touched
      w x.1 := by
  have hstep (e : Dev) (t : Nat × Nat) :
      e.SeamBooks ((Machine.ensureGroup e t.2).updSeg fun s => { s with upper := s.upper ++ [(w, t.1, t.2)] }) w :=
    ((refl e w).ensureGroup t.2).trans ⟨rfl, fun _ ⟨u, hu, hline, hfam⟩ => ⟨u, List.mem_append_left _ hu, hline, hfam⟩⟩
  refine ⟨h.foldl hstep l, ?_⟩
  clear h
  induction l generalizing e with
  | nil => exact nofun
  | cons t l ih =>
    intro x hx
    rcases List.mem_cons.1 hx with rfl | hx
    · exact ((refl _ w).foldl hstep l).touches x.1 ⟨(w, x.1, x.2), List.mem_append_right _ (List.mem_singleton_self _), rfl, rfl⟩
    · exact ih x hx

end Dev.SeamBooks

/-! ## BOUND -/

/-- BOUND shows itself, reaches its line and keeps its touches; beside the seam's books nothing changes. -/
theorem bound_spec (r : BoundRec) (d : Dev) :
    (bound r d).rd SEG.STATUS.HI_RX = 1 ∧ (bound r d).seg.upperUpTo = some (max (d.seg.upperUpTo.getD 0) r.wln) ∧
    (∀ x ∈ r.touches, (bound r d).seg.touched r.wln x.1) ∧ (bound r d).seg.blobs = d.seg.blobs ∧
    d.KeepsRegs (bound r d) [SEG.STATUS.HI_RX] ∧ (bound r d).out = d.out := by
  generalize he : bound r d = e
  unfold bound at he
  extract_lets v d1 d2 d3 d4 at he
  obtain ⟨h2, htouched⟩ := (Dev.SeamBooks.refl d1 r.wln).touches_taken r.touches
  have h4 : d2.SeamBooks d4 r.wln := ((Dev.SeamBooks.refl d2 _).linkSeam _).foldl (fun e a => (Dev.SeamBooks.refl e _).aliasGroups _ _) _
  have h5 : d2.SeamBooks e r.wln := he ▸ (h4.foldl (fun e p => (Dev.SeamBooks.refl e _).pieceClosed _ _ _) _).pruneTouches.groupsDone
  have hrest := (Dev.SeamBooks.trans h2 h5).rest
  have hshown : d1.rd SEG.STATUS.HI_RX = 1 := Dev.rd_wr_same d SEG.STATUS.HI_RX 1
  refine ⟨?_, by rw [hrest]; rfl, fun x hx => h5.touches _ (htouched x hx), by rw [hrest]; rfl, ?_, by rw [hrest]; rfl⟩
  · rw [hrest]
    exact hshown
  · have hkeep : d.KeepsRegs d1 [SEG.STATUS.HI_RX] := ((Dev.KeepsKeys.refl d _).wr (f := SEG.STATUS.HI_RX) (by simp) 1).of_regs rfl
    exact Dev.KeepsKeys.of_regs hkeep (by rw [hrest])

end Sys2Proof.Machine
end

section
/-! SUPPORT. The end of a line in segmentation (R185, R186, R190, R331): its books, the digests that are settled by it, and the image and
the copies owed at its end. -/

namespace Sys2Proof.Machine

/-! ## Digests and images -/

/-- From `d` to `e` only the digests, the twin's books, the intervals measured, what the module has sent and registers of page TWIN changed. -/
structure Dev.TwinKept (d e : Dev) : Prop where
  rest : e = { d with regs := e.regs, marks := e.marks, out := e.out, twin := e.twin, seg := { d.seg with digests := e.seg.digests } }
  regs : d.KeepsKeys e (· / 131072 ∈ [Page.TWIN])

namespace Dev.TwinKept
variable {d e : Dev}

theorem refl (d : Dev) : d.TwinKept d := ⟨rfl, .refl _ _⟩

theorem trans {e' : Dev} (h : d.TwinKept e) (h' : e.TwinKept e') : d.TwinKept e' := ⟨by rw [h'.rest, h.rest], h.regs.trans h'.regs⟩

theorem ite (c : Prop) [Decidable c] {e' : Dev} (h : d.TwinKept e) (h' : d.TwinKept e') : d.TwinKept (if c then e else e') := by
  split
  · exact h
  · exact h'

theorem of_onlyKeys (h : d.TwinKept e) {e' : Dev} (h' : e.OnlyKeys e' (· / 131072 ∈ [Page.TWIN])) : d.TwinKept e' :=
  h.trans ⟨by rw [h'.1], h'.2⟩

theorem wr (h : d.TwinKept e) {f : Fld} (hf : f.key / 131072 ∈ [Page.TWIN]) (v : Nat) : d.TwinKept (e.wr f v) :=
  h.of_onlyKeys ((OnlyKeys.refl e _).wr hf v)

theorem irq (h : d.TwinKept e) (b : Nat) : d.TwinKept (e.irq Page.TWIN b) :=
  h.of_onlyKeys ((OnlyKeys.refl e _).irq (by decide) (by decide) b)

theorem emit (h : d.TwinKept e) (o : Out) : d.TwinKept (e.emit o) := h.trans ⟨rfl, .of_regs (.refl e _) rfl⟩

theorem start (h : d.TwinKept e) (t : Timer) : d.TwinKept (e.start t) := h.trans ⟨rfl, .of_regs (.refl e _) rfl⟩

theorem updTwin (h : d.TwinKept e) (g : TwinSt → TwinSt) : d.TwinKept (e.updTwin g) := h.trans ⟨rfl, .of_regs (.refl e _) rfl⟩

theorem setDigests (h : d.TwinKept e) (l : List LineDigest) : d.TwinKept { e with seg := { e.seg with digests := l } } :=
  h.trans ⟨rfl, .of_regs (.refl e _) rfl⟩

theorem toStandby (h : d.TwinKept e) (k : MsgKind) (args : List Int) : d.TwinKept (e.toStandby k args) := .ite _ (h.emit _) h

theorem setPair (h : d.TwinKept e) (st : Nat) : d.TwinKept (setPair e st) := wr (.ite _ (h.start _) (h.start _)) (by decide) _

theorem sayHello (h : d.TwinKept e) : d.TwinKept (sayHello e) := h.emit _

theorem imageAsk (h : d.TwinKept e) : d.TwinKept (imageAsk e) := (h.emit _).updTwin _

theorem enterSyncing (h : d.TwinKept e) : d.TwinKept (enterSyncing e) :=
  (wr (f := TWIN.STATUS.MIRRORED) (h.setPair 2) (by decide) 0).sayHello.imageAsk

theorem digestCompare (h : d.TwinKept e) (w : Nat) (same : Bool) : d.TwinKept (digestCompare e w same) := by
  have h1 : d.TwinKept (e.wr2 TWIN.VER_WLN_LO.WLN TWIN.VER_WLN_HI.WLN w) := (h.wr (by decide) _).wr (by decide) _
  exact .ite _ h (.ite _ (.ite _ (irq (wr (wr (h1.setPair 4) (by decide) 1) (by decide) _) _).sayHello h1)
    (irq (h.wr (by decide) _) _).enterSyncing)

theorem digestOne (h : d.TwinKept e) (q : LineDigest) : d.TwinKept (digestOne e q) := by
  unfold Machine.digestOne
  extract_lets drop
  split
  · exact h
  · split
    · exact (h.toStandby _ _).setDigests _
    · split
      · exact h
      · exact ((h.setDigests _).updTwin _).digestCompare _ _

theorem digestSettle (h : d.TwinKept e) : d.TwinKept (digestSettle e) := by
  unfold Machine.digestSettle
  generalize e.seg.digests.reverse = l
  induction l generalizing e with
  | nil => exact h
  | cons q l ih => exact ih (h.digestOne q)

theorem imageSend (h : d.TwinKept e) : d.TwinKept (imageSend e) := .ite _ ((h.emit _).updTwin _) h

end Dev.TwinKept

/-! ## The tail -/

theorem segGeo_settled {d : Dev} (h : ∀ q ∈ d.seg.geo, q.2 = true) : segGeo d = d := by
  have hall (w : Nat) : geoUpTo d w = d := geoUpTo_settled fun q hq => .inl (h q hq)
  unfold segGeo
  extract_lets left
  split
  · rfl
  · cases d.seg.geo.getLast? with
    | none => rfl
    | some g => exact hall _
  · exact hall _

/-- What follows a line's books: touches forgotten, the table shown, digests, image, and copies. -/
def lineTail (d : Dev) (w : Nat) : Dev := tailReach (segGeo (imageSend (digestSettle (segShow (pruneTouches (groupsDone d) w)))))

/-- The keys of the registers it may write. -/
def tailKey (k : Nat) : Prop := k ∈ tableFields.map Fld.key ∨ k / 131072 ∈ [Page.TWIN]

theorem tailKey_page {k : Nat} (h : tailKey k) : k / 131072 ∈ [Page.SEG, Page.TWIN] := by
  rcases h with hk | hk
  · obtain ⟨f, hf, rfl⟩ := List.mem_map.1 hk
    exact List.mem_cons.2 (.inl (tableFields_page f hf))
  · exact List.mem_cons_of_mem _ hk

/-- With no geometry change to come and no read-out running it leaves vectors, blobs and background. -/
theorem lineTail_spec {d : Dev} (hgeo : ∀ q ∈ d.seg.geo, q.2 = true) (hjobs : d.snap.jobs = []) (w : Nat) :
    (lineTail d w).tags = d.tags ∧
    (∃ gs ns own upper digests,
      (lineTail d w).seg = { d.seg with groups := gs, noGroup := ns, own := own, upper := upper, digests := digests }) ∧
    d.KeepsKeys (lineTail d w) tailKey := by
  have h1 := ((Dev.SeamBooks.refl d w).groupsDone).pruneTouches
  unfold lineTail
  generalize pruneTouches (groupsDone d) w = d1 at h1 ⊢
  have h2 := segShow_only d1
  generalize segShow d1 = d2 at h2 ⊢
  have h3 := ((Dev.TwinKept.refl d2).digestSettle).imageSend
  generalize imageSend (digestSettle d2) = d3 at h3 ⊢
  have hgeo3 : d3.seg.geo = d.seg.geo := by rw [h3.rest, h2.1, h1.rest]
  have hjobs3 : d3.snap.jobs = [] := by rw [h3.rest, h2.1, h1.rest]; exact hjobs
  rw [segGeo_settled (by rw [hgeo3]; exact hgeo)]
  have h4 := (Dev.CopiesOnly.refl hjobs3).tailReach
  generalize tailReach d3 = d4 at h4 ⊢
  refine ⟨by rw [h4.rest, h3.rest, h2.1, h1.rest],
    ⟨d1.seg.groups, d1.seg.noGroup, d1.seg.own, d1.seg.upper, d3.seg.digests, by rw [h4.seg_eq, h3.rest, h2.1, h1.rest]⟩, ?_⟩
  have hbooks : d.KeepsKeys d1 tailKey := .of_regs (.refl d _) (by rw [h1.rest])
  have hshown : d.KeepsKeys d2 tailKey := hbooks.trans (Dev.KeepsKeys.mono h2.2 fun k hk => .inl hk)
  exact (hshown.trans (h3.regs.mono fun k hk => .inr hk)).of_regs (by rw [h4.rest])

/-! ## The books of the line -/

/-- The line decided: its background, its count since the restart and its digest. -/
def lineBooks (d : Dev) (v : View) (l : SegLine) (k ref : Nat) (gone : List Blob) : Dev :=
  let bg := if v SEG.CTL.EN != 0 then bgLine d.seg.bg v l else d.seg.bg
  let dig : LineDigest := ⟨l.line.wln, (l.taken.flatMap fun r => [(r.fam : Int), r.a, r.b]), bg.flatMap fun b => [b.j, b.b, b.s],
    gone.map fun b => (b.id, none, none)⟩
  d.updSeg fun s =>
    { s with cur := none, bg := bg, since := s.since + b2n (v SEG.CTL.EN != 0), aliases := [], prev := some (l.line.wln, l.line.epoch, k, ref)
             digests := (dig :: s.digests).take 64 }

/-- WARMUP after the line, or the restart that waited for its end. -/
def lineWarm (d : Dev) (v : View) : Dev :=
  if d.seg.restart then bgRestart d else d.wrB SEG.STATUS.WARMUP (decide (d.seg.since < v SEG.BG.WARM))

/-- Everything that follows the closes of a line. -/
def lineEnd (d : Dev) (v : View) (l : SegLine) (k ref : Nat) (gone : List Blob) : Dev :=
  lineTail (lineWarm (lineBooks d v l k ref gone) v) l.line.wln

theorem lineWarm_keeps (d : Dev) (v : View) :
    (∃ bg since restart, (lineWarm d v).seg = { d.seg with bg := bg, since := since, restart := restart }) ∧ (lineWarm d v).tags = d.tags ∧
    (lineWarm d v).snap = d.snap ∧ d.KeepsRegs (lineWarm d v) [SEG.STATUS.WARMUP] := by
  unfold lineWarm
  split
  · exact ⟨⟨_, _, _, (bgRestart_spec d).1⟩, rfl, rfl, (bgRestart_spec d).2.2⟩
  · exact ⟨⟨_, _, _, rfl⟩, rfl, rfl, (Dev.KeepsKeys.refl d _).wr (by simp) _⟩

theorem lineEnd_spec {d : Dev} (hgeo : ∀ q ∈ d.seg.geo, q.2 = true) (hjobs : d.snap.jobs = []) (v : View) (l : SegLine) (k ref : Nat)
    (gone : List Blob) :
    (lineEnd d v l k ref gone).seg.cur = none ∧ (lineEnd d v l k ref gone).seg.blobs = d.seg.blobs ∧
    (lineEnd d v l k ref gone).seg.prev = some (l.line.wln, l.line.epoch, k, ref) ∧ (lineEnd d v l k ref gone).tags = d.tags ∧
    d.KeepsPages (lineEnd d v l k ref gone) [Page.SEG, Page.TWIN] := by
  unfold lineEnd
  obtain ⟨⟨bg, since, restart, hseg⟩, htags, hsnap, hregs⟩ := lineWarm_keeps (lineBooks d v l k ref gone) v
  generalize lineWarm (lineBooks d v l k ref gone) v = d1 at hseg htags hsnap hregs ⊢
  obtain ⟨htags', ⟨gs, ns, own, upper, digests, hseg'⟩, hregs'⟩ :=
    lineTail_spec (d := d1) (by rw [hseg]; exact hgeo) (by rw [hsnap]; exact hjobs) l.line.wln
  rw [hseg', htags', htags, hseg]
  have hpages : d.KeepsPages d1 [Page.SEG, Page.TWIN] :=
    Dev.KeepsRegs.keepsPages ((Dev.KeepsKeys.of_regs (e' := lineBooks d v l k ref gone) (.refl d _) rfl).trans hregs) (by decide)
  exact ⟨rfl, rfl, rfl, rfl, (Dev.keepsPages_iff.1 hpages).trans (hregs'.mono fun _ hk => tailKey_page hk)⟩

/-- Without a restart that waits, the line counts, the background takes it, and WARMUP follows the count. -/
theorem lineEnd_background {d : Dev} (hgeo : ∀ q ∈ d.seg.geo, q.2 = true) (hjobs : d.snap.jobs = []) (hrestart : d.seg.restart = false)
    (v : View) (l : SegLine) (k ref : Nat) (gone : List Blob) :
    (lineEnd d v l k ref gone).seg.since = (if v SEG.CTL.EN ≠ 0 then d.seg.since + 1 else d.seg.since) ∧
    (lineEnd d v l k ref gone).seg.bg = (if v SEG.CTL.EN ≠ 0 then bgLine d.seg.bg v l else d.seg.bg) ∧
    (lineEnd d v l k ref gone).rd SEG.STATUS.WARMUP = b2n (decide ((lineEnd d v l k ref gone).seg.since < v SEG.BG.WARM)) := by
  have hwarm : lineWarm (lineBooks d v l k ref gone) v =
      (lineBooks d v l k ref gone).wrB SEG.STATUS.WARMUP (decide ((lineBooks d v l k ref gone).seg.since < v SEG.BG.WARM)) :=
    if_neg (by rw [lineBooks, Dev.updSeg_seg]; simp [hrestart])
  obtain ⟨-, ⟨gs, ns, own, upper, digests, hseg⟩, hregs⟩ :=
    lineTail_spec (d := lineWarm (lineBooks d v l k ref gone) v) (by rw [hwarm]; exact hgeo) (by rw [hwarm]; exact hjobs) l.line.wln
  have hread := hregs SEG.STATUS.WARMUP (by unfold tailKey; decide)
  unfold lineEnd
  rw [hread, hseg, hwarm, Dev.rd_wrB_bit _ rfl]
  refine ⟨?_, ?_, rfl⟩
  · simp only [lineBooks, Dev.wrB_seg, Dev.updSeg_seg]
    split <;> simp_all [b2n]
  · simp only [lineBooks, Dev.wrB_seg, Dev.updSeg_seg, bne_iff_ne]

end Sys2Proof.Machine
end

section
/-! SUPPORT. CLOSE_DECISION on a line that no open blob gained a run of (R190, R192, R194, R196). -/

namespace Sys2Proof.Machine

/-! ## A line without gains -/

/-- The own side of the seam is known up to the line. -/
def seamShown (d : Dev) (v : View) (w : Nat) : Dev :=
  if v STITCH.RSEAM_HI.EN = 0 then d else linkSeam (d.updSeg fun s => { s with ownUpTo := some w }) (v SEG.CTL.CONN != 0)

/-- Every blob has passed the line, and none was cut. -/
def linePassed (d : Dev) (v : View) (l : SegLine) : Dev :=
  ((seamShown d v l.line.wln).addCnt SEG.CHUNK_CNT.CNT 0).updSeg fun s =>
    { s with blobs := d.seg.blobs.map fun b => b.pass v l, conts := [] }

/-- The blobs that close, as they passed the line. -/
def lineGoing (d : Dev) (v : View) (l : SegLine) : List Blob :=
  closeOrder ((d.seg.blobs.map fun b => b.pass v l).filter fun b => ((d.seg.blobs.filter fun b => b.ends v l).map Blob.ord).contains b.ord)

/-- The closes of the line, one by one. -/
def lineCloses (d : Dev) (v : View) (l : SegLine) : Dev × Nat × List Piece :=
  (lineGoing d v l).foldl (closeBlob l.line.wln l.line.epoch (d.now - 320)) (linePassed d v l, 0, [])

theorem closeDecision_waits {d : Dev} {l : SegLine} (hcur : d.seg.cur = some l) (hruns : l.runs ≠ []) : closeDecision d = d := by
  unfold closeDecision
  rw [hcur]
  exact if_pos (by simpa using hruns)

/-- Where no blob gained a run, none touches the seam with this line and none is cut. -/
theorem closeDecision_gainless {d : Dev} {l : SegLine} (hcur : d.seg.cur = some l) (hruns : l.runs = [])
    (hnext : ∀ b ∈ d.seg.blobs, b.next = []) :
    closeDecision d = lineEnd (sendBound (lineCloses d (d.cfg l.line.epoch) l).1 (d.cfg l.line.epoch) l.line.wln []
        (lineCloses d (d.cfg l.line.epoch) l).2.2) (d.cfg l.line.epoch) l (lineCloses d (d.cfg l.line.epoch) l).2.1 (d.now - 320)
      (lineGoing d (d.cfg l.line.epoch) l) := by
  have htouch (p : Int × Int → Bool) : (d.seg.blobs.filter fun b => b.next.any p) = [] :=
    List.filter_eq_nil_iff.2 fun b hb => by simp [hnext b hb]
  have hchunk : (d.seg.blobs.filter fun b => b.chunks (d.cfg l.line.epoch) l) = [] :=
    List.filter_eq_nil_iff.2 fun b hb => by simp [Blob.chunks, hnext b hb]
  unfold closeDecision
  simp only [hcur, hruns, List.isEmpty_nil, Bool.not_true, Bool.false_eq_true, if_false, htouch, hchunk, List.map_nil, List.foldl_nil,
    List.contains_nil, Bool.or_false, List.filter_false, List.length_nil]
  rfl

/-! ## What the closes leave -/

/-- From `d` to `e` only the blobs, the seam's books, the tag path, what the module has sent and registers of page SEG changed. -/
structure Dev.ClosesKept (d e : Dev) : Prop where
  rest : e = { d with
    regs := e.regs
    out := e.out
    tags := e.tags
    seg := { d.seg with
      blobs := e.seg.blobs
      conts := e.seg.conts
      groups := e.seg.groups
      noGroup := e.seg.noGroup
      own := e.seg.own
      upper := e.seg.upper
      ownUpTo := e.seg.ownUpTo } }
  regs : d.KeepsKeys e (· / 131072 ∈ [Page.SEG])

theorem Dev.ClosesKept.trans {d e e' : Dev} (h : d.ClosesKept e) (h' : e.ClosesKept e') : d.ClosesKept e' :=
  ⟨by rw [h'.rest, h.rest], h.regs.trans h'.regs⟩

theorem Dev.SeamBooks.closesKept {d e : Dev} {w : Nat} (h : d.SeamBooks e w) : d.ClosesKept e :=
  ⟨by rw [h.rest], .of_regs (.refl d _) (by rw [h.rest])⟩

theorem seamShown_kept (d : Dev) (v : View) (w : Nat) : d.ClosesKept (seamShown d v w) := by
  have hknown : d.ClosesKept (d.updSeg fun s => { s with ownUpTo := some w }) := ⟨rfl, .of_regs (.refl d _) rfl⟩
  unfold seamShown
  split
  · exact (Dev.SeamBooks.refl d w).closesKept
  · exact hknown.trans ((Dev.SeamBooks.refl _ w).linkSeam _).closesKept

theorem seamShown_regs (d : Dev) (v : View) (w : Nat) : (seamShown d v w).regs = d.regs ∧ (seamShown d v w).tags = d.tags := by
  unfold seamShown
  split
  · exact ⟨rfl, rfl⟩
  · rw [((Dev.SeamBooks.refl _ w).linkSeam _).rest]
    exact ⟨rfl, rfl⟩

theorem linePassed_kept (d : Dev) (v : View) (l : SegLine) : d.ClosesKept (linePassed d v l) :=
  (seamShown_kept d v l.line.wln).trans ⟨rfl, ((Dev.KeepsKeys.refl _ _).wr (by decide) _).of_regs rfl⟩

theorem linePassed_regs (d : Dev) (v : View) (l : SegLine) : d.KeepsRegs (linePassed d v l) [SEG.CHUNK_CNT.CNT] :=
  Dev.KeepsKeys.of_regs ((Dev.KeepsKeys.of_regs (.refl d _) (seamShown_regs d v l.line.wln).1).wr (by simp) _) rfl

theorem linePassed_blobs (d : Dev) (v : View) (l : SegLine) : (linePassed d v l).seg.blobs = d.seg.blobs.map fun b => b.pass v l := rfl

theorem linePassed_tags (d : Dev) (v : View) (l : SegLine) : (linePassed d v l).tags = d.tags := (seamShown_regs d v l.line.wln).2

theorem sendBound_out (d : Dev) (v : View) (w : Nat) (touches : List (Nat × Nat)) (lows : List Piece) :
    sendBound d v w touches lows = { d with out := (sendBound d v w touches lows).out } := by
  unfold sendBound
  split <;> rfl

theorem sendBound_kept (d : Dev) (v : View) (w : Nat) (touches : List (Nat × Nat)) (lows : List Piece) :
    d.ClosesKept (sendBound d v w touches lows) :=
  ⟨by rw [sendBound_out], .of_regs (.refl d _) (by rw [sendBound_out])⟩

/-! ## A blob that closes -/

theorem bitOf_lor (a b k : Nat) : bitOf (Nat.lor a b) k = (bitOf a k || bitOf b k) := by
  simp only [bitOf_eq_testBit]
  exact Nat.testBit_lor a b k

/-- The flags of seam-pending blobs are no flags of a line, and none that a close derives. -/
theorem finalFlags_pending {b b' : Blob} {l : SegLine} {k : Nat} (hk : k = 2 ∨ k = 3) (hflags : b'.flags = Nat.lor b.flags (lineFlags l)) :
    bitOf b'.finalFlags k = bitOf b.flags k := by
  have hline (x y z : Bool) : bitOf (256 * b2n x + 512 * b2n y + 1024 * b2n z) k = false := by
    rcases hk with rfl | rfl <;> revert x y z <;> decide
  have hderived (x y : Bool) : bitOf (32 * b2n x + 8192 * b2n y) k = false := by
    rcases hk with rfl | rfl <;> revert x y <;> decide
  rw [Blob.finalFlags, bitOf_lor, hderived, hflags, bitOf_lor, lineFlags, hline, Bool.or_false, Bool.or_false]

/-- What a blob that closes on the line keeps of itself as it passes it. -/
theorem pass_of_ends {b : Blob} {v : View} {l : SegLine} (h : b.ends v l = true) :
    ∃ p hr, b.pass v l = { b with acc := { b.acc with per := p }, flags := Nat.lor b.flags (lineFlags l), headRun := hr } := by
  have hends : b.next.isEmpty = true ∧ (frontierBlocked v l b && decide (b.held < v SEG.CTL.HOLE_LINES)) = false := by
    simpa only [Blob.ends, Bool.and_eq_true, Bool.not_eq_true'] using h
  unfold Blob.pass
  simp only [hends.1, hends.2, if_true, Bool.false_eq_true, if_false]
  exact ⟨_, _, rfl⟩

/-- The only open blob goes when it ends. -/
theorem lineGoing_single {d : Dev} {b : Blob} {v : View} {l : SegLine} (hblobs : d.seg.blobs = [b]) (hends : b.ends v l = true) :
    lineGoing d v l = [b.pass v l] := by
  obtain ⟨p, hr, hpass⟩ := pass_of_ends hends
  have hord : (b.pass v l).ord = b.ord := by rw [hpass]
  simp [lineGoing, hblobs, hends, hord, closeOrder, sortBy, insertBy]

/-- The vector of a blob that closes. -/
def closeVec (v : View) (close epoch ref k : Nat) (b : Blob) : Vec :=
  ⟨b.id, k, ref, features b.acc b.first b.last b.fam b.finalFlags (colFirst v) b.p0 b.p1, b.first, close, epoch, b.p0, b.p1, b.acc.xl, b.acc.xr,
    b.taken⟩

theorem features_length (p : BlobAcc) (first last fam flags : Nat) (origin p0 p1 : Int) :
    (features p first last fam flags origin p0 p1).length = 32 := rfl

/-- A blob has left the open ones as the vector `x`. -/
def blobLeft (d : Dev) (b : Blob) (x : Vec) : Dev :=
  segShow ((d.updSeg fun s => { s with blobs := s.blobs.filter fun q => q.ord != b.ord }).updTags fun t => { t with vecs := t.vecs ++ [x] })

theorem blobLeft_kept (d : Dev) (b : Blob) (x : Vec) : d.ClosesKept (blobLeft d b x) := by
  have hshown {e : Dev} (h : d.ClosesKept e) : d.ClosesKept (segShow e) :=
    h.trans ⟨by rw [(segShow_only e).1], segShow_keepsPages e (List.mem_singleton_self _)⟩
  exact hshown ⟨rfl, .of_regs (.refl d _) rfl⟩

theorem blobLeft_blobs (d : Dev) (b : Blob) (x : Vec) : (blobLeft d b x).seg.blobs = d.seg.blobs.filter fun q => q.ord != b.ord :=
  congrArg Segm.blobs (segShow_seg _)

theorem blobLeft_vecs (d : Dev) (b : Blob) (x : Vec) : (blobLeft d b x).tags.vecs = d.tags.vecs ++ [x] := congrArg TagPath.vecs (segShow_tags _)

/-- A blob that is not seam-pending and passes both tests of R192 leaves as a vector. -/
theorem closeBlob_vector {d : Dev} {b : Blob} {epoch : Nat} (hlo : bitOf b.finalFlags 2 = false) (hhi : bitOf b.finalFlags 3 = false)
    (hseed : b.acc.ns ≠ 0) (harea : d.cfg epoch SEG.MIN_AREA.AREA ≤ b.acc.n) (close ref : Nat) (lows : List Piece) :
    closeBlob close epoch ref (d, 0, lows) b =
      (blobLeft d b (closeVec (d.cfg epoch) close epoch ref 0 b), 1, lows) := by
  have htests : (b.acc.ns == 0 || decide (b.acc.n < d.cfg epoch SEG.MIN_AREA.AREA)) = false := by simp [hseed, harea]
  simp [closeBlob, hlo, hhi, htests, closeVec, blobLeft]

/-! ## The two ends of a line -/

/-- With no open blob no vector leaves, and the line's books are closed. -/
theorem closeDecision_empty {d : Dev} {l : SegLine} {v : View} (hcur : d.seg.cur = some l) (hruns : l.runs = []) (hblobs : d.seg.blobs = [])
    (hv : v = d.cfg l.line.epoch) :
    ∃ e, closeDecision d = lineEnd e v l 0 (d.now - 320) [] ∧ d.ClosesKept e ∧ e.seg.blobs = [] ∧ e.tags = d.tags := by
  subst hv
  have hgoing : lineGoing d (d.cfg l.line.epoch) l = [] := by rw [lineGoing, hblobs]; rfl
  have heq := closeDecision_gainless hcur hruns (by rw [hblobs]; exact nofun)
  rw [lineCloses, hgoing, List.foldl_nil] at heq
  refine ⟨_, heq, (linePassed_kept d _ l).trans (sendBound_kept _ _ _ _ _), ?_, ?_⟩
  · rw [sendBound_out]
    exact (linePassed_blobs d _ l).trans (by rw [hblobs]; rfl)
  · rw [sendBound_out]
    exact linePassed_tags d _ l

/-- The only open blob ends and passes its tests: it leaves as a vector. -/
theorem closeDecision_closes {d : Dev} {l : SegLine} {b : Blob} {v : View} (hcur : d.seg.cur = some l) (hruns : l.runs = [])
    (hblobs : d.seg.blobs = [b]) (hv : v = d.cfg l.line.epoch) (hends : b.ends v l = true) (hlo : bitOf b.flags 2 = false)
    (hhi : bitOf b.flags 3 = false) (hseed : b.acc.ns ≠ 0) (harea : v SEG.MIN_AREA.AREA ≤ b.acc.n) :
    ∃ e gone x, closeDecision d = lineEnd e v l 1 (d.now - 320) gone ∧ d.ClosesKept e ∧ e.seg.blobs = [] ∧
      e.tags.vecs = d.tags.vecs ++ [x] ∧ x.blob = b.id ∧ x.feats.length = 32 ∧ x.first = b.first ∧ x.close = l.line.wln ∧
      x.epoch = l.line.epoch ∧ x.xl = b.acc.xl ∧ x.xr = b.acc.xr := by
  subst hv
  obtain ⟨p, hr, hpass⟩ := pass_of_ends hends
  have hnext : b.next = [] := by
    simp only [Blob.ends, Bool.and_eq_true, List.isEmpty_iff] at hends
    exact hends.1
  have heq := closeDecision_gainless hcur hruns (by rw [hblobs]; simpa using hnext)
  rw [lineCloses, lineGoing_single hblobs hends, List.foldl_cons, List.foldl_nil] at heq
  have hblobs' : (linePassed d (d.cfg l.line.epoch) l).seg.blobs = [b.pass (d.cfg l.line.epoch) l] := by
    rw [linePassed_blobs, hblobs, List.map_singleton]
  have hkept := linePassed_kept d (d.cfg l.line.epoch) l
  have htags := linePassed_tags d (d.cfg l.line.epoch) l
  have hregs := linePassed_regs d (d.cfg l.line.epoch) l
  generalize linePassed d (d.cfg l.line.epoch) l = e at heq hblobs' hkept htags hregs
  have harea' : e.cfg l.line.epoch SEG.MIN_AREA.AREA = d.cfg l.line.epoch SEG.MIN_AREA.AREA :=
    (Dev.keepsRegs_iff.1 hregs).cfg (by rw [hkept.rest]) (by decide) _ (by decide)
  rw [closeBlob_vector ((finalFlags_pending (.inl rfl) (by rw [hpass])).trans hlo) ((finalFlags_pending (.inr rfl) (by rw [hpass])).trans hhi)
    (by rw [hpass]; exact hseed) (by rw [hpass, harea']; exact harea)] at heq
  refine ⟨_, _, closeVec (e.cfg l.line.epoch) l.line.wln l.line.epoch (d.now - 320) 0 (b.pass (d.cfg l.line.epoch) l), heq,
    (hkept.trans (blobLeft_kept _ _ _)).trans (sendBound_kept _ _ _ _ _), ?_, ?_, ?_⟩
  · rw [sendBound_out]
    exact (blobLeft_blobs _ _ _).trans (by rw [hblobs']; simp)
  · rw [sendBound_out]
    exact (blobLeft_vecs _ _ _).trans (by rw [htags])
  · rw [hpass]
    exact ⟨rfl, features_length _ _ _ _ _ _ _ _, rfl, rfl, rfl, rfl, rfl⟩

/-! ## The statement -/

/-- Settles O27: the close decision that waits, ends a line without blobs, and closes the only blob; and the bound record. -/
theorem linesCloseAndSeamsMeet : Obligations.LinesCloseAndSeamsMeet := by
  have hpages {d e : Dev} (h : d.ClosesKept e) : d.KeepsPages e [Page.SEG, Page.TWIN] :=
    Dev.keepsPages_iff.2 (h.regs.mono fun _ hk => List.mem_cons.2 (.inl (List.mem_singleton.1 hk)))
  refine ⟨fun s l hup hcur hruns => gives_of_onDev rfl hup (closeDecision_waits hcur hruns),
    fun s l v hup hcur hruns hblobs hv hrestart hjobs hgeo => gives_of_onDev rfl hup ?_,
    fun s l b v hup hcur hruns hblobs hv hends hlo hhi hseed harea hjobs hgeo => gives_of_onDev rfl hup ?_,
    fun s r hup => gives_of_onDev rfl hup (bound_spec r s.dev)⟩
  · obtain ⟨e, heq, hkept, hnone, htags⟩ := closeDecision_empty hcur hruns hblobs hv
    have hgeo' : ∀ q ∈ e.seg.geo, q.2 = true := by rw [hkept.rest]; exact hgeo
    have hjobs' : e.snap.jobs = [] := by rw [hkept.rest]; exact hjobs
    have hsince : e.seg.since = s.dev.seg.since := by rw [hkept.rest]
    have hbg : e.seg.bg = s.dev.seg.bg := by rw [hkept.rest]
    obtain ⟨hcur', hblobs', hprev, htags', hkeep⟩ := lineEnd_spec hgeo' hjobs' v l 0 (s.dev.now - 320) []
    obtain ⟨hcount, hback, hwarm⟩ := lineEnd_background hgeo' hjobs' (by rw [hkept.rest]; exact hrestart) v l 0 (s.dev.now - 320) []
    rw [heq]
    exact ⟨hcur', hblobs'.trans hnone, hsince ▸ hcount, hprev, by rw [htags', htags], hbg ▸ hback, hwarm,
      (Dev.keepsPages_iff.1 (hpages hkept)).trans hkeep⟩
  · obtain ⟨e, gone, x, heq, hkept, hnone, hvecs, hx⟩ := closeDecision_closes hcur hruns hblobs hv hends hlo hhi hseed harea
    obtain ⟨hcur', hblobs', -, htags', hkeep⟩ := lineEnd_spec (d := e) (by rw [hkept.rest]; exact hgeo) (by rw [hkept.rest]; exact hjobs)
      v l 1 (s.dev.now - 320) gone
    rw [heq]
    exact ⟨hcur', hblobs'.trans hnone, ⟨x, by rw [htags', hvecs], hx⟩, (Dev.keepsPages_iff.1 (hpages hkept)).trans hkeep⟩

end Sys2Proof.Machine
end

section
/-! SUPPORT. Classification (R207, R211) and the forming of tags (R213): the verdict of a vector, and its tag. -/

namespace Sys2Proof.Machine

/-! ## What follows a step of the tag path -/

theorem bitOf_irq_of_set (d : Dev) {p b c : Nat} (hc : c < 8) (h : bitOf (d.rd (Com.IRQ_RAW p)) c = true) :
    bitOf ((d.irq p b).rd (Com.IRQ_RAW p)) c = true := by
  rw [Dev.bitOf_irq _ _ _ hc, h, Bool.or_true]

/-- Digests settled and the copies of a snapshot taken leave the tag path and every page but the twin's. -/
theorem settleReach_spec {d : Dev} (hjobs : d.snap.jobs = []) :
    (tailReach (digestSettle d)).tags = d.tags ∧ d.KeepsKeys (tailReach (digestSettle d)) (· / 131072 ∈ [Page.TWIN]) := by
  have h1 := (Dev.TwinKept.refl d).digestSettle
  generalize digestSettle d = d1 at h1 ⊢
  have h2 := (Dev.CopiesOnly.refl (d := d1) (by rw [h1.rest]; exact hjobs)).tailReach
  exact ⟨by rw [h2.rest, h1.rest], h1.regs.of_regs (by rw [h2.rest])⟩

/-! ## The verdict -/

/-- The verdict of a set over a data space whose words are sound: class 0 by default with the classifier off. -/
def setVerdict (m : Memory) (v : View) (feats : List Nat) : Verdict :=
  if v CLASS.CTL.EN = 0 then ⟨0, 0, 0, true, false, attrOf m (clsBase (v CLASS.CTL.BANK)) 0⟩
  else decideVec m (clsBase (v CLASS.CTL.BANK)) feats

theorem verdictOf_sound {x : DM} (hchecks : x.2.checks = []) (hgone : x.1.integ.gone = []) (v : View) (feats : List Nat) :
    verdictOf x v feats = (setVerdict x.2 v feats, x) := by
  simp only [verdictOf, setVerdict, readRange_sound hchecks hgone]
  split <;> rfl

/-- The oldest vector decided: its verdict waits, its class word is shown, and it is counted. -/
def vecDecided (d : Dev) (x : Vec) (rest : List Vec) (r : Verdict) : Dev :=
  let d1 := (((d.updTags fun t => { t with vecs := rest, decided := t.decided ++ [(x, r)] }).inc SEG.BLOBS_TAGGED.CNT).wr
    CLASS.LAST.CLASS_WORD (classWord (x.feats.getD 28 0) r r.mark)).inc CLASS.DECIDED_CNT.CNT
  if r.dflt then d1.inc CLASS.DEFAULT_CNT.CNT else d1

/-- The registers that a verdict writes. -/
def verdictFields : List Fld := [SEG.BLOBS_TAGGED.CNT, CLASS.LAST.CLASS_WORD, CLASS.DECIDED_CNT.CNT, CLASS.DEFAULT_CNT.CNT]

theorem vecDecided_rest (d : Dev) (x : Vec) (rest : List Vec) (r : Verdict) :
    vecDecided d x rest r = { d with
      regs := (vecDecided d x rest r).regs
      tags := { d.tags with vecs := rest, decided := d.tags.decided ++ [(x, r)] } } := by
  unfold vecDecided
  extract_lets d1
  split <;> rfl

theorem vecDecided_regs (d : Dev) (x : Vec) (rest : List Vec) (r : Verdict) :
    (vecDecided d x rest r).rd CLASS.LAST.CLASS_WORD = classWord (x.feats.getD 28 0) r r.mark % 2 ^ 32 ∧
    d.Counted (vecDecided d x rest r) CLASS.DECIDED_CNT.CNT ∧ d.Counted (vecDecided d x rest r) SEG.BLOBS_TAGGED.CNT ∧
    d.KeepsRegs (vecDecided d x rest r) verdictFields := by
  generalize he : vecDecided d x rest r = e
  unfold vecDecided at he
  extract_lets d1 at he
  have hdflt : d1.KeepsRegs e [CLASS.DEFAULT_CNT.CNT] := 
    he ▸ Dev.KeepsKeys.ite ((Dev.KeepsKeys.refl d1 _).inc (by simp)) (.refl _ _) _
  have htags : d.KeepsRegs (d.updTags fun t => { t with vecs := rest, decided := t.decided ++ [(x, r)] }) verdictFields :=
    Dev.KeepsKeys.of_regs (.refl d _) rfl
  have h1 : d.KeepsRegs d1 verdictFields :=
    Dev.KeepsKeys.inc (f := CLASS.DECIDED_CNT.CNT) (Dev.KeepsKeys.wr (f := CLASS.LAST.CLASS_WORD)
      (Dev.KeepsKeys.inc (f := SEG.BLOBS_TAGGED.CNT) htags (by simp [verdictFields])) (by simp [verdictFields]) _) (by simp [verdictFields])
  refine ⟨?_, ?_, ?_, h1.trans (hdflt.subset (by simp [verdictFields]))⟩
  · rw [hdflt _ (by decide), Dev.rd_inc_other _ (by decide)]
    exact Dev.rd_wr_same _ _ _
  · rw [Dev.Counted, hdflt _ (by decide), Dev.rd_inc_same, Dev.rd_wr_other _ _ _ _ (by decide), Dev.rd_inc_other _ (by decide)]
    rfl
  · rw [Dev.Counted, hdflt _ (by decide), Dev.rd_inc_other _ (by decide), Dev.rd_wr_other _ _ _ _ (by decide), Dev.rd_inc_same]
    rfl

/-- BANK_BUSY's end changes that bit and the book of the bank alone. -/
theorem clsBusy_spec (d : Dev) :
    (∃ b, clsBusy d = { d with regs := (clsBusy d).regs, tags := { d.tags with bankEpoch := b } }) ∧
    d.KeepsRegs (clsBusy d) [CLASS.TBL_STAT.BANK_BUSY] := by
  have hsame : d = { d with regs := d.regs, tags := { d.tags with bankEpoch := d.tags.bankEpoch } } := rfl
  unfold clsBusy
  split
  · exact ⟨⟨_, hsame⟩, Dev.KeepsKeys.refl _ _⟩
  · split
    · exact ⟨⟨_, hsame⟩, Dev.KeepsKeys.refl _ _⟩
    · exact ⟨⟨none, rfl⟩, (Dev.KeepsKeys.of_regs (.refl d _) rfl).wr (by simp) 0⟩

/-- What follows a verdict: the blob table shown, the old bank free, the line's digest, and copies. -/
def verdictTail (d : Dev) : Dev := tailReach (digestSettle (clsBusy (segShow d)))

/-- The keys of the registers it may write. -/
def verdictTailKey (k : Nat) : Prop := k ∈ (CLASS.TBL_STAT.BANK_BUSY :: tableFields).map Fld.key ∨ k / 131072 ∈ [Page.TWIN]

theorem verdictTailKey_page {k : Nat} (h : verdictTailKey k) : k / 131072 ∈ [Page.SEG, Page.CLASS, Page.TWIN] := by
  rcases h with hk | hk
  · exact (by decide : ∀ k ∈ (CLASS.TBL_STAT.BANK_BUSY :: tableFields).map Fld.key, k / 131072 ∈ [Page.SEG, Page.CLASS, Page.TWIN]) k hk
  · exact List.mem_cons_of_mem _ (List.mem_cons_of_mem _ hk)

theorem verdictTail_spec {d : Dev} (hjobs : d.snap.jobs = []) :
    (∃ b, (verdictTail d).tags = { d.tags with bankEpoch := b }) ∧ d.KeepsKeys (verdictTail d) verdictTailKey := by
  have h1 := segShow_only d
  unfold verdictTail
  generalize segShow d = d1 at h1 ⊢
  obtain ⟨⟨b, h2⟩, hbusy⟩ := clsBusy_spec d1
  generalize clsBusy d1 = d2 at h2 hbusy ⊢
  obtain ⟨htags, hkeep⟩ := settleReach_spec (d := d2) (by rw [h2, h1.1]; exact hjobs)
  refine ⟨⟨b, by rw [htags, h2, h1.1]⟩, ?_⟩
  have hshow : d.KeepsKeys d1 verdictTailKey := Dev.KeepsKeys.mono h1.2 fun k hk => .inl (List.mem_cons_of_mem _ hk)
  have hfree : d1.KeepsKeys d2 verdictTailKey := Dev.KeepsKeys.mono hbusy fun k hk => .inl (List.mem_cons.2 (.inl (List.mem_singleton.1 hk)))
  exact (hshow.trans hfree).trans (hkeep.mono fun k hk => .inr hk)

theorem classify_idle {x : DM} (h : x.1.tags.vecs = []) : classify' x = x := by simp only [classify', h]

/-- On sound memory the oldest vector is decided by its set, and the data space stays. -/
theorem classify_decides {x : DM} (hchecks : x.2.checks = []) (hgone : x.1.integ.gone = []) {vec : Vec} {rest : List Vec}
    (hvecs : x.1.tags.vecs = vec :: rest) {r : Verdict} (hr : r = setVerdict x.2 (x.1.cfg vec.epoch) vec.feats) :
    classify' x = (verdictTail (digestNote (vecDecided x.1 vec rest r) vec.close vec.blob fun q =>
      (some (classWord (vec.feats.getD 28 0) r r.mark), q.2)), x.2) := by
  subst hr
  simp only [classify', hvecs, verdictOf_sound hchecks hgone]
  rfl

theorem classify_spec {d : Dev} (hjobs : d.snap.jobs = []) (vec : Vec) (rest : List Vec) (r : Verdict)
    (g : Option Nat × Option Nat → Option Nat × Option Nat) :
    let e := verdictTail (digestNote (vecDecided d vec rest r) vec.close vec.blob g)
    e.tags.vecs = rest ∧ e.tags.decided = d.tags.decided ++ [(vec, r)] ∧
    e.rd CLASS.LAST.CLASS_WORD = classWord (vec.feats.getD 28 0) r r.mark % 2 ^ 32 ∧
    d.Counted e CLASS.DECIDED_CNT.CNT ∧ d.Counted e SEG.BLOBS_TAGGED.CNT ∧ d.KeepsPages e [Page.SEG, Page.CLASS, Page.TWIN] := by
  have hrest := vecDecided_rest d vec rest r
  obtain ⟨hword, hdecided, htagged, hregs⟩ := vecDecided_regs d vec rest r
  generalize vecDecided d vec rest r = d1 at hrest hword hdecided htagged hregs
  obtain ⟨⟨b, htags⟩, hkeep⟩ := verdictTail_spec (d := digestNote d1 vec.close vec.blob g) (by rw [digestNote, hrest]; exact hjobs)
  have hnote : d1.KeepsKeys (digestNote d1 vec.close vec.blob g) verdictTailKey := .of_regs (.refl _ _) rfl
  replace hkeep := hnote.trans hkeep
  have hread {f : Fld} (hf : f ∈ verdictFields) : ¬ verdictTailKey f.key := by
    have hout := (by decide : ∀ f ∈ verdictFields, f.key ∉ (CLASS.TBL_STAT.BANK_BUSY :: tableFields).map Fld.key ∧
      f.key / 131072 ∉ [Page.TWIN]) f hf
    exact not_or.2 hout
  refine ⟨by rw [htags, digestNote, hrest], by rw [htags, digestNote, hrest], (hkeep _ (hread (by simp [verdictFields]))).trans hword,
    (hkeep _ (hread (by simp [verdictFields]))).trans hdecided, (hkeep _ (hread (by simp [verdictFields]))).trans htagged, ?_⟩
  have hpages : d.KeepsPages d1 [Page.SEG, Page.CLASS, Page.TWIN] := hregs.keepsPages (by decide)
  exact (Dev.keepsPages_iff.1 hpages).trans (hkeep.mono fun _ hk => verdictTailKey_page hk)

/-! ## TAG_FORM -/

/-- The oldest verdict formed into a tag and counted. -/
def tagFormed (d : Dev) (x : Vec) (r : Verdict) (rest : List (Vec × Verdict)) : Dev :=
  let d1 := ((d.updTags fun t =>
    { t with decided := rest, formed := t.formed ++ [⟨x, r, tagWords d x r, attrHost r.attr, false⟩] }).inc TAG.TAGS_CNT.CNT).inc
      (CLASS.CLASS_CNT.CNT r.cls)
  if r.mark then d1.inc TAG.MARK_REQ_CNT.CNT else d1

theorem tagForm_eq {d : Dev} {x : Vec} {r : Verdict} {rest : List (Vec × Verdict)} (h : d.tags.decided = (x, r) :: rest) :
    tagForm d = tailReach (tagFormed d x r rest) := by
  simp only [tagForm, h]
  rfl

theorem tagFormed_rest (d : Dev) (x : Vec) (r : Verdict) (rest : List (Vec × Verdict)) :
    tagFormed d x r rest = { d with
      regs := (tagFormed d x r rest).regs
      tags := { d.tags with decided := rest, formed := d.tags.formed ++ [⟨x, r, tagWords d x r, attrHost r.attr, false⟩] } } := by
  unfold tagFormed
  extract_lets d1
  split <;> rfl

/-- A class below 64 has a counter of its own. -/
theorem classCnt_key {c : Nat} (hc : c < 64) :
    (CLASS.CLASS_CNT.CNT c).key ≠ TAG.TAGS_CNT.CNT.key ∧ (CLASS.CLASS_CNT.CNT c).key ≠ TAG.MARK_REQ_CNT.CNT.key := by
  simp only [Fld.key, CLASS.CLASS_CNT.CNT, TAG.TAGS_CNT.CNT, TAG.MARK_REQ_CNT.CNT, fld]
  omega

theorem tagFormed_regs (d : Dev) (x : Vec) {r : Verdict} (hc : r.cls < 64) (rest : List (Vec × Verdict)) :
    d.Counted (tagFormed d x r rest) TAG.TAGS_CNT.CNT ∧ d.Counted (tagFormed d x r rest) (CLASS.CLASS_CNT.CNT r.cls) ∧
    (r.mark = true → d.Counted (tagFormed d x r rest) TAG.MARK_REQ_CNT.CNT) ∧
    d.KeepsRegs (tagFormed d x r rest)
      ([TAG.TAGS_CNT.CNT, CLASS.CLASS_CNT.CNT r.cls] ++ if r.mark then [TAG.MARK_REQ_CNT.CNT] else []) := by
  obtain ⟨htags, hmark⟩ := classCnt_key hc
  generalize he : tagFormed d x r rest = e
  unfold tagFormed at he
  extract_lets d1 at he
  have h1 (fs : List Fld) : d.KeepsRegs d1 ([TAG.TAGS_CNT.CNT, CLASS.CLASS_CNT.CNT r.cls] ++ fs) :=
    ((Dev.KeepsKeys.of_regs (.refl d _) rfl).inc (f := TAG.TAGS_CNT.CNT) (by simp)).inc (f := CLASS.CLASS_CNT.CNT r.cls) (by simp)
  have hcount1 : d.Counted d1 TAG.TAGS_CNT.CNT := by
    rw [Dev.Counted, Dev.rd_inc_other _ htags.symm, Dev.rd_inc_same]
    rfl
  have hcount2 : d.Counted d1 (CLASS.CLASS_CNT.CNT r.cls) := by
    rw [Dev.Counted, Dev.rd_inc_same, Dev.rd_inc_other _ htags]
    rfl
  cases hm : r.mark with
  | false =>
    rw [if_neg (by simp [hm])] at he
    subst he
    exact ⟨hcount1, hcount2, nofun, h1 _⟩
  | true =>
    rw [if_pos hm] at he
    subst he
    refine ⟨(Dev.rd_inc_other _ (by decide)).trans hcount1, (Dev.rd_inc_other _ hmark).trans hcount2, fun _ => ?_,
      Dev.KeepsKeys.inc (f := TAG.MARK_REQ_CNT.CNT) (h1 _) (by simp)⟩
    rw [Dev.Counted, Dev.rd_inc_same, Dev.rd_inc_other _ hmark.symm, Dev.rd_inc_other _ (by decide)]
    rfl

/-- The last word of a tag is its T_FORM. -/
theorem tagWords_getLast? (d : Dev) (x : Vec) (r : Verdict) : (tagWords d x r).getLast? = some (d.nowNs % 2 ^ 32) := rfl

end Sys2Proof.Machine
end

section
/-! SUPPORT. TAG_HANDOFF (R217 to R220): the mark's request, the records for the host, and LAT_MAX; the statement about tags. -/

namespace Sys2Proof.Machine

/-! ## Records on their way into the tag stream -/

/-- The registers that records entering the tag stream may write. -/
def recordFields : List Fld :=
  [TAG.SSEQ.NEXT, TAG.HQ_DEPTH.N, TAG.HQ_MAX.N, TAG.FEAT_CNT.CNT, TAG.MARKRES_CNT.CNT, TAG.HOST_LOST_CNT.CNT, Com.IRQ_RAW Page.TAG,
    Com.ERR_CNT Page.TAG]

theorem recordFields_page : ∀ f ∈ recordFields, f.key / 131072 ∈ [Page.TAG] := by decide

theorem recordFields_key {f : Fld} (h : f ∈ recordFields) : f.key ∈ recordFields.map Fld.key := List.mem_map_of_mem h

/-- From `d` to `e` records have entered the tag stream: formed tags and the hand-off queue stay, and events are only added. -/
structure Dev.RecordsKept (d e : Dev) : Prop where
  rest : e = { d with regs := e.regs, tags := e.tags }
  formed : e.tags.formed = d.tags.formed
  handOff : e.tags.handOff = d.tags.handOff
  raised : ∀ c < 8, bitOf (d.rd (Com.IRQ_RAW Page.TAG)) c = true → bitOf (e.rd (Com.IRQ_RAW Page.TAG)) c = true
  regs : d.KeepsRegs e recordFields

namespace Dev.RecordsKept
variable {d e : Dev}

theorem refl (d : Dev) : d.RecordsKept d := ⟨rfl, rfl, rfl, fun _ _ h => h, KeepsKeys.refl _ _⟩

theorem trans {e' : Dev} (h : d.RecordsKept e) (h' : e.RecordsKept e') : d.RecordsKept e' :=
  ⟨by rw [h'.rest, h.rest], h'.formed.trans h.formed, h'.handOff.trans h.handOff, fun c hc hb => h'.raised c hc (h.raised c hc hb),
    h.regs.trans h'.regs⟩

theorem ite (c : Prop) [Decidable c] {e' : Dev} (h : d.RecordsKept e) (h' : d.RecordsKept e') : d.RecordsKept (if c then e else e') := by
  split
  · exact h
  · exact h'

/-- A change of registers other than IRQ_RAW. -/
theorem of_onlyKeys (h : d.RecordsKept e) {e' : Dev} {fs : List Fld} (h' : e.OnlyRegs e' fs) (hfs : fs ⊆ recordFields)
    (hraw : (Com.IRQ_RAW Page.TAG).key ∉ fs.map Fld.key) : d.RecordsKept e' :=
  h.trans ⟨by rw [h'.1], by rw [h'.1], by rw [h'.1], fun _ _ hb => by rw [h'.2 _ hraw]; exact hb, h'.2.subset hfs⟩

theorem inc (h : d.RecordsKept e) {f : Fld} (hf : f ∈ recordFields) (hraw : (Com.IRQ_RAW Page.TAG).key ≠ f.key) :
    d.RecordsKept (e.inc f) :=
  h.of_onlyKeys (fs := [f]) ((OnlyKeys.refl e _).inc (by simp)) (by simpa using hf) (by simpa using hraw)

theorem updTags (h : d.RecordsKept e) (g : TagPath → TagPath) (hformed : (g e.tags).formed = e.tags.formed)
    (hhand : (g e.tags).handOff = e.tags.handOff) : d.RecordsKept (e.updTags g) :=
  h.trans ⟨rfl, hformed, hhand, fun _ _ hb => hb, KeepsKeys.of_regs (.refl e _) rfl⟩

theorem irq (h : d.RecordsKept e) (b : Nat) : d.RecordsKept (e.irq Page.TAG b) := by
  have honly : e.OnlyRegs (e.irq Page.TAG b) recordFields :=
    (OnlyKeys.refl e _).irq (recordFields_key (by simp [recordFields])) (recordFields_key (by simp [recordFields])) b
  exact h.trans ⟨by rw [honly.1], by rw [honly.1], by rw [honly.1], fun c hc hb => bitOf_irq_of_set e hc hb, honly.2⟩

theorem passSseq (h : d.RecordsKept e) (r : StreamRec) : d.RecordsKept (passSseq e r) :=
  (h.updTags _ rfl rfl).of_onlyKeys (fs := [TAG.SSEQ.NEXT]) ((OnlyKeys.refl _ _).wr (by simp) _) (by simp [recordFields]) (by decide)

theorem dropOldest (h : d.RecordsKept e) : d.RecordsKept (dropOldest e) := by
  have hlost := (h.inc (f := TAG.HOST_LOST_CNT.CNT) (by simp [recordFields]) (by decide)).irq TAG.irq.HOST_LOST
  unfold Machine.dropOldest
  extract_lets d1
  split
  · exact hlost.updTags _ rfl rfl
  · exact hlost.passSseq _
  · exact hlost

theorem makeRoom (h : d.RecordsKept e) (n fuel : Nat) : d.RecordsKept (makeRoom n fuel e) := by
  induction fuel generalizing e with
  | zero => exact h
  | succ fuel ih =>
    rw [Machine.makeRoom]
    split
    · exact ih h.dropOldest
    · exact h

theorem hqShow (h : d.RecordsKept e) : d.RecordsKept (hqShow e) :=
  h.of_onlyKeys (hqShow_only e) (by simp [recordFields]) (by decide)

theorem tagPut (h : d.RecordsKept e) (type blob close : Nat) (words : List Nat) (tagOf : Option Nat) :
    d.RecordsKept (tagPut e type blob close words tagOf) :=
  .ite _ h ((h.makeRoom _ _).updTags _ rfl rfl).hqShow

theorem markResultPut (h : d.RecordsKept e) (r : MarkResult) : d.RecordsKept (markResultPut e r) :=
  tagPut (.ite _ (h.inc (by simp [recordFields]) (by decide)) h) _ _ _ _ _

end Dev.RecordsKept

theorem makeRoom_fits {d : Dev} {n : Nat} (h : retained d.tags + n ≤ 2097152) (fuel : Nat) : makeRoom n fuel d = d := by
  cases fuel with
  | zero => rfl
  | succ fuel => exact if_neg (by omega)

/-- With the host path on and room in the retention buffer a record waits behind the others. -/
theorem tagPut_fits {d : Dev} (hen : d.on TAG.CTL.HOST_EN = true) {words : List Nat}
    (hroom : retained d.tags + 4 * words.length ≤ 2097152) (type blob close : Nat) (tagOf : Option Nat) :
    tagPut d type blob close words tagOf = hqShow (d.updTags fun t =>
      { t with waiting := t.waiting ++ [⟨type, blob, close, words, t.uid, tagOf⟩], uid := t.uid + 1 }) := by
  simp [tagPut, hen, makeRoom_fits hroom]

theorem hqShow_depth (d : Dev) : (hqShow d).rd TAG.HQ_DEPTH.N = min d.tags.waiting.length 65535 := by
  have hdepth : (d.wrSat TAG.HQ_DEPTH.N d.tags.waiting.length).rd TAG.HQ_DEPTH.N = min d.tags.waiting.length 65535 :=
    Dev.rd_wr_fits d (Nat.lt_succ_of_le (min_le_right _ _))
  unfold hqShow
  extract_lets n d1
  split
  · exact (Dev.rd_wr_other _ _ _ _ (by decide)).trans hdepth
  · exact hdepth

/-! ## The four parts of a hand-over -/

/-- A tag asks for a mark that the hand-off queue has no room for. -/
def markFull (d : Dev) (t : Formed) : Bool := t.verdict.mark && decide (64 ≤ d.tags.handOff.length)

/-- The mark's request as the queue takes it. -/
def markRequest (t : Formed) : HandOff :=
  ⟨t.vec.blob, t.vec.close, toSigned 32 (t.vec.feats.getD 13 0), t.vec.p0, t.vec.p1, attrProg t.verdict.attr, t.taken⟩

def markQueued (d : Dev) (t : Formed) : Dev :=
  (d.updTags fun q => { q with handOff := q.handOff ++ [markRequest t] }).wr TAG.MQ_DEPTH.N (d.tags.handOff ++ [markRequest t]).length

def markDropped (d : Dev) (t : Formed) : Dev :=
  digestNote ((d.inc TAG.MARK_FULL_CNT.CNT).irq Page.TAG TAG.irq.MARK_FULL) t.vec.close t.vec.blob fun q => (q.1, some 2)

/-- The marker path: the request queued, dropped, or none. -/
def tagMarked (d : Dev) (t : Formed) : Dev :=
  if t.verdict.mark && !markFull d t then markQueued d t else if markFull d t then markDropped d t else d

/-- The host path: the tag, its features under the set `v`, and the result of a dropped mark. -/
def tagSent (d : Dev) (v : View) (t : Formed) (full : Bool) : Dev :=
  let d2 := if t.host then tagPut d 0x44 t.vec.blob t.vec.close
    (if full then t.words.set 17 (t.words.getD 17 0 + 16384) else t.words) none else d
  let d3 := if t.host && d.on TAG.CTL.HOST_EN && v TAG.CTL.FEAT_EN != 0 then
    tagPut (d2.inc TAG.FEAT_CNT.CNT) 0x56 t.vec.blob t.vec.close (featureWords t.vec) (some d.tags.uid) else d2
  if full then markResultPut d3 (earlyResult t.vec.blob t.vec.close 6 t.taken) else d3

/-- The end: LAT_MAX follows the latency `ns`, digests are settled and copies taken. -/
def tagTimed (d : Dev) (ns : Nat) : Dev := tailReach (digestSettle (if d.rd TAG.LAT_MAX.NS < ns then d.wrSat TAG.LAT_MAX.NS ns else d))

/-- The device with the oldest formed tag taken off. -/
def tagTaken (d : Dev) (rest : List Formed) : Dev := d.updTags fun q => { q with formed := rest }

theorem tagHandoff_eq {d : Dev} {t : Formed} {rest : List Formed} (h : d.tags.formed = t :: rest) :
    tagHandoff d =
      let e := tagSent (tagMarked (tagTaken d rest) t) ((tagTaken d rest).cfg t.vec.epoch) t (markFull (tagTaken d rest) t)
      tagTimed e ((e.now - t.vec.ref) / 16) := by
  simp only [tagHandoff, h]
  rfl

theorem tagSent_kept (d : Dev) (v : View) (t : Formed) (full : Bool) : d.RecordsKept (tagSent d v t full) := by
  unfold tagSent
  extract_lets d2 d3
  have h2 : d.RecordsKept d2 := .ite _ ((Dev.RecordsKept.refl d).tagPut _ _ _ _ _) (.refl d)
  have h3 : d.RecordsKept d3 := .ite _ ((h2.inc (by simp [recordFields]) (by decide)).tagPut _ _ _ _ _) h2
  exact .ite _ (h3.markResultPut _) h3

/-- A tag for the host alone, without a feature record, is one record of the stream. -/
theorem tagSent_host {d : Dev} {v : View} {t : Formed} (hhost : t.host = true) (hen : d.on TAG.CTL.HOST_EN = true)
    (hfeat : v TAG.CTL.FEAT_EN = 0) (hroom : retained d.tags + 4 * t.words.length ≤ 2097152) :
    tagSent d v t false = hqShow (d.updTags fun q =>
      { q with waiting := q.waiting ++ [⟨0x44, t.vec.blob, t.vec.close, t.words, q.uid, none⟩], uid := q.uid + 1 }) := by
  simp [tagSent, hhost, hfeat, tagPut_fits hen hroom]

theorem tagTimed_spec {d : Dev} (hjobs : d.snap.jobs = []) (ns : Nat) :
    (tagTimed d ns).tags = d.tags ∧
    (tagTimed d ns).rd TAG.LAT_MAX.NS = (if d.rd TAG.LAT_MAX.NS < ns then min ns 65535 else d.rd TAG.LAT_MAX.NS) ∧
    d.KeepsKeys (tagTimed d ns) fun k => k = TAG.LAT_MAX.NS.key ∨ k / 131072 ∈ [Page.TWIN] := by
  generalize he : (if d.rd TAG.LAT_MAX.NS < ns then d.wrSat TAG.LAT_MAX.NS ns else d) = e
  have honly : d.OnlyRegs e [TAG.LAT_MAX.NS] := he ▸ Dev.OnlyKeys.ite _ ((Dev.OnlyKeys.refl d _).wr (by simp) _) (.refl _ _)
  obtain ⟨htags, hkeep⟩ := settleReach_spec (d := e) (by rw [honly.1]; exact hjobs)
  rw [tagTimed, he]
  refine ⟨by rw [htags, honly.1], ?_,
    (Dev.KeepsKeys.mono honly.2 fun k hk => .inl (List.mem_singleton.1 hk)).trans (hkeep.mono fun _ hk => .inr hk)⟩
  rw [hkeep _ (by decide), ← he]
  split
  · exact Dev.rd_wr_fits d (Nat.lt_succ_of_le (min_le_right _ _))
  · rfl

/-- What the host path and the end leave of the device after the marker path. -/
theorem tagSent_timed_spec {d : Dev} (hjobs : d.snap.jobs = []) (v : View) (t : Formed) (full : Bool) :
    let e := tagSent d v t full
    let e' := tagTimed e ((e.now - t.vec.ref) / 16)
    e'.tags = e.tags ∧
    e'.rd TAG.LAT_MAX.NS = (if d.rd TAG.LAT_MAX.NS < (d.now - t.vec.ref) / 16 then min ((d.now - t.vec.ref) / 16) 65535
      else d.rd TAG.LAT_MAX.NS) ∧
    e.KeepsKeys e' (fun k => k = TAG.LAT_MAX.NS.key ∨ k / 131072 ∈ [Page.TWIN]) ∧ d.KeepsPages e' [Page.TAG, Page.TWIN] := by
  have hsent := tagSent_kept d v t full
  generalize tagSent d v t full = e at hsent
  obtain ⟨htags, hlat, hkeep⟩ := tagTimed_spec (d := e) (by rw [hsent.rest]; exact hjobs) ((e.now - t.vec.ref) / 16)
  have hnow : e.now = d.now := by rw [hsent.rest]; rfl
  refine ⟨htags, by rw [hlat, hsent.regs _ (by decide), hnow], hkeep, ?_⟩
  have hpages : d.KeepsPages e [Page.TAG, Page.TWIN] := hsent.regs.keepsPages fun f hf => by
    exact List.mem_cons.2 (.inl (List.mem_singleton.1 (recordFields_page f hf)))
  refine (Dev.keepsPages_iff.1 hpages).trans (hkeep.mono fun k hk => ?_)
  rcases hk with rfl | hk
  · decide
  · exact List.mem_cons_of_mem _ hk

/-! ## The forms of a hand-over -/

theorem tagHandoff_queues {d : Dev} {t : Formed} {rest : List Formed} (h : d.tags.formed = t :: rest) (hmark : t.verdict.mark = true)
    (hroom : d.tags.handOff.length < 64) (hjobs : d.snap.jobs = []) :
    (tagHandoff d).tags.formed = rest ∧ (tagHandoff d).tags.handOff = d.tags.handOff ++ [markRequest t] ∧
    (tagHandoff d).rd TAG.MQ_DEPTH.N = d.tags.handOff.length + 1 ∧
    (tagHandoff d).rd TAG.LAT_MAX.NS = (if d.rd TAG.LAT_MAX.NS < (d.now - t.vec.ref) / 16 then min ((d.now - t.vec.ref) / 16) 65535
      else d.rd TAG.LAT_MAX.NS) ∧
    d.KeepsPages (tagHandoff d) [Page.TAG, Page.TWIN] := by
  have hfull : markFull (tagTaken d rest) t = false := by
    rw [markFull, hmark, Bool.true_and]
    exact decide_eq_false (Nat.not_le.2 hroom)
  have hmarked : tagMarked (tagTaken d rest) t = markQueued (tagTaken d rest) t := by simp [tagMarked, hmark, hfull]
  rw [tagHandoff_eq h, hmarked, hfull]
  have hkeep : d.KeepsRegs (markQueued (tagTaken d rest) t) [TAG.MQ_DEPTH.N] := (Dev.KeepsKeys.of_regs (.refl d _) rfl).wr (by simp) _
  have hdepth : (markQueued (tagTaken d rest) t).rd TAG.MQ_DEPTH.N = d.tags.handOff.length + 1 := by
    rw [markQueued, Dev.rd_wr_fits _ ?_]
    · exact List.length_append
    · exact (List.length_append (bs := [markRequest t])) ▸ Nat.lt_of_le_of_lt hroom (by decide)
  have hformed : (markQueued (tagTaken d rest) t).tags.formed = rest := rfl
  have hhand : (markQueued (tagTaken d rest) t).tags.handOff = d.tags.handOff ++ [markRequest t] := rfl
  have hnow : (markQueued (tagTaken d rest) t).now = d.now := rfl
  have hjobs' : (markQueued (tagTaken d rest) t).snap.jobs = [] := hjobs
  generalize markQueued (tagTaken d rest) t = d1 at hkeep hdepth hformed hhand hnow hjobs' ⊢
  generalize (tagTaken d rest).cfg t.vec.epoch = v
  have hsent := tagSent_kept d1 v t false
  obtain ⟨htags, hlat, hend, hpages⟩ := tagSent_timed_spec hjobs' v t false
  rw [hkeep TAG.LAT_MAX.NS (by decide), hnow] at hlat
  refine ⟨by rw [htags, hsent.formed, hformed], by rw [htags, hsent.handOff, hhand], ?_, hlat, ?_⟩
  · exact (hend _ (by decide)).trans ((hsent.regs _ (by decide)).trans hdepth)
  · exact (Dev.keepsPages_iff.1 (hkeep.keepsPages (by decide))).trans hpages

theorem tagHandoff_drops {d : Dev} {t : Formed} {rest : List Formed} (h : d.tags.formed = t :: rest) (hmark : t.verdict.mark = true)
    (hroom : 64 ≤ d.tags.handOff.length) (hjobs : d.snap.jobs = []) :
    (tagHandoff d).tags.formed = rest ∧ (tagHandoff d).tags.handOff = d.tags.handOff ∧
    d.Counted (tagHandoff d) TAG.MARK_FULL_CNT.CNT ∧
    bitOf ((tagHandoff d).rd (Com.IRQ_RAW Page.TAG)) TAG.irq.MARK_FULL = true ∧ d.KeepsPages (tagHandoff d) [Page.TAG, Page.TWIN] := by
  have hfull : markFull (tagTaken d rest) t = true := by
    rw [markFull, hmark, Bool.true_and]
    exact decide_eq_true hroom
  have hmarked : tagMarked (tagTaken d rest) t = markDropped (tagTaken d rest) t := by simp [tagMarked, hfull]
  rw [tagHandoff_eq h, hmarked, hfull]
  have honly : (tagTaken d rest).OnlyRegs (((tagTaken d rest).inc TAG.MARK_FULL_CNT.CNT).irq Page.TAG TAG.irq.MARK_FULL)
      [TAG.MARK_FULL_CNT.CNT, Com.IRQ_RAW Page.TAG, Com.ERR_CNT Page.TAG] :=
    ((Dev.OnlyKeys.refl _ _).inc (by simp)).irq (by simp) (by simp) _
  have hkeep : d.KeepsPages (markDropped (tagTaken d rest) t) [Page.TAG, Page.TWIN] :=
    (Dev.KeepsRegs.keepsPages (Dev.KeepsKeys.of_regs (.refl d _) rfl |>.trans honly.2) (by decide))
  have hcount : d.Counted (markDropped (tagTaken d rest) t) TAG.MARK_FULL_CNT.CNT :=
    (Dev.rd_irq_other _ _ _ _ (by decide) (by decide)).trans (Dev.rd_inc_same (tagTaken d rest) _)
  have hraised : bitOf ((markDropped (tagTaken d rest) t).rd (Com.IRQ_RAW Page.TAG)) TAG.irq.MARK_FULL = true :=
    (Dev.bitOf_irq ((tagTaken d rest).inc TAG.MARK_FULL_CNT.CNT) _ _ (by decide)).trans (by simp)
  have htaken : (markDropped (tagTaken d rest) t).tags = { d.tags with formed := rest } := by
    rw [markDropped, digestNote, honly.1]
    rfl
  have hjobs' : (markDropped (tagTaken d rest) t).snap.jobs = [] := by
    rw [markDropped, digestNote, honly.1]
    exact hjobs
  generalize markDropped (tagTaken d rest) t = d1 at hkeep hcount hraised htaken hjobs' ⊢
  generalize (tagTaken d rest).cfg t.vec.epoch = v
  have hsent := tagSent_kept d1 v t true
  obtain ⟨htags, -, hend, hpages⟩ := tagSent_timed_spec hjobs' v t true
  refine ⟨by rw [htags, hsent.formed, htaken], by rw [htags, hsent.handOff, htaken], ?_, ?_,
    (Dev.keepsPages_iff.1 hkeep).trans hpages⟩
  · exact (hend _ (by decide)).trans ((hsent.regs _ (by decide)).trans hcount)
  · rw [hend _ (by decide)]
    exact hsent.raised _ (by decide) hraised

theorem tagHandoff_sends {d : Dev} {t : Formed} {rest : List Formed} (h : d.tags.formed = t :: rest) (hmark : t.verdict.mark = false)
    (hhost : t.host = true) (hen : d.on TAG.CTL.HOST_EN = true) (hfeat : d.cfg t.vec.epoch TAG.CTL.FEAT_EN = 0)
    (hroom : retained d.tags + 4 * t.words.length ≤ 2097152) (hjobs : d.snap.jobs = []) :
    (tagHandoff d).tags.formed = rest ∧ (tagHandoff d).tags.handOff = d.tags.handOff ∧
    (tagHandoff d).tags.waiting = d.tags.waiting ++ [⟨0x44, t.vec.blob, t.vec.close, t.words, d.tags.uid, none⟩] ∧
    (tagHandoff d).rd TAG.HQ_DEPTH.N = min (d.tags.waiting.length + 1) 65535 ∧ d.KeepsPages (tagHandoff d) [Page.TAG, Page.TWIN] := by
  have hfull : markFull (tagTaken d rest) t = false := by simp [markFull, hmark]
  have hmarked : tagMarked (tagTaken d rest) t = tagTaken d rest := by simp [tagMarked, hmark, hfull]
  have hset : (tagTaken d rest).cfg t.vec.epoch = d.cfg t.vec.epoch := Dev.cfg_of_regs rfl rfl _
  rw [tagHandoff_eq h, hmarked, hfull, hset]
  obtain ⟨htags, -, hend, hpages⟩ := tagSent_timed_spec (d := tagTaken d rest) hjobs (d.cfg t.vec.epoch) t false
  have hsent := tagSent_host (d := tagTaken d rest) hhost hen hfeat hroom
  rw [hsent] at htags hend hpages ⊢
  rw [htags, hqShow_tags, hend _ (by decide), hqShow_depth]
  refine ⟨rfl, rfl, rfl, congrArg (min · 65535) (List.length_append ..), ?_⟩
  exact (Dev.KeepsKeys.of_regs (.refl d _) rfl).trans (Dev.keepsPages_iff.1 hpages)

/-! ## The statement -/

/-- Settles O28: vectors decided, tags formed, the three ways a tag is handed over, and the two registers cleared. -/
theorem tagsAreFormed : Obligations.TagsAreFormed := by
  refine ⟨fun s x rest v r hup hvecs hv hsound hjobs hr => ?_, fun s hup hvecs => ?_,
    fun s x r rest hup hdec hcls hjobs => gives_of_onDev rfl hup ?_, fun s f rest hup hf hmark hroom hjobs => gives_of_onDev rfl hup ?_,
    fun s f rest hup hf hmark hroom hjobs => gives_of_onDev rfl hup (tagHandoff_drops hf hmark hroom hjobs),
    fun s f rest hup hf hmark hhost hen hfeat hroom hjobs =>
      gives_of_onDev rfl hup (tagHandoff_sends hf hmark hhost hen hfeat hroom hjobs),
    fun s hup => gives_of_onDev rfl hup ⟨Dev.rd_wr_same _ _ _, (Dev.OnlyKeys.refl _ _).wr (by simp) _⟩,
    fun s hup => gives_of_onDev rfl hup ⟨Dev.rd_wr_same _ _ _, (Dev.OnlyKeys.refl _ _).wr (by simp) _⟩⟩
  · obtain ⟨hchecks, hgone⟩ := hsound
    subst hv
    have heq := classify_decides (x := (s.dev, s.mem)) hchecks hgone hvecs hr
    refine gives_of_onBoth rfl hup (congrArg Prod.snd heq) ?_
    rw [heq]
    exact classify_spec hjobs x rest r _
  · have heq := classify_idle (x := (s.dev, s.mem)) hvecs
    exact gives_of_onBoth rfl hup (congrArg Prod.snd heq) (congrArg Prod.fst heq)
  · rw [tagForm_eq hdec]
    have hrest := tagFormed_rest s.dev x r rest
    obtain ⟨htags, hclass, hmark, hkeep⟩ := tagFormed_regs s.dev x hcls rest
    generalize tagFormed s.dev x r rest = d at hrest htags hclass hmark hkeep ⊢
    have hcopies := (Dev.CopiesOnly.refl (d := d) (by rw [hrest]; exact hjobs)).tailReach
    generalize tailReach d = e at hcopies ⊢
    rw [hcopies.rest, hrest]
    rw [hrest] at htags hclass hmark hkeep
    exact ⟨rfl, ⟨_, rfl, rfl, rfl, rfl, tagWords_getLast? _ _ _⟩, htags, hclass, hmark, hkeep⟩
  · obtain ⟨hformed, hhand, hrest⟩ := tagHandoff_queues hf hmark hroom hjobs
    exact ⟨hformed, ⟨_, hhand, rfl, rfl, rfl, rfl, rfl, rfl, rfl⟩, hrest⟩

end Sys2Proof.Machine
end

section
/-! SUPPORT. THP requests (R294 to R299): the session that executes a request, its answers, and the frames a session is sent. -/

namespace Sys2Proof.Machine

theorem gives_of_onDevM {c : Instr} {s : State} {g : Memory → Dev → Dev} {P : Dev → Prop} (h : exec c s = s.onDevM g)
    (hup : s.dev.up = true) (hP : P (g s.mem s.dev)) : Gives c s P :=
  ⟨g s.mem s.dev, by rw [h, State.onDevM, if_pos hup], hP⟩

/-! ## What requests and frames leave -/

/-- From `d` to `e` only registers with keys in `S`, the sessions' books, the intervals measured and what the module has sent changed. -/
structure Dev.HostKept (d e : Dev) (S : Nat → Prop) : Prop where
  rest : e = { d with regs := e.regs, out := e.out, host := e.host, marks := e.marks }
  regs : d.KeepsKeys e S

theorem Dev.onlyHost_iff {d e : Dev} : d.OnlyHost e ↔ d.HostKept e (· / 131072 ∈ [Page.HOST]) :=
  ⟨fun h => ⟨h.1, h.2⟩, fun h => ⟨h.1, h.2⟩⟩

namespace Dev.HostKept
variable {d e : Dev} {S T : Nat → Prop}

theorem refl (d : Dev) (S : Nat → Prop) : d.HostKept d S := ⟨rfl, .refl _ _⟩

theorem trans {e' : Dev} (h : d.HostKept e S) (h' : e.HostKept e' S) : d.HostKept e' S :=
  ⟨by rw [h'.rest, h.rest], h.regs.trans h'.regs⟩

theorem tags (h : d.HostKept e S) : e.tags = d.tags := by rw [h.rest]

theorem arch (h : d.HostKept e S) : e.arch = d.arch := by rw [h.rest]

theorem mono (h : d.HostKept e S) (hST : ∀ k, S k → T k) : d.HostKept e T := ⟨h.rest, h.regs.mono hST⟩

theorem of_onlyKeys (h : d.OnlyKeys e S) : d.HostKept e S := ⟨by rw [h.1], h.2⟩

theorem wr (h : d.HostKept e S) {f : Fld} (hf : S f.key) (v : Nat) : d.HostKept (e.wr f v) S :=
  h.trans (of_onlyKeys ((OnlyKeys.refl e S).wr hf v))

theorem inc (h : d.HostKept e S) {f : Fld} (hf : S f.key) : d.HostKept (e.inc f) S := h.wr hf _

theorem emit (h : d.HostKept e S) (o : Out) : d.HostKept (e.emit o) S := h.trans ⟨rfl, .of_regs (.refl e _) rfl⟩

theorem start (h : d.HostKept e S) (t : Timer) : d.HostKept (e.start t) S := h.trans ⟨rfl, .of_regs (.refl e _) rfl⟩

theorem setHost (h : d.HostKept e S) (g : HostSt) : d.HostKept { e with host := g } S := h.trans ⟨rfl, .of_regs (.refl e _) rfl⟩

end Dev.HostKept

/-! ## What a session is known by -/

/-- The registers that say who a session is and what it holds. -/
def sessFields (j : Nat) : List Fld :=
  [HOST.SESS_STAT.STATE j, HOST.SESS_STAT.STREAMS j, HOST.SESS_STAT.VER j, HOST.SESS_STAT.HOME j, HOST.SESS_STAT.CUR j, HOST.SESS_STAT.WR j,
    HOST.SESS_STAT.JOB j, HOST.SESS_IP.IP j, HOST.SESS_PORTS.CTL_PORT j, HOST.SESS_PORTS.DATA_PORT j, HOST.SESS_ID.ID j]

/-- The sessions read in `e` as in `d`. -/
def Dev.SessKept (d e : Dev) : Prop := ∀ j : Fin 4, ∀ f ∈ sessFields j, e.rd f = d.rd f

theorem Dev.KeepsKeys.sessKept {d e : Dev} {S : Nat → Prop} (h : d.KeepsKeys e S) (hS : ∀ j : Fin 4, ∀ f ∈ sessFields j, ¬ S f.key) :
    d.SessKept e := fun j f hf => h f (hS j f hf)

namespace Dev.SessKept
variable {d e : Dev}

theorem trans {e' : Dev} (h : d.SessKept e) (h' : e.SessKept e') : d.SessKept e' := fun j f hf => (h' j f hf).trans (h j f hf)

theorem openSessions (h : d.SessKept e) : openSessions e = openSessions d :=
  List.filter_congr fun j hj => by
    simp only [Dev.on, h ⟨j, List.mem_range.1 hj⟩ (HOST.SESS_STAT.STATE j) (by simp [sessFields])]

/-- Among the open sessions those with the same registers are found. -/
theorem find?_open (h : d.SessKept e) {p q : Nat → Bool} (hpq : ∀ j : Fin 4, p j = q j) :
    (Machine.openSessions e).find? p = (Machine.openSessions d).find? q := by
  rw [h.openSessions]
  exact List.find?_congr fun j hj => hpq ⟨j, List.mem_range.1 (List.mem_filter.1 hj).1⟩

theorem tagSession (h : d.SessKept e) : tagSession e = tagSession d :=
  h.find?_open fun j => by rw [h j (HOST.SESS_STAT.STREAMS j) (by simp [sessFields])]

theorem findSession (h : d.SessKept e) (r : ThpReq) : findSession e r = findSession d r :=
  h.find?_open fun j => by
    rw [h j (HOST.SESS_IP.IP j) (by simp [sessFields]), h j (HOST.SESS_PORTS.CTL_PORT j) (by simp [sessFields]),
      h j (HOST.SESS_ID.ID j) (by simp [sessFields])]

theorem minorOf (h : d.SessKept e) (j : Fin 4) : minorOf e j = minorOf d j := by
  rw [Machine.minorOf, Machine.minorOf, h j (HOST.SESS_STAT.VER j) (by simp [sessFields])]

theorem job (h : d.SessKept e) (j : Fin 4) : e.on (HOST.SESS_STAT.JOB j) = d.on (HOST.SESS_STAT.JOB j) := by
  rw [Dev.on, Dev.on, h j (HOST.SESS_STAT.JOB j) (by simp [sessFields])]

end Dev.SessKept

/-! ## Frames -/

/-- The counters of frames sent, and of frames received. -/
def txFields : List Fld := [HOST.TX_FRAMES_HA.CNT, HOST.TX_FRAMES_HB.CNT]
def rxFields : List Fld := [HOST.RX_FRAMES_HA.CNT, HOST.RX_FRAMES_HB.CNT]

/-- A frame to a session's host: the cache entry it is sent by is in use. -/
theorem sendFrame_kept (d : Dev) (port kind : Nat) (body : List Nat) :
    d.HostKept (sendFrame d port kind body) (· ∈ txFields.map Fld.key) :=
  ((Dev.HostKept.refl d _).emit _).inc (by split <;> simp [txFields])

theorem arpUse_kept (d : Dev) (p j : Nat) (S : Nat → Prop) : d.HostKept (arpUse d p j) S := (Dev.HostKept.refl d S).setHost _

theorem sendFrame_host (d : Dev) (port kind : Nat) (body : List Nat) : (sendFrame d port kind body).host = d.host := rfl

/-- The number of the next frame of a stream on the session's port. -/
def frameNext (d : Dev) (j : Fin 4) (stream : Nat) : Nat :=
  (d.host.sess[j].frameSeq.find? fun e => e.1 == (stream, d.rd (HOST.SESS_STAT.CUR j))).elim 0 Prod.snd

/-- The session's book once a frame of the stream has been numbered on the port. -/
def Sess.numbered (s : Sess) (stream port n : Nat) : Sess :=
  { s with frameSeq := ((stream, port), (n + 1) % 2 ^ 32) :: s.frameSeq.filter fun e => e.1 != (stream, port) }

theorem dataFrame_eq (d : Dev) (j : Fin 4) (stream kind flags : Nat) (payload : List Nat) :
    dataFrame d j stream kind flags payload =
      sendFrame (arpUse (d.updHost fun h => { h with
          sess := h.sess.set j (d.host.sess[j].numbered stream (d.rd (HOST.SESS_STAT.CUR j)) (frameNext d j stream)) })
        (d.rd (HOST.SESS_STAT.CUR j)) j) (d.rd (HOST.SESS_STAT.CUR j)) kind
        ([d.rd (HOST.SESS_ID.ID j), flags + 4 * d.rd (HOST.SESS_STAT.CUR j), frameNext d j stream] ++ payload) := by
  simp only [dataFrame, Fin.ofNat_eq_cast, Fin.cast_val_eq_self]
  rfl

/-- A data frame carries the session, its port and its number, which rises by one. -/
theorem dataFrame_spec (d : Dev) (j : Fin 4) (stream kind flags : Nat) (payload : List Nat) :
    (dataFrame d j stream kind flags payload).out = .frame (d.rd (HOST.SESS_STAT.CUR j)) kind
      ([d.rd (HOST.SESS_ID.ID j), flags + 4 * d.rd (HOST.SESS_STAT.CUR j), frameNext d j stream] ++ payload) :: d.out ∧
    ((stream, d.rd (HOST.SESS_STAT.CUR j)), (frameNext d j stream + 1) % 2 ^ 32) ∈
      (dataFrame d j stream kind flags payload).host.sess[j].frameSeq ∧
    d.HostKept (dataFrame d j stream kind flags payload) (· ∈ txFields.map Fld.key) := by
  rw [dataFrame_eq]
  refine ⟨rfl, ?_, (((Dev.HostKept.refl d _).setHost _).trans (arpUse_kept _ _ _ _)).trans (sendFrame_kept _ _ _ _)⟩
  rw [sendFrame_host]
  simp [arpUse, Dev.updHost, Sess.numbered]

/-! ## Answers -/

theorem answer_kept (d : Dev) (port j seq : Nat) (fs : List (Nat × List Nat)) :
    d.HostKept (answer d port j seq fs) (· ∈ txFields.map Fld.key) := by
  have hframes (l : List (Nat × List Nat)) (e : Dev) (h : d.HostKept e (· ∈ txFields.map Fld.key)) : d.HostKept
      (l.foldl (fun d f => sendFrame (arpUse d port j) port f.1 (d.rd (HOST.SESS_ID.ID j) :: seq :: f.2)) e) (· ∈ txFields.map Fld.key) := by
    induction l generalizing e with
    | nil => exact h
    | cons f l ih => exact ih _ (h.trans ((arpUse_kept e port j _).trans (sendFrame_kept _ _ _ _)))
  exact (hframes fs d (.refl d _)).setHost _

theorem answer_one_out (d : Dev) (port j seq kind : Nat) (body : List Nat) :
    (answer d port j seq [(kind, body)]).out = .frame port kind (d.rd (HOST.SESS_ID.ID j) :: seq :: body) :: d.out := rfl

/-- The answer is kept before those of other requests. -/
theorem answer_one_sess (d : Dev) (port : Nat) (j : Fin 4) (seq kind : Nat) (body : List Nat) :
    (answer d port j seq [(kind, body)]).host.sess[j].kept =
      (seq, [(kind, body)]) :: (d.host.sess[j].kept.filter fun e => e.1 != seq).take 15 := by
  simp [answer, sendFrame_host, arpUse]

/-! ## Requests that are executed -/

/-- The request counted in its session. -/
def requestTaken (d : Dev) (r : ThpReq) (j : Fin 4) : Dev := ((rxFrame d r.port).start (.session j)).inc (HOST.SESS_REQ_CNT.CNT j)

/-- The registers that the taking of a request writes. -/
def requestFields (j : Nat) : List Fld := HOST.SESS_REQ_CNT.CNT j :: rxFields

theorem requestFields_page (j : Fin 4) : ∀ f ∈ requestFields j, f.key / 131072 ∈ [Page.HOST] := by decide +revert

theorem txFields_page : ∀ f ∈ txFields, f.key / 131072 ∈ [Page.HOST] := by decide

theorem rxFrame_only (d : Dev) (p : Nat) : d.OnlyRegs (rxFrame d p) rxFields :=
  (Dev.OnlyKeys.refl d _).inc (by split <;> simp [rxFields])

theorem rxFrame_sessKept (d : Dev) (p : Nat) : d.SessKept (rxFrame d p) := Dev.KeepsKeys.sessKept (rxFrame_only d p).2 (by decide)

theorem requestTaken_kept (d : Dev) (r : ThpReq) (j : Fin 4) : d.HostKept (requestTaken d r j) (· ∈ (requestFields j).map Fld.key) :=
  ((((Dev.HostKept.of_onlyKeys (rxFrame_only d r.port)).mono fun _ hk => List.mem_cons_of_mem _ hk)).start _).inc (by simp)

theorem requestTaken_out (d : Dev) (r : ThpReq) (j : Fin 4) : (requestTaken d r j).out = d.out := rfl

theorem requestTaken_host (d : Dev) (r : ThpReq) (j : Fin 4) : (requestTaken d r j).host = d.host := rfl

theorem requestTaken_counted (d : Dev) (r : ThpReq) (j : Fin 4) : d.Counted (requestTaken d r j) (HOST.SESS_REQ_CNT.CNT j) := by
  have hkey : (HOST.SESS_REQ_CNT.CNT j).key ∉ rxFields.map Fld.key := by decide +revert
  rw [Dev.Counted, requestTaken, Dev.rd_inc_same, ← (rxFrame_only d r.port).2 _ hkey]
  rfl

theorem requestTaken_sessKept (d : Dev) (r : ThpReq) (j : Fin 4) : d.SessKept (requestTaken d r j) :=
  (requestTaken_kept d r j).regs.sessKept (by clear * -; decide +revert)

/-- An executed request is counted and given to its meaning. -/
theorem takeRequest_executes {d : Dev} {r : ThpReq} {j : Fin 4} (h : d.Executes r j) (kind : Nat) :
    takeRequest r kind d = (some j.val, requestTaken d r j) := by
  obtain ⟨htaken, hfind, hnew, hold, hlen⟩ := h
  have hport : portUp d r.port = true := by
    simp only [thpTaken, Bool.and_eq_true] at htaken
    exact htaken.1.1
  have hhost : (rxFrame d r.port).host = d.host := rfl
  have hnone : d.host.sess[j].kept.find? (fun e => e.1 == r.seq) = none := List.find?_eq_none.2 fun e he => by simpa using hnew e he
  simp only [takeRequest, hport, htaken, Bool.not_true, Bool.false_eq_true, if_false, (rxFrame_sessKept d r.port).findSession, hfind,
    Dev.start_host, hhost, Fin.ofNat_eq_cast, Fin.cast_val_eq_self, hnone, hold, hlen]
  rfl

theorem request_executes {d : Dev} {r : ThpReq} {j : Fin 4} (h : d.Executes r j) (kind : Nat) (g : Nat → Dev → Dev) :
    request r kind g d = g j (requestTaken d r j) := by
  simp only [request, takeRequest_executes h]

theorem requestBoth_executes {d : Dev} {m : Memory} {r : ThpReq} {j : Fin 4} (h : d.Executes r j) (kind : Nat) (g : Nat → DM → DM) :
    requestBoth r kind g (d, m) = g j (requestTaken d r j, m) := by
  simp only [requestBoth, takeRequest_executes h]

/-- A request counted and answered, with nothing else sent and no other answer kept in between. -/
theorem Dev.Executes.answered {d e : Dev} {r : ThpReq} {j : Fin 4} (h : d.Executes r j) (hout : e.out = d.out) (hhost : e.host = d.host)
    (hid : e.rd (HOST.SESS_ID.ID j) = d.rd (HOST.SESS_ID.ID j)) (hcount : d.Counted e (HOST.SESS_REQ_CNT.CNT j)) (kind : Nat)
    (body : List Nat) : d.Answered (answer e r.port j r.seq [(kind, body)]) r j kind body := by
  obtain ⟨-, -, hnew, -, -⟩ := h
  refine ⟨by rw [answer_one_out, hid, hout], ?_, ?_⟩
  · rw [answer_one_sess, hhost, List.filter_eq_self.2 fun e he => by simpa using hnew e he]
  · have hkey : (HOST.SESS_REQ_CNT.CNT j).key ∉ txFields.map Fld.key := by clear * -; decide +revert
    exact ((answer_kept e r.port j r.seq [(kind, body)]).regs _ hkey).trans hcount

/-- A request answered at once. -/
theorem Dev.Executes.answered_taken {d : Dev} {r : ThpReq} {j : Fin 4} (h : d.Executes r j) (kind : Nat) (body : List Nat) :
    d.Answered (answer (requestTaken d r j) r.port j r.seq [(kind, body)]) r j kind body :=
  h.answered (requestTaken_out d r j) (requestTaken_host d r j) (requestTaken_sessKept d r j j (HOST.SESS_ID.ID j) (by simp [sessFields]))
    (requestTaken_counted d r j) kind body

/-- Answers to a request change the HOST page, the sessions' books and what is sent alone. -/
theorem answer_taken_onlyHost (d : Dev) (r : ThpReq) (j : Fin 4) (fs : List (Nat × List Nat)) :
    d.OnlyHost (answer (requestTaken d r j) r.port j r.seq fs) := by
  have hpage {gs : List Fld} (hgs : ∀ f ∈ gs, f.key / 131072 ∈ [Page.HOST]) : ∀ k, k ∈ gs.map Fld.key → k / 131072 ∈ [Page.HOST] :=
    fun k hk => by
      obtain ⟨f, hf, rfl⟩ := List.mem_map.1 hk
      exact hgs f hf
  exact Dev.onlyHost_iff.2 (((requestTaken_kept d r j).mono (hpage (requestFields_page j))).trans
    ((answer_kept _ r.port j r.seq fs).mono (hpage txFields_page)))

/-- An answer leaves the sessions' registers. -/
theorem answer_sessKept (d : Dev) (port j seq : Nat) (fs : List (Nat × List Nat)) : d.SessKept (answer d port j seq fs) :=
  (answer_kept d port j seq fs).regs.sessKept (by decide)

end Sys2Proof.Machine
end

section
/-! SUPPORT. The tag stream (R219, R303, R304): its frames, its acknowledgements and its notices of loss. -/

namespace Sys2Proof.Machine

/-! ## TAG_FRAME_START -/

theorem tagFrameStart_none {d : Dev} (h : tagSession d = none) : tagFrameStart d = d := by simp only [tagFrameStart, h]

/-- One record of at most 1,472 bytes is a frame. -/
theorem frameTake_single {x : StreamRec} (hlen : x.words.length ≤ 368) : frameTake 0 0 [x] = [x] := by
  have htags : (if x.type = 0x44 then 0 + 1 else 0) ≤ 1 := by split <;> omega
  simp only [frameTake]
  exact if_neg (by omega)

/-- One record stands in the order of preference whatever its rank. -/
theorem byRank_single (x : StreamRec) :
    [x].filter (fun r => r.rank == 0) ++ [x].filter (fun r => r.rank == 1) ++ [x].filter (fun r => r.rank == 2) = [x] := by
  have hrank : x.rank = 0 ∨ x.rank = 1 ∨ x.rank = 2 := by
    unfold StreamRec.rank
    split
    · exact .inl rfl
    · split
      · exact .inr (.inr rfl)
      · exact .inr (.inl rfl)
  rcases hrank with h | h | h <;> simp [h]

/-- The only waiting record placed. -/
theorem placeRec_one_spec {d : Dev} {x : StreamRec} (hw : d.tags.waiting = [x]) :
    (placeRec d x).tags.waiting = [] ∧
    (placeRec d x).tags.kept = d.tags.kept ++ [(d.rd TAG.SSEQ.NEXT, { x with words := x.words.set 1 (d.rd TAG.SSEQ.NEXT) })] ∧
    (placeRec d x).rd TAG.SSEQ.NEXT = (d.rd TAG.SSEQ.NEXT + 1) % 2 ^ 32 ∧ (placeRec d x).rd TAG.HQ_DEPTH.N = 0 ∧
    (placeRec d x).host = d.host ∧ d.KeepsPages (placeRec d x) [Page.TAG] := by
  obtain ⟨hwait, hkept, hnext, -, hkeep⟩ := placedUnder_spec d x (d.rd TAG.SSEQ.NEXT)
  have hdepth : (placedUnder d x (d.rd TAG.SSEQ.NEXT)).rd TAG.HQ_DEPTH.N = 0 := hqShow_depth _
  have hhost : (placedUnder d x (d.rd TAG.SSEQ.NEXT)).host = d.host := by
    rw [placedUnder, (hqShow_only _).1]
    rfl
  rw [placeRec_one hw, Dev.toStandby_eq]
  exact ⟨hwait, hkept, hnext, hdepth, hhost, hkeep.of_regs rfl⟩

theorem tagFrameStart_places {d : Dev} {j : Fin 4} {x : StreamRec} (hsess : tagSession d = some j.val) (hactive : d.isActive = true)
    (hport : portUp d (d.rd (HOST.SESS_STAT.CUR j)) = true) (hretx : d.tags.retx = []) (hw : d.tags.waiting = [x])
    (hlen : x.words.length ≤ 368) (huid : ∀ e ∈ d.tags.kept, e.2.uid ≠ x.uid) :
    tagFrameStart d = dataFrame (placeRec d x) j 1 0x40 0 (x.words.set 1 (d.rd TAG.SSEQ.NEXT)) := by
  have hkept := (placeRec_one_spec hw).2.1
  have hsent : (placeRec d x).tags.kept.find? (fun e => e.2.uid == x.uid) =
      some (d.rd TAG.SSEQ.NEXT, { x with words := x.words.set 1 (d.rd TAG.SSEQ.NEXT) }) := by
    rw [hkept, List.find?_append, List.find?_eq_none.2 fun e he => by simpa using huid e he]
    simp
  have hrs := (congrArg (frameTake 0 0) (byRank_single x)).trans (frameTake_single hlen)
  simp only [tagFrameStart, hsess, hactive, hport, hretx, hw, hrs, hsent, Bool.not_true, Bool.or_self, Bool.false_eq_true, if_false,
    List.isEmpty_nil, Bool.false_and, List.isEmpty_cons, List.foldl_cons, List.foldl_nil, List.filterMap_cons, List.filterMap_nil,
    List.flatMap_cons, List.flatMap_nil, List.append_nil]

/-- The numbers and the session of a frame do not hang on the tag page. -/
theorem dataFrame_after_tags {d e : Dev} (hhost : e.host = d.host) (hkeep : d.KeepsPages e [Page.TAG]) (j : Fin 4) (stream : Nat) :
    e.rd (HOST.SESS_STAT.CUR j) = d.rd (HOST.SESS_STAT.CUR j) ∧ e.rd (HOST.SESS_ID.ID j) = d.rd (HOST.SESS_ID.ID j) ∧
    frameNext e j stream = frameNext d j stream := by
  have hcur := hkeep (HOST.SESS_STAT.CUR j) (by clear * -; decide +revert)
  have hid := hkeep (HOST.SESS_ID.ID j) (by clear * -; decide +revert)
  exact ⟨hcur, hid, by rw [frameNext, frameNext, hhost, hcur]⟩

theorem tagFrameStart_spec {d : Dev} {j : Fin 4} {x : StreamRec} (hsess : tagSession d = some j.val) (hactive : d.isActive = true)
    (hport : portUp d (d.rd (HOST.SESS_STAT.CUR j)) = true) (hretx : d.tags.retx = []) (hw : d.tags.waiting = [x])
    (hlen : x.words.length ≤ 368) (huid : ∀ e ∈ d.tags.kept, e.2.uid ≠ x.uid) :
    let y := tagFrameStart d
    let n := d.rd TAG.SSEQ.NEXT
    y.tags.waiting = [] ∧ y.tags.kept = d.tags.kept ++ [(n, { x with words := x.words.set 1 n })] ∧
    y.rd TAG.SSEQ.NEXT = (n + 1) % 2 ^ 32 ∧ y.rd TAG.HQ_DEPTH.N = 0 ∧
    y.out.head? = some (.frame (d.rd (HOST.SESS_STAT.CUR j)) 0x40
      ([d.rd (HOST.SESS_ID.ID j), 4 * d.rd (HOST.SESS_STAT.CUR j), frameNext d j 1] ++ x.words.set 1 n)) ∧
    ((1, d.rd (HOST.SESS_STAT.CUR j)), (frameNext d j 1 + 1) % 2 ^ 32) ∈ y.host.sess[j].frameSeq ∧
    d.KeepsPages y [Page.TAG, Page.HOST] := by
  intro y n
  have hy : y = dataFrame (placeRec d x) j 1 0x40 0 (x.words.set 1 n) := tagFrameStart_places hsess hactive hport hretx hw hlen huid
  obtain ⟨hwait, hkept, hnext, hdepth, hhost, hkeep⟩ := placeRec_one_spec hw
  obtain ⟨hcur, hid, hframe⟩ := dataFrame_after_tags hhost hkeep j 1
  obtain ⟨hout, hseq, hsend⟩ := dataFrame_spec (placeRec d x) j 1 0x40 0 (x.words.set 1 n)
  rw [hcur, hid, hframe, Nat.zero_add] at hout
  rw [hcur, hframe] at hseq
  rw [← hy] at hout hseq hsend
  have hread (f : Fld) (hf : f.key ∉ txFields.map Fld.key) := hsend.regs f hf
  refine ⟨by rw [hsend.rest]; exact hwait, by rw [hsend.rest]; exact hkept, (hread _ (by decide)).trans hnext,
    (hread _ (by decide)).trans hdepth, by rw [hout]; rfl, hseq, ?_⟩
  have hpages : d.KeepsKeys (placeRec d x) (· / 131072 ∈ [Page.TAG, Page.HOST]) :=
    Dev.KeepsKeys.mono (Dev.keepsPages_iff.1 hkeep) fun _ hk => List.mem_cons.2 (.inl (List.mem_singleton.1 hk))
  exact hpages.trans (Dev.KeepsRegs.keepsPages hsend.regs (by decide))

/-! ## Records sent again -/

/-- The only record to be sent again taken off and counted. -/
def resent (d : Dev) : Dev := (d.inc HOST.RETX_CNT.CNT).updTags fun t => { t with retx := [], moved := false }

theorem tagFrameStart_resends {d : Dev} {j : Fin 4} {q : Nat} {x : StreamRec} (hsess : tagSession d = some j.val)
    (hactive : d.isActive = true) (hport : portUp d (d.rd (HOST.SESS_STAT.CUR j)) = true) (hretx : d.tags.retx = [q])
    (hw : d.tags.waiting = []) (hfind : d.tags.kept.find? (fun e => e.1 == q) = some (q, x)) (hlen : x.words.length ≤ 368) :
    tagFrameStart d = dataFrame (resent d) j 1 0x40 2 x.words := by
  have hresend : resendFrame d j = dataFrame (resent d) j 1 0x40 2 x.words := by
    simp [resendFrame, hretx, hfind, frameTake_single hlen, resent, Dev.inc, Dev.updTags]
  simp [tagFrameStart, hsess, hactive, hport, hretx, hw, hresend]

theorem resent_spec (d : Dev) (j : Fin 4) (words : List Nat) :
    let y := dataFrame (resent d) j 1 0x40 2 words
    y.tags.retx = [] ∧ y.tags.kept = d.tags.kept ∧ d.Counted y HOST.RETX_CNT.CNT ∧
    (∃ f, y.out = .frame (d.rd (HOST.SESS_STAT.CUR j)) 0x40
      ([d.rd (HOST.SESS_ID.ID j), 2 + 4 * d.rd (HOST.SESS_STAT.CUR j), f] ++ words) :: d.out) ∧ d.KeepsPages y [Page.HOST] := by
  intro y
  obtain ⟨hout, -, hsend⟩ := dataFrame_spec (resent d) j 1 0x40 2 words
  have hkeep : d.KeepsRegs (resent d) [HOST.RETX_CNT.CNT] := Dev.KeepsKeys.of_regs ((Dev.KeepsKeys.refl d _).inc (by simp)) rfl
  have hcur := hkeep (HOST.SESS_STAT.CUR j) (by clear * -; decide +revert)
  have hid := hkeep (HOST.SESS_ID.ID j) (by clear * -; decide +revert)
  rw [hcur, hid] at hout
  have htags : y.tags = (resent d).tags := hsend.tags
  refine ⟨by rw [htags]; rfl, by rw [htags]; rfl, (hsend.regs _ (by decide)).trans (Dev.rd_inc_same d _), ⟨_, hout⟩, ?_⟩
  exact (Dev.keepsPages_iff.1 (hkeep.keepsPages (by decide))).trans (Dev.KeepsRegs.keepsPages hsend.regs (by decide))

/-! ## STREAM_ACK -/

/-- A request that is heard and not answered. -/
def requestHeard (d : Dev) (r : ThpReq) (j : Fin 4) : Dev := answer (requestTaken d r j) r.port j r.seq []

theorem requestHeard_onlyHost (d : Dev) (r : ThpReq) (j : Fin 4) : d.OnlyHost (requestHeard d r j) := answer_taken_onlyHost d r j []

theorem requestHeard_out (d : Dev) (r : ThpReq) (j : Fin 4) : (requestHeard d r j).out = d.out := rfl

theorem requestHeard_tags (d : Dev) (r : ThpReq) (j : Fin 4) : (requestHeard d r j).tags = d.tags := rfl

theorem requestHeard_arch (d : Dev) (r : ThpReq) (j : Fin 4) : (requestHeard d r j).arch = d.arch := rfl

theorem requestHeard_sessKept (d : Dev) (r : ThpReq) (j : Fin 4) : d.SessKept (requestHeard d r j) :=
  (requestTaken_sessKept d r j).trans (answer_sessKept _ _ _ _ _)

/-- The stream's next number is no matter of a request. -/
theorem requestHeard_next (d : Dev) (r : ThpReq) (j : Fin 4) : (requestHeard d r j).rd TAG.SSEQ.NEXT = d.rd TAG.SSEQ.NEXT :=
  (requestHeard_onlyHost d r j).2 _ (by decide)

theorem ackUpTo_waiting (d : Dev) (sseq : Nat) : (ackUpTo d sseq).tags.waiting = d.tags.waiting := by
  unfold ackUpTo
  extract_lets next base k
  clear_value k base next
  split
  · rfl
  · rfl

/-- An acknowledgement at or below an earlier one changes nothing. -/
theorem ackUpTo_old {d : Dev} {a sseq : Nat} (ha : d.tags.acked = some a) (hle : sseq ≤ a) (hlt : a < d.rd TAG.SSEQ.NEXT)
    (hn : d.rd TAG.SSEQ.NEXT < 2 ^ 32) : ackUpTo d sseq = d := by
  simp only [ackUpTo, ha, Option.elim_some, id]
  exact if_pos (by omega)

/-- The records up to an SSEQ acknowledged by session `j`. -/
def streamAcked (d : Dev) (j q : Nat) : Dev :=
  if (ackUpTo d (q % 2 ^ 32)).tags.acked == d.tags.acked then d
  else ((ackUpTo d (q % 2 ^ 32)).wr (HOST.SESS_ACK.SSEQ j) q).toStandby .hostAck [(q : Int)]

/-- Only the holder of the tag stream acknowledges. -/
theorem streamAck_heard {d : Dev} {r : ThpReq} {j : Fin 4} (h : d.Executes r j) (q : Nat) :
    streamAck r q d =
      if tagSession (answer (requestTaken d r j) r.port j r.seq []) ≠ some j.val then answer (requestTaken d r j) r.port j r.seq []
      else streamAcked (answer (requestTaken d r j) r.port j r.seq []) j q := by
  rw [streamAck]
  exact request_executes h _ _

theorem streamAck_eq {d : Dev} {r : ThpReq} {j : Fin 4} (h : d.Executes r j) (hsess : tagSession d = some j.val) (q : Nat) :
    streamAck r q d = streamAcked (requestHeard d r j) j q := by
  have hheld : tagSession (requestHeard d r j) = some j.val := (requestHeard_sessKept d r j).tagSession.trans hsess
  rw [streamAck_heard h q]
  exact if_neg (not_not.2 hheld)

theorem toStandby_regs (d : Dev) (k : MsgKind) (args : List Int) : (d.toStandby k args).regs = d.regs := by rw [Dev.toStandby_eq]

theorem toStandby_tags (d : Dev) (k : MsgKind) (args : List Int) : (d.toStandby k args).tags = d.tags := by rw [Dev.toStandby_eq]

/-- A first acknowledgement of session `j`. -/
theorem streamAcked_first {d : Dev} (j : Fin 4) {q : Nat} (hacked : d.tags.acked = none) (hq : q < d.rd TAG.SSEQ.NEXT)
    (hn : d.rd TAG.SSEQ.NEXT < 2 ^ 32) (hk : ∀ e ∈ d.tags.kept, e.1 < 2 ^ 32) :
    (streamAcked d j q).tags.kept = d.tags.kept.filter (fun e => decide (q < e.1)) ∧ (streamAcked d j q).tags.acked = some q ∧
    (streamAcked d j q).tags.waiting = d.tags.waiting ∧ (streamAcked d j q).rd (HOST.SESS_ACK.SSEQ j) = q ∧
    d.KeepsPages (streamAcked d j q) [Page.HOST] := by
  have hfits : q % 2 ^ 32 = q := Nat.mod_eq_of_lt (hq.trans hn)
  obtain ⟨hkept, hack, hregs⟩ := ackUpTo_first hacked hq hn hk
  have hwait := ackUpTo_waiting d q
  rw [streamAcked, hfits]
  generalize ackUpTo d q = e at hkept hack hregs hwait ⊢
  rw [hack, hacked, if_neg (by simp)]
  have hregs' := toStandby_regs (e.wr (HOST.SESS_ACK.SSEQ j) q) .hostAck [(q : Int)]
  have htags := (toStandby_tags (e.wr (HOST.SESS_ACK.SSEQ j) q) .hostAck [(q : Int)]).trans (Dev.wr_tags e _ q)
  generalize (e.wr (HOST.SESS_ACK.SSEQ j) q).toStandby .hostAck [(q : Int)] = y at hregs' htags ⊢
  have hshown := (Dev.rd_of_regs_eq hregs' (HOST.SESS_ACK.SSEQ j)).trans (Dev.rd_wr_same e _ q)
  rw [show (HOST.SESS_ACK.SSEQ j).width = 32 from rfl, hfits] at hshown
  have hkeep : d.KeepsKeys e (· / 131072 ∈ [Page.HOST]) := Dev.KeepsKeys.of_regs (Dev.KeepsKeys.refl d _) hregs
  have hacked := Dev.KeepsKeys.of_regs (hkeep.wr (f := HOST.SESS_ACK.SSEQ j) (by clear * -; decide +revert) q) hregs'
  rw [htags]
  exact ⟨hkept, hack, hwait, hshown, hacked⟩

theorem streamAck_frees {d : Dev} {r : ThpReq} {j : Fin 4} {q : Nat} (h : d.Executes r j) (hsess : tagSession d = some j.val)
    (hacked : d.tags.acked = none) (hq : q < d.rd TAG.SSEQ.NEXT) (hn : d.rd TAG.SSEQ.NEXT < 2 ^ 32) (hk : ∀ e ∈ d.tags.kept, e.1 < 2 ^ 32) :
    (streamAck r q d).tags.kept = d.tags.kept.filter (fun e => decide (q < e.1)) ∧ (streamAck r q d).tags.acked = some q ∧
    (streamAck r q d).tags.waiting = d.tags.waiting ∧ (streamAck r q d).rd (HOST.SESS_ACK.SSEQ j) = q ∧
    d.KeepsPages (streamAck r q d) [Page.HOST] := by
  have honly := requestHeard_onlyHost d r j
  have htags := requestHeard_tags d r j
  have hnext := requestHeard_next d r j
  rw [streamAck_eq h hsess]
  generalize requestHeard d r j = e at honly htags hnext ⊢
  rw [← htags] at hacked hk ⊢
  rw [← hnext] at hq hn
  obtain ⟨hkept, hack, hwait, hshown, hkeep⟩ := streamAcked_first j hacked hq hn hk
  exact ⟨hkept, hack, hwait, hshown, (Dev.keepsPages_iff.1 honly.2).trans (Dev.keepsPages_iff.1 hkeep)⟩

theorem streamAck_old {d : Dev} {r : ThpReq} {j : Fin 4} {q a : Nat} (h : d.Executes r j) (hsess : tagSession d = some j.val)
    (hacked : d.tags.acked = some a) (hle : q ≤ a) (hlt : a < d.rd TAG.SSEQ.NEXT) (hn : d.rd TAG.SSEQ.NEXT < 2 ^ 32) :
    streamAck r q d = requestHeard d r j := by
  have hsame : ackUpTo (requestHeard d r j) q = requestHeard d r j :=
    ackUpTo_old (by rw [requestHeard_tags]; exact hacked) hle (by rw [requestHeard_next]; exact hlt) (by rw [requestHeard_next]; exact hn)
  rw [streamAck_eq h hsess, streamAcked, Nat.mod_eq_of_lt (show q < 2 ^ 32 by omega),
    hsame, if_pos (by simp)]

/-! ## STREAM_NACK -/

/-- The SSEQs of a range whose records are kept. -/
def nackKept (t : TagPath) (a b : Nat) : List Nat := (t.kept.map Prod.fst).filter fun s => decide (a ≤ s ∧ s ≤ b)

/-- They are to be sent again, in their order. -/
def nackQueued (d : Dev) (a b : Nat) : Dev :=
  d.updTags fun t => { t with retx := t.retx.filter (fun s => !(nackKept t a b).contains s) ++ nackKept t a b }

theorem nackQueued_none {d : Dev} {a b : Nat} (h : nackKept d.tags a b = []) : nackQueued d a b = d := by
  simp [nackQueued, Dev.updTags, h]

/-- The notice of the part of a range that is kept no longer. -/
def lostNotice (d : Dev) (a b : Nat) : List Nat :=
  let kept := d.tags.kept.map Prod.fst
  [firstLost kept true (kept.length + 1) (2 ^ 32 + a), firstLost kept false (kept.length + 1) (2 ^ 32 + b)]

/-- While nothing is acknowledged an SSEQ is its own distance from the first. -/
theorem sseq_from_first {v : Nat} (hv : v < 2 ^ 32) : (v + 2 ^ 33 - (2 ^ 32 - 1 + 1)) % 2 ^ 32 = v := by omega

theorem streamNack_first {d : Dev} {r : ThpReq} {j : Fin 4} {a b : Nat} (h : d.Executes r j) (hsess : tagSession d = some j.val)
    (hminor : 2 ≤ minorOf d j) (hacked : d.tags.acked = none) (hab : a ≤ b) (hb : b < d.rd TAG.SSEQ.NEXT)
    (hn : d.rd TAG.SSEQ.NEXT < 2 ^ 32) (hkept : ∀ e ∈ d.tags.kept, e.1 < 2 ^ 32) :
    streamNack r a b d =
      let e := nackQueued (requestTaken d r j) a b
      if (nackKept d.tags a b).length < b - a + 1 then
        answer (e.inc HOST.LOST_NOTICE_CNT.CNT) r.port j r.seq [(0x32, lostNotice d a b)]
      else answer e r.port j r.seq [] := by
  have hsk := requestTaken_sessKept d r j
  have hminor' : ¬ minorOf (requestTaken d r j) j < 2 := by rw [hsk.minorOf]; omega
  have hheld : ¬ tagSession (requestTaken d r j) ≠ some j.val := not_not.2 (hsk.tagSession.trans hsess)
  have hnext : (requestTaken d r j).rd TAG.SSEQ.NEXT = d.rd TAG.SSEQ.NEXT :=
    (requestTaken_kept d r j).regs _ (by clear * -; decide +revert)
  have htags : (requestTaken d r j).tags = d.tags := by rw [(requestTaken_kept d r j).rest]
  rw [streamNack, request_executes h]
  dsimp only
  rw [if_neg hminor', if_neg hheld]
  generalize requestTaken d r j = e at hnext htags ⊢
  have hrange : ((d.tags.kept.map Prod.fst).filter fun s => decide (a ≤ (s + 2 ^ 33 - (2 ^ 32 - 1 + 1)) % 2 ^ 32 ∧
      (s + 2 ^ 33 - (2 ^ 32 - 1 + 1)) % 2 ^ 32 ≤ b)) = nackKept d.tags a b :=
    List.filter_congr fun s hs => by
      obtain ⟨x, hx, rfl⟩ := List.mem_map.1 hs
      rw [sseq_from_first (hkept x hx)]
  have ha32 : a < 2 ^ 32 := by omega
  have hb32 : b < 2 ^ 32 := by omega
  have hhi : min b (d.rd TAG.SSEQ.NEXT - 1) = b := by omega
  have hsent : d.rd TAG.SSEQ.NEXT ≠ 0 := by omega
  simp only [htags, hacked, hnext, Option.elim_none, sseq_from_first ha32, sseq_from_first hb32, sseq_from_first hn, hab, true_or, if_true,
    hhi, hrange, hsent, ne_eq, not_false_eq_true, true_and]
  have hbase : 2 ^ 32 - 1 + 1 = 2 ^ 32 := rfl
  simp only [nackQueued, lostNotice, Dev.updTags, htags, hbase]

/-- The numbers from `a` on below `n`. -/
theorem range_filter_ge {a n : Nat} (h : a ≤ n) : (List.range n).filter (fun q => decide (a ≤ q)) = (List.range (n - a)).map (a + ·) := by
  obtain ⟨k, rfl⟩ := Nat.exists_eq_add_of_le h
  have hlow : (List.range a).filter (fun q => decide (a ≤ q)) = [] := List.filter_eq_nil_iff.2 fun q hq => by
    simpa using List.mem_range.1 hq
  have hhigh : ((List.range k).map (a + ·)).filter (fun q => decide (a ≤ q)) = (List.range k).map (a + ·) :=
    List.filter_eq_self.2 fun q hq => by
      obtain ⟨i, -, rfl⟩ := List.mem_map.1 hq
      simp
  rw [List.range_add, List.filter_append, hlow, hhigh, List.nil_append, Nat.add_sub_cancel_left]

/-- Of the numbers below `n` those of a range within are the ones from `a` up to `b`. -/
theorem range_filter_between {a b n : Nat} (h : b < n) :
    (List.range n).filter (fun q => decide (a ≤ q ∧ q ≤ b)) = (List.range (b + 1)).filter fun q => decide (a ≤ q) := by
  obtain ⟨k, rfl⟩ := Nat.exists_eq_add_of_lt h
  have hhigh : ((List.range k).map (b + 1 + ·)).filter (fun q => decide (a ≤ q ∧ q ≤ b)) = [] := List.filter_eq_nil_iff.2 fun q hq => by
    obtain ⟨i, -, rfl⟩ := List.mem_map.1 hq
    simp only [decide_eq_true_eq]
    omega
  rw [show b + k + 1 = b + 1 + k by omega, List.range_add, List.filter_append, hhigh, List.append_nil]
  exact List.filter_congr fun q hq => by
    have hlt := List.mem_range.1 hq
    exact decide_eq_decide.2 ⟨fun hq => hq.1, fun hq => ⟨hq, by omega⟩⟩

/-- With every record of the range kept they are all queued again, and nothing is answered. -/
theorem streamNack_held {d : Dev} {r : ThpReq} {j : Fin 4} {a b : Nat} (h : d.Executes r j) (hsess : tagSession d = some j.val)
    (hminor : 2 ≤ minorOf d j) (hacked : d.tags.acked = none) (hab : a ≤ b) (hb : b < d.rd TAG.SSEQ.NEXT)
    (hn : d.rd TAG.SSEQ.NEXT < 2 ^ 32) (hkept : d.tags.kept.map Prod.fst = List.range (d.rd TAG.SSEQ.NEXT)) (hretx : d.tags.retx = []) :
    let y := streamNack r a b d
    y.tags.retx = (List.range (b + 1)).filter (fun q => decide (a ≤ q)) ∧ y.tags.kept = d.tags.kept ∧ y.out = d.out ∧
    d.KeepsPages y [Page.HOST] := by
  intro y
  have hmine : nackKept d.tags a b = (List.range (b + 1)).filter fun q => decide (a ≤ q) := by
    rw [nackKept, hkept, range_filter_between hb]
  have hlen : (nackKept d.tags a b).length = b + 1 - a := by
    rw [hmine, range_filter_ge (by omega), List.length_map, List.length_range]
  have hbound : ∀ e ∈ d.tags.kept, e.1 < 2 ^ 32 := fun e he =>
    (List.mem_range.1 (hkept ▸ List.mem_map_of_mem he)).trans hn
  have hy : y = answer (nackQueued (requestTaken d r j) a b) r.port j r.seq [] :=
    (streamNack_first h hsess hminor hacked hab hb hn hbound).trans (if_neg (by omega))
  have htags : (requestTaken d r j).tags = d.tags := by rw [(requestTaken_kept d r j).rest]
  have hsend := answer_kept (nackQueued (requestTaken d r j) a b) r.port j r.seq []
  rw [← hy] at hsend
  have hqueued : y.tags = (nackQueued (requestTaken d r j) a b).tags := hsend.tags
  refine ⟨?_, by rw [hqueued, ← htags]; rfl, by rw [hy]; rfl, ?_⟩
  · rw [hqueued, ← hmine]
    simp [nackQueued, htags, hretx]
  · have hkeep : d.KeepsPages (nackQueued (requestTaken d r j) a b) [Page.HOST] :=
      Dev.KeepsRegs.keepsPages (Dev.KeepsKeys.of_regs (requestTaken_kept d r j).regs rfl) (requestFields_page j)
    exact (Dev.keepsPages_iff.1 hkeep).trans (Dev.KeepsRegs.keepsPages hsend.regs txFields_page)

/-- A request answered with one STREAM_LOST of one record. -/
theorem lostNoticed_spec {d : Dev} {r : ThpReq} {j : Fin 4} (h : d.Executes r j) (q : Nat) :
    let y := answer ((requestTaken d r j).inc HOST.LOST_NOTICE_CNT.CNT) r.port j r.seq [(0x32, [q, q])]
    d.Answered y r j 0x32 [q, q] ∧ d.Counted y HOST.LOST_NOTICE_CNT.CNT ∧ y.tags = d.tags ∧ d.KeepsPages y [Page.HOST] := by
  have htaken := requestTaken_kept d r j
  have hsess := requestTaken_sessKept d r j j (HOST.SESS_ID.ID j) (by simp [sessFields])
  have hcount := requestTaken_counted d r j
  have hout := requestTaken_out d r j
  have hhost := requestTaken_host d r j
  generalize requestTaken d r j = e at htaken hsess hcount hout hhost ⊢
  have hsend := answer_kept (e.inc HOST.LOST_NOTICE_CNT.CNT) r.port j r.seq [(0x32, [q, q])]
  have hans := h.answered (e := e.inc HOST.LOST_NOTICE_CNT.CNT) hout hhost
    ((Dev.rd_inc_other _ (by clear * -; decide +revert)).trans hsess)
    ((Dev.rd_inc_other _ (by clear * -; decide +revert)).trans hcount) 0x32 [q, q]
  intro y
  refine ⟨hans, ?_, hsend.tags.trans htaken.tags, ?_⟩
  · rw [Dev.Counted, hsend.regs _ (by decide), Dev.rd_inc_same, htaken.regs HOST.LOST_NOTICE_CNT.CNT (by clear * -; decide +revert)]
  · have hkeep : d.KeepsKeys e (· / 131072 ∈ [Page.HOST]) := Dev.KeepsRegs.keepsPages htaken.regs (requestFields_page j)
    exact (hkeep.inc (by decide)).trans (Dev.KeepsRegs.keepsPages hsend.regs txFields_page)

/-- A record that is kept no longer, the oldest kept one being later, is answered with STREAM_LOST. -/
theorem streamNack_lost {d : Dev} {r : ThpReq} {j : Fin 4} {q : Nat} (h : d.Executes r j) (hsess : tagSession d = some j.val)
    (hminor : 2 ≤ minorOf d j) (hacked : d.tags.acked = none) (hq : q < d.rd TAG.SSEQ.NEXT)
    (hn : d.rd TAG.SSEQ.NEXT < 2 ^ 32) (hkept : ∀ e ∈ d.tags.kept, q < e.1 ∧ e.1 < 2 ^ 32) :
    let y := streamNack r q q d
    d.Answered y r j 0x32 [q, q] ∧ d.Counted y HOST.LOST_NOTICE_CNT.CNT ∧ y.tags = d.tags ∧ d.KeepsPages y [Page.HOST] := by
  intro y
  have hmine : nackKept d.tags q q = [] := List.filter_eq_nil_iff.2 fun s hs => by
    obtain ⟨x, hx, rfl⟩ := List.mem_map.1 hs
    have hlt := (hkept x hx).1
    simp only [decide_eq_true_eq]
    omega
  have hgone : (d.tags.kept.map Prod.fst).contains q = false := by
    rw [List.contains_eq_mem, decide_eq_false_iff_not]
    intro hs
    obtain ⟨x, hx, rfl⟩ := List.mem_map.1 hs
    exact absurd (hkept x hx).1 (lt_irrefl _)
  have hnotice : lostNotice d q q = [q, q] := by
    have hself : (2 ^ 32 + q) % 2 ^ 32 = q := by rw [Nat.add_mod_left, Nat.mod_eq_of_lt (hq.trans hn)]
    simp only [lostNotice, firstLost, hself, hgone, Bool.false_eq_true, if_false]
  have htags : (requestTaken d r j).tags = d.tags := (requestTaken_kept d r j).tags
  have hqueued : nackQueued (requestTaken d r j) q q = requestTaken d r j := nackQueued_none (htags ▸ hmine)
  have hy : y = answer ((requestTaken d r j).inc HOST.LOST_NOTICE_CNT.CNT) r.port j r.seq [(0x32, [q, q])] := by
    have heq := streamNack_first h hsess hminor hacked le_rfl hq hn fun e he => (hkept e he).2
    rw [hqueued, hmine, hnotice] at heq
    exact heq.trans (if_pos (by simp))
  obtain ⟨hans, hlost, htag, hkeep⟩ := lostNoticed_spec h q
  rw [hy]
  exact ⟨hans, hlost, htag, hkeep⟩

end Sys2Proof.Machine
end

section
/-! SUPPORT. Jobs over THP (R268, R306): the submission, and the completion that is acknowledged or sent again. -/

namespace Sys2Proof.Machine

/-- Registers outside the HOST page read after the taking of a request as before. -/
theorem requestTaken_rd (d : Dev) (r : ThpReq) (j : Fin 4) {f : Fld} (hf : f.key / 131072 ≠ Page.HOST) :
    (requestTaken d r j).rd f = d.rd f :=
  (Dev.KeepsRegs.keepsPages (requestTaken_kept d r j).regs (requestFields_page j)) f fun hk => hf (List.mem_singleton.1 hk)

/-! ## JOB_SUBMIT -/

theorem jobSubmit_eq {d : Dev} {m : Memory} {r : ThpReq} {j : Fin 4} (h : d.Executes r j) (hminor : 1 ≤ minorOf d j) (desc : List Byte) :
    jobSubmit r desc (d, m) =
      if desc.length ≠ 32 then (answer (requestTaken d r j) r.port j r.seq [(0x29, [2])], m)
      else if !d.on (HOST.SESS_STAT.JOB j) then (answer (requestTaken d r j) r.port j r.seq [(0x29, [4])], m)
      else if (d.rd ZCTL.JQ_TAIL.IDX + 1) % 256 = d.rd ZCTL.JQ_HEAD.IDX then
        (answer (requestTaken d r j) r.port j r.seq [(0x29, [8])], m)
      else (answer ((requestTaken d r j).wr ZCTL.JQ_TAIL.IDX (d.rd ZCTL.JQ_TAIL.IDX + 1)) r.port j r.seq [(0x29, [0, d.rd ZCTL.JQ_TAIL.IDX])],
        m.store (jqBase + 32 * d.rd ZCTL.JQ_TAIL.IDX) desc) := by
  have hsk := requestTaken_sessKept d r j
  have hspoken : ¬ minorOf (requestTaken d r j) j < 1 := by rw [hsk.minorOf]; omega
  have htail : (requestTaken d r j).rd ZCTL.JQ_TAIL.IDX = d.rd ZCTL.JQ_TAIL.IDX := requestTaken_rd d r j (by decide)
  have hhead : (requestTaken d r j).rd ZCTL.JQ_HEAD.IDX = d.rd ZCTL.JQ_HEAD.IDX := requestTaken_rd d r j (by decide)
  rw [jobSubmit, requestBoth_executes h]
  simp only [if_neg hspoken, hsk.job, htail, hhead]

/-- A descriptor that is queued: the request is answered with its place. -/
theorem jobQueued_spec {d : Dev} {r : ThpReq} {j : Fin 4} (h : d.Executes r j) (t : Nat) :
    (answer ((requestTaken d r j).wr ZCTL.JQ_TAIL.IDX (t + 1)) r.port j r.seq [(0x29, [0, t])]).rd ZCTL.JQ_TAIL.IDX = (t + 1) % 256 ∧
    d.Answered (answer ((requestTaken d r j).wr ZCTL.JQ_TAIL.IDX (t + 1)) r.port j r.seq [(0x29, [0, t])]) r j 0x29 [0, t] ∧
    ∀ f : Fld, f.key / 131072 ≠ Page.HOST → f.key ≠ ZCTL.JQ_TAIL.IDX.key →
      (answer ((requestTaken d r j).wr ZCTL.JQ_TAIL.IDX (t + 1)) r.port j r.seq [(0x29, [0, t])]).rd f = d.rd f := by
  have hsess := requestTaken_sessKept d r j j (HOST.SESS_ID.ID j) (by simp [sessFields])
  have hcount := requestTaken_counted d r j
  have hout := requestTaken_out d r j
  have hhost := requestTaken_host d r j
  have hread {f : Fld} (hf : f.key / 131072 ≠ Page.HOST) := requestTaken_rd d r j hf
  generalize requestTaken d r j = e at hsess hcount hout hhost hread ⊢
  have hsend := answer_kept (e.wr ZCTL.JQ_TAIL.IDX (t + 1)) r.port j r.seq [(0x29, [0, t])]
  have hans := h.answered (e := e.wr ZCTL.JQ_TAIL.IDX (t + 1)) hout hhost
    ((Dev.rd_wr_other _ _ _ _ (by clear * -; decide +revert)).trans hsess)
    ((Dev.rd_wr_other _ _ _ _ (by clear * -; decide +revert)).trans hcount) 0x29 [0, t]
  refine ⟨?_, hans, fun f hpage hkey => ?_⟩
  · rw [hsend.regs _ (by decide), Dev.rd_wr_same]
    rfl
  · rw [Dev.KeepsRegs.keepsPages hsend.regs txFields_page f fun hk => hpage (List.mem_singleton.1 hk), Dev.rd_wr_other _ _ _ _ hkey, hread hpage]

/-! ## JOB_DONE_ACK -/

/-- The only completion, acknowledged: CQ_HEAD passes it. -/
def cqRetired (d : Dev) : Dev := (d.updArch fun a => { a with cq := [] }).wr ZCTL.CQ_HEAD.IDX (d.rd ZCTL.CQ_HEAD.IDX + 1)

theorem jobDoneAck_retires {d : Dev} {r : ThpReq} {j : Fin 4} {slot idx : Nat} (h : d.Executes r j) (hminor : 1 ≤ minorOf d j)
    (hjob : d.on (HOST.SESS_STAT.JOB j) = true) (hcq : d.arch.cq = [(slot, idx, false)]) :
    jobDoneAck r idx d = cqRetired (requestHeard d r j) := by
  have hsk := requestHeard_sessKept d r j
  have hspoken : ¬ minorOf (requestHeard d r j) j < 1 := by rw [hsk.minorOf]; omega
  have hright : (requestHeard d r j).on (HOST.SESS_STAT.JOB j) = true := (hsk.job j).trans hjob
  have hcq' : (requestHeard d r j).arch.cq = [(slot, idx, false)] := by rw [requestHeard_arch, hcq]
  unfold requestHeard at *
  rw [jobDoneAck, request_executes h]
  simp only [decide_eq_false hspoken, hright, hcq', Bool.not_true, Bool.or_self, Bool.false_eq_true, if_false]
  simp [cqRetired]

theorem cqRetired_spec (d : Dev) :
    (cqRetired d).arch.cq = [] ∧ (cqRetired d).rd ZCTL.CQ_HEAD.IDX = (d.rd ZCTL.CQ_HEAD.IDX + 1) % 256 ∧ (cqRetired d).out = d.out ∧
    d.KeepsRegs (cqRetired d) [ZCTL.CQ_HEAD.IDX] :=
  ⟨rfl, Dev.rd_wr_same _ _ _, rfl, Dev.KeepsKeys.wr (Dev.KeepsKeys.of_regs (Dev.KeepsKeys.refl d _) rfl) (List.mem_singleton_self _) _⟩

theorem jobDoneAck_spec {d : Dev} {r : ThpReq} {j : Fin 4} {slot idx : Nat} (h : d.Executes r j) (hminor : 1 ≤ minorOf d j)
    (hjob : d.on (HOST.SESS_STAT.JOB j) = true) (hcq : d.arch.cq = [(slot, idx, false)]) :
    (jobDoneAck r idx d).arch.cq = [] ∧ (jobDoneAck r idx d).rd ZCTL.CQ_HEAD.IDX = (d.rd ZCTL.CQ_HEAD.IDX + 1) % 256 ∧
    (jobDoneAck r idx d).out = d.out ∧
    ∀ f : Fld, f.key / 131072 ≠ Page.HOST → f.key ≠ ZCTL.CQ_HEAD.IDX.key → (jobDoneAck r idx d).rd f = d.rd f := by
  have honly := requestHeard_onlyHost d r j
  have hsent := requestHeard_out d r j
  rw [jobDoneAck_retires h hminor hjob hcq]
  generalize requestHeard d r j = e at honly hsent ⊢
  obtain ⟨hnone, hhead, hout, hkeep⟩ := cqRetired_spec e
  have hread {f : Fld} (hf : f.key / 131072 ≠ Page.HOST) : e.rd f = d.rd f := honly.2 f fun hk => hf (List.mem_singleton.1 hk)
  refine ⟨hnone, by rw [hhead, hread (by decide)], hout.trans hsent, fun f hpage hkey => ?_⟩
  exact (hkeep f fun hk => hkey (List.mem_singleton.1 hk)).trans (hread hpage)

/-! ## JOB_DONE_RESEND -/

theorem sendJobDone_spec {d : Dev} {j : Nat} (hjob : jobSession d = some j) (m : Memory) (slot : Nat) :
    (sendJobDone d m slot).out = .frame (d.rd (HOST.SESS_STAT.CUR j)) 0x2A ((List.range 4).map fun k => m.u32 (cqBase + 16 * slot + 4 * k)) ::
      d.out ∧ d.HostKept (sendJobDone d m slot) (· ∈ txFields.map Fld.key) := by
  simp only [sendJobDone, hjob]
  exact ⟨rfl, (((Dev.HostKept.refl d _).start _).trans (arpUse_kept _ _ _ _)).trans (sendFrame_kept _ _ _ _)⟩

theorem sendJobDone_none {d : Dev} (hjob : jobSession d = none) (m : Memory) (slot : Nat) : sendJobDone d m slot = d := by
  simp only [sendJobDone, hjob]

/-- The only completion is sent again once 10 ms have passed. -/
theorem jobDoneResend_one {d : Dev} {slot idx : Nat} (hcq : d.arch.cq = [(slot, idx, false)]) (m : Memory) :
    jobDoneResend m d = if d.past (.jobDone slot) (10 * oneMs) then sendJobDone d m slot else d := by
  simp only [jobDoneResend, hcq, List.filter_cons, List.filter_nil, Bool.not_false, Bool.true_and]
  split
  · rfl
  · rfl

theorem jobDoneResend_sends {d : Dev} {slot idx j : Nat} (hcq : d.arch.cq = [(slot, idx, false)]) (m : Memory)
    (hjob : jobSession d = some j) (hpast : d.past (.jobDone slot) (10 * oneMs) = true) :
    (jobDoneResend m d).out = .frame (d.rd (HOST.SESS_STAT.CUR j)) 0x2A
      ((List.range 4).map fun k => m.u32 (cqBase + 16 * slot + 4 * k)) :: d.out ∧
    d.OnlyHost (jobDoneResend m d) ∧ d.KeepsRegs (jobDoneResend m d) txFields := by
  rw [jobDoneResend_one hcq, if_pos hpast]
  obtain ⟨hout, hkept⟩ := sendJobDone_spec hjob m slot
  exact ⟨hout, ⟨hkept.rest, Dev.KeepsRegs.keepsPages hkept.regs txFields_page⟩, hkept.regs⟩

theorem jobDoneResend_not {d : Dev} {slot idx : Nat} (hcq : d.arch.cq = [(slot, idx, false)]) (m : Memory)
    (h : jobSession d = none ∨ d.past (.jobDone slot) (10 * oneMs) = false) : jobDoneResend m d = d := by
  rw [jobDoneResend_one hcq]
  rcases h with hjob | hpast
  · rw [sendJobDone_none hjob, ite_self]
  · rw [if_neg (by simp [hpast])]

end Sys2Proof.Machine
end

section
/-! SUPPORT. The loss and the return of a port (R303, R305, R308): the records and the sessions that move, and what follows the links. -/

namespace Sys2Proof.Machine

/-! ## What the loss or the return of a port leaves -/

/-- The keys of the HOST page but for the links' own bits. -/
abbrev linksAside (k : Nat) : Prop := k / 131072 = Page.HOST ∧ k ≠ HOST.STATUS.HA_UP.key ∧ k ≠ HOST.STATUS.HB_UP.key

/-- From `d` to `e` only registers of the HOST page, none of them a link's bit, and the two streams changed. -/
structure Dev.LinksKept (d e : Dev) : Prop where
  rest : e = { d with regs := e.regs, tags := e.tags, arch := e.arch }
  regs : d.KeepsKeys e linksAside

namespace Dev.LinksKept
variable {d e : Dev}

theorem refl (d : Dev) : d.LinksKept d := ⟨rfl, .refl _ _⟩

theorem trans {e' : Dev} (h : d.LinksKept e) (h' : e.LinksKept e') : d.LinksKept e' := ⟨by rw [h'.rest, h.rest], h.regs.trans h'.regs⟩

theorem of_onlyRegs {fs : List Fld} (h : d.OnlyRegs e fs) (hfs : ∀ f ∈ fs, linksAside f.key) : d.LinksKept e :=
  ⟨by rw [h.1], Dev.KeepsKeys.mono h.2 fun k hk => by
    obtain ⟨f, hf, rfl⟩ := List.mem_map.1 hk
    exact hfs f hf⟩

theorem updTags (h : d.LinksKept e) (g : TagPath → TagPath) : d.LinksKept (e.updTags g) := h.trans ⟨rfl, .of_regs (.refl e _) rfl⟩

theorem updArch (h : d.LinksKept e) (g : Arch → Arch) : d.LinksKept (e.updArch g) := h.trans ⟨rfl, .of_regs (.refl e _) rfl⟩

theorem host (h : d.LinksKept e) : e.host = d.host := by rw [h.rest]

theorem portUp (h : d.LinksKept e) (q : Nat) : portUp e q = portUp d q := by
  rw [Machine.portUp, Machine.portUp, Dev.on, Dev.on, Dev.on, Dev.on, h.regs _ (by decide), h.regs _ (by decide)]

theorem keepsPages (h : d.LinksKept e) : d.KeepsKeys e (· / 131072 ∈ [Page.HOST]) := h.regs.mono fun _ hk => List.mem_singleton.2 hk.1

end Dev.LinksKept

/-! ## A port's link -/

/-- The bit of a port's link. -/
def linkUp (p : Fin 2) : Fld := if p = 0 then HOST.STATUS.HA_UP else HOST.STATUS.HB_UP

theorem portUp_wr_same (d : Dev) (p : Fin 2) (v : Nat) : portUp (d.wr (linkUp p) v) p = (v % 2 != 0) := by
  fin_cases p
  · exact congrArg (· != 0) (Dev.rd_wr_same d HOST.STATUS.HA_UP v)
  · exact congrArg (· != 0) (Dev.rd_wr_same d HOST.STATUS.HB_UP v)

theorem portUp_wr_other (d : Dev) (p : Fin 2) (v : Nat) : portUp (d.wr (linkUp p) v) (1 - p.val) = portUp d (1 - p.val) := by
  fin_cases p
  · exact congrArg (· != 0) (Dev.rd_wr_other d HOST.STATUS.HA_UP HOST.STATUS.HB_UP v (by decide))
  · exact congrArg (· != 0) (Dev.rd_wr_other d HOST.STATUS.HB_UP HOST.STATUS.HA_UP v (by decide))

/-- With both links down none is up. -/
theorem portUp_none {d : Dev} {p : Fin 2} (hp : portUp d p = false) (ho : portUp d (1 - p.val) = false) (q : Nat) : portUp d q = false := by
  have hboth : d.on HOST.STATUS.HA_UP = false ∧ d.on HOST.STATUS.HB_UP = false := by
    fin_cases p
    · exact ⟨hp, ho⟩
    · exact ⟨ho, hp⟩
  rw [portUp, hboth.1, hboth.2, ite_self]

/-! ## Archive records and their ports -/

/-- The bytes queued on the ports. -/
def queueFields : List Fld := [HOST.ARCH_Q_HA.BYTES, HOST.ARCH_Q_HB.BYTES]

theorem archQShow_only (d : Dev) : d.OnlyRegs (archQShow d) queueFields :=
  ((Dev.OnlyKeys.refl d _).wr (by simp [queueFields]) _).wr (by simp [queueFields]) _

theorem archQShow_kept (d : Dev) : d.LinksKept (archQShow d) := .of_onlyRegs (archQShow_only d) (by decide)

/-- A record is given a port whose link is up. -/
theorem archPort_up {d : Dev} {q : Nat} (h : archPort d = some q) : portUp d q = true := by
  unfold archPort at h
  split at h
  case h_1 ha hb =>
    split at h
    · cases h; exact hb
    · cases h; exact ha
  case h_2 ha hb => cases h; exact ha
  case h_3 ha hb => cases h; exact hb
  case h_4 => cases h

/-- While a link is up a record is given a port. -/
theorem archPort_some {d : Dev} {p : Fin 2} (h : portUp d p = true) : archPort d ≠ none := by
  unfold archPort
  split
  case h_1 => split <;> exact Option.some_ne_none _
  case h_2 => exact Option.some_ne_none _
  case h_3 => exact Option.some_ne_none _
  case h_4 ha hb =>
    have hp : portUp d p = false := by
      fin_cases p
      · exact ha
      · exact hb
    exact absurd h (by simp [hp])

theorem archPut_kept (d : Dev) (r : ArchRec) : d.LinksKept (archPut d r) := ((Dev.LinksKept.refl d).updArch _).trans (archQShow_kept _)

theorem archPut_recs (d : Dev) (r : ArchRec) : (archPut d r).arch.recs = d.arch.recs ++ [{ r with port := archPort d }] := by
  rw [archPut, (archQShow_only _).1]
  rfl

theorem archPut_tags (d : Dev) (r : ArchRec) : (archPut d r).tags = d.tags := by
  rw [archPut, (archQShow_only _).1]
  rfl

/-- Records without a port take one of those that stand (`Q`), beside records that have such a port. -/
theorem archPuts_spec {Q : Option Nat → Prop} (l : List ArchRec) {d : Dev} (hQ : ∀ e, d.LinksKept e → Q (archPort e))
    (hrecs : ∀ r ∈ d.arch.recs, Q r.port) :
    d.LinksKept (l.foldl archPut d) ∧ (l.foldl archPut d).tags = d.tags ∧ ∀ r ∈ (l.foldl archPut d).arch.recs, Q r.port := by
  induction l generalizing d with
  | nil => exact ⟨.refl d, rfl, hrecs⟩
  | cons r l ih =>
    have hput := archPut_kept d r
    have hnext : ∀ x ∈ (archPut d r).arch.recs, Q x.port := fun x hx => by
      rw [archPut_recs, List.mem_append, List.mem_singleton] at hx
      rcases hx with hx | rfl
      · exact hrecs x hx
      · exact hQ d (.refl d)
    obtain ⟨hkept, htags, hall⟩ := ih (fun e he => hQ e (hput.trans he)) hnext
    exact ⟨hput.trans hkept, htags.trans (archPut_tags d r), hall⟩

theorem archAssign_spec {Q : Option Nat → Prop} {d : Dev} (hQ : ∀ e, d.LinksKept e → Q (archPort e))
    (hrecs : ∀ r ∈ d.arch.recs, r.port ≠ none → Q r.port) :
    d.LinksKept (archAssign d) ∧ (archAssign d).tags = d.tags ∧ ∀ r ∈ (archAssign d).arch.recs, Q r.port := by
  have hsome : d.LinksKept (d.updArch fun a => { a with recs := a.recs.filter fun r => r.port.isSome }) := (Dev.LinksKept.refl d).updArch _
  obtain ⟨hkept, htags, hall⟩ := archPuts_spec (d.arch.recs.filter fun r => r.port.isNone) (Q := Q)
    (d := d.updArch fun a => { a with recs := a.recs.filter fun r => r.port.isSome }) (fun e he => hQ e (hsome.trans he)) fun r hr => by
      obtain ⟨hmem, hport⟩ := List.mem_filter.1 hr
      exact hrecs r hmem (Option.isSome_iff_ne_none.1 hport)
  exact ⟨hsome.trans hkept, htags, hall⟩

theorem archPut_regs (d : Dev) (r : ArchRec) : d.KeepsRegs (archPut d r) queueFields :=
  fun f hf => ((archQShow_only _).2 f hf).trans rfl

theorem archAssign_regs (d : Dev) : d.KeepsRegs (archAssign d) queueFields := by
  have hsome : d.KeepsKeys (d.updArch fun a => { a with recs := a.recs.filter fun r => r.port.isSome }) (· ∈ queueFields.map Fld.key) :=
    Dev.KeepsKeys.of_regs (Dev.KeepsKeys.refl d _) rfl
  exact Dev.KeepsKeys.foldl (g := archPut) archPut_regs _ hsome

/-! ## Sessions that move -/

theorem hostShow_only (d : Dev) : d.OnlyRegs (hostShow d) [HOST.STATUS.JQ_OWNED, HOST.STATUS.FAILOVER] :=
  ((Dev.OnlyKeys.refl d _).wr (by simp) _).wr (by simp) _

theorem hostShow_kept (d : Dev) : d.LinksKept (hostShow d) := .of_onlyRegs (hostShow_only d) (by decide)

/-- A session and its streams on another port, told by FAILOVER. -/
def sessMoved (d : Dev) (j : Fin 4) (dest : Nat) : Dev :=
  ((d.wr (HOST.SESS_STAT.CUR j) dest).inc HOST.FAILOVER_CNT.CNT).irq Page.HOST HOST.irq.FAILOVER

theorem sessMoved_only (d : Dev) (j : Fin 4) (dest : Nat) : d.OnlyRegs (sessMoved d j dest)
    [HOST.SESS_STAT.CUR j, HOST.FAILOVER_CNT.CNT, Com.IRQ_RAW Page.HOST, Com.ERR_CNT Page.HOST] :=
  (((Dev.OnlyKeys.refl d _).wr (by simp) _).inc (by simp)).irq (by simp) (by simp) _

theorem sessMoved_cur (d : Dev) (j : Fin 4) {dest : Nat} (h : dest < 2) : (sessMoved d j dest).rd (HOST.SESS_STAT.CUR j) = dest := by
  have h1 : (HOST.SESS_STAT.CUR j).key ≠ (Com.IRQ_RAW Page.HOST).key := by clear * -; decide +revert
  have h2 : (HOST.SESS_STAT.CUR j).key ≠ (Com.ERR_CNT Page.HOST).key := by clear * -; decide +revert
  have h3 : (HOST.SESS_STAT.CUR j).key ≠ HOST.FAILOVER_CNT.CNT.key := by clear * -; decide +revert
  rw [sessMoved, Dev.rd_irq_other _ _ _ _ h1 h2, Dev.rd_inc_other _ h3, Dev.rd_wr_same]
  exact Nat.mod_eq_of_lt h

theorem sessMoved_counted (d : Dev) (j : Fin 4) (dest : Nat) : d.Counted (sessMoved d j dest) HOST.FAILOVER_CNT.CNT := by
  have hcur : HOST.FAILOVER_CNT.CNT.key ≠ (HOST.SESS_STAT.CUR j).key := by clear * -; decide +revert
  rw [Dev.Counted, sessMoved, Dev.rd_irq_other _ _ _ _ (by decide) (by decide), Dev.rd_inc_same, Dev.rd_wr_other _ _ _ _ hcur]

theorem moveSession_eq (d : Dev) (j : Fin 4) (dest : Nat) :
    moveSession d j dest = if bitOf (d.rd (HOST.SESS_STAT.STREAMS j)) 1 then
      (sessMoved d j dest).updTags fun t => { t with retx := t.kept.map Prod.fst, moved := !t.kept.isEmpty } else sessMoved d j dest := rfl

theorem moveSession_kept (d : Dev) (j : Fin 4) (dest : Nat) : d.LinksKept (moveSession d j dest) := by
  have hmoved : d.LinksKept (sessMoved d j dest) := .of_onlyRegs (sessMoved_only d j dest) (by clear * -; decide +revert)
  rw [moveSession_eq]
  split
  · exact hmoved.updTags _
  · exact hmoved

theorem moveSession_arch (d : Dev) (j : Fin 4) (dest : Nat) : (moveSession d j dest).arch = d.arch := by
  rw [moveSession_eq]
  split
  · rw [(sessMoved_only d j dest).1]
    rfl
  · rw [(sessMoved_only d j dest).1]

/-- A session on a port that is down moves to the other one if that is up. -/
def moveIfDown (d : Dev) (j : Nat) : Dev :=
  if !portUp d (d.rd (HOST.SESS_STAT.CUR j)) && portUp d (1 - d.rd (HOST.SESS_STAT.CUR j)) then
    moveSession d j (1 - d.rd (HOST.SESS_STAT.CUR j))
  else d

theorem moveSessions_eq (d : Dev) : moveSessions d = hostShow ((openSessions d).foldl moveIfDown d) := rfl

theorem moveIfDown_kept (d : Dev) (j : Fin 4) : d.LinksKept (moveIfDown d j) ∧ (moveIfDown d j).arch = d.arch := by
  unfold moveIfDown
  split
  · exact ⟨moveSession_kept d j _, moveSession_arch d j _⟩
  · exact ⟨.refl d, rfl⟩

theorem moveAll_kept {l : List Nat} (hl : ∀ j ∈ l, j < 4) (d : Dev) :
    d.LinksKept (l.foldl moveIfDown d) ∧ (l.foldl moveIfDown d).arch = d.arch := by
  induction l generalizing d with
  | nil => exact ⟨.refl d, rfl⟩
  | cons j l ih =>
    obtain ⟨hkept, harch⟩ := moveIfDown_kept d ⟨j, hl j List.mem_cons_self⟩
    obtain ⟨hrest, hsame⟩ := ih (fun k hk => hl k (List.mem_cons_of_mem _ hk)) (moveIfDown d j)
    exact ⟨hkept.trans hrest, hsame.trans harch⟩

theorem moveSessions_kept (d : Dev) : d.LinksKept (moveSessions d) ∧ (moveSessions d).arch = d.arch := by
  obtain ⟨hkept, harch⟩ := moveAll_kept (fun j hj => List.mem_range.1 (List.mem_filter.1 hj).1) d (l := openSessions d)
  rw [moveSessions_eq]
  exact ⟨hkept.trans (hostShow_kept _), by rw [(hostShow_only _).1]; exact harch⟩

/-- With no link up no session moves. -/
theorem moveSessions_none {d : Dev} (h : ∀ q, portUp d q = false) : moveSessions d = hostShow d := by
  have hstay : ∀ j, moveIfDown d j = d := fun j => by
    rw [moveIfDown, h, h]
    rfl
  rw [moveSessions_eq, List.foldl_fixed' hstay]

/-- The only session, on a port that is down, moves to the other one. -/
theorem moveSessions_one {d : Dev} {j : Fin 4} (hopen : openSessions d = [j.val]) (hdown : portUp d (d.rd (HOST.SESS_STAT.CUR j)) = false)
    (hup : portUp d (1 - d.rd (HOST.SESS_STAT.CUR j)) = true) :
    moveSessions d = hostShow (moveSession d j (1 - d.rd (HOST.SESS_STAT.CUR j))) := by
  rw [moveSessions_eq, hopen, List.foldl_cons, List.foldl_nil, moveIfDown, hdown, hup]
  rfl

/-! ## ARCH_CAP -/

theorem capShow_only (d : Dev) : d.OnlyRegs (capShow d) [HOST.ARCH_CAP.BPUS] := (Dev.OnlyKeys.refl d _).wr (by simp) _

theorem capShow_kept (d : Dev) : d.LinksKept (capShow d) := .of_onlyRegs (capShow_only d) (by decide)

theorem capShow_value (d : Dev) (p : Fin 2) :
    (capShow d).rd HOST.ARCH_CAP.BPUS = 11830 * (b2n (portUp d p) + b2n (portUp d (1 - p.val))) := by
  have hbit (b : Bool) : b2n b ≤ 1 := by cases b <;> decide
  have hfits := Nat.add_le_add (hbit (portUp d 0)) (hbit (portUp d 1))
  have hvalue : (capShow d).rd HOST.ARCH_CAP.BPUS = 11830 * (b2n (portUp d 0) + b2n (portUp d 1)) :=
    Dev.rd_wr_fits d (by rw [show HOST.ARCH_CAP.BPUS.width = 16 from rfl]; omega)
  rw [hvalue]
  fin_cases p
  · rfl
  · exact congrArg (11830 * ·) (Nat.add_comm _ _)

end Sys2Proof.Machine
end

section
/-! SUPPORT. HOST_PORT_DOWN, HOST_PORT_UP and HOME_RETURN (R308), and the statement on the tag stream, jobs and the loss of a port. -/

namespace Sys2Proof.Machine

/-! ## HOST_PORT_DOWN -/

/-- The event of a port's link. -/
def linkIrq (p : Fin 2) : Nat := if p = 0 then HOST.irq.LINK_HA else HOST.irq.LINK_HB

/-- The link down, and the records of its port without one. -/
def portLost (d : Dev) (p : Fin 2) : Dev :=
  ((d.wr (linkUp p) 0).irq Page.HOST (linkIrq p)).updArch fun a =>
    { a with recs := a.recs.map fun r => if r.port == some p.val then { r with port := none } else r }

theorem hostPortDown_down {d : Dev} {p : Fin 2} (h : portUp d p = false) : hostPortDown p d = d := by
  rw [hostPortDown, h]
  rfl

theorem hostPortDown_eq {d : Dev} {p : Fin 2} (h : portUp d p = true) : hostPortDown p d =
    capShow (moveSessions (if portUp (portLost d p) (1 - p.val) then archAssign (portLost d p) else archQShow (portLost d p))) := by
  rw [hostPortDown, h]
  rfl

/-- The registers that tell of a link. -/
def linkFields (p : Fin 2) : List Fld := [linkUp p, Com.IRQ_RAW Page.HOST, Com.ERR_CNT Page.HOST]

theorem portLost_regs (d : Dev) (p : Fin 2) : d.KeepsRegs (portLost d p) (linkFields p) :=
  Dev.KeepsKeys.of_regs (((Dev.KeepsKeys.refl d _).wr (by simp [linkFields]) _).irq (by simp [linkFields]) (by simp [linkFields]) _) rfl

theorem portLost_tags (d : Dev) (p : Fin 2) : (portLost d p).tags = d.tags := by
  have honly : (d.wr (linkUp p) 0).OnlyKeys ((d.wr (linkUp p) 0).irq Page.HOST (linkIrq p)) fun _ => True :=
    (Dev.OnlyKeys.refl _ _).irq trivial trivial _
  rw [portLost, honly.1]
  rfl

theorem portLost_portUp (d : Dev) (p : Fin 2) :
    portUp (portLost d p) p = false ∧ portUp (portLost d p) (1 - p.val) = portUp d (1 - p.val) := by
  have hkept : (d.wr (linkUp p) 0).LinksKept (portLost d p) :=
    (Dev.LinksKept.of_onlyRegs (fs := [Com.IRQ_RAW Page.HOST, Com.ERR_CNT Page.HOST])
      ((Dev.OnlyKeys.refl _ _).irq (by simp) (by simp) _) (by decide)).updArch _
  exact ⟨(hkept.portUp _).trans (portUp_wr_same d p 0), (hkept.portUp _).trans (portUp_wr_other d p 0)⟩

theorem portLost_recs (d : Dev) (p : Fin 2) : ∀ r ∈ (portLost d p).arch.recs, r.port ≠ some p.val := by
  intro r hr
  obtain ⟨x, -, rfl⟩ := List.mem_map.1 hr
  split
  · exact Option.some_ne_none _ |>.symm
  · next hne => simpa using hne

theorem portLost_told (d : Dev) (p : Fin 2) : bitOf ((portLost d p).rd (Com.IRQ_RAW Page.HOST)) (linkIrq p) = true := by
  have hbit : linkIrq p < 8 := by clear * -; decide +revert
  have htold := Dev.bitOf_irq (d.wr (linkUp p) 0) Page.HOST (linkIrq p) hbit
  rw [decide_eq_true rfl, Bool.true_or] at htold
  exact htold

/-- The links, ARCH_CAP and the other pages after the loss of a link, whatever of the HOST page and the streams followed it. -/
theorem capShow_lost {d e : Dev} {p : Fin 2} (h : (portLost d p).LinksKept e) :
    portUp (capShow e) p = false ∧ (capShow e).rd HOST.ARCH_CAP.BPUS = 11830 * b2n (portUp d (1 - p.val)) ∧
    d.KeepsPages (capShow e) [Page.HOST] := by
  obtain ⟨hdown, hother⟩ := portLost_portUp d p
  have hcap := capShow_value e p
  rw [h.portUp, h.portUp, hdown, hother, show b2n false = 0 from rfl, Nat.zero_add] at hcap
  have hlost : d.KeepsKeys (portLost d p) (· / 131072 ∈ [Page.HOST]) :=
    Dev.KeepsRegs.keepsPages (portLost_regs d p) (by clear * -; decide +revert)
  exact ⟨((capShow_kept e).portUp _).trans ((h.portUp _).trans hdown), hcap, hlost.trans (h.trans (capShow_kept e)).keepsPages⟩

/-- The loss of the last link. -/
theorem hostPortDown_last {d : Dev} {p : Fin 2} (hp : portUp d p = true) (ho : portUp d (1 - p.val) = false) :
    hostPortDown p d = capShow (hostShow (archQShow (portLost d p))) := by
  obtain ⟨hdown, hother⟩ := portLost_portUp d p
  have hnone (q : Nat) : portUp (archQShow (portLost d p)) q = false :=
    ((archQShow_kept _).portUp q).trans (portUp_none hdown (hother.trans ho) q)
  rw [hostPortDown_eq hp, hother, ho, if_neg Bool.false_ne_true, moveSessions_none hnone]

/-- What is shown at the loss of the last link. -/
theorem lastShown_only (d : Dev) : d.OnlyRegs (capShow (hostShow (archQShow d)))
    (queueFields ++ [HOST.STATUS.JQ_OWNED, HOST.STATUS.FAILOVER, HOST.ARCH_CAP.BPUS]) := by
  have hwide {a b : Dev} {fs : List Fld} (h : a.OnlyRegs b fs)
      (hfs : fs ⊆ queueFields ++ [HOST.STATUS.JQ_OWNED, HOST.STATUS.FAILOVER, HOST.ARCH_CAP.BPUS]) :
      a.OnlyKeys b (· ∈ (queueFields ++ [HOST.STATUS.JQ_OWNED, HOST.STATUS.FAILOVER, HOST.ARCH_CAP.BPUS]).map Fld.key) :=
    ⟨h.1, Dev.KeepsRegs.subset h.2 hfs⟩
  exact ((hwide (archQShow_only d) (by simp)).trans (hwide (hostShow_only _) (by simp [queueFields]))).trans
    (hwide (capShow_only _) (by simp [queueFields]))

theorem hostPortDown_last_spec {d : Dev} {p : Fin 2} (hp : portUp d p = true) (ho : portUp d (1 - p.val) = false) :
    portUp (hostPortDown p d) p = false ∧ (hostPortDown p d).rd HOST.ARCH_CAP.BPUS = 0 ∧
    (∀ r ∈ (hostPortDown p d).arch.recs, r.port ≠ some p.val) ∧ (hostPortDown p d).tags = d.tags ∧
    bitOf ((hostPortDown p d).rd (Com.IRQ_RAW Page.HOST)) (linkIrq p) = true ∧ d.KeepsPages (hostPortDown p d) [Page.HOST] := by
  rw [hostPortDown_last hp ho]
  obtain ⟨hdown, hcap, hkeep⟩ := capShow_lost ((archQShow_kept (portLost d p)).trans (hostShow_kept _))
  obtain ⟨hrest, hregs⟩ := lastShown_only (portLost d p)
  have hrecs := portLost_recs d p
  have htags := portLost_tags d p
  have htold := portLost_told d p
  rw [ho] at hcap
  refine ⟨hdown, hcap, ?_, ?_, ?_, hkeep⟩
  · rw [hrest]
    exact hrecs
  · rw [hrest]
    exact htags
  · rw [hregs _ (by decide)]
    exact htold

/-- The records of a lost port have taken the other one. -/
theorem archAssign_lost {d : Dev} {p : Fin 2} :
    (portLost d p).LinksKept (archAssign (portLost d p)) ∧ (archAssign (portLost d p)).tags = d.tags ∧
    ∀ r ∈ (archAssign (portLost d p)).arch.recs, r.port ≠ some p.val := by
  obtain ⟨hkept, htags, hrecs⟩ := archAssign_spec (d := portLost d p) (Q := (· ≠ some p.val))
    (fun e he hport => by
      have hup := archPort_up hport
      rw [he.portUp, (portLost_portUp d p).1] at hup
      exact Bool.false_ne_true hup)
    (fun r hr _ => portLost_recs d p r hr)
  exact ⟨hkept, htags.trans (portLost_tags d p), hrecs⟩

/-- Neither the loss of a link nor the records that move write what a session is known by, or count a move. -/
theorem archAssign_lost_reads (d : Dev) (p : Fin 2) :
    d.SessKept (archAssign (portLost d p)) ∧ (archAssign (portLost d p)).rd HOST.FAILOVER_CNT.CNT = d.rd HOST.FAILOVER_CNT.CNT := by
  have hlost := portLost_regs d p
  have hassign := archAssign_regs (portLost d p)
  refine ⟨(Dev.KeepsKeys.sessKept hlost (by clear * -; decide +revert)).trans (Dev.KeepsKeys.sessKept hassign (by decide)), ?_⟩
  exact (hassign _ (by decide)).trans (hlost _ (by clear * -; decide +revert))

/-- The loss of a link while the other is up: the only session, on the lost port, moves. -/
theorem hostPortDown_moves {d : Dev} {p : Fin 2} {j : Fin 4} (hp : portUp d p = true) (ho : portUp d (1 - p.val) = true)
    (hopen : openSessions d = [j.val]) (hcur : d.rd (HOST.SESS_STAT.CUR j) = p) :
    hostPortDown p d = capShow (hostShow (moveSession (archAssign (portLost d p)) j (1 - p.val))) := by
  obtain ⟨hdown, hother⟩ := portLost_portUp d p
  obtain ⟨hkept, -, -⟩ := archAssign_lost (d := d) (p := p)
  obtain ⟨hsess, -⟩ := archAssign_lost_reads d p
  have hon : (archAssign (portLost d p)).rd (HOST.SESS_STAT.CUR j) = p :=
    (hsess j (HOST.SESS_STAT.CUR j) (by simp [sessFields])).trans hcur
  rw [hostPortDown_eq hp, hother, ho, if_pos rfl, moveSessions_one (hsess.openSessions.trans hopen)
    (by rw [hon, hkept.portUp, hdown]) (by rw [hon, hkept.portUp, hother, ho]), hon]

/-- The session that moved with its streams, its retained records queued to be sent again. -/
theorem moveSession_streams {d : Dev} {j : Fin 4} {dest : Nat} (h : bitOf (d.rd (HOST.SESS_STAT.STREAMS j)) 1 = true) (hdest : dest < 2) :
    (moveSession d j dest).tags = { d.tags with retx := d.tags.kept.map Prod.fst, moved := !d.tags.kept.isEmpty } ∧
    (moveSession d j dest).rd (HOST.SESS_STAT.CUR j) = dest ∧ d.Counted (moveSession d j dest) HOST.FAILOVER_CNT.CNT := by
  have hcur := sessMoved_cur d j hdest
  have hcount := sessMoved_counted d j dest
  have htags : (sessMoved d j dest).tags = d.tags := by rw [(sessMoved_only d j dest).1]
  rw [moveSession_eq, if_pos h]
  generalize sessMoved d j dest = e at hcur hcount htags ⊢
  exact ⟨by rw [← htags]; rfl, hcur, hcount⟩

theorem hostPortDown_moves_spec {d : Dev} {p : Fin 2} {j : Fin 4} (hp : portUp d p = true) (ho : portUp d (1 - p.val) = true)
    (hopen : openSessions d = [j.val]) (hcur : d.rd (HOST.SESS_STAT.CUR j) = p) (hstreams : bitOf (d.rd (HOST.SESS_STAT.STREAMS j)) 1 = true) :
    portUp (hostPortDown p d) p = false ∧ (hostPortDown p d).rd HOST.ARCH_CAP.BPUS = 11830 ∧
    (hostPortDown p d).rd (HOST.SESS_STAT.CUR j) = 1 - p.val ∧ d.Counted (hostPortDown p d) HOST.FAILOVER_CNT.CNT ∧
    (hostPortDown p d).tags = { d.tags with retx := d.tags.kept.map Prod.fst, moved := !d.tags.kept.isEmpty } ∧
    (∀ r ∈ (hostPortDown p d).arch.recs, r.port ≠ some p.val) ∧ d.KeepsPages (hostPortDown p d) [Page.HOST] := by
  rw [hostPortDown_moves hp ho hopen hcur]
  obtain ⟨hkept, htags, hrecs⟩ := archAssign_lost (d := d) (p := p)
  obtain ⟨hsess, hfail⟩ := archAssign_lost_reads d p
  have hheld := hsess j (HOST.SESS_STAT.STREAMS j) (by simp [sessFields])
  generalize archAssign (portLost d p) = a at hkept htags hrecs hheld hfail ⊢
  obtain ⟨hmoved, hnow, hcount⟩ := moveSession_streams (d := a) (j := j) (dest := 1 - p.val) (by rw [hheld, hstreams]) (by omega)
  have harch := moveSession_arch a j (1 - p.val)
  have hmove := moveSession_kept a j (1 - p.val)
  generalize moveSession a j (1 - p.val) = b at hmoved hnow hcount harch hmove ⊢
  obtain ⟨hdown, hcap, hkeep⟩ := capShow_lost ((hkept.trans hmove).trans (hostShow_kept b))
  obtain ⟨hhost, hhostregs⟩ := hostShow_only b
  obtain ⟨hshown, hregs⟩ := capShow_only (hostShow b)
  have hread (f : Fld) (h1 : f.key ∉ [HOST.ARCH_CAP.BPUS].map Fld.key)
      (h2 : f.key ∉ [HOST.STATUS.JQ_OWNED, HOST.STATUS.FAILOVER].map Fld.key) : (capShow (hostShow b)).rd f = b.rd f :=
    (hregs f h1).trans (hhostregs f h2)
  rw [ho] at hcap
  refine ⟨hdown, hcap, ?_, ?_, ?_, ?_, hkeep⟩
  · rw [hread _ (by clear * -; decide +revert) (by clear * -; decide +revert), hnow]
  · rw [Dev.Counted, hread _ (by decide) (by decide), hcount, hfail]
  · rw [hshown, hhost]
    exact hmoved.trans (by rw [htags])
  · rw [hshown, hhost]
    exact harch ▸ hrecs

/-! ## HOST_PORT_UP -/

/-- The link up, from now on. -/
def portGained (d : Dev) (p : Fin 2) : Dev :=
  (d.wr (linkUp p) 1).updHost fun h => { h with upAt := (p.val, d.now) :: h.upAt.filter fun e => e.1 != p.val }

theorem hostPortUp_eq {d : Dev} {p : Fin 2} (h : portUp d p = false)
    (hen : d.on (if p = 0 then HOST.CTL.HA_EN else HOST.CTL.HB_EN) = true) :
    hostPortUp p d = capShow (moveSessions (archAssign (portGained d p))) := by
  rw [hostPortUp, h, hen]
  rfl

theorem hostPortUp_off {d : Dev} {p : Fin 2} (hen : d.on (if p = 0 then HOST.CTL.HA_EN else HOST.CTL.HB_EN) = false) :
    hostPortUp p d = d := by
  rw [hostPortUp, hen, Bool.not_false, Bool.or_true, if_pos rfl]

theorem portGained_portUp (d : Dev) (p : Fin 2) :
    portUp (portGained d p) p = true ∧ portUp (portGained d p) (1 - p.val) = portUp d (1 - p.val) :=
  ⟨portUp_wr_same d p 1, portUp_wr_other d p 1⟩

theorem hostPortUp_spec {d : Dev} {p : Fin 2} (h : portUp d p = false)
    (hen : d.on (if p = 0 then HOST.CTL.HA_EN else HOST.CTL.HB_EN) = true) :
    portUp (hostPortUp p d) p = true ∧ portUp (hostPortUp p d) (1 - p.val) = portUp d (1 - p.val) ∧
    (hostPortUp p d).rd HOST.ARCH_CAP.BPUS = (if portUp d (1 - p.val) = true then 23660 else 11830) ∧
    (p.val, d.now) ∈ (hostPortUp p d).host.upAt ∧ (∀ r ∈ (hostPortUp p d).arch.recs, r.port ≠ none) ∧
    d.KeepsPages (hostPortUp p d) [Page.HOST] := by
  rw [hostPortUp_eq h hen]
  obtain ⟨hup, hother⟩ := portGained_portUp d p
  have hgained : d.KeepsKeys (portGained d p) (· / 131072 ∈ [Page.HOST]) :=
    Dev.KeepsKeys.of_regs ((Dev.KeepsKeys.refl d _).wr (f := linkUp p) (by clear * -; decide +revert) 1) rfl
  have hsince : (p.val, d.now) ∈ (portGained d p).host.upAt := List.mem_cons_self
  generalize portGained d p = g at hup hother hgained hsince ⊢
  obtain ⟨hassigned, -, hrecs⟩ := archAssign_spec (d := g) (Q := (· ≠ none))
    (fun e he => archPort_some ((he.portUp p).trans hup)) (fun _ _ hport => hport)
  obtain ⟨hmoved, harch⟩ := moveSessions_kept (archAssign g)
  have hkept := hassigned.trans hmoved
  generalize moveSessions (archAssign g) = e at hkept harch ⊢
  have hshown := capShow_kept e
  have hcap := capShow_value e p
  rw [hkept.portUp, hkept.portUp, hup, hother] at hcap
  refine ⟨?_, ?_, ?_, ?_, ?_, hgained.trans (hkept.trans hshown).keepsPages⟩
  · rw [hshown.portUp, hkept.portUp, hup]
  · rw [hshown.portUp, hkept.portUp, hother]
  · rw [hcap]
    cases portUp d (1 - p.val)
    · rfl
    · rfl
  · rw [hshown.host, hkept.host]
    exact hsince
  · rw [(capShow_only e).1]
    exact harch ▸ hrecs

/-! ## HOME_RETURN -/

theorem homeReturn_eq {d : Dev} {j : Fin 4} {t : Nat} (hopen : d.on (HOST.SESS_STAT.STATE j) = true)
    (haway : d.rd (HOST.SESS_STAT.CUR j) ≠ d.rd (HOST.SESS_STAT.HOME j)) (hup : portUp d (d.rd (HOST.SESS_STAT.HOME j)) = true)
    (hat : d.host.upAt.find? (fun e => e.1 == d.rd (HOST.SESS_STAT.HOME j)) = some (d.rd (HOST.SESS_STAT.HOME j), t)) :
    homeReturn j d = if decide (t + 16000000000 ≤ d.now) = true then
      hostShow (d.wr (HOST.SESS_STAT.CUR j) (d.rd (HOST.SESS_STAT.HOME j))) else d := by
  have hne : (d.rd (HOST.SESS_STAT.CUR j) != d.rd (HOST.SESS_STAT.HOME j)) = true := by simpa using haway
  rw [homeReturn, hopen, hne, hup, hat, Option.elim_some, Bool.true_and, Bool.true_and, Bool.true_and]

theorem homeReturn_returns (d : Dev) (j : Fin 4) (home : Nat) :
    (hostShow (d.wr (HOST.SESS_STAT.CUR j) home)).rd (HOST.SESS_STAT.CUR j) = home % 2 ∧
    (hostShow (d.wr (HOST.SESS_STAT.CUR j) home)).out = d.out ∧
    d.OnlyRegs (hostShow (d.wr (HOST.SESS_STAT.CUR j) home)) [HOST.SESS_STAT.CUR j, HOST.STATUS.JQ_OWNED, HOST.STATUS.FAILOVER] := by
  obtain ⟨hrest, hregs⟩ := hostShow_only (d.wr (HOST.SESS_STAT.CUR j) home)
  refine ⟨?_, by rw [hrest]; rfl, ?_⟩
  · rw [hregs _ (by clear * -; decide +revert), Dev.rd_wr_same]
    rfl
  · have hwr : d.OnlyKeys (d.wr (HOST.SESS_STAT.CUR j) home)
        (· ∈ [HOST.SESS_STAT.CUR j, HOST.STATUS.JQ_OWNED, HOST.STATUS.FAILOVER].map Fld.key) := (Dev.OnlyKeys.refl d _).wr (by simp) _
    exact hwr.trans ⟨hrest, Dev.KeepsRegs.subset hregs (List.subset_cons_self _ _)⟩

/-! ## The statement -/

/-- A JOB_SUBMIT that is refused. -/
theorem jobSubmit_refused {s : State} {r : ThpReq} {j : Fin 4} {desc : List Byte} {code : Nat} (hup : s.dev.up = true)
    (h : s.dev.Executes r j) (hrefused : jobSubmit r desc (s.dev, s.mem) =
      (answer (requestTaken s.dev r j) r.port j r.seq [(0x29, [code])], s.mem)) :
    Gives (.jobSubmit r desc) s fun d => s.dev.Answered d r j 0x29 [code] ∧ s.dev.OnlyHost d :=
  gives_of_onBoth (g := jobSubmit r desc) rfl hup (by rw [hrefused]) (by
    rw [hrefused]
    exact ⟨h.answered_taken 0x29 [code], answer_taken_onlyHost s.dev r j _⟩)

theorem jobSubmit_cases {s : State} {r : ThpReq} {j : Fin 4} (desc : List Byte) {t : Nat} (hup : s.dev.up = true) (h : s.dev.Executes r j)
    (hminor : 1 ≤ minorOf s.dev j) (ht : t = s.dev.rd ZCTL.JQ_TAIL.IDX) :
    (desc.length = 32 → s.dev.on (HOST.SESS_STAT.JOB j) = true → (t + 1) % 256 ≠ s.dev.rd ZCTL.JQ_HEAD.IDX →
      Completes (.jobSubmit r desc) s fun u => s.mem.Stored u.mem (jqBase + 32 * t) desc ∧
        u.dev.rd ZCTL.JQ_TAIL.IDX = (t + 1) % 256 ∧ s.dev.Answered u.dev r j 0x29 [0, t] ∧
        ∀ f : Fld, f.key / 131072 ≠ Page.HOST → f.key ≠ ZCTL.JQ_TAIL.IDX.key → u.dev.rd f = s.dev.rd f) ∧
    (desc.length = 32 → s.dev.on (HOST.SESS_STAT.JOB j) = false →
      Gives (.jobSubmit r desc) s fun d => s.dev.Answered d r j 0x29 [4] ∧ s.dev.OnlyHost d) ∧
    (desc.length = 32 → s.dev.on (HOST.SESS_STAT.JOB j) = true → (t + 1) % 256 = s.dev.rd ZCTL.JQ_HEAD.IDX →
      Gives (.jobSubmit r desc) s fun d => s.dev.Answered d r j 0x29 [8] ∧ s.dev.OnlyHost d) ∧
    (desc.length ≠ 32 → Gives (.jobSubmit r desc) s fun d => s.dev.Answered d r j 0x29 [2] ∧ s.dev.OnlyHost d) := by
  subst ht
  have heq := jobSubmit_eq (m := s.mem) h hminor desc
  refine ⟨fun hlen hjob hroom => ?_, fun hlen hjob => jobSubmit_refused hup h ?_, fun hlen hjob hfull => jobSubmit_refused hup h ?_,
    fun hlen => jobSubmit_refused hup h ?_⟩
  · rw [if_neg (not_not.2 hlen), if_neg (by simp [hjob]), if_neg hroom] at heq
    refine completes_of_onBoth (g := jobSubmit r desc) rfl hup ?_
    rw [heq]
    exact ⟨Memory.stored_store _ _ _, jobQueued_spec h _⟩
  · rw [heq, if_neg (not_not.2 hlen), if_pos (by simp [hjob])]
  · rw [heq, if_neg (not_not.2 hlen), if_neg (by simp [hjob]), if_pos hfull]
  · rw [heq, if_pos hlen]

/-- Settles O42: by the parts above, the frames of the tag stream, the requests of a host, jobs, and the loss and the return of a port. -/
theorem tagStreamJobsAndFailover : Obligations.TagStreamJobsAndFailover := by
  refine ⟨?_, ?_, ?_, ?_, ?_, ?_, ?_, ?_, ?_, ?_, ?_, ?_, ?_⟩
  · exact fun s hup hnone => gives_of_onDev rfl hup (tagFrameStart_none hnone)
  · rintro s j x n f hup hsess hactive hport hretx hw hlen - huid rfl rfl
    exact gives_of_onDev rfl hup (tagFrameStart_spec hsess hactive hport hretx hw hlen huid)
  · intro s j q x hup hsess hactive hport hretx hw hfind hlen
    refine gives_of_onDev rfl hup ?_
    rw [tagFrameStart_resends hsess hactive hport hretx hw hfind hlen]
    exact resent_spec s.dev j x.words
  · exact fun s r j q hup h hsess hacked hq hn hk => gives_of_onDev rfl hup (streamAck_frees h hsess hacked hq hn hk)
  · intro s r j q a hup h hsess hacked hle hlt hn
    refine gives_of_onDev (g := streamAck r q) rfl hup ?_
    rw [streamAck_old h hsess hacked hle hlt hn]
    exact ⟨requestHeard_tags s.dev r j, requestHeard_out s.dev r j, (requestHeard_onlyHost s.dev r j).2⟩
  · exact fun s r j a b hup h hsess hminor hacked hab hb hn hkept hretx =>
      gives_of_onDev rfl hup (streamNack_held h hsess hminor hacked hab hb hn hkept hretx)
  · exact fun s r j q hup h hsess hminor hacked hq hn hkept => gives_of_onDev rfl hup (streamNack_lost h hsess hminor hacked hq hn hkept)
  · exact fun s r j desc t hup h hminor ht => jobSubmit_cases desc hup h hminor ht
  · exact fun s r j slot idx hup h hminor hjob hcq => gives_of_onDev rfl hup (jobDoneAck_spec h hminor hjob hcq)
  · exact fun s slot idx hup hcq => ⟨fun j hjob hpast => gives_of_onDevM rfl hup (jobDoneResend_sends hcq s.mem hjob hpast),
      fun hnot => gives_of_onDevM rfl hup (jobDoneResend_not hcq s.mem hnot)⟩
  · exact fun s p hup => ⟨fun hp => gives_of_onDev rfl hup (hostPortDown_down hp),
      fun hp ho => gives_of_onDev rfl hup (hostPortDown_last_spec hp ho),
      fun j hp ho hopen hcur hstreams => gives_of_onDev rfl hup (hostPortDown_moves_spec hp ho hopen hcur hstreams)⟩
  · refine fun s p hup hp => ⟨fun hen hlit hawake => gives_awake rfl hup hawake ?_, fun hen => gives_of_onDev rfl hup ?_⟩
    · rw [if_neg (by simp [hlit])]
      exact hostPortUp_spec hp hen
    · simp only [unlessDormant, hostPortUp_off hen, ite_self]
  · intro s j t hup hopen haway hport hat
    have heq := homeReturn_eq hopen haway hport hat
    refine ⟨fun hlong => gives_of_onDev (g := homeReturn j) rfl hup ?_, fun hshort => gives_of_onDev (g := homeReturn j) rfl hup ?_⟩
    · rw [heq, if_pos (decide_eq_true hlong)]
      exact homeReturn_returns s.dev j _
    · rw [heq, if_neg (by simpa using hshort)]

end Sys2Proof.Machine
end

section
/-! SUPPORT. Valve channels and marker slots (R232 to R235): a channel's own record, the slots and their results, and what a step at a
channel leaves as it was. -/

namespace Sys2Proof.Machine

/-! ## A channel's own record -/

theorem updValve_valves (d : Dev) (ch : Fin 16) (g : ValveCh → ValveCh) : (d.updValve ch g).valves[ch] = g d.valves[ch] := by
  simp [Dev.updValve]

theorem updValve_valves_other (d : Dev) {ch c : Fin 16} (h : c ≠ ch) (g : ValveCh → ValveCh) :
    (d.updValve ch g).valves[c] = d.valves[c] :=
  Vector.getElem_set_ne ch.isLt c.isLt fun hv => h (Fin.ext hv.symm)

@[simp] theorem Dev.rd_updValve (d : Dev) (ch : Fin 16) (g : ValveCh → ValveCh) (f : Fld) : (d.updValve ch g).rd f = d.rd f := rfl

@[simp] theorem Dev.rd_updRun (d : Dev) (ch : Fin 16) (g : Run → Run) (f : Fld) : (d.updRun ch g).rd f = d.rd f := rfl

theorem updRun_run (d : Dev) (ch : Fin 16) (g : Run → Run) : (d.updRun ch g).valves[ch].run = d.valves[ch].run.map g := by
  rw [Dev.updRun, updValve_valves]

/-! ## The frame of a channel -/

/-- From `d` to `e` only channels of `C` and registers whose keys lie in `S` changed, among the channels and the registers. -/
structure Dev.ValveKept (d e : Dev) (C : Fin 16 → Prop) (S : Nat → Prop) : Prop where
  others : ∀ c : Fin 16, ¬ C c → e.valves[c] = d.valves[c]
  regs : d.KeepsKeys e S

namespace Dev.ValveKept
variable {d e : Dev} {C : Fin 16 → Prop} {S : Nat → Prop}

theorem refl (d : Dev) (C : Fin 16 → Prop) (S : Nat → Prop) : d.ValveKept d C S := ⟨fun _ _ => rfl, .refl _ _⟩

theorem trans {e' : Dev} (h : d.ValveKept e C S) (h' : e.ValveKept e' C S) : d.ValveKept e' C S :=
  ⟨fun c hc => (h'.others c hc).trans (h.others c hc), h.regs.trans h'.regs⟩

theorem mono (h : d.ValveKept e C S) {D : Fin 16 → Prop} {T : Nat → Prop} (hCD : ∀ c, C c → D c) (hST : ∀ k, S k → T k) :
    d.ValveKept e D T :=
  ⟨fun c hc => h.others c fun hC => hc (hCD c hC), h.regs.mono hST⟩

/-- A wider list of fields. -/
theorem subset {fs gs : List Fld} (h : d.ValveKept e C (· ∈ fs.map Fld.key)) (hs : fs ⊆ gs) : d.ValveKept e C (· ∈ gs.map Fld.key) :=
  h.mono (fun _ => id) fun _ hk => List.map_subset _ hs hk

/-- A change of anything but the channels and the registers. -/
theorem of_eq (h : d.ValveKept e C S) {e' : Dev} (hv : e'.valves = e.valves) (hr : e'.regs = e.regs) : d.ValveKept e' C S :=
  ⟨fun c hc => hv ▸ h.others c hc, h.regs.of_regs hr⟩

theorem of_onlyKeys (h : d.ValveKept e C S) {e' : Dev} (h' : e.OnlyKeys e' S) : d.ValveKept e' C S :=
  h.trans ⟨fun c _ => by rw [h'.1], h'.2⟩

theorem wr (h : d.ValveKept e C S) {f : Fld} (hf : S f.key) (v : Nat) : d.ValveKept (e.wr f v) C S :=
  h.of_onlyKeys ((OnlyKeys.refl e S).wr hf v)

theorem inc (h : d.ValveKept e C S) {f : Fld} (hf : S f.key) : d.ValveKept (e.inc f) C S := h.wr hf _

theorem irq (h : d.ValveKept e C S) {p : Nat} (h1 : S (Com.IRQ_RAW p).key) (h2 : S (Com.ERR_CNT p).key) (b : Nat) :
    d.ValveKept (e.irq p b) C S :=
  h.of_onlyKeys ((OnlyKeys.refl e S).irq h1 h2 b)

theorem emit (h : d.ValveKept e C S) (o : Out) : d.ValveKept (e.emit o) C S := h.of_eq rfl rfl

theorem ite (c : Prop) [Decidable c] {e' : Dev} (h : d.ValveKept e C S) (h' : d.ValveKept e' C S) :
    d.ValveKept (if c then e else e') C S := by
  split
  · exact h
  · exact h'

theorem toStandby (h : d.ValveKept e C S) (k : MsgKind) (args : List Int) : d.ValveKept (e.toStandby k args) C S := .ite _ (h.emit _) h

theorem updValve (h : d.ValveKept e C S) {ch : Fin 16} (hch : C ch) (g : ValveCh → ValveCh) : d.ValveKept (e.updValve ch g) C S :=
  h.trans ⟨fun c hc => updValve_valves_other e (fun heq : c = ch => hc (heq.symm ▸ hch)) g, .of_regs (.refl e S) rfl⟩

/-- Records that entered the tag stream. -/
theorem of_records {fs : List Fld} (h : d.ValveKept e C (· ∈ fs.map Fld.key)) {e' : Dev} (h' : e.RecordsKept e')
    (hs : recordFields ⊆ fs) : d.ValveKept e' C (· ∈ fs.map Fld.key) :=
  h.trans ⟨fun c _ => by rw [h'.rest], h'.regs.subset hs⟩

theorem keepsPages {fs : List Fld} {ps : List Nat} (h : d.ValveKept e C (· ∈ fs.map Fld.key)) (hp : ∀ f ∈ fs, f.key / 131072 ∈ ps) :
    d.KeepsPages e ps :=
  Dev.KeepsRegs.keepsPages h.regs hp

end Dev.ValveKept

/-! ## Slots -/

@[simp] theorem toStandby_valves (d : Dev) (k : MsgKind) (args : List Int) : (d.toStandby k args).valves = d.valves := by
  rw [Dev.toStandby_eq]

@[simp] theorem toStandby_mark (d : Dev) (k : MsgKind) (args : List Int) : (d.toStandby k args).mark = d.mark := by
  rw [Dev.toStandby_eq]

@[simp] theorem rd_toStandby (d : Dev) (k : MsgKind) (args : List Int) (f : Fld) : (d.toStandby k args).rd f = d.rd f := by
  rw [Dev.toStandby_eq]
  rfl

/-- The registers in which the slots show themselves. -/
def slotFields : List Fld := [MARK.SLOT_STAT0.FREE, MARK.SLOT_STAT0.ARMED, MARK.SLOT_STAT1.RUN, MARK.SLOT_STAT1.DONE]

theorem slotShow_only (d : Dev) : d.OnlyRegs (slotShow d) slotFields :=
  ((((Dev.OnlyKeys.refl d _).wr (f := MARK.SLOT_STAT0.FREE) (by simp [slotFields]) _).wr (f := MARK.SLOT_STAT0.ARMED)
    (by simp [slotFields]) _).wr (f := MARK.SLOT_STAT1.RUN) (by simp [slotFields]) _).wr (f := MARK.SLOT_STAT1.DONE)
    (by simp [slotFields]) _

theorem updMSlots_slots (d : Dev) (g : List MSlot → List MSlot) : (d.updMSlots g).mark.slots = g d.mark.slots := rfl

theorem updMSlots_kept (d : Dev) (g : List MSlot → List MSlot) (C : Fin 16 → Prop) :
    d.ValveKept (d.updMSlots g) C (· ∈ slotFields.map Fld.key) :=
  Dev.ValveKept.of_onlyKeys (e := d.updMark fun m => { m with slots := g m.slots }) ((Dev.ValveKept.refl d C _).of_eq rfl rfl)
    (slotShow_only _)

theorem slotAt_idx {d : Dev} {idx : Nat} {s : MSlot} (h : slotAt d idx = some s) : s.idx = idx := by
  simpa using List.find?_some h

theorem slotAt_none {d : Dev} {idx : Nat} (h : slotAt d idx = none) : ∀ x ∈ d.mark.slots, x.idx ≠ idx := by
  simpa [slotAt] using h

/-- The counters of the result codes. -/
def resultCntFields : List Fld :=
  [MARK.CONFIRMED_CNT.CNT, MARK.FAILED_CNT.CNT, MARK.FAULT_CNT.CNT, MARK.SKIPPED_CNT.CNT, MARK.SHED_CNT.CNT, MARK.NO_SLOT_CNT.CNT]

theorem resultCnt_only (d : Dev) (result : Nat) : d.OnlyRegs (resultCnt d result) resultCntFields := by
  unfold resultCnt
  split
  iterate 6 · exact (Dev.OnlyKeys.refl d _).inc (by simp [resultCntFields])
  exact Dev.OnlyKeys.refl d _

/-- The registers that a slot's release may write. -/
def releaseFields : List Fld := recordFields ++ slotFields ++ [MARK.RES_CNT.CNT]

/-- The registers that a slot's result may write. -/
def resultFields : List Fld := releaseFields ++ resultCntFields

theorem resultFields_page : ∀ f ∈ resultFields, f.key / 131072 ∈ [Page.MARK, Page.TAG] := by decide

/-- A released slot's record enters the tag stream, and the slot goes. -/
theorem slotRelease_kept (d : Dev) (s : MSlot) (C : Fin 16 → Prop) :
    d.ValveKept (slotRelease d s) C (· ∈ releaseFields.map Fld.key) := by
  have hput := (Dev.ValveKept.refl d C _).of_records ((Dev.RecordsKept.refl d).markResultPut
    ⟨s.blob, s.close, s.result, s.valve, s.dipT, s.firePos, s.fireT, s.taken⟩) (fs := releaseFields) (by simp [releaseFields])
  exact (hput.inc (f := MARK.RES_CNT.CNT) (by simp [releaseFields])).trans ((updMSlots_kept _ _ _).subset (by simp [releaseFields]))

theorem slotRelease_slots (d : Dev) (s : MSlot) : (slotRelease d s).mark.slots = d.mark.slots.filter fun q => q.idx != s.idx := by
  have hput := (Dev.RecordsKept.refl d).markResultPut ⟨s.blob, s.close, s.result, s.valve, s.dipT, s.firePos, s.fireT, s.taken⟩
  simp only [slotRelease, updMSlots_slots, Dev.inc_mark]
  rw [hput.rest]

theorem slotRelease_counts (d : Dev) (s : MSlot) : d.Counted (slotRelease d s) MARK.RES_CNT.CNT := by
  have hput := (Dev.RecordsKept.refl d).markResultPut ⟨s.blob, s.close, s.result, s.valve, s.dipT, s.firePos, s.fireT, s.taken⟩
  unfold slotRelease
  extract_lets d1
  rw [Dev.Counted, (updMSlots_kept _ _ fun _ => False).regs _ (by decide), Dev.rd_inc_same, hput.regs _ (by decide)]

/-- A slot with its result: DONE, its channel and its start shown where its program has started. -/
def MSlot.answered (s : MSlot) (result dipT valve : Nat) (start : Option (Nat × Nat)) : MSlot :=
  { s with state := .done, result := result, dipT := dipT, valve := if start.isSome then valve else 0,
           firePos := start.elim 0 Prod.snd, fireT := start.elim 0 Prod.fst }

/-- The slot answered and the answer counted and told, before its release. -/
def slotTold (d : Dev) (idx : Nat) (s : MSlot) (result dipT spent : Nat) : Dev :=
  (resultCnt (d.updMSlot idx fun _ => s) result).toStandby .slotEnd [(idx : Int), (result : Int), (dipT : Int), (spent : Int)]

theorem slotTold_kept (d : Dev) (idx : Nat) (s : MSlot) (result dipT spent : Nat) (C : Fin 16 → Prop) :
    d.ValveKept (slotTold d idx s result dipT spent) C (· ∈ (slotFields ++ resultCntFields).map Fld.key) := by
  have hslots := (updMSlots_kept d (List.map fun q => if q.idx == idx then s else q) C).subset
    (gs := slotFields ++ resultCntFields) (by simp)
  exact (hslots.trans (Dev.ValveKept.subset ((Dev.ValveKept.refl _ C _).of_onlyKeys (resultCnt_only _ result)) (by simp))).toStandby _ _

theorem slotTold_slots (d : Dev) (idx : Nat) (s : MSlot) (result dipT spent : Nat) :
    (slotTold d idx s result dipT spent).mark.slots = d.mark.slots.map fun q => if q.idx == idx then s else q := by
  rw [slotTold, toStandby_mark, (resultCnt_only _ _).1]
  rfl

theorem slotResult_some {d : Dev} {idx : Nat} {s : MSlot} (h : slotAt d idx = some s) (result dipT valve : Nat)
    (start : Option (Nat × Nat)) (spent : Nat) :
    slotResult d idx result dipT valve start spent =
      let e := slotTold d idx (s.answered result dipT valve start) result dipT spent
      if d.mirrored then e else slotRelease e (s.answered result dipT valve start) := by
  have hkept := (slotTold_kept d idx (s.answered result dipT valve start) result dipT spent fun _ => False).regs
  have hmirrored : (slotTold d idx (s.answered result dipT valve start) result dipT spent).mirrored = d.mirrored := by
    simp only [Dev.mirrored, Dev.hasStandby, Dev.on, hkept TWIN.CTL.EN (by decide), hkept TWIN.STATUS.STATE (by decide),
      hkept TWIN.STATUS.LINK_UP (by decide), hkept TWIN.STATUS.MIRRORED (by decide)]
  rw [← hmirrored]
  simp only [slotResult, h]
  rfl

theorem slotResult_kept (d : Dev) (idx result dipT valve : Nat) (start : Option (Nat × Nat)) (spent : Nat) (C : Fin 16 → Prop) :
    d.ValveKept (slotResult d idx result dipT valve start spent) C (· ∈ resultFields.map Fld.key) := by
  cases h : slotAt d idx with
  | none => simpa only [slotResult, h] using Dev.ValveKept.refl d C _
  | some s =>
    rw [slotResult_some h]
    have htold := (slotTold_kept d idx (s.answered result dipT valve start) result dipT spent C).subset (gs := resultFields)
      (by decide)
    exact .ite _ htold (htold.trans ((slotRelease_kept _ _ _).subset (List.subset_append_left _ _)))

/-- Where every slot of a number is replaced by one slot of that number, the others stay. -/
theorem slotTold_mem (d : Dev) {idx : Nat} {s : MSlot} (hs : s.idx = idx) (result dipT spent : Nat) (y : MSlot) :
    (y.idx ≠ idx → (y ∈ (slotTold d idx s result dipT spent).mark.slots ↔ y ∈ d.mark.slots)) ∧
    (y.idx = idx → y ∈ (slotTold d idx s result dipT spent).mark.slots → y = s) := by
  rw [slotTold_slots, List.mem_map]
  refine ⟨fun hne => ⟨fun ⟨q, hq, hy⟩ => ?_, fun hy => ⟨y, hy, if_neg (by simpa using hne)⟩⟩, fun he ⟨q, hq, hy⟩ => ?_⟩
  · split at hy
    · exact absurd (hy ▸ hs) hne
    · exact hy ▸ hq
  · split at hy
    · exact hy.symm
    next hne => exact absurd he (by subst hy; simpa using hne)

/-- The slots after a result: no other slot goes or comes, and of the answered one at most its answer stays. -/
theorem slotResult_slots (d : Dev) (idx result dipT valve : Nat) (start : Option (Nat × Nat)) (spent : Nat) (y : MSlot) :
    (y.idx ≠ idx → (y ∈ (slotResult d idx result dipT valve start spent).mark.slots ↔ y ∈ d.mark.slots)) ∧
    (y.idx = idx → y ∈ (slotResult d idx result dipT valve start spent).mark.slots →
      d.mirrored = true ∧ y.state = .done ∧ y.result = result) := by
  cases h : slotAt d idx with
  | none =>
    simp only [slotResult, h]
    exact ⟨fun _ => trivial, fun he hy => absurd he (slotAt_none h y hy)⟩
  | some s =>
    have hs := slotAt_idx h
    have hmem := slotTold_mem d (s := s.answered result dipT valve start) hs result dipT spent y
    rw [slotResult_some h]
    dsimp only
    split
    · exact ⟨hmem.1, fun he hy => hmem.2 he hy ▸ ⟨‹_›, rfl, rfl⟩⟩
    · rw [slotRelease_slots, List.mem_filter, show (s.answered result dipT valve start).idx = idx from hs]
      exact ⟨fun hne => by simpa [hne] using hmem.1 hne, fun he hy => absurd he (by simpa using hy.2)⟩

end Sys2Proof.Machine
end

section
/-! SUPPORT. The end of a program and the faults of channels and groups (R238, R240, R245). -/

namespace Sys2Proof.Machine

/-! ## The drive state and the group's books -/

theorem setDrive_rest (d : Dev) (ch : Fin 16) (mode cur : Nat) :
    setDrive d ch mode cur = { d with regs := (setDrive d ch mode cur).regs, out := (setDrive d ch mode cur).out } := by
  unfold setDrive
  split <;> rfl

@[simp] theorem setDrive_valves (d : Dev) (ch : Fin 16) (mode cur : Nat) : (setDrive d ch mode cur).valves = d.valves := by
  rw [setDrive_rest]

@[simp] theorem setDrive_mark (d : Dev) (ch : Fin 16) (mode cur : Nat) : (setDrive d ch mode cur).mark = d.mark := by
  rw [setDrive_rest]

/-- The drive state reads as set where its field holds it, or has held it already. -/
theorem rd_setDrive {d : Dev} {ch : Fin 16} {mode : Nat} (h : mode < 4 ∨ d.rd (VALVE.STATUS.DRIVE ch) = mode) (cur : Nat) :
    (setDrive d ch mode cur).rd (VALVE.STATUS.DRIVE ch) = mode := by
  unfold setDrive
  split
  · assumption
  next hne => exact (Dev.rd_emit _ _ _).trans (Dev.rd_wr_fits _ (h.resolve_right hne))

theorem setDrive_kept (d : Dev) (ch : Fin 16) (mode cur : Nat) (C : Fin 16 → Prop) :
    d.ValveKept (setDrive d ch mode cur) C (· ∈ [VALVE.STATUS.DRIVE ch].map Fld.key) :=
  .ite _ (.refl _ _ _) (((Dev.ValveKept.refl _ _ _).wr (by simp) _).emit _)

/-- The registers in which a high-side group shows itself. -/
def hsgFields (g : Nat) : List Fld := [HSG.STAT.BUSY g, HSG.STAT.OWNER g, HSG.STAT.WAITING g, HSG.STAT.I_SUM g]

theorem hsgShow_only (d : Dev) (g : Nat) : d.OnlyRegs (hsgShow d g) (hsgFields g) :=
  ((((Dev.OnlyKeys.refl d _).wr (f := HSG.STAT.BUSY g) (by simp [hsgFields]) _).wr (f := HSG.STAT.OWNER g) (by simp [hsgFields]) _).wr
    (f := HSG.STAT.WAITING g) (by simp [hsgFields]) _).wr (f := HSG.STAT.I_SUM g) (by simp [hsgFields]) _

@[simp] theorem hsgShow_valves (d : Dev) (g : Nat) : (hsgShow d g).valves = d.valves := by rw [(hsgShow_only d g).1]

@[simp] theorem hsgShow_mark (d : Dev) (g : Nat) : (hsgShow d g).mark = d.mark := by rw [(hsgShow_only d g).1]

/-! ## Slots that no step arms -/

/-- From `d` to `e` no slot has become ARMED. -/
def Dev.ArmsNone (d e : Dev) : Prop := ∀ y ∈ e.mark.slots, y.state = .armed → y ∈ d.mark.slots

theorem Dev.ArmsNone.of_eq {d e : Dev} (h : e.mark = d.mark) : d.ArmsNone e := fun _ hy _ => h ▸ hy

theorem Dev.ArmsNone.trans {d e e' : Dev} (h : d.ArmsNone e) (h' : e.ArmsNone e') : d.ArmsNone e' :=
  fun y hy ha => h y (h' y hy ha) ha

/-- A slot that is ARMED after a result is another than the answered one, and was there before. -/
theorem slotResult_armed {d : Dev} {idx result dipT valve : Nat} {start : Option (Nat × Nat)} {spent : Nat} {y : MSlot}
    (hy : y ∈ (slotResult d idx result dipT valve start spent).mark.slots) (ha : y.state = .armed) :
    y.idx ≠ idx ∧ y ∈ d.mark.slots := by
  obtain ⟨hother, hsame⟩ := slotResult_slots d idx result dipT valve start spent y
  have hne : y.idx ≠ idx := fun he => by simp [ha] at hsame; exact hsame he hy
  exact ⟨hne, (hother hne).1 hy⟩

/-- The armed slots that `p` picks are answered: none is left. -/
theorem answerArmed_spec (d : Dev) (p : MSlot → Bool) (result : Nat) (C : Fin 16 → Prop) :
    d.ValveKept (answerArmed d p result) C (· ∈ resultFields.map Fld.key) ∧ d.ArmsNone (answerArmed d p result) ∧
    ∀ y ∈ (answerArmed d p result).mark.slots, y.state = .armed → p y = false := by
  have hfold (l : List MSlot) (e : Dev) :
      e.ValveKept (l.foldl (fun d s => slotResult d s.idx result 0xFFFF 0 none) e) C (· ∈ resultFields.map Fld.key) ∧
      ∀ y ∈ (l.foldl (fun d s => slotResult d s.idx result 0xFFFF 0 none) e).mark.slots, y.state = .armed →
        y ∈ e.mark.slots ∧ y ∉ l := by
    induction l generalizing e with
    | nil => exact ⟨.refl _ _ _, fun y hy _ => ⟨hy, List.not_mem_nil⟩⟩
    | cons s l ih =>
      obtain ⟨hkept, hleft⟩ := ih (slotResult e s.idx result 0xFFFF 0 none)
      refine ⟨(slotResult_kept e s.idx result 0xFFFF 0 none 0 C).trans hkept, fun y hy ha => ?_⟩
      obtain ⟨hmem, hl⟩ := hleft y hy ha
      obtain ⟨hne, hold⟩ := slotResult_armed hmem ha
      exact ⟨hold, fun hin => (List.mem_cons.1 hin).elim (fun he => hne (he ▸ rfl)) hl⟩
  obtain ⟨hkept, hleft⟩ := hfold (d.mark.slots.filter fun s => s.state == .armed && p s) d
  refine ⟨hkept, fun y hy ha => (hleft y hy ha).1, fun y hy ha => ?_⟩
  obtain ⟨hold, hl⟩ := hleft y hy ha
  simpa [List.mem_filter, hold, ha] using hl

/-! ## The end of a program -/

theorem dipField_rest (d : Dev) (seen : Option Nat) :
    (dipField d seen).2 = { d with freeCtr := (dipField d seen).2.freeCtr } := by
  unfold dipField
  split
  · rfl
  · split <;> rfl

theorem waitOver_only (d : Dev) (ch : Fin 16) (since : Nat) : d.OnlyRegs (waitOver d ch since) [HSG.WAIT_MAX.US (groupOf ch)] :=
  Dev.OnlyKeys.ite _ ((Dev.OnlyKeys.refl d _).wr (by simp) _) (.refl d _)

/-- The registers that the end of a program may write. -/
def goneFields (ch : Fin 16) : List Fld := [VALVE.TBL_STAT.BANK_BUSY ch, HSG.WAIT_MAX.US (groupOf ch)]

theorem runGone_spec (d : Dev) (ch : Fin 16) :
    d.ValveKept (runGone d ch) (· = ch) (· ∈ (goneFields ch).map Fld.key) ∧ (runGone d ch).valves[ch].run = none ∧
    (runGone d ch).mark = d.mark := by
  have hwait : d.OnlyKeys (((d.valves[ch].run).bind Run.wait).elim d fun w => waitOver d ch w.1) (· ∈ (goneFields ch).map Fld.key) := by
    cases (d.valves[ch].run).bind Run.wait with
    | none => exact .refl d _
    | some w => exact ⟨(waitOver_only d ch w.1).1, Dev.KeepsRegs.subset (waitOver_only d ch w.1).2 (by simp [goneFields])⟩
  unfold runGone busyShow
  extract_lets d1
  refine ⟨?_, by rw [Dev.wrB_valves, updValve_valves], ?_⟩
  · exact (((Dev.ValveKept.refl d (· = ch) _).of_onlyKeys hwait).updValve rfl _).wr
      (f := VALVE.TBL_STAT.BANK_BUSY ch) (by simp [goneFields]) _
  · exact (congrArg Dev.mark hwait.1 : d1.mark = _)

/-- The registers that the end of a program with a result may write. -/
def overFields (ch : Fin 16) : List Fld :=
  [VALVE.LAST.DIP_T ch, VALVE.LAST.RESULT ch, VALVE.LAST_E.UJ ch, Com.IRQ_RAW (Page.VALVE ch), Com.ERR_CNT (Page.VALVE ch)] ++
    goneFields ch ++ hsgFields (groupOf ch) ++ resultFields

/-- LAST and DONE at the end of a program. -/
def progLast (d : Dev) (ch : Fin 16) (r : Run) (result : Nat) : Dev :=
  ((((dipField d r.seen).2.wr (VALVE.LAST.DIP_T ch) (dipField d r.seen).1).wr (VALVE.LAST.RESULT ch) result).wrSat
    (VALVE.LAST_E.UJ ch) (r.spent / 1024)).irq (Page.VALVE ch) VALVE.irq.DONE

theorem progLast_spec (d : Dev) (ch : Fin 16) (r : Run) (result : Nat) :
    d.ValveKept (progLast d ch r result) (· = ch) (· ∈ (overFields ch).map Fld.key) ∧ (progLast d ch r result).mark = d.mark := by
  have hdip : d.ValveKept (dipField d r.seen).2 (· = ch) (· ∈ (overFields ch).map Fld.key) :=
    (Dev.ValveKept.refl d _ _).of_eq (by rw [dipField_rest]) (by rw [dipField_rest])
  constructor
  · exact (((hdip.wr (f := VALVE.LAST.DIP_T ch) (by simp [overFields]) _).wr (f := VALVE.LAST.RESULT ch) (by simp [overFields]) _).wr
      (f := VALVE.LAST_E.UJ ch) (by simp [overFields]) _).irq (by simp [overFields]) (by simp [overFields]) _
  · rw [progLast, Dev.irq_mark, Dev.wrSat_mark, Dev.wr_mark, Dev.wr_mark, dipField_rest]

theorem progOver_none {d : Dev} {ch : Fin 16} (h : d.valves[ch].run = none) (result : Nat) : progOver d ch result = d := by
  simp only [progOver, h]

theorem progOver_some {d : Dev} {ch : Fin 16} {r : Run} (h : d.valves[ch].run = some r) (result : Nat) :
    progOver d ch result = hsgShow (r.slot.elim (runGone (progLast d ch r result) ch) fun s =>
      slotResult (runGone (progLast d ch r result) ch) s result (dipField d r.seen).1 ch r.start (r.spent / 1024)) (groupOf ch) := by
  simp only [progOver, h]
  rfl

theorem progOver_spec (d : Dev) (ch : Fin 16) (result : Nat) :
    d.ValveKept (progOver d ch result) (· = ch) (· ∈ (overFields ch).map Fld.key) ∧ (progOver d ch result).valves[ch].run = none ∧
    d.ArmsNone (progOver d ch result) := by
  cases hr : d.valves[ch].run with
  | none =>
    rw [progOver_none hr]
    exact ⟨.refl _ _ _, hr, .of_eq rfl⟩
  | some r =>
    rw [progOver_some hr, hsgShow_valves]
    obtain ⟨hlast, hmark⟩ := progLast_spec d ch r result
    obtain ⟨hgone, hrun, hmark'⟩ := runGone_spec (progLast d ch r result) ch
    have hkept := hlast.trans (hgone.subset (gs := overFields ch) (by simp [overFields, goneFields]))
    have harms : d.ArmsNone (runGone (progLast d ch r result) ch) := .of_eq (hmark'.trans hmark)
    generalize runGone (progLast d ch r result) ch = e at hrun hkept harms
    have hshow (e : Dev) : e.ValveKept (hsgShow e (groupOf ch)) (· = ch) (· ∈ (overFields ch).map Fld.key) :=
      Dev.ValveKept.subset ((Dev.ValveKept.refl e _ _).of_onlyKeys (hsgShow_only e _)) (by simp [overFields, hsgFields])
    cases r.slot with
    | none => exact ⟨hkept.trans (hshow _), hrun, harms.trans (.of_eq (hsgShow_mark _ _))⟩
    | some k =>
      have hres := slotResult_kept e k result (dipField d r.seen).1 ch r.start (r.spent / 1024)
      refine ⟨(hkept.trans ((hres (· = ch)).subset (List.subset_append_right _ _))).trans (hshow _), ?_, ?_⟩
      · rw [← hrun]
        exact congrArg ValveCh.run ((hres fun _ => False).others ch id)
      · exact (harms.trans fun y hy ha => (slotResult_armed hy ha).2).trans (.of_eq (hsgShow_mark _ _))

/-- The registers that the abort of a program may write. -/
def abortFields (ch : Fin 16) : List Fld := VALVE.STATUS.DRIVE ch :: overFields ch

theorem progAbort_none {d : Dev} {ch : Fin 16} (h : d.valves[ch].run = none) (result : Nat) :
    progAbort d ch result = setDrive d ch DR.off 0 := by
  simp only [progAbort, h]

theorem progAbort_some {d : Dev} {ch : Fin 16} {r : Run} (h : d.valves[ch].run = some r) (result : Nat) :
    progAbort d ch result = progOver (setDrive (setDrive d ch DR.quench 0) ch DR.off 0) ch (r.decided.getD result) := by
  simp only [progAbort, h]

theorem progAbort_spec (d : Dev) (ch : Fin 16) (result : Nat) :
    d.ValveKept (progAbort d ch result) (· = ch) (· ∈ (abortFields ch).map Fld.key) ∧ (progAbort d ch result).valves[ch].run = none ∧
    (progAbort d ch result).rd (VALVE.STATUS.DRIVE ch) = 0 ∧ d.ArmsNone (progAbort d ch result) := by
  have hdrive (e : Dev) (mode : Nat) : e.ValveKept (setDrive e ch mode 0) (· = ch) (· ∈ (abortFields ch).map Fld.key) :=
    (setDrive_kept e ch mode 0 _).subset (by simp [abortFields])
  have hoff (e : Dev) : (setDrive e ch DR.off 0).rd (VALVE.STATUS.DRIVE ch) = 0 := rd_setDrive (.inl (by decide)) 0
  cases hr : d.valves[ch].run with
  | none =>
    rw [progAbort_none hr]
    exact ⟨hdrive d _, by rw [setDrive_valves, hr], hoff d, .of_eq (setDrive_mark _ _ _ _)⟩
  | some r =>
    rw [progAbort_some hr]
    obtain ⟨hkept, hrun, harms⟩ := progOver_spec (setDrive (setDrive d ch DR.quench 0) ch DR.off 0) ch (r.decided.getD result)
    refine ⟨((hdrive d _).trans (hdrive _ _)).trans (hkept.subset (by simp [abortFields])), hrun, ?_, ?_⟩
    · rw [hkept.regs _ (by clear * -; decide +revert), hoff]
    · exact Dev.ArmsNone.trans (.of_eq (by rw [setDrive_mark, setDrive_mark])) harms

end Sys2Proof.Machine
end

section
/-! SUPPORT. The faults of channels and groups (R245): what each latches, ends and answers, and the commands that clear them. -/

namespace Sys2Proof.Machine

theorem Dev.on_iff {d : Dev} {f : Fld} : d.on f = true ↔ d.rd f ≠ 0 := by simp [Dev.on]

/-! ## A channel latches a cause -/

/-- The registers that a channel's fault may write. -/
def chanFaultFields (ch : Fin 16) : List Fld :=
  [VALVE.FAULT.CAUSE ch, VALVE.FAULT_CNT.CNT ch, Com.IRQ_RAW Page.MARK, Com.ERR_CNT Page.MARK] ++ abortFields ch

theorem chanFaultFields_page (ch : Fin 16) :
    ∀ f ∈ chanFaultFields ch, f.key / 131072 ∈ [Page.VALVE ch, Page.MARK, Page.TAG, Page.HSG (groupOf ch)] := by
  decide +revert

/-- The program aborted and the armed slots of the channel answered, with the cause latched. -/
def chanStopped (d : Dev) (ch : Fin 16) : Dev := answerArmed (progAbort d ch 2) (fun s => s.ch == ch.val) 2

theorem chanStopped_spec (d : Dev) (ch : Fin 16) :
    d.ValveKept (chanStopped d ch) (· = ch) (· ∈ (abortFields ch).map Fld.key) ∧ (chanStopped d ch).valves[ch].run = none ∧
    (chanStopped d ch).rd (VALVE.STATUS.DRIVE ch) = 0 ∧
    ∀ x ∈ (chanStopped d ch).mark.slots, x.ch = ch.val → x.state ≠ .armed := by
  obtain ⟨habort, hrun, hdrive, -⟩ := progAbort_spec d ch 2
  generalize he : progAbort d ch 2 = e at habort hrun hdrive
  rw [chanStopped, he]
  have hans (C : Fin 16 → Prop) := answerArmed_spec e (fun s => s.ch == ch.val) 2 C
  obtain ⟨hkept, -, hleft⟩ := hans (· = ch)
  have hsub : resultFields ⊆ abortFields ch := fun f hf => List.mem_cons_of_mem _ (List.mem_append_right _ hf)
  refine ⟨habort.trans (hkept.subset hsub), ?_, ?_, fun x hx hch ha => ?_⟩
  · rw [← hrun]
    exact congrArg ValveCh.run ((hans fun _ => False).1.others ch id)
  · rw [hkept.regs _ (by clear * -; decide +revert), hdrive]
  · simpa [hch] using hleft x hx ha

/-- The cause latched, unless one is. -/
def chanLatched (d : Dev) (ch : Fin 16) (cause : Nat) : Dev :=
  if d.on (VALVE.FAULT.CAUSE ch) then d else d.wr (VALVE.FAULT.CAUSE ch) cause

theorem chanFault_eq (d : Dev) (ch : Fin 16) (cause : Nat) : chanFault d ch cause =
    ((((chanStopped (chanLatched d ch cause) ch).inc (VALVE.FAULT_CNT.CNT ch)).irq (Page.VALVE ch) VALVE.irq.FAULT).irq Page.MARK
      MARK.irq.VALVE_FAULT).toStandby .faultEv [(ch.val : Int), (cause : Int), 1] := rfl

/-- A channel's fault: the cause latched unless one is, the channel off, its program ended, its armed slots answered. -/
theorem chanFault_spec (d : Dev) (ch : Fin 16) {cause : Nat} (hc : cause < 16) :
    d.ValveKept (chanFault d ch cause) (· = ch) (· ∈ (chanFaultFields ch).map Fld.key) ∧
    (chanFault d ch cause).valves[ch].run = none ∧ (chanFault d ch cause).rd (VALVE.STATUS.DRIVE ch) = 0 ∧
    (chanFault d ch cause).rd (VALVE.FAULT.CAUSE ch) =
      (if d.on (VALVE.FAULT.CAUSE ch) then d.rd (VALVE.FAULT.CAUSE ch) else cause) ∧
    (∀ x ∈ (chanFault d ch cause).mark.slots, x.ch = ch.val → x.state ≠ .armed) ∧
    d.Counted (chanFault d ch cause) (VALVE.FAULT_CNT.CNT ch) ∧
    bitOf ((chanFault d ch cause).rd (Com.IRQ_RAW (Page.VALVE ch))) VALVE.irq.FAULT = true ∧
    bitOf ((chanFault d ch cause).rd (Com.IRQ_RAW Page.MARK)) MARK.irq.VALVE_FAULT = true := by
  have h1 : d.ValveKept (chanLatched d ch cause) (· = ch) (· ∈ [VALVE.FAULT.CAUSE ch].map Fld.key) :=
    .ite _ (.refl _ _ _) ((Dev.ValveKept.refl d _ _).wr (by simp) _)
  have hcause : (chanLatched d ch cause).rd (VALVE.FAULT.CAUSE ch) =
      if d.on (VALVE.FAULT.CAUSE ch) then d.rd (VALVE.FAULT.CAUSE ch) else cause := by
    unfold chanLatched
    split
    · rfl
    · exact Dev.rd_wr_fits d hc
  obtain ⟨h2, hrun, hdrive, harmed⟩ := chanStopped_spec (chanLatched d ch cause) ch
  rw [chanFault_eq]
  generalize chanStopped (chanLatched d ch cause) ch = e at h2 hrun hdrive harmed
  have h12 : d.ValveKept e (· = ch) (· ∈ (chanFaultFields ch).map Fld.key) :=
    (h1.subset (by simp [chanFaultFields])).trans (h2.subset (List.subset_append_right _ _))
  refine ⟨?_, ?_, ?_, ?_, ?_, ?_, ?_, ?_⟩
  · exact (((h12.inc (f := VALVE.FAULT_CNT.CNT ch) (by simp [chanFaultFields])).irq (by simp [chanFaultFields, abortFields, overFields])
      (by simp [chanFaultFields, abortFields, overFields]) _).irq (by simp [chanFaultFields]) (by simp [chanFaultFields]) _).toStandby _ _
  · rw [toStandby_valves, Dev.irq_valves, Dev.irq_valves, Dev.inc_valves, hrun]
  · simp (disch := clear * -; decide +revert) only [rd_toStandby, Dev.rd_irq_other, Dev.rd_inc_other, hdrive]
  · simp (disch := clear * -; decide +revert) only [rd_toStandby, Dev.rd_irq_other, Dev.rd_inc_other]
    rw [h2.regs _ (by clear * -; decide +revert), hcause]
  · rw [toStandby_mark, Dev.irq_mark, Dev.irq_mark, Dev.inc_mark]
    exact harmed
  · simp (disch := clear * -; decide +revert) only [Dev.Counted, rd_toStandby, Dev.rd_irq_other, Dev.rd_inc_same]
    rw [h2.regs _ (by clear * -; decide +revert), h1.regs _ (by clear * -; decide +revert)]
  · rw [rd_toStandby, Dev.rd_irq_other _ _ _ _ (by clear * -; decide +revert) (by clear * -; decide +revert),
      Dev.bitOf_irq _ _ _ (by decide)]
    rfl
  · rw [rd_toStandby, Dev.bitOf_irq _ _ _ (by decide)]
    rfl

theorem chanFault_keepsPages (d : Dev) (ch : Fin 16) {cause : Nat} (hc : cause < 16) :
    d.KeepsPages (chanFault d ch cause) [Page.VALVE ch, Page.MARK, Page.TAG, Page.HSG (groupOf ch)] :=
  (chanFault_spec d ch hc).1.keepsPages (chanFaultFields_page ch)

/-- A first fault of a channel: its cause stands. -/
theorem chanFault_first {d : Dev} {ch : Fin 16} (hoff : d.on (VALVE.FAULT.CAUSE ch) = false) {cause : Nat} (hc : cause < 16) :
    (chanFault d ch cause).rd (VALVE.FAULT.CAUSE ch) = cause ∧ (chanFault d ch cause).valves[ch].run = none := by
  obtain ⟨-, hrun, -, hcause, -⟩ := chanFault_spec d ch hc
  rw [hoff] at hcause
  exact ⟨hcause, hrun⟩

/-! ## A group latches a cause -/

theorem mem_groupChs {g : Nat} {c : Fin 16} : c ∈ groupChs g ↔ groupOf c = g := by
  simp [groupChs, allValves]

/-- Cause 7 latched in the channels of a list, one after the other. -/
def chanFaults (d : Dev) (l : List (Fin 16)) : Dev := l.foldl (fun d c => chanFault d c 7) d

/-- The channels of the list are off with their cause. -/
theorem chanFaults_in (l : List (Fin 16)) (d : Dev) {c : Fin 16} (h : c ∈ l ∨ d.valves[c].run = none ∧
    d.rd (VALVE.STATUS.DRIVE c) = 0 ∧ d.on (VALVE.FAULT.CAUSE c) = true) :
    (chanFaults d l).valves[c].run = none ∧ (chanFaults d l).rd (VALVE.STATUS.DRIVE c) = 0 ∧
    (chanFaults d l).rd (VALVE.FAULT.CAUSE c) = (if d.on (VALVE.FAULT.CAUSE c) then d.rd (VALVE.FAULT.CAUSE c) else 7) := by
  induction l generalizing d with
  | nil =>
    obtain ⟨hrun, hdrive, hon⟩ := h.resolve_left List.not_mem_nil
    exact ⟨hrun, hdrive, (if_pos hon).symm⟩
  | cons a l ih =>
    obtain ⟨hkept, hrun, hdrive, hcause, -⟩ := chanFault_spec d a (cause := 7) (by decide)
    by_cases ha : c = a
    · subst ha
      have hon : (chanFault d c 7).on (VALVE.FAULT.CAUSE c) = true := by
        rw [Dev.on_iff, hcause]
        split
        · exact Dev.on_iff.1 ‹_›
        · decide
      obtain ⟨hrun', hdrive', hcause'⟩ := ih (chanFault d c 7) (.inr ⟨hrun, hdrive, hon⟩)
      exact ⟨hrun', hdrive', by rw [chanFaults, List.foldl_cons, ← chanFaults, hcause', if_pos hon, hcause]⟩
    · have hpages := chanFault_keepsPages d a (cause := 7) (by decide)
      have hv := hkept.others c ha
      have hd := hpages (VALVE.STATUS.DRIVE c) (by clear * - ha; decide +revert)
      have hf := hpages (VALVE.FAULT.CAUSE c) (by clear * - ha; decide +revert)
      have hstep := ih (chanFault d a 7)
      simp only [Dev.on, hv, hd, hf] at hstep
      exact hstep (h.imp_left fun hmem => (List.mem_cons.1 hmem).resolve_left ha)

/-- The other channels, and the causes of the groups, stay. -/
theorem chanFaults_other (l : List (Fin 16)) (d : Dev) :
    (∀ c ∉ l, (chanFaults d l).valves[c] = d.valves[c]) ∧
    ∀ g : Fin 4, (chanFaults d l).rd (HSG.FAULT.CAUSE g) = d.rd (HSG.FAULT.CAUSE g) := by
  induction l generalizing d with
  | nil => exact ⟨fun _ _ => rfl, fun _ => rfl⟩
  | cons a l ih =>
    obtain ⟨hv, hg⟩ := ih (chanFault d a 7)
    have hkept := (chanFault_spec d a (cause := 7) (by decide)).1
    refine ⟨fun c hc => ?_, fun g => ?_⟩
    · exact (hv c fun hl => hc (List.mem_cons_of_mem _ hl)).trans (hkept.others c fun he => hc (he ▸ List.mem_cons_self))
    · exact (hg g).trans (hkept.regs _ (by clear * -; decide +revert))

/-- A group's fault: its cause latched unless one is, and all its channels off with cause 7. -/
theorem groupFault_spec (d : Dev) (g : Fin 4) {cause : Nat} (hc : cause < 4) :
    (groupFault d g cause).rd (HSG.FAULT.CAUSE g) = (if d.on (HSG.FAULT.CAUSE g) then d.rd (HSG.FAULT.CAUSE g) else cause) ∧
    (∀ c : Fin 16, groupOf c = g.val → (groupFault d g cause).valves[c].run = none ∧
      (groupFault d g cause).rd (VALVE.STATUS.DRIVE c) = 0 ∧ (groupFault d g cause).rd (VALVE.FAULT.CAUSE c) =
        (if d.on (VALVE.FAULT.CAUSE c) then d.rd (VALVE.FAULT.CAUSE c) else 7)) ∧
    (∀ c : Fin 16, groupOf c ≠ g.val → (groupFault d g cause).valves[c] = d.valves[c]) ∧
    bitOf ((groupFault d g cause).rd (Com.IRQ_RAW (Page.HSG g))) HSG.irq.FAULT = true := by
  have heq : groupFault d g cause = ((chanFaults (if d.on (HSG.FAULT.CAUSE g) then d else d.wr (HSG.FAULT.CAUSE g) cause)
    (groupChs g)).irq (Page.HSG g) HSG.irq.FAULT).toStandby .faultEv [(16 + g.val : Int), (cause : Int), 1] := rfl
  generalize hd1 : (if d.on (HSG.FAULT.CAUSE g) then d else d.wr (HSG.FAULT.CAUSE g) cause) = d1 at heq
  have h1 : d.OnlyRegs d1 [HSG.FAULT.CAUSE g] :=
    hd1 ▸ Dev.OnlyKeys.ite _ (.refl d _) ((Dev.OnlyKeys.refl d _).wr (by simp) _)
  have hcause : d1.rd (HSG.FAULT.CAUSE g) = if d.on (HSG.FAULT.CAUSE g) then d.rd (HSG.FAULT.CAUSE g) else cause := by
    rw [← hd1]
    split
    · rfl
    · exact Dev.rd_wr_fits d hc
  obtain ⟨hv, hg⟩ := chanFaults_other (groupChs g) d1
  have hin (c : Fin 16) (hc : groupOf c = g.val) := chanFaults_in (groupChs g) d1 (c := c) (.inl (mem_groupChs.2 hc))
  generalize chanFaults d1 (groupChs g) = e at heq hv hg hin
  have hvalves : (groupFault d g cause).valves = e.valves := by rw [heq, toStandby_valves, Dev.irq_valves]
  rw [hvalves]
  simp (disch := clear * -; decide +revert) only [heq, rd_toStandby, Dev.rd_irq_other]
  refine ⟨by rw [hg, hcause], fun c hc => ?_, fun c hc => ?_, ?_⟩
  · obtain ⟨hrun, hdrive, hcause7⟩ := hin c hc
    simp only [Dev.on, h1.2 (VALVE.FAULT.CAUSE c) (by clear * -; decide +revert)] at hcause7
    exact ⟨hrun, hdrive, hcause7⟩
  · rw [hv c (mt mem_groupChs.1 hc), h1.1]
  · rw [Dev.bitOf_irq _ _ _ (by decide)]
    rfl

end Sys2Proof.Machine
end

section
/-! SUPPORT. The clearing of faults (R245), the rail, the energy ledger and the end of a shed (R242 to R244, R246). -/

namespace Sys2Proof.Machine

/-! ## Clearing -/

/-- A change of the listed registers and of what is sent, by a standby's message. -/
theorem onlyRegsOut_toStandby {d e : Dev} {fs : List Fld} (h : d.OnlyRegsOut e fs) (k : MsgKind) (args : List Int) :
    d.OnlyRegsOut (e.toStandby k args) fs := by
  obtain ⟨heq, hkeep⟩ := h
  exact ⟨by rw [Dev.toStandby_eq, heq], fun f hf => (rd_toStandby _ _ _ _).trans (hkeep f hf)⟩

theorem onlyRegsOut_wr {d e : Dev} {fs : List Fld} (h : d.OnlyRegsOut e fs) {f : Fld} (hf : f ∈ fs) (v : Nat) :
    d.OnlyRegsOut (e.wr f v) fs := by
  obtain ⟨heq, hkeep⟩ := h
  exact ⟨by rw [Dev.wr, heq], Dev.KeepsKeys.wr hkeep (List.mem_map_of_mem hf) v⟩

/-- A channel's own cause, once gone, clears. -/
theorem valveFaultClr_clears {d : Dev} {ch : Fin 16} (h0 : d.rd (VALVE.FAULT.CAUSE ch) ≠ 0) (h7 : d.rd (VALVE.FAULT.CAUSE ch) ≠ 7)
    (hg : d.on (HSG.FAULT.CAUSE (groupOf ch)) = false) :
    (valveFaultClr ch false d).rd (VALVE.FAULT.CAUSE ch) = 0 ∧
    d.OnlyRegsOut (valveFaultClr ch false d) [VALVE.FAULT.CAUSE ch] := by
  have heq : valveFaultClr ch false d = (d.wr (VALVE.FAULT.CAUSE ch) 0).toStandby .faultEv
      [(ch.val : Int), (d.rd (VALVE.FAULT.CAUSE ch) : Int), 0] := by
    simp [valveFaultClr, h0, h7, hg]
  rw [heq, rd_toStandby, Dev.rd_wr_same]
  exact ⟨rfl, onlyRegsOut_toStandby (onlyRegsOut_wr ⟨rfl, Dev.KeepsKeys.refl d _⟩ (by simp) 0) _ _⟩

theorem valveFaultClr_idle {d : Dev} {ch : Fin 16} (h : d.rd (VALVE.FAULT.CAUSE ch) = 0 ∨ d.rd (VALVE.FAULT.CAUSE ch) = 7)
    (persists : Bool) : valveFaultClr ch persists d = d := if_pos h

/-- Cause 7 cleared in a channel whose group's fault is cleared. -/
def chanClr (d : Dev) (k : Fin 16) : Dev :=
  if d.rd (VALVE.FAULT.CAUSE k) = 7 then (d.wr (VALVE.FAULT.CAUSE k) 0).toStandby .faultEv [(k.val : Int), 7, 0] else d

theorem chanClr_only (d : Dev) (k : Fin 16) : d.OnlyRegsOut (chanClr d k) [VALVE.FAULT.CAUSE k] := by
  unfold chanClr
  split
  · exact onlyRegsOut_toStandby (onlyRegsOut_wr ⟨rfl, Dev.KeepsKeys.refl d _⟩ (by simp) 0) _ _
  · exact ⟨rfl, Dev.KeepsKeys.refl d _⟩

theorem chanClr_cause (d : Dev) (k : Fin 16) :
    (chanClr d k).rd (VALVE.FAULT.CAUSE k) = if d.rd (VALVE.FAULT.CAUSE k) = 7 then 0 else d.rd (VALVE.FAULT.CAUSE k) := by
  unfold chanClr
  split
  · rw [rd_toStandby, Dev.rd_wr_same]
    rfl
  · rfl

theorem onlyRegsOut_trans {d e e' : Dev} {fs : List Fld} (h : d.OnlyRegsOut e fs) (h' : e.OnlyRegsOut e' fs) : d.OnlyRegsOut e' fs :=
  ⟨by rw [h'.1, h.1], Dev.KeepsRegs.trans h.2 h'.2⟩

theorem onlyRegsOut_subset {d e : Dev} {fs gs : List Fld} (h : d.OnlyRegsOut e fs) (hs : fs ⊆ gs) : d.OnlyRegsOut e gs :=
  ⟨h.1, h.2.subset hs⟩

theorem chanClrs_only (l : List (Fin 16)) (d : Dev) : d.OnlyRegsOut (l.foldl chanClr d) (l.map fun c : Fin 16 => VALVE.FAULT.CAUSE c) := by
  induction l generalizing d with
  | nil => exact ⟨rfl, Dev.KeepsKeys.refl d _⟩
  | cons a l ih =>
    exact onlyRegsOut_trans (onlyRegsOut_subset (chanClr_only d a) (by simp)) (onlyRegsOut_subset (ih _) (by simp))

theorem faultCause_key_inj {c k : Fin 16} (h : c ≠ k) : (VALVE.FAULT.CAUSE c).key ≠ (VALVE.FAULT.CAUSE k).key := by
  decide +revert

theorem chanClrs_cause {l : List (Fin 16)} (hl : l.Nodup) (d : Dev) {c : Fin 16} (hc : c ∈ l) : (l.foldl chanClr d).rd
    (VALVE.FAULT.CAUSE c) = if d.rd (VALVE.FAULT.CAUSE c) = 7 then 0 else d.rd (VALVE.FAULT.CAUSE c) := by
  induction l generalizing d with
  | nil => exact absurd hc List.not_mem_nil
  | cons a l ih =>
    obtain ⟨ha, hl⟩ := List.nodup_cons.1 hl
    rcases List.mem_cons.1 hc with rfl | hc
    · rw [List.foldl_cons, (chanClrs_only l _).2 _ ?_, chanClr_cause]
      simp only [List.map_map, List.mem_map, not_exists, not_and]
      exact fun k hk => faultCause_key_inj fun he : k = c => ha (he ▸ hk)
    · have hne : c ≠ a := fun he => ha (he ▸ hc)
      rw [List.foldl_cons, ih hl _ hc, (chanClr_only d a).2 _ (by simpa using faultCause_key_inj hne)]

theorem groupChs_nodup (g : Nat) : (groupChs g).Nodup := (List.nodup_finRange 16).filter _

/-- A group's cause, once gone, clears, and cause 7 in its channels with it. -/
theorem groupFaultClr_clears {d : Dev} {g : Fin 4} (h0 : d.rd (HSG.FAULT.CAUSE g) ≠ 0) :
    (groupFaultClr g false d).rd (HSG.FAULT.CAUSE g) = 0 ∧
    (∀ c : Fin 16, groupOf c = g.val → (groupFaultClr g false d).rd (VALVE.FAULT.CAUSE c) =
      if d.rd (VALVE.FAULT.CAUSE c) = 7 then 0 else d.rd (VALVE.FAULT.CAUSE c)) ∧
    d.OnlyRegsOut (groupFaultClr g false d) (HSG.FAULT.CAUSE g :: (groupChs g).map fun c : Fin 16 => VALVE.FAULT.CAUSE c) := by
  have heq : groupFaultClr g false d = (groupChs g).foldl chanClr ((d.wr (HSG.FAULT.CAUSE g) 0).toStandby .faultEv
      [(16 + g.val : Int), (d.rd (HSG.FAULT.CAUSE g) : Int), 0]) := by
    simp only [groupFaultClr, h0, if_false, Bool.false_eq_true]
    rfl
  have hd1 : d.OnlyRegsOut ((d.wr (HSG.FAULT.CAUSE g) 0).toStandby .faultEv
      [(16 + g.val : Int), (d.rd (HSG.FAULT.CAUSE g) : Int), 0]) [HSG.FAULT.CAUSE g] :=
    onlyRegsOut_toStandby (onlyRegsOut_wr ⟨rfl, Dev.KeepsKeys.refl d _⟩ (by simp) 0) _ _
  have hzero : ((d.wr (HSG.FAULT.CAUSE g) 0).toStandby .faultEv
      [(16 + g.val : Int), (d.rd (HSG.FAULT.CAUSE g) : Int), 0]).rd (HSG.FAULT.CAUSE g) = 0 := by
    rw [rd_toStandby, Dev.rd_wr_same]
    rfl
  rw [heq]
  generalize (d.wr (HSG.FAULT.CAUSE g) 0).toStandby .faultEv [(16 + g.val : Int), (d.rd (HSG.FAULT.CAUSE g) : Int), 0] = d1 at hd1 hzero
  have hclr := chanClrs_only (groupChs g) d1
  refine ⟨?_, fun c hc => ?_, onlyRegsOut_trans (onlyRegsOut_subset hd1 (by simp)) (onlyRegsOut_subset hclr (by simp))⟩
  · rw [hclr.2 _ (by clear * -; decide +revert), hzero]
  · rw [chanClrs_cause (groupChs_nodup g) d1 (mem_groupChs.2 hc), hd1.2 _ (by clear * -; decide +revert)]

/-! ## The rail -/

theorem railLow_spec (d : Dev) {mv : Nat} (h : mv < 40000) :
    (railLow mv d).rd MARK.STATUS.RAIL_LOW = 1 ∧ (railLow mv d).rd MARK.RAIL.MV = mv ∧
    bitOf ((railLow mv d).rd (Com.IRQ_RAW Page.MARK)) MARK.irq.RAIL_LOW = true ∧
    d.OnlyRegs (railLow mv d) [MARK.STATUS.RAIL_LOW, MARK.RAIL.MV, Com.IRQ_RAW Page.MARK, Com.ERR_CNT Page.MARK] := by
  have heq : railLow mv d = ((d.wrSat MARK.RAIL.MV mv).wr MARK.STATUS.RAIL_LOW 1).irq Page.MARK MARK.irq.RAIL_LOW := if_pos h
  have hfits : min mv (2 ^ MARK.RAIL.MV.width - 1) = mv := min_eq_left (by simp only [MARK.RAIL.MV, fld]; omega)
  rw [heq, Dev.wrSat, hfits]
  refine ⟨?_, ?_, ?_, ?_⟩
  · rw [Dev.rd_irq_other _ _ _ _ (by decide) (by decide), Dev.rd_wr_same]
    rfl
  · rw [Dev.rd_irq_other _ _ _ _ (by decide) (by decide), Dev.rd_wr_other _ _ _ _ (by decide),
      Dev.rd_wr_fits _ (by simp only [MARK.RAIL.MV, fld]; omega)]
  · rw [Dev.bitOf_irq _ _ _ (by decide)]
    rfl
  · exact (((Dev.OnlyKeys.refl d _).wr (f := MARK.RAIL.MV) (by simp) _).wr (f := MARK.STATUS.RAIL_LOW) (by simp) _).irq (by simp)
      (by simp) _

theorem railRecover_spec (d : Dev) {mv : Nat} (h : 42000 ≤ mv) (hmv : mv < 65536) :
    (railRecover mv d).rd MARK.STATUS.RAIL_LOW = 0 ∧ (railRecover mv d).rd MARK.RAIL.MV = mv ∧
    d.OnlyRegs (railRecover mv d) [MARK.STATUS.RAIL_LOW, MARK.RAIL.MV] := by
  have heq : railRecover mv d = (d.wrSat MARK.RAIL.MV mv).wr MARK.STATUS.RAIL_LOW 0 := if_pos h
  have hfits : min mv (2 ^ MARK.RAIL.MV.width - 1) = mv := min_eq_left (by simp only [MARK.RAIL.MV, fld]; omega)
  rw [heq, Dev.wrSat, hfits]
  refine ⟨Dev.rd_wr_same _ _ _, ?_, ?_⟩
  · rw [Dev.rd_wr_other _ _ _ _ (by decide), Dev.rd_wr_fits _ hmv]
  · exact ((Dev.OnlyKeys.refl d _).wr (f := MARK.RAIL.MV) (by simp) _).wr (f := MARK.STATUS.RAIL_LOW) (by simp) _

/-! ## The ledger -/

theorem Dev.KeepsPages.trans {d e e' : Dev} {ps : List Nat} (h : d.KeepsPages e ps) (h' : e.KeepsPages e' ps) : d.KeepsPages e' ps :=
  (Dev.keepsPages_iff.1 h).trans h'

theorem toSigned_bounds (v : Nat) : -2147483648 ≤ toSigned 32 v ∧ toSigned 32 v < 2147483648 := by
  unfold toSigned
  dsimp only
  split <;> omega

theorem toSigned_ofSigned {x : Int} (hlo : -2147483648 ≤ x) (hhi : x < 2147483648) : toSigned 32 (ofSigned 32 x) = x := by
  unfold toSigned ofSigned
  dsimp only
  split <;> omega

theorem ofSigned_lt (x : Int) : ofSigned 32 x < 2 ^ 32 := by
  unfold ofSigned
  omega

/-- AVAIL reads back any value of its 32 bits. -/
theorem rdS_availPut (d : Dev) {v : Int} (hlo : -2147483648 ≤ v) (hhi : v < 2147483648) : (availPut d v).rdS MARK.AVAIL.UJ = v := by
  rw [Dev.rdS, (availPut_spec d v).1]
  exact toSigned_ofSigned hlo hhi

theorem addTotal_keeps (d : Dev) (lo hi : Fld) (v : Nat) : d.KeepsRegs (addTotal d lo hi v) [lo, hi] :=
  (Dev.KeepsKeys.refl d _).wr2 (by simp) (by simp) _

/-- No channel has draw that the ledger has not taken, nor a remainder of an ended program. -/
def Dev.DrawsNone (d : Dev) : Prop := ∀ ch : Fin 16, d.valves[ch].acc = 0 ∧ d.valves[ch].ended = 0

/-- The registers of the ledger that a channel's step may write. -/
def drawFields : List Fld := [MARK.RESV.UJ, MARK.AVAIL.UJ, MARK.SPENT_LO.SPENT, MARK.SPENT_HI.SPENT]

/-- A channel without draw leaves AVAIL as it is. -/
theorem ledgerCh_idle {d : Dev} (h : d.DrawsNone) (ch : Fin 16) :
    (ledgerCh d ch).DrawsNone ∧ (ledgerCh d ch).rdS MARK.AVAIL.UJ = d.rdS MARK.AVAIL.UJ ∧ d.KeepsRegs (ledgerCh d ch) drawFields := by
  obtain ⟨hacc, hended⟩ := h ch
  rw [Fin.getElem_fin] at hacc hended
  generalize hd1 : (d.updValve ch fun v => { v with acc := v.acc % 1024, ended := 0 }) = d1
  have heq : ledgerCh d ch = addTotal ((d1.wr MARK.RESV.UJ (d.rd MARK.RESV.UJ)).wrS MARK.AVAIL.UJ (d.rdS MARK.AVAIL.UJ))
      MARK.SPENT_LO.SPENT MARK.SPENT_HI.SPENT 0 := by
    simp [ledgerCh, ← hd1, hacc, hended]
  have hd : d.KeepsRegs d1 drawFields := hd1 ▸ Dev.KeepsKeys.of_regs (.refl d _) rfl
  rw [heq]
  refine ⟨fun c => ?_, ?_, ?_⟩
  · rw [show (addTotal ((d1.wr MARK.RESV.UJ (d.rd MARK.RESV.UJ)).wrS MARK.AVAIL.UJ (d.rdS MARK.AVAIL.UJ)) MARK.SPENT_LO.SPENT
      MARK.SPENT_HI.SPENT 0).valves = d1.valves from rfl, ← hd1]
    by_cases hc : c = ch
    · subst hc
      rw [updValve_valves]
      exact ⟨by simp only [Fin.getElem_fin, hacc, Nat.zero_mod], rfl⟩
    · rw [updValve_valves_other _ hc]
      exact h c
  · rw [Dev.rdS, addTotal_keeps _ _ _ _ _ (by decide), Dev.wrS, Dev.rd_wr_fits _ (ofSigned_lt _)]
    exact toSigned_ofSigned (toSigned_bounds _).1 (toSigned_bounds _).2
  · exact (((Dev.KeepsKeys.wr hd (f := MARK.RESV.UJ) (by simp [drawFields]) _).wrS (f := MARK.AVAIL.UJ) (by simp [drawFields]) _)).trans
      ((addTotal_keeps _ _ _ _).subset (by simp [drawFields]))

theorem ledgerChs_idle {d : Dev} (h : d.DrawsNone) (l : List (Fin 16)) :
    (l.foldl ledgerCh d).rdS MARK.AVAIL.UJ = d.rdS MARK.AVAIL.UJ ∧ d.KeepsRegs (l.foldl ledgerCh d) drawFields := by
  induction l generalizing d with
  | nil => exact ⟨rfl, Dev.KeepsKeys.refl d _⟩
  | cons a l ih =>
    obtain ⟨hidle, havail, hkeep⟩ := ledgerCh_idle h a
    obtain ⟨havail', hkeep'⟩ := ih hidle
    exact ⟨havail'.trans havail, hkeep.trans hkeep'⟩

/-- The rate enters AVAIL up to the cap, and REFILL in full. -/
theorem ledgerStep_idle {d : Dev} (h : d.DrawsNone) (hsum : d.rdS MARK.AVAIL.UJ + d.rd MARK.LEDGER_RATE.UJ < 2147483648) :
    (ledgerStep d).rdS MARK.AVAIL.UJ =
      min (d.rd MARK.LEDGER_CAP.UJ : Int) (d.rdS MARK.AVAIL.UJ + d.rd MARK.LEDGER_RATE.UJ) ∧
    (ledgerStep d).rd2 MARK.REFILL_LO.REFILL MARK.REFILL_HI.REFILL =
      (d.rd2 MARK.REFILL_LO.REFILL MARK.REFILL_HI.REFILL + d.rd MARK.LEDGER_RATE.UJ) % 2 ^ 64 ∧
    d.KeepsPages (ledgerStep d) [Page.MARK] := by
  obtain ⟨havail, hdraw⟩ := ledgerChs_idle h allValves
  have hlo := (toSigned_bounds (d.rd MARK.AVAIL.UJ)).1
  change _ ≤ d.rdS MARK.AVAIL.UJ at hlo
  generalize hd1 : allValves.foldl ledgerCh d = d1 at havail hdraw
  generalize hd2 : addTotal d1 MARK.REFILL_LO.REFILL MARK.REFILL_HI.REFILL (d.rd MARK.LEDGER_RATE.UJ) = d2
  generalize ha : d.rdS MARK.AVAIL.UJ + d.rd MARK.LEDGER_RATE.UJ = a at hsum
  have heq : ledgerStep d = if (d.rd MARK.LEDGER_CAP.UJ : Int) < a then addTotal (availPut d2 (d.rd MARK.LEDGER_CAP.UJ : Int))
      MARK.SPILL_LO.SPILL MARK.SPILL_HI.SPILL (a - (d.rd MARK.LEDGER_CAP.UJ : Int)).toNat else availPut d2 a := by
    simp only [ledgerStep, hd1, havail, hd2, ha]
  have hrefill : d2.rd2 MARK.REFILL_LO.REFILL MARK.REFILL_HI.REFILL =
      (d.rd2 MARK.REFILL_LO.REFILL MARK.REFILL_HI.REFILL + d.rd MARK.LEDGER_RATE.UJ) % 2 ^ 64 := by
    rw [← hd2, addTotal, Dev.rd2_wr2_word _ (by decide) rfl, Dev.rd2, hdraw _ (by decide), hdraw _ (by decide)]
    rfl
  have hkeep2 : d.KeepsPages d2 [Page.MARK] :=
    Dev.KeepsPages.trans (hdraw.keepsPages (by decide)) (hd2 ▸ (addTotal_keeps d1 _ _ _).keepsPages (by decide))
  have hput (v : Int) : d2.KeepsRegs (availPut d2 v) [MARK.AVAIL.UJ, Com.IRQ_RAW Page.MARK, Com.ERR_CNT Page.MARK] :=
    (((Dev.OnlyKeys.refl d2 _).wr (f := MARK.AVAIL.UJ) (by simp) _).irqIf (by simp) (by simp) _ _).2
  rw [heq]
  split
  · have hspill := addTotal_keeps (availPut d2 (d.rd MARK.LEDGER_CAP.UJ : Int)) MARK.SPILL_LO.SPILL MARK.SPILL_HI.SPILL
      (a - (d.rd MARK.LEDGER_CAP.UJ : Int)).toNat
    refine ⟨?_, ?_, (hkeep2.trans ((hput _).keepsPages (by decide))).trans (hspill.keepsPages (by decide))⟩
    · rw [Dev.rdS, hspill _ (by decide), ← Dev.rdS, rdS_availPut _ (by omega) (by omega)]
      omega
    · rw [← hrefill, Dev.rd2, Dev.rd2, hspill _ (by decide), hspill _ (by decide), hput _ _ (by decide), hput _ _ (by decide)]
  · refine ⟨?_, ?_, hkeep2.trans ((hput _).keepsPages (by decide))⟩
    · rw [rdS_availPut _ (by omega) (by omega)]
      omega
    · rw [← hrefill, Dev.rd2, Dev.rd2, hput _ _ (by decide), hput _ _ (by decide)]

/-! ## The statement -/

/-- A fault that a sensor or a comparator detects on a channel, with its cause. -/
theorem exec_chanFault {q : (Fin 16 → Instr) × Nat}
    (hq : q ∈ [(Instr.coilShort, 2), (Instr.lsShort, 3), (Instr.valveOvertemp, 6)]) (s : State) (ch : Fin 16) :
    exec (q.1 ch) s = s.onDev (fun d => chanFault d ch q.2) ∧ q.2 < 16 := by
  simp only [List.mem_cons, List.not_mem_nil, or_false] at hq
  rcases hq with rfl | rfl | rfl <;> exact ⟨rfl, by decide⟩

theorem exec_groupFault {q : (Fin 4 → Instr) × Nat} (hq : q ∈ [(Instr.hsShort, 1), (Instr.hsOt, 2)]) (s : State) (g : Fin 4) :
    exec (q.1 g) s = s.onDev (fun d => groupFault d g q.2) ∧ q.2 < 4 := by
  simp only [List.mem_cons, List.not_mem_nil, or_false] at hq
  rcases hq with rfl | rfl <;> exact ⟨rfl, by decide⟩

/-- The token kept for longer than PEAK_LIMIT. -/
theorem peakLong_over {d : Dev} {ch : Fin 16} {r : Run} {t : Nat} (hr : d.valves[ch].run = some r) (ht : r.peakSince = some t)
    (hlong : t + 16000 * max 1 (d.rd (HSG.PEAK_LIMIT.US (groupOf ch))) < d.now) :
    peakLong ch d = (chanFault d ch 4).irq (Page.HSG (groupOf ch)) HSG.irq.PEAK_LONG := by
  simp [peakLong, -Fin.getElem_fin, hr, ht, hlong]

theorem peakLong_within {d : Dev} {ch : Fin 16} {r : Run} (hr : d.valves[ch].run = some r)
    (h : ∀ t, r.peakSince = some t → d.now ≤ t + 16000 * max 1 (d.rd (HSG.PEAK_LIMIT.US (groupOf ch)))) : peakLong ch d = d := by
  cases ht : r.peakSince with
  | none => simp [peakLong, -Fin.getElem_fin, hr, ht]
  | some t => simp [peakLong, -Fin.getElem_fin, hr, ht, h t ht]

/-- Settles O33: the faults of channels and groups, their clearing, the rail, the ledger and the end of a shed. -/
theorem valveFaultsAndLedger : Obligations.ValveFaultsAndLedger := by
  refine ⟨fun q hq s ch hup => ?_, fun q hq s g hup => ?_, fun s ch r t hup hr ht hoff hlong => ?_, fun s ch r hup hr hin => ?_,
    fun s ch r hup hr hoff => ⟨fun hlt => ?_, fun hge => ?_⟩, fun s ch r hup hr hoff hl => ⟨fun hge => ?_, fun hlt => ?_⟩,
    fun s ch hup h0 h7 hg => gives_of_onDev rfl hup (valveFaultClr_clears h0 h7 hg),
    fun s ch persists hup h => gives_of_onDev rfl hup (valveFaultClr_idle h persists),
    fun s g hup h0 => gives_of_onDev rfl hup (groupFaultClr_clears h0),
    fun s mv hup h => gives_of_onDev rfl hup (railLow_spec s.dev h),
    fun s mv hup h hmv => gives_of_onDev rfl hup (railRecover_spec s.dev h hmv),
    fun s hup hidle hsum => gives_of_onDev rfl hup (ledgerStep_idle hidle hsum), fun s hup hoff hrail => ?_, fun s hup h => ?_⟩
  · obtain ⟨hexec, hc⟩ := exec_chanFault hq s ch
    obtain ⟨hkept, hrun, hdrive, hcause, harmed, hcount, hraised, hmark⟩ := chanFault_spec s.dev ch hc
    exact gives_of_onDev hexec hup ⟨hcause, hdrive, hrun, harmed, hcount, hraised, hmark, hkept.others, chanFault_keepsPages s.dev ch hc⟩
  · obtain ⟨hexec, hc⟩ := exec_groupFault hq s g
    exact gives_of_onDev hexec hup (groupFault_spec s.dev g hc)
  · refine gives_of_onDev (g := peakLong ch) rfl hup ?_
    obtain ⟨hcause, hrun⟩ := chanFault_first hoff (cause := 4) (by decide)
    rw [peakLong_over hr ht hlong, Dev.irq_valves, Dev.bitOf_irq _ _ _ (by decide),
      Dev.rd_irq_other _ _ _ _ (by clear * -; decide +revert) (by clear * -; decide +revert)]
    exact ⟨hcause, hrun, rfl⟩
  · exact gives_of_onDev rfl hup (peakLong_within hr hin)
  · refine gives_of_onDev (g := progRunaway ch) rfl hup ?_
    simp [progRunaway, -Fin.getElem_fin, hr, hlt]
  · refine gives_of_onDev (g := progRunaway ch) rfl hup ?_
    have heq : progRunaway ch s.dev = chanFault s.dev ch 5 := by simp [progRunaway, -Fin.getElem_fin, hr, hge]
    rw [heq]
    exact chanFault_first hoff (by decide)
  · refine gives_of_onDevM (g := reservedOpcode ch) rfl hup ?_
    have heq : reservedOpcode ch s.mem s.dev = chanFault s.dev ch 5 := by simp only [reservedOpcode, hr, hge, hl]; rfl
    rw [heq]
    exact chanFault_first hoff (by decide)
  · refine gives_of_onDevM (g := reservedOpcode ch) rfl hup ?_
    simp only [reservedOpcode, hr, Nat.not_le.2 hlt, false_and, if_false]
  · refine gives_of_onDev (g := shedEnd) rfl hup ?_
    have heq : shedEnd s.dev = s.dev.wr MARK.STATUS.SHED 0 := by simp [shedEnd, hoff, hrail]
    rw [heq]
    exact ⟨Dev.rd_wr_same _ _ _, (Dev.OnlyKeys.refl _ _).wr (by simp) _⟩
  · refine gives_of_onDev (g := shedEnd) rfl hup (if_neg ?_)
    rcases h with hon | hlow
    · simp [hon]
    · exact fun hc => absurd hc.2 (Nat.not_le.2 hlow)

end Sys2Proof.Machine
end

section
/-! SUPPORT. Requests at the marker (R227 to R231): intake, slots that fall due, and launches. -/

namespace Sys2Proof.Machine

/-! ## Intake -/

/-- The oldest hand-off taken off its queue. -/
def intakeTaken (d : Dev) (rest : List HandOff) : Dev :=
  (d.updTags fun t => { t with handOff := rest }).wr TAG.MQ_DEPTH.N rest.length

theorem intakeTaken_rd (d : Dev) (rest : List HandOff) {f : Fld} (h : f.key ≠ TAG.MQ_DEPTH.N.key) :
    (intakeTaken d rest).rd f = d.rd f := Dev.rd_wr_other _ _ _ _ h

theorem intakeTaken_keepsPages (d : Dev) (rest : List HandOff) : d.KeepsPages (intakeTaken d rest) [Page.MARK, Page.TAG, Page.TWIN] :=
  Dev.keepsPages_iff.2 (((Dev.KeepsKeys.refl d _).wr (f := TAG.MQ_DEPTH.N) (by decide) rest.length).of_regs rfl)

theorem keepsPages_of_twin {d e : Dev} (h : d.KeepsKeys e (· / 131072 ∈ [Page.TWIN])) : d.KeepsPages e [Page.MARK, Page.TAG, Page.TWIN] :=
  Dev.keepsPages_iff.2 (h.mono fun _ hk => List.mem_cons_of_mem _ (List.mem_cons_of_mem _ hk))

/-- MARK_INTAKE is the intake of the oldest hand-off; what follows leaves the tag path, the slots and every page but the twin's. -/
theorem markIntake_after {d : Dev} {h : HandOff} {rest : List HandOff} (hh : d.tags.handOff = h :: rest) {e : Dev}
    (he : intakeOne (intakeTaken d rest) h = e) (hjobs : e.snap.jobs = []) :
    (markIntake d).tags = e.tags ∧ (markIntake d).mark = e.mark ∧ e.KeepsKeys (markIntake d) (· / 131072 ∈ [Page.TWIN]) := by
  have heq : markIntake d = tailReach (digestSettle (digestNote e h.close h.blob fun q =>
      (q.1, some (if e.mark.seq != d.mark.seq then 1 else 0)))) := by
    rw [← he]
    simp only [markIntake, hh]
    rfl
  rw [heq]
  generalize (fun q : Option Nat × Option Nat => (q.1, some (if e.mark.seq != d.mark.seq then 1 else 0))) = g
  have h1 := (Dev.TwinKept.refl (digestNote e h.close h.blob g)).digestSettle
  generalize digestSettle (digestNote e h.close h.blob g) = e1 at h1 ⊢
  have h2 := (Dev.CopiesOnly.refl (d := e1) (by rw [h1.rest]; exact hjobs)).tailReach
  have h3 : e.KeepsKeys e1 (· / 131072 ∈ [Page.TWIN]) := fun f hf => h1.regs f hf
  exact ⟨by rw [h2.rest, h1.rest]; rfl, by rw [h2.rest, h1.rest]; rfl, h3.of_regs (by rw [h2.rest])⟩

/-- An answer at once is counted in, out and by its code, and its record enters the tag stream. -/
theorem answerNow_spec (d : Dev) (h : HandOff) :
    (answerNow d h 4).tags.handOff = d.tags.handOff ∧ (answerNow d h 4).mark = d.mark ∧ (answerNow d h 4).snap = d.snap ∧
    d.Counted (answerNow d h 4) MARK.MARK_IN.CNT ∧ d.Counted (answerNow d h 4) MARK.RES_CNT.CNT ∧
    d.Counted (answerNow d h 4) MARK.SHED_CNT.CNT ∧
    d.KeepsRegs (answerNow d h 4) ([MARK.MARK_IN.CNT, MARK.RES_CNT.CNT, MARK.SHED_CNT.CNT] ++ recordFields) := by
  have hput : (((d.inc MARK.MARK_IN.CNT).inc MARK.RES_CNT.CNT).inc MARK.SHED_CNT.CNT).RecordsKept (answerNow d h 4) :=
    (Dev.RecordsKept.refl _).markResultPut _
  generalize answerNow d h 4 = e at hput
  have hcount : d.KeepsRegs (((d.inc MARK.MARK_IN.CNT).inc MARK.RES_CNT.CNT).inc MARK.SHED_CNT.CNT)
      ([MARK.MARK_IN.CNT, MARK.RES_CNT.CNT, MARK.SHED_CNT.CNT] ++ recordFields) :=
    (((Dev.KeepsKeys.refl d _).inc (f := MARK.MARK_IN.CNT) (by simp)).inc (f := MARK.RES_CNT.CNT) (by simp)).inc
      (f := MARK.SHED_CNT.CNT) (by simp)
  refine ⟨hput.handOff, by rw [hput.rest]; rfl, by rw [hput.rest]; rfl, ?_, ?_, ?_, hcount.trans (hput.regs.subset (List.subset_append_right _ _))⟩
  · rw [Dev.Counted, hput.regs _ (by decide)]
    simp (disch := decide) only [Dev.rd_inc_other, Dev.rd_inc_same]
  · rw [Dev.Counted, hput.regs _ (by decide)]
    simp (disch := decide) only [Dev.rd_inc_other, Dev.rd_inc_same]
  · rw [Dev.Counted, hput.regs _ (by decide)]
    simp (disch := decide) only [Dev.rd_inc_other, Dev.rd_inc_same]

/-- In a shed a request is answered at once. -/
theorem markIntake_shed {d : Dev} {h : HandOff} {rest : List HandOff} (hh : d.tags.handOff = h :: rest)
    (hshed : d.on MARK.STATUS.SHED = true) (hjobs : d.snap.jobs = []) :
    (markIntake d).tags.handOff = rest ∧ (markIntake d).mark.slots = d.mark.slots ∧ d.Counted (markIntake d) MARK.MARK_IN.CNT ∧
    d.Counted (markIntake d) MARK.RES_CNT.CNT ∧ d.Counted (markIntake d) MARK.SHED_CNT.CNT ∧
    d.KeepsPages (markIntake d) [Page.MARK, Page.TAG, Page.TWIN] := by
  have hone : intakeOne (intakeTaken d rest) h = answerNow (intakeTaken d rest) h 4 := by
    rw [intakeOne, Dev.on, intakeTaken_rd _ _ (by decide)]
    exact if_pos hshed
  obtain ⟨hhand, hmark, hsnap, hin, hres, hcnt, hkeep⟩ := answerNow_spec (intakeTaken d rest) h
  obtain ⟨htags, hslots, hafter⟩ := markIntake_after hh hone (by rw [hsnap]; exact hjobs)
  have hcounted {f : Fld} (hf : f.key ≠ TAG.MQ_DEPTH.N.key) (hp : ¬ f.key / 131072 ∈ [Page.TWIN])
      (hc : (intakeTaken d rest).Counted (answerNow (intakeTaken d rest) h 4) f) : d.Counted (markIntake d) f := by
    rw [Dev.Counted, hafter f hp, hc, intakeTaken_rd _ _ hf]
  refine ⟨by rw [htags, hhand]; rfl, by rw [hslots, hmark]; rfl, hcounted (by decide) (by decide) hin,
    hcounted (by decide) (by decide) hres, hcounted (by decide) (by decide) hcnt, ?_⟩
  exact ((intakeTaken_keepsPages d rest).trans (hkeep.keepsPages (by decide))).trans (keepsPages_of_twin hafter)

/-- The slot that a request arms, due at once where the web has reached it. -/
def armedSlot (d : Dev) (h : HandOff) (ch : Fin 16) (k : Nat) : MSlot :=
  let f := anchorOf d h.prog h.p0 h.p1 + d.rd (VALVE.DIST.UM ch) + d.rdS (MARK.MPS_OFS.UM h.prog)
  let s : MSlot :=
    { idx := k, seq := d.mark.seq, blob := h.blob, close := h.close, ch := ch.val, entry := d.rd (MARK.MPS.ENTRY h.prog), f := f,
      state := .armed, due := none, taken := h.taken, valve := 0, firePos := 0, fireT := 0, result := 0, dipT := 0xFFFF }
  if posReached (sar d.gen.pos 24) f = true ∨ slotDueNow d s = true then { s with due := some d.now } else s

theorem armedSlot_spec (d : Dev) (h : HandOff) (ch : Fin 16) (k : Nat) :
    (armedSlot d h ch k).idx = k ∧ (armedSlot d h ch k).blob = h.blob ∧ (armedSlot d h ch k).close = h.close ∧
    (armedSlot d h ch k).ch = ch.val ∧ (armedSlot d h ch k).entry = d.rd (MARK.MPS.ENTRY h.prog) ∧
    (armedSlot d h ch k).state = .armed ∧
    (armedSlot d h ch k).f = anchorOf d h.prog h.p0 h.p1 + d.rd (VALVE.DIST.UM ch) + d.rdS (MARK.MPS_OFS.UM h.prog) := by
  unfold armedSlot
  extract_lets f s
  split <;> exact ⟨rfl, rfl, rfl, rfl, rfl, rfl, rfl⟩

/-- A request armed: counted in, numbered, its slot among the slots. -/
def requestArmed (d : Dev) (x : MSlot) : Dev :=
  ((d.inc MARK.MARK_IN.CNT).updMark fun m => { m with seq := m.seq + 1 }).updMSlots fun ss => ss ++ [x]

theorem intakeOne_arms {d : Dev} {h : HandOff} {ch : Fin 16} {k : Nat} (hshed : d.on MARK.STATUS.SHED = false)
    (hen : d.on MARK.CTL.EN = true) (hcov : covering d h.prog h.cx = some ch) (hok : d.on (VALVE.FAULT.CAUSE ch) = false)
    (hfree : freeSlotFrom d.mark.slots 4096 0 = some k) : intakeOne d h = requestArmed d (armedSlot d h ch k) := by
  simp only [intakeOne, hshed, hen, hcov, hok, hfree, Bool.not_true, Bool.false_eq_true, if_false]
  rfl

/-- The program set of a mark stands outside the tag path's page, whatever its number. -/
theorem mps_keys_ne (j : Nat) : ∀ f ∈ MARK.fields2 j, f.key ≠ TAG.MQ_DEPTH.N.key := by
  simp only [MARK.fields2, List.forall_mem_cons, Fld.key, MARK.MPS.MASK, MARK.MPS.ANCHOR, MARK.MPS.ENTRY, MARK.MPS_OFS.UM,
    TAG.MQ_DEPTH.N, fld]
  refine ⟨by omega, by omega, by omega, by omega, by simp⟩

theorem covering_taken (d : Dev) (rest : List HandOff) (prog : Nat) (cx : Int) :
    covering (intakeTaken d rest) prog cx = covering d prog cx := by
  unfold covering
  congr 1
  funext c
  rw [intakeTaken_rd d rest (mps_keys_ne prog _ (by simp [MARK.fields2])), Dev.rdS, Dev.rdS,
    intakeTaken_rd d rest (by clear * -; decide +revert), intakeTaken_rd d rest (by clear * -; decide +revert),
    intakeTaken_rd d rest (by clear * -; decide +revert)]
  rfl

/-- With the scheduler on, a covering channel without a fault and a free slot, a request arms that slot. -/
theorem markIntake_arms {d : Dev} {h : HandOff} {rest : List HandOff} {ch : Fin 16} {k : Nat} (hh : d.tags.handOff = h :: rest)
    (hshed : d.on MARK.STATUS.SHED = false) (hen : d.on MARK.CTL.EN = true) (hcov : covering d h.prog h.cx = some ch)
    (hok : d.on (VALVE.FAULT.CAUSE ch) = false) (hfree : freeSlotFrom d.mark.slots 4096 0 = some k) (hjobs : d.snap.jobs = []) :
    (markIntake d).tags.handOff = rest ∧ (markIntake d).rd TAG.MQ_DEPTH.N = rest.length % 128 ∧
    (∃ x, (markIntake d).mark.slots = d.mark.slots ++ [x] ∧ x.idx = k ∧ x.blob = h.blob ∧ x.close = h.close ∧ x.ch = ch.val ∧
      x.entry = d.rd (MARK.MPS.ENTRY h.prog) ∧ x.state = .armed ∧
      x.f = anchorOf d h.prog h.p0 h.p1 + d.rd (VALVE.DIST.UM ch) + d.rdS (MARK.MPS_OFS.UM h.prog)) ∧
    (markIntake d).mark.seq = d.mark.seq + 1 ∧ d.Counted (markIntake d) MARK.MARK_IN.CNT ∧
    d.KeepsPages (markIntake d) [Page.MARK, Page.TAG, Page.TWIN] := by
  have hone : intakeOne (intakeTaken d rest) h = requestArmed (intakeTaken d rest) (armedSlot (intakeTaken d rest) h ch k) := by
    refine intakeOne_arms ?_ ?_ ((covering_taken d rest _ _).trans hcov) ?_ hfree
    · rw [← hshed, Dev.on, intakeTaken_rd _ _ (by decide)]
      rfl
    · rw [← hen, Dev.on, intakeTaken_rd _ _ (by decide)]
      rfl
    · rw [← hok, Dev.on, intakeTaken_rd _ _ (by clear * -; decide +revert)]
      rfl
  obtain ⟨hidx, hblob, hclose, hch, hentry, hstate, hf⟩ := armedSlot_spec (intakeTaken d rest) h ch k
  generalize armedSlot (intakeTaken d rest) h ch k = x at hone hidx hblob hclose hch hentry hstate hf
  obtain ⟨htags, hmark, hafter⟩ := markIntake_after hh hone hjobs
  have hset {f : Fld} (hf : f ∈ MARK.fields2 h.prog) : (intakeTaken d rest).rd f = d.rd f := intakeTaken_rd d rest (mps_keys_ne _ f hf)
  have hkeep : (intakeTaken d rest).KeepsRegs (requestArmed (intakeTaken d rest) x) (MARK.MARK_IN.CNT :: slotFields) :=
    (((Dev.KeepsKeys.refl _ _).inc (f := MARK.MARK_IN.CNT) (by simp)).of_regs rfl).trans
      (Dev.KeepsRegs.subset (updMSlots_kept _ _ fun _ => False).regs (by simp))
  have hin : (requestArmed (intakeTaken d rest) x).rd MARK.MARK_IN.CNT = ((intakeTaken d rest).inc MARK.MARK_IN.CNT).rd
      MARK.MARK_IN.CNT := (updMSlots_kept _ _ fun _ => False).regs _ (by decide)
  refine ⟨by rw [htags]; rfl, ?_, ⟨x, by rw [hmark]; rfl, hidx, hblob, hclose, hch, ?_, hstate, ?_⟩, by rw [hmark]; rfl, ?_, ?_⟩
  · rw [hafter _ (by decide), hkeep _ (by decide), intakeTaken, Dev.rd_wr_same]
    rfl
  · rw [hentry, hset (by simp [MARK.fields2])]
  · rw [hf, intakeTaken_rd d rest (f := VALVE.DIST.UM ch) (by clear * -; decide +revert), Dev.rdS,
      hset (f := MARK.MPS_OFS.UM h.prog) (by simp [MARK.fields2]), anchorOf, hset (by simp [MARK.fields2])]
    rfl
  · rw [Dev.Counted, hafter _ (by decide), hin, Dev.rd_inc_same, intakeTaken_rd _ _ (by decide)]
  · exact ((intakeTaken_keepsPages d rest).trans (hkeep.keepsPages (by decide))).trans (keepsPages_of_twin hafter)

end Sys2Proof.Machine
end

section
/-! SUPPORT. Launches, waits without a reservation and acknowledged slots (R229 to R233), and the statement about marks. -/

namespace Sys2Proof.Machine

/-! ## SLOT_DUE -/

theorem slotDue_slots (d : Dev) : (slotDue d).mark.slots = d.mark.slots.map fun x =>
    if x.state = .armed ∧ x.due = none ∧ slotDueNow d x = true then { x with due := some d.now } else x := by
  rw [slotDue, updMSlots_slots]
  simp only [Option.isNone_iff_eq_none]

/-! ## Launches -/

/-- The registers that a program's start may write. -/
def startFields (ch : Fin 16) : List Fld :=
  [MARK.AVAIL.UJ, Com.IRQ_RAW Page.MARK, Com.ERR_CNT Page.MARK, MARK.RESV.UJ, VALVE.STATUS.DIP ch, VALVE.NOW.PC ch, VALVE.RUN_CNT.CNT ch]

theorem availPut_only (d : Dev) (v : Int) :
    d.OnlyRegs (availPut d v) [MARK.AVAIL.UJ, Com.IRQ_RAW Page.MARK, Com.ERR_CNT Page.MARK] :=
  ((Dev.OnlyKeys.refl d _).wr (f := MARK.AVAIL.UJ) (by simp) _).irqIf (by simp) (by simp) _ _

/-- A program's start: the entry's program at its address, counted, and the channel's request gone. -/
theorem startProgram_spec (d : Dev) (ch : Fin 16) (slot : Option Nat) (entry : Nat) :
    (∃ r, (startProgram d ch slot entry).valves[ch].run = some r ∧ r.slot = slot ∧ r.pc = d.rd (entryFld ch entry) ∧
      r.bank = d.rd (VALVE.CFG.BANK ch) ∧ r.start = none ∧ r.decided = none ∧ r.spent = 0) ∧
    (startProgram d ch slot entry).valves[ch].req = none ∧ (startProgram d ch slot entry).mark = d.mark ∧
    d.Counted (startProgram d ch slot entry) (VALVE.RUN_CNT.CNT ch) ∧
    d.ValveKept (startProgram d ch slot entry) (· = ch) (· ∈ (startFields ch).map Fld.key) := by
  unfold startProgram
  extract_lets e d1 r d2
  have hput := availPut_only d (d.rdS MARK.AVAIL.UJ - e)
  have h1 : d.ValveKept d1 (· = ch) (· ∈ (startFields ch).map Fld.key) :=
    (((Dev.ValveKept.refl d _ _).of_onlyKeys hput).subset (by simp [startFields])).wr (by simp [startFields]) _
  have h2 : d.ValveKept d2 (· = ch) (· ∈ (startFields ch).map Fld.key) :=
    ((h1.wr (f := VALVE.STATUS.DIP ch) (by simp [startFields]) _).wr (f := VALVE.NOW.PC ch) (by simp [startFields]) _).inc
      (f := VALVE.RUN_CNT.CNT ch) (by simp [startFields])
  refine ⟨⟨r, congrArg ValveCh.run (updValve_valves _ _ _), rfl, rfl, rfl, rfl, rfl, rfl⟩, congrArg ValveCh.req (updValve_valves _ _ _),
    (congrArg Dev.mark hput.1 :), ?_, h2.updValve rfl _⟩
  rw [Dev.Counted, Dev.rd_updValve, Dev.rd_inc_same]
  simp (disch := clear * -; decide +revert) only [d1, Dev.rd_wr_other]
  rw [hput.2 _ (by clear * -; decide +revert)]

/-- A reservation that can be made moves from AVAIL to RESV. -/
theorem startProgram_reserves {d : Dev} {ch : Fin 16} {entry : Nat} (h : canReserve d ch entry = true) (slot : Option Nat) :
    (startProgram d ch slot entry).rdS MARK.AVAIL.UJ = d.rdS MARK.AVAIL.UJ - d.rd (VALVE.ENERGY.UJ ch entry) ∧
    (startProgram d ch slot entry).rd MARK.RESV.UJ = (d.rd MARK.RESV.UJ + d.rd (VALVE.ENERGY.UJ ch entry)) % 2 ^ 32 := by
  obtain ⟨hpos, hle⟩ := of_decide_eq_true h
  have hhi := (toSigned_bounds (d.rd MARK.AVAIL.UJ)).2
  change d.rdS MARK.AVAIL.UJ < _ at hhi
  unfold startProgram
  extract_lets e d1 r d2
  constructor
  · rw [Dev.rdS, Dev.rd_updValve]
    simp (disch := clear * -; decide +revert) only [d2, d1, Dev.rd_inc_other, Dev.rd_wr_other]
    exact rdS_availPut d (by omega) (by omega)
  · rw [Dev.rd_updValve]
    simp (disch := clear * -; decide +revert) only [d2, d1, Dev.rd_inc_other, Dev.rd_wr_other]
    exact Dev.rd_wr_same _ _ _

theorem startFields_page (ch : Fin 16) : ∀ f ∈ startFields ch, f.key / 131072 ∈ [Page.MARK, Page.VALVE ch] := by decide +revert

theorem markLaunch_idle {d : Dev} {ch : Fin 16} (h : canLaunch d ch = false) : markLaunch ch d = d := by simp [markLaunch, h]

/-- A waiting request of the channel's role starts its program. -/
theorem markLaunch_request {d : Dev} {ch : Fin 16} {e t role : Nat} (h : canLaunch d ch = true)
    (hreq : d.valves[ch].req = some (e, t, role)) (hrole : roleFires d ch role = true) (hres : canReserve d ch e = true) :
    markLaunch ch d = startProgram d ch none e := by
  simp only [markLaunch, h, hreq, hrole, hres, Bool.not_true, Bool.false_eq_true, if_false, Bool.and_self, if_true]

/-- The slot that launches, shown running on its channel. -/
def slotLaunched (d : Dev) (ch : Fin 16) (x : MSlot) : Dev :=
  (d.toStandby .launch [(x.idx : Int), (webPosUm d : Int), (d.nowNs : Int), (d.rd (VALVE.ENERGY.UJ ch x.entry) : Int)]).updMSlot x.idx
    fun q => { q with state := .run, valve := ch.val }

theorem slotLaunched_rd (d : Dev) (ch : Fin 16) (x : MSlot) {f : Fld} (h : f.key ∉ slotFields.map Fld.key) :
    (slotLaunched d ch x).rd f = d.rd f :=
  ((updMSlots_kept _ _ fun _ => False).regs f h).trans (rd_toStandby _ _ _ _)

theorem slotLaunched_slots (d : Dev) (ch : Fin 16) (x : MSlot) : (slotLaunched d ch x).mark.slots =
    d.mark.slots.map fun q => if q.idx == x.idx then { q with state := .run, valve := ch.val } else q := by
  rw [slotLaunched, Dev.updMSlot, updMSlots_slots, toStandby_mark]

theorem markLaunch_slot {d : Dev} {ch : Fin 16} {x : MSlot} (h : canLaunch d ch = true) (hreq : d.valves[ch].req = none)
    (hdue : firstDue d ch = some x) (hrole : d.rd (VALVE.CFG.ROLE ch) = 1) (hres : canReserve d ch x.entry = true) :
    markLaunch ch d = startProgram (slotLaunched d ch x) ch (some x.idx) x.entry := by
  have hfires : roleFires d ch 1 = true := by simp [roleFires, hrole]
  simp only [markLaunch, h, hreq, hdue, hfires, hres, Bool.not_true, Bool.false_eq_true, if_false, Bool.and_self, if_true]
  rfl

theorem entryFld_key (ch : Fin 16) (entry : Nat) : (entryFld ch entry).key ∉ slotFields.map Fld.key := by
  unfold entryFld
  split <;> decide +revert

/-- The first due slot of a Mark channel starts its program and runs; every other slot stays. -/
theorem markLaunch_slot_spec {d : Dev} {ch : Fin 16} {x : MSlot} (h : canLaunch d ch = true) (hreq : d.valves[ch].req = none)
    (hdue : firstDue d ch = some x) (hrole : d.rd (VALVE.CFG.ROLE ch) = 1) (hres : canReserve d ch x.entry = true) :
    (∃ r, (markLaunch ch d).valves[ch].run = some r ∧ r.slot = some x.idx ∧ r.pc = d.rd (entryFld ch x.entry)) ∧
    (∀ y ∈ (markLaunch ch d).mark.slots, y.idx = x.idx → y.state = .run ∧ y.valve = ch.val) ∧
    (∀ y ∈ d.mark.slots, y.idx ≠ x.idx → y ∈ (markLaunch ch d).mark.slots) ∧ d.Counted (markLaunch ch d) (VALVE.RUN_CNT.CNT ch) ∧
    d.KeepsPages (markLaunch ch d) [Page.MARK, Page.VALVE ch] := by
  obtain ⟨⟨r, hr, hslot, hpc, -⟩, -, hmark, hcount, hkept⟩ := startProgram_spec (slotLaunched d ch x) ch (some x.idx) x.entry
  have hslots := slotLaunched_slots d ch x
  have hkeep : d.KeepsPages (slotLaunched d ch x) [Page.MARK, Page.VALVE ch] :=
    Dev.KeepsRegs.keepsPages (fs := slotFields) (fun f hf => slotLaunched_rd d ch x hf) (by clear * -; decide +revert)
  rw [slotLaunched_rd d ch x (entryFld_key ch _)] at hpc
  rw [Dev.Counted, slotLaunched_rd d ch x (by clear * -; decide +revert)] at hcount
  rw [markLaunch_slot h hreq hdue hrole hres, hmark, hslots]
  refine ⟨⟨r, hr, hslot, hpc⟩, fun y hy he => ?_, fun y hy hne => ?_, hcount, hkeep.trans (hkept.keepsPages (startFields_page ch))⟩
  · obtain ⟨q, -, rfl⟩ := List.mem_map.1 hy
    by_cases hq : (q.idx == x.idx) = true
    · rw [if_pos hq]
      exact ⟨rfl, rfl⟩
    · rw [if_neg hq] at he
      exact absurd he (by simpa using hq)
  · exact List.mem_map.2 ⟨y, hy, if_neg (by simpa using hne)⟩

/-! ## Waits without a reservation -/

theorem resultCnt_shed (d : Dev) : resultCnt d 4 = d.inc MARK.SHED_CNT.CNT := rfl

/-- A slot answered SHED before its program has started. -/
theorem slotResult_shed {d : Dev} {k : Nat} {x : MSlot} (h : slotAt d k = some x) :
    d.Counted (slotResult d k 4 0xFFFF 0 none) MARK.SHED_CNT.CNT ∧
    (d.mirrored = false → d.Counted (slotResult d k 4 0xFFFF 0 none) MARK.RES_CNT.CNT) := by
  rw [slotResult_some h]
  dsimp only
  have htold := (slotTold_kept d k (x.answered 4 0xFFFF 0 none) 4 0xFFFF 0 fun _ => False).regs
  have hshed : d.Counted (slotTold d k (x.answered 4 0xFFFF 0 none) 4 0xFFFF 0) MARK.SHED_CNT.CNT := by
    rw [Dev.Counted, slotTold, rd_toStandby, resultCnt_shed, Dev.rd_inc_same, Dev.updMSlot,
      (updMSlots_kept _ _ fun _ => False).regs _ (by decide)]
  generalize slotTold d k (x.answered 4 0xFFFF 0 none) 4 0xFFFF 0 = e at htold hshed
  have hres := slotRelease_counts e (x.answered 4 0xFFFF 0 none)
  have hrel := (slotRelease_kept e (x.answered 4 0xFFFF 0 none) fun _ => False).regs
  constructor
  · split
    · exact hshed
    · rw [Dev.Counted, hrel _ (by decide), hshed]
  · intro hm
    rw [if_neg (by simp [hm]), Dev.Counted, hres, htold _ (by decide)]

theorem shedWaitExpiry_slot {d : Dev} {k t : Nat} {x : MSlot} (hk : k < 4096) (h : slotAt d k = some x) (hstate : x.state = .armed)
    (hdue : x.due = some t) (hwait : t + 16000 * d.rd MARK.SHED_WAIT.US ≤ d.now) (hactive : d.isActive = true) :
    shedWaitExpiry k d = slotResult d k 4 0xFFFF 0 none := by
  simp [shedWaitExpiry, hk, h, hstate, hdue, hactive, shedWaited, hwait]

theorem shedWaitExpiry_request {d : Dev} {ch : Fin 16} {e t : Nat} (h : d.valves[ch].req = some (e, t, 3))
    (hwait : t + 16000 * d.rd MARK.SHED_WAIT.US ≤ d.now) :
    shedWaitExpiry (4096 + ch) d = d.updValve ch fun v => { v with req := none } := by
  have hch : Fin.ofNat 16 (4096 + ch.val) = ch := Fin.ext (by simp only [Fin.ofNat]; omega)
  have hge : ¬ 4096 + ch.val < 4096 := by omega
  simp only [shedWaitExpiry, hge, if_false, hch, h, shedWaited, decide_eq_true hwait, if_true]

/-! ## The statement -/

/-- Settles O30: intake, due slots, launches, waits without a reservation, and acknowledged slots. -/
theorem marksAreArmedAndLaunched : Obligations.MarksAreArmedAndLaunched := by
  refine ⟨fun s hup hnone => gives_of_onDev (g := markIntake) rfl hup (by simp only [markIntake, hnone]),
    fun s h rest hup hh hshed hjobs => gives_of_onDev rfl hup (markIntake_shed hh hshed hjobs),
    fun s h rest ch k hup hh hshed hen hcov hok hfree hjobs =>
      gives_of_onDev rfl hup (markIntake_arms hh hshed hen hcov hok hfree hjobs),
    fun s hup => gives_of_onDev rfl hup ⟨slotDue_slots s.dev, (updMSlots_kept _ _ fun _ => False).keepsPages (by decide)⟩,
    fun s ch hup h => gives_of_onDev rfl hup (markLaunch_idle h), fun s ch e t role hup h hreq hrole hres => ?_,
    fun s ch x hup h hreq hdue hrole hres => gives_of_onDev rfl hup (markLaunch_slot_spec h hreq hdue hrole hres),
    fun s k t x hup hk h hstate hdue hwait hactive => ?_, fun s ch e t hup h hwait => ?_, fun s k x hup h hstate => ?_,
    fun s k hup h => ?_⟩
  · refine gives_of_onDev (g := markLaunch ch) rfl hup ?_
    rw [markLaunch_request h hreq hrole hres]
    obtain ⟨⟨r, hr, hslot, hpc, hbank, hrest⟩, hgone, -, hcount, hkept⟩ := startProgram_spec s.dev ch none e
    obtain ⟨havail, hresv⟩ := startProgram_reserves hres none
    exact ⟨⟨r, hr, hslot, hpc, hbank, hrest⟩, hgone, havail, hresv, hcount, hkept.others, hkept.keepsPages (startFields_page ch)⟩
  · refine gives_of_onDev (g := shedWaitExpiry k) rfl hup ?_
    rw [shedWaitExpiry_slot hk h hstate hdue hwait hactive]
    obtain ⟨hshed, hres⟩ := slotResult_shed h
    have hslots := slotResult_slots s.dev k 4 0xFFFF 0 none 0
    refine ⟨hshed, fun _ y hy he => ((hslots y).2 he hy).2, fun hm => ⟨fun y hy he => ?_, hres hm⟩,
      fun y hy hne => ((hslots y).1 hne).2 hy, (slotResult_kept _ _ _ _ _ _ _ fun _ => False).keepsPages resultFields_page⟩
    exact absurd ((hslots y).2 he hy).1 (by simp [hm])
  · refine gives_of_onDev (g := shedWaitExpiry (4096 + ch)) rfl hup ?_
    rw [shedWaitExpiry_request h hwait]
    refine ⟨?_, ?_, rfl, fun c hc => updValve_valves_other _ hc _⟩
    · rw [updValve_valves]
    · rw [updValve_valves]
  · refine gives_of_onDev (g := slotAck k) rfl hup ?_
    have heq : slotAck k s.dev = slotRelease s.dev x := by simp only [slotAck, h, hstate, if_true]
    have hslots := slotRelease_slots s.dev x
    rw [slotAt_idx h] at hslots
    rw [heq, hslots]
    refine ⟨fun y hy => by simpa using (List.mem_filter.1 hy).2, fun y hy hne => List.mem_filter.2 ⟨hy, by simpa using hne⟩,
      slotRelease_counts s.dev x, (slotRelease_kept _ _ fun _ => False).keepsPages (by decide)⟩
  · refine gives_of_onDev (g := slotAck k) rfl hup ?_
    cases hx : slotAt s.dev k with
    | none => simp only [slotAck, hx]
    | some x => simp only [slotAck, hx, h x hx, if_false]

end Sys2Proof.Machine
end

section
/-! SUPPORT. Drive instructions (R234, R235): the word at a program's pc, one sample of an instruction in progress, and its end. -/

namespace Sys2Proof.Machine

/-! ## The running program -/

theorem updValve_congr {d : Dev} {ch : Fin 16} {g g' : ValveCh → ValveCh} (h : g d.valves[ch] = g' d.valves[ch]) :
    d.updValve ch g = d.updValve ch g' := by
  rw [Dev.updValve, Dev.updValve, h]

/-- A change of a program that runs. -/
theorem updRun_eq {d : Dev} {ch : Fin 16} {r : Run} (h : d.valves[ch].run = some r) (g : Run → Run) :
    d.updRun ch g = d.updValve ch fun v => { v with run := some (g r) } :=
  updValve_congr (by rw [h]; rfl)

theorem updRun_some {d : Dev} {ch : Fin 16} {r : Run} (h : d.valves[ch].run = some r) (g : Run → Run) :
    (d.updRun ch g).valves[ch].run = some (g r) := by
  rw [updRun_run, h]
  rfl

theorem Dev.ValveKept.updRun {d e : Dev} {C : Fin 16 → Prop} {S : Nat → Prop} (h : d.ValveKept e C S) {ch : Fin 16} (hch : C ch)
    (g : Run → Run) : d.ValveKept (e.updRun ch g) C S := h.updValve hch _

/-- On sound memory a program's word is read as it stands. -/
theorem progRead_sound {x : DM} (hchecks : x.2.checks = []) (hgone : x.1.integ.gone = []) (ch : Fin 16) (r : Run) :
    progRead ch r x = (progWord x.2 ch r.bank r.pc, x) := by
  have hfix (a n : Nat) : x.2.fixRange a n = x.2 := by simp [Memory.fixRange, hchecks]
  simp only [progRead, readRange_sound hchecks hgone, progWord, hfix]

/-- On sound memory the channel runs `r`, no dip window open, with the word `w` of opcode `op` at its pc. -/
structure Drives (d : Dev) (m : Memory) (ch : Fin 16) (r : Run) (w op : Nat) : Prop where
  checks : m.checks = []
  gone : d.integ.gone = []
  run : d.valves[ch].run = some r
  window : r.window = 0
  word : w = progWord m ch r.bank r.pc
  op : opOf w = op

/-! ## One tick -/

/-- The energy of one tick, in 1/1024 µJ. -/
def tickDraw (d : Dev) (ch : Fin 16) (i : Nat) : Nat :=
  if d.rd (VALVE.STATUS.DRIVE ch) == DR.on then d.rd MARK.RAIL.MV * i * 204800 / 1000000000 else 0

/-- A program after one tick outside a dip window. -/
def Run.tick (r : Run) (e : Nat) : Run :=
  { r with ticks := if r.start.isSome then r.ticks + 1 else r.ticks, spent := r.spent + e }

/-- One tick of the program `r` with a sample, outside a dip window. -/
def ticked (d : Dev) (ch : Fin 16) (r : Run) (i : Nat) : Dev :=
  ((d.updValve ch fun v => { v with run := some (r.tick (tickDraw d ch i)) }).updValve ch fun v =>
    { v with acc := v.acc + tickDraw d ch i }).wr (VALVE.NOW.I ch) i

theorem ticked_run (d : Dev) (ch : Fin 16) (r : Run) (i : Nat) :
    (ticked d ch r i).valves[ch].run = some (r.tick (tickDraw d ch i)) := by
  rw [ticked, Dev.wr_valves, updValve_valves, updValve_valves]

theorem ticked_kept (d : Dev) (ch : Fin 16) (r : Run) (i : Nat) :
    d.ValveKept (ticked d ch r i) (· = ch) (· ∈ [VALVE.NOW.I ch].map Fld.key) :=
  (((Dev.ValveKept.refl d (· = ch) _).updValve rfl _).updValve rfl _).wr (by simp) _

/-- Outside a dip window a tick draws, counts and shows the current, and no dip is seen. -/
theorem sampleTick_closed {d : Dev} {ch : Fin 16} {r : Run} (hr : d.valves[ch].run = some r) (hw : r.window = 0) (waits : Bool)
    (s : Nat) (m : Memory) : sampleTick ch waits s (d, m) = (ticked d ch r (s % 4096), m) := by
  have hdetect (waits on : Bool) (i depth n : Nat) : r.detect waits on i depth n = r := if_pos hw
  have hseen : ((ticked d ch r (s % 4096)).valves[ch].run).bind Run.seen = r.seen := by
    rw [ticked_run]
    rfl
  have htick : sampleTick ch waits s (d, m) = match (d.valves[ch].run).bind Run.seen,
      ((ticked d ch r (s % 4096)).valves[ch].run).bind Run.seen with
    | none, some t => dipSeen ch t (ticked d ch r (s % 4096), m)
    | _, _ => (ticked d ch r (s % 4096), m) := by
    simp only [sampleTick, updRun_eq hr, hdetect]
    rfl
  rw [htick, hseen, hr, Option.bind_some]
  cases r.seen <;> rfl

/-! ## One sample of an instruction in progress -/

/-- What follows a sample `s` of an instruction with `t` ticks left: its end by condition, its end by T, or the next tick. -/
def driveNext (op : Nat) (ch : Fin 16) (i pc t s : Nat) (e : Dev) : Dev :=
  if (op = 1 ∧ i ≤ s) ∨ (op = 5 ∧ s ≤ i) then advance e ch (pc + 1)
  else if (if op = 6 then t else t - 1) = 0 then
    if op = 1 ∧ s < e.rd (VALVE.FAULT_CFG.OPEN_I ch) then chanFault e ch 1 else advance e ch (pc + 1)
  else e.updRun ch fun r => { r with left := some (if op = 6 then t else t - 1) }

/-- The sample itself: the drive state that the instruction asks for, and the tick. -/
def driveSample (op : Nat) (ch : Fin 16) (r : Run) (i s : Nat) (d : Dev) : Dev :=
  ticked (setDrive d ch (driveFor d ch op i s) i) ch r s

theorem not_released {op : Nat} {b : Bool} (h : op = 6 → b = false) : ¬ (op = 6 ∧ b = true) :=
  fun ⟨h6, hon⟩ => Bool.false_ne_true ((h h6).symm.trans hon)

theorem driveTicks_one {d : Dev} {ch : Fin 16} {r : Run} (hr : d.valves[ch].run = some r) (hw : r.window = 0) {op t s : Nat}
    (hleft : r.left = some t) (hrel : op = 6 → d.valves[ch].released = false) (hs : s < 4096) (i pc : Nat) (m : Memory) :
    driveTicks ch op i pc [s] (d, m) = (driveNext op ch i pc t s (driveSample op ch r i s d), m) := by
  have hnot := not_released hrel
  have htick := sampleTick_closed (d := setDrive d ch (driveFor d ch op i s) i) (by rw [setDrive_valves]; exact hr) hw false s m
  rw [Nat.mod_eq_of_lt hs] at htick
  simp only [driveTicks, hr, Option.bind_some, hleft, if_neg hnot, Nat.mod_eq_of_lt hs, htick, driveNext]
  generalize he : driveSample op ch r i s d = e
  rw [driveSample] at he
  rw [he]
  split_ifs <;> rfl

/-- An instruction in progress takes its sample. -/
theorem driveInstr_sample {d : Dev} {m : Memory} {ch : Fin 16} {r : Run} {w op : Nat} (h : Drives d m ch r w op) {t s : Nat}
    (hleft : r.left = some t) (hrel : op = 6 → d.valves[ch].released = false) (hs : s < 4096) :
    driveInstr op ch [s] (d, m) =
      (hsgShow (driveNext op ch (iOf w) r.pc t s (driveSample op ch r (iOf w) s d)) (groupOf ch), m) := by
  have hnot := not_released hrel
  have hsome : r.left.isSome = true := by rw [hleft]; rfl
  simp only [driveInstr, h.run, progRead_sound (x := (d, m)) h.checks h.gone, ← h.word, h.op, ne_eq, not_true_eq_false,
    if_false, hsome, if_true, if_neg hnot, driveTicks_one h.run h.window hleft hrel hs]

/-- Any other opcode at the pc, or no program, and nothing happens. -/
theorem driveInstr_idle {d : Dev} {m : Memory} (hchecks : m.checks = []) (hgone : d.integ.gone = []) {ch : Fin 16} {op : Nat}
    (h : ∀ r, d.valves[ch].run = some r → opOf (progWord m ch r.bank r.pc) ≠ op) (samples : List Nat) :
    driveInstr op ch samples (d, m) = (d, m) := by
  cases hr : d.valves[ch].run with
  | none => simp only [driveInstr, hr]
  | some r => simp only [driveInstr, hr, progRead_sound (x := (d, m)) hchecks hgone, if_pos (h r hr)]

end Sys2Proof.Machine
end

section
/-! SUPPORT. Drive instructions in progress and at their start (R234, R235, R237), and admission (R239, R240). -/

namespace Sys2Proof.Machine

/-! ## An instruction in progress -/

/-- The registers that a drive instruction in progress may write. -/
def driveFields (ch : Fin 16) : List Fld :=
  [VALVE.STATUS.DRIVE ch, VALVE.NOW.I ch, VALVE.NOW.PC ch] ++ hsgFields (groupOf ch)

theorem driveFields_page (ch : Fin 16) : ∀ f ∈ driveFields ch, f.key / 131072 ∈ [Page.VALVE ch, Page.HSG (groupOf ch)] := by
  decide +revert

/-- The drive state that an instruction asks for is one of the four, or the present one. -/
theorem driveFor_fits (d : Dev) (ch : Fin 16) (op i s : Nat) :
    driveFor d ch op i s < 4 ∨ d.rd (VALVE.STATUS.DRIVE ch) = driveFor d ch op i s := by
  unfold driveFor
  split
  iterate 4 · exact .inl (by decide)
  split_ifs
  · exact .inl (by decide)
  · exact .inl (by decide)
  · exact .inr rfl

/-- Regulation: ON below the current less the hysteresis, FREE above it and the hysteresis, else as before. -/
theorem driveFor_regulates (d : Dev) (ch : Fin 16) {op : Nat} (h : op = 2 ∨ op = 3 ∨ op = 6) (i s : Nat) :
    driveFor d ch op i s = if s + d.rd (VALVE.REG.HYST ch) < i then 1 else if i + d.rd (VALVE.REG.HYST ch) < s then 2
      else d.rd (VALVE.STATUS.DRIVE ch) := by
  have hlt : ((s : Int) < (i : Int) - (d.rd (VALVE.REG.HYST ch) : Nat)) ↔ s + d.rd (VALVE.REG.HYST ch) < i := by omega
  rcases h with rfl | rfl | rfl <;> simp only [driveFor, hlt, DR.on, DR.free]

/-- A sample drives the coil, shows the current and counts a tick. -/
theorem driveSample_spec {d : Dev} (ch : Fin 16) (r : Run) (op i : Nat) {s : Nat} (hs : s < 4096) :
    (∃ e, (driveSample op ch r i s d).valves[ch].run = some (r.tick e)) ∧
    (driveSample op ch r i s d).rd (VALVE.NOW.I ch) = s ∧
    (driveSample op ch r i s d).rd (VALVE.STATUS.DRIVE ch) = driveFor d ch op i s ∧
    d.ValveKept (driveSample op ch r i s d) (· = ch) (· ∈ [VALVE.STATUS.DRIVE ch, VALVE.NOW.I ch].map Fld.key) := by
  have hdrive := rd_setDrive (driveFor_fits d ch op i s) i
  have hset := (setDrive_kept d ch (driveFor d ch op i s) i (· = ch)).subset (gs := [VALVE.STATUS.DRIVE ch, VALVE.NOW.I ch]) (by simp)
  have htick := ticked_kept (setDrive d ch (driveFor d ch op i s) i) ch r s
  refine ⟨⟨_, ticked_run _ _ _ _⟩, Dev.rd_wr_fits _ hs, ?_, hset.trans (htick.subset (by simp))⟩
  rw [driveSample, htick.regs _ (by clear * -; decide +revert), hdrive]

theorem advance_spec {d : Dev} {ch : Fin 16} {r : Run} (hr : d.valves[ch].run = some r) (pc : Nat) :
    (∃ e, (advance d ch pc).valves[ch].run = some e ∧ e.left = none ∧ e.pc = pc % 256) ∧
    (advance d ch pc).rd (VALVE.NOW.PC ch) = pc % 256 ∧
    d.ValveKept (advance d ch pc) (· = ch) (· ∈ [VALVE.NOW.PC ch].map Fld.key) :=
  ⟨⟨_, updRun_some hr _, rfl, rfl⟩, Dev.rd_wr_same _ _ _, ((Dev.ValveKept.refl d (· = ch) _).updRun rfl _).wr (by simp) _⟩

theorem hsgShow_kept (d : Dev) (ch : Fin 16) (C : Fin 16 → Prop) :
    d.ValveKept (hsgShow d (groupOf ch)) C (· ∈ (hsgFields (groupOf ch)).map Fld.key) :=
  (Dev.ValveKept.refl d C _).of_onlyKeys (hsgShow_only _ _)

/-- An instruction that goes on: one tick of its T is gone, but of WAITR. -/
theorem driveNext_goesOn {op : Nat} {ch : Fin 16} {i pc t s : Nat} {e : Dev} (ht : 2 ≤ t) (h1 : op = 1 → s < i) (h5 : op = 5 → i < s) :
    driveNext op ch i pc t s e = e.updRun ch fun r => { r with left := some (if op = 6 then t else t - 1) } := by
  have hhit : ¬ ((op = 1 ∧ i ≤ s) ∨ (op = 5 ∧ s ≤ i)) := by
    rintro (⟨h, hle⟩ | ⟨h, hle⟩)
    · exact Nat.not_le.2 (h1 h) hle
    · exact Nat.not_le.2 (h5 h) hle
  have hleft : ¬ (if op = 6 then t else t - 1) = 0 := by split_ifs <;> omega
  rw [driveNext, if_neg hhit, if_neg hleft]

/-- An instruction that ends, by the current it waits for or by its T. -/
theorem driveNext_ends {op : Nat} {ch : Fin 16} {i pc t s : Nat} {e : Dev}
    (h : (op = 1 ∧ i ≤ s) ∨ (op = 5 ∧ s ≤ i) ∨ (op ≠ 6 ∧ t = 1 ∧ (op = 1 → e.rd (VALVE.FAULT_CFG.OPEN_I ch) ≤ s))) :
    driveNext op ch i pc t s e = advance e ch (pc + 1) := by
  by_cases hhit : (op = 1 ∧ i ≤ s) ∨ (op = 5 ∧ s ≤ i)
  · exact if_pos hhit
  · obtain ⟨h6, rfl, hle⟩ := (h.resolve_left fun hc => hhit (.inl hc)).resolve_left fun hc => hhit (.inr hc)
    have hopen : ¬ (op = 1 ∧ s < e.rd (VALVE.FAULT_CFG.OPEN_I ch)) := fun ⟨h1, hlt⟩ => Nat.not_le.2 hlt (hle h1)
    rw [driveNext, if_neg hhit, if_neg h6, if_pos rfl, if_neg hopen]

theorem driveNext_opens {ch : Fin 16} {i pc s : Nat} {e : Dev} (hs : s < i) (hopen : s < e.rd (VALVE.FAULT_CFG.OPEN_I ch)) :
    driveNext 1 ch i pc 1 s e = chanFault e ch 1 := by
  simp [driveNext, Nat.not_le.2 hs, hopen]

/-- An instruction in progress that goes on. -/
theorem driveInstr_goesOn {d : Dev} {m : Memory} {ch : Fin 16} {r : Run} {w op : Nat} (h : Drives d m ch r w op) {t s : Nat}
    (hleft : r.left = some t) (ht : 2 ≤ t) (hs : s < 4096) (h1 : op = 1 → s < iOf w) (h5 : op = 5 → iOf w < s)
    (hrel : op = 6 → d.valves[ch].released = false) : ∃ e, driveInstr op ch [s] (d, m) = (e, m) ∧
      (∃ x, e.valves[ch].run = some x ∧ x.left = some (if op = 6 then t else t - 1) ∧ x.pc = r.pc ∧
        x.ticks = if r.start.isSome then r.ticks + 1 else r.ticks) ∧
      e.rd (VALVE.NOW.I ch) = s ∧ e.rd (VALVE.STATUS.DRIVE ch) = driveFor d ch op (iOf w) s ∧
      d.ValveKept e (· = ch) (· ∈ (driveFields ch).map Fld.key) := by
  obtain ⟨⟨u, hrun⟩, hnow, hdrive, hkept⟩ := driveSample_spec (d := d) ch r op (iOf w) hs
  rw [driveInstr_sample h hleft hrel hs, driveNext_goesOn ht h1 h5]
  generalize driveSample op ch r (iOf w) s d = e at hrun hnow hdrive hkept
  have hshow := hsgShow_kept (e.updRun ch fun r => { r with left := some (if op = 6 then t else t - 1) }) ch (· = ch)
  have hnext := updRun_some hrun fun r => { r with left := some (if op = 6 then t else t - 1) }
  rw [← hsgShow_valves _ (groupOf ch)] at hnext
  refine ⟨_, rfl, ⟨_, hnext, rfl, rfl, rfl⟩, ?_, ?_, ?_⟩
  · rw [hshow.regs _ (by clear * -; decide +revert), Dev.rd_updRun, hnow]
  · rw [hshow.regs _ (by clear * -; decide +revert), Dev.rd_updRun, hdrive]
  · exact ((hkept.subset (by simp [driveFields])).updRun rfl _).trans (hshow.subset (List.subset_append_right _ _))

/-- The next instruction follows. -/
theorem advance_shown {d e : Dev} {ch : Fin 16} {r : Run} (hr : e.valves[ch].run = some r)
    (hkept : d.ValveKept e (· = ch) (· ∈ (driveFields ch).map Fld.key)) :
    (∃ x, (hsgShow (advance e ch (r.pc + 1)) (groupOf ch)).valves[ch].run = some x ∧ x.left = none ∧ x.pc = (r.pc + 1) % 256) ∧
    (hsgShow (advance e ch (r.pc + 1)) (groupOf ch)).rd (VALVE.NOW.PC ch) = (r.pc + 1) % 256 ∧
    d.KeepsPages (hsgShow (advance e ch (r.pc + 1)) (groupOf ch)) [Page.VALVE ch, Page.HSG (groupOf ch)] := by
  obtain ⟨hnext, hpc, hadv⟩ := advance_spec hr (r.pc + 1)
  have hshow := hsgShow_kept (advance e ch (r.pc + 1)) ch (· = ch)
  rw [hsgShow_valves, hshow.regs _ (by clear * -; decide +revert)]
  exact ⟨hnext, hpc, ((hkept.trans (hadv.subset (by simp [driveFields]))).trans
    (hshow.subset (List.subset_append_right _ _))).keepsPages (driveFields_page ch)⟩

/-- An instruction in progress that ends with this sample. -/
theorem driveInstr_ends {d : Dev} {m : Memory} {ch : Fin 16} {r : Run} {w op : Nat} (h : Drives d m ch r w op) {t s : Nat}
    (hleft : r.left = some t) (hs : s < 4096) (h6 : op ≠ 6) (hend : (op = 1 ∧ iOf w ≤ s) ∨ (op = 5 ∧ s ≤ iOf w) ∨
      (t = 1 ∧ (op = 1 → d.rd (VALVE.FAULT_CFG.OPEN_I ch) ≤ s))) : ∃ e, driveInstr op ch [s] (d, m) = (e, m) ∧
      (∃ x, e.valves[ch].run = some x ∧ x.left = none ∧ x.pc = (r.pc + 1) % 256) ∧
      e.rd (VALVE.NOW.PC ch) = (r.pc + 1) % 256 ∧ d.KeepsPages e [Page.VALVE ch, Page.HSG (groupOf ch)] := by
  obtain ⟨⟨u, hrun⟩, -, -, hkept⟩ := driveSample_spec (d := d) ch r op (iOf w) hs
  have hopen := hkept.regs (VALVE.FAULT_CFG.OPEN_I ch) (by clear * -; decide +revert)
  rw [driveInstr_sample h hleft (fun hc => absurd hc h6) hs, driveNext_ends (by
    rw [hopen]
    exact hend.imp_right (Or.imp_right fun ⟨ht, hle⟩ => ⟨h6, ht, hle⟩))]
  exact ⟨_, rfl, advance_shown (r := r.tick u) hrun (hkept.subset (by simp [driveFields]))⟩

/-- A BOOST whose T ends below OPEN_I: the coil is open. -/
theorem driveInstr_opens {d : Dev} {m : Memory} {ch : Fin 16} {r : Run} {w : Nat} (h : Drives d m ch r w 1) {s : Nat}
    (hleft : r.left = some 1) (hlt : s < iOf w) (hs : s < 4096) (hopen : s < d.rd (VALVE.FAULT_CFG.OPEN_I ch))
    (hoff : d.on (VALVE.FAULT.CAUSE ch) = false) : ∃ e, driveInstr 1 ch [s] (d, m) = (e, m) ∧ e.valves[ch].run = none ∧
      e.rd (VALVE.FAULT.CAUSE ch) = 1 ∧ e.rd (VALVE.STATUS.DRIVE ch) = 0 := by
  obtain ⟨-, -, -, hkept⟩ := driveSample_spec (d := d) ch r 1 (iOf w) hs
  rw [driveInstr_sample h hleft (fun hc => absurd hc (by decide)) hs, driveNext_opens hlt (by
    rw [hkept.regs (VALVE.FAULT_CFG.OPEN_I ch) (by clear * -; decide +revert)]
    exact hopen)]
  have hoff' : (driveSample 1 ch r (iOf w) s d).on (VALVE.FAULT.CAUSE ch) = false := by
    rw [← hoff, Dev.on, hkept.regs _ (by clear * -; decide +revert)]
    rfl
  generalize driveSample 1 ch r (iOf w) s d = e at hoff'
  obtain ⟨hcause, hrun⟩ := chanFault_first hoff' (cause := 1) (by decide)
  have hdrive := (chanFault_spec e ch (cause := 1) (by decide)).2.2.1
  have hshow := hsgShow_kept (chanFault e ch 1) ch (· = ch)
  refine ⟨_, rfl, by rw [hsgShow_valves, hrun], ?_, ?_⟩
  · rw [hshow.regs _ (by clear * -; decide +revert), hcause]
  · rw [hshow.regs _ (by clear * -; decide +revert), hdrive]

/-- A released WAITR goes on to the next instruction. -/
theorem waitr_released {d : Dev} {m : Memory} {ch : Fin 16} {r : Run} {w : Nat} (h : Drives d m ch r w 6) {t : Nat}
    (hleft : r.left = some t) (hrel : d.valves[ch].released = true) (samples : List Nat) :
    driveInstr 6 ch samples (d, m) = (hsgShow (advance d ch (r.pc + 1)) (groupOf ch), m) := by
  have hsome : r.left.isSome = true := by rw [hleft]; rfl
  simp only [driveInstr, h.run, progRead_sound (x := (d, m)) h.checks h.gone, ← h.word, h.op, ne_eq, not_true_eq_false, if_false, hsome,
    if_true, hrel, and_self]

end Sys2Proof.Machine
end

section
/-! SUPPORT. Admission (R239, R240), the start of a drive instruction, and the statement about drive instructions. -/

namespace Sys2Proof.Machine

/-! ## The waiting channels -/

theorem filterMap_of_none {α β : Type} {f : α → Option β} {l : List α} (h : ∀ x ∈ l, f x = none) : l.filterMap f = [] :=
  List.filterMap_eq_nil_iff.2 h

/-- Of a list without repetition one element alone gives a value. -/
theorem filterMap_single {α β : Type} [DecidableEq α] {f : α → Option β} {a : α} {b : β} {l : List α} (hl : l.Nodup) (ha : a ∈ l)
    (hb : f a = some b) (hothers : ∀ x, x ≠ a → f x = none) : l.filterMap f = [b] := by
  induction l with
  | nil => exact absurd ha List.not_mem_nil
  | cons x l ih =>
    obtain ⟨hx, hl⟩ := List.nodup_cons.1 hl
    by_cases he : x = a
    · subst he
      rw [List.filterMap_cons_some hb, filterMap_of_none fun y hy => hothers y fun hc => hx (hc ▸ hy)]
    · rw [List.filterMap_cons_none (hothers x he), ih hl ((List.mem_cons.1 ha).resolve_left (Ne.symm he))]

/-- What a channel waits for, and since when. -/
def waitOf (d : Dev) (c : Fin 16) : Option (Nat × Nat × Nat) := (d.valves[c].run).bind Run.wait

theorem waitOf_none {d : Dev} {c : Fin 16} (h : ∀ e, d.valves[c].run = some e → e.wait = none) : waitOf d c = none := by
  unfold waitOf
  cases hr : d.valves[c].run with
  | none => rfl
  | some e => exact h e hr

theorem waiters_none {d : Dev} (h : ∀ c, waitOf d c = none) : waiters d = [] := by
  have hnil : allValves.filterMap (fun c => (waitOf d c).map fun w => (w.1, c)) = [] := filterMap_of_none fun c _ => by rw [h c]; rfl
  unfold waitOf at hnil
  rw [waiters, hnil]
  rfl

theorem waiters_one {d : Dev} {ch : Fin 16} {w : Nat × Nat × Nat} (hw : waitOf d ch = some w)
    (hothers : ∀ c, c ≠ ch → waitOf d c = none) : waiters d = [ch] := by
  have hone : allValves.filterMap (fun c => (waitOf d c).map fun w => (w.1, c)) = [(w.1, ch)] :=
    filterMap_single (List.nodup_finRange 16) (List.mem_finRange ch) (by rw [hw]; rfl) fun c hc => by rw [hothers c hc]; rfl
  unfold waitOf at hone
  rw [waiters, hone]
  rfl

/-! ## Admission -/

/-- Whether a need is admitted turns on the registers and the other channels alone. -/
theorem admits_congr {d e : Dev} {ch : Fin 16} (hregs : e.regs = d.regs) (hv : ∀ c : Fin 16, c ≠ ch → e.valves[c] = d.valves[c])
    (cls budget : Nat) : admits e ch cls budget = admits d ch cls budget := by
  have hrd (f : Fld) : e.rd f = d.rd f := Dev.rd_of_regs_eq hregs f
  have hsum (p : Fin 16 → Bool) : otherBudgets e ch p = otherBudgets d ch p := by
    unfold otherBudgets
    refine congrArg List.sum (List.map_congr_left fun c hc => ?_)
    have hne : c ≠ ch := by
      have := (List.mem_filter.1 hc).2
      simp only [Bool.and_eq_true, bne_iff_ne] at this
      exact this.1
    rw [hv c hne]
  have htoken : ((groupChs (groupOf ch)).any fun c => c != ch && ((e.valves[c].run).bind Run.peakSince).isSome) =
      (groupChs (groupOf ch)).any fun c => c != ch && ((d.valves[c].run).bind Run.peakSince).isSome := by
    congr 1
    funext c
    by_cases hc : c = ch
    · simp [hc]
    · rw [hv c hc]
  simp only [admits, Dev.on, hrd, hsum, htoken]

/-- The registers that a grant may write. -/
def grantFields (g : Nat) : List Fld := [HSG.PEAK_GRANT_CNT.CNT g, HSG.PEAK_WAIT_CNT.CNT g, HSG.WAIT_MAX.US g] ++ hsgFields g

theorem grantFields_page (ch : Fin 16) : ∀ f ∈ grantFields (groupOf ch), f.key / 131072 ∈ [Page.HSG (groupOf ch)] := by
  decide +revert

theorem admitOne_refused {d : Dev} {ch : Fin 16} {r : Run} {since cls budget : Nat} (hr : d.valves[ch].run = some r)
    (hw : r.wait = some (since, cls, budget)) (h : admits d ch cls budget = false) (fresh : Option (Fin 16)) :
    admitOne fresh d ch = d := by
  simp only [admitOne, hr, hw, h, Bool.false_eq_true, if_false]

/-- A request that fits is granted: its class and its budget count from now. -/
theorem admitOne_granted {d : Dev} {ch : Fin 16} {r : Run} {since cls budget : Nat} (hr : d.valves[ch].run = some r)
    (hw : r.wait = some (since, cls, budget)) (h : admits d ch cls budget = true) (fresh : Option (Fin 16)) :
    (∃ e, (admitOne fresh d ch).valves[ch].run = some e ∧ e.wait = none ∧ e.admitted = true ∧ e.cls = cls ∧ e.budget = budget ∧
      e.pc = r.pc) ∧
    d.ValveKept (admitOne fresh d ch) (· = ch) (· ∈ (grantFields (groupOf ch)).map Fld.key) := by
  generalize he : admitOne fresh d ch = e
  simp only [admitOne, hr, hw, h, if_true] at he
  generalize hd1 : (d.updRun ch fun r => { r.enter cls budget d.now with wait := none, admitted := true }) = d1 at he
  have hrun := hd1 ▸ updRun_some hr fun r => { r.enter cls budget d.now with wait := none, admitted := true }
  have h1 : d.ValveKept d1 (· = ch) (· ∈ (grantFields (groupOf ch)).map Fld.key) := hd1 ▸ (Dev.ValveKept.refl d (· = ch) _).updRun rfl _
  have hgrant (a : Prop) [Decidable a] :
      d1.OnlyRegs (if a then d1.inc (HSG.PEAK_GRANT_CNT.CNT (groupOf ch)) else d1) (grantFields (groupOf ch)) :=
    Dev.OnlyKeys.ite _ ((Dev.OnlyKeys.refl d1 _).inc (by simp [grantFields])) (.refl d1 _)
  have honly : d1.OnlyRegs e (grantFields (groupOf ch)) := by
    rw [← he]
    refine Dev.OnlyKeys.trans ?_ ⟨(hsgShow_only _ _).1, (hsgShow_only _ _).2.subset (List.subset_append_right _ _)⟩
    refine Dev.OnlyKeys.trans ?_ ⟨(waitOver_only _ _ _).1, (waitOver_only _ _ _).2.subset (by simp [grantFields])⟩
    exact Dev.OnlyKeys.ite _ (Dev.OnlyKeys.inc (hgrant _) (by simp [grantFields])) (hgrant _)
  have hvalves : e.valves = d1.valves := by rw [honly.1]
  rw [← hvalves] at hrun
  exact ⟨⟨_, hrun, rfl, rfl, rfl, rfl, rfl⟩, h1.of_onlyKeys honly⟩

theorem grantAll_none {d : Dev} (h : ∀ c, waitOf d c = none) (fresh : Option (Fin 16)) : grantAll fresh d = d := by
  rw [grantAll, waiters_none h]
  rfl

theorem grantAll_one {d : Dev} {ch : Fin 16} {w : Nat × Nat × Nat} (hw : waitOf d ch = some w)
    (hothers : ∀ c, c ≠ ch → waitOf d c = none) (fresh : Option (Fin 16)) : grantAll fresh d = admitOne fresh d ch := by
  rw [grantAll, waiters_one hw hothers]
  rfl

/-! ## The start of an instruction -/

/-- The budget of an instruction: four times its current, and none without a current class. -/
def opBudget (op w : Nat) : Nat := if opClass op = 0 then 0 else 4 * iOf w

/-- A begun instruction has its T, is counted, keeps its pc and its budget, and stamps program start but for WAIT. -/
theorem Run.begin_spec (r : Run) (op now pos t : Nat) :
    (r.begin op now pos t).left = some t ∧ (r.begin op now pos t).pc = r.pc ∧ (r.begin op now pos t).count = r.count + 1 ∧
    (r.begin op now pos t).budget = r.budget ∧
    (r.begin op now pos t).start = if op = 11 ∨ r.start.isSome then r.start else some (now, pos) := by
  unfold Run.begin
  extract_lets r1 r2
  split
  · exact ⟨rfl, rfl, rfl, rfl, rfl⟩
  · cases hr : r2.armed <;> exact ⟨rfl, rfl, rfl, rfl, rfl⟩

/-- An instruction that is admitted, or needs nothing, begins. -/
theorem driveInstr_begins {d : Dev} {m : Memory} {ch : Fin 16} {r : Run} {w op : Nat} (h : Drives d m ch r w op) (hleft : r.left = none)
    (hready : r.admitted = true ∨ op = 4 ∨ op = 5 ∨ op = 11) (hrole : op = 6 → d.rd (VALVE.CFG.ROLE ch) = 2) :
    driveInstr op ch [] (d, m) = (hsgShow (d.updRun ch fun r =>
      (r.enter (opClass op) (opBudget op w) d.now).begin op d.nowNs (webPosUm d) (tOf w)) (groupOf ch), m) := by
  have hneeds : (!r.admitted && ((opClass op == 2 && r.peakSince.isNone) || decide (r.budget < opBudget op w))) = false := by
    rcases hready with hadm | rfl | rfl | rfl
    · rw [hadm]
      rfl
    iterate 3 · simp [opClass, opBudget]
  have hnot : ¬ (op = 6 ∧ d.rd (VALVE.CFG.ROLE ch) ≠ 2) := fun ⟨h6, hne⟩ => hne (hrole h6)
  unfold opBudget at hneeds ⊢
  simp only [driveInstr, h.run, progRead_sound (x := (d, m)) h.checks h.gone, ← h.word, h.op, ne_eq, not_true_eq_false, if_false, hleft,
    Option.isSome_none, Bool.false_eq_true, if_neg hnot, hneeds, Bool.not_false, if_true, false_and, driveTicks]

/-- A BOOST that does not fit waits with its request. -/
theorem driveInstr_waits {d : Dev} {m : Memory} {ch : Fin 16} {r : Run} {w : Nat} (h : Drives d m ch r w 1) (hleft : r.left = none)
    (hadm : r.admitted = false) (hpeak : r.peakSince = none) (hwait : r.wait = none) (hothers : ∀ c, waitOf d c = none)
    (hfull : admits d ch 2 (4 * iOf w) = false) :
    driveInstr 1 ch [] (d, m) =
      (hsgShow (d.updRun ch fun r => { r with wait := some (d.now, 2, 4 * iOf w) }) (groupOf ch), m) := by
  generalize hd1 : (d.updRun ch fun r => { r with wait := some (d.now, 2, 4 * iOf w) }) = d1
  have hrun : d1.valves[ch].run = some { r with wait := some (d.now, 2, 4 * iOf w) } := hd1 ▸ updRun_some h.run _
  have hv (c : Fin 16) (hc : c ≠ ch) : d1.valves[c] = d.valves[c] := hd1 ▸ updValve_valves_other d hc _
  have hwaits : waitOf d1 ch = some (d.now, 2, 4 * iOf w) := by rw [waitOf, hrun]; rfl
  have hgrant : grantAll (some ch) d1 = d1 := by
    rw [grantAll_one hwaits fun c hc => by rw [waitOf, hv c hc]; exact hothers c]
    exact admitOne_refused hrun rfl ((admits_congr (hd1 ▸ rfl) hv 2 _).trans hfull) _
  simp only [driveInstr, h.run, progRead_sound (x := (d, m)) h.checks h.gone, ← h.word, h.op, ne_eq, not_true_eq_false, if_false, hleft,
    Option.isSome_none, Bool.false_eq_true, hadm, hpeak, hwait, opClass]
  simp [-Fin.getElem_fin, hgrant, hrun, hadm, hd1]

/-! ## The statement -/

/-- The drive instructions with their opcodes. -/
def driveOps : List ((Fin 16 → List Nat → Instr) × Nat) :=
  [(Instr.boost, 1), (Instr.regp, 2), (Instr.regh, 3), (Instr.free, 4), (Instr.quench, 5), (Instr.waitr, 6), (Instr.wait, 11)]

theorem exec_drive {q : (Fin 16 → List Nat → Instr) × Nat} (hq : q ∈ driveOps) (s : State) (ch : Fin 16) (samples : List Nat) :
    exec (q.1 ch samples) s = s.onBoth (driveInstr q.2 ch samples) := by
  simp only [driveOps, List.mem_cons, List.not_mem_nil, or_false] at hq
  rcases hq with rfl | rfl | rfl | rfl | rfl | rfl | rfl <;> rfl

theorem gives_drive {q : (Fin 16 → List Nat → Instr) × Nat} (hq : q ∈ driveOps) {s : State} (hup : s.dev.up = true) {ch : Fin 16}
    {samples : List Nat} {P : Dev → Prop}
    (h : ∃ e, driveInstr q.2 ch samples (s.dev, s.mem) = (e, s.mem) ∧ P e) : Gives (q.1 ch samples) s P := by
  obtain ⟨e, he, hP⟩ := h
  exact gives_of_onBoth (exec_drive hq s ch samples) hup (congrArg Prod.snd he) (by rw [he]; exact hP)

/-- Only FREE, QUENCH and WAIT have no current class. -/
theorem driveOps_budget {q : (Fin 16 → List Nat → Instr) × Nat} (hq : q ∈ driveOps) (w : Nat) :
    opBudget q.2 w = if q.2 = 4 ∨ q.2 = 5 ∨ q.2 = 11 then 0 else 4 * iOf w := by
  simp only [driveOps, List.mem_cons, List.not_mem_nil, or_false] at hq
  rcases hq with rfl | rfl | rfl | rfl | rfl | rfl | rfl <;> rfl

/-- Settles O31: the drive instructions that idle, go on, end and begin, and admission. -/
theorem driveInstructionsRun : Obligations.DriveInstructionsRun := by
  refine ⟨fun q hq => ⟨fun s ch samples hup hs h => ?_, fun s ch r w t i hup hs hr hw hword hop hleft ht hi h1 h5 h6 => ?_,
      fun s ch r w i hup hs hr hw hword hop h6 hleft h1 hi => ?_, fun s ch r w hup hs hr hw hword hop hleft hready hrole => ?_⟩,
    fun s ch r w t i hup hs hr hw hword hop hleft ht hi hle => ?_, fun s ch r w t i hup hs hr hw hword hop hleft ht hi hle => ?_,
    fun s ch r w i hup hs hr hw hword hop hleft hlt hi hopen hoff => ?_, fun s ch r w t samples hup hs hr hw hword hop hleft hrel => ?_,
    fun s ch r w hup hs hr hw hword hop hleft hadm hpeak hwait hnone hfull => ?_,
    fun s ch r since cls budget hup hr hwait hothers hfits => ?_, fun s hup hnone => ?_⟩
  · exact gives_drive hq hup ⟨_, driveInstr_idle hs.1 hs.2 h samples, rfl⟩
  · refine gives_drive hq hup ?_
    obtain ⟨e, he, hrun, hnow, hdrive, hkept⟩ := driveInstr_goesOn ⟨hs.1, hs.2, hr, hw, hword, hop⟩ hleft ht hi h1 h5 h6
    refine ⟨e, he, hrun, hnow, fun ho => ?_, fun ho => ?_, fun ho => ?_, fun ho => ?_, fun ho => ?_,
      hkept.keepsPages (driveFields_page ch), hkept.others⟩
    iterate 4
      · rw [hdrive, ho]
        rfl
    · rw [hdrive, driveFor_regulates s.dev ch ho]
  · refine gives_drive hq hup ?_
    exact driveInstr_ends ⟨hs.1, hs.2, hr, hw, hword, hop⟩ hleft hi h6 (.inr (.inr ⟨rfl, h1⟩))
  · refine gives_drive hq hup ⟨_, driveInstr_begins ⟨hs.1, hs.2, hr, hw, hword, hop⟩ hleft hready hrole, ?_⟩
    obtain ⟨hl, hpc, hcount, hbudget, hstart⟩ :=
      (r.enter (opClass q.2) (opBudget q.2 w) s.dev.now).begin_spec q.2 s.dev.nowNs (webPosUm s.dev) (tOf w)
    have hrun := updRun_some hr fun r =>
      (r.enter (opClass q.2) (opBudget q.2 w) s.dev.now).begin q.2 s.dev.nowNs (webPosUm s.dev) (tOf w)
    rw [← hsgShow_valves _ (groupOf ch)] at hrun
    exact ⟨⟨_, hrun, hl, hpc, hcount, hbudget.trans (driveOps_budget hq w), hstart⟩,
      (hsgShow_kept _ ch (· = ch)).keepsPages (by clear * -; decide +revert)⟩
  · refine gives_drive (q := (Instr.boost, 1)) (by simp [driveOps]) hup ?_
    obtain ⟨e, he, hrun, -, hkeep⟩ := driveInstr_ends ⟨hs.1, hs.2, hr, hw, hword, hop⟩ hleft hi (by decide) (.inl ⟨rfl, hle⟩)
    exact ⟨e, he, hrun, hkeep⟩
  · refine gives_drive (q := (Instr.quench, 5)) (by simp [driveOps]) hup ?_
    obtain ⟨e, he, hrun, -, hkeep⟩ := driveInstr_ends ⟨hs.1, hs.2, hr, hw, hword, hop⟩ hleft hi (by decide) (.inr (.inl ⟨rfl, hle⟩))
    exact ⟨e, he, hrun, hkeep⟩
  · refine gives_drive (q := (Instr.boost, 1)) (by simp [driveOps]) hup ?_
    exact driveInstr_opens ⟨hs.1, hs.2, hr, hw, hword, hop⟩ hleft hlt hi hopen hoff
  · refine gives_drive (q := (Instr.waitr, 6)) (by simp [driveOps]) hup
      ⟨_, waitr_released ⟨hs.1, hs.2, hr, hw, hword, hop⟩ hleft hrel samples, ?_⟩
    obtain ⟨hrun, -, hkeep⟩ := advance_shown (d := s.dev) hr (.refl _ _ _)
    exact ⟨hrun, hkeep⟩
  · refine gives_drive (q := (Instr.boost, 1)) (by simp [driveOps]) hup
      ⟨_, driveInstr_waits ⟨hs.1, hs.2, hr, hw, hword, hop⟩ hleft hadm hpeak hwait (fun c => waitOf_none (hnone c)) hfull, ?_⟩
    have hrun := updRun_some hr fun r => { r with wait := some (s.dev.now, 2, 4 * iOf w) }
    rw [← hsgShow_valves _ (groupOf ch)] at hrun
    exact ⟨⟨_, hrun, rfl, rfl, hleft⟩, (hsgShow_kept _ ch (· = ch)).keepsPages (by clear * -; decide +revert)⟩
  · refine gives_of_onDev (g := admissionGrant) rfl hup ?_
    have hw : waitOf s.dev ch = some (since, cls, budget) := by rw [waitOf, hr]; exact hwait
    rw [admissionGrant, grantAll_one hw fun c hc => waitOf_none (hothers c hc)]
    obtain ⟨hrun, hkept⟩ := admitOne_granted hr hwait hfits none
    exact ⟨hrun, hkept.keepsPages (grantFields_page ch), hkept.others⟩
  · exact gives_of_onDev rfl hup (grantAll_none (fun c => waitOf_none (hnone c)) none)

end Sys2Proof.Machine
end
